-- ==== Sys2Proof/Word.lean ====
section
/-! DEFINITION. The word types of the part (R15 to R17): bytes, 64-bit registers and data words. -/

namespace Sys2Proof

/-- A byte. -/
abbrev Byte := BitVec 8

/-- A 64-bit register or message word (R17). -/
abbrev Word := BitVec 64

/-- A run of bytes, first byte at the lowest address. -/
abbrev Bytes := List Byte

end Sys2Proof
end

