-- ==== Sys2Proof/Syntax.lean ====
section
/-! DEFINITION. The commands of the part: one constructor for each row of the table of operations and events. A command
comes from outside (a register access, a packet, a pin) or is an event of the part itself (a timer, a completion). -/

namespace Sys2Proof

/-- Who writes or reads a register: the host through HST, or a Tilal controller (R48, R816). -/
inductive Agent where
  | host | ctlA | ctlB
deriving DecidableEq, Repr

/-- The engines of a cluster (R132), `seq` standing for the sequencer. -/
inductive Engine where
  | tensor | vector | select | move | seq
deriving DecidableEq, Repr

/-- An arbiter of the design of R265: a slice bank or a pad-bank port of a cluster, a plane or the slots of a port's output,
or the queue of a memory lane. -/
inductive ArbId where
  | slice (p bank : Nat)
  | padEngine (p bank : Nat)
  | padBarrow (p bank : Nat)
  | plane (port : Nat) (reply : Bool)
  | slot (port : Nat)
  | memLane (k : Nat)
deriving DecidableEq, Repr

/-- A fabric packet: the head's four words (R447) and the data that follow; `poisoned` marks one cut under R454. -/
structure Packet where
  w0 : Word
  w1 : Word
  w2 : Word
  w3 : Word
  data : Bytes
  poisoned : Bool
deriving DecidableEq, Repr

/-- The content of a HELLO control message (R483). -/
structure HelloMsg where
  chip : Nat
  port : Nat
  portGen : Nat
  fabGen : Nat
  rackId : Nat
  width : Nat
deriving DecidableEq, Repr

/-- What a bridge reports when its lane has trained (R418 event 4, R385, R421): whether the lane came up and on how many
optical lanes, the tier-1 module's rate (0 none), the forwarded module present, its lease, and contents lost. -/
structure BridgeReport where
  up : Bool
  width : Nat
  speed : Nat
  sizeOk : Bool
  fwdPresent : Bool
  fwdSizeOk : Bool
  lease : BitVec 32
  lostNear : Bool
  lostFwd : Bool
deriving DecidableEq, Repr

/-- The bytes of a posted write of the host, each present or masked by its byte enable; none where the request fails ECRC (R549, R551,
R559). -/
abbrev HostData := Option (List (Option Byte))

/-- An optical lane of a unit that fails: it loses light, or shows so many symbol errors within 1 ms (R381, R438, R544, R600). -/
structure OpticalLane where
  lane : Nat
  errors : Option Nat
deriving DecidableEq, Repr

/-- The status of a PCIe completion to a barrow read (R559). -/
inductive CplStatus where
  | ok | unsupported | abort | poisoned | ecrc
deriving DecidableEq, Repr

/-- The two MCTP endpoints: over PCIe VDM (R574) and over I3C (R830). -/
inductive Endpoint where
  | vdm | i3c
deriving DecidableEq, Repr

/-- A level of reset that a timeout can abandon (R708). -/
inductive ResetLevel where
  | cluster | quadrant | compute
deriving DecidableEq, Repr

/-- The hub state that reads as uncorrectable during harvest (R701). -/
structure HarvestLoss where
  contexts : List Nat
  sets : List Nat
  images : List Nat
  tallies : List Nat
  messages : List Nat
deriving DecidableEq, Repr

/-- The content of a TIME_SYNC flit (R805). -/
structure SyncMsg where
  synced : Bool
  root : Bool
  hops : Nat
  rootChip : Nat
  seq : Nat
  t1 : Word
  t2 : Word
  t3 : Word
deriving DecidableEq, Repr

/-- The commands, in the order of the table. -/
inductive Instr where
  /-- REGISTER_WRITE (R26): A control-window write to a register that has no row of its own takes effect under its field access codes. -/
  | registerWrite (w : Agent) (addr size : Nat) (value : Word)
  /-- CONTROL_READ_OVERSIZE (R548): A control-window read larger than 8 bytes or crossing a 64-bit boundary completes with Unsupported Request and raises the bad-access event. -/
  | controlReadOversize (addr len : Nat)
  /-- SNAP_READ (R817): A read of a SNAP field opens or reuses the reader's snapshot latch for the block and returns the captured values. -/
  | snapRead (r : Agent) (addr size : Nat)
  /-- SNAP_LATCH_EXPIRY (R818): A snapshot latch closes 100 µs after it opened, or 1 ms after it was opened by GLB_SNAP_CTL. -/
  | snapLatchExpiry (r : Agent) (block : Nat)
  /-- GLB_SNAP_CTL_WRITE (R821): A write to GLB_SNAP_CTL captures the SNAP fields of every named block at one instant and opens the writer's latches. -/
  | glbSnapCtlWrite (w : Agent) (value : Word)
  /-- COMMIT (R822): A write of GO to a block's COMMIT register applies the writer's staged RWC values, or refuses them all under R29. -/
  | commit (w : Agent) (block : Nat)
  /-- CLUSTER_COMMIT_APPLY (R276): A pending CLU commit takes effect once the cluster is IDLE. -/
  | clusterCommitApply (p : Nat)
  /-- DEFERRED_COMMIT_APPLY (R827): A staged value that its chapter defers (a mirror change, a port mode change or a group change) takes effect once its condition holds, and PENDING then clears. -/
  | deferredCommitApply (block : Nat)
  /-- COMMIT_GROUP (R827): A write of GO to GLB_COMMIT_GROUP commits the writer's sets of every named block as one group, or refuses them all. -/
  | commitGroup (w : Agent) (value : Word)
  /-- CTX_PEEK_SEL_WRITE (R368): A write to CTX_PEEK_SEL latches the 16 words of the selected context slot into CTX_PEEK_DATA. -/
  | ctxPeekSelWrite (w : Agent) (value : Word)
  /-- LOG_READ_SEL_WRITE (R847): A write to LOG_READ_SEL latches the selected change-log entry into LOG_READ_DATA, or sets MISS. -/
  | logReadSelWrite (w : Agent) (value : Word)
  /-- TLY_ADD (R375): A write to TLY_ADD[n] adds the written value to hub tally n, or holds it as a pending add under R348. -/
  | tlyAdd (w : Agent) (n : Nat) (value : Word)
  /-- TEL_TEMP_MAX_WRITE (R848): Any write to TEL_TEMP[i].MAX loads that field with the present reading of sensor i. -/
  | telTempMaxWrite (w : Agent) (i : Nat)
  /-- CRING_HEAD_WRITE (R356): The host reports its consumer count in DSP_CRING_HEAD, and the VX9 writes held records as entries become free. -/
  | cringHeadWrite (w : Agent) (r : Nat) (head : BitVec 32)
  /-- LANE_RESET (R341): A write of 1 to DSP_LANE_CFG[l].RESET discards the lane's untaken cells and clears STALLED, OVERRUN and STRAY. -/
  | laneReset (w : Agent) (l : Nat)
  /-- INTAKE_WRITE (R336): A posted write lands bytes in the cells of an intake lane. -/
  | intakeWrite (offset : Nat) (data : HostData)
  /-- LANE_STALL_TIMEOUT (R341): A head cell that has stayed partly written for 10 ms sets STALLED. -/
  | laneStallTimeout (l : Nat)
  /-- TAKE (R337): The dispatcher takes the lane's next accepted cell into the pending store and empties the cell. -/
  | take (l : Nat)
  /-- CREDIT_WRITE (R339): The VX9 writes a lane's TAKEN count to DSP_LANE_CREDIT_ADDR within 1 µs of a take. -/
  | creditWrite (l : Nat)
  /-- STEP_MESSAGE_END (R344): A pending STEP message is ended without running with CLOSED, SEQUENCE, MEMBER, IMAGE or DEVICE_STATE once its condition is found. -/
  | stepMessageEnd (num : Nat)
  /-- STEP_CHOOSE (R345): The dispatcher chooses the next eligible step by class and reserves every logical cluster of its image. -/
  | stepChoose
  /-- STEP_ADMIT (R347): A chosen step whose clusters are all IDLE is admitted, its contexts become RUNNING, the granules are written and the clusters start at ENTRY. -/
  | stepAdmit (num : Nat)
  /-- RESERVATION_RELEASE (R346): A chosen step that stops being eligible before admission gives up its reservation and returns to the pending store. -/
  | reservationRelease (num : Nat)
  /-- OPEN (R308): Management message OPEN opens a FREE context slot with the host-supplied fields after its checks. -/
  | openCtx (num : Nat)
  /-- TEARDOWN (R360): Management message TEARDOWN makes the context CLOSING, abandons its step in flight, advances GEN and ends its pending steps. -/
  | teardown (num : Nat)
  /-- TEARDOWN_DONE (R360): Once every engine has acknowledged the old generation, windows are revoked, the key reference is released, the ABANDONED and TEARDOWN_DONE records are posted and the context becomes FREE. -/
  | teardownDone (ctx : Nat)
  /-- SET_WINDOW (R314): Management message SET_WINDOW sets or clears one window entry of a window set once no step in flight can reach it. -/
  | setWindow (num : Nat)
  /-- LOAD_KEY (R320): Management message LOAD_KEY unwraps a wrapped key into a key slot with its tenant and key generation. -/
  | loadKey (num : Nat)
  /-- CLEAR_KEY (R320): Management message CLEAR_KEY zeroises a key slot that no context names. -/
  | clearKey (num : Nat)
  /-- SET_ADAPTER (R323): Management message SET_ADAPTER sets one adapter entry of a context once no step in flight can reach it. -/
  | setAdapter (num : Nat)
  /-- LOAD_IMAGE (R326): Management message LOAD_IMAGE, once no step runs on the image's clusters, sets the image LOADING, empties overlapping images and starts the barrow copies. -/
  | loadImage (num : Nat)
  /-- IMAGE_LOADED (R326): When the last region of an image has landed on every cluster, the image becomes LOADED. -/
  | imageLoaded (i : Nat)
  /-- IMAGE_SOURCE_REFUSED (R896): A master-copy line that fails its checks stops the load, sets the image EMPTY and ends LOAD_IMAGE with REFUSED, detail SOURCE. -/
  | imageSourceRefused (i : Nat)
  /-- COMPLETION_RECORD_WRITE (R354): The VX9 writes a completion record to its ring as words 1–7 followed by word 0. -/
  | completionRecordWrite (r : Nat)
  /-- COALESCE_TIMEOUT (R357): COALESCE_US after the oldest unsignalled record, the ring's MSI-X vector is raised. -/
  | coalesceTimeout (r : Nat)
  /-- MSIX_PENDING_SEND (R564): A vector whose pending bit is set sends one message once it can send again. -/
  | msixPendingSend (v : Nat)
  /-- NOP (R201): Descriptor NOP does nothing beyond its wait and signal. -/
  | nop (p : Nat)
  /-- HALT (R162): Descriptor HALT stops the sequencer and ends the step with PROGRAM_FAULT. -/
  | halt (p : Nat)
  /-- WLOAD (R208): Descriptor WLOAD fills the shadow weight plane from the own slice, pad or a ring window. -/
  | wload (p : Nat)
  /-- MMA (R210): Descriptor MMA streams M activation rows through the active tile into accumulator rows, swapping the planes after a WLOAD. -/
  | mma (p : Nat)
  /-- MMA_MERGE (R211): The merge form of MMA merges ACC_RAW images into LONG accumulator rows after residue and anchor checks. -/
  | mmaMerge (p : Nat)
  /-- MMA_ADAPT (R213): Descriptor MMA_ADAPT adds the scaled adapter product of the bound context's adapter entry into accumulator rows. -/
  | mmaAdapt (p : Nat)
  /-- DRAIN (R216): Descriptor DRAIN converts accumulator rows to the output format and writes them to the pad or slice. -/
  | drain (p : Nat)
  /-- ACC_CLEAR (R219): Descriptor ACC_CLEAR clears accumulator rows into LONG or FP32 mode with their anchor. -/
  | accClear (p : Nat)
  /-- ACC_SCALE (R221): Descriptor ACC_SCALE scales accumulator rows by 2^k. -/
  | accScale (p : Nat)
  /-- VADD (R224): Vector descriptor VADD writes a + b for each element. -/
  | vadd (p : Nat)
  /-- VMUL (R224): Vector descriptor VMUL writes a × b for each element. -/
  | vmul (p : Nat)
  /-- VFMA (R224): Vector descriptor VFMA writes a × b + c with one rounding. -/
  | vfma (p : Nat)
  /-- VMAX (R104): Vector descriptor VMAX writes the larger of a and b. -/
  | vmax (p : Nat)
  /-- VMIN (R104): Vector descriptor VMIN writes the smaller of a and b. -/
  | vmin (p : Nat)
  /-- VCMP (R224): Vector descriptor VCMP writes 1 or 0 for the relation that SUBOP selects. -/
  | vcmp (p : Nat)
  /-- VSELECT (R224): Vector descriptor VSELECT writes a where c is nonzero and b elsewhere. -/
  | vselect (p : Nat)
  /-- VCVT (R226): Vector descriptor VCVT converts elements between formats, blocked formats included. -/
  | vcvt (p : Nat)
  /-- VSFU_EXP (R150): VSFU with SUBOP exp computes exp of each element. -/
  | vsfuExp (p : Nat)
  /-- VSFU_LOG (R150): VSFU with SUBOP log computes log of each element. -/
  | vsfuLog (p : Nat)
  /-- VSFU_RECIPROCAL (R150): VSFU with SUBOP reciprocal computes 1/x of each element. -/
  | vsfuReciprocal (p : Nat)
  /-- VSFU_RSQRT (R150): VSFU with SUBOP rsqrt computes the reciprocal square root of each element. -/
  | vsfuRsqrt (p : Nat)
  /-- VSFU_TANH (R150): VSFU with SUBOP tanh computes tanh of each element. -/
  | vsfuTanh (p : Nat)
  /-- VSFU_SIGMOID (R150): VSFU with SUBOP sigmoid computes the sigmoid of each element. -/
  | vsfuSigmoid (p : Nat)
  /-- VSFU_GELU (R150): VSFU with SUBOP GELU computes GELU of each element. -/
  | vsfuGelu (p : Nat)
  /-- VREDUCE_SUM (R105): VREDUCE with SUBOP sum sums each group of 256 by the fixed pairwise tree. -/
  | vreduceSum (p : Nat)
  /-- VREDUCE_MAX (R225): VREDUCE with SUBOP max writes the maximum of each group of 256. -/
  | vreduceMax (p : Nat)
  /-- VREDUCE_MIN (R225): VREDUCE with SUBOP min writes the minimum of each group of 256. -/
  | vreduceMin (p : Nat)
  /-- VSOFTMAX (R227): Descriptor VSOFTMAX computes the softmax of each row in a fixed order. -/
  | vsoftmax (p : Nat)
  /-- VNORM_RMS (R228): VNORM with SUBOP RMS applies RMS normalisation with gain to each row. -/
  | vnormRms (p : Nat)
  /-- VNORM_LAYER (R228): VNORM with SUBOP LAYER applies layer normalisation with gain and bias to each row. -/
  | vnormLayer (p : Nat)
  /-- VRAND_UNIFORM (R230): VRAND with SUBOP uniform writes Philox-derived FP32 values in [0, 1). -/
  | vrandUniform (p : Nat)
  /-- VRAND_RAW (R230): VRAND with SUBOP raw writes Philox output word 0 as I32. -/
  | vrandRaw (p : Nat)
  /-- VTOPK (R231): Descriptor VTOPK writes the k largest values and their indices in descending order. -/
  | vtopk (p : Nat)
  /-- VGATHER (R232): Descriptor VGATHER reads 64-byte granules at indexed positions of a table. -/
  | vgather (p : Nat)
  /-- VSCATTER (R232): Descriptor VSCATTER writes 64-byte granules to indexed positions of a table. -/
  | vscatter (p : Nat)
  /-- LMOVE (R235): Descriptor LMOVE copies bytes between the cluster's own pad, slice and ring windows. -/
  | lmove (p : Nat)
  /-- TMOVE_PULL (R236): TMOVE with DIR 0 pulls bytes from another cluster's pad or slice into local memory. -/
  | tmovePull (p : Nat)
  /-- TMOVE_PUSH (R236): TMOVE with DIR 1 pushes local bytes into another cluster's pad or slice. -/
  | tmovePush (p : Nat)
  /-- BARROW_INBOUND (R237): BARROW with DIR 0 hands the hub a transfer from a tier or host window into local memory. -/
  | barrowInbound (p : Nat)
  /-- BARROW_OUTBOUND (R238): BARROW with DIR 1 hands the hub a transfer from local memory to a tier, host or remote window. -/
  | barrowOutbound (p : Nat)
  /-- RING_CFG (R241): Descriptor RING_CFG configures a ring window once no queued or running descriptor addresses it. -/
  | ringCfg (p : Nat)
  /-- TWAIT (R249): Descriptor TWAIT completes once its wait holds. -/
  | twait (p : Nat)
  /-- TSIGNAL (R242): Descriptor TSIGNAL adds AMOUNT to a local or hub tally. -/
  | tsignal (p : Nat)
  /-- TADD_REMOTE (R243): Descriptor TADD_REMOTE holds a remote tally increment to be sent at commit. -/
  | taddRemote (p : Nat)
  /-- FENCE (R161): Descriptor FENCE completes once every earlier descriptor has completed and its hub signals have landed. -/
  | fence (p : Nat)
  /-- LOOP (R244): Descriptor LOOP opens a loop with a count from COUNT or a tally, or skips it. -/
  | loopD (p : Nat)
  /-- ENDLOOP (R244): Descriptor ENDLOOP returns to the loop body or closes the loop. -/
  | endloop (p : Nat)
  /-- BRANCH_TALLY (R245): Descriptor BRANCH_TALLY compares a tally with VALUE and jumps to TARGET when COND holds. -/
  | branchTally (p : Nat)
  /-- CALL (R156): Descriptor CALL jumps to TARGET and opens a call level. -/
  | call (p : Nat)
  /-- RET (R248): Descriptor RET returns from the innermost call. -/
  | ret (p : Nat)
  /-- STEP_END (R173): Descriptor STEP_END, once every earlier descriptor has completed, reports the cluster's end of step to the dispatcher. -/
  | stepEnd (p : Nat)
  /-- DESCRIPTOR_START (R135): A descriptor at the head of its engine queue starts once its wait holds and its unit is free. -/
  | descriptorStart (p : Nat) (e : Engine)
  /-- DESCRIPTOR_COMPLETE (R158): A descriptor completes when its last result is readable or acknowledged, and its signal is applied in issue order. -/
  | descriptorComplete (p id : Nat)
  /-- HUB_TALLY_SIGNAL_LAND (R158): A signal to a hub tally lands about 40 handshakes after its descriptor completes. -/
  | hubTallySignalLand (p n : Nat)
  /-- COLL_ENTER_ALL_REDUCE (R506): COLL_ENTER with OP ALL_REDUCE hands this cluster's part of an element-wise reduction to the collective engine. -/
  | collEnterAllReduce (p : Nat)
  /-- COLL_ENTER_REDUCE_SCATTER (R506): COLL_ENTER with OP REDUCE_SCATTER hands this cluster's part of a reduce-scatter to the collective engine. -/
  | collEnterReduceScatter (p : Nat)
  /-- COLL_ENTER_ALL_GATHER (R506): COLL_ENTER with OP ALL_GATHER hands this cluster's part of a gather to the collective engine. -/
  | collEnterAllGather (p : Nat)
  /-- COLL_ENTER_BROADCAST (R506): COLL_ENTER with OP BROADCAST hands this cluster's part of a broadcast from the root rank to the collective engine. -/
  | collEnterBroadcast (p : Nat)
  /-- COLL_ENTER_PASS (R506): COLL_ENTER with OP PASS hands this cluster's part of a shift by ARG ranks to the collective engine. -/
  | collEnterPass (p : Nat)
  /-- STEP_COMMIT (R174): Once every cluster has reported STEP_END and no fault is pending, the dispatcher commits the step and publishes its held writes. -/
  | stepCommit (lead : Nat)
  /-- STEP_FAIL (R176): A step that fails discards its held writes and posts its completion record with the failure status. -/
  | stepFail (lead : Nat)
  /-- STEP_REPLAY (R178): The dispatcher runs the step again from its entry offset after the fault and any reset, remap or retrain. -/
  | stepReplay (lead : Nat)
  /-- ARBITRATION_ROUND (R266): When a shared resource becomes free, its arbiter chooses a winner by wait count and rank and updates its state. -/
  | arbitrationRound (a : ArbId) (raised : List Nat)
  /-- SCRUB_READ (R280): Each scrub interval, the scrubber reads the next granule or line of a bank and writes back a corrected value. -/
  | scrubRead (p : Nat) (pad : Bool) (bank : Nat)
  /-- RESIDENT_REWRITE (R281): An uncorrectable granule in a resident or program region is rewritten from the master copy before the cluster runs again. -/
  | residentRewrite (p offset : Nat)
  /-- COLD_FRAME_SCRUB (R300): Once per second the cold frame scrubber reads every code word, and zeroises an uncorrectable key slot. -/
  | coldFrameScrub
  /-- WIPE_DONE (R303): The Roles erase completes, the Frame record is updated, WIPE_BUSY clears and the WIPE change-log entry is written. -/
  | wipeDone
  /-- MEM_GROUP_RECEIVE (R379): A memory-lane group is received and corrected, and an uncorrectable flit requests the group again from the retry buffer. -/
  | memGroupReceive (k : Nat) (gen : Nat) (uncorrectable : Bool)
  /-- MEM_OPTICAL_LANE_FAIL (R381): An optical lane of a memory lane loses light or fails its error limit, and a spare is substituted or the lane degrades. -/
  | memOpticalLaneFail (k : Nat) (lane : OpticalLane)
  /-- MEM_SPARE_DONE (R381): The spare substitution of a memory lane completes and held traffic continues. -/
  | memSpareDone (k : Nat)
  /-- MEM_LANE_RETRAIN (R418): A retrain cause gives up the lane's unanswered requests, advances LANE_GEN and starts reacquisition. -/
  | memLaneRetrain (k : Nat)
  /-- MEM_LANE_UP (R418): A retrain or training completes; the lane is UP, held requests are released and stale mirror copies resynced. -/
  | memLaneUp (k : Nat) (report : BridgeReport)
  /-- MEM_LANE_CTL_RETRAIN (R423): A write of 1 to MEM_LANE_CTL[k].RETRAIN starts a retrain of lane k. -/
  | memLaneCtlRetrain (k : Nat)
  /-- MEMORY_REPLY_TIMEOUT (R687): A memory request with no reply for 50 µs causes a retrain of its lane. -/
  | memoryReplyTimeout (k : Nat)
  /-- PAGE_FILL_DONE (R401): The zero fill of a page on its first write completes, the page is marked written and the waiting write proceeds. -/
  | pageFillDone (page : Nat)
  /-- MIRROR_RESYNC_DONE (R408): Copying every stale page from its fresh copy completes and the stale mark clears. -/
  | mirrorResyncDone (k : Nat)
  /-- TIER_SCRUB_READ (R410): Patrol reads the next written line of a module and writes back, repairs or poisons it. -/
  | tierScrubRead (module : Nat)
  /-- MEM_EVAC_GO (R414): A write of GO to MEM_EVAC_CTL starts evacuation of a tier-1 module. -/
  | memEvacGo (module : Nat)
  /-- MEM_MIGRATE_GO (R426): A write of GO to MEM_MIGRATE starts migration of one tier-1 page. -/
  | memMigrateGo (page : Nat)
  /-- EVAC_PAGE_COPIED (R412): The copy of a page completes; the page table is updated and the page becomes SWITCHED. -/
  | evacPageCopied
  /-- EVAC_PAGE_DONE (R412): Once no request to the old place can receive a reply, the page becomes DONE and the next page starts, or the evacuation ends. -/
  | evacPageDone
  /-- FABRIC_FRAME_RECEIVE (R436): A port frame is received and corrected; an uncorrectable flit discards the frame and later frames and sends a NAK. -/
  | fabricFrameReceive (port : Nat) (control : BitVec 256) (uncorrectable : Bool)
  /-- FAB_LANE_FAIL (R438): A logical lane of a port loses light or exceeds its error limit, and the ends exchange LANE_CHANGE to substitute a spare. -/
  | fabLaneFail (port : Nat) (lane : OpticalLane)
  /-- FAB_SPARE_DONE (R438): The spare substitution of a port completes and held traffic resumes. -/
  | fabSpareDone (port : Nat)
  /-- PORT_LOSS_OF_LIGHT (R485): Every lane of a port shows no light for 2 µs, and the port goes DOWN with cause LIGHT. -/
  | portLossOfLight (port : Nat)
  /-- PORT_RETRAIN (R488): A port retrain sends RESET_NOTICE, turns the light off and advances PORT_GEN. -/
  | portRetrain (port : Nat)
  /-- PORT_UP (R488): Lanes are reacquired, HELLO is checked, credits are set and the port is UP. -/
  | portUp (port : Nat)
  /-- FAB_PORT_RETRAIN (R490): A write of 1 to FAB_PORT_CFG[p].RETRAIN starts a retrain with cause HOST. -/
  | fabPortRetrain (port : Nat)
  /-- PORT_RETRY_TIMER (R464): Every 1 s, a port that is MISSING or DOWN, or has no light, is tried again. -/
  | portRetryTimer (port : Nat)
  /-- HELLO (R461): A HELLO control message is checked against the plan, and the port becomes UP, or DARK with MISMATCH. -/
  | hello (port : Nat) (h : HelloMsg)
  /-- LANE_CHANGE (R438): A LANE_CHANGE control message installs a new map of logical lanes to engine lanes. -/
  | laneChange (port : Nat) (map : List Nat)
  /-- RESET_NOTICE (R484): A RESET_NOTICE control message sets the port DOWN within 1 µs and records the cause. -/
  | resetNotice (port cause : Nat)
  /-- PORT_DARK (R483): A PORT_DARK control message tells that the neighbour is leaving the port dark. -/
  | portDark (port : Nat)
  /-- DISCOVERY_END (R462): Discovery ends when every planned port is UP or after 400 ms, and the fabric becomes UP or HELD. -/
  | discoveryEnd
  /-- PACKET_FORWARD (R468): A packet head for another chip is routed by the primary or fallback table, or dropped as NO_ROUTE or HOP_LIMIT. -/
  | packetForward (port : Nat) (pkt : Packet)
  /-- WRITE (R449): An arriving WRITE packet is checked and written through the far context's window, and answered with ACK. -/
  | write (port : Nat) (pkt : Packet)
  /-- TADD (R449): An arriving TADD packet is checked under R350 and answered with ACK. -/
  | tadd (port : Nat) (pkt : Packet)
  /-- CIRC_SETUP (R477): An arriving CIRC_SETUP reserves a circuit slot on the named output port, or answers NO_SLOT or NOT_UP. -/
  | circSetup (port : Nat) (pkt : Packet)
  /-- CIRC_TEARDOWN (R481): An arriving CIRC_TEARDOWN releases the circuit's reservation and passes on. -/
  | circTeardown (port : Nat) (pkt : Packet)
  /-- ACK (R450): An arriving ACK completes or fails its request at the originator according to its status, or is pruned. -/
  | ack (port : Nat) (pkt : Packet)
  /-- REPLY_TIMEOUT (R452): A request with no ACK within REPLY_TIMEOUT_US replays its step, counts the lost TADD, or fails its circuit. -/
  | replyTimeout (tag : Nat)
  /-- TAG_REUSE_EXPIRY (R452): A tag whose request timed out becomes usable again after a further REPLY_TIMEOUT_US. -/
  | tagReuseExpiry (tag : Nat)
  /-- SWAP (R470): A write of 1 to FAB_CTL.SWAP sets SWAP_PENDING and stops new request-plane heads. -/
  | swap
  /-- SWAP_DRAIN_COMPLETE (R470): When the drain completes, the tables are exchanged, RGEN advances, GRACE starts and injection resumes. -/
  | swapDrainComplete
  /-- DRAIN_LIMIT_EXPIRY (R471): If the drain has not completed by DRAIN_LIMIT_US, the exchange is forced and SWAP_FORCED is set. -/
  | drainLimitExpiry
  /-- GRACE_EXPIRY (R472): GRACE clears GRACE_MS after the exchange. -/
  | graceExpiry
  /-- RESUME (R466): A write of 1 to FAB_CTL.RESUME runs discovery again on every planned port that is not UP. -/
  | resume
  /-- PORT_DRAIN_END (R476): A port drain for a committed mode or enable change ends, and the change takes effect. -/
  | portDrainEnd (port : Nat)
  /-- SETUP (R477): A write of 1 to FAB_CIRC[c].SETUP sends CIRC_SETUP along the circuit's path. -/
  | setup (c : Nat)
  /-- CIRCUIT_TEARDOWN_WRITE (R497): A write of 1 to FAB_CIRC[c].TEARDOWN releases the circuit. -/
  | circuitTeardownWrite (c : Nat)
  /-- COLLECTIVE_READY (R513): Once parts covering the whole contribution have arrived, the engine computes the digest and sends ENTER to every other member. -/
  | collectiveReady (group : Nat)
  /-- COLLECTIVE_ADMIT (R516): The collective engine admits a waiting collective under the ordering rules, sets COLL_ACTIVE and sends START. -/
  | collectiveAdmit (group : Nat)
  /-- COLLECTIVE_COMPLETE (R519): Once the whole result is written and every DATA is acknowledged, CSEQ advances and the clusters resume. -/
  | collectiveComplete (group : Nat)
  /-- ORDER_TIMEOUT (R524): A posted-ordered collective not complete TIMEOUT_MS after admission ends with cause ORDER. -/
  | orderTimeout
  /-- ENTER (R515): An arriving ENTER is stored or compared with the member's own digest, ending the collective with MISMATCH on a difference. -/
  | enter (port : Nat) (pkt : Packet)
  /-- START (R517): An arriving START lets this member send DATA to its sender. -/
  | start (port : Nat) (pkt : Packet)
  /-- DATA (R517): An arriving DATA packet is taken into the receive store, reduced or written, and answered with COLL_ACK. -/
  | data (port : Nat) (pkt : Packet)
  /-- READY (R529): An arriving READY counts toward the step's commit, or is answered with this member's READY. -/
  | ready (port : Nat) (pkt : Packet)
  /-- ABORT (R527): An arriving ABORT ends the named collective, or is kept until its step enters it. -/
  | abort (port : Nat) (pkt : Packet)
  /-- COLL_ACK (R532): An arriving COLL_ACK returns a credit, asks for a resend of ENTER, or ends the collective with LINK_LOST. -/
  | collAck (port : Nat) (pkt : Packet)
  /-- ENTER_RETRY (R532): 10 µs after a BUSY answer the member sends its ENTER again. -/
  | enterRetry (group rank : Nat)
  /-- READY_RESEND (R530): Every 1 ms a member resends READY to each member whose READY it lacks. -/
  | readyResend (lead : Nat)
  /-- FUNCTION_LEVEL_RESET (R566): A Function Level Reset starts a host-port reset: HOST_GEN advances and the effects of R567 apply. -/
  | functionLevelReset
  /-- FLR_COMPLETE (R569): A Function Level Reset completes, and Request Retry Status ends. -/
  | flrComplete
  /-- HOT_RESET (R565): A hot reset from the link partner starts a host-port reset. -/
  | hotReset
  /-- LINK_DOWN (R565): A link-down event of the data link layer starts a host-port reset. -/
  | linkDown
  /-- PERST_N_ASSERT (R565): Assertion of PERST_N starts a host-port reset. -/
  | perstNAssert
  /-- PERST_N_RELEASE (R569): Release of PERST_N starts link training. -/
  | perstNRelease
  /-- HOST_OPTICAL_LANE_FAIL (R544): An optical lane of LE0 fails; a spare is substituted through one Recovery, or the link retrains narrower. -/
  | hostOpticalLaneFail (lane : OpticalLane)
  /-- HOST_TRAFFIC_RESUME (R560): Host traffic resumes, and deferred credit writes, held records and pending messages are sent. -/
  | hostTrafficResume
  /-- HOST_READ_COMPLETION (R555): A PCIe completion to a barrow read is checked, reassembled in address order, or pruned by HOST_GEN. -/
  | hostReadCompletion (tag : Nat) (gen : BitVec 12) (status : CplStatus) (data : Bytes)
  /-- HOST_COMPLETION_TIMEOUT (R559): A completion timeout on a barrow read fails the step with WINDOW. -/
  | hostCompletionTimeout (tag : Nat)
  /-- HOST_WRITE_ACK (R558): The Ack DLLP for an outbound host write acknowledges it for R158, or a record for DSP_CRING_TAIL. -/
  | hostWriteAck (seq : Nat)
  /-- STAGING_WRITE (R551): A posted write to the staging window replaces or merges tier-1 lines, or is discarded and counted. -/
  | stagingWrite (offset : Nat) (data : HostData)
  /-- STAGING_READ (R552): A read of the staging window returns data, zero, poisoned data or all-ones. -/
  | stagingRead (offset : Nat) (len : Option Nat)
  /-- MCTP_VDM_RECEIVE (R574): An MCTP message over PCIe VDM is taken by the active controller, or dropped and counted. -/
  | mctpVdmReceive (routing msgType : Nat) (body : Bytes)
  /-- SET_ENDPOINT_ID (R574): An MCTP Set Endpoint ID from the bus owner assigns the endpoint's EID. -/
  | setEndpointId (ep : Endpoint) (fromOwner : Bool) (eid : Byte)
  /-- INPUT_ENTERS_LIMITS (R608): The 48 V input enters its limits and a cold start begins: AON is regulated, straps latched and the step clock started. -/
  | inputEntersLimits (pos : BitVec 6) (par seedbedN eoffN refclk : Bool)
  /-- SLOT_CHOICE (R769): The ROM settles the SVN mirror, rejects grafts and runs the newest TAKEN slot that passes, or enters SEEDBED. -/
  | slotChoice
  /-- SELF_TEST_DONE (R609): Paced domains are on and the cluster self-test ends; the remap table is loaded, or the device enters FALLOW. -/
  | selfTestDone (failed : List Nat) (hubFailed : Bool)
  /-- CONFIGURATION_CHOICE (R604): CONFIGURING reads and checks both copies and chooses one, or enters HELD. -/
  | configurationChoice
  /-- SECTIONS_APPLY (R606): Each section is checked and applied or held; lane training and discovery start. -/
  | sectionsApply
  /-- LANES_TRAINED (R419): Every memory lane is UP or found DOWN, and tiers and leases are checked. -/
  | lanesTrained (reports : List BridgeReport)
  /-- COLD_START_DONE (R608): The step clock is synchronised and the device enters READY or HELD in QUIET. -/
  | coldStartDone
  /-- RELOAD (R610): A write of GO to GLB_CFG_RELOAD checks the selected copy and applies the named sections in type order. -/
  | reload (w : Agent) (value : Word)
  /-- RELOAD_MEMORY_APPLY (R612): A reloaded memory tiers section applies once no step is in flight. -/
  | reloadMemoryApply
  /-- DRAIN_COMMAND (R620): GLB_DEV_CMD.DRAIN moves SERVING to DRAINING, or is refused. -/
  | drainCommand (w : Agent)
  /-- RESUME_COMMAND (R620): GLB_DEV_CMD.RESUME moves DRAINING to SERVING, or is refused. -/
  | resumeCommand (w : Agent)
  /-- RECOVER (R619): GLB_DEV_CMD.RECOVER starts a package recovery, or a restart from SAFE, or is refused. -/
  | recover (w : Agent)
  /-- POWER_CMD_FULL (R633): A write of FULL to PWR_CMD.TARGET commands the FULL power state. -/
  | powerCmdFull (w : Agent)
  /-- POWER_CMD_TRIM (R633): A write of TRIM to PWR_CMD.TARGET commands the TRIM power state. -/
  | powerCmdTrim (w : Agent)
  /-- POWER_CMD_MULCH (R633): A write of MULCH to PWR_CMD.TARGET stops dispatch and commands MULCH. -/
  | powerCmdMulch (w : Agent)
  /-- POWER_CMD_QUIET (R633): A write of QUIET to PWR_CMD.TARGET stops dispatch and commands QUIET. -/
  | powerCmdQuiet (w : Agent)
  /-- POWER_CMD_DARK (R633): A write of DARK to PWR_CMD.TARGET commands DARK, or is refused while contexts are open. -/
  | powerCmdDark (w : Agent)
  /-- POWER_TRANSITION_START (R56): A commanded transition takes effect once every admitted step and collective has ended, or at the next governor update. -/
  | powerTransitionStart
  /-- POWER_TRANSITION_DONE (R634): A power-state transition completes and any held command is then applied. -/
  | powerTransitionDone
  /-- GOVERNOR_UPDATE (R643): Every 4 µs the governor estimates power and sets VCORE, DUTY, LINK_RATE and MEM_RATE against the caps. -/
  | governorUpdate (activity : List (List Nat))
  /-- GOVERNOR_EXTRA_UPDATE (R636): A change of a cap term or safety input causes an extra governor update within 1 µs. -/
  | governorExtraUpdate
  /-- DROOP_STEP (R649): A quadrant's supply crosses a droop threshold and the detectors lengthen the delay lines by one step. -/
  | droopStep (die quadrant : Nat)
  /-- DROOP_RECOVER (R650): After 100 ns within 15 mV of VCORE, the detectors remove one droop step. -/
  | droopRecover (die quadrant : Nat)
  /-- TEMP_SENSOR_CONVERT (R652): Each temperature sensor converts every 20 µs. -/
  | tempSensorConvert (i : Nat) (reading : BitVec 16)
  /-- THERMAL_TRIP (R659): A trip comparator reads 115 °C for 1 µs; THERMTRIP_N goes low and the device enters SAFE. -/
  | thermalTrip (i : Nat) (reading : BitVec 16)
  /-- COOLANT_MEASURE (R655): Every 10 ms the VX9 measures inlet, outlet and pressure drop, and every 100 ms estimates flow and the coolant limit. -/
  | coolantMeasure (inlet outlet dp : Nat)
  /-- SUDDEN_COOLANT_LOSS (R658): A pressure drop below 15 % of DP_NOM for 100 µs is treated as COOL_FAULT_N low. -/
  | suddenCoolantLoss
  /-- COOLANT_LOSS_CLEAR (R658): After the pressure drop stands above 50 % of DP_NOM for 1 s, the sudden-loss limits lift. -/
  | coolantLossClear
  /-- MULCH_CONTROL (R664): Every 10 ms the mulch controller adjusts the heater target against the band. -/
  | mulchControl
  /-- MULCH_LOW (R665): After 10 s below the band with the grant below H, MULCH_LOW is set. -/
  | mulchLow
  /-- EOFF_N (R666): EOFF_N low opens every domain switch within 5 µs, and the device goes to OFF. -/
  | eoffN
  /-- PWR_WARN_N_LOW (R666): PWR_WARN_N low applies WARN_CAP_W to every estimate. -/
  | pwrWarnNLow
  /-- PWR_WARN_N_RELEASE (R666): 1 ms after PWR_WARN_N returns high, the warning cap lifts. -/
  | pwrWarnNRelease
  /-- COOL_FAULT_N_LOW (R666): COOL_FAULT_N low applies the minimum VCORE and DUTY ceilings. -/
  | coolFaultNLow
  /-- COOL_FAULT_N_RELEASE (R666): 1 s after COOL_FAULT_N returns high, the fault ceilings lift. -/
  | coolFaultNRelease
  /-- RACK_HEARTBEAT_LOST (R669): With no heartbeat for HEARTBEAT_S, HEARTBEAT_LOST is set and the rack term is limited. -/
  | rackHeartbeatLost
  /-- INPUT_LOSS (R869): A dip of the 48 V input below 40 V for longer than 10 µs takes the device to OFF. -/
  | inputLoss
  /-- INPUT_OVERVOLTAGE (R870): Input at 60 V or more for longer than 100 µs opens every domain switch. -/
  | inputOvervoltage
  /-- REFCLK_LOSS (R862): REFCLK_25M stops or leaves range for 2 µs; lanes lose lock, the host link goes down and the step clock enters HOLDOVER. -/
  | refclkLoss
  /-- REFCLK_RETURN (R862): Once REFCLK_25M has been in range for 1 ms, lanes and ports begin their retrain. -/
  | refclkReturn
  /-- STAGE_STALL (R897): A self-timed stage of a cluster stalls past STALL_US, raising STAGE_STALL and starting a cluster reset. -/
  | stageStall (p : Nat) (e : Engine)
  /-- CLUSTER_RESET_DONE (R696): The cluster self-test ends and the cluster is IDLE, or it is replaced by a spare. -/
  | clusterResetDone (p : Nat) (pass : Bool)
  /-- QUADRANT_RESET_DONE (R697): Every cluster of the quadrant completes its reset self-test. -/
  | quadrantResetDone (domain : Nat) (failed : List Nat)
  /-- SPINE_STALL (R687): A trellis or die-bridge stage stalls past STALL_US, and a compute reset starts. -/
  | spineStall (die : Nat)
  /-- COMPUTE_RESET_DONE (R697): Every cluster of the compute dies completes its reset self-test. -/
  | computeResetDone (failed : List Nat)
  /-- RESET_TIMEOUT (R708): A cluster, quadrant or compute reset not ended within its slow-corner max is abandoned for the next level. -/
  | resetTimeout (level : ResetLevel) (id : Nat)
  /-- STEP_BUDGET (R687): An attempt that exceeds STEP_BUDGET_MS resets every cluster that has not reported STEP_END. -/
  | stepBudget (lead : Nat)
  /-- HUB_STALL (R687): A hub stage stalls past HUB_STALL_US, and a package recovery starts. -/
  | hubStall (state : Bool)
  /-- HARVEST_WRITTEN (R703): The harvest record is written; the device enters RESETTING and the covered domains go off. -/
  | harvestWritten (lost : HarvestLoss)
  /-- RECOVERY_DONE (R703): Recovery ends: escalation is checked, held increments and records are sent and replays admitted, or FALLOW is entered. -/
  | recoveryDone (failed : List Nat)
  /-- SPARE_BRING_IN (R715): The trigger stops the old physical cluster, advances its CGEN and starts the spare's self-test. -/
  | spareBringIn (l : Nat)
  /-- SPARE_IN (R715): The spare passes its self-test and its regions are copied; the remap entry is written and SPARE_IN raised. -/
  | spareIn (l : Nat) (pass : Bool)
  /-- RAS_SPARE_CTL_GO (R748): A write of GO to RAS_SPARE_CTL brings in a spare for the named logical cluster. -/
  | rasSpareCtlGo (w : Agent) (l : Nat)
  /-- SELFTEST_CLUSTER (R735): RAS_SELFTEST with KIND 0x1 tests one physical cluster. -/
  | selftestCluster (w : Agent) (index : Nat)
  /-- SELFTEST_LANE (R735): RAS_SELFTEST with KIND 0x2 tests one memory lane by loopback. -/
  | selftestLane (w : Agent) (index : Nat)
  /-- SELFTEST_PORT (R735): RAS_SELFTEST with KIND 0x3 tests one fabric port with a drain and a retrain. -/
  | selftestPort (w : Agent) (index : Nat)
  /-- SELFTEST_CONTROLLER (R735): RAS_SELFTEST with KIND 0x4 tests the standby controller. -/
  | selftestController (w : Agent)
  /-- SELFTEST_DONE (R736): An on-demand self-test ends with its result and raises SELFTEST_DONE. -/
  | selftestDone (pass : Bool)
  /-- CONTROLLER_HEARTBEAT (R723): The active controller sends a heartbeat every 1 ms, restarting the dead-man timer. -/
  | controllerHeartbeat (c : Bool) (epoch : BitVec 16)
  /-- HEALTH_REPORT (R723): Every 100 ms the standby writes its health report. -/
  | healthReport (c lockstep scrub journal : Bool)
  /-- STANDBY_UNHEALTHY (R724): The standby fails lockstep, scrub or journal replay and becomes UNHEALTHY. -/
  | standbyUnhealthy (cause : Nat)
  /-- LOCKSTEP_MISMATCH (R725): A lockstep mismatch in the active controller stops its heartbeat at once. -/
  | lockstepMismatch
  /-- TAKEOVER (R726): A HEALTHY standby that finds no heartbeat for 5 ms takes the lease, advances EPOCH and opens the dual-act window. -/
  | takeover
  /-- DUAL_ACT_CLEAR (R727): DUAL_ACT clears 50 µs after it was set, and stale-epoch writes are then discarded. -/
  | dualActClear
  /-- RELINQUISH (R730): The active controller writes RELINQUISH and the standby takes the lease. -/
  | relinquish (c : Bool) (epoch : BitVec 16)
  /-- CONTROLLER_WRITE (R722): A controller write carrying its epoch is accepted or discarded as stale. -/
  | controllerWrite (c : Bool) (epoch : BitVec 16) (addr size : Nat) (value : Word)
  /-- DEAD_MAN (R731): 20 ms without a heartbeat of the current EPOCH puts the device into SAFE. -/
  | deadMan
  /-- INSTALL (R761): FWU OP INSTALL reads and checks an image header from the staging window and starts writing the slot. -/
  | install (w : Agent) (target : Nat)
  /-- INSTALL_DONE (R761): The payload is verified, the header programmed and record INSTALLED written, or the install fails. -/
  | installDone (flashOk : Bool)
  /-- GRAFT (R770): FWU OP GRAFT writes record GRAFT, starts the graft window and restarts the standby from the grafted slot. -/
  | graft (w : Agent) (target : Nat)
  /-- GRAFT_HANDOVER (R771): The grafted standby passes its self-test and takes the lease by handover. -/
  | graftHandover
  /-- GRAFT_PEER_HEALTHY (R771): The former active restarts from the grafted slot and is HEALTHY. -/
  | graftPeerHealthy
  /-- MICROCODE_LOAD (R772): A powered cluster whose attempt has ended is loaded with the grafted UCODE; after the last, STAGE becomes AWAIT_TAKE. -/
  | microcodeLoad (p : Nat)
  /-- FWU_TAKE (R773): The active controller's write of TAKE writes record TAKEN, applies the SVN rule and clears FW_TRIAL. -/
  | fwuTake (c : Bool) (epoch : BitVec 16)
  /-- GRAFT_WINDOW_EXPIRY (R775): The graft window closes without a take, and the graft falls back. -/
  | graftWindowExpiry
  /-- REJECT (R775): FWU OP REJECT makes the graft fall back. -/
  | reject (w : Agent)
  /-- FALLBACK (R774): A fallback writes record REJECTED and restarts both controllers and the microcode from the previous slot. -/
  | fallback
  /-- FALLBACK_DONE (R774): The fallback completes and FW_TRIAL returns to 0. -/
  | fallbackDone
  /-- CONFIG_WRITE (R765): FWU OP CONFIG_WRITE writes a configuration copy from the staging window, or opens the buffer path. -/
  | configWrite (w : Agent) (target : Nat)
  /-- LANE_CAL (R776): FWU OP LANE_CAL recalibrates each assigned lane of an engine in turn through a spare. -/
  | laneCal (w : Agent) (engine : Nat)
  /-- BEGIN (R778): Seedbed command BEGIN opens a download into a slot. -/
  | begin (slot : Nat)
  /-- BLOCK (R778): Seedbed command BLOCK checks and programs the next 64 KiB block from FWU_SEED_BUF. -/
  | block (seq len : Nat)
  /-- END (R778): Seedbed command END checks the digests, programs the header and restarts into BOOT, or checks a CONFIG_WRITE copy. -/
  | seedEnd
  /-- SEED_ABORT (R778): Seedbed command ABORT leaves the slot EMPTY, or the copy without a header, and returns to IDLE. -/
  | seedAbort
  /-- SET_ROLES (R782): Owner command SET_ROLES replaces the Roles partition. -/
  | setRoles (w : Agent)
  /-- LIFECYCLE (R783): Owner command LIFECYCLE burns the life-cycle fuse, changes the state and starts a wipe. -/
  | lifecycle (w : Agent)
  /-- WIPE (R303): Owner command WIPE starts a cold-frame wipe with cause OWNER. -/
  | wipe (w : Agent)
  /-- FW_AUTHORISE (R762): Owner command FW_AUTHORISE holds an image-header digest as an install authorisation. -/
  | fwAuthorise (w : Agent)
  /-- INSTALL_KTK (R789): Owner command INSTALL_KTK decapsulates an ML-KEM ciphertext into a key-transport slot. -/
  | installKtk (w : Agent)
  /-- CLEAR_KTK (R782): Owner command CLEAR_KTK zeroes a key-transport slot. -/
  | clearKtk (w : Agent)
  /-- TAMPER (R784): A tamper event starts a wipe with cause TAMPER and raises TAMPER. -/
  | tamper
  /-- GET_VERSION (R787): SPDM request GET_VERSION is answered. -/
  | getVersion (ep : Endpoint)
  /-- GET_CAPABILITIES (R787): SPDM request GET_CAPABILITIES is answered. -/
  | getCapabilities (ep : Endpoint)
  /-- NEGOTIATE_ALGORITHMS (R787): SPDM request NEGOTIATE_ALGORITHMS is answered. -/
  | negotiateAlgorithms (ep : Endpoint)
  /-- GET_DIGESTS (R787): SPDM request GET_DIGESTS is answered. -/
  | getDigests (ep : Endpoint)
  /-- GET_CERTIFICATE (R787): SPDM request GET_CERTIFICATE returns the certificate chain of slot 0. -/
  | getCertificate (ep : Endpoint) (offset len : Nat)
  /-- CHALLENGE (R787): SPDM request CHALLENGE queues a signature with the identity key. -/
  | challenge (ep : Endpoint) (nonce : Bytes)
  /-- GET_MEASUREMENTS (R788): SPDM request GET_MEASUREMENTS returns the measurements, signed on request. -/
  | getMeasurements (ep : Endpoint) (index : Nat) (sign : Bool) (nonce : Bytes)
  /-- SPDM_SIGNATURE_DONE (R787): A queued SPDM signature completes and its response is sent. -/
  | spdmSignatureDone
  /-- ENTDAA (R829): The I3C CCC ENTDAA assigns the target a dynamic address. -/
  | entdaa (addr : BitVec 7)
  /-- SETDASA (R829): The I3C CCC SETDASA assigns the dynamic address from static address 0x3A. -/
  | setdasa (addr : BitVec 7)
  /-- I3C_MCTP_RECEIVE (R830): An MCTP message over I3C is taken by the management endpoint, which signals replies with an IBI. -/
  | i3cMctpReceive (msgType : Nat) (body : Bytes)
  /-- GET_PDR_REPOSITORY_INFO (R831): PLDM command GetPDRRepositoryInfo is answered. -/
  | getPdrRepositoryInfo
  /-- GET_PDR (R832): PLDM command GetPDR returns a record of the PDR repository. -/
  | getPdr (handle : Nat)
  /-- GET_SENSOR_READING (R832): PLDM command GetSensorReading returns a numeric sensor. -/
  | getSensorReading (id : Nat)
  /-- GET_STATE_SENSOR_READINGS (R832): PLDM command GetStateSensorReadings returns the state sensors. -/
  | getStateSensorReadings (id : Nat)
  /-- SET_NUMERIC_EFFECTER_VALUE (R834): PLDM command SetNumericEffecterValue from the bus owner sets the rack cap or heartbeat and counts as a heartbeat. -/
  | setNumericEffecterValue (fromOwner : Bool) (id value : Nat)
  /-- GET_NUMERIC_EFFECTER_VALUE (R831): PLDM command GetNumericEffecterValue returns an effecter value. -/
  | getNumericEffecterValue (id : Nat)
  /-- POLL_FOR_PLATFORM_EVENT_MESSAGE (R831): PLDM command PollForPlatformEventMessage returns the oldest queued event. -/
  | pollForPlatformEventMessage
  /-- PLDM_FIRMWARE_UPDATE (R835): A PLDM type 5 update writes the slot the active controller does not run after checking its header. -/
  | pldmFirmwareUpdate (ep : Endpoint) (offset : Nat) (data : Bytes)
  /-- ACTIVATE_FIRMWARE (R835): PLDM ActivateFirmware starts a graft of the updated slot. -/
  | activateFirmware (ep : Endpoint)
  /-- TIME_SYNC_REQUEST_SEND (R806): Every 1 ms each chip sends a TIME_SYNC REQUEST on every port that is UP or DEGRADED. -/
  | timeSyncRequestSend (port : Nat)
  /-- TIME_SYNC_REQUEST (R806): A received TIME_SYNC REQUEST is answered with a RESPONSE within 10 µs. -/
  | timeSyncRequest (port : Nat) (m : SyncMsg)
  /-- TIME_SYNC_RESPONSE (R809): A received RESPONSE from the parent corrects the step clock by slewing or stepping. -/
  | timeSyncResponse (port : Nat) (m : SyncMsg)
  /-- HOLDOVER (R813): With no RESPONSE from the parent for 10 ms, the chip enters HOLDOVER. -/
  | holdover
  /-- BECOME_ROOT (R808): A chip with no eligible parent becomes a root under the conditions of R808. -/
  | becomeRoot
  /-- LOG_ENTRY_WRITE (R840): A queued change-log entry is written into the ring slot SEQ mod 65,536 in SEQ order. -/
  | logEntryWrite
  /-- LOG_GAP (R841): Once the log queue has room after losses, one GAP entry holding the count lost is written. -/
  | logGap
  /-- LOG_MIRROR_COPY (R843): A written entry is copied to the staging-window mirror, held until the line can be written. -/
  | logMirrorCopy
  /-- CONFIGURATION_REQUEST (R560): A PCIe Configuration Request to the function reads or writes configuration space, such as Bus Master Enable, the power state or the MSI-X capability, or is answered with Request Retry Status during an FLR. -/
  | configurationRequest (write : Bool) (offset : Nat) (value : BitVec 32)
  /-- LIGHT_RETURNS (R488): Light returns on a port that went DOWN on a RESET_NOTICE of cause PACKAGE, SAFE, DARK or FALLOW, and its retrain begins. -/
  | lightReturns (port : Nat)
  /-- HOST_SPARE_DONE (R544): The substitution of a spare lane of LE0 completes, and the host link returns to L0 at its previous speed and width. -/
  | hostSpareDone
  /-- REPLAY_TIMER (R558): The PCIe replay timer expires for a TLP not yet acknowledged, and the TLP is replayed, counting as acknowledged only at the Ack of its replay. -/
  | replayTimer (seq : Nat)
  /-- CONTROLLER_RESTART_DONE (R733): A restarted or self-testing Tilal controller finishes its restart and becomes HEALTHY or UNHEALTHY, and after a RECOVER in SAFE the package recovery proceeds from event 7 of R703. -/
  | controllerRestartDone (c healthy : Bool)
  /-- SAFE_RESTART_TIMEOUT (R733): 10 s after a RECOVER in SAFE with neither controller healthy, the command is refused and the device stays in SAFE. -/
  | safeRestartTimeout
  /-- TCK_RISING_EDGE (R880): On each rising edge of TCK the test access port samples TMS and TDI and advances its IEEE 1149.1 state, capturing, shifting and updating the instruction, identification and boundary registers. -/
  | tckRisingEdge (tms tdi : Bool) (pads : List Bool)
  /-- TRST_N (R880): TRST_N low holds the test access port in Test-Logic-Reset, with IDCODE selected. -/
  | trstN (high : Bool)
deriving DecidableEq, Repr

end Sys2Proof
end

