-- ==== Sys2Proof/Decode.lean ====
section
/-! DEFINITION. The decoder of table words. No row of spec/opcode_table.json gives its command any bits: commands are register
accesses, packets, pins and events, and no word spells one. -/

namespace Sys2Proof

/-- The command that a table word spells: none, whatever the word. -/
def decodeTableWord (_nbits _w : Nat) : Option Instr := none

end Sys2Proof
end

