-- ==== Sys2Proof/Config.lean ====
section
/-! DEFINITION. What an implementation fixes and the spec leaves open: the free values. None of these constants has a
body, so no proof can see a value of it, and a statement that mentions one holds whatever it is. -/

namespace Sys2Proof.Config

/-- The free value drawn at count `n` of `State.freeCtr` (log entry 2): used wherever the spec says that a value is
undefined, random or not stated and the machine goes on. -/
opaque freeValue : Nat → BitVec 64

/-- The free content of byte `o` of a memory made undefined at epoch `n` (R292, R176; log entry 2). -/
opaque freeByte : Nat → Nat → BitVec 8

/-- How many units in the last place the special function `f` of R150 lies from the exactly rounded result at the FP32 input
`x` (R149 fixes it for the part, R150 bounds it; log entry 6). -/
opaque sfuUlps : Nat → BitVec 32 → Int

/-- The result of the special function `f` at an FP32 input `x` outside the domain that R150 states (log entry 6). -/
opaque sfuOpen : Nat → BitVec 32 → BitVec 32

/-- Verification of an SLH-DSA-SHAKE-256s signature (public key, message, signature; R593, R756, R780; log entry 7). -/
opaque slhDsaVerify : List (BitVec 8) → List (BitVec 8) → List (BitVec 8) → Bool

/-- An SLH-DSA-SHAKE-256s signature by the key derived from a seed over a message (R785, R787; log entry 7). -/
opaque slhDsaSign : List (BitVec 8) → List (BitVec 8) → List (BitVec 8)

/-- ML-KEM-1024 decapsulation with the key derived from a seed (R785, R789; log entry 7). -/
opaque mlKemDecaps : List (BitVec 8) → List (BitVec 8) → List (BitVec 8)

/-- The public halves of the keys and the certificates derived from a seed: the chain of certificate slot 0 (R785, R787). -/
opaque certificateChain : List (BitVec 8) → List (BitVec 8)

/-- The seed of the identity and ML-KEM keys, by LIFECYCLE and WIPE_COUNT: SHAKE256 of the device secret with the two, in a form
that no rule lays out (R785; log entry 7). -/
opaque identitySeed : Nat → Nat → List (BitVec 8)

/-- The digest that SPDM takes of a certificate chain: no rule names its hash (R787; log entry 7). -/
opaque spdmDigest : List (BitVec 8) → List (BitVec 8)

/-- The 16 bytes of measurement 6: LIFECYCLE, FW_TRIAL, RUNNING, VERSION, SVN and MIN_SVN in a layout that no rule gives (R788; log
entry 7). -/
opaque measurementSix : Nat → Nat → Nat → Nat → Nat → Nat → List (BitVec 8)

/-- The ROM's image, of which measurement 1 is the digest (R788). -/
opaque romImage : List (BitVec 8)

/-- The trust anchors written at manufacture: KEY_ID and public key, at most four (R757). -/
opaque trustAnchors : List (List (BitVec 8) × List (BitVec 8))

/-- The fused weight of handshake-activity counter `k` of domain `d`, in microwatts per unit (R635). -/
opaque powerWeight : Nat → Nat → Nat

/-- The fused leakage table: domain, VCORE in mV, hottest sensor in 1/16 °C (as an unsigned reading), in milliwatts (R635). -/
opaque leakage : Nat → Nat → Nat → Nat

/-- The fixed term of a fixed domain, in milliwatts (R635). -/
opaque fixedPower : Nat → Nat

/-- The term of one lit fabric port in the estimate, in milliwatts (R63, R635). -/
opaque portPower : Nat

/-- The model's prediction of a class at (VCORE in mV, DUTY in %, rate in %), from the counters of its domains, the domains that are On, the
hottest sensor of the package (as an unsigned reading) and the lit ports (R63, R635, R643, R647): class 0 links, 1 memory, 2 compute,
3 overhead; in watts. -/
opaque predictPower : Nat → Nat × Nat × Nat → List Nat → List Nat → Nat → Nat → Nat

/-- The part's own figure from which its handshake rate in MHz is formed, by VCORE (mV) and junction temperature (°C): no rule
gives the rate between the corners (R4, R6; log entry 32). -/
opaque handshakeRate : Nat → Nat → Nat

/-- The mean lengthening in percent by droop since the last sample, by droop step and activity (R649, R671; log entry 32). -/
opaque droopMean : Nat → List Nat → Nat

/-- DP_NOM, the pressure drop at nominal flow fused at manufacture, in units of 0.1 kPa (R655). -/
opaque dpNominal : Nat

end Sys2Proof.Config
end

