-- ==== Sys2Proof/Machine/Numbers.lean ====
section
/-! DEFINITION. Number formats, exact accumulation and residues: the decoding and encoding of every element format, the
one rounding that all conversions share, FP32 arithmetic, the long accumulator with its images and merges, the FP32 chunk
sums, block scales, and the counter-based generator (R67 to R130). Values are exact: a sign, a natural mantissa and a
binary exponent, or an infinity, or a NaN. -/

namespace Sys2Proof.Machine

/-- An exact value: NaN, a signed infinity, or (−1)^neg × mant × 2^exp with its sign kept at zero. -/
inductive FVal where
  | nan
  | inf (neg : Bool)
  | fin (neg : Bool) (mant : Nat) (exp : Int)
deriving DecidableEq, Repr

/-- The element formats of R67. -/
inductive Fmt where
  | fp32 | bf16 | fp16 | e4m3 | e5m2 | e2m3 | e3m2 | e2m1 | i8 | i32 | accRaw
deriving DecidableEq, Repr

/-- The format of a 4-bit code; none for a reserved one (R67). -/
def Fmt.ofCode : Nat → Option Fmt
  | 0 => some .fp32 | 1 => some .bf16 | 2 => some .fp16 | 3 => some .e4m3 | 4 => some .e5m2 | 5 => some .e2m3
  | 6 => some .e3m2 | 7 => some .e2m1 | 8 => some .i8 | 9 => some .i32 | 10 => some .accRaw
  | _ => none

/-- The element width in bits (R67). -/
def Fmt.width : Fmt → Nat
  | .fp32 => 32 | .bf16 => 16 | .fp16 => 16 | .e4m3 => 8 | .e5m2 => 8 | .e2m3 => 6 | .e3m2 => 6 | .e2m1 => 4
  | .i8 => 8 | .i32 => 32 | .accRaw => 256

/-- Does the format hold elements in blocks of 16 with a scale (R67, R74)? -/
def Fmt.blocked : Fmt → Bool
  | .e2m3 => true | .e3m2 => true | .e2m1 => true | _ => false

/-- Is it an integer format (R71)? -/
def Fmt.isInt : Fmt → Bool
  | .i8 => true | .i32 => true | _ => false

/-- An F8 format: E4M3 or E5M2 (R67). -/
def Fmt.isF8 : Fmt → Bool
  | .e4m3 => true | .e5m2 => true | _ => false

/-- Fraction bits of a floating format (R69, R70). -/
def Fmt.frac : Fmt → Nat
  | .fp32 => 23 | .bf16 => 7 | .fp16 => 10 | .e4m3 => 3 | .e5m2 => 2 | .e2m3 => 3 | .e3m2 => 2 | .e2m1 => 1 | _ => 0

/-- Exponent bits of a floating format (R69, R70). -/
def Fmt.ebits : Fmt → Nat
  | .fp32 => 8 | .bf16 => 8 | .fp16 => 5 | .e4m3 => 4 | .e5m2 => 5 | .e2m3 => 2 | .e3m2 => 3 | .e2m1 => 2 | _ => 0

/-- The exponent bias (R69, R70). -/
def Fmt.bias : Fmt → Int
  | .fp32 => 127 | .bf16 => 127 | .fp16 => 15 | .e4m3 => 7 | .e5m2 => 15 | .e2m3 => 1 | .e3m2 => 3 | .e2m1 => 1 | _ => 0

/-- Does the format have infinities (R70)? -/
def Fmt.hasInf : Fmt → Bool
  | .fp32 => true | .bf16 => true | .fp16 => true | .e5m2 => true | _ => false

/-- The canonical NaN with sign 0, where the format has one (R73). -/
def Fmt.nanCode : Fmt → Option Nat
  | .fp32 => some 0x7FC00000 | .bf16 => some 0x7FC0 | .fp16 => some 0x7E00 | .e4m3 => some 0x7F | .e5m2 => some 0x7E
  | _ => none

/-- The encoding of the largest finite value, sign aside (R70). -/
def Fmt.maxCode : Fmt → Nat
  | .fp32 => 0x7F7FFFFF | .bf16 => 0x7F7F | .fp16 => 0x7BFF | .e4m3 => 0x7E | .e5m2 => 0x7B | .e2m3 => 0x1F
  | .e3m2 => 0x1F | .e2m1 => 0x7 | .i8 => 127 | .i32 => 0x7FFFFFFF | .accRaw => 0

/-- The value of an element's bits, block scale aside (R69 to R72). -/
def Fmt.decode (f : Fmt) (bits : Nat) : FVal :=
  if f.isInt then
    let w := f.width
    let v := bits % 2 ^ w
    if v < 2 ^ (w - 1) then .fin false v 0 else .fin true (2 ^ w - v) 0
  else
    let m := f.frac
    let fr := bits % 2 ^ m
    let e := bits / 2 ^ m % 2 ^ f.ebits
    let neg := decide (bits / 2 ^ (m + f.ebits) % 2 = 1)
    if f.hasInf && e == 2 ^ f.ebits - 1 then (if fr = 0 then .inf neg else .nan)
    else if f = .e4m3 ∧ e = 15 ∧ fr = 7 then .nan
    else if e = 0 then .fin neg fr (1 - f.bias - m)
    else .fin neg (2 ^ m + fr) ((e : Int) - f.bias - m)

/-! ## Rounding -/

/-- The rounding modes of R107. -/
inductive RMode where
  | rne | rtz | rup | rdn | rsr
deriving DecidableEq, Repr

/-- The mode of a 3-bit code; none for a reserved one (R107). -/
def RMode.ofCode : Nat → Option RMode
  | 0 => some .rne | 1 => some .rtz | 2 => some .rup | 3 => some .rdn | 4 => some .rsr
  | _ => none

/-- floor(log2 n) for n > 0. -/
def lead (n : Nat) : Nat := Nat.log2 n

/-- The magnitude mant × 2^exp rounded to a whole number of units of 2^q: the count of units (R107, R108). `r` is the
16-bit random value of RSR. -/
def roundUnits (rm : RMode) (r : Nat) (neg : Bool) (mant : Nat) (exp q : Int) : Nat :=
  if q ≤ exp then mant * 2 ^ (exp - q).toNat
  else
    let sh := (q - exp).toNat
    let n := mant / 2 ^ sh
    let rest := mant % 2 ^ sh
    let up : Bool := match rm with
      | .rne => decide (2 ^ sh < 2 * rest) || (decide (2 * rest = 2 ^ sh) && decide (n % 2 = 1))
      | .rtz => false
      | .rup => !neg && decide (rest ≠ 0)
      | .rdn => neg && decide (rest ≠ 0)
      | .rsr => decide (r < rest * 65536 / 2 ^ sh)
    if up then n + 1 else n

/-- The flags a conversion raises: bits as in CLU_NUMSTAT (R131), and the count of saturated elements. -/
structure NumFlags where
  bits : Nat := 0
  sat : Nat := 0
deriving DecidableEq, Repr

def nfExactLost : Nat := 1
def nfOverrange : Nat := 2
def nfSaturated : Nat := 4
def nfInfOut : Nat := 8
def nfNanOut : Nat := 16
def nfNanSquashed : Nat := 32
def nfResidue : Nat := 128

/-- The flags of two results together. -/
def NumFlags.join (a b : NumFlags) : NumFlags := { bits := a.bits ||| b.bits, sat := a.sat + b.sat }

/-- The sign bit of a floating format at its place. -/
def Fmt.signBit (f : Fmt) : Nat := 2 ^ (f.frac + f.ebits)

/-- ±max of a format (R113). -/
def Fmt.maxBits (f : Fmt) (neg : Bool) : Nat :=
  if f = .i8 then (if neg then 0x80 else 0x7F)
  else if f = .i32 then (if neg then 0x80000000 else 0x7FFFFFFF)
  else f.maxCode + (if neg then f.signBit else 0)

/-- ±∞ of a format that has it. -/
def Fmt.infBits (f : Fmt) (neg : Bool) : Nat :=
  (2 ^ f.ebits - 1) * 2 ^ f.frac + (if neg then f.signBit else 0)

/-- ±max with the flags of R114. -/
def satResult (f : Fmt) (neg : Bool) : Nat × NumFlags :=
  (f.maxBits neg, { bits := nfSaturated, sat := 1 })

/-- The table of R113: what a finite value beyond the range becomes; true is the infinity. -/
def overflowsToInf (f : Fmt) (rm : RMode) (sat neg : Bool) : Bool :=
  f.hasInf && !sat && (match rm with
    | .rne => true
    | .rsr => true
    | .rtz => false
    | .rup => !neg
    | .rdn => neg)

/-- The largest finite magnitude of a floating format as units of 2^0 scaled by 2^64, for an exact comparison. -/
def Fmt.maxVal (f : Fmt) : FVal := f.decode f.maxCode

/-- Is mant × 2^exp greater than mant' × 2^exp'? -/
def magGt (m : Nat) (e : Int) (m' : Nat) (e' : Int) : Bool :=
  if e' ≤ e then decide (m' < m * 2 ^ (e - e').toNat) else decide (m' * 2 ^ (e' - e).toNat < m)

/-- The encoding of n × 2^q in a floating format, where n < 2^(frac+1) or n = 2^(frac+1) after a carry, and q is at least
the quantum of the subnormals. -/
def Fmt.encodeUnits (f : Fmt) (neg : Bool) (n : Nat) (q : Int) : Nat :=
  let s := if neg then f.signBit else 0
  let m := f.frac
  if n < 2 ^ m then s + n
  else if n < 2 ^ (m + 1) then s + ((q + m + f.bias).toNat) * 2 ^ m + (n - 2 ^ m)
  else s + ((q + m + 1 + f.bias).toNat) * 2 ^ m

/-- The conversion of an exact value to a format that has no block scale, or of the scaled quotient to a blocked element
(R111 to R118, R122). -/
def convert (f : Fmt) (rm : RMode) (sat : Bool) (r : Nat) (v : FVal) : Nat × NumFlags :=
  match v with
  | .nan =>
    match f.nanCode with
    | some c => (c, { bits := nfNanOut })
    | none => (0, { bits := nfNanSquashed })
  | .inf neg =>
    if f.hasInf then (f.infBits neg, { bits := nfInfOut }) else satResult f neg
  | .fin neg mant exp =>
    if f.isInt then
      let n := roundUnits rm r neg mant exp 0
      let lim := if neg then 2 ^ (f.width - 1) else 2 ^ (f.width - 1) - 1
      if lim < n then satResult f neg
      else ((if neg then (2 ^ f.width - n) % 2 ^ f.width else n), {})
    else if mant = 0 then ((if neg then f.signBit else 0), {})
    else
      let m := f.frac
      let e : Int := (lead mant : Int) + exp
      let quMin : Int := 1 - f.bias - m
      let q : Int := max (e - m) quMin
      let n := roundUnits rm r neg mant exp q
      match f.maxVal with
      | .fin _ mm me =>
        if magGt n q mm me then
          (if overflowsToInf f rm sat neg then (f.infBits neg, { bits := nfInfOut }) else satResult f neg)
        else (f.encodeUnits neg n q, {})
      | _ => (0, {})

/-- An exact value rounded to FP32 (R103, R69), as a value again. -/
def toFp32 (rm : RMode) (r : Nat) (v : FVal) : FVal := Fmt.fp32.decode (convert .fp32 rm false r v).1

/-! ## Exact arithmetic and FP32 operations -/

/-- The value as an integer count of units of 2^q, for q no larger than its exponent. -/
def signedUnits (neg : Bool) (mant : Nat) (exp q : Int) : Int :=
  let u : Int := ((mant * 2 ^ (exp - q).toNat : Nat) : Int)
  if neg then -u else u

/-- A signed integer count of units of 2^q as a value; a zero takes the sign `zneg`. -/
def ofUnits (z : Int) (q : Int) (zneg : Bool) : FVal :=
  if z = 0 then .fin zneg 0 0 else .fin (decide (z < 0)) z.natAbs q

/-- The exact sum, with the zero signs and NaN rules of IEEE 754 under the rounding mode (R103). -/
def FVal.add (rm : RMode) : FVal → FVal → FVal
  | .nan, _ => .nan
  | _, .nan => .nan
  | .inf a, .inf b => if a = b then .inf a else .nan
  | .inf a, _ => .inf a
  | _, .inf b => .inf b
  | .fin s1 m1 e1, .fin s2 m2 e2 =>
    let q := min e1 e2
    let zneg := if m1 = 0 ∧ m2 = 0 ∧ s1 = s2 then s1 else decide (rm = .rdn)
    ofUnits (signedUnits s1 m1 e1 q + signedUnits s2 m2 e2 q) q zneg

/-- The exact product (R103). -/
def FVal.mul : FVal → FVal → FVal
  | .nan, _ => .nan
  | _, .nan => .nan
  | .inf a, .inf b => .inf (a != b)
  | .inf a, .fin b m _ => if m = 0 then .nan else .inf (a != b)
  | .fin a m _, .inf b => if m = 0 then .nan else .inf (a != b)
  | .fin s1 m1 e1, .fin s2 m2 e2 => .fin (s1 != s2) (m1 * m2) (e1 + e2)

/-- The value negated. -/
def FVal.neg : FVal → FVal
  | .nan => .nan
  | .inf a => .inf (!a)
  | .fin a m e => .fin (!a) m e

/-- The value times 2^k. -/
def FVal.scale (k : Int) : FVal → FVal
  | .fin a m e => .fin a m (e + k)
  | v => v

/-- Is the first value less than the second, NaN aside and zeros equal? -/
def FVal.lt : FVal → FVal → Bool
  | .nan, _ => false
  | _, .nan => false
  | .inf a, .inf b => a && !b
  | .inf a, .fin _ _ _ => a
  | .fin _ _ _, .inf b => !b
  | .fin s1 m1 e1, .fin s2 m2 e2 =>
    let q := min e1 e2
    decide (signedUnits s1 m1 e1 q < signedUnits s2 m2 e2 q)

/-- Is the value zero? -/
def FVal.isZero : FVal → Bool
  | .fin _ m _ => decide (m = 0)
  | _ => false

/-- Is the sign set? -/
def FVal.isNeg : FVal → Bool
  | .nan => false
  | .inf a => a
  | .fin a _ _ => a

/-- Is it a NaN? -/
def FVal.isNan : FVal → Bool
  | .nan => true
  | _ => false

/-- Are the values equal as IEEE 754 compares them: NaN equals nothing, and the zeros are equal? -/
def FVal.eqv (a b : FVal) : Bool :=
  !a.isNan && !b.isNan && !(a.lt b) && !(b.lt a)

/-- VMAX: the canonical NaN if either is NaN, +0 above −0 (R104). -/
def FVal.vmax (a b : FVal) : FVal :=
  if a.isNan || b.isNan then .nan
  else if a.lt b then b
  else if b.lt a then a
  else if a.isNeg then b else a

/-- VMIN (R104). -/
def FVal.vmin (a b : FVal) : FVal :=
  if a.isNan || b.isNan then .nan
  else if a.lt b then a
  else if b.lt a then b
  else if a.isNeg then a else b

/-- IEEE 754 binary32 addition, multiplication and fused multiply-add under a mode (R103). -/
def fadd (rm : RMode) (a b : FVal) : FVal := toFp32 rm 0 (a.add rm b)
def fmul (rm : RMode) (a b : FVal) : FVal := toFp32 rm 0 (a.mul b)
def ffma (rm : RMode) (a b c : FVal) : FVal := toFp32 rm 0 ((a.mul b).add rm c)

/-- One level of the pairwise tree of R105: adjacent values are combined. -/
def pairLevel (op : FVal → FVal → FVal) : List FVal → List FVal
  | a :: b :: l => op a b :: pairLevel op l
  | l => l

/-- `n` levels of the tree. -/
def pairTree (op : FVal → FVal → FVal) : Nat → List FVal → List FVal
  | 0, l => l
  | n + 1, l => pairTree op n (pairLevel op l)

/-- The reduction of 256 lanes by the tree of R105: eight levels. -/
def reduce256 (op : FVal → FVal → FVal) (l : List FVal) : FVal := (pairTree op 8 l).headD .nan

/-! ## The long accumulator -/

/-- The residue of an integer modulo 15 (R123). -/
def res15 (z : Int) : Nat := (z % 15).toNat

/-- One lane's entry of a LONG row (R81, R87, R93, R125). The anchor belongs to the row (R144). -/
structure LongEntry where
  value : BitVec 128 := 0
  terms : Nat := 0
  overrange : Bool := false
  exactLost : Bool := false
  ninf : Bool := false
  pinf : Bool := false
  nan : Bool := false
  residue : Nat := 0
deriving DecidableEq, Repr

/-- The term limit of R87, and where the count saturates (R97). -/
def termLimit : Nat := 1048576
def termSat : Nat := 0x1FFFFF

/-- `n` more terms (R87, R97). -/
def LongEntry.count (e : LongEntry) (n : Nat) : LongEntry :=
  { e with terms := min (e.terms + n) termSat, overrange := e.overrange || decide (termLimit < e.terms + n) }

/-- An addition into VALUE modulo 2^128, the residue led by its own path with the wrap signal (R88, R125). An entry whose
residue is 0b1111 keeps it (R124). -/
def LongEntry.addInto (e : LongEntry) (z : Int) (rz : Nat) : LongEntry :=
  let full : Int := e.value.toInt + z
  let v := BitVec.ofInt 128 full
  let wraps : Int := (full - v.toInt) / (2 ^ 128 : Int)
  { e with value := v,
           residue := if e.residue = 15 then 15 else res15 ((e.residue : Int) + (rz : Int) - wraps) }

/-- One MAC term added to an entry with anchor `a` (R85 to R88, R92, R93). -/
def LongEntry.addTerm (e : LongEntry) (a : Int) (t : FVal) : LongEntry :=
  let e := e.count 1
  match t with
  | .nan => { e with nan := true }
  | .inf true => { e with ninf := true }
  | .inf false => { e with pinf := true }
  | .fin neg mant exp =>
    if mant = 0 then e
    else
      let exact := decide (a ≤ exp)
      let sh := (a - exp).toNat
      let u := if exact then mant * 2 ^ (exp - a).toNat else mant / 2 ^ sh
      let lost := !exact && decide (mant % 2 ^ sh ≠ 0)
      let high := decide (2 ^ 107 ≤ u)
      let k := if high then 2 ^ 107 - 1 else u
      let z : Int := if neg then -(k : Int) else (k : Int)
      let e := { e with exactLost := e.exactLost || lost, overrange := e.overrange || high }
      e.addInto z (res15 z)

/-- The entry's value (R81, R94, R117). -/
def LongEntry.toVal (e : LongEntry) (a : Int) : FVal :=
  if e.nan || (e.pinf && e.ninf) then .nan
  else if e.pinf then .inf false
  else if e.ninf then .inf true
  else ofUnits e.value.toInt a false

/-- Does the carried residue match VALUE (R124, R126)? -/
def LongEntry.residueOk (e : LongEntry) : Bool :=
  decide (e.residue ≠ 15) && decide (res15 e.value.toInt = e.residue)

/-- A bit as a number. -/
def bit (b : Bool) : Nat := if b then 1 else 0

/-- The anchor as a 10-bit field, and back (R97). -/
def anchorField (a : Int) : Nat := (a % 1024).toNat
def anchorOf (n : Nat) : Int := if n % 1024 < 512 then ((n % 1024 : Nat) : Int) else ((n % 1024 : Nat) : Int) - 1024

/-- The ACC_RAW image of an entry (R97). -/
def LongEntry.image (e : LongEntry) (a : Int) : Nat :=
  e.value.toNat + anchorField a * 2 ^ 128 + (e.residue % 16) * 2 ^ 138 + bit e.nan * 2 ^ 142 + bit e.pinf * 2 ^ 143
    + bit e.ninf * 2 ^ 144 + bit e.exactLost * 2 ^ 145 + bit e.overrange * 2 ^ 146 + (min e.terms termSat) * 2 ^ 148

/-- An image read back: its anchor and entry (R97). -/
def entryOfImage (n : Nat) : Int × LongEntry :=
  (anchorOf (n / 2 ^ 128 % 1024),
   { value := BitVec.ofNat 128 n, terms := n / 2 ^ 148 % 2 ^ 21, overrange := n.testBit 146, exactLost := n.testBit 145,
     ninf := n.testBit 144, pinf := n.testBit 143, nan := n.testBit 142, residue := n / 2 ^ 138 % 16 })

/-- The merge of two entries of one anchor (R96, R125). -/
def LongEntry.merge (e o : LongEntry) : LongEntry :=
  let s := e.addInto o.value.toInt (if o.residue = 15 then 15 else o.residue)
  { s with terms := min (e.terms + o.terms) termSat
           overrange := e.overrange || o.overrange || decide (termLimit < e.terms + o.terms)
           exactLost := e.exactLost || o.exactLost
           ninf := e.ninf || o.ninf
           pinf := e.pinf || o.pinf
           nan := e.nan || o.nan
           residue := if o.residue = 15 then 15 else s.residue }

/-! ## FP32 accumulation -/

/-- The exponent of the leading bit of a non-zero finite value. -/
def FVal.leadExp : FVal → Option Int
  | .fin _ m e => if m = 0 then none else some ((lead m : Int) + e)
  | _ => none

/-- The larger of two optional exponents. -/
def maxOpt : Option Int → Option Int → Option Int
  | none, b => b
  | a, none => a
  | some a, some b => some (max a b)

/-- The sum of a chunk of exact products (R100, R888). -/
def chunkSum (ps : List FVal) : FVal :=
  if ps.any FVal.isNan then .nan
  else
    let pinf := ps.any (fun p => decide (p = .inf false))
    let ninf := ps.any (fun p => decide (p = .inf true))
    if pinf && ninf then .nan
    else if pinf then .inf false
    else if ninf then .inf true
    else
      let allNegZero := !ps.isEmpty && ps.all (fun p => p.isZero && p.isNeg)
      match ps.foldl (fun a p => maxOpt a p.leadExp) none with
      | none => .fin allNegZero 0 0
      | some em =>
        let q := em - 60
        let z := ps.foldl (fun a p => match p with
          | .fin n m e =>
            let u := roundUnits .rtz 0 n m e q
            if n then a - (u : Int) else a + (u : Int)
          | _ => a) 0
        if z = 0 then .fin false 0 0 else toFp32 .rne 0 (ofUnits z q false)

/-- A list cut in runs of `n`, with fuel. -/
def runsOf {α : Type} (n : Nat) : Nat → List α → List (List α)
  | 0, _ => []
  | _, [] => []
  | k + 1, l => l.take n :: runsOf n k (l.drop n)

/-- The products of one descriptor added to an FP32 entry, chunk by chunk (R99 to R101). -/
def fp32Accumulate (c : FVal) (ps : List FVal) : FVal :=
  (runsOf 128 ps.length ps).foldl (fun a ch => fadd .rne a (chunkSum ch)) c

/-! ## Blocks -/

/-- The scale exponent limit and emax of a blocked format (R119). -/
def Fmt.emax : Fmt → Int
  | .e3m2 => 4
  | _ => 2

/-- An element of a block: its value by R74, and a NaN in a NaN block (R75). -/
def blockElement (f : Fmt) (scale bits : Nat) : FVal :=
  if scale = 255 then .nan else (f.decode bits).scale ((scale : Int) - 127)

/-- The larger magnitude's leading exponent of a block. -/
def blockLead (vs : List FVal) : Option Int := vs.foldl (fun a v => maxOpt a v.leadExp) none

/-- A block of sixteen exact values converted: the scale byte, the elements' bits and the flags (R119 to R122). `rs` are
the random values of the elements. -/
def convertBlock (f : Fmt) (rm : RMode) (sat : Bool) (rs : List Nat) (vs : List FVal) : Nat × List Nat × NumFlags :=
  if vs.any (fun v => match v with
      | .fin _ _ _ => false
      | _ => true) then (255, vs.map (fun _ => 0), { bits := nfNanOut })
  else
    match blockLead vs with
    | none => (127, vs.map (fun v => if v.isNeg then f.signBit else 0), {})
    | some l =>
      let se : Int := max (-127) (min 127 (l - f.emax))
      let out := (vs.zip rs).map (fun p => convert f rm sat p.2 (p.1.scale (-se)))
      ((se + 127).toNat, out.map (·.1), out.foldl (fun a o => a.join o.2) {})

/-- The automatic anchor of an operand pair (R82): none where the descriptor must give one. -/
def autoAnchor (fa fb : Fmt) : Option Int :=
  if fa = .i8 ∧ fb = .i8 then some 0
  else if fa.isF8 && fb.isF8 then some (-32)
  else none

/-- The accumulator modes. -/
inductive AccMode where
  | long | fp32
deriving DecidableEq, Repr

/-- The accumulator mode of an operand pair; none for a pair outside R79. -/
def pairMode (fa fb : Fmt) : Option AccMode :=
  if fa = .i8 ∧ fb = .i8 then some .long
  else if fa.isF8 && fb.isF8 then some .long
  else if fa.blocked && fb.blocked then some .long
  else if fa = .bf16 ∧ fb = .bf16 then some .fp32
  else if fa = .fp16 ∧ fb = .fp16 then some .fp32
  else none

/-! ## The generator of R109 -/

/-- One round of Philox-4×32. -/
def philoxRound (k0 k1 : Nat) (c : Nat × Nat × Nat × Nat) : Nat × Nat × Nat × Nat :=
  let p0 := 0xD2511F53 * c.1
  let p1 := 0xCD9E8D57 * c.2.2.1
  ((p1 / 2 ^ 32) ^^^ c.2.1 ^^^ k0, p1 % 2 ^ 32, (p0 / 2 ^ 32) ^^^ c.2.2.2 ^^^ k1, p0 % 2 ^ 32)

/-- `n` rounds, the key bumped after each. -/
def philoxRounds : Nat → Nat → Nat → Nat × Nat × Nat × Nat → Nat × Nat × Nat × Nat
  | 0, _, _, c => c
  | n + 1, k0, k1, c =>
    philoxRounds n ((k0 + 0x9E3779B9) % 2 ^ 32) ((k1 + 0xBB67AE85) % 2 ^ 32) (philoxRound k0 k1 c)

/-- The four output words of Philox-4×32-10 for a seed, a logical index, a stream and a step sequence number (R109). -/
def philox (seed : Nat) (index stream stepSeq : Nat) : Nat × Nat × Nat × Nat :=
  philoxRounds 10 (seed % 2 ^ 32) (seed / 2 ^ 32 % 2 ^ 32)
    (index % 2 ^ 32, index / 2 ^ 32 % 2 ^ 32, stream % 2 ^ 32, stepSeq % 2 ^ 32)

/-- The 16-bit random value r of R109. -/
def rsrValue (seed index stream stepSeq : Nat) : Nat := (philox seed index stream stepSeq).1 / 2 ^ 16 % 2 ^ 16

end Sys2Proof.Machine
end

