-- ==== Sys2Proof/Machine/RegMap.lean ====
section
/-! DEFINITION. The register map of the control window (R17, R577): every register the chapters name, with each
field's bits, access code (R26), reset value (R31) and reserved encodings (R29, R30). Fields of the tables whose reset
is a strap, fuse, link, flash copy or random value carry the value of log entry 3. -/

namespace Sys2Proof.Machine

/-- The primary access codes of R26. -/
inductive Acc where
  | ro | rw | rw1c | w1s | wo | rwc
deriving DecidableEq, Repr

/-- The encodings of a field that are not marked reserved. -/
inductive Legal where
  | any
  | range (lo hi : Nat)
  /-- zero, or a value from `lo` to `hi` -/
  | zeroOr (lo hi : Nat)
deriving DecidableEq, Repr

/-- One field of a register: bits `hi:lo`, access code, the SNAP and STKY modifiers (R26), reset value and legal encodings. -/
structure Field where
  hi : Nat
  lo : Nat
  acc : Acc
  snap : Bool := false
  stky : Bool := false
  reset : Nat := 0
  legal : Legal := .any
deriving DecidableEq, Repr

/-- One register, or an array of `count` registers at `stride` bytes. `clu` rows lie in each of the 264 CLU windows and
`base` is then the offset in the window; otherwise `base` is the control-window offset. -/
structure RegRow where
  name : String
  clu : Bool
  base : Nat
  count : Nat
  stride : Nat
  fields : List Field
deriving DecidableEq, Repr

/-- A place where a field lies: the register's control-window offset and the bits. -/
structure Fld where
  reg : Nat
  hi : Nat
  lo : Nat
  stride : Nat := 8
deriving DecidableEq, Repr

/-- The same field in entry `i` of the array. -/
def Fld.at (f : Fld) (i : Nat) : Fld := { f with reg := f.reg + f.stride * i }

/-- The same field in the CLU window of physical cluster `p` (R577). -/
def Fld.clu (f : Fld) (p : Nat) : Fld := { f with reg := 0x01000000 + 0x10000 * p + f.reg }

namespace F
def GLB_IDENT_FAMILY : Fld := { reg := 0x0, hi := 63, lo := 48 }
def GLB_IDENT_VARIANT : Fld := { reg := 0x0, hi := 47, lo := 40 }
def GLB_IDENT_STEPPING : Fld := { reg := 0x0, hi := 39, lo := 32 }
def GLB_IDENT_CHIP_ID : Fld := { reg := 0x0, hi := 21, lo := 16 }
def GLB_IDENT_CLUSTERS : Fld := { reg := 0x0, hi := 8, lo := 0 }
def GLB_STATE_ACTIVE_CTL : Fld := { reg := 0x8, hi := 32, lo := 32 }
def GLB_STATE_HELD_SECT : Fld := { reg := 0x8, hi := 24, lo := 18 }
def GLB_STATE_TOPO_DEGRADED : Fld := { reg := 0x8, hi := 17, lo := 17 }
def GLB_STATE_COLL_ACTIVE : Fld := { reg := 0x8, hi := 16, lo := 16 }
def GLB_STATE_FW_TRIAL : Fld := { reg := 0x8, hi := 15, lo := 15 }
def GLB_STATE_LIFECYCLE : Fld := { reg := 0x8, hi := 14, lo := 12 }
def GLB_STATE_POWER_TARGET : Fld := { reg := 0x8, hi := 10, lo := 8 }
def GLB_STATE_POWER_STATE : Fld := { reg := 0x8, hi := 6, lo := 4 }
def GLB_STATE_DEVICE_STATE : Fld := { reg := 0x8, hi := 3, lo := 0 }
def GLB_STRAPS_PAR_OK : Fld := { reg := 0x10, hi := 9, lo := 9 }
def GLB_STRAPS_SEEDBED : Fld := { reg := 0x10, hi := 8, lo := 8 }
def GLB_STRAPS_PAR : Fld := { reg := 0x10, hi := 7, lo := 7 }
def GLB_STRAPS_POS : Fld := { reg := 0x10, hi := 5, lo := 0 }
def GLB_DEV_CMD_REFUSED : Fld := { reg := 0x18, hi := 8, lo := 8 }
def GLB_DEV_CMD_RECOVER : Fld := { reg := 0x18, hi := 2, lo := 2 }
def GLB_DEV_CMD_RESUME : Fld := { reg := 0x18, hi := 1, lo := 1 }
def GLB_DEV_CMD_DRAIN : Fld := { reg := 0x18, hi := 0, lo := 0 }
def GLB_CFG_RELOAD_COPY : Fld := { reg := 0x100, hi := 9, lo := 8 }
def GLB_CFG_RELOAD_GO : Fld := { reg := 0x100, hi := 7, lo := 7 }
def GLB_CFG_RELOAD_SECTIONS : Fld := { reg := 0x100, hi := 6, lo := 0 }
def GLB_CFG_STATUS_SEQUENCE : Fld := { reg := 0x108, hi := 63, lo := 32 }
def GLB_CFG_STATUS_IN_USE : Fld := { reg := 0x108, hi := 31, lo := 30 }
def GLB_CFG_STATUS_RESULT_A : Fld := { reg := 0x108, hi := 25, lo := 22 }
def GLB_CFG_STATUS_RESULT_B : Fld := { reg := 0x108, hi := 21, lo := 18 }
def GLB_CFG_STATUS_APPLIED : Fld := { reg := 0x108, hi := 14, lo := 8 }
def GLB_CFG_STATUS_RELOAD_RESULT : Fld := { reg := 0x108, hi := 7, lo := 4 }
def GLB_CFG_HOLD_CAUSEA : Fld := { reg := 0x110, hi := 3, lo := 0 }
def GLB_CFG_HOLD_CAUSEB : Fld := { reg := 0x110, hi := 7, lo := 4 }
def GLB_CFG_HOLD_CAUSEC : Fld := { reg := 0x110, hi := 11, lo := 8 }
def GLB_CFG_HOLD_CAUSED : Fld := { reg := 0x110, hi := 15, lo := 12 }
def GLB_CFG_HOLD_CAUSEE : Fld := { reg := 0x110, hi := 19, lo := 16 }
def GLB_CFG_HOLD_CAUSEF : Fld := { reg := 0x110, hi := 23, lo := 20 }
def GLB_CFG_HOLD_CAUSEG : Fld := { reg := 0x110, hi := 27, lo := 24 }
def GLB_SNAP_CTL_BLOCKS : Fld := { reg := 0x200, hi := 15, lo := 0 }
def GLB_COMMIT_GROUP_REFUSED : Fld := { reg := 0x208, hi := 18, lo := 18 }
def GLB_COMMIT_GROUP_PENDING : Fld := { reg := 0x208, hi := 17, lo := 17 }
def GLB_COMMIT_GROUP_GO : Fld := { reg := 0x208, hi := 16, lo := 16 }
def GLB_COMMIT_GROUP_BLOCKS : Fld := { reg := 0x208, hi := 14, lo := 1 }
def CTX_STATS_PRUNED : Fld := { reg := 0x100000, hi := 63, lo := 32 }
def CTX_STATS_OPEN_COUNT : Fld := { reg := 0x100000, hi := 16, lo := 0 }
def CTX_PEEK_SEL_CONTEXT : Fld := { reg := 0x100010, hi := 15, lo := 0 }
def CTX_PEEK_DATA_WORD : Fld := { reg := 0x100100, hi := 63, lo := 0 }
def CTX_IMAGE_STATE : Fld := { reg := 0x100200, hi := 17, lo := 16 }
def CTX_IMAGE_FIRST : Fld := { reg := 0x100200, hi := 15, lo := 8 }
def CTX_IMAGE_COUNT_LESS_ONE : Fld := { reg := 0x100200, hi := 7, lo := 0 }
def DSP_LANE_CFG_RESET : Fld := { reg := 0x200000, hi := 1, lo := 1 }
def DSP_LANE_CFG_ENABLE : Fld := { reg := 0x200000, hi := 0, lo := 0 }
def DSP_LANE_CREDIT_ADDR_ADDR : Fld := { reg := 0x200080, hi := 63, lo := 3 }
def DSP_LANE_STATUS_TAKEN : Fld := { reg := 0x200100, hi := 63, lo := 32 }
def DSP_LANE_STATUS_STALLED : Fld := { reg := 0x200100, hi := 31, lo := 31 }
def DSP_LANE_STATUS_STRAY : Fld := { reg := 0x200100, hi := 23, lo := 16 }
def DSP_LANE_STATUS_OVERRUN : Fld := { reg := 0x200100, hi := 15, lo := 8 }
def DSP_LANE_STATUS_ACCEPTED : Fld := { reg := 0x200100, hi := 6, lo := 0 }
def DSP_CLASS_LIMIT_LIMITA : Fld := { reg := 0x200200, hi := 7, lo := 0 }
def DSP_CLASS_LIMIT_LIMITB : Fld := { reg := 0x200200, hi := 15, lo := 8 }
def DSP_CLASS_LIMIT_LIMITC : Fld := { reg := 0x200200, hi := 23, lo := 16 }
def DSP_CLASS_LIMIT_LIMITD : Fld := { reg := 0x200200, hi := 31, lo := 24 }
def DSP_CLASS_LIMIT_LIMITE : Fld := { reg := 0x200200, hi := 39, lo := 32 }
def DSP_CLASS_LIMIT_LIMITF : Fld := { reg := 0x200200, hi := 47, lo := 40 }
def DSP_CLASS_LIMIT_LIMITG : Fld := { reg := 0x200200, hi := 55, lo := 48 }
def DSP_CLASS_LIMIT_LIMITH : Fld := { reg := 0x200200, hi := 63, lo := 56 }
def DSP_COMMIT_REFUSED : Fld := { reg := 0x200300, hi := 2, lo := 2 }
def DSP_COMMIT_PENDING : Fld := { reg := 0x200300, hi := 1, lo := 1 }
def DSP_COMMIT_GO : Fld := { reg := 0x200300, hi := 0, lo := 0 }
def DSP_CRING_BASE_ADDR : Fld := { reg := 0x201000, hi := 63, lo := 6 }
def DSP_CRING_CFG_ENABLE : Fld := { reg := 0x201200, hi := 63, lo := 63 }
def DSP_CRING_CFG_COALESCE_US : Fld := { reg := 0x201200, hi := 47, lo := 32 }
def DSP_CRING_CFG_COALESCE_COUNT : Fld := { reg := 0x201200, hi := 31, lo := 24 }
def DSP_CRING_CFG_SIZE_LOG2 : Fld := { reg := 0x201200, hi := 19, lo := 16 }
def DSP_CRING_CFG_VECTOR : Fld := { reg := 0x201200, hi := 10, lo := 0 }
def DSP_CRING_HEAD_HEAD : Fld := { reg := 0x201400, hi := 31, lo := 0 }
def DSP_CRING_TAIL_TAIL : Fld := { reg := 0x201600, hi := 31, lo := 0 }
def TLY_VALUE_VALUE : Fld := { reg := 0x300000, hi := 63, lo := 0 }
def TLY_ADD_ADD : Fld := { reg := 0x320000, hi := 63, lo := 0 }
def TLY_DROP_STALE_GEN : Fld := { reg := 0x340000, hi := 63, lo := 48 }
def TLY_DROP_TENANT : Fld := { reg := 0x340000, hi := 47, lo := 32 }
def TLY_DROP_OUT_OF_GRANT : Fld := { reg := 0x340000, hi := 31, lo := 16 }
def MEM_LANE_STATUS_LANE_GEN : Fld := { reg := 0x500000, hi := 63, lo := 52 }
def MEM_LANE_STATUS_RETRAINS : Fld := { reg := 0x500000, hi := 51, lo := 36 }
def MEM_LANE_STATUS_SPEED : Fld := { reg := 0x500000, hi := 31, lo := 24 }
def MEM_LANE_STATUS_PRUNED : Fld := { reg := 0x500000, hi := 23, lo := 16 }
def MEM_LANE_STATUS_SPARES : Fld := { reg := 0x500000, hi := 15, lo := 14 }
def MEM_LANE_STATUS_WIDTH : Fld := { reg := 0x500000, hi := 13, lo := 12 }
def MEM_LANE_STATUS_RETIRED : Fld := { reg := 0x500000, hi := 7, lo := 7 }
def MEM_LANE_STATUS_FWD_PRESENT : Fld := { reg := 0x500000, hi := 6, lo := 6 }
def MEM_LANE_STATUS_STALE : Fld := { reg := 0x500000, hi := 5, lo := 5 }
def MEM_LANE_STATUS_SELF_REFRESH : Fld := { reg := 0x500000, hi := 4, lo := 4 }
def MEM_LANE_STATUS_STATE : Fld := { reg := 0x500000, hi := 3, lo := 0 }
def MEM_LANE_CTL_RETRAIN : Fld := { reg := 0x500080, hi := 0, lo := 0 }
def MEM_MIRROR_REGION : Fld := { reg := 0x500100, hi := 15, lo := 0 }
def MEM_SCRUB_CFG_T3_HOURS : Fld := { reg := 0x500108, hi := 47, lo := 32 }
def MEM_SCRUB_CFG_T2_HOURS : Fld := { reg := 0x500108, hi := 31, lo := 16 }
def MEM_SCRUB_CFG_T1_HOURS : Fld := { reg := 0x500108, hi := 15, lo := 0 }
def MEM_EVAC_CTL_GO : Fld := { reg := 0x500110, hi := 7, lo := 7 }
def MEM_EVAC_CTL_MODULE : Fld := { reg := 0x500110, hi := 3, lo := 0 }
def MEM_MIGRATE_GO : Fld := { reg := 0x500118, hi := 31, lo := 31 }
def MEM_MIGRATE_PAGE : Fld := { reg := 0x500118, hi := 18, lo := 0 }
def MEM_EVAC_STATUS_PAGES_DONE : Fld := { reg := 0x500120, hi := 63, lo := 48 }
def MEM_EVAC_STATUS_PAGES_TOTAL : Fld := { reg := 0x500120, hi := 47, lo := 32 }
def MEM_EVAC_STATUS_MIGRATION : Fld := { reg := 0x500120, hi := 8, lo := 8 }
def MEM_EVAC_STATUS_MODULE : Fld := { reg := 0x500120, hi := 7, lo := 4 }
def MEM_EVAC_STATUS_STATE : Fld := { reg := 0x500120, hi := 3, lo := 0 }
def MEM_ERR_CORRECTED : Fld := { reg := 0x500200, hi := 63, lo := 32 }
def MEM_ERR_UNCORRECTABLE : Fld := { reg := 0x500200, hi := 31, lo := 16 }
def MEM_ERR_REFUSED : Fld := { reg := 0x500200, hi := 15, lo := 8 }
def MEM_ERR_ADDR_MISMATCH : Fld := { reg := 0x500200, hi := 7, lo := 0 }
def MEM_LEASE_LEASE_ID : Fld := { reg := 0x500220, hi := 63, lo := 32 }
def MEM_LEASE_MODULES : Fld := { reg := 0x500220, hi := 23, lo := 16 }
def MEM_LEASE_STATE : Fld := { reg := 0x500220, hi := 1, lo := 0 }
def MEM_COMMIT_REFUSED : Fld := { reg := 0x500F00, hi := 2, lo := 2 }
def MEM_COMMIT_PENDING : Fld := { reg := 0x500F00, hi := 1, lo := 1 }
def MEM_COMMIT_GO : Fld := { reg := 0x500F00, hi := 0, lo := 0 }
def FAB_PORT_STATUS_PORT_GEN : Fld := { reg := 0x600000, hi := 63, lo := 52 }
def FAB_PORT_STATUS_RETRAINS : Fld := { reg := 0x600000, hi := 51, lo := 36 }
def FAB_PORT_STATUS_NEIGHBOUR_CHIP : Fld := { reg := 0x600000, hi := 35, lo := 30 }
def FAB_PORT_STATUS_NEIGHBOUR_PORT : Fld := { reg := 0x600000, hi := 29, lo := 25 }
def FAB_PORT_STATUS_CIRCUITS : Fld := { reg := 0x600000, hi := 24, lo := 22 }
def FAB_PORT_STATUS_SPARES : Fld := { reg := 0x600000, hi := 21, lo := 20 }
def FAB_PORT_STATUS_WIDTH : Fld := { reg := 0x600000, hi := 19, lo := 18 }
def FAB_PORT_STATUS_MODE : Fld := { reg := 0x600000, hi := 17, lo := 16 }
def FAB_PORT_STATUS_DOWN_CAUSE : Fld := { reg := 0x600000, hi := 15, lo := 12 }
def FAB_PORT_STATUS_DISCOVERY : Fld := { reg := 0x600000, hi := 11, lo := 8 }
def FAB_PORT_STATUS_STATE : Fld := { reg := 0x600000, hi := 3, lo := 0 }
def FAB_PORT_CFG_RETRAIN : Fld := { reg := 0x600100, hi := 3, lo := 3 }
def FAB_PORT_CFG_ENABLE : Fld := { reg := 0x600100, hi := 2, lo := 2 }
def FAB_PORT_CFG_MODE : Fld := { reg := 0x600100, hi := 1, lo := 0 }
def FAB_STATUS_STATE : Fld := { reg := 0x600300, hi := 63, lo := 62 }
def FAB_STATUS_FAB_GEN : Fld := { reg := 0x600300, hi := 59, lo := 48 }
def FAB_STATUS_RGEN : Fld := { reg := 0x600300, hi := 47, lo := 40 }
def FAB_STATUS_SWAP_PENDING : Fld := { reg := 0x600300, hi := 39, lo := 39 }
def FAB_STATUS_GRACE : Fld := { reg := 0x600300, hi := 38, lo := 38 }
def FAB_STATUS_SWAP_FORCED : Fld := { reg := 0x600300, hi := 37, lo := 37 }
def FAB_STATUS_WRITE_LOST : Fld := { reg := 0x600300, hi := 36, lo := 36 }
def FAB_STATUS_STRAP_ERR : Fld := { reg := 0x600300, hi := 35, lo := 35 }
def FAB_STATUS_PLAN_CHIP_ERR : Fld := { reg := 0x600300, hi := 34, lo := 34 }
def FAB_STATUS_MISSING : Fld := { reg := 0x600300, hi := 31, lo := 0 }
def FAB_CTL_RESUME : Fld := { reg := 0x600308, hi := 1, lo := 1 }
def FAB_CTL_SWAP : Fld := { reg := 0x600308, hi := 0, lo := 0 }
def FAB_TIMER_CFG_REPLY_TIMEOUT_US : Fld := { reg := 0x600310, hi := 47, lo := 32 }
def FAB_TIMER_CFG_GRACE_MS : Fld := { reg := 0x600310, hi := 31, lo := 16 }
def FAB_TIMER_CFG_DRAIN_LIMIT_US : Fld := { reg := 0x600310, hi := 15, lo := 0 }
def FAB_ARB_LIMIT_SLOT_CIRCUIT : Fld := { reg := 0x600320, hi := 55, lo := 48 }
def FAB_ARB_LIMIT_SLOT_REQUEST : Fld := { reg := 0x600320, hi := 47, lo := 40 }
def FAB_ARB_LIMIT_SLOT_REPLY : Fld := { reg := 0x600320, hi := 39, lo := 32 }
def FAB_ARB_LIMIT_REPLY_HUB : Fld := { reg := 0x600320, hi := 31, lo := 24 }
def FAB_ARB_LIMIT_REPLY_INPUT : Fld := { reg := 0x600320, hi := 23, lo := 16 }
def FAB_ARB_LIMIT_REQ_HUB : Fld := { reg := 0x600320, hi := 15, lo := 8 }
def FAB_ARB_LIMIT_REQ_INPUT : Fld := { reg := 0x600320, hi := 7, lo := 0 }
def FAB_DROP_STALE_RGEN : Fld := { reg := 0x600400, hi := 63, lo := 56 }
def FAB_DROP_NO_ROUTE : Fld := { reg := 0x600400, hi := 55, lo := 48 }
def FAB_DROP_HOP_LIMIT : Fld := { reg := 0x600400, hi := 47, lo := 40 }
def FAB_DROP_MALFORMED : Fld := { reg := 0x600400, hi := 39, lo := 32 }
def FAB_DROP_PRUNED : Fld := { reg := 0x600400, hi := 31, lo := 24 }
def FAB_DROP_TRUNCATED : Fld := { reg := 0x600400, hi := 23, lo := 16 }
def FAB_DROP_REMOTE_REFUSED : Fld := { reg := 0x600400, hi := 15, lo := 8 }
def FAB_DROP_TADD_LOST : Fld := { reg := 0x600400, hi := 7, lo := 0 }
def FAB_ROUTE_VALID : Fld := { reg := 0x601000, hi := 63, lo := 63 }
def FAB_ROUTE_PORTS : Fld := { reg := 0x601000, hi := 31, lo := 0 }
def FAB_ROUTE_SHADOW_VALID : Fld := { reg := 0x601200, hi := 63, lo := 63 }
def FAB_ROUTE_SHADOW_PORTS : Fld := { reg := 0x601200, hi := 31, lo := 0 }
def FAB_FALLBACK_VALID : Fld := { reg := 0x601400, hi := 63, lo := 63 }
def FAB_FALLBACK_PORTS : Fld := { reg := 0x601400, hi := 31, lo := 0 }
def FAB_FALLBACK_SHADOW_VALID : Fld := { reg := 0x601600, hi := 63, lo := 63 }
def FAB_FALLBACK_SHADOW_PORTS : Fld := { reg := 0x601600, hi := 31, lo := 0 }
def FAB_FLOW_CIRCUIT_EN : Fld := { reg := 0x601800, hi := 7, lo := 7 }
def FAB_FLOW_CIRC : Fld := { reg := 0x601800, hi := 3, lo := 0 }
def FAB_CIRC_DEST_CHIP : Fld := { reg := 0x602000, hi := 63, lo := 58 }
def FAB_CIRC_HOPS : Fld := { reg := 0x602000, hi := 57, lo := 56 }
def FAB_CIRC_SHARE : Fld := { reg := 0x602000, hi := 55, lo := 52 }
def FAB_CIRC_PORT_A : Fld := { reg := 0x602000, hi := 51, lo := 47 }
def FAB_CIRC_PORT_B : Fld := { reg := 0x602000, hi := 46, lo := 42 }
def FAB_CIRC_PORT_C : Fld := { reg := 0x602000, hi := 41, lo := 37 }
def FAB_CIRC_TEARDOWN : Fld := { reg := 0x602000, hi := 17, lo := 17 }
def FAB_CIRC_SETUP : Fld := { reg := 0x602000, hi := 16, lo := 16 }
def FAB_CIRC_CAUSE : Fld := { reg := 0x602000, hi := 11, lo := 8 }
def FAB_CIRC_STATE : Fld := { reg := 0x602000, hi := 3, lo := 0 }
def FAB_COMMIT_REFUSED : Fld := { reg := 0x600F00, hi := 2, lo := 2 }
def FAB_COMMIT_PENDING : Fld := { reg := 0x600F00, hi := 1, lo := 1 }
def FAB_COMMIT_GO : Fld := { reg := 0x600F00, hi := 0, lo := 0 }
def COL_GROUP_VALID : Fld := { reg := 0x700000, hi := 63, lo := 63 }
def COL_GROUP_ORDERING : Fld := { reg := 0x700000, hi := 62, lo := 62 }
def COL_GROUP_TENANT : Fld := { reg := 0x700000, hi := 47, lo := 32 }
def COL_GROUP_RANK_BASE : Fld := { reg := 0x700000, hi := 28, lo := 16 }
def COL_GROUP_N_LESS_ONE : Fld := { reg := 0x700000, hi := 13, lo := 8 }
def COL_GROUP_MY_RANK : Fld := { reg := 0x700000, hi := 5, lo := 0 }
def COL_RANK_CHIPA : Fld := { reg := 0x710000, hi := 5, lo := 0 }
def COL_RANK_CHIPB : Fld := { reg := 0x710000, hi := 13, lo := 8 }
def COL_RANK_CHIPC : Fld := { reg := 0x710000, hi := 21, lo := 16 }
def COL_RANK_CHIPD : Fld := { reg := 0x710000, hi := 29, lo := 24 }
def COL_RANK_CHIPE : Fld := { reg := 0x710000, hi := 37, lo := 32 }
def COL_RANK_CHIPF : Fld := { reg := 0x710000, hi := 45, lo := 40 }
def COL_RANK_CHIPG : Fld := { reg := 0x710000, hi := 53, lo := 48 }
def COL_RANK_CHIPH : Fld := { reg := 0x710000, hi := 61, lo := 56 }
def COL_GROUP_STATE_CSEQ : Fld := { reg := 0x720000, hi := 63, lo := 48 }
def COL_GROUP_STATE_LAST_CAUSE : Fld := { reg := 0x720000, hi := 47, lo := 40 }
def COL_GROUP_STATE_STATE : Fld := { reg := 0x720000, hi := 3, lo := 0 }
def COL_CFG_MARK_SHIFT : Fld := { reg := 0x730000, hi := 39, lo := 32 }
def COL_CFG_TIMEOUT_MS : Fld := { reg := 0x730000, hi := 15, lo := 0 }
def COL_MARK_MARK : Fld := { reg := 0x730008, hi := 31, lo := 0 }
def COL_STATUS_ACTIVE_GROUP : Fld := { reg := 0x730010, hi := 63, lo := 52 }
def COL_STATUS_ACTIVE_CSEQ : Fld := { reg := 0x730010, hi := 51, lo := 36 }
def COL_STATUS_WAITING : Fld := { reg := 0x730010, hi := 22, lo := 16 }
def COL_STATUS_ACTIVE : Fld := { reg := 0x730010, hi := 0, lo := 0 }
def COL_ERR_MISMATCH : Fld := { reg := 0x730018, hi := 63, lo := 48 }
def COL_ERR_ORDER : Fld := { reg := 0x730018, hi := 47, lo := 32 }
def COL_ERR_LINK_LOST : Fld := { reg := 0x730018, hi := 31, lo := 16 }
def COL_ERR_DROPPED : Fld := { reg := 0x730018, hi := 15, lo := 8 }
def COL_ERR_LATE : Fld := { reg := 0x730018, hi := 7, lo := 0 }
def COL_COMMIT_REFUSED : Fld := { reg := 0x730F00, hi := 2, lo := 2 }
def COL_COMMIT_PENDING : Fld := { reg := 0x730F00, hi := 1, lo := 1 }
def COL_COMMIT_GO : Fld := { reg := 0x730F00, hi := 0, lo := 0 }
def PWR_CMD_TARGET : Fld := { reg := 0x800000, hi := 2, lo := 0 }
def PWR_STATUS_EFFECTIVE_CAP_W : Fld := { reg := 0x800008, hi := 63, lo := 48 }
def PWR_STATUS_LIMITER : Fld := { reg := 0x800008, hi := 47, lo := 44 }
def PWR_STATUS_TRIP_SEEN : Fld := { reg := 0x800008, hi := 10, lo := 10 }
def PWR_STATUS_CMD_REFUSED : Fld := { reg := 0x800008, hi := 9, lo := 9 }
def PWR_STATUS_MULCH_LOW : Fld := { reg := 0x800008, hi := 8, lo := 8 }
def PWR_STATUS_CAP_UNMET : Fld := { reg := 0x800008, hi := 7, lo := 7 }
def PWR_STATUS_COOL_RANGE : Fld := { reg := 0x800008, hi := 6, lo := 6 }
def PWR_STATUS_COOL_DERATED : Fld := { reg := 0x800008, hi := 5, lo := 5 }
def PWR_STATUS_COOL_FAULT : Fld := { reg := 0x800008, hi := 4, lo := 4 }
def PWR_STATUS_HEARTBEAT_LOST : Fld := { reg := 0x800008, hi := 1, lo := 1 }
def PWR_STATUS_WARN_ACTIVE : Fld := { reg := 0x800008, hi := 0, lo := 0 }
def PWR_CAP_DELIVERY_W : Fld := { reg := 0x800010, hi := 59, lo := 48 }
def PWR_CAP_RACK_W : Fld := { reg := 0x800010, hi := 43, lo := 32 }
def PWR_CAP_HOST_W : Fld := { reg := 0x800010, hi := 27, lo := 16 }
def PWR_CAP_WINDOW_S : Fld := { reg := 0x800010, hi := 4, lo := 0 }
def PWR_POLICY_WARN_CAP_W : Fld := { reg := 0x800018, hi := 63, lo := 52 }
def PWR_POLICY_UNMANAGED_CAP_W : Fld := { reg := 0x800018, hi := 51, lo := 40 }
def PWR_POLICY_HEARTBEAT_S : Fld := { reg := 0x800018, hi := 39, lo := 32 }
def PWR_POLICY_THERM_LIMIT_C : Fld := { reg := 0x800018, hi := 31, lo := 25 }
def PWR_POLICY_MULCH_BAND_C : Fld := { reg := 0x800018, hi := 24, lo := 20 }
def PWR_POLICY_MULCH_CENTRE_C : Fld := { reg := 0x800018, hi := 19, lo := 13 }
def PWR_POLICY_TRIM_CEILING : Fld := { reg := 0x800018, hi := 12, lo := 6 }
def PWR_POLICY_PRIORITY : Fld := { reg := 0x800018, hi := 5, lo := 0 }
def PWR_PACE_RATE_MHZ : Fld := { reg := 0x800020, hi := 63, lo := 52 }
def PWR_PACE_VCORE_MV : Fld := { reg := 0x800020, hi := 51, lo := 42 }
def PWR_PACE_DUTY_PCT : Fld := { reg := 0x800020, hi := 41, lo := 35 }
def PWR_PACE_MEM_RATE_PCT : Fld := { reg := 0x800020, hi := 34, lo := 28 }
def PWR_PACE_LINK_RATE_PCT : Fld := { reg := 0x800020, hi := 27, lo := 21 }
def PWR_PACE_DROOP_STEP : Fld := { reg := 0x800020, hi := 20, lo := 18 }
def PWR_ESTIMATE_INPUT_W : Fld := { reg := 0x800028, hi := 63, lo := 48 }
def PWR_ESTIMATE_DELIVERY_MEAN_W : Fld := { reg := 0x800028, hi := 47, lo := 32 }
def PWR_ESTIMATE_COOL_MEAN_W : Fld := { reg := 0x800028, hi := 31, lo := 16 }
def PWR_ESTIMATE_FLOOR_W : Fld := { reg := 0x800028, hi := 15, lo := 0 }
def PWR_CAP_LAG_FALLS : Fld := { reg := 0x800030, hi := 63, lo := 32 }
def PWR_CAP_LAG_MAX_US : Fld := { reg := 0x800030, hi := 31, lo := 16 }
def PWR_CAP_LAG_LAST_US : Fld := { reg := 0x800030, hi := 15, lo := 0 }
def PWR_THERM_TJ_C : Fld := { reg := 0x800038, hi := 63, lo := 56 }
def PWR_THERM_SENSOR : Fld := { reg := 0x800038, hi := 55, lo := 48 }
def PWR_THERM_INLET : Fld := { reg := 0x800038, hi := 47, lo := 40 }
def PWR_THERM_OUTLET : Fld := { reg := 0x800038, hi := 39, lo := 32 }
def PWR_THERM_DP : Fld := { reg := 0x800038, hi := 31, lo := 20 }
def PWR_THERM_FLOW_ML_MIN : Fld := { reg := 0x800038, hi := 19, lo := 8 }
def PWR_DROOP_EVENTS : Fld := { reg := 0x800040, hi := 63, lo := 32 }
def PWR_DROOP_STEP4 : Fld := { reg := 0x800040, hi := 31, lo := 0 }
def PWR_PACE_ACC_LIMITED_MS : Fld := { reg := 0x800060, hi := 63, lo := 32 }
def PWR_PACE_ACC_COLL_WAIT_MS : Fld := { reg := 0x800060, hi := 31, lo := 0 }
def PWR_COMMIT_REFUSED : Fld := { reg := 0x800F00, hi := 2, lo := 2 }
def PWR_COMMIT_PENDING : Fld := { reg := 0x800F00, hi := 1, lo := 1 }
def PWR_COMMIT_GO : Fld := { reg := 0x800F00, hi := 0, lo := 0 }
def RAS_LEASE_EPOCH : Fld := { reg := 0x900000, hi := 63, lo := 48 }
def RAS_LEASE_STALE_WRITES : Fld := { reg := 0x900000, hi := 47, lo := 32 }
def RAS_LEASE_DUALACT_WRITES : Fld := { reg := 0x900000, hi := 31, lo := 16 }
def RAS_LEASE_TAKEOVERS : Fld := { reg := 0x900000, hi := 15, lo := 8 }
def RAS_LEASE_DUAL_ACT : Fld := { reg := 0x900000, hi := 1, lo := 1 }
def RAS_LEASE_ACTIVE : Fld := { reg := 0x900000, hi := 0, lo := 0 }
def RAS_CTL_HEALTH_REPORT_AGE_MS : Fld := { reg := 0x900008, hi := 63, lo := 48 }
def RAS_CTL_HEALTH_FAILS : Fld := { reg := 0x900008, hi := 47, lo := 40 }
def RAS_CTL_HEALTH_JOURNAL_OK : Fld := { reg := 0x900008, hi := 6, lo := 6 }
def RAS_CTL_HEALTH_SCRUB_OK : Fld := { reg := 0x900008, hi := 5, lo := 5 }
def RAS_CTL_HEALTH_LOCKSTEP_OK : Fld := { reg := 0x900008, hi := 4, lo := 4 }
def RAS_CTL_HEALTH_STATE : Fld := { reg := 0x900008, hi := 3, lo := 0 }
def RAS_HANG_CFG_STEP_BUDGET_MS : Fld := { reg := 0x900020, hi := 47, lo := 32 }
def RAS_HANG_CFG_STALL_US : Fld := { reg := 0x900020, hi := 31, lo := 16 }
def RAS_HANG_CFG_HUB_STALL_US : Fld := { reg := 0x900020, hi := 15, lo := 0 }
def RAS_ESC_CFG_CLU_WINDOW_S : Fld := { reg := 0x900028, hi := 55, lo := 48 }
def RAS_ESC_CFG_CLU_RESET_LIMIT : Fld := { reg := 0x900028, hi := 47, lo := 40 }
def RAS_ESC_CFG_STRIKE_LIMIT : Fld := { reg := 0x900028, hi := 39, lo := 32 }
def RAS_ESC_CFG_QUAD_LIMIT : Fld := { reg := 0x900028, hi := 31, lo := 24 }
def RAS_ESC_CFG_COMPUTE_LIMIT : Fld := { reg := 0x900028, hi := 23, lo := 16 }
def RAS_ESC_CFG_UPPER_WINDOW_S : Fld := { reg := 0x900028, hi := 15, lo := 0 }
def RAS_ESC_STATUS_PKG_COUNT : Fld := { reg := 0x900030, hi := 63, lo := 56 }
def RAS_ESC_STATUS_COMPUTE_COUNT : Fld := { reg := 0x900030, hi := 55, lo := 48 }
def RAS_ESC_STATUS_QUAD_COUNT : Fld := { reg := 0x900030, hi := 47, lo := 40 }
def RAS_ESC_STATUS_EXHAUSTED : Fld := { reg := 0x900030, hi := 39, lo := 32 }
def RAS_ESC_STATUS_LAST_LEVEL : Fld := { reg := 0x900030, hi := 31, lo := 28 }
def RAS_ESC_STATUS_PKG_TOTAL : Fld := { reg := 0x900030, hi := 25, lo := 16 }
def RAS_ESC_STATUS_CLU_RESETS : Fld := { reg := 0x900030, hi := 15, lo := 0 }
def RAS_HARVEST_CONTEXTS : Fld := { reg := 0x900038, hi := 63, lo := 48 }
def RAS_HARVEST_FAB_GEN : Fld := { reg := 0x900038, hi := 47, lo := 36 }
def RAS_HARVEST_STEPS : Fld := { reg := 0x900038, hi := 35, lo := 24 }
def RAS_HARVEST_DURATION_US : Fld := { reg := 0x900038, hi := 23, lo := 8 }
def RAS_HARVEST_CAUSE : Fld := { reg := 0x900038, hi := 7, lo := 4 }
def RAS_HARVEST_LOSS : Fld := { reg := 0x900038, hi := 1, lo := 1 }
def RAS_HARVEST_VALID : Fld := { reg := 0x900038, hi := 0, lo := 0 }
def RAS_PRUNE_CLUSTER : Fld := { reg := 0x900040, hi := 63, lo := 32 }
def RAS_PRUNE_LATE_FAULT : Fld := { reg := 0x900040, hi := 31, lo := 16 }
def RAS_SPARE_STATUS_REMAPS : Fld := { reg := 0x900048, hi := 31, lo := 16 }
def RAS_SPARE_STATUS_LOST : Fld := { reg := 0x900048, hi := 15, lo := 8 }
def RAS_SPARE_STATUS_FREED : Fld := { reg := 0x900048, hi := 7, lo := 6 }
def RAS_SPARE_STATUS_FREEC : Fld := { reg := 0x900048, hi := 5, lo := 4 }
def RAS_SPARE_STATUS_FREEB : Fld := { reg := 0x900048, hi := 3, lo := 2 }
def RAS_SPARE_STATUS_FREEA : Fld := { reg := 0x900048, hi := 1, lo := 0 }
def RAS_SPARE_CTL_GO : Fld := { reg := 0x900050, hi := 8, lo := 8 }
def RAS_SPARE_CTL_LCLUSTER : Fld := { reg := 0x900050, hi := 7, lo := 0 }
def RAS_SELFTEST_RESULT : Fld := { reg := 0x900058, hi := 47, lo := 40 }
def RAS_SELFTEST_GO : Fld := { reg := 0x900058, hi := 31, lo := 31 }
def RAS_SELFTEST_KIND : Fld := { reg := 0x900058, hi := 27, lo := 24 }
def RAS_SELFTEST_INDEX : Fld := { reg := 0x900058, hi := 8, lo := 0 }
def RAS_EVENT_CFG_WARN_EN : Fld := { reg := 0x900060, hi := 27, lo := 27 }
def RAS_EVENT_CFG_VEC_WARN : Fld := { reg := 0x900060, hi := 26, lo := 16 }
def RAS_EVENT_CFG_FAULT_EN : Fld := { reg := 0x900060, hi := 11, lo := 11 }
def RAS_EVENT_CFG_VEC_FAULT : Fld := { reg := 0x900060, hi := 10, lo := 0 }
def RAS_EVENT_COUNT_TOTAL : Fld := { reg := 0x900068, hi := 31, lo := 0 }
def RAS_REMAP_LOST : Fld := { reg := 0x900100, hi := 15, lo := 15 }
def RAS_REMAP_PHYS : Fld := { reg := 0x900100, hi := 8, lo := 0 }
def RAS_EVENT_TIME_TIME : Fld := { reg := 0x901000, hi := 63, lo := 0, stride := 16 }
def RAS_EVENT_INFO_CODE : Fld := { reg := 0x901008, hi := 63, lo := 56, stride := 16 }
def RAS_EVENT_INFO_SEVERITY : Fld := { reg := 0x901008, hi := 55, lo := 54, stride := 16 }
def RAS_EVENT_INFO_SUBJECT : Fld := { reg := 0x901008, hi := 47, lo := 32, stride := 16 }
def RAS_EVENT_INFO_DETAIL : Fld := { reg := 0x901008, hi := 31, lo := 0, stride := 16 }
def RAS_COMMIT_REFUSED : Fld := { reg := 0x900F00, hi := 2, lo := 2 }
def RAS_COMMIT_PENDING : Fld := { reg := 0x900F00, hi := 1, lo := 1 }
def RAS_COMMIT_GO : Fld := { reg := 0x900F00, hi := 0, lo := 0 }
def FWU_CTL_TARGET : Fld := { reg := 0xA00000, hi := 15, lo := 8 }
def FWU_CTL_VIA_BUF : Fld := { reg := 0xA00000, hi := 5, lo := 5 }
def FWU_CTL_GO : Fld := { reg := 0xA00000, hi := 4, lo := 4 }
def FWU_CTL_OP : Fld := { reg := 0xA00000, hi := 3, lo := 0 }
def FWU_SRC_OFFSET : Fld := { reg := 0xA00008, hi := 33, lo := 6 }
def FWU_STATUS_GRAFT_LEFT_S : Fld := { reg := 0xA00010, hi := 63, lo := 48 }
def FWU_STATUS_FALLBACK_CAUSE : Fld := { reg := 0xA00010, hi := 35, lo := 32 }
def FWU_STATUS_RESULT : Fld := { reg := 0xA00010, hi := 31, lo := 24 }
def FWU_STATUS_STAGE : Fld := { reg := 0xA00010, hi := 19, lo := 16 }
def FWU_STATUS_RUNNING : Fld := { reg := 0xA00010, hi := 9, lo := 8 }
def FWU_STATUS_STATE : Fld := { reg := 0xA00010, hi := 3, lo := 0 }
def FWU_SLOT_VERSION : Fld := { reg := 0xA00020, hi := 63, lo := 32 }
def FWU_SLOT_SVN : Fld := { reg := 0xA00020, hi := 31, lo := 16 }
def FWU_SLOT_SEQ : Fld := { reg := 0xA00020, hi := 15, lo := 8 }
def FWU_SLOT_STATE : Fld := { reg := 0xA00020, hi := 3, lo := 0 }
def FWU_GRAFT_CFG_WINDOW_S : Fld := { reg := 0xA00030, hi := 15, lo := 0 }
def FWU_SVN_MIN_SVN : Fld := { reg := 0xA00038, hi := 63, lo := 48 }
def FWU_SVN_FUSES : Fld := { reg := 0xA00038, hi := 39, lo := 32 }
def FWU_TAKE_TAKE : Fld := { reg := 0xA00040, hi := 0, lo := 0 }
def FWU_SEED_CMD_SEQ : Fld := { reg := 0xA00100, hi := 63, lo := 48 }
def FWU_SEED_CMD_LENGTH : Fld := { reg := 0xA00100, hi := 24, lo := 8 }
def FWU_SEED_CMD_SLOT : Fld := { reg := 0xA00100, hi := 4, lo := 4 }
def FWU_SEED_CMD_CMD : Fld := { reg := 0xA00100, hi := 3, lo := 0 }
def FWU_SEED_STATUS_SEQ_DONE : Fld := { reg := 0xA00108, hi := 63, lo := 48 }
def FWU_SEED_STATUS_RESULT : Fld := { reg := 0xA00108, hi := 31, lo := 24 }
def FWU_SEED_STATUS_STATE : Fld := { reg := 0xA00108, hi := 3, lo := 0 }
def FWU_SEED_BUF_DATA : Fld := { reg := 0xA10000, hi := 63, lo := 0 }
def FWU_COMMIT_REFUSED : Fld := { reg := 0xA00F00, hi := 2, lo := 2 }
def FWU_COMMIT_PENDING : Fld := { reg := 0xA00F00, hi := 1, lo := 1 }
def FWU_COMMIT_GO : Fld := { reg := 0xA00F00, hi := 0, lo := 0 }
def SEC_NONCE_NONCE : Fld := { reg := 0xB00000, hi := 63, lo := 0 }
def SEC_CMD_CTL_GO : Fld := { reg := 0xB00008, hi := 0, lo := 0 }
def SEC_CMD_STATUS_COMMAND : Fld := { reg := 0xB00010, hi := 63, lo := 48 }
def SEC_CMD_STATUS_RESULT : Fld := { reg := 0xB00010, hi := 7, lo := 0 }
def SEC_CF_STATUS_WIPE_COUNT : Fld := { reg := 0xB00040, hi := 63, lo := 48 }
def SEC_CF_STATUS_CAUSE_OWNER : Fld := { reg := 0xB00040, hi := 34, lo := 34 }
def SEC_CF_STATUS_CAUSE_LIFECYCLE : Fld := { reg := 0xB00040, hi := 33, lo := 33 }
def SEC_CF_STATUS_CAUSE_TAMPER : Fld := { reg := 0xB00040, hi := 32, lo := 32 }
def SEC_CF_STATUS_ERASE_PENDING : Fld := { reg := 0xB00040, hi := 1, lo := 1 }
def SEC_CF_STATUS_WIPE_BUSY : Fld := { reg := 0xB00040, hi := 0, lo := 0 }
def SEC_MBOX_DATA : Fld := { reg := 0xB10000, hi := 63, lo := 0 }
def TIM_NOW_STEP : Fld := { reg := 0xC00000, hi := 63, lo := 0 }
def TIM_STATUS_STEPS : Fld := { reg := 0xC00008, hi := 63, lo := 48 }
def TIM_STATUS_OFFSET_NS : Fld := { reg := 0xC00008, hi := 47, lo := 32 }
def TIM_STATUS_RATE : Fld := { reg := 0xC00008, hi := 31, lo := 20 }
def TIM_STATUS_PARENT_PORT : Fld := { reg := 0xC00008, hi := 19, lo := 15 }
def TIM_STATUS_HOPS : Fld := { reg := 0xC00008, hi := 14, lo := 12 }
def TIM_STATUS_ROOT_CHIP : Fld := { reg := 0xC00008, hi := 11, lo := 6 }
def TIM_STATUS_STATE : Fld := { reg := 0xC00008, hi := 3, lo := 0 }
def TIM_WALL_SET_WALL_NS : Fld := { reg := 0xC00010, hi := 63, lo := 0 }
def TIM_EPOCH_STEP_STEP : Fld := { reg := 0xC00018, hi := 63, lo := 0 }
def TIM_WALL_NOW_WALL : Fld := { reg := 0xC00020, hi := 63, lo := 0 }
def TIM_COMMIT_REFUSED : Fld := { reg := 0xC00F00, hi := 2, lo := 2 }
def TIM_COMMIT_PENDING : Fld := { reg := 0xC00F00, hi := 1, lo := 1 }
def TIM_COMMIT_GO : Fld := { reg := 0xC00F00, hi := 0, lo := 0 }
def LOG_STATUS_NEXT_SEQ : Fld := { reg := 0xD00000, hi := 63, lo := 32 }
def LOG_STATUS_LOST : Fld := { reg := 0xD00000, hi := 31, lo := 0 }
def LOG_MIRROR_STATUS_MIRROR_SEQ : Fld := { reg := 0xD00008, hi := 63, lo := 32 }
def LOG_MIRROR_STATUS_CHAIN_START : Fld := { reg := 0xD00008, hi := 31, lo := 0 }
def LOG_LAST_LINK_LINK : Fld := { reg := 0xD00010, hi := 63, lo := 0 }
def LOG_BOOT_ID_ID : Fld := { reg := 0xD00020, hi := 63, lo := 0 }
def LOG_MIRROR_CFG_ENABLE : Fld := { reg := 0xD00100, hi := 32, lo := 32 }
def LOG_MIRROR_CFG_OFFSET_4M : Fld := { reg := 0xD00100, hi := 11, lo := 0 }
def LOG_READ_SEL_MISS : Fld := { reg := 0xD00200, hi := 32, lo := 32 }
def LOG_READ_SEL_SEQ : Fld := { reg := 0xD00200, hi := 31, lo := 0 }
def LOG_READ_DATA_WORD : Fld := { reg := 0xD00300, hi := 63, lo := 0 }
def LOG_COMMIT_REFUSED : Fld := { reg := 0xD00F00, hi := 2, lo := 2 }
def LOG_COMMIT_PENDING : Fld := { reg := 0xD00F00, hi := 1, lo := 1 }
def LOG_COMMIT_GO : Fld := { reg := 0xD00F00, hi := 0, lo := 0 }
def TEL_TEMP_MAX : Fld := { reg := 0x3000000, hi := 63, lo := 48 }
def TEL_TEMP_TEMP : Fld := { reg := 0x3000000, hi := 15, lo := 0 }
def HST_LINK_STATUS_HOST_GEN : Fld := { reg := 0xE00000, hi := 63, lo := 52 }
def HST_LINK_STATUS_RECOVERIES : Fld := { reg := 0xE00000, hi := 51, lo := 36 }
def HST_LINK_STATUS_SPARES : Fld := { reg := 0xE00000, hi := 29, lo := 28 }
def HST_LINK_STATUS_WIDTH : Fld := { reg := 0xE00000, hi := 20, lo := 16 }
def HST_LINK_STATUS_SPEED : Fld := { reg := 0xE00000, hi := 11, lo := 8 }
def HST_LINK_STATUS_STOPPED : Fld := { reg := 0xE00000, hi := 4, lo := 4 }
def HST_LINK_STATUS_STATE : Fld := { reg := 0xE00000, hi := 3, lo := 0 }
def HST_ERR_HOST_READ_FAIL : Fld := { reg := 0xE00008, hi := 63, lo := 56 }
def HST_ERR_HOST_POISON : Fld := { reg := 0xE00008, hi := 55, lo := 48 }
def HST_ERR_PRUNED : Fld := { reg := 0xE00008, hi := 47, lo := 40 }
def HST_ERR_STAGE_REFUSED : Fld := { reg := 0xE00008, hi := 39, lo := 32 }
def HST_ERR_STAGE_UNAVAIL : Fld := { reg := 0xE00008, hi := 31, lo := 24 }
def HST_ERR_BUSY_WRITE : Fld := { reg := 0xE00008, hi := 23, lo := 16 }
def HST_ERR_BAD_ACCESS : Fld := { reg := 0xE00008, hi := 15, lo := 8 }
def HST_ERR_MCTP_DROP : Fld := { reg := 0xE00008, hi := 7, lo := 0 }
def HST_STAGE_CFG_ENABLE : Fld := { reg := 0xE00010, hi := 8, lo := 8 }
def HST_STAGE_CFG_MOVED : Fld := { reg := 0xE00010, hi := 7, lo := 7 }
def HST_STAGE_CFG_BASE : Fld := { reg := 0xE00010, hi := 5, lo := 0 }
def HST_DMA_CFG_RO_DATA : Fld := { reg := 0xE00018, hi := 16, lo := 16 }
def HST_DMA_CFG_READ_LIMIT : Fld := { reg := 0xE00018, hi := 9, lo := 0 }
def HST_MCTP_CFG_EID : Fld := { reg := 0xE00020, hi := 15, lo := 8 }
def HST_MCTP_CFG_MTU : Fld := { reg := 0xE00020, hi := 1, lo := 0 }
def HST_COMMIT_REFUSED : Fld := { reg := 0xE00F00, hi := 2, lo := 2 }
def HST_COMMIT_PENDING : Fld := { reg := 0xE00F00, hi := 1, lo := 1 }
def HST_COMMIT_GO : Fld := { reg := 0xE00F00, hi := 0, lo := 0 }
def HST_MSIX_TABLE_DATA : Fld := { reg := 0xE10000, hi := 63, lo := 0 }
def HST_MSIX_PBA_PENDING : Fld := { reg := 0xE18000, hi := 63, lo := 0 }
def CLU_SEQ_STATUS_STEP_SEQ : Fld := { reg := 0x0, hi := 63, lo := 48 }
def CLU_SEQ_STATUS_CONTEXT : Fld := { reg := 0x0, hi := 47, lo := 32 }
def CLU_SEQ_STATUS_ATTEMPT : Fld := { reg := 0x0, hi := 31, lo := 29 }
def CLU_SEQ_STATUS_PC : Fld := { reg := 0x0, hi := 23, lo := 10 }
def CLU_SEQ_STATUS_ENGINE_BUSY : Fld := { reg := 0x0, hi := 8, lo := 4 }
def CLU_SEQ_STATUS_SEQ_STATE : Fld := { reg := 0x0, hi := 3, lo := 0 }
def CLU_STEP_COUNT_REPLAY_COUNT : Fld := { reg := 0x8, hi := 63, lo := 32 }
def CLU_STEP_COUNT_COMMIT_COUNT : Fld := { reg := 0x8, hi := 31, lo := 0 }
def CLU_REFUSE_STEP_SEQ : Fld := { reg := 0x10, hi := 63, lo := 48 }
def CLU_REFUSE_CONTEXT : Fld := { reg := 0x10, hi := 47, lo := 32 }
def CLU_REFUSE_VALID : Fld := { reg := 0x10, hi := 31, lo := 31 }
def CLU_REFUSE_PC : Fld := { reg := 0x10, hi := 29, lo := 16 }
def CLU_REFUSE_OPCODE : Fld := { reg := 0x10, hi := 15, lo := 8 }
def CLU_REFUSE_CODE : Fld := { reg := 0x10, hi := 7, lo := 0 }
def CLU_COMMIT_REFUSED : Fld := { reg := 0x20, hi := 2, lo := 2 }
def CLU_COMMIT_PENDING : Fld := { reg := 0x20, hi := 1, lo := 1 }
def CLU_COMMIT_GO : Fld := { reg := 0x20, hi := 0, lo := 0 }
def CLU_NUMSTAT_SAT_COUNT : Fld := { reg := 0x100, hi := 63, lo := 32 }
def CLU_NUMSTAT_RESIDUE_COUNT : Fld := { reg := 0x100, hi := 31, lo := 16 }
def CLU_NUMSTAT_RESIDUE_FAULT : Fld := { reg := 0x100, hi := 7, lo := 7 }
def CLU_NUMSTAT_NAN_SQUASHED : Fld := { reg := 0x100, hi := 5, lo := 5 }
def CLU_NUMSTAT_NAN_OUT : Fld := { reg := 0x100, hi := 4, lo := 4 }
def CLU_NUMSTAT_INF_OUT : Fld := { reg := 0x100, hi := 3, lo := 3 }
def CLU_NUMSTAT_SATURATED : Fld := { reg := 0x100, hi := 2, lo := 2 }
def CLU_NUMSTAT_OVERRANGE : Fld := { reg := 0x100, hi := 1, lo := 1 }
def CLU_NUMSTAT_EXACT_LOST : Fld := { reg := 0x100, hi := 0, lo := 0 }
def CLU_LTALLY_VALUE : Fld := { reg := 0x200, hi := 31, lo := 0 }
def CLU_BANK_WAKE_FROM_OFF : Fld := { reg := 0x318, hi := 63, lo := 32 }
def CLU_BANK_WAKE_FROM_RETENTION : Fld := { reg := 0x318, hi := 31, lo := 0 }
def CLU_ARB_LIMIT_SLICE_SCRUB : Fld := { reg := 0x320, hi := 55, lo := 48 }
def CLU_ARB_LIMIT_SLICE_TRELLIS : Fld := { reg := 0x320, hi := 47, lo := 40 }
def CLU_ARB_LIMIT_SLICE_MOVE : Fld := { reg := 0x320, hi := 39, lo := 32 }
def CLU_ARB_LIMIT_SLICE_SELECT : Fld := { reg := 0x320, hi := 31, lo := 24 }
def CLU_ARB_LIMIT_SLICE_VECTOR : Fld := { reg := 0x320, hi := 23, lo := 16 }
def CLU_ARB_LIMIT_SLICE_TENSOR : Fld := { reg := 0x320, hi := 15, lo := 8 }
def CLU_ARB_LIMIT_SLICE_SEQ : Fld := { reg := 0x320, hi := 7, lo := 0 }
def CLU_ARB_LIMIT_PAD_SCRUB : Fld := { reg := 0x328, hi := 55, lo := 48 }
def CLU_ARB_LIMIT_PAD_TRELLIS : Fld := { reg := 0x328, hi := 47, lo := 40 }
def CLU_ARB_LIMIT_PAD_MOVE : Fld := { reg := 0x328, hi := 39, lo := 32 }
def CLU_ARB_LIMIT_PAD_SELECT : Fld := { reg := 0x328, hi := 23, lo := 16 }
def CLU_ARB_LIMIT_PAD_VECTOR : Fld := { reg := 0x328, hi := 15, lo := 8 }
def CLU_ARB_LIMIT_PAD_TENSOR : Fld := { reg := 0x328, hi := 7, lo := 0 }
def CLU_SCRUB_CFG_ENABLE : Fld := { reg := 0x330, hi := 16, lo := 16 }
def CLU_SCRUB_CFG_INTERVAL : Fld := { reg := 0x330, hi := 15, lo := 0 }
def CLU_MEM_ERR_CORR_SLICE : Fld := { reg := 0x338, hi := 63, lo := 48 }
def CLU_MEM_ERR_CORR_PAD : Fld := { reg := 0x338, hi := 47, lo := 32 }
def CLU_MEM_ERR_UNCORR_SLICE : Fld := { reg := 0x338, hi := 31, lo := 24 }
def CLU_MEM_ERR_UNCORR_PAD : Fld := { reg := 0x338, hi := 23, lo := 16 }
def CLU_MEM_ERR_RESIDENT_REPAIR : Fld := { reg := 0x338, hi := 15, lo := 15 }
def CLU_MEM_ERR_LAST_BANK : Fld := { reg := 0x338, hi := 6, lo := 0 }
def CLU_PAD_COLLIDE_WRITE_WRITE : Fld := { reg := 0x340, hi := 63, lo := 32 }
def CLU_PAD_COLLIDE_READ_WRITE : Fld := { reg := 0x340, hi := 31, lo := 0 }
def CLU_CONFLICT_FORCED : Fld := { reg := 0x400, hi := 63, lo := 32 }
def CLU_CONFLICT_LOST : Fld := { reg := 0x400, hi := 31, lo := 0 }
def CLU_RING_VALID : Fld := { reg := 0x500, hi := 63, lo := 63 }
def CLU_RING_SPACE : Fld := { reg := 0x500, hi := 62, lo := 62 }
def CLU_RING_SLOTS : Fld := { reg := 0x500, hi := 58, lo := 46 }
def CLU_RING_SLOT_BYTES : Fld := { reg := 0x500, hi := 45, lo := 25 }
def CLU_RING_BASE : Fld := { reg := 0x500, hi := 24, lo := 0 }

end F

/-- The registers of the GLB block (R33, R62, R585, R619, R622, R623, R624, R846). -/
def regsGLB : List RegRow := [
  { name := "GLB_IDENT", clu := false, base := 0x0, count := 1, stride := 8, fields := [
    { hi := 63, lo := 48, acc := .ro, reset := 9 },
    { hi := 47, lo := 40, acc := .ro, reset := 1 },
    { hi := 39, lo := 32, acc := .ro, reset := 16 },
    { hi := 21, lo := 16, acc := .ro, stky := true, reset := 63 },
    { hi := 8, lo := 0, acc := .ro, reset := 256 }] },
  { name := "GLB_STATE", clu := false, base := 0x8, count := 1, stride := 8, fields := [
    { hi := 32, lo := 32, acc := .ro, snap := true, stky := true },
    { hi := 24, lo := 18, acc := .ro, snap := true },
    { hi := 17, lo := 17, acc := .ro, snap := true },
    { hi := 16, lo := 16, acc := .ro, snap := true },
    { hi := 15, lo := 15, acc := .ro, snap := true, stky := true },
    { hi := 14, lo := 12, acc := .ro, snap := true, stky := true },
    { hi := 10, lo := 8, acc := .ro, snap := true, stky := true, reset := 3 },
    { hi := 6, lo := 4, acc := .ro, snap := true, reset := 3 },
    { hi := 3, lo := 0, acc := .ro, snap := true, reset := 5 }] },
  { name := "GLB_STRAPS", clu := false, base := 0x10, count := 1, stride := 8, fields := [
    { hi := 9, lo := 9, acc := .ro, stky := true, reset := 1 },
    { hi := 8, lo := 8, acc := .ro, stky := true },
    { hi := 7, lo := 7, acc := .ro, stky := true, reset := 1 },
    { hi := 5, lo := 0, acc := .ro, stky := true, reset := 63 }] },
  { name := "GLB_DEV_CMD", clu := false, base := 0x18, count := 1, stride := 8, fields := [
    { hi := 8, lo := 8, acc := .rw1c },
    { hi := 2, lo := 2, acc := .w1s },
    { hi := 1, lo := 1, acc := .w1s },
    { hi := 0, lo := 0, acc := .w1s }] },
  { name := "GLB_CFG_RELOAD", clu := false, base := 0x100, count := 1, stride := 8, fields := [
    { hi := 9, lo := 8, acc := .rw, legal := .range 0 2 },
    { hi := 7, lo := 7, acc := .w1s },
    { hi := 6, lo := 0, acc := .rw, reset := 127 }] },
  { name := "GLB_CFG_STATUS", clu := false, base := 0x108, count := 1, stride := 8, fields := [
    { hi := 63, lo := 32, acc := .ro, snap := true, stky := true },
    { hi := 31, lo := 30, acc := .ro, snap := true, stky := true, reset := 1 },
    { hi := 25, lo := 22, acc := .ro, snap := true },
    { hi := 21, lo := 18, acc := .ro, snap := true, reset := 2 },
    { hi := 14, lo := 8, acc := .ro, snap := true, stky := true, reset := 127 },
    { hi := 7, lo := 4, acc := .ro, snap := true }] },
  { name := "GLB_CFG_HOLD", clu := false, base := 0x110, count := 1, stride := 8, fields := [
    { hi := 3, lo := 0, acc := .ro, snap := true },
    { hi := 7, lo := 4, acc := .ro, snap := true },
    { hi := 11, lo := 8, acc := .ro, snap := true },
    { hi := 15, lo := 12, acc := .ro, snap := true },
    { hi := 19, lo := 16, acc := .ro, snap := true },
    { hi := 23, lo := 20, acc := .ro, snap := true },
    { hi := 27, lo := 24, acc := .ro, snap := true }] },
  { name := "GLB_SNAP_CTL", clu := false, base := 0x200, count := 1, stride := 8, fields := [
    { hi := 15, lo := 0, acc := .wo }] },
  { name := "GLB_COMMIT_GROUP", clu := false, base := 0x208, count := 1, stride := 8, fields := [
    { hi := 18, lo := 18, acc := .rw1c, snap := true },
    { hi := 17, lo := 17, acc := .ro, snap := true },
    { hi := 16, lo := 16, acc := .wo },
    { hi := 14, lo := 1, acc := .rw }] }]

/-- The registers of the CTX block (R367, R368, R369). -/
def regsCTX : List RegRow := [
  { name := "CTX_STATS", clu := false, base := 0x100000, count := 1, stride := 8, fields := [
    { hi := 63, lo := 32, acc := .rw, snap := true },
    { hi := 16, lo := 0, acc := .ro, snap := true }] },
  { name := "CTX_PEEK_SEL", clu := false, base := 0x100010, count := 1, stride := 8, fields := [
    { hi := 15, lo := 0, acc := .rw }] },
  { name := "CTX_PEEK_DATA", clu := false, base := 0x100100, count := 16, stride := 8, fields := [
    { hi := 63, lo := 0, acc := .ro, snap := true }] },
  { name := "CTX_IMAGE", clu := false, base := 0x100200, count := 16, stride := 8, fields := [
    { hi := 17, lo := 16, acc := .ro, snap := true },
    { hi := 15, lo := 8, acc := .ro, snap := true },
    { hi := 7, lo := 0, acc := .ro, snap := true }] }]

/-- The registers of the DSP block (R370, R371, R372, R373, R374). -/
def regsDSP : List RegRow := [
  { name := "DSP_LANE_CFG", clu := false, base := 0x200000, count := 16, stride := 8, fields := [
    { hi := 1, lo := 1, acc := .w1s },
    { hi := 0, lo := 0, acc := .rwc }] },
  { name := "DSP_LANE_CREDIT_ADDR", clu := false, base := 0x200080, count := 16, stride := 8, fields := [
    { hi := 63, lo := 3, acc := .rwc }] },
  { name := "DSP_LANE_STATUS", clu := false, base := 0x200100, count := 16, stride := 8, fields := [
    { hi := 63, lo := 32, acc := .ro, snap := true },
    { hi := 31, lo := 31, acc := .ro, snap := true },
    { hi := 23, lo := 16, acc := .ro, snap := true },
    { hi := 15, lo := 8, acc := .ro, snap := true },
    { hi := 6, lo := 0, acc := .ro, snap := true }] },
  { name := "DSP_CLASS_LIMIT", clu := false, base := 0x200200, count := 1, stride := 8, fields := [
    { hi := 7, lo := 0, acc := .rwc },
    { hi := 15, lo := 8, acc := .rwc, reset := 64 },
    { hi := 23, lo := 16, acc := .rwc, reset := 64 },
    { hi := 31, lo := 24, acc := .rwc, reset := 64 },
    { hi := 39, lo := 32, acc := .rwc, reset := 64 },
    { hi := 47, lo := 40, acc := .rwc, reset := 64 },
    { hi := 55, lo := 48, acc := .rwc, reset := 64 },
    { hi := 63, lo := 56, acc := .rwc, reset := 64 }] },
  { name := "DSP_COMMIT", clu := false, base := 0x200300, count := 1, stride := 8, fields := [
    { hi := 2, lo := 2, acc := .rw1c, snap := true },
    { hi := 1, lo := 1, acc := .ro, snap := true },
    { hi := 0, lo := 0, acc := .wo }] },
  { name := "DSP_CRING_BASE", clu := false, base := 0x201000, count := 64, stride := 8, fields := [
    { hi := 63, lo := 6, acc := .rwc }] },
  { name := "DSP_CRING_CFG", clu := false, base := 0x201200, count := 64, stride := 8, fields := [
    { hi := 63, lo := 63, acc := .rwc },
    { hi := 47, lo := 32, acc := .rwc },
    { hi := 31, lo := 24, acc := .rwc, reset := 1 },
    { hi := 19, lo := 16, acc := .rwc, reset := 6, legal := .zeroOr 6 15 },
    { hi := 10, lo := 0, acc := .rwc }] },
  { name := "DSP_CRING_HEAD", clu := false, base := 0x201400, count := 64, stride := 8, fields := [
    { hi := 31, lo := 0, acc := .rw }] },
  { name := "DSP_CRING_TAIL", clu := false, base := 0x201600, count := 64, stride := 8, fields := [
    { hi := 31, lo := 0, acc := .ro, snap := true }] }]

/-- The registers of the TLY block (R375, R376). -/
def regsTLY : List RegRow := [
  { name := "TLY_VALUE", clu := false, base := 0x300000, count := 16384, stride := 8, fields := [
    { hi := 63, lo := 0, acc := .ro, snap := true }] },
  { name := "TLY_ADD", clu := false, base := 0x320000, count := 16384, stride := 8, fields := [
    { hi := 63, lo := 0, acc := .wo }] },
  { name := "TLY_DROP", clu := false, base := 0x340000, count := 1, stride := 8, fields := [
    { hi := 63, lo := 48, acc := .rw, snap := true },
    { hi := 47, lo := 32, acc := .rw, snap := true },
    { hi := 31, lo := 16, acc := .rw, snap := true }] }]

/-- The registers of the MEM block (R422, R423, R424, R425, R426, R427, R428, R429, R430). -/
def regsMEM : List RegRow := [
  { name := "MEM_LANE_STATUS", clu := false, base := 0x500000, count := 16, stride := 8, fields := [
    { hi := 63, lo := 52, acc := .ro, snap := true, stky := true },
    { hi := 51, lo := 36, acc := .ro, snap := true, stky := true },
    { hi := 31, lo := 24, acc := .ro, snap := true },
    { hi := 23, lo := 16, acc := .rw, snap := true },
    { hi := 15, lo := 14, acc := .ro, snap := true },
    { hi := 13, lo := 12, acc := .ro, snap := true },
    { hi := 7, lo := 7, acc := .ro, snap := true },
    { hi := 6, lo := 6, acc := .ro, snap := true },
    { hi := 5, lo := 5, acc := .ro, snap := true },
    { hi := 4, lo := 4, acc := .ro, snap := true },
    { hi := 3, lo := 0, acc := .ro, snap := true, reset := 2 }] },
  { name := "MEM_LANE_CTL", clu := false, base := 0x500080, count := 16, stride := 8, fields := [
    { hi := 0, lo := 0, acc := .w1s }] },
  { name := "MEM_MIRROR", clu := false, base := 0x500100, count := 1, stride := 8, fields := [
    { hi := 15, lo := 0, acc := .rwc }] },
  { name := "MEM_SCRUB_CFG", clu := false, base := 0x500108, count := 1, stride := 8, fields := [
    { hi := 47, lo := 32, acc := .rwc, reset := 96 },
    { hi := 31, lo := 16, acc := .rwc, reset := 48 },
    { hi := 15, lo := 0, acc := .rwc, reset := 24 }] },
  { name := "MEM_EVAC_CTL", clu := false, base := 0x500110, count := 1, stride := 8, fields := [
    { hi := 7, lo := 7, acc := .w1s },
    { hi := 3, lo := 0, acc := .rw }] },
  { name := "MEM_MIGRATE", clu := false, base := 0x500118, count := 1, stride := 8, fields := [
    { hi := 31, lo := 31, acc := .w1s },
    { hi := 18, lo := 0, acc := .rw }] },
  { name := "MEM_EVAC_STATUS", clu := false, base := 0x500120, count := 1, stride := 8, fields := [
    { hi := 63, lo := 48, acc := .ro, snap := true, stky := true },
    { hi := 47, lo := 32, acc := .ro, snap := true, stky := true },
    { hi := 8, lo := 8, acc := .ro, snap := true, stky := true },
    { hi := 7, lo := 4, acc := .ro, snap := true, stky := true },
    { hi := 3, lo := 0, acc := .ro, snap := true, stky := true }] },
  { name := "MEM_ERR", clu := false, base := 0x500200, count := 3, stride := 8, fields := [
    { hi := 63, lo := 32, acc := .rw, snap := true },
    { hi := 31, lo := 16, acc := .rw, snap := true },
    { hi := 15, lo := 8, acc := .rw, snap := true },
    { hi := 7, lo := 0, acc := .rw, snap := true }] },
  { name := "MEM_LEASE", clu := false, base := 0x500220, count := 1, stride := 8, fields := [
    { hi := 63, lo := 32, acc := .ro, snap := true, stky := true },
    { hi := 23, lo := 16, acc := .ro, snap := true },
    { hi := 1, lo := 0, acc := .ro, snap := true }] },
  { name := "MEM_COMMIT", clu := false, base := 0x500F00, count := 1, stride := 8, fields := [
    { hi := 2, lo := 2, acc := .rw1c, snap := true },
    { hi := 1, lo := 1, acc := .ro, snap := true },
    { hi := 0, lo := 0, acc := .wo }] }]

/-- The registers of the FAB block (R458, R489, R490, R491, R492, R493, R494, R495, R496, R497, R498). -/
def regsFAB : List RegRow := [
  { name := "FAB_PORT_STATUS", clu := false, base := 0x600000, count := 32, stride := 8, fields := [
    { hi := 63, lo := 52, acc := .ro, snap := true, stky := true },
    { hi := 51, lo := 36, acc := .ro, snap := true, stky := true },
    { hi := 35, lo := 30, acc := .ro, snap := true },
    { hi := 29, lo := 25, acc := .ro, snap := true },
    { hi := 24, lo := 22, acc := .ro, snap := true },
    { hi := 21, lo := 20, acc := .ro, snap := true },
    { hi := 19, lo := 18, acc := .ro, snap := true },
    { hi := 17, lo := 16, acc := .ro, snap := true },
    { hi := 15, lo := 12, acc := .ro, snap := true },
    { hi := 11, lo := 8, acc := .ro, snap := true },
    { hi := 3, lo := 0, acc := .ro, snap := true }] },
  { name := "FAB_PORT_CFG", clu := false, base := 0x600100, count := 32, stride := 8, fields := [
    { hi := 3, lo := 3, acc := .w1s },
    { hi := 2, lo := 2, acc := .rwc, reset := 1 },
    { hi := 1, lo := 0, acc := .rwc, legal := .range 0 2 }] },
  { name := "FAB_STATUS", clu := false, base := 0x600300, count := 1, stride := 8, fields := [
    { hi := 63, lo := 62, acc := .ro, snap := true, reset := 1 },
    { hi := 59, lo := 48, acc := .ro, snap := true, stky := true },
    { hi := 47, lo := 40, acc := .ro, snap := true, stky := true },
    { hi := 39, lo := 39, acc := .ro, snap := true },
    { hi := 38, lo := 38, acc := .ro, snap := true },
    { hi := 37, lo := 37, acc := .rw1c, snap := true },
    { hi := 36, lo := 36, acc := .rw1c, snap := true },
    { hi := 35, lo := 35, acc := .ro, snap := true, stky := true },
    { hi := 34, lo := 34, acc := .ro, snap := true },
    { hi := 31, lo := 0, acc := .ro, snap := true }] },
  { name := "FAB_CTL", clu := false, base := 0x600308, count := 1, stride := 8, fields := [
    { hi := 1, lo := 1, acc := .w1s },
    { hi := 0, lo := 0, acc := .w1s }] },
  { name := "FAB_TIMER_CFG", clu := false, base := 0x600310, count := 1, stride := 8, fields := [
    { hi := 47, lo := 32, acc := .rwc, reset := 1000, legal := .range 100 65535 },
    { hi := 31, lo := 16, acc := .rwc, reset := 10, legal := .range 1 1000 },
    { hi := 15, lo := 0, acc := .rwc, reset := 50, legal := .range 1 10000 }] },
  { name := "FAB_ARB_LIMIT", clu := false, base := 0x600320, count := 1, stride := 8, fields := [
    { hi := 55, lo := 48, acc := .rwc, reset := 5, legal := .range 1 255 },
    { hi := 47, lo := 40, acc := .rwc, reset := 5, legal := .range 1 255 },
    { hi := 39, lo := 32, acc := .rwc, reset := 1, legal := .range 1 255 },
    { hi := 31, lo := 24, acc := .rwc, reset := 8, legal := .range 1 255 },
    { hi := 23, lo := 16, acc := .rwc, reset := 32, legal := .range 1 255 },
    { hi := 15, lo := 8, acc := .rwc, reset := 8, legal := .range 1 255 },
    { hi := 7, lo := 0, acc := .rwc, reset := 32, legal := .range 1 255 }] },
  { name := "FAB_DROP", clu := false, base := 0x600400, count := 1, stride := 8, fields := [
    { hi := 63, lo := 56, acc := .rw, snap := true },
    { hi := 55, lo := 48, acc := .rw, snap := true },
    { hi := 47, lo := 40, acc := .rw, snap := true },
    { hi := 39, lo := 32, acc := .rw, snap := true },
    { hi := 31, lo := 24, acc := .rw, snap := true },
    { hi := 23, lo := 16, acc := .rw, snap := true },
    { hi := 15, lo := 8, acc := .rw, snap := true },
    { hi := 7, lo := 0, acc := .rw, snap := true }] },
  { name := "FAB_ROUTE", clu := false, base := 0x601000, count := 64, stride := 8, fields := [
    { hi := 63, lo := 63, acc := .ro, snap := true, stky := true },
    { hi := 31, lo := 0, acc := .ro, snap := true, stky := true }] },
  { name := "FAB_ROUTE_SHADOW", clu := false, base := 0x601200, count := 64, stride := 8, fields := [
    { hi := 63, lo := 63, acc := .rw, stky := true },
    { hi := 31, lo := 0, acc := .rw, stky := true }] },
  { name := "FAB_FALLBACK", clu := false, base := 0x601400, count := 64, stride := 8, fields := [
    { hi := 63, lo := 63, acc := .ro, snap := true, stky := true },
    { hi := 31, lo := 0, acc := .ro, snap := true, stky := true }] },
  { name := "FAB_FALLBACK_SHADOW", clu := false, base := 0x601600, count := 64, stride := 8, fields := [
    { hi := 63, lo := 63, acc := .rw, stky := true },
    { hi := 31, lo := 0, acc := .rw, stky := true }] },
  { name := "FAB_FLOW", clu := false, base := 0x601800, count := 64, stride := 8, fields := [
    { hi := 7, lo := 7, acc := .rwc, stky := true },
    { hi := 3, lo := 0, acc := .rwc, stky := true }] },
  { name := "FAB_CIRC", clu := false, base := 0x602000, count := 16, stride := 8, fields := [
    { hi := 63, lo := 58, acc := .rw },
    { hi := 57, lo := 56, acc := .rw, reset := 1, legal := .range 1 3 },
    { hi := 55, lo := 52, acc := .rw, reset := 1, legal := .range 1 7 },
    { hi := 51, lo := 47, acc := .rw },
    { hi := 46, lo := 42, acc := .rw },
    { hi := 41, lo := 37, acc := .rw },
    { hi := 17, lo := 17, acc := .w1s },
    { hi := 16, lo := 16, acc := .w1s },
    { hi := 11, lo := 8, acc := .ro, snap := true },
    { hi := 3, lo := 0, acc := .ro, snap := true }] },
  { name := "FAB_COMMIT", clu := false, base := 0x600F00, count := 1, stride := 8, fields := [
    { hi := 2, lo := 2, acc := .rw1c, snap := true },
    { hi := 1, lo := 1, acc := .ro, snap := true },
    { hi := 0, lo := 0, acc := .wo }] }]

/-- The registers of the COL block (R501, R502, R536, R537, R538, R539, R540, R541). -/
def regsCOL : List RegRow := [
  { name := "COL_GROUP", clu := false, base := 0x700000, count := 4096, stride := 8, fields := [
    { hi := 63, lo := 63, acc := .rwc, stky := true },
    { hi := 62, lo := 62, acc := .rwc, stky := true },
    { hi := 47, lo := 32, acc := .rwc, stky := true },
    { hi := 28, lo := 16, acc := .rwc, stky := true },
    { hi := 13, lo := 8, acc := .rwc, stky := true },
    { hi := 5, lo := 0, acc := .rwc, stky := true }] },
  { name := "COL_RANK", clu := false, base := 0x710000, count := 8192, stride := 8, fields := [
    { hi := 5, lo := 0, acc := .rwc, stky := true },
    { hi := 13, lo := 8, acc := .rwc, stky := true },
    { hi := 21, lo := 16, acc := .rwc, stky := true },
    { hi := 29, lo := 24, acc := .rwc, stky := true },
    { hi := 37, lo := 32, acc := .rwc, stky := true },
    { hi := 45, lo := 40, acc := .rwc, stky := true },
    { hi := 53, lo := 48, acc := .rwc, stky := true },
    { hi := 61, lo := 56, acc := .rwc, stky := true }] },
  { name := "COL_GROUP_STATE", clu := false, base := 0x720000, count := 4096, stride := 8, fields := [
    { hi := 63, lo := 48, acc := .ro, snap := true, stky := true },
    { hi := 47, lo := 40, acc := .ro, snap := true, stky := true },
    { hi := 3, lo := 0, acc := .ro, snap := true }] },
  { name := "COL_CFG", clu := false, base := 0x730000, count := 1, stride := 8, fields := [
    { hi := 39, lo := 32, acc := .rwc, stky := true, reset := 10, legal := .range 6 20 },
    { hi := 15, lo := 0, acc := .rwc, stky := true, reset := 500, legal := .range 10 65535 }] },
  { name := "COL_MARK", clu := false, base := 0x730008, count := 1, stride := 8, fields := [
    { hi := 31, lo := 0, acc := .ro, snap := true }] },
  { name := "COL_STATUS", clu := false, base := 0x730010, count := 1, stride := 8, fields := [
    { hi := 63, lo := 52, acc := .ro, snap := true },
    { hi := 51, lo := 36, acc := .ro, snap := true },
    { hi := 22, lo := 16, acc := .ro, snap := true },
    { hi := 0, lo := 0, acc := .ro, snap := true }] },
  { name := "COL_ERR", clu := false, base := 0x730018, count := 1, stride := 8, fields := [
    { hi := 63, lo := 48, acc := .rw, snap := true },
    { hi := 47, lo := 32, acc := .rw, snap := true },
    { hi := 31, lo := 16, acc := .rw, snap := true },
    { hi := 15, lo := 8, acc := .rw, snap := true },
    { hi := 7, lo := 0, acc := .rw, snap := true }] },
  { name := "COL_COMMIT", clu := false, base := 0x730F00, count := 1, stride := 8, fields := [
    { hi := 2, lo := 2, acc := .rw1c, snap := true },
    { hi := 1, lo := 1, acc := .ro, snap := true },
    { hi := 0, lo := 0, acc := .wo }] }]

/-- The registers of the PWR block (R672, R673, R674, R675, R676, R677, R678, R679, R680, R681, R682). -/
def regsPWR : List RegRow := [
  { name := "PWR_CMD", clu := false, base := 0x800000, count := 1, stride := 8, fields := [
    { hi := 2, lo := 0, acc := .wo }] },
  { name := "PWR_STATUS", clu := false, base := 0x800008, count := 1, stride := 8, fields := [
    { hi := 63, lo := 48, acc := .ro, snap := true },
    { hi := 47, lo := 44, acc := .ro, snap := true },
    { hi := 10, lo := 10, acc := .rw1c, snap := true, stky := true },
    { hi := 9, lo := 9, acc := .rw1c, snap := true },
    { hi := 8, lo := 8, acc := .ro, snap := true },
    { hi := 7, lo := 7, acc := .ro, snap := true },
    { hi := 6, lo := 6, acc := .ro, snap := true },
    { hi := 5, lo := 5, acc := .ro, snap := true },
    { hi := 4, lo := 4, acc := .ro, snap := true },
    { hi := 1, lo := 1, acc := .ro, snap := true },
    { hi := 0, lo := 0, acc := .ro, snap := true }] },
  { name := "PWR_CAP", clu := false, base := 0x800010, count := 1, stride := 8, fields := [
    { hi := 59, lo := 48, acc := .rwc, reset := 3200, legal := .range 600 3200 },
    { hi := 43, lo := 32, acc := .ro, snap := true, reset := 3200 },
    { hi := 27, lo := 16, acc := .rwc, reset := 3000, legal := .range 600 3200 },
    { hi := 4, lo := 0, acc := .rwc, reset := 5, legal := .range 1 30 }] },
  { name := "PWR_POLICY", clu := false, base := 0x800018, count := 1, stride := 8, fields := [
    { hi := 63, lo := 52, acc := .rwc, reset := 1800, legal := .range 600 3200 },
    { hi := 51, lo := 40, acc := .rwc, reset := 2400, legal := .range 600 3200 },
    { hi := 39, lo := 32, acc := .rwc, reset := 10, legal := .range 1 255 },
    { hi := 31, lo := 25, acc := .rwc, reset := 100, legal := .range 70 105 },
    { hi := 24, lo := 20, acc := .rwc, reset := 5, legal := .range 1 20 },
    { hi := 19, lo := 13, acc := .rwc, reset := 55, legal := .range 30 90 },
    { hi := 12, lo := 6, acc := .rwc, reset := 65, legal := .range 55 85 },
    { hi := 5, lo := 0, acc := .rwc, reset := 36 }] },
  { name := "PWR_PACE", clu := false, base := 0x800020, count := 1, stride := 8, fields := [
    { hi := 63, lo := 52, acc := .ro, snap := true },
    { hi := 51, lo := 42, acc := .ro, snap := true },
    { hi := 41, lo := 35, acc := .ro, snap := true },
    { hi := 34, lo := 28, acc := .ro, snap := true },
    { hi := 27, lo := 21, acc := .ro, snap := true },
    { hi := 20, lo := 18, acc := .ro, snap := true }] },
  { name := "PWR_ESTIMATE", clu := false, base := 0x800028, count := 1, stride := 8, fields := [
    { hi := 63, lo := 48, acc := .ro, snap := true },
    { hi := 47, lo := 32, acc := .ro, snap := true },
    { hi := 31, lo := 16, acc := .ro, snap := true },
    { hi := 15, lo := 0, acc := .ro, snap := true }] },
  { name := "PWR_CAP_LAG", clu := false, base := 0x800030, count := 1, stride := 8, fields := [
    { hi := 63, lo := 32, acc := .rw, snap := true },
    { hi := 31, lo := 16, acc := .rw, snap := true },
    { hi := 15, lo := 0, acc := .ro, snap := true }] },
  { name := "PWR_THERM", clu := false, base := 0x800038, count := 1, stride := 8, fields := [
    { hi := 63, lo := 56, acc := .ro, snap := true },
    { hi := 55, lo := 48, acc := .ro, snap := true },
    { hi := 47, lo := 40, acc := .ro, snap := true },
    { hi := 39, lo := 32, acc := .ro, snap := true },
    { hi := 31, lo := 20, acc := .ro, snap := true },
    { hi := 19, lo := 8, acc := .ro, snap := true }] },
  { name := "PWR_DROOP", clu := false, base := 0x800040, count := 4, stride := 8, fields := [
    { hi := 63, lo := 32, acc := .rw, snap := true },
    { hi := 31, lo := 0, acc := .rw, snap := true }] },
  { name := "PWR_PACE_ACC", clu := false, base := 0x800060, count := 1, stride := 8, fields := [
    { hi := 63, lo := 32, acc := .rw, snap := true },
    { hi := 31, lo := 0, acc := .rw, snap := true }] },
  { name := "PWR_COMMIT", clu := false, base := 0x800F00, count := 1, stride := 8, fields := [
    { hi := 2, lo := 2, acc := .rw1c, snap := true },
    { hi := 1, lo := 1, acc := .ro, snap := true },
    { hi := 0, lo := 0, acc := .wo }] }]

/-- The registers of the RAS block (R740, R741, R742, R743, R744, R745, R746, R747, R748, R749, R750, R751, R752, R753, R754). -/
def regsRAS : List RegRow := [
  { name := "RAS_LEASE", clu := false, base := 0x900000, count := 1, stride := 8, fields := [
    { hi := 63, lo := 48, acc := .ro, snap := true, stky := true },
    { hi := 47, lo := 32, acc := .rw, snap := true },
    { hi := 31, lo := 16, acc := .ro, snap := true },
    { hi := 15, lo := 8, acc := .ro, snap := true, stky := true },
    { hi := 1, lo := 1, acc := .ro, snap := true },
    { hi := 0, lo := 0, acc := .ro, snap := true, stky := true }] },
  { name := "RAS_CTL_HEALTH", clu := false, base := 0x900008, count := 2, stride := 8, fields := [
    { hi := 63, lo := 48, acc := .ro, snap := true },
    { hi := 47, lo := 40, acc := .ro, snap := true, stky := true },
    { hi := 6, lo := 6, acc := .ro, snap := true },
    { hi := 5, lo := 5, acc := .ro, snap := true },
    { hi := 4, lo := 4, acc := .ro, snap := true },
    { hi := 3, lo := 0, acc := .ro, snap := true }] },
  { name := "RAS_HANG_CFG", clu := false, base := 0x900020, count := 1, stride := 8, fields := [
    { hi := 47, lo := 32, acc := .rwc, reset := 1000, legal := .range 1 65535 },
    { hi := 31, lo := 16, acc := .rwc, reset := 10, legal := .range 2 1000 },
    { hi := 15, lo := 0, acc := .rwc, reset := 1000, legal := .range 100 65535 }] },
  { name := "RAS_ESC_CFG", clu := false, base := 0x900028, count := 1, stride := 8, fields := [
    { hi := 55, lo := 48, acc := .rwc, reset := 60, legal := .range 1 255 },
    { hi := 47, lo := 40, acc := .rwc, reset := 8, legal := .range 1 255 },
    { hi := 39, lo := 32, acc := .rwc, reset := 3, legal := .range 1 255 },
    { hi := 31, lo := 24, acc := .rwc, reset := 4, legal := .range 1 255 },
    { hi := 23, lo := 16, acc := .rwc, reset := 2, legal := .range 1 255 },
    { hi := 15, lo := 0, acc := .rwc, reset := 600, legal := .range 1 65535 }] },
  { name := "RAS_ESC_STATUS", clu := false, base := 0x900030, count := 1, stride := 8, fields := [
    { hi := 63, lo := 56, acc := .ro, snap := true, stky := true },
    { hi := 55, lo := 48, acc := .ro, snap := true, stky := true },
    { hi := 47, lo := 40, acc := .ro, snap := true, stky := true },
    { hi := 39, lo := 32, acc := .ro, snap := true, stky := true },
    { hi := 31, lo := 28, acc := .ro, snap := true, stky := true },
    { hi := 25, lo := 16, acc := .ro, snap := true, stky := true },
    { hi := 15, lo := 0, acc := .ro, snap := true, stky := true }] },
  { name := "RAS_HARVEST", clu := false, base := 0x900038, count := 1, stride := 8, fields := [
    { hi := 63, lo := 48, acc := .ro, snap := true, stky := true },
    { hi := 47, lo := 36, acc := .ro, snap := true, stky := true },
    { hi := 35, lo := 24, acc := .ro, snap := true, stky := true },
    { hi := 23, lo := 8, acc := .ro, snap := true, stky := true },
    { hi := 7, lo := 4, acc := .ro, snap := true, stky := true },
    { hi := 1, lo := 1, acc := .ro, snap := true, stky := true },
    { hi := 0, lo := 0, acc := .ro, snap := true, stky := true }] },
  { name := "RAS_PRUNE", clu := false, base := 0x900040, count := 1, stride := 8, fields := [
    { hi := 63, lo := 32, acc := .rw, snap := true },
    { hi := 31, lo := 16, acc := .rw, snap := true }] },
  { name := "RAS_SPARE_STATUS", clu := false, base := 0x900048, count := 1, stride := 8, fields := [
    { hi := 31, lo := 16, acc := .ro, snap := true, stky := true },
    { hi := 15, lo := 8, acc := .ro, snap := true, stky := true },
    { hi := 7, lo := 6, acc := .ro, snap := true, stky := true, reset := 2 },
    { hi := 5, lo := 4, acc := .ro, snap := true, stky := true, reset := 2 },
    { hi := 3, lo := 2, acc := .ro, snap := true, stky := true, reset := 2 },
    { hi := 1, lo := 0, acc := .ro, snap := true, stky := true, reset := 2 }] },
  { name := "RAS_SPARE_CTL", clu := false, base := 0x900050, count := 1, stride := 8, fields := [
    { hi := 8, lo := 8, acc := .w1s },
    { hi := 7, lo := 0, acc := .rw }] },
  { name := "RAS_SELFTEST", clu := false, base := 0x900058, count := 1, stride := 8, fields := [
    { hi := 47, lo := 40, acc := .ro, snap := true },
    { hi := 31, lo := 31, acc := .w1s },
    { hi := 27, lo := 24, acc := .rw, legal := .range 1 4 },
    { hi := 8, lo := 0, acc := .rw }] },
  { name := "RAS_EVENT_CFG", clu := false, base := 0x900060, count := 1, stride := 8, fields := [
    { hi := 27, lo := 27, acc := .rwc, reset := 1 },
    { hi := 26, lo := 16, acc := .rwc },
    { hi := 11, lo := 11, acc := .rwc, reset := 1 },
    { hi := 10, lo := 0, acc := .rwc }] },
  { name := "RAS_EVENT_COUNT", clu := false, base := 0x900068, count := 1, stride := 8, fields := [
    { hi := 31, lo := 0, acc := .ro, snap := true, stky := true }] },
  { name := "RAS_REMAP", clu := false, base := 0x900100, count := 256, stride := 8, fields := [
    { hi := 15, lo := 15, acc := .ro, snap := true, stky := true },
    { hi := 8, lo := 0, acc := .ro, snap := true, stky := true }] },
  { name := "RAS_EVENT_TIME", clu := false, base := 0x901000, count := 256, stride := 16, fields := [
    { hi := 63, lo := 0, acc := .ro, snap := true, stky := true }] },
  { name := "RAS_EVENT_INFO", clu := false, base := 0x901008, count := 256, stride := 16, fields := [
    { hi := 63, lo := 56, acc := .ro, snap := true, stky := true },
    { hi := 55, lo := 54, acc := .ro, snap := true, stky := true },
    { hi := 47, lo := 32, acc := .ro, snap := true, stky := true },
    { hi := 31, lo := 0, acc := .ro, snap := true, stky := true }] },
  { name := "RAS_COMMIT", clu := false, base := 0x900F00, count := 1, stride := 8, fields := [
    { hi := 2, lo := 2, acc := .rw1c, snap := true },
    { hi := 1, lo := 1, acc := .ro, snap := true },
    { hi := 0, lo := 0, acc := .wo }] }]

/-- The registers of the FWU block (R792, R793, R794, R795, R796, R797, R798, R799, R800). -/
def regsFWU : List RegRow := [
  { name := "FWU_CTL", clu := false, base := 0xA00000, count := 1, stride := 8, fields := [
    { hi := 15, lo := 8, acc := .rw },
    { hi := 5, lo := 5, acc := .rw },
    { hi := 4, lo := 4, acc := .w1s },
    { hi := 3, lo := 0, acc := .rw, legal := .range 1 5 }] },
  { name := "FWU_SRC", clu := false, base := 0xA00008, count := 1, stride := 8, fields := [
    { hi := 33, lo := 6, acc := .rw }] },
  { name := "FWU_STATUS", clu := false, base := 0xA00010, count := 1, stride := 8, fields := [
    { hi := 63, lo := 48, acc := .ro, snap := true },
    { hi := 35, lo := 32, acc := .ro, snap := true },
    { hi := 31, lo := 24, acc := .ro, snap := true },
    { hi := 19, lo := 16, acc := .ro, snap := true },
    { hi := 9, lo := 8, acc := .ro, snap := true, stky := true, reset := 1 },
    { hi := 3, lo := 0, acc := .ro, snap := true }] },
  { name := "FWU_SLOT", clu := false, base := 0xA00020, count := 2, stride := 8, fields := [
    { hi := 63, lo := 32, acc := .ro, snap := true, stky := true },
    { hi := 31, lo := 16, acc := .ro, snap := true, stky := true },
    { hi := 15, lo := 8, acc := .ro, snap := true, stky := true },
    { hi := 3, lo := 0, acc := .ro, snap := true, stky := true }] },
  { name := "FWU_GRAFT_CFG", clu := false, base := 0xA00030, count := 1, stride := 8, fields := [
    { hi := 15, lo := 0, acc := .rwc, reset := 900, legal := .range 60 7200 }] },
  { name := "FWU_SVN", clu := false, base := 0xA00038, count := 1, stride := 8, fields := [
    { hi := 63, lo := 48, acc := .ro, snap := true, stky := true },
    { hi := 39, lo := 32, acc := .ro, snap := true, stky := true }] },
  { name := "FWU_TAKE", clu := false, base := 0xA00040, count := 1, stride := 8, fields := [
    { hi := 0, lo := 0, acc := .wo }] },
  { name := "FWU_SEED_CMD", clu := false, base := 0xA00100, count := 1, stride := 8, fields := [
    { hi := 63, lo := 48, acc := .wo },
    { hi := 24, lo := 8, acc := .wo },
    { hi := 4, lo := 4, acc := .wo },
    { hi := 3, lo := 0, acc := .wo }] },
  { name := "FWU_SEED_STATUS", clu := false, base := 0xA00108, count := 1, stride := 8, fields := [
    { hi := 63, lo := 48, acc := .ro, snap := true },
    { hi := 31, lo := 24, acc := .ro, snap := true },
    { hi := 3, lo := 0, acc := .ro, snap := true }] },
  { name := "FWU_SEED_BUF", clu := false, base := 0xA10000, count := 8192, stride := 8, fields := [
    { hi := 63, lo := 0, acc := .rw }] },
  { name := "FWU_COMMIT", clu := false, base := 0xA00F00, count := 1, stride := 8, fields := [
    { hi := 2, lo := 2, acc := .rw1c, snap := true },
    { hi := 1, lo := 1, acc := .ro, snap := true },
    { hi := 0, lo := 0, acc := .wo }] }]

/-- The registers of the SEC block (R307, R801). -/
def regsSEC : List RegRow := [
  { name := "SEC_NONCE", clu := false, base := 0xB00000, count := 1, stride := 8, fields := [
    { hi := 63, lo := 0, acc := .ro, snap := true }] },
  { name := "SEC_CMD_CTL", clu := false, base := 0xB00008, count := 1, stride := 8, fields := [
    { hi := 0, lo := 0, acc := .w1s }] },
  { name := "SEC_CMD_STATUS", clu := false, base := 0xB00010, count := 1, stride := 8, fields := [
    { hi := 63, lo := 48, acc := .ro, snap := true },
    { hi := 7, lo := 0, acc := .ro, snap := true }] },
  { name := "SEC_CF_STATUS", clu := false, base := 0xB00040, count := 1, stride := 8, fields := [
    { hi := 63, lo := 48, acc := .ro, snap := true, stky := true },
    { hi := 34, lo := 34, acc := .ro, snap := true, stky := true },
    { hi := 33, lo := 33, acc := .ro, snap := true, stky := true },
    { hi := 32, lo := 32, acc := .ro, snap := true, stky := true },
    { hi := 1, lo := 1, acc := .ro, snap := true },
    { hi := 0, lo := 0, acc := .ro, snap := true }] },
  { name := "SEC_MBOX", clu := false, base := 0xB10000, count := 8192, stride := 8, fields := [
    { hi := 63, lo := 0, acc := .rw }] }]

/-- The registers of the TIM block (R845). -/
def regsTIM : List RegRow := [
  { name := "TIM_NOW", clu := false, base := 0xC00000, count := 1, stride := 8, fields := [
    { hi := 63, lo := 0, acc := .ro, snap := true, stky := true }] },
  { name := "TIM_STATUS", clu := false, base := 0xC00008, count := 1, stride := 8, fields := [
    { hi := 63, lo := 48, acc := .ro, snap := true, stky := true },
    { hi := 47, lo := 32, acc := .ro, snap := true },
    { hi := 31, lo := 20, acc := .ro, snap := true },
    { hi := 19, lo := 15, acc := .ro, snap := true },
    { hi := 14, lo := 12, acc := .ro, snap := true },
    { hi := 11, lo := 6, acc := .ro, snap := true },
    { hi := 3, lo := 0, acc := .ro, snap := true }] },
  { name := "TIM_WALL_SET", clu := false, base := 0xC00010, count := 1, stride := 8, fields := [
    { hi := 63, lo := 0, acc := .rwc, stky := true }] },
  { name := "TIM_EPOCH_STEP", clu := false, base := 0xC00018, count := 1, stride := 8, fields := [
    { hi := 63, lo := 0, acc := .ro, snap := true, stky := true }] },
  { name := "TIM_WALL_NOW", clu := false, base := 0xC00020, count := 1, stride := 8, fields := [
    { hi := 63, lo := 0, acc := .ro, snap := true }] },
  { name := "TIM_COMMIT", clu := false, base := 0xC00F00, count := 1, stride := 8, fields := [
    { hi := 2, lo := 2, acc := .rw1c, snap := true },
    { hi := 1, lo := 1, acc := .ro, snap := true },
    { hi := 0, lo := 0, acc := .wo }] }]

/-- The registers of the LOG block (R847). -/
def regsLOG : List RegRow := [
  { name := "LOG_STATUS", clu := false, base := 0xD00000, count := 1, stride := 8, fields := [
    { hi := 63, lo := 32, acc := .ro, snap := true, stky := true },
    { hi := 31, lo := 0, acc := .ro, snap := true, stky := true }] },
  { name := "LOG_MIRROR_STATUS", clu := false, base := 0xD00008, count := 1, stride := 8, fields := [
    { hi := 63, lo := 32, acc := .ro, snap := true, stky := true },
    { hi := 31, lo := 0, acc := .ro, snap := true, stky := true }] },
  { name := "LOG_LAST_LINK", clu := false, base := 0xD00010, count := 2, stride := 8, fields := [
    { hi := 63, lo := 0, acc := .ro, snap := true, stky := true }] },
  { name := "LOG_BOOT_ID", clu := false, base := 0xD00020, count := 1, stride := 8, fields := [
    { hi := 63, lo := 0, acc := .ro, stky := true }] },
  { name := "LOG_MIRROR_CFG", clu := false, base := 0xD00100, count := 1, stride := 8, fields := [
    { hi := 32, lo := 32, acc := .rwc },
    { hi := 11, lo := 0, acc := .rwc }] },
  { name := "LOG_READ_SEL", clu := false, base := 0xD00200, count := 1, stride := 8, fields := [
    { hi := 32, lo := 32, acc := .ro, snap := true },
    { hi := 31, lo := 0, acc := .rw }] },
  { name := "LOG_READ_DATA", clu := false, base := 0xD00300, count := 8, stride := 8, fields := [
    { hi := 63, lo := 0, acc := .ro, snap := true }] },
  { name := "LOG_COMMIT", clu := false, base := 0xD00F00, count := 1, stride := 8, fields := [
    { hi := 2, lo := 2, acc := .rw1c, snap := true },
    { hi := 1, lo := 1, acc := .ro, snap := true },
    { hi := 0, lo := 0, acc := .wo }] }]

/-- The registers of the HST block (R562, R578, R579, R580, R581, R582, R583). -/
def regsHST : List RegRow := [
  { name := "HST_LINK_STATUS", clu := false, base := 0xE00000, count := 1, stride := 8, fields := [
    { hi := 63, lo := 52, acc := .ro, snap := true, stky := true },
    { hi := 51, lo := 36, acc := .ro, snap := true, stky := true },
    { hi := 29, lo := 28, acc := .ro, snap := true },
    { hi := 20, lo := 16, acc := .ro, snap := true, reset := 16 },
    { hi := 11, lo := 8, acc := .ro, snap := true, reset := 5 },
    { hi := 4, lo := 4, acc := .ro, snap := true },
    { hi := 3, lo := 0, acc := .ro, snap := true, reset := 2 }] },
  { name := "HST_ERR", clu := false, base := 0xE00008, count := 1, stride := 8, fields := [
    { hi := 63, lo := 56, acc := .rw, snap := true },
    { hi := 55, lo := 48, acc := .rw, snap := true },
    { hi := 47, lo := 40, acc := .rw, snap := true },
    { hi := 39, lo := 32, acc := .rw, snap := true },
    { hi := 31, lo := 24, acc := .rw, snap := true },
    { hi := 23, lo := 16, acc := .rw, snap := true },
    { hi := 15, lo := 8, acc := .rw, snap := true },
    { hi := 7, lo := 0, acc := .rw, snap := true }] },
  { name := "HST_STAGE_CFG", clu := false, base := 0xE00010, count := 1, stride := 8, fields := [
    { hi := 8, lo := 8, acc := .rwc, reset := 1 },
    { hi := 7, lo := 7, acc := .ro, snap := true },
    { hi := 5, lo := 0, acc := .rwc, reset := 56 }] },
  { name := "HST_DMA_CFG", clu := false, base := 0xE00018, count := 1, stride := 8, fields := [
    { hi := 16, lo := 16, acc := .rwc },
    { hi := 9, lo := 0, acc := .rwc, reset := 768, legal := .range 1 768 }] },
  { name := "HST_MCTP_CFG", clu := false, base := 0xE00020, count := 1, stride := 8, fields := [
    { hi := 15, lo := 8, acc := .ro, snap := true },
    { hi := 1, lo := 0, acc := .rwc }] },
  { name := "HST_COMMIT", clu := false, base := 0xE00F00, count := 1, stride := 8, fields := [
    { hi := 2, lo := 2, acc := .rw1c, snap := true },
    { hi := 1, lo := 1, acc := .ro, snap := true },
    { hi := 0, lo := 0, acc := .wo }] },
  { name := "HST_MSIX_TABLE", clu := false, base := 0xE10000, count := 4096, stride := 8, fields := [
    { hi := 63, lo := 0, acc := .rw }] },
  { name := "HST_MSIX_PBA", clu := false, base := 0xE18000, count := 32, stride := 8, fields := [
    { hi := 63, lo := 0, acc := .ro }] }]

/-- The registers of the CLU block (R131, R182, R183, R184, R205, R272, R273, R274, R275, R282, R283, R284, R290, R291). -/
def regsCLU : List RegRow := [
  { name := "CLU_SEQ_STATUS", clu := true, base := 0x0, count := 1, stride := 8, fields := [
    { hi := 63, lo := 48, acc := .ro, snap := true },
    { hi := 47, lo := 32, acc := .ro, snap := true },
    { hi := 31, lo := 29, acc := .ro, snap := true },
    { hi := 23, lo := 10, acc := .ro, snap := true },
    { hi := 8, lo := 4, acc := .ro, snap := true },
    { hi := 3, lo := 0, acc := .ro, snap := true }] },
  { name := "CLU_STEP_COUNT", clu := true, base := 0x8, count := 1, stride := 8, fields := [
    { hi := 63, lo := 32, acc := .ro, snap := true },
    { hi := 31, lo := 0, acc := .ro, snap := true }] },
  { name := "CLU_REFUSE", clu := true, base := 0x10, count := 1, stride := 8, fields := [
    { hi := 63, lo := 48, acc := .ro, snap := true },
    { hi := 47, lo := 32, acc := .ro, snap := true },
    { hi := 31, lo := 31, acc := .rw1c, snap := true },
    { hi := 29, lo := 16, acc := .ro, snap := true },
    { hi := 15, lo := 8, acc := .ro, snap := true },
    { hi := 7, lo := 0, acc := .ro, snap := true }] },
  { name := "CLU_COMMIT", clu := true, base := 0x20, count := 1, stride := 8, fields := [
    { hi := 2, lo := 2, acc := .rw1c, snap := true },
    { hi := 1, lo := 1, acc := .ro, snap := true },
    { hi := 0, lo := 0, acc := .wo }] },
  { name := "CLU_NUMSTAT", clu := true, base := 0x100, count := 1, stride := 8, fields := [
    { hi := 63, lo := 32, acc := .ro, snap := true },
    { hi := 31, lo := 16, acc := .ro, snap := true },
    { hi := 7, lo := 7, acc := .rw1c, snap := true },
    { hi := 5, lo := 5, acc := .rw1c, snap := true },
    { hi := 4, lo := 4, acc := .rw1c, snap := true },
    { hi := 3, lo := 3, acc := .rw1c, snap := true },
    { hi := 2, lo := 2, acc := .rw1c, snap := true },
    { hi := 1, lo := 1, acc := .rw1c, snap := true },
    { hi := 0, lo := 0, acc := .rw1c, snap := true }] },
  { name := "CLU_LTALLY", clu := true, base := 0x200, count := 16, stride := 8, fields := [
    { hi := 31, lo := 0, acc := .ro, snap := true }] },
  { name := "CLU_SLICE_PWR", clu := true, base := 0x300, count := 2, stride := 8, fields := (List.range 32).map fun b => { hi := 2 * b + 1, lo := 2 * b, acc := .rwc, legal := .range 0 2 } },
  { name := "CLU_PAD_PWR", clu := true, base := 0x310, count := 1, stride := 8, fields := (List.range 16).map fun b => { hi := 2 * b + 1, lo := 2 * b, acc := .rwc, legal := .range 0 2 } },
  { name := "CLU_BANK_WAKE", clu := true, base := 0x318, count := 1, stride := 8, fields := [
    { hi := 63, lo := 32, acc := .rw, snap := true },
    { hi := 31, lo := 0, acc := .rw, snap := true }] },
  { name := "CLU_ARB_LIMIT_SLICE", clu := true, base := 0x320, count := 1, stride := 8, fields := [
    { hi := 55, lo := 48, acc := .rwc, reset := 6, legal := .range 1 255 },
    { hi := 47, lo := 40, acc := .rwc, reset := 3, legal := .range 1 255 },
    { hi := 39, lo := 32, acc := .rwc, reset := 6, legal := .range 1 255 },
    { hi := 31, lo := 24, acc := .rwc, reset := 6, legal := .range 1 255 },
    { hi := 23, lo := 16, acc := .rwc, reset := 6, legal := .range 1 255 },
    { hi := 15, lo := 8, acc := .rwc, reset := 6, legal := .range 1 255 },
    { hi := 7, lo := 0, acc := .rwc, reset := 1, legal := .range 1 255 }] },
  { name := "CLU_ARB_LIMIT_PAD", clu := true, base := 0x328, count := 1, stride := 8, fields := [
    { hi := 55, lo := 48, acc := .rwc, reset := 2, legal := .range 1 255 },
    { hi := 47, lo := 40, acc := .rwc, reset := 1, legal := .range 1 255 },
    { hi := 39, lo := 32, acc := .rwc, reset := 2, legal := .range 1 255 },
    { hi := 23, lo := 16, acc := .rwc, reset := 2, legal := .range 1 255 },
    { hi := 15, lo := 8, acc := .rwc, reset := 2, legal := .range 1 255 },
    { hi := 7, lo := 0, acc := .rwc, reset := 2, legal := .range 1 255 }] },
  { name := "CLU_SCRUB_CFG", clu := true, base := 0x330, count := 1, stride := 8, fields := [
    { hi := 16, lo := 16, acc := .rwc, reset := 1 },
    { hi := 15, lo := 0, acc := .rwc, reset := 1024, legal := .range 256 65535 }] },
  { name := "CLU_MEM_ERR", clu := true, base := 0x338, count := 1, stride := 8, fields := [
    { hi := 63, lo := 48, acc := .rw, snap := true },
    { hi := 47, lo := 32, acc := .rw, snap := true },
    { hi := 31, lo := 24, acc := .rw, snap := true },
    { hi := 23, lo := 16, acc := .rw, snap := true },
    { hi := 15, lo := 15, acc := .rw1c, snap := true },
    { hi := 6, lo := 0, acc := .ro, snap := true, reset := 127 }] },
  { name := "CLU_PAD_COLLIDE", clu := true, base := 0x340, count := 1, stride := 8, fields := [
    { hi := 63, lo := 32, acc := .rw, snap := true },
    { hi := 31, lo := 0, acc := .rw, snap := true }] },
  { name := "CLU_CONFLICT", clu := true, base := 0x400, count := 7, stride := 8, fields := [
    { hi := 63, lo := 32, acc := .rw, snap := true },
    { hi := 31, lo := 0, acc := .rw, snap := true }] },
  { name := "CLU_CONFLICT", clu := true, base := 0x440, count := 3, stride := 8, fields := [
    { hi := 63, lo := 32, acc := .rw, snap := true },
    { hi := 31, lo := 0, acc := .rw, snap := true }] },
  { name := "CLU_CONFLICT", clu := true, base := 0x460, count := 3, stride := 8, fields := [
    { hi := 63, lo := 32, acc := .rw, snap := true },
    { hi := 31, lo := 0, acc := .rw, snap := true }] },
  { name := "CLU_RING", clu := true, base := 0x500, count := 16, stride := 8, fields := [
    { hi := 63, lo := 63, acc := .ro, snap := true },
    { hi := 62, lo := 62, acc := .ro, snap := true },
    { hi := 58, lo := 46, acc := .ro, snap := true },
    { hi := 45, lo := 25, acc := .ro, snap := true },
    { hi := 24, lo := 0, acc := .ro, snap := true }] }]

/-- The registers of the TEL block (R848). -/
def regsTEL : List RegRow := [
  { name := "TEL_TEMP", clu := false, base := 0x3000000, count := 140, stride := 8, fields := [
    { hi := 63, lo := 48, acc := .rw, snap := true },
    { hi := 15, lo := 0, acc := .ro, snap := true }] }]

/-- The rows of a block, chosen by its base (R577), so that a lookup scans one block only. -/
def rowsOf (addr : Nat) : List RegRow :=
  if addr < 0x00100000 then regsGLB
  else if addr < 0x00200000 then regsCTX
  else if addr < 0x00300000 then regsDSP
  else if addr < 0x00400000 then regsTLY
  else if addr < 0x00500000 then []
  else if addr < 0x00600000 then regsMEM
  else if addr < 0x00700000 then regsFAB
  else if addr < 0x00800000 then regsCOL
  else if addr < 0x00900000 then regsPWR
  else if addr < 0x00A00000 then regsRAS
  else if addr < 0x00B00000 then regsFWU
  else if addr < 0x00C00000 then regsSEC
  else if addr < 0x00D00000 then regsTIM
  else if addr < 0x00E00000 then regsLOG
  else if addr < 0x00F00000 then regsHST
  else if addr < 0x01000000 then []
  else if addr < 0x02080000 then regsCLU
  else if 0x03000000 ≤ addr ∧ addr < 0x03100000 then regsTEL
  else []

/-- Is `addr` inside a CLU window (R577)? -/
def isCluAddr (addr : Nat) : Bool := decide (0x01000000 ≤ addr) && decide (addr < 0x02080000)

/-- The offset that a row's `base` is compared with: inside a CLU window, the offset in the window. -/
def rowOffset (addr : Nat) : Nat := if isCluAddr addr then (addr - 0x01000000) % 0x10000 else addr

/-- Does the row hold the register at offset `off`? -/
def RegRow.holds (r : RegRow) (off : Nat) : Bool :=
  decide (r.base ≤ off) && decide (off < r.base + r.stride * r.count) && decide ((off - r.base) % r.stride = 0)

/-- The row of the 8-byte-aligned offset `addr`; none for a reserved address (R24). -/
def findReg (addr : Nat) : Option RegRow := (rowsOf addr).find? (·.holds (rowOffset addr))

/-- The index of `addr` in its row. -/
def RegRow.index (r : RegRow) (addr : Nat) : Nat := (rowOffset addr - r.base) / r.stride

/-- The value of a field placed at its bits. -/
def Field.place (f : Field) (v : Nat) : Nat := (v % 2 ^ (f.hi - f.lo + 1)) * 2 ^ f.lo

/-- The bits a field covers. -/
def Field.mask (f : Field) : Nat := (2 ^ (f.hi - f.lo + 1) - 1) * 2 ^ f.lo

/-- The mask of the fields of a row that satisfy `q`. -/
def RegRow.maskOf (r : RegRow) (q : Field → Bool) : Nat :=
  (r.fields.filter q).foldl (fun a f => a + f.mask) 0

/-- The mapping of R40: the physical cluster of logical cluster `l` when no remap entry is recorded. -/
def mapR40 (l : Nat) : Nat :=
  let d := l / 64
  let j := l % 64
  66 * d + (j + (if 16 ≤ j then 1 else 0) + (if 48 ≤ j then 1 else 0))

/-- What a register that nothing has written reads as: its reset value (R31). The remap table's reset is R40, and every
MSI-X vector is masked, as PCIe has it (R567). -/
def regDefault (addr : Nat) : BitVec 64 :=
  match findReg addr with
  | none => 0
  | some r =>
    if r.base = 0x900100 then BitVec.ofNat 64 (mapR40 (r.index addr))
    else if r.base = 0xE10000 then (if r.index addr % 2 = 1 then 0x0000000100000000 else 0)
    else if r.base = 0xA00020 then (if r.index addr = 0 then 3 else 0)
    else BitVec.ofNat 64 (r.fields.foldl (fun a f => a + f.place f.reset) 0)

/-- Is the encoding `v` of a field one that is not reserved? -/
def Legal.holds : Legal → Nat → Bool
  | .any, _ => true
  | .range lo hi, v => decide (lo ≤ v) && decide (v ≤ hi)
  | .zeroOr lo hi, v => decide (v = 0) || (decide (lo ≤ v) && decide (v ≤ hi))

end Sys2Proof.Machine
end

