-- ==== Sys2Proof/Machine/Store.lean ====
section
/-! DEFINITION. Sparse stores: a list of (key, value) pairs in one canonical form (keys strictly rising, no entry equal
to what an unlisted key reads as), with the default given by a function of the key. Registers, memories and tables are
all held this way, so that equal stores are equal data. -/

namespace Sys2Proof.Machine

/-- A sparse store. -/
abbrev Store (α : Type) := List (Nat × α)

/-- The listed value at key `k`. -/
def mfind {α : Type} : Store α → Nat → Option α
  | [], _ => none
  | e :: m, k => if k = e.1 then some e.2 else mfind m k

/-- The value at key `k`: the listed one, else the default. -/
def mget {α : Type} (d : Nat → α) (m : Store α) (k : Nat) : α := (mfind m k).getD (d k)

/-- The entries for the values `vs` at keys `b`, `b + 1`, …, those equal to the default left out. -/
def mfresh {α : Type} [DecidableEq α] (d : Nat → α) (b : Nat) : List α → Store α
  | [] => []
  | v :: vs => if v = d b then mfresh d (b + 1) vs else (b, v) :: mfresh d (b + 1) vs

/-- The store with the values `vs` at keys `b`, `b + 1`, …. -/
def mwrite {α : Type} [DecidableEq α] (d : Nat → α) (m : Store α) (b : Nat) (vs : List α) : Store α :=
  m.filter (fun e => decide (e.1 < b)) ++ mfresh d b vs ++ m.filter (fun e => decide (b + vs.length ≤ e.1))

/-- The store with the value `v` at key `k`. -/
def mset {α : Type} [DecidableEq α] (d : Nat → α) (m : Store α) (k : Nat) (v : α) : Store α :=
  mwrite d m k [v]

/-- The `n` values from key `b` on. -/
def mread {α : Type} (d : Nat → α) (m : Store α) (b n : Nat) : List α :=
  let w := m.filter (fun e => decide (b ≤ e.1) && decide (e.1 < b + n))
  (List.range n).map (fun i => mget d w (b + i))

/-- The store with every key from `b` to `b + n - 1` back at its default. -/
def mclear {α : Type} (m : Store α) (b n : Nat) : Store α :=
  m.filter (fun e => !(decide (b ≤ e.1) && decide (e.1 < b + n)))

/-- Are the keys strictly rising? -/
def msorted {α : Type} : Store α → Bool
  | [] => true
  | [_] => true
  | e :: f :: m => decide (e.1 < f.1) && msorted (f :: m)

/-- The canonical form. -/
def mwf {α : Type} [DecidableEq α] (d : Nat → α) (m : Store α) : Bool :=
  msorted m && m.all (fun e => decide (e.2 ≠ d e.1))

end Sys2Proof.Machine
end

