-- ==== Sys2Proof/Machine/State.lean ====
section
/-! DEFINITION. The state of the part: every register, buffer, table, engine and pin the chapters name, as plain data,
and `State.reset`, the part at the end of a successful cold start (R31, R62). Registers of the control window have one
home, the store `regs`; what a chapter gives beyond them stands in one structure for each block. -/

namespace Sys2Proof.Machine

/-- The ways a step can stop with a fault. No meaning of this model raises one: the block has no faulting command. -/
inductive Fault where
  /-- Raised by nothing; it stands for an access outside the part's address spaces, which the rules answer instead (R24,
  R548). Safe. -/
  | noSuchAddress
deriving DecidableEq, Repr

/-- The ways a command can be refused by the model. -/
inductive Refusal where
  /-- Raised by `exec` for a command whose meaning is not written. Safe: the run stops. -/
  | notModelled (mnemonic : String)
deriving DecidableEq, Repr

/-- A control message of a port (R483), by its content: no rule lays out its bytes, but for TIME_SYNC (R805). -/
inductive CtrlMsg where
  | hello (h : HelloMsg)
  | laneChange (map : List Nat)
  | resetNotice (cause : Nat)
  | portDark
  | timeSync (response : Bool) (m : SyncMsg)
deriving DecidableEq, Repr

/-- What the part sends out or shows to the outside, newest first in `State.out`. -/
inductive Emit where
  /-- a control-window read completed with a value (R17, R817) -/
  | readDone (r : Agent) (addr size : Nat) (value : Word)
  /-- a read completed with Unsupported Request (R548) -/
  | readUnsupported (addr len : Nat)
  /-- the hub's answer to a controller write: accepted or not (R722) -/
  | ctlAnswer (c : Bool) (accepted : Bool)
  /-- a completion to a staging read; `poisoned` is the EP bit (R552) -/
  | stageData (offset : Nat) (data : Bytes) (poisoned : Bool)
  /-- a configuration completion: a value, or none for Request Retry Status (R569) -/
  | cfgDone (offset : Nat) (value : Option (BitVec 32))
  /-- a request group of one control flit sent on a memory lane: a read of `count` lines from a module's byte address (R378) -/
  | memRead (lane gen module addr count : Nat)
  /-- a write group sent on a memory lane: its control flits, which carry the header and each line's 8 metadata bytes, and the data
  flits, the 36-byte code words of its lines as stored (R378, R393 to R396) -/
  | memWrite (lane gen module addr controlFlits : Nat) (metadata : List Bytes) (flits : List Bytes)
  /-- the read groups of a run of lines sent on a memory lane: eight lines each but the last, in address order (R378) -/
  | memReads (lane gen module addr lines : Nat)
  /-- the write groups of a run of zero lines stamped TAG 0, ENC 0 and KGEN 0 (R378, R401) -/
  | memFill (lane gen module addr lines : Nat)
  /-- the write groups of a run of lines just read from another module's byte address (R378, R408, R412) -/
  | memCopy (lane gen module addr lines fromModule fromAddr : Nat)
  /-- a posted write TLP toward the host; `ro` is Relaxed Ordering (R557) -/
  | hostWrite (seq addr : Nat) (data : Bytes) (ro : Bool)
  /-- a read request TLP toward the host (R555, R566) -/
  | hostRead (tag : Nat) (gen : Nat) (addr len : Nat)
  /-- an MSI-X message (R563) -/
  | msix (vector : Nat) (addr : Word) (data : BitVec 32)
  /-- a packet sent from a port by wormhole (R447) -/
  | packet (port : Nat) (pkt : Packet)
  /-- a packet sent on a circuit slot of a port (R480) -/
  | circuit (port slot : Nat) (pkt : Packet)
  /-- a frame sent from a port: the value of its control flit, and the bytes that its 64 slots put on each engine lane (R431, R432,
  R434) -/
  | frame (port : Nat) (control : BitVec 256) (lanes : List (Nat × Bytes))
  /-- a control message sent from a port (R483) -/
  | control (port : Nat) (msg : CtrlMsg)
  /-- one MCTP packet on the I3C endpoint: the source Endpoint ID, the first and last marks and the sequence number of its message, and its
  transmission unit (R830) -/
  | i3c (source : Nat) (som eom : Bool) (seq : Nat) (unit : Bytes)
  /-- one MCTP packet as a Vendor Defined Message: its routing, message code and vendor ID, the source Endpoint ID, the first and last
  marks and the sequence number of its message, and its transmission unit (R574) -/
  | vdm (routing code vendor source : Nat) (som eom : Bool) (seq : Nat) (unit : Bytes)
  /-- the target's answer to ENTDAA: its provisional ID and BCR (R829) -/
  | i3cId (pid : BitVec 48) (bcr : BitVec 8)
  /-- an in-band interrupt of the management port with its mandatory byte (R830) -/
  | ibi (byte : Nat)
  /-- FLASH_RESET_N held low for 10 µs and then released, with FLASH_CS_N high throughout (R867) -/
  | flashReset
  /-- the level driven on TDO after a test-clock edge (R880) -/
  | tdo (level : Option Bool)
deriving DecidableEq, Repr

/-- The key of an agent in a store. -/
def agentKey : Agent → Nat
  | .host => 0
  | .ctlA => 1
  | .ctlB => 2

/-- A snapshot latch that is open (R816 to R821): its reader and block, when it opened, whether GLB_SNAP_CTL opened it,
the registers captured, and the bytes its reader has read since. -/
structure Latch where
  reader : Agent
  block : Nat
  opened : Nat
  byGlb : Bool
  cap : Store Word
  bytes : List Nat
deriving DecidableEq, Repr

/-- Staged RWC bits of one register: which bits, and their values (R26, R28). -/
structure Stage where
  mask : Word
  value : Word
deriving DecidableEq, Repr

/-- A commit that is PENDING (R276, R827): the block, the writer, the staged set, and whether a group holds it. -/
structure Commit where
  block : Nat
  writer : Agent
  set : Store Stage
  group : Bool
deriving DecidableEq, Repr

/-- A change waiting for its change-log entry (R836, R840). -/
structure LogPend where
  time : Word
  wall : Word
  origin : Nat
  cls : Nat
  object : Nat
  old : Bytes
  new : Bytes
deriving DecidableEq, Repr

/-- The log engine (R836 to R843): changes waiting (at most 1,024; those of a wipe wait for its end, R842), entries lost since the
last GAP entry, and the ring of the cold frame by slot. -/
structure LogEngine where
  queue : List LogPend := []
  lost : Nat := 0
  ring : Store Bytes := []
deriving DecidableEq, Repr

/-- The timekeeping island beyond its registers (R802 to R813): nanoseconds counted since event 2 of R608, the step clock,
the part of a nanosecond that the rate correction has gathered, in units of 10^-7 ns, whether valid time has been held, whether READY has been
reached, when discovery ended, whether an epoch is set, the last message of each port with its arrival, the REQUEST
outstanding on each port (SEQ, T1), and when the parent last answered. -/
structure Clock where
  ticks : Nat := 0
  step : Word := 0
  slew : Int := 0
  heldTime : Bool := false
  reachedReady : Bool := true
  discoveryEnd : Option Nat := some 0
  epochSet : Bool := false
  heard : List (Nat × Nat × SyncMsg) := []
  asked : List (Nat × Nat × Word) := []
  nextSeq : Nat := 0
  lastAnswer : Nat := 0
  hasParent : Bool := false
deriving DecidableEq, Repr

/-- What a posted write toward the host stands for, so that its acknowledgement can act (R558, R568). -/
inductive TlpKind where
  /-- a data write of an outbound BARROW of physical cluster `p`, descriptor `id`, stamped with a context and its generation -/
  | barrow (p id ctx gen : Nat)
  /-- a write that arrived from another chip, answered once every part of it is acknowledged (R449) -/
  | remote (n : Nat)
  /-- one of the two writes of a completion record of ring `r` -/
  | record (r : Nat)
  | credit (l : Nat)
deriving DecidableEq, Repr

/-- A posted write not yet acknowledged by the link partner (R558). -/
structure Tlp where
  seq : Nat
  addr : Nat
  data : Bytes
  ro : Bool
  kind : TlpKind
  sent : Nat
deriving DecidableEq, Repr

/-- A host read of an inbound BARROW (R555, R556, R566): its tag and HOST_GEN once sent, the descriptor it serves (none once
its attempt is discarded), the stamps of R358 and R693, its host address and length, where its bytes go, and the bytes
completed so far. -/
structure HostRead where
  tag : Nat
  gen : Nat
  sent : Bool
  owner : Option (Nat × Nat)
  ctx : Nat
  ctxGen : Nat
  cgen : Nat
  addr : Nat
  len : Nat
  slice : Bool
  off : Nat
  got : Bytes
deriving DecidableEq, Repr

/-- The host port beyond its registers: configuration space (R545, R546), whether PERST_N is low, posted writes not
acknowledged, host reads, the next sequence number, the lanes of LE0 lost without a spare, the lanes under substitution, in the order
they failed (R544), and the highest SPEED code and the greatest width that the link partner supports (R542; log entry 76). -/
structure HostPort where
  cfg : Store (BitVec 32) := []
  perst : Bool := false
  unacked : List Tlp := []
  reads : List HostRead := []
  nextSeq : Nat := 0
  lostLanes : List Nat := []
  sparing : List Nat := []
  partnerSpeed : Nat := 5
  partnerWidth : Nat := 16
deriving DecidableEq, Repr

/-! ## Clusters -/

/-- A resolved operand (R194, R195): nothing, an offset in the own pad or slice, or an immediate. -/
inductive Loc where
  | none
  | mem (slice : Bool) (off : Nat)
  | imm (v : BitVec 32)
deriving DecidableEq, Repr

/-- A tally named by a selector with EN = 1 (R188). -/
structure Sel where
  hub : Bool
  num : Nat
deriving DecidableEq, Repr

/-- A descriptor issued to an engine and not yet complete: its issue number in the attempt, its program counter and words,
its wait with the resolved threshold, its signal, the resolved operands of words 2 to 5, the loop index of its logical
index, and the resolved far offset of a BARROW (R199, R237). `done` holds for a move whose signal waits under R160. `landed` holds the
bytes of an inbound BARROW that have come, by local place, until the whole transfer has passed its checks (R203, R399; log entry 77);
`old` the pad granules that a started descriptor writes, by cluster and number, with the bytes and flaws they held before (R261). -/
structure Desc where
  id : Nat
  pc : Nat
  words : List Word
  eng : Engine
  wait : Option (Sel × Nat)
  sig : Option Sel
  a : Loc := .none
  b : Loc := .none
  c : Loc := .none
  d : Loc := .none
  idx : Nat := 0
  far : Int := 0
  started : Bool := false
  done : Bool := false
  landed : List (Bool × Nat × Bytes) := []
  old : List (Nat × Nat × Bytes × List Nat) := []
deriving DecidableEq, Repr

/-- An open loop (R244): its first body descriptor, its ENDLOOP, its count and index, and the calls open at its LOOP. -/
structure Loop where
  body : Nat
  stop : Nat
  count : Nat
  idx : Nat
  calls : Nat
deriving DecidableEq, Repr

/-- A weight plane's content (R137, R208): the tile's format code, the elements of each column held, and the bytes of the
element and scale planes as loaded. -/
structure Tile where
  fmt : Nat
  k : Nat
  elems : Bytes
  scales : Bytes
deriving DecidableEq, Repr

/-- The mode and anchor of an accumulator row (R144): mode 0 uncleared, 1 LONG, 2 FP32. -/
structure RowMode where
  mode : Nat := 0
  anchor : Int := 0
deriving DecidableEq, Repr

/-- The rank order and wait counts of one arbiter (R265): requesters by rank, highest first, and their counts. -/
structure Arb where
  id : ArbId
  order : List Nat
  waits : List (Nat × Nat)
deriving DecidableEq, Repr

/-- A physical cluster beyond its CLU registers. `lead` is the lead of the step it runs; `rowsIssued` and `tileIssued` are
the sequencer's view at issue (R202); `entries` and `fp` hold the lanes of the accumulator file by row × 128 + lane;
`landing` the hub-tally signals on their way, in the order issued (R43, R158); `block` the 64 descriptors that the sequencer holds
prefetched, by program counter ÷ 64 (R155); `peeked` the LOOP whose END_PC descriptor it has read; `flags` and `sat` the provisional numeric status (R129); `awake` the
banks woken from their configured state (R288), `padZero` pad banks whose undefined contents an OFF has made zero (R287); `upset` an adder upset that the next residue check finds (R127);
`past` whether the program counter has passed 16,383 (R204). -/
structure Cluster where
  lead : Option Nat := none
  logical : Nat := 0
  retired : Bool := false
  loops : List Loop := []
  calls : List Nat := []
  nextId : Nat := 0
  queue : List Desc := []
  past : Bool := false
  inColl : Option Nat := none
  shadow : Option Tile := none
  active : Option Tile := none
  tileIssued : Option Nat := none
  rowsIssued : Store RowMode := []
  rows : Store RowMode := []
  entries : Store LongEntry := []
  fp : Store (BitVec 32) := []
  landing : List (Nat × Nat) := []
  block : Option Nat := none
  peeked : Option Nat := none
  flags : Nat := 0
  sat : Nat := 0
  cgen : Nat := 0
  awake : List Nat := []
  upset : Bool := false
  padEpoch : Nat := 0
  padZero : List Nat := []
  resetAt : Option Nat := none
  scrubNext : Store Nat := []
deriving DecidableEq, Repr

/-! ## Contexts, intake and steps -/

/-- A message of the pending store (R340): its take order, its words, whether the dispatcher has chosen it (R346), whether its take
began a teardown (R362), and whether it has found a step in flight that it waits for (R319). -/
structure Pend where
  num : Nat
  words : List Word
  chosen : Bool := false
  began : Bool := false
  found : Bool := false
deriving DecidableEq, Repr

/-- A remote increment held by a step until commit (R169, R243): the far place by its window, the amount, and the context through whose window it goes. -/
structure HeldAdd where
  chip : Nat
  ctx : Nat
  gen : Nat
  win : Nat
  tally : Nat
  amount : Nat
  tenant : Nat
deriving DecidableEq, Repr

/-- Why a step fails (R176, R365): its status, and the CAUSE, PC, OPCODE, LCLUSTER and AUX of its record. -/
structure FailInfo where
  status : Nat
  cause : Nat := 0
  pc : Nat := 0
  opcode : Nat := 0
  lcluster : Nat := 0
  aux : Nat := 0
deriving DecidableEq, Repr

/-- A pending add on a hub tally (R348): the step in flight it comes from, if any, by its lead, the tally and the amount. -/
structure PendAdd where
  src : Option Nat
  tally : Nat
  amount : Word
deriving DecidableEq, Repr

/-- A step in flight (R163). `map` is the remap in force when the attempt started (R262); `holds` the hub tallies the
step has changed and holds, with their values at step start (R169, R348); `named` those the attempt's descriptors name
(R170); `adds` the pending adds on them (R348); `tadds` the TADD_REMOTEs the attempt has issued (R170); `reported` the logical
clusters at STEP_END; `replay` the cause of a pending replay (R177, R692); `needs` the physical clusters whose reset or
spare the replay waits for, `needLanes` the memory lanes; `fail` a pending failure; `wrote` the tier
lines written by the step's barrows, which a failure leaves undefined (R176). -/
structure Step where
  lead : Nat
  num : Nat
  words : List Word
  members : List Nat
  clusters : List Nat
  map : List (Nat × Nat)
  attempt : Nat := 0
  gen : Nat := 0
  admitted : Nat := 0
  attemptAt : Nat := 0
  holds : List (Nat × Word) := []
  named : List Nat := []
  adds : List PendAdd := []
  held : List HeldAdd := []
  tadds : Nat := 0
  reported : List Nat := []
  flags : Nat := 0
  sat : Nat := 0
  residueSeen : Bool := false
  faulted : List Nat := []
  replay : Option Nat := none
  needLanes : List Nat := []
  lanes : List Nat := []
  fail : Option FailInfo := none
  collWait : Nat := 0
  wrote : List (Nat × Nat) := []
deriving DecidableEq, Repr

/-- A completion record not yet landed in its ring (R353 to R356, R568): the ring, words 0 to 7 with PHASE 0, whether its two
writes are on the link and how many of them are still unacknowledged. -/
structure Record where
  ring : Nat
  words : List Word
  sent : Bool := false
  acks : Nat := 2
deriving DecidableEq, Repr

/-- An image load in progress (R326): the image and the words of its message. -/
structure Loading where
  image : Nat
  words : List Word
deriving DecidableEq, Repr

/-- A teardown in progress (R360): the context, the words of its message, and the record of the step it abandoned, posted at
step 8. -/
structure Teardown where
  ctx : Nat
  words : List Word
  record : Option Record
deriving DecidableEq, Repr

/-- The unsignalled records of a ring (R357): how many and when the oldest was written. -/
structure Unsig where
  count : Nat := 0
  oldest : Nat := 0
deriving DecidableEq, Repr

/-- A key slot of the cold frame (R294, R299, R320): its 64 bytes (none when all zero), tenant and key generation. -/
structure KeySlot where
  bytes : Bytes := []
  tenant : Nat := 0
  kgen : Nat := 0
  flaw : Bool := false
deriving DecidableEq, Repr

/-- The hub's dispatcher and context table beyond their registers. `slots` holds the words of R308 by 16 × context + word;
`windows` the words of R314 by (16 × set + window) × 4 + word; `images` the LOAD_IMAGE words 8 to 14 of each image;
`cells` the landed bytes of the intake by (64 × lane + cell) × 256 + byte; `lost` the admissions a class lost in a row
(R345). -/
structure Dispatch where
  slots : Store Word := []
  revoked : List Nat := []
  windows : Store Word := []
  setTenant : Store Nat := []
  keys : Store KeySlot := []
  keyRefs : Store Nat := []
  images : Store Word := []
  loading : List Loading := []
  cells : Store (Option Byte) := []
  cellSince : Store Nat := []
  taken : Store Nat := []
  creditDue : List Nat := []
  pend : List Pend := []
  nextNum : Nat := 0
  lost : Store Nat := []
  steps : List Step := []
  teardowns : List Teardown := []
  records : List Record := []
  unsig : Store Unsig := []
deriving DecidableEq, Repr

/-! ## Tier memory -/

/-- A stored tier line (R393 to R395): its 64 stored data bytes, the metadata fields, the symbols in error of its two code
words and of its metadata, and whether its MCHK shows an address mismatch (R396). -/
structure TLine where
  data : Bytes := List.replicate 64 0
  tag : Nat := 0
  kgen : Nat := 0
  enc : Bool := false
  poison : Bool := false
  err0 : Nat := 0
  err1 : Nat := 0
  errMeta : Nat := 0
  away : Bool := false
deriving DecidableEq, Repr

/-- What a request serves: a barrow descriptor of a physical cluster (R237), or a WRITE that arrived from another chip
(R449). -/
inductive Owner where
  | barrow (p id : Nat)
  | remote (n : Nat)
deriving DecidableEq, Repr

/-- A request group of at most eight lines to a memory lane, not yet answered (R378, R417, R418): its lane, whether it has
been sent, when, whether it writes, the barrow descriptor it serves (none once its attempt is discarded), the context and
generation it is stamped with (R358), the CGEN of its cluster (R693), its first tier line, its lines, the place, and the
local offset of its data or, of a write, its lines. -/
structure Req where
  seq : Nat
  lane : Nat
  sent : Bool
  since : Nat
  write : Bool
  owner : Option Owner
  ctx : Nat
  ctxGen : Nat
  cgen : Nat
  enc : Bool
  line : Nat
  count : Nat
  module : Nat
  phys : Nat
  slice : Bool
  off : Nat
  /-- a write that waits for the fill of its page (R401) -/
  filling : Bool := false
  lines : List TLine := []
deriving DecidableEq, Repr

/-- A write that waits for the zero fill of its page (R401): its tier line, its bytes (none where it leaves them), its
stamp, and the request it belongs to (none for the staging window). -/
structure WaitWrite where
  line : Nat
  bytes : List (Option Byte)
  tag : Nat
  kgen : Nat
  enc : Bool
  req : Option Nat
deriving DecidableEq, Repr

/-- The move of a page in progress (R412): which copy of which logical page, its old and new place, and SWITCHED. -/
structure PageMove where
  page : Nat
  mirror : Bool
  fromMod : Nat
  fromPhys : Nat
  toMod : Nat
  toPhys : Nat
  switched : Bool
deriving DecidableEq, Repr

/-- An evacuation or migration in progress (R412, R415): the pages still to move and the one under way. -/
structure Evac where
  module : Nat
  migration : Bool
  todo : List (Nat × Bool)
  cur : Option PageMove
deriving DecidableEq, Repr

/-- What a bridge reports at reset: its lane up on four optical lanes, both its modules as the sections state. -/
def BridgeReport.good : BridgeReport :=
  { up := true, width := 4, speed := 88, sizeOk := true, fwdPresent := true, fwdSizeOk := true, lease := 0, lostNear := false,
    lostFwd := false }

/-- The memory-lane controllers beyond the MEM registers: lines by module × 2^32 + line (modules 0 to 15 tier 1, 16 to 23
tier 2, 24 to 31 tier 3), the map of written pages by logical page (R400), the page table by 2 × page + mirror with 1 + place
for a page away from its home (R390, R415), the copies that missed a write and the modules whose copies lay behind a lane
that was lost (R408), requests, waiting writes, held tiers (R386), whether a retired module's pages found no pool (R387), modules whose
last report did not match (R386), a mask of the optical lanes lost on each memory lane (R382) and one of those being substituted
(R381), group retries (R380), corrections by module (R414), the next line each module's patrol reads, by its place there (R410), pool
pages taken, modules whose evacuation has a cause, with the trigger (R414), modules missing at start that ALLOW_MISSING treats as
retired (R387), and the last report of each bridge, by lane (R385, R386, R418 event 4). -/
structure Mem where
  lines : Store TLine := []
  written : Store Bool := []
  table : Store Nat := []
  missed : List (Nat × Nat) := []
  behind : List Nat := []
  nextReq : Nat := 0
  reqs : List Req := []
  waits : List WaitWrite := []
  heldTiers : List Nat := []
  uncovered : Bool := false
  badMods : List Nat := []
  lost : Store Nat := []
  subs : Store Nat := []
  retries : List (Nat × Nat) := []
  corr : List (Nat × Nat) := []
  patrol : Store Nat := []
  pool : List (Nat × Nat) := []
  evac : Option Evac := none
  journal : Store Nat := []
  dueEvac : List (Nat × Nat) := []
  absent : List Nat := []
  reports : List (Nat × BridgeReport) := []
deriving DecidableEq, Repr

/-! ## Fabric and collectives -/

/-- What a fabric request of this chip was sent for (R450, R532). -/
inductive ReqKind where
  /-- a WRITE of a barrow descriptor of a physical cluster, none once its attempt is discarded, through a window of a context
  at its generation (R358) -/
  | write (owner : Option (Nat × Nat)) (ctx gen : Nat)
  | tadd
  | circSetup (c : Nat)
  | circDown (c : Nat)
  /-- a CIRC_TEARDOWN toward the originator of another chip's circuit (R481) -/
  | circBack (origin c : Nat)
  /-- a COLL packet of a collective toward a rank: KIND of R531 -/
  | coll (group cseq rank kind : Nat)
deriving DecidableEq, Repr

/-- A request outstanding without its ACK (R451): its TAG, what it serves, and when it was sent. -/
structure FabReq where
  tag : Nat
  kind : ReqKind
  sent : Nat
deriving DecidableEq, Repr

/-- A packet queued at a port's output (R456): its plane, the input port it came from (32 is the hub), and the credits owed to
that input when it leaves (port, counter, flits). -/
structure OutPkt where
  port : Nat
  reply : Bool
  input : Nat
  pkt : Packet
  owe : Option (Nat × Nat × Nat)
deriving DecidableEq, Repr

/-- A circuit slot reserved on an output port (R477): the slot, its share, the originator's chip and circuit number, and the
input port the circuit arrives on (32 where it starts here), its destination, and the receive buffer of that input that its
flits take (R442; log entry 22). Port 32 stands at the circuit's destination. -/
structure CircSlot where
  port : Nat
  slot : Nat
  share : Nat
  origin : Nat
  circ : Nat
  input : Nat
  dest : Nat
  inSlot : Nat
deriving DecidableEq, Repr

/-- A frame kept for the link retry (R434, R436): its sequence number, its two credit returns (counter, flits), and its data slots that
are not idle at the end, each a channel code of R435 and its payload. -/
structure TxFrame where
  seq : Nat
  creditA : Nat × Nat
  creditB : Nat × Nat
  slots : List (Nat × Bytes)
deriving DecidableEq, Repr

/-- A port beyond its registers: credits held by counter (R442), the next frame expected and whether frames are discarded
until it comes (R436), the data flits received and not yet taken by a packet, by channel code (R435), the next frame to send, the data
slots filled of it, control messages that wait for a credit, by CTYPE (R457), frames sent and not acknowledged (at most 256), NAKs
sent and received with their times (R437), logical lanes lost (R440), the lanes under substitution and when each was booked
(R438, R439), the map that the far end last gave and the lanes whose change this end has announced and the far end not yet answered (R438),
whether the receiver of an ABSENT port sees light (R461), when a retrain began, whether it waits for light, its cause while it is due, and whether a HELLO has matched (R488), when it
was last tried (R464), the MODE (bits 1:0) and ENABLE (bit 2) that take effect at the end of a drain, with bit 3 for a group (R476), the packet that holds each plane with
its flits still to send (R456), and of the current 8 data slots the number and the uses by each circuit slot, with the flits
sent of each circuit slot's packet (R457). -/
structure Port where
  credits : List Nat := [1024, 512, 512, 1024, 512, 512, 32, 256, 256, 256, 256]
  rxNext : Nat := 0
  dropping : Bool := false
  rx : List Nat := [0, 0, 0, 0, 0, 0, 0, 0]
  txNext : Nat := 0
  slots : List (Nat × Bytes) := []
  ctlq : List Nat := []
  kept : List TxFrame := []
  naksSent : List Nat := []
  naksGot : List Nat := []
  lost : List Nat := []
  sparing : List Nat := []
  spareAt : List (Nat × Nat) := []
  farMap : List Nat := []
  asked : List Nat := []
  light : Bool := false
  retrainAt : Option Nat := none
  awaitLight : Bool := false
  due : Option Nat := none
  hello : Bool := false
  tried : Nat := 0
  draining : Option Nat := none
  holdReq : Option (OutPkt × Nat) := none
  holdRep : Option (OutPkt × Nat) := none
  slotNo : Nat := 0
  used : List Nat := [0, 0, 0, 0]
  circSent : List Nat := [0, 0, 0, 0]
deriving DecidableEq, Repr

/-- The fabric endpoint and router beyond the FAB registers: ports, output queues, request heads the hub has not started, with
what they serve (R451, R470), requests outstanding, tags not yet usable again (R452), credits owed in the order in which they
fell due (port, counter, flits; R445), packets that the router delivers to the own hub from itself, reserved circuit slots,
arrived WRITEs not yet acknowledged with their answers, when SWAP_PENDING and GRACE were set, when discovery began, and
whether the circuit set-ups of this chip still run. -/
structure Fab where
  ports : Store Port := []
  outq : List OutPkt := []
  hubWait : List (ReqKind × Packet) := []
  reqs : List FabReq := []
  nextTag : Nat := 0
  heldTags : List (Nat × Nat) := []
  owed : List (Nat × Nat × Nat) := []
  loop : List Packet := []
  slots : List CircSlot := []
  inbound : List (Nat × Packet) := []
  nextIn : Nat := 0
  swapAt : Option Nat := none
  graceAt : Nat := 0
  discoverAt : Option Nat := none
deriving DecidableEq, Repr

/-- One cluster's part of a collective (R251): the cluster, its logical number and descriptor, the elements, where they lie and land,
and its signal. -/
structure CollPart where
  p : Nat
  l : Nat
  pc : Nat
  off : Nat
  count : Nat
  src : Loc
  dst : Loc
  sig : Option Sel := none
deriving DecidableEq, Repr

/-- A piece of data toward a rank, or from one (R517, R531): RESULT, FIRST and the bytes. -/
structure CollPiece where
  rank : Nat
  result : Bool
  first : Nat
  data : Bytes
deriving DecidableEq, Repr

/-- A collective that a step of this chip has entered (R513 to R529). `ready` is when it became ready and its place in the order
of readiness; `mark` the entry mark; `enters` the ENTERs held by rank with digest and mark; `admitted` when it was admitted;
`starts` the ranks whose START is held and `startedAt` when the last of those it sends to came; `contrib` the chip's
contribution; `sendq` the pieces not yet sent and `flying` the ranks of the DATA packets without their COLL_ACK; `got` the
pieces received; `result` the whole result once formed; `reduced` whether the own shard has been reduced; `readies` the ranks
whose READY is held and `readyAt` when READY was last sent. -/
structure Coll where
  group : Nat
  cseq : Nat
  lead : Nat
  words : List Word
  n : Nat
  me : Nat
  parts : List CollPart := []
  ready : Option (Nat × Nat) := none
  mark : Nat := 0
  digest : Word := 0
  enters : List (Nat × Word × Nat) := []
  admitted : Option Nat := none
  starts : List Nat := []
  startedAt : Option Nat := none
  contrib : Bytes := []
  sendq : List CollPiece := []
  flying : List Nat := []
  got : List CollPiece := []
  reduced : Bool := false
  result : Option Bytes := none
  done : Bool := false
  readies : List Nat := []
  readyAt : Option Nat := none
deriving DecidableEq, Repr

/-- The collective engine beyond its registers: collectives of steps in flight, ENTERs of collectives not yet entered (group,
CSEQ, rank, digest, mark; at most 1,024), ABORTs kept (group, CSEQ, cause), collectives whose step has committed, ENTERs to be
sent again (group, CSEQ, rank, when), the order of readiness, and an upset that the next residue check of a reducer finds (R127,
R512; log entry 54). -/
structure Col where
  colls : List Coll := []
  early : List (Nat × Nat × Nat × Word × Nat) := []
  aborts : List (Nat × Nat × Nat) := []
  past : List (Nat × Nat) := []
  again : List (Nat × Nat × Nat × Nat) := []
  nextReady : Nat := 0
  upset : Bool := false
deriving DecidableEq, Repr

/-! ## Faults, resets, controllers and the configuration in force -/

/-- A spare being brought in (R715): the logical cluster, the old and the spare physical cluster, and when it began. -/
structure SpareIn where
  logical : Nat
  old : Nat
  spare : Nat
  since : Nat
deriving DecidableEq, Repr

/-- Fault bookkeeping beyond the RAS registers: strikes and resets with their times (R706, R710), hub strikes, uncorrectable
granules and corrections (R714), clusters due for a spare, rewrites of resident granules due (R281), resets of a
quadrant domain or of the compute dies in progress, spares being brought in, the logical cluster for which RAS_SPARE_CTL.GO reads 1
(R748), and a self-test in progress (R735). Windows of escalation are times of the step clock (R706). -/
structure Ras where
  strikes : List (Nat × Nat) := []
  hubStrikes : List Nat := []
  cluResets : List (Nat × Nat) := []
  quadResets : List Nat := []
  compResets : List Nat := []
  pkg : List Nat := []
  uncorr : List (Nat × Nat × Nat) := []
  corr : List (Nat × Bool × Nat) := []
  spareDue : List Nat := []
  repairs : List (Nat × Nat) := []
  quadReset : List (Nat × Nat) := []
  compReset : Option Nat := none
  spares : List SpareIn := []
  spareGo : Option Nat := none
  selftest : Option (Nat × Nat × Nat) := none
deriving DecidableEq, Repr

/-- The repair records of the cold frame (R294, R387, R415, R717, R718): remap entries (1 + physical cluster by logical
cluster), physical clusters found failed or retired (the retired banks are theirs, R716; log entry 65), retired tier-1 modules, the spare optical lanes substituted as (light engine,
memory lane or port on it, optical lane), logical clusters marked LOST, the remaps since manufacture, and whether a hub block failed its self-test (R609). -/
structure Repair where
  remap : Store Nat := []
  failed : List Nat := []
  modules : List Nat := []
  lanes : List (Nat × Nat × Nat) := []
  lost : List Nat := []
  remaps : Nat := 0
  hub : Bool := false
deriving DecidableEq, Repr

/-- The configuration in force (R589 to R603): the bytes of each applied section by its type, 1 to 7, none where the section is
held or never applied, and the values then are the defaults of its table; `memDue` is a memory section that a reload
applies once no step is in flight (R612), `fabDue` a fabric section whose tables are installed at the end of the drain (R466). -/
structure Conf where
  sect : Store Bytes := []
  memDue : Option Bytes := none
  fabDue : Option Bytes := none
deriving DecidableEq, Repr

/-! ## Start-up and firmware (R584 to R616, R755 to R791) -/

/-- A section reload in progress (R610 to R615): the copy, the sections still to apply, whether one failed its checks, and
whether it began in HELD. -/
structure Reload where
  copy : Nat
  todo : List Nat
  part : Bool
  held : Bool
deriving DecidableEq, Repr

/-- The cold start (R608): `stage` is 0 after event 3, 1 once both controllers run the firmware (event 5), 2 once the self-test
has passed (event 6), 3 once the copies are read (event 7), 4 once event 8 or 9 has run, 5 once every lane is UP or DOWN (event
11), 6 once started. `waits` holds the straps of a start that waits at event 2 for REFCLK_25M (R861); `hubBad` a mirror that
counts as a failed hub self-test (R767); `staged` a power command, with its origin, to apply on the next entry to READY (R66); `flashBad`
a flash device that does not answer as R866 asks, so that every read of it fails (R586; log entry 54). -/
structure Boot where
  stage : Nat := 6
  waits : Option (BitVec 6 × Bool × Bool) := none
  refclk : Bool := true
  hubBad : Bool := false
  reload : Option Reload := none
  staged : Option (Nat × Nat) := none
  flashBad : Bool := false
deriving DecidableEq, Repr

/-- The controller journal of the cold frame (R294, R723, R724, R729): the value that the active controller last wrote at each
register, and each controller's last health report, 1 plus its bits LOCKSTEP_OK, SCRUB_OK and JOURNAL_OK (log entry 63). -/
structure CtlJournal where
  writes : Store Word := []
  health : Store Nat := []
deriving DecidableEq, Repr

/-- What the cold frame holds beyond keys, log ring and evacuation journal (R294; FramePart gives the offsets): the controller
journal, role entries of 96 bytes (R601), the COUNT of the security version mirror (R767), the causes of the wipe in progress (bit 0 tamper,
1 life cycle, 2 owner), the pending-erase mark (R306), the life-cycle state and wipe count from which the identity keys were derived, none once wiped, whether a
wipe has begun since the cold start (R785, R786), and,
outside the frame, the authorisations held (R762). -/
structure Cold where
  journal : CtlJournal := {}
  roles : List Bytes := []
  svnCount : Nat := 0
  wiping : Option Nat := none
  eraseDue : Bool := false
  identity : Option (Nat × Nat) := some (0, 0)
  wiped : Bool := false
  auths : List Bytes := []
deriving DecidableEq, Repr

/-- An install or a PLDM update in progress (R761, R835): the slot, 0 A or 1 B, the header, the origin of its command, whether it is
paused (R764), the endpoint where PLDM brings it, and the payload bytes received. -/
structure Install where
  slot : Nat
  header : Bytes
  origin : Nat
  paused : Bool := false
  pldm : Option Endpoint := none
  got : Nat := 0
deriving DecidableEq, Repr

/-- A graft (R770 to R775): the grafted slot, the slot before, when the window closes, the clusters that hold the microcode of
the slot now wanted, and the cause of a fallback in progress. -/
structure Graft where
  slot : Nat
  prev : Nat
  deadline : Nat
  loaded : List Nat := []
  back : Option Nat := none
deriving DecidableEq, Repr

/-- A seedbed download or a CONFIG_WRITE in progress (R588, R766, R778), the latter from the staging window or the buffer: its target, the header held, SEQ_DONE once a block has
been taken, and the payload bytes programmed. -/
structure Seed where
  config : Bool
  staged : Bool := false
  target : Nat
  header : Bytes := []
  seq : Option Nat := none
  got : Nat := 0
deriving DecidableEq, Repr

/-- The firmware update path beyond its registers: the slot each controller runs and the slot whose microcode each cluster holds
where it is not slot A, 0 A and 1 B. -/
structure Firm where
  install : Option Install := none
  graft : Option Graft := none
  seed : Option Seed := none
  runs : List Nat := [0, 0]
  ucode : Store Nat := []
deriving DecidableEq, Repr

/-! ## The Tilal controllers (R721 to R734) -/

/-- The lease and health logic beyond RAS_LEASE and RAS_CTL_HEALTH: when the last heartbeat with the current EPOCH and the last
report of each controller came, whether the active's heartbeat has stopped (R725), the failures of the standby with their
times, controllers restarting, when DUAL_ACT was set, the addresses written during it, whether STALE_CTL_WRITE has been raised
since the last takeover, and whether the active has written RELINQUISH. -/
structure Ctl where
  beatAt : Nat := 0
  reported : List Nat := [0, 0]
  stopped : Bool := false
  fails : List Nat := []
  dualAt : Option Nat := none
  dual : List Nat := []
  staleSeen : Bool := false
  relinquished : Bool := false
deriving DecidableEq, Repr

/-! ## Package recovery and SAFE (R659, R698 to R709, R731 to R734) -/

/-- The harvest record (R700): its cause, the step clock at event 1, FAB_GEN before and after, the counts of open contexts and of steps in
flight, its digest, and its parts. -/
structure Harvest where
  cause : Nat
  time : Word
  genBefore : Nat
  genAfter : Nat
  contexts : Nat
  stepCount : Nat
  digest : List Word
  slots : Store Word
  windows : Store Word
  setTenant : Store Nat
  images : Store Word
  imageRegs : Store Word
  keyRefs : Store Nat
  tallies : Store Word
  pend : List Pend
  steps : List Step
  teardowns : List Teardown
  colls : List Coll
  records : List Record
  settings : Store Word
  clusters : Store Cluster
deriving DecidableEq, Repr

/-- A package recovery in progress (R703): when it began, and by the step clock, the device state before it, whether a fault started it (R709, R621),
further causes (R705), and what harvest could not read (R701). -/
structure Recovery where
  began : Nat
  time : Word := 0
  before : Nat
  fault : Bool
  more : List Nat := []
  lost : Option HarvestLoss := none
deriving DecidableEq, Repr

/-- SAFE (R659, R732): the device state before, whether a trip led there, and a RECOVER command taken, with its time (R662,
R733). -/
structure Safe where
  before : Nat
  trip : Bool
  recover : Option Nat := none
deriving DecidableEq, Repr

/-! ## Management endpoints -/

/-- A signature queued (R787): the endpoint, the response it goes into, and the bytes it covers. -/
structure SigReq where
  ep : Endpoint
  body : Bytes
  covers : Bytes
deriving DecidableEq, Repr

/-- The management port and the MCTP services beyond their registers (R829 to R835): the I3C dynamic address, the Endpoint ID
of the I3C endpoint, the events queued for polling (INFO words, at most 64), the heartbeat effecter, the signing requests
waiting, the first being made, and the numeric sensors 1 to 16 as last refreshed, none before the first refresh (R831). -/
structure Mgmt where
  dynAddr : Option (BitVec 7) := none
  eid : Nat := 0
  polled : List Word := []
  heartbeat : Nat := 0
  sigs : List SigReq := []
  sensed : List Int := []
deriving DecidableEq, Repr

/-! ## The governor -/

/-- The governor and the coolant and safety logic beyond the PWR registers (R625 to R671). `due` is a power command accepted that
has not taken effect, `moving` the target of the transition in progress and `rows` the power states that it has still to reach (R634), `held` the last command held (R58), each with the origin of
its command. The windows are
runs of equal samples, newest first, as (watts, count). `terms` are the cap terms of the last update, by their LIMITER codes;
`lag` a fall not yet met: when it came and the cap. Times are nanoseconds of `State.now`. `warn` and `fault` hold while the
terms of PWR_WARN_N and COOL_FAULT_N are in force, `sudden` holds since when those of R658 are; `dpAt` when the pressure drop was last
measured and `dpHigh` since when it has stood above half of DP_NOM. `thermal` is the thermal budget, as (n, k) for n / 100^k watts.
`short` says that the last update granted compute less than H; `rates` are the rates of the last millisecond of open issue, newest first,
in hundredths of 4 µs (R671). `temps` are the last (inlet, outlet)
measures in units of 0.5 °C, newest first, at most 100; `dp` the last pressure drop in units of 0.1 kPa; `flow` mL/min; `limit`
the coolant limit, none before the first estimate of flow. `heat` is the heater target H, `cold` since when the mean has stayed
below the band; `droop` the droop step by 4 × die + quadrant; `rackRuns` whether the rack manager's timer has started (R669); `thermtrip` and `alert` hold while the outputs are driven low. -/
structure Gov where
  collWaitNs : Nat := 0
  limitedNs : Nat := 0
  due : Option (Nat × Nat) := none
  moving : Option (Nat × Nat) := none
  rows : List Nat := []
  held : Option (Nat × Nat) := none
  cool : List (Nat × Nat) := []
  del : List (Nat × Nat) := []
  second : List (Nat × Nat) := []
  last : Nat := 0
  activity : List (List Nat) := []
  coolCap : Nat := 3200
  delCap : Nat := 3200
  terms : List (Nat × Nat) := []
  thermal : Nat × Nat := (4200, 0)
  unmet : Nat := 0
  met : Nat := 0
  lag : Option (Nat × Nat) := none
  grant : Nat := 0
  short : Bool := false
  rates : List (Nat × Nat) := []
  warn : Bool := false
  fault : Bool := false
  sudden : Option Nat := none
  dpAt : Option Nat := none
  dpHigh : Option Nat := none
  temps : List (Nat × Nat) := []
  dp : Nat := 0
  measures : Nat := 0
  flow : Nat := 0
  limit : Option Nat := none
  heat : Nat := 0
  cold : Option Nat := none
  beatAt : Nat := 0
  droop : Store Nat := []
  rackRuns : Bool := true
  thermtrip : Bool := false
  alert : Bool := false
deriving DecidableEq, Repr

/-! ## The test access port (R880 to R885) -/

/-- The states of the IEEE 1149.1 controller. -/
inductive TapState where
  | reset | idle
  | selDr | capDr | shiftDr | exit1Dr | pauseDr | exit2Dr | updateDr
  | selIr | capIr | shiftIr | exit1Ir | pauseIr | exit2Ir | updateIr
deriving DecidableEq, Repr

/-- The test access port: TRST_N, the controller, the instruction in force, the shift register (the bit next to TDO first), and
the update latch of the boundary register, cell 0 first. -/
structure Tap where
  trst : Bool := false
  state : TapState := .reset
  ir : Nat := 1
  shift : List Bool := []
  latch : List Bool := []
deriving DecidableEq, Repr


/-! ## The machine -/

/-- The state of the VX9. Every structure above is one block's state beyond its registers. -/
structure State where
  /-- the commands waiting, first in, first out -/
  pending : List Instr
  /-- the model's own counter of free values drawn (log entry 2) -/
  freeCtr : Nat
  /-- device state OFF: no power, or EOFF_N latched (R62) -/
  off : Bool
  clock : Clock
  /-- the control-window registers by offset, the one home of each (R17, R577) -/
  regs : Store Word
  /-- staged RWC bits by 4 × offset + writer (R26, R822) -/
  staged : Store Stage
  commits : List Commit
  latches : List Latch
  log : LogEngine
  host : HostPort
  /-- what the part has sent out, newest first -/
  out : List Emit
  clusters : Store Cluster
  /-- bed slices by cluster × 2^25 + offset, and pads by cluster × 2^20 + offset (R253, R257) -/
  slice : Store Byte
  pad : Store Byte
  /-- symbols in error of each 32-byte code word, by byte key ÷ 32; 255 is the poison pattern (R254, R277 to R279) -/
  sliceFlaw : Store Nat
  padFlaw : Store Nat
  mem : Mem
  fab : Fab
  col : Col
  /-- the arbiters that have been used, with their rank order and wait counts (R265) -/
  arbs : List Arb
  disp : Dispatch
  ras : Ras
  repair : Repair
  conf : Conf
  mgmt : Mgmt
  gov : Gov
  /-- the configuration flash (R587), by offset -/
  flash : Store Byte
  boot : Boot
  cold : Cold
  firm : Firm
  ctl : Ctl
  harvest : Option Harvest
  recovery : Option Recovery
  safe : Option Safe
  tap : Tap
deriving DecidableEq, Repr

/-- Configuration space as the host leaves it once it has enabled the function: Memory Space, Bus Master and MSI-X (log entry 3). -/
def resetCfg : Store (BitVec 32) := [(0x04, 0x00100006), (0x90, 0x87FF0011)]

/-- The identity and memory sections in force after reset: a serial number of 1; T1_SPEED 8,800 MT/s, tier 2 used, STAGE_BASE 0x38
(log entry 3). The other sections stand at the defaults of their tables. -/
def resetSects : Store Bytes := [(1, 1 :: List.replicate 63 0), (2, [88, 2, 0, 56] ++ List.replicate 60 0)]

/-- The part right after a successful cold start (R31, R62): every field of a structure not named here stands at its default. -/
def State.reset : State :=
  { pending := [], freeCtr := 0, off := false, clock := {}, regs := [], staged := [], commits := [], latches := [], log := {},
    host := { cfg := resetCfg }, out := [], clusters := [], slice := [], pad := [], sliceFlaw := [], padFlaw := [], mem := {},
    fab := {}, col := {}, arbs := [], disp := {}, ras := {}, repair := {}, conf := { sect := resetSects }, mgmt := {}, gov := {},
    flash := [], boot := {}, cold := {}, firm := {}, ctl := {}, harvest := none, recovery := none, safe := none, tap := {} }

end Sys2Proof.Machine
end

