-- ==== Sys2Proof/Machine/Operands.lean ====
section
/-! DEFINITION. The operands of an operation descriptor: the header, tally selectors, operand locators and their
resolution, the bits each opcode uses, and the checks the sequencer makes when it issues a descriptor (R186 to R252). -/

namespace Sys2Proof.Machine

/-- Bits `hi:lo` of a word, as a number. -/
def bitsOf (w : Word) (hi lo : Nat) : Nat := w.toNat / 2 ^ lo % 2 ^ (hi + 1 - lo)

/-- Bits `hi:lo` as a signed number. -/
def sbitsOf (w : Word) (hi lo : Nat) : Int :=
  let n := bitsOf w hi lo
  if n < 2 ^ (hi - lo) then (n : Int) else (n : Int) - 2 ^ (hi + 1 - lo)

/-- Word `i` of a list of words, zero beyond its end. -/
def wordAt (ws : List Word) (i : Nat) : Word := ws.getD i 0

/-- A field of a descriptor or message: bits of one of its words. -/
def fieldOf (ws : List Word) (i hi lo : Nat) : Nat := bitsOf (wordAt ws i) hi lo

/-- The 64-bit little-endian words of a byte run, with fuel (R186). -/
def wordsOfBytes : Nat → Bytes → List Word
  | 0, _ => []
  | n + 1, bs => BitVec.ofNat 64 ((bs.take 8).reverse.foldl (fun a b => a * 256 + b.toNat) 0) :: wordsOfBytes n (bs.drop 8)

/-- The `n` little-endian bytes of a number. -/
def bytesOfNat : Nat → Nat → Bytes
  | 0, _ => []
  | n + 1, v => BitVec.ofNat 8 v :: bytesOfNat n (v / 256)

/-- The number that little-endian bytes hold. -/
def natOfBytes : Bytes → Nat
  | [] => 0
  | b :: bs => b.toNat + 256 * natOfBytes bs

/-- The bytes of words (R23). -/
def bytesOfWords (ws : List Word) : Bytes := ws.flatMap (fun w => bytesOfNat 8 w.toNat)

/-! ## The header (R187) -/

def hOpcode (ws : List Word) : Nat := fieldOf ws 0 7 0
def hFlags (ws : List Word) : Nat := fieldOf ws 0 15 8
def hFmtA (ws : List Word) : Nat := fieldOf ws 0 19 16
def hFmtB (ws : List Word) : Nat := fieldOf ws 0 23 20
def hFmtOut (ws : List Word) : Nat := fieldOf ws 0 27 24
def hRMode (ws : List Word) : Nat := fieldOf ws 0 30 28
def hWait (ws : List Word) : Nat := fieldOf ws 0 47 32
def hSignal (ws : List Word) : Nat := fieldOf ws 0 63 48
def hWaitBase (ws : List Word) : Nat := fieldOf ws 1 23 0
def hWaitStep (ws : List Word) : Nat := fieldOf ws 1 28 24
def hWaitLoop (ws : List Word) : Nat := fieldOf ws 1 31 29
def hStream (ws : List Word) : Nat := fieldOf ws 1 63 32

/-- The SAT and SERIAL flags (R191). -/
def hSat (ws : List Word) : Bool := (wordAt ws 0).getLsbD 8
def hSerial (ws : List Word) : Bool := (wordAt ws 0).getLsbD 9

/-- A tally selector (R188): none with EN = 0. -/
def selOf (v : Nat) : Option Sel :=
  if v / 32768 % 2 = 1 then some { hub := decide (v / 16384 % 2 = 1), num := v % 16384 } else none

/-! ## Opcodes (R201) -/

/-- The engine of an opcode; none for a value not in the table (R132, R201). -/
def engineOf (op : Nat) : Option Engine :=
  if op = 0x00 ∨ op = 0x01 then some .seq
  else if 0x10 ≤ op ∧ op ≤ 0x15 then some .tensor
  else if 0x20 ≤ op ∧ op ≤ 0x2C then some .vector
  else if 0x30 ≤ op ∧ op ≤ 0x32 then some .select
  else if 0x40 ≤ op ∧ op ≤ 0x43 then some .move
  else if 0x50 ≤ op ∧ op ≤ 0x53 then some .seq
  else if 0x58 ≤ op ∧ op ≤ 0x5C then some .seq
  else if op = 0x5F ∨ op = 0x60 then some .seq
  else none

/-- All 64 bits, and the bits `hi:lo`. -/
def fullMask : Nat := 2 ^ 64 - 1
def maskBits (hi lo : Nat) : Nat := (2 ^ (hi + 1 - lo) - 1) * 2 ^ lo

/-- The bits of words 2 to 7 that an opcode's table names; every other bit is reserved (R193, R207 to R252). -/
def bodyMask (op : Nat) : List Nat :=
  if op = 0x10 then [fullMask, fullMask, maskBits 8 0, 0, 0, 0]
  else if op = 0x11 then
    [fullMask, fullMask, maskBits 46 40 + maskBits 37 32 + maskBits 23 0, maskBits 23 0, 0, 0]
  else if op = 0x12 then
    [fullMask, fullMask, maskBits 46 40 + maskBits 37 32 + maskBits 23 0,
      maskBits 47 40 + maskBits 33 32 + maskBits 31 0, 0, 0]
  else if op = 0x13 then
    [fullMask, fullMask, maskBits 46 40 + maskBits 37 32 + maskBits 23 0, fullMask, maskBits 63 32, 0]
  else if op = 0x14 then
    [maskBits 42 32 + maskBits 17 16 + maskBits 14 8 + maskBits 5 0, 0, 0, 0, 0, 0]
  else if op = 0x15 then [maskBits 42 32 + maskBits 14 8 + maskBits 5 0, 0, 0, 0, 0, 0]
  else if 0x20 ≤ op ∧ op ≤ 0x32 then [fullMask, fullMask, fullMask, fullMask, fullMask, fullMask]
  else if op = 0x40 then [fullMask, fullMask, 0, 0, maskBits 25 0, 0]
  else if op = 0x41 then [fullMask, fullMask, maskBits 8 0, 0, maskBits 25 0, 0]
  else if op = 0x42 then
    [fullMask, maskBits 63 56 + maskBits 47 0, maskBits 50 0, maskBits 32 0, 0, 0]
  else if op = 0x43 then [maskBits 63 58 + maskBits 31 0, maskBits 47 0, 0, 0, 0, 0]
  else if op = 0x51 then [maskBits 63 32 + maskBits 15 0, 0, 0, 0, 0, 0]
  else if op = 0x52 then [maskBits 63 56 + maskBits 13 0, maskBits 31 0, 0, 0, 0, 0]
  else if op = 0x58 then [maskBits 47 32 + maskBits 16 0, maskBits 13 0, 0, 0, 0, 0]
  else if op = 0x5A then [maskBits 63 32 + maskBits 18 0, maskBits 13 0, 0, 0, 0, 0]
  else if op = 0x5B then [maskBits 13 0, 0, 0, 0, 0, 0]
  else if op = 0x60 then
    [fullMask, fullMask, maskBits 63 46 + maskBits 39 0, fullMask, 0, 0]
  else [0, 0, 0, 0, 0, 0]

/-- Is a bit set outside the opcode's fields, or a reserved FLAGS bit, or bit 31 of word 0 (R187, R191, R193)? -/
def reservedSet (ws : List Word) : Bool :=
  decide (fieldOf ws 0 31 31 ≠ 0) || decide (hFlags ws / 4 ≠ 0) ||
    ((bodyMask (hOpcode ws)).zipIdx.any fun p => decide ((wordAt ws (p.2 + 2)).toNat &&& (fullMask - p.1) ≠ 0))

/-! ## Refusal codes (R204) -/

def rcOpcode : Nat := 0x01
def rcReserved : Nat := 0x02
def rcFormat : Nat := 0x03
def rcRounding : Nat := 0x04
def rcAccMode : Nat := 0x05
def rcAccRange : Nat := 0x06
def rcAnchor : Nat := 0x07
def rcAddress : Nat := 0x08
def rcTally : Nat := 0x09
def rcControl : Nat := 0x0A
def rcLimit : Nat := 0x0B
def rcCount : Nat := 0x0C
def rcCollective : Nat := 0x0D
def rcHalt : Nat := 0x0E
def rcWindow : Nat := 0x0F
def rcKey : Nat := 0x10

/-- Each check with its code, in the order in which the model reports them (R204 gives none; log entry 9). -/
abbrev Check := Bool × Nat

/-- The code of the first check that fails. -/
def firstFail : List Check → Option Nat
  | [] => none
  | c :: cs => if c.1 then firstFail cs else some c.2

/-! ## Locators -/

/-- The size of the pad and of the slice, and the program region (R154, R253, R257). -/
def padBytes : Nat := 0x100000
def sliceBytes : Nat := 0x2000000
def progBase : Nat := 0x1F00000

/-- The fields of a locator (R194). -/
def locSpace (w : Word) : Nat := bitsOf w 63 62
def locRing (w : Word) : Nat := bitsOf w 61 58
def locLoop (w : Word) : Nat := bitsOf w 57 55
def locStride (w : Word) : Int := sbitsOf w 54 32
def locBase (w : Word) : Nat := bitsOf w 31 0

/-- The index of the loop a selector names: 0 for 0b000, none where no such loop is open (R189, R194). `ls` holds the open
loops, innermost first. -/
def loopIndex (ls : List Loop) (sel : Nat) : Option Nat :=
  if sel = 0 then some 0 else (ls[sel - 1]?).map (·.idx)

/-- What resolution needs: the open loops and the ring windows of the cluster (R195, R291). -/
structure Frame where
  loops : List Loop
  rings : List Word
deriving DecidableEq, Repr

/-- How an operand is used: its bytes, whether it is written, and whether an immediate is allowed. -/
structure Use where
  len : Nat
  write : Bool := false
  imm : Bool := false
deriving DecidableEq, Repr

/-- Does the range meet the program region (R197)? -/
def meetsProgram (off len : Nat) : Bool := decide (progBase < off + len) && decide (off < sliceBytes) && decide (0 < len)

/-- The resolution of a locator (R195 to R198), or its refusal code. The rules give no code for a reserved LOOP_SEL, for an immediate
with a LOOP_SEL or a STRIDE, and for a RING outside SPACE 0b10: here each is RESERVED (log entry 62). -/
def resolve (f : Frame) (w : Word) (u : Use) : Except Nat Loc :=
  let sp := locSpace w
  if 4 < locLoop w then .error rcReserved
  else if sp ≠ 2 ∧ locRing w ≠ 0 then .error rcReserved
  else if sp = 3 then
    if !u.imm then .error rcAddress
    else if locLoop w ≠ 0 ∨ locStride w ≠ 0 then .error rcReserved
    else .ok (.imm (BitVec.ofNat 32 (locBase w)))
  else
    match loopIndex f.loops (locLoop w) with
    | none => .error rcControl
    | some i =>
      if sp = 2 then
        let r := wordAt f.rings (locRing w)
        if bitsOf r 63 63 = 0 then .error rcAddress
        else
          let s : Int := (bitsOf w 31 20 : Int) + locStride w * (i : Int)
          let n := bitsOf r 58 46
          let sz := bitsOf r 45 25
          let inSlot := bitsOf w 19 0
          let off := bitsOf r 24 0 + (s.toNat % n) * sz + inSlot
          let slice := decide (bitsOf r 62 62 = 1)
          if s < 0 then .error rcAddress
          else if off % 64 ≠ 0 then .error rcAddress
          else if sz < inSlot + u.len then .error rcAddress
          else if u.write && slice && meetsProgram off u.len then .error rcAddress
          else .ok (.mem slice off)
      else
        let o : Int := (locBase w : Int) + locStride w * (i : Int)
        let slice := decide (sp = 1)
        let lim := if slice then sliceBytes else padBytes
        if o < 0 ∨ o % 64 ≠ 0 then .error rcAddress
        else if lim < o.toNat + u.len then .error rcAddress
        else if u.write && slice && meetsProgram o.toNat u.len then .error rcAddress
        else .ok (.mem slice o.toNat)

/-- An operand that the descriptor uses or, where it does not, must leave zero (R207, R222). -/
def operand (f : Frame) (w : Word) (u : Option Use) : Except Nat Loc :=
  match u with
  | none => if w = 0 then .ok .none else .error rcReserved
  | some u => resolve f w u

/-- The bytes that `n` packed elements of a format take (R76, R77, R207). -/
def packedBytes (f : Fmt) (n : Nat) : Nat := (n * f.width + 7) / 8

/-! ## Field groups of the descriptors -/

/-- The rows and base row of a tensor descriptor with the layout of MMA and DRAIN. -/
def tRows (ws : List Word) : Nat := fieldOf ws 4 46 40
def tBase (ws : List Word) : Nat := fieldOf ws 4 37 32
def tPitch (ws : List Word) : Nat := fieldOf ws 4 23 0

/-- COUNT, IDX_LOOP, INDEX_BASE, ROW_LEN (k of VTOPK), SUBOP and IMM of the vector body. -/
def vCount (ws : List Word) : Nat := fieldOf ws 6 23 0
def vIdxLoop (ws : List Word) : Nat := fieldOf ws 6 63 61
def vIdxBase (ws : List Word) : Nat := fieldOf ws 6 60 24
def vRowLen (ws : List Word) : Nat := fieldOf ws 7 31 8
def vSubop (ws : List Word) : Nat := fieldOf ws 7 7 0
def vImm (ws : List Word) : Nat := fieldOf ws 7 63 32

/-- The tile's K and element bytes of a column (R137, R208). -/
def tileK (f : Fmt) : Nat := if f.blocked then 256 else 128
def wloadK (ws : List Word) (f : Fmt) : Nat := if fieldOf ws 4 8 0 = 0 then tileK f else fieldOf ws 4 8 0

/-- The float and integer sets of the vector unit (R223). -/
def floatSet (c : Nat) : Bool := decide (c ≤ 4)
def intSet (c : Nat) : Bool := decide (c = 8) || decide (c = 9)

/-- The format of a code that a check has allowed; FP32 stands for a code never reached. -/
def fmtOr (c : Nat) : Fmt := (Fmt.ofCode c).getD .fp32

/-- Is the MMA the merge form (R211)? -/
def isMerge (ws : List Word) : Bool := decide (hFmtA ws = 10) && decide (hFmtB ws = 10)

/-- The format in which VSELECT reads c (R224). -/
def vselectFmt (ws : List Word) : Nat := if vSubop ws = 0 then hFmtB ws else vSubop ws - 0x80

/-- The vector opcodes that read operand B as elements. -/
def vUsesB (op : Nat) : Bool := decide (op ≤ 0x26) || decide (op = 0x2B)

/-! ## Checks that need the descriptor alone (R193, R204) -/

/-- The header checks common to every descriptor. -/
def headerChecks (ws : List Word) : List Check :=
  let op := hOpcode ws
  let sel (v : Nat) : List Check :=
    [(!(decide (v / 32768 % 2 = 0) && decide (v % 32768 ≠ 0)), rcReserved),
     (!(decide (v / 32768 % 2 = 1) && decide (v / 16384 % 2 = 0) && decide (15 < v % 16384)), rcTally)]
  [(!reservedSet ws, rcReserved)] ++ sel (hWait ws) ++ sel (hSignal ws) ++
  [(decide (hWaitLoop ws ≤ 4), rcReserved),
   (decide (hRMode ws ≤ 4), rcRounding),
   (decide (hFmtA ws ≤ 10) && decide (hFmtB ws ≤ 10) && decide (hFmtOut ws ≤ 10), rcFormat),
   (decide (hStream ws = 0) || decide (hRMode ws = 4) || decide (op = 0x2C), rcReserved)]

/-- The checks of the tensor descriptors (R207 to R221). A TILE_K of 256 is the whole tile, as 0 is, and a field that R218, R219 or R220
wants zero is refused with RESERVED, as is a scale word or a SCALE_PITCH that is not zero beside a format without block scales, for which
R207 and the rules after it give no code (log entry 62). -/
def tensorChecks (ws : List Word) : List Check :=
  let op := hOpcode ws
  let fa := hFmtA ws
  let fb := hFmtB ws
  let fo := hFmtOut ws
  let z (n : Nat) : Check := (decide (n = 0), rcReserved)
  let rows (first r : Nat) : Check := (decide (r ≠ 0) && decide (first + r ≤ 64), rcAccRange)
  if op = 0x10 then
    [z fa, z fo, z (hRMode ws), (decide (1 ≤ fb) && decide (fb ≤ 8), rcFormat),
     (decide (fieldOf ws 4 8 0 ≤ tileK (fmtOr fb)) &&
       (!(fmtOr fb).blocked || decide (fieldOf ws 4 8 0 % 16 = 0)), rcCount)]
  else if op = 0x11 then
    [z fo, z (hRMode ws),
     (isMerge ws || (decide (fa ≠ 10) && decide (fb ≠ 10) && (pairMode (fmtOr fa) (fmtOr fb)).isSome), rcFormat),
     ((fmtOr fa).blocked || decide (fieldOf ws 5 23 0 = 0), rcReserved), rows (tBase ws) (tRows ws)]
  else if op = 0x12 then
    [z fo, z (hRMode ws), ((decide (fa = 1) || decide (fa = 2)) && decide (fb = fa), rcFormat),
     (decide (1 ≤ fieldOf ws 5 47 40) && decide (fieldOf ws 5 47 40 ≤ 128), rcCount), rows (tBase ws) (tRows ws)]
  else if op = 0x13 then
    [z fa, z fb,
     (decide (hRMode ws = 4) || (decide (wordAt ws 5 = 0) && decide (wordAt ws 6 = 0)), rcReserved),
     (decide (fieldOf ws 5 63 61 ≤ 4), rcReserved), rows (tBase ws) (tRows ws)]
  else if op = 0x14 then
    [z fo, z (hRMode ws)] ++
    (if fieldOf ws 2 16 16 = 1 then
      [z fa, z fb, z (fieldOf ws 2 17 17), z (fieldOf ws 2 42 32)]
     else if fieldOf ws 2 17 17 = 1 then
      [z (fieldOf ws 2 42 32), (!((fmtOr fa).blocked && (fmtOr fb).blocked), rcAnchor),
       ((autoAnchor (fmtOr fa) (fmtOr fb)).isSome, rcFormat)]
     else [z fa, z fb, z (fieldOf ws 2 42 42)]) ++
    [rows (fieldOf ws 2 5 0) (fieldOf ws 2 14 8)]
  else [z fa, z fb, z fo, z (hRMode ws), rows (fieldOf ws 2 5 0) (fieldOf ws 2 14 8)]

/-- Is SUBOP one the opcode lists (R224)? -/
def subopOk (ws : List Word) : Bool :=
  let op := hOpcode ws
  let n := vSubop ws
  if op = 0x25 then decide (n ≤ 5)
  else if op = 0x26 then
    decide (n = 0) || (decide (0x80 ≤ n) && (decide (n - 0x80 ≤ 4) || decide (n - 0x80 = 8) || decide (n - 0x80 = 9)))
  else if op = 0x28 then decide (n ≤ 6)
  else if op = 0x29 then decide (n ≤ 2)
  else if op = 0x2B ∨ op = 0x2C then decide (n ≤ 1)
  else decide (n = 0)

/-- The checks of the vector and selection descriptors (R222 to R233). R233 gives no code for a ring-window locator as the table of a gather
or scatter: ADDRESS (log entry 62). -/
def vectorChecks (ws : List Word) : List Check :=
  let op := hOpcode ws
  let fa := hFmtA ws
  let fb := hFmtB ws
  let fo := hFmtOut ws
  let rm := hRMode ws
  let z (n : Nat) : Check := (decide (n = 0), rcReserved)
  let rsrOk : Check := (decide (rm ≠ 4), rcRounding)
  let sameSet := (floatSet fa && (!vUsesB op || floatSet fb)) || (intSet fa && (!vUsesB op || intSet fb))
  [(subopOk ws, rcReserved), (decide (vCount ws ≠ 0), rcCount), (decide (vIdxLoop ws ≤ 4), rcReserved)] ++
  (if op = 0x27 then
    [z fb, (decide (fa ≤ 9) && decide (fo ≤ 9), rcFormat),
     (!((fmtOr fa).blocked || (fmtOr fo).blocked) || decide (vCount ws % 16 = 0), rcCount)]
   else if op = 0x2C then
    [z rm, z fa, z fb, (decide (fo = (if vSubop ws = 1 then 9 else 0)), rcFormat)]
   else if op = 0x31 ∨ op = 0x32 then
    [z rm, z fa, z fb, z fo, (decide (vCount ws ≤ 16384), rcCount),
     (decide (locSpace (wordAt ws (if op = 0x31 then 3 else 2)) ≤ 1), rcAddress)]
   else if op = 0x30 then
    [z rm, z fb, ((floatSet fa || intSet fa) && decide (fo = fa), rcFormat)]
   else
    (if op = 0x25 then [z rm] else [rsrOk]) ++
    (if vUsesB op then [] else [z fb]) ++
    [(sameSet, rcFormat),
     (if op = 0x25 then floatSet fo || intSet fo
      else if op = 0x26 then decide (fo = fa)
      else (floatSet fa && floatSet fo) || (intSet fa && intSet fo), rcFormat),
     (!(decide (op = 0x28) || decide (op = 0x2A) || decide (op = 0x2B)) || floatSet fa, rcFormat)]) ++
  (if op = 0x2A ∨ op = 0x2B then
    [(decide (vRowLen ws ≠ 0) && decide (vCount ws % vRowLen ws = 0), rcCount)]
   else if op = 0x30 then
    [z (vImm ws), (decide (vRowLen ws ≠ 0) && decide (vRowLen ws ≤ vCount ws) && decide (vRowLen ws ≤ 256), rcCount)]
   else [z (vImm ws), z (vRowLen ws)]) ++
  (if op = 0x2C ∨ op = 0x30 ∨ (op = 0x27 ∧ rm = 4) then [] else [z (vIdxLoop ws), z (vIdxBase ws)])

/-- The checks of the move descriptors (R234 to R241). R236 gives no code for a ring-window locator as the far side of a TMOVE: ADDRESS;
R241 gives none for the fields of RING_CFG: RESERVED for SPACE, COUNT for SLOTS and SLOT_BYTES, ADDRESS for BASE (log entry 62). -/
def moveChecks (ws : List Word) : List Check :=
  let op := hOpcode ws
  let z (n : Nat) : Check := (decide (n = 0), rcReserved)
  [z (hFmtA ws), z (hFmtB ws), z (hFmtOut ws), z (hRMode ws)] ++
  (if op = 0x40 ∨ op = 0x41 then
    let b := fieldOf ws 6 25 0
    [(decide (64 ≤ b) && decide (b ≤ 33554432) && decide (b % 64 = 0), rcCount),
     (decide (op = 0x40) || decide (locSpace (wordAt ws 3) ≤ 1), rcAddress)]
   else if op = 0x42 then
    let b := fieldOf ws 5 31 0
    [(decide (fieldOf ws 4 50 48 ≤ 4), rcReserved),
     (decide (64 ≤ b) && decide (b ≤ 16777216) && decide (b % 64 = 0), rcCount)]
   else
    let sp := fieldOf ws 2 63 62
    let base := fieldOf ws 2 31 0
    let n := fieldOf ws 3 47 32
    let sz := fieldOf ws 3 31 0
    [(decide (sp ≤ 1), rcReserved),
     (decide (1 ≤ n) && decide (n ≤ 4096) && decide (64 ≤ sz) && decide (sz ≤ 1048576) && decide (sz % 64 = 0), rcCount),
     (decide (base % 64 = 0) && decide (base + n * sz ≤ (if sp = 0 then padBytes else sliceBytes)) &&
       !(decide (sp = 1) && meetsProgram base (n * sz)), rcAddress)])

/-- The checks of the control descriptors and of COLL_ENTER (R242 to R252, R508). No rule gives a code for the field of a LOOP that its
FROM_TALLY leaves unused (RESERVED), for a COUNT of 0 beside FROM_TALLY 0 (CONTROL), for a reserved COND, or for bits 31:24 of the VALUE
of a hub tally (RESERVED; log entry 62). -/
def controlChecks (ws : List Word) : List Check :=
  let op := hOpcode ws
  let z (n : Nat) : Check := (decide (n = 0), rcReserved)
  let named (v : Nat) : List Check :=
    [((selOf v).isSome, rcTally),
     (!(decide (v / 16384 % 2 = 0) && decide (15 < v % 16384)), rcTally)]
  if op = 0x60 then
    let o := fieldOf ws 4 51 48
    let red := fieldOf ws 4 47 46
    [z (hFmtB ws), (decide (hFmtA ws = hFmtOut ws), rcFormat),
     (decide (o ≤ 4) && decide (red ≠ 3), rcCollective),
     (decide (locSpace (wordAt ws 2) ≠ 2) && decide (locSpace (wordAt ws 3) ≠ 2), rcAddress),
     ((decide (o ≤ 1) || decide (red = 0)) && (decide (3 ≤ o) || decide (fieldOf ws 4 39 32 = 0)), rcCollective)] ++
    (if 2 ≤ o then [z (hRMode ws)] else [(decide (hRMode ws ≠ 4), rcRounding)])
  else
    [z (hFmtA ws), z (hFmtB ws), z (hFmtOut ws), z (hRMode ws)] ++
    (if op = 0x50 then [((selOf (hWait ws)).isSome, rcControl)]
     else if op = 0x51 then named (fieldOf ws 2 15 0) ++ [(decide (fieldOf ws 2 63 32 ≠ 0), rcTally)]
     else if op = 0x52 then [(decide (fieldOf ws 3 31 0 ≠ 0), rcTally)]
     else if op = 0x58 then
      (if fieldOf ws 2 16 16 = 1 then named (fieldOf ws 2 47 32) ++ [z (fieldOf ws 2 15 0)]
       else [z (fieldOf ws 2 47 32), (decide (fieldOf ws 2 15 0 ≠ 0), rcControl)])
     else if op = 0x5A then
      [(decide (fieldOf ws 2 18 16 ≤ 3), rcReserved)] ++ named (fieldOf ws 2 15 0) ++
      [(!(decide (fieldOf ws 2 14 14 = 1) && decide (fieldOf ws 2 63 56 ≠ 0)), rcReserved)]
     else [])

/-- The checks of a descriptor's header and fields, in the model's order (R202, R204). -/
def staticChecks (ws : List Word) : List Check :=
  match engineOf (hOpcode ws) with
  | none => [(false, rcOpcode)]
  | some e => headerChecks ws ++ (match e with
    | .tensor => tensorChecks ws
    | .vector => vectorChecks ws
    | .select => vectorChecks ws
    | .move => moveChecks ws
    | .seq => controlChecks ws)

/-! ## The operands each opcode names -/

/-- The uses of the locators in words 2 to 5: none where the word must be zero (R207 to R252). An immediate is refused with ADDRESS as
the scale plane of a VCVT, the index list of a gather or scatter, and the index output of a VTOPK (R196; log entry 62). -/
def usesOf (ws : List Word) : Option Use × Option Use × Option Use × Option Use :=
  let op := hOpcode ws
  let fa := fmtOr (hFmtA ws)
  let fb := fmtOr (hFmtB ws)
  let fo := fmtOr (hFmtOut ws)
  let n := vCount ws
  let m := tRows ws - 1
  if op = 0x10 then
    let k := wloadK ws fb
    (some { len := 128 * packedBytes fb k }, (if fb.blocked then some { len := 16 * 127 + k / 16 } else none), none, none)
  else if op = 0x11 then
    let row := if isMerge ws then 4096 else packedBytes fa (tileK fa)
    (some { len := m * tPitch ws + row },
     (if fa.blocked then some { len := m * fieldOf ws 5 23 0 + 16 } else none), none, none)
  else if op = 0x12 then
    (some { len := m * tPitch ws + packedBytes fa (fieldOf ws 5 47 40) }, none, none, none)
  else if op = 0x13 then
    let last := tBase ws + m
    (some { len := last * tPitch ws + packedBytes fo 128, write := true },
     (if fo.blocked then some { len := 8 * (last + 1), write := true } else none), none, none)
  else if op = 0x30 then
    (some { len := packedBytes fo (vRowLen ws), write := true }, some { len := packedBytes fa n },
     some { len := 4 * vRowLen ws, write := true }, none)
  else if op = 0x31 then
    (some { len := 64 * n, write := true }, some { len := 0 }, some { len := 4 * n }, none)
  else if op = 0x32 then
    (some { len := 0, write := true }, some { len := 64 * n }, some { len := 4 * n }, none)
  else if op = 0x2C then (some { len := 4 * n, write := true }, none, none, none)
  else if op = 0x27 then
    (some { len := packedBytes fo n, write := true }, some { len := packedBytes fa n },
     (if fa.blocked then some { len := n / 16 } else none),
     (if fo.blocked then some { len := n / 16, write := true } else none))
  else if op = 0x2B then
    (some { len := packedBytes fo n, write := true }, some { len := packedBytes fa n },
     some { len := packedBytes fb (vRowLen ws), imm := true },
     (if vSubop ws = 1 then some { len := packedBytes fb (vRowLen ws), imm := true } else none))
  else if 0x20 ≤ op ∧ op ≤ 0x2A then
    let nout := if op = 0x29 then (n + 255) / 256 else n
    let useB : Option Use := if vUsesB op then some { len := packedBytes fb n, imm := true } else none
    let useC : Option Use :=
      if op = 0x22 then some { len := packedBytes fb n, imm := true }
      else if op = 0x26 then some { len := packedBytes (fmtOr (vselectFmt ws)) n, imm := true }
      else none
    (some { len := packedBytes fo nout, write := true }, some { len := packedBytes fa n }, useB, useC)
  else if op = 0x40 then
    let b := fieldOf ws 6 25 0
    (some { len := b, write := true }, some { len := b }, none, none)
  else if op = 0x41 then
    let b := fieldOf ws 6 25 0
    let push := decide (fieldOf ws 4 8 8 = 1)
    (some { len := b, write := !push }, some { len := b, write := push }, none, none)
  else if op = 0x42 then
    (some { len := fieldOf ws 5 31 0, write := decide (fieldOf ws 5 32 32 = 0) }, none, none, none)
  else if op = 0x60 then
    let fmt := fmtOr (hFmtA ws)
    (some { len := packedBytes fmt (fieldOf ws 5 31 0) }, some { len := 0, write := true }, none, none)
  else (none, none, none, none)

/-- Words 2 to 5 hold locators only up to the count the opcode's table gives. -/
def locatorWords (op : Nat) : Nat :=
  if op = 0x10 ∨ op = 0x11 ∨ op = 0x12 ∨ op = 0x13 then 2
  else if 0x20 ≤ op ∧ op ≤ 0x32 then 4
  else if op = 0x40 ∨ op = 0x41 ∨ op = 0x60 then 2
  else if op = 0x42 then 1
  else 0

/-- The four resolved operands of a descriptor (R199). -/
def resolveAll (f : Frame) (ws : List Word) : Except Nat (Loc × Loc × Loc × Loc) := do
  let u := usesOf ws
  let n := locatorWords (hOpcode ws)
  let a ← if 0 < n then operand f (wordAt ws 2) u.1 else .ok .none
  let b ← if 1 < n then operand f (wordAt ws 3) u.2.1 else .ok .none
  let c ← if 2 < n then operand f (wordAt ws 4) u.2.2.1 else .ok .none
  let d ← if 3 < n then operand f (wordAt ws 5) u.2.2.2 else .ok .none
  .ok (a, b, c, d)

/-- The loop selectors a descriptor uses beside its locators: WAIT_LOOP whether or not the wait is enabled (R204), IDX_LOOP,
FAR_LOOP. -/
def loopSelsOf (ws : List Word) : List Nat :=
  let op := hOpcode ws
  [hWaitLoop ws] ++
  (if op = 0x13 then [fieldOf ws 5 63 61] else []) ++
  (if 0x20 ≤ op ∧ op ≤ 0x32 then [vIdxLoop ws] else []) ++
  (if op = 0x42 then [fieldOf ws 4 50 48] else [])

/-- The resolved wait of a descriptor (R189). -/
def waitOf (f : Frame) (ws : List Word) : Option (Sel × Nat) :=
  (selOf (hWait ws)).map fun s => (s, hWaitBase ws + hWaitStep ws * (loopIndex f.loops (hWaitLoop ws)).getD 0)

/-- The tallies a descriptor names: WAIT, SIGNAL and the body of a control descriptor (R190). -/
def selsOf (ws : List Word) : List Sel :=
  let op := hOpcode ws
  (selOf (hWait ws)).toList ++ (selOf (hSignal ws)).toList ++
  (if op = 0x51 ∨ op = 0x5A then (selOf (fieldOf ws 2 15 0)).toList else []) ++
  (if op = 0x58 ∧ fieldOf ws 2 16 16 = 1 then (selOf (fieldOf ws 2 47 32)).toList else [])

/-- Does a hub tally lie in a grant (R190)? -/
def inGrant (base count n : Nat) : Bool := decide (base ≤ n) && decide (n < base + count)

/-- Does the wait condition hold for a tally's value (R189)? -/
def waitHolds (hub : Bool) (value threshold : Nat) : Bool :=
  if hub then decide ((value % 2 ^ 24 + 2 ^ 24 - threshold % 2 ^ 24) % 2 ^ 24 < 2 ^ 23) else decide (threshold ≤ value)

end Sys2Proof.Machine
end

