-- ==== Sys2Proof/Machine/Code.lean ====
section
/-! DEFINITION. The 288/256 code, the metadata check and the 80-byte image of a tier line (R393 to R396). The state holds
the contents of a line and how many symbols of each code word are in error; these functions give the stored form. -/

namespace Sys2Proof.Machine

/-- A product in GF(2⁸) with x⁸ + x⁴ + x³ + x² + 1, over the `n` low bits of `b` (R393). -/
def gfMulFrom : Nat → Nat → Nat → Nat
  | 0, _, _ => 0
  | n + 1, a, b =>
    let a2 := if a < 128 then 2 * a else (2 * a - 256) ^^^ 0x1D
    (if b % 2 = 1 then a else 0) ^^^ gfMulFrom n a2 (b / 2)

def gfMul (a b : Nat) : Nat := gfMulFrom 8 a b

/-- The product of polynomials' coefficients by a linear factor x − r, highest power first. -/
def gfTimes (r : Nat) (p : List Nat) : List Nat :=
  (List.zipWith (· ^^^ ·) (p ++ [0]) (0 :: p.map (gfMul r)))

/-- The generator polynomials with roots α⁰ … (R393, R396), highest power first. -/
def genCode : List Nat := gfTimes 8 (gfTimes 4 (gfTimes 2 (gfTimes 1 [1])))
def genMeta : List Nat := gfTimes 2 (gfTimes 1 [1])

/-- The remainder of D(x) · x^n divided by a monic generator of degree n, the data given highest power first. -/
def gfRemainder (g : List Nat) (data : List Nat) : List Nat :=
  let n := g.length - 1
  data.foldl (fun r d =>
    let q := d ^^^ r.headD 0
    List.zipWith (· ^^^ ·) (r.tail ++ [0]) (g.tail.map (gfMul q))) (List.replicate n 0)

/-- The four check bytes of a 32-byte code word (R393). -/
def codeChecks (data : Bytes) : Bytes := (gfRemainder genCode (data.map (·.toNat))).map (BitVec.ofNat 8)

/-- The metadata word without MCHK (R395). -/
def metaBase (l : TLine) : Nat :=
  l.tag % 65536 * 2 ^ 48 + l.kgen % 4096 * 2 ^ 36 + bit l.enc * 2 ^ 35 + bit l.poison * 2 ^ 34

/-- MCHK over bits 41:6 of the physical location and metadata bytes 2 to 7 (R396). -/
def metaCheck (location : Nat) (l : TLine) : Nat :=
  let addr := bytesOfNat 5 (location / 64)
  let md := (bytesOfNat 8 (metaBase l)).drop 2
  match gfRemainder genMeta ((addr ++ md).map (·.toNat)) with
  | [a, b] => 256 * a + b
  | _ => 0

/-- The stored metadata word of a line at a physical location (R395). -/
def lineMeta (location : Nat) (l : TLine) : Bytes := bytesOfNat 8 (metaBase l + metaCheck location l)

/-- The 80 stored bytes of a line at a physical location (R394, R395). -/
def lineImage (location : Nat) (l : TLine) : Bytes :=
  l.data ++ codeChecks (l.data.take 32) ++ codeChecks (l.data.drop 32) ++ lineMeta location l

/-- The two data flits of a line: each code word with its check bytes (R378, R393). -/
def lineFlits (l : TLine) : List Bytes :=
  [l.data.take 32 ++ codeChecks (l.data.take 32), l.data.drop 32 ++ codeChecks (l.data.drop 32)]

/-- The control flits of a group of `n` lines: a 16-byte header and 8 metadata bytes a line (R378). -/
def groupControlFlits (n : Nat) : Nat := (16 + 8 * n + 31) / 32

end Sys2Proof.Machine
end

