-- ==== Sys2Proof/Machine/Crypto.lean ====
section
/-! DEFINITION. The cryptographic functions that the chapters name by their standards: SHAKE256 (FIPS 202), AES-256 (FIPS
197) with the XTS mode of memory lines and the key wrap of RFC 3394. Words and blocks are natural numbers. -/

namespace Sys2Proof.Machine

/-! ## SHAKE256

The 25 lanes of Keccak are one number with lane x + 5y at bits 64(x + 5y)+63:64(x + 5y), so that a step is a few operations on
numbers. -/

/-- The 64-bit lane `i`, rotated left by `n`. -/
def laneRot (a i n : Nat) : Nat := (a >>> (64 * i) % 2 ^ 64 * 2 ^ n) % 2 ^ 64 ||| a >>> (64 * i) % 2 ^ 64 / 2 ^ (64 - n)

/-- `v` in each lane of a row. -/
def fiveLanes (v : Nat) : Nat := v * (1 + 2 ^ 64 + 2 ^ 128 + 2 ^ 192 + 2 ^ 256)

/-- `v` in each row. -/
def fiveRows (v : Nat) : Nat := v * (1 + 2 ^ 320 + 2 ^ 640 + 2 ^ 960 + 2 ^ 1280)

/-- The round constants of Keccak-f[1600]. -/
def keccakRC : List Nat :=
  [0x0000000000000001, 0x0000000000008082, 0x800000000000808A, 0x8000000080008000, 0x000000000000808B,
   0x0000000080000001, 0x8000000080008081, 0x8000000000008009, 0x000000000000008A, 0x0000000000000088,
   0x0000000080008009, 0x000000008000000A] ++
  [0x000000008000808B, 0x800000000000008B, 0x8000000000008089, 0x8000000000008003, 0x8000000000008002,
   0x8000000000000080, 0x000000000000800A, 0x800000008000000A, 0x8000000080008081, 0x8000000000008080,
   0x0000000080000001, 0x8000000080008008]

/-- For each lane of the ρ and π steps, the lane it comes from and its rotation. -/
def keccakMoves : List (Nat × Nat) :=
  [(0, 0), (6, 44), (12, 43), (18, 21), (24, 14), (3, 28), (9, 20), (10, 3), (16, 45), (22, 61), (1, 1), (7, 6), (13, 25),
   (19, 8), (20, 18), (4, 27), (5, 36), (11, 10), (17, 15), (23, 56), (2, 62), (8, 55), (14, 39), (15, 41), (21, 2)]

/-- The θ step: each column's parity, with that of the column before and the rotated one of the column after. -/
def keccakTheta (a : Nat) : Nat :=
  let c := (a ^^^ a >>> 320 ^^^ a >>> 640 ^^^ a >>> 960 ^^^ a >>> 1280) % 2 ^ 320
  let before := c * 2 ^ 64 % 2 ^ 320 ||| c >>> 256
  let after := c >>> 64 ||| c % 2 ^ 64 * 2 ^ 256
  let turned := (after &&& fiveLanes (2 ^ 63 - 1)) * 2 ||| (after >>> 63 &&& fiveLanes 1)
  a ^^^ fiveRows (before ^^^ turned)

/-- The lanes moved one place along their row: lane x becomes lane x + 1. -/
def rowShift (a : Nat) : Nat := (a >>> 64 &&& fiveRows (2 ^ 256 - 1)) ||| (a &&& fiveRows (2 ^ 64 - 1)) * 2 ^ 256

/-- The χ step. -/
def keccakChi (b : Nat) : Nat := b ^^^ ((rowShift b ^^^ (2 ^ 1600 - 1)) &&& rowShift (rowShift b))

/-- One round. -/
def keccakRound (a rc : Nat) : Nat :=
  keccakChi (keccakMoves.foldr (fun m n => n * 2 ^ 64 + laneRot (keccakTheta a) m.1 m.2) 0) ^^^ rc

/-- Keccak-f[1600]. -/
def keccakF (a : Nat) : Nat := keccakRC.foldl keccakRound a

/-- One 136-byte block absorbed. -/
def absorb (a : Nat) (blk : Bytes) : Nat := keccakF (a ^^^ blk.foldr (fun b n => n * 256 + b.toNat) 0)

/-- The padded message in blocks of 136 bytes, with fuel. -/
def shakeBlocks : Nat → Bytes → List Bytes
  | 0, _ => []
  | n + 1, bs =>
    if 136 ≤ bs.length then bs.take 136 :: shakeBlocks n (bs.drop 136)
    else
      let z := 135 - bs.length
      if z = 0 then [bs ++ [0x9F#8]]
      else [bs ++ [0x1F#8] ++ List.replicate (z - 1) 0#8 ++ [0x80#8]]

/-- Squeezed output blocks, with fuel. -/
def squeeze : Nat → Nat → Bytes
  | 0, _ => []
  | n + 1, a => (List.range 136).map (fun i => BitVec.ofNat 8 (a >>> (8 * i))) ++ (if n = 0 then [] else squeeze n (keccakF a))

/-- SHAKE256 of a message, `n` bytes of output. -/
def shake256 (m : Bytes) (n : Nat) : Bytes :=
  (squeeze (n / 136 + 1) ((shakeBlocks (m.length / 136 + 1) m).foldl absorb 0)).take n

/-! ## AES-256

A block is one number with byte `i` at bits 8i+7:8i, column after column, so that a round is a few operations on numbers. -/

/-- The S-box and its inverse, entry `b` at bits 8b+7:8b. -/
def sboxTable : Nat :=
  0x16bb54b00f2d99416842e6bf0d89a18cdf2855cee9871e9b948ed9691198f8e19e1dc186b95735610ef6034866b53e708a8bbd4b1f74dde8c6b4a61c2e2578ba08ae7a65eaf4566ca94ed58d6d37c8e779e4959162acd3c25c2406490a3a32e0db0b5ede14b8ee4688902a22dc4f816073195d643d7ea7c41744975fec130ccdd2f3ff1021dab6bcf5389d928f40a351a89f3c507f02f94585334d43fbaaefd0cf584c4a39becb6a5bb1fc20ed00d153842fe329b3d63b52a05a6e1b1a2c830975b227ebe28012079a059618c323c7041531d871f1e5a534ccf73f362693fdb7c072a49cafa2d4adf04759fa7dc982ca76abd7fe2b670130c56f6bf27b777c63

def invSboxTable : Nat :=
  0x7d0c2155631469e126d677ba7e042b17619953833cbbebc8b0f52aae4d3be0a0ef9cc9939f7ae52d0d4ab519a97f51605fec8027591012b131c7078833a8dd1ff45acd78fec0db9a2079d2c64b3e56fc1bbe18aa0e62b76f89c5291d711af1476edf751ce837f9e28535ade72274ac9673e6b4f0cecff297eadc674f4111913a6b8a130103bdafc1020f3fca8f1e2cd00645b3b80558e4f70ad3bc8c00abd890849d8da75746155edab9edfd5048706c92b6655dcc5ca4d41698688664f6f87225d18b6d49a25b76b224d92866a12e084ec3fa420b954cee3d23c2a632947b54cbe9dec444438e3487ff2f9b8239e37cfbd7f3819ea340bf38a53630d56a0952

/-- The listed bytes of `x`, each looked up in a table. -/
def lookBytes (table x : Nat) (places : List Nat) : Nat :=
  places.foldr (fun i n => n * 256 + table >>> (8 * (x >>> (8 * i) % 256)) % 256) 0

/-- The sixteen bytes times x in GF(2^8). -/
def mulX (x : Nat) : Nat :=
  (x &&& 0x7F7F7F7F7F7F7F7F7F7F7F7F7F7F7F7F) * 2 ^^^ (x >>> 7 &&& 0x01010101010101010101010101010101) * 0x1B

/-- Each column with its bytes moved up by one row, and by two. -/
def upOne (x : Nat) : Nat :=
  (x >>> 8 &&& 0x00FFFFFF00FFFFFF00FFFFFF00FFFFFF) ||| (x &&& 0x000000FF000000FF000000FF000000FF) <<< 24
def upTwo (x : Nat) : Nat :=
  (x >>> 16 &&& 0x0000FFFF0000FFFF0000FFFF0000FFFF) ||| (x &&& 0x0000FFFF0000FFFF0000FFFF0000FFFF) <<< 16

/-- MixColumns: row r becomes 2 times row r, 3 times row r+1 and rows r+2 and r+3; its inverse is the same after one more step. -/
def mixColumns (x : Nat) : Nat := mulX (x ^^^ upOne x) ^^^ upOne (x ^^^ upTwo x) ^^^ upTwo x
def invMixColumns (x : Nat) : Nat := mixColumns (x ^^^ mulX (mulX (x ^^^ upTwo x)))

/-- The bytes that ShiftRows and its inverse bring to each place. -/
def rowPlaces : List Nat := [0, 5, 10, 15, 4, 9, 14, 3, 8, 13, 2, 7, 12, 1, 6, 11]
def invRowPlaces : List Nat := [0, 13, 10, 7, 4, 1, 14, 11, 8, 5, 2, 15, 12, 9, 6, 3]

/-- The expanded key of AES-256: sixty 32-bit words, `n` of them still to come. -/
def aesExpand : Nat → Nat → Nat → List Nat → List Nat
  | 0, _, _, ws => ws
  | n + 1, i, rcon, ws =>
    let prev := ws.getD (i - 1) 0
    let t :=
      if i % 8 = 0 then lookBytes sboxTable prev [1, 2, 3, 0] ^^^ rcon
      else if i % 8 = 4 then lookBytes sboxTable prev [0, 1, 2, 3]
      else prev
    aesExpand n (i + 1) (if i % 8 = 0 then 2 * rcon else rcon) (ws ++ [ws.getD (i - 8) 0 ^^^ t])

/-- The number that bytes spell, the first lowest, and its first `n` bytes. -/
def packBytes (l : List Nat) : Nat := l.foldr (fun b n => n * 256 + b) 0
def unpackBytes (n x : Nat) : List Nat := (List.range n).map fun i => x >>> (8 * i) % 256

/-- The fifteen round keys, each as a block. -/
def aesKeys (key : List Nat) : List Nat :=
  let ws := aesExpand 52 8 1 ((List.range 8).map fun i => packBytes ((key.drop (4 * i)).take 4))
  (List.range 15).map fun r => ((ws.drop (4 * r)).take 4).foldr (fun w n => n * 2 ^ 32 + w) 0

def xorBytes (a b : List Nat) : List Nat := (a.zip b).map fun p => p.1 ^^^ p.2

/-- One block encrypted. -/
def aesEncrypt (key blk : List Nat) : List Nat :=
  match aesKeys key with
  | [] => []
  | k0 :: ks =>
    let s := (ks.take 13).foldl (fun s k => mixColumns (lookBytes sboxTable s rowPlaces) ^^^ k) (packBytes blk ^^^ k0)
    unpackBytes 16 (lookBytes sboxTable s rowPlaces ^^^ ks.getD 13 0)

/-- One block decrypted. -/
def aesDecrypt (key blk : List Nat) : List Nat :=
  match (aesKeys key).reverse with
  | [] => []
  | kf :: ks =>
    let s := (ks.take 13).foldl (fun s k => invMixColumns (lookBytes invSboxTable s invRowPlaces ^^^ k)) (packBytes blk ^^^ kf)
    unpackBytes 16 (lookBytes invSboxTable s invRowPlaces ^^^ ks.getD 13 0)

/-- The XTS tweak times x: the 16 bytes as a little-endian polynomial. -/
def xtsDouble (t : List Nat) : List Nat :=
  let n := t.reverse.foldl (fun a b => a * 256 + b) 0
  let d := if n < 2 ^ 127 then 2 * n else ((2 * n) % 2 ^ 128) ^^^ 0x87
  (List.range 16).map fun i => d / 256 ^ i % 256

/-- XTS over whole 16-byte blocks, with fuel: `f` is the block cipher under the data key. -/
def xtsRun (f : List Nat → List Nat) : Nat → List Nat → List Nat → List Nat
  | 0, _, _ => []
  | n + 1, t, l =>
    if l.isEmpty then []
    else xorBytes (f (xorBytes (l.take 16) t)) t ++ xtsRun f n (xtsDouble t) (l.drop 16)

def natsOf (b : Bytes) : List Nat := b.map (·.toNat)
def bytesOf (l : List Nat) : Bytes := l.map (BitVec.ofNat 8)

/-- AES-256-XTS: data key, tweak key, the 16 tweak bytes, and whole blocks. -/
def xtsEncrypt (k1 k2 tweak data : Bytes) : Bytes :=
  bytesOf (xtsRun (aesEncrypt (natsOf k1)) (data.length / 16) (aesEncrypt (natsOf k2) (natsOf tweak)) (natsOf data))

def xtsDecrypt (k1 k2 tweak data : Bytes) : Bytes :=
  bytesOf (xtsRun (aesDecrypt (natsOf k1)) (data.length / 16) (aesEncrypt (natsOf k2) (natsOf tweak)) (natsOf data))

/-! ## Key unwrap (RFC 3394) -/

/-- The 64-bit big-endian bytes of a counter. -/
def be64 (n : Nat) : List Nat := (List.range 8).map fun i => n / 256 ^ (7 - i) % 256

/-- One step of the unwrap at position `i` of `n` blocks with counter `t`. -/
def unwrapStep (key : List Nat) (t i : Nat) (s : List Nat × List (List Nat)) : List Nat × List (List Nat) :=
  let b := aesDecrypt key (xorBytes s.1 (be64 t) ++ s.2.getD i [])
  (b.take 8, s.2.set i (b.drop 8))

/-- A byte list cut in runs of eight, with fuel. -/
def octets : Nat → List Nat → List (List Nat)
  | 0, _ => []
  | n + 1, l => l.take 8 :: octets n (l.drop 8)

/-- AES-256 key unwrap with the given initial value checked: none if the check fails. -/
def keyUnwrap (key wrapped : Bytes) (iv : List Nat) : Option Bytes :=
  let w := natsOf wrapped
  let n := w.length / 8 - 1
  let s0 := (w.take 8, octets n (w.drop 8))
  let order := ((List.range 6).reverse).flatMap fun j => ((List.range n).reverse).map fun i => (j, i)
  let s := order.foldl (fun s p => unwrapStep (natsOf key) (n * p.1 + p.2 + 1) p.2 s) s0
  if s.1 = iv then some (bytesOf s.2.flatten) else none

end Sys2Proof.Machine
end

