-- ==== Sys2Proof/Machine/Ops.lean ====
section
/-! DEFINITION. The named operations that the meanings share: registers and their fields, time, free values, what the part
sends out, the change log and the event ring, MSI-X, the context slots and tallies, and the on-chip memories. -/

namespace Sys2Proof.Machine

/-! ## Registers -/

/-- The value of a field in a register's value, and the value with the field replaced. -/
def fieldGet (v : Word) (hi lo : Nat) : Nat := bitsOf v hi lo

def fieldMask (hi lo : Nat) : Word := BitVec.ofNat 64 (maskBits hi lo)

def fieldPut (v : Word) (hi lo n : Nat) : Word :=
  (v &&& ~~~ (fieldMask hi lo)) ||| BitVec.ofNat 64 (n % 2 ^ (hi + 1 - lo) * 2 ^ lo)

/-- The register at control-window offset `a`. -/
def State.reg (s : State) (a : Nat) : Word := mget regDefault s.regs a

def State.setReg (s : State) (a : Nat) (v : Word) : State := { s with regs := mset regDefault s.regs a v }

/-- A field of the register map. -/
def State.fld (s : State) (f : Fld) : Nat := fieldGet (s.reg f.reg) f.hi f.lo

def State.setFld (s : State) (f : Fld) (n : Nat) : State := s.setReg f.reg (fieldPut (s.reg f.reg) f.hi f.lo n)

/-- A counter that stops at the largest value of its field. -/
def State.addSat (s : State) (f : Fld) (n : Nat) : State := s.setFld f (min (s.fld f + n) (2 ^ (f.hi + 1 - f.lo) - 1))

/-- A counter that wraps in its field. -/
def State.addWrap (s : State) (f : Fld) (n : Nat) : State := s.setFld f (s.fld f + n)

/-! ## Time, free values, output -/

/-- Nanoseconds since event 2 of R608, for the timers (R687, R802). -/
def State.now (s : State) : Nat := s.clock.ticks

/-- The step clock (R802). -/
def State.stepClock (s : State) : Word := s.clock.step

/-- The step clock as a count of nanoseconds, on which the windows of escalation are measured (R706). -/
def State.stepNow (s : State) : Nat := s.clock.step.toNat

/-- Wall time (R814, R815). -/
def State.wall (s : State) : Word :=
  if s.clock.epochSet then s.reg F.TIM_WALL_SET_WALL_NS.reg + (s.clock.step - s.reg F.TIM_EPOCH_STEP_STEP.reg) else 0

/-- A free value and the state that has drawn it (log entry 2). -/
def State.free (s : State) : Word := Config.freeValue s.freeCtr

def State.drawn (s : State) : State := { s with freeCtr := s.freeCtr + 1 }

/-- Something sent out or shown. -/
def State.emit (s : State) (e : Emit) : State := { s with out := e :: s.out }

/-! ## Arbiters and resets -/

/-- The arbiters of a reset domain back at their order after a reset (R265). -/
def State.resetArbs (s : State) (f : ArbId → Bool) : State := { s with arbs := s.arbs.filter fun x => !f x.id }

/-- The arbiters of a physical cluster, of a port, of a lane. -/
def ArbId.ofCluster (p : Nat) : ArbId → Bool
  | .slice q _ => decide (q = p)
  | .padEngine q _ => decide (q = p)
  | .padBarrow q _ => decide (q = p)
  | _ => false

def ArbId.ofPort (p : Nat) : ArbId → Bool
  | .plane q _ => decide (q = p)
  | .slot q => decide (q = p)
  | _ => false

def ArbId.ofLane (k : Nat) : ArbId → Bool
  | .memLane j => decide (j = k)
  | _ => false

def ArbId.ofHub : ArbId → Bool
  | .plane _ _ => true
  | .slot _ => true
  | .memLane _ => true
  | _ => false

/-! ## Device, power and life-cycle states (R52, R53, R62) -/

def dsSeedbed : Nat := 1
def dsBoot : Nat := 2
def dsConfiguring : Nat := 3
def dsHeld : Nat := 4
def dsReady : Nat := 5
def dsServing : Nat := 6
def dsDraining : Nat := 7
def dsHarvest : Nat := 8
def dsResetting : Nat := 9
def dsSafe : Nat := 10
def dsFallow : Nat := 11

def psFull : Nat := 0
def psTrim : Nat := 1
def psMulch : Nat := 2
def psQuiet : Nat := 3
def psDark : Nat := 4

def State.devState (s : State) : Nat := s.fld F.GLB_STATE_DEVICE_STATE
def State.powState (s : State) : Nat := s.fld F.GLB_STATE_POWER_STATE
def State.lifecycle (s : State) : Nat := s.fld F.GLB_STATE_LIFECYCLE

/-- READY, SERVING or DRAINING: the states in which R66 applies settings and R342 takes. -/
def State.inService (s : State) : Bool :=
  !s.off && (decide (s.devState = dsReady) || decide (s.devState = dsServing) || decide (s.devState = dsDraining))

/-! ## The change log (R836 to R841) -/

def orHost : Nat := 1
def orMgmt : Nat := 2
def orRack : Nat := 3
def orFwA : Nat := 4
def orFwB : Nat := 5
def orHw : Nat := 6

/-- The origin of a writer (R837). -/
def originOf : Agent → Nat
  | .host => orHost
  | .ctlA => orFwA
  | .ctlB => orFwB

/-- A value held directly, zero-extended to 12 bytes (R838). -/
def logValue (n : Nat) : Bytes := bytesOfNat 12 n

/-- A value as digest: the first 12 bytes of SHAKE256 (R838). -/
def logDigest (b : Bytes) : Bytes := shake256 b 12

/-- A change that writes an entry: queued, or lost when 1,024 wait (R840, R841). -/
def State.logChange (s : State) (origin cls object : Nat) (old new : Bytes) : State :=
  if 1024 ≤ s.log.queue.length then
    ({ s with log := { s.log with lost := s.log.lost + 1 } } : State).addSat F.LOG_STATUS_LOST 1
  else
    { s with log := { s.log with queue := s.log.queue ++
        [{ time := s.stepClock, wall := s.wall, origin := origin, cls := cls, object := object, old := old, new := new }] } }

/-- A change of GLB_STATE.DEVICE_STATE with its log entry (R838 class 0x04). -/
def State.setDev (s : State) (origin n : Nat) : State :=
  if s.devState = n then s
  else (s.setFld F.GLB_STATE_DEVICE_STATE n).logChange origin 0x04 n (logValue s.devState) (logValue n)

/-- The step mark, kept in COL_MARK when FULL and TRIM are left (R521). -/
def State.holdMark (s : State) (n : Nat) : State :=
  if s.powState ≤ psTrim ∧ psTrim < n then
    s.setFld F.COL_MARK_MARK (s.stepClock.toNat / 2 ^ (s.fld F.COL_CFG_MARK_SHIFT) % 2 ^ 32)
  else s

/-- Outside MULCH there is no heater target and no MULCH_LOW (R663 to R665). -/
def State.endMulch (s : State) : State :=
  ({ s with gov := { s.gov with heat := 0, cold := none, short := false } } : State).setFld F.PWR_STATUS_MULCH_LOW 0

/-- A change of GLB_STATE.POWER_STATE with its log entry (R838 class 0x05). -/
def State.setPow (s : State) (origin n : Nat) : State :=
  if s.powState = n then s
  else (((s.holdMark n).endMulch).setFld F.GLB_STATE_POWER_STATE n).logChange origin 0x05 n (logValue s.powState) (logValue n)

/-! ## The host port (R545, R546, R557 to R564) -/

/-- The configuration header and capabilities at their PCIe defaults, by dword offset (R545, R546; log entry 8). -/
def cfgDefault (o : Nat) : BitVec 32 :=
  if o = 0x00 then 0x00091F7C
  else if o = 0x04 then 0x00100000
  else if o = 0x08 then 0x12000010
  else if o = 0x10 ∨ o = 0x18 then 0x00000004
  else if o = 0x20 then 0x0000000C
  else if o = 0x2C then 0x01011F7C
  else if o = 0x34 then 0x00000040
  else if o = 0x40 then 0x00035001
  else if o = 0x44 then 0x00000008
  else if o = 0x50 then 0x00029010
  else if o = 0x54 then 0x10000022
  else if o = 0x58 then 0x00002810
  else if o = 0x5C then 0x00000105
  else if o = 0x74 then 0x0003001F
  else if o = 0x7C then 0x0000003E
  else if o = 0x90 then 0x07FF0011
  else if o = 0x94 then 0x00E10000
  else if o = 0x98 then 0x00E18000
  else if o = 0x100 then 0x14820001
  else if o = 0x118 then 0x000000A0
  else if o = 0x148 then 0x15810003
  else if o = 0x158 then 0x18810019
  else if 0x164 ≤ o ∧ o < 0x184 then 0x7F007F00
  else if o = 0x188 then 0x1B810026
  else if 0x1A8 ≤ o ∧ o < 0x1B8 then 0xF0F0F0F0
  else if o = 0x1B8 then 0x20010027
  else if 0x1C0 ≤ o ∧ o < 0x200 then 0x00009C38
  else if o = 0x200 then 0x0001002A
  else if o = 0x204 then 0x00000100
  else if 0x220 ≤ o ∧ o < 0x230 then 0xF0F0F0F0
  else 0

def State.cfg (s : State) (o : Nat) : BitVec 32 := mget cfgDefault s.host.cfg o

def State.setCfg (s : State) (o : Nat) (v : BitVec 32) : State :=
  { s with host := { s.host with cfg := mset cfgDefault s.host.cfg o v } }

/-- An uncorrectable error in the AER status. The first unmasked one leaves its bit number in the First Error Pointer and, but for a
completion timeout, the header of its TLP in the Header Log: no command carries that header, and its words are free values (R552, R559;
log entry 8). -/
def State.aer (s : State) (b : Nat) : State :=
  let s1 := s.setCfg 0x104 (s.cfg 0x104 ||| BitVec.ofNat 32 (2 ^ b))
  if (s.cfg 0x108).getLsbD b = true ∨ s.cfg 0x104 &&& ~~~s.cfg 0x108 ≠ 0 then s1
  else
    let s2 := s1.setCfg 0x118 ((s1.cfg 0x118 &&& 0xFFFFFFE0) ||| BitVec.ofNat 32 (b % 32))
    if b = 14 then s2
    else (List.range 4).foldl (fun (s : State) i => (s.setCfg (0x11C + 4 * i) ((Config.freeValue s.freeCtr).truncate 32)).drawn) s2

/-- Bits of the configuration space (PCI Express Base Specification). -/
def State.memSpace (s : State) : Bool := (s.cfg 0x04).getLsbD 1
def State.busMaster (s : State) : Bool := (s.cfg 0x04).getLsbD 2
def State.d3hot (s : State) : Bool := (s.cfg 0x44).getLsbD 0 && (s.cfg 0x44).getLsbD 1
def State.msixEnabled (s : State) : Bool := (s.cfg 0x90).getLsbD 31
def State.msixMasked (s : State) : Bool := (s.cfg 0x90).getLsbD 30
def State.maxPayload (s : State) : Nat := min 512 (128 * 2 ^ ((s.cfg 0x58).toNat / 32 % 8))
def State.maxRead (s : State) : Nat := min 4096 (128 * 2 ^ ((s.cfg 0x58).toNat / 4096 % 8))
def State.relaxedOk (s : State) : Bool := (s.cfg 0x58).getLsbD 4
def State.tenBitTags (s : State) : Bool := (s.cfg 0x78).getLsbD 12

/-- Is host traffic stopped (R560)? -/
def State.hostStopped (s : State) : Bool :=
  !s.busMaster || s.d3hot || decide (s.fld F.HST_LINK_STATUS_STATE ≠ 2) || s.off

/-- HST_LINK_STATUS.STOPPED brought up to date (R560, R578). -/
def State.showStopped (s : State) : State := s.setFld F.HST_LINK_STATUS_STOPPED (bit s.hostStopped)

/-- A posted write TLP toward the host, awaiting its acknowledgement (R557, R558). -/
def State.postWrite (s : State) (addr : Nat) (data : Bytes) (ro : Bool) (k : TlpKind) : State :=
  let q := s.host.nextSeq
  ({ s with host := { s.host with
      nextSeq := q + 1,
      unacked := s.host.unacked ++ [{ seq := q, addr := addr, data := data, ro := ro, kind := k, sent := s.now }] } } : State)
    |>.emit (.hostWrite q addr data ro)

/-- The words of an MSI-X table entry, and whether the vector may send (R562, R564). -/
def msixAddr (v : Nat) : Nat := 0xE10000 + 16 * v
def msixData (v : Nat) : Nat := 0xE10008 + 16 * v
def pbaReg (v : Nat) : Nat := 0xE18000 + 8 * (v / 64)

def State.vectorOpen (s : State) (v : Nat) : Bool :=
  s.msixEnabled && !s.msixMasked && !(s.reg (msixData v)).getLsbD 32 && !s.hostStopped

/-- One message of a vector. -/
def State.sendVector (s : State) (v : Nat) : State :=
  s.emit (.msix v (s.reg (msixAddr v)) ((s.reg (msixData v)).truncate 32))

/-- A vector raised: one message, or its pending bit (R563, R564). -/
def State.raiseVector (s : State) (v : Nat) : State :=
  if s.vectorOpen v then s.sendVector v
  else s.setReg (pbaReg v) (s.reg (pbaReg v) ||| BitVec.ofNat 64 (2 ^ (v % 64)))

/-! ## Events (R737 to R739, R831) -/

def sevInfo : Nat := 0
def sevWarn : Nat := 1
def sevFault : Nat := 2
def sevCrit : Nat := 3

/-- The severity of an event code (R739, R791). -/
def severityOf (code : Nat) : Nat :=
  if code = 0x18 ∨ code = 0x1A ∨ code = 0x21 ∨ code = 0x26 ∨ code = 0x28 ∨ code = 0x29
    ∨ code = 0x30 ∨ code = 0x33 ∨ code = 0x35 then sevInfo
  else if code = 0x05 ∨ code = 0x0E ∨ code = 0x0F ∨ code = 0x10 ∨ code = 0x12 ∨ code = 0x24 then sevCrit
  else if code = 0x03 ∨ code = 0x06 ∨ code = 0x07 ∨ code = 0x09 ∨ code = 0x0B ∨ code = 0x0C ∨ code = 0x0D ∨ code = 0x14
    ∨ code = 0x17 ∨ code = 0x1B ∨ code = 0x1C ∨ code = 0x1E ∨ code = 0x22 ∨ code = 0x27 ∨ code = 0x34 then sevFault
  else sevWarn

/-- The event ring entry a new event takes (R737, R753). -/
def eventTimeReg (i : Nat) : Nat := 0x901000 + 16 * i
def eventInfoReg (i : Nat) : Nat := 0x901008 + 16 * i

/-- The INFO word of an event (R753). -/
def eventInfo (code subject detail : Nat) : Word :=
  BitVec.ofNat 64 (code % 256 * 2 ^ 56 + severityOf code * 2 ^ 54 + subject % 65536 * 2 ^ 32 + detail % 2 ^ 32)

/-- An event recorded in the ring, its vector raised, and queued for polling from WARN up (R737, R738, R831). -/
def State.raiseEvent (s : State) (code subject detail : Nat) : State :=
  let i := s.fld F.RAS_EVENT_COUNT_TOTAL % 256
  let sev := severityOf code
  let s1 := (((s.setReg (eventTimeReg i) s.stepClock).setReg (eventInfoReg i) (eventInfo code subject detail)).addSat
    F.RAS_EVENT_COUNT_TOTAL 1)
  let s2 :=
    if sev = sevInfo then s1
    else { s1 with mgmt := { s1.mgmt with
      polled := (s1.mgmt.polled ++ [eventInfo code subject detail]).drop (s1.mgmt.polled.length + 1 - 64) } }
  if 2 ≤ sev then
    (if s2.fld F.RAS_EVENT_CFG_FAULT_EN = 1 then s2.raiseVector (s2.fld F.RAS_EVENT_CFG_VEC_FAULT) else s2)
  else if sev = sevWarn then
    (if s2.fld F.RAS_EVENT_CFG_WARN_EN = 1 then s2.raiseVector (s2.fld F.RAS_EVENT_CFG_VEC_WARN) else s2)
  else s2

/-! ## Context slots, windows, images, tallies (R308, R314, R324, R375) -/

/-- A field of a context slot: its word and bits (R308). -/
structure CtxField where
  word : Nat
  hi : Nat
  lo : Nat
deriving DecidableEq, Repr

def cfTenant : CtxField := ⟨0, 63, 48⟩
def cfGen : CtxField := ⟨0, 47, 36⟩
def cfImage : CtxField := ⟨0, 35, 32⟩
def cfCring : CtxField := ⟨0, 29, 24⟩
def cfClass : CtxField := ⟨0, 18, 16⟩
def cfState : CtxField := ⟨0, 3, 0⟩
def cfTallyCount : CtxField := ⟨1, 61, 48⟩
def cfTallyBase : CtxField := ⟨1, 45, 32⟩
def cfKeyEn : CtxField := ⟨1, 31, 31⟩
def cfWset : CtxField := ⟨1, 27, 16⟩
def cfKeySlot : CtxField := ⟨1, 15, 0⟩
def cfSeed : CtxField := ⟨2, 63, 0⟩
def cfMemberSteps : CtxField := ⟨3, 63, 32⟩
def cfCommitted : CtxField := ⟨3, 31, 0⟩
def cfRlen : CtxField := ⟨4, 63, 32⟩
def cfRbase : CtxField := ⟨4, 31, 0⟩
/-- Adapter entry `k` (R308 words 5 and 6). -/
def cfAdapter (k : Nat) : CtxField := ⟨5 + k / 2, 32 * (k % 2) + 31, 32 * (k % 2)⟩
def cfRank : CtxField := ⟨7, 21, 16⟩
def cfFailed : CtxField := ⟨8, 63, 32⟩
def cfReplays : CtxField := ⟨8, 31, 0⟩

def ctxFree : Nat := 0
def ctxOpen : Nat := 1
def ctxRunning : Nat := 2
def ctxClosing : Nat := 3

/-- Context 0 is never FREE (R309): its slot reads OPEN; every other slot is FREE with GEN 0 (R311). -/
def slotDefault (k : Nat) : Word := if k = 0 then 1 else 0

/-- Word `w` of the slot of context `c`, and a field of it. -/
def State.slotWord (s : State) (c w : Nat) : Word := mget slotDefault s.disp.slots (16 * c + w)

def State.setSlotWord (s : State) (c w : Nat) (v : Word) : State :=
  { s with disp := { s.disp with slots := mset slotDefault s.disp.slots (16 * c + w) v } }

def State.ctx (s : State) (c : Nat) (f : CtxField) : Nat := fieldGet (s.slotWord c f.word) f.hi f.lo

def State.setCtx (s : State) (c : Nat) (f : CtxField) (n : Nat) : State :=
  s.setSlotWord c f.word (fieldPut (s.slotWord c f.word) f.hi f.lo n)

/-- The contexts other than 0 whose slot lists a word: every context that is not FREE is among them. -/
def State.ctxsListed (s : State) : List Nat :=
  ((s.disp.slots.map fun e => e.1 / 16).filter fun c => decide (c ≠ 0)).eraseDups

/-- The contexts other than 0 that are not FREE. -/
def State.openCtxs (s : State) : List Nat := s.ctxsListed.filter fun c => decide (s.ctx c cfState ≠ ctxFree)

/-- Is a context OPEN or RUNNING? -/
def State.ctxUsable (s : State) (c : Nat) : Bool :=
  decide (s.ctx c cfState = ctxOpen) || decide (s.ctx c cfState = ctxRunning)

def zeroWord (_ : Nat) : Word := 0

/-- Word `k` of window `w` of set `n` (R314). Word 3 reads the set's tenant (R893). -/
def winKey (n w k : Nat) : Nat := (16 * n + w) * 4 + k

def State.setTenantOf (s : State) (n : Nat) : Nat := mget (fun _ => 0) s.disp.setTenant n

def State.winWord (s : State) (n w k : Nat) : Word :=
  if k = 3 then BitVec.ofNat 64 (s.setTenantOf n * 2 ^ 48) else mget zeroWord s.disp.windows (winKey n w k)

def State.winFld (s : State) (n w k hi lo : Nat) : Nat := fieldGet (s.winWord n w k) hi lo

/-- Word `8 + k` of the LOAD_IMAGE that last loaded image `i` (R325). -/
def State.imageWord (s : State) (i k : Nat) : Word := mget zeroWord s.disp.images (8 * i + k)

def imgEmpty : Nat := 0
def imgLoading : Nat := 1
def imgLoaded : Nat := 2

def State.imageState (s : State) (i : Nat) : Nat := s.fld (F.CTX_IMAGE_STATE.at i)

/-- The logical clusters an image assigns (R324). -/
def State.imageClusters (s : State) (i : Nat) : List Nat :=
  (List.range (s.fld (F.CTX_IMAGE_COUNT_LESS_ONE.at i) + 1)).map fun j => s.fld (F.CTX_IMAGE_FIRST.at i) + j

/-- The value of hub tally `n` (R375). -/
def State.tally (s : State) (n : Nat) : Word := s.reg (F.TLY_VALUE_VALUE.at n).reg

def State.setTally (s : State) (n : Nat) (v : Word) : State := s.setReg (F.TLY_VALUE_VALUE.at n).reg v

/-! ## Clusters and their memories -/

def cluDefault (_ : Nat) : Cluster := {}

def State.clu (s : State) (p : Nat) : Cluster := mget cluDefault s.clusters p

def State.setClu (s : State) (p : Nat) (c : Cluster) : State := { s with clusters := mset cluDefault s.clusters p c }

/-- A CLU field of physical cluster `p`. -/
def State.cfld (s : State) (p : Nat) (f : Fld) : Nat := s.fld (f.clu p)
def State.setCfld (s : State) (p : Nat) (f : Fld) (n : Nat) : State := s.setFld (f.clu p) n

/-- The sequencer states of R182. -/
def sqIdle : Nat := 0
def sqRunning : Nat := 1
def sqWaiting : Nat := 2
def sqCommitting : Nat := 3
def sqDiscarding : Nat := 4
def sqHalted : Nat := 5
def sqInReset : Nat := 6

def State.seqState (s : State) (p : Nat) : Nat := s.cfld p F.CLU_SEQ_STATUS_SEQ_STATE
def State.setSeq (s : State) (p n : Nat) : State := s.setCfld p F.CLU_SEQ_STATUS_SEQ_STATE n

/-- The physical cluster of logical cluster `l` in the remap table (R40, R752). -/
def State.physOf (s : State) (l : Nat) : Nat := s.fld (F.RAS_REMAP_PHYS.at l)

/-- The logical cluster whose place physical cluster `p` is in the remap table (R40, R752); none for a spare not in use. -/
def State.logicalAt (s : State) (p : Nat) : Option Nat := (List.range 256).find? fun l => decide (s.physOf l = p)

/-- The die and quadrant of a physical cluster, and its quadrant domain (R39, R52). -/
def dieOf (p : Nat) : Nat := p / 66
def quadOf (p : Nat) : Nat :=
  let i := p % 66
  if i ≤ 16 then 0 else if i ≤ 32 then 1 else if i ≤ 49 then 2 else 3
def quadDomain (p : Nat) : Nat := 14 + 4 * dieOf p + quadOf p

/-- The bank of a slice offset and of a pad offset (R255, R258). -/
def sliceBank (o : Nat) : Nat := (o / 64 % 64) ^^^ (o / 4096 % 64)
def padBank (o : Nat) : Nat := (o / 128 % 16) ^^^ (o / 2048 % 16)

def sliceKey (p o : Nat) : Nat := p * 0x2000000 + o
def padKey (p o : Nat) : Nat := p * 0x100000 + o

/-- What an unlisted slice byte reads as: zero (log entry 4). -/
def sliceDefault (_ : Nat) : Byte := 0

/-- What an unlisted pad byte reads as: zero, or a free byte once a reset has made the pad undefined (R292), until its bank has
been OFF (R287). -/
def State.padDefault (s : State) (k : Nat) : Byte :=
  let c := s.clu (k / 0x100000)
  let e := c.padEpoch
  if e = 0 ∨ padBank (k % 0x100000) ∈ c.padZero then 0 else Config.freeByte e k

def flawNone (_ : Nat) : Nat := 0

/-- The poison pattern of R279 as a count of symbols in error. -/
def poisonMark : Nat := 255

/-- The stored bytes of a range of the own slice or pad. -/
def State.localRead (s : State) (p : Nat) (slice : Bool) (o n : Nat) : Bytes :=
  if slice then mread sliceDefault s.slice (sliceKey p o) n else mread s.padDefault s.pad (padKey p o) n

/-- The code words that a range touches, by flaw key (R254, R258). -/
def flawBase (p : Nat) (slice : Bool) (o : Nat) : Nat := (if slice then sliceKey p o else padKey p o) / 32
def flawCount (o n : Nat) : Nat := if n = 0 then 0 else (o % 32 + n + 31) / 32

def State.flaws (s : State) (p : Nat) (slice : Bool) (o n : Nat) : List Nat :=
  mread flawNone (if slice then s.sliceFlaw else s.padFlaw) (flawBase p slice o) (flawCount o n)

/-- Flaws set over the code words of a range. -/
def State.setFlaws (s : State) (slice : Bool) (b : Nat) (v : List Nat) : State :=
  if slice then { s with sliceFlaw := mwrite flawNone s.sliceFlaw b v }
  else { s with padFlaw := mwrite flawNone s.padFlaw b v }

/-- Bytes written into the own slice or pad with valid code words (R260, R279). -/
def State.localWrite (s : State) (p : Nat) (slice : Bool) (o : Nat) (data : Bytes) : State :=
  let s1 : State :=
    if slice then { s with slice := mwrite sliceDefault s.slice (sliceKey p o) data }
    else { s with pad := mwrite s.padDefault s.pad (padKey p o) data }
  s1.setFlaws slice (flawBase p slice o) (List.replicate (flawCount o data.length) 0)

/-- The granule at `o` poisoned: both code words hold the check pattern (R279). -/
def State.poisonGranule (s : State) (p : Nat) (slice : Bool) (o : Nat) : State :=
  s.setFlaws slice (flawBase p slice (o / 64 * 64)) [poisonMark, poisonMark]

end Sys2Proof.Machine
end

