-- ==== Sys2Proof/Machine/Flags.lean ====
section
/-! DEFINITION. The numeric status of a cluster: provisional flags of the attempt, their merge at the commit, and the record
of residue mismatches (R114 to R131). -/

namespace Sys2Proof.Machine

/-- Flags and saturated elements raised by a descriptor of the attempt: provisional until STEP_END (R129). -/
def State.noteFlags (s : State) (p : Nat) (f : NumFlags) : State :=
  s.setClu p { s.clu p with flags := (s.clu p).flags ||| f.bits, sat := (s.clu p).sat + f.sat }

/-- The flag bits of CLU_NUMSTAT set (R131). -/
def State.numstatSet (s : State) (p bits : Nat) : State :=
  let a := F.CLU_NUMSTAT_SATURATED.clu p
  s.setReg a.reg (s.reg a.reg ||| BitVec.ofNat 64 (bits % 256))

/-- The provisional flags of a committed step entered in the cluster's numeric status (R129, event 4 of R175). -/
def State.numstatMerge (s : State) (p : Nat) : State :=
  ((s.numstatSet p (s.clu p).flags).addSat (F.CLU_NUMSTAT_SAT_COUNT.clu p) (s.clu p).sat).setClu p
    { s.clu p with flags := 0, sat := 0 }

/-- A residue mismatch recorded at once, whether or not the step commits (R128, R129). -/
def State.numstatResidue (s : State) (p : Nat) : State :=
  (s.numstatSet p nfResidue).addSat (F.CLU_NUMSTAT_RESIDUE_COUNT.clu p) 1

/-- What a write of 1s to CLU_NUMSTAT clears: the flags written, and with SATURATED and RESIDUE_FAULT their counts (R131). -/
def numstatClear (v w : Word) : Word :=
  let v1 := v &&& ~~~ (w &&& BitVec.ofNat 64 0xBF)
  let v2 := if w.getLsbD 2 then fieldPut v1 63 32 0 else v1
  if w.getLsbD 7 then fieldPut v2 31 16 0 else v2

end Sys2Proof.Machine
end

