-- ==== Sys2Proof/Machine/Send.lean ====
section
/-! DEFINITION. The fabric endpoint's sending side: packet heads, the choice of an output port, requests with their tags,
replies, and the ABORTs of collectives (R443 to R482, R451, R468, R526, R531). -/

namespace Sys2Proof.Machine

/-! ## Packet heads (R447) -/

def pktDest (k : Packet) : Nat := bitsOf k.w0 63 58
def pktSrc (k : Packet) : Nat := bitsOf k.w0 57 52
def pktHop (k : Packet) : Nat := bitsOf k.w0 51 50
def pktRgen (k : Packet) : Nat := bitsOf k.w0 47 40
def pktType (k : Packet) : Nat := bitsOf k.w0 39 36
def pktLen (k : Packet) : Nat := bitsOf k.w0 35 29
def pktGen (k : Packet) : Nat := bitsOf k.w0 28 17
def pktTag (k : Packet) : Nat := bitsOf k.w0 15 0
def pktTenant (k : Packet) : Nat := bitsOf k.w1 63 48
def pktFarGen (k : Packet) : Nat := bitsOf k.w1 47 36
def pktFarWindow (k : Packet) : Nat := bitsOf k.w1 35 32
def pktFarContext (k : Packet) : Nat := bitsOf k.w1 15 0
def pktOffset (k : Packet) : Nat := bitsOf k.w2 47 0
def pktStatus (k : Packet) : Nat := bitsOf k.w3 7 0

/-- The packet types of R448. -/
def ptWrite : Nat := 1
def ptTadd : Nat := 2
def ptColl : Nat := 3
def ptCircSetup : Nat := 4
def ptCircDown : Nat := 5
def ptAck : Nat := 8
def ptCollAck : Nat := 9

/-- Is the packet of the reply plane (R441)? -/
def isReply (k : Packet) : Bool := decide (8 ≤ pktType k)

/-- The ACK statuses of R450. -/
def akOk : Nat := 0
def akStale : Nat := 1
def akRange : Nat := 2
def akTally : Nat := 3
def akAborted : Nat := 4
def akNoSlot : Nat := 5
def akNotUp : Nat := 6
def akKey : Nat := 7
def akHostStopped : Nat := 8

/-- Word 0 of a head. -/
def headWord (dest src hop rgen type len gen tag : Nat) : Word :=
  BitVec.ofNat 64 (dest % 64 * 2 ^ 58 + src % 64 * 2 ^ 52 + hop % 4 * 2 ^ 50 + rgen % 256 * 2 ^ 40 + type % 16 * 2 ^ 36
    + len % 128 * 2 ^ 29 + gen % 4096 * 2 ^ 17 + tag % 65536)

/-! ## Ports and routes -/

def State.chipId (s : State) : Nat := s.fld F.GLB_IDENT_CHIP_ID

/-- FAB_STATUS.STATE. -/
def fsDiscovering : Nat := 0
def fsUp : Nat := 1
def fsHeld : Nat := 2
def fsDark : Nat := 3
def State.fabState (s : State) : Nat := s.fld F.FAB_STATUS_STATE

/-- FAB_PORT_STATUS.STATE. -/
def poDown : Nat := 0
def poTraining : Nat := 1
def poUp : Nat := 2
def poDegraded : Nat := 3
def poDark : Nat := 4
def poDraining : Nat := 5

def State.portState (s : State) (p : Nat) : Nat := s.fld (F.FAB_PORT_STATUS_STATE.at p)

def State.portUsable (s : State) (p : Nat) : Bool := decide (s.portState p = poUp) || decide (s.portState p = poDegraded)

def portDefault (_ : Nat) : Port := {}
def State.port (s : State) (p : Nat) : Port := mget portDefault s.fab.ports p
def State.setPort (s : State) (p : Nat) (x : Port) : State :=
  { s with fab := { s.fab with ports := mset portDefault s.fab.ports p x } }

/-- Flits of a packet, and flits queued on a port (R468). -/
def pktFlits (k : Packet) : Nat := 1 + pktLen k
def State.queued (s : State) (p : Nat) : Nat :=
  (s.fab.outq.filter fun o => decide (o.port = p)).foldl (fun a o => a + pktFlits o.pkt) 0
    + ((s.port p).holdReq.map (·.2)).getD 0 + ((s.port p).holdRep.map (·.2)).getD 0

/-- The ports of a PORTS field that may carry a head now: UP or DEGRADED, not draining, and for the request plane not in mode
CIRCUIT (R468). -/
def State.eligiblePorts (s : State) (ports : Nat) (reply : Bool) : List Nat :=
  (List.range 32).filter fun p =>
    ports.testBit p && s.portUsable p && (s.port p).draining.isNone &&
      (reply || decide (s.fld (F.FAB_PORT_STATUS_MODE.at p) ≠ 2))

/-- The port with the fewest flits queued, ties to the lowest number. -/
def State.leastQueued (s : State) : List Nat → Option Nat
  | [] => none
  | p :: ps => some (ps.foldl (fun a q => if s.queued q < s.queued a then q else a) p)

/-- The port that R468 chooses for a destination; none where the packet has no route. -/
def State.routeTo (s : State) (dest : Nat) (reply : Bool) : Option Nat :=
  if s.fld (F.FAB_ROUTE_VALID.at dest) = 0 then none
  else
    match s.leastQueued (s.eligiblePorts (s.fld (F.FAB_ROUTE_PORTS.at dest)) reply) with
    | some p => some p
    | none => s.leastQueued (s.eligiblePorts (s.fld (F.FAB_FALLBACK_PORTS.at dest)) reply)

/-- A packet queued at an output. -/
def State.putOut (s : State) (o : OutPkt) : State := { s with fab := { s.fab with outq := s.fab.outq ++ [o] } }

/-- Credits of an input buffer owed to the sender (R445). -/
def State.oweCredit (s : State) (o : Option (Nat × Nat × Nat)) : State :=
  match o with
  | none => s
  | some c => { s with fab := { s.fab with owed := s.fab.owed ++ [c] } }

/-- A reply toward the source of a request, with SRC_GEN and TAG copied (R447): an ACK or a COLL_ACK. -/
def State.replyTo (s : State) (q : Packet) (status : Nat) : Packet :=
  { w0 := headWord (pktSrc q) s.chipId 0 (s.fld F.FAB_STATUS_RGEN) (if pktType q = ptColl then ptCollAck else ptAck) 0
      (pktGen q) (pktTag q)
    w1 := 0, w2 := 0, w3 := BitVec.ofNat 64 (status % 256), data := [], poisoned := false }

/-- An ACK ABORTED for any request (R454, R468, R469). -/
def State.abortedReply (s : State) (q : Packet) : Packet :=
  { w0 := headWord (pktSrc q) s.chipId 0 (s.fld F.FAB_STATUS_RGEN) ptAck 0 (pktGen q) (pktTag q)
    w1 := 0, w2 := 0, w3 := BitVec.ofNat 64 akAborted, data := [], poisoned := false }

/-- A reply queued on its way: to the own hub, to a port, or dropped without a route (R468). -/
def State.sendReply (s : State) (r : Packet) : State :=
  if pktDest r = s.chipId then { s with fab := { s.fab with loop := s.fab.loop ++ [r] } }
  else
    match s.routeTo (pktDest r) true with
    | some p => s.putOut { port := p, reply := true, input := 32, pkt := r, owe := none }
    | none => s.addSat F.FAB_DROP_NO_ROUTE 1

/-- A packet of either plane routed from an input (R468): one without a route is dropped, counted, and a request answered with
ACK ABORTED. -/
def State.routePacket (s : State) (input : Nat) (owe : Option (Nat × Nat × Nat)) (k : Packet) : State :=
  if pktDest k = s.chipId then { s with fab := { s.fab with loop := s.fab.loop ++ [k] } }
  else
    match s.routeTo (pktDest k) (isReply k) with
    | some p => s.putOut { port := p, reply := isReply k, input := input, pkt := k, owe := owe }
    | none =>
      let s1 := (s.addSat F.FAB_DROP_NO_ROUTE 1).oweCredit owe
      if isReply k then s1 else s1.sendReply (s.abortedReply k)

/-! ## Requests of this chip (R451, R470, R479) -/

/-- The lowest tag that no outstanding request holds and that is not held back (R451, R452; log entry 20). -/
def State.freeTag (s : State) : Nat :=
  let used := s.fab.reqs.map (·.tag) ++ s.fab.heldTags.map (·.1)
  ((List.range (used.length + 1)).find? fun t => !used.contains t).getD 0

/-- The first hop of an established circuit toward a chip that the flow uses (R479). -/
def State.flowCircuit (s : State) (d : Nat) : Option CircSlot :=
  let c := s.fld (F.FAB_FLOW_CIRC.at d)
  if s.fld (F.FAB_FLOW_CIRCUIT_EN.at d) = 1 ∧ s.fld (F.FAB_CIRC_STATE.at c) = 2 ∧ s.fld (F.FAB_CIRC_DEST_CHIP.at c) = d then
    s.fab.slots.find? fun x => decide (x.origin = s.chipId) && decide (x.circ = c) && decide (x.input = 32)
  else none

/-- A request head started: it takes a tag, the chip's FAB_GEN and RGEN, and its way out, by circuit or by wormhole. -/
def State.startReq (s : State) (kind : ReqKind) (k : Packet) : State :=
  let tag := s.freeTag
  let k1 : Packet := { k with w0 := headWord (pktDest k) s.chipId 0 (s.fld F.FAB_STATUS_RGEN) (pktType k) (pktLen k)
                                      (s.fld F.FAB_STATUS_FAB_GEN) tag }
  let s1 : State := { s with fab := { s.fab with reqs := s.fab.reqs ++ [{ tag := tag, kind := kind, sent := s.now }] } }
  let first : OutPkt := { port := bitsOf k.w2 4 0, reply := false, input := 32, pkt := k1, owe := none }
  match kind with
  | .circSetup _ => s1.putOut first
  | .circDown _ => s1.putOut first
  | _ =>
    match (if pktType k = ptWrite ∨ pktType k = ptColl then s.flowCircuit (pktDest k) else none) with
    | some x => s1.putOut { port := x.port, reply := false, input := 33 + x.slot, pkt := k1, owe := none }
    | none => s1.routePacket 32 none k1

/-- May the hub start a request head (R451, R463, R470)? -/
def State.mayStart (s : State) : Bool :=
  decide (s.fld F.FAB_STATUS_SWAP_PENDING = 0) && decide (s.fabState = fsUp) && decide (s.fab.reqs.length < 8192)

/-- A request handed to the hub: started, or kept waiting. -/
def State.inject (s : State) (kind : ReqKind) (k : Packet) : State :=
  if s.mayStart && s.fab.hubWait.isEmpty then s.startReq kind k
  else { s with fab := { s.fab with hubWait := s.fab.hubWait ++ [(kind, k)] } }

/-- Waiting heads started as far as they may be. -/
def State.startWaiting (s : State) : State :=
  s.fab.hubWait.foldl (fun (s : State) w =>
    if s.mayStart then ({ s with fab := { s.fab with hubWait := s.fab.hubWait.drop 1 } } : State).startReq w.1 w.2 else s) s

/-- A barrow's WRITE no longer serves an attempt that is discarded. -/
def ReqKind.orphan (p : Nat) : ReqKind → ReqKind
  | .write (some o) c g => .write (if o.1 = p then none else some o) c g
  | k => k

/-- The answer to an arrived WRITE whose last part is acknowledged (R449). -/
def State.finishInbound (s : State) (n : Nat) : State :=
  match s.fab.inbound.find? fun e => decide (e.1 = n) with
  | none => s
  | some e => ({ s with fab := { s.fab with inbound := s.fab.inbound.filter fun x => decide (x.1 ≠ n) } } : State).sendReply e.2

/-! ## COLL packets (R501, R502, R531) -/

/-- The chip of member `j` of group `g` (R502). -/
def State.memberChip (s : State) (g j : Nat) : Nat :=
  bitsOf (s.reg ((F.COL_RANK_CHIPA.at (s.fld (F.COL_GROUP_RANK_BASE.at g) + j / 8)).reg)) (8 * (j % 8) + 5) (8 * (j % 8))

/-- The kinds of R531. -/
def ckEnter : Nat := 0
def ckStart : Nat := 1
def ckData : Nat := 2
def ckReady : Nat := 3
def ckAbort : Nat := 4

/-- Data filled up to whole flits: what the last flit holds beyond the data no rule says, so its bytes are free (R531; log entry 35). -/
def State.wholeFlits (s : State) (data : Bytes) : Bytes :=
  data ++ (List.range ((32 - data.length % 32) % 32)).map (Config.freeByte s.freeCtr)

/-- One COLL packet toward a member. -/
def State.sendColl (s : State) (g cseq rank kind : Nat) (w2 w3 : Word) (data : Bytes) : State :=
  let w1 := s.fld (F.COL_GROUP_TENANT.at g) * 2 ^ 48 + g * 2 ^ 36 + cseq % 65536 * 2 ^ 20
    + s.fld (F.COL_GROUP_MY_RANK.at g) * 2 ^ 14 + kind % 8 * 2 ^ 11
  s.inject (.coll g cseq rank kind)
    { w0 := headWord (s.memberChip g rank) s.chipId 0 0 ptColl ((data.length + 31) / 32) 0 0
      w1 := BitVec.ofNat 64 w1, w2 := w2, w3 := w3, data := s.wholeFlits data, poisoned := false }

/-- The other ranks of a group of `n` members. -/
def otherRanks (n me : Nat) : List Nat := (List.range n).filter fun r => decide (r ≠ me)

/-- One packet toward every other member of a collective (R482). -/
def State.sendOthers (s : State) (c : Coll) (kind : Nat) (w2 w3 : Word) : State :=
  (otherRanks c.n c.me).foldl (fun s r => s.sendColl c.group c.cseq r kind w2 w3 []) s

/-! ## The end of a collective (R519, R526, R536 to R540) -/

def caMismatch : Nat := 1
def caOrder : Nat := 2
def caLinkLost : Nat := 3
def caReplay : Nat := 4
def caReset : Nat := 5
def caAnchor : Nat := 6

/-- The states of COL_GROUP_STATE. -/
def cgIdle : Nat := 0
def cgWaiting : Nat := 1
def cgActive : Nat := 2
def cgHolding : Nat := 3

def State.setColls (s : State) (cs : List Coll) : State := { s with col := { s.col with colls := cs } }

/-- A collective replaced by its group and CSEQ. -/
def State.putColl (s : State) (c : Coll) : State :=
  s.setColls (s.col.colls.map fun d => if d.group = c.group ∧ d.cseq = c.cseq then c else d)

def Coll.waiting (c : Coll) : Bool := c.ready.isSome && c.admitted.isNone
def Coll.active (c : Coll) : Bool := c.admitted.isSome && !c.done

/-- COL_STATUS and GLB_STATE.COLL_ACTIVE brought up to date (R539). -/
def State.showCol (s : State) : State :=
  let s1 := s.setFld F.COL_STATUS_WAITING (s.col.colls.filter Coll.waiting).length
  match s.col.colls.find? Coll.active with
  | none => (s1.setFld F.COL_STATUS_ACTIVE 0).setFld F.GLB_STATE_COLL_ACTIVE 0
  | some c => (((s1.setFld F.COL_STATUS_ACTIVE_GROUP c.group).setFld F.COL_STATUS_ACTIVE_CSEQ c.cseq).setFld
      F.COL_STATUS_ACTIVE 1).setFld F.GLB_STATE_COLL_ACTIVE 1

/-- The counter of a cause (R540). -/
def collCounter (cause : Nat) : Option Fld :=
  if cause = caMismatch then some F.COL_ERR_MISMATCH
  else if cause = caOrder then some F.COL_ERR_ORDER
  else if cause = caLinkLost ∨ cause = caReplay ∨ cause = caReset then some F.COL_ERR_LINK_LOST
  else none

/-- STATE of a group from the collectives it has: one active, one waiting, or one complete whose step awaits READY (R536). -/
def State.showCollGroup (s : State) (g : Nat) : State :=
  let mine := s.col.colls.filter fun c => decide (c.group = g)
  s.setFld (F.COL_GROUP_STATE_STATE.at g)
    (if mine.any Coll.active then cgActive else if mine.any Coll.waiting then cgWaiting else if mine.any (·.done) then cgHolding else cgIdle)

/-- A collective leaves the engine: its group advances CSEQ once, an admitted one frees the engine (R519, R527). -/
def State.dropColl (s : State) (c : Coll) : State :=
  let s1 := s.setColls (s.col.colls.filter fun d => !(decide (d.group = c.group) && decide (d.cseq = c.cseq)))
  let s2 : State := { s1 with col := { s1.col with
    again := s1.col.again.filter fun e => !(decide (e.1 = c.group) && decide (e.2.1 = c.cseq)) } }
  let s3 := if c.done then s2 else s2.setFld (F.COL_GROUP_STATE_CSEQ.at c.group) (c.cseq + 1)
  (s3.showCollGroup c.group).showCol

/-- A collective that ends with a cause on this member, with an ABORT to every other member where it sends one (R526). -/
def State.endColl (s : State) (c : Coll) (cause : Nat) (send : Bool) : State :=
  let s1 := if send then s.sendOthers c ckAbort (BitVec.ofNat 64 cause) 0 else s
  let s2 := (s1.dropColl c).setFld (F.COL_GROUP_STATE_LAST_CAUSE.at c.group) cause
  match collCounter cause with
  | some f => s2.addSat f 1
  | none => s2

/-- The collectives of a step that ends or replays for its own reason end with REPLAY; the ABORT is sent only before READY
(R526, R529). -/
def State.abortColls (s : State) (lead : Nat) : State :=
  (s.col.colls.filter fun c => decide (c.lead = lead)).foldl (fun s c => s.endColl c caReplay c.readyAt.isNone) s

end Sys2Proof.Machine
end

