-- ==== Sys2Proof/Machine/Steps.lean ====
section
/-! DEFINITION. Steps in flight: their hub tallies, the start of an attempt on its clusters, the discarding of an attempt,
refusals, faults and strikes, completion records, and the end of a step (R157 to R181, R203 to R206, R331, R348, R353,
R690 to R692, R710). -/

namespace Sys2Proof.Machine

/-- The step in flight that a context leads. -/
def State.stepOf (s : State) (lead : Nat) : Option Step := s.disp.steps.find? fun t => decide (t.lead = lead)

/-- The step in flight replaced by its lead. -/
def State.putStep (s : State) (t : Step) : State :=
  { s with disp := { s.disp with steps := s.disp.steps.map fun u => if u.lead = t.lead then t else u } }

def State.dropStep (s : State) (lead : Nat) : State :=
  { s with disp := { s.disp with steps := s.disp.steps.filter fun t => decide (t.lead ≠ lead) } }

/-- The step whose attempt physical cluster `p` runs. -/
def State.stepAt (s : State) (p : Nat) : Option Step := (s.clu p).lead.bind s.stepOf

/-- Fields of a STEP message (R328, R329). -/
def msgKind (ws : List Word) : Nat := fieldOf ws 0 7 0
def msgVersion (ws : List Word) : Nat := fieldOf ws 0 15 8
def msgContext (ws : List Word) : Nat := fieldOf ws 0 31 16
def msgSeq (ws : List Word) : Nat := fieldOf ws 0 63 32
def msgEntry (ws : List Word) : Nat := fieldOf ws 1 13 0
def msgShift (ws : List Word) : Nat := fieldOf ws 1 27 24
def msgMembers (ws : List Word) : Nat := fieldOf ws 1 21 16 + 1
def msgUserTag (ws : List Word) : Nat := fieldOf ws 1 63 32
def msgMember (ws : List Word) (m : Nat) : Nat := fieldOf ws (8 + m / 4) (16 * (m % 4) + 15) (16 * (m % 4))

/-- The context that R317 binds to logical cluster `l`. -/
def Step.bound (t : Step) (l : Nat) : Option Nat :=
  if t.members.length ≤ 1 then some t.lead else t.members[l / 2 ^ msgShift t.words]?

/-- The member index of logical cluster `l` in its step-information granule (R317, R331). -/
def Step.memberIndex (t : Step) (l : Nat) : Nat :=
  if t.members.length ≤ 1 then 0 else l / 2 ^ msgShift t.words

/-! ## Hub tallies (R169, R348, R349) -/

/-- The other step in flight that holds hub tally `n`. -/
def State.holder (s : State) (lead : Option Nat) (n : Nat) : Option Step :=
  s.disp.steps.find? fun t => decide (some t.lead ≠ lead) && t.holds.any fun h => decide (h.1 = n)

/-- The value of hub tally `n` as a step of `lead` sees it: another step's holding shows its published value (R349). -/
def State.tallySeen (s : State) (lead : Option Nat) (n : Nat) : Word :=
  match s.holder lead n with
  | some t => ((t.holds.find? fun h => decide (h.1 = n)).map (·.2)).getD (s.tally n)
  | none => s.tally n

/-- An addition to hub tally `n` from outside any step: at once, or pending while a step holds the tally (R348, R375). -/
def State.tallyAdd (s : State) (n : Nat) (v : Word) : State :=
  match s.holder none n with
  | some t => s.putStep { t with adds := t.adds ++ [{ src := none, tally := n, amount := v }] }
  | none => s.setTally n (s.tally n + v)

/-- An addition to hub tally `n` by the step of `lead`: at once with the tally held from then on, or pending while another
step holds it (R169, R348). The pending add stays the step's own: it falls with the attempt (R169). -/
def State.tallyStepAdd (s : State) (lead n : Nat) (v : Word) : State :=
  match s.holder (some lead) n with
  | some t => s.putStep { t with adds := t.adds ++ [{ src := some lead, tally := n, amount := v }] }
  | none =>
    match s.stepOf lead with
    | none => s.setTally n (s.tally n + v)
    | some t =>
      let s1 := if t.holds.any (fun h => decide (h.1 = n)) then s
        else s.putStep { t with holds := t.holds ++ [(n, s.tally n)] }
      s1.setTally n (s.tally n + v)

/-- The held tallies back at their values at step start (R169). -/
def State.restoreTallies (s : State) (hs : List (Nat × Word)) : State := hs.foldl (fun s h => s.setTally h.1 h.2) s

/-- One pending add applied: by the step in flight it comes from, which holds the tally from then on, or from outside (R348). -/
def State.applyAdd (s : State) (a : PendAdd) : State :=
  match a.src with
  | some lead => s.tallyStepAdd lead a.tally a.amount
  | none => s.tallyAdd a.tally a.amount

/-- The pending adds of a step that no longer holds its tallies (R348). -/
def State.applyAdds (s : State) (as : List PendAdd) : State := as.foldl (fun s a => s.applyAdd a) s

/-- The pending adds of the attempt of `lead` on tallies that other steps hold fall with the attempt (R169). -/
def State.dropAdds (s : State) (lead : Nat) : State :=
  { s with disp := { s.disp with steps := s.disp.steps.map fun t =>
      { t with adds := t.adds.filter fun a => decide (a.src ≠ some lead) } } }

/-- The pending adds of a step that has committed stand (R169, R348). -/
def State.keepAdds (s : State) (lead : Nat) : State :=
  { s with disp := { s.disp with steps := s.disp.steps.map fun t =>
      { t with adds := t.adds.map fun a => if a.src = some lead then { a with src := none } else a } } }

/-! ## Banks (R284 to R288) -/

/-- CLU_SLICE_PWR[i] and CLU_PAD_PWR of a physical cluster (R284). -/
def slicePwrReg (p i : Nat) : Nat := 0x01000300 + 0x10000 * p + 8 * i
def padPwrReg (p : Nat) : Nat := 0x01000310 + 0x10000 * p

/-- The configured state of bank `b` of cluster `p`: slice banks 0 to 63, pad banks 64 to 79 (R284). -/
def State.bankCfg (s : State) (p b : Nat) : Nat :=
  if b < 64 then fieldGet (s.reg (slicePwrReg p (b / 32))) (2 * (b % 32) + 1) (2 * (b % 32))
  else fieldGet (s.reg (padPwrReg p)) (2 * (b - 64) + 1) (2 * (b - 64))

/-- Does a byte key of cluster `p` lie in bank `b`? -/
def inSliceBank (p b k : Nat) : Bool := decide (k / 0x2000000 = p) && decide (sliceBank (k % 0x2000000) = b)
def inPadBank (p b k : Nat) : Bool := decide (k / 0x100000 = p) && decide (padBank (k % 0x100000) = b)

/-- A bank's contents lost: zero in every granule, with valid code words, when next read (R285, R287). -/
def State.loseBank (s : State) (p b : Nat) : State :=
  if b < 64 then
    { s with slice := s.slice.filter (fun e => !inSliceBank p b e.1)
             sliceFlaw := s.sliceFlaw.filter (fun e => !inSliceBank p b (32 * e.1)) }
  else
    let c := s.clu p
    let z := if c.padEpoch = 0 ∨ (b - 64) ∈ c.padZero then c.padZero else c.padZero ++ [b - 64]
    ({ s with pad := s.pad.filter (fun e => !inPadBank p (b - 64) e.1)
              padFlaw := s.padFlaw.filter (fun e => !inPadBank p (b - 64) (32 * e.1)) } : State).setClu p { c with padZero := z }

/-- The cluster enters IDLE: banks woken by accesses return to their configured states (R288). -/
def State.restBanks (s : State) (p : Nat) : State :=
  let s1 := (s.clu p).awake.foldl (fun s b => if s.bankCfg p b = 2 then s.loseBank p b else s) s
  s1.setClu p { s1.clu p with awake := [] }

/-- The scrubber starts a bank's pass again (R280). -/
def State.scrubAgain (s : State) (p b : Nat) : State :=
  s.setClu p { s.clu p with scrubNext := mset (fun _ => 0) (s.clu p).scrubNext b 0 }

/-- An access wakes the banks it addresses (R286, R287, R290). -/
def State.wakeBank (s : State) (p b : Nat) : State :=
  let c := s.bankCfg p b
  if c = 0 ∨ b ∈ (s.clu p).awake then s
  else
    let s1 := (s.setClu p { s.clu p with awake := (s.clu p).awake ++ [b] }).scrubAgain p b
    s1.addSat ((if c = 2 then F.CLU_BANK_WAKE_FROM_OFF else F.CLU_BANK_WAKE_FROM_RETENTION).clu p) 1

/-- The banks a range addresses (R255, R256, R258). The first 128 granules of a range hold a whole aligned run of 64, which covers
every bank; the first 32 lines of a pad range likewise. -/
def banksOf (slice : Bool) (o n : Nat) : List Nat :=
  if n = 0 then []
  else if slice then
    ((List.range (min 128 ((o % 64 + n + 63) / 64))).map fun i => sliceBank (o + 64 * i)).eraseDups
  else ((List.range (min 32 ((o % 128 + n + 127) / 128))).map fun i => 64 + padBank (o + 128 * i)).eraseDups

/-- The wakes of a range, where any bank of the cluster is configured other than ON. -/
def State.wakeRange (s : State) (p : Nat) (slice : Bool) (o n : Nat) : State :=
  if s.reg (slicePwrReg p 0) = 0 ∧ s.reg (slicePwrReg p 1) = 0 ∧
      s.reg (padPwrReg p) = 0 then s
  else (banksOf slice o n).foldl (fun s b => s.wakeBank p b) s

/-! ## The start and the discarding of an attempt -/

/-- The sequencer and engines of a cluster at the start of a step or attempt: rows uncleared, planes empty, local tallies
zero, ring windows unconfigured, nothing queued (R145, R157, R166, R890). -/
def Cluster.fresh (c : Cluster) (lead : Option Nat) (logical : Nat) : Cluster :=
  { c with lead := lead, logical := logical, loops := [], calls := [], nextId := 0, queue := [], past := false, inColl := none,
           shadow := none, active := none, tileIssued := none, rowsIssued := [], rows := [], entries := [], fp := [],
           landing := [], block := none, peeked := none, flags := 0, sat := 0 }

/-- The local tallies and ring windows of a cluster at zero (R157, R166, R291). -/
def State.clearSeqRegs (s : State) (p : Nat) : State :=
  (List.range 16).foldl (fun s n => (s.setReg ((F.CLU_LTALLY_VALUE.clu p).at n).reg 0).setReg
    ((F.CLU_RING_VALID.clu p).at n).reg 0) s

/-- The step-information granule (R331). -/
def stepInfo (t : Step) (l : Nat) : Bytes :=
  let b := bytesOfNat 4 (msgSeq t.words) ++ bytesOfNat 2 t.lead ++ bytesOfNat 1 t.members.length
    ++ bytesOfNat 1 (t.memberIndex l) ++ bytesOfNat 2 ((t.bound l).getD 0) ++ bytesOfNat 2 l ++ bytesOfNat 1 t.attempt
  b ++ List.replicate (64 - b.length) 0

/-- The parameter granules and a cluster started at ENTRY (R331, R347, R182). -/
def State.startCluster (s : State) (t : Step) (l p : Nat) : State :=
  let s1 := (s.clearSeqRegs p).setClu p ((s.clu p).fresh (some t.lead) l)
  let s2 := ((s1.wakeRange p false 0xFFF80 128).localWrite p false 0xFFF80
    (bytesOfWords ((List.range 8).map fun i => wordAt t.words (24 + i)))).localWrite p false 0xFFFC0 (stepInfo t l)
  ((((s2.setCfld p F.CLU_SEQ_STATUS_STEP_SEQ (msgSeq t.words)).setCfld p F.CLU_SEQ_STATUS_CONTEXT t.lead).setCfld p
    F.CLU_SEQ_STATUS_ATTEMPT t.attempt).setCfld p F.CLU_SEQ_STATUS_PC (msgEntry t.words)).setSeq p sqRunning

/-- The bit of each engine in ENGINE_BUSY (R182). -/
def engineBit : Engine → Nat
  | .tensor => 1
  | .vector => 2
  | .select => 4
  | .move => 8
  | .seq => 16

/-- The cluster whose barrow a request serves. -/
def Owner.cluster : Owner → Option Nat
  | .barrow p _ => some p
  | .remote _ => none

/-- The inbound write that a request serves. -/
def Owner.inbound : Owner → Option Nat
  | .barrow _ _ => none
  | .remote n => some n

/-- A cluster discards its queues: the barrow requests of the attempt lose their place, and a cluster in reset or halted
stays so (R180, R203). -/
def State.discard (s : State) (p : Nat) : State :=
  let c := s.clu p
  let rs := s.mem.reqs.map fun r => if (r.owner.bind Owner.cluster) = some p then { r with owner := none } else r
  let hs := s.host.reads.map fun r => if (r.owner.map (·.1)) = some p then { r with owner := none } else r
  let fs := s.fab.reqs.map fun r => { r with kind := r.kind.orphan p }
  let ws := s.fab.hubWait.map fun w => (w.1.orphan p, w.2)
  let s0 : State := { s with mem := { s.mem with reqs := rs }, host := { s.host with reads := hs },
                             fab := { s.fab with reqs := fs, hubWait := ws } }
  let s1 := (s0.setClu p { c with queue := [], loops := [], calls := [], landing := [], inColl := none, block := none, peeked := none })
  if s1.seqState p = sqInReset ∨ s1.seqState p = sqHalted then s1 else s1.setSeq p sqDiscarding

/-- Every cluster of a step discards its queues, and the collectives of the step end (R180, R526). -/
def State.discardAll (s : State) (t : Step) : State := t.map.foldl (fun s m => s.discard m.2) (s.abortColls t.lead)

/-! ## Refusals (R203 to R206) -/

def stOk : Nat := 0x00
def stProgramFault : Nat := 0x01
def stWindow : Nat := 0x02
def stKey : Nat := 0x03
def stReplayExhausted : Nat := 0x04
def stAbandoned : Nat := 0x05
def stClosed : Nat := 0x06
def stSequence : Nat := 0x07
def stMalformed : Nat := 0x08
def stMember : Nat := 0x09
def stImage : Nat := 0x0A
def stDeviceState : Nat := 0x0B
def stMismatch : Nat := 0x0C
def stOrder : Nat := 0x0D
def stTeardownDone : Nat := 0x0E
def stRefused : Nat := 0x0F

/-- The status that a refusal code gives the step (R203). -/
def refusalStatus (code : Nat) : Nat :=
  if code = rcWindow then stWindow else if code = rcKey then stKey else stProgramFault

/-- CLU_REFUSE of the first refusal on the cluster (R205, R206). -/
def State.recordRefusal (s : State) (p pc op code : Nat) (t : Option Step) : State :=
  if s.cfld p F.CLU_REFUSE_VALID = 1 then s
  else
    let v := (((((fieldPut 0 63 48 ((t.map fun t => msgSeq t.words).getD 0)) |> (fieldPut · 47 32 ((t.map (·.lead)).getD 0)))
      |> (fieldPut · 31 31 1)) |> (fieldPut · 29 16 pc)) |> (fieldPut · 15 8 op)) |> (fieldPut · 7 0 code)
    s.setReg (F.CLU_REFUSE_VALID.clu p).reg v

/-- A step marked to fail, unless a failure or a replay is already under way. -/
def State.failStep (s : State) (lead : Nat) (f : FailInfo) : State :=
  match s.stepOf lead with
  | none => s
  | some t => if t.fail.isSome || t.replay.isSome then s else s.putStep { t with fail := some f }

/-- A descriptor refused: no effect of it; the cluster stops issue, discards its queue and abandons the step (R203). -/
def State.refuse (s : State) (p pc op code : Nat) : State :=
  let t := s.stepAt p
  let s1 := ((s.recordRefusal p pc op code t).discard p)
  match t with
  | none => s1
  | some t => (s1.abortColls t.lead).failStep t.lead
      { status := refusalStatus code, cause := code, pc := pc, opcode := op, lcluster := (s.clu p).logical }

/-! ## Faults (R177, R690 to R692, R710, R714) -/

/-- Seconds and hours in nanoseconds. -/
def nsSec : Nat := 1000000000
def nsHour : Nat := 3600000000000

/-- One strike on physical cluster `p`; the STRIKE_LIMIT-th in the window makes a spare due (R710). -/
def State.strike (s : State) (p : Nat) : State :=
  let w := s.fld F.RAS_ESC_CFG_CLU_WINDOW_S * nsSec
  let l := (s.ras.strikes ++ [(p, s.stepNow)]).filter fun e => decide (s.stepNow < e.2 + w)
  let n := (l.filter fun e => decide (e.1 = p)).length
  { s with ras := { s.ras with
      strikes := l
      spareDue := if s.fld F.RAS_ESC_CFG_STRIKE_LIMIT ≤ n ∧ p ∉ s.ras.spareDue then s.ras.spareDue ++ [p]
        else s.ras.spareDue } }

/-- A fault that belongs to no step (R691). -/
def State.lateFault (s : State) (p code : Nat) : State :=
  (s.addSat F.RAS_PRUNE_LATE_FAULT 1).raiseEvent 0x28 p code

/-- A fault of the attempt that cluster `p` runs: the step replays with the first cause (R177, R692). A residue mismatch enters
the record of a step that already fails (R130). -/
def State.stepFault (s : State) (p cause code : Nat) : State :=
  match s.stepAt p with
  | none => s.lateFault p code
  | some t =>
    let t0 := { t with residueSeen := t.residueSeen || decide (cause = 1) }
    if t.fail.isSome then s.putStep t0
    else
      let t1 := { t0 with replay := some (t.replay.getD cause),
                          faulted := if p ∈ t.faulted then t.faulted else t.faulted ++ [p] }
      (s.putStep t1).discardAll t1

/-- A step in flight marked to replay for a cause outside its clusters: the first cause stands, and the replay waits for the
lanes named (R177, R418, R692). -/
def State.replayStep (s : State) (lead cause : Nat) (lanes : List Nat) : State :=
  match s.stepOf lead with
  | none => s
  | some t =>
    if t.fail.isSome then s
    else
      let t1 := { t with replay := some (t.replay.getD cause), needLanes := t.needLanes ++ lanes }
      (s.putStep t1).discardAll t1

/-- A residue mismatch in cluster `p` (R128, R690). -/
def State.residueFault (s : State) (p : Nat) : State :=
  let c := (s.clu p).lead.getD 0
  (((s.numstatResidue p).raiseEvent 0x06 p c).strike p).stepFault p 1 0x06

/-- The LAST_BANK encoding of an offset (R283). -/
def bankCode (slice : Bool) (o : Nat) : Nat := if slice then sliceBank o else 64 + padBank o

/-- The LOADED images that assign logical cluster `l`. -/
def State.imagesOn (s : State) (l : Nat) : List Nat :=
  (List.range 16).filter fun i => decide (s.imageState i = imgLoaded) && decide (l ∈ s.imageClusters i)

/-- The regions of an image: slice offset, length and offset in the cluster's share (R324, R325). -/
def State.imageRegions (s : State) (i : Nat) : List (Nat × Nat × Nat) :=
  let n := bitsOf (s.imageWord i 0) 35 33
  ((List.range n).foldl (fun (a : List (Nat × Nat × Nat) × Nat) k =>
    let w := s.imageWord i (2 + k)
    (a.1 ++ [(bitsOf w 24 0, bitsOf w 63 32, a.2)], a.2 + bitsOf w 63 32)) ([], 0)).1

/-- Does offset `o` of logical cluster `l`'s slice lie in a region of its image (R281)? -/
def State.isResident (s : State) (l o : Nat) : Bool :=
  (s.imagesOn l).any fun i => (s.imageRegions i).any fun r => decide (r.1 ≤ o) && decide (o < r.1 + r.2.1)

/-- An uncorrectable granule met at offset `o` (R278, R281, R283, R690, R714). -/
def State.uncorrectable (s : State) (p : Nat) (slice : Bool) (o : Nat) : State :=
  let g := o / 64 * 64
  let key := if slice then g else 0x2000000 + g
  let s1 := ((s.poisonGranule p slice g).addSat
    ((if slice then F.CLU_MEM_ERR_UNCORR_SLICE else F.CLU_MEM_ERR_UNCORR_PAD).clu p) 1).setCfld p
    F.CLU_MEM_ERR_LAST_BANK (bankCode slice g)
  let u := (s.ras.uncorr ++ [(p, key, s.now)]).filter fun e => decide (s.now < e.2.2 + 24 * nsHour)
  let twice := u.any fun e => decide (e.1 = p) && decide (e.2.1 ≠ key)
  let s2 : State := { s1 with ras := { s1.ras with
      uncorr := u
      spareDue := if twice && decide (p ∉ s1.ras.spareDue) then s1.ras.spareDue ++ [p] else s1.ras.spareDue
      repairs := if slice && (s.logicalAt p).any (fun l => s.isResident l g) && decide ((p, g) ∉ s1.ras.repairs)
        then s1.ras.repairs ++ [(p, g)] else s1.ras.repairs } }
  (s2.raiseEvent 0x07 p (bankCode slice g)).strike p

/-- Corrections counted, and a spare due after 4,096 of one memory within an hour (R283, R714). -/
def State.countCorrected (s : State) (p : Nat) (slice : Bool) (n : Nat) : State :=
  if n = 0 then s
  else
    let s1 := s.addSat ((if slice then F.CLU_MEM_ERR_CORR_SLICE else F.CLU_MEM_ERR_CORR_PAD).clu p) n
    let l := (s1.ras.corr ++ List.replicate n (p, slice, s.now)).filter fun e => decide (s.now < e.2.2 + nsHour)
    let m := (l.filter fun e => decide (e.1 = p) && decide (e.2.1 = slice)).length
    { s1 with ras := { s1.ras with
        corr := l
        spareDue := if 4096 ≤ m ∧ p ∉ s1.ras.spareDue then s1.ras.spareDue ++ [p] else s1.ras.spareDue } }

/-- The granules, by their offsets, among the code words of a range that hold an uncorrectable word (R278). -/
def badGranules (o : Nat) (fl : List Nat) : List Nat :=
  ((fl.zipIdx.filter fun e => decide (3 ≤ e.1)).map fun e => (o / 32 * 32 + 32 * e.2) / 64 * 64).eraseDups

/-- The code words among flaws that a read corrects (R277). -/
def corrected (fl : List Nat) : Nat := (fl.filter fun k => decide (k = 1) || decide (k = 2)).length

/-- A checked read of a range by a step on cluster `p` (R277, R278): the data, or none where a granule is uncorrectable, with
the corrections counted, every such granule poisoned and the fault raised against the cluster that runs the attempt, `by`. -/
def State.readChecked (s : State) (p : Nat) (slice : Bool) (o n by_ : Nat) : State × Option Bytes :=
  let s0 := s.wakeRange p slice o n
  let fl := s0.flaws p slice o n
  let s1 := s0.countCorrected p slice (corrected fl)
  match badGranules o fl with
  | [] => (s1, some (s1.localRead p slice o n))
  | gs => ((gs.foldl (fun s g => s.uncorrectable p slice g) s1).stepFault by_ 2 0x07, none)

/-- A write of whole granules into the slice or pad, waking its banks (R260, R286). -/
def State.writeLocal (s : State) (p : Nat) (slice : Bool) (o : Nat) (data : Bytes) : State :=
  (s.wakeRange p slice o data.length).localWrite p slice o data

/-- The bytes of the granules that a write covers only in part hold free values: the engines write whole granules and no rule
states the rest (R260; log entry 10). -/
def State.freeEdges (s : State) (p : Nat) (slice : Bool) (o n : Nat) : State :=
  if (o % 64 = 0 ∧ n % 64 = 0) ∨ n = 0 then s
  else
    let lo := o / 64 * 64
    let hi := (o + n + 63) / 64 * 64
    let f (b k : Nat) : Bytes := (List.range k).map fun i => Config.freeByte s.freeCtr (b + i)
    let s1 := if o = lo then s else s.writeLocal p slice lo (f lo 64)
    let s2 := if (o + n) % 64 = 0 then s1 else s1.writeLocal p slice (hi - 64) (f (hi - 64) 64)
    s2.drawn

/-- The results of a descriptor written: first the free edges of every run, then the runs in order (R260). -/
def State.writeRuns (s : State) (p : Nat) (slice : Bool) (runs : List (Nat × Bytes)) : State :=
  let s1 := runs.foldl (fun s r => s.freeEdges p slice r.1 r.2.length) s
  runs.foldl (fun s r => s.writeLocal p slice r.1 r.2) s1

/-- One granule at `b` written with those of the bytes `data` from `o` on that fall in it (R891): a granule covered whole is a
plain write; else the rest of it is kept, unless it is uncorrectable, when the rest is zero and the step takes an uncorrectable
read. -/
def State.mergeGranule (s : State) (p : Nat) (slice : Bool) (o : Nat) (data : Bytes) (b : Nat) : State :=
  let s0 := s.wakeRange p slice b 64
  let put (old : Bytes) : Bytes := (List.range 64).map fun i =>
    if o ≤ b + i ∧ b + i < o + data.length then data.getD (b + i - o) 0 else old.getD i 0
  if o ≤ b ∧ b + 64 ≤ o + data.length then s0.localWrite p slice b (put [])
  else
    let fl := s0.flaws p slice b 64
    let s1 := s0.countCorrected p slice (corrected fl)
    if (badGranules b fl).isEmpty then s1.localWrite p slice b (put (s1.localRead p slice b 64))
    else ((s1.uncorrectable p slice b).localWrite p slice b (put [])).stepFault p 2 0x07

/-- Scale bytes merged into their granules (R260, R891). -/
def State.mergeScales (s : State) (p : Nat) (slice : Bool) (o : Nat) (data : Bytes) : State :=
  (List.range ((o % 64 + data.length + 63) / 64)).foldl (fun s g => s.mergeGranule p slice o data (o / 64 * 64 + 64 * g)) s

/-! ## The prefetch and the start of an attempt (R155, R262, R331) -/

/-- The slice offset of the block of 64 descriptors that holds a program counter, and the block fetched into the sequencer in one
4 KiB access (R155): false where a granule of it is uncorrectable. -/
def State.fetch (s : State) (p pc : Nat) : State × Bool :=
  if (s.clu p).block = some (pc / 64) then (s, true)
  else match s.readChecked p true (progBase + 4096 * (pc / 64)) 4096 p with
    | (s1, none) => (s1, false)
    | (s1, some _) => (s1.setClu p { s1.clu p with block := some (pc / 64) }, true)

/-- Every cluster of the step started, by the remap table in force, with its first fetch at ENTRY (R155, R164, R262, R347). -/
def State.startAttempt (s : State) (t : Step) : State :=
  let t1 := { t with map := t.clusters.map (fun l => (l, s.physOf l)), attemptAt := s.now, reported := [], named := [],
                     held := [], tadds := 0, replay := none, faulted := [], needLanes := [], lanes := [], flags := 0, sat := 0,
                     collWait := 0 }
  let s1 := t1.map.foldl (fun s m => s.startCluster t1 m.1 m.2) (s.putStep t1)
  t1.map.foldl (fun s m => (s.fetch m.2 (msgEntry t.words)).1) s1

/-! ## Completion records (R353 to R355) -/

/-- The words of a record. -/
def recordWords (context gen attempts kind numflags status userTag seq : Nat) (time : Word) (f : FailInfo)
    (sat wait run : Nat) (userData : List Word) : List Word :=
  let w0 := context % 65536 * 2 ^ 48 + gen % 4096 * 2 ^ 36 + attempts % 16 * 2 ^ 32 + kind % 256 * 2 ^ 24
    + numflags % 256 * 2 ^ 16 + status % 256 * 2 ^ 8
  let w3 := f.aux % 65536 * 2 ^ 48 + f.lcluster % 256 * 2 ^ 32 + f.pc % 16384 * 2 ^ 16 + f.opcode % 256 * 2 ^ 8
    + f.cause % 256
  [BitVec.ofNat 64 w0, BitVec.ofNat 64 (userTag % 2 ^ 32 * 2 ^ 32 + seq % 2 ^ 32), time, BitVec.ofNat 64 w3,
   BitVec.ofNat 64 (min sat (2 ^ 32 - 1) * 2 ^ 32 + min wait (2 ^ 32 - 1)), BitVec.ofNat 64 run,
   wordAt userData 0, wordAt userData 1]

/-- A record takes its place in the order of its ring (R355). -/
def State.postRecord (s : State) (ring : Nat) (ws : List Word) : State :=
  { s with disp := { s.disp with records := s.disp.records ++ [{ ring := ring, words := ws }] } }

/-- The ring of context 0 (R309, R355). -/
def State.mgmtRing (s : State) : Nat := s.ctx 0 cfCring

/-- The record of a step that ran, posted to its lead's ring. -/
def State.stepRecord (s : State) (t : Step) (f : FailInfo) : List Word :=
  let ok := decide (f.status = stOk)
  recordWords t.lead t.gen (t.attempt + 1) 1
    ((if ok then t.flags else 0) ||| (if t.residueSeen then nfResidue else 0)) f.status (msgUserTag t.words)
    (msgSeq t.words) s.stepClock f (if ok then t.sat else 0) t.collWait (s.now - t.admitted)
    [wordAt t.words 2, wordAt t.words 3]

/-! ## Signals and the program counter (R156, R158, R159, R204) -/

/-- A signal applied: a local tally counts at once, a hub tally's increment is on its way to the hub. -/
def State.signal (s : State) (p : Nat) (sig : Option Sel) : State :=
  match sig with
  | none => s
  | some x =>
    if x.hub then s.setClu p { s.clu p with landing := (s.clu p).landing ++ [(x.num, 1)] }
    else s.addWrap ((F.CLU_LTALLY_VALUE.clu p).at x.num) 1

def State.pcOf (s : State) (p : Nat) : Nat := s.cfld p F.CLU_SEQ_STATUS_PC

/-- The program counter set; beyond 16,383 it has passed the end of the program region. -/
def State.goto (s : State) (p pc : Nat) : State :=
  (s.setCfld p F.CLU_SEQ_STATUS_PC pc).setClu p { s.clu p with past := decide (16383 < pc), peeked := none }

def State.advance (s : State) (p : Nat) : State := s.goto p (s.pcOf p + 1)

/-! ## The end of a step -/

/-- A cluster lets go of its step and enters IDLE, unless it is in reset (R182, R288). -/
def State.release (s : State) (p : Nat) : State :=
  let s1 := s.setClu p { s.clu p with lead := none, queue := [], loops := [], calls := [], landing := [], inColl := none,
                                      block := none, peeked := none, flags := 0, sat := 0 }
  let s2 := s1.restBanks p
  if s2.seqState p = sqInReset then s2 else s2.setSeq p sqIdle

/-- The contexts of a step that are RUNNING become OPEN (R310). -/
def State.reopen (s : State) (cs : List Nat) : State :=
  cs.foldl (fun s c => if s.ctx c cfState = ctxRunning then s.setCtx c cfState ctxOpen else s) s

/-- A step ends without committing: held tallies restored, its own pending adds dropped, held writes discarded, the pending adds on
its tallies applied, clusters and contexts released (R169, R176, R348). -/
def State.abandon (s : State) (t : Step) : State :=
  let s1 := ((s.restoreTallies t.holds).dropStep t.lead).dropAdds t.lead
  let s2 := t.map.foldl (fun s m => s.release m.2) (s1.applyAdds t.adds)
  s2.reopen t.members

end Sys2Proof.Machine
end

