-- ==== Sys2Proof/Machine/PadPorts.lean ====
section
/-! DEFINITION. The two ports of a staging pad: the granules that descriptors in progress read and write through the engine port and
the barrow port, and what becomes of a granule that both ports reach in one handshake (R257, R259, R261, R274). Whether two accesses
of descriptors in progress fall into one handshake is a free value (log entry 37). -/

namespace Sys2Proof.Machine

/-- `n` runs of `len` bytes at a pitch from a resolved operand, where it lies in the pad: whether each is written, offset and
bytes. -/
def rowRuns (l : Loc) (w : Bool) (first n pitch len : Nat) : List (Bool × Nat × Nat) :=
  match l with
  | .mem false o => (List.range n).map fun i => (w, o + (first + i) * pitch, len)
  | _ => []

/-- The runs of the granules of a gather or scatter table, by the indices stored in its index list. -/
def State.tableRuns (s : State) (p : Nat) (table list : Loc) (w : Bool) (n : Nat) : List (Bool × Nat × Nat) :=
  match table, list with
  | .mem false base, .mem sl o => (runsOf 4 n (s.localRead p sl o (4 * n))).map fun b => (w, base + 64 * natOfBytes b, 64)
  | _, _ => []

/-- The runs of the own pad that a descriptor reads and writes (R207 to R236): the far side of a TMOVE is another cluster's. -/
def State.padRuns (s : State) (p : Nat) (d : Desc) : List (Bool × Nat × Nat) :=
  let ws := d.words
  let op := hOpcode ws
  let fa := fmtOr (hFmtA ws)
  if op = 0x13 then
    rowRuns d.a true (tBase ws) (tRows ws) (tPitch ws) (packedBytes (fmtOr (hFmtOut ws)) 128) ++
    rowRuns d.b true (tBase ws) (tRows ws) 8 8
  else if op = 0x11 ∨ op = 0x12 then
    let k := if op = 0x12 then fieldOf ws 5 47 40 else tileK fa
    rowRuns d.a false 0 (tRows ws) (tPitch ws) (if isMerge ws then 4096 else packedBytes fa k) ++
    rowRuns d.b false 0 (tRows ws) (fieldOf ws 5 23 0) 16
  else if op = 0x31 then
    rowRuns d.a true 0 1 0 (64 * vCount ws) ++ s.tableRuns p d.b d.c false (vCount ws) ++ rowRuns d.c false 0 1 0 (4 * vCount ws)
  else if op = 0x32 then
    s.tableRuns p d.a d.c true (vCount ws) ++ rowRuns d.b false 0 1 0 (64 * vCount ws) ++ rowRuns d.c false 0 1 0 (4 * vCount ws)
  else
    let u := usesOf ws
    let run (x : Option Use) (l : Loc) : List (Bool × Nat × Nat) := match x with
      | some v => rowRuns l v.write 0 1 0 v.len
      | none => []
    run u.1 d.a ++ (if op = 0x41 then [] else run u.2.1 d.b) ++ run u.2.2.1 d.c ++ run u.2.2.2 d.d

/-- The granules of runs, by number. -/
def granulesOf (rs : List (Nat × Nat)) : List Nat :=
  (rs.flatMap fun r => (List.range ((r.1 % 64 + r.2 + 63) / 64)).map fun i => r.1 / 64 + i).eraseDups

/-- A descriptor that works through the engine port. -/
def Desc.onEnginePort (d : Desc) : Bool := decide (d.eng ≠ .move) && decide (d.eng ≠ .seq)

/-- A move whose accesses to the pad fall into its start: LMOVE, TMOVE and an outbound BARROW. -/
def Desc.onBarrowPort (d : Desc) : Bool :=
  decide (hOpcode d.words = 0x40) || decide (hOpcode d.words = 0x41) ||
    (decide (hOpcode d.words = 0x42) && decide (fieldOf d.words 5 32 32 = 1))

/-- The physical cluster of the far side of a TMOVE, by the map of the attempt (R262). -/
def State.farCluster (s : State) (p : Nat) (d : Desc) : Option Nat :=
  (s.stepAt p).bind fun t => (t.map.find? fun m => decide (m.1 = fieldOf d.words 4 7 0)).map (·.2)

/-- The runs of another cluster's pad that a TMOVE of cluster `q` reads or writes (R259). -/
def Desc.farRuns (d : Desc) : List (Bool × Nat × Nat) :=
  if hOpcode d.words = 0x41 then rowRuns d.b (decide (fieldOf d.words 4 8 8 = 1)) 0 1 0 (fieldOf d.words 6 25 0) else []

/-- The pad granules that a descriptor of cluster `q` reads (`w` false) or writes, in its own pad and in the far one. -/
def State.padGranules (s : State) (q : Nat) (d : Desc) (w : Bool) : List (Nat × List Nat) :=
  let pick (rs : List (Bool × Nat × Nat)) : List Nat := granulesOf (rs.filterMap fun r => if r.1 = w then some r.2 else none)
  (q, pick (s.padRuns q d)) :: ((s.farCluster q d).map fun f => (f, pick d.farRuns)).toList

/-- A pad granule's bytes and flaws, and the granule put back so. -/
def State.image (s : State) (p g : Nat) : Bytes × List Nat := (s.localRead p false (64 * g) 64, s.flaws p false (64 * g) 64)
def State.putImage (s : State) (p g : Nat) (x : Bytes × List Nat) : State :=
  (s.localWrite p false (64 * g) x.1).setFlaws false (flawBase p false (64 * g)) x.2

/-- What a descriptor about to start will write over. -/
def State.preImages (s : State) (q : Nat) (d : Desc) : List (Nat × Nat × Bytes × List Nat) :=
  (s.padGranules q d true).flatMap fun x => x.2.map fun g => (x.1, g, s.image x.1 g)

/-- The descriptors in progress at one port of a pad, with their clusters: the engines', or the moves' and the far sides of the TMOVEs of
other clusters (R259). -/
def State.portDescs (s : State) (p : Nat) (barrow : Bool) : List (Nat × Desc) :=
  let busy (d : Desc) : Bool := d.started && !d.done
  if barrow then
    ((s.clu p).queue.filter fun d => busy d && d.onBarrowPort).map (fun d => (p, d)) ++
      (s.clusters.filter fun e => decide (e.1 ≠ p)).flatMap fun e =>
        (e.2.queue.filter fun d => busy d && decide (hOpcode d.words = 0x41)).map fun d => (e.1, d)
  else ((s.clu p).queue.filter fun d => busy d && d.onEnginePort).map fun d => (p, d)

/-- The granules of a pad that descriptors in progress at a port read. -/
def State.portReads (s : State) (p : Nat) (barrow : Bool) : List Nat :=
  (s.portDescs p barrow).flatMap fun e => ((s.padGranules e.1 e.2 false).filter fun x => decide (x.1 = p)).flatMap (·.2)

/-- The granules of a pad that descriptors in progress at a port have written, with what they held before. -/
def State.portOld (s : State) (p : Nat) (barrow : Bool) : List (Nat × Bytes × List Nat) :=
  (s.portDescs p barrow).flatMap fun e => (e.2.old.filter fun x => decide (x.1 = p)).map (·.2)

def State.portWrites (s : State) (p : Nat) (barrow : Bool) : List Nat := (s.portOld p barrow).map (·.1)

/-- Do two accesses in progress to a granule fall into one handshake? A free value, one for both granules of a line. -/
def State.oneHandshake (s : State) (g : Nat) : Bool := (Config.freeByte s.freeCtr (g / 2)).getLsbD 0

/-- Granules `mine` written by one port, against those `rd` read and `wr` written by the other (R261, R274): the collisions counted,
and the granules that both wrote in one handshake. -/
def State.padMeet (s : State) (p : Nat) (mine rd wr : List Nat) : State × List Nat :=
  let met := mine.filter fun g => rd.contains g || wr.contains g
  if met.isEmpty then (s, [])
  else
    let both := met.filter s.oneHandshake
    let ww := both.filter wr.contains
    let rw := both.filter fun g => !wr.contains g
    (((s.addSat (F.CLU_PAD_COLLIDE_READ_WRITE.clu p) rw.length).addSat (F.CLU_PAD_COLLIDE_WRITE_WRITE.clu p) ww.length).drawn, ww)

/-- Granules `mine` read by one port while descriptors in progress at the other have written them: those that fall into one handshake are
counted, and given with their old data (R261, R274). -/
def State.readMeet (s : State) (p : Nat) (barrow : Bool) (mine : List Nat) : State × List (Nat × Nat × Bytes × List Nat) :=
  let olds := (s.portOld p (!barrow)).reverse
  let met := mine.filter fun g => olds.any fun x => decide (x.1 = g)
  if met.isEmpty then (s, [])
  else
    let both := met.filter s.oneHandshake
    ((s.addSat (F.CLU_PAD_COLLIDE_READ_WRITE.clu p) both.length).drawn,
      both.filterMap fun g => (olds.find? fun x => decide (x.1 = g)).map fun x => (p, x))

/-- An access `f` that reads the granules `rs`, by cluster, and writes the granules `ws`: what it reads in one handshake with a write of
the other port is the old data; a granule that it does not write stands afterwards as it stood (R261). -/
def State.shadowed {α : Type} (s : State) (barrow : Bool) (rs ws : List (Nat × List Nat)) (f : State → State × α) : State × α :=
  let q := rs.foldl (fun (a : State × List (Nat × Nat × Bytes × List Nat)) x =>
    let r := a.1.readMeet x.1 barrow x.2
    (r.1, a.2 ++ r.2)) (s, [])
  let r := f (q.2.foldl (fun s x => s.putImage x.1 x.2.1 x.2.2) q.1)
  let back := q.2.filter fun x => !(ws.any fun w => decide (w.1 = x.1) && w.2.contains x.2.1) &&
    decide ((r.1.clu x.1).padEpoch = (q.1.clu x.1).padEpoch)
  (back.foldl (fun s x => s.putImage x.1 x.2.1 (q.1.image x.1 x.2.1)) r.1, r.2)

/-- A write through the barrow port, or into the slice (R261): an engine in progress that reads a granule in the same handshake has
its old data, and a granule that an engine writes in the same handshake keeps the engine's write. -/
def State.barrowWrite (s : State) (p : Nat) (slice : Bool) (o : Nat) (data : Bytes) : State :=
  if slice then s.writeLocal p true o data
  else
    let q := s.padMeet p (granulesOf [(o, data.length)]) (s.portReads p false) (s.portWrites p false)
    q.2.foldl (fun t g => t.putImage p g (q.1.image p g)) (q.1.writeLocal p false o data)

/-- A write of one run into a resolved output through the barrow port. -/
def State.barrowLoc (s : State) (p : Nat) (l : Loc) (data : Bytes) : State :=
  match l with
  | .mem sl o => s.barrowWrite p sl o data
  | _ => s

/-- The collisions of an engine's descriptor with moves in progress (R261): its writes stand, and what a move reads in the same
handshake is the old data. -/
def State.enginePort (s : State) (p : Nat) (d : Desc) : State :=
  if d.onEnginePort then
    (s.padMeet p ((s.padGranules p d true).flatMap (·.2)) (s.portReads p true) (s.portWrites p true)).1
  else s

/-- A read of one pad granule by the scrubber, and its write of the corrected granule where `back`, at the barrow port (R259, R280). -/
def State.scrubPort (s : State) (p g : Nat) (back : Bool) : State :=
  let s1 := (s.readMeet p true [g]).1
  if back then (s1.padMeet p [g] (s1.portReads p false) (s1.portWrites p false)).1 else s1

/-! ## Bytes of an inbound barrow on their way -/

/-- The program counter of a queued descriptor. -/
def State.descPc (s : State) (p id : Nat) : Nat :=
  (((s.clu p).queue.find? fun d => decide (d.id = id)).map (·.pc)).getD 0

/-- Bytes that have come for an inbound BARROW, held until its transfer is whole (R203; log entry 77). -/
def State.holdBytes (s : State) (p id : Nat) (slice : Bool) (off : Nat) (data : Bytes) : State :=
  s.setClu p { s.clu p with queue := (s.clu p).queue.map fun d =>
    if d.id = id then { d with landed := d.landed ++ [(slice, off, data)] } else d }

/-- The bytes of a whole inbound transfer put into their local place (R158, R237). -/
def State.landBarrow (s : State) (p : Nat) (d : Desc) : State :=
  d.landed.foldl (fun s x => s.barrowWrite p x.1 x.2.1 x.2.2) s

end Sys2Proof.Machine
end

