-- ==== Sys2Proof/Machine/Reach.lean ====
section
/-! DEFINITION. What is powered and what a writer reaches: the power domains by device and power state, the blocks the host
sees, and the gate that a control write passes (R53, R570 to R572, R661, R713). -/

namespace Sys2Proof.Machine

/-- Is HUB_CORE on (R53, event 6 of R608, event 6 of R703)? -/
def State.hubOn (s : State) : Bool :=
  !s.off && decide (s.devState ≠ dsSeedbed) && decide (s.devState ≠ dsBoot) && decide (s.devState ≠ dsResetting) &&
    decide (s.powState ≠ psDark)

/-- Are MEM, FAB_A and FAB_B on (R53, R661, R713)? -/
def State.memOn (s : State) : Bool := s.hubOn && decide (s.devState ≠ dsSafe) && decide (s.devState ≠ dsFallow)

/-- Are the quadrant domains on (R53)? -/
def State.cluOn (s : State) : Bool := s.memOn && decide (s.powState ≤ psMulch)

/-- Is the last row of a transition to DARK in progress, in which lanes and ports stop (R59, R421, R634)? -/
def State.goingDark (s : State) : Bool := decide (s.gov.rows = [psDark])

/-- Is the return from DARK in progress, its domains on again and POWER_STATE not yet changed (R634)? -/
def State.leavingDark (s : State) : Bool :=
  !s.off && decide (s.powState = psDark) && s.gov.moving.any fun c => decide (c.1 ≠ psDark)

/-- May lanes and ports start to train: their domains are On and stay so (R53, R59), and the device is not HELD (R607)? -/
def State.mayTrain (s : State) : Bool := ((s.memOn && !s.goingDark) || s.leavingDark) && decide (s.devState ≠ dsHeld)

/-- The number of a block: its base divided by 64 KiB (R577). -/
def blkGlb : Nat := 0x000
def blkCtx : Nat := 0x010
def blkDsp : Nat := 0x020
def blkTly : Nat := 0x030
def blkBrw : Nat := 0x040
def blkMem : Nat := 0x050
def blkFab : Nat := 0x060
def blkCol : Nat := 0x070
def blkPwr : Nat := 0x080
def blkRas : Nat := 0x090
def blkFwu : Nat := 0x0A0
def blkSec : Nat := 0x0B0
def blkTim : Nat := 0x0C0
def blkLog : Nat := 0x0D0
def blkHst : Nat := 0x0E0
def blkClu (p : Nat) : Nat := 0x100 + p
def blkTel : Nat := 0x300

/-- The block of a control-window offset (R577); none for a reserved address. -/
def blockOf (a : Nat) : Option Nat :=
  let k := a / 0x10000
  if a < 0xF00000 then some (k / 16 * 16)
  else if 0x100 ≤ k ∧ k < 0x100 + 264 then some k
  else if 0x300 ≤ k ∧ k < 0x310 then some 0x300
  else none

/-- The AON blocks of R570. -/
def blockAon (b : Nat) : Bool :=
  decide (b = blkGlb) || decide (b = blkTel) || (decide (blkPwr ≤ b) && decide (b ≤ blkLog))

/-- Is the power domain of a block on (R577)? -/
def State.blockOn (s : State) (b : Nat) : Bool :=
  if blockAon b || decide (b = blkHst) then !s.off
  else if b = blkMem ∨ b = blkFab then s.memOn
  else if 0x100 ≤ b ∧ b < 0x300 then s.cluOn
  else s.hubOn

/-- Does the host see a whole block, and not all-ones (R570)? -/
def State.blockSeen (s : State) (b : Nat) : Bool :=
  if s.devState = dsSeedbed then decide (b = blkGlb) || decide (b = blkHst)
  else if s.devState = dsBoot ∨ s.devState = dsHarvest ∨ s.devState = dsResetting then blockAon b || decide (b = blkHst)
  else true

/-- Is an address of the seedbed download interface: FWU_SEED_CMD, FWU_SEED_STATUS or FWU_SEED_BUF (R800)? -/
def seedAddr (a : Nat) : Bool :=
  (decide (0xA00100 ≤ a) && decide (a < 0xA00110)) || (decide (0xA10000 ≤ a) && decide (a < 0xA20000))

/-- Does the host see an address, and not all-ones (R570)? -/
def State.addrSeen (s : State) (a : Nat) : Bool :=
  s.blockSeen ((blockOf a).getD 0xFFFF) || (decide (s.devState = dsSeedbed) && seedAddr a)

/-- Is the host link up, so that requests of the host arrive (R570; log entry 8)? -/
def State.hostLinked (s : State) : Bool := !s.off && !s.host.perst && decide (s.fld F.HST_LINK_STATUS_STATE = 2)

/-- Do memory requests of the host reach the windows? -/
def State.hostReach (s : State) : Bool := s.hostLinked && s.memSpace && !s.d3hot

/-- Does a request of a writer or reader arrive at all? -/
def State.reaches (s : State) (w : Agent) : Bool :=
  match w with
  | .host => s.hostReach
  | _ => !s.off

/-- A write of controller `k` discarded as stale: counted, the first since a takeover raised as an event, and a controller that is
not the active stops and tests itself (R722, R728). -/
def State.staleWrite (s : State) (k : Bool) (detail : Nat) : State :=
  let n := if k then 1 else 0
  let s1 := (s.addSat F.RAS_LEASE_STALE_WRITES 1).emit (.ctlAnswer k false)
  let s2 := if s1.ctl.staleSeen then s1
    else ({ s1 with ctl := { s1.ctl with staleSeen := true } } : State).raiseEvent 0x15 n (detail % 2 ^ 32)
  if n = s2.fld F.RAS_LEASE_ACTIVE then s2 else s2.setFld (F.RAS_CTL_HEALTH_STATE.at n) 4

/-- Does a writer hold the lease (R48, R721, R722)? The host needs none. A command that carries no epoch is sent with the epoch its
controller holds: the current one for the active, and the one before for the other, which a dual-act window accepts. -/
def State.holdsLease (s : State) (w : Agent) : Bool :=
  let ok (n : Nat) : Bool := decide (s.fld F.RAS_LEASE_ACTIVE = n) || decide (s.fld F.RAS_LEASE_DUAL_ACT = 1)
  match w with
  | .host => true
  | .ctlA => ok 0
  | .ctlB => ok 1

/-- A control write of a writer that reaches the part: a controller's without the lease is discarded as stale (R48, R722, R728). -/
def State.leased (s : State) (w : Agent) (f : State → State) : State :=
  if s.off || s.holdsLease w then f s else s.staleWrite (decide (w = .ctlB)) 0

/-- A writer's latch of a block closed by a write to it (R818, R821). -/
def State.closeLatch (s : State) (w : Agent) (b : Nat) : State :=
  { s with latches := s.latches.filter fun l => !(decide (l.reader = w) && decide (l.block = b)) }

/-- A control write to a block that is not staged: it takes effect, or is discarded and counted (R571, R572). It closes the
writer's latch of the block (R818). -/
def State.gate (s : State) (w : Agent) (b : Nat) (f : State → State) : State :=
  if !s.reaches w then s
  else if (decide (w = .host) && !s.blockSeen b) || !s.blockOn b then (s.closeLatch w b).addSat F.HST_ERR_BUSY_WRITE 1
  else f (s.closeLatch w b)

/-- A control write whose row names no writer: it takes effect, or is discarded and counted (R572). -/
def State.powered (s : State) (b : Nat) (f : State → State) : State :=
  if s.off then s else if !s.blockOn b then s.addSat F.HST_ERR_BUSY_WRITE 1 else f s

/-! ## The cold frame (R294 to R297) -/

def State.activeNum (s : State) : Nat := s.fld F.RAS_LEASE_ACTIVE
def State.epoch (s : State) : Nat := s.fld F.RAS_LEASE_EPOCH

/-- The partitions of the cold frame (R294). -/
inductive FramePart where
  | roles
  | anchors
  | repair
  | record
  | identity
  | keys
  | logRing
  | evacJournal
  | ctlJournal
deriving DecidableEq, Repr

/-- The frame offset of a partition and its size in bytes (R294); the first four are the non-volatile ones (R293). -/
def FramePart.span : FramePart → Nat × Nat
  | .roles => (0x0000000, 0x40000)
  | .anchors => (0x0040000, 0x40000)
  | .repair => (0x0080000, 0x40000)
  | .record => (0x00C0000, 0x40000)
  | .identity => (0x0100000, 0x40000)
  | .keys => (0x0200000, 0x400000)
  | .logRing => (0x0600000, 0x400000)
  | .evacJournal => (0x0A00000, 0x200000)
  | .ctlJournal => (0x0C00000, 0x200000)

/-- The partitions that the active controller writes (R296). -/
def FramePart.ctlWrites : FramePart → Bool
  | .roles | .repair | .ctlJournal => true
  | .anchors | .record | .identity | .keys | .logRing | .evacJournal => false

/-- A write of a Tilal controller into a partition of the cold frame: done in a partition it may write, under the current epoch or,
in a dual-act window, the one before, else discarded (R296, R297). -/
def State.frameWrite (s : State) (part : FramePart) (epoch : Nat) (f : State → State) : State :=
  if part.ctlWrites = false then s
  else if epoch = s.epoch ∨ (s.fld F.RAS_LEASE_DUAL_ACT = 1 ∧ (epoch + 1) % 65536 = s.epoch) then f s else s

/-- The repair records changed by the active controller, under its epoch (R296, R297). -/
def State.writeRepair (s : State) (f : Repair → Repair) : State :=
  s.frameWrite .repair s.epoch fun s => { s with repair := f s.repair }

/-! ## The microcode of the clusters (R772) -/

/-- The slot a controller runs, 0 A and 1 B. -/
def State.runs (s : State) (c : Nat) : Nat := s.firm.runs.getD c 0

def State.setRuns (s : State) (c k : Nat) : State := { s with firm := { s.firm with runs := s.firm.runs.set c k } }

/-- Every cluster loaded with the UCODE of a slot (R772). -/
def State.loadUcode (s : State) (k : Nat) : State :=
  { s with firm := { s.firm with ucode := if k = 0 then [] else mwrite (fun _ => 0) [] 0 (List.replicate 264 k) } }

/-- The UCODE of the image that the active controller runs, loaded by the clusters that power up (R772). -/
def State.powerUcode (s : State) (ps : List Nat) : State :=
  let k := s.runs (s.fld F.RAS_LEASE_ACTIVE)
  { s with firm := { s.firm with ucode := ps.foldl (fun m p => mset (fun _ => 0) m p k) s.firm.ucode } }

end Sys2Proof.Machine
end

