-- ==== Sys2Proof/Machine/MemOps.lean ====
section
/-! DEFINITION. The three tiers: addresses and places of pages, the checks of a line, mirrored copies, keys and encryption,
requests to the memory lanes, and the moves of pages (R383 to R417). -/

namespace Sys2Proof.Machine

/-! ## The configuration in force (R595, R600, R603) -/

/-- The bytes of an applied section, and a little-endian number in it, or the default while it is held (R606). -/
def State.sect (s : State) (t : Nat) : Bytes := mget (fun _ => []) s.conf.sect t

def State.confNum (s : State) (t off n dflt : Nat) : Nat :=
  if (s.sect t).isEmpty then dflt else natOfBytes (((s.sect t).drop off).take n)

def State.maxAttempts (s : State) : Nat := s.confNum 5 0 1 3
def State.evacReserve (s : State) : Nat := s.confNum 5 1 1 1
def State.evacOnUncorr (s : State) : Bool := decide (s.confNum 5 2 1 1 = 1)
def State.escLimit (s : State) : Nat := s.confNum 5 3 1 3
def State.evacCorrPerHour (s : State) : Nat := s.confNum 5 4 4 4096
def State.escWindowMin (s : State) : Nat := s.confNum 5 8 2 30
def State.t1Speed (s : State) : Nat := s.confNum 2 0 1 0
def State.memFlags (s : State) : Nat := s.confNum 2 1 1 0
def State.shelfModules (s : State) : Nat := s.confNum 2 2 1 0

/-! ## Tier addresses and places (R388 to R392, R406) -/

/-- The tier of a tier address, 1 to 3. -/
def tierOf (a : Nat) : Nat := if a / 2 ^ 40 = 0 then 1 else if a / 2 ^ 40 = 1 then 2 else 3

/-- The tier of a logical page: 2^19 pages each in tiers 1 and 2. -/
def tierOfPage (q : Nat) : Nat := tierOf (q * 2 ^ 21)

/-- Lines in a page, and the page of a tier line. -/
def pageLines : Nat := 32768
def pageOf (l : Nat) : Nat := l / pageLines

/-- The module and physical page where a copy of a page lies when nothing has moved it (R390, R392, R406). -/
def homePlace (q : Nat) (mirror : Bool) : Nat × Nat :=
  if q < 2 ^ 19 then
    let k := q / 32768
    let j := q % 32768
    if mirror then ((j + 8) % 16, 2048 * k + 1024 + j / 16) else (j % 16, 2048 * k + j / 16)
  else if q < 2 ^ 20 then (16 + (q - 2 ^ 19) % 8, (q - 2 ^ 19) / 8)
  else (24 + (q - 2 ^ 20) % 8, (q - 2 ^ 20) / 8)

/-- A place as one number of the page table, and back. -/
def placeCode (m phys : Nat) : Nat := 1 + m * 2 ^ 18 + phys

/-- The place of a copy of a page (R390, R415). -/
def State.placeOf (s : State) (q : Nat) (mirror : Bool) : Nat × Nat :=
  let v := mget (fun _ => 0) s.mem.table (2 * q + bit mirror)
  if v = 0 then homePlace q mirror else ((v - 1) / 2 ^ 18, (v - 1) % 2 ^ 18)

/-- Is the page's region mirrored, is the page hidden, does it lie in the evacuation pool (R391, R406)? -/
def State.isMirrored (s : State) (q : Nat) : Bool :=
  decide (q < 2 ^ 19) && (s.fld F.MEM_MIRROR_REGION).testBit (q / 32768)
def State.isHidden (s : State) (q : Nat) : Bool := s.isMirrored q && decide (16384 ≤ q % 32768)
def State.inPool (s : State) (q : Nat) : Bool := decide (q < 2 ^ 19) && decide (16 - s.evacReserve ≤ q / 32768)

/-- The memory lane of a module (R377). -/
def laneOfModule (m : Nat) : Nat := if m < 16 then m else if m < 24 then 2 * (m - 16) else 2 * (m - 24) + 1

/-- The tier of a module. -/
def tierOfModule (m : Nat) : Nat := if m < 16 then 1 else if m < 24 then 2 else 3

/-- The states of a memory lane (R422). -/
def mlDown : Nat := 0
def mlTraining : Nat := 1
def mlUp : Nat := 2
def mlDegraded : Nat := 3
def mlHeld : Nat := 4

def State.laneState (s : State) (k : Nat) : Nat := s.fld (F.MEM_LANE_STATUS_STATE.at k)
def State.laneUsable (s : State) (k : Nat) : Bool := decide (s.laneState k = mlUp) || decide (s.laneState k = mlDegraded)

/-- Does a module take traffic: its lane is up, or HELD with its traffic waiting (R381), and a shelf module reports the configured
lease (R385)? -/
def State.modReachable (s : State) (m : Nat) : Bool :=
  (s.laneUsable (laneOfModule m) || decide (s.laneState (laneOfModule m) = mlHeld)) &&
    (decide (m < 24) || (s.fld F.MEM_LEASE_MODULES).testBit (m - 24))

/-- Do the controllers send requests: MEM is powered and neither a transition to DARK nor a harvest has quiesced them (R421)? -/
def State.lanesSend (s : State) : Bool := s.mayTrain && decide (s.devState ≠ dsHarvest)

/-- Can a request to a module be sent now? -/
def State.modReady (s : State) (m : Nat) : Bool :=
  s.modReachable m && s.laneUsable (laneOfModule m) && s.lanesSend

/-! ## Lines -/

def lineDefault (_ : Nat) : TLine := {}

/-- The key of a line of a module: physical page and line in it. -/
def lineKey (m phys i : Nat) : Nat := m * 2 ^ 32 + phys * pageLines + i

def State.isWritten (s : State) (q : Nat) : Bool := mget (fun _ => false) s.mem.written q

/-- Is a copy known to have missed a write (R408)? -/
def State.missedCopy (s : State) (m phys : Nat) : Bool := s.mem.missed.any fun e => decide (e = (m, phys))

/-- Is a mirrored copy fresh: it missed no write, and did not lie behind a lane lost since its last resync (R408)? -/
def State.freshCopy (s : State) (p : Nat × Nat) : Bool := !s.missedCopy p.1 p.2 && !s.mem.behind.contains p.1

/-- The places of a page's copies, the primary first. -/
def State.copiesOf (s : State) (q : Nat) : List (Nat × Nat) :=
  if s.isMirrored q then [s.placeOf q false, s.placeOf q true] else [s.placeOf q false]

/-- The places of a page's copies, in the order in which a read tries them: the primary, unless it is stale or unreachable (R407,
R408). Where no copy is fresh, one that missed no write serves alone (log entry 66). -/
def State.readOrder (s : State) (q : Nat) : List (Nat × Nat) :=
  let ps := (s.copiesOf q).filter fun p => s.modReachable p.1
  if !s.isMirrored q then ps
  else
    let good := ps.filter s.freshCopy
    if good.isEmpty then (ps.filter fun p => !s.missedCopy p.1 p.2).take 1 else good

/-- The copies that a write reaches (R403, R407). -/
def State.writePlaces (s : State) (q : Nat) : List (Nat × Nat) := (s.copiesOf q).filter fun p => s.modReachable p.1

/-- The new place of a page while it is COPYING, which takes every write too (R403, R413); a copy paused by that place's lane brings
the write with its lines (log entry 66). -/
def State.movePlaces (s : State) (q : Nat) : List (Nat × Nat) :=
  match s.mem.evac.bind (·.cur) with
  | some mv => if mv.page = q ∧ mv.switched = false ∧ s.modReachable mv.toMod = true then [(mv.toMod, mv.toPhys)] else []
  | none => []

/-- A MEM_ERR field of a tier. -/
def memErr (f : Fld) (t : Nat) : Fld := f.at (t - 1)

/-- A module whose evacuation has a cause (R414), with its trigger: 1 the host, 2 corrections, 3 an uncorrectable line. -/
def State.evacDue (s : State) (m trigger : Nat) : State :=
  if 16 ≤ m ∨ (s.mem.dueEvac.any fun e => decide (e.1 = m)) = true then s
  else { s with mem := { s.mem with dueEvac := s.mem.dueEvac ++ [(m, trigger)] } }

/-- Corrections counted, and an evacuation made due by too many in an hour (R414, R428). -/
def State.countLines (s : State) (m n : Nat) : State :=
  if n = 0 then s
  else
    let s1 := s.addSat (memErr F.MEM_ERR_CORRECTED (tierOfModule m)) n
    if 16 ≤ m then s1
    else
      let l := (s1.mem.corr ++ List.replicate n (m, s.now)).filter fun e => decide (s.now < e.2 + nsHour)
      let c := (l.filter fun e => decide (e.1 = m)).length
      let s2 : State := { s1 with mem := { s1.mem with corr := l } }
      if s.evacCorrPerHour < c then s2.evacDue m 2 else s2

/-- Code words of a line that need correction, and whether the line is uncorrectable (R393, R396, R398). -/
def TLine.corrected (l : TLine) : Nat := bit (l.err0 = 1 || l.err0 = 2) + bit (l.err1 = 1 || l.err1 = 2)
def TLine.bad (l : TLine) : Bool :=
  decide (3 ≤ l.err0) || decide (3 ≤ l.err1) || decide (2 ≤ l.errMeta) || l.away || l.poison

/-- One copy of a line read and checked (steps 1 to 4 of R398): the line, or none where it is uncorrectable, which may make the
module's evacuation due (R414). -/
def State.checkCopy (s : State) (m key : Nat) : State × Option TLine :=
  let l := mget lineDefault s.mem.lines key
  let s1 := s.countLines m l.corrected
  let s2 := if l.away then s1.addSat (memErr F.MEM_ERR_ADDR_MISMATCH (tierOfModule m)) 1 else s1
  if l.bad then (if s2.evacOnUncorr then s2.evacDue m 3 else s2, none) else (s2, some l)

/-! ## Groups on a lane (R378, R395, R396, R417) -/

/-- The byte address of a line in its module. -/
def lineAddr (phys i : Nat) : Nat := (phys * pageLines + i) * 64

/-- The physical location of a module's byte address, in the form of a tier address (R396; log entry 66). -/
def moduleLocation (m addr : Nat) : Nat :=
  (if m < 16 then m * 2 ^ 36 else if m < 24 then 2 ^ 40 + (m - 16) * 2 ^ 37 else 2 ^ 41 + (m - 24) * 2 ^ 38) + addr

/-- LANE_GEN of the lane of a module, which stamps every request (R417). -/
def State.laneGen (s : State) (m : Nat) : Nat := s.fld (F.MEM_LANE_STATUS_LANE_GEN.at (laneOfModule m))

/-- The group that reads `n` lines, at most eight, of a module. -/
def State.readGroup (s : State) (m addr n : Nat) : Emit := .memRead (laneOfModule m) (s.laneGen m) m addr n

/-- The group that writes lines, at most eight, to a module: control flits, metadata and code words as stored. -/
def State.writeGroup (s : State) (m addr : Nat) (ls : List TLine) : Emit :=
  .memWrite (laneOfModule m) (s.laneGen m) m addr (groupControlFlits ls.length)
    (ls.zipIdx.map fun t => lineMeta (moduleLocation m (addr + 64 * t.2)) t.1) (ls.flatMap lineFlits)

/-- One line asked for at a place, and one line sent to it. -/
def State.askLine (s : State) (m phys i : Nat) : State := s.emit (s.readGroup m (lineAddr phys i) 1)
def State.tellLine (s : State) (m phys i : Nat) (t : TLine) : State := s.emit (s.writeGroup m (lineAddr phys i) [t])

/-! ## Lines of a page's copies -/

def State.setLine (s : State) (key : Nat) (l : TLine) : State :=
  { s with mem := { s.mem with lines := mset lineDefault s.mem.lines key l } }

/-- A line with valid code words and metadata again. -/
def TLine.clean (l : TLine) : TLine := { l with err0 := 0, err1 := 0, errMeta := 0, away := false }

/-- A line rewritten at one place, with its group. -/
def State.putLine (s : State) (m phys i : Nat) (t : TLine) : State := (s.setLine (lineKey m phys i) t).tellLine m phys i t

/-- A line found uncorrectable on every copy: counted, and poisoned everywhere (R402, R428). -/
def State.loseLine (s : State) (q i : Nat) : State :=
  let s1 := s.addSat (memErr F.MEM_ERR_UNCORRECTABLE (tierOfPage q)) 1
  (s.copiesOf q).foldl (fun s p =>
    s.putLine p.1 p.2 i { (mget lineDefault s.mem.lines (lineKey p.1 p.2 i)).clean with poison := true }) s1

/-- The result of reading a tier line: zeros of an unwritten page (R400), the line, or uncorrectable. -/
inductive LineRead where
  | zero
  | line (l : TLine)
  | lost
deriving DecidableEq, Repr

/-- A tier line `l` that has come back from its lane checked (steps 1 to 5 of R398): a fresh mirror copy repairs the other. -/
def State.readTier (s : State) (l : Nat) : State × LineRead :=
  let q := pageOf l
  let i := l % pageLines
  if !s.isWritten q then (s, .zero)
  else
    match s.readOrder q with
    | [] => (s, .lost)
    | p :: ps =>
      match s.checkCopy p.1 (lineKey p.1 p.2 i) with
      | (s1, some t) => (s1, .line t)
      | (s1, none) =>
        match ps with
        | [] => (s1.loseLine q i, .lost)
        | p2 :: _ =>
          match (s1.askLine p2.1 p2.2 i).checkCopy p2.1 (lineKey p2.1 p2.2 i) with
          | (s2, some t) => (s2.putLine p.1 p.2 i t.clean, .line t)
          | (s2, none) => (s2.loseLine q i, .lost)

/-- STALE of a tier-1 module brought up to date when a copy misses a write (R408, R422). -/
def State.missWrite (s : State) (m phys : Nat) : State :=
  if s.missedCopy m phys then s
  else ({ s with mem := { s.mem with missed := s.mem.missed ++ [(m, phys)] } } : State).setFld
    (F.MEM_LANE_STATUS_STALE.at (m % 16)) 1

/-- A whole line put in every copy that a write reaches and in the new place of a page that moves; a mirrored copy that it does not
reach becomes stale (R403, R407, R413). -/
def State.writeTier (s : State) (l : Nat) (t : TLine) : State :=
  let q := pageOf l
  let i := l % pageLines
  (s.copiesOf q ++ s.movePlaces q).foldl (fun s p =>
    if s.modReachable p.1 then s.setLine (lineKey p.1 p.2 i) t
    else if s.isMirrored q then s.missWrite p.1 p.2 else s) s

/-- A line asked for from the lane that a read of it takes. -/
def State.askTier (s : State) (l : Nat) : State :=
  match s.readOrder (pageOf l) with
  | [] => s
  | p :: _ => s.askLine p.1 p.2 (l % pageLines)

/-- A line asked for and read: one of an unwritten page asks no lane (R400). -/
def State.fetchTier (s : State) (l : Nat) : State × LineRead := (if s.isWritten (pageOf l) then s.askTier l else s).readTier l

/-- A line of the staging window sent to every place that it is written to. -/
def State.tellTier (s : State) (l : Nat) (t : TLine) : State :=
  ((s.writePlaces (pageOf l)) ++ s.movePlaces (pageOf l)).foldl (fun s p => s.tellLine p.1 p.2 (l % pageLines) t) s

/-- A write of the staging window on a written page: a whole line is stamped with TAG 0, ENC 0 and KGEN 0, and a part is merged into a
line of TAG 0 and ENC 0 that is correctable; any other is refused and counted (R551). -/
def State.stageMerge (s : State) (l : Nat) (bytes : List (Option Byte)) : State :=
  if bytes.all Option.isSome then
    let t : TLine := { data := bytes.map fun b => b.getD 0 }
    (s.writeTier l t).tellTier l t
  else
    match (s.askTier l).readTier l with
    | (s1, .line t) =>
      if t.tag = 0 ∧ t.enc = false then
        let n : TLine := { data := bytes.zipIdx.map fun b => b.1.getD (t.data.getD b.2 0) }
        (s1.writeTier l n).tellTier l n
      else s1.addSat F.HST_ERR_STAGE_REFUSED 1
    | (s1, .zero) => s1
    | (s1, .lost) => s1.addSat F.HST_ERR_STAGE_REFUSED 1

/-- A line put in every copy, whatever its lane. -/
def State.setCopies (s : State) (l : Nat) (t : TLine) : State :=
  (s.copiesOf (pageOf l)).foldl (fun s p => s.setLine (lineKey p.1 p.2 (l % pageLines)) t) s

/-- The line as a write that leaves some bytes finds it: its data, or zeros of an unwritten page. -/
def State.lineNow (s : State) (l : Nat) : TLine :=
  let q := pageOf l
  if !s.isWritten q then {}
  else
    match s.readOrder q with
    | [] => {}
    | p :: _ => mget lineDefault s.mem.lines (lineKey p.1 p.2 (l % pageLines))

/-- Every line of a copy back to zero (R400, R401). -/
def State.clearPage (s : State) (m phys : Nat) : State :=
  { s with mem := { s.mem with lines := mclear s.mem.lines (lineKey m phys 0) pageLines } }

/-- A page marked unwritten (R400, R409, R421). -/
def State.unwrite (s : State) (q : Nat) : State :=
  { s with mem := { s.mem with written := mset (fun _ => false) s.mem.written q false } }

/-- The tiers that a configuration uses (R595, R596) and that are not held (R386). -/
def State.tierUsed (s : State) (t : Nat) : Bool :=
  decide (t = 1) || (decide (t = 2) && s.memFlags.testBit 1) || (decide (t = 3) && s.memFlags.testBit 2)
def State.tierServes (s : State) (t : Nat) : Bool := s.tierUsed t && !s.mem.heldTiers.contains t

/-- The tiers that a range of tier addresses touches. -/
def tiersTouched (base len : Nat) : List Nat :=
  [1, 2, 3].filter fun t =>
    let lo := if t = 1 then 0 else if t = 2 then 2 ^ 40 else 2 ^ 41
    let hi := if t = 1 then 2 ^ 40 else if t = 2 then 2 ^ 41 else 2 ^ 42
    decide (0 < len) && decide (base < hi) && decide (lo < base + len)

/-- The pages that a transfer touches. -/
def pagesTouched (addr len : Nat) : List Nat :=
  if len = 0 then []
  else (List.range ((addr + len - 1) / 2 ^ 21 + 1 - addr / 2 ^ 21)).map fun i => addr / 2 ^ 21 + i

/-- May a transfer touch these pages: none in the pool or hidden (R391, R406)? -/
def State.pagesOk (s : State) (addr len : Nat) : Bool :=
  (pagesTouched addr len).all fun q => !s.inPool q && !s.isHidden q

/-! ## Keys (R299, R300, R304, R322, R404, R405) -/

def keyDefault (_ : Nat) : KeySlot := {}

def State.keySlot (s : State) (n : Nat) : KeySlot := mget keyDefault s.disp.keys n

def State.setKeySlot (s : State) (n : Nat) (k : KeySlot) : State :=
  { s with disp := { s.disp with keys := mset keyDefault s.disp.keys n k } }

/-- An uncorrectable key slot is zeroed with its event (R300). -/
def State.checkKey (s : State) (n : Nat) : State :=
  if (s.keySlot n).flaw then (s.setKeySlot n {}).raiseEvent 0x03 n 0 else s

/-- The key of context `c` for a transfer, or none where it is refused with KEY (R61, R204, R299, R304). -/
def State.keyFor (s : State) (c : Nat) : State × Option KeySlot :=
  if s.ctx c cfKeyEn = 0 then (s, none)
  else
    let n := s.ctx c cfKeySlot
    let s1 := s.checkKey n
    let k := s1.keySlot n
    if k.bytes.isEmpty || !(decide (s1.lifecycle = 1) || decide (s1.lifecycle = 2)) ||
      decide (s1.fld F.SEC_CF_STATUS_WIPE_BUSY = 1) then (s1, none)
    else (s1, some k)

/-- The tweak of a tier line (R404): bits 41:6 of its logical address. -/
def tweakOf (l : Nat) : Bytes := bytesOfNat 16 l

def encryptLine (k : KeySlot) (l : Nat) (d : Bytes) : Bytes := xtsEncrypt (k.bytes.take 32) (k.bytes.drop 32) (tweakOf l) d
def decryptLine (k : KeySlot) (l : Nat) (d : Bytes) : Bytes := xtsDecrypt (k.bytes.take 32) (k.bytes.drop 32) (tweakOf l) d

/-! ## Requests (R378, R401, R403, R417, R418) -/

/-- A range cut in groups of at most eight lines inside one page: first line, count and byte offset in the transfer. -/
def groupsOfLines : Nat → Nat → Nat → Nat → List (Nat × Nat × Nat)
  | 0, _, _, _ => []
  | fuel + 1, l, n, off =>
    if n = 0 then []
    else
      let c := min (min 8 n) (pageLines - l % pageLines)
      (l, c, off) :: groupsOfLines fuel (l + c) (n - c) (off + 64 * c)

/-- CGEN of a physical cluster (R683, R693). -/
def State.cgenOf (s : State) (p : Nat) : Nat := (s.clu p).cgen

def State.cgenOfOwner (s : State) : Owner → Nat
  | .barrow p _ => s.cgenOf p
  | .remote _ => 0

/-- A request queued at its controller. -/
def State.putReq (s : State) (r : Req) : State :=
  { s with mem := { s.mem with reqs := s.mem.reqs ++ [r], nextReq := s.mem.nextReq + 1 } }

/-- The byte address of a request in its module. -/
def Req.addr (r : Req) : Nat := lineAddr r.phys (r.line % pageLines)

/-- The group that a request sends on its lane, stamped with LANE_GEN (R378, R395, R396, R417). -/
def State.memGroup (s : State) (r : Req) : Emit :=
  if r.write then s.writeGroup r.module r.addr r.lines else s.readGroup r.module r.addr r.count

/-- Can a queued request be sent: its module is ready, and a write's page is filled (R401, R418)? -/
def State.canSend (s : State) (r : Req) : Bool :=
  !r.sent && s.modReady r.module &&
    !(r.write && (s.mem.waits.any fun w => decide (r.line ≤ w.line) && decide (w.line < r.line + r.count)))

/-- Every request that can be sent now is sent, in order. -/
def State.sendReady (s : State) : State :=
  let issue (r : Req) : Req := if s.canSend r then { r with sent := true, since := s.now, filling := false } else r
  ((s.mem.reqs.filter s.canSend).map s.memGroup).foldl State.emit { s with mem := { s.mem with reqs := s.mem.reqs.map issue } }

/-- A read group of a barrow issued to the place that a read now takes. -/
def State.issueRead (s : State) (p id c : Nat) (enc slice : Bool) (line count off : Nat) : State :=
  let pl := ((s.readOrder (pageOf line)).head?).getD (s.placeOf (pageOf line) false)
  (s.putReq
    { seq := s.mem.nextReq, lane := laneOfModule pl.1, sent := false, since := s.now, write := false, owner := some (.barrow p id),
      ctx := c, ctxGen := s.ctx c cfGen, cgen := s.cgenOf p, enc := enc, line := line, count := count, module := pl.1,
      phys := pl.2, slice := slice, off := off }).sendReady

/-- A write group issued to every copy that it reaches, one request a copy (R407), and to the new place of a page that moves (R413).
Its lines are put in place where the page is written and a copy is reachable, else they wait. -/
def State.issueWrite (s : State) (ow : Owner) (c : Nat) (enc : Bool) (tag kgen line : Nat) (data : List Bytes) : State :=
  let q := pageOf line
  let fill := !s.isWritten q
  let ps := s.writePlaces q
  let targets := if ps.isEmpty then [s.placeOf q false] else ps ++ s.movePlaces q
  let ls := data.map fun d => ({ data := d, tag := tag, kgen := kgen, enc := enc } : TLine)
  let first := s.mem.nextReq
  let s1 := if fill || ps.isEmpty then
      { s with mem := { s.mem with waits := s.mem.waits ++ data.zipIdx.map fun d =>
        { line := line + d.2, bytes := d.1.map some, tag := tag, kgen := kgen, enc := enc, req := some first } } }
    else ls.zipIdx.foldl (fun s t => s.writeTier (line + t.2) t.1) s
  (targets.foldl (fun (s : State) t =>
    s.putReq { seq := s.mem.nextReq, lane := laneOfModule t.1, sent := false, since := s.now, write := true, owner := some ow,
               ctx := c, ctxGen := s.ctx c cfGen, cgen := s.cgenOfOwner ow, enc := enc, line := line, count := data.length,
               module := t.1, phys := t.2, slice := false, off := 0, filling := fill, lines := ls }) s1).sendReady

/-- A waiting write applied: one of the staging window as R551 has it, and a whole line of a barrow. -/
def State.applyWait (s : State) (w : WaitWrite) : State :=
  if w.req.isNone then s.stageMerge w.line w.bytes
  else s.writeTier w.line { data := w.bytes.map fun b => b.getD 0, tag := w.tag, kgen := w.kgen, enc := w.enc }

/-- Waiting writes whose page is written and whose place is reachable take effect, and the requests that can be sent are sent. -/
def State.releaseWaits (s : State) : State :=
  let ready (s : State) (w : WaitWrite) : Bool := s.isWritten (pageOf w.line) && !(s.writePlaces (pageOf w.line)).isEmpty
  let go := s.mem.waits.filter (ready s)
  (go.foldl State.applyWait { s with mem := { s.mem with waits := s.mem.waits.filter fun w => !ready s w } }).sendReady

/-- Does a barrow descriptor still have requests outstanding? -/
def State.memBusy (s : State) (p id : Nat) : Bool := s.mem.reqs.any fun r => decide (r.owner = some (.barrow p id))

/-! ## Tenant and encryption checks (R399) -/

/-- The outcome of R399 for a line read through a window: delivered as it is, decrypted, or a refusal code. -/
def lineCheck (winEnc : Bool) (tenant : Nat) (key : Option KeySlot) (t : TLine) : Except Nat Bool :=
  if !winEnc then
    if t.enc then .error rcKey
    else if t.tag = 0 ∨ t.tag = tenant then .ok false else .error rcWindow
  else if !t.enc then .error rcKey
  else if t.tag ≠ tenant then .error rcWindow
  else
    match key with
    | none => .error rcKey
    | some k => if t.kgen = k.kgen then .ok true else .error rcKey

end Sys2Proof.Machine
end

