-- ==== Sys2Proof/Machine/MemLanes.lean ====
section
/-! DEFINITION. The events of the memory lanes: groups received, spare optical lanes, retrains, page fills, mirror resync,
patrol, evacuation and migration (R377 to R430). -/

namespace Sys2Proof.Machine

/-! ## Retrains (R380, R417, R418, R423) -/

/-- Does any mirrored region have copies on module `k`? -/
def State.anyMirror (s : State) : Bool := decide (s.fld F.MEM_MIRROR_REGION ≠ 0)

/-- The copies on the module of lane `k` lie behind a lost lane: they are stale until a resync (R408). -/
def State.loseCopies (s : State) (k : Nat) : State :=
  if s.anyMirror then
    ({ s with mem := { s.mem with behind := if s.mem.behind.contains k then s.mem.behind else s.mem.behind ++ [k] } } : State).setFld
      (F.MEM_LANE_STATUS_STALE.at k) 1
  else s

/-- Does a request ask for a mirrored page whose other copy is reachable? -/
def State.hasOther (s : State) (r : Req) : Bool :=
  s.isMirrored (pageOf r.line) &&
    (s.copiesOf (pageOf r.line)).any fun p => decide (p ≠ (r.module, r.phys)) && s.modReachable p.1 && !s.missedCopy p.1 p.2

/-- Is a request the part of a write that goes to the new place of a page that moves (R413)? -/
def State.moveReq (s : State) (r : Req) : Bool := r.write && (s.movePlaces (pageOf r.line)).contains (r.module, r.phys)

/-- The write that a request carries no longer waits for that copy: it is missed, or copied again by the page's move (R403). -/
def State.dropCopy (s : State) (r : Req) : State :=
  let s1 : State := { s with mem := { s.mem with reqs := s.mem.reqs.filter fun q => decide (q.seq ≠ r.seq) } }
  let s2 := if s.moveReq r then s1 else s1.missWrite r.module r.phys
  match r.owner.bind Owner.inbound with
  | some n => if s2.mem.reqs.any fun q => decide (q.owner = some (.remote n)) then s2 else s2.finishInbound n
  | none => s2

/-- A read of a mirrored page not yet sent, for the page's other copy (R407). -/
def State.rerouteRead (s : State) (r : Req) : Req :=
  match (s.copiesOf (pageOf r.line)).filter fun p => decide (p ≠ (r.module, r.phys)) with
  | p :: _ => { r with lane := laneOfModule p.1, module := p.1, phys := p.2 }
  | [] => r

/-- The requests of a lane that is lost (R382, R403, R408, R418): a write to a mirrored page completes on the other copy, a read not
yet sent goes to it, and every other request sent is given up, its step to replay. A remote write given up is not answered (log
entry 61). Lanes named in `wait` must be ready before the replay. -/
def State.giveUpLane (s : State) (k : Nat) (wait : List Nat) : State :=
  let mine := s.mem.reqs.filter fun r => decide (r.lane = k)
  let s1 := (mine.filter fun r => r.write && (s.moveReq r || s.hasOther r)).foldl State.dropCopy s
  let s2 : State := { s1 with mem := { s1.mem with reqs := s1.mem.reqs.map fun r =>
    if r.lane = k ∧ r.sent = false ∧ r.write = false ∧ s1.hasOther r = true then s1.rerouteRead r else r } }
  let lost (r : Req) : Bool := decide (r.lane = k) && r.sent
  let leads := ((s2.mem.reqs.filter lost).filterMap fun r =>
    (r.owner.bind Owner.cluster).bind fun p => (s2.clu p).lead).eraseDups
  let gone := (s2.mem.reqs.filter lost).filterMap fun r => r.owner.bind Owner.inbound
  let s3 := leads.foldl (fun s l => s.replayStep l 5 wait) s2
  ({ s3 with
    mem := { s3.mem with reqs := s3.mem.reqs.filter fun r => !lost r }
    fab := { s3.fab with inbound := s3.fab.inbound.filter fun e => !gone.contains e.1 } } : State)

/-- A retrain of lane `k` begins (events 1 and 2 of R418): requests unanswered are given up and their steps replay after the
retrain, LANE_GEN advances, the bridge holds its modules, and no new request is sent. -/
def State.retrainLane (s : State) (k : Nat) : State :=
  if s.laneState k = mlTraining then s
  else
    let s0 := s.setFld (F.MEM_LANE_STATUS_STATE.at k) mlTraining
    let s2 := (s0.giveUpLane k [k]).loseCopies k
    let s3 := (((s2.addWrap (F.MEM_LANE_STATUS_LANE_GEN.at k) 1).addSat (F.MEM_LANE_STATUS_RETRAINS.at k) 1).setFld
      (F.MEM_LANE_STATUS_SELF_REFRESH.at k) 1).setFld (F.MEM_LANE_CTL_RETRAIN.at k) 1
    let s4 : State := { s3 with mem := { s3.mem with subs := mset (fun _ => 0) s3.mem.subs k 0 } }
    ((s4.resetArbs (ArbId.ofLane k)).raiseEvent 0x16 k (s4.fld (F.MEM_LANE_STATUS_LANE_GEN.at k))).sendReady

/-- MEM_LANE_RETRAIN: a retrain cause on a lane that is up (R418). -/
def State.doMemLaneRetrain (s : State) (k : Nat) : State :=
  if k < 16 ∧ s.mayTrain = true ∧ (s.laneUsable k = true ∨ s.laneState k = mlHeld) then s.retrainLane k else s

def execMemLaneRetrain (k : Nat) (s : State) : Host.Outcome State Fault Refusal := .next (s.doMemLaneRetrain k)

/-- Have the lanes been started: from event 9 of R608 on, and never in HELD (R607)? -/
def State.lanesStarted (s : State) : Bool :=
  s.mayTrain && (s.inService || (decide (s.devState = dsConfiguring) && decide (4 ≤ s.boot.stage)))

/-- MEM_LANE_CTL_RETRAIN: a write of 1 to MEM_LANE_CTL[k].RETRAIN, which also brings back a lane that is DOWN (R382, R423). -/
def State.doMemLaneCtlRetrain (s : State) (k : Nat) : State :=
  s.powered blkMem fun s => if k < 16 ∧ s.lanesStarted = true then s.retrainLane k else s

def execMemLaneCtlRetrain (k : Nat) (s : State) : Host.Outcome State Fault Refusal := .next (s.doMemLaneCtlRetrain k)

/-- MEMORY_REPLY_TIMEOUT: a request sent 50 µs ago on a lane that carries traffic has no reply (R687). While a transition to DARK
lets no lane train, the requests are only given up (R59). -/
def State.doMemoryReplyTimeout (s : State) (k : Nat) : State :=
  if k < 16 ∧ s.laneUsable k = true ∧
      (s.mem.reqs.any fun r => decide (r.lane = k) && r.sent && decide (r.since + 50000 ≤ s.now)) = true then
    (if s.mayTrain then s.retrainLane k else s.giveUpLane k [])
  else s

def execMemoryReplyTimeout (k : Nat) (s : State) : Host.Outcome State Fault Refusal := .next (s.doMemoryReplyTimeout k)

/-! ## Held tiers and leases (R385 to R387) -/

/-- Is a tier-1 module retired, by its record or under ALLOW_MISSING (R387, R415)? -/
def State.isRetired (s : State) (m : Nat) : Bool := s.repair.modules.contains m || s.mem.absent.contains m

/-- A module of a tier in use that did not answer as the section states (R383, R386, R387; log entry 66). -/
def State.moduleMissing (s : State) (t m : Nat) : Bool :=
  decide (tierOfModule m = t) && s.mem.badMods.contains m && s.tierUsed t &&
    !(decide (t = 1) && s.isRetired m)

/-- Tier `t` held, once, with its event. -/
def State.holdTier (s : State) (t : Nat) : State :=
  if s.mem.heldTiers.contains t then s
  else ({ s with mem := { s.mem with heldTiers := s.mem.heldTiers ++ [t] } } : State).raiseEvent 0x1C t 0

/-- Held tiers, HELD_SECT bit 19 and its cause MISMATCH (R624) brought up to date after modules reported, and after a retired module's
pages found no pool (R386, R387). -/
def State.checkTiers (s : State) : State :=
  let held := [1, 2, 3].filter fun t => decide ((s.sect 2).isEmpty = true) || (List.range 32).any (s.moduleMissing t) ||
    (decide (t = 1) && s.mem.uncovered)
  let s1 := held.foldl State.holdTier { s with mem := { s.mem with heldTiers := s.mem.heldTiers.filter held.contains } }
  let s2 := s1.setFld F.GLB_STATE_HELD_SECT (s1.fld F.GLB_STATE_HELD_SECT &&& 0x7D ||| (if held.isEmpty then 0 else 2))
  if (s.sect 2).isEmpty then s2 else s2.setFld F.GLB_CFG_HOLD_CAUSEB (if held.isEmpty then 0 else 4)

/-- The module that bridge `k` forwards to (R377). -/
def fwdModule (k : Nat) : Nat := if k % 2 = 0 then 16 + k / 2 else 24 + k / 2

/-- The last report of bridge `k`. -/
def State.reportOf (s : State) (k : Nat) : BridgeReport :=
  ((s.mem.reports.find? fun e => decide (e.1 = k)).map (·.2)).getD BridgeReport.good

/-- The last report of bridge `k` held against the section in force: the modules that do not match, FWD_PRESENT, and the shelf module
that holds the lease (R385, R386, R429, R612). -/
def State.judgeReport (s : State) (k : Nat) : State :=
  let r := s.reportOf k
  let lease := decide (r.lease.toNat = s.confNum 2 4 4 0)
  let fwdOk := r.up && r.fwdPresent && r.fwdSizeOk && (decide (k % 2 = 0) || lease)
  let nearOk := r.up && decide (r.speed ≠ 0) && decide (r.speed = s.t1Speed) && r.sizeOk
  let bad := (s.mem.badMods.filter fun m => decide (m ≠ k) && decide (m ≠ fwdModule k)) ++
    (if nearOk then [] else [k]) ++ (if fwdOk then [] else [fwdModule k])
  let s1 := ({ s with mem := { s.mem with badMods := bad } } : State).setFld (F.MEM_LANE_STATUS_FWD_PRESENT.at k)
    (bit (r.up && r.fwdPresent && (decide (k % 2 = 0) || lease)))
  if k % 2 = 0 then s1 else
    s1.setFld F.MEM_LEASE_MODULES (s1.fld F.MEM_LEASE_MODULES &&& (255 - 2 ^ (k / 2)) |||
      (if r.up && r.fwdPresent && lease then 2 ^ (k / 2) else 0))

/-- What every bridge last reported held against a section newly in force (R612). -/
def State.judgeReports (s : State) : State := (List.range 16).foldl State.judgeReport s

/-- The pages of a module whose contents are gone are unwritten (R421). -/
def State.loseModule (s : State) (m : Nat) : State :=
  ((s.mem.written.map (·.1)).filter fun q =>
    decide ((s.placeOf q false).1 = m) || (s.isMirrored q && decide ((s.placeOf q true).1 = m))).foldl State.unwrite s

/-- What bridge `k` reports about its modules, kept, judged and entered in the lane's fields (R385, R386, R421). -/
def State.takeReport (s : State) (k : Nat) (r : BridgeReport) : State :=
  let s1 : State := { s with mem := { s.mem with
    reports := (s.mem.reports.filter fun e => decide (e.1 ≠ k)) ++ [(k, r)] } }
  let s2 := ((s1.judgeReport k).setFld (F.MEM_LANE_STATUS_SPEED.at k) (if r.up then r.speed else 0)).setFld
    (F.MEM_LANE_STATUS_SELF_REFRESH.at k) (bit !r.up)
  let s3 := if r.up && r.lostNear then s2.loseModule k else s2
  if r.up && r.lostFwd then s3.loseModule (fwdModule k) else s3

/-- MEM_LEASE brought up to date (R385, R429). -/
def State.showLease (s : State) : State :=
  let granted := s.shelfModules
  let st := if granted = 0 then 0 else if s.mem.heldTiers.contains 3 then 2 else 1
  (s.setFld F.MEM_LEASE_LEASE_ID (s.confNum 2 4 4 0)).setFld F.MEM_LEASE_STATE st

/-- How many bits of a mask of four are set. -/
def laneCount (m : Nat) : Nat := ((List.range 4).filter fun i => m.testBit i).length

/-- The mask of optical lanes lost, its width and the state that it gives (R382, R422). -/
def State.showLost (s : State) (k m : Nat) : State :=
  let w := 4 - laneCount m
  (({ s with mem := { s.mem with lost := mset (fun _ => 0) s.mem.lost k m } } : State).setFld (F.MEM_LANE_STATUS_WIDTH.at k)
    (if w = 4 then 0 else if w = 3 then 1 else if w = 2 then 2 else 3)).setFld
    (F.MEM_LANE_STATUS_STATE.at k) (if w = 4 then mlUp else if 2 ≤ w then mlDegraded else mlDown)

/-- A lane that has trained on `w` optical lanes: the bridge reports how many, and the mask keeps those known to be lost (log entry
66). -/
def State.showWidth (s : State) (k w : Nat) : State :=
  let m := mget (fun _ => 0) s.mem.lost k
  s.showLost k (if laneCount m = 4 - w then m else 2 ^ (4 - w) - 1)

/-- The replays that wait for lane `k` wait no longer for it (R180). -/
def State.laneReady (s : State) (k : Nat) : State :=
  { s with disp := { s.disp with steps := s.disp.steps.map fun t =>
      { t with needLanes := t.needLanes.filter fun l => decide (l ≠ k) } } }

/-- What a lane's training found: its modules, its width, and its replays released; a lane found DOWN keeps its modules in
self-refresh and leaves its copies stale (R382, R408, R419, R420). -/
def State.laneTrained (s : State) (k : Nat) (r : BridgeReport) : State :=
  let w := if r.up then min r.width 4 else 0
  let s1 := ((s.takeReport k r).showWidth k w).setFld (F.MEM_LANE_CTL_RETRAIN.at k) 0
  if w < 2 then (((s1.giveUpLane k []).loseCopies k).setFld (F.MEM_LANE_STATUS_SELF_REFRESH.at k) 1 |>.raiseEvent 0x17 k 0).laneReady k
  else s1.laneReady k

/-- MEM_LANE_UP: a lane that trains is UP, or found DOWN, and held requests are sent (events 3 to 6 of R418). -/
def State.doMemLaneUp (s : State) (k : Nat) (r : BridgeReport) : State :=
  if k < 16 ∧ (s.memOn = true ∨ s.leavingDark = true) ∧ s.laneState k = mlTraining then (s.laneTrained k r).checkTiers.showLease.releaseWaits
  else s

def execMemLaneUp (k : Nat) (report : BridgeReport) (s : State) : Host.Outcome State Fault Refusal :=
  .next (s.doMemLaneUp k report)

/-! ## Optical lanes (R381, R382, R718) -/

/-- A repair record written (R838 class 0x0D): kind 1 cluster, 2 module, 3 lane, with the index and the values before and after
(log entry 30). -/
def State.logRepair (s : State) (kind index old new : Nat) : State :=
  s.logChange orHw 0x0D (kind * 4096 + index) (logValue old) (logValue new)

/-- The light engine of a memory lane (R377), and the spares used on an engine: each is booked, and recorded, as its substitution
begins (R41, R718). -/
def engineOfLane (k : Nat) : Nat := 1 + k / 4
def State.sparesUsed (s : State) (e : Nat) : Nat := (s.repair.lanes.filter fun x => decide (x.1 = e)).length

/-- The spares substituted into one unit of an engine. -/
def State.sparesOf (s : State) (e unit : Nat) : Nat :=
  (s.repair.lanes.filter fun x => decide (x.1 = e) && decide (x.2.1 = unit)).length

/-- A spare of an engine booked for an optical lane of a unit, with its repair entry, which the active controller writes under its epoch
(R296, R297). -/
def State.bookSpare (s : State) (e unit lane : Nat) : State :=
  (s.writeRepair fun r => { r with lanes := r.lanes ++ [(e, unit, lane)] }).logRepair 3 e (s.sparesUsed e) (s.sparesUsed e + 1)

/-- A lane left with fewer than two optical lanes is DOWN (R382): what was sent on it is given up, and its copies are stale. -/
def State.laneDown (s : State) (k : Nat) : State :=
  let s1 := s.setFld (F.MEM_LANE_STATUS_STATE.at k) mlDown
  let s2 := ((s1.giveUpLane k []).loseCopies k).setFld (F.MEM_LANE_STATUS_SELF_REFRESH.at k) 1
  (({ s2 with mem := { s2.mem with subs := mset (fun _ => 0) s2.mem.subs k 0 } } : State).raiseEvent 0x17 k 0).sendReady

/-- Is a self-test on a memory lane in progress (R735)? -/
def State.laneTest (s : State) (k : Nat) : Bool :=
  s.ras.selftest.any fun x => decide (x.1 = 2) && decide (x.2.1 = k)

/-- The reply times of the requests sent on lane `k` count from now: while it was held nothing could be answered (R381, R687). -/
def State.restartReplies (s : State) (k : Nat) : State :=
  { s with mem := { s.mem with reqs := s.mem.reqs.map fun r => if r.lane = k ∧ r.sent = true then { r with since := s.now } else r } }

/-- A lane whose substitutions and self-test have ended carries traffic again, on the optical lanes it has (R381, R382). -/
def State.endHold (s : State) (k : Nat) : State :=
  if mget (fun _ => 0) s.mem.subs k = 0 ∧ s.laneTest k = false then
    ((s.restartReplies k).showLost k (mget (fun _ => 0) s.mem.lost k)).releaseWaits
  else s

/-- Does an optical lane fail: it loses light, or shows more symbol errors within 1 ms than the reliability section's LANE_ERR_LIMIT, 1,024
while that section is held (R381, R438, R544, R600)? -/
def State.laneFails (s : State) (x : OpticalLane) : Bool := x.errors.all fun n => decide (s.confNum 5 10 2 1024 < n)

/-- MEM_OPTICAL_LANE_FAIL: a spare of the same light engine is booked and substituted while the lane's traffic is held, or the lane
goes on narrower or DOWN. -/
def State.doMemOpticalLaneFail (s : State) (k : Nat) (x : OpticalLane) : State :=
  let lane := x.lane
  let gone := mget (fun _ => 0) s.mem.lost k ||| mget (fun _ => 0) s.mem.subs k
  if k < 16 ∧ lane < 4 ∧ s.laneFails x = true ∧ (s.laneUsable k = true ∨ s.laneState k = mlHeld) ∧ gone.testBit lane = false then
    if s.sparesUsed (engineOfLane k) < 2 then
      let s1 := (s.bookSpare (engineOfLane k) k lane).setFld (F.MEM_LANE_STATUS_STATE.at k) mlHeld
      { s1 with mem := { s1.mem with subs := mset (fun _ => 0) s1.mem.subs k (mget (fun _ => 0) s1.mem.subs k ||| 2 ^ lane) } }
    else
      let m := mget (fun _ => 0) s.mem.lost k ||| 2 ^ lane
      let s1 := s.showLost k m
      if 2 < laneCount m then s1.laneDown k
      else if s.laneState k = mlHeld then s1.setFld (F.MEM_LANE_STATUS_STATE.at k) mlHeld else s1
  else s

def execMemOpticalLaneFail (k : Nat) (lane : OpticalLane) (s : State) : Host.Outcome State Fault Refusal :=
  .next (s.doMemOpticalLaneFail k lane)

/-- MEM_SPARE_DONE: the substitution of a lane's lowest failed optical lane completes, and held traffic continues. -/
def State.doMemSpareDone (s : State) (k : Nat) : State :=
  let m := mget (fun _ => 0) s.mem.subs k
  match (List.range 4).find? fun i => m.testBit i with
  | some i =>
    if k < 16 ∧ s.laneState k = mlHeld then
      let s1 : State := { s with mem := { s.mem with subs := mset (fun _ => 0) s.mem.subs k (m ^^^ 2 ^ i) } }
      ((s1.setFld (F.MEM_LANE_STATUS_SPARES.at k) (min 2 (s1.fld (F.MEM_LANE_STATUS_SPARES.at k) + 1))).raiseEvent 0x18
        (engineOfLane k) k).endHold k
    else s
  | none => s

def execMemSpareDone (k : Nat) (s : State) : Host.Outcome State Fault Refusal := .next (s.doMemSpareDone k)

/-! ## Evacuation and migration (R412 to R416, R426, R427) -/

/-- The lines of one copy read and copied to another place. -/
def State.copyPage (s : State) (fm fp tm tp : Nat) : State :=
  let src := s.mem.lines.filter fun e => decide (lineKey fm fp 0 ≤ e.1) && decide (e.1 < lineKey fm fp 0 + pageLines)
  let s1 := s.clearPage tm tp
  let s2 := src.foldl (fun s e => s.setLine (lineKey tm tp (e.1 - lineKey fm fp 0)) e.2) s1
  (s2.emit (.memReads (laneOfModule fm) (s.laneGen fm) fm (lineAddr fp 0) pageLines)).emit
    (.memCopy (laneOfModule tm) (s.laneGen tm) tm (lineAddr tp 0) pageLines fm (lineAddr fp 0))

/-- The states of MEM_EVAC_STATUS and of a journal entry. -/
def evRunning : Nat := 1
def evDone : Nat := 2
def evFailed : Nat := 3
def evPaused : Nat := 4
def joCopying : Nat := 1
def joSwitched : Nat := 2
def joDone : Nat := 3

/-- The page copies on a tier-1 module: those at home there and those moved there, the pool's own pages left out. -/
def State.copiesOn (s : State) (m : Nat) : List (Nat × Bool) :=
  let home := (List.range (2048 * (16 - s.evacReserve))).filterMap fun i =>
    let k := i / 2048
    let r := i % 2048
    let c : Nat × Bool :=
      if (s.fld F.MEM_MIRROR_REGION).testBit k then
        (if r < 1024 then (32768 * k + 16 * r + m, false) else (32768 * k + 16 * (r - 1024) + (m + 8) % 16, true))
      else (32768 * k + 16 * r + m, false)
    if mget (fun _ => 0) s.mem.table (2 * c.1 + bit c.2) = 0 then some c else none
  let here := s.mem.table.filterMap fun e => if (e.2 - 1) / 2 ^ 18 = m then some (e.1 / 2, decide (e.1 % 2 = 1)) else none
  home ++ here

/-- A free pool page on a module that holds no copy of the page, is not retired and is not being emptied: the lowest, whatever its
lane does, so that a cold start finds the same places again (R412, R415; log entry 66). -/
def State.poolPage (s : State) (m q : Nat) : Option (Nat × Nat) :=
  let holders := (s.copiesOf q).map (·.1)
  let first := 2048 * (16 - s.evacReserve)
  (List.range 16).findSome? fun t =>
    if holders.contains t || decide (t = m) || s.isRetired t then none
    else ((List.range (2048 * s.evacReserve)).find? fun i => !s.mem.pool.any fun e => decide (e = (t, first + i))).map
      fun i => (t, first + i)

def State.setEvac (s : State) (e : Option Evac) : State := { s with mem := { s.mem with evac := e } }

def State.journalAt (s : State) (phys v : Nat) : State :=
  { s with mem := { s.mem with journal := mset (fun _ => 0) s.mem.journal phys v } }

/-- A place of the pool that no page uses any more. -/
def State.freePool (s : State) (m phys : Nat) : State :=
  { s with mem := { s.mem with pool := s.mem.pool.filter fun p => decide (p ≠ (m, phys)) } }

/-- GO reads 0 again and the final state is shown. -/
def State.endEvac (s : State) (e : Evac) (st : Nat) : State :=
  let s1 := (((s.setEvac none).setFld F.MEM_EVAC_CTL_GO 0).setFld F.MEM_MIGRATE_GO 0).setFld F.MEM_EVAC_STATUS_STATE st
  let n := s1.fld F.MEM_EVAC_STATUS_PAGES_DONE
  if e.migration then s1
  else if st = evDone then
    (((s1.writeRepair fun r => { r with modules := (r.modules ++ [e.module]).eraseDups }).setFld
      (F.MEM_LANE_STATUS_RETIRED.at e.module) 1).logRepair 2 e.module 0 1).raiseEvent 0x1A e.module n
  else s1.raiseEvent 0x1B e.module n

/-- A write of a page that begins to move, not yet sent to its old place, goes to the new place too (R413). -/
def State.joinMove (s : State) (mv : PageMove) : State :=
  if s.modReachable mv.toMod then
    (s.mem.reqs.filter fun r => r.write && !r.sent && decide (pageOf r.line = mv.page) && decide (r.module = mv.fromMod) &&
      decide (r.phys = mv.fromPhys)).foldl (fun s r =>
        s.putReq { r with seq := s.mem.nextReq, lane := laneOfModule mv.toMod, module := mv.toMod, phys := mv.toPhys }) s
  else s

/-- What was not yet sent to the old place of a page goes to the new place alone from SWITCHED on: a write that goes there already is
not sent twice (R413). -/
def State.followMove (s : State) (mv : PageMove) : State :=
  let old (r : Req) : Bool := !r.sent && decide (pageOf r.line = mv.page) && decide (r.module = mv.fromMod) &&
    decide (r.phys = mv.fromPhys)
  let twice (r : Req) : Bool := old r && r.write && s.mem.reqs.any fun q => q.write && decide (q.module = mv.toMod) &&
    decide (q.phys = mv.toPhys) && decide (q.owner = r.owner) && decide (q.line = r.line) && decide (q.lines = r.lines)
  { s with mem := { s.mem with reqs := (s.mem.reqs.filter fun r => !twice r).map fun r =>
    if (old r) then { r with lane := laneOfModule mv.toMod, module := mv.toMod, phys := mv.toPhys } else r } }

/-- The next page enters COPYING, or the evacuation ends (R412, R415). -/
def State.nextPage (s : State) (e : Evac) : State :=
  match e.todo with
  | [] => s.endEvac { e with cur := none } evDone
  | c :: rest =>
    match s.poolPage e.module c.1 with
    | none => s.endEvac { e with cur := none } evFailed
    | some t =>
      let f := s.placeOf c.1 c.2
      let mv : PageMove := { page := c.1, mirror := c.2, fromMod := f.1, fromPhys := f.2, toMod := t.1, toPhys := t.2, switched := false }
      ((({ s with mem := { s.mem with pool := s.mem.pool ++ [t] } } : State).setEvac
        (some { e with todo := rest, cur := some mv })).journalAt f.2 joCopying).joinMove mv

/-- An evacuation or migration begins (R414, R426). -/
def State.startEvac (s : State) (m : Nat) (migration : Bool) (todo : List (Nat × Bool)) (trigger : Nat) : State :=
  if s.mem.evac.isSome then s
  else
    let s1 := ((((s.setFld F.MEM_EVAC_STATUS_PAGES_DONE 0).setFld F.MEM_EVAC_STATUS_PAGES_TOTAL todo.length).setFld
      F.MEM_EVAC_STATUS_MIGRATION (bit migration)).setFld F.MEM_EVAC_STATUS_MODULE m).setFld F.MEM_EVAC_STATUS_STATE evRunning
    let s2 := if migration then s1.setFld F.MEM_MIGRATE_GO 1
      else ((s1.setFld F.MEM_EVAC_CTL_GO 1).raiseEvent 0x19 m trigger)
    ({ s2 with mem := { s2.mem with journal := [], dueEvac := s2.mem.dueEvac.filter fun x => decide (x.1 ≠ m) } } : State).nextPage
      { module := m, migration := migration, todo := todo, cur := none }

/-- A module whose evacuation has a cause under the policy starts once nothing else runs (R414). -/
def State.runDueEvac (s : State) : State :=
  if s.lanesSend = false then s
  else
  match s.mem.evac, s.mem.dueEvac with
  | none, m :: _ =>
    if s.isRetired m.1 then { s with mem := { s.mem with dueEvac := s.mem.dueEvac.tail } }
    else s.startEvac m.1 false (s.copiesOn m.1) m.2
  | _, _ => s

/-- MEM_EVAC_GO: a write of GO to MEM_EVAC_CTL with its MODULE; GO is ignored while an evacuation or migration runs (R414, R426). -/
def State.doMemEvacGo (s : State) (m : Nat) : State :=
  s.powered blkMem fun s =>
    let s1 := s.setFld F.MEM_EVAC_CTL_MODULE m
    if m < 16 ∧ s.mem.evac = none then s1.startEvac m false (s.copiesOn m) 1 else s1

def execMemEvacGo (module : Nat) (s : State) : Host.Outcome State Fault Refusal := .next (s.doMemEvacGo module)

/-- MEM_MIGRATE_GO: a write of GO to MEM_MIGRATE with its PAGE, the primary copy of a tier-1 page (R414, R426). -/
def State.doMemMigrateGo (s : State) (q : Nat) : State :=
  s.powered blkMem fun s =>
    let s1 := s.setFld F.MEM_MIGRATE_PAGE q
    if q < 2 ^ 19 ∧ s.mem.evac = none then s1.startEvac ((s.placeOf q false).1) true [(q, false)] 1 else s1

def execMemMigrateGo (page : Nat) (s : State) : Host.Outcome State Fault Refusal := .next (s.doMemMigrateGo page)

/-- EVAC_PAGE_COPIED: the copy of the page completes, the page table names the new place, and the page is SWITCHED. The copy
holds every write made during it, and a stale copy stays stale in its new place (R408, R412, R413). -/
def State.doEvacPageCopied (s : State) : State :=
  match s.mem.evac with
  | some e =>
    match e.cur with
    | some mv =>
      if mv.switched = false ∧ s.modReady mv.fromMod = true ∧ s.modReady mv.toMod = true then
        let s1 := s.copyPage mv.fromMod mv.fromPhys mv.toMod mv.toPhys
        let stale := s.isMirrored mv.page && !s.freshCopy (mv.fromMod, mv.fromPhys)
        let kept := s1.mem.missed.filter fun e => decide (e ≠ (mv.fromMod, mv.fromPhys))
        let s2 : State := { s1 with mem := { s1.mem with
          table := mset (fun _ => 0) s1.mem.table (2 * mv.page + bit mv.mirror) (placeCode mv.toMod mv.toPhys)
          missed := if stale then kept ++ [(mv.toMod, mv.toPhys)] else kept } }
        let s3 := if stale then s2.setFld (F.MEM_LANE_STATUS_STALE.at mv.toMod) 1 else s2
        (((s3.followMove mv).setEvac (some { e with cur := some { mv with switched := true } })).journalAt mv.fromPhys
          joSwitched).sendReady
      else s
    | none => s
  | none => s

def execEvacPageCopied (s : State) : Host.Outcome State Fault Refusal := .next s.doEvacPageCopied

/-- EVAC_PAGE_DONE: no request to the old place can still receive a reply (R412); an old place in the pool is free again. -/
def State.doEvacPageDone (s : State) : State :=
  match s.mem.evac with
  | some e =>
    match e.cur with
    | some mv =>
      if mv.switched = true ∧ (s.mem.reqs.any fun r => decide (r.module = mv.fromMod) && decide (r.phys = mv.fromPhys)) = false then
        (((s.freePool mv.fromMod mv.fromPhys).journalAt mv.fromPhys joDone).addSat F.MEM_EVAC_STATUS_PAGES_DONE 1).nextPage
          { e with cur := none }
      else s
    | none => s
  | none => s

def execEvacPageDone (s : State) : Host.Outcome State Fault Refusal := .next s.doEvacPageDone

/-! ## Groups received (R379, R380, R398, R399, R417) -/

/-- The bytes that one line gives a read through a window, or the code of its refusal; none where it is lost. -/
def lineData (l : Nat) (r : LineRead) (enc : Bool) (tenant : Nat) (key : Option KeySlot) : Except Nat (Option Bytes) :=
  match r with
  | .zero => .ok (some (List.replicate 64 0))
  | .lost => .ok none
  | .line t =>
    match lineCheck enc tenant key t with
    | .error c => .error c
    | .ok false => .ok (some t.data)
    | .ok true =>
      match key with
      | some k => .ok (some (decryptLine k l t.data))
      | none => .error rcKey

/-- One line of a read group checked and kept for its transfer: true while the group goes on. -/
def State.deliverLine (s : State) (r : Req) (p id : Nat) (key : Option KeySlot) (i : Nat) : State × Bool :=
  let l := r.line + i
  match s.readTier l with
  | (s1, d) =>
    match lineData l d r.enc (s1.ctx r.ctx cfTenant) key with
    | .error c => ((s1.addSat (memErr F.MEM_ERR_REFUSED (tierOfPage (pageOf l))) 1).refuse p (s1.descPc p id) 0x42 c, false)
    | .ok none => (s1.stepFault p 2 0x07, false)
    | .ok (some b) => (s1.holdBytes p id r.slice (r.off + 64 * i) b, true)

/-- The reply to a read group: each line checked in order. -/
def State.deliverGroup (s : State) (r : Req) (p id : Nat) : State :=
  let k : State × Option KeySlot := if r.enc then s.keyFor r.ctx else (s, none)
  ((List.range r.count).foldl (fun (a : State × Bool) i => if a.2 then a.1.deliverLine r p id k.2 i else a) (k.1, true)).1

/-- The answer to the oldest request sent on lane `k`. -/
def State.answerReq (s : State) (r : Req) : State :=
  let s1 : State := { s with mem := { s.mem with reqs := s.mem.reqs.filter fun q => decide (q.seq ≠ r.seq) } }
  if s.ctx r.ctx cfGen ≠ r.ctxGen then s1.addSat F.CTX_STATS_PRUNED 1
  else
    match r.owner with
    | none => s1
    | some (.remote n) => if s1.mem.reqs.any (fun q => decide (q.owner = some (.remote n))) then s1 else s1.finishInbound n
    | some (.barrow p id) =>
      if s.cgenOf p ≠ r.cgen then s1.addSat F.RAS_PRUNE_CLUSTER 1
      else if r.write then s1
      else s1.deliverGroup r p id

/-- MEM_GROUP_RECEIVE: a group whose flit is uncorrectable is asked for again, and more than 64 retries in 1 ms cause a
retrain; a reply of an old LANE_GEN is pruned; any other answers the oldest request of the lane (R379, R380, R417). -/
def State.doMemGroupReceive (s : State) (k gen : Nat) (uncorrectable : Bool) : State :=
  if k < 16 ∧ s.laneUsable k = true then
    if uncorrectable then
      let l := (s.mem.retries ++ [(k, s.now)]).filter fun e => decide (s.now < e.2 + 1000000)
      let s1 : State := { s with mem := { s.mem with retries := l } }
      if 64 < (l.filter fun e => decide (e.1 = k)).length then
        ({ s1 with mem := { s1.mem with retries := l.filter fun e => decide (e.1 ≠ k) } } : State).retrainLane k
      else s1
    else if gen % 4096 ≠ s.fld (F.MEM_LANE_STATUS_LANE_GEN.at k) then s.addSat (F.MEM_LANE_STATUS_PRUNED.at k) 1
    else
      match s.mem.reqs.find? fun r => decide (r.lane = k) && r.sent with
      | none => s
      | some r => (s.answerReq r).runDueEvac
  else s

def execMemGroupReceive (k gen : Nat) (uncorrectable : Bool) (s : State) : Host.Outcome State Fault Refusal :=
  .next (s.doMemGroupReceive k gen uncorrectable)

/-! ## Page fills (R401) -/

/-- PAGE_FILL_DONE: the page of a waiting first write is filled with zero lines and marked written, and the write proceeds. -/
def State.doPageFillDone (s : State) (page : Nat) : State :=
  if (s.mem.waits.any fun w => decide (pageOf w.line = page)) = true ∧ s.isWritten page = false
      ∧ (s.writePlaces page).isEmpty = false ∧ ((s.writePlaces page).all fun p => s.modReady p.1) = true then
    let s1 := (s.copiesOf page).foldl (fun s p => if s.modReachable p.1 then
      (s.clearPage p.1 p.2).emit (.memFill (laneOfModule p.1) (s.laneGen p.1) p.1 (lineAddr p.2 0) pageLines)
      else s.missWrite p.1 p.2) s
    ({ s1 with mem := { s1.mem with written := mset (fun _ => false) s1.mem.written page true } } : State).releaseWaits
  else s

def execPageFillDone (page : Nat) (s : State) : Host.Outcome State Fault Refusal := .next (s.doPageFillDone page)

/-! ## Mirror resync (R408) -/

/-- The written pages with a mirrored copy on module `k` that is stale: its place, and the place of the other copy (R408). -/
def State.staleOn (s : State) (k : Nat) : List ((Nat × Nat) × (Nat × Nat)) :=
  ((s.mem.written.map (·.1)).filter s.isMirrored).flatMap fun q =>
    let a := s.placeOf q false
    let b := s.placeOf q true
    (if a.1 = k ∧ s.freshCopy a = false then [(a, b)] else []) ++ (if b.1 = k ∧ s.freshCopy b = false then [(b, a)] else [])

/-- MIRROR_RESYNC_DONE: every stale page of module `k` is copied from its fresh copy, and the stale mark clears. It does not complete
while a copy that missed a write has no fresh copy to be read; where neither copy missed one, both hold the same (log entry 66). -/
def State.doMirrorResyncDone (s : State) (k : Nat) : State :=
  let mine := s.staleOn k
  if k < 16 ∧ s.modReady k = true ∧ s.fld (F.MEM_LANE_STATUS_STALE.at k) = 1 ∧
      (mine.all fun e => !s.missedCopy e.1.1 e.1.2 || (s.modReady e.2.1 && !s.missedCopy e.2.1 e.2.2)) = true then
    let s1 := mine.foldl (fun s e =>
      if s.modReady e.2.1 && !s.missedCopy e.2.1 e.2.2 then s.copyPage e.2.1 e.2.2 e.1.1 e.1.2 else s) s
    ({ s1 with mem := { s1.mem with
      missed := s1.mem.missed.filter fun e => decide (e.1 ≠ k)
      behind := s1.mem.behind.filter fun m => decide (m ≠ k) } } : State).setFld (F.MEM_LANE_STATUS_STALE.at k) 0
  else s

def execMirrorResyncDone (k : Nat) (s : State) : Host.Outcome State Fault Refusal := .next (s.doMirrorResyncDone k)

/-! ## Retired modules and the pool (R387, R409, R415) -/

/-- A page copy mapped to the pool in place of a retired module; false where the pool has no page for it. -/
def State.coverCopy (s : State) (m : Nat) (c : Nat × Bool) : State × Bool :=
  match s.poolPage m c.1 with
  | none => (s, false)
  | some t =>
    ({ s with mem := { s.mem with
        table := mset (fun _ => 0) s.mem.table (2 * c.1 + bit c.2) (placeCode t.1 t.2)
        pool := s.mem.pool ++ [t] } }, true)

/-- Every copy still on a retired module mapped to the pool, or tier 1 to be held where it cannot hold them (R387, R415). -/
def State.coverRetired (s : State) : State :=
  (s.repair.modules ++ s.mem.absent).foldl (fun (s : State) m =>
    let r := (s.copiesOn m).foldl (fun (a : State × Bool) c => if a.2 then a.1.coverCopy m c else a) (s, true)
    if r.2 then r.1 else { s with mem := { s.mem with uncovered := true } }) s

/-- The moves of pages of the regions in `changed` forgotten: their pool places are free, and an evacuation under way empties what now
lies on its module (log entry 66). -/
def State.forgetMoves (s : State) (changed : Nat → Bool) : State :=
  let hit (q : Nat) : Bool := decide (q < 2 ^ 19) && changed (q / 32768)
  let gone := s.mem.table.filter fun e => hit (e.1 / 2)
  let freed := gone.map fun e => ((e.2 - 1) / 2 ^ 18, (e.2 - 1) % 2 ^ 18)
  { s with mem := { s.mem with
    table := s.mem.table.filter fun e => !hit (e.1 / 2)
    pool := s.mem.pool.filter fun p => !freed.contains p
    missed := s.mem.missed.filter fun p => !(changed (p.2 / 2048)) && !freed.contains p } }

/-- An evacuation whose regions have changed goes on with the copies that now lie on its module. -/
def State.againEvac (s : State) (changed : Nat → Bool) : State :=
  match s.mem.evac with
  | none => s
  | some e =>
    let cut := e.cur.any fun mv => decide (mv.page < 2 ^ 19) && changed (mv.page / 32768)
    let s1 := match cut, e.cur with
      | true, some mv => s.freePool mv.toMod mv.toPhys
      | _, _ => s
    let todo := if e.migration then e.todo
      else (s1.copiesOn e.module).filter fun c => !(e.cur.any fun mv => decide (mv.page = c.1) && decide (mv.mirror = c.2)) || cut
    let e1 := { e with todo := todo }
    if cut then s1.nextPage { e1 with cur := none } else s1.setEvac (some e1)

/-- The stale marks that a new mirror setting leaves: the copies of a newly mirrored region on a module whose lane is DOWN or retrains
are stale, and with no mirrored region left there is no copy to be stale (R408, R422). -/
def State.markStale (s : State) (new : Bool) : State :=
  let off (k : Nat) : Bool := decide (s.laneState k = mlDown) || decide (s.laneState k = mlTraining)
  let behind := if s.anyMirror then
      s.mem.behind ++ (if new then (List.range 16).filter fun k => off k && !s.mem.behind.contains k else [])
    else []
  (List.range 16).foldl (fun s k => s.setFld (F.MEM_LANE_STATUS_STALE.at k)
    (bit (s.mem.behind.contains k || s.mem.missed.any fun e => decide (e.1 = k)))) { s with mem := { s.mem with behind := behind } }

/-- A change of the mirror setting in force marks every page of the changed regions unwritten, and the pool covers their copies on
retired modules again (R409, R415). -/
def State.setMirror (s : State) (v : Nat) : State :=
  let old := s.fld F.MEM_MIRROR_REGION
  if old = v then s
  else
    let changed (k : Nat) : Bool := decide (old.testBit k ≠ v.testBit k)
    let pages := (s.mem.written.map (·.1)).filter fun q => decide (q < 2 ^ 19) && changed (q / 32768)
    let new := (List.range 16).any fun k => v.testBit k && !old.testBit k
    ((((((pages.foldl State.unwrite s).forgetMoves changed).setFld F.MEM_MIRROR_REGION v).markStale new).coverRetired).againEvac
      changed).checkTiers

/-! ## Patrol (R410, R411) -/

/-- The written copies on a module, in the order of their pages. -/
def State.writtenOn (s : State) (m : Nat) : List (Nat × Bool) :=
  (s.mem.written.map (·.1)).flatMap fun q =>
    (if (s.placeOf q false).1 = m then [(q, false)] else []) ++
      (if s.isMirrored q && decide ((s.placeOf q true).1 = m) then [(q, true)] else [])

/-- The pass time of a tier (R425). -/
def State.scrubHours (s : State) (t : Nat) : Nat :=
  if t = 1 then s.fld F.MEM_SCRUB_CFG_T1_HOURS else if t = 2 then s.fld F.MEM_SCRUB_CFG_T2_HOURS
  else s.fld F.MEM_SCRUB_CFG_T3_HOURS

/-- The copy whose line the patrol of a module reads next, with the line in it: the first written line at or after its position, and
after the last line the pass begins again (R410). -/
def State.patrolNext (s : State) (m : Nat) : Option ((Nat × Bool) × Nat) :=
  let n := mget (fun _ => 0) s.mem.patrol m
  let cs := (s.writtenOn m).map fun c => ((s.placeOf c.1 c.2).2, c)
  let ahead := cs.filter fun c => decide (n / pageLines ≤ c.1)
  let first (l : List (Nat × (Nat × Bool))) : Option (Nat × (Nat × Bool)) :=
    l.find? fun c => (l.all fun d => decide (c.1 ≤ d.1))
  match first ahead, first cs with
  | some c, _ => some (c.2, if c.1 = n / pageLines then n % pageLines else 0)
  | none, some c => some (c.2, 0)
  | none, none => none

/-- The code words of a line that a repair from the other copy mends: at least one. -/
def TLine.mended (l : TLine) : Nat := max 1 (bit (decide (3 ≤ l.err0)) + bit (decide (3 ≤ l.err1)))

/-- TIER_SCRUB_READ: the next written line of a module is corrected, repaired from its fresh copy, or poisoned, and each is counted
(R410; log entry 66). While the lane of the fresh copy is held, the patrol waits at the line that it must repair from it. -/
def State.doTierScrubRead (s : State) (m : Nat) : State :=
  if m < 32 ∧ s.scrubHours (tierOfModule m) ≠ 0 ∧ s.modReady m = true then
    match s.patrolNext m with
    | none => s
    | some (c, i) =>
      let pl := s.placeOf c.1 c.2
      let o := s.placeOf c.1 (!c.2)
      let other := s.isMirrored c.1 && s.freshCopy o && s.modReachable o.1
      let key := lineKey pl.1 pl.2 i
      let l := mget lineDefault s.mem.lines key
      if l.bad && other && !s.modReady o.1 then s
      else
        let s0 : State := { s with mem := { s.mem with patrol := mset (fun _ => 0) s.mem.patrol m (pl.2 * pageLines + i + 1) } }
        match (s0.askLine pl.1 pl.2 i).checkCopy pl.1 key with
        | (s1, some t) => if t = t.clean then s1 else s1.putLine pl.1 pl.2 i t.clean
        | (s1, none) =>
          if other then
            match (s1.askLine o.1 o.2 i).checkCopy o.1 (lineKey o.1 o.2 i) with
            | (s2, some t) => (s2.putLine pl.1 pl.2 i t.clean).countLines m l.mended
            | (s2, none) => if l.poison then s2 else s2.loseLine c.1 i
          else if l.poison then s1
          else s1.loseLine c.1 i
  else s

def execTierScrubRead (module : Nat) (s : State) : Host.Outcome State Fault Refusal := .next (s.doTierScrubRead module).runDueEvac

end Sys2Proof.Machine
end

