-- ==== Sys2Proof/Machine/Data.lean ====
section
/-! DEFINITION. The data paths that the engines share: packed elements, checked reads of several segments, element operands
and their immediates, random values, and the results that a descriptor writes (R74 to R78, R109, R198, R222, R277). -/

namespace Sys2Proof.Machine

/-- `n` fields of `w` bits of a little-endian number. -/
def splitBits (w : Nat) : Nat → Nat → List Nat
  | 0, _ => []
  | n + 1, v => v % 2 ^ w :: splitBits w n (v / 2 ^ w)

/-- Fields of `w` bits joined, the first lowest. -/
def joinBits (w : Nat) : List Nat → Nat
  | [] => 0
  | v :: vs => v % 2 ^ w + 2 ^ w * joinBits w vs

/-- The bits of `n` packed elements (R76, R77): sixteen elements take 2 × width bytes. -/
def elemsOf (f : Fmt) (n : Nat) (bs : Bytes) : List Nat :=
  ((runsOf (2 * f.width) bs.length bs).flatMap fun r => splitBits f.width 16 (natOfBytes r)).take n

/-- Elements packed into bytes (R76, R77). -/
def packElems (f : Fmt) (es : List Nat) : Bytes :=
  ((runsOf 16 es.length es).flatMap fun r => bytesOfNat (2 * f.width) (joinBits f.width r)).take (packedBytes f es.length)

/-- Elements of an operand with its block scales (R74, R75); `scales` is empty for a format without them. -/
def valuesOf (f : Fmt) (n : Nat) (bs scales : Bytes) : List FVal :=
  let es := elemsOf f n bs
  if f.blocked then es.zipIdx.map fun p => blockElement f (scales.getD (p.2 / 16) 0).toNat p.1
  else es.map f.decode

/-! ## Checked reads -/

/-- The code-word ranges that segments of rising offset touch, each code word once. -/
def touched : Nat → List (Nat × Nat) → List (Nat × Nat)
  | _, [] => []
  | next, (o, n) :: r =>
    let lo := max (o / 32 * 32) next
    let hi := (o + n + 31) / 32 * 32
    if lo < hi then (lo, hi - lo) :: touched hi r else touched next r

/-- A checked read of several segments (R277, R278): their bytes, or none where a code word is uncorrectable. `by_` is the
cluster whose attempt reads. -/
def State.readSegs (s : State) (p : Nat) (slice : Bool) (segs : List (Nat × Nat)) (by_ : Nat) : State × Option (List Bytes) :=
  let r := (touched 0 segs).foldl (fun (a : State × Bool) t =>
    if a.2 then
      let q := a.1.readChecked p slice t.1 t.2 by_
      (q.1, q.2.isSome)
    else a) (s, true)
  if r.2 then (r.1, some (segs.map fun g => r.1.localRead p slice g.1 g.2)) else (r.1, none)

/-- `n` segments of `len` bytes at a pitch. -/
def segsOf (o pitch len n : Nat) : List (Nat × Nat) :=
  if pitch = len then [(o, len * n)] else (List.range n).map fun i => (o + i * pitch, len)

/-- A checked read of `n` runs of `len` bytes at a pitch from a resolved operand, joined in order. -/
def State.readRuns (s : State) (p : Nat) (l : Loc) (pitch len n : Nat) : State × Option Bytes :=
  match l with
  | .mem sl o =>
    let r := s.readSegs p sl (segsOf o pitch len n) p
    (r.1, r.2.map List.flatten)
  | _ => (s, some [])

/-- A checked read of one run. -/
def State.readLoc (s : State) (p : Nat) (l : Loc) (len : Nat) : State × Option Bytes := s.readRuns p l len len 1

/-- The values of an element operand, its immediate repeated (R198), its block scales from `sc`. -/
def State.readValues (s : State) (p : Nat) (l sc : Loc) (f : Fmt) (n : Nat) : State × Option (List FVal) :=
  match l with
  | .imm v => (s, some (List.replicate n ((if f.isInt then Fmt.i32 else Fmt.fp32).decode v.toNat)))
  | .none => (s, some [])
  | .mem _ _ =>
    match s.readLoc p l (packedBytes f n) with
    | (s1, none) => (s1, none)
    | (s1, some bs) =>
      if f.blocked then
        match s1.readLoc p sc (n / 16) with
        | (s2, none) => (s2, none)
        | (s2, some ss) => (s2, some (valuesOf f n bs ss))
      else (s1, some (valuesOf f n bs []))

/-! ## Random values -/

/-- The seed and step sequence number that a cluster's attempt draws with: the lead's (R109, R332). -/
def State.seedOf (s : State) (p : Nat) : Nat × Nat :=
  match s.stepAt p with
  | none => (0, 0)
  | some t => (s.ctx t.lead cfSeed, msgSeq t.words)

/-- The random values of logical indices `base`, `base + 1`, … (R109); zeros unless the mode is RSR. -/
def State.randoms (s : State) (p : Nat) (ws : List Word) (base : Int) (n : Nat) : List Nat :=
  if hRMode ws = 4 then
    let k := s.seedOf p
    (List.range n).map fun (i : Nat) => rsrValue k.1 ((base + (i : Int)) % (2 ^ 64 : Int)).toNat (hStream ws) k.2
  else List.replicate n 0

/-- The rounding mode of a descriptor; RNE stands for a code never reached. -/
def modeOf (ws : List Word) : RMode := (RMode.ofCode (hRMode ws)).getD .rne

/-! ## Converted results -/

/-- Values converted to a format: the element bits, the scale bytes and the flags (R111 to R122). -/
def convertAll (f : Fmt) (rm : RMode) (sat : Bool) (vs : List FVal) (rs : List Nat) : List Nat × Bytes × NumFlags :=
  if f.blocked then
    let out := ((runsOf 16 vs.length vs).zip (runsOf 16 rs.length rs)).map fun b => convertBlock f rm sat b.2 b.1
    (out.flatMap (·.2.1), out.map (fun b => BitVec.ofNat 8 b.1), out.foldl (fun a b => a.join b.2.2) {})
  else
    let out := (vs.zip rs).map fun p => convert f rm sat p.2 p.1
    (out.map (·.1), [], out.foldl (fun a o => a.join o.2) {})

/-- A write of one
run into a resolved output. -/
def State.writeLoc (s : State) (p : Nat) (l : Loc) (data : Bytes) : State :=
  match l with
  | .mem sl o => s.writeRuns p sl [(o, data)]
  | _ => s

/-- Scale bytes merged into a resolved scale plane at an offset in it (R891). -/
def State.mergeLoc (s : State) (p : Nat) (l : Loc) (off : Nat) (data : Bytes) : State :=
  match l with
  | .mem sl o => s.mergeScales p sl (o + off) data
  | _ => s

/-- An adder upset of the cluster met by an adder that checks as it writes (R127, R128): none where there is none. What upsets an
adder is left open: no command sets the mark, and a statement over every state covers both (log entry 54). -/
def State.adderCheck (s : State) (p : Nat) : Option State :=
  if (s.clu p).upset then some ((s.setClu p { s.clu p with upset := false }).residueFault p) else none

end Sys2Proof.Machine
end

