-- ==== Sys2Proof/Machine/HostOps.lean ====
section
/-! DEFINITION. Barrow traffic toward the host: the splitting of transfers, host reads and posted writes (R555 to R560). -/

namespace Sys2Proof.Machine

/-- A host transfer cut into requests (R555): the first ends at the first multiple of the limit after its start, every later
one starts at such a multiple. Address, length and offset in the transfer. -/
def splitHost : Nat → Nat → Nat → Nat → Nat → List (Nat × Nat × Nat)
  | 0, _, _, _, _ => []
  | fuel + 1, lim, addr, len, off =>
    if len = 0 then []
    else
      let n := min len (lim - addr % lim)
      (addr, n, off) :: splitHost fuel lim (addr + n) (len - n) (off + n)

/-- The limit on host reads outstanding (R556). -/
def State.readLimit (s : State) : Nat := min (s.fld F.HST_DMA_CFG_READ_LIMIT) (if s.tenBitTags then 768 else 256)

/-- The lowest host-read tag not outstanding (log entry 20). -/
def State.freeHostTag (s : State) : Nat :=
  let used := (s.host.reads.filter (·.sent)).map (·.tag)
  ((List.range (used.length + 1)).find? fun t => !used.contains t).getD 0

/-- One host read sent with its tag and HOST_GEN. -/
def State.sendHostRead (s : State) (r : HostRead) : State :=
  let tag := s.freeHostTag
  let g := s.fld F.HST_LINK_STATUS_HOST_GEN
  let r1 := { r with sent := true, tag := tag, gen := g }
  ({ s with host := { s.host with reads := s.host.reads.map fun x => if x = r then r1 else x } } : State).emit
    (.hostRead tag g r.addr r.len)

/-- Host reads sent while fewer than the limit are outstanding (R556). -/
def State.sendHostReads (s : State) : State :=
  (s.host.reads.filter fun r => !r.sent).foldl (fun s r =>
    if (s.host.reads.filter (·.sent)).length < s.readLimit then s.sendHostRead r else s) s

/-- The reads of an inbound barrow queued and sent as far as they may be. -/
def State.issueHostReads (s : State) (p id c addr len : Nat) (slice : Bool) (off : Nat) : State :=
  let rs := (splitHost len s.maxRead addr len 0).map fun x =>
    ({ tag := 0, gen := 0, sent := false, owner := some (p, id), ctx := c, ctxGen := s.ctx c cfGen, cgen := s.cgenOf p,
       addr := x.1, len := x.2.1, slice := slice, off := off + x.2.2, got := [] } : HostRead)
  ({ s with host := { s.host with reads := s.host.reads ++ rs } } : State).sendHostReads

/-- Is Relaxed Ordering set on barrow data writes (R557)? -/
def State.dataRelaxed (s : State) : Bool := decide (s.fld F.HST_DMA_CFG_RO_DATA = 1) && s.relaxedOk

/-- The posted writes of data toward the host. -/
def State.issueHostWrites (s : State) (k : TlpKind) (addr : Nat) (data : Bytes) : State :=
  (splitHost data.length s.maxPayload addr data.length 0).foldl (fun s x =>
    s.postWrite x.1 ((data.drop x.2.2).take x.2.1) s.dataRelaxed k) s

/-- Does a barrow descriptor still have host reads or writes outstanding? -/
def State.hostBusy (s : State) (p id : Nat) : Bool :=
  (s.host.reads.any fun r => decide (r.owner = some (p, id))) ||
  (s.host.unacked.any fun w => match w.kind with
    | .barrow q i _ _ => decide (q = p) && decide (i = id)
    | _ => false)

end Sys2Proof.Machine
end

