-- ==== Sys2Proof/Machine/Windows.lean ====
section
/-! DEFINITION. Memory windows as a step reaches them (R314 to R318, R323) and the hub barrow's checks and transfers (R237,
R238, R315, R386, R391, R399 to R406, R463). -/

namespace Sys2Proof.Machine

/-- A window reached: the context through which it is reached, its set and number, and the byte offset at which an adapter
entry starts in it. -/
structure Reach where
  ctx : Nat
  set : Nat
  win : Nat
  start : Nat
deriving DecidableEq, Repr

/-- Window `w` of the set of context `c`; none once its windows are revoked (R360). -/
def State.ctxWindow (s : State) (c w start : Nat) : Except Nat (Option Reach) :=
  if s.disp.revoked.contains c then .error rcWindow
  else .ok (some { ctx := c, set := s.ctx c cfWset, win := w, start := start })

/-- The window named by adapter entry `k` of context `c`; nothing to move through where the entry is invalid (R323). -/
def State.adapterWindow (s : State) (c k : Nat) : Except Nat (Option Reach) :=
  let e := s.ctx c (cfAdapter k)
  if e.testBit 31 then s.ctxWindow c (e / 2 ^ 24 % 16) (e % 2 ^ 24 * 65536) else .ok none

/-- The window that a WINDOW byte selects for logical cluster `l` of a step (R316, R317). -/
def State.selectWindow (s : State) (t : Step) (l b : Nat) : Except Nat (Option Reach) :=
  let top := b / 64
  let low := b % 64
  if top < 2 then
    if 16 ≤ low then .error rcWindow
    else if top = 0 then s.ctxWindow t.lead low 0
    else match t.bound l with
      | none => .error rcWindow
      | some c => s.ctxWindow c low 0
  else if 4 ≤ low then .error rcWindow
  else if top = 2 then s.adapterWindow t.lead low
  else match t.bound l with
    | none => .error rcWindow
    | some c => s.adapterWindow c low

/-- The kinds of R314. -/
def wkTier : Nat := 0
def wkHost : Nat := 1
def wkRemote : Nat := 2

def State.winValid (s : State) (r : Reach) : Bool := decide (s.winFld r.set r.win 0 63 63 = 1)
def State.winKind (s : State) (r : Reach) : Nat := s.winFld r.set r.win 0 62 61
def State.winEnc (s : State) (r : Reach) : Bool := decide (s.winFld r.set r.win 0 59 59 = 1)
def State.winBase (s : State) (r : Reach) : Nat := s.winFld r.set r.win 0 55 0
def State.winLength (s : State) (r : Reach) : Nat := s.winFld r.set r.win 1 63 0

/-- The start and length of a tier or host window's range (R315); none where a relative range leaves the window. -/
def State.winRange (s : State) (r : Reach) : Option (Nat × Nat) :=
  let b := s.winBase r
  let n := s.winLength r
  if s.winFld r.set r.win 0 60 60 = 1 then
    let lo := s.ctx r.ctx cfRbase * 65536
    let len := s.ctx r.ctx cfRlen * 65536
    if lo + len ≤ n then some (b + lo, len) else none
  else some (b, n)

/-- The address of a transfer through a window, or none where its range leaves the window (R237). -/
def State.winAddr (s : State) (r : Reach) (off : Int) (len : Nat) : Option Nat :=
  let o := off + (r.start : Int)
  if off < 0 ∨ o % 64 ≠ 0 then none
  else
    match s.winRange r with
    | none => none
    | some (b, n) => if o.toNat + len ≤ n then some (b + o.toNat) else none

/-- The check of a tier transfer's place (R386, R388, R391, R406, R596): every tier that its window's range `w`, a start and a length,
touches is in use and not held, and no page that the transfer itself touches is in the pool or hidden. -/
def State.tierOk (s : State) (w : Nat × Nat) (addr len : Nat) : Bool :=
  decide (addr + len ≤ 2 ^ 42) && (tiersTouched w.1 w.2).all s.tierServes && s.pagesOk addr len

/-- The check of a transfer through a tier window. -/
def State.windowOk (s : State) (r : Reach) (addr len : Nat) : Bool :=
  match s.winRange r with
  | some w => s.tierOk w addr len
  | none => false

/-- The key of a window's transfers: nothing where ENC is 0, a refusal where ENC is 1 and no key serves (R204, R405). -/
def State.winKey (s : State) (r : Reach) : State × Except Nat (Option KeySlot) :=
  if !s.winEnc r then (s, .ok none)
  else match s.keyFor r.ctx with
    | (s1, some k) => (s1, .ok (some k))
    | (s1, none) => (s1, .error rcKey)

/-- The lines of a run of bytes, encrypted where the window is. -/
def tierLines (key : Option KeySlot) (line : Nat) (data : Bytes) : List Bytes :=
  (runsOf 64 data.length data).zipIdx.map fun b => match key with
    | some k => encryptLine k (line + b.2) b.1
    | none => b.1

/-- Data written through a tier window, in groups (R378, R397, R403). -/
def State.tierWrite (s : State) (ow : Owner) (r : Reach) (key : Option KeySlot) (addr : Nat) (data : Bytes) : State :=
  let ls := tierLines key (addr / 64) data
  (groupsOfLines ls.length (addr / 64) ls.length 0).foldl (fun s g =>
    s.issueWrite ow r.ctx (s.winEnc r) (s.ctx r.ctx cfTenant) ((key.map (·.kgen)).getD 0) g.1
      ((ls.drop (g.2.2 / 64)).take g.2.1)) s

/-- Data read through a tier window, in groups. -/
def State.tierRead (s : State) (p id : Nat) (r : Reach) (addr len : Nat) (slice : Bool) (off : Nat) : State :=
  (groupsOfLines (len / 64) (addr / 64) (len / 64) off).foldl (fun s g =>
    s.issueRead p id r.ctx (s.winEnc r) slice g.1 g.2.1 g.2.2) s

/-- Data sent through a remote window in WRITE packets of at most 2 KiB (R448, R450). -/
def State.remoteWrite (s : State) (p id : Nat) (r : Reach) (off : Nat) (data : Bytes) : State :=
  let w2 := s.winWord r.set r.win 2
  let w1 := s.ctx r.ctx cfTenant * 2 ^ 48 + bitsOf w2 47 36 * 2 ^ 36 + bitsOf w2 51 48 * 2 ^ 32 + bitsOf w2 15 0
  (runsOf 2048 data.length data).zipIdx.foldl (fun s b =>
    s.inject (.write (some (p, id)) r.ctx (s.ctx r.ctx cfGen))
      { w0 := headWord (bitsOf w2 57 52) s.chipId 0 0 ptWrite (b.1.length / 32) 0 0
        w1 := BitVec.ofNat 64 w1, w2 := BitVec.ofNat 64 (off + 2048 * b.2), w3 := 0, data := b.1, poisoned := false }) s

/-- Does a barrow descriptor still have WRITEs without their ACK? -/
def State.fabBusy (s : State) (p id : Nat) : Bool :=
  let mine (k : ReqKind) : Bool := match k with
    | .write o _ _ => decide (o = some (p, id))
    | _ => false
  (s.fab.reqs.any fun r => mine r.kind) || (s.fab.hubWait.any fun w => mine w.1)

/-- Has every part of a barrow's transfer been delivered or acknowledged (R158)? -/
def State.barrowBusy (s : State) (p id : Nat) : Bool := s.memBusy p id || s.hostBusy p id || s.fabBusy p id

/-! ## The hub barrow takes a transfer -/

/-- The local place of a barrow. -/
def Desc.localPlace (d : Desc) : Bool × Nat :=
  match d.a with
  | .mem sl o => (sl, o)
  | _ => (false, 0)

/-- An inbound transfer (R237, R238, R399). -/
def State.barrowIn (s : State) (p : Nat) (d : Desc) (r : Reach) (len : Nat) : State :=
  let bad (s : State) (c : Nat) : State := s.refuse p d.pc 0x42 c
  let pl := d.localPlace
  if !s.winValid r then bad s rcWindow
  else if s.winKind r = wkTier then
    match s.winAddr r d.far len with
    | none => bad s rcWindow
    | some a =>
      if !s.windowOk r a len then bad s rcWindow
      else match s.winKey r with
        | (s1, .error c) => bad s1 c
        | (s1, .ok _) => s1.tierRead p d.id r a len pl.1 pl.2
  else if s.winKind r = wkHost then
    match s.winAddr r d.far len with
    | none => bad s rcWindow
    | some a => if s.hostStopped then bad s rcWindow else s.issueHostReads p d.id r.ctx a len pl.1 pl.2
  else bad s rcWindow

/-- The tier lines written by a step noted, for a failure to leave them undefined (R176). -/
def State.noteWrote (s : State) (p line n : Nat) : State :=
  match s.stepAt p with
  | none => s
  | some t => s.putStep { t with wrote := t.wrote ++ [(line, n)] }

/-- An outbound transfer (R237, R238, R397, R463). -/
def State.barrowOut (s : State) (p : Nat) (d : Desc) (r : Reach) (len : Nat) : State :=
  let bad (s : State) (c : Nat) : State := s.refuse p d.pc 0x42 c
  if !s.winValid r then bad s rcWindow
  else if s.winKind r = wkTier then
    match s.winAddr r d.far len with
    | none => bad s rcWindow
    | some a =>
      if !s.windowOk r a len then bad s rcWindow
      else match s.winKey r with
        | (s1, .error c) => bad s1 c
        | (s1, .ok key) =>
          match s1.readLoc p d.a len with
          | (s2, none) => s2
          | (s2, some data) => (s2.tierWrite (.barrow p d.id) r key a data).noteWrote p (a / 64) (len / 64)
  else if s.winKind r = wkHost then
    match s.winAddr r d.far len with
    | none => bad s rcWindow
    | some a =>
      if s.hostStopped then bad s rcWindow
      else match s.readLoc p d.a len with
        | (s2, none) => s2
        | (s2, some data) => s2.issueHostWrites (.barrow p d.id r.ctx (s.ctx r.ctx cfGen)) a data
  else
    let o := d.far + (r.start : Int)
    if d.far < 0 ∨ o % 64 ≠ 0 ∨ (2 ^ 48 : Int) ≤ o then bad s rcWindow
    else if s.fabState = fsHeld then
      match (s.clu p).lead with
      | none => s
      | some lead => s.replayStep lead 6 []
    else match s.readLoc p d.a len with
      | (s2, none) => s2
      | (s2, some data) => s2.remoteWrite p d.id r o.toNat data

/-- BARROW taken by the hub: its WINDOW byte selects the window (R316), and a transfer through an invalid adapter entry moves
nothing (R323). -/
def State.effBarrow (s : State) (p : Nat) (d : Desc) : State :=
  let len := fieldOf d.words 5 31 0
  match s.stepAt p with
  | none => s
  | some t =>
    match s.selectWindow t (s.clu p).logical (fieldOf d.words 3 63 56) with
    | .error c => s.refuse p d.pc 0x42 c
    | .ok none => s
    | .ok (some r) =>
      if fieldOf d.words 5 32 32 = 0 then s.barrowIn p d r len else s.barrowOut p d r len

/-! ## Local and trellis moves (R235, R236) -/

/-- LMOVE: the source is read whole and written whole. -/
def State.effLmove (s : State) (p : Nat) (d : Desc) : State :=
  match s.readLoc p d.b (fieldOf d.words 6 25 0) with
  | (s1, none) => s1
  | (s1, some data) => s1.barrowLoc p d.a data

/-- TMOVE with DIR 0: far to local. -/
def State.effTmovePull (s : State) (p : Nat) (d : Desc) : State :=
  match s.farCluster p d, d.b with
  | some f, .mem sl o =>
    match s.readSegs f sl [(o, fieldOf d.words 6 25 0)] p with
    | (s1, none) => s1
    | (s1, some data) => s1.barrowLoc p d.a data.flatten
  | _, _ => s

/-- TMOVE with DIR 1: local to far. -/
def State.effTmovePush (s : State) (p : Nat) (d : Desc) : State :=
  match s.farCluster p d, d.b with
  | some f, .mem sl o =>
    match s.readLoc p d.a (fieldOf d.words 6 25 0) with
    | (s1, none) => s1
    | (s1, some data) => s1.barrowWrite f sl o data
  | _, _ => s

end Sys2Proof.Machine
end

