-- ==== Sys2Proof/Machine/Fabric.lean ====
section
/-! DEFINITION. The router and the ports: frames, spare lanes, ports that go down and retrain, discovery, arriving packets,
circuits and table swaps (R431 to R498). -/

namespace Sys2Proof.Machine

/-! ## The plan (R461, R462, R465, R597) -/

def prAbsent : Nat := 0
def prOptional : Nat := 1
def prRequired : Nat := 2

/-- Bits of the plan's entry of port `p`, zero while the section is held. -/
def State.planBits (s : State) (p hi lo : Nat) : Nat := s.confNum 3 (16 + 4 * p) 4 0 / 2 ^ lo % 2 ^ (hi + 1 - lo)
def State.portRole (s : State) (p : Nat) : Nat := s.planBits p 1 0
def State.planned (s : State) (p : Nat) : Bool := decide (s.portRole p = prOptional) || decide (s.portRole p = prRequired)
def State.rackId (s : State) : Nat := s.confNum 3 2 2 0

/-- Is a port carrying traffic, also while it drains? -/
def State.portOn (s : State) (p : Nat) : Bool := s.portUsable p || decide (s.portState p = poDraining)

/-- Is a port's light on: does it carry traffic or train (R484)? -/
def State.portLit (s : State) (p : Nat) : Bool := s.portOn p || decide (s.portState p = poTraining)

/-- FAB_STATUS.MISSING, a bit for each planned port whose STATE is not UP, and GLB_STATE.TOPO_DEGRADED brought up to date, with the
event when the latter is set (R465, R491). -/
def State.showFabric (s : State) : State :=
  let missing := (List.range 32).foldl (fun a p => if s.planned p && decide (s.portState p ≠ poUp) then a + 2 ^ p else a) 0
  let s1 := s.setFld F.FAB_STATUS_MISSING missing
  let deg := decide (s.fabState = fsUp) && decide (missing ≠ 0)
  let was := s.fld F.GLB_STATE_TOPO_DEGRADED
  let s2 := s1.setFld F.GLB_STATE_TOPO_DEGRADED (bit deg)
  if deg && decide (was = 0) then s2.raiseEvent 0x1F 0 missing else s2

/-! ## Lanes of a port (R431, R432, R438, R440, R718) -/

/-- The engine of a port (R431). -/
def engineOfPort (p : Nat) : Nat := 5 + p / 4

/-- The engine lane of a logical lane: its own, or the spare last booked for it (R431, R438). -/
def State.engineLane (s : State) (p i : Nat) : Nat :=
  let mine := (s.repair.lanes.filter fun x => decide (x.1 = engineOfPort p)).zipIdx.filter fun x => decide (x.1.2 = (p, i))
  match mine.getLast? with
  | some x => 16 + x.2
  | none => 4 * (p % 4) + i

/-- The map of logical lanes to engine lanes. -/
def State.portMap (s : State) (p : Nat) : List Nat := (List.range 4).map (s.engineLane p)

/-- The engine lanes that carry a port's bytes: those of the logical lanes it has not lost. -/
def State.portLanes (s : State) (p : Nat) : List Nat :=
  ((List.range 4).filter fun i => !(s.port p).lost.contains i).map (s.engineLane p)

/-! ## Frames sent (R432, R434 to R436, R445, R457) -/

/-- The channel codes (R435). -/
def chIdle : Nat := 0
def chRequest : Nat := 1
def chReply : Nat := 2
def chControl : Nat := 3
def chCircuit (k : Nat) : Nat := 4 + k

/-- The payload of an idle slot, which the receiver ignores (R435): free bytes. -/
def idleFlit (seq : Nat) : Bytes := (List.range 32).map (Config.freeByte seq)

/-- MAP of the data slots filled: slot s in bits 3s − 1 : 3s − 3 (R434). -/
def mapOf (slots : List (Nat × Bytes)) : Nat := slots.zipIdx.foldl (fun a x => a + x.1.1 % 8 * 2 ^ (3 * x.2)) 0

/-- The value of a control flit (R434). -/
def controlFlit (f : TxFrame) (replay nak : Bool) (ack : Nat) : BitVec 256 :=
  BitVec.ofNat 256 ((f.creditB.1 * 4096 + f.creditB.2) * 2 ^ 240 + (f.creditA.1 * 4096 + f.creditA.2) * 2 ^ 224 +
    (bit nak * 32768 + ack) * 2 ^ 208 + f.seq * 2 ^ 193 + bit replay * 2 ^ 192 + mapOf f.slots)

/-- A slot of 36 bytes: a flit with its check bytes (R393, R432). -/
def slotBytes (payload : Bytes) : Bytes := payload ++ codeChecks payload

/-- The bytes of slots on the lanes of a port: byte i of a slot on lane i mod w of its w lanes (R432). -/
def stripeSlots (lanes : List Nat) (slots : List Bytes) : List (Nat × Bytes) :=
  lanes.zipIdx.map fun l => (l.1, slots.flatMap fun b => (b.zipIdx.filter fun x => decide (x.2 % lanes.length = l.2)).map (·.1))

/-- The frame as it leaves the port: 64 slots, the data slots not filled idle (R432). -/
def State.frameOut (s : State) (p : Nat) (f : TxFrame) (replay nak : Bool) (ack : Nat) : Emit :=
  let c := controlFlit f replay nak ack
  let data := f.slots.map (·.2) ++ List.replicate (63 - f.slots.length) (idleFlit f.seq)
  .frame p c (stripeSlots (s.portLanes p) ((bytesOfNat 32 c.toNat :: data).map slotBytes))

/-- The credits of the counter owed longest on a port, at most 4,095 flits in one field, taken from those owed (R434, R445). -/
def takeCredit (p : Nat) (owed : List (Nat × Nat × Nat)) : (Nat × Nat) × List (Nat × Nat × Nat) :=
  match owed.find? fun o => decide (o.1 = p) with
  | none => ((15, 0), owed)
  | some o =>
    let mine (x : Nat × Nat × Nat) : Bool := decide (x.1 = p) && decide (x.2.1 = o.2.1)
    let total := (owed.filter mine).foldl (fun a x => a + x.2.2) 0
    let rest := owed.filter fun x => !mine x
    if total ≤ 4095 then ((o.2.1, total), rest) else ((o.2.1, 4095), (p, o.2.1, total - 4095) :: rest)

/-- The slots of the current 8 consecutive data slots, after `n` more (R457). -/
def Port.passSlots (x : Port) (n : Nat) : Port :=
  { x with slotNo := (x.slotNo + n) % 8, used := if 8 ≤ x.slotNo + n then ({} : Port).used else x.used }

/-- The frame that a frame sent now acknowledges: the last one in sequence. -/
def Port.lastGot (x : Port) : Nat := (x.rxNext + 32767) % 32768

/-- The filled data slots that the next frame carries, and those that stay: while a lane is substituted traffic is held, and only
control flits leave (R438). -/
def Port.nextSlots (x : Port) : List (Nat × Bytes) × List (Nat × Bytes) :=
  if x.sparing.isEmpty then (x.slots.take 63, x.slots.drop 63)
  else
    let ctl := x.slots.filter fun e => decide (e.1 = chControl)
    (ctl.take 63, ctl.drop 63 ++ x.slots.filter fun e => decide (e.1 ≠ chControl))

/-- The next frame of this end with the data slots filled, what it acknowledges or asks for again, and two credit returns. -/
def State.sendFrame (s : State) (p : Nat) (nak : Bool) : State :=
  let x := s.port p
  let a := takeCredit p s.fab.owed
  let b := takeCredit p a.2
  let q := x.nextSlots
  let f : TxFrame := { seq := x.txNext, creditA := a.1, creditB := b.1, slots := q.1 }
  let s1 := ({ s with fab := { s.fab with owed := b.2 } } : State).setPort p
    { (x.passSlots (63 - q.1.length)) with
        txNext := (x.txNext + 1) % 32768, slots := q.2, kept := (x.kept ++ [f]).drop (x.kept.length + 1 - 256) }
  s1.emit (s1.frameOut p f false nak (if nak then x.rxNext else x.lastGot))

/-- A frame sent where 63 data slots are filled and traffic is not held. -/
def State.sendFull (s : State) (p : Nat) : State :=
  if 63 ≤ (s.port p).slots.length ∧ (s.port p).sparing.isEmpty = true then s.sendFrame p false else s

/-- A data slot of a port filled; the 63rd completes the frame. -/
def State.fillSlot (s : State) (p code : Nat) (payload : Bytes) : State :=
  let x := (s.port p).passSlots 1
  (s.setPort p { x with slots := x.slots ++ [(code, payload)] }).sendFull p

/-- The credits a port holds for a buffer. -/
def Port.credit (x : Port) (i : Nat) : Nat := x.credits.getD i 0
def Port.spend (x : Port) (i n : Nat) : Port := { x with credits := x.credits.set i (x.credit i - n) }

/-- CTYPE of a control message (R483). -/
def CtrlMsg.ctype : CtrlMsg → Nat
  | .hello _ => 1
  | .laneChange _ => 2
  | .resetNotice _ => 3
  | .portDark => 4
  | .timeSync _ _ => 5

/-- A control flit: CTYPE in byte 0; the layout of the content is not given (R483), so the other bytes are free. -/
def ctrlFlit (seq ctype : Nat) : Bytes := BitVec.ofNat 8 ctype :: (List.range 31).map (Config.freeByte seq)

/-- A waiting control flit takes the next data slot, with a credit of the control-plane buffer (R442, R457). -/
def State.pushCtrl (s : State) (p : Nat) : State :=
  let x := s.port p
  match x.ctlq with
  | t :: rest =>
    if 0 < x.credit 6 then (s.setPort p { (x.spend 6 1) with ctlq := rest }).fillSlot p chControl (ctrlFlit x.txNext t) else s
  | [] => s

/-- A control message sent: on a port that carries frames it takes the next data slot that a credit allows, ahead of every packet. -/
def State.sendCtrl (s : State) (p : Nat) (m : CtrlMsg) : State :=
  let s1 := s.emit (.control p m)
  if s1.portOn p then (s1.setPort p { s1.port p with ctlq := (s1.port p).ctlq ++ [m.ctype] }).pushCtrl p else s1

/-- The credit owed for a control message that arrived on a port that carries frames (R442). -/
def State.oweCtrl (s : State) (p : Nat) : State := if s.portOn p then s.oweCredit (some (p, 6, 1)) else s

/-! ## Circuits beside a port (R477, R478, R481) -/

/-- Reservations on a port shown in its status. -/
def State.showCircuits (s : State) (p : Nat) : State :=
  if 32 ≤ p then s
  else s.setFld (F.FAB_PORT_STATUS_CIRCUITS.at p) (s.fab.slots.filter fun x => decide (x.port = p)).length

/-- The receive buffer of an input that the next circuit from it takes: the lowest one free (log entry 22). -/
def State.freeInSlot (s : State) (input : Nat) : Nat :=
  ((List.range 4).find? fun k => !s.fab.slots.any fun x => decide (x.input = input) && decide (x.inSlot = k)).getD 0

/-- A circuit slot reserved on a port, or the ACK status of the failure (R478). -/
def State.reserve (s : State) (port share origin circ input dest : Nat) : State × Nat :=
  let mine := s.fab.slots.filter fun x => decide (x.port = port)
  if !s.portUsable port then (s, akNotUp)
  else if 4 ≤ mine.length ∨ 7 < mine.foldl (fun a x => a + x.share) share ∨ s.fld (F.FAB_PORT_STATUS_MODE.at port) = 1 then
    (s, akNoSlot)
  else
    let slot := ((List.range 4).find? fun k => !mine.any fun x => decide (x.slot = k)).getD 0
    (({ s with fab := { s.fab with slots := s.fab.slots ++
        [{ port := port, slot := slot, share := share, origin := origin, circ := circ, input := input, dest := dest,
           inSlot := s.freeInSlot input }] } } : State).showCircuits port, akOk)

/-- Is a packet the one that a circuit slot of a port is sending? -/
def State.circStarted (s : State) (o : OutPkt) : Bool :=
  decide (0 < (s.port o.port).circSent.getD (o.input - 33) 0) &&
    decide (s.fab.outq.find? (fun y => decide (y.port = o.port) && decide (y.input = o.input)) = some o)

/-- What becomes of a packet queued on a circuit slot `x` that is released: one whose head is not sent travels by wormhole (R479, R486);
one in progress is cut where its output port is gone, and else goes on over that slot, completed with poisoned flits where its input
port is gone (R454). -/
def State.releasePacket (s t : State) (x : CircSlot) (o : OutPkt) : State :=
  if !s.circStarted o then t.routePacket ((o.owe.map (·.1)).getD 32) o.owe o.pkt
  else if !s.portOn o.port then
    (t.oweCredit o.owe).setPort o.port { t.port o.port with circSent := (t.port o.port).circSent.set x.slot 0 }
  else t.putOut (if x.input < 32 ∧ s.portOn x.input = false then { o with pkt := { o.pkt with poisoned := true } } else o)

/-- Reservations released, with the packets queued on them. -/
def State.releaseSlots (s : State) (f : CircSlot → Bool) : State :=
  let out := s.fab.slots.filter f
  let slotOf (o : OutPkt) : Option CircSlot := out.find? fun x => decide (x.port = o.port) && decide (o.input = 33 + x.slot)
  let s1 : State := { s with fab := { s.fab with
    slots := s.fab.slots.filter (fun x => !f x), outq := s.fab.outq.filter (fun o => (slotOf o).isNone) } }
  let s2 := s.fab.outq.foldl (fun (t : State) o => match slotOf o with
    | some x => s.releasePacket t x o
    | none => t) s1
  out.foldl (fun s x => s.showCircuits x.port) s2

/-- The states and causes of FAB_CIRC. -/
def ccIdle : Nat := 0
def ccSettingUp : Nat := 1
def ccEstablished : Nat := 2
def ccFailed : Nat := 3
def ccTearing : Nat := 4
def cfNoSlot : Nat := 1
def cfNotUp : Nat := 2
def cfPortDown : Nat := 3
def cfMode : Nat := 4
def cfDark : Nat := 5
def cfTimeout : Nat := 6
def cfRecovery : Nat := 7

/-- A circuit of this chip FAILED with a cause, its own reservation released. TEARDOWN of one that was TEARING reads 1 until the circuit
is IDLE (R497). -/
def State.failCircuit (s : State) (c cause : Nat) : State :=
  let s1 := s.releaseSlots fun x => decide (x.origin = s.chipId) && decide (x.circ = c)
  ((s1.setFld (F.FAB_CIRC_STATE.at c) ccFailed).setFld (F.FAB_CIRC_CAUSE.at c) cause).setFld (F.FAB_CIRC_SETUP.at c) 0

/-- A circuit IDLE, with its TEARDOWN clear (R497). -/
def State.idleCircuit (s : State) (c : Nat) : State :=
  (((s.setFld (F.FAB_CIRC_STATE.at c) ccIdle).setFld (F.FAB_CIRC_CAUSE.at c) 0).setFld (F.FAB_CIRC_TEARDOWN.at c) 0)

/-- Words 2 and 3 of the packets of a circuit (R477). -/
def State.circWords (s : State) (c : Nat) : Word × Word :=
  (BitVec.ofNat 64 (s.fld (F.FAB_CIRC_PORT_A.at c) + s.fld (F.FAB_CIRC_PORT_B.at c) * 2 ^ 5
    + s.fld (F.FAB_CIRC_PORT_C.at c) * 2 ^ 10 + s.fld (F.FAB_CIRC_HOPS.at c) * 2 ^ 16 + s.fld (F.FAB_CIRC_SHARE.at c) * 2 ^ 20),
   BitVec.ofNat 64 c)

/-- CIRC_SETUP or CIRC_TEARDOWN sent along the path of circuit `c`. -/
def State.sendCirc (s : State) (c type : Nat) : State :=
  let w := s.circWords c
  s.inject (if type = ptCircSetup then .circSetup c else .circDown c)
    { w0 := headWord (s.fld (F.FAB_CIRC_DEST_CHIP.at c)) s.chipId 0 0 type 0 0 0, w1 := 0, w2 := w.1, w3 := w.2, data := [],
      poisoned := false }

/-- CIRC_TEARDOWN sent back toward the originator of a circuit (R481). -/
def State.sendCircBack (s : State) (origin c : Nat) : State :=
  s.inject (.circBack origin c)
    { w0 := headWord origin s.chipId 0 0 ptCircDown 0 0 0, w1 := 0, w2 := 0, w3 := BitVec.ofNat 64 c, data := [],
      poisoned := false }

/-- The circuits that cross a port come down (R476, R481): this chip's own are FAILED with the cause and torn down along their path
where it can still be reached, the others are torn down toward their originators. -/
def State.dropCircuits (s : State) (p cause : Nat) : State :=
  let hit := s.fab.slots.filter fun x => decide (x.port = p) || decide (x.input = p)
  let s1 := s.releaseSlots fun x => decide (x.port = p) || decide (x.input = p)
  hit.foldl (fun s x =>
    if x.origin = s.chipId then
      let t := s.failCircuit x.circ cause
      if t.portOn x.port then t.sendCirc x.circ ptCircDown else t
    else s.sendCircBack x.origin x.circ) s1

/-! ## Ports going down (R468, R486, R487) -/

/-- The collective of a group and CSEQ. -/
def State.collAt (s : State) (g cseq : Nat) : Option Coll :=
  s.col.colls.find? fun c => decide (c.group = g) && decide (c.cseq = cseq)

/-- A collective ends with LINK_LOST on this member and its step replays (R526). A member that has sent READY does not end it so: it
sends READY again until its step commits or an ABORT comes (R529, R530; log entry 35). -/
def State.loseColl (s : State) (c : Coll) : State :=
  if c.readyAt.isSome ∨ (s.collAt c.group c.cseq).isNone = true then s
  else (s.endColl c caLinkLost true).replayStep c.lead 6 []

/-- Does a packet belong to a collective? -/
def Coll.owns (c : Coll) (k : Packet) : Bool :=
  decide (pktType k = ptColl) && decide (bitsOf k.w1 47 36 = c.group) && decide (bitsOf k.w1 35 20 = c.cseq % 65536)

/-- Does a collective in progress use port `p` (R528): one of its packets is passing over it, or a circuit that carries its flow, either
way, crosses it? A head queued on it and not yet sent is routed again and does not make the collective fail. -/
def State.collUses (s : State) (p : Nat) (c : Coll) : Bool :=
  let x := s.port p
  (s.fab.outq.any fun o => decide (o.port = p) && s.circStarted o && c.owns o.pkt) ||
    (x.holdReq.any fun h => decide (h.2 < pktFlits h.1.pkt) && c.owns h.1.pkt) ||
    ((otherRanks c.n c.me).any fun r =>
      let chip := s.memberChip c.group r
      (match s.flowCircuit chip with
        | some y => decide (y.port = p)
        | none => false) ||
      s.fab.slots.any fun y => decide (y.input = p) && decide (y.origin = chip) && decide (y.dest = s.chipId))

def State.collsOn (s : State) (p : Nat) : List Coll := s.col.colls.filter fun c => c.active && s.collUses p c

/-- The heads queued on a port and not yet sent are routed again (R468). -/
def State.rerouteHeads (s : State) (p : Nat) : State :=
  let mine (o : OutPkt) : Bool := decide (o.port = p) && decide (o.input ≤ 32)
  (s.fab.outq.filter mine).foldl (fun s o => s.routePacket o.input o.owe o.pkt)
    { s with fab := { s.fab with outq := s.fab.outq.filter fun o => !mine o } }

/-- DOWN_CAUSE after an event with a cause: where a notice and a loss of light meet, the first stands (R487). -/
def State.downCause (s : State) (p cause : Nat) : Nat :=
  let old := s.fld (F.FAB_PORT_STATUS_DOWN_CAUSE.at p)
  let notice (n : Nat) : Bool := decide (2 ≤ n) && decide (n ≤ 6)
  if !s.portOn p && ((decide (cause = 1) && notice old) || (notice cause && decide (old = 1))) then old else cause

/-- A packet whose input credits are owed to port `p` owes them no longer. -/
def OutPkt.forget (p : Nat) (o : OutPkt) : OutPkt := { o with owe := o.owe.filter fun c => decide (c.1 ≠ p) }

/-- No credit is owed to port `p`, nor will be for the packets that came over it: each end holds full credits again at the next HELLO
(R442). -/
def State.forgetOwed (s : State) (p : Nat) : State :=
  { s with fab := { s.fab with
      owed := s.fab.owed.filter fun o => decide (o.1 ≠ p)
      outq := s.fab.outq.map (OutPkt.forget p)
      ports := s.fab.ports.map fun e => (e.1, { e.2 with
        holdReq := e.2.holdReq.map fun h => (h.1.forget p, h.2), holdRep := e.2.holdRep.map fun h => (h.1.forget p, h.2) }) } }

/-- A packet that held a plane of a port that went DOWN: routed again where no flit of it was sent, else cut (R454, R468). -/
def State.dropHeld (s : State) (h : OutPkt × Nat) : State :=
  if h.2 = pktFlits h.1.pkt then s.routePacket h.1.input h.1.owe h.1.pkt else s.oweCredit h.1.owe

/-- A port goes DOWN with a cause (R486, R487). -/
def State.portDown (s : State) (p cause : Nat) : State :=
  if s.portState p = poDown ∨ s.portState p = poDark then s
  else
    let colls := s.collsOn p
    let x := s.port p
    let s1 := (((s.setFld (F.FAB_PORT_STATUS_DOWN_CAUSE.at p) (s.downCause p cause)).setFld (F.FAB_PORT_STATUS_STATE.at p) poDown).setFld
      (F.FAB_PORT_CFG_RETRAIN.at p) 0).setPort p
      { x with dropping := false, hello := false, holdReq := none, holdRep := none, slots := [], ctlq := [], sparing := []
               spareAt := [], asked := [], rx := ({} : Port).rx }
    let s3 := ((x.holdReq.toList ++ x.holdRep.toList).foldl State.dropHeld s1).forgetOwed p
    let s4 := (s3.rerouteHeads p).dropCircuits p cfPortDown
    let s5 := colls.foldl State.loseColl s4
    (s5.raiseEvent 0x1D p (s5.fld (F.FAB_PORT_STATUS_DOWN_CAUSE.at p))).showFabric

/-- What the receiver of an ABSENT port sees: light, which discovery calls EXTRA, or none (R461). While the domain is Off only the light
itself is noted. -/
def State.seeLight (s : State) (p : Nat) (light : Bool) : State :=
  let s1 := s.setPort p { s.port p with light := light }
  if s.memOn then s1.setFld (F.FAB_PORT_STATUS_DISCOVERY.at p) (if light then 2 else 0) else s1

/-- PORT_LOSS_OF_LIGHT (R485): the port goes DOWN with cause LIGHT, and the retrain of one that carried traffic is due (R488). An
ABSENT port that saw light sees none (R461). -/
def State.doPortLossOfLight (s : State) (p : Nat) : State :=
  if p < 32 ∧ s.planned p = false ∧ s.portState p = poDark then s.seeLight p false
  else if p < 32 ∧ s.portLit p = true then
    let s1 := s.portDown p 1
    s1.setPort p { s1.port p with tried := s.now, due := if s.portOn p then some 0 else (s1.port p).due }
  else s

def execPortLossOfLight (port : Nat) (s : State) : Host.Outcome State Fault Refusal := .next (s.doPortLossOfLight port)

/-- RESET_NOTICE received (R484, R487, R488): the port, also one that trains, goes DOWN; after a notice of cause PORT it retrains with
the neighbour, after the others once light returns. -/
def State.doResetNotice (s : State) (p cause : Nat) : State :=
  if p < 32 ∧ 1 ≤ cause ∧ cause ≤ 5 ∧ s.portLit p = true then
    let s1 := s.portDown p (1 + cause)
    s1.setPort p { s1.port p with awaitLight := decide (cause ≠ 1), due := if cause = 1 then some 0 else none, tried := s.now }
  else if p < 32 ∧ ¬(1 ≤ cause ∧ cause ≤ 5) then s.addSat F.FAB_DROP_MALFORMED 1
  else s

def execResetNotice (port cause : Nat) (s : State) : Host.Outcome State Fault Refusal := .next (s.doResetNotice port cause)

/-- PORT_DARK received (R461, R483): the neighbour leaves the port dark; this end has found a mismatch too, or finds no light. -/
def State.doPortDark (s : State) (p : Nat) : State :=
  if p < 32 ∧ s.portLit p = true then
    let s1 := s.portDown p 1
    s1.setPort p { s1.port p with tried := s.now }
  else s

def execPortDark (port : Nat) (s : State) : Host.Outcome State Fault Refusal := .next (s.doPortDark port)

/-! ## Retrains (R437, R464, R484, R488, R490) -/

/-- A retrain made due with its cause code of DOWN_CAUSE; 0 where the port is down already. -/
def State.dueRetrain (s : State) (p cause : Nat) : State := s.setPort p { s.port p with due := some cause }

/-- The HELLO of this end (R483). -/
def State.sendHello (s : State) (p : Nat) : State :=
  s.sendCtrl p (.hello
    { chip := s.chipId, port := p, portGen := s.fld (F.FAB_PORT_STATUS_PORT_GEN.at p), fabGen := s.fld F.FAB_STATUS_FAB_GEN
      rackId := s.rackId, width := 4 - (s.port p).lost.length })

/-- Events 1 to 4 of R488: RESET_NOTICE where the VX9 starts it on a lit port (R484), the port leaves route selection, its light goes
off, PORT_GEN advances, and every lane trains again (R440); this end sends its HELLO once they have. -/
def State.beginRetrain (s : State) (p cause : Nat) : State :=
  let asked := s.fld (F.FAB_PORT_CFG_RETRAIN.at p)
  let s0 := if s.portLit p then s.sendCtrl p (.resetNotice 1) else s
  let s1 := if s.portOn p then s0.portDown p cause else s0
  let s2 := (((s1.addWrap (F.FAB_PORT_STATUS_PORT_GEN.at p) 1).addSat (F.FAB_PORT_STATUS_RETRAINS.at p) 1).setFld
    (F.FAB_PORT_STATUS_STATE.at p) poTraining).setFld (F.FAB_PORT_CFG_RETRAIN.at p) asked
  let s3 := s2.setPort p { s2.port p with due := none, awaitLight := false, retrainAt := some s.now, hello := false, tried := s.now
                                          lost := [], naksSent := [], naksGot := [], farMap := [] }
  ((s3.resetArbs (ArbId.ofPort p)).sendHello p).showFabric

/-- PORT_RETRAIN: the retrain that is due on a port begins, on a planned port that is enabled and not DARK (R464, R490). -/
def State.doPortRetrain (s : State) (p : Nat) : State :=
  match (s.port p).due with
  | some cause =>
    if p < 32 ∧ s.boot.refclk = true ∧ s.mayTrain = true ∧ s.planned p = true ∧ s.fld (F.FAB_PORT_CFG_ENABLE.at p) = 1 ∧
        s.portState p ≠ poDark then s.beginRetrain p cause
    else s
  | none => s

def execPortRetrain (port : Nat) (s : State) : Host.Outcome State Fault Refusal := .next (s.doPortRetrain port)

/-- FAB_PORT_RETRAIN: a write of 1 to FAB_PORT_CFG[p].RETRAIN, ignored while a retrain runs. -/
def State.doFabPortRetrain (s : State) (p : Nat) : State :=
  s.powered blkFab fun s =>
  if p < 32 ∧ s.planned p = true ∧ (s.portOn p = true ∨ s.portState p = poDown) ∧ (s.port p).due = none then
    (s.setFld (F.FAB_PORT_CFG_RETRAIN.at p) 1).dueRetrain p 8
  else s

def execFabPortRetrain (port : Nat) (s : State) : Host.Outcome State Fault Refusal := .next (s.doFabPortRetrain port)

/-- PORT_RETRY_TIMER: each second a port that is DOWN, or trains and has no matching HELLO, is tried again while the fabric is UP, and one
that lost its light also while it is HELD (R488); one that a notice of cause PACKAGE, SAFE, DARK or FALLOW took DOWN waits for light (R464, R488). -/
def State.doPortRetryTimer (s : State) (p : Nat) : State :=
  if p < 32 ∧ s.boot.refclk = true ∧ s.mayTrain = true ∧ s.planned p = true ∧ (s.port p).tried + nsSec ≤ s.now ∧
      (s.fabState = fsUp ∨ (s.fabState = fsHeld ∧ s.fld (F.FAB_PORT_STATUS_DOWN_CAUSE.at p) = 1)) ∧
      (s.port p).awaitLight = false ∧ (s.portState p = poDown ∨ (s.portState p = poTraining ∧ (s.port p).hello = false)) then
    s.beginRetrain p 1
  else s

def execPortRetryTimer (port : Nat) (s : State) : Host.Outcome State Fault Refusal := .next (s.doPortRetryTimer port)

/-- LIGHT_RETURNS: the retrain of a port that went DOWN on a notice of cause PACKAGE, SAFE, DARK or FALLOW begins. Light at a port
whose role is ABSENT is EXTRA (R461). -/
def State.doLightReturns (s : State) (p : Nat) : State :=
  if p < 32 ∧ s.boot.refclk = true ∧ s.mayTrain = true ∧ s.portState p = poDown ∧ (s.port p).awaitLight = true then s.beginRetrain p 1
  else if p < 32 ∧ s.planned p = false ∧ s.portState p = poDark then s.seeLight p true
  else s

def execLightReturns (port : Nat) (s : State) : Host.Outcome State Fault Refusal := .next (s.doLightReturns port)

/-- WIDTH and the running state of a port from the logical lanes it has lost (R440, R489). -/
def State.showPortWidth (s : State) (p : Nat) : State :=
  let n := (s.port p).lost.length
  s.setFld (F.FAB_PORT_STATUS_WIDTH.at p) (if n = 0 then 0 else if n = 1 then 1 else if n = 2 then 2 else 3)

/-- Event 5 of R488: full credits, frame sequence 0, and the port UP or DEGRADED; on fewer than two lanes it stays DOWN.
DOWN_CAUSE, which R488 does not name, stands (log entry 60). -/
def State.portReady (s : State) (p : Nat) : State :=
  let x := s.port p
  let n := x.lost.length
  let s1 := s.setPort p { x with credits := ({} : Port).credits, rxNext := 0, txNext := 0, kept := [], dropping := false
                                 rx := ({} : Port).rx, slots := [], ctlq := [], slotNo := 0, used := ({} : Port).used
                                 retrainAt := none, awaitLight := false, due := none }
  let st := if n = 0 then poUp else if n ≤ 2 then poDegraded else poDown
  let s2 := (((s1.setFld (F.FAB_PORT_STATUS_STATE.at p) st).setFld (F.FAB_PORT_CFG_RETRAIN.at p) 0).setFld
    (F.FAB_PORT_STATUS_MODE.at p) (s.fld (F.FAB_PORT_CFG_MODE.at p))).showPortWidth p
  s2.showFabric.startWaiting

/-- PORT_UP: a port that trains and has a matching HELLO is UP. -/
def State.doPortUp (s : State) (p : Nat) : State :=
  if p < 32 ∧ s.portState p = poTraining ∧ (s.port p).hello = true then s.portReady p else s

def execPortUp (port : Nat) (s : State) : Host.Outcome State Fault Refusal := .next (s.doPortUp port)

/-! ## HELLO and discovery (R459 to R466) -/

/-- The outcomes of FAB_PORT_STATUS.DISCOVERY. -/
def dvNotPlanned : Nat := 0
def dvMatch : Nat := 1
def dvExtra : Nat := 2
def dvMismatch : Nat := 3
def dvMissing : Nat := 4

/-- HELLO received by a port that trains (R461): the expected neighbour is answered and makes it UP, at once in discovery and at event 5
of a retrain, on the width it gives (R440); another leaves it DARK. Light at an ABSENT port is EXTRA. -/
def State.doHello (s : State) (p : Nat) (h : HelloMsg) : State :=
  if 32 ≤ p then s
  else if !s.planned p then
    if s.portState p = poDark then s.seeLight p true else s
  else if s.portState p ≠ poTraining then s
  else
    let s1 := (s.setFld (F.FAB_PORT_STATUS_NEIGHBOUR_CHIP.at p) h.chip).setFld (F.FAB_PORT_STATUS_NEIGHBOUR_PORT.at p) h.port
    if h.chip = s.planBits p 9 4 ∧ h.port = s.planBits p 14 10 ∧ h.rackId = s.rackId then
      let s2 := ((s1.setFld (F.FAB_PORT_STATUS_DISCOVERY.at p) dvMatch).sendHello p).setPort p
        { s1.port p with lost := (List.range 4).drop h.width }
      if (s.port p).retrainAt.isNone then s2.portReady p
      else s2.setPort p { s2.port p with hello := true }
    else
      ((((s1.setFld (F.FAB_PORT_STATUS_DISCOVERY.at p) dvMismatch).sendCtrl p .portDark).setFld
        (F.FAB_PORT_STATUS_STATE.at p) poDark).setFld (F.FAB_PORT_CFG_RETRAIN.at p) 0).showFabric

def execHello (port : Nat) (h : HelloMsg) (s : State) : Host.Outcome State Fault Refusal := .next (s.doHello port h)

/-- A planned port trains for discovery and sends its HELLO; one that carries traffic leaves it first, as in a retrain (R461, R466). After
a cold start this is a retrain: RETRAINS counts it, and PORT_GEN advances where the light was not off already (R488, R489). -/
def State.discoverPort (s : State) (p : Nat) : State :=
  let again := decide (s.devState ≠ dsConfiguring)
  let s0 := if s.portOn p then (s.sendCtrl p (.resetNotice 1)).portDown p 8 else s
  let s1 := if again then (if s.portState p = poDark then s0 else s0.addWrap (F.FAB_PORT_STATUS_PORT_GEN.at p) 1).addSat
    (F.FAB_PORT_STATUS_RETRAINS.at p) 1 else s0
  let s2 := ((s1.setFld (F.FAB_PORT_STATUS_STATE.at p) poTraining).setFld (F.FAB_PORT_STATUS_DISCOVERY.at p) dvMissing).setPort p
    { s1.port p with retrainAt := none, hello := false, awaitLight := false, due := none, tried := s.now, lost := [], farMap := [] }
  s2.sendHello p

/-- Discovery begins on the planned ports that are not UP, or on every port (R461, R466); an ABSENT port shows what its receiver sees. -/
def State.beginDiscovery (s : State) (all : Bool) : State :=
  let s1 := (List.range 32).foldl (fun (s : State) p =>
    if !s.planned p then
      if all then ((s.portDown p 8).setFld (F.FAB_PORT_STATUS_STATE.at p) poDark).setFld (F.FAB_PORT_STATUS_DISCOVERY.at p)
        (if (s.port p).light then dvExtra else dvNotPlanned)
      else s
    else if s.fld (F.FAB_PORT_CFG_ENABLE.at p) = 0 then s.setFld (F.FAB_PORT_STATUS_STATE.at p) poDark
    else if s.portOn p && !all then s
    else s.discoverPort p) s
  ({ s1 with fab := { s1.fab with discoverAt := some s.now } } : State).showFabric

/-- HELD_SECT bit 20 of GLB_STATE: bit 2 of the field, the fabric section (R462), with its cause MISMATCH (R624). -/
def State.setFabHeld (s : State) (b : Bool) : State :=
  (s.setFld F.GLB_STATE_HELD_SECT (s.fld F.GLB_STATE_HELD_SECT &&& 0x7B ||| (if b then 4 else 0))).setFld
    F.GLB_CFG_HOLD_CAUSEC (if b then 4 else 0)

/-- What the fabric's entry to HELD ends (R463, R526): a WRITE that waits to be sent makes its step replay with LINK_LOST, a collective
of a step that has not sent READY ends with LINK_LOST, and its waiting packets go with it. -/
def State.failRemote (s : State) : State :=
  let goes (k : ReqKind) : Bool := match k with
    | .write _ _ _ => true
    | .coll _ _ _ kind => decide (kind ≠ ckAbort)
    | _ => false
  let lost := s.fab.hubWait.filter fun w => goes w.1
  let s1 := lost.foldl (fun (s : State) w => match w.1 with
    | .write (some o) _ _ => match (s.clu o.1).lead with
      | some l => s.replayStep l 6 []
      | none => s
    | _ => s) { s with fab := { s.fab with hubWait := s.fab.hubWait.filter fun w => !goes w.1 } }
  (s1.col.colls.filter fun c => !c.done).foldl State.loseColl s1

/-- The fabric HELD (R462, R463). -/
def State.holdFabric (s : State) : State := (((s.setFld F.FAB_STATUS_STATE fsHeld).setFabHeld true).showFabric).failRemote

/-- Discovery on every port, unless the straps, the plan's chip or the section hold the fabric with every port dark (R459 to R461,
R606): at event 9 of a cold start, on return from DARK, in a recovery, and after a reload of the section. -/
def State.startFabric (s : State) : State :=
  let parBad := decide (s.fld F.GLB_STRAPS_PAR_OK = 0)
  let chipBad := !(s.sect 3).isEmpty && decide (s.confNum 3 0 1 0 ≠ s.chipId)
  let s1 := (s.setFld F.FAB_STATUS_STRAP_ERR (bit parBad)).setFld F.FAB_STATUS_PLAN_CHIP_ERR (bit chipBad)
  if parBad || chipBad || (s.sect 3).isEmpty then
    let s2 := (List.range 32).foldl (fun (s : State) p => (s.portDown p 8).setFld (F.FAB_PORT_STATUS_STATE.at p) poDark) s1
    let cause := s2.fld F.GLB_CFG_HOLD_CAUSEC
    let s3 := s2.holdFabric
    let s4 := if (s.sect 3).isEmpty then s3.setFld F.GLB_CFG_HOLD_CAUSEC cause else s3
    ({ s4 with clock := { s4.clock with discoveryEnd := some s4.now } } : State).raiseEvent 0x1E 0 (s4.fld F.FAB_STATUS_MISSING)
  else (s1.setFld F.FAB_STATUS_STATE fsDiscovering).beginDiscovery true

/-- DISCOVERY_END: every planned port is UP, or 400 ms have passed; the fabric is UP or HELD. A fabric that is UP while RESUME looks
for its missing ports stays UP (R465, R466). -/
def State.doDiscoveryEnd (s : State) : State :=
  match s.fab.discoverAt with
  | none => s
  | some t =>
    let missing := (List.range 32).filter fun p => s.planned p && !s.portOn p
    if missing.isEmpty ∨ t + 400000000 ≤ s.now then
      let req := missing.any fun p => decide (s.portRole p = prRequired)
      let s1 : State := ({ s with fab := { s.fab with discoverAt := none }
                                  clock := { s.clock with discoveryEnd := some s.now } } : State).setFld F.FAB_CTL_RESUME 0
      if s.fabState = fsUp then s1.showFabric
      else if req then
        let s2 := s1.holdFabric
        if s.fabState = fsHeld then s2 else s2.raiseEvent 0x1E 0 (s2.fld F.FAB_STATUS_MISSING)
      else ((s1.setFld F.FAB_STATUS_STATE fsUp).setFabHeld false).showFabric.startWaiting
    else s

def execDiscoveryEnd (s : State) : Host.Outcome State Fault Refusal := .next s.doDiscoveryEnd

/-- RESUME: a write of 1 to FAB_CTL.RESUME (R466, R492). A chip whose strap or plan is wrong, or whose section is not in force, stays HELD
with its ports dark (R459, R460, R606), and so does a device that is HELD (R607). -/
def State.doResume (s : State) : State :=
  s.powered blkFab fun s =>
  if s.mayTrain = false ∨ (s.sect 3).isEmpty = true ∨ s.fld F.FAB_CTL_RESUME = 1 ∨ s.fld F.FAB_STATUS_STRAP_ERR = 1 ∨ s.fld F.FAB_STATUS_PLAN_CHIP_ERR = 1 then s
  else (s.setFld F.FAB_CTL_RESUME 1).beginDiscovery false

def execResume (s : State) : Host.Outcome State Fault Refusal := .next s.doResume

/-! ## Spare lanes of ports (R438 to R440, R718) -/

/-- A logical lane of a port under substitution: its traffic is held, and LANE_CHANGE goes to the far end. `own` where this end begins
it, so that the far end's map is the answer. -/
def State.holdLane (s : State) (p lane : Nat) (own : Bool) : State :=
  let x := s.port p
  let s1 := s.setPort p { x with
    sparing := x.sparing ++ [lane], spareAt := (lane, s.now) :: x.spareAt.filter fun e => decide (e.1 ≠ lane)
    asked := if own then x.asked ++ [lane] else x.asked }
  s1.sendCtrl p (.laneChange (s1.portMap p))

/-- A port goes on without a logical lane: DEGRADED on 3 or 2, DOWN on fewer (R440). -/
def State.narrowPort (s : State) (p lane : Nat) : State :=
  let s1 := (s.setPort p { s.port p with lost := (s.port p).lost ++ [lane] }).showPortWidth p
  if 2 < (s1.port p).lost.length then s1.portDown p 1
  else if s1.portState p = poDraining then s1
  else (s1.setFld (F.FAB_PORT_STATUS_STATE.at p) poDegraded).showFabric

/-- The first spare of a port's engine that a higher-numbered port took at this same instant: its entry (R439). -/
def State.rivalSpare (s : State) (p : Nat) : Option (Nat × Nat × Nat) :=
  s.repair.lanes.find? fun x => decide (x.1 = engineOfPort p) && decide (p < x.2.1) &&
    (s.port x.2.1).sparing.contains x.2.2 && (s.port x.2.1).spareAt.contains (x.2.2, s.now)

/-- A spare for a failed lane: at one instant the lower-numbered port takes the first, and the other tries again; with none free the
port goes on narrower (R438 to R440). The fuel covers the four ports of an engine. -/
def State.takeSpare : Nat → State → Nat → Nat → Bool → State
  | 0, s, p, lane, _ => s.narrowPort p lane
  | n + 1, s, p, lane, own =>
    match s.rivalSpare p with
    | some x =>
      let s1 := s.writeRepair fun r => { r with lanes := r.lanes.map fun y => if y = x then (x.1, p, lane) else y }
      let q := x.2.1
      let y := s1.port q
      let s2 := s1.setPort q { y with
        sparing := y.sparing.filter fun l => decide (l ≠ x.2.2), asked := y.asked.filter fun l => decide (l ≠ x.2.2) }
      (s2.holdLane p lane own).takeSpare n q x.2.2 (y.asked.contains x.2.2)
    | none =>
      if s.sparesUsed (engineOfPort p) < 2 then (s.bookSpare (engineOfPort p) p lane).holdLane p lane own else s.narrowPort p lane

/-- FAB_LANE_FAIL: a spare of the engine is substituted with LANE_CHANGE while traffic is held, or the port runs narrower. -/
def State.doFabLaneFail (s : State) (p : Nat) (x : OpticalLane) : State :=
  if p < 32 ∧ x.lane < 4 ∧ s.laneFails x = true ∧ s.portOn p = true ∧ x.lane ∉ (s.port p).lost ∧ x.lane ∉ (s.port p).sparing then
    State.takeSpare 4 s p x.lane true
  else s

def execFabLaneFail (port : Nat) (lane : OpticalLane) (s : State) : Host.Outcome State Fault Refusal :=
  .next (s.doFabLaneFail port lane)

/-- FAB_SPARE_DONE: the substitution begun first on a port completes; held traffic resumes with the last. -/
def State.doFabSpareDone (s : State) (p : Nat) : State :=
  match (s.port p).sparing with
  | [] => s
  | lane :: rest =>
    if p < 32 then
      let s1 := (s.setPort p { s.port p with sparing := rest }).sendFull p
      (s1.setFld (F.FAB_PORT_STATUS_SPARES.at p) (min 2 (s1.fld (F.FAB_PORT_STATUS_SPARES.at p) + 1))).raiseEvent 0x18
        (engineOfPort p) (4 * (p % 4) + lane)
    else s

def execFabSpareDone (port : Nat) (s : State) : Host.Outcome State Fault Refusal := .next (s.doFabSpareDone port)

/-- Has the far end of a port moved logical lane `i` to a spare that this end has not followed (R438; log entry 67)? Not where the map
answers this end's own change; else where the lane lies at a spare there and not here, or at another than in the map before. -/
def State.farMoved (s : State) (p : Nat) (m : List Nat) (i : Nat) : Bool :=
  let x := s.port p
  decide (16 ≤ m.getD i 0) && !x.asked.contains i &&
    (decide (s.engineLane p i < 16) || (decide (x.farMap ≠ []) && decide (x.farMap.getD i 0 ≠ m.getD i 0)))

/-- LANE_CHANGE received: for each logical lane that the far end moved to a spare, this end substitutes a spare of its own engine and
answers with its map, or goes on narrower with none left (R438 to R440). -/
def State.doLaneChange (s : State) (p : Nat) (m : List Nat) : State :=
  if p < 32 ∧ s.portOn p = true then
    let moved := (List.range 4).filter fun i => s.farMoved p m i && !(s.port p).lost.contains i
    let x := s.port p
    let s0 := (s.setPort p { x with
      farMap := m, asked := x.asked.filter fun i => decide (m.getD i 0 < 16 ∨ x.farMap.getD i 0 = m.getD i 0) }).oweCtrl p
    moved.foldl (fun (s : State) i => if s.portOn p then State.takeSpare 4 s p i false else s) s0
  else s

def execLaneChange (port : Nat) (map : List Nat) (s : State) : Host.Outcome State Fault Refusal := .next (s.doLaneChange port map)

/-! ## Frames received (R434 to R437) -/

/-- Times within the last millisecond. -/
def lastMs (now : Nat) (ts : List Nat) : List Nat := ts.filter fun t => decide (now < t + 1000000)

/-- One credit field of a control flit entered. -/
def addCredit (cs : List Nat) (f : Nat) : List Nat :=
  let id := f / 4096
  if id < 11 then cs.set id (cs.getD id 0 + f % 4096) else cs

/-- The data flits that MAP announces, by channel code (R434, R435). -/
def addMap (rx : List Nat) (map : Nat) : List Nat :=
  (List.range 63).foldl (fun (a : List Nat) i => let c := map / 2 ^ (3 * i) % 8; a.set c (a.getD c 0 + 1)) rx

/-- A NAK received: the retained frames are resent as they were, in order from the frame it names, with REPLAY (R436). -/
def State.resendFrom (s : State) (p f : Nat) : State :=
  ((s.port p).kept.dropWhile fun q => decide (q.seq ≠ f)).foldl (fun s q => s.emit (s.frameOut p q true false (s.port p).lastGot)) s

/-- The state of a port after a frame in sequence: its credits, its data flits by channel, and the frames it acknowledges. -/
def Port.afterFrame (x : Port) (control : BitVec 256) : Port :=
  let v := control.toNat
  let ack := v / 2 ^ 208 % 65536
  { x with
    rxNext := (v / 2 ^ 193 % 32768 + 1) % 32768, dropping := false
    credits := addCredit (addCredit x.credits (v / 2 ^ 224 % 65536)) (v / 2 ^ 240)
    rx := addMap x.rx (v % 2 ^ 189)
    kept := if ack < 32768 ∧ (x.kept.any fun q => decide (q.seq = ack)) = true then
      (x.kept.dropWhile fun q => decide (q.seq ≠ ack)).drop 1 else x.kept }

/-- FABRIC_FRAME_RECEIVE: a frame with an uncorrectable flit is discarded, with every later one until it is resent, and a NAK
is sent; a frame in sequence gives its credits, its data flits and its acknowledgement or NAK; this end answers with its next frame.
More than 64 NAKs sent or received within 1 ms make a retrain due. -/
def State.doFabricFrameReceive (s : State) (p : Nat) (control : BitVec 256) (uncorrectable : Bool) : State :=
  if 32 ≤ p ∨ s.portOn p = false then s
  else
    let x := s.port p
    if uncorrectable then
      let ns := lastMs s.now (x.naksSent ++ [s.now])
      let s1 := (s.setPort p { x with dropping := true, naksSent := ns }).sendFrame p true
      if 64 < ns.length then s1.dueRetrain p 7 else s1
    else if control.toNat / 2 ^ 193 % 32768 ≠ x.rxNext ∨ (x.dropping = true ∧ control.getLsbD 192 = false) then s
    else
      let ack := control.toNat / 2 ^ 208 % 65536
      let x1 := x.afterFrame control
      if 32768 ≤ ack then
        let ng := lastMs s.now (x.naksGot ++ [s.now])
        let s2 := ((s.setPort p { x1 with naksGot := ng }).resendFrom p (ack % 32768)).sendFrame p false
        if 64 < ng.length then s2.dueRetrain p 7 else s2
      else (s.setPort p x1).sendFrame p false

def execFabricFrameReceive (port : Nat) (control : BitVec 256) (uncorrectable : Bool) (s : State) :
    Host.Outcome State Fault Refusal := .next (s.doFabricFrameReceive port control uncorrectable)

/-! ## Arriving packets (R443, R448, R454, R468, R469) -/

/-- Does a type allow this LEN (R448, R531)? -/
def lenOk (k : Packet) : Bool :=
  let t := pktType k
  let n := pktLen k
  if t = ptWrite then decide (2 ≤ n) && decide (n ≤ 64) && decide (n % 2 = 0)
  else if t = ptColl then decide (n ≤ 64)
  else decide (n = 0)

/-- Is a head well formed (R448)? -/
def headOk (k : Packet) : Bool :=
  ([1, 2, 3, 4, 5, 8, 9].contains (pktType k)) && decide (pktHop k ≠ 3) && lenOk k

/-- The circuit on which a packet that arrives on a port travels: its flits came in slots with that circuit's channel code (R435, R479,
R480; log entry 67). -/
def State.onCircuit (s : State) (p : Nat) (k : Packet) : Option CircSlot :=
  if pktType k = ptWrite ∨ pktType k = ptColl then
    s.fab.slots.find? fun x => decide (x.input = p) && decide (x.origin = pktSrc k) && decide (x.dest = pktDest k) &&
      decide (pktFlits k ≤ (s.port p).rx.getD (chCircuit x.inSlot) 0)
  else none

/-- The channel code of the slots in which an arriving packet came (R435). -/
def State.channelOf (s : State) (p : Nat) (k : Packet) : Nat :=
  match s.onCircuit p k with
  | some x => chCircuit x.inSlot
  | none => if isReply k then chReply else chRequest

/-- The credit counter of the buffer that an arriving packet takes (R442). -/
def State.bufferOf (s : State) (p : Nat) (k : Packet) : Nat :=
  match s.onCircuit p k with
  | some x => 7 + x.inSlot
  | none => (if isReply k then 3 else 0) + pktHop k

/-- Did the flits of a packet stop arriving (R454)? -/
def isCut (k : Packet) : Bool := decide (k.data.length < 32 * pktLen k)

/-- May a packet arrive on a port: from the neighbour while the planes run, or at index 32 from the own hub (R463, R468)? What came of a
packet before its port went DOWN is there too (R454). -/
def State.mayArrive (s : State) (p : Nat) (k : Packet) : Bool :=
  (decide (p < 32) && (s.portOn p || (decide (s.portState p = poDown) && isCut k)) && decide (s.fabState = fsUp)) ||
    (decide (p = 32) && s.fab.loop.contains k)

/-- The credits that a packet from port `p` owes its sender once it leaves the buffer: none where the port is DOWN (R442). -/
def State.owedFor (s : State) (p c : Nat) (k : Packet) : Option (Nat × Nat × Nat) :=
  if s.portOn p then some (p, c, pktFlits k) else none

/-- The packet taken from where it arrives, with the credits of its buffer owed. -/
def State.takePacket (s : State) (p : Nat) (k : Packet) : State :=
  if p = 32 then { s with fab := { s.fab with loop := s.fab.loop.erase k } }
  else
    let c := s.channelOf p k
    let x := s.port p
    (s.setPort p { x with rx := x.rx.set c (x.rx.getD c 0 - pktFlits k) }).oweCredit (s.owedFor p (s.bufferOf p k) k)

/-- Is the RGEN of a packet accepted (R469)? The flits of a circuit are not checked. -/
def State.rgenOk (s : State) (p : Nat) (k : Packet) : Bool :=
  let d := (pktRgen k + 256 - s.fld F.FAB_STATUS_RGEN) % 256
  decide (p = 32) || (s.onCircuit p k).isSome || decide (d ≤ 1) || (decide (d = 255) && decide (s.fld F.FAB_STATUS_GRACE = 1))

/-- A packet dropped; a request is answered with ACK ABORTED. -/
def State.cutPacket (s : State) (f : Fld) (k : Packet) : State :=
  let s1 := s.addSat f 1
  if isReply k then s1 else s1.sendReply (s1.abortedReply k)

/-- A packet for this chip of type `t` taken and, where it passes the checks, handed to its effect. One that holds a poisoned flit, or
whose flits stopped arriving, is discarded as TRUNCATED (R454). -/
def State.arrive (s : State) (p : Nat) (k : Packet) (t : Nat) (f : State → State) : State :=
  if !s.mayArrive p k || decide (pktType k ≠ t) then s
  else if !headOk k || decide (32 * pktLen k < k.data.length) then (s.takePacket p k).addSat F.FAB_DROP_MALFORMED 1
  else if pktDest k ≠ s.chipId then s
  else if !s.rgenOk p k then (s.takePacket p k).cutPacket F.FAB_DROP_STALE_RGEN k
  else if k.poisoned || isCut k then (s.takePacket p k).cutPacket F.FAB_DROP_TRUNCATED k
  else f (s.takePacket p k)

/-- A packet as it goes on: with HOP + 1, and completed with poisoned flits where its own stopped arriving (R443, R454). -/
def onward (k : Packet) : Packet :=
  { k with w0 := fieldPut k.w0 51 50 (pktHop k + 1), poisoned := k.poisoned || isCut k
           data := k.data ++ List.replicate (32 * pktLen k - k.data.length) 0 }

/-- PACKET_FORWARD: a head for another chip is routed with HOP + 1, or dropped; a malformed head is dropped and counted. -/
def State.doPacketForward (s : State) (p : Nat) (k : Packet) : State :=
  if !s.mayArrive p k || decide (32 ≤ p) then s
  else if !headOk k then (s.takePacket p k).addSat F.FAB_DROP_MALFORMED 1
  else if pktDest k = s.chipId ∨ pktType k = ptCircSetup ∨ pktType k = ptCircDown then s
  else if !s.rgenOk p k then (s.takePacket p k).cutPacket F.FAB_DROP_STALE_RGEN k
  else if pktHop k = 2 then (s.takePacket p k).cutPacket F.FAB_DROP_HOP_LIMIT k
  else
    let owe := s.owedFor p (s.bufferOf p k) k
    let c := s.channelOf p k
    let x := s.port p
    let s1 := s.setPort p { x with rx := x.rx.set c (x.rx.getD c 0 - pktFlits k) }
    match s.onCircuit p k with
    | some x => s1.putOut { port := x.port, reply := false, input := 33 + x.slot, pkt := onward k, owe := owe }
    | none => s1.routePacket p owe (onward k)

def execPacketForward (port : Nat) (pkt : Packet) (s : State) : Host.Outcome State Fault Refusal :=
  .next (s.doPacketForward port pkt)

/-! ## WRITE and TADD (R350, R449) -/

/-- A WRITE refused, counted and answered (R449). -/
def State.refuseWrite (s : State) (k : Packet) (status : Nat) : State :=
  (s.addSat F.FAB_DROP_REMOTE_REFUSED 1).sendReply (s.replyTo k status)

/-- The write that passes every check: ACK OK follows once every part of it is acknowledged. -/
def State.acceptWrite (s : State) (k : Packet) (f : Owner → TlpKind → State → State) : State :=
  let n := s.fab.nextIn
  let s1 : State := { s with fab := { s.fab with nextIn := n + 1, inbound := s.fab.inbound ++ [(n, s.replyTo k akOk)] } }
  f (.remote n) (.remote n) s1

/-- A WRITE for this chip (R449). One of a stale generation or of another tenant counts in TLY_DROP too, as R358 states. -/
def State.takeWrite (s : State) (k : Packet) : State :=
  let c := pktFarContext k
  let r : Reach := { ctx := c, set := s.ctx c cfWset, win := pktFarWindow k, start := 0 }
  let kind := s.winKind r
  if !s.ctxUsable c || decide (s.ctx c cfGen ≠ pktFarGen k) then (s.addSat F.TLY_DROP_STALE_GEN 1).refuseWrite k akStale
  else if s.ctx c cfTenant ≠ pktTenant k then (s.addSat F.TLY_DROP_TENANT 1).refuseWrite k akStale
  else if s.disp.revoked.contains c || !s.winValid r || !(decide (kind = wkTier) || decide (kind = wkHost)) then
    s.refuseWrite k akRange
  else
    match s.winAddr r (pktOffset k) k.data.length with
    | none => s.refuseWrite k akRange
    | some a =>
      if kind = wkTier then
        if !s.windowOk r a k.data.length then s.refuseWrite k akRange
        else match s.winKey r with
          | (s1, .error _) => s1.refuseWrite k akKey
          | (s1, .ok key) => s1.acceptWrite k fun ow _ s => s.tierWrite ow r key a k.data
      else if s.hostStopped then s.refuseWrite k akHostStopped
      else s.acceptWrite k fun _ kd s => s.issueHostWrites kd a k.data

/-- WRITE arriving on a port. -/
def State.doWrite (s : State) (p : Nat) (k : Packet) : State := s.arrive p k ptWrite (fun s => s.takeWrite k)

def execWrite (port : Nat) (pkt : Packet) (s : State) : Host.Outcome State Fault Refusal := .next (s.doWrite port pkt)

/-- A TADD for this chip (R350, R376). -/
def State.takeTadd (s : State) (k : Packet) : State :=
  let c := pktFarContext k
  let n := bitsOf k.w2 13 0
  if !s.ctxUsable c || decide (s.ctx c cfGen ≠ pktFarGen k) then
    (s.addSat F.TLY_DROP_STALE_GEN 1).sendReply (s.replyTo k akStale)
  else if s.ctx c cfTenant ≠ pktTenant k then (s.addSat F.TLY_DROP_TENANT 1).sendReply (s.replyTo k akStale)
  else if !inGrant (s.ctx c cfTallyBase) (s.ctx c cfTallyCount) n then
    (s.addSat F.TLY_DROP_OUT_OF_GRANT 1).sendReply (s.replyTo k akTally)
  else (s.tallyAdd n (BitVec.ofNat 64 (bitsOf k.w3 63 32))).sendReply (s.replyTo k akOk)

/-- TADD arriving on a port. -/
def State.doTadd (s : State) (p : Nat) (k : Packet) : State := s.arrive p k ptTadd (fun s => s.takeTadd k)

def execTadd (port : Nat) (pkt : Packet) (s : State) : Host.Outcome State Fault Refusal := .next (s.doTadd port pkt)

/-! ## Circuits (R477 to R481, R497) -/

/-- CIRC_SETUP arriving: the destination answers OK, a chip on the path reserves a slot on the port named for it. -/
def State.doCircSetup (s : State) (p : Nat) (k : Packet) : State :=
  if !s.mayArrive p k || decide (pktType k ≠ ptCircSetup) || decide (32 ≤ p) then s
  else if !headOk k then (s.takePacket p k).addSat F.FAB_DROP_MALFORMED 1
  else
    let s1 := s.takePacket p k
    if !s.rgenOk p k then s1.cutPacket F.FAB_DROP_STALE_RGEN k
    else if k.poisoned then s1.cutPacket F.FAB_DROP_TRUNCATED k
    else if pktDest k = s.chipId then
      let x : CircSlot := { port := 32, slot := 0, share := 0, origin := pktSrc k, circ := bitsOf k.w3 3 0, input := p
                            dest := s.chipId, inSlot := s1.freeInSlot p }
      ({ s1 with fab := { s1.fab with slots := s1.fab.slots ++ [x] } } : State).sendReply (s1.replyTo k akOk)
    else if 2 ≤ pktHop k ∨ bitsOf k.w2 17 16 ≤ pktHop k + 1 then s1.cutPacket F.FAB_DROP_HOP_LIMIT k
    else
      let out := if pktHop k = 0 then bitsOf k.w2 9 5 else bitsOf k.w2 14 10
      match s1.reserve out (bitsOf k.w2 23 20) (pktSrc k) (bitsOf k.w3 3 0) p (pktDest k) with
      | (s2, st) =>
        if st ≠ akOk then s2.sendReply (s2.replyTo k st)
        else s2.putOut { port := out, reply := false, input := p, owe := none,
                         pkt := { k with w0 := fieldPut k.w0 51 50 (pktHop k + 1) } }

def execCircSetup (port : Nat) (pkt : Packet) (s : State) : Host.Outcome State Fault Refusal := .next (s.doCircSetup port pkt)

/-- CIRC_TEARDOWN arriving: the reservation is released and the packet passes on, along the path from the originator, which its HOPS
tell, or back toward it; the originator's circuit is then FAILED with PORT_DOWN (R477, R481; log entry 34). -/
def State.doCircTeardown (s : State) (p : Nat) (k : Packet) : State :=
  if !s.mayArrive p k || decide (pktType k ≠ ptCircDown) then s
  else if !headOk k then (s.takePacket p k).addSat F.FAB_DROP_MALFORMED 1
  else
    let s1 := s.takePacket p k
    let c := bitsOf k.w3 3 0
    let along := decide (bitsOf k.w2 17 16 ≠ 0)
    let mine (x : CircSlot) : Bool := decide (x.circ = c) && decide (x.origin = if along then pktSrc k else pktDest k)
    if !s.rgenOk p k then s1.cutPacket F.FAB_DROP_STALE_RGEN k
    else if k.poisoned then s1.cutPacket F.FAB_DROP_TRUNCATED k
    else
      let held := s1.fab.slots.find? mine
      let s2 := s1.releaseSlots fun x => mine x && decide (x.origin ≠ s.chipId)
      if pktDest k = s.chipId then
        let own := decide (s.fld (F.FAB_CIRC_STATE.at c) = ccEstablished) || decide (s.fld (F.FAB_CIRC_STATE.at c) = ccSettingUp)
        let s3 := if own && !along then s2.failCircuit c cfPortDown else s2
        s3.sendReply (s3.replyTo k akOk)
      else if 2 ≤ pktHop k then s2.cutPacket F.FAB_DROP_HOP_LIMIT k
      else
        let k1 : Packet := { k with w0 := fieldPut k.w0 51 50 (pktHop k + 1) }
        match held with
        | some x =>
          if along then s2.putOut { port := x.port, reply := false, input := p, pkt := k1, owe := none }
          else s2.routePacket p none k1
        | none => s2.routePacket p none k1

def execCircTeardown (port : Nat) (pkt : Packet) (s : State) : Host.Outcome State Fault Refusal :=
  .next (s.doCircTeardown port pkt)

/-- SETUP: a write of 1 to FAB_CIRC[c].SETUP while the circuit is IDLE or FAILED reserves this chip's port and sends
CIRC_SETUP. -/
def State.doSetup (s : State) (c : Nat) : State :=
  s.powered blkFab fun s =>
  let st := s.fld (F.FAB_CIRC_STATE.at c)
  if c < 16 ∧ (st = ccIdle ∨ st = ccFailed) ∧ s.fld (F.FAB_CIRC_HOPS.at c) ≠ 0 then
    match s.reserve (s.fld (F.FAB_CIRC_PORT_A.at c)) (s.fld (F.FAB_CIRC_SHARE.at c)) s.chipId c 32
        (s.fld (F.FAB_CIRC_DEST_CHIP.at c)) with
    | (s1, r) =>
      if r = akOk then
        (((s1.setFld (F.FAB_CIRC_STATE.at c) ccSettingUp).setFld (F.FAB_CIRC_CAUSE.at c) 0).setFld (F.FAB_CIRC_SETUP.at c) 1).sendCirc
          c ptCircSetup
      else s1.failCircuit c (if r = akNotUp then cfNotUp else cfNoSlot)
  else s

def execSetup (c : Nat) (s : State) : Host.Outcome State Fault Refusal := .next (s.doSetup c)

/-- CIRCUIT_TEARDOWN_WRITE: a write of 1 to FAB_CIRC[c].TEARDOWN releases the circuit along its path; that of a FAILED one too, whose
reservations beyond this chip may stand; one whose first port carries nothing is IDLE at once (R497; log entry 34). -/
def State.doCircuitTeardownWrite (s : State) (c : Nat) : State :=
  s.powered blkFab fun s =>
  let st := s.fld (F.FAB_CIRC_STATE.at c)
  if 16 ≤ c then s
  else if st = ccEstablished ∨ st = ccSettingUp ∨ (st = ccFailed ∧ s.portOn (s.fld (F.FAB_CIRC_PORT_A.at c)) = true) then
    let s1 := s.releaseSlots fun x => decide (x.origin = s.chipId) && decide (x.circ = c)
    (((s1.setFld (F.FAB_CIRC_STATE.at c) ccTearing).setFld (F.FAB_CIRC_TEARDOWN.at c) 1).setFld (F.FAB_CIRC_SETUP.at c) 0).sendCirc
      c ptCircDown
  else if st = ccFailed then s.idleCircuit c
  else s

def execCircuitTeardownWrite (c : Nat) (s : State) : Host.Outcome State Fault Refusal := .next (s.doCircuitTeardownWrite c)

/-! ## Acknowledgements (R450 to R453, R358) -/

/-- The program counter of a descriptor in a cluster's queue. -/
def State.pcOfDesc (s : State) (p id : Nat) : Nat := (((s.clu p).queue.find? fun d => decide (d.id = id)).map (·.pc)).getD 0

/-- An outstanding request ended. -/
def State.endReq (s : State) (tag : Nat) : State :=
  { s with fab := { s.fab with reqs := s.fab.reqs.filter fun r => decide (r.tag ≠ tag) } }

/-- A COLL packet lost: its collective ends with LINK_LOST (R526). -/
def State.loseCollPacket (s : State) (g cseq : Nat) : State :=
  match s.collAt g cseq with
  | some c => s.loseColl c
  | none => s

/-- A WRITE of a barrow answered (R450). -/
def State.ackWrite (s : State) (o : Option (Nat × Nat)) (status : Nat) : State :=
  match o with
  | none => s
  | some (p, id) =>
    let fail (code : Nat) : State := s.refuse p (s.pcOfDesc p id) 0x42 code
    if status = akOk then s
    else if status = akAborted then
      match (s.clu p).lead with
      | some l => s.replayStep l 6 []
      | none => s
    else if status = akKey then fail rcKey
    else fail rcWindow

/-- A CIRC_SETUP answered (R450, R477). -/
def State.ackSetup (s : State) (c status : Nat) : State :=
  if s.fld (F.FAB_CIRC_STATE.at c) ≠ ccSettingUp then s
  else if status = akOk then (s.setFld (F.FAB_CIRC_STATE.at c) ccEstablished).setFld (F.FAB_CIRC_SETUP.at c) 0
  else if status = akAborted then s.failCircuit c cfPortDown
  else if status = akNoSlot then (s.failCircuit c cfNoSlot).sendCirc c ptCircDown
  else (s.failCircuit c cfNotUp).sendCirc c ptCircDown

/-- A CIRC_TEARDOWN answered: released, and the circuit IDLE where it was TEARING. -/
def State.ackDown (s : State) (c status : Nat) : State :=
  if s.fld (F.FAB_CIRC_STATE.at c) ≠ ccTearing then s
  else if status = akAborted then s.failCircuit c cfPortDown
  else if status = akNoSlot then s.failCircuit c cfNoSlot
  else if status = akNotUp then s.failCircuit c cfNotUp
  else s.idleCircuit c

/-- The statuses for which R450 gives a request an effect. An ACK with any other is dropped as malformed, and its request stays
outstanding (log entry 60). -/
def ackGiven (r : ReqKind) (status : Nat) : Bool :=
  match r with
  | .write _ _ _ => [akOk, akStale, akRange, akAborted, akKey, akHostStopped].contains status
  | .tadd => [akOk, akStale, akTally, akAborted].contains status
  | .circSetup _ | .circDown _ => [akOk, akAborted, akNoSlot, akNotUp].contains status
  | .circBack _ _ => decide (status ≤ akHostStopped)
  | .coll _ _ _ _ => decide (status = akAborted)

/-- An ACK of this chip's request: dropped where FAB_GEN or the tag does not match, else it ends its request. -/
def State.takeAck (s : State) (k : Packet) : State :=
  match s.fab.reqs.find? fun r => decide (r.tag = pktTag k) with
  | none => s.addSat F.FAB_DROP_PRUNED 1
  | some r =>
    if pktGen k ≠ s.fld F.FAB_STATUS_FAB_GEN then s.addSat F.FAB_DROP_PRUNED 1
    else if !ackGiven r.kind (pktStatus k) then s.addSat F.FAB_DROP_MALFORMED 1
    else
      let st := pktStatus k
      let s1 := s.endReq r.tag
      let s2 := match r.kind with
        | .write o c g => if s.ctx c cfGen ≠ g then s1.addSat F.CTX_STATS_PRUNED 1 else s1.ackWrite o st
        | .tadd => if st = akOk then s1 else s1.addSat F.FAB_DROP_TADD_LOST 1
        | .circSetup c => s1.ackSetup c st
        | .circDown c => s1.ackDown c st
        | .circBack _ _ => s1
        | .coll g q _ _ => s1.loseCollPacket g q
      s2.startWaiting

/-- ACK arriving on a port. -/
def State.doAck (s : State) (p : Nat) (k : Packet) : State := s.arrive p k ptAck (fun s => s.takeAck k)

def execAck (port : Nat) (pkt : Packet) (s : State) : Host.Outcome State Fault Refusal := .next (s.doAck port pkt)

/-- REPLY_TIMEOUT: a request has had no ACK for REPLY_TIMEOUT_US (R452). -/
def State.doReplyTimeout (s : State) (tag : Nat) : State :=
  match s.fab.reqs.find? fun r => decide (r.tag = tag) with
  | none => s
  | some r =>
    if s.now < r.sent + 1000 * s.fld F.FAB_TIMER_CFG_REPLY_TIMEOUT_US then s
    else
      let s1 := s.endReq tag
      let s2 : State := { s1 with fab := { s1.fab with heldTags := s1.fab.heldTags ++ [(tag, s.now)] } }
      match r.kind with
      | .write o _ _ => s2.ackWrite o akAborted
      | .tadd => s2.addSat F.FAB_DROP_TADD_LOST 1
      | .circSetup c => if s2.fld (F.FAB_CIRC_STATE.at c) = ccSettingUp then s2.failCircuit c cfTimeout else s2
      | .circDown c => if s2.fld (F.FAB_CIRC_STATE.at c) = ccTearing then s2.failCircuit c cfTimeout else s2
      | .circBack _ _ => s2
      | .coll g q _ _ => s2.loseCollPacket g q

def execReplyTimeout (tag : Nat) (s : State) : Host.Outcome State Fault Refusal := .next (s.doReplyTimeout tag)

/-- TAG_REUSE_EXPIRY: the tag of a request that timed out is usable again (R452). -/
def State.doTagReuseExpiry (s : State) (tag : Nat) : State :=
  if (s.fab.heldTags.any fun h => decide (h.1 = tag) &&
      decide (h.2 + 1000 * s.fld F.FAB_TIMER_CFG_REPLY_TIMEOUT_US ≤ s.now)) = true then
    ({ s with fab := { s.fab with heldTags := s.fab.heldTags.filter fun h => decide (h.1 ≠ tag) } } : State).startWaiting
  else s

def execTagReuseExpiry (tag : Nat) (s : State) : Host.Outcome State Fault Refusal := .next (s.doTagReuseExpiry tag)

/-! ## Table swaps (R470 to R473) -/

/-- SWAP: a write of 1 to FAB_CTL.SWAP, ignored while a swap is pending. -/
def State.doSwap (s : State) : State :=
  s.powered blkFab fun s =>
  if s.fld F.FAB_STATUS_SWAP_PENDING = 1 then s
  else
    let s1 := (s.setFld F.FAB_STATUS_SWAP_PENDING 1).setFld F.FAB_CTL_SWAP 1
    { s1 with fab := { s1.fab with swapAt := some s.now } }

def execSwap (s : State) : Host.Outcome State Fault Refusal := .next s.doSwap

/-- Two entries of the routing arrays exchanged. -/
def State.exchange (s : State) (a b : Nat) : State := (s.setReg a (s.reg b)).setReg b (s.reg a)

/-- The tables of a fabric section written into the active and the shadow copies, with its RGEN (R597, R598). -/
def State.installTables (s : State) (b : Bytes) : State :=
  let entry (o d : Nat) : Word := BitVec.ofNat 64 (natOfBytes ((b.drop (o + 8 * d)).take 8))
  let s1 := (List.range 64).foldl (fun (s : State) d =>
    (((s.setReg (F.FAB_ROUTE_VALID.at d).reg (entry 144 d)).setReg (F.FAB_ROUTE_SHADOW_VALID.at d).reg (entry 144 d)).setReg
      (F.FAB_FALLBACK_VALID.at d).reg (entry 656 d)).setReg (F.FAB_FALLBACK_SHADOW_VALID.at d).reg (entry 656 d)) s
  s1.setFld F.FAB_STATUS_RGEN (natOfBytes ((b.drop 1).take 1))

/-- RGEN and the digest of the active tables (R838 class 0x0C). -/
def State.routesValue (s : State) : Bytes :=
  bytesOfNat 1 (s.fld F.FAB_STATUS_RGEN) ++ shake256
    ((List.range 64).flatMap (fun d => bytesOfNat 8 (s.reg (F.FAB_ROUTE_VALID.at d).reg).toNat) ++
      (List.range 64).flatMap fun d => bytesOfNat 8 (s.reg (F.FAB_FALLBACK_VALID.at d).reg).toNat) 11

/-- GRACE_EXPIRY: GRACE clears GRACE_MS after the exchange (R472). -/
def State.doGraceExpiry (s : State) : State :=
  if s.fld F.FAB_STATUS_GRACE = 1 ∧ s.fab.graceAt + 1000000 * s.fld F.FAB_TIMER_CFG_GRACE_MS ≤ s.now then
    s.setFld F.FAB_STATUS_GRACE 0
  else s

def execGraceExpiry (s : State) : Host.Outcome State Fault Refusal := .next s.doGraceExpiry

/-! ## Port drains (R476, R498) -/

/-- The drain of a port for a committed MODE and ENABLE begins: bits 1:0 the mode, bit 2 ENABLE, bit 3 a commit of a group. Heads
queued on it and not yet sent are routed again (R468, R476). -/
def State.beginDrain (s : State) (p cfg : Nat) : State :=
  let s1 := s.setPort p { s.port p with draining := some cfg }
  if s.portUsable p then ((s1.setFld (F.FAB_PORT_STATUS_STATE.at p) poDraining).rerouteHeads p).showFabric else s1

/-- MODE and ENABLE of a port as its last commit left them: those that its drain will put in force, or those in force. -/
def State.portTarget (s : State) (p : Nat) : Nat :=
  match (s.port p).draining with
  | some cfg => cfg % 8
  | none => s.fld (F.FAB_PORT_CFG_MODE.at p) + 4 * s.fld (F.FAB_PORT_CFG_ENABLE.at p)

/-- The committed MODE and ENABLE of a port take effect (R476). A port in DARK stays dark (R464); with ENABLE 0 no retrain of it is due or
runs on (R490). -/
def State.applyPortCfg (s : State) (p cfg : Nat) : State :=
  let s0 := (s.setFld (F.FAB_PORT_CFG_MODE.at p) (cfg % 4)).setFld (F.FAB_PORT_CFG_ENABLE.at p) (cfg / 4 % 2)
  let x := s0.port p
  let s2 := if cfg / 4 % 2 = 0 then
      (s0.setPort p { x with draining := none, due := none, awaitLight := false, retrainAt := none }).setFld
        (F.FAB_PORT_CFG_RETRAIN.at p) 0
    else s0.setPort p { x with draining := none }
  let s3 := if cfg % 4 = 1 ∨ cfg / 4 % 2 = 0 then s2.dropCircuits p cfMode else s2
  let s4 := s3.setFld (F.FAB_PORT_STATUS_MODE.at p) (cfg % 4)
  let st := if cfg / 4 % 2 = 0 then poDark
    else if s.portState p = poDraining then (if (s.port p).lost.isEmpty then poUp else poDegraded)
    else s.portState p
  (s4.setFld (F.FAB_PORT_STATUS_STATE.at p) st).showFabric

/-- GLB_COMMIT_GROUP.PENDING clears once nothing of a group is pending (R827). -/
def State.showGroup (s : State) : State :=
  if (s.commits.any (·.group)) || (List.range 32).any fun q => (s.port q).draining.any fun cfg => decide (cfg / 8 = 1) then s
  else s.setFld F.GLB_COMMIT_GROUP_PENDING 0

/-- The drain of a port ends: its change takes effect, and PENDING clears with the last port (R476, R498). -/
def State.endDrain (s : State) (p : Nat) : State :=
  match (s.port p).draining with
  | none => s
  | some cfg =>
    let s1 := s.applyPortCfg p cfg
    if (List.range 32).all fun q => (s1.port q).draining.isNone then
      (if s1.commits.any fun c => decide (c.block = 0x60) then s1 else (s1.setFld F.FAB_COMMIT_PENDING 0).showGroup)
    else s1

/-- PORT_DRAIN_END: every packet already sent onto the port has gone. -/
def State.doPortDrainEnd (s : State) (p : Nat) : State :=
  if p < 32 ∧ (s.fab.outq.all fun o => decide (o.port ≠ p)) = true ∧ (s.port p).holdReq = none ∧ (s.port p).holdRep = none then
    s.endDrain p
  else s

def execPortDrainEnd (port : Nat) (s : State) : Host.Outcome State Fault Refusal := .next (s.doPortDrainEnd port)

end Sys2Proof.Machine
end

