-- ==== Sys2Proof/Machine/Commit.lean ====
section
/-! DEFINITION. What a commit does to the registers of a block, whoever wrote the values: the staged bits applied at one
instant, and the change-log entry of the block where a field changes (R26, R613, R822, R828, R838). -/

namespace Sys2Proof.Machine

/-- A change to a register: its control-window offset, the bits, and their value. -/
structure RegChange where
  addr : Nat
  mask : Word
  value : Word
deriving DecidableEq, Repr

/-- The change of one field. -/
def fieldChange (f : Fld) (n : Nat) : RegChange :=
  { addr := f.reg, mask := fieldMask f.hi f.lo, value := fieldPut 0 f.hi f.lo n }

/-- The RWC bits of a register. -/
def rwcMask (a : Nat) : Word :=
  match findReg a with
  | none => 0
  | some r => BitVec.ofNat 64 (r.maskOf fun f => decide (f.acc = .rwc))

/-- The changes made, later ones after earlier ones. -/
def State.putChanges (s : State) (cs : List RegChange) : State :=
  cs.foldl (fun (s : State) c => s.setReg c.addr ((s.reg c.addr &&& ~~~ c.mask) ||| (c.value &&& c.mask))) s

/-- The offset in the block and the RWC value of each register named (R838 class 0x02). -/
def State.rwcBytes (s : State) (b : Nat) (as : List Nat) : Bytes :=
  as.flatMap fun a => bytesOfNat 4 (a - b * 0x10000) ++ bytesOfNat 8 ((s.reg a &&& rwcMask a).toNat)

/-- The registers among `as` whose RWC value differs between two states. -/
def changedRegs (s t : State) (as : List Nat) : List Nat :=
  as.filter fun a => decide (s.reg a &&& rwcMask a ≠ t.reg a &&& rwcMask a)

/-- The COMMIT entry of block `b`, for a commit that led from `s` to `t` (R828): `as` are the registers of its set, in ascending
order. -/
def State.logCommit (t s : State) (origin b : Nat) (as : List Nat) : State :=
  match changedRegs s t as with
  | [] => t
  | c => t.logChange origin 0x02 b (logDigest (s.rwcBytes b c)) (logDigest (t.rwcBytes b c))

/-- A set of values committed to a block at once, with its entry. -/
def State.commitSet (s : State) (origin b : Nat) (cs : List RegChange) : State :=
  (s.putChanges cs).logCommit s origin b ((cs.map (·.addr)).eraseDups.mergeSort fun x y => decide (x ≤ y))

/-- The key of staged bits of a register by a writer. -/
def stageKey (a : Nat) (w : Agent) : Nat := 4 * a + agentKey w

/-- Is a staged entry one of a writer's set of a block? -/
def inSet (w : Agent) (b : Nat) (k : Nat) : Bool := decide (k % 4 = agentKey w) && decide (blockOf (k / 4) = some b)

/-- A writer's set of a block discarded (R613, R825, R826). -/
def State.dropSet (s : State) (w : Agent) (b : Nat) : State := { s with staged := s.staged.filter fun e => !inSet w b e.1 }

/-- A writer's set of a block, by register. -/
def State.stagedSet (s : State) (w : Agent) (b : Nat) : Store Stage :=
  s.staged.filterMap fun e => if inSet w b e.1 then some (e.1 / 4, e.2) else none

/-- The changes that a set makes. -/
def stageChanges (set : Store Stage) : List RegChange := set.map fun e => { addr := e.1, mask := e.2.mask, value := e.2.value }

/-- The state with a set's values in place. -/
def State.withSet (s : State) (set : Store Stage) : State := s.putChanges (stageChanges set)

/-- Does every RWC field of register `a` that `mask` touches hold an encoding that is not reserved in `v`? -/
def fieldsLegal (a : Nat) (mask v : Word) : Bool :=
  match findReg a with
  | none => true
  | some r => r.fields.all fun f =>
      decide (f.acc ≠ .rwc) || decide (mask &&& fieldMask f.hi f.lo = 0) || f.legal.holds (fieldGet v f.hi f.lo)

/-- The active Tilal controller as a writer (R613, R721). -/
def State.activeCtl (s : State) : Agent := if s.fld F.GLB_STATE_ACTIVE_CTL = 0 then .ctlA else .ctlB

/-- The older staged values of the active controller in a block that a section's own do not replace (R613). -/
def keptStages (old : Store Stage) (cs : List RegChange) : Store Stage :=
  old.filterMap fun e =>
    let m := (cs.filter fun c => decide (c.addr = e.1)).foldl (fun (m : Word) c => m &&& ~~~ c.mask) e.2.mask
    if m = 0 then none else some (e.1, { e.2 with mask := m })

/-- The staged values of a writer in a block cut down to `old`; those of others stand. -/
def restage (m : Store Stage) (w : Agent) (b : Nat) (old : Store Stage) : Store Stage :=
  m.filterMap fun e => if inSet w b e.1 then (old.find? fun o => decide (o.1 = e.1 / 4)).map fun o => (e.1, o.2) else some e

/-- Values that a section writes into a block: the host's uncommitted set of the block is discarded, the values join the active
controller's staged set, and that set is committed (R613). Older values of that set which R29 refuses stay staged, and the section's
are committed without them (log entry 71). -/
def State.sectionSet (s : State) (b : Nat) (cs : List RegChange) : State :=
  let w := s.activeCtl
  let s1 := s.dropSet .host b
  let old := keptStages (s1.stagedSet w b) cs
  let s2 := s1.dropSet w b
  let all := stageChanges old ++ cs
  if (old.all fun e => fieldsLegal e.1 e.2.mask ((s2.putChanges all).reg e.1)) then s2.commitSet (originOf w) b all
  else { (s2.commitSet (originOf w) b cs) with staged := restage s1.staged w b old }

end Sys2Proof.Machine
end

