-- ==== Sys2Proof/Machine/Governor.lean ====
section
/-! DEFINITION. The power governor: cap terms, estimates, the algorithm of R643, droop, temperatures, coolant, mulch and the
warning lines (R625 to R671). Per-part weights, tables and the governor's model are values of Config that nothing fixes (log
entry 32). -/

namespace Sys2Proof.Machine

/-! ## Cap terms (R637, R645, R669, R673) -/

/-- The rack term: its LIMITER code and its value (R669). -/
def State.rackTerm (s : State) : Nat × Nat :=
  let r := s.fld F.PWR_CAP_RACK_W
  let u := s.fld F.PWR_POLICY_UNMANAGED_CAP_W
  if s.fld F.PWR_STATUS_HEARTBEAT_LOST = 1 ∧ u < r then (3, u) else (2, r)

/-- The terms of the cooling window, by LIMITER code. -/
def State.coolTerms (s : State) : List (Nat × Nat) :=
  [(1, s.fld F.PWR_CAP_HOST_W), s.rackTerm] ++ (s.gov.limit.toList.map fun w => (4, w))

/-- The thermal budget in whole watts. Demands and estimates are whole watts, so that no comparison needs its fraction. -/
def State.budgetW (s : State) : Nat := s.gov.thermal.1 / 100 ^ s.gov.thermal.2

/-- The terms that apply to every estimate. -/
def State.eachTerms (s : State) : List (Nat × Nat) :=
  (if s.gov.warn then [(7, s.fld F.PWR_POLICY_WARN_CAP_W)] else []) ++ [(8, s.budgetW), (0, 4200)]

/-- Every term in force. -/
def State.capTerms (s : State) : List (Nat × Nat) :=
  s.coolTerms ++ [(5, s.fld F.PWR_CAP_DELIVERY_W)] ++ s.eachTerms

/-- The lowest value of a list of terms. -/
def lowest (ts : List (Nat × Nat)) : Nat := ts.foldl (fun a t => min a t.2) 65535

/-- Did a term fall from one list to the next? A term that was not in force falls when it comes into force. -/
def termFell (old new : List (Nat × Nat)) : Bool :=
  new.any fun t => match old.find? fun o => decide (o.1 = t.1 ∨ (o.1 = 2 ∧ t.1 = 3) ∨ (o.1 = 3 ∧ t.1 = 2)) with
    | none => true
    | some o => decide (t.2 < o.2)

/-- The cap terms after an event that may change one: a fall starts the measurement of cap lag (R645). -/
def State.noteTerms (s : State) : State :=
  let now := s.capTerms
  let s1 : State := { s with gov := { s.gov with terms := now } }
  if s.gov.terms ≠ [] ∧ termFell s.gov.terms now = true then
    ({ s1 with gov := { s1.gov with lag := some (s.now, lowest now) } } : State).addSat F.PWR_CAP_LAG_FALLS 1
      |>.setFld F.PWR_CAP_LAG_LAST_US 0xFFFF
  else s1

/-! ## Windows (R638 to R640) -/

/-- A sample put in front of the runs of a window. -/
def pushRun (w : Nat) : List (Nat × Nat) → List (Nat × Nat)
  | [] => [(w, 1)]
  | r :: rs => if r.1 = w then (w, r.2 + 1) :: rs else (w, 1) :: r :: rs

/-- The newest `n` samples of a window. -/
def takeRuns : Nat → List (Nat × Nat) → List (Nat × Nat)
  | _, [] => []
  | n, r :: rs => if n = 0 then [] else if n ≤ r.2 then [(r.1, n)] else r :: takeRuns (n - r.2) rs

/-- A window without its newest `n` samples. -/
def dropRuns : Nat → List (Nat × Nat) → List (Nat × Nat)
  | _, [] => []
  | n, r :: rs => if n = 0 then r :: rs else if n < r.2 then (r.1, r.2 - n) :: rs else dropRuns (n - r.2) rs

def sumRuns (rs : List (Nat × Nat)) : Nat := rs.foldl (fun a r => a + r.1 * r.2) 0
def countRuns (rs : List (Nat × Nat)) : Nat := rs.foldl (fun a r => a + r.2) 0
def meanRuns (rs : List (Nat × Nat)) : Nat := sumRuns rs / countRuns rs

/-- Samples of the cooling window, of the delivery window, and of one second. -/
def State.coolCount (s : State) : Nat := 250000 * s.fld F.PWR_CAP_WINDOW_S
def delCount : Nat := 2500
def secondCount : Nat := 250000

/-- The samples kept: those of the longest cooling window, 30 s, whatever WINDOW_S is now (R638). -/
def keptCount : Nat := 7500000

/-- A window of `n` samples whose cap falls to `w`: each of its samples is replaced, and older ones stay for a longer window (R638,
R639). -/
def fillRuns (w n : Nat) (rs : List (Nat × Nat)) : List (Nat × Nat) := takeRuns keptCount ((w, n) :: dropRuns n rs)

/-! ## Temperatures (R652) -/

def temp16 (v : Nat) : Int := (BitVec.ofNat 16 v).toInt

/-- The last reading of a sensor, in sixteenths of a degree. -/
def State.sensor (s : State) (i : Nat) : Int := temp16 (s.fld (F.TEL_TEMP_TEMP.at i))

/-- The sensor with the highest reading of a list, and the reading. -/
def State.hottest (s : State) (is : List Nat) : Nat × Int :=
  is.foldl (fun (a : Nat × Int) i => if a.2 < s.sensor i then (i, s.sensor i) else a) (is.headD 0, s.sensor (is.headD 0))

def dieSensors (d : Nat) : List Nat := (List.range 24).map (24 * d + ·)
def hubSensors : List Nat := (List.range 12).map (128 + ·)

/-- The sensors of a power domain (R51, R652). -/
def domainSensors (d : Nat) : List Nat :=
  if d < 6 then hubSensors
  else if d < 10 then dieSensors (d - 6)
  else if d < 14 then (List.range 8).map (96 + 8 * (d - 10) + ·)
  else dieSensors ((d - 14) / 4)

/-- Tj in whole degrees, not below 0. -/
def State.tj (s : State) : Nat := ((s.hottest (List.range 140)).2 / 16).toNat

/-! ## The estimate and the model (R629, R635, R643) -/

/-- Is a power domain On (R53)? In QUIET the SRAM domains are in retention. -/
def State.domainOn (s : State) (d : Nat) : Bool :=
  if d = 0 then !s.off else if d = 2 then !s.off
  else if d = 1 then s.hubOn
  else if d < 6 then s.memOn
  else s.cluOn

/-- The ports from `lo` on, sixteen of them or all, that are lit (R63, R484): UP, DEGRADED, TRAINING or DRAINING. -/
def State.litPorts (s : State) (lo n : Nat) : Nat :=
  ((List.range n).filter fun i => let x := s.fld (F.FAB_PORT_STATUS_STATE.at (lo + i))
    decide (x = 1) || decide (x = 2) || decide (x = 3) || decide (x = 5)).length

/-- VCORE as the governor last set it; 550 mV before its first update. -/
def State.vcore (s : State) : Nat := if s.fld F.PWR_PACE_VCORE_MV = 0 then 550 else s.fld F.PWR_PACE_VCORE_MV

/-- A reading as the index of a fused table: its 16 bits. -/
def tableIndex (t : Int) : Nat := (BitVec.ofInt 16 t).toNat

/-- Does a domain run at a fixed voltage (R51)? The others are paced. -/
def domainFixed (d : Nat) : Bool := decide (d = 0) || (decide (2 ≤ d) && decide (d ≤ 5))

/-- The counters of a domain, each with its weight, in microwatts (R635). -/
def activityPower (d : Nat) (counters : List Nat) : Nat :=
  counters.zipIdx.foldl (fun a c => a + c.1 * Config.powerWeight d c.2) 0

/-- The estimate of package power in watts from the activity counters of each domain; of the ports only the lit ones count (R63). -/
def State.powerEstimate (s : State) (act : List (List Nat)) : Nat :=
  let each (d : Nat) : Nat :=
    if s.domainOn d then
      activityPower d (act.getD d []) / 1000 + Config.leakage d s.vcore (tableIndex (s.hottest (domainSensors d)).2)
        + (if domainFixed d then Config.fixedPower d else 0)
        + (if d = 4 then Config.portPower * s.litPorts 0 16 else if d = 5 then Config.portPower * s.litPorts 16 16 else 0)
    else 0
  ((List.range 30).foldl (fun a d => a + each d) 0) / 1000

/-- The domains of a budget class: 0 links, 1 memory, 2 compute, 3 overhead (R629). -/
def classDomains (c : Nat) : List Nat :=
  if c = 0 then [2, 4, 5] else if c = 1 then [3] else if c = 3 then [0] else 1 :: (List.range 24).map (6 + ·)

/-- The counters of a budget class. -/
def classActivity (act : List (List Nat)) (c : Nat) : List Nat := (classDomains c).flatMap fun d => act.getD d []

/-- The model's prediction of a class, from its domains that are On and the temperature; that of links is for the ports that are lit
(R63, R647). -/
def State.predict (s : State) (c v d r : Nat) (a : List Nat) : Nat :=
  Config.predictPower c (v, d, r) a ((classDomains c).filter s.domainOn) (tableIndex (s.hottest (List.range 140)).2)
    (if c = 0 then s.litPorts 0 32 else 0)

/-- The power state whose ceilings are in force: between FULL and TRIM the one commanded from the update at which the command takes
effect (R55, R634). -/
def State.pacedState (s : State) : Nat :=
  match s.gov.moving with
  | some c => if c.1 ≤ psTrim ∧ s.powState ≤ psTrim then c.1 else s.powState
  | none => s.powState

/-- Do the ceilings of COOL_FAULT_N apply (R644, R658)? -/
def State.minPace (s : State) : Bool := s.gov.fault || s.gov.sudden.isSome

/-- The ceilings of VCORE and DUTY (R644). -/
def State.vCeiling (s : State) : Nat :=
  let base := if s.pacedState = psQuiet then 550
    else if s.pacedState = psTrim then min 850 (10 * s.fld F.PWR_POLICY_TRIM_CEILING) else 850
  if s.minPace then 550 else base
def State.dutyCeiling (s : State) : Nat := if s.minPace then 15 else 100

/-- The demand of a class at its ceiling and full rate; in MULCH the compute demand is H (R643, R664). -/
def State.demand (s : State) (act : List (List Nat)) (c : Nat) : Nat :=
  if c = 2 then
    (if s.powState = psMulch then s.gov.heat else s.predict 2 s.vCeiling s.dutyCeiling 100 (classActivity act 2))
  else s.predict c s.vCeiling s.dutyCeiling 100 (classActivity act c)

/-- The floor of a class; overhead is never throttled, and its floor is its demand (R629). -/
def State.classFloor (s : State) (act : List (List Nat)) (c : Nat) : Nat :=
  if c = 3 then s.demand act 3 else min (s.demand act c) (if c = 2 then s.predict 2 550 15 100 (classActivity act 2)
    else s.predict c s.vCeiling s.dutyCeiling 25 (classActivity act c))

/-- The order of budget, first class first (R641, R642). -/
def State.budgetOrder (s : State) : List Nat :=
  let p := s.fld F.PWR_POLICY_PRIORITY
  let o := [p % 4, p / 4 % 4, p / 16]
  if s.fld F.GLB_STATE_COLL_ACTIVE = 1 then 0 :: o.filter fun c => decide (c ≠ 0) else o

/-- The grants after the cuts, class by class in reverse order, and what is still needed. -/
def State.cuts (s : State) (act : List (List Nat)) (t : Int) : List Nat → Int → List (Nat × Int) → List (Nat × Int) × Int
  | [], need, gs => (gs, need)
  | c :: cs, need, gs =>
    let d : Int := s.demand act c
    let cut := max 0 (min (need - t) (d - (s.classFloor act c : Int)))
    s.cuts act t cs (need - cut) (gs ++ [(c, d - cut)])

/-- The highest setting of a descending list whose prediction fits a grant, or the floor. -/
def fits (opts : List Nat) (floor : Nat) (predict : Nat → Nat) (grant : Int) : Nat :=
  (opts.find? fun o => decide ((predict o : Int) ≤ grant)).getD floor

/-- The settings from `hi` down to `lo` by `step`. -/
def downFrom (hi lo step : Nat) : List Nat := (List.range ((hi - lo) / step + 1)).map fun i => hi - step * i

/-- The samples above a cap, among the newest 2,500. -/
def aboveCount (cap : Nat) (rs : List (Nat × Nat)) : Nat :=
  (takeRuns delCount rs).foldl (fun a r => if cap < r.1 then a + r.2 else a) 0

/-- The target `t` of R643 and the LIMITER code of the term that sets it, the lowest where several do; 4,200 W alone has none (R673). -/
def State.target (s : State) : Int × Nat :=
  let g := s.gov
  let del := s.fld F.PWR_CAP_DELIVERY_W
  let cool := lowest s.coolTerms
  let coolCode := ((s.coolTerms.filter fun x => decide (x.2 = cool)).map (·.1)).foldl min 15
  let a : List (Int × Nat) :=
    [((cool * s.coolCount : Nat) - (sumRuns (takeRuns (s.coolCount - 1) g.cool) : Int), coolCode),
     ((del * delCount : Nat) - (sumRuns (takeRuns (delCount - 1) g.del) : Int), 5)] ++
    (if 500 ≤ aboveCount del g.del then [((del : Int), 6)] else []) ++
    s.eachTerms.map fun x => ((x.2 : Int), x.1)
  a.foldl (fun (b : Int × Nat) x => if x.1 < b.1 ∨ (x.1 = b.1 ∧ x.2 ≠ 0 ∧ (b.2 = 0 ∨ x.2 < b.2)) then x else b) (4200, 0)

/-- The thermal budget at an update (R653), against the hottest reading in sixteenths of a degree. -/
def State.thermalBudget (s : State) : Nat × Nat :=
  let lim : Int := 16 * s.fld F.PWR_POLICY_THERM_LIMIT_C
  let hot := (s.hottest (List.range 140)).2
  let b := s.gov.thermal
  if lim ≤ hot then (if s.gov.last * 100 ^ b.2 < b.1 then (s.gov.last * 98, 1) else (b.1 * 98, b.2 + 1))
  else if hot ≤ lim - 32 then (if 4200 * 100 ^ (b.2 + 1) ≤ b.1 * 101 then (4200, 0) else (b.1 * 101, b.2 + 1))
  else b

/-- CAP_UNMET after an update (R648). -/
def State.noteUnmet (s : State) (unmet : Bool) : State :=
  let s1 : State := { s with gov := { s.gov with
    unmet := if unmet then s.gov.unmet + 1 else 0, met := if unmet then 0 else s.gov.met + 1 } }
  if 100 ≤ s1.gov.unmet ∧ s1.fld F.PWR_STATUS_CAP_UNMET = 0 then
    (s1.setFld F.PWR_STATUS_CAP_UNMET 1).raiseEvent 0x04 0 (s1.fld F.PWR_STATUS_EFFECTIVE_CAP_W)
  else if 100 ≤ s1.gov.met then s1.setFld F.PWR_STATUS_CAP_UNMET 0
  else s1

/-- A fall of a cap term met by an estimate (R645). -/
def State.noteLag (s : State) : State :=
  match s.gov.lag with
  | none => s
  | some (at_, cap) =>
    if s.gov.last ≤ cap then
      let us := min ((s.now - at_ + 999) / 1000) 0xFFFE
      let s1 := ({ s with gov := { s.gov with lag := none } } : State).setFld F.PWR_CAP_LAG_LAST_US us
      if s1.fld F.PWR_CAP_LAG_MAX_US < us then s1.setFld F.PWR_CAP_LAG_MAX_US us else s1
    else s

/-- The bounds of R4 on the handshake rate at VCORE (mV) and junction temperature (°C), carried from the corners by R6. -/
def rateLow (v t : Nat) : Nat :=
  if 850 ≤ v ∧ t ≤ 40 then 2450 else if 750 ≤ v ∧ t ≤ 65 then 2050 else if 550 ≤ v ∧ t ≤ 105 then 1200 else 0
def rateHigh (v t : Nat) : Nat :=
  if v ≤ 550 ∧ 105 ≤ t then 1400 else if v ≤ 750 ∧ 65 ≤ t then 2350 else if v ≤ 850 ∧ 40 ≤ t then 2750 else 4095

/-- The handshake rate in MHz at VCORE and junction temperature: the part's own within the bounds of R4, and the highest of those at
no higher voltage and no lower temperature, so that it rises with voltage and falls with temperature (R6). -/
def rateAt (v t : Nat) : Nat :=
  (downFrom v 550 10).foldl (fun a x => (List.range (126 - t)).foldl (fun a i =>
    max a (min (rateHigh x (t + i)) (max (rateLow x (t + i)) (Config.handshakeRate x (t + i))))) a) 0

/-- The rate of the slowest compute die's reference pipeline at VCORE, with its lengthening by droop (R649, R671). -/
def State.openRate (s : State) (v : Nat) (a : List Nat) : Nat :=
  rateAt v (min 125 ((s.hottest (List.range 96)).2 / 16).toNat) * 100 /
    (100 + min 100 (Config.droopMean (s.fld F.PWR_PACE_DROOP_STEP) a))

/-- The open issue of the 4 µs that a sample ends, at the pace then in force: DUTY hundredths of it, of which the last millisecond
counts (R631, R671). -/
def State.noteRate (s : State) (a : List Nat) : State :=
  let d := s.fld F.PWR_PACE_DUTY_PCT
  if s.cluOn && decide (d ≠ 0) then { s with gov := { s.gov with rates := takeRuns 25000 ((s.openRate s.vcore a, d) :: s.gov.rates) } }
  else s

/-- The mean rate of the last millisecond of open issue; before any has been, the rate at the new VCORE (log entry 32). -/
def State.meanRate (s : State) (v : Nat) (a : List Nat) : Nat :=
  if s.gov.rates.isEmpty then s.openRate v a else meanRuns s.gov.rates

/-- The pace settings of an update (R643, R644, R648): the rates, VCORE and DUTY for the grants. -/
def State.setPace (s : State) (act : List (List Nat)) (gs : List (Nat × Int)) : State :=
  let unmet := decide (s.fld F.PWR_STATUS_CAP_UNMET = 1)
  let grant (c : Nat) : Int := ((gs.find? fun g => decide (g.1 = c)).map (·.2)).getD 0
  let rate (c : Nat) : Nat := if unmet then 25 else
    fits (downFrom 100 25 1) 25 (fun r => s.predict c s.vCeiling s.dutyCeiling r (classActivity act c)) (grant c)
  let a2 := classActivity act 2
  let v := s.vcore
  let duty := if s.fld F.PWR_PACE_DUTY_PCT = 0 then 100 else s.fld F.PWR_PACE_DUTY_PCT
  let vGoal := fits (downFrom s.vCeiling 550 10) 550 (fun x => s.predict 2 x 100 100 a2) (grant 2)
  let dutyAt (x : Nat) : Nat := fits (downFrom s.dutyCeiling 15 1) 15 (fun d => s.predict 2 x d 100 a2) (grant 2)
  let vd : Nat × Nat :=
    if unmet then (max 550 (v - 40), 15)
    else if vGoal < v then (max vGoal (v - 40), dutyAt (max vGoal (v - 40)))
    else if duty < 100 then (v, min s.dutyCeiling (dutyAt v))
    else (min vGoal (v + 10), min s.dutyCeiling duty)
  let s1 := (s.setFld F.PWR_PACE_LINK_RATE_PCT (rate 0)).setFld F.PWR_PACE_MEM_RATE_PCT (rate 1)
  let s2 : State := { s1 with gov := { s1.gov with grant := (grant 2).toNat, short := decide (s.powState = psMulch) && decide (grant 2 < (s.gov.heat : Int)) } }
  if s.powState = psDark then s2
  else
    let s3 := (s2.setFld F.PWR_PACE_VCORE_MV vd.1).setFld F.PWR_PACE_DUTY_PCT vd.2
    s3.setFld F.PWR_PACE_RATE_MHZ (s.meanRate vd.1 a2)

/-- The live fields that an update sets (R673, R677, R679). -/
def State.showGov (s : State) (act : List (List Nat)) : State :=
  let hot := s.hottest (List.range 140)
  let io := s.gov.temps.headD (0, 0)
  ((((((((((s.setFld F.PWR_STATUS_EFFECTIVE_CAP_W (lowest s.capTerms)).setFld F.PWR_ESTIMATE_INPUT_W s.gov.last).setFld
    F.PWR_ESTIMATE_DELIVERY_MEAN_W (meanRuns s.gov.del)).setFld
    F.PWR_ESTIMATE_COOL_MEAN_W (meanRuns (takeRuns s.coolCount s.gov.cool))).setFld
    F.PWR_ESTIMATE_FLOOR_W ((List.range 4).foldl (fun a c => a + s.classFloor act c) 0)).setFld
    F.PWR_THERM_TJ_C s.tj).setFld F.PWR_THERM_SENSOR hot.1).setFld F.PWR_THERM_INLET io.1).setFld
    F.PWR_THERM_OUTLET io.2).setFld F.PWR_THERM_DP s.gov.dp).setFld F.PWR_THERM_FLOW_ML_MIN s.gov.flow

/-- LIMITED_MS (R681). -/
def State.noteLimited (s : State) : State :=
  if s.powState ≤ psTrim ∧ (s.fld F.PWR_PACE_VCORE_MV < s.vCeiling ∨ s.fld F.PWR_PACE_DUTY_PCT < 100) then
    let n := s.gov.limitedNs + 4000
    ({ s with gov := { s.gov with limitedNs := n % 1000000 } } : State).addSat F.PWR_PACE_ACC_LIMITED_MS (n / 1000000)
  else s

/-- A command between FULL and TRIM takes effect at the next update, without waiting for steps (R55). -/
def State.takeDue (s : State) : State :=
  match s.gov.due with
  | some c =>
    if s.inService = true ∧ c.1 ≤ psTrim ∧ s.powState ≤ psTrim ∧ s.gov.moving.isNone = true then
      { s with gov := { s.gov with due := none, moving := some c, rows := [c.1] } }
    else s
  | none => s

/-- One run of the algorithm of R643. -/
def State.govern (s : State) (sample : Bool) (act : List (List Nat)) : State :=
  let s1 := s.takeDue.noteTerms
  let g := s1.gov
  let p := if sample then s1.powerEstimate act else g.last
  let cool := lowest s1.coolTerms
  let del := s1.fld F.PWR_CAP_DELIVERY_W
  let push (rs : List (Nat × Nat)) (n : Nat) : List (Nat × Nat) := if sample then takeRuns n (pushRun p rs) else rs
  let s2 : State := { s1 with gov := { g with
    last := p, activity := act, coolCap := cool, delCap := del
    second := push g.second secondCount
    cool := if cool < g.coolCap then fillRuns cool s1.coolCount g.cool else push g.cool keptCount
    del := if del < g.delCap then [(del, delCount)] else push g.del delCount } }
  let s3 : State := { s2 with gov := { s2.gov with thermal := s2.thermalBudget } }
  let s4 := s3.noteTerms
  let t := s4.target
  let need : Int := (List.range 4).foldl (fun a c => a + (s4.demand act c : Int)) 0
  let r := s4.cuts act t.1 s4.budgetOrder.reverse need []
  let limiter := if s4.minPace then 9 else if t.1 < need then t.2 else 0
  let s5 := ((s4.showGov act).setFld F.PWR_STATUS_LIMITER limiter).noteUnmet (decide (t.1 < r.2))
  let s6 := (if sample then s5.noteRate (classActivity act 2) else s5).setPace act r.1
  let s7 := if s6.gov.short then s6 else s6.setFld F.PWR_STATUS_MULCH_LOW 0
  if sample then s7.noteLimited.noteLag else s7

/-- GOVERNOR_UPDATE: the update of every 4 µs, with the activity counters by domain. -/
def State.doGovernorUpdate (s : State) (act : List (List Nat)) : State := if s.off then s else s.govern true act

def execGovernorUpdate (activity : List (List Nat)) (s : State) : Host.Outcome State Fault Refusal := .next (s.doGovernorUpdate activity)

/-- GOVERNOR_EXTRA_UPDATE: settings recomputed with the last sample. -/
def State.doGovernorExtraUpdate (s : State) : State := if s.off then s else s.govern false s.gov.activity

def execGovernorExtraUpdate (s : State) : Host.Outcome State Fault Refusal := .next s.doGovernorExtraUpdate

/-! ## Droop (R649 to R651) -/

def State.droopAt (s : State) (k : Nat) : Nat := mget (fun _ => 0) s.gov.droop k

/-- A droop step entered or removed, with DROOP_STEP. -/
def State.setDroop (s : State) (k n : Nat) : State :=
  let s1 : State := { s with gov := { s.gov with droop := mset (fun _ => 0) s.gov.droop k n } }
  s1.setFld F.PWR_PACE_DROOP_STEP ((List.range 16).foldl (fun a i => max a (s1.droopAt i)) 0)

/-- DROOP_STEP: the supply of a quadrant crosses the next step. -/
def State.doDroopStep (s : State) (die q : Nat) : State :=
  let n := s.droopAt (4 * die + q) + 1
  if die < 4 ∧ q < 4 ∧ n ≤ 4 ∧ s.cluOn = true then
    let s1 := s.setDroop (4 * die + q) n
    if n = 1 then s1.addSat (F.PWR_DROOP_EVENTS.at die) 1
    else if n = 4 then s1.addSat (F.PWR_DROOP_STEP4.at die) 1 else s1
  else s

def execDroopStep (die quadrant : Nat) (s : State) : Host.Outcome State Fault Refusal := .next (s.doDroopStep die quadrant)

/-- DROOP_RECOVER: one step removed. -/
def State.doDroopRecover (s : State) (die q : Nat) : State :=
  if die < 4 ∧ q < 4 ∧ 0 < s.droopAt (4 * die + q) then s.setDroop (4 * die + q) (s.droopAt (4 * die + q) - 1) else s

def execDroopRecover (die quadrant : Nat) (s : State) : Host.Outcome State Fault Refusal := .next (s.doDroopRecover die quadrant)

/-! ## Coolant (R654 to R658) -/

/-- The whole square root. -/
def isqrt (n : Nat) : Nat :=
  (List.range 64).foldl (fun r i => if (r + 2 ^ (63 - i)) * (r + 2 ^ (63 - i)) ≤ n then r + 2 ^ (63 - i) else r) 0

/-- The estimate of flow in mL/min (R655), and the coolant limit that it gives at an inlet temperature (R656), both in whole units of
exact figures: from the means of the last second, or from the pressure drop; a difference of temperature that is not positive leaves the
flow a free value (log entry 2). -/
def State.flowEstimate (s : State) (inlet : Nat) : State × Nat × Nat :=
  let g := s.gov
  let n := countRuns g.second
  if 500 * n < sumRuns g.second then
    let m := g.temps.length
    let ti := g.temps.foldl (fun a x => a + x.1) 0
    let tOut := g.temps.foldl (fun a x => a + x.2) 0
    let num := sumRuns g.second * 20000 * m
    let den := n * 663 * (tOut - ti)
    if ti < tOut then (s, num / den, 663 * num * (120 - inlet) / (20000 * den))
    else (s.drawn, s.free.toNat % 4096, 663 * (s.free.toNat % 4096) * (120 - inlet) / 20000)
  else
    let flow (k : Nat) : Nat := isqrt (k * 2400 * (k * 2400) * g.dp / Config.dpNominal)
    (s, flow 1, flow (663 * (120 - inlet)) / 20000)

/-- COOL_DERATED with its event (R657). -/
def State.showDerated (s : State) : State :=
  match s.gov.limit with
  | none => s
  | some w =>
    if w < 3200 then
      (if s.fld F.PWR_STATUS_COOL_DERATED = 1 then s else (s.setFld F.PWR_STATUS_COOL_DERATED 1).raiseEvent 0x23 0 w)
    else s.setFld F.PWR_STATUS_COOL_DERATED 0

/-- A measurement of the pressure drop, and since when it has stood above half of DP_NOM (R658). -/
def State.noteDrop (s : State) (dp : Nat) : State :=
  let high := if 2 * dp ≤ Config.dpNominal then none else some (s.gov.dpHigh.getD s.now)
  { s with gov := { s.gov with dp := dp, dpAt := some s.now, dpHigh := high } }

/-- COOLANT_MEASURE: inlet and outlet in units of 0.5 °C and the pressure drop in units of 0.1 kPa, every 10 ms; flow and the
coolant limit with every tenth. -/
def State.doCoolantMeasure (s : State) (inlet outlet dp : Nat) : State :=
  if s.off then s
  else
    let n := s.gov.measures + 1
    let s1 : State := { s.noteDrop dp with gov := { (s.noteDrop dp).gov with
      temps := ((inlet, outlet) :: s.gov.temps).take 100, measures := n % 10 } }
    let s2 := s1.setFld F.PWR_STATUS_COOL_RANGE (bit (decide (inlet < 40) || decide (80 < inlet) || decide (1500 < dp)))
    if n % 10 = 0 then
      let f := s2.flowEstimate inlet
      ({ f.1 with gov := { f.1.gov with flow := f.2.1, limit := some f.2.2 } } : State).showDerated.noteTerms
    else s2

def execCoolantMeasure (inlet outlet dp : Nat) (s : State) : Host.Outcome State Fault Refusal :=
  .next (s.doCoolantMeasure inlet outlet dp)

/-- COOL_FAULT while either cause stands. -/
def State.showCoolFault (s : State) : State := s.setFld F.PWR_STATUS_COOL_FAULT (bit s.minPace)

/-- Has a measurement of the last 100 µs found the pressure drop at 15 % of DP_NOM or more (R658)? -/
def State.dropStands (s : State) : Bool :=
  (s.gov.dpAt.any fun t => decide (s.now < t + 100000)) && decide (15 * Config.dpNominal ≤ 100 * s.gov.dp)

/-- SUDDEN_COOLANT_LOSS: the pressure drop has stayed below 15 % of DP_NOM for 100 µs, which no measurement of that time contradicts. -/
def State.doSuddenCoolantLoss (s : State) : State :=
  if s.off || s.gov.sudden.isSome || s.dropStands then s
  else (({ s with gov := { s.gov with sudden := some s.now } } : State).showCoolFault).raiseEvent 0x22 0 2

def execSuddenCoolantLoss (s : State) : Host.Outcome State Fault Refusal := .next s.doSuddenCoolantLoss

/-- COOLANT_LOSS_CLEAR: the pressure drop has stood above 50 % of DP_NOM for 1 s, by every measurement of that time (R658). -/
def State.doCoolantLossClear (s : State) : State :=
  if s.gov.sudden.isSome && (s.gov.dpHigh.any fun t => decide (t + 1000000000 ≤ s.now)) then
    ({ s with gov := { s.gov with sudden := none } } : State).showCoolFault
  else s

def execCoolantLossClear (s : State) : Host.Outcome State Fault Refusal := .next s.doCoolantLossClear

/-! ## The warning lines (R666) -/

/-- COOL_FAULT_N_LOW; in OFF the line alone changes. -/
def State.doCoolFaultNLow (s : State) : State :=
  if s.gov.fault then s
  else if s.off then { s with gov := { s.gov with fault := true } }
  else (({ s with gov := { s.gov with fault := true } } : State).showCoolFault).raiseEvent 0x22 0 1

def execCoolFaultNLow (s : State) : Host.Outcome State Fault Refusal := .next s.doCoolFaultNLow

/-- COOL_FAULT_N_RELEASE. -/
def State.doCoolFaultNRelease (s : State) : State :=
  if s.gov.fault && s.off then { s with gov := { s.gov with fault := false } }
  else if s.gov.fault then ({ s with gov := { s.gov with fault := false } } : State).showCoolFault else s

def execCoolFaultNRelease (s : State) : Host.Outcome State Fault Refusal := .next s.doCoolFaultNRelease

/-- PWR_WARN_N_LOW; in OFF the line alone changes. -/
def State.doPwrWarnNLow (s : State) : State :=
  if s.gov.warn then s
  else if s.off then { s with gov := { s.gov with warn := true } }
  else ((({ s with gov := { s.gov with warn := true } } : State).setFld F.PWR_STATUS_WARN_ACTIVE 1).raiseEvent 0x21 0
    (s.fld F.PWR_POLICY_WARN_CAP_W)).noteTerms

def execPwrWarnNLow (s : State) : Host.Outcome State Fault Refusal := .next s.doPwrWarnNLow

/-- PWR_WARN_N_RELEASE. -/
def State.doPwrWarnNRelease (s : State) : State :=
  if s.gov.warn && s.off then { s with gov := { s.gov with warn := false } }
  else if s.gov.warn then
    (({ s with gov := { s.gov with warn := false } } : State).setFld F.PWR_STATUS_WARN_ACTIVE 0).noteTerms
  else s

def execPwrWarnNRelease (s : State) : Host.Outcome State Fault Refusal := .next s.doPwrWarnNRelease

/-! ## The rack manager (R669, R834) -/

/-- HEARTBEAT_LOST changed, with its entry (R838 class 0x12). -/
def State.setHeartbeatLost (s : State) (origin n : Nat) : State :=
  if s.fld F.PWR_STATUS_HEARTBEAT_LOST = n then s
  else ((s.setFld F.PWR_STATUS_HEARTBEAT_LOST n).logChange origin 0x12 1
    (logValue (s.fld F.PWR_STATUS_HEARTBEAT_LOST)) (logValue n)).noteTerms

/-- RACK_HEARTBEAT_LOST: no heartbeat for HEARTBEAT_S seconds. -/
def State.doRackHeartbeatLost (s : State) : State :=
  if s.off = false ∧ s.gov.rackRuns = true ∧ s.fld F.PWR_STATUS_HEARTBEAT_LOST = 0 ∧
      s.gov.beatAt + 1000000000 * s.fld F.PWR_POLICY_HEARTBEAT_S ≤ s.now then
    (s.setHeartbeatLost orHw 1).raiseEvent 0x20 0 0
  else s

def execRackHeartbeatLost (s : State) : Host.Outcome State Fault Refusal := .next s.doRackHeartbeatLost

/-- A heartbeat of the rack manager. -/
def State.rackBeat (s : State) : State :=
  ({ s with gov := { s.gov with beatAt := s.now } } : State).setHeartbeatLost orRack 0

/-! ## Mulch (R663 to R665) -/

/-- Four times the mean of the dies' hottest readings, in sixteenths of a degree. -/
def State.dieMean4 (s : State) : Int := (List.range 4).foldl (fun a d => a + (s.hottest (dieSensors d)).2) 0

/-- MULCH_CONTROL: H moved toward the band. -/
def State.doMulchControl (s : State) : State :=
  if s.off = false ∧ s.powState = psMulch then
    let c := s.fld F.PWR_POLICY_MULCH_CENTRE_C
    let b := s.fld F.PWR_POLICY_MULCH_BAND_C
    let m := s.dieMean4
    if m < 64 * ((c : Int) - (b : Int)) then
      { s with gov := { s.gov with heat := s.gov.heat + 25, cold := some (s.gov.cold.getD s.now) } }
    else
      ({ s with gov := { s.gov with heat := if 64 * (c + b) < m then s.gov.heat - 25 else s.gov.heat, cold := none } } : State).setFld
        F.PWR_STATUS_MULCH_LOW 0
  else s

def execMulchControl (s : State) : Host.Outcome State Fault Refusal := .next s.doMulchControl

/-- MULCH_LOW: 10 s below the band with the compute grant below H at the last update; it lasts until a grant reaches H, the mean reaches
the band or MULCH ends (R665). -/
def State.doMulchLow (s : State) : State :=
  match s.gov.cold with
  | none => s
  | some t =>
    if s.powState = psMulch ∧ t + 10000000000 ≤ s.now ∧ s.gov.short = true then s.setFld F.PWR_STATUS_MULCH_LOW 1 else s

def execMulchLow (s : State) : Host.Outcome State Fault Refusal := .next s.doMulchLow

end Sys2Proof.Machine
end

