-- ==== Sys2Proof/Machine/Tensor.lean ====
section
/-! DEFINITION. The tensor engine: WLOAD, MMA and its merge form, MMA_ADAPT, DRAIN, ACC_CLEAR and ACC_SCALE, each with its
checks against the accumulator rows at issue and its effect when it starts (R137 to R147, R207 to R221). -/

namespace Sys2Proof.Machine

/-- Keys of a lane's entry, and defaults of the accumulator stores. -/
def laneKey (row lane : Nat) : Nat := row * 128 + lane
def entryDefault (_ : Nat) : LongEntry := {}
def fpDefault (_ : Nat) : BitVec 32 := 0
def rowDefault (_ : Nat) : RowMode := {}

/-- The rows of a tensor descriptor, as a list. -/
def rowsOf' (first n : Nat) : List Nat := (List.range n).map fun i => first + i

/-! ## Checks at issue (R80, R82, R95, R145, R890) -/

/-- Are the rows all cleared (R145)? -/
def rowsCleared (rows : Store RowMode) (rs : List Nat) : Bool := rs.all fun r => decide ((mget rowDefault rows r).mode ≠ 0)

/-- Are the rows all in a mode: 1 LONG, 2 FP32 (R80, R212)? -/
def rowsIn (rows : Store RowMode) (rs : List Nat) (m : Nat) : Bool := rs.all fun r => decide ((mget rowDefault rows r).mode = m)

/-- The first row and the count of rows of a tensor descriptor. -/
def tensorRows (ws : List Word) : List Nat :=
  let op := hOpcode ws
  if op = 0x14 ∨ op = 0x15 then rowsOf' (fieldOf ws 2 5 0) (fieldOf ws 2 14 8)
  else if op = 0x10 then []
  else rowsOf' (tBase ws) (tRows ws)

/-- The signed shift of ACC_SCALE. -/
def scaleShift (ws : List Word) : Int := sbitsOf (wordAt ws 2) 42 32

/-- The checks of a tensor descriptor against the sequencer's view of the rows and the tile (R202). -/
def tensorStateChecks (ws : List Word) (rows : Store RowMode) (tile : Option Nat) : List Check :=
  let op := hOpcode ws
  let rs := tensorRows ws
  if op = 0x11 ∧ isMerge ws then [(rowsIn rows rs 1, rcAccMode)]
  else if op = 0x11 then
    [(decide (tile = some (hFmtB ws)), rcFormat),
     (rowsIn rows rs (match pairMode (fmtOr (hFmtA ws)) (fmtOr (hFmtB ws)) with
       | some .fp32 => 2
       | _ => 1), rcAccMode)]
  else if op = 0x12 then [(decide (tile = some (hFmtB ws)), rcFormat), (rowsCleared rows rs, rcAccMode)]
  else if op = 0x13 then
    [(rowsCleared rows rs, rcAccMode), (decide (hFmtOut ws ≠ 10) || rowsIn rows rs 1, rcFormat)]
  else if op = 0x15 then
    [(rowsCleared rows rs, rcAccMode),
     (rs.all fun r =>
        let m := mget rowDefault rows r
        decide (m.mode ≠ 1) || (decide (-512 ≤ m.anchor + scaleShift ws) && decide (m.anchor + scaleShift ws ≤ 511)), rcAnchor)]
  else []

/-- The mode that ACC_CLEAR sets (R82, R219, R220). -/
def clearedMode (ws : List Word) : RowMode :=
  if fieldOf ws 2 16 16 = 1 then { mode := 2 }
  else if fieldOf ws 2 17 17 = 1 then
    { mode := 1, anchor := (autoAnchor (fmtOr (hFmtA ws)) (fmtOr (hFmtB ws))).getD 0 }
  else { mode := 1, anchor := anchorOf (fieldOf ws 2 41 32) }

/-- What a tensor descriptor does to the modes and anchors of the rows (R82, R95). -/
def rowsAfter (ws : List Word) (rows : Store RowMode) : Store RowMode :=
  let op := hOpcode ws
  if op = 0x14 then (tensorRows ws).foldl (fun m r => mset rowDefault m r (clearedMode ws)) rows
  else if op = 0x15 then
    (tensorRows ws).foldl (fun m r =>
      let v := mget rowDefault m r
      if v.mode = 1 then mset rowDefault m r { v with anchor := v.anchor + scaleShift ws } else m) rows
  else rows

/-- The format of the tile last loaded, after a descriptor is issued (R890). -/
def tileAfter (ws : List Word) (tile : Option Nat) : Option Nat := if hOpcode ws = 0x10 then some (hFmtB ws) else tile

/-! ## WLOAD -/

/-- WLOAD fills the shadow plane (R138, R208). -/
def State.effWload (s : State) (p : Nat) (d : Desc) : State :=
  let f := fmtOr (hFmtB d.words)
  let k := wloadK d.words f
  match s.readLoc p d.a (128 * packedBytes f k) with
  | (s1, none) => s1
  | (s1, some el) =>
    let r : State × Option Bytes := if f.blocked then s1.readRuns p d.b 16 (k / 16) 128 else (s1, some [])
    match r with
    | (s2, none) => s2
    | (s2, some sc) => s2.setClu p { s2.clu p with shadow := some { fmt := hFmtB d.words, k := k, elems := el, scales := sc } }

/-- The columns of a tile: K values each, zero beyond the elements it holds (R137, R208). -/
def Tile.columns (t : Tile) : List (List FVal) :=
  let f := fmtOr t.fmt
  let cb := packedBytes f t.k
  let sb := t.k / 16
  (List.range 128).map fun n =>
    valuesOf f t.k ((t.elems.drop (n * cb)).take cb) ((t.scales.drop (n * sb)).take sb)
      ++ List.replicate (tileK f - t.k) (.fin false 0 0)

/-- The planes swapped by the first MMA or MMA_ADAPT after a WLOAD (R139). -/
def Cluster.swap (c : Cluster) : Cluster :=
  match c.shadow with
  | some t => { c with active := some t, shadow := none }
  | none => c

/-! ## Rows -/

/-- The entries and FP32 values of an accumulator row. -/
def Cluster.longRow (c : Cluster) (r : Nat) : List LongEntry := mread entryDefault c.entries (laneKey r 0) 128
def Cluster.fpRow (c : Cluster) (r : Nat) : List (BitVec 32) := mread fpDefault c.fp (laneKey r 0) 128
def Cluster.rowMode (c : Cluster) (r : Nat) : RowMode := mget rowDefault c.rows r

def Cluster.putLong (c : Cluster) (r : Nat) (es : List LongEntry) : Cluster :=
  { c with entries := mwrite entryDefault c.entries (laneKey r 0) es }
def Cluster.putFp (c : Cluster) (r : Nat) (vs : List (BitVec 32)) : Cluster :=
  { c with fp := mwrite fpDefault c.fp (laneKey r 0) vs }

/-- An FP32 value as bits. -/
def fpBits (v : FVal) : BitVec 32 := BitVec.ofNat 32 (convert .fp32 .rne false 0 v).1

/-- One row of products added to an accumulator row (R85 to R88, R99 to R101, R210). -/
def Cluster.accumulate (c : Cluster) (r : Nat) (act : List FVal) (cols : List (List FVal)) : Cluster :=
  let m := c.rowMode r
  if m.mode = 2 then
    c.putFp r (((c.fpRow r).zip cols).map fun e =>
      fpBits (fp32Accumulate (Fmt.fp32.decode e.1.toNat) ((act.zip e.2).map fun q => q.1.mul q.2)))
  else
    c.putLong r (((c.longRow r).zip cols).map fun e =>
      (act.zip e.2).foldl (fun a q => a.addTerm m.anchor (q.1.mul q.2)) e.1)

/-! ## MMA -/

/-- The values of `rows` activation rows (R210): their bytes at a pitch, and their scale bytes. -/
def State.readActs (s : State) (p : Nat) (d : Desc) (f : Fmt) (k rows : Nat) : State × Option (List (List FVal)) :=
  let rb := packedBytes f k
  match s.readRuns p d.a (tPitch d.words) rb rows with
  | (s1, none) => (s1, none)
  | (s1, some bs) =>
    let r : State × Option Bytes :=
      if f.blocked then s1.readRuns p d.b (fieldOf d.words 5 23 0) (k / 16) rows else (s1, some [])
    match r with
    | (s2, none) => (s2, none)
    | (s2, some sc) =>
      (s2, some ((List.range rows).map fun i =>
        valuesOf f k ((bs.drop (i * rb)).take rb) ((sc.drop (i * (k / 16))).take (k / 16))))

/-- MMA: M activation rows through the active tile into rows b to b + M − 1 (R139, R140, R210). -/
def State.effMma (s : State) (p : Nat) (d : Desc) : State :=
  let ws := d.words
  let f := fmtOr (hFmtA ws)
  match s.readActs p d f (tileK f) (tRows ws) with
  | (s1, none) => s1
  | (s1, some acts) =>
    let c := (s1.clu p).swap
    match (if rowsIn c.rows (tensorRows ws) 2 then s1.adderCheck p else none) with
    | some s2 => s2
    | none =>
      match c.active with
      | none => s1
      | some t =>
        let cols := t.columns
        s1.setClu p (acts.zipIdx.foldl (fun c a => c.accumulate (tBase ws + a.2) a.1 cols) c)

/-- The images of one row of 4,096 bytes (R97). -/
def imagesOf (bs : Bytes) : List Nat := (runsOf 32 bs.length bs).map natOfBytes

/-- The merge form: ACC_RAW images into LONG rows, after their residues and then their anchors (R96, R98, R211, R212). -/
def State.effMerge (s : State) (p : Nat) (d : Desc) : State :=
  let ws := d.words
  match s.readRuns p d.a (tPitch ws) 4096 (tRows ws) with
  | (s1, none) => s1
  | (s1, some bs) =>
    let c := s1.clu p
    let imgs := (runsOf 4096 (tRows ws) bs).map fun r => (imagesOf r).map entryOfImage
    let ok := (imgs.all fun r => r.all fun e => e.2.residueOk) &&
      (tensorRows ws).all fun r => (c.longRow r).all LongEntry.residueOk
    let anchors := imgs.zipIdx.all fun r => r.1.all fun e => decide (e.1 = (c.rowMode (tBase ws + r.2)).anchor)
    if !ok then s1.residueFault p
    else if !anchors then s1.refuse p d.pc (hOpcode ws) rcAnchor
    else s1.setClu p (imgs.zipIdx.foldl (fun c r =>
      c.putLong (tBase ws + r.2) (((c.longRow (tBase ws + r.2)).zip r.1).map fun e => e.1.merge e.2.2)) c)

/-! ## MMA_ADAPT -/

/-- The adapter entry of the context bound to cluster `p` (R215): zero where none is bound. -/
def State.adapterOf (s : State) (p k : Nat) : Nat :=
  match (s.stepAt p).bind fun t => t.bound (s.clu p).logical with
  | none => 0
  | some c => s.ctx c (cfAdapter k)

/-- Is an adapter entry in use (R308)? -/
def adapterUsed (e : Nat) : Bool := e.testBit 31

/-- The scaled adapter product of one lane (R213). -/
def adaptTerm (alpha : FVal) (ps : List FVal) : FVal := toFp32 .rne 0 ((chunkSum ps).mul alpha)

/-- The adapter products of one row added to an accumulator row (R214). -/
def Cluster.adaptRow (c : Cluster) (r : Nat) (alpha : FVal) (act : List FVal) (cols : List (List FVal)) : Cluster :=
  let m := c.rowMode r
  let ts := cols.map fun col => adaptTerm alpha ((act.zip col).map fun q => q.1.mul q.2)
  if m.mode = 2 then
    c.putFp r (((c.fpRow r).zip ts).map fun e => fpBits (fadd .rne (Fmt.fp32.decode e.1.toNat) e.2))
  else c.putLong r (((c.longRow r).zip ts).map fun e => e.1.addTerm m.anchor e.2)

/-- MMA_ADAPT (R213 to R215): the planes swap whether or not the adapter entry is empty. -/
def State.effMmaAdapt (s : State) (p : Nat) (d : Desc) : State :=
  let ws := d.words
  let f := fmtOr (hFmtA ws)
  let sw : State := s.setClu p (s.clu p).swap
  if !adapterUsed (s.adapterOf p (fieldOf ws 5 33 32)) then sw
  else
    let k := fieldOf ws 5 47 40
    match sw.readActs p d f k (tRows ws) with
    | (s1, none) => s1
    | (s1, some acts) =>
      match s1.adderCheck p with
      | some s2 => s2
      | none =>
        let c := s1.clu p
        match c.active with
        | none => s1
        | some t =>
          let cols := t.columns
          let alpha := Fmt.fp32.decode (fieldOf ws 5 31 0)
          s1.setClu p (acts.zipIdx.foldl (fun c a => c.adaptRow (tBase ws + a.2) alpha a.1 cols) c)

/-! ## DRAIN, ACC_CLEAR, ACC_SCALE -/

/-- The flags of the LONG entries that a drain converts (R131). -/
def entryFlags (es : List LongEntry) : NumFlags :=
  { bits := (if es.any (·.exactLost) then nfExactLost else 0) ||| (if es.any (·.overrange) then nfOverrange else 0) }

/-- One row drained: its element bytes, scale bytes and flags (R94, R111 to R122, R146). -/
def Cluster.drainRow (c : Cluster) (r : Nat) (f : Fmt) (rm : RMode) (sat : Bool) (rs : List Nat) : Bytes × Bytes × NumFlags :=
  let m := c.rowMode r
  if f = .accRaw then
    ((c.longRow r).flatMap fun e => bytesOfNat 32 (e.image m.anchor), [], {})
  else
    let vs := if m.mode = 2 then (c.fpRow r).map fun b => Fmt.fp32.decode b.toNat
      else (c.longRow r).map fun e => e.toVal m.anchor
    let fl : NumFlags := if m.mode = 2 then {} else entryFlags (c.longRow r)
    let o := convertAll f rm sat vs rs
    (packElems f o.1, o.2.1, fl.join o.2.2)

/-- The logical index of lane 0 of row `r` (R217). -/
def drainIndex (d : Desc) (r : Nat) : Int :=
  (fieldOf d.words 5 60 24 : Int) + sbitsOf (wordAt d.words 6) 63 32 * (d.idx : Int) + (fieldOf d.words 5 23 0 * r : Nat)

/-- DRAIN (R126, R146, R216): every residue is checked before any result leaves the entries. -/
def State.effDrain (s : State) (p : Nat) (d : Desc) : State :=
  let ws := d.words
  let c := s.clu p
  let f := fmtOr (hFmtOut ws)
  let rs := tensorRows ws
  let ok := rs.all fun r => decide ((c.rowMode r).mode = 2) || (c.longRow r).all LongEntry.residueOk
  if !ok then s.residueFault p
  else
    let out := rs.map fun r => (r, c.drainRow r f (modeOf ws) (hSat ws) (s.randoms p ws (drainIndex d r) 128))
    let s1 : State := match d.a with
      | .mem sl o => s.writeRuns p sl (out.map fun q => (o + q.1 * tPitch ws, q.2.1))
      | _ => s
    let s2 := if f.blocked then s1.mergeLoc p d.b (8 * tBase ws) (out.flatMap (·.2.2.1)) else s1
    s2.noteFlags p (out.foldl (fun a q => a.join q.2.2.2) {})

/-- ACC_CLEAR (R82, R144, R219, R220). -/
def State.effAccClear (s : State) (p : Nat) (d : Desc) : State :=
  let c := s.clu p
  let first := fieldOf d.words 2 5 0
  let n := fieldOf d.words 2 14 8
  s.setClu p { c with rows := rowsAfter d.words c.rows
                      entries := mclear c.entries (laneKey first 0) (128 * n)
                      fp := mclear c.fp (laneKey first 0) (128 * n) }

/-- ACC_SCALE (R95, R221). -/
def State.effAccScale (s : State) (p : Nat) (d : Desc) : State :=
  let c := s.clu p
  let k := scaleShift d.words
  let c1 := (tensorRows d.words).foldl (fun (c : Cluster) r =>
    if (c.rowMode r).mode = 2 then
      c.putFp r ((c.fpRow r).map fun b => fpBits ((Fmt.fp32.decode b.toNat).scale k))
    else c) c
  s.setClu p { c1 with rows := rowsAfter d.words c.rows }

end Sys2Proof.Machine
end

