-- ==== Sys2Proof/Machine/Collective.lean ====
section
/-! DEFINITION. The collective engine: COLL_ENTER's part, readiness and the digest, admission, the exchange of data, the
rank-order reduction, completion, and the COLL packets (R499 to R541). -/

namespace Sys2Proof.Machine

/-! ## The collective as its COLL_ENTER describes it (R250 to R252, R506) -/

def clGroup (ws : List Word) : Nat := fieldOf ws 4 63 52
def clOp (ws : List Word) : Nat := fieldOf ws 4 51 48
def clRed (ws : List Word) : Nat := fieldOf ws 4 47 46
def clArg (ws : List Word) : Int := sbitsOf (wordAt ws 4) 39 32
def clTotal (ws : List Word) : Nat := fieldOf ws 4 31 0
def clOffset (ws : List Word) : Nat := fieldOf ws 5 63 32
def clCount (ws : List Word) : Nat := fieldOf ws 5 31 0
def clFmt (ws : List Word) : Fmt := fmtOr (hFmtA ws)

def opAllReduce : Nat := 0
def opReduceScatter : Nat := 1
def opAllGather : Nat := 2
def opBroadcast : Nat := 3
def opPass : Nat := 4

/-- Is the operation a reduction? -/
def clReduces (ws : List Word) : Bool := decide (clOp ws ≤ opReduceScatter)

/-- Bytes of `n` elements of a collective, and whether they are whole granules. -/
def clBytes (ws : List Word) (n : Nat) : Nat := packedBytes (clFmt ws) n
def clGranules (ws : List Word) (n : Nat) : Bool := decide (n * (clFmt ws).width % 512 = 0)

/-- Elements of the result that a part of `n` elements receives, and of the whole result (R506, R507). -/
def clResult (ws : List Word) (members n : Nat) : Nat :=
  if clOp ws = opReduceScatter then n / members else if clOp ws = opAllGather then members * n else n

/-- The formats a reduction allows (R509). -/
def clReduceFormat (ws : List Word) : Bool :=
  let f := hFmtA ws
  decide (f ≤ 2) || decide (f = 9) || (decide (f = 10) && decide (clRed ws = 0))

/-- The words of two COLL_ENTERs name one collective. -/
def clSame (a b : List Word) : Bool :=
  decide (wordAt a 4 = wordAt b 4) && decide (hFmtA a = hFmtA b) && decide (hRMode a = hRMode b) && decide (hSat a = hSat b)

/-- Members of group `g`. -/
def State.groupSize (s : State) (g : Nat) : Nat := s.fld (F.COL_GROUP_N_LESS_ONE.at g) + 1
def State.groupRank (s : State) (g : Nat) : Nat := s.fld (F.COL_GROUP_MY_RANK.at g)

/-- The checks of R500, R505, R506 and R508 that need the group; `n` is its size. -/
def State.collChecks (s : State) (t : Step) (ws : List Word) : List Check :=
  let g := clGroup ws
  let n := s.groupSize g
  let stretch := s.ctx t.lead { word := 7, hi := 15, lo := 0 }
  let bad : Bool := clReduces ws && decide (clOp ws = opReduceScatter) &&
    (decide (clTotal ws % n ≠ 0) || decide (clOffset ws % n ≠ 0) || decide (clCount ws % n ≠ 0))
  [(decide (s.fld (F.COL_GROUP_VALID.at g) = 1) && decide (s.fld (F.COL_GROUP_TENANT.at g) = s.ctx t.lead cfTenant), rcCollective),
   (decide (stretch = 0) || decide (s.groupRank g = s.ctx t.lead cfRank), rcCollective),
   (decide (clOp ws ≠ opBroadcast) || (decide (0 ≤ clArg ws) && decide (clArg ws < (n : Int))), rcCollective),
   (decide (clOp ws ≠ opPass) || decide (clArg ws % (n : Int) ≠ 0), rcCollective),
   (!clReduces ws || clReduceFormat ws, rcFormat),
   (decide (clCount ws ≠ 0) && !bad, rcCount),
   (clGranules ws (clCount ws) && clGranules ws (clResult ws n (clCount ws)), rcCount),
   (decide (clBytes ws (clTotal ws) ≤ 2 ^ 32) && decide (clBytes ws (clResult ws n (clTotal ws)) ≤ 2 ^ 32), rcCount),
   (decide (clOffset ws + clCount ws ≤ clTotal ws), rcCollective)]

/-- Do two runs of elements overlap? -/
def runsMeet (a n b m : Nat) : Bool := decide (a < b + m) && decide (b < a + n)

/-- The collective of group `g` that is not complete. -/
def State.liveColl (s : State) (g : Nat) : Option Coll := s.col.colls.find? fun c => decide (c.group = g) && !c.done

/-! ## What a cause does to the step (R526) -/

/-- The outcome of a cause at a member. -/
def State.collOutcome (s : State) (lead cause : Nat) : State :=
  if cause = caMismatch then (s.abortColls lead).failStep lead { status := stMismatch }
  else if cause = caOrder then (s.abortColls lead).failStep lead { status := stOrder }
  else if cause = caAnchor then (s.abortColls lead).failStep lead { status := stProgramFault, cause := rcAnchor }
  else s.replayStep lead 6 []

/-- A collective ended with a cause, with or without an ABORT to the others, and its step with it. -/
def State.failColl (s : State) (c : Coll) (cause : Nat) (send : Bool) : State :=
  (s.endColl c cause (send && c.readyAt.isNone)).collOutcome c.lead cause

/-! ## COLL_ENTER (R250, R251) -/

/-- A part handed to the collective engine by cluster `p`: it joins the collective of its group, or starts one, which ends at
once where an ABORT of it is kept (R527). -/
def State.addPart (s : State) (t : Step) (ws : List Word) (q : CollPart) : State :=
  let g := clGroup ws
  match s.liveColl g with
  | some c => s.putColl { c with parts := c.parts ++ [q] }
  | none =>
    let n := s.fld (F.COL_GROUP_STATE_CSEQ.at g)
    let c : Coll := { group := g, cseq := n, lead := t.lead, words := ws, n := s.groupSize g, me := s.groupRank g, parts := [q] }
    let kept := s.col.aborts.find? fun a => decide (a.1 = g) && decide (a.2.1 = n)
    let s1 : State := { s with col := { s.col with
      colls := s.col.colls ++ [c]
      aborts := s.col.aborts.filter fun a => !(decide (a.1 = g) && decide (a.2.1 = n))
      past := s.col.past.filter fun a => !(decide (a = (g, n))) } }
    match kept with
    | some a => s1.failColl c a.2.2 false
    | none => s1

/-- Where the result of a COLL_ENTER lands (R196, R250). -/
def State.collPlace (s : State) (p : Nat) (ws : List Word) : Except Nat Loc :=
  resolve { loops := (s.clu p).loops, rings := [] } (wordAt ws 3)
    { len := clBytes ws (clResult ws (s.groupSize (clGroup ws)) (clCount ws)), write := true }

/-- COLL_ENTER at the head of its cluster's sequencer with every earlier descriptor complete: refused, held where the group
serves another step or 64 collectives wait, or entered. -/
def State.collEnter (s : State) (p : Nat) (ws : List Word) (src dst : Loc) (sig : Option Sel) : State :=
  match s.stepAt p with
  | none => s
  | some t =>
    let g := clGroup ws
    let q : CollPart := { p := p, l := (s.clu p).logical, pc := s.pcOf p, off := clOffset ws, count := clCount ws, src := src
                          dst := dst, sig := sig }
    let enter : State := ((s.setClu p { s.clu p with inColl := some g }).advance p).addPart t ws q
    match s.liveColl g with
    | some c =>
      if c.lead ≠ t.lead then s
      else if !clSame c.words ws || c.parts.any (fun x => runsMeet x.off x.count q.off q.count) then
        s.refuse p (s.pcOf p) 0x60 rcCollective
      else enter
    | none => if 64 ≤ (s.col.colls.filter fun c => c.admitted.isNone).length then s else enter

/-! ## Readiness and the digest (R513, R514) -/

/-- Do the parts cover the contribution? -/
def Coll.covered (c : Coll) : Bool := decide ((c.parts.foldl (fun a x => a + x.count) 0) = clTotal c.words)

/-- The digest of R514. -/
def State.collDigest (s : State) (c : Coll) : Word :=
  let ws := c.words
  let head := bytesOfNat 2 c.group ++ bytesOfNat 1 (clOp ws) ++ bytesOfNat 1 (clRed ws) ++ bytesOfNat 1 (hFmtA ws)
    ++ bytesOfNat 1 (hRMode ws) ++ bytesOfNat 1 (bit (hSat ws)) ++ bytesOfNat 1 (fieldOf ws 4 39 32)
    ++ bytesOfNat 4 (clTotal ws) ++ bytesOfNat 1 c.n
  let chips := (List.range 64).map fun j => BitVec.ofNat 8 (if j < c.n then s.memberChip c.group j else 0)
  BitVec.ofNat 64 (natOfBytes (shake256 (head ++ List.replicate 19 0 ++ chips) 8))

/-- The step mark (R521): from the step clock in FULL and TRIM, else its last value. -/
def State.colMark (s : State) : Nat :=
  if s.powState = psFull ∨ s.powState = psTrim then s.stepClock.toNat / 2 ^ (s.fld F.COL_CFG_MARK_SHIFT) % 2 ^ 32
  else s.fld F.COL_MARK_MARK

def State.stepOrdered (s : State) (g : Nat) : Bool := decide (s.fld (F.COL_GROUP_ORDERING.at g) = 1)

/-- The ENTER of a collective toward one member. -/
def State.sendEnter (s : State) (c : Coll) (rank : Nat) : State :=
  s.sendColl c.group c.cseq rank ckEnter c.digest (BitVec.ofNat 64 c.mark) []

/-- COLLECTIVE_READY: the parts cover the contribution; the digest is taken and ENTER goes to every other member. ENTERs held
already are compared at once. -/
def State.doCollectiveReady (s : State) (g : Nat) : State :=
  match s.liveColl g with
  | none => s
  | some c =>
    if c.ready.isSome || !c.covered then s
    else if s.fabState = fsHeld then s.loseColl c
    else
      let mine (e : Nat × Nat × Nat × Word × Nat) : Bool := decide (e.1 = g) && decide (e.2.1 = c.cseq)
      let early := (s.col.early.filter mine).map fun e => (e.2.2.1, e.2.2.2.1, e.2.2.2.2)
      let c1 := { c with ready := some (s.now, s.col.nextReady), digest := s.collDigest c
                         mark := if s.stepOrdered g then s.colMark else 0, enters := early }
      let s1 : State := ({ s with col := { s.col with
        nextReady := s.col.nextReady + 1, early := s.col.early.filter fun e => !mine e } } : State).putColl c1
      let s2 := (otherRanks c1.n c1.me).foldl (fun s r => s.sendEnter c1 r) s1
      let s3 := (s2.showCollGroup g).showCol
      if early.any fun e => decide (e.2.1 ≠ c1.digest) then s3.failColl c1 caMismatch true else s3

def execCollectiveReady (group : Nat) (s : State) : Host.Outcome State Fault Refusal := .next (s.doCollectiveReady group)

/-! ## Admission (R516, R520 to R522) -/

/-- Are the ENTERs of every member held? -/
def Coll.known (c : Coll) : Bool := (otherRanks c.n c.me).all fun r => c.enters.any fun e => decide (e.1 = r)

/-- The mark of a collective: the largest entry mark held. -/
def Coll.topMark (c : Coll) : Nat := c.enters.foldl (fun a e => max a e.2.2) c.mark

/-- Is key `a` below key `b` (R522)? -/
def keyBelow (a b : Nat × Nat) : Bool := decide (a.1 < b.1) || (decide (a.1 = b.1) && decide (a.2 < b.2))

/-- May a waiting step-ordered collective be admitted (R522)? -/
def State.stepAdmissible (s : State) (c : Coll) : Bool :=
  c.known && decide (c.topMark < s.colMark) &&
    (s.col.colls.all fun d =>
      !d.waiting || !s.stepOrdered d.group || (decide (d.group = c.group) && decide (d.cseq = c.cseq)) ||
        (if d.known then !keyBelow (d.topMark, d.group) (c.topMark, c.group) else decide (c.topMark < d.mark)))

/-- The place of a collective in the order of readiness. -/
def Coll.readyNo (c : Coll) : Nat := (c.ready.map (·.2)).getD 0

/-- May a waiting posted-ordered collective be admitted (R520, R522)? -/
def State.postAdmissible (s : State) (c : Coll) : Bool :=
  c.known && (s.col.colls.all fun d =>
    !d.waiting || decide (c.readyNo ≤ d.readyNo) || (s.stepOrdered d.group && !s.stepAdmissible d))

def State.admissible (s : State) (c : Coll) : Bool :=
  c.waiting && !(s.col.colls.any Coll.active) &&
    (if s.stepOrdered c.group then s.stepAdmissible c else s.postAdmissible c)

/-! ## The exchange (R517, R518) -/

/-- Shard `j`: its first element and its elements (R518). -/
def Coll.shard (c : Coll) (j : Nat) : Nat × Nat :=
  let n := clTotal c.words
  (j * n / c.n, (j + 1) * n / c.n - j * n / c.n)

/-- A run of bytes cut into pieces of at most 2 KiB toward a rank. -/
def piecesTo (rank : Nat) (result : Bool) (first : Nat) (data : Bytes) : List CollPiece :=
  (runsOf 2048 data.length data).zipIdx.map fun b => { rank := rank, result := result, first := first + 2048 * b.2, data := b.1 }

/-- The bytes of `n` elements from element `a` of a run of elements. -/
def Coll.cut (c : Coll) (data : Bytes) (a n : Nat) : Bytes := (data.drop (clBytes c.words a)).take (clBytes c.words n)

/-- The rank a PASS sends to, and the one it receives from (R506, R518). -/
def Coll.passTo (c : Coll) : Nat := (((c.me : Int) + clArg c.words) % (c.n : Int)).toNat
def Coll.passFrom (c : Coll) : Nat := (((c.me : Int) - clArg c.words) % (c.n : Int)).toNat
def Coll.root (c : Coll) : Nat := (clArg c.words).toNat

/-- The ranks to which a member sends contribution data. -/
def Coll.sendsTo (c : Coll) : List Nat :=
  let o := clOp c.words
  if o = opBroadcast then (if c.me = c.root then otherRanks c.n c.me else [])
  else if o = opPass then [c.passTo]
  else otherRanks c.n c.me

/-- Has a rank elements of its own in the reduced result? -/
def Coll.hasShard (c : Coll) (j : Nat) : Bool := decide (0 < (c.shard j).2)

/-- The ranks to which a member sends any DATA (R518, R534): of a reduction the owners of a shard that is not empty, and every member
where its own reduced shard goes to all. -/
def Coll.dataTo (c : Coll) : List Nat :=
  if clReduces c.words ∧ ¬(clOp c.words = opAllReduce ∧ c.hasShard c.me = true) then c.sendsTo.filter c.hasShard else c.sendsTo

/-- The contribution data that a member sends. -/
def Coll.firstPieces (c : Coll) : List CollPiece :=
  c.sendsTo.flatMap fun j =>
    if clReduces c.words then
      let sh := c.shard j
      piecesTo j false (clBytes c.words sh.1) (c.cut c.contrib sh.1 sh.2)
    else piecesTo j false 0 c.contrib

/-- Pieces toward ranks whose START is held are sent while fewer than 16 of them lack their COLL_ACK (R517). -/
def State.pump (s : State) (g cseq : Nat) : State :=
  match s.collAt g cseq with
  | none => s
  | some c =>
    let r := c.sendq.foldl (fun (a : List CollPiece × List CollPiece × List Nat) x =>
      if c.starts.contains x.rank && decide ((a.2.2.filter fun k => decide (k = x.rank)).length < 16) then
        (a.1 ++ [x], a.2.1, a.2.2 ++ [x.rank])
      else (a.1, a.2.1 ++ [x], a.2.2)) ([], [], c.flying)
    let s1 := s.putColl { c with sendq := r.2.1, flying := r.2.2 }
    r.1.foldl (fun s x => s.sendColl g cseq x.rank ckData
      (BitVec.ofNat 64 (bit x.result * 2 ^ 63 + x.first)) 0 x.data) s1

/-- The bytes from `first` on for `n` that pieces of a rank cover; none while one is missing. -/
def coverBytes (ps : List CollPiece) (first n : Nat) : Option Bytes :=
  (List.range n).mapM fun i =>
    (ps.find? fun x => decide (x.first ≤ first + i) && decide (first + i < x.first + x.data.length)).bind fun x =>
      x.data[first + i - x.first]?

/-- What a rank has sent of one kind. -/
def Coll.fromRank (c : Coll) (rank : Nat) (result : Bool) : List CollPiece :=
  c.got.filter fun x => decide (x.rank = rank) && decide (x.result = result)

/-! ## The reduction (R509, R510, R512) -/

/-- The fixed tree of R510 over the values of ranks 0 to n − 1. -/
def treeLevel {α : Type} (op : α → α → α) : List α → List α
  | a :: b :: l => op a b :: treeLevel op l
  | l => l

def treeReduce {α : Type} (op : α → α → α) : Nat → List α → List α
  | 0, l => l
  | k + 1, l => if l.length ≤ 1 then l else treeReduce op k (treeLevel op l)

/-- The operation of REDOP on values of a format. -/
def redOp (ws : List Word) : FVal → FVal → FVal :=
  if clRed ws = 1 then FVal.vmax
  else if clRed ws = 2 then FVal.vmin
  else if (clFmt ws).isInt then FVal.add (modeOf ws)
  else fadd (modeOf ws)

/-- One element reduced and converted once, with its flags. -/
def reduceValue (ws : List Word) (vs : List FVal) : Nat × NumFlags :=
  convert (clFmt ws) (modeOf ws) (hSat ws) 0 ((treeReduce (redOp ws) vs.length vs).headD .nan)

/-- Element `i` of each member's list. -/
def columnAt {α : Type} (ls : List (List α)) (i : Nat) : List α := ls.filterMap fun l => l[i]?

/-- What a reduction finds: a residue mismatch and the element it lies in, anchors that differ, or the result with the flags of
each element. -/
inductive Reduced where
  | residue (i : Nat)
  | anchors
  | ok (data : Bytes) (flags : List NumFlags)
deriving DecidableEq, Repr

/-- `n` elements of every rank, in rank order, reduced (R509). -/
def reduceShard (ws : List Word) (n : Nat) (ranks : List Bytes) : Reduced :=
  if hFmtA ws = 10 then
    let imgs := ranks.map fun b => (imagesOf b).map entryOfImage
    let bad := (List.range n).find? fun i => !((columnAt imgs i).all fun e => e.2.residueOk)
    if bad.isSome then .residue (bad.getD 0)
    else if !((List.range n).all fun i => ((columnAt imgs i).map (·.1)).eraseDups.length ≤ 1) then .anchors
    else
      let out := (List.range n).map fun i =>
        let col := columnAt imgs i
        let e := (treeReduce LongEntry.merge col.length (col.map (·.2))).headD {}
        bytesOfNat 32 (e.image ((col.map (·.1)).headD 0))
      .ok out.flatten (List.replicate n {})
  else
    let vals := ranks.map fun b => valuesOf (clFmt ws) n b []
    let out := (List.range n).map fun i => reduceValue ws (columnAt vals i)
    .ok (packElems (clFmt ws) (out.map (·.1))) (out.map (·.2))

/-- The first element of a reduced result that a part receives, and how many it receives. -/
def Coll.received (c : Coll) (x : CollPart) : Nat × Nat :=
  if clOp c.words = opReduceScatter then (x.off / c.n, x.count / c.n) else (x.off, x.count)

/-- The numeric flags of elements `first` on entered in the clusters whose parts receive them (R512). -/
def State.noteCollFlags (s : State) (c : Coll) (first : Nat) (flags : List NumFlags) : State :=
  c.parts.foldl (fun (s : State) x =>
    let r := c.received x
    let fs := (flags.zipIdx.filter fun f => decide (r.1 ≤ first + f.2) && decide (first + f.2 < r.1 + r.2)).map (·.1)
    s.noteFlags x.p (fs.foldl NumFlags.join {})) s

/-- A mismatch at result element `i`, recorded at once in the cluster that receives the element (R128, R129, R512; log entry 65). -/
def State.noteCollResidue (s : State) (c : Coll) (i : Nat) : State :=
  (c.parts.filter fun x => decide ((c.received x).1 ≤ i) && decide (i < (c.received x).1 + (c.received x).2)).foldl
    (fun (s : State) x => s.numstatResidue x.p) s

/-- One strike on the hub, counted over 60 s (R690, R706). -/
def State.hubStrike (s : State) : State :=
  { s with ras := { s.ras with hubStrikes := (s.ras.hubStrikes ++ [s.stepNow]).filter fun t => decide (s.stepNow < t + 60 * nsSec) } }

/-- A residue mismatch at element `i` in the reducer of this chip: counted, the event, a hub strike, and the replay of the step with
the flag kept for its record (R128, R512, R690). -/
def State.reducerFault (s : State) (c : Coll) (i : Nat) : State :=
  let s1 := ((s.noteCollResidue c i).raiseEvent 0x06 0xFFFF c.lead).hubStrike
  let s2 := match s1.stepOf c.lead with
    | some t => s1.putStep { t with residueSeen := true }
    | none => s1
  s2.replayStep c.lead 1 []

/-- The contribution of each rank to a run of elements; none while one is missing. -/
def Coll.gathered (c : Coll) (a n : Nat) : Option (List Bytes) :=
  (List.range c.n).mapM fun j =>
    if j = c.me then some (c.cut c.contrib a n) else coverBytes (c.fromRank j false) (clBytes c.words a) (clBytes c.words n)

/-- The own shard reduced once every contribution to it is held; its result goes to every other member of an ALL_REDUCE. Each result
is written through a residue check, and an upset of the reducers found there faults (R127; what upsets a reducer is left open, log
entry 54). -/
def State.reduceOwn (s : State) (g cseq : Nat) : State :=
  match s.collAt g cseq with
  | none => s
  | some c =>
    if c.reduced || !clReduces c.words then s
    else
      let sh := c.shard c.me
      match c.gathered sh.1 sh.2 with
      | none => s
      | some ranks =>
        let base := if clOp c.words = opReduceScatter then 0 else sh.1
        if s.col.upset then ({ s with col := { s.col with upset := false } } : State).reducerFault c base
        else
        match reduceShard c.words sh.2 ranks with
        | .residue i => s.reducerFault c (base + i)
        | .anchors => s.failColl c caAnchor true
        | .ok data fl =>
          let first := clBytes c.words sh.1
          let own : CollPiece := { rank := c.me, result := true, first := first, data := data }
          let more := if clOp c.words = opAllReduce then
            (otherRanks c.n c.me).flatMap fun j => piecesTo j true first data else []
          let c1 := { c with reduced := true, got := c.got ++ [own], sendq := c.sendq ++ more }
          ((s.putColl c1).noteCollFlags c base fl).pump g cseq

/-- The whole contribution of a rank. -/
def Coll.whole (c : Coll) (j : Nat) : Option Bytes :=
  if j = c.me then some c.contrib else coverBytes (c.fromRank j false) 0 (clBytes c.words (clTotal c.words))

/-- The whole result once it is held (R506). -/
def Coll.resultNow (c : Coll) : Option Bytes :=
  let o := clOp c.words
  if o = opAllReduce then
    ((List.range c.n).mapM fun j =>
      let sh := c.shard j
      coverBytes (c.fromRank j true) (clBytes c.words sh.1) (clBytes c.words sh.2)).map List.flatten
  else if o = opReduceScatter then
    let sh := c.shard c.me
    coverBytes (c.fromRank c.me true) (clBytes c.words sh.1) (clBytes c.words sh.2)
  else if o = opAllGather then ((List.range c.n).mapM fun j => c.whole j).map List.flatten
  else if o = opBroadcast then c.whole c.root
  else c.whole c.passFrom

/-- What a part receives of the result (R507). -/
def Coll.partResult (c : Coll) (x : CollPart) (result : Bytes) : Bytes :=
  let o := clOp c.words
  if o = opReduceScatter then c.cut result (x.off / c.n) (x.count / c.n)
  else if o = opAllGather then
    ((List.range c.n).map fun j => c.cut result (j * clTotal c.words + x.off) x.count).flatten
  else c.cut result x.off x.count

/-- The flags of an element that another rank reduced, from its code and a free bit: NaN and infinity show in the code; whether ±max was
saturated no packet says (R512; log entry 35). -/
def farFlags (f : Fmt) (code : Nat) (sat : Bool) : NumFlags :=
  match f.decode code with
  | .nan => { bits := nfNanOut }
  | .inf _ => { bits := nfInfOut }
  | .fin neg _ _ => if code = f.maxBits neg ∧ sat = true then { bits := nfSaturated, sat := 1 } else {}

/-- The flags of the elements of an ALL_REDUCE that other ranks reduced, entered in the clusters that receive them (R512): each element
draws its own free bit. -/
def State.noteFarFlags (s : State) (c : Coll) (result : Bytes) : State :=
  if clOp c.words ≠ opAllReduce ∨ hFmtA c.words = 10 then s
  else
    let es := elemsOf (clFmt c.words) (clTotal c.words) result
    let own := c.shard c.me
    let fs := es.zipIdx.map fun e =>
      if own.1 ≤ e.2 ∧ e.2 < own.1 + own.2 then ({} : NumFlags)
      else farFlags (clFmt c.words) e.1 ((Config.freeValue (s.freeCtr + e.2)).getLsbD 0)
    ({ s with freeCtr := s.freeCtr + es.length } : State).noteCollFlags c 0 fs

/-- The result written at the DSTs once it is whole. -/
def State.writeResult (s : State) (g cseq : Nat) : State :=
  match s.collAt g cseq with
  | none => s
  | some c =>
    if c.result.isSome then s
    else match c.resultNow with
      | none => s
      | some r => c.parts.foldl (fun s x => s.barrowLoc x.p x.dst (c.partResult x r))
          ((s.putColl { c with result := some r }).noteFarFlags c r)

/-- The exchange carried as far as what is held allows. -/
def State.progress (s : State) (g cseq : Nat) : State := ((s.pump g cseq).reduceOwn g cseq).writeResult g cseq

/-- The contribution read from the clusters, checked (R277): none where a granule is uncorrectable. -/
def State.readContrib (s : State) (parts : List CollPart) (ws : List Word) : State × Option Bytes :=
  ((List.range parts.length).foldl (fun (a : State × Option Bytes) k =>
    match a.2, (parts.mergeSort fun x y => decide (x.off ≤ y.off))[k]? with
    | some acc, some x =>
      let rs := match x.src with
        | .mem false o => [(x.p, granulesOf [(o, clBytes ws x.count)])]
        | _ => []
      let r := a.1.shadowed true rs [] fun s => s.readLoc x.p x.src (clBytes ws x.count)
      (r.1, r.2.map fun b => acc ++ b)
    | _, _ => (a.1, none)) (s, some []))

/-- COLLECTIVE_ADMIT: COLL_ACTIVE is set, START goes to every other member and the contribution is taken. -/
def State.doCollectiveAdmit (s : State) (g : Nat) : State :=
  match s.liveColl g with
  | none => s
  | some c =>
    if !s.admissible c then s
    else match s.readContrib c.parts c.words with
      | (s1, none) => s1
      | (s1, some b) =>
        let c1 := { c with admitted := some s.now, contrib := b }
        let c2 := { c1 with sendq := c1.firstPieces }
        let s2 := ((s1.putColl c2).showCollGroup g).showCol
        (s2.sendOthers c2 ckStart 0 0).progress g c.cseq

/-- COLLECTIVE_COMPLETE: the result is written and no DATA lacks its COLL_ACK; CSEQ advances and the clusters resume (R519). -/
def State.doCollectiveComplete (s : State) (g : Nat) : State :=
  match s.liveColl g with
  | none => s
  | some c =>
    if c.active && c.result.isSome && c.sendq.isEmpty && c.flying.isEmpty then
      let s1 := (s.putColl { c with done := true }).setFld (F.COL_GROUP_STATE_CSEQ.at g) (c.cseq + 1)
      let s2 := (s1.showCollGroup g).showCol
      c.parts.foldl (fun s x => (s.setClu x.p { s.clu x.p with inColl := none }).signal x.p x.sig) s2
    else s

def execCollectiveComplete (group : Nat) (s : State) : Host.Outcome State Fault Refusal := .next (s.doCollectiveComplete group)

/-- ORDER_TIMEOUT: an admitted posted-ordered collective is not complete TIMEOUT_MS after its admission (R524). -/
def State.doOrderTimeout (s : State) : State :=
  match s.col.colls.find? Coll.active with
  | none => s
  | some c =>
    match c.admitted with
    | none => s
    | some t =>
      if !s.stepOrdered c.group && decide (t + 1000000 * s.fld F.COL_CFG_TIMEOUT_MS ≤ s.now) then s.failColl c caOrder true else s

def execOrderTimeout (s : State) : Host.Outcome State Fault Refusal := .next s.doOrderTimeout

/-! ## READY (R529, R530) -/

def State.collsOf (s : State) (lead : Nat) : List Coll := s.col.colls.filter fun c => decide (c.lead = lead)

/-- READY sent to every other member of each collective of a step. -/
def State.sendReadies (s : State) (lead : Nat) : State :=
  (s.collsOf lead).foldl (fun s c =>
    (s.putColl { c with readyAt := some s.now }).sendOthers c ckReady 0 0) s

/-- Is READY held from every other member of every collective of a step? -/
def State.readiesHeld (s : State) (lead : Nat) : Bool :=
  (s.collsOf lead).all fun c => c.done && (otherRanks c.n c.me).all fun r => c.readies.contains r

/-- READY_RESEND: 1 ms after the last, READY goes again to each member whose READY is lacking. -/
def State.doReadyResend (s : State) (lead : Nat) : State :=
  (s.collsOf lead).foldl (fun s c =>
    match c.readyAt with
    | none => s
    | some t =>
      if t + 1000000 ≤ s.now then
        ((otherRanks c.n c.me).filter fun r => !c.readies.contains r).foldl
          (fun s r => s.sendColl c.group c.cseq r ckReady 0 0 []) (s.putColl { c with readyAt := some s.now })
      else s) s

def execReadyResend (lead : Nat) (s : State) : Host.Outcome State Fault Refusal := .next (s.doReadyResend lead)

/-- The collectives of a step that commits are over; a later READY is answered (R530, R533). -/
def State.commitColls (s : State) (lead : Nat) : State :=
  (s.collsOf lead).foldl (fun (s : State) c =>
    ({ s with col := { s.col with past := s.col.past ++ [(c.group, c.cseq)] } } : State).dropColl c) s

/-! ## COLL packets (R531 to R533) -/

def pkGroup (k : Packet) : Nat := bitsOf k.w1 47 36
def pkCseq (k : Packet) : Nat := bitsOf k.w1 35 20
def pkRank (k : Packet) : Nat := bitsOf k.w1 19 14
def pkKind (k : Packet) : Nat := bitsOf k.w1 13 11

/-- The statuses of COLL_ACK. -/
def clTaken : Nat := 0
def clBusy : Nat := 1
def clRefused : Nat := 2

/-- Does a COLL packet fail R533? -/
def State.collRefused (s : State) (k : Packet) : Bool :=
  let g := pkGroup k
  decide (s.fld (F.COL_GROUP_VALID.at g) = 0) || decide (pktTenant k ≠ s.fld (F.COL_GROUP_TENANT.at g)) ||
    decide (s.groupSize g ≤ pkRank k) || decide (pktSrc k ≠ s.memberChip g (pkRank k))

/-- Has the collective that a packet names ended on this chip: is its CSEQ behind the group's? -/
def State.collPast (s : State) (g cseq : Nat) : Bool :=
  let d := (s.fld (F.COL_GROUP_STATE_CSEQ.at g) + 65536 - cseq) % 65536
  decide (d ≠ 0) && decide (d < 32768)

/-- A COLL packet of one kind taken: counted as malformed where its LEN does not suit its kind, refused under R533, or handed
on. A reserved kind is counted as malformed with ENTER. -/
def State.arriveColl (s : State) (p : Nat) (k : Packet) (kind : Nat) (f : State → State) : State :=
  let d := pkKind k
  if d ≠ kind ∧ ¬(kind = ckEnter ∧ 4 < d) then s
  else s.arrive p k ptColl fun s1 =>
    if 4 < d ∨ decide (d = ckData) = decide (pktLen k = 0) then s1.addSat F.FAB_DROP_MALFORMED 1
    else if s1.collRefused k then (s1.addSat F.COL_ERR_DROPPED 1).sendReply (s1.replyTo k clRefused)
    else f s1

def State.tookColl (s : State) (k : Packet) : State := s.sendReply (s.replyTo k clTaken)
def State.lateColl (s : State) (k : Packet) : State := (s.addSat F.COL_ERR_LATE 1).tookColl k

/-- An ENTER of a collective not yet entered: stored, or BUSY while the table of 1,024 is full. -/
def State.storeEnter (s : State) (k : Packet) (e : Nat × Word × Nat) : State :=
  let rest := s.col.early.filter fun x =>
    !(decide (x.1 = pkGroup k) && decide (x.2.1 = pkCseq k) && decide (x.2.2.1 = e.1))
  if 1024 ≤ rest.length then s.sendReply (s.replyTo k clBusy)
  else ({ s with col := { s.col with early := rest ++ [(pkGroup k, pkCseq k, e)] } } : State).tookColl k

/-- ENTER: compared with the own digest, or stored, or BUSY. -/
def State.takeEnter (s : State) (k : Packet) : State :=
  let g := pkGroup k
  let q := pkCseq k
  let e := (pkRank k, k.w2, bitsOf k.w3 31 0)
  match s.collAt g q with
  | some c =>
    if c.ready.isSome then
      let s1 := (s.putColl { c with enters := (c.enters.filter fun x => decide (x.1 ≠ e.1)) ++ [e] }).tookColl k
      if k.w2 ≠ c.digest ∧ c.done = false then s1.failColl c caMismatch true else s1
    else s.storeEnter k e
  | none => if s.collPast g q then s.tookColl k else s.storeEnter k e

/-- ENTER arriving on a port. -/
def State.doEnter (s : State) (p : Nat) (k : Packet) : State := s.arriveColl p k ckEnter (fun s => s.takeEnter k)

def execEnter (port : Nat) (pkt : Packet) (s : State) : Host.Outcome State Fault Refusal := .next (s.doEnter port pkt)

/-- The time a collective waited is added to its step once START is held from every member it sends to (R534). -/
def State.noteStarted (s : State) (c : Coll) : State :=
  if c.startedAt.isSome || c.dataTo.isEmpty || !(c.dataTo.all fun r => c.starts.contains r) then s
  else
    let s1 := s.putColl { c with startedAt := some s.now }
    match s1.stepOf c.lead, c.ready with
    | some t, some r => s1.putStep { t with collWait := t.collWait + (s.now - r.1) }
    | _, _ => s1

/-- START: DATA may be sent to its sender. -/
def State.takeStart (s : State) (k : Packet) : State :=
  let g := pkGroup k
  let q := pkCseq k
  match s.collAt g q with
  | some c =>
    if c.done then s.lateColl k
    else
      let c1 := { c with starts := if c.starts.contains (pkRank k) then c.starts else c.starts ++ [pkRank k] }
      (((s.putColl c1).noteStarted c1).tookColl k).progress g q
  | none => if s.collPast g q then s.lateColl k else s.tookColl k

/-- START arriving on a port. -/
def State.doStart (s : State) (p : Nat) (k : Packet) : State := s.arriveColl p k ckStart (fun s => s.takeStart k)

/-- DATA: taken into the receive store, reduced or written as far as it completes something. -/
def State.takeData (s : State) (k : Packet) : State :=
  let g := pkGroup k
  let q := pkCseq k
  match s.collAt g q with
  | some c =>
    if c.done then s.lateColl k
    else
      let x : CollPiece := { rank := pkRank k, result := k.w2.getLsbD 63, first := bitsOf k.w2 31 0, data := k.data }
      let s1 := (s.putColl { c with got := c.got ++ [x] }).tookColl k
      if c.active then s1.progress g q else s1
  | none => if s.collPast g q then s.lateColl k else s.tookColl k

/-- DATA arriving on a port. -/
def State.doData (s : State) (p : Nat) (k : Packet) : State := s.arriveColl p k ckData (fun s => s.takeData k)

/-- READY: held, or late; for a collective whose step has committed it is answered with the own READY again (R530). -/
def State.takeReady (s : State) (k : Packet) : State :=
  let g := pkGroup k
  let q := pkCseq k
  match s.collAt g q with
  | some c =>
    (s.putColl { c with readies := if c.readies.contains (pkRank k) then c.readies else c.readies ++ [pkRank k] }).tookColl k
  | none =>
    if s.col.past.contains (g, q) then (s.lateColl k).sendColl g q (pkRank k) ckReady 0 0 []
    else if s.collPast g q then s.lateColl k
    else s.tookColl k

/-- READY arriving on a port. -/
def State.doReady (s : State) (p : Nat) (k : Packet) : State := s.arriveColl p k ckReady (fun s => s.takeReady k)

def execReady (port : Nat) (pkt : Packet) (s : State) : Host.Outcome State Fault Refusal := .next (s.doReady port pkt)

/-- ABORT: the collective ends with the cause's outcome, or the ABORT is kept until the step enters it (R526, R527). -/
def State.takeAbort (s : State) (k : Packet) : State :=
  let g := pkGroup k
  let q := pkCseq k
  let cause := bitsOf k.w2 7 0
  if cause = 0 ∨ 6 < cause then s.addSat F.FAB_DROP_MALFORMED 1
  else match s.collAt g q with
    | some c => (s.tookColl k).failColl c cause false
    | none =>
      if s.collPast g q then s.tookColl k
      else
        ({ s with col := { s.col with
          aborts := (s.col.aborts.filter fun a => !(decide (a.1 = g) && decide (a.2.1 = q))) ++ [(g, q, cause)] } } : State).tookColl k

/-- ABORT arriving on a port. -/
def State.doAbort (s : State) (p : Nat) (k : Packet) : State := s.arriveColl p k ckAbort (fun s => s.takeAbort k)

def execAbort (port : Nat) (pkt : Packet) (s : State) : Host.Outcome State Fault Refusal := .next (s.doAbort port pkt)

/-! ## COLL_ACK and ENTER again (R532) -/

/-- A COLL_ACK for a packet of a collective. -/
def State.ackColl (s : State) (g cseq rank kind st : Nat) : State :=
  match s.collAt g cseq with
  | none => s
  | some c =>
    if st = clTaken then
      (if kind = ckData then (s.putColl { c with flying := c.flying.erase rank }).progress g cseq else s)
    else if st = clBusy then
      (if kind = ckEnter then
        { s with col := { s.col with again := s.col.again ++ [(g, cseq, rank, s.now)] } } else s)
    else s.loseColl c

/-- A COLL_ACK of this chip's packet: dropped where FAB_GEN or the tag does not match; one with a reserved status, or for another kind
of request, is dropped as malformed, and its request stays outstanding (log entry 60). -/
def State.takeCollAck (s : State) (k : Packet) : State :=
  match s.fab.reqs.find? fun r => decide (r.tag = pktTag k) with
  | none => s.addSat F.FAB_DROP_PRUNED 1
  | some r =>
    if pktGen k ≠ s.fld F.FAB_STATUS_FAB_GEN then s.addSat F.FAB_DROP_PRUNED 1
    else match r.kind with
      | .coll g q rank kind =>
        if clRefused < pktStatus k then s.addSat F.FAB_DROP_MALFORMED 1
        else ((s.endReq r.tag).ackColl g q rank kind (pktStatus k)).startWaiting
      | _ => s.addSat F.FAB_DROP_MALFORMED 1

/-- COLL_ACK arriving on a port. -/
def State.doCollAck (s : State) (p : Nat) (k : Packet) : State := s.arrive p k ptCollAck (fun s => s.takeCollAck k)

/-- ENTER_RETRY: 10 µs after a BUSY the ENTER is sent again. -/
def State.doEnterRetry (s : State) (g rank : Nat) : State :=
  match s.col.again.find? fun e => decide (e.1 = g) && decide (e.2.2.1 = rank) && decide (e.2.2.2 + 10000 ≤ s.now) with
  | none => s
  | some e =>
    let s1 : State := { s with col := { s.col with again := s.col.again.erase e } }
    match s.collAt g e.2.1 with
    | some c => s1.sendEnter c rank
    | none => s1

def execEnterRetry (group rank : Nat) (s : State) : Host.Outcome State Fault Refusal := .next (s.doEnterRetry group rank)

/-! ## Commits of the groups (R503, R504) -/

/-- Does group `g` read member register `i`? -/
def State.groupReads (s : State) (g i : Nat) : Bool :=
  let b := s.fld (F.COL_GROUP_RANK_BASE.at g)
  decide (b ≤ i) && decide (i ≤ b + s.fld (F.COL_GROUP_N_LESS_ONE.at g) / 8)

end Sys2Proof.Machine
end

