-- ==== Sys2Proof/Machine/Special.lean ====
section
/-! DEFINITION. The special functions of R150: the exactly rounded FP32 value of each stated function, from fixed-point
integers of 200 fraction bits, and the value that the part's fixed algorithm returns, which lies within the function's error
bound of it (R149, R150; log entry 6). -/

namespace Sys2Proof.Machine

/-- Fraction bits of the fixed-point values. -/
def fxBits : Nat := 200

/-- ln 2 in units of 2^−200. -/
def fxLn2 : Int := 1113844574712631719546256151097547306333272293549090750737802

/-- A finite value in units of 2^−200, truncated. -/
def toFx (neg : Bool) (mant : Nat) (exp : Int) : Int :=
  let e := exp + (fxBits : Int)
  let u : Nat := if 0 ≤ e then mant * 2 ^ e.toNat else mant / 2 ^ (-e).toNat
  if neg then -(u : Int) else (u : Int)

/-- `n` terms of the exponential series at `r`, from term `t` with index `k`. -/
def expSeries (r : Int) : Nat → Int → Int → Int
  | 0, _, _ => 0
  | n + 1, k, t => t + expSeries r n (k + 1) (t * r / (k * (2 ^ fxBits : Int)))

/-- e^x of a fixed-point x: a mantissa in units of 2^−200 and a binary exponent. -/
def fxExp (x : Int) : Nat × Int :=
  let n := x / fxLn2
  ((expSeries (x - n * fxLn2) 60 1 (2 ^ fxBits)).toNat, n)

/-- `n` odd terms of the series of artanh at z, from z^(2k+1). -/
def artanhSeries (z2 : Int) : Nat → Int → Int → Int
  | 0, _, _ => 0
  | n + 1, k, t => t / k + artanhSeries z2 n (k + 2) (t * z2 / (2 ^ fxBits : Int))

/-- The natural logarithm of mant × 2^exp, mant > 0, in units of 2^−200. -/
def fxLog (mant : Nat) (exp : Int) : Int :=
  let l := lead mant
  let f : Int := ((mant * 2 ^ fxBits / 2 ^ l : Nat) : Int)
  let one : Int := 2 ^ fxBits
  let z := (f - one) * one / (f + one)
  2 * artanhSeries (z * z / one) 70 1 z + (exp + (l : Int)) * fxLn2

/-- The integer square root, bit by bit from bit `k − 1` down. -/
def isqrtFrom (n : Nat) : Nat → Nat → Nat
  | 0, r => r
  | k + 1, r => isqrtFrom n k (if (r + 2 ^ k) * (r + 2 ^ k) ≤ n then r + 2 ^ k else r)

/-- 1 / (1 + e^−y) of a fixed-point y, in units of 2^−400. -/
def fxSigmoid (y : Int) : Nat :=
  let e := fxExp (-y)
  let sh := (fxBits : Int) - e.2
  -- 1 / (1 + m × 2^(n − 200)) = 2^sh / (2^sh + m), where sh = 200 − n
  if 0 ≤ sh then 2 ^ (sh.toNat + 400) / (2 ^ sh.toNat + e.1)
  else 2 ^ 400 / (1 + e.1 * 2 ^ (-sh).toNat)

/-- Magnitude of a finite value at least `n`? -/
def atLeast (mant : Nat) (exp : Int) (n : Nat) : Bool := !magGt n 0 mant exp

/-- The results that R150 states exactly; none where the function is computed within its bound, as tanh and sigmoid are at an infinity
too (log entry 6). The functions are numbered by SUBOP: 0 exp, 1 log, 2 reciprocal, 3 rsqrt, 4 tanh, 5 sigmoid, 6 GELU. -/
def sfuStated (f : Nat) (v : FVal) : Option FVal :=
  match v with
  | .nan => some .nan
  | .inf neg =>
    if f = 0 then none
    else if f = 1 then some (if neg then .nan else .inf false)
    else if f = 2 then some (.fin neg 0 0)
    else if f = 3 then some (if neg then .nan else .fin false 0 0)
    else if f = 4 ∨ f = 5 then none
    else some (if neg then .fin true 0 0 else .inf false)
  | .fin neg mant _ =>
    if mant = 0 then
      (if f = 1 then some (.inf true)
       else if f = 2 ∨ f = 3 then some (.inf neg)
       else none)
    else if neg = true ∧ (f = 1 ∨ f = 3) then some .nan
    else none

/-- The function at a finite value that `sfuStated` does not settle, close enough to round. -/
def sfuComputed (f : Nat) (neg : Bool) (mant : Nat) (exp : Int) : FVal :=
  let x := toFx neg mant exp
  let b : Int := (fxBits : Int)
  if f = 0 then
    if atLeast mant exp 120 then (if neg then .fin false 1 (-400) else .inf false)
    else let e := fxExp x; .fin false e.1 (e.2 - b)
  else if f = 1 then ofUnits (fxLog mant exp) (-b) false
  else if f = 2 then
    let s := 64 + lead mant
    .fin neg (2 * (2 ^ s / mant) + (if 2 ^ s % mant = 0 then 0 else 1)) (-(s : Int) - 1 - exp)
  else if f = 3 then
    let m := if exp % 2 = 0 then mant else 2 * mant
    let e := if exp % 2 = 0 then exp else exp - 1
    let s := 160 + lead m
    let q := 2 ^ (2 * s) / m
    let r := isqrtFrom q (s + 1) 0
    .fin false (2 * r + (if r * r * m = 2 ^ (2 * s) then 0 else 1)) (-(s : Int) - 1 - e / 2)
  else if f = 4 then
    if !magGt mant exp 1 (-13) then .fin neg mant exp
    else if atLeast mant exp 40 then .fin neg 1 0
    else
      let y : Int := ((2 * x.natAbs : Nat) : Int)
      -- tanh |x| = 2 sigmoid(2|x|) − 1
      let t := 2 * fxSigmoid y - 2 ^ 400
      .fin neg t (-400)
  else if f = 5 then
    if atLeast mant exp 200 then (if neg then .fin false 1 (-400) else .fin false 1 0)
    else .fin false (fxSigmoid x) (-400)
  else
    if mant = 0 then .fin neg 0 0
    else if atLeast mant exp 20 then (if neg then .fin true 1 (-900) else .fin neg mant exp)
    else
      -- 2u = 2 × 0.79788456 × (x + 0.044715 x³), in units of 2^−200
      let one : Int := 2 ^ fxBits
      let cube := x * x / one * x / one
      let u2 := 2 * 79788456 * (x * 1000000 + 44715 * cube) / (100000000 * 1000000)
      .fin neg (mant * fxSigmoid u2) (exp - 400)

/-- The error bound in units in the last place (R150). -/
def sfuBound (f : Nat) : Int := if f = 2 then 0 else if f = 4 ∨ f = 5 then 2 else if f = 6 then 4 else 1

/-- FP32 bits on one line, so that neighbours are one unit in the last place apart; and back, a zero taking sign `neg`. -/
def ordOf (b : Nat) : Int := if b < 2 ^ 31 then (b : Int) else -((b % 2 ^ 31 : Nat) : Int)
def bitsOfOrd (z : Int) (neg : Bool) : Nat :=
  if z < 0 then 2 ^ 31 + z.natAbs else if z = 0 ∧ neg = true then 2 ^ 31 else z.natAbs

/-- FP32 bits of the function `f` moved by the part's own number of units within the bound (R149, R150; log entry 6). -/
def sfuMoved (f : Nat) (xin : BitVec 32) (b : Nat) : FVal :=
  match Fmt.fp32.decode b with
  | .fin n m e =>
    let k := max (-(sfuBound f)) (min (sfuBound f) (Config.sfuUlps f xin))
    if k = 0 then .fin n m e
    else
      let z := ordOf b + k
      Fmt.fp32.decode (bitsOfOrd (if f = 0 then max 0 z else z) n)
  | r => r

/-- The limit of tanh and of sigmoid at an infinity, which an exact result rounds to (log entry 6). -/
def sfuLimit (f : Nat) (neg : Bool) : FVal := if f = 4 then .fin neg 1 0 else if neg then .fin false 0 0 else .fin false 1 0

/-- The special function `f` of an FP32 value, as FP32 (R149, R150). -/
def sfu (f : Nat) (v : FVal) : FVal :=
  let xin := BitVec.ofNat 32 (convert .fp32 .rne false 0 v).1
  match sfuStated f v, v with
  | some r, _ => r
  | none, .fin neg mant exp => sfuMoved f xin (convert .fp32 .rne false 0 (sfuComputed f neg mant exp)).1
  | none, .inf neg =>
    if f = 4 ∨ f = 5 then sfuMoved f xin (convert .fp32 .rne false 0 (sfuLimit f neg)).1
    else Fmt.fp32.decode (Config.sfuOpen f xin).toNat
  | none, _ => Fmt.fp32.decode (Config.sfuOpen f xin).toNat

end Sys2Proof.Machine
end

