-- ==== Sys2Proof/Machine/Vector.lean ====
section
/-! DEFINITION. The vector unit: the element-wise operations, conversions, special functions, reductions, softmax,
normalisation and random values, each as the effect of its descriptor when it starts (R103 to R106, R148 to R151, R222 to
R230). -/

namespace Sys2Proof.Machine

/-- The logical index of element 0 of a vector descriptor (R222). -/
def vecIndex (d : Desc) : Int := (vIdxBase d.words : Int) + (vCount d.words * d.idx : Nat)

/-- Values converted to FMT_OUT and written at OUT, their scale bytes at `sc`, their flags noted (R112, R114, R223). -/
def State.writeValues (s : State) (p : Nat) (d : Desc) (sc : Loc) (vs : List FVal) (rs : List Nat) : State :=
  let f := fmtOr (hFmtOut d.words)
  let o := convertAll f (modeOf d.words) (hSat d.words) vs rs
  let s1 := s.writeLoc p d.a (packElems f o.1)
  let s2 := if f.blocked then s1.mergeLoc p sc 0 o.2.1 else s1
  s2.noteFlags p o.2.2

/-- The operands A, B and C of an element-wise descriptor, those it does not use empty. -/
def State.readOperands (s : State) (p : Nat) (d : Desc) (useB useC : Bool) (cfmt : Nat) :
    State × Option (List FVal × List FVal × List FVal) :=
  let n := vCount d.words
  match s.readValues p d.b .none (fmtOr (hFmtA d.words)) n with
  | (s1, none) => (s1, none)
  | (s1, some a) =>
    match (if useB then s1.readValues p d.c .none (fmtOr (hFmtB d.words)) n else (s1, some [])) with
    | (s2, none) => (s2, none)
    | (s2, some b) =>
      match (if useC then s2.readValues p d.d .none (fmtOr cfmt) n else (s2, some [])) with
      | (s3, none) => (s3, none)
      | (s3, some c) => (s3, some (a, b, c))

/-- An element-wise operation of A and B: an adder upset met on the way discards the result (R127). -/
def State.effMap2 (s : State) (p : Nat) (d : Desc) (adds : Bool) (op : FVal → FVal → FVal) : State :=
  match s.readOperands p d true false 0 with
  | (s1, none) => s1
  | (s1, some (a, b, _)) =>
    match (if adds then s1.adderCheck p else none) with
    | some s2 => s2
    | none => s1.writeValues p d .none ((a.zip b).map fun q => op q.1 q.2) (List.replicate a.length 0)

/-- VADD, VMUL, VMAX, VMIN (R103, R104, R224): one rounding from the exact value. -/
def State.effVadd (s : State) (p : Nat) (d : Desc) : State := s.effMap2 p d true (FVal.add (modeOf d.words))
def State.effVmul (s : State) (p : Nat) (d : Desc) : State := s.effMap2 p d false FVal.mul
def State.effVmax (s : State) (p : Nat) (d : Desc) : State := s.effMap2 p d false FVal.vmax
def State.effVmin (s : State) (p : Nat) (d : Desc) : State := s.effMap2 p d false FVal.vmin

/-- VFMA: a × b + c with one rounding (R103, R224). -/
def State.effVfma (s : State) (p : Nat) (d : Desc) : State :=
  match s.readOperands p d true true (hFmtB d.words) with
  | (s1, none) => s1
  | (s1, some (a, b, c)) =>
    match s1.adderCheck p with
    | some s2 => s2
    | none => s1.writeValues p d .none
        (((a.zip b).zip c).map fun q => (q.1.1.mul q.1.2).add (modeOf d.words) q.2) (List.replicate a.length 0)

/-- The relation of VCMP (R224): EQ, NE, LT, LE, GT, GE; a NaN makes NE true and the others false. -/
def relate (sub : Nat) (a b : FVal) : Bool :=
  if a.isNan || b.isNan then decide (sub = 1)
  else if sub = 0 then a.eqv b
  else if sub = 1 then !a.eqv b
  else if sub = 2 then a.lt b
  else if sub = 3 then !(b.lt a)
  else if sub = 4 then b.lt a
  else !(a.lt b)

/-- VCMP (R224). -/
def State.effVcmp (s : State) (p : Nat) (d : Desc) : State :=
  s.effMap2 p d false fun a b => .fin false (bit (relate (vSubop d.words) a b)) 0

/-- VSELECT (R224). -/
def State.effVselect (s : State) (p : Nat) (d : Desc) : State :=
  match s.readOperands p d true true (vselectFmt d.words) with
  | (s1, none) => s1
  | (s1, some (a, b, c)) =>
    s1.writeValues p d .none (((a.zip b).zip c).map fun q => if q.2.isZero then q.1.2 else q.1.1) (List.replicate a.length 0)

/-- VCVT (R112, R119 to R122, R226). -/
def State.effVcvt (s : State) (p : Nat) (d : Desc) : State :=
  let n := vCount d.words
  match s.readValues p d.b d.c (fmtOr (hFmtA d.words)) n with
  | (s1, none) => s1
  | (s1, some a) => s1.writeValues p d d.d a (s1.randoms p d.words (vecIndex d) n)

/-- VSFU (R149, R150, R223): the FP32 result converted once. -/
def State.effVsfu (s : State) (p : Nat) (d : Desc) : State :=
  match s.readOperands p d false false 0 with
  | (s1, none) => s1
  | (s1, some (a, _, _)) =>
    s1.writeValues p d .none (a.map (sfu (vSubop d.words))) (List.replicate a.length 0)

/-! ## Reductions (R105, R151, R225) -/

/-- Groups of 256, the last one filled up. -/
def groupsOf (fill : FVal) (vs : List FVal) : List (List FVal) :=
  (runsOf 256 vs.length vs).map fun g => g ++ List.replicate (256 - g.length) fill

/-- The FP32 sum of a row in the order of R151: the tree within each group, the groups one at a time. -/
def rowSum (rm : RMode) (vs : List FVal) : FVal :=
  match (groupsOf (.fin true 0 0) vs).map (reduce256 (fadd rm)) with
  | [] => .fin true 0 0
  | g :: gs => gs.foldl (fadd rm) g

/-- A reduction of each group to one output. -/
def State.effReduce (s : State) (p : Nat) (d : Desc) (fill : FVal) (op : FVal → FVal → FVal) : State :=
  match s.readOperands p d false false 0 with
  | (s1, none) => s1
  | (s1, some (a, _, _)) =>
    match s1.adderCheck p with
    | some s2 => s2
    | none =>
      let r := (groupsOf fill a).map (reduce256 op)
      s1.writeValues p d .none r (List.replicate r.length 0)

/-- VREDUCE sum: rounded FP32 additions on the float set, exact on the integer set (R105, R225). -/
def State.effVreduceSum (s : State) (p : Nat) (d : Desc) : State :=
  if (fmtOr (hFmtA d.words)).isInt then s.effReduce p d (.fin false 0 0) (FVal.add .rne)
  else s.effReduce p d (.fin true 0 0) (fadd (modeOf d.words))
def State.effVreduceMax (s : State) (p : Nat) (d : Desc) : State := s.effReduce p d (.inf true) FVal.vmax
def State.effVreduceMin (s : State) (p : Nat) (d : Desc) : State := s.effReduce p d (.inf false) FVal.vmin

/-! ## Softmax and normalisation (R227, R228) -/

/-- Softmax of one row: FP32 results, the last product rounded under the descriptor's mode. -/
def softmaxRow (rm : RMode) (scale : FVal) (row : List FVal) : List FVal :=
  if row.any (fun a => a.isNan || decide (a = .inf false)) then row.map fun _ => .nan
  else if row.all (fun a => decide (a = .inf true)) then row.map fun _ => .fin false 0 0
  else
    let xs := row.map fun a => fmul .rne scale a
    let m := xs.tail.foldl FVal.vmax (xs.headD .nan)
    let es := row.map fun a => sfu 0 (ffma .rne scale a m.neg)
    let r := sfu 2 (rowSum .rne es)
    es.map fun e => fmul rm e r

/-- VSOFTMAX (R227). -/
def State.effVsoftmax (s : State) (p : Nat) (d : Desc) : State :=
  match s.readOperands p d false false 0 with
  | (s1, none) => s1
  | (s1, some (a, _, _)) =>
    match s1.adderCheck p with
    | some s2 => s2
    | none =>
      let k := Fmt.fp32.decode (vImm d.words)
      s1.writeValues p d .none ((runsOf (vRowLen d.words) a.length a).flatMap (softmaxRow (modeOf d.words) k))
        (List.replicate a.length 0)

/-- 1/L as FP32 under RNE (R228). -/
def recipLen (l : Nat) : FVal := toFp32 .rne 0 (.fin false (2 * (2 ^ 80 / l) + (if 2 ^ 80 % l = 0 then 0 else 1)) (-81))

/-- RMS normalisation of one row. -/
def rmsRow (rm : RMode) (eps : FVal) (gain row : List FVal) : List FVal :=
  let q := rowSum .rne (row.map fun a => fmul .rne a a)
  let r := sfu 3 (fadd .rne (fmul .rne q (recipLen row.length)) eps)
  (row.zip gain).map fun e => fmul rm (fmul .rne e.1 r) e.2

/-- Layer normalisation of one row. -/
def layerRow (rm : RMode) (eps : FVal) (gain bias row : List FVal) : List FVal :=
  let l := recipLen row.length
  let mu := fmul .rne (rowSum .rne row) l
  let ds := row.map fun a => fadd .rne a mu.neg
  let v := fmul .rne (rowSum .rne (ds.map fun x => fmul .rne x x)) l
  let r := sfu 3 (fadd .rne v eps)
  ((ds.zip gain).zip bias).map fun e => ffma rm (fmul .rne e.1.1 r) e.1.2 e.2

/-- VNORM: the gain at SRC_B and, for LAYER, the bias at SRC_C, both of ROW_LEN elements in FMT_B (R223, R228). -/
def State.effVnorm (s : State) (p : Nat) (d : Desc) (layer : Bool) : State :=
  let ws := d.words
  let fb := fmtOr (hFmtB ws)
  match s.readValues p d.b .none (fmtOr (hFmtA ws)) (vCount ws) with
  | (s1, none) => s1
  | (s1, some a) =>
    match s1.readValues p d.c .none fb (vRowLen ws) with
    | (s2, none) => s2
    | (s2, some g) =>
      match (if layer then s2.readValues p d.d .none fb (vRowLen ws) else (s2, some [])) with
      | (s3, none) => s3
      | (s3, some b) =>
        match s3.adderCheck p with
        | some s4 => s4
        | none =>
          let eps := Fmt.fp32.decode (vImm ws)
          let rm := modeOf ws
          s3.writeValues p d .none ((runsOf (vRowLen ws) a.length a).flatMap fun row =>
            if layer then layerRow rm eps g b row else rmsRow rm eps g row) (List.replicate a.length 0)

/-! ## Random values (R230) -/

/-- Output word 0 of the generator for each element of a descriptor. -/
def State.randWords (s : State) (p : Nat) (d : Desc) : List Nat :=
  let k := s.seedOf p
  (List.range (vCount d.words)).map fun (i : Nat) =>
    (philox k.1 ((vecIndex d + (i : Int)) % (2 ^ 64 : Int)).toNat (hStream d.words) k.2).1

/-- VRAND uniform: bits 31:8 of word 0, times 2^−24. -/
def State.effVrandUniform (s : State) (p : Nat) (d : Desc) : State :=
  s.writeLoc p d.a (packElems .fp32 ((s.randWords p d).map fun w =>
    (convert .fp32 .rne false 0 (.fin false (w / 256) (-24))).1))

/-- VRAND raw: word 0 as an I32. -/
def State.effVrandRaw (s : State) (p : Nat) (d : Desc) : State := s.writeLoc p d.a (packElems .i32 (s.randWords p d))

end Sys2Proof.Machine
end

