-- ==== Sys2Proof/Machine/Select.lean ====
section
/-! DEFINITION. The selection unit: VTOPK, VGATHER and VSCATTER (R152, R153, R231 to R233). -/

namespace Sys2Proof.Machine

/-- Does a candidate rank before another (R152)? Descending, NaN below every number, +0 above −0, ties by index. -/
def ranksBefore (a b : Nat × FVal) : Bool :=
  if a.2.isNan != b.2.isNan then b.2.isNan
  else if a.2.isNan then decide (a.1 < b.1)
  else if b.2.lt a.2 then true
  else if a.2.lt b.2 then false
  else if a.2.isZero && (a.2.isNeg != b.2.isNeg) then b.2.isNeg
  else decide (a.1 < b.1)

/-- A candidate put in its place in a list in rank order. -/
def insertRanked (x : Nat × FVal) : List (Nat × FVal) → List (Nat × FVal)
  | [] => [x]
  | y :: ys => if ranksBefore x y then x :: y :: ys else y :: insertRanked x ys

/-- The `k` candidates that rank first, in order. -/
def topOf (k : Nat) (vs : List FVal) : List (Nat × FVal) :=
  vs.zipIdx.foldl (fun l e => (insertRanked (e.2, e.1) l).take k) []

/-- VTOPK (R152, R231): the values in FMT_OUT and their logical indices as I32. -/
def State.effVtopk (s : State) (p : Nat) (d : Desc) : State :=
  let f := fmtOr (hFmtA d.words)
  match s.readValues p d.b .none f (vCount d.words) with
  | (s1, none) => s1
  | (s1, some a) =>
    let top := topOf (vRowLen d.words) a
    let o := convertAll f .rne false (top.map (·.2)) (top.map fun _ => 0)
    let idx := top.map fun e => ((vecIndex d + (e.1 : Int)) % (2 ^ 32 : Int)).toNat
    (((s1.writeLoc p d.a (packElems f o.1)).writeLoc p d.c (packElems .i32 idx))).noteFlags p o.2.2

/-- The granule indices of VGATHER or VSCATTER, as signed numbers (R232). -/
def granuleIndices (n : Nat) (bs : Bytes) : List Int :=
  (elemsOf .i32 n bs).map fun (v : Nat) => if v < 2 ^ 31 then (v : Int) else (v : Int) - 2 ^ 32

/-- Is an index inside the memory of the table and, for a write, outside the program region (R197, R233)? -/
def indexOk (slice write : Bool) (base : Nat) (x : Int) : Bool :=
  decide (0 ≤ x) && decide (base + 64 * x.toNat + 64 ≤ (if slice then sliceBytes else padBytes)) &&
    !(write && slice && meetsProgram (base + 64 * x.toNat) 64)

/-- VGATHER (R232, R233): the indices are checked before any result is written. -/
def State.effVgather (s : State) (p : Nat) (d : Desc) : State :=
  let n := vCount d.words
  match s.readLoc p d.c (4 * n), d.b with
  | (s1, some bs), .mem sl base =>
    let ix := granuleIndices n bs
    if !ix.all (indexOk sl false base) then s1.refuse p d.pc (hOpcode d.words) rcAddress
    else
      let r := ix.foldl (fun (a : State × Option Bytes) x =>
        match a.2 with
        | none => a
        | some acc =>
          let q := a.1.readChecked p sl (base + 64 * x.toNat) 64 p
          (q.1, q.2.map fun b => acc ++ b)) (s1, some [])
      match r with
      | (s2, none) => s2
      | (s2, some data) => s2.writeLoc p d.a data
  | (s1, _), _ => s1

/-- VSCATTER (R153, R232, R233): of several sources for one granule, the highest index stands. -/
def State.effVscatter (s : State) (p : Nat) (d : Desc) : State :=
  let n := vCount d.words
  match s.readLoc p d.c (4 * n), d.a with
  | (s1, some bs), .mem sl base =>
    let ix := granuleIndices n bs
    if !ix.all (indexOk sl true base) then s1.refuse p d.pc (hOpcode d.words) rcAddress
    else
      match s1.readLoc p d.b (64 * n) with
      | (s2, none) => s2
      | (s2, some data) =>
        (ix.zip (runsOf 64 n data)).foldl (fun s e => s.writeLocal p sl (base + 64 * e.1.toNat) e.2) s2
  | (s1, _), _ => s1

end Sys2Proof.Machine
end

