-- ==== Sys2Proof/Machine/Cluster.lean ====
section
/-! DEFINITION. The sequencer and the engines of a cluster: the issue of a descriptor with its checks, the descriptors of each
engine, their start and completion, and the landing of hub signals (R132 to R162, R186 to R252, R889). -/

namespace Sys2Proof.Machine

/-! ## Tallies and waits (R188, R189) -/

/-- The value of a selected tally as cluster `p` sees it. -/
def State.selValue (s : State) (p : Nat) (x : Sel) : Nat :=
  if x.hub then (s.tallySeen (s.clu p).lead x.num).toNat else s.fld ((F.CLU_LTALLY_VALUE.clu p).at x.num)

/-- Does a resolved wait hold? -/
def State.waitMet (s : State) (p : Nat) (w : Option (Sel × Nat)) : Bool :=
  match w with
  | none => true
  | some (x, thr) => waitHolds x.hub (s.selValue p x) thr

/-! ## Issue (R134, R199, R202) -/

/-- The loops and ring windows that resolution sees. -/
def State.frame (s : State) (p : Nat) : Frame :=
  { loops := (s.clu p).loops, rings := (List.range 16).map fun n => s.reg ((F.CLU_RING_VALID.clu p).at n).reg }

/-- May cluster `p` issue: running a step that neither fails nor replays, and not inside a collective? -/
def State.mayIssue (s : State) (p : Nat) : Bool :=
  decide (p < 264) && decide (s.seqState p = sqRunning) && (s.clu p).inColl.isNone &&
    (match s.stepAt p with
      | some t => t.fail.isNone && t.replay.isNone
      | none => false)

/-- The words of the descriptor at a program counter, as stored. -/
def State.progWords (s : State) (p pc : Nat) : List Word := wordsOfBytes 8 (s.localRead p true (progBase + 64 * pc) 64)

/-- The variant of a descriptor, and how many the opcode has: each is a row of its own. -/
def variantOf (ws : List Word) : Nat × Nat :=
  let op := hOpcode ws
  if op = 0x11 then (bit (isMerge ws), 2)
  else if op = 0x28 then (vSubop ws, 7)
  else if op = 0x29 then (vSubop ws, 3)
  else if op = 0x2B ∨ op = 0x2C then (vSubop ws, 2)
  else if op = 0x41 then (fieldOf ws 4 8 8, 2)
  else if op = 0x42 then (fieldOf ws 5 32 32, 2)
  else if op = 0x60 then (clOp ws, 5)
  else (0, 1)

/-- Does a descriptor answer to a row? An opcode outside the table answers to every row, and a variant outside the opcode's list
to every row of that opcode: each is refused there. -/
def matchesRow (op v : Nat) (ws : List Word) : Bool :=
  (engineOf (hOpcode ws)).isNone ||
    (decide (hOpcode ws = op) && (decide ((variantOf ws).1 = v) || decide ((variantOf ws).2 ≤ (variantOf ws).1)))

/-- Descriptors of an engine issued and not started. -/
def Cluster.waiting (c : Cluster) (e : Engine) : List Desc := c.queue.filter fun d => decide (d.eng = e) && !d.started

/-- The ring windows a descriptor addresses (R167). -/
def ringsUsed (ws : List Word) : List Nat :=
  (List.range (locatorWords (hOpcode ws))).filterMap fun i =>
    let w := wordAt ws (2 + i)
    if locSpace w = 2 then some (locRing w) else none

/-- Do two resolved places overlap? -/
def placesMeet (a b : Loc) (n : Nat) : Bool :=
  match a, b with
  | .mem s1 o1, .mem s2 o2 => decide (s1 = s2) && runsMeet o1 n o2 n
  | _, _ => false

/-- The hub tallies a descriptor changes (R170). -/
def hubChanges (ws : List Word) : List Nat :=
  ((selOf (hSignal ws)).toList ++ (if hOpcode ws = 0x51 then (selOf (fieldOf ws 2 15 0)).toList else [])).filterMap fun x =>
    if x.hub then some x.num else none

/-- The hub tallies changed by an attempt with this descriptor (R170). -/
def namedWith (t : Step) (ws : List Word) : List Nat :=
  (hubChanges ws).foldl (fun a n => if a.contains n then a else a ++ [n]) t.named

/-- The checks of control nesting (R156, R202, R244, R247, R248): of a LOOP its depth and its END_PC, of an ENDLOOP and a RET what they
close, of a CALL its depth, of a STEP_END that nothing is open. -/
def State.nestChecks (s : State) (p : Nat) (ws : List Word) : List Check :=
  let op := hOpcode ws
  let c := s.clu p
  let pc := s.pcOf p
  let stop := fieldOf ws 3 13 0
  if op = 0x58 then
    [(decide (c.loops.length < 4) && decide (pc < stop) && decide (hOpcode (s.progWords p stop) = 0x59), rcControl)]
  else if op = 0x59 then [((c.loops.head?.map (fun l => decide (l.stop = pc))).getD false, rcControl)]
  else if op = 0x5B then [(decide (c.calls.length < 4), rcControl)]
  else if op = 0x5C then
    [(!c.calls.isEmpty && !(c.loops.head?.map (fun l => decide (c.calls.length ≤ l.calls))).getD false, rcControl)]
  else if op = 0x5F then [(c.loops.isEmpty && c.calls.isEmpty, rcControl)]
  else []

/-- The checks of a descriptor against the sequencer's state and the step, once its fields have passed (R170, R190, R202, R231,
R235, R236, R251). -/
def State.issueChecks (s : State) (p : Nat) (t : Step) (ws : List Word) (locs : Loc × Loc × Loc × Loc) : List Check :=
  let op := hOpcode ws
  let c := s.clu p
  let far := fieldOf ws 4 7 0
  let idx := (loopIndex c.loops (vIdxLoop ws)).getD 0
  [((selsOf ws).all fun x => !x.hub || inGrant (s.ctx t.lead cfTallyBase) (s.ctx t.lead cfTallyCount) x.num, rcTally),
   (decide ((namedWith t ws).length ≤ 256), rcLimit),
   (!(decide (op = 0x52) && decide (1024 ≤ t.tadds)), rcLimit),
   (!(decide (op = 0x40) && placesMeet locs.1 locs.2.1 (fieldOf ws 6 25 0)), rcAddress),
   (!(decide (op = 0x41) && (decide (far = c.logical) || decide (far ∉ t.clusters))), rcAddress),
   (!(decide (op = 0x30) && decide (2 ^ 31 < vIdxBase ws + vCount ws * idx + vCount ws)), rcCount)] ++
  tensorStateChecks ws c.rowsIssued c.tileIssued ++ s.nestChecks p ws ++ (if op = 0x60 then s.collChecks t ws else [])

/-- What the checks of issue answer: a refusal code, or the resolved operands. -/
def State.checkIssue (s : State) (p : Nat) (t : Step) (ws : List Word) : Except Nat (Loc × Loc × Loc × Loc) :=
  match firstFail (staticChecks ws) with
  | some code => .error code
  | none =>
    if !(loopSelsOf ws).all (fun k => (loopIndex (s.clu p).loops k).isSome) then .error rcControl
    else match resolveAll (s.frame p) ws with
      | .error code => .error code
      | .ok locs => match firstFail (s.issueChecks p t ws locs) with
        | some code => .error code
        | none =>
          if hOpcode ws = 0x60 then match s.collPlace p ws with
            | .error code => .error code
            | .ok dst => .ok (locs.1, dst, locs.2.2)
          else .ok locs

/-- The descriptor at END_PC of a LOOP read for its check, once, where it lies outside the prefetched block (R155, R204, R277;
log entry 37): false where its granule is uncorrectable. -/
def State.peek (s : State) (p pc : Nat) (ws : List Word) : State × Bool :=
  let stop := fieldOf ws 3 13 0
  if hOpcode ws ≠ 0x58 ∨ stop ≤ pc ∨ stop / 64 = pc / 64 ∨ (s.clu p).peeked = some pc then (s, true)
  else match s.readChecked p true (progBase + 64 * stop) 64 p with
    | (s1, none) => (s1, false)
    | (s1, some _) => (s1.setClu p { s1.clu p with peeked := some pc }, true)

/-- The next descriptor of cluster `p` fetched with its block and checked, and handed on where it is the one a row names (R155). A program counter
past 16,383 is refused with CONTROL; its record's opcode is a free value, since no descriptor stands there. -/
def State.issueThen (s : State) (p op v : Nat) (f : State → Step → List Word → Loc × Loc × Loc × Loc → State) : State :=
  if !s.mayIssue p then s
  else if (s.clu p).past then s.drawn.refuse p (s.pcOf p) (bitsOf s.free 7 0) rcControl
  else
    let pc := s.pcOf p
    let ws := s.progWords p pc
    if !matchesRow op v ws then s
    else match s.fetch p pc with
      | (s1, false) => s1
      | (s1, true) => match s1.peek p pc ws with
        | (s2, false) => s2
        | (s2, true) => match s2.stepAt p with
          | none => s2
          | some t => match s2.checkIssue p t ws with
            | .error code => s2.refuse p pc (hOpcode ws) code
            | .ok locs => f s2 t ws locs

/-! ## Start (R135, R138 to R141, R191, R239, R889) -/

/-- Is a descriptor an MMA or MMA_ADAPT that streams rows? -/
def streams (ws : List Word) : Bool := (decide (hOpcode ws = 0x11) && !isMerge ws) || decide (hOpcode ws = 0x12)

/-- Is a descriptor incomplete? -/
def Desc.open (d : Desc) : Bool := !d.done

/-- May the first descriptor of its engine that has not started start now? -/
def State.startable (s : State) (p : Nat) (d : Desc) : Bool :=
  let c := s.clu p
  let before := c.queue.filter fun x => decide (x.id < d.id) && x.open
  let op := hOpcode d.words
  let tile (x : Desc) : Bool := decide (hOpcode x.words = 0x10)
  let mma (x : Desc) : Bool := streams x.words
  let shares (x : Desc) : Bool := (tensorRows x.words).any (tensorRows d.words).contains
  decide (((c.waiting d.eng).map (·.id)).head? = some d.id) &&
  s.waitMet p d.wait &&
  !(before.any fun x => decide (x.eng = d.eng) && hSerial x.words) &&
  (if op = 0x10 then !before.any tile
   else if mma d then !before.any tile
   else if op = 0x11 ∨ op = 0x13 ∨ op = 0x14 ∨ op = 0x15 then !before.any fun x => mma x && shares x
   else if op = 0x42 then decide ((c.queue.filter fun x => decide (hOpcode x.words = 0x42) && x.started && x.open).length < 32)
   else if op = 0x43 then !before.any fun x => (ringsUsed x.words).contains (fieldOf d.words 2 61 58)
   else true)

/-- The effect of a descriptor that its engine executes (R201). -/
def State.execDesc (s : State) (p : Nat) (d : Desc) : State :=
  let ws := d.words
  match hOpcode ws with
  | 0x10 => s.effWload p d
  | 0x11 => if isMerge ws then s.effMerge p d else s.effMma p d
  | 0x12 => s.effMmaAdapt p d
  | 0x13 => s.effDrain p d
  | 0x14 => s.effAccClear p d
  | 0x15 => s.effAccScale p d
  | 0x20 => s.effVadd p d
  | 0x21 => s.effVmul p d
  | 0x22 => s.effVfma p d
  | 0x23 => s.effVmax p d
  | 0x24 => s.effVmin p d
  | 0x25 => s.effVcmp p d
  | 0x26 => s.effVselect p d
  | 0x27 => s.effVcvt p d
  | 0x28 => s.effVsfu p d
  | 0x29 => if vSubop ws = 0 then s.effVreduceSum p d else if vSubop ws = 1 then s.effVreduceMax p d else s.effVreduceMin p d
  | 0x2A => s.effVsoftmax p d
  | 0x2B => s.effVnorm p d (decide (vSubop ws = 1))
  | 0x2C => if vSubop ws = 0 then s.effVrandUniform p d else s.effVrandRaw p d
  | 0x30 => s.effVtopk p d
  | 0x31 => s.effVgather p d
  | 0x32 => s.effVscatter p d
  | 0x40 => s.effLmove p d
  | 0x41 => if fieldOf ws 4 8 8 = 0 then s.effTmovePull p d else s.effTmovePush p d
  | 0x42 => s.effBarrow p d
  | _ => s

/-- The first descriptor of engine `e` that has not started, started where it may. -/
def State.startNext (s : State) (p : Nat) (e : Engine) : State :=
  match (s.clu p).waiting e with
  | [] => s
  | d :: _ =>
    if s.startable p d then
      let d1 := { d with started := true, old := s.preImages p d }
      let s1 := s.setClu p { s.clu p with queue := (s.clu p).queue.map fun x => if x.id = d.id then d1 else x }
      ((s1.shadowed (!d.onEnginePort) (s.padGranules p d false) (s.padGranules p d true) fun s =>
        (s.execDesc p d1, ())).1).enginePort p d1
    else s

/-- DESCRIPTOR_START: the head of an engine's queue starts. -/
def State.doDescriptorStart (s : State) (p : Nat) (e : Engine) : State :=
  if p < 264 ∧ s.seqState p = sqRunning then s.startNext p e else s

def execDescriptorStart (p : Nat) (e : Engine) (s : State) : Host.Outcome State Fault Refusal := .next (s.doDescriptorStart p e)

/-! ## Completion (R158 to R160) -/

/-- A descriptor leaves the queue and its signal is applied. -/
def State.retire (s : State) (p : Nat) (d : Desc) : State :=
  (s.setClu p { s.clu p with queue := (s.clu p).queue.filter fun x => decide (x.id ≠ d.id) }).signal p d.sig

/-- Is a move's signal held by an earlier move that names the same tally (R160)? -/
def Cluster.heldMove (c : Cluster) (d : Desc) : Bool :=
  decide (d.eng = .move) && d.sig.isSome &&
    c.queue.any fun x => decide (x.eng = .move) && decide (x.sig = d.sig) && decide (x.id < d.id)

/-- Moves whose signal no earlier move holds any more signal in issue order. -/
def State.cascade (s : State) (p : Nat) : State :=
  (s.clu p).queue.foldl (fun s d => if d.done && !(s.clu p).heldMove d then s.retire p d else s) s

/-- Does an earlier descriptor of the same unit complete first? A descriptor completes when its own last result has landed (R148,
R889), so one may overtake an earlier one whose results land later after its occupancy: an MMA or MMA_ADAPT, on the array, before a
descriptor without its tail (R142), and a VSFU before a vector descriptor of lower latency (R148; log entry 36). -/
def Cluster.heldUnit (c : Cluster) (d : Desc) : Bool :=
  c.queue.any fun x => decide (x.id < d.id) && decide (x.eng = d.eng) && decide (d.eng ≠ .move) &&
    (decide (d.eng ≠ .tensor) || decide ((hOpcode x.words = 0x10) ↔ (hOpcode d.words = 0x10))) &&
    !(streams x.words && !streams d.words) && !(decide (hOpcode x.words = 0x28) && decide (hOpcode d.words ≠ 0x28))

/-- DESCRIPTOR_COMPLETE: the last result of a started descriptor has landed; the bytes of an inbound BARROW are put in place now. -/
def State.doDescriptorComplete (s : State) (p id : Nat) : State :=
  match (s.clu p).queue.find? fun d => decide (d.id = id) with
  | none => s
  | some d =>
    if !d.started || d.done || s.barrowBusy p id || (s.clu p).heldUnit d then s
    else
      let d1 := { d with done := true }
      let s0 := s.landBarrow p d
      let s1 := s0.setClu p { s0.clu p with queue := (s0.clu p).queue.map fun x => if x.id = id then d1 else x }
      if (s1.clu p).heldMove d1 then s1 else (s1.retire p d1).cascade p

def execDescriptorComplete (p id : Nat) (s : State) : Host.Outcome State Fault Refusal := .next (s.doDescriptorComplete p id)

/-- HUB_TALLY_SIGNAL_LAND: a signal of cluster `p` lands at hub tally `n`. It is the oldest on its way to the hub: signals keep the
order issued (R43), and one to another tally lands first where it is older. -/
def State.doHubTallySignalLand (s : State) (p n : Nat) : State :=
  match (s.clu p).landing, (s.clu p).lead with
  | x :: r, some lead =>
    if x.1 = n then (s.setClu p { s.clu p with landing := r }).tallyStepAdd lead n (BitVec.ofNat 64 x.2) else s
  | _, _ => s

def execHubTallySignalLand (p n : Nat) (s : State) : Host.Outcome State Fault Refusal := .next (s.doHubTallySignalLand p n)

/-! ## Descriptors of the engines -/

/-- The far offset of a BARROW (R237). -/
def State.farOf (s : State) (p : Nat) (ws : List Word) : Int :=
  (fieldOf ws 3 47 0 : Int) + sbitsOf (wordAt ws 4) 47 0 * ((loopIndex (s.clu p).loops (fieldOf ws 4 50 48)).getD 0 : Nat)

/-- The loop index of a descriptor's logical index. -/
def State.indexOf (s : State) (p : Nat) (ws : List Word) : Nat :=
  (loopIndex (s.clu p).loops (if hOpcode ws = 0x13 then fieldOf ws 5 63 61 else vIdxLoop ws)).getD 0

/-- RING_CFG as the sequencer resolves with it from its issue on (R199, R291). -/
def State.configRing (s : State) (p : Nat) (ws : List Word) : State :=
  let v := 2 ^ 63 + fieldOf ws 2 62 62 * 2 ^ 62 + fieldOf ws 3 47 32 * 2 ^ 46 + fieldOf ws 3 31 0 * 2 ^ 25 + fieldOf ws 2 31 0
  s.setReg ((F.CLU_RING_VALID.clu p).at (fieldOf ws 2 61 58)).reg (BitVec.ofNat 64 v)

/-- A descriptor issued into the queue of its engine (R134, R199). -/
def State.enqueue (s : State) (p : Nat) (t : Step) (ws : List Word) (locs : Loc × Loc × Loc × Loc) (e : Engine) : State :=
  let c := s.clu p
  let d : Desc :=
    { id := c.nextId, pc := s.pcOf p, words := ws, eng := e, wait := waitOf (s.frame p) ws, sig := selOf (hSignal ws)
      a := locs.1, b := locs.2.1, c := locs.2.2.1, d := locs.2.2.2, idx := s.indexOf p ws, far := s.farOf p ws }
  let s1 := s.setClu p { c with nextId := c.nextId + 1, queue := c.queue ++ [d], rowsIssued := rowsAfter ws c.rowsIssued
                                tileIssued := tileAfter ws c.tileIssued }
  let s2 := (s1.putStep { t with named := namedWith t ws }).advance p
  if hOpcode ws = 0x43 then s2.configRing p ws else s2

/-- The row of an engine's descriptor: issued where its queue has room, and started at once where it may start. -/
def State.issueDesc (s : State) (p op v : Nat) : State :=
  match engineOf op with
  | none => s
  | some e =>
    if 8 ≤ ((s.clu p).waiting e).length then s
    else (s.issueThen p op v fun s1 t ws locs => (s1.enqueue p t ws locs e).startNext p e)

def execWload (p : Nat) (s : State) : Host.Outcome State Fault Refusal := .next (s.issueDesc p 0x10 0)
def execMma (p : Nat) (s : State) : Host.Outcome State Fault Refusal := .next (s.issueDesc p 0x11 0)
def execMmaMerge (p : Nat) (s : State) : Host.Outcome State Fault Refusal := .next (s.issueDesc p 0x11 1)
def execMmaAdapt (p : Nat) (s : State) : Host.Outcome State Fault Refusal := .next (s.issueDesc p 0x12 0)
def execDrain (p : Nat) (s : State) : Host.Outcome State Fault Refusal := .next (s.issueDesc p 0x13 0)
def execAccClear (p : Nat) (s : State) : Host.Outcome State Fault Refusal := .next (s.issueDesc p 0x14 0)
def execAccScale (p : Nat) (s : State) : Host.Outcome State Fault Refusal := .next (s.issueDesc p 0x15 0)
def execVadd (p : Nat) (s : State) : Host.Outcome State Fault Refusal := .next (s.issueDesc p 0x20 0)
def execVmul (p : Nat) (s : State) : Host.Outcome State Fault Refusal := .next (s.issueDesc p 0x21 0)
def execVfma (p : Nat) (s : State) : Host.Outcome State Fault Refusal := .next (s.issueDesc p 0x22 0)
def execVmax (p : Nat) (s : State) : Host.Outcome State Fault Refusal := .next (s.issueDesc p 0x23 0)
def execVmin (p : Nat) (s : State) : Host.Outcome State Fault Refusal := .next (s.issueDesc p 0x24 0)
def execVcmp (p : Nat) (s : State) : Host.Outcome State Fault Refusal := .next (s.issueDesc p 0x25 0)
def execVselect (p : Nat) (s : State) : Host.Outcome State Fault Refusal := .next (s.issueDesc p 0x26 0)
def execVcvt (p : Nat) (s : State) : Host.Outcome State Fault Refusal := .next (s.issueDesc p 0x27 0)
def execVsfuExp (p : Nat) (s : State) : Host.Outcome State Fault Refusal := .next (s.issueDesc p 0x28 0)
def execVsfuLog (p : Nat) (s : State) : Host.Outcome State Fault Refusal := .next (s.issueDesc p 0x28 1)
def execVsfuReciprocal (p : Nat) (s : State) : Host.Outcome State Fault Refusal := .next (s.issueDesc p 0x28 2)
def execVsfuRsqrt (p : Nat) (s : State) : Host.Outcome State Fault Refusal := .next (s.issueDesc p 0x28 3)
def execVsfuTanh (p : Nat) (s : State) : Host.Outcome State Fault Refusal := .next (s.issueDesc p 0x28 4)
def execVsfuSigmoid (p : Nat) (s : State) : Host.Outcome State Fault Refusal := .next (s.issueDesc p 0x28 5)
def execVsfuGelu (p : Nat) (s : State) : Host.Outcome State Fault Refusal := .next (s.issueDesc p 0x28 6)
def execVreduceSum (p : Nat) (s : State) : Host.Outcome State Fault Refusal := .next (s.issueDesc p 0x29 0)
def execVreduceMax (p : Nat) (s : State) : Host.Outcome State Fault Refusal := .next (s.issueDesc p 0x29 1)
def execVreduceMin (p : Nat) (s : State) : Host.Outcome State Fault Refusal := .next (s.issueDesc p 0x29 2)
def execVsoftmax (p : Nat) (s : State) : Host.Outcome State Fault Refusal := .next (s.issueDesc p 0x2A 0)
def execVnormRms (p : Nat) (s : State) : Host.Outcome State Fault Refusal := .next (s.issueDesc p 0x2B 0)
def execVnormLayer (p : Nat) (s : State) : Host.Outcome State Fault Refusal := .next (s.issueDesc p 0x2B 1)
def execVrandUniform (p : Nat) (s : State) : Host.Outcome State Fault Refusal := .next (s.issueDesc p 0x2C 0)
def execVrandRaw (p : Nat) (s : State) : Host.Outcome State Fault Refusal := .next (s.issueDesc p 0x2C 1)
def execVtopk (p : Nat) (s : State) : Host.Outcome State Fault Refusal := .next (s.issueDesc p 0x30 0)
def execVgather (p : Nat) (s : State) : Host.Outcome State Fault Refusal := .next (s.issueDesc p 0x31 0)
def execVscatter (p : Nat) (s : State) : Host.Outcome State Fault Refusal := .next (s.issueDesc p 0x32 0)
def execLmove (p : Nat) (s : State) : Host.Outcome State Fault Refusal := .next (s.issueDesc p 0x40 0)
def execTmovePull (p : Nat) (s : State) : Host.Outcome State Fault Refusal := .next (s.issueDesc p 0x41 0)
def execTmovePush (p : Nat) (s : State) : Host.Outcome State Fault Refusal := .next (s.issueDesc p 0x41 1)
def execBarrowInbound (p : Nat) (s : State) : Host.Outcome State Fault Refusal := .next (s.issueDesc p 0x42 0)
def execBarrowOutbound (p : Nat) (s : State) : Host.Outcome State Fault Refusal := .next (s.issueDesc p 0x42 1)
def execRingCfg (p : Nat) (s : State) : Host.Outcome State Fault Refusal := .next (s.issueDesc p 0x43 0)

/-! ## Control descriptors (R242 to R249) -/

/-- Must every earlier descriptor of the cluster have completed before this one goes on: FENCE, STEP_END, COLL_ENTER (R161, R173,
R250)? -/
def needsQuiet (ws : List Word) : Bool := decide (hOpcode ws = 0x53) || decide (hOpcode ws = 0x5F) || decide (hOpcode ws = 0x60)

/-- Every earlier descriptor has completed and every hub signal has landed (R161, R173, R250). -/
def Cluster.quiet (c : Cluster) : Bool := c.queue.isEmpty && c.landing.isEmpty

/-- May a control descriptor that has passed its checks go on: its wait holds, and what it waits for is over? -/
def State.controlReady (s : State) (p : Nat) (ws : List Word) : Bool :=
  s.waitMet p (waitOf (s.frame p) ws) && (!needsQuiet ws || (s.clu p).quiet)

/-- A control descriptor that may go on; while it may not, nothing issues (R132, R134). Its checks are those of issue (R202). -/
def State.control (s : State) (p op v : Nat) (f : State → Step → List Word → Loc × Loc → State) : State :=
  s.issueThen p op v fun s1 t ws locs =>
    if s1.controlReady p ws then
      f (s1.putStep { t with named := namedWith t ws }) { t with named := namedWith t ws } ws (locs.1, locs.2.1)
    else s1

/-- A control descriptor completed: its signal, and the next descriptor. -/
def State.finish (s : State) (p : Nat) (ws : List Word) : State := (s.advance p).signal p (selOf (hSignal ws))

def execNop (p : Nat) (s : State) : Host.Outcome State Fault Refusal :=
  .next (s.control p 0x00 0 fun s _ ws _ => s.finish p ws)

def execTwait (p : Nat) (s : State) : Host.Outcome State Fault Refusal :=
  .next (s.control p 0x50 0 fun s _ ws _ => s.finish p ws)

/-- HALT: the sequencer stops and the step ends with PROGRAM_FAULT (R162). PC stays at the HALT (log entry 62). -/
def execHalt (p : Nat) (s : State) : Host.Outcome State Fault Refusal :=
  .next (s.control p 0x01 0 fun s _ _ _ => (s.setSeq p sqHalted).refuse p (s.pcOf p) 0x01 rcHalt)

/-- TSIGNAL: AMOUNT is added to a local tally, or is on its way to a hub tally. -/
def State.effTsignal (s : State) (p : Nat) (ws : List Word) : State :=
  let n := fieldOf ws 2 63 32
  let s1 := match selOf (fieldOf ws 2 15 0) with
    | none => s
    | some x =>
      if x.hub then s.setClu p { s.clu p with landing := (s.clu p).landing ++ [(x.num, n)] }
      else s.addWrap ((F.CLU_LTALLY_VALUE.clu p).at x.num) n
  s1.finish p ws

def execTsignal (p : Nat) (s : State) : Host.Outcome State Fault Refusal :=
  .next (s.control p 0x51 0 fun s _ ws _ => s.effTsignal p ws)

/-- TADD_REMOTE: the increment is held for the commit (R169, R243); a window of another kind is refused, an invalid adapter entry
holds nothing (R316, R318, R323), and while the fabric is HELD the step replays (R463). -/
def State.effTadd (s : State) (p : Nat) (t : Step) (ws : List Word) : State :=
  let bad (c : Nat) : State := s.refuse p (s.pcOf p) 0x52 c
  match s.selectWindow t (s.clu p).logical (fieldOf ws 2 63 56) with
  | .error c => bad c
  | .ok none => (s.putStep { t with tadds := t.tadds + 1 }).finish p ws
  | .ok (some r) =>
    if !s.winValid r || decide (s.winKind r ≠ wkRemote) then bad rcWindow
    else if s.fabState = fsHeld then s.replayStep t.lead 6 []
    else
      let w := s.winWord r.set r.win 2
      let h : HeldAdd :=
        { chip := bitsOf w 57 52, ctx := bitsOf w 15 0, gen := bitsOf w 47 36, win := bitsOf w 51 48, tally := fieldOf ws 2 13 0
          amount := fieldOf ws 3 31 0, tenant := s.ctx r.ctx cfTenant }
      (s.putStep { t with held := t.held ++ [h], tadds := t.tadds + 1 }).finish p ws

def execTaddRemote (p : Nat) (s : State) : Host.Outcome State Fault Refusal :=
  .next (s.control p 0x52 0 fun s t ws _ => s.effTadd p t ws)

def execFence (p : Nat) (s : State) : Host.Outcome State Fault Refusal :=
  .next (s.control p 0x53 0 fun s _ ws _ => s.finish p ws)

/-- The count of a LOOP: its field, or the tally that it names (R244). -/
def State.loopCount (s : State) (p : Nat) (ws : List Word) : Nat :=
  if fieldOf ws 2 16 16 = 1 then
    match selOf (fieldOf ws 2 47 32) with
    | some x => if x.hub then s.selValue p x % 2 ^ 24 else s.selValue p x
    | none => 0
  else fieldOf ws 2 15 0

/-- LOOP: opened with its count, skipped at count 0, or refused where a tally gives it a count above 65,535 (R156, R244). -/
def State.effLoop (s : State) (p : Nat) (ws : List Word) : State :=
  let c := s.clu p
  let pc := s.pcOf p
  let stop := fieldOf ws 3 13 0
  let count := s.loopCount p ws
  if 65535 < count then s.refuse p pc 0x58 rcControl
  else if count = 0 then (s.goto p (stop + 1)).signal p (selOf (hSignal ws))
  else
    let l : Loop := { body := pc + 1, stop := stop, count := count, idx := 0, calls := c.calls.length }
    (s.setClu p { c with loops := l :: c.loops }).finish p ws

def execLoopD (p : Nat) (s : State) : Host.Outcome State Fault Refusal :=
  .next (s.control p 0x58 0 fun s _ ws _ => s.effLoop p ws)

/-- ENDLOOP: the next pass of the innermost loop, or its end (R156, R244, R247). -/
def State.effEndloop (s : State) (p : Nat) (ws : List Word) : State :=
  let c := s.clu p
  match c.loops with
  | [] => s
  | l :: ls =>
    if l.idx + 1 < l.count then
      ((s.setClu p { c with loops := { l with idx := l.idx + 1 } :: ls }).goto p l.body).signal p (selOf (hSignal ws))
    else (s.setClu p { c with loops := ls }).finish p ws

def execEndloop (p : Nat) (s : State) : Host.Outcome State Fault Refusal :=
  .next (s.control p 0x59 0 fun s _ ws _ => s.effEndloop p ws)

/-- Does the condition of BRANCH_TALLY hold (R245)? -/
def branchHolds (cond : Nat) (hub : Bool) (tally value : Nat) : Bool :=
  let ge := waitHolds hub tally value
  let eq := if hub then decide (tally % 2 ^ 24 = value % 2 ^ 24) else decide (tally = value)
  if cond = 0 then ge else if cond = 1 then !ge else if cond = 2 then eq else !eq

/-- The loops left open by a branch: the outermost one whose body excludes the target closes, with every loop inside it
(R247). -/
def loopsKept (loops : List Loop) (target : Nat) : List Loop :=
  (loops.reverse.takeWhile fun l => decide (l.body ≤ target) && decide (target ≤ l.stop)).reverse

/-- BRANCH_TALLY. -/
def State.effBranch (s : State) (p : Nat) (ws : List Word) : State :=
  match selOf (fieldOf ws 2 15 0) with
  | none => s
  | some x =>
    if branchHolds (fieldOf ws 2 18 16) x.hub (s.selValue p x) (fieldOf ws 2 63 32) then
      let target := fieldOf ws 3 13 0
      ((s.setClu p { s.clu p with loops := loopsKept (s.clu p).loops target }).goto p target).signal p (selOf (hSignal ws))
    else s.finish p ws

def execBranchTally (p : Nat) (s : State) : Host.Outcome State Fault Refusal :=
  .next (s.control p 0x5A 0 fun s _ ws _ => s.effBranch p ws)

/-- CALL: a call level opened and the target taken (R156). -/
def State.effCall (s : State) (p : Nat) (ws : List Word) : State :=
  let c := s.clu p
  ((s.setClu p { c with calls := (s.pcOf p + 1) :: c.calls }).goto p (fieldOf ws 2 13 0)).signal p (selOf (hSignal ws))

def execCall (p : Nat) (s : State) : Host.Outcome State Fault Refusal :=
  .next (s.control p 0x5B 0 fun s _ ws _ => s.effCall p ws)

/-- RET: back behind the innermost CALL, with no loop opened since (R156, R248). -/
def State.effRet (s : State) (p : Nat) (ws : List Word) : State :=
  let c := s.clu p
  match c.calls with
  | [] => s
  | back :: rest => ((s.setClu p { c with calls := rest }).goto p back).signal p (selOf (hSignal ws))

def execRet (p : Nat) (s : State) : Host.Outcome State Fault Refusal :=
  .next (s.control p 0x5C 0 fun s _ ws _ => s.effRet p ws)

/-- STEP_END: the cluster reports to the dispatcher with its provisional flags, and READY is sent once every cluster of the step
has (R173, R248, R529). A signal of the STEP_END itself counts with it. PC stays at the STEP_END: no rule says what it shows then
(log entry 62). -/
def State.effStepEnd (s : State) (p : Nat) (t : Step) (ws : List Word) : State :=
  let c := s.clu p
  let s1 := s.setSeq p sqCommitting
  let s2 := match selOf (hSignal ws) with
    | none => s1
    | some x => if x.hub then s1.tallyStepAdd t.lead x.num 1 else s1.signal p (some x)
  match s2.stepOf t.lead with
  | none => s2
  | some t2 =>
    let t3 := { t2 with reported := t2.reported ++ [c.logical], flags := t2.flags ||| c.flags, sat := t2.sat + c.sat }
    let s3 := s2.putStep t3
    if t3.clusters.all t3.reported.contains then s3.sendReadies t.lead else s3

def execStepEnd (p : Nat) (s : State) : Host.Outcome State Fault Refusal :=
  .next (s.control p 0x5F 0 fun s t ws _ => s.effStepEnd p t ws)

/-! ## COLL_ENTER (R250) -/

/-- COLL_ENTER of one operation, once every earlier descriptor has completed. -/
def State.doCollEnter (s : State) (p v : Nat) : State :=
  s.control p 0x60 v fun s _ ws l => s.collEnter p ws l.1 l.2 (selOf (hSignal ws))

def execCollEnterAllReduce (p : Nat) (s : State) : Host.Outcome State Fault Refusal := .next (s.doCollEnter p 0)
def execCollEnterReduceScatter (p : Nat) (s : State) : Host.Outcome State Fault Refusal := .next (s.doCollEnter p 1)
def execCollEnterAllGather (p : Nat) (s : State) : Host.Outcome State Fault Refusal := .next (s.doCollEnter p 2)
def execCollEnterBroadcast (p : Nat) (s : State) : Host.Outcome State Fault Refusal := .next (s.doCollEnter p 3)
def execCollEnterPass (p : Nat) (s : State) : Host.Outcome State Fault Refusal := .next (s.doCollEnter p 4)

end Sys2Proof.Machine
end

