-- ==== Sys2Proof/Machine/Intake.lean ====
section
/-! DEFINITION. Intake lanes, the take into the pending store with its checks, credits, hub-tally writes, and the completion
rings (R328 to R342, R352 to R357, R368, R375, R892, R895). -/

namespace Sys2Proof.Machine

/-! ## Cells (R335, R336, R549) -/

def cellDefault (_ : Nat) : Option Byte := none
def zeroNat (_ : Nat) : Nat := 0

/-- The landed bytes of cell `c` of lane `l`. -/
def State.cellBytes (s : State) (l c : Nat) : List (Option Byte) := mread cellDefault s.disp.cells ((64 * l + c) * 256) 256

def State.cellAccepted (s : State) (l c : Nat) : Bool := (s.cellBytes l c).all Option.isSome
def State.cellEmpty (s : State) (l c : Nat) : Bool := (s.cellBytes l c).all Option.isNone

/-- A lane's TAKEN count, and its next head cell (R337). -/
def State.takenOf (s : State) (l : Nat) : Nat := mget zeroNat s.disp.taken l
def State.headCell (s : State) (l : Nat) : Nat := s.takenOf l % 64

/-- A cell emptied. -/
def State.emptyCell (s : State) (l c : Nat) : State :=
  { s with disp := { s.disp with cells := mclear s.disp.cells ((64 * l + c) * 256) 256
                                 cellSince := mclear s.disp.cellSince (64 * l + c) 1 } }

/-- Bytes landing in one cell from offset `o` of it: discarded and counted where the cell is accepted (R336, R338). -/
def State.landCell (s : State) (l c o : Nat) (data : List (Option Byte)) : State :=
  if !data.any Option.isSome then s
  else if s.cellAccepted l c then (s.addSat (F.DSP_LANE_STATUS_OVERRUN.at l) 1).raiseEvent 0x02 l c
  else
    let new := (s.cellBytes l c).zipIdx.map fun b =>
      if o ≤ b.2 then ((data.getD (b.2 - o) none).orElse fun _ => b.1) else b.1
    let since := if s.cellEmpty l c then mset zeroNat s.disp.cellSince (64 * l + c) (s.now + 1) else s.disp.cellSince
    let s1 : State := { s with disp := { s.disp with
      cells := mwrite cellDefault s.disp.cells ((64 * l + c) * 256) new, cellSince := since } }
    if s1.cellAccepted l c then s1.addSat (F.DSP_LANE_STATUS_ACCEPTED.at l) 1 else s1

/-- The part of a run of bytes at offset `o` that lies from `a` to `b`, with its start. -/
def clip {α : Type} (o a b : Nat) (data : List α) : Nat × List α :=
  let lo := max o a
  (lo, (data.drop (lo - o)).take (b - lo))

/-- A posted write to the intake window: each byte goes into its own cell, and bytes past the cells are discarded and counted
(R335, R549). In SEEDBED the write is discarded (R570); in DARK the cells take it, as they lie in the HOST domain (R53, R702). -/
def State.intakeBytes (s : State) (offset : Nat) (data : List (Option Byte)) : State :=
  if !s.hostReach || decide (s.devState = dsSeedbed) || decide (2 ^ 28 ≤ offset) then s
  else
    let l := offset / 2 ^ 24
    let o := offset % 2 ^ 24
    let cells := if data.isEmpty then 0 else (o + data.length + 255) / 256 - o / 256
    let s1 := (List.range cells).foldl (fun s i =>
      let c := o / 256 + i
      if c < 64 then
        let x := clip o (256 * c) (256 * c + 256) data
        s.landCell l c (x.1 - 256 * c) x.2
      else s) s
    if (data.drop (0x4000 - o)).any Option.isSome then s1.addSat (F.DSP_LANE_STATUS_STRAY.at l) 1 else s1

/-- INTAKE_WRITE: a write that fails ECRC is discarded and reported through AER (R559). -/
def State.doIntakeWrite (s : State) (offset : Nat) (data : HostData) : State :=
  match data with
  | none => if s.hostReach then s.aer 19 else s
  | some d => s.intakeBytes offset d

/-- What a read of the intake window of `n` bytes completes with: zeros, whatever the cells hold (R335, R549). No row of the table
carries such a read, and it changes nothing. -/
def State.intakeRead (_ : State) (_offset n : Nat) : Bytes := List.replicate n 0

def execIntakeWrite (offset : Nat) (data : HostData) (s : State) : Host.Outcome State Fault Refusal :=
  .next (s.doIntakeWrite offset data)

/-- LANE_STALL_TIMEOUT: the head cell has been partly written for 10 ms (R341). -/
def State.doLaneStallTimeout (s : State) (l : Nat) : State :=
  let c := s.headCell l
  if l < 16 ∧ s.cellEmpty l c = false ∧ s.cellAccepted l c = false ∧
      mget zeroNat s.disp.cellSince (64 * l + c) + 10000000 ≤ s.now + 1 then
    s.setFld (F.DSP_LANE_STATUS_STALLED.at l) 1
  else s

def execLaneStallTimeout (l : Nat) (s : State) : Host.Outcome State Fault Refusal := .next (s.doLaneStallTimeout l)

/-- The lane reset of R341: every untaken cell discarded, the flags and counts cleared, TAKEN unchanged. -/
def State.laneReset (s : State) (l : Nat) : State :=
  let s1 := (List.range 64).foldl (fun s c => s.emptyCell l c) s
  (((s1.setFld (F.DSP_LANE_STATUS_STALLED.at l) 0).setFld (F.DSP_LANE_STATUS_OVERRUN.at l) 0).setFld
    (F.DSP_LANE_STATUS_STRAY.at l) 0).setFld (F.DSP_LANE_STATUS_ACCEPTED.at l) 0

/-- LANE_RESET: a write of 1 to RESET, done at once. -/
def State.doLaneReset (s : State) (w : Agent) (l : Nat) : State :=
  if l < 16 then s.gate w blkDsp fun s => s.laneReset l else s

def execLaneReset (w : Agent) (l : Nat) (s : State) : Host.Outcome State Fault Refusal := .next (s.leased w fun s => s.doLaneReset w l)

/-! ## The checks at the take (R330, R333, R790, R892, R895) -/

def kiStep : Nat := 0x01
def kiOpen : Nat := 0x10
def kiTeardown : Nat := 0x11
def kiSetWindow : Nat := 0x12
def kiLoadKey : Nat := 0x13
def kiClearKey : Nat := 0x14
def kiSetAdapter : Nat := 0x15
def kiLoadImage : Nat := 0x16

/-- Fields of a management message (R333). -/
def mgTarget (ws : List Word) : Nat := fieldOf ws 1 15 0
def mgSet (ws : List Word) : Nat := fieldOf ws 1 27 16
def mgIndex (ws : List Word) : Nat := fieldOf ws 1 31 28
def mgTenant (ws : List Word) : Nat := fieldOf ws 1 47 32

/-- Are all of these fields zero? -/
def allZero (ws : List Word) (fs : List (Nat × Nat × Nat)) : Bool := fs.all fun f => decide (fieldOf ws f.1 f.2.1 f.2.2 = 0)

/-- Whole words from `a` to `b`. -/
def wordFields (a b : Nat) : List (Nat × Nat × Nat) := (List.range (b + 1 - a)).map fun i => (a + i, 63, 0)

/-- Does a KIND or VERSION hold a reserved encoding (R328, R895)? -/
def msgReserved (ws : List Word) : Bool :=
  !(decide (msgKind ws = kiStep) || (decide (kiOpen ≤ msgKind ws) && decide (msgKind ws ≤ kiLoadImage))) ||
    decide (msgVersion ws ≠ 1)

/-- The members of a STEP message. -/
def msgMemberList (ws : List Word) : List Nat := (List.range (msgMembers ws)).map (msgMember ws)

/-- Is a STEP message well formed (R329, R330)? -/
def stepFormed (ws : List Word) : Bool :=
  allZero ws ([(1, 31, 28), (1, 23, 22), (1, 15, 14)] ++ wordFields 4 7) && decide (msgShift ws ≤ 8) &&
    decide (msgMember ws 0 = msgContext ws) && !(msgMemberList ws).contains 0 && decide (msgMemberList ws).Nodup &&
    ((List.range 64).all fun m => decide (m < msgMembers ws) || decide (msgMember ws m = 0))

/-- Is the slot image of an OPEN well formed (R308, R323; log entry 24)? -/
def slotFormed (ws : List Word) : Bool :=
  allZero ws ([(8, 47, 36), (8, 31, 30), (8, 23, 19), (8, 15, 0), (9, 63, 62), (9, 47, 46), (9, 30, 28), (11, 63, 32),
    (13, 62, 60), (13, 30, 28), (14, 62, 60), (14, 30, 28), (15, 31, 22)] ++ wordFields 16 31) &&
    decide (fieldOf ws 8 63 48 ≠ 0) && decide (fieldOf ws 9 61 48 ≤ 8192) &&
    (decide (fieldOf ws 9 31 31 = 1) || decide (fieldOf ws 9 15 0 = 0))

/-- Is the window entry of a SET_WINDOW well formed (R314, R892)? -/
def windowFormed (ws : List Word) : Bool :=
  let kind := fieldOf ws 8 62 61
  allZero ws ([(8, 58, 56), (10, 63, 58), (10, 35, 16), (11, 47, 0)] ++ wordFields 12 31) &&
    (if fieldOf ws 8 63 63 = 0 then allZero ws (wordFields 8 10)
     else decide (kind ≠ 3) && decide (fieldOf ws 8 55 0 % 64 = 0) && decide (fieldOf ws 9 63 0 % 64 = 0) &&
      (decide (kind = 0) || allZero ws [(8, 60, 59)]) &&
      (if kind = 2 then allZero ws [(8, 55, 0), (9, 63, 0)] else allZero ws [(10, 63, 0)]))

/-- Is the wrapped key of a LOAD_KEY well formed (R790)? -/
def wrapFormed (ws : List Word) : Bool :=
  decide (fieldOf ws 8 15 0 = 1) && decide (fieldOf ws 8 23 16 ≤ 15) &&
    allZero ws ([(8, 63, 24), (9, 63, 0)] ++ wordFields 20 31)

/-- Is the descriptor of a LOAD_IMAGE well formed (R325; log entry 24)? -/
def imageFormed (ws : List Word) : Bool :=
  let n := fieldOf ws 8 35 33
  allZero ws ([(8, 63, 36), (9, 63, 48)] ++ wordFields 14 31) && decide (1 ≤ n) && decide (n ≤ 4) &&
    decide (1 ≤ fieldOf ws 8 32 24) && decide (fieldOf ws 8 32 24 ≤ 256) && decide (fieldOf ws 9 47 0 % 64 = 0) &&
    (List.range 4).all fun k =>
      allZero ws [(10 + k, 31, 25)] &&
      (if k < n then decide (fieldOf ws (10 + k) 24 0 % 64 = 0) && decide (fieldOf ws (10 + k) 63 32 % 64 = 0) &&
          decide (64 ≤ fieldOf ws (10 + k) 63 32) && decide (fieldOf ws (10 + k) 63 32 ≤ 33554432)
       else allZero ws [(10 + k, 63, 0)])

/-- Is a management message well formed: zero where its kind uses nothing (R333)? -/
def mgmtFormed (ws : List Word) : Bool :=
  let k := msgKind ws
  let noTarget := [(1, 15, 0)]
  let noSet := [(1, 27, 16)]
  let noIndex := [(1, 31, 28)]
  let noTenant := [(1, 47, 32)]
  allZero ws ([(0, 63, 16), (1, 63, 48)] ++ wordFields 4 7) &&
    (if k = kiOpen then allZero ws (noSet ++ noIndex ++ noTenant) && slotFormed ws
     else if k = kiSetWindow then allZero ws (noTarget ++ noTenant) && windowFormed ws
     else if k = kiLoadKey then allZero ws (noSet ++ noIndex) && wrapFormed ws
     else if k = kiSetAdapter then allZero ws (noSet ++ noTenant ++ [(8, 63, 32), (8, 30, 28)] ++ wordFields 9 31) &&
      decide (mgIndex ws ≤ 3)
     else if k = kiLoadImage then allZero ws (noTarget ++ noSet ++ noTenant) && imageFormed ws
     else allZero ws (noSet ++ noIndex ++ noTenant ++ wordFields 8 31))

/-- Is a message well formed (R330)? -/
def msgFormed (ws : List Word) : Bool :=
  !msgReserved ws && (if msgKind ws = kiStep then stepFormed ws else mgmtFormed ws)

/-! ## Records of messages that did not run (R353, R355, R895) -/

/-- What CONTEXT of a management record names. -/
def mgmtSubject (ws : List Word) : Nat :=
  if msgKind ws = kiSetWindow then mgSet ws else if msgKind ws = kiLoadImage then mgIndex ws else mgTarget ws

/-- The record of a message that ends without a step having run. -/
def State.endRecord (s : State) (ws : List Word) (status aux : Nat) : List Word :=
  let f : FailInfo := { status := status, aux := aux }
  let ud := [wordAt ws 2, wordAt ws 3]
  if msgReserved ws then recordWords (msgContext ws) 0 0 (msgKind ws) 0 status 0 (msgSeq ws) s.stepClock f 0 0 0 ud
  else if msgKind ws = kiStep then
    recordWords (msgContext ws) (s.ctx (msgContext ws) cfGen) 0 kiStep 0 status (msgUserTag ws) (msgSeq ws) s.stepClock f 0 0 0 ud
  else
    let gen := if msgKind ws = kiOpen ∨ msgKind ws = kiTeardown then s.ctx (mgTarget ws) cfGen else 0
    recordWords (mgmtSubject ws) gen 0 (msgKind ws) 0 status 0 (msgSeq ws) s.stepClock f 0 0 0 ud

/-- The ring that a message's record goes to. -/
def State.ringOf (s : State) (ws : List Word) : Nat :=
  let c := msgContext ws
  if msgReserved ws ∨ msgKind ws ≠ kiStep ∨ c = 0 ∨ s.ctx c cfState = ctxFree then s.mgmtRing else s.ctx c cfCring

/-- A message ends without running. -/
def State.endMsg (s : State) (ws : List Word) (status aux : Nat) : State :=
  s.postRecord (s.ringOf ws) (s.endRecord ws status aux)

/-! ## The take (R337, R340, R342) -/

/-- Does taking run: READY, SERVING or DRAINING, in FULL or TRIM (R342)? -/
def State.taking (s : State) : Bool := s.inService && decide (s.powState ≤ psTrim)

/-- Can a step in flight reach a window set (R319)? -/
def State.setInFlight (s : State) (n : Nat) : Bool :=
  s.disp.steps.any fun t => t.members.any fun c => decide (s.ctx c cfWset = n)

/-- Is a context in a step in flight? -/
def State.ctxInFlight (s : State) (c : Nat) : Bool := s.disp.steps.any fun t => t.members.contains c

/-- Does a SET_WINDOW or SET_ADAPTER find a step in flight that can reach what it changes (R319)? -/
def State.findsStep (s : State) (ws : List Word) : Bool :=
  (decide (msgKind ws = kiSetWindow) && s.setInFlight (mgSet ws)) ||
    (decide (msgKind ws = kiSetAdapter) && s.ctxInFlight (mgTarget ws))

/-- The messages that find a step in flight marked: later steps wait for them (R319). -/
def State.noteFound (s : State) : State :=
  { s with disp := { s.disp with pend := s.disp.pend.map fun m => if s.findsStep m.words then { m with found := true } else m } }

/-- The instant that decides a teardown is its take (R310, R362): the context that it names is CLOSING from then on, so that no step
of it commits later. A TEARDOWN behind another one of its context that has not run begins nothing. -/
def State.takeTeardown (s : State) (num : Nat) (ws : List Word) : State :=
  let c := mgTarget ws
  if msgKind ws = kiTeardown ∧ c ≠ 0 ∧ s.ctxUsable c = true ∧
      (s.disp.pend.any fun m => decide (m.num ≠ num) && decide (msgKind m.words = kiTeardown) && decide (mgTarget m.words = c)) =
        false then
    ({ s with disp := { s.disp with
      pend := s.disp.pend.map fun m => if m.num = num then { m with began := true } else m } } : State).setCtx c cfState ctxClosing
  else s

/-- A message that passes the checks of its take enters the pending store. -/
def State.pended (s : State) (num : Nat) (ws : List Word) : State :=
  (({ s with disp := { s.disp with pend := s.disp.pend ++ [{ num := num, words := ws }] } } : State).takeTeardown num ws).noteFound

/-- A failed step's counters: FAILED_STEPS of every context that took part (R308; log entry 25). -/
def State.countFailed (s : State) (cs : List Nat) : State :=
  cs.foldl (fun (s : State) c => s.setCtx c cfFailed ((s.ctx c cfFailed + 1) % 2 ^ 32)) s

/-- A STEP message ends without having run: it counts in its lead's FAILED_STEPS, where the lead holds a context (R308). -/
def State.endStepMsg (s : State) (ws : List Word) (status aux : Nat) : State :=
  let c := msgContext ws
  (if c = 0 ∨ s.ctx c cfState = ctxFree then s else s.countFailed [c]).endMsg ws status aux

/-- TAKE: the head cell of a lane into the pending store, with its checks; a credit falls due (R330, R337, R339, R340). -/
def State.doTake (s : State) (l : Nat) : State :=
  let c := s.headCell l
  if l < 16 ∧ s.taking = true ∧ s.fld (F.DSP_LANE_CFG_ENABLE.at l) = 1 ∧ s.disp.pend.length < 4096 ∧
      s.cellAccepted l c = true then
    let ws := wordsOfBytes 32 ((s.cellBytes l c).map fun b => b.getD 0)
    let n := (s.takenOf l + 1) % 2 ^ 64
    let s1 := s.emptyCell l c
    let s2 : State := { s1 with disp := { s1.disp with
      taken := mset zeroNat s1.disp.taken l n
      nextNum := s1.disp.nextNum + 1
      creditDue := if s1.disp.creditDue.contains l then s1.disp.creditDue else s1.disp.creditDue ++ [l] } }
    let s3 := (s2.setFld (F.DSP_LANE_STATUS_TAKEN.at l) n).setFld (F.DSP_LANE_STATUS_ACCEPTED.at l)
      (s2.fld (F.DSP_LANE_STATUS_ACCEPTED.at l) - 1)
    if msgFormed ws then s3.pended s.disp.nextNum ws
    else if !msgReserved ws && decide (msgKind ws = kiStep) then s3.endStepMsg ws stMalformed 0
    else s3.endMsg ws stMalformed 0
  else s

def execTake (l : Nat) (s : State) : Host.Outcome State Fault Refusal := .next (s.doTake l)

/-- CREDIT_WRITE: the lane's TAKEN count written to the host (R339), deferred while host traffic is stopped (R560). -/
def State.doCreditWrite (s : State) (l : Nat) : State :=
  if s.disp.creditDue.contains l && !s.hostStopped then
    ({ s with disp := { s.disp with creditDue := s.disp.creditDue.filter fun k => decide (k ≠ l) } } : State).postWrite
      (s.fld (F.DSP_LANE_CREDIT_ADDR_ADDR.at l) * 8) (bytesOfNat 8 (s.takenOf l)) false (.credit l)
  else s

def execCreditWrite (l : Nat) (s : State) : Host.Outcome State Fault Refusal := .next (s.doCreditWrite l)

/-! ## Tallies and the peek registers (R368, R375) -/

/-- CTX_PEEK_SEL_WRITE: the sixteen words of the slot latched. -/
def State.doCtxPeekSelWrite (s : State) (w : Agent) (v : Word) : State :=
  s.gate w blkCtx fun s =>
    let c := bitsOf v 15 0
    (List.range 16).foldl (fun (s : State) i => s.setReg (F.CTX_PEEK_DATA_WORD.at i).reg (s.slotWord c i))
      (s.setFld F.CTX_PEEK_SEL_CONTEXT c)

def execCtxPeekSelWrite (w : Agent) (value : Word) (s : State) : Host.Outcome State Fault Refusal :=
  .next (s.leased w fun s => s.doCtxPeekSelWrite w value)

/-- TLY_ADD: an addition from outside any step (R348, R375). -/
def State.doTlyAdd (s : State) (w : Agent) (n : Nat) (v : Word) : State :=
  if n < 16384 then s.gate w blkTly fun s => s.tallyAdd n v else s

def execTlyAdd (w : Agent) (n : Nat) (value : Word) (s : State) : Host.Outcome State Fault Refusal := .next (s.leased w fun s => s.doTlyAdd w n value)

/-! ## Completion rings (R352 to R357, R568) -/

/-- The entries of a ring. -/
def State.ringSize (s : State) (r : Nat) : Nat :=
  let k := s.fld (F.DSP_CRING_CFG_SIZE_LOG2.at r)
  2 ^ (if k = 0 then 16 else k)

/-- Records of ring `r` in order, and how many are on the link. -/
def State.ringRecords (s : State) (r : Nat) : List Record := s.disp.records.filter fun x => decide (x.ring = r)
def State.ringFlying (s : State) (r : Nat) : Nat := ((s.ringRecords r).filter (·.sent)).length

/-- Entries between the tail and the head, modulo 2^32. -/
def State.ringUsed (s : State) (r : Nat) : Nat :=
  (s.fld (F.DSP_CRING_TAIL_TAIL.at r) + 2 ^ 32 - s.fld (F.DSP_CRING_HEAD_HEAD.at r)) % 2 ^ 32

/-- May one more record be written to ring `r` now (R356, R560, R567)? -/
def State.ringOpen (s : State) (r : Nat) : Bool :=
  decide (s.fld (F.DSP_CRING_CFG_ENABLE.at r) = 1) && !s.hostStopped && decide (s.ringUsed r + s.ringFlying r < s.ringSize r)

/-- Has a ring a free entry for a step's record (R343), records not yet written counted? -/
def State.ringFree (s : State) (r : Nat) : Bool :=
  decide (s.fld (F.DSP_CRING_CFG_ENABLE.at r) = 1) && !s.hostStopped &&
    decide (s.ringUsed r + (s.ringRecords r).length < s.ringSize r)

/-- The first record of ring `r` not yet on the link marked as sent. -/
def markSent (r : Nat) : List Record → List Record
  | [] => []
  | x :: xs => if x.ring = r ∧ x.sent = false then { x with sent := true, acks := 2 } :: xs else x :: markSent r xs

/-- A ring's unsignalled records counted, and its vector raised at COALESCE_COUNT (R357). -/
def State.noteUnsig (s : State) (r : Nat) : State :=
  let u := mget (fun _ => {}) s.disp.unsig r
  let n := u.count + 1
  let put (s : State) (x : Unsig) : State := { s with disp := { s.disp with unsig := mset (fun _ => {}) s.disp.unsig r x } }
  if max 1 (s.fld (F.DSP_CRING_CFG_COALESCE_COUNT.at r)) ≤ n then
    (put s {}).raiseVector (s.fld (F.DSP_CRING_CFG_VECTOR.at r))
  else put s { count := n, oldest := if u.count = 0 then s.now else u.oldest }

/-- COMPLETION_RECORD_WRITE: words 1 to 7 in one posted write, then word 0 with its PHASE in a second (R352 to R357). -/
def State.doCompletionRecordWrite (s : State) (r : Nat) : State :=
  if s.hubOn && s.ringOpen r then
    match (s.ringRecords r).find? fun x => !x.sent with
    | none => s
    | some x =>
      let pos := (s.fld (F.DSP_CRING_TAIL_TAIL.at r) + s.ringFlying r) % 2 ^ 32
      let addr := s.fld (F.DSP_CRING_BASE_ADDR.at r) * 64 + 64 * (pos % s.ringSize r)
      let phase := if pos / s.ringSize r % 2 = 0 then 1 else 0
      let w0 := fieldPut (wordAt x.words 0) 0 0 phase
      let s1 : State := { s with disp := { s.disp with records := markSent r s.disp.records } }
      ((s1.postWrite (addr + 8) (bytesOfWords (x.words.drop 1)) false (.record r)).postWrite addr (bytesOfWords [w0]) false
        (.record r)).noteUnsig r
  else s

def execCompletionRecordWrite (r : Nat) (s : State) : Host.Outcome State Fault Refusal := .next (s.doCompletionRecordWrite r)

/-- COALESCE_TIMEOUT: the ring's vector is raised COALESCE_US after its oldest unsignalled record (R357). -/
def State.doCoalesceTimeout (s : State) (r : Nat) : State :=
  let u := mget (fun _ => {}) s.disp.unsig r
  if r < 64 ∧ 0 < u.count ∧ u.oldest + 1000 * s.fld (F.DSP_CRING_CFG_COALESCE_US.at r) ≤ s.now then
    ({ s with disp := { s.disp with unsig := mset (fun _ => {}) s.disp.unsig r {} } } : State).raiseVector
      (s.fld (F.DSP_CRING_CFG_VECTOR.at r))
  else s

def execCoalesceTimeout (r : Nat) (s : State) : Host.Outcome State Fault Refusal := .next (s.doCoalesceTimeout r)

/-- MSIX_PENDING_SEND: one message for a pending vector that can send again (R564). -/
def State.doMsixPendingSend (s : State) (v : Nat) : State :=
  if v < 2048 ∧ (s.reg (pbaReg v)).getLsbD (v % 64) = true ∧ s.vectorOpen v = true then
    (s.setReg (pbaReg v) (s.reg (pbaReg v) &&& ~~~ BitVec.ofNat 64 (2 ^ (v % 64)))).sendVector v
  else s

def execMsixPendingSend (v : Nat) (s : State) : Host.Outcome State Fault Refusal := .next (s.doMsixPendingSend v)

/-- CRING_HEAD_WRITE: the host's consumer count of a ring (R356, R374). -/
def State.doCringHeadWrite (s : State) (w : Agent) (r : Nat) (head : BitVec 32) : State :=
  if r < 64 then s.gate w blkDsp fun s => s.setFld (F.DSP_CRING_HEAD_HEAD.at r) head.toNat else s

def execCringHeadWrite (w : Agent) (r : Nat) (head : BitVec 32) (s : State) : Host.Outcome State Fault Refusal :=
  .next (s.leased w fun s => s.doCringHeadWrite w r head)

end Sys2Proof.Machine
end

