-- ==== Sys2Proof/Machine/Contexts.lean ====
section
/-! DEFINITION. Management messages: contexts, window sets, keys, adapters, images and teardown (R308 to R327, R333, R334,
R358 to R364, R789, R790, R893, R894, R896). -/

namespace Sys2Proof.Machine

/-! ## Bookkeeping of the context table (R311, R367, R617, R893) -/

/-- OPEN_COUNT, and READY or SERVING with it; DRAINING ends when no context is left. -/
def State.showContexts (s : State) : State :=
  let n := s.openCtxs.length
  let s1 := s.setFld F.CTX_STATS_OPEN_COUNT n
  if s.devState = dsReady ∧ n ≠ 0 then s1.setDev orHw dsServing
  else if (s.devState = dsServing ∨ s.devState = dsDraining) ∧ n = 0 then s1.setDev orHw dsReady
  else s1

/-- Does a window set hold a valid window, or does a context that is not FREE name it? -/
def State.setHeld (s : State) (n : Nat) : Bool :=
  ((List.range 16).any fun w => decide (s.winFld n w 0 63 63 = 1)) ||
    (s.openCtxs.any fun c => !s.disp.revoked.contains c && decide (s.ctx c cfWset = n))

def State.putSetTenant (s : State) (n t : Nat) : State :=
  { s with disp := { s.disp with setTenant := mset zeroNat s.disp.setTenant n t } }

/-- A set with neither holds no tenant. -/
def State.settleSet (s : State) (n : Nat) : State := if s.setHeld n then s else s.putSetTenant n 0

/-- References to a key slot (R321). -/
def State.keyRefs (s : State) (n : Nat) : Nat := mget zeroNat s.disp.keyRefs n
def State.setKeyRefs (s : State) (n v : Nat) : State :=
  { s with disp := { s.disp with keyRefs := mset zeroNat s.disp.keyRefs n v } }

/-! ## Change-log entries of the context table (R838 classes 0x09 to 0x0B; log entry 30) -/

/-- A key slot changed: TENANT and key generation, before and after. -/
def State.logKey (s : State) (origin n : Nat) (old : KeySlot) : State :=
  let v (k : KeySlot) : Bytes := bytesOfNat 2 k.tenant ++ bytesOfNat 10 k.kgen
  s.logChange origin 0x09 n (v old) (v (s.keySlot n))

/-- The index and the 32-byte entry of a window. -/
def State.windowBytes (s : State) (n w : Nat) : Bytes :=
  bytesOfNat 1 w ++ (List.range 4).flatMap fun k => bytesOfNat 8 (s.winWord n w k).toNat

/-- The digest of an image's descriptor with its state. -/
def State.imageDigest (s : State) (i : Nat) : Bytes :=
  logDigest ((List.range 7).flatMap (fun k => bytesOfNat 8 (s.imageWord i k).toNat) ++ bytesOfNat 1 (s.imageState i))

/-- An image's change entered in the change log, from its digest before. -/
def State.logImage (s : State) (origin i : Nat) (old : Bytes) : State := s.logChange origin 0x0B i old (s.imageDigest i)

/-! ## The order of management messages (R319, R326, R334) -/

/-- What a message is alone on: a context, a key slot, a set or an image. -/
def mgmtKey (ws : List Word) : Nat × Nat :=
  let k := msgKind ws
  if k = kiSetWindow then (2, mgSet ws)
  else if k = kiLoadImage then (3, mgIndex ws)
  else if k = kiLoadKey ∨ k = kiClearKey then (1, mgTarget ws)
  else (0, mgTarget ws)

/-- What the running messages are alone on. -/
def State.runningKeys (s : State) : List (Nat × Nat) :=
  s.disp.teardowns.map (fun t => (0, t.ctx)) ++ s.disp.loading.map (fun l => (3, l.image))

/-- The management messages of the pending store. -/
def State.pendMgmt (s : State) : List Pend := s.disp.pend.filter fun m => decide (msgKind m.words ≠ kiStep)

/-- Is a message behind another one on the same thing? -/
def State.mgmtBlocked (s : State) (m : Pend) : Bool :=
  s.runningKeys.contains (mgmtKey m.words) ||
    s.pendMgmt.any fun e => decide (e.num < m.num) && decide (mgmtKey e.words = mgmtKey m.words)

/-- The logical clusters that a LOAD_IMAGE names. -/
def imageSpan (ws : List Word) : List Nat := (List.range (fieldOf ws 8 32 24)).map fun j => fieldOf ws 8 23 16 + j

/-! ### The checks of LOAD_IMAGE (R325, R366) -/

/-- The regions that a LOAD_IMAGE names: slice offset and length. -/
def imageRuns (ws : List Word) : List (Nat × Nat) :=
  (List.range (fieldOf ws 8 35 33)).map fun k => (fieldOf ws (10 + k) 24 0, fieldOf ws (10 + k) 63 32)

/-- Do two regions of a list overlap? -/
def runsOverlap : List (Nat × Nat) → Bool
  | [] => false
  | r :: rs => (rs.any fun q => runsMeet r.1 r.2 q.1 q.2) || runsOverlap rs

/-- The master range of a LOAD_IMAGE: its start and its length. -/
def State.masterRange (s : State) (ws : List Word) : Nat × Nat :=
  (s.winFld (fieldOf ws 8 11 0) (fieldOf ws 8 15 12) 0 55 0,
   (fieldOf ws 8 32 24 - 1) * fieldOf ws 9 47 0 + (imageRuns ws).foldl (fun a r => a + r.2) 0)

/-- The detail with which a LOAD_IMAGE is refused, if any. -/
def State.imageDetail (s : State) (ws : List Word) : Option Nat :=
  let set := fieldOf ws 8 11 0
  let win := fieldOf ws 8 15 12
  let m := s.masterRange ws
  firstFail
    [(decide (s.devState ≠ dsDraining) && decide (s.lifecycle ≠ 4), 9),
     (decide (fieldOf ws 8 23 16 + fieldOf ws 8 32 24 ≤ 256), 2),
     ((imageRuns ws).all fun r => decide (r.1 + r.2 ≤ sliceBytes), 2),
     (!runsOverlap (imageRuns ws), 2),
     (decide ((imageRuns ws).foldl (fun a r => a + r.2) 0 ≤ fieldOf ws 9 47 0), 2),
     (decide (s.winFld set win 0 63 63 = 1) && decide (s.winFld set win 0 62 61 = wkTier) &&
       decide (s.winFld set win 0 59 59 = 0), 2),
     (decide (m.1 + s.winFld set win 1 63 0 ≤ 2 ^ 40), 2),
     (decide (m.2 ≤ s.winFld set win 1 63 0) && s.tierOk (m.1, s.winFld set win 1 63 0) m.1 m.2, 2)]

/-- The detail with which a SET_ADAPTER is refused, if any (R363). -/
def State.adapterDetail (s : State) (ws : List Word) : Option Nat :=
  firstFail [(decide (mgTarget ws ≠ 0), 2), (s.ctxUsable (mgTarget ws), 1)]

/-- Does a message find a step in flight that it must wait for (R319, R326)? -/
def State.mgmtWaits (s : State) (ws : List Word) : Bool :=
  let k := msgKind ws
  if k = kiSetWindow then s.findsStep ws
  else if k = kiSetAdapter then (s.adapterDetail ws).isNone && s.findsStep ws
  else if k = kiLoadImage then
    (s.imageDetail ws).isNone && s.disp.steps.any fun t => t.clusters.any (imageSpan ws).contains
  else false

/-- May message `num` of a kind run now: its turn has come, and fewer than sixteen are before it (R334, R342)? -/
def State.mgmtTurn (s : State) (num kind : Nat) : Option (List Word) :=
  match s.disp.pend.find? fun m => decide (m.num = num) && decide (msgKind m.words = kind) with
  | none => none
  | some m =>
    let before := s.pendMgmt.filter fun e => decide (e.num < num)
    if s.taking && !s.mgmtBlocked m && !s.mgmtWaits m.words &&
        decide (before.length + s.runningKeys.length < 16) &&
        before.all (fun e => s.mgmtBlocked e || s.mgmtWaits e.words) then some m.words
    else none

def State.unpend (s : State) (num : Nat) : State :=
  { s with disp := { s.disp with pend := s.disp.pend.filter fun m => decide (m.num ≠ num) } }

/-- The key slot that OPEN and LOAD_KEY read, which is zeroed where it is uncorrectable (R300). -/
def State.readKeys (s : State) (ws : List Word) : State :=
  if msgKind ws = kiOpen ∧ fieldOf ws 9 31 31 = 1 then s.checkKey (fieldOf ws 9 15 0)
  else if msgKind ws = kiLoadKey then s.checkKey (0xFFF0 + fieldOf ws 8 23 16)
  else s

/-- A management message run: refused with a detail, or done. -/
def State.manage (s : State) (num kind : Nat) (check : State → List Word → Option Nat) (f : State → List Word → State) : State :=
  match s.mgmtTurn num kind with
  | none => s
  | some ws =>
    let s1 := (s.unpend num).readKeys ws
    match check s1 ws with
    | some d => s1.endMsg ws stRefused d
    | none => f s1 ws

/-! ## OPEN (R308 to R312, R321, R322, R894) -/

/-- Does a tally grant overlap that of a context of another tenant (R312)? -/
def State.grantMeets (s : State) (tenant base count : Nat) : Bool :=
  s.openCtxs.any fun c => decide (s.ctx c cfTenant ≠ tenant) && decide (0 < s.ctx c cfTallyCount) && runsMeet base count (s.ctx c cfTallyBase) (s.ctx c cfTallyCount)

/-- The checks of OPEN in their order. -/
def State.openDetail (s : State) (ws : List Word) : Option Nat :=
  let tenant := fieldOf ws 8 63 48
  let keyEn := decide (fieldOf ws 9 31 31 = 1)
  let slot := fieldOf ws 9 15 0
  let base := fieldOf ws 9 45 32
  let count := fieldOf ws 9 61 48
  let t := s.setTenantOf (fieldOf ws 9 27 16)
  firstFail
    [(decide (s.devState ≠ dsDraining) && decide (s.lifecycle ≠ 4), 9),
     (decide (mgTarget ws ≠ 0) && !(keyEn && decide (0xFFF0 ≤ slot)), 2),
     (decide (s.ctx (mgTarget ws) cfState = ctxFree), 1),
     (decide (base + count ≤ 16384), 6),
     (decide (s.fld (F.DSP_CRING_CFG_ENABLE.at (fieldOf ws 8 29 24)) = 1), 7),
     (!keyEn || decide (s.lifecycle = 1) || decide (s.lifecycle = 2), 5),
     (decide (t = 0) || decide (t = tenant), 3),
     (!keyEn || (!(s.keySlot slot).bytes.isEmpty && decide ((s.keySlot slot).tenant = tenant)), 3),
     (decide (count = 0) || !s.grantMeets tenant base count, 3)]

/-- OPEN: the host's fields into the slot, the device's fields kept or cleared. -/
def State.openSlot (s : State) (ws : List Word) : State :=
  let c := mgTarget ws
  let gen := s.ctx c cfGen
  let s1 := (List.range 16).foldl (fun (s : State) i => s.setSlotWord c i (wordAt ws (8 + i))) s
  let s2 := (s1.setCtx c cfGen gen).setCtx c cfState ctxOpen
  let s3 : State := { s2 with disp := { s2.disp with revoked := s2.disp.revoked.filter fun x => decide (x ≠ c) } }
  let s4 := if s3.ctx c cfKeyEn = 1 then s3.setKeyRefs (s3.ctx c cfKeySlot) (s3.keyRefs (s3.ctx c cfKeySlot) + 1) else s3
  ((s4.putSetTenant (s4.ctx c cfWset) (s4.ctx c cfTenant)).endMsg ws stOk 0).showContexts

def State.doOpen (s : State) (num : Nat) : State := s.manage num kiOpen State.openDetail State.openSlot

def execOpenCtx (num : Nat) (s : State) : Host.Outcome State Fault Refusal := .next (s.doOpen num)

/-! ## SET_WINDOW, SET_ADAPTER (R319, R323, R363, R893) -/

/-- A SET_WINDOW that names another tenant than the set holds is refused. -/
def State.windowDetail (s : State) (ws : List Word) : Option Nat :=
  let t := s.setTenantOf (mgSet ws)
  firstFail [(decide (t = 0) || decide (t = fieldOf ws 11 63 48), 3)]

/-- The entry written, or cleared. -/
def State.putWindow (s : State) (ws : List Word) : State :=
  let n := mgSet ws
  let w := mgIndex ws
  let put (s : State) (k : Nat) : State :=
    { s with disp := { s.disp with windows := mset zeroWord s.disp.windows (Sys2Proof.Machine.winKey n w k) (wordAt ws (8 + k)) } }
  let s1 := put (put (put s 0) 1) 2
  let s2 := (s1.putSetTenant n (fieldOf ws 11 63 48)).settleSet n
  (s2.logChange orHost 0x0A n (logDigest (s.windowBytes n w)) (logDigest (s2.windowBytes n w))).endMsg ws stOk 0

def State.doSetWindow (s : State) (num : Nat) : State := s.manage num kiSetWindow State.windowDetail State.putWindow

def execSetWindow (num : Nat) (s : State) : Host.Outcome State Fault Refusal := .next (s.doSetWindow num)

def State.doSetAdapter (s : State) (num : Nat) : State :=
  s.manage num kiSetAdapter State.adapterDetail fun s ws =>
    (s.setCtx (mgTarget ws) (cfAdapter (mgIndex ws)) (fieldOf ws 8 31 0)).endMsg ws stOk 0

def execSetAdapter (num : Nat) (s : State) : Host.Outcome State Fault Refusal := .next (s.doSetAdapter num)

/-! ## Keys (R320 to R322, R789, R790) -/

/-- The default initial value of AES key wrap (NIST SP 800-38F). -/
def wrapIv : List Nat := List.replicate 8 0xA6

/-- The unwrapped key of a LOAD_KEY: data key and tweak key, TENANT and KGEN; none for each case of detail WRAP. -/
def State.unwrapped (s : State) (ws : List Word) : Option KeySlot :=
  let kt := s.keySlot (0xFFF0 + fieldOf ws 8 23 16)
  let body := bytesOfWords ((ws.drop 8).take 24)
  if kt.bytes.isEmpty then none
  else
    match keyUnwrap (kt.bytes.take 32) ((body.drop 16).take 80) wrapIv with
    | none => none
    | some b =>
      let tenant := natOfBytes ((b.drop 64).take 2)
      if tenant ≠ mgTenant ws ∨ b.take 32 = (b.drop 32).take 32 then none
      else some { bytes := b.take 64, tenant := tenant, kgen := natOfBytes ((b.drop 66).take 2) % 4096 }

/-- The checks of LOAD_KEY before the unwrap; the key loader is closed while a wipe runs (R304). -/
def State.loadKeyDetail (s : State) (ws : List Word) : Option Nat :=
  firstFail
    [(decide (mgTarget ws < 0xFFF0), 2),
     (decide (s.lifecycle = 1) || decide (s.lifecycle = 2), 5),
     (decide (s.keyRefs (mgTarget ws) = 0), 4),
     (decide (s.fld F.SEC_CF_STATUS_WIPE_BUSY = 0), 8),
     ((s.unwrapped ws).isSome, 8)]

def State.doLoadKey (s : State) (num : Nat) : State :=
  s.manage num kiLoadKey State.loadKeyDetail fun s ws =>
    ((s.setKeySlot (mgTarget ws) ((s.unwrapped ws).getD {})).logKey orHost (mgTarget ws) (s.keySlot (mgTarget ws))).endMsg
      ws stOk 0

def execLoadKey (num : Nat) (s : State) : Host.Outcome State Fault Refusal := .next (s.doLoadKey num)

def State.clearKeyDetail (s : State) (ws : List Word) : Option Nat :=
  firstFail [(decide (mgTarget ws < 0xFFF0), 2), (decide (s.keyRefs (mgTarget ws) = 0), 4)]

def State.doClearKey (s : State) (num : Nat) : State :=
  s.manage num kiClearKey State.clearKeyDetail fun s ws =>
    ((s.setKeySlot (mgTarget ws) {}).logKey orHost (mgTarget ws) (s.keySlot (mgTarget ws))).endMsg ws stOk 0

def execClearKey (num : Nat) (s : State) : Host.Outcome State Fault Refusal := .next (s.doClearKey num)

/-! ## LOAD_IMAGE (R324 to R327, R896) -/

def State.setImageState (s : State) (i v : Nat) : State := s.setFld (F.CTX_IMAGE_STATE.at i) v

/-- Does LOADED image `j` have a region that meets one of a LOAD_IMAGE on a shared cluster? -/
def State.imageMeets (s : State) (j : Nat) (ws : List Word) : Bool :=
  decide (s.imageState j = imgLoaded) && ((s.imageClusters j).any (imageSpan ws).contains) &&
    (s.imageRegions j).any fun r => (imageRuns ws).any fun q => runsMeet r.1 r.2.1 q.1 q.2

/-- The image LOADING, images it overlaps EMPTY. -/
def State.startImage (s : State) (ws : List Word) : State :=
  let i := mgIndex ws
  let s1 := (List.range 16).foldl (fun (s : State) j =>
    if j ≠ i ∧ s.imageMeets j ws = true then (s.setImageState j imgEmpty).logImage orHw j (s.imageDigest j) else s) s
  let s2 := (List.range 7).foldl (fun (s : State) k =>
    { s with disp := { s.disp with images := mset zeroWord s.disp.images (8 * i + k) (wordAt ws (8 + k)) } }) s1
  let s3 := ((s2.setImageState i imgLoading).setFld (F.CTX_IMAGE_FIRST.at i) (fieldOf ws 8 23 16)).setFld
    (F.CTX_IMAGE_COUNT_LESS_ONE.at i) (fieldOf ws 8 32 24 - 1)
  ({ s3 with disp := { s3.disp with loading := s3.disp.loading ++ [{ image := i, words := ws }] } } : State).logImage orHost i
    (s1.imageDigest i)

def State.doLoadImage (s : State) (num : Nat) : State := s.manage num kiLoadImage State.imageDetail State.startImage

def execLoadImage (num : Nat) (s : State) : Host.Outcome State Fault Refusal := .next (s.doLoadImage num)

/-- How a copy stands: under way, at a line whose lane cannot serve it, or stopped by a line that fails its checks. -/
inductive CopyEnd where
  | going | waits | refused
deriving DecidableEq, Repr

/-- One line of a master copy, read through an ENC 0 window on behalf of no context, into a slice (R896). A line whose staged bytes wait for
the fill of their page is waited for (R554). -/
def copyLine (p line off : Nat) (a : State × CopyEnd) : State × CopyEnd :=
  if a.2 ≠ .going then a
  else if (a.1.isWritten (pageOf line) && (a.1.readOrder (pageOf line)).isEmpty) || a.1.mem.waits.any (fun w => decide (w.line = line)) then
    (a.1, .waits)
  else
    match a.1.fetchTier line with
    | (s1, .zero) => (s1.writeLocal p true off (List.replicate 64 0), .going)
    | (s1, .lost) => (s1, .refused)
    | (s1, .line t) =>
      match lineCheck false 0 none t with
      | .error _ => (s1, .refused)
      | .ok _ => (s1.writeLocal p true off t.data, .going)

/-- The lines of every region of image `i` for logical cluster `l`: tier line and slice offset (R324). -/
def State.imageLines (s : State) (i l : Nat) : List (Nat × Nat) :=
  let w0 := s.imageWord i 0
  let base := s.winFld (bitsOf w0 11 0) (bitsOf w0 15 12) 0 55 0 + (l - bitsOf w0 23 16) * bitsOf (s.imageWord i 1) 47 0
  (s.imageRegions i).flatMap fun r => (List.range (r.2.1 / 64)).map fun k => ((base + r.2.2) / 64 + k, r.1 + 64 * k)

/-- The regions of image `i` copied to logical cluster `l` at its physical place. -/
def State.copyImageTo (s : State) (i l : Nat) : State × CopyEnd :=
  (s.imageLines i l).foldl (fun a x => copyLine (s.physOf l) x.1 x.2 a) (s, .going)

/-- The whole copy of image `i`, cluster by cluster. -/
def State.copyImage (s : State) (i : Nat) : State × CopyEnd :=
  (s.imageClusters i).foldl (fun (a : State × CopyEnd) l => if a.2 = .going then a.1.copyImageTo i l else a) (s, .going)

def State.dropLoading (s : State) (i : Nat) : State :=
  { s with disp := { s.disp with loading := s.disp.loading.filter fun x => decide (x.image ≠ i) } }

/-- Is a spare being brought in for physical cluster `p`? -/
def State.spareComing (s : State) (p : Nat) : Bool := s.ras.spareDue.contains p || s.ras.spares.any fun x => decide (x.old = p)

/-- Can every cluster of an image take its regions: powered, not in reset, and no spare being brought in for it (R326)? In MULCH and
QUIET management is paused (R342). -/
def State.imageReady (s : State) (i : Nat) : Bool :=
  s.taking && s.cluOn &&
    (s.imageClusters i).all fun l => decide (s.seqState (s.physOf l) ≠ sqInReset) && !s.spareComing (s.physOf l)

/-- IMAGE_LOADED: the last region has landed on every cluster (R326). -/
def State.doImageLoaded (s : State) (i : Nat) : State :=
  match s.disp.loading.find? fun x => decide (x.image = i) with
  | none => s
  | some x =>
    if s.imageReady i then
      match s.copyImage i with
      | (s1, .going) => ((s1.dropLoading i).setImageState i imgLoaded).endMsg x.words stOk 0
      | _ => s
    else s

def execImageLoaded (i : Nat) (s : State) : Host.Outcome State Fault Refusal := .next (s.doImageLoaded i)

/-- IMAGE_SOURCE_REFUSED: the copy stops at a line that fails its checks; what has landed stays (R896). -/
def State.doImageSourceRefused (s : State) (i : Nat) : State :=
  match s.disp.loading.find? fun x => decide (x.image = i) with
  | none => s
  | some x =>
    if s.imageReady i then
      match s.copyImage i with
      | (s1, .refused) => (((s1.dropLoading i).setImageState i imgEmpty).logImage orHw i (s1.imageDigest i)).endMsg
          x.words stRefused 0xA
      | _ => s
    else s

def execImageSourceRefused (i : Nat) (s : State) : Host.Outcome State Fault Refusal := .next (s.doImageSourceRefused i)

/-! ## Teardown (R358 to R364) -/

/-- The tier lines that a failed step wrote hold undefined data (R176): free bytes, their metadata as written. -/
def State.loseWrites (s : State) (t : Step) : State :=
  let ls := t.wrote.flatMap fun w => (List.range w.2).map fun i => w.1 + i
  (ls.foldl (fun (s : State) l =>
    let old := s.lineNow l
    s.setCopies l { old with data := (List.range 64).map fun i => Config.freeByte s.freeCtr (64 * l + i) }) s).drawn

/-- Counters of a step's end: COLL_WAIT_MS sums the wait of every step (R681). -/
def State.noteCollWait (s : State) (t : Step) : State :=
  let n := s.gov.collWaitNs + t.collWait
  ({ s with gov := { s.gov with collWaitNs := n % 1000000 } } : State).addSat F.PWR_PACE_ACC_COLL_WAIT_MS (n / 1000000)

/-- A step in flight that ends without committing (R176): its attempt discarded, its held effects undone, what it wrote
undefined. -/
def State.failEnd (s : State) (t : Step) : State :=
  let s1 := (s.discardAll t).loseWrites t
  ((s1.abandon t).countFailed t.members).noteCollWait t

/-- What has not left for the old generation of a context is given up (step 5 of R360). -/
def State.stopIssue (s : State) (c : Nat) : State :=
  let mine (k : ReqKind) : Bool := match k with
    | .write _ d _ => decide (d = c)
    | _ => false
  { s with
    mem := { s.mem with reqs := s.mem.reqs.filter fun r => r.sent || r.filling || decide (r.ctx ≠ c) }
    host := { s.host with reads := s.host.reads.filter fun r => r.sent || decide (r.ctx ≠ c) }
    fab := { s.fab with hubWait := s.fab.hubWait.filter fun w => !mine w.1 } }

/-- The STEP messages of the pending store led by a context end with CLOSED (step 4 of R360). -/
def State.closePending (s : State) (c : Nat) : State :=
  let mine (m : Pend) : Bool := decide (msgKind m.words = kiStep) && decide (msgContext m.words = c)
  let s1 := (s.disp.pend.filter mine).foldl (fun s m => s.endStepMsg m.words stClosed 0) s
  { s1 with disp := { s1.disp with pend := s1.disp.pend.filter fun m => !mine m } }

/-- Steps 1 to 4 of R360 for context `c`; `ws` is the message, empty where harvest began the teardown (R701). -/
def State.beginTeardown (s : State) (c : Nat) (ws : List Word) : State :=
  let s1 := s.setCtx c cfState ctxClosing
  let r : State × Option Record :=
    match s1.disp.steps.find? fun t => t.members.contains c with
    | none => (s1, none)
    | some t => (s1.failEnd t, some { ring := s1.ctx t.lead cfCring, words := s1.stepRecord t { status := stAbandoned } })
  let s2 := ((r.1.setCtx c cfGen ((r.1.ctx c cfGen + 1) % 4096)).closePending c).stopIssue c
  { s2 with disp := { s2.disp with teardowns := s2.disp.teardowns ++ [{ ctx := c, words := ws, record := r.2 }] } }

/-- TEARDOWN: steps 1 to 4 of R360. -/
def State.startTeardown (s : State) (ws : List Word) : State := s.beginTeardown (mgTarget ws) ws

/-- The detail with which a TEARDOWN is refused (R363); none where its take began the teardown (R362). -/
def State.teardownDetail (s : State) (ws : List Word) : Option Nat :=
  firstFail [(decide (mgTarget ws ≠ 0), 2), (s.ctxUsable (mgTarget ws), 1)]

/-- Did the take of message `num` begin its teardown? -/
def State.hasBegun (s : State) (num : Nat) : Bool := s.disp.pend.any fun m => decide (m.num = num) && m.began

def State.doTeardown (s : State) (num : Nat) : State :=
  s.manage num kiTeardown (fun s1 ws => if s.hasBegun num then none else s1.teardownDetail ws) State.startTeardown

def execTeardown (num : Nat) (s : State) : Host.Outcome State Fault Refusal := .next (s.doTeardown num)

/-- Can a request stamped with the old generation of a context still receive its reply or acknowledgement (R359)? -/
def State.ctxTraffic (s : State) (c : Nat) : Bool :=
  let mine (k : ReqKind) : Bool := match k with
    | .write _ d _ => decide (d = c)
    | _ => false
  (s.mem.reqs.any fun r => decide (r.ctx = c)) || (s.host.reads.any fun r => decide (r.ctx = c)) ||
    (s.host.unacked.any fun w => match w.kind with
      | .barrow _ _ d _ => decide (d = c)
      | _ => false) ||
    (s.fab.reqs.any fun r => mine r.kind)

/-- Windows revoked and the key reference released (steps 6 and 7 of R360). -/
def State.revoke (s : State) (c : Nat) : State :=
  let set := s.ctx c cfWset
  let s := ((List.range 16).filter fun w => decide (s.winFld set w 0 63 63 = 1)).foldl (fun (s : State) w =>
    s.logChange orHw 0x0A set (logDigest (s.windowBytes set w)) (logDigest (bytesOfNat 33 w))) s
  let s1 := [cfWset, cfRbase, cfRlen, cfAdapter 0, cfAdapter 1, cfAdapter 2, cfAdapter 3].foldl
    (fun (s : State) f => s.setCtx c f 0) s
  let s2 : State := { s1 with disp := { s1.disp with
    revoked := if s1.disp.revoked.contains c then s1.disp.revoked else s1.disp.revoked ++ [c] } }
  if s2.ctx c cfKeyEn = 0 then s2
  else
    let k := s2.ctx c cfKeySlot
    let n := s2.keyRefs k - 1
    let s3 := s2.setKeyRefs k n
    if n = 0 then (s3.setKeySlot k {}).logKey orHw k (s3.keySlot k) else s3

/-- TEARDOWN_DONE: steps 5 to 9 of R360 once no request of the old generation is outstanding; in MULCH and QUIET it pauses (R342). -/
def State.doTeardownDone (s : State) (c : Nat) : State :=
  match s.disp.teardowns.find? fun t => decide (t.ctx = c) with
  | none => s
  | some t =>
    if !s.taking || !s.hubOn || s.ctxTraffic c then s
    else
      let set := s.ctx c cfWset
      let s1 := s.revoke c
      let s2 := match t.record with
        | some r => s1.postRecord r.ring r.words
        | none => s1
      let s3 := if t.words.isEmpty then s2 else s2.endMsg t.words stTeardownDone 0
      let s4 := s3.setCtx c cfState ctxFree
      let s5 : State := { s4 with disp := { s4.disp with teardowns := s4.disp.teardowns.filter fun x => decide (x.ctx ≠ c) } }
      (s5.settleSet set).showContexts

def execTeardownDone (ctx : Nat) (s : State) : Host.Outcome State Fault Refusal := .next (s.doTeardownDone ctx)

end Sys2Proof.Machine
end

