-- ==== Sys2Proof/Machine/StepRows.lean ====
section
/-! DEFINITION. The dispatcher: the end of messages that do not run, the choice and admission of steps, their commit, failure
and replay (R163 to R181, R310, R343 to R349, R685, R710, R711, R717). -/

namespace Sys2Proof.Machine

/-! ## Ends without running (R313, R344) -/

/-- May dispatch admit a step: FULL or TRIM, none commanded elsewhere, no transition elsewhere under way, and no memory section
waiting (R54, R56, R58, R343, R612)? -/
def State.dispatching (s : State) : Bool :=
  s.taking && decide (s.devState ≠ dsReady) && decide (s.fld F.GLB_STATE_POWER_TARGET ≤ psTrim) && s.conf.memDue.isNone &&
    s.gov.due.all (fun c => decide (c.1 ≤ psTrim)) && s.gov.moving.all fun c => decide (c.1 ≤ psTrim)

/-- The first member that is FREE or CLOSING, or differs from the lead in TENANT or IMAGE. -/
def State.badMember (s : State) (ws : List Word) : Option Nat :=
  let lead := msgContext ws
  (msgMemberList ws).find? fun c => !s.ctxUsable c || decide (s.ctx c cfTenant ≠ s.ctx lead cfTenant) ||
    decide (s.ctx c cfImage ≠ s.ctx lead cfImage)

def State.isLost (s : State) (l : Nat) : Bool := decide (s.fld (F.RAS_REMAP_LOST.at l) = 1)

/-- The status and AUX with which a STEP message ends without running, in the order of R344. -/
def State.stepEnd (s : State) (ws : List Word) : Option (Nat × Nat) :=
  let lead := msgContext ws
  if !s.ctxUsable lead then some (stClosed, 0)
  else if 2 ^ 31 ≤ (msgSeq ws + 2 ^ 32 - s.ctx lead cfCommitted + 2 ^ 32 - 1) % 2 ^ 32 then some (stSequence, 0)
  else
    match s.badMember ws with
    | some c => some (stMember, c)
    | none =>
      if s.imageState (s.ctx lead cfImage) = imgEmpty then some (stImage, 0)
      else if (s.imageClusters (s.ctx lead cfImage)).any s.isLost then some (stDeviceState, 0)
      else none

/-- A STEP message of the pending store. -/
def State.pendStep (s : State) (num : Nat) : Option Pend :=
  s.disp.pend.find? fun m => decide (m.num = num) && decide (msgKind m.words = kiStep)

/-- STEP_MESSAGE_END. -/
def State.doStepMessageEnd (s : State) (num : Nat) : State :=
  match s.pendStep num with
  | none => s
  | some m =>
    match (if s.taking then s.stepEnd m.words else none) with
    | none => s
    | some e => (s.unpend num).endStepMsg m.words e.1 e.2

def execStepMessageEnd (num : Nat) (s : State) : Host.Outcome State Fault Refusal := .next (s.doStepMessageEnd num)

/-! ## Choice (R343, R345, R346) -/

/-- Is a STEP message eligible (R343)? -/
def State.eligible (s : State) (ws : List Word) : Bool :=
  let lead := msgContext ws
  s.taking && decide (s.devState ≠ dsReady) && decide (s.ctx lead cfState = ctxOpen) &&
    decide (msgSeq ws = (s.ctx lead cfCommitted + 1) % 2 ^ 32) &&
    ((msgMemberList ws).all fun c => decide (s.ctx c cfState = ctxOpen)) &&
    decide (s.imageState (s.ctx lead cfImage) = imgLoaded) && s.ringFree (s.ctx lead cfCring)

/-- The logical clusters that a STEP message reserves. -/
def State.msgClusters (s : State) (ws : List Word) : List Nat := s.imageClusters (s.ctx (msgContext ws) cfImage)

/-- The logical clusters reserved by chosen messages. -/
def State.reserved (s : State) : List Nat := (s.disp.pend.filter (·.chosen)).flatMap fun m => s.msgClusters m.words

/-- The messages that may be chosen: eligible, with no end of R344 due, not chosen, on clusters that no reservation holds. -/
def State.candidates (s : State) : List Pend :=
  s.disp.pend.filter fun m => decide (msgKind m.words = kiStep) && !m.chosen && s.eligible m.words && (s.stepEnd m.words).isNone &&
    !((s.msgClusters m.words).any s.reserved.contains)

def State.msgClass (s : State) (ws : List Word) : Nat := s.ctx (msgContext ws) cfClass

/-- DSP_CLASS_LIMIT of a class, and the admissions it has lost in a row. -/
def State.classLimit (s : State) (c : Nat) : Nat := bitsOf (s.reg F.DSP_CLASS_LIMIT_LIMITA.reg) (8 * c + 7) (8 * c)
def State.classLost (s : State) (c : Nat) : Nat := mget zeroNat s.disp.lost c

/-- The class that wins: the lowest forced one, else the lowest. -/
def State.winner (s : State) (cs : List Nat) : Option Nat :=
  match cs.find? fun c => decide (s.classLimit c ≠ 0) && decide (s.classLimit c ≤ s.classLost c) with
  | some c => some c
  | none => cs.head?

/-- The losses after class `w` wins against the classes `cs`. -/
def State.countLost (s : State) (cs : List Nat) (w : Nat) : Store Nat :=
  (cs.filter fun c => decide (w < c)).foldl (fun m c => mset zeroNat m c (mget zeroNat m c + 1)) (mset zeroNat s.disp.lost w 0)

/-- STEP_CHOOSE. -/
def State.doStepChoose (s : State) : State :=
  let cand := s.candidates
  let cs := (List.range 8).filter fun c => cand.any fun m => decide (s.msgClass m.words = c)
  match s.winner cs with
  | none => s
  | some w =>
    match cand.find? fun m => decide (s.msgClass m.words = w) with
    | none => s
    | some m =>
      if s.dispatching then
        { s with disp := { s.disp with
            lost := s.countLost cs w
            pend := s.disp.pend.map fun x => if x.num = m.num then { x with chosen := true } else x } }
      else s

def execStepChoose (s : State) : Host.Outcome State Fault Refusal := .next s.doStepChoose

/-- RESERVATION_RELEASE: a chosen step no longer eligible returns to the pending store (R346). -/
def State.doReservationRelease (s : State) (num : Nat) : State :=
  match s.pendStep num with
  | none => s
  | some m =>
    if m.chosen && !s.eligible m.words then
      { s with disp := { s.disp with pend := s.disp.pend.map fun x => if x.num = num then { x with chosen := false } else x } }
    else s

def execReservationRelease (num : Nat) (s : State) : Host.Outcome State Fault Refusal := .next (s.doReservationRelease num)

/-! ## Admission (R319, R331, R346, R347, R685) -/

/-- Does a SET_WINDOW or SET_ADAPTER that has found a step in flight need a context or its set (R319), or is a TEARDOWN of the
context taken (R362)? -/
def State.heldBack (s : State) (c : Nat) : Bool :=
  s.pendMgmt.any fun m =>
    (m.found && ((decide (msgKind m.words = kiSetWindow) && decide (mgSet m.words = s.ctx c cfWset)) ||
      (decide (msgKind m.words = kiSetAdapter) && decide (mgTarget m.words = c)))) ||
    (decide (msgKind m.words = kiTeardown) && decide (mgTarget m.words = c))

/-- May an attempt start on physical cluster `p`: not in reset, no rewrite or spare due, no self-test (R281, R685, R735)? -/
def State.startableOn (s : State) (p : Nat) : Bool :=
  decide (s.seqState p ≠ sqInReset) &&
    !(s.ras.repairs.any fun r => decide (r.1 = p)) && !s.spareComing p &&
    !(s.ras.selftest.any fun x => decide (x.1 = 1) && decide (x.2.1 = p))

/-- Is a commit of a cluster's window pending, which takes effect before its next step (R276)? A replay is no next step: the cluster is not
IDLE before it, and the commit goes on waiting. -/
def State.commitDue (s : State) (p : Nat) : Bool := s.commits.any fun c => decide (c.block = blkClu p)

/-- The step that a message starts. -/
def State.newStep (s : State) (ws : List Word) : Step :=
  { lead := msgContext ws, num := 0, words := ws, members := msgMemberList ws, clusters := s.msgClusters ws, map := [],
    gen := s.ctx (msgContext ws) cfGen, admitted := s.now }

/-- STEP_ADMIT. -/
def State.doStepAdmit (s : State) (num : Nat) : State :=
  match s.pendStep num with
  | none => s
  | some m =>
    let ps := (s.msgClusters m.words).map s.physOf
    if m.chosen && s.dispatching && s.eligible m.words && (s.stepEnd m.words).isNone && s.cluOn &&
        (ps.all fun p => decide (s.seqState p = sqIdle) && s.startableOn p && !s.commitDue p) &&
        !((msgMemberList m.words).any s.heldBack) then
      let t := { s.newStep m.words with num := num }
      let s1 := s.unpend num
      let s2 := t.members.foldl (fun (s : State) c => s.setCtx c cfState ctxRunning) s1
      (({ s2 with disp := { s2.disp with steps := s2.disp.steps ++ [t] } } : State).startAttempt t).noteFound
    else s

def execStepAdmit (num : Nat) (s : State) : Host.Outcome State Fault Refusal := .next (s.doStepAdmit num)

/-! ## Commit (R129, R169, R174, R175, R183, R310, R348) -/

/-- A held remote increment sent (R243, R447, R448). -/
def State.sendTadd (s : State) (h : HeldAdd) : State :=
  let w1 := h.tenant * 2 ^ 48 + h.gen * 2 ^ 36 + h.win * 2 ^ 32 + h.ctx
  s.inject .tadd { w0 := headWord h.chip s.chipId 0 0 ptTadd 0 0 0, w1 := BitVec.ofNat 64 w1, w2 := BitVec.ofNat 64 h.tally
                   w3 := BitVec.ofNat 64 (h.amount * 2 ^ 32), data := [], poisoned := false }

/-- The context slots at the commit point: the lead's committed number, the other members' counts. -/
def State.commitSlots (s : State) (t : Step) : State :=
  (t.members.filter fun c => decide (c ≠ t.lead)).foldl
    (fun (s : State) c => s.setCtx c cfMemberSteps ((s.ctx c cfMemberSteps + 1) % 2 ^ 32))
    (s.setCtx t.lead cfCommitted (msgSeq t.words))

/-- Has the TEARDOWN of a context of a step in flight been taken: the step is abandoned, and neither commits, fails nor replays
(R362)? -/
def State.closingStep (s : State) (t : Step) : Bool := t.members.any fun c => decide (s.ctx c cfState = ctxClosing)

/-- May a step in flight commit: no fault, no teardown taken, every cluster reported, the READYs of its collectives held? -/
def State.mayCommit (s : State) (t : Step) : Bool :=
  s.inService && !s.closingStep t && t.fail.isNone && t.replay.isNone && t.clusters.all t.reported.contains && s.readiesHeld t.lead

/-- STEP_COMMIT: the commit point and what is published at it. -/
def State.doStepCommit (s : State) (lead : Nat) : State :=
  match s.stepOf lead with
  | none => s
  | some t =>
    if s.mayCommit t then
      let rec_ := s.stepRecord t { status := stOk }
      let s1 := (s.commitSlots t).commitColls lead
      let s2 := t.held.foldl (fun s h => s.sendTadd h) s1
      let s3 := t.map.foldl (fun (s : State) m => (s.numstatMerge m.2).addSat (F.CLU_STEP_COUNT_COMMIT_COUNT.clu m.2) 1) s2
      let s4 := ((s3.dropStep lead).keepAdds lead).applyAdds t.adds
      let s5 := (t.map.foldl (fun s m => s.release m.2) s4).reopen t.members
      (s5.postRecord (s.ctx lead cfCring) rec_).noteCollWait t
    else s

def execStepCommit (lead : Nat) (s : State) : Host.Outcome State Fault Refusal := .next (s.doStepCommit lead)

/-! ## Failure and replay (R176 to R181, R692, R711) -/

/-- Has the last attempt that R181 allows faulted? -/
def State.exhausted (s : State) (t : Step) : Bool := t.replay.isSome && decide (s.maxAttempts ≤ t.attempt + 1)

/-- Why a step in flight fails, if it does. -/
def State.failure (s : State) (t : Step) : Option FailInfo :=
  match t.fail with
  | some f => if s.closingStep t then none else some f
  | none =>
    if s.closingStep t then none
    else if s.exhausted t then some { status := stReplayExhausted, cause := t.replay.getD 0 }
    else if t.replay.isSome && t.clusters.any s.isLost then some { status := stDeviceState }
    else none

/-- The strikes or the count of a step that ends with REPLAY_EXHAUSTED (R711). -/
def State.countExhausted (s : State) (t : Step) (f : FailInfo) : State :=
  if f.status ≠ stReplayExhausted then s
  else if 1 ≤ f.cause ∧ f.cause ≤ 3 then t.faulted.foldl (fun s p => s.strike p) s
  else s.addSat F.RAS_ESC_STATUS_EXHAUSTED 1

/-- A step in flight ends with a status, and its record is posted. -/
def State.endStep (s : State) (t : Step) (f : FailInfo) : State :=
  ((s.failEnd t).postRecord (s.ctx t.lead cfCring) (s.stepRecord t f)).countExhausted t f

/-- STEP_FAIL. -/
def State.doStepFail (s : State) (lead : Nat) : State :=
  match s.stepOf lead with
  | none => s
  | some t =>
    match (if s.inService then s.failure t else none) with
    | none => s
    | some f => s.endStep t f

def execStepFail (lead : Nat) (s : State) : Host.Outcome State Fault Refusal := .next (s.doStepFail lead)

/-- May a replay start: the faults, resets, remaps and retrains it waits for are over (R180, R281)? -/
def State.mayReplay (s : State) (t : Step) : Bool :=
  s.inService && s.cluOn && t.replay.isSome && !s.closingStep t && (s.failure t).isNone &&
    (t.clusters.all fun l => s.startableOn (s.physOf l)) && (t.map.all fun m => s.startableOn m.2 || (s.clu m.2).retired) &&
    (t.needLanes.isEmpty || s.boot.refclk) && t.needLanes.all fun k => decide (s.laneState k ≠ mlTraining)

/-- STEP_REPLAY: the same step from its entry offset, with its tallies as at step start (R169, R178). A cluster that runs on does not
enter IDLE between the attempts, and its banks stay awake (R182, R288); one that a spare replaces lets go of the step. -/
def State.doStepReplay (s : State) (lead : Nat) : State :=
  match s.stepOf lead with
  | none => s
  | some t =>
    if s.mayReplay t then
      let s1 := ((s.restoreTallies t.holds).dropAdds lead).setCtx lead cfReplays ((s.ctx lead cfReplays + 1) % 2 ^ 32)
      let s2 := (t.map.filter fun m => decide (s.physOf m.1 ≠ m.2)).foldl (fun s m => s.release m.2) s1
      let s3 := s2.startAttempt { t with attempt := t.attempt + 1 }
      t.clusters.foldl (fun (s : State) l => s.addSat (F.CLU_STEP_COUNT_REPLAY_COUNT.clu (s.physOf l)) 1) s3
    else s

def execStepReplay (lead : Nat) (s : State) : Host.Outcome State Fault Refusal := .next (s.doStepReplay lead)

end Sys2Proof.Machine
end

