-- ==== Sys2Proof/Machine/Power.lean ====
section
/-! DEFINITION. Power commands and transitions (R53 to R60, R66, R632 to R634, R713), and what the lanes, ports, pads and slices
do as their domains go off and come back (R289, R292, R419, R421, R481, R484). -/

namespace Sys2Proof.Machine

/-! ## Domains going off and on -/

/-- The circuits of this chip that are not IDLE and not FAILED. -/
def State.liveCircuits (s : State) : List Nat :=
  (List.range 16).filter fun c => let x := s.fld (F.FAB_CIRC_STATE.at c)
    decide (x = ccSettingUp) || decide (x = ccEstablished) || decide (x = ccTearing)

/-- Is a packet an ABORT of a collective? -/
def isAbort (k : Packet) : Bool := decide (pktType k = ptColl) && decide (bitsOf k.w1 13 11 = ckAbort)

/-- The ABORTs of this chip leave at once, before the RESET_NOTICE of a reset (R526; log entry 35): those queued on a port that carries
traffic, by wormhole or on a circuit. -/
def State.sendAborts (s : State) : State :=
  let out := s.fab.outq.filter fun o => isAbort o.pkt && o.owe.isNone && s.portOn o.port && !s.circStarted o
  out.foldl (fun (s : State) o => s.emit (if o.input ≤ 32 then .packet o.port o.pkt else .circuit o.port (o.input - 33) o.pkt))
    { s with fab := { s.fab with outq := s.fab.outq.filter fun o => !out.contains o } }

/-- RESET_NOTICE with a cause on every port that is lit (R484). -/
def State.sendNotices (s : State) (cause : Nat) : State :=
  ((List.range 32).filter s.portLit).foldl
    (fun (s : State) p => s.sendCtrl p (.resetNotice cause)) s

/-- The light of every port goes off: nothing queued leaves, every circuit of the chip is FAILED with a cause, each port that
was lit advances its PORT_GEN (R481, R488), and a change that waited for a drain takes effect, nothing being left to drain (R476). -/
def State.lightOff (s : State) (cf : Nat) : State :=
  let lit := (List.range 32).filter s.portLit
  let s1 := s.liveCircuits.foldl (fun (s : State) c => s.failCircuit c cf) s
  let s2 := s1.releaseSlots fun _ => true
  let s3 := (List.range 32).foldl State.endDrain
    { s2 with fab := { s2.fab with outq := [], owed := [], loop := [], discoverAt := none } }
  let s4 := lit.foldl (fun (s : State) p => s.addWrap (F.FAB_PORT_STATUS_PORT_GEN.at p) 1) s3
  let s5 := (List.range 32).foldl (fun (s : State) p =>
    (s.setPort p { light := (s.port p).light }).setFld (F.FAB_PORT_STATUS_STATE.at p) poDark) s4
  ((s5.setFld F.FAB_STATUS_STATE fsDark).resetArbs fun a => match a with
    | .plane _ _ => true
    | .slot _ => true
    | _ => false).showFabric

/-- The bridges place every module in self-refresh and the lanes stop, their arbiters back at their order (R421, R59, R265). -/
def State.lanesOff (s : State) : State :=
  (List.range 16).foldl (fun (s : State) k =>
    (s.setFld (F.MEM_LANE_STATUS_STATE.at k) mlDown).setFld (F.MEM_LANE_STATUS_SELF_REFRESH.at k) 1)
    (s.resetArbs fun a => match a with
      | .memLane _ => true
      | _ => false)

/-- Every lane trains (R419). -/
def State.lanesTrain (s : State) : State :=
  (List.range 16).foldl (fun (s : State) k => s.setFld (F.MEM_LANE_STATUS_STATE.at k) mlTraining) s

/-- Pads lost, with what the sequencers held beside them: they read zero when the quadrant domains return (R292). The droop detectors of
the spine domains hold no step (R53, R649). -/
def State.padsOff (s : State) : State :=
  let s1 : State := { s with
    pad := [], padFlaw := [],
    clusters := (s.clusters.map fun e => (e.1, { e.2.fresh none e.2.logical with padEpoch := 0, padZero := [], awake := [] })).filter fun e =>
      decide (e.2 ≠ cluDefault e.1) }
  let s2 := ({ s1 with gov := { s1.gov with droop := [] } } : State).setFld F.PWR_PACE_DROOP_STEP 0 |>.resetArbs fun a => !ArbId.ofHub a
  (s.clusters.map (·.1)).foldl State.clearSeqRegs s2

/-- Slice banks configured OFF lose their contents when their domain returns to On (R285, R289), and the scrubber starts every bank's
pass again (R280). -/
def State.slicesReturn (s : State) : State :=
  let ps : List Nat := ((s.slice.map fun (e : Nat × Byte) => e.1 / 0x2000000) ++
    (s.sliceFlaw.map fun (e : Nat × Nat) => e.1 / 0x100000)).eraseDups
  let s1 : State := ps.foldl (fun (s : State) p =>
    (List.range 64).foldl (fun (s : State) b => if s.bankCfg p b = 2 then s.loseBank p b else s) s) s
  (s1.clusters.map (·.1)).foldl (fun (s : State) p => s.setClu p { s.clu p with scrubNext := [] }) s1

/-- HUB_CORE loses its contents in DARK (R53): the context table, window sets, images' words, pending store and the collective engine's
state; context 0's CRING is the configuration's again (R309). Key slots lie in the cold frame and stay (R63, R294), intake cells in the HOST
domain, with how many have been taken (R337, R702). With no context left, SERVING and DRAINING end (R311; log entry 31). -/
def State.hubLost (s : State) : State :=
  let s1 : State := { s with col := {}, disp := { ({} : Dispatch) with
    keys := s.disp.keys, nextNum := s.disp.nextNum, cells := s.disp.cells, cellSince := s.disp.cellSince, taken := s.disp.taken
    creditDue := s.disp.creditDue } }
  (s1.setCtx 0 cfCring (natOfBytes ((s.sect 7).take 1))).showContexts

/-- The hub tallies when HUB_CORE is on again: their registers read the values held until then (R53, R572). -/
def State.talliesBack (s : State) : State :=
  ((s.regs.map (·.1)).filter fun a => decide (0x300000 ≤ a) && decide (a < 0x320000)).foldl (fun (s : State) a => s.setReg a (regDefault a)) s

/-- Slices lost, and every image with them: the host must load each again (R292). -/
def State.slicesOff (s : State) : State :=
  let s1 : State := { s with slice := [], sliceFlaw := [] }
  (List.range 16).foldl (fun (s : State) i => if s.imageState i = imgEmpty then s
    else (s.setImageState i imgEmpty).logImage orHw i (s.imageDigest i)) s1

/-! ## Commands (R632, R633) -/

/-- Must a command be refused (R57, R633, R713)? -/
def State.powerRefused (s : State) (t : Nat) : Bool :=
  decide (psDark < t) ||
    (decide (t = psDark) && decide (s.devState ≠ dsFallow) && !s.openCtxs.isEmpty) ||
    (decide (s.lifecycle = 4) && decide (t < psQuiet)) ||
    (decide (s.devState = dsFallow) && decide (t < psQuiet))

/-- Is a power transition in progress, its command accepted and its end not reached (R58)? -/
def State.inTransition (s : State) : Bool := s.gov.due.isSome || s.gov.moving.isSome

/-- An accepted command in service: held behind a transition, or due (R55, R56, R58). R57 names only the command: one held, due or
staged is not tested again when it takes effect, whatever contexts have opened since (log entry 64). -/
def State.orderPower (s : State) (c : Nat × Nat) : State :=
  if s.inTransition then { s with gov := { s.gov with held := some c } }
  else if s.powState = c.1 then s
  else { s with gov := { s.gov with due := some c } }

/-- What the start of a transition to DARK does to the ports: notices, then no light (R59, R484). The lanes send nothing further, and
stop at its end (R421). -/
def State.goDark (s : State) : State := (s.sendNotices 4).lightOff cfDark

/-- The power states that a transition reaches, one row of R634 after another: those of one row directly, others through the states
between them (log entry 73). -/
def powerRows (a t : Nat) : List Nat :=
  if a ≤ psQuiet ∧ t ≤ psQuiet then [t]
  else if t = psDark then (if a ≤ psTrim then [psMulch, psQuiet, psDark] else if a = psMulch then [psQuiet, psDark] else [psDark])
  else if t = psQuiet then [psQuiet] else if t = psMulch then [psQuiet, psMulch] else [psQuiet, psMulch, t]

/-- The start of the row of a transition that reaches `t`: lanes and ports stop toward DARK, and start on the way out of it (R634). -/
def State.beginRow (s : State) (t : Nat) : State :=
  if t = psDark then s.goDark else if s.powState = psDark then s.lanesTrain.startFabric else s

/-- The end of a transition, or of a row of one, to `t`: POWER_STATE, the memories whose domains changed, and the microcode of clusters that power up (R53,
R289, R292, R772). -/
def State.reachPower (s : State) (t origin : Nat) : State :=
  let was := s.powState
  let s1 := s.setPow origin t
  let s2 := if psQuiet ≤ t ∧ was < psQuiet then s1.padsOff else s1
  let s3 := if t < psQuiet ∧ psQuiet ≤ was then s2.slicesReturn.powerUcode (List.range 264) else s2
  if t = psDark then s3.padsOff.slicesOff.lanesOff.hubLost
  else if was = psDark then s3.talliesBack
  else s3

/-- A power command written to PWR_CMD. -/
def State.powerCmd (s : State) (w : Agent) (t : Nat) : State :=
  s.gate w blkPwr fun s =>
    if s.powerRefused t then s.setFld F.PWR_STATUS_CMD_REFUSED 1
    else
      let s1 := s.setFld F.GLB_STATE_POWER_TARGET t
      if s.devState = dsFallow then
        (if t = psDark ∧ s.powState ≠ psDark then s1.goDark else s1).reachPower t (originOf w)
      else if s.inService then s1.orderPower (t, originOf w)
      else { s1 with boot := { s1.boot with staged := some (t, originOf w) } }

def execPowerCmdFull (w : Agent) (s : State) : Host.Outcome State Fault Refusal := .next (s.leased w fun s => s.powerCmd w psFull)
def execPowerCmdTrim (w : Agent) (s : State) : Host.Outcome State Fault Refusal := .next (s.leased w fun s => s.powerCmd w psTrim)
def execPowerCmdMulch (w : Agent) (s : State) : Host.Outcome State Fault Refusal := .next (s.leased w fun s => s.powerCmd w psMulch)
def execPowerCmdQuiet (w : Agent) (s : State) : Host.Outcome State Fault Refusal := .next (s.leased w fun s => s.powerCmd w psQuiet)
def execPowerCmdDark (w : Agent) (s : State) : Host.Outcome State Fault Refusal := .next (s.leased w fun s => s.powerCmd w psDark)

/-- A staged command applied on entry to READY (R66). -/
def State.applyStaged (s : State) : State :=
  match s.boot.staged with
  | none => s
  | some c => ({ s with boot := { s.boot with staged := none } } : State).orderPower c

/-! ## Transitions (R55, R56, R634) -/

/-- Has every admitted step reached STEP_END, and every collective completed or failed (R56)? -/
def State.workEnded (s : State) : Bool :=
  (s.disp.steps.all fun t => t.replay.isNone && t.fail.isNone && t.map.all fun m => t.reported.contains m.1) &&
    s.col.colls.all (·.done)

/-- POWER_TRANSITION_START: the command takes effect, and the parts of the transition that neighbours see begin. One between FULL and
TRIM takes effect at a governor update instead (R55). -/
def State.doPowerTransitionStart (s : State) : State :=
  match s.gov.due with
  | none => s
  | some c =>
    if s.inService ∧ s.gov.moving.isNone = true ∧ ¬(c.1 ≤ psTrim ∧ s.powState ≤ psTrim) ∧ (c.1 ≤ psTrim ∨ s.workEnded = true) then
      let rows := powerRows s.powState c.1
      ({ s with gov := { s.gov with due := none, moving := some c, rows := rows } } : State).beginRow (rows.headD c.1)
    else s

def execPowerTransitionStart (s : State) : Host.Outcome State Fault Refusal := .next s.doPowerTransitionStart

/-- May the row of a transition that reaches `t` end (R634): into DARK once no request is in flight (R421), out of it once lanes and ports have their
outcomes, between FULL and TRIM once VCORE is within the new ceiling? -/
def State.transitionEnds (s : State) (t : Nat) : Bool :=
  if t = psDark then s.mem.reqs.all fun r => !r.sent
  else if t ≤ psTrim ∧ s.powState ≤ psTrim then decide (s.vcore ≤ s.vCeiling)
  else decide (s.powState ≠ psDark) ||
    (((List.range 16).all fun k => decide (s.laneState k ≠ mlTraining)) && s.fab.discoverAt.isNone)

/-- POWER_TRANSITION_DONE: POWER_STATE takes the state that the row reaches; at the target a command held becomes due (R58), before it the
next row begins (R634). -/
def State.doPowerTransitionDone (s : State) : State :=
  match s.gov.moving with
  | none => s
  | some c =>
    let t := s.gov.rows.headD c.1
    if s.inService ∧ s.transitionEnds t = true then
      match s.gov.rows.drop 1 with
      | next :: rest =>
        (({ s with gov := { s.gov with rows := next :: rest } } : State).reachPower t c.2).beginRow next
      | [] =>
        let held := s.gov.held
        let s2 := ({ s with gov := { s.gov with moving := none, rows := [], held := none } } : State).reachPower t c.2
        match held with
        | none => s2
        | some h => s2.orderPower h
    else s

def execPowerTransitionDone (s : State) : Host.Outcome State Fault Refusal := .next s.doPowerTransitionDone

end Sys2Proof.Machine
end

