-- ==== Sys2Proof/Machine/Copies.lean ====
section
/-! DEFINITION. The configuration flash and its copies: reading, the checks of R592 and R593, the checks of a section (R606), and
what a section sets when it is applied (R594 to R603, R613, R616). -/

namespace Sys2Proof.Machine

/-! ## The flash (R587) -/

/-- An erased flash byte. -/
def flashByte (_ : Nat) : Byte := 0xFF

/-- The bytes at an offset; a read that fails gives none, and what it is read for finds an erased flash (R586). -/
def State.flashRead (s : State) (o n : Nat) : Bytes :=
  if s.boot.flashBad then List.replicate n (flashByte o) else mread flashByte s.flash o n

/-- Before a read that has failed is tried again, the flash is reset; the second failure stands (R867; log entry 54). -/
def State.flashRetry (s : State) : State := if s.boot.flashBad then s.emit .flashReset else s

def State.flashWrite (s : State) (o : Nat) (b : Bytes) : State := { s with flash := mwrite flashByte s.flash o b }
def State.flashErase (s : State) (o n : Nat) : State := { s with flash := mclear s.flash o n }

/-- The base of a configuration copy, 0 A and 1 B. -/
def copyBase (c : Nat) : Nat := 0x800000 * c
def copyBytes : Nat := 0x800000

/-- A little-endian number at an offset of some bytes, and the bytes there. -/
def numAt (b : Bytes) (o n : Nat) : Nat := natOfBytes ((b.drop o).take n)
def cutAt (b : Bytes) (o n : Nat) : Bytes := (b.drop o).take n
def zeroAt (b : Bytes) (o n : Nat) : Bool := (cutAt b o n).all fun x => decide (x = 0)

/-! ## Roles (R601, R779) -/

def roleAdmin : Nat := 0
def roleConfig : Nat := 1
def roleFirmware : Nat := 2
def roleLifecycle : Nat := 3
def roleWipe : Nat := 4
def roleKeys : Nat := 5

def roleHas (e : Bytes) (r : Nat) : Bool := (numAt e 0 4).testBit r
def roleKeyId (e : Bytes) : Bytes := cutAt e 16 16
def rolePublic (e : Bytes) : Bytes := cutAt e 32 64

/-- The entries of a roles section. -/
def roleEntries (b : Bytes) : List Bytes := (List.range (numAt b 0 1)).map fun i => cutAt b (16 + 96 * i) 96

/-- An entry that is well formed: no reserved bit, and its KEY_ID that of its key. -/
def roleOk (e : Bytes) : Bool :=
  decide (numAt e 0 4 < 64) && zeroAt e 4 12 && decide (roleKeyId e = shake256 (rolePublic e) 16)

/-- The bytes of the Roles partition, of which a digest is taken (R788, R838): its entries one after another. -/
def State.rolesBytes (s : State) : Bytes := s.cold.roles.flatMap fun e => e

/-- The Roles partition replaced by the active controller, under its epoch, with its entry where it changes (R296, R297; log entry 63). -/
def State.putRoles (s : State) (origin : Nat) (es : List Bytes) : State :=
  if s.cold.roles = es then s
  else
    let t := s.frameWrite .roles s.epoch fun s => { s with cold := { s.cold with roles := es } }
    t.logChange origin 0x08 0 (logDigest s.rolesBytes) (logDigest t.rolesBytes)

/-! ## Copies (R589 to R593) -/

/-- OFFSET and LENGTH of the section of type `t`. -/
def sectOffset (b : Bytes) (t : Nat) : Nat := numAt b (16 * t + 4) 4
def sectLength (b : Bytes) (t : Nat) : Nat := numAt b (16 * t + 8) 4
def sectBytes (b : Bytes) (t : Nat) : Bytes := cutAt b (sectOffset b t) (sectLength b t)

def copySigned (b : Bytes) : Bool := decide (numAt b 6 2 = 1)
def copyTotal (b : Bytes) : Nat := numAt b 12 4
def copySequence (b : Bytes) : Nat := numAt b 8 4

/-- The offset D of the digest (R591). -/
def digestAt (b : Bytes) : Nat := copyTotal b - (if copySigned b then 29888 else 64)

/-- The header and section table of a copy, but for MAGIC (R589, R590, R592). -/
def copyHeaderOk (b : Bytes) : Bool :=
  decide (numAt b 4 2 = 1) && decide (numAt b 6 2 ≤ 1) && decide (copyTotal b % 64 = 0) && decide (copyTotal b ≤ copyBytes) &&
    decide ((if copySigned b then 29888 else 64) + 256 ≤ copyTotal b) && decide (copyTotal b ≤ b.length) && zeroAt b 128 128 &&
    ((List.range 7).all fun i =>
      decide (numAt b (16 + 16 * i) 1 = i + 1) && zeroAt b (17 + 16 * i) 1 && zeroAt b (28 + 16 * i) 4 &&
        decide (sectOffset b (i + 1) % 64 = 0) && decide (256 ≤ sectOffset b (i + 1)) &&
        decide (sectOffset b (i + 1) + sectLength b (i + 1) ≤ digestAt b)) &&
    (List.range 7).all fun i => (List.range i).all fun j =>
      decide (sectOffset b (i + 1) + sectLength b (i + 1) ≤ sectOffset b (j + 1)) ||
        decide (sectOffset b (j + 1) + sectLength b (j + 1) ≤ sectOffset b (i + 1))

/-- The signature rule (R593). -/
def State.copySignatureOk (s : State) (b : Bytes) : Bool :=
  if copySigned b then
    let es := if s.cold.roles.isEmpty then roleEntries (sectBytes b 6) else s.cold.roles
    let d := digestAt b + 64
    zeroAt b (d + 29808) 16 &&
      es.any fun e => decide (roleKeyId e = cutAt b d 16) && roleHas e roleConfig &&
        Config.slhDsaVerify (rolePublic e) (b.take d) (cutAt b (d + 16) 29792)
  else !s.cold.roles.any fun e => roleHas e roleConfig

def crValid : Nat := 0
def crNotChecked : Nat := 1
def crBlank : Nat := 2
def crHeader : Nat := 3
def crDigest : Nat := 4
def crSignature : Nat := 5
def crFlash : Nat := 6

/-- The check of a copy under R592, by the codes of R623. -/
def State.checkCopyBytes (s : State) (b : Bytes) : Nat :=
  if numAt b 0 4 ≠ 0x46435856 then crBlank
  else if !copyHeaderOk b then crHeader
  else if cutAt b (digestAt b) 64 ≠ shake256 (b.take (digestAt b)) 64 then crDigest
  else if !s.copySignatureOk b then crSignature
  else crValid

/-- The bytes of a copy in the flash: as many as its header names, or the header alone. -/
def State.copyAt (s : State) (c : Nat) : Bytes :=
  let h := s.flashRead (copyBase c) 256
  if numAt h 0 4 = 0x46435856 ∧ 256 < copyTotal h ∧ copyTotal h ≤ copyBytes then s.flashRead (copyBase c) (copyTotal h) else h

/-- The check of a copy in the flash: FLASH where its read fails, and fails again (R623). -/
def State.copyCheck (s : State) (c : Nat) : Nat := if s.boot.flashBad then crFlash else s.checkCopyBytes (s.copyAt c)

/-- Both copies checked, with the results shown. -/
def State.checkCopies (s : State) : State :=
  ((s.setFld F.GLB_CFG_STATUS_RESULT_A (s.copyCheck 0)).setFld F.GLB_CFG_STATUS_RESULT_B (s.copyCheck 1)).flashRetry

/-- The copies that COPY of a reload selects checked: both, or the one it names (R604, R610, R623). -/
def State.checkSelected (s : State) (sel : Nat) : State :=
  if sel = 1 then (s.setFld F.GLB_CFG_STATUS_RESULT_A (s.copyCheck 0)).flashRetry
  else if sel = 2 then (s.setFld F.GLB_CFG_STATUS_RESULT_B (s.copyCheck 1)).flashRetry
  else s.checkCopies

/-- The result of a copy at its last check. -/
def State.copyResult (s : State) (c : Nat) : Nat :=
  s.fld (if c = 0 then F.GLB_CFG_STATUS_RESULT_A else F.GLB_CFG_STATUS_RESULT_B)

/-- Is sequence number `a` not older than `b` (R604, R759)? -/
def newerSeq (a b : Nat) : Bool := decide ((a + 2 ^ 32 - b % 2 ^ 32) % 2 ^ 32 < 2 ^ 31)

/-- The copy that R604 uses. -/
def State.newestCopy (s : State) : Option Nat :=
  if s.copyResult 0 = crValid ∧ s.copyResult 1 = crValid then
    some (if newerSeq (copySequence (s.copyAt 0)) (copySequence (s.copyAt 1)) then 0 else 1)
  else if s.copyResult 0 = crValid then some 0
  else if s.copyResult 1 = crValid then some 1
  else none

/-- The copy a reload selects by COPY, once checked (R610, R611). -/
def State.selectCopy (s : State) (sel : Nat) : Option Nat :=
  if sel = 0 then s.newestCopy
  else if sel = 1 ∧ s.copyResult 0 = crValid then some 0
  else if sel = 2 ∧ s.copyResult 1 = crValid then some 1
  else none

/-! ## Checks of a section (R594 to R603, R606) -/

/-- The causes of GLB_CFG_HOLD. -/
def hcVersion : Nat := 1
def hcLength : Nat := 2
def hcField : Nat := 3
def hcMismatch : Nat := 4
def hcRole : Nat := 5
def hcNoCopy : Nat := 6

/-- Is the LENGTH that of the table? -/
def sectLengthOk (b : Bytes) (t : Nat) : Bool :=
  let n := sectLength b t
  if t = 6 then decide (16 < n) && decide (n ≤ 6160) && decide (n % 96 = 16)
  else decide (n = (if t = 1 ∨ t = 2 then 64 else if t = 3 then 1168 else if t = 7 then 16 else 32))

def inRange (b : Bytes) (o n lo hi : Nat) : Bool := decide (lo ≤ numAt b o n) && decide (numAt b o n ≤ hi)

/-- ASCII padded with zero bytes. -/
def asciiPadded (b : Bytes) : Bool :=
  (b.all fun x => decide (x.toNat < 128)) && (b.dropWhile fun x => decide (x ≠ 0)).all fun x => decide (x = 0)

/-- The order of budget: each class once (R599). -/
def priorityOk (p : Nat) : Bool :=
  decide (p < 64) && [0, 1, 2].all fun c => (List.range 3).any fun i => decide (p / 4 ^ i % 4 = c)

/-- PORT[p] of the fabric section (R597). -/
def planPortOk (w : Nat) : Bool :=
  decide (w < 0x8000) && decide (w % 4 ≠ 3) && decide (w / 4 % 4 ≠ 3) && (decide (w % 4 ≠ 0) || decide (w = 0))

/-- The field rules of the section of type `t`, given its bytes. -/
def sectFieldsOk (t : Nat) (x : Bytes) : Bool :=
  if t = 1 then
    decide (numAt x 0 8 ≠ 0) && zeroAt x 10 2 && asciiPadded (cutAt x 12 32) && zeroAt x 44 20
  else if t = 2 then
    (decide (numAt x 0 1 = 88) || decide (numAt x 0 1 = 128)) && inRange x 1 1 0 7 && inRange x 3 1 0 63 && zeroAt x 8 56 &&
      (decide (numAt x 1 1 < 4) || decide (numAt x 2 1 ≠ 0))
  else if t = 3 then
    inRange x 0 1 0 63 && zeroAt x 4 12 && ((List.range 32).all fun p => planPortOk (numAt x (16 + 4 * p) 4)) &&
      (List.range 128).all fun d => decide (numAt x (144 + 8 * d + 4) 4 % 2 ^ 31 = 0)
  else if t = 4 then
    inRange x 0 2 600 3200 && inRange x 2 2 600 3200 && inRange x 4 2 600 3200 && inRange x 6 1 1 30 && priorityOk (numAt x 7 1) &&
      inRange x 8 2 550 850 && decide (numAt x 8 2 % 10 = 0) && inRange x 10 1 30 90 && inRange x 11 1 1 20 &&
      inRange x 12 1 1 255 && zeroAt x 13 19
  else if t = 5 then
    inRange x 0 1 1 7 && inRange x 1 1 0 2 && inRange x 2 1 0 1 && inRange x 3 1 1 15 && decide (1 ≤ numAt x 4 4) &&
      inRange x 8 2 1 1440 && decide (1 ≤ numAt x 10 2) && zeroAt x 12 20
  else if t = 6 then
    zeroAt x 1 15 && decide (16 + 96 * numAt x 0 1 = x.length) && (roleEntries x).all roleOk
  else inRange x 0 1 0 63 && zeroAt x 1 1 && zeroAt x 10 6

/-- May a copy's roles section be applied (R602)? -/
def State.rolesOk (s : State) (b : Bytes) : Bool :=
  s.cold.roles.isEmpty || decide (roleEntries (sectBytes b 6) = s.cold.roles) ||
    (copySigned b && s.cold.roles.any fun e => decide (roleKeyId e = cutAt b (digestAt b + 64) 16) && roleHas e roleAdmin &&
      Config.slhDsaVerify (rolePublic e) (b.take (digestAt b + 64)) (cutAt b (digestAt b + 80) 29792))

/-- The cause for which the section of type `t` of a copy is held, 0 for none; `reload` at a section reload (R606, R612). -/
def State.sectCause (s : State) (b : Bytes) (t : Nat) (reload : Bool) : Nat :=
  let x := sectBytes b t
  if numAt b (16 * t + 2) 2 ≠ 1 then hcVersion
  else if !sectLengthOk b t then hcLength
  else if !sectFieldsOk t x then hcField
  else if t = 1 ∧ (numAt x 8 1 ≠ s.fld F.GLB_IDENT_VARIANT ∨ s.fld F.GLB_IDENT_STEPPING < numAt x 9 1) then hcMismatch
  else if t = 3 ∧ reload = true ∧ numAt x 0 1 ≠ s.chipId then hcMismatch
  else if t = 5 ∧ reload = true ∧ numAt x 1 1 ≠ s.evacReserve then hcMismatch
  else if t = 6 ∧ s.rolesOk b = false then hcRole
  else if t = 6 ∧ s.fld F.SEC_CF_STATUS_WIPE_BUSY = 1 then hcRole
  else 0

/-! ## Applying a section -/

/-- The HELD_SECT bit and the GLB_CFG_HOLD cause of a section. -/
def holdFld (t : Nat) : Fld := { reg := F.GLB_CFG_HOLD_CAUSEA.reg, hi := 4 * t - 1, lo := 4 * t - 4 }

def State.setCause (s : State) (t c : Nat) : State := s.setFld (holdFld t) c

def State.setHeldBit (s : State) (t : Nat) (b : Bool) : State :=
  let v := s.fld F.GLB_STATE_HELD_SECT
  s.setFld F.GLB_STATE_HELD_SECT (if v.testBit (t - 1) = b then v else v ^^^ 2 ^ (t - 1))

/-- A section held with a cause. -/
def State.holdSect (s : State) (t c : Nat) : State := (s.setCause t c).setHeldBit t true

/-- HST_STAGE_CFG.BASE as the memory section or its reset value gives it, lowered out of the evacuation pool (R580). -/
def State.setStageBase (s : State) (b : Nat) : State :=
  let top := 63 - 4 * s.evacReserve
  (s.sectionSet blkHst [fieldChange F.HST_STAGE_CFG_BASE (min b top)]).setFld F.HST_STAGE_CFG_MOVED (bit (decide (top < b)))

/-- What the section of type `t` sets beyond the bytes in force. -/
def State.sectEffect (s : State) (t : Nat) (x : Bytes) : State :=
  if t = 2 then (s.setStageBase (numAt x 3 1)).showLease
  else if t = 3 then
    s.sectionSet blkFab ((List.range 32).map fun p => fieldChange (F.FAB_PORT_CFG_MODE.at p) (numAt x (16 + 4 * p) 4 / 4 % 4))
  else if t = 4 then
    (s.sectionSet blkPwr [
      fieldChange F.PWR_CAP_HOST_W (numAt x 0 2), fieldChange F.PWR_CAP_WINDOW_S (numAt x 6 1),
      fieldChange F.PWR_POLICY_UNMANAGED_CAP_W (numAt x 2 2), fieldChange F.PWR_POLICY_WARN_CAP_W (numAt x 4 2),
      fieldChange F.PWR_POLICY_PRIORITY (numAt x 7 1), fieldChange F.PWR_POLICY_TRIM_CEILING (numAt x 8 2 / 10),
      fieldChange F.PWR_POLICY_MULCH_CENTRE_C (numAt x 10 1), fieldChange F.PWR_POLICY_MULCH_BAND_C (numAt x 11 1),
      fieldChange F.PWR_POLICY_HEARTBEAT_S (numAt x 12 1)]).noteTerms
  else if t = 6 then s.putRoles orHw (roleEntries x)
  else if t = 7 then
    (s.setCtx 0 cfCring (numAt x 0 1)).sectionSet blkDsp
      [{ addr := F.DSP_CLASS_LIMIT_LIMITA.reg, mask := fieldMask 63 0, value := BitVec.ofNat 64 (numAt x 2 8) }]
  else s

/-- The section's change-log entry: OLD zero where nothing was in force, as at cold start (R616, R838). -/
def State.logSection (s : State) (t : Nat) (old new : Bytes) : State :=
  s.logChange orHw 0x03 t (if old.isEmpty then logValue 0 else logDigest old) (logDigest new)

/-- The section of type `t` in force, with its bits and its entry. -/
def State.inForce (s : State) (t : Nat) (x : Bytes) : State :=
  let s1 : State := { s with conf := { s.conf with sect := mset (fun _ => []) s.conf.sect t x } }
  (((s1.setCause t 0).setHeldBit t false).setFld F.GLB_CFG_STATUS_APPLIED
    (s1.fld F.GLB_CFG_STATUS_APPLIED ||| 2 ^ (t - 1))).logSection t (s.sect t) x

/-- A section applied. -/
def State.applySect (s : State) (t : Nat) (x : Bytes) : State := (s.inForce t x).sectEffect t x

/-- Section `t` of the copy in use applied or held, at start (R606). -/
def State.startSect (s : State) (b : Bytes) (t : Nat) : State :=
  let c := s.sectCause b t false
  if c = 0 then s.applySect t (sectBytes b t) else s.holdSect t c

/-- GLB_CFG_STATUS for the copy in use: APPLIED keeps the sections of the same copy (R623). -/
def State.useCopy (s : State) (c : Nat) : State :=
  let q := copySequence (s.copyAt c)
  let same := decide (s.fld F.GLB_CFG_STATUS_IN_USE = c + 1) && decide (s.fld F.GLB_CFG_STATUS_SEQUENCE = q)
  ((s.setFld F.GLB_CFG_STATUS_IN_USE (c + 1)).setFld F.GLB_CFG_STATUS_SEQUENCE q).setFld F.GLB_CFG_STATUS_APPLIED
    (if same then s.fld F.GLB_CFG_STATUS_APPLIED else 0)

end Sys2Proof.Machine
end

