-- ==== Sys2Proof/Machine/Slots.lean ====
section
/-! DEFINITION. The firmware slots: their layout, state records and headers, and the checks of an image (R755 to R762, R767 to
R769). -/

namespace Sys2Proof.Machine

/-- The base of a firmware slot, 0 A and 1 B (R587). -/
def slotBase (k : Nat) : Nat := 0x1000000 + 0x2000000 * k
def slotPayload (k : Nat) : Nat := slotBase k + 0x8000
def slotSector (k : Nat) : Nat := slotBase k + 0x1FFF000

/-- The header bytes of a slot that a record and an authorisation name. -/
def headBytes : Nat := 2976
def headerBytes : Nat := 32768

def State.slotHeader (s : State) (k : Nat) : Bytes := s.flashRead (slotBase k) headerBytes
def headerDigest (h : Bytes) (n : Nat) : Bytes := shake256 (h.take headBytes) n

/-- RESULT codes of the update path (R794). -/
def fwOk : Nat := 0x01
def fwHeader : Nat := 0x02
def fwTarget : Nat := 0x03
def fwKey : Nat := 0x04
def fwSignature : Nat := 0x05
def fwSvn : Nat := 0x06
def fwDigest : Nat := 0x07
def fwAuth : Nat := 0x08
def fwSlot : Nat := 0x09
def fwState : Nat := 0x0A
def fwSource : Nat := 0x0B
def fwFlash : Nat := 0x0C
def fwConfig : Nat := 0x0D
def fwFallback : Nat := 0x0E
def fwTaken : Nat := 0x0F

/-- Record STATE of a slot, 0 EMPTY (R758). -/
def srEmpty : Nat := 0
def srInstalled : Nat := 1
def srGraft : Nat := 2
def srTaken : Nat := 3
def srRejected : Nat := 4

/-! ## State records (R758, R759) -/

def State.recordAt (s : State) (k i : Nat) : Bytes := s.flashRead (slotSector k + 64 * i) 64

/-- A record that is whole. -/
def recordWhole (r : Bytes) : Bool := decide (numAt r 0 4 = 0x52535856) && decide (cutAt r 48 16 = shake256 (r.take 48) 16)

/-- The position of the last whole record of a slot's sector. -/
def State.lastRecord (s : State) (k : Nat) : Option Nat :=
  (List.range 64).reverse.find? fun i => recordWhole (s.recordAt k i)

/-- The current record of a slot, none where the slot is EMPTY. -/
def State.slotRecord (s : State) (k : Nat) : Option Bytes :=
  match s.lastRecord k with
  | none => none
  | some i => if cutAt (s.recordAt k i) 16 32 = headerDigest (s.slotHeader k) 32 then some (s.recordAt k i) else none

def State.slotState (s : State) (k : Nat) : Nat := ((s.slotRecord k).map fun r => numAt r 4 1).getD srEmpty
def State.slotSeq (s : State) (k : Nat) : Nat := ((s.slotRecord k).map fun r => numAt r 8 4).getD 0

/-- The SEQ of a new record: one above the highest found in either slot (R759). -/
def State.nextRecordSeq (s : State) : Nat :=
  let seqs := [0, 1].flatMap fun k => (List.range 64).filterMap fun i =>
    let r := s.recordAt k i
    if recordWhole r then some (numAt r 8 4) else none
  match seqs with
  | [] => 0
  | q :: qs => (qs.foldl (fun a b => if newerSeq a b then a else b) q + 1) % 2 ^ 32

/-- VERSION and SVN of a slot's header; zero where there is no header. -/
def State.slotVersion (s : State) (k : Nat) : Nat :=
  if numAt (s.slotHeader k) 0 4 = 0x57465856 then numAt (s.slotHeader k) 8 4 else 0
def State.slotSvn (s : State) (k : Nat) : Nat :=
  if numAt (s.slotHeader k) 0 4 = 0x57465856 then numAt (s.slotHeader k) 12 2 else 0

/-- FWU_SLOT brought up to date (R795). -/
def State.showSlot (s : State) (k : Nat) : State :=
  (((s.setFld (F.FWU_SLOT_VERSION.at k) (s.slotVersion k)).setFld (F.FWU_SLOT_SVN.at k) (s.slotSvn k)).setFld
    (F.FWU_SLOT_SEQ.at k) (s.slotSeq k % 256)).setFld (F.FWU_SLOT_STATE.at k) (s.slotState k)

/-- VERSION, SVN and record STATE of a slot, as the change log holds them (R838 class 0x07). -/
def State.slotValue (s : State) (k : Nat) : Bytes :=
  bytesOfNat 4 (s.slotVersion k) ++ bytesOfNat 2 (s.slotSvn k) ++ bytesOfNat 1 (s.slotState k) ++ List.replicate 5 0

/-- A new record of a slot, in the place after its last whole record, with its entry. -/
def State.writeRecord (s : State) (origin k st : Nat) : State :=
  let i := match s.lastRecord k with
    | none => 0
    | some j => j + 1
  let b := bytesOfNat 4 0x52535856 ++ bytesOfNat 4 st ++ bytesOfNat 8 s.nextRecordSeq ++ headerDigest (s.slotHeader k) 32
  let t := if i < 64 then s.flashWrite (slotSector k + 64 * i) (b ++ shake256 b 16) else s
  (t.showSlot k).logChange origin 0x07 k (s.slotValue k) (t.slotValue k)

/-! ## Headers (R756, R757, R761) -/

/-- A component entry of a header. -/
def componentAt (h : Bytes) (i : Nat) : Bytes := cutAt h (128 + 96 * i) 96
def componentCount (h : Bytes) : Nat := numAt h 17 1
def components (h : Bytes) : List Bytes := (List.range (componentCount h)).map (componentAt h)
def payloadBytes (h : Bytes) : Nat := numAt h 20 4

/-- The component rules of R757. -/
def componentsOk (h : Bytes) : Bool :=
  let cs := components h
  let ofType (t : Nat) : Nat := (cs.filter fun c => decide (numAt c 0 1 = t)).length
  let stop := cs.foldl (fun (a : Option Nat) c => a.bind fun o =>
    if numAt c 4 4 = o ∧ numAt c 8 4 % 64 = 0 then some (o + numAt c 8 4) else none) (some 0)
  (cs.all fun c => decide (1 ≤ numAt c 0 1) && decide (numAt c 0 1 ≤ 3) && zeroAt c 1 1 && zeroAt c 12 20) &&
    decide (stop = some (payloadBytes h)) && decide (ofType 1 = 1) && decide (ofType 2 = 1) && decide (ofType 3 ≤ 1)

/-- The form of a header. -/
def headerFormOk (h : Bytes) : Bool :=
  decide (h.length = headerBytes) && decide (numAt h 0 4 = 0x57465856) && decide (numAt h 4 2 = 1) && decide (numAt h 6 2 ≤ 1) &&
    decide (1 ≤ componentCount h) && decide (componentCount h ≤ 8) && zeroAt h 18 2 && zeroAt h 40 88 && zeroAt h 896 2080 &&
    zeroAt h (128 + 96 * componentCount h) (768 - 96 * componentCount h) && decide (payloadBytes h % 64 = 0) &&
    decide (payloadBytes h ≤ 0x1FF7000) && componentsOk h

/-- The checks of step 2 of R761 but for AUTH and SLOT, in their order: 0 where the header passes. -/
def State.checkHeader (s : State) (h : Bytes) : Nat :=
  if !headerFormOk h then fwHeader
  else if numAt h 14 1 ≠ s.fld F.GLB_IDENT_VARIANT ∨ s.fld F.GLB_IDENT_STEPPING < numAt h 15 1 ∨
      numAt h 16 1 < s.fld F.GLB_IDENT_STEPPING then fwTarget
  else
    match Config.trustAnchors.find? fun a => decide (a.1 = cutAt h 24 16) with
    | none => fwKey
    | some a =>
      if !Config.slhDsaVerify a.2 (h.take headBytes) (h.drop headBytes) then fwSignature
      else if numAt h 12 2 < s.fld F.FWU_SVN_MIN_SVN then fwSvn
      else 0

/-- Does the digest of every component of a header match the payload in the slot (step 4 of R761)? -/
def State.payloadOk (s : State) (k : Nat) (h : Bytes) : Bool :=
  (components h).all fun c => decide (shake256 (s.flashRead (slotPayload k + numAt c 4 4) (numAt c 8 4)) 64 = cutAt c 32 64)

/-- The DIGEST of the component of a type in a slot's header; empty where there is none (R788). -/
def State.componentDigest (s : State) (k t : Nat) : Bytes :=
  (((components (s.slotHeader k)).find? fun c => decide (numAt c 0 1 = t)).map fun c => cutAt c 32 64).getD []

/-! ## The security version (R767, R768) -/

/-- MIN_SVN raised, with its fuse, its entry and its event. -/
def State.raiseSvn (s : State) (origin v : Nat) : State :=
  let n := s.fld F.FWU_SVN_FUSES
  if s.fld F.FWU_SVN_MIN_SVN < v ∧ n < 128 then
    let value (m f : Nat) : Bytes := bytesOfNat 2 m ++ bytesOfNat 1 f ++ List.replicate 9 0
    ((({ s with cold := { s.cold with svnCount := n + 1 } } : State).setFld F.FWU_SVN_MIN_SVN v).setFld F.FWU_SVN_FUSES (n + 1)
      |>.logChange origin 0x07 0xFFFF (value (s.fld F.FWU_SVN_MIN_SVN) n) (value v (n + 1))).raiseEvent 0x35 v (n + 1)
  else s

/-- The mirror settled at cold start (R767): the missing fuse burned, or a failed hub self-test. -/
def State.settleMirror (s : State) : State :=
  let n := s.fld F.FWU_SVN_FUSES
  if s.cold.svnCount = n then s
  else if s.cold.svnCount = n + 1 then s.setFld F.FWU_SVN_FUSES (n + 1)
  else { s with boot := { s.boot with hubBad := true } }

/-! ## The choice at cold start (R769) -/

/-- The TAKEN slots, newest record first. -/
def State.takenSlots (s : State) : List Nat :=
  let a := decide (s.slotState 0 = srTaken)
  let b := decide (s.slotState 1 = srTaken)
  if a && b then (if newerSeq (s.slotSeq 0) (s.slotSeq 1) then [0, 1] else [1, 0])
  else if a then [0] else if b then [1] else []

/-- Does a slot pass the ROM's checks? -/
def State.slotPasses (s : State) (k : Nat) : Bool :=
  decide (s.checkHeader (s.slotHeader k) = 0) && s.payloadOk k (s.slotHeader k)

/-- The slot the active controller runs, 0 A and 1 B. -/
def State.runningSlot (s : State) : Nat := if s.fld F.FWU_STATUS_RUNNING = 2 then 1 else 0

end Sys2Proof.Machine
end

