-- ==== Sys2Proof/Machine/Faults.lean ====
section
/-! DEFINITION. What the larger resets share: OFF, the remap table, pads made undefined, the package count, FALLOW, SAFE and the
start of a package recovery (R32, R609, R613 to R618, R659 to R662, R698 to R713, R732, R734). -/

namespace Sys2Proof.Machine

/-! ## OFF (R617, R666, R869, R870) -/

/-- The registers that fuses and non-volatile memory hold without power. -/
def State.fuseRegs (s : State) : State :=
  let z : State := { State.reset with regs := [] }
  let keep (z : State) (f : Fld) : State := z.setFld f (s.fld f)
  (((((((keep z F.GLB_STATE_LIFECYCLE).setFld F.FWU_SVN_MIN_SVN (s.fld F.FWU_SVN_MIN_SVN)).setFld F.FWU_SVN_FUSES
    (s.fld F.FWU_SVN_FUSES)).setFld F.SEC_CF_STATUS_WIPE_COUNT (s.fld F.SEC_CF_STATUS_WIPE_COUNT)).setFld
    F.SEC_CF_STATUS_CAUSE_OWNER (s.fld F.SEC_CF_STATUS_CAUSE_OWNER)).setFld
    F.SEC_CF_STATUS_CAUSE_LIFECYCLE (s.fld F.SEC_CF_STATUS_CAUSE_LIFECYCLE)).setFld
    F.SEC_CF_STATUS_CAUSE_TAMPER (s.fld F.SEC_CF_STATUS_CAUSE_TAMPER)).setFld F.HST_LINK_STATUS_STATE 0

/-- The device goes to OFF: what is left is the flash, the non-volatile partitions of the cold frame, the fuses and the pins. -/
def State.powerOff (s : State) : State :=
  { State.reset with
    pending := s.pending, freeCtr := s.freeCtr, out := s.out, off := true, flash := s.flash, repair := s.repair
    regs := s.fuseRegs.regs, conf := {}
    host := { perst := s.host.perst, partnerSpeed := s.host.partnerSpeed, partnerWidth := s.host.partnerWidth }
    cold := { roles := s.cold.roles, svnCount := s.cold.svnCount, eraseDue := s.cold.eraseDue, identity := none }
    gov := { warn := s.gov.warn, fault := s.gov.fault, rackRuns := false }
    boot := { stage := 0, refclk := s.boot.refclk, flashBad := s.boot.flashBad }
    clock := { reachedReady := false, discoveryEnd := none }
    tap := { trst := s.tap.trst } }

/-! ## The remap table and spares (R40, R716, R717, R747, R752) -/

/-- The physical cluster that the repair records give a logical cluster. -/
def State.remapOf (s : State) (l : Nat) : Nat :=
  let e := mget (fun _ => 0) s.repair.remap l
  if e = 0 then mapR40 l else e - 1

/-- The free spares of a die, lowest first: not in the remap table, not retired and not failed. -/
def State.freeSpares (s : State) (d : Nat) : List Nat :=
  (List.range 66).filterMap fun i =>
    let p := 66 * d + i
    if ((List.range 64).any fun j => decide (s.remapOf (64 * d + j) = p)) || s.repair.failed.contains p then none else some p

/-- The spare of R714 for a cluster that leaves: of the same quadrant where there is one, otherwise the lowest. -/
def State.chooseSpare (s : State) (p : Nat) (busy : List Nat) : Option Nat :=
  let free := (s.freeSpares (dieOf p)).filter fun q => !busy.contains q
  match free.find? fun q => decide (quadOf q = quadOf p) with
  | some q => some q
  | none => free.head?

/-- RAS_REMAP and RAS_SPARE_STATUS from the repair records. -/
def State.showRemap (s : State) : State :=
  let s1 := (List.range 256).foldl (fun (s : State) l =>
    (s.setFld (F.RAS_REMAP_PHYS.at l) (s.remapOf l)).setFld (F.RAS_REMAP_LOST.at l) (bit (s.repair.lost.contains l))) s
  (((((s1.setFld F.RAS_SPARE_STATUS_REMAPS (min 65535 s.repair.remaps)).setFld F.RAS_SPARE_STATUS_LOST
    (min 255 s.repair.lost.length)).setFld F.RAS_SPARE_STATUS_FREEA (s.freeSpares 0).length).setFld F.RAS_SPARE_STATUS_FREEB
    (s.freeSpares 1).length).setFld F.RAS_SPARE_STATUS_FREEC (s.freeSpares 2).length).setFld F.RAS_SPARE_STATUS_FREED
    (s.freeSpares 3).length

/-- A remap written to the repair records by the active controller, under its epoch, with its entry (R296, R297, R715, R838). -/
def State.putRemap (s : State) (l q : Nat) : State :=
  ((s.writeRepair fun r => { r with remap := mset (fun _ => 0) r.remap l (q + 1), remaps := r.remaps + 1 }).logRepair 1 l (s.remapOf l) q).showRemap

/-! ## Clusters in a larger reset (R292, R684, R696) -/

/-- The pad of a cluster made undefined (R292), but for banks that are OFF: they read zero when woken (R287). -/
def State.padUndefined (s : State) (p : Nat) : State :=
  let s1 : State := { s with
    pad := s.pad.filter (fun e => decide (e.1 / 0x100000 ≠ p)), padFlaw := s.padFlaw.filter fun e => decide (e.1 / 0x8000 ≠ p) }
  (s1.setClu p { s1.clu p with padEpoch := s.freeCtr + 1, padZero := (List.range 16).filter fun b => decide (s.bankCfg p (64 + b) = 2) }).drawn

/-- CGEN[p] advances (R683). -/
def State.bumpCgen (s : State) (p : Nat) : State := s.setClu p { s.clu p with cgen := ((s.clu p).cgen + 1) % 4096 }

/-! ## Escalation counts (R706, R709, R744) -/

/-- The times of a list that lie within `w` nanoseconds. -/
def recent (now w : Nat) (ts : List Nat) : List Nat := ts.filter fun t => decide (now < t + w)

def State.upperWindow (s : State) : Nat := nsSec * s.fld F.RAS_ESC_CFG_UPPER_WINDOW_S
def State.pkgWindow (s : State) : Nat := 60 * nsSec * s.escWindowMin

/-- The counts of the windows shown. -/
def State.showEsc (s : State) : State :=
  let r := { s.ras with
    pkg := recent s.stepNow s.pkgWindow s.ras.pkg, compResets := recent s.stepNow s.upperWindow s.ras.compResets
    quadResets := recent s.stepNow s.upperWindow s.ras.quadResets }
  ((({ s with ras := r } : State).setFld F.RAS_ESC_STATUS_PKG_COUNT (min 16 r.pkg.length)).setFld
    F.RAS_ESC_STATUS_COMPUTE_COUNT (min 255 r.compResets.length)).setFld F.RAS_ESC_STATUS_QUAD_COUNT (min 255 r.quadResets.length)

def State.countPkg (s : State) : State := ({ s with ras := { s.ras with pkg := s.ras.pkg ++ [s.stepNow] } } : State).showEsc

/-! ## Ends of work -/

/-- Every step in flight ends with DEVICE_STATE, or with the failure it already has (R365). -/
def State.endSteps (s : State) : State :=
  s.disp.steps.foldl (fun (s : State) t => s.endStep t (t.fail.getD { status := stDeviceState })) s

/-- The collectives in progress end with RESET, with their ABORT where no READY has been sent (R526, R529). -/
def State.resetColls (s : State) : State :=
  (s.col.colls.filter fun c => c.readyAt.isNone).foldl (fun (s : State) c => s.endColl c caReset true) s

/-- No command of the governor is under way or held (R668). -/
def State.dropPower (s : State) : State := { s with gov := { s.gov with due := none, moving := none, rows := [], held := none } }

/-- The controllers send no further request: those not sent, and reads, are given up, and writes in flight wait on (R421). -/
def State.quiesce (s : State) : State :=
  { s with mem := { s.mem with
    reqs := s.mem.reqs.filter fun r => r.write && r.sent, waits := s.mem.waits.filter fun w => w.req.isNone } }

/-- Every write in flight is acknowledged, as the domains wait for it (R421; log entry 74). -/
def State.settleWrites (s : State) : State := s.mem.reqs.foldl State.answerReq s

/-- A table swap before its exchange is cancelled, and a section reload in progress is ABANDONED (R615, R719). -/
def State.abandonReload (s : State) : State :=
  let s1 := ((({ s with fab := { s.fab with swapAt := none } } : State).setFld F.FAB_STATUS_SWAP_PENDING 0).setFld F.FAB_CTL_SWAP 0)
  if s.fld F.GLB_CFG_RELOAD_GO = 1 then
    (({ s1 with conf := { s1.conf with memDue := none, fabDue := none }, boot := { s1.boot with reload := none } } : State).setFld
      F.GLB_CFG_RELOAD_GO 0).setFld F.GLB_CFG_STATUS_RELOAD_RESULT 4
  else s1

/-- The domains of SAFE and FALLOW: lanes in self-refresh, ports dark, quadrants and spines off (R659, R661). Where they are DARK, the SRAM
domains are Off too, and HUB_CORE, which a dead-man entry keeps On (R53, R292, R732; log entry 75). -/
def State.domainsSafe (s : State) (dark keepHub : Bool) : State :=
  let s1 := ((s.quiesce.settleWrites.lightOff cfPortDown).lanesOff).dropPower
  let s2 := s1.padsOff.setPow orHw (if dark then psDark else psQuiet)
  let s3 := if dark then s2.slicesOff else s2
  let s4 := if dark && !keepHub then s3.hubLost else s3
  s4.setFld F.GLB_STATE_POWER_TARGET (if dark then psDark else psQuiet)

/-- Is the power state DARK, or a command to it due or in progress (R58, R660)? -/
def State.darkening (s : State) : Bool :=
  decide (s.powState = psDark) || (s.gov.due.toList ++ s.gov.moving.toList).any fun c => decide (c.1 = psDark)

/-! ## FALLOW (R713) -/

/-- Entry to FALLOW. -/
def State.enterFallow (s : State) : State :=
  let s1 := ((s.resetColls.sendAborts).endSteps.abandonReload.sendNotices 5).domainsSafe s.darkening false
  let s2 : State := { s1 with
    gov := { s1.gov with alert := true, thermtrip := false }
    boot := { s1.boot with stage := 6 }
    recovery := none, safe := none }
  ((((s2.setFld F.GLB_STATE_POWER_TARGET psQuiet).setFld F.RAS_ESC_STATUS_LAST_LEVEL 6).setFld F.GLB_DEV_CMD_RECOVER 0).setDev orHw
    dsFallow).raiseEvent 0x0F 0 (s2.fld F.RAS_ESC_STATUS_PKG_COUNT)

/-! ## SAFE (R618, R659, R660, R732, R734) -/

/-- A trip in SAFE after a dead-man entry: its exit waits as after any trip, and a power command since then is discarded (R659, R660,
R662, R668). -/
def State.tripSafe (s : State) (trip : Bool) : State :=
  if trip then
    ({ s with safe := s.safe.map fun f => { f with trip := true }, boot := { s.boot with staged := none } } : State).setFld
      F.GLB_STATE_POWER_TARGET (if s.powState = psDark then psDark else psQuiet)
  else s

/-- Entry to SAFE by a trip or by the dead-man timer; in SEEDBED and FALLOW the device state stays. -/
def State.enterSafe (s : State) (trip : Bool) : State :=
  let s0 : State :=
    if trip then ({ s with gov := { s.gov with thermtrip := true } } : State).setFld F.PWR_STATUS_TRIP_SEEN 1
    else { s with gov := { s.gov with alert := true } }
  if s.off ∨ s.devState = dsSeedbed ∨ s.devState = dsFallow then s0
  else if s.devState = dsSafe then s0.tripSafe trip
  else
    let before := (s.recovery.map (·.before)).getD s.devState
    let s1 := ((s0.resetColls.sendAborts).endSteps.abandonReload.sendNotices 3).domainsSafe s.darkening (!trip)
    let s2 : State := { s1 with
      gov := { s1.gov with alert := true }
      boot := { s1.boot with staged := none }
      recovery := none
      safe := some { before := before, trip := trip } }
    (((s2.countPkg.setFld F.RAS_ESC_STATUS_LAST_LEVEL 5).setFld F.GLB_DEV_CMD_RECOVER 0).setDev orHw dsSafe).raiseEvent 0x10 0
      (if trip then 1 else 2)

/-! ## Package recovery (R698 to R705) -/

/-- The codes of RAS_HARVEST.CAUSE. -/
def hvHubStall : Nat := 1
def hvEscalation : Nat := 2
def hvRecover : Nat := 3
def hvSafeExit : Nat := 4
def hvHubState : Nat := 5
def hvController : Nat := 6

/-- A step whose READY has been sent keeps its state; every other step in flight replays with cause 0x07 (R177, R530). -/
def State.replayAll (s : State) : State :=
  s.disp.steps.foldl (fun (s : State) t =>
    if s.col.colls.any (fun c => decide (c.lead = t.lead) && c.readyAt.isSome) then s else s.replayStep t.lead 7 []) s

/-- An install pauses during HARVEST and RESETTING (R764). -/
def State.pauseInstall (s : State) (b : Bool) : State :=
  match s.firm.install with
  | none => s
  | some i => ({ s with firm := { s.firm with install := some { i with paused := b } } } : State).setFld F.FWU_STATUS_STATE
      (if b then 3 else 2)

/-- A package recovery begins (events 1 to 4 of R703), or a further cause is recorded during one (R705). `fault` says that it
counts toward ESC_LIMIT (R709, R621). -/
def State.startRecovery (s : State) (cause : Nat) (fault : Bool) : State :=
  match s.recovery with
  | some r => { s with recovery := some { r with more := r.more ++ [cause] } }
  | none =>
    if s.devState ≠ dsConfiguring ∧ s.devState ≠ dsHeld ∧ s.inService = false then s
    else
      let before := s.devState
      let s1 := ((s.resetColls.sendAborts.replayAll.abandonReload.sendNotices 2).quiesce.dropPower).pauseInstall true
      let s2 := if fault then s1.countPkg else s1
      let s3 := ((s2.addSat F.RAS_ESC_STATUS_PKG_TOTAL 1).setFld F.RAS_ESC_STATUS_LAST_LEVEL 4).setFld F.RAS_HARVEST_CAUSE cause
      ({ s3 with recovery := some { began := s.now, time := s.stepClock, before := before, fault := fault } } : State).setDev orHw dsHarvest

end Sys2Proof.Machine
end

