-- ==== Sys2Proof/Machine/HostPort.lean ====
section
/-! DEFINITION. The host port: configuration space, host-port resets, optical lanes, host reads and posted writes, the staging
window, and MCTP over VDM (R542 to R576). The layout of the PCIe structures and the bits a configuration write changes are
those of the PCI Express Base Specification (log entry 8). -/

namespace Sys2Proof.Machine

/-! ## Link state (R560, R578) -/

def lsDown : Nat := 0
def lsTraining : Nat := 1
def lsUp : Nat := 2
def lsResetting : Nat := 3

def State.linkState (s : State) : Nat := s.fld F.HST_LINK_STATUS_STATE

/-- The widest width of at most `most` lanes whose lanes are all whole, of 16, 8, 4, 2 and 1 in aligned groups (R542, R544). -/
def wholeWidth (most : Nat) (lost : List Nat) : Nat :=
  ([16, 8, 4, 2, 1].find? fun w =>
    decide (w ≤ most) && (List.range (16 / w)).any fun g => !(lost.any fun l => decide (l / w = g))).getD 0

/-- The width that the link trains to: the widest that both ends support and whose lanes are whole (R542, R544). -/
def State.trainedWidth (s : State) : Nat := wholeWidth s.host.partnerWidth s.host.lostLanes

/-- The speed that the link trains to: the fastest that both ends support, 32 GT/s here (R542). -/
def State.trainedSpeed (s : State) : Nat := min 5 s.host.partnerSpeed

/-- The link trained, at its speed and width. -/
def State.linkUp (s : State) : State :=
  (((s.setFld F.HST_LINK_STATUS_STATE lsUp).setFld F.HST_LINK_STATUS_SPEED s.trainedSpeed).setFld F.HST_LINK_STATUS_WIDTH
    s.trainedWidth).showStopped

/-- The link down or training: no speed and no width. -/
def State.linkLow (s : State) (st : Nat) : State :=
  (((s.setFld F.HST_LINK_STATUS_STATE st).setFld F.HST_LINK_STATUS_SPEED 0).setFld F.HST_LINK_STATUS_WIDTH 0).showStopped

/-! ## Host reads and writes that fail (R559, R560, R566) -/

/-- The step of a barrow fails with WINDOW. -/
def State.failBarrow (s : State) (o : Option (Nat × Nat)) : State :=
  match o with
  | none => s
  | some (p, id) => s.refuse p (s.descPc p id) 0x42 rcWindow

/-- The barrows still queued toward the host fail (R560). -/
def State.failQueued (s : State) : State :=
  let q := s.host.reads.filter fun r => !r.sent
  let s1 : State := { s with host := { s.host with reads := s.host.reads.filter (·.sent) } }
  q.foldl (fun s r => s.failBarrow r.owner) s1

/-- Host traffic has stopped or not: STOPPED shown, and queued barrows fail while it is. -/
def State.checkTraffic (s : State) : State :=
  let s1 := s.showStopped
  if s1.hostStopped then s1.failQueued else s1

/-! ## Host-port reset (R565 to R569) -/

/-- The owner of an unacknowledged data write. -/
def TlpKind.owner : TlpKind → Option (Nat × Nat)
  | .barrow p id _ _ => some (p, id)
  | _ => none

/-- A WRITE of another chip into host memory that a reset cuts off is answered HOST_STOPPED (R449). -/
def State.stopRemote (s : State) (k : TlpKind) : State :=
  match k with
  | .remote n =>
    let inb := s.fab.inbound.map fun e => if e.1 = n then (e.1, { e.2 with w3 := BitVec.ofNat 64 akHostStopped }) else e
    ({ s with fab := { s.fab with inbound := inb } } : State).finishInbound n
  | _ => s

/-- What a host-port reset does, whatever its cause. -/
def State.hostReset (s : State) : State :=
  let reads := s.host.reads
  let writes := s.host.unacked
  let s1 := s.setFld F.HST_LINK_STATUS_HOST_GEN ((s.fld F.HST_LINK_STATUS_HOST_GEN + 1) % 4096)
  let s2 : State := { s1 with
    host := { s1.host with reads := [], unacked := [], cfg := [] }
    regs := mclear s1.regs 0xE10000 0x8100
    disp := { s1.disp with records := s1.disp.records.map fun r => { r with sent := false, acks := 2 } } }
  let s3 := reads.foldl (fun s r => s.failBarrow r.owner) s2
  let s4 := writes.foldl (fun s w => (s.failBarrow w.kind.owner).stopRemote w.kind) s3
  let s5 := (List.range 16).foldl (fun (s : State) l =>
    ((s.laneReset l).setFld (F.DSP_LANE_CFG_ENABLE.at l) 0).setFld (F.DSP_LANE_CREDIT_ADDR_ADDR.at l) 0) s4
  let s6 := (List.range 64).foldl (fun (s : State) r =>
    (s.setFld (F.DSP_CRING_CFG_ENABLE.at r) 0).setFld (F.DSP_CRING_BASE_ADDR.at r) 0) s5
  (s6.setFld F.HST_MCTP_CFG_EID 0).raiseEvent 0x29 0 (s6.fld F.HST_LINK_STATUS_HOST_GEN)

/-- FUNCTION_LEVEL_RESET: the reset starts, and configuration requests are retried until it completes (R569). -/
def State.doFunctionLevelReset (s : State) : State :=
  if s.hostLinked then (s.hostReset.setFld F.HST_LINK_STATUS_STATE lsResetting).showStopped else s

def execFunctionLevelReset (s : State) : Host.Outcome State Fault Refusal := .next s.doFunctionLevelReset

/-- FLR_COMPLETE. -/
def State.doFlrComplete (s : State) : State :=
  if !s.off && decide (s.linkState = lsResetting) then (s.setFld F.HST_LINK_STATUS_STATE lsUp).showStopped else s

def execFlrComplete (s : State) : Host.Outcome State Fault Refusal := .next s.doFlrComplete

/-- HOT_RESET and LINK_DOWN: the reset starts, and the link trains again. -/
def State.dropLink (s : State) : State :=
  if !s.off && (decide (s.linkState = lsUp) || decide (s.linkState = lsResetting)) then s.hostReset.linkLow lsTraining else s

def State.doHotReset (s : State) : State := s.dropLink
def State.doLinkDown (s : State) : State := s.dropLink

def execHotReset (s : State) : Host.Outcome State Fault Refusal := .next s.doHotReset
def execLinkDown (s : State) : Host.Outcome State Fault Refusal := .next s.doLinkDown

/-- The level of PERST_N. -/
def State.setPerst (s : State) (low : Bool) : State := { s with host := { s.host with perst := low } }

/-- PERST_N_ASSERT: the reset starts, and the link stays down while the line is low; of a part that is OFF only the level is kept, which
its next start finds (R864). -/
def State.doPerstNAssert (s : State) : State :=
  if s.off then s.setPerst true
  else if s.host.perst then s
  else (s.hostReset.setPerst true).linkLow lsDown

def execPerstNAssert (s : State) : Host.Outcome State Fault Refusal := .next s.doPerstNAssert

/-- PERST_N_RELEASE: training starts, or, before event 3 of R608, starts with that event (R864). -/
def State.doPerstNRelease (s : State) : State :=
  if s.off then s.setPerst false
  else if s.host.perst then (s.setPerst false).linkLow lsTraining
  else s

def execPerstNRelease (s : State) : Host.Outcome State Fault Refusal := .next s.doPerstNRelease

/-- The vectors with a pending bit. -/
def State.pendingVectors (s : State) : List Nat :=
  (List.range 32).flatMap fun i =>
    let w := s.reg (pbaReg (64 * i))
    if w = 0 then [] else ((List.range 64).filter fun b => w.getLsbD b).map fun b => 64 * i + b

/-- Records of a ring written while they may be. -/
def State.flushRing (s : State) (r : Nat) : State :=
  (s.ringRecords r).foldl (fun s _ => s.doCompletionRecordWrite r) s

/-- HOST_TRAFFIC_RESUME: a link that was training is up; deferred credits, held records and pending messages leave (R339, R356,
R560, R564). -/
def State.doHostTrafficResume (s : State) : State :=
  if s.off || s.host.perst then s
  else
    let s1 := (if s.linkState = lsTraining ∧ s.trainedWidth ≠ 0 then s.linkUp else s).showStopped
    if s1.hostStopped then s1
    else
      let s2 := s1.disp.creditDue.foldl (fun s l => s.doCreditWrite l) s1
      let s3 := (List.range 64).foldl (fun s r => s.flushRing r) s2
      (s3.pendingVectors).foldl (fun s v => s.doMsixPendingSend v) s3

def execHostTrafficResume (s : State) : Host.Outcome State Fault Refusal := .next s.doHostTrafficResume

/-! ## Optical lanes of LE0 (R544, R718) -/

/-- Is the link in L0, so that a substitution or a narrowing passes it through Recovery? -/
def State.linkInL0 (s : State) : Bool := decide (s.linkState = lsUp) || decide (s.linkState = lsResetting)

/-- One passage of the link through Recovery (R544). -/
def State.passRecovery (s : State) : State := if s.linkInL0 then s.addSat F.HST_LINK_STATUS_RECOVERIES 1 else s

/-- HOST_OPTICAL_LANE_FAIL: a spare is substituted through one Recovery, or the link narrows; a link with no lane left goes down. A link
that is not up keeps the failure for its next training. -/
def State.doHostOpticalLaneFail (s : State) (x : OpticalLane) : State :=
  let lane := x.lane
  if s.off = false ∧ lane < 16 ∧ s.laneFails x = true ∧ lane ∉ s.host.lostLanes ∧ lane ∉ s.host.sparing then
    if s.sparesUsed 0 < 2 then
      let s1 := s.passRecovery.bookSpare 0 0 lane
      { s1 with host := { s1.host with sparing := s1.host.sparing ++ [lane] } }
    else
      let s1 : State := { s with host := { s.host with lostLanes := s.host.lostLanes ++ [lane] } }
      if !s1.linkInL0 then s1
      else if s1.trainedWidth = 0 then s1.passRecovery.dropLink
      else s1.passRecovery.setFld F.HST_LINK_STATUS_WIDTH s1.trainedWidth
  else s

def execHostOpticalLaneFail (lane : OpticalLane) (s : State) : Host.Outcome State Fault Refusal := .next (s.doHostOpticalLaneFail lane)

/-- HOST_SPARE_DONE: the oldest substitution completes. -/
def State.doHostSpareDone (s : State) : State :=
  match s.host.sparing with
  | [] => s
  | lane :: rest =>
    let s1 : State := { s with host := { s.host with sparing := rest } }
    (s1.setFld F.HST_LINK_STATUS_SPARES (s.sparesUsed 0 - rest.length)).raiseEvent 0x18 0 lane

def execHostSpareDone (s : State) : Host.Outcome State Fault Refusal := .next s.doHostSpareDone

/-! ## Completions of host reads (R555, R559, R566, R695) -/

/-- A host read forgotten. -/
def State.dropRead (s : State) (r : HostRead) : State :=
  { s with host := { s.host with reads := s.host.reads.filter fun x => decide (x ≠ r) } }

/-- The data of a whole host read kept for its transfer, if its stamps still stand (R358, R693). -/
def State.landRead (s : State) (r : HostRead) (data : Bytes) : State :=
  if s.ctx r.ctx cfGen ≠ r.ctxGen then s.addSat F.CTX_STATS_PRUNED 1
  else
    match r.owner with
    | none => s
    | some (p, id) =>
      if s.cgenOf p ≠ r.cgen then s.addSat F.RAS_PRUNE_CLUSTER 1
      else s.holdBytes p id r.slice r.off data

/-- A read that ended without its data forgotten: a reply of an old generation of its context is dropped and counted (R358), any other
is taken as `f` says. -/
def State.endRead (s : State) (r : HostRead) (f : State → State) : State :=
  (if s.ctx r.ctx cfGen ≠ r.ctxGen then (s.dropRead r).addSat F.CTX_STATS_PRUNED 1 else f (s.dropRead r)).sendHostReads

/-- The outstanding host read of a tag. -/
def State.readOf (s : State) (tag : Nat) : Option HostRead := s.host.reads.find? fun r => r.sent && decide (r.tag = tag)

/-- A poisoned completion, treated as an uncorrectable code word: the step replays (R559). -/
def State.poisonedRead (s : State) (r : HostRead) : State :=
  match r.owner with
  | none => s
  | some (p, _) => s.stepFault p 2 0x07

/-- HOST_READ_COMPLETION. During a Function Level Reset the link stays in L0, and completions still arrive (R566). -/
def State.doHostReadCompletion (s : State) (tag gen : Nat) (st : CplStatus) (data : Bytes) : State :=
  if s.off || !s.linkInL0 then s
  else
    match (if gen = s.fld F.HST_LINK_STATUS_HOST_GEN then s.readOf tag else none) with
    | none => s.addSat F.HST_ERR_PRUNED 1
    | some r =>
      match st with
      | .ok =>
        let got := (r.got ++ data).take r.len
        if got.length < r.len then
          { s with host := { s.host with reads := s.host.reads.map fun x => if x = r then { r with got := got } else x } }
        else ((s.dropRead r).landRead r got).sendHostReads
      | .unsupported => (s.aer 20).endRead r fun s => (s.addSat F.HST_ERR_HOST_READ_FAIL 1).failBarrow r.owner
      | .abort => (s.aer 15).endRead r fun s => (s.addSat F.HST_ERR_HOST_READ_FAIL 1).failBarrow r.owner
      | .poisoned => (s.aer 12).endRead r fun s => (s.addSat F.HST_ERR_HOST_POISON 1).poisonedRead r
      | .ecrc => (s.aer 19).endRead r fun s => (s.addSat F.HST_ERR_HOST_POISON 1).poisonedRead r

def execHostReadCompletion (tag : Nat) (gen : BitVec 12) (status : CplStatus) (data : Bytes) (s : State) :
    Host.Outcome State Fault Refusal := .next (s.doHostReadCompletion tag gen.toNat status data)

/-- HOST_COMPLETION_TIMEOUT. -/
def State.doHostCompletionTimeout (s : State) (tag : Nat) : State :=
  match s.readOf tag with
  | none => s
  | some r => ((((s.dropRead r).aer 14).addSat F.HST_ERR_HOST_READ_FAIL 1).failBarrow r.owner).sendHostReads

def execHostCompletionTimeout (tag : Nat) (s : State) : Host.Outcome State Fault Refusal := .next (s.doHostCompletionTimeout tag)

/-! ## Acknowledgements of posted writes (R158, R558, R568) -/

/-- The first record of a ring on the link takes one acknowledgement; it leaves with its second. -/
def ackRecord (r : Nat) : List Record → List Record × Bool
  | [] => ([], false)
  | x :: xs =>
    if x.ring = r ∧ x.sent = true then
      if x.acks ≤ 1 then (xs, true) else ({ x with acks := x.acks - 1 } :: xs, false)
    else
      let y := ackRecord r xs
      (x :: y.1, y.2)

/-- What the acknowledgement of one posted write does. -/
def State.ackTlp (s : State) (w : Tlp) : State :=
  match w.kind with
  | .barrow _ _ c g => if s.ctx c cfGen = g then s else s.addSat F.CTX_STATS_PRUNED 1
  | .remote n => if s.host.unacked.any (fun x => decide (x.kind = .remote n)) then s else s.finishInbound n
  | .record r =>
    let y := ackRecord r s.disp.records
    let s1 : State := { s with disp := { s.disp with records := y.1 } }
    if y.2 then s1.addWrap (F.DSP_CRING_TAIL_TAIL.at r) 1 else s1
  | .credit _ => s

/-- HOST_WRITE_ACK: an Ack covers its sequence number and every earlier one. -/
def State.doHostWriteAck (s : State) (seq : Nat) : State :=
  if !s.hostLinked then s
  else
    let done := s.host.unacked.filter fun w => decide (w.seq ≤ seq)
    done.foldl (fun (s : State) w =>
      ({ s with host := { s.host with unacked := s.host.unacked.filter fun x => decide (x.seq ≠ w.seq) } } : State).ackTlp w) s

def execHostWriteAck (seq : Nat) (s : State) : Host.Outcome State Fault Refusal := .next (s.doHostWriteAck seq)

/-- REPLAY_TIMER: a posted write without its Ack is sent again. -/
def State.doReplayTimer (s : State) (seq : Nat) : State :=
  match (if s.hostLinked then s.host.unacked.find? fun w => decide (w.seq = seq) else none) with
  | none => s
  | some w => ({ s with host := { s.host with unacked := s.host.unacked.map fun x =>
      if x.seq = seq then { x with sent := s.now } else x } } : State).emit (.hostWrite w.seq w.addr w.data w.ro)

def execReplayTimer (seq : Nat) (s : State) : Host.Outcome State Fault Refusal := .next (s.doReplayTimer seq)

/-! ## The staging window (R550 to R554) -/

/-- The tier line of a staging offset. -/
def State.stageLine (s : State) (o : Nat) : Nat := s.fld F.HST_STAGE_CFG_BASE * 2 ^ 28 + o / 64

/-- Is the staging window served in the present device state (R553, R570)? -/
def State.stageOpen (s : State) : Bool :=
  s.memOn && decide (s.fld F.HST_STAGE_CFG_ENABLE = 1) && s.tierServes 1 &&
    (decide (s.devState = dsConfiguring) || decide (s.devState = dsHeld) || s.inService)

/-- Does an access at an offset reach tier memory (R391, R406, R553)? The lane that it goes to is UP or DEGRADED: of a mirrored page,
the lane of the copy that a read takes. -/
def State.stageReaches (s : State) (o : Nat) : Bool :=
  let q := pageOf (s.stageLine o)
  s.stageOpen && !s.isHidden q && !s.inPool q &&
    (((s.readOrder q ++ s.writePlaces q).head?).map fun p => s.laneUsable (laneOfModule p.1)).getD false

/-- One line of a staging write. -/
def State.stageLineWrite (s : State) (l : Nat) (bytes : List (Option Byte)) : State :=
  if !bytes.any Option.isSome then s
  else if !s.isWritten (pageOf l) then
    { s with mem := { s.mem with waits := s.mem.waits ++ [{ line := l, bytes := bytes, tag := 0, kgen := 0, enc := false, req := none }] } }
  else s.stageMerge l bytes

/-- A run of bytes at an offset cut into its lines, each padded to 64 bytes. -/
def linesOf (o : Nat) (data : List (Option Byte)) : List (Nat × List (Option Byte)) :=
  let n := if data.isEmpty then 0 else (o + data.length + 63) / 64 - o / 64
  (List.range n).map fun i =>
    let a := 64 * (o / 64 + i)
    let x := clip o a (a + 64) data
    let pre := List.replicate (x.1 - a) none
    (o / 64 + i, pre ++ x.2 ++ List.replicate (64 - pre.length - x.2.length) none)

/-- The bytes of a staging write. -/
def State.stagingBytes (s : State) (o : Nat) (data : List (Option Byte)) : State :=
  if !s.hostReach || decide (2 ^ 34 < o + data.length) then s
  else if !s.stageReaches o then s.addSat F.HST_ERR_STAGE_UNAVAIL 1
  else (linesOf o data).foldl (fun s x => s.stageLineWrite (s.fld F.HST_STAGE_CFG_BASE * 2 ^ 28 + x.1) x.2) s

/-- STAGING_WRITE: one that fails ECRC is discarded and reported through AER (R559). -/
def State.doStagingWrite (s : State) (o : Nat) (data : HostData) : State :=
  match data with
  | none => if s.hostReach then s.aer 19 else s
  | some d => s.stagingBytes o d

def execStagingWrite (offset : Nat) (data : HostData) (s : State) : Host.Outcome State Fault Refusal :=
  .next (s.doStagingWrite offset data)

/-- One line of a staging read: its 64 bytes, and whether it is poisoned. -/
def State.stageLineRead (s : State) (l : Nat) : State × Bytes × Bool :=
  match s.fetchTier l with
  | (s1, .zero) => (s1, List.replicate 64 0, false)
  | (s1, .line t) =>
    if t.tag = 0 ∧ t.enc = false then (s1, t.data, false)
    else (s1.addSat F.HST_ERR_STAGE_REFUSED 1, List.replicate 64 0, false)
  | (s1, .lost) => (s1.drawn, (List.range 64).map fun i => Config.freeByte s1.freeCtr i, true)

/-- A staging read of `len` bytes. -/
def State.stagingData (s : State) (o len : Nat) : State :=
  if !s.hostReach || decide (2 ^ 34 < o + len) || decide (len = 0) then s
  else if !s.stageReaches o then
    (s.addSat F.HST_ERR_STAGE_UNAVAIL 1).emit (.stageData o (List.replicate len 0xFF) false)
  else
    let n := (o + len + 63) / 64 - o / 64
    let r := (List.range n).foldl (fun (a : State × Bytes × Bool) i =>
      let x := a.1.stageLineRead (a.1.stageLine o + i)
      (x.1, a.2.1 ++ x.2.1, a.2.2 || x.2.2)) (s, [], false)
    let s1 := if r.2.2 then r.1.aer 12 else r.1
    s1.emit (.stageData o ((r.2.1.drop (o % 64)).take len) r.2.2)

/-- STAGING_READ: a request that fails ECRC, whose length is then not taken, is discarded and reported through AER (R559). -/
def State.doStagingRead (s : State) (o : Nat) (len : Option Nat) : State :=
  match len with
  | none => if s.hostReach then s.aer 19 else s
  | some n => s.stagingData o n

def execStagingRead (offset : Nat) (len : Option Nat) (s : State) : Host.Outcome State Fault Refusal := .next (s.doStagingRead offset len)

/-! ## Configuration requests (R545, R546, R560, R569) -/

/-- Bits of a configuration dword that a write replaces, and bits that a write of 1 clears (log entry 8). -/
def cfgMasks (o : Nat) : Nat × Nat :=
  if o = 0x04 then (0x0546, 0xF9000000)
  else if o = 0x10 then (0xFC000000, 0)
  else if o = 0x18 then (0xF0000000, 0)
  else if o = 0x14 ∨ o = 0x1C then (0xFFFFFFFF, 0)
  else if o = 0x24 then (0xFFFFFFFC, 0)
  else if o = 0x3C then (0xFF, 0)
  else if o = 0x44 then (0x3, 0)
  else if o = 0x58 then (0x79FF, 0xF0000)
  else if o = 0x60 then (0x00FB, 0xC0000000)
  else if o = 0x78 then (0x101F, 0)
  else if o = 0x80 then (0xFFEF, 0)
  else if o = 0x90 then (0xC0000000, 0)
  else if o = 0x104 then (0, 0x03FFF030)
  else if o = 0x108 ∨ o = 0x10C then (0x03FFF030, 0)
  else if o = 0x110 then (0, 0xF1C1)
  else if o = 0x114 then (0xF1C1, 0)
  else if o = 0x118 then (0x140, 0)
  else if o = 0x160 ∨ (0x198 ≤ o ∧ o < 0x1A4) then (0, 0xFFFF)
  else if 0x1C0 ≤ o ∧ o < 0x200 then (0xFF7F, 0)
  else if o = 0x208 then (0x700, 0)
  else (0, 0)

/-- A configuration dword as read: the link status, the equalisation status of the speeds trained to and the serial number are live. -/
def State.cfgRead (s : State) (o : Nat) : BitVec 32 :=
  if o = 0x60 then s.cfg o ||| BitVec.ofNat 32 (2 ^ 16 * (s.fld F.HST_LINK_STATUS_SPEED + 16 * s.fld F.HST_LINK_STATUS_WIDTH))
  else if o = 0x194 then (if 4 ≤ s.fld F.HST_LINK_STATUS_SPEED then 0xF else 0)
  else if o = 0x20C then (if 5 ≤ s.fld F.HST_LINK_STATUS_SPEED then 0xF else 0)
  else if o = 0x14C then BitVec.ofNat 32 (s.confNum 1 0 4 0)
  else if o = 0x150 then BitVec.ofNat 32 (s.confNum 1 4 4 0)
  else s.cfg o

/-- A configuration write: a reserved power state is not taken, and Initiate Function Level Reset reads 0. -/
def State.cfgWrite (s : State) (o : Nat) (v : BitVec 32) : State :=
  let m := cfgMasks o
  let old := s.cfg o
  let new := (old &&& ~~~ BitVec.ofNat 32 m.1 &&& ~~~ (v &&& BitVec.ofNat 32 m.2)) ||| (v &&& BitVec.ofNat 32 m.1)
  if o = 0x44 ∧ (v.toNat % 4 = 1 ∨ v.toNat % 4 = 2) then s
  else if o = 0x58 ∧ v.toNat / 2 ^ 15 % 2 = 1 then s.doFunctionLevelReset
  else (s.setCfg o new).checkTraffic

/-- CONFIGURATION_REQUEST. -/
def State.doConfigurationRequest (s : State) (write : Bool) (o : Nat) (v : BitVec 32) : State :=
  if s.off || s.host.perst || decide (4096 ≤ o) || decide (o % 4 ≠ 0) then s
  else if s.linkState = lsResetting then s.emit (.cfgDone o none)
  else if s.linkState ≠ lsUp then s
  else if write then (s.cfgWrite o v).emit (.cfgDone o (some 0))
  else s.emit (.cfgDone o (some (s.cfgRead o)))

def execConfigurationRequest (write : Bool) (offset : Nat) (value : BitVec 32) (s : State) : Host.Outcome State Fault Refusal :=
  .next (s.doConfigurationRequest write offset value)

/-! ## MCTP (R570, R574, R575) -/

/-- Is MCTP over VDM served in the present device state? In BOOT once firmware runs: an active controller. -/
def State.mctpServed (s : State) : Bool :=
  s.hostLinked && decide (s.devState ≠ dsSeedbed) &&
    (decide (s.devState ≠ dsBoot) || decide (s.fld (F.RAS_CTL_HEALTH_STATE.at (s.fld F.RAS_LEASE_ACTIVE)) = 2))

/-- MCTP_VDM_RECEIVE: a message taken by the active controller, its request being a command of its own; or dropped and
counted. -/
def State.doMctpVdmReceive (s : State) (routing msgType : Nat) : State :=
  if !s.hostLinked then s
  else if s.mctpServed && (decide (msgType = 0) || decide (msgType = 1) || decide (msgType = 5)) &&
      (decide (routing = 0) || decide (routing = 2) || decide (routing = 3)) then s
  else s.addSat F.HST_ERR_MCTP_DROP 1

def execMctpVdmReceive (routing msgType : Nat) (_body : Bytes) (s : State) : Host.Outcome State Fault Refusal :=
  .next (s.doMctpVdmReceive routing msgType)

/-- Is the management endpoint served: firmware runs, and the bus owner has given the target its dynamic address (R829, R830)? -/
def State.i3cServed (s : State) : Bool :=
  !s.off && s.mgmt.dynAddr.isSome && decide (s.devState ≠ dsSeedbed) && (decide (s.devState ≠ dsBoot) || decide (s.boot.stage ≠ 0))

/-- Is an endpoint served? -/
def State.epServed (s : State) : Endpoint → Bool
  | .vdm => s.mctpServed
  | .i3c => s.i3cServed

/-- SET_ENDPOINT_ID: the bus owner assigns the Endpoint ID; 0 and 0xFF are no Endpoint IDs (log entry 26). -/
def State.doSetEndpointId (s : State) (ep : Endpoint) (fromOwner : Bool) (eid : Byte) : State :=
  if !fromOwner || decide (eid = 0) || decide (eid = 0xFF) then s
  else
    match ep with
    | .vdm => if s.epServed .vdm then s.setFld F.HST_MCTP_CFG_EID eid.toNat else s
    | .i3c => if s.i3cServed then { s with mgmt := { s.mgmt with eid := eid.toNat } } else s

def execSetEndpointId (ep : Endpoint) (fromOwner : Bool) (eid : Byte) (s : State) : Host.Outcome State Fault Refusal :=
  .next (s.doSetEndpointId ep fromOwner eid)

end Sys2Proof.Machine
end

