-- ==== Sys2Proof/Machine/Startup.lean ====
section
/-! DEFINITION. The cold start from the 48 V input to READY or HELD, section reloads, and the events that end in OFF (R584 to R616,
R666, R767 to R769, R861, R869, R870). -/

namespace Sys2Proof.Machine

/-! ## Events 1 to 3 of R608 -/

/-- The straps latched at event 2, with the error of their parity (R459, R584, R585). -/
def State.latchStraps (s : State) (pos : BitVec 6) (par seedbedN : Bool) : State :=
  let ones := ((List.range 6).filter fun i => pos.getLsbD i).length + bit par
  (((((s.setFld F.GLB_STRAPS_POS pos.toNat).setFld F.GLB_STRAPS_PAR (bit par)).setFld F.GLB_STRAPS_SEEDBED
    (bit !seedbedN)).setFld F.GLB_STRAPS_PAR_OK (ones % 2)).setFld F.GLB_IDENT_CHIP_ID pos.toNat).setFld F.FAB_STATUS_STRAP_ERR
    (bit (decide (ones % 2 = 0)))

/-- What a cold start finds of lanes, ports and flash before any of it has started. -/
def State.coldRegs (s : State) : State :=
  let s1 := (List.range 16).foldl (fun (s : State) k =>
    ((s.setFld (F.MEM_LANE_STATUS_STATE.at k) mlDown).setFld (F.MEM_LANE_STATUS_SPEED.at k) 0).setFld
      (F.MEM_LANE_STATUS_RETIRED.at k) (bit (s.repair.modules.contains k)) |>.setFld (F.MEM_LANE_STATUS_SPARES.at k)
        (s.sparesOf (engineOfLane k) k)) s
  let s2 := (List.range 32).foldl (fun (s : State) p => (s.setFld (F.FAB_PORT_STATUS_STATE.at p) poDark).setFld
    (F.FAB_PORT_STATUS_SPARES.at p) (min 2 (s.sparesOf (engineOfPort p) p))) (s1.setFld F.HST_LINK_STATUS_SPARES (min 2 (s.sparesUsed 0)))
  let s3 := ((s2.setFld F.FAB_STATUS_STATE fsDark).setFld F.GLB_CFG_STATUS_IN_USE 0).setFld F.GLB_CFG_STATUS_SEQUENCE 0
  (((s3.setFld F.GLB_CFG_STATUS_RESULT_A crNotChecked).setFld F.GLB_CFG_STATUS_RESULT_B crNotChecked).setFld
    F.GLB_CFG_STATUS_APPLIED 0).setFld F.FWU_STATUS_RUNNING 0

/-- A free value in LOG_BOOT_ID and in SEC_NONCE. -/
def State.drawIds (s : State) : State :=
  let s1 := (s.setReg F.LOG_BOOT_ID_ID.reg s.free).drawn
  (s1.setReg F.SEC_NONCE_NONCE.reg s1.free).drawn

/-- An erase of the Roles partition that a power loss cut off completed at event 3, before any role is read, and its mark cleared
(R306, R608; log entry 16). -/
def State.completeErase (s : State) : State :=
  if s.cold.eraseDue then
    let s1 := s.putRoles orHw []
    { s1 with cold := { s1.cold with eraseDue := false } }
  else s

/-- Events 1 to 3: straps, step clock at 0, the ROM, the flash reset (R867), an interrupted erase completed, and the host port, in BOOT or
SEEDBED. -/
def State.coldBegin (s : State) (pos : BitVec 6) (par seedbedN : Bool) : State :=
  let s1 : State := { s with off := false, boot := { stage := 0, flashBad := s.boot.flashBad } }
  let s2 := ((((s1.latchStraps pos par seedbedN).coldRegs.drawIds).emit .flashReset).showSlot 0).showSlot 1
  let s3 := s2.linkLow (if s2.host.perst then lsDown else lsTraining)
  let s4 := s3.setFld F.GLB_STATE_DEVICE_STATE (if seedbedN then dsBoot else dsSeedbed)
  let s5 := (s4.setFld F.PWR_STATUS_WARN_ACTIVE (bit s4.gov.warn)).showCoolFault
  (s5.logChange orHw 0x01 0 (logValue 0) (logDigest (bytesOfNat 8 (s5.reg F.LOG_BOOT_ID_ID.reg).toNat))).completeErase

/-- INPUT_ENTERS_LIMITS: a part that is OFF starts, unless EOFF_N is low (R667); without REFCLK_25M it waits at event 2 (R861). -/
def State.doInputEntersLimits (s : State) (pos : BitVec 6) (par seedbedN eoffN refclk : Bool) : State :=
  if s.off = false ∨ eoffN = false then s
  else if refclk then s.coldBegin pos par seedbedN
  else { s with boot := { s.boot with waits := some (pos, par, seedbedN), refclk := false } }

def execInputEntersLimits (pos : BitVec 6) (par seedbedN eoffN refclk : Bool) (s : State) : Host.Outcome State Fault Refusal :=
  .next (s.doInputEntersLimits pos par seedbedN eoffN refclk)

/-! ## The ends in OFF -/

/-- EOFF_N low opens every domain switch, and stays latched; a start that waits for its clock ends too (R666, R668). -/
def State.doEoffN (s : State) : State := if s.off then { s with boot := { s.boot with waits := none } } else s.powerOff

def execEoffN (s : State) : Host.Outcome State Fault Refusal := .next s.doEoffN

/-- INPUT_LOSS: below 40 V for longer than 10 µs (R869). -/
def State.doInputLoss (s : State) : State := if s.off then { s with boot := { s.boot with waits := none } } else s.powerOff

def execInputLoss (s : State) : Host.Outcome State Fault Refusal := .next s.doInputLoss

/-- INPUT_OVERVOLTAGE: 60 V or more for longer than 100 µs (R870). -/
def State.doInputOvervoltage (s : State) : State :=
  if s.off then { s with boot := { s.boot with waits := none } } else s.powerOff

def execInputOvervoltage (s : State) : Host.Outcome State Fault Refusal := .next s.doInputOvervoltage

/-! ## Events 4 to 6 -/

/-- Both controllers run a slot, A active, and the identity keys are derived, unless a wipe has begun since the cold start (events 4 and
5, R772, R785, R786). -/
def State.startFirmware (s : State) (k : Nat) : State :=
  let s1 : State := { s with
    firm := { s.firm with runs := [k, k] }
    cold := { s.cold with identity := if s.cold.wiped then none else some (s.lifecycle, s.fld F.SEC_CF_STATUS_WIPE_COUNT) }
    ctl := { s.ctl with beatAt := s.now, reported := [s.now, s.now] }
    boot := { s.boot with stage := 1 } }
  let healthy (s : State) (c st : Nat) : State :=
    (((s.setFld (F.RAS_CTL_HEALTH_STATE.at c) st).setFld (F.RAS_CTL_HEALTH_LOCKSTEP_OK.at c) 1).setFld
      (F.RAS_CTL_HEALTH_SCRUB_OK.at c) 1).setFld (F.RAS_CTL_HEALTH_JOURNAL_OK.at c) 1
  ((healthy (healthy s1 0 2) 1 3).setFld F.FWU_STATUS_RUNNING (k + 1)).loadUcode k

/-- SLOT_CHOICE (R769). -/
def State.doSlotChoice (s : State) : State :=
  if s.off = false ∧ s.devState = dsBoot ∧ s.boot.stage = 0 then
    let s1 := s.settleMirror.flashRetry
    let s2 := [0, 1].foldl (fun (s : State) k => if s.slotState k = srGraft then s.writeRecord orHw k srRejected else s) s1
    match s2.takenSlots.find? s2.slotPasses with
    | some k => s2.startFirmware k
    | none => s2.setDev orHw dsSeedbed
  else s

def execSlotChoice (s : State) : Host.Outcome State Fault Refusal := .next s.doSlotChoice

/-- A logical cluster whose physical cluster has failed moves to a spare of its die, where one is left. -/
def State.remapFailed (s : State) (l : Nat) : State :=
  if s.repair.failed.contains (s.remapOf l) then
    match s.chooseSpare (s.remapOf l) [] with
    | some q => s.putRemap l q
    | none => s
  else s

/-- SELF_TEST_DONE: the failures found, of clusters and of a hub block, are recorded; a die with more of them than spares, or a failed hub block, is FALLOW
(R609, R716). -/
def State.doSelfTestDone (s : State) (failed : List Nat) (hubFailed : Bool) : State :=
  if s.off = false ∧ s.devState = dsBoot ∧ s.boot.stage = 1 then
    let bad := (s.repair.failed ++ failed.filter fun p => decide (p < 264)).eraseDups
    let s1 := s.writeRepair fun r => { r with failed := bad, hub := r.hub || hubFailed || s.boot.hubBad }
    let short := (List.range 4).any fun d => decide (2 < (bad.filter fun p => decide (dieOf p = d)).length)
    if short || s1.repair.hub then s1.showRemap.enterFallow
    else
      let s2 := (List.range 256).foldl State.remapFailed s1
      let s3 := s2.showRemap
      { s3 with
        boot := { s3.boot with stage := 2 }
        clusters := s3.repair.failed.foldl (fun m p => mset cluDefault m p { mget cluDefault m p with retired := true }) s3.clusters }
  else s

def execSelfTestDone (failed : List Nat) (hubFailed : Bool) (s : State) : Host.Outcome State Fault Refusal :=
  .next (s.doSelfTestDone failed hubFailed)

/-! ## Events 7 to 9 -/

/-- A fabric that never starts is HELD where the straps' parity is wrong (R459), with its cause where the section has no other. -/
def State.strapHold (s : State) : State :=
  if s.fld F.FAB_STATUS_STRAP_ERR = 0 then s
  else
    let cause := s.fld F.GLB_CFG_HOLD_CAUSEC
    ((s.holdFabric).setCause 3 (if cause = 0 then hcMismatch else cause)).raiseEvent 0x1E 0 (s.fld F.FAB_STATUS_MISSING)

/-- The rack manager's timer starts at the end of a cold start, also one that ends in HELD (R608, R669). -/
def State.startRackTimer (s : State) : State :=
  if s.gov.rackRuns then s else { s with gov := { s.gov with rackRuns := true, beatAt := s.now } }

/-- CONFIGURATION_CHOICE: both copies checked and one chosen; with none the device is HELD (R604, R605). -/
def State.doConfigurationChoice (s : State) : State :=
  if s.off = false ∧ s.devState = dsBoot ∧ s.boot.stage = 2 then
    let s1 := (s.setDev orHw dsConfiguring).checkCopies
    match s1.newestCopy with
    | some c =>
      let s2 := s1.useCopy c
      { s2 with boot := { s2.boot with stage := 3 } }
    | none =>
      let s2 := (List.range 7).foldl (fun (s : State) i => s.holdSect (i + 1) hcNoCopy) s1 |>.strapHold
      (({ s2 with boot := { s2.boot with stage := 6 } } : State).setDev orHw dsHeld).startRackTimer
  else s

def execConfigurationChoice (s : State) : Host.Outcome State Fault Refusal := .next s.doConfigurationChoice

/-- The tables of an applied fabric section, with the ROUTES entry (R598, R838). -/
def State.startRoutes (s : State) : State :=
  let t := s.installTables (s.sect 3)
  t.logChange orHw 0x0C 0 s.routesValue t.routesValue

/-- Event 9: memory and fabric sections that are not in force applied or held, lanes and ports started. -/
def State.eventNine (s : State) (b : Bytes) : State :=
  let s1 := if (s.sect 2).isEmpty then s.startSect b 2 else s
  let s2 := if (s1.sect 2).isEmpty then s1.setStageBase (s1.fld F.HST_STAGE_CFG_BASE) else s1
  let s3 := if (s2.sect 3).isEmpty then s2.startSect b 3 else s2
  let s4 := if (s3.sect 3).isEmpty then s3 else s3.startRoutes
  let s5 := (s4.lanesTrain).startFabric
  { s5 with boot := { s5.boot with stage := 4 } }

/-- SECTIONS_APPLY: identity, roles, reliability, power and contexts, then memory and fabric unless identity is held (R606,
R608). -/
def State.doSectionsApply (s : State) : State :=
  if s.off = false ∧ s.devState = dsConfiguring ∧ s.boot.stage = 3 then
    let b := s.copyAt (s.fld F.GLB_CFG_STATUS_IN_USE - 1)
    let s1 := [1, 6, 5, 4, 7].foldl (fun (s : State) t => s.startSect b t) s
    if (s1.sect 1).isEmpty then (({ s1 with boot := { s1.boot with stage := 5 } } : State).strapHold) else s1.eventNine b
  else s

def execSectionsApply (s : State) : Host.Outcome State Fault Refusal := .next s.doSectionsApply

/-! ## Events 10 to 13 -/

/-- A lane that trains is UP, or found DOWN (R419). -/
def State.trainLane (s : State) (k : Nat) (r : BridgeReport) : State :=
  if s.laneState k ≠ mlTraining then s else (s.laneTrained k r)

/-- Modules missing at start that ALLOW_MISSING treats as retired, where the pool is free for one (R387). -/
def State.allowMissing (s : State) : State :=
  if s.memFlags % 2 = 0 then s
  else
    match (List.range 16).filter fun m => s.mem.badMods.contains m && !s.isRetired m && decide (s.fld (F.MEM_LANE_STATUS_SPEED.at m) = 0) with
    | [m] => if s.repair.modules.isEmpty then
        ({ s with mem := { s.mem with absent := s.mem.absent ++ [m] } } : State).setFld (F.MEM_LANE_STATUS_RETIRED.at m) 1
      else s
    | _ => s

/-- LANES_TRAINED: every lane that trains is UP or DOWN, at a cold start, on return from DARK, or in a recovery. -/
def State.doLanesTrained (s : State) (reports : List BridgeReport) : State :=
  let cold := decide (s.devState = dsConfiguring) && decide (s.boot.stage = 4)
  let back := decide (s.devState = dsResetting) || (s.gov.moving.isSome && decide (s.powState = psDark))
  if s.off = false ∧ reports.length = 16 ∧ (cold = true ∨ back = true) ∧ s.boot.refclk = true then
    let s1 := (reports.zipIdx).foldl (fun (s : State) e => s.trainLane e.2 e.1) s
    let s2 := (if cold then s1.allowMissing.coverRetired else s1).checkTiers
    let s3 := s2.showLease.releaseWaits
    if cold then { s3 with boot := { s3.boot with stage := 5 } } else s3
  else s

def execLanesTrained (reports : List BridgeReport) (s : State) : Host.Outcome State Fault Refusal := .next (s.doLanesTrained reports)

/-- Entry to READY: staged commands apply (R66). -/
def State.enterReady (s : State) : State :=
  let s1 := (s.setDev orHw dsReady).applyStaged.startRackTimer
  ({ s1 with clock := { s1.clock with reachedReady := true } } : State).showContexts

/-- COLD_START_DONE: READY, or HELD where the identity and plan section is held, in QUIET (R60, R608). -/
def State.doColdStartDone (s : State) : State :=
  if s.off = false ∧ s.devState = dsConfiguring ∧ s.boot.stage = 5 ∧ s.fab.discoverAt = none then
    let s1 : State := { s with boot := { s.boot with stage := 6 } }
    if (s.sect 1).isEmpty then (s1.setDev orHw dsHeld).startRackTimer else s1.enterReady
  else s

def execColdStartDone (s : State) : Host.Outcome State Fault Refusal := .next s.doColdStartDone

/-! ## Section reload (R610 to R616) -/

/-- The results of a reload. -/
def rrDone : Nat := 1
def rrNoCopy : Nat := 2
def rrState : Nat := 3
def rrPartial : Nat := 5

def State.endReload (s : State) (res : Nat) : State :=
  (({ s with boot := { s.boot with reload := none } } : State).setFld F.GLB_CFG_RELOAD_GO 0).setFld F.GLB_CFG_STATUS_RELOAD_RESULT res

/-- MODE and ENABLE of a port in force. -/
def State.portCfg (s : State) (p : Nat) : Nat := s.fld (F.FAB_PORT_CFG_MODE.at p) + 4 * s.fld (F.FAB_PORT_CFG_ENABLE.at p)

/-- The ports whose committed MODE or ENABLE a section changed go on as they were (`old`), and the change takes effect at their drains,
which begin once no collective is in progress (R476, R498, R612). -/
def State.drainModes (s old : State) : State :=
  let hit := (List.range 32).filter fun p => decide (s.portCfg p ≠ old.portTarget p)
  let s1 := (List.range 32).foldl (fun (t : State) p =>
    (t.setFld (F.FAB_PORT_CFG_MODE.at p) (old.portCfg p % 4)).setFld (F.FAB_PORT_CFG_ENABLE.at p) (old.portCfg p / 4)) s
  let due : Commit := { block := blkFab, writer := s.activeCtl, group := false, set := hit.map fun p =>
    ((F.FAB_PORT_CFG_MODE.at p).reg, { mask := 7, value := BitVec.ofNat 64 (s.portCfg p) }) }
  if hit.isEmpty then s1
  else if s.col.colls.any Coll.active then { (s1.setFld F.FAB_COMMIT_PENDING 1) with commits := s1.commits ++ [due] }
  else hit.foldl (fun (t : State) p => t.beginDrain p (s.portCfg p)) (s1.setFld F.FAB_COMMIT_PENDING 1)

/-- A memory section in force while the lanes run: its tiers and its lease are checked against what the bridges last reported, without
retrain (R385, R386, R612). -/
def State.reloadMemory (s : State) (x : Bytes) : State := (s.applySect 2 x).judgeReports.checkTiers.showLease

/-- A fabric section of a reload waits for the drain of the tables in force, as in a swap (R466). -/
def State.reloadFabric (s : State) (x : Bytes) : State :=
  ({ s with conf := { s.conf with fabDue := some x }, fab := { s.fab with swapAt := some s.now } } : State).setFld
    F.FAB_STATUS_SWAP_PENDING 1

/-- The end of a reload in HELD that succeeded: CONFIGURING, and events 9 to 13, of which the first four do not run while the identity
and plan section is still held (R608, R614). -/
def State.leaveHeld (s : State) (b : Bytes) : State :=
  let s1 := s.setDev orHw dsConfiguring
  if (s.sect 1).isEmpty then { s1 with boot := { s1.boot with stage := 5 } } else s1.eventNine b

/-- The sections still to apply, in type order, up to a memory section that waits for the steps in flight or a fabric section that
waits for its drain (R612). -/
def State.runReload : Nat → State → Bytes → Reload → State
  | 0, s, _, r => { s with boot := { s.boot with reload := some r } }
  | n + 1, s, b, r =>
    match r.todo with
    | [] =>
      let s1 := s.endReload (if r.part then rrPartial else rrDone)
      if r.held && !r.part then s1.leaveHeld b else s1
    | t :: rest =>
      let x := sectBytes b t
      if s.sectCause b t true ≠ 0 then
        State.runReload n (s.setCause t (s.sectCause b t true)) b { r with todo := rest, part := true }
      else if t = 2 ∧ r.held = false ∧ s.disp.steps ≠ [] then
        { s with conf := { s.conf with memDue := some x }, boot := { s.boot with reload := some r } }
      else if t = 3 ∧ r.held = false then
        let s1 := s.reloadFabric x
        { s1 with boot := { s1.boot with reload := some r } }
      else State.runReload n (if t = 2 ∧ r.held = false then s.reloadMemory x else s.applySect t x) b { r with todo := rest }

/-- A reload goes on after the section that it waited with. -/
def State.goOnReload (s : State) : State :=
  match s.boot.reload with
  | some r => State.runReload 8 s (s.copyAt r.copy) { r with todo := r.todo.tail }
  | none => s

/-- RELOAD: a write of GLB_CFG_RELOAD. COPY and SECTIONS take what is written; a GO of 1 starts a reload unless one runs (R610, R611,
R622). -/
def State.doReload (s : State) (w : Agent) (v : Word) : State :=
  s.gate w blkGlb fun s =>
    let sel := bitsOf v 9 8
    let s0 := (if sel = 3 then s else s.setFld F.GLB_CFG_RELOAD_COPY sel).setFld F.GLB_CFG_RELOAD_SECTIONS (bitsOf v 6 0)
    if !v.getLsbD 7 || decide (s.fld F.GLB_CFG_RELOAD_GO = 1) then s0
    else if s.devState ≠ dsHeld ∧ s.inService = false then s0.endReload rrState
    else
        let s1 := s0.checkSelected (s0.fld F.GLB_CFG_RELOAD_COPY)
        match s1.selectCopy (s0.fld F.GLB_CFG_RELOAD_COPY) with
        | none => s1.endReload rrNoCopy
        | some c =>
          let todo := ((List.range 7).map (· + 1)).filter fun t => v.getLsbD (t - 1)
          if todo.contains 1 && (decide (s.devState = dsServing) || decide (s.devState = dsDraining)) then s0.endReload rrState
          else
            let held := decide (s.devState = dsHeld)
            State.runReload 8 ((s1.useCopy c).setFld F.GLB_CFG_RELOAD_GO 1) (s1.copyAt c)
              { copy := c, todo := todo, part := false, held := held }

def execReload (w : Agent) (value : Word) (s : State) : Host.Outcome State Fault Refusal := .next (s.leased w fun s => s.doReload w value)

/-- RELOAD_MEMORY_APPLY: no step is in flight, and the memory section applies; the rest of the reload follows. -/
def State.doReloadMemoryApply (s : State) : State :=
  match s.conf.memDue with
  | some x =>
    if s.disp.steps = [] ∧ s.inService = true then
      (({ s with conf := { s.conf with memDue := none } } : State).reloadMemory x).goOnReload
    else s
  | none => s

def execReloadMemoryApply (s : State) : Host.Outcome State Fault Refusal := .next s.doReloadMemoryApply

/-! ## The exchange of a table swap (R466, R470, R471) -/

/-- The active and shadow copies of both tables exchanged, RGEN advanced. -/
def State.swapTables (s : State) : State :=
  ((List.range 64).foldl (fun (s : State) d =>
    (s.exchange (F.FAB_ROUTE_VALID.at d).reg (F.FAB_ROUTE_SHADOW_VALID.at d).reg).exchange
      (F.FAB_FALLBACK_VALID.at d).reg (F.FAB_FALLBACK_SHADOW_VALID.at d).reg) s).addWrap F.FAB_STATUS_RGEN 1

/-- The end of a swap: GRACE starts, the change is logged, and injection resumes (events 3 and 4 of R470). -/
def State.endSwap (t s : State) (origin : Nat) : State :=
  let t1 := ((t.setFld F.FAB_STATUS_GRACE 1).setFld F.FAB_STATUS_SWAP_PENDING 0).setFld F.FAB_CTL_SWAP 0
  let t2 := t1.logChange origin 0x0C 0 s.routesValue t1.routesValue
  ({ t2 with fab := { t2.fab with swapAt := none, graceAt := s.now } } : State).startWaiting

/-- Events 3 and 4 of R470: the tables exchanged; or a reloaded section put in force and its tables installed, with discovery on every
port unless the fabric is dark (R59, R466), and the reload goes on. -/
def State.exchangeTables (s : State) : State :=
  match s.conf.fabDue with
  | none => s.swapTables.endSwap s orHost
  | some x =>
    let s1 := (({ s with conf := { s.conf with fabDue := none } } : State).applySect 3 x).drainModes s
    let s2 := (s1.installTables x).endSwap s orHw
    (if s2.mayTrain then s2.startFabric else s2).goOnReload

/-- SWAP_DRAIN_COMPLETE: every packet routed with the active tables has left. -/
def State.doSwapDrainComplete (s : State) : State :=
  if s.fab.swapAt.isSome ∧ (s.fab.outq.all fun o => decide (33 ≤ o.input)) = true ∧
      ((List.range 32).all fun p => (s.port p).holdReq.isNone && (s.port p).holdRep.isNone) = true then s.exchangeTables
  else s

def execSwapDrainComplete (s : State) : Host.Outcome State Fault Refusal := .next s.doSwapDrainComplete

/-- DRAIN_LIMIT_EXPIRY: the exchange is forced at DRAIN_LIMIT_US (R471). -/
def State.doDrainLimitExpiry (s : State) : State :=
  match s.fab.swapAt with
  | some t => if t + 1000 * s.fld F.FAB_TIMER_CFG_DRAIN_LIMIT_US ≤ s.now then
      s.exchangeTables.setFld F.FAB_STATUS_SWAP_FORCED 1 else s
  | none => s

def execDrainLimitExpiry (s : State) : Host.Outcome State Fault Refusal := .next s.doDrainLimitExpiry

end Sys2Proof.Machine
end

