-- ==== Sys2Proof/Machine/Staging.lean ====
section
/-! DEFINITION. The commit rows: a writer's staged set of a block checked, applied at once or kept PENDING, alone or in a group
(R26, R29, R276, R285, R409, R476, R503, R504, R822 to R828). -/

namespace Sys2Proof.Machine

/-! ## The COMMIT registers (R275) -/

/-- The COMMIT register of a block; none for a block that stages nothing. -/
def commitReg (b : Nat) : Option Nat :=
  if b = blkDsp then some F.DSP_COMMIT_GO.reg
  else if b = blkCol then some F.COL_COMMIT_GO.reg
  else if b = blkMem ∨ b = blkFab ∨ b = blkPwr ∨ b = blkRas ∨ b = blkFwu ∨ b = blkTim ∨ b = blkLog ∨ b = blkHst then
    some (b * 0x10000 + 0xF00)
  else if 0x100 ≤ b ∧ b < 0x208 then some (b * 0x10000 + 0x20)
  else none

def commitRefused (g : Nat) : Fld := { reg := g, hi := 2, lo := 2 }
def commitPending (g : Nat) : Fld := { reg := g, hi := 1, lo := 1 }

/-- PENDING of block `b` (R825, R827). -/
def State.setPending (s : State) (b n : Nat) : State :=
  match commitReg b with
  | some g => s.setFld (commitPending g) n
  | none => s

def State.setRefused (s : State) (b : Nat) : State :=
  match commitReg b with
  | some g => s.setFld (commitRefused g) 1
  | none => s

/-! ## Refusal (R29) -/

/-- A configured group as R503 requires it. -/
def State.groupOk (s : State) (g : Nat) : Bool :=
  let n := s.fld (F.COL_GROUP_N_LESS_ONE.at g) + 1
  let me := s.fld (F.COL_GROUP_MY_RANK.at g)
  decide (me < n) && decide (s.memberChip g me = s.chipId) &&
    decide (((List.range n).map (s.memberChip g)).Nodup) &&
    decide (s.fld (F.COL_GROUP_RANK_BASE.at g) + (n - 1) / 8 ≤ 8191)

/-- The reserved encodings that span fields or depend on the state, in the state `t` with the set in place (R424, R503, R580,
R675). -/
def State.registerLegal (t : State) (a : Nat) : Bool :=
  if a = F.MEM_MIRROR_REGION.reg then decide (t.fld F.MEM_MIRROR_REGION < 2 ^ (16 - t.evacReserve))
  else if a = F.HST_STAGE_CFG_BASE.reg then decide (t.fld F.HST_STAGE_CFG_BASE < 64 - 4 * t.evacReserve)
  else if a = F.PWR_POLICY_PRIORITY.reg then priorityOk (t.fld F.PWR_POLICY_PRIORITY)
  else if 0x700000 ≤ a ∧ a < 0x708000 then
    decide (t.fld (F.COL_GROUP_VALID.at ((a - 0x700000) / 8)) = 0) || t.groupOk ((a - 0x700000) / 8)
  else true

/-- May a set be applied? -/
def State.setLegal (s : State) (set : Store Stage) : Bool :=
  let t := s.withSet set
  set.all fun e => fieldsLegal e.1 e.2.mask (t.reg e.1) && t.registerLegal e.1

/-! ## Deferral (R276, R409, R476, R504) -/

/-- Does a window of context `c` whose range touches region `k` of tier 1 stand open (R409)? -/
def State.holdsRegion (s : State) (c k : Nat) : Bool :=
  (List.range 16).any fun w =>
    let x : Reach := { ctx := c, set := s.ctx c cfWset, win := w, start := 0 }
    s.winValid x && decide (s.winKind x = wkTier) &&
      match s.winRange x with
      | some (b, n) => decide (0 < n) && decide (b < (k + 1) * 2 ^ 36) && decide (k * 2 ^ 36 < b + n)
      | none => false

/-- Does a step in flight hold a window that touches a region whose mirror setting a set changes? -/
def State.mirrorHeld (s : State) (set : Store Stage) : Bool :=
  let x := s.fld F.MEM_MIRROR_REGION ^^^ (s.withSet set).fld F.MEM_MIRROR_REGION
  (List.range 16).any fun k => x.testBit k && s.disp.steps.any fun t => (t.lead :: t.members).any fun c => s.holdsRegion c k

/-- Does a set change the mirror setting? -/
def State.mirrorChanged (s : State) (set : Store Stage) : Bool :=
  decide ((s.withSet set).fld F.MEM_MIRROR_REGION ≠ s.fld F.MEM_MIRROR_REGION)

/-- Does a set change group `g`: its register, or a register of the member list that it reads? -/
def State.groupChanged (s : State) (set : Store Stage) (g : Nat) : Bool :=
  let t := s.withSet set
  set.any fun e =>
    decide (s.reg e.1 ≠ t.reg e.1) &&
      (decide (e.1 = 0x700000 + 8 * g) ||
        (decide (0x710000 ≤ e.1) && decide (e.1 < 0x720000) &&
          (s.groupReads g ((e.1 - 0x710000) / 8) || t.groupReads g ((e.1 - 0x710000) / 8))))

/-- Must values of a set of block `b` wait now? A change of the mirror setting waits outside READY, SERVING and DRAINING (R66), and while
a step holds a region it changes (R409); one of a group while a collective of it waits or is in progress (R504); one of the staging
window while a staging write received waits for the fill of its page (R583); one of a cluster until it is IDLE (R276). -/
def State.mustWait (s : State) (b : Nat) (set : Store Stage) : Bool :=
  if b = blkMem then s.mirrorHeld set || !s.inService
  else if b = blkCol then s.col.colls.any fun c => !c.done && s.groupChanged set c.group
  else if b = blkHst then (set.any fun e => decide (e.1 = F.HST_STAGE_CFG_BASE.reg)) && s.mem.waits.any fun w => w.req.isNone
  else if 0x100 ≤ b then decide (s.seqState (b - 0x100) ≠ sqIdle)
  else false

/-- Is an earlier commit of the block still waiting (R824)? -/
def State.earlierCommit (s : State) (b : Nat) : Bool := s.commits.any fun c => decide (c.block = b)

/-- MODE and ENABLE of a port, from `v`, with a staged value on top. -/
def portMerge (v : Nat) (x : Stage) : Nat := (((BitVec.ofNat 64 v &&& ~~~ x.mask) ||| (x.value &&& x.mask)) &&& 7).toNat

/-- The port that a FAB register configures. -/
def portOfReg (a : Nat) : Option Nat := if 0x600100 ≤ a ∧ a < 0x600200 then some ((a - 0x600100) / 8) else none

/-- MODE and ENABLE of a port as the last commit asked, also one that still waits (R476, R824). -/
def State.portWanted (s : State) (p : Nat) : Nat :=
  ((s.commits.filter fun c => decide (c.block = blkFab)).flatMap fun c => c.set.filter fun e => decide (portOfReg e.1 = some p)).foldl
    (fun v e => portMerge v e.2) (s.portTarget p)

/-- MODE and ENABLE of the ports of a set, where they change (R476). -/
def State.portPart (s : State) (set : Store Stage) : Store Stage :=
  set.filterMap fun e => match portOfReg e.1 with
    | some p => if portMerge (s.portWanted p) e.2 = s.portWanted p then none else some (e.1, { e.2 with mask := e.2.mask &&& 7 })
    | none => none

/-- The flows of a FAB set, the switching settings of R66. -/
def flowPart (set : Store Stage) : Store Stage := set.filter fun e => decide (0x601800 ≤ e.1) && decide (e.1 < 0x601A00)

/-- Do the flows of a set wait: outside READY, SERVING and DRAINING (R66), and behind flows that wait (R824)? -/
def State.flowsWait (s : State) : Bool :=
  !s.inService || s.commits.any fun c => decide (c.block = blkFab) && !(flowPart c.set).isEmpty

/-- A FAB set without the ports' MODE and ENABLE. -/
def restPart (set : Store Stage) : Store Stage := set.filter fun e => (portOfReg e.1).isNone

/-- The registers of a set that their chapter defers: the mirror setting, the staging window, groups and member lists. -/
def defers (b a : Nat) : Bool :=
  (decide (b = blkHst) && decide (a = F.HST_STAGE_CFG_BASE.reg)) || (decide (b = blkMem) && decide (a = F.MEM_MIRROR_REGION.reg)) || (decide (b = blkCol) && decide (a < 0x720000))

/-- A set cut into what applies at once and what waits: of FAB the ports' MODE and ENABLE, and outside service the flows (R66, R476); of
MEM only a mirror change (R409, R430), of HST only one of the staging window (R583); of another block a commit of
its own waits whole, a group's only in the values that are deferred (R504, R827). -/
def State.cutSet (s : State) (b : Nat) (group : Bool) (set : Store Stage) : Store Stage × Store Stage :=
  if b = blkFab then
    let later := s.portPart set ++ (if s.flowsWait then flowPart set else [])
    ((restPart set).filter fun e => !later.contains e, later)
  else if b = blkHst then
    if s.mustWait b set || s.earlierCommit b then (set.filter fun e => !defers b e.1, set.filter fun e => defers b e.1) else (set, [])
  else if b = blkMem then
    let later := if s.mirrorChanged set && (s.mustWait b set || s.earlierCommit b) then set.filter fun e => defers b e.1 else []
    (set.filter fun e => !later.contains e, later)
  else if s.mustWait b set || s.earlierCommit b then
    (if group then (set.filter fun e => !defers b e.1, set.filter fun e => defers b e.1) else ([], set))
  else (set, [])

/-! ## Application -/

/-- The banks of a cluster whose configured state a commit changes enter it: one committed to OFF loses its contents, one woken before
is woken no longer (R285), and the scrubber starts the pass of one that returns to ON again (R280). -/
def State.offBanks (t s : State) (p : Nat) : State :=
  (List.range 80).foldl (fun (t : State) b =>
    let c := t.bankCfg p b
    if c = s.bankCfg p b then t
    else
      let awake := (t.clu p).awake.contains b
      let t1 := if c = 0 ∧ awake = false then t.scrubAgain p b else t
      let t2 := if c = 2 then t1.loseBank p b else t1
      t2.setClu p { t2.clu p with awake := (t2.clu p).awake.filter fun x => decide (x ≠ b) }) t

/-- Groups changed by a set start again at CSEQ 0 (R504). -/
def State.zeroCseq (t s : State) (set : Store Stage) : State :=
  ((s.regs.map (·.1)).filter fun a => decide (0x720000 ≤ a) && decide (a < 0x728000)).foldl (fun (t : State) a =>
    let g := (a - 0x720000) / 8
    if s.groupChanged set g then t.setFld (F.COL_GROUP_STATE_CSEQ.at g) 0 else t) t

/-- The values of a set in place, with what their change does at that instant. -/
def State.applySet (s : State) (b : Nat) (set : Store Stage) : State :=
  let t := s.withSet set
  if b = blkMem then (s.setMirror (t.fld F.MEM_MIRROR_REGION)).withSet set
  else if b = blkPwr then t.noteTerms
  else if b = blkCol then t.zeroCseq s set
  else if b = blkTim then
    (if set.any fun e => decide (e.1 = F.TIM_WALL_SET_WALL_NS.reg) then
      ({ t with clock := { t.clock with epochSet := true } } : State).setReg F.TIM_EPOCH_STEP_STEP.reg s.stepClock
    else t)
  else if 0x100 ≤ b then t.offBanks s (b - 0x100)
  else t

/-- The entries of a commit that led from `s`: COMMIT over its whole set, and WALL where wall time is set (R828, R838). -/
def State.noteCommit (t s : State) (origin b : Nat) (set : Store Stage) : State :=
  let as := set.map (·.1)
  let u := s.withSet set
  let t1 := match changedRegs s u as with
    | [] => t
    | c => t.logChange origin 0x02 b (logDigest (s.rwcBytes b c)) (logDigest (u.rwcBytes b c))
  if b = blkTim ∧ (as.contains F.TIM_WALL_SET_WALL_NS.reg) = true then
    t1.logChange origin 0x10 0 (logValue s.wall.toNat) (logValue t1.wall.toNat)
  else t1

/-- The drains of changed ports begin (R476). -/
def State.beginDrains (s : State) (set : Store Stage) (group : Bool) : State :=
  set.foldl (fun (s : State) e => match portOfReg e.1 with
    | some p => s.beginDrain p (portMerge (s.portTarget p) e.2 + 8 * bit group)
    | none => s) s

/-- Is a collective in progress on the chip? -/
def State.collRuns (s : State) : Bool := s.col.colls.any Coll.active

/-- What waits of a set: port drains begin in service once no collective is in progress (R66, R476), the rest is kept. -/
def State.deferSet (s : State) (w : Agent) (b : Nat) (group : Bool) (later : Store Stage) : State :=
  if later.isEmpty then s
  else if b = blkFab ∧ s.collRuns = false ∧ s.inService = true ∧ s.earlierCommit b = false then
    (s.beginDrains later group).setPending b 1
  else ({ s with commits := s.commits ++ [{ block := b, writer := w, set := later, group := group }] } : State).setPending b 1

/-- Does a commit of block `b` still wait, or a port drain for one (R498, R541)? -/
def State.commitWaits (s : State) (b : Nat) : Bool :=
  s.earlierCommit b || (decide (b = blkFab) && (List.range 32).any fun p => (s.port p).draining.isSome)

/-- A writer's set of block `b` committed; an empty set changes nothing and clears PENDING, unless an earlier commit holds it at 1 (R498,
R541, R825; log entry 70). -/
def State.commitPart (s : State) (w : Agent) (b : Nat) (group : Bool) : State :=
  let set := s.stagedSet w b
  if set.isEmpty then (if s.commitWaits b then s else s.setPending b 0)
  else
    let c := s.cutSet b group set
    let s1 := (s.dropSet w b).applySet b c.1
    let s2 := if c.2.isEmpty ∨ group = true ∨ b = blkFab ∨ b = blkMem ∨ b = blkHst then s1.noteCommit s (originOf w) b set else s1
    s2.deferSet w b group c.2

/-- COMMIT: a refused set stays staged (R29, R826). -/
def State.doCommit (s : State) (w : Agent) (b : Nat) : State :=
  if (commitReg b).isNone then s
  else
    s.gate w b fun s =>
      if s.setLegal (s.stagedSet w b) then s.commitPart w b false else s.setRefused b

def execCommit (w : Agent) (block : Nat) (s : State) : Host.Outcome State Fault Refusal := .next (s.leased w fun s => s.doCommit w block)

/-! ## Commits that waited -/

/-- A commit that waited takes effect; PENDING clears with the last of the block, and of a group (R827). -/
def State.applyWaiting (s : State) (c : Commit) : State :=
  let s0 : State := { s with commits := s.commits.erase c }
  let s1 :=
    if c.block = blkFab then
      let t := (s0.withSet (flowPart c.set)).beginDrains c.set c.group
      if t.commitWaits blkFab then t else t.setPending blkFab 0
    else
      let t := s0.applySet c.block c.set
      let t1 := if c.group = true ∨ c.block = blkMem ∨ c.block = blkHst then t else t.noteCommit s0 (originOf c.writer) c.block c.set
      if t1.earlierCommit c.block then t1 else t1.setPending c.block 0
  s1.showGroup

/-- The oldest commit of a block that waits. -/
def State.oldestCommit (s : State) (b : Nat) : Option Commit := s.commits.find? fun c => decide (c.block = b)

/-- CLUSTER_COMMIT_APPLY: the cluster is IDLE. -/
def State.doClusterCommitApply (s : State) (p : Nat) : State :=
  match s.oldestCommit (blkClu p) with
  | some c => if s.off = false ∧ p < 264 ∧ s.mustWait (blkClu p) c.set = false then s.applyWaiting c else s
  | none => s

def execClusterCommitApply (p : Nat) (s : State) : Host.Outcome State Fault Refusal := .next (s.doClusterCommitApply p)

/-- DEFERRED_COMMIT_APPLY: the condition of R409, R476, R504 or R583 holds. -/
def State.doDeferredCommitApply (s : State) (b : Nat) : State :=
  match s.oldestCommit b with
  | some c =>
    if s.off = false ∧ b < 0x100 ∧ (if b = blkFab then s.collRuns || !s.inService else s.mustWait b c.set) = false then s.applyWaiting c else s
  | none => s

def execDeferredCommitApply (block : Nat) (s : State) : Host.Outcome State Fault Refusal := .next (s.doDeferredCommitApply block)

/-! ## Groups (R827, R846) -/

/-- The blocks that a BLOCKS field names: bit `k` the block at k × 1 MiB. -/
def namedBlocks (n : Nat) : List Nat := ((List.range 15).filter fun k => n.testBit k).map fun k => 16 * k

/-- Does a commit of block `b` by `w` take effect now, its domain On and its block seen? -/
def State.commitReaches (s : State) (w : Agent) (b : Nat) : Bool :=
  s.blockOn b && (decide (w ≠ .host) || s.blockSeen b)

/-- The group of `bs` committed: refused whole, or applied whole (R827). -/
def State.commitBlocks (s : State) (w : Agent) (bs : List Nat) : State :=
  let out := bs.filter fun b => !s.commitReaches w b
  let use := bs.filter fun b => s.commitReaches w b
  let bad := use.filter fun b => !s.setLegal (s.stagedSet w b)
  let s1 := s.addSat F.HST_ERR_BUSY_WRITE out.length
  let s1 := use.foldl (fun (s : State) b => s.closeLatch w b) s1
  if bad.isEmpty then
    let s2 := use.foldl (fun (s : State) b => s.commitPart w b true) s1
    let waits := s2.commits.any (·.group) ||
      (List.range 32).any fun q => (s2.port q).draining.any fun c => decide (c / 8 = 1)
    s2.setFld F.GLB_COMMIT_GROUP_PENDING (bit waits)
  else bad.foldl State.setRefused (s1.setFld F.GLB_COMMIT_GROUP_REFUSED 1)

/-- COMMIT_GROUP: a write of GLB_COMMIT_GROUP. -/
def State.doCommitGroup (s : State) (w : Agent) (v : Word) : State :=
  s.gate w blkGlb fun s =>
    let s1 := s.setFld F.GLB_COMMIT_GROUP_BLOCKS (bitsOf v 14 1)
    let s2 := if v.getLsbD 18 then s1.setFld F.GLB_COMMIT_GROUP_REFUSED 0 else s1
    if v.getLsbD 16 then s2.commitBlocks w ((namedBlocks (2 * bitsOf v 14 1)).filter fun b => (commitReg b).isSome) else s2

def execCommitGroup (w : Agent) (value : Word) (s : State) : Host.Outcome State Fault Refusal := .next (s.leased w fun s => s.doCommitGroup w value)

end Sys2Proof.Machine
end

