-- ==== Sys2Proof/Machine/Arbiter.lean ====
section
/-! DEFINITION. The arbiter of every shared resource: its rank order and wait counts, the rounds at the banks of a cluster
with their conflict counts, and the planes and data slots of a port's output (R259, R265 to R273, R456 to R458). -/

namespace Sys2Proof.Machine

/-- One requester of an arbiter: its limit (none where no rule gives one) and whether its request is raised. -/
structure Requester where
  idx : Nat
  limit : Option Nat
  raised : Bool
deriving DecidableEq, Repr

/-- The requesters of an arbiter by index (R259, R456, R457; log entry 23 for a memory lane). -/
def arbMembers : ArbId → List Nat
  | .slice _ _ => List.range 7
  | .padEngine _ _ => [8, 9, 10]
  | .padBarrow _ _ => [12, 13, 14]
  | .plane _ _ => List.range 33
  | .slot _ => List.range 6
  | .memLane _ => List.range 264

/-- The limit of requester `i` (R272, R458). -/
def State.arbLimit (s : State) (a : ArbId) (i : Nat) : Option Nat :=
  match a with
  | .slice p _ => some (bitsOf (s.reg (F.CLU_ARB_LIMIT_SLICE_SEQ.clu p).reg) (8 * i + 7) (8 * i))
  | .padEngine p _ => some (bitsOf (s.reg (F.CLU_ARB_LIMIT_PAD_TENSOR.clu p).reg) (8 * (i - 8) + 7) (8 * (i - 8)))
  | .padBarrow p _ => some (bitsOf (s.reg (F.CLU_ARB_LIMIT_PAD_TENSOR.clu p).reg) (8 * (i - 8) + 7) (8 * (i - 8)))
  | .plane _ false => some (if i = 32 then s.fld F.FAB_ARB_LIMIT_REQ_HUB else s.fld F.FAB_ARB_LIMIT_REQ_INPUT)
  | .plane _ true => some (if i = 32 then s.fld F.FAB_ARB_LIMIT_REPLY_HUB else s.fld F.FAB_ARB_LIMIT_REPLY_INPUT)
  | .slot _ => some (if i = 0 then s.fld F.FAB_ARB_LIMIT_SLOT_REPLY else if i = 1 then s.fld F.FAB_ARB_LIMIT_SLOT_REQUEST
      else s.fld F.FAB_ARB_LIMIT_SLOT_CIRCUIT)
  | .memLane _ => none

/-- The arbiter `a`: after a reset its rank order is by ascending index and every wait count is zero (R265). -/
def State.arb (s : State) (a : ArbId) : Arb :=
  (s.arbs.find? fun x => decide (x.id = a)).getD { id := a, order := arbMembers a, waits := [] }

def State.putArb (s : State) (x : Arb) : State :=
  { s with arbs := (s.arbs.filter fun y => decide (y.id ≠ x.id)) ++ [x] }

/-- The wait count of requester `i`. -/
def Arb.wait (x : Arb) (i : Nat) : Nat := ((x.waits.find? fun w => decide (w.1 = i)).map (·.2)).getD 0

/-- The winner among the raised requesters, and whether its wait count alone chose it (R266). -/
def Arb.winner (x : Arb) (limit : Nat → Option Nat) (raised : List Nat) : Option (Nat × Bool) :=
  let r := x.order.filter raised.contains
  let due := r.filter fun i => match limit i with
    | some l => decide (l ≤ x.wait i)
    | none => false
  match due, r with
  | i :: _, j :: _ => some (i, decide (i ≠ j))
  | [], j :: _ => some (j, false)
  | _, [] => none

/-- The arbiter after a round that `i` won (R267, R268). -/
def Arb.after (x : Arb) (i : Nat) (raised : List Nat) : Arb :=
  { x with order := (x.order.filter fun j => decide (j ≠ i)) ++ [i]
           waits := (x.order.filter fun j => raised.contains j && decide (j ≠ i)).map fun j => (j, min 255 (x.wait j + 1)) }

/-- One round of an arbiter over its raised requesters. -/
def State.arbRound (s : State) (a : ArbId) (raised : List Nat) : State × Option (Nat × Bool) :=
  let x := s.arb a
  let r := raised.filter (arbMembers a).contains
  match x.winner (s.arbLimit a) r with
  | none => (s, none)
  | some w => (s.putArb (x.after w.1 r), some w)

/-! ## The banks of a cluster (R273) -/

/-- A round at a bank: the masters that lose and a win forced by a wait count are counted. -/
def State.bankRound (s : State) (p : Nat) (a : ArbId) (raised : List Nat) : State :=
  match s.arbRound a raised with
  | (s1, none) => s1
  | (s1, some (w, forced)) =>
    let lost := ((raised.filter (arbMembers a).contains).eraseDups).filter fun j => decide (j ≠ w)
    let s2 := lost.foldl (fun s m => s.addSat ((F.CLU_CONFLICT_LOST.clu p).at m) 1) s1
    if forced then s2.addSat ((F.CLU_CONFLICT_FORCED.clu p).at w) 1 else s2

/-! ## A port's output (R444, R456, R457) -/

/-- The receiving buffer of a packet that leaves by wormhole (R442, R443). -/
def classOf (k : Packet) : Nat := (if isReply k then 3 else 0) + pktHop k

/-- The packet that an input offers at a plane of an output: the first of its hop class, where the far buffer has room for all of it; a
class whose buffer is full holds back no other (R444). -/
def State.headOf (s : State) (p : Nat) (reply : Bool) (i : Nat) : Option OutPkt :=
  let q := s.fab.outq.filter fun o => decide (o.port = p) && decide (o.reply = reply) && decide (o.input = i)
  q.find? fun o => decide (q.find? (fun y => decide (classOf y.pkt = classOf o.pkt)) = some o) &&
    decide (pktFlits o.pkt ≤ (s.port p).credit (classOf o.pkt))

/-- May a port send: carrying traffic and not held by a lane substitution (R438)? -/
def State.maySend (s : State) (p : Nat) : Bool := s.portOn p && (s.port p).sparing.isEmpty

/-- Do the request and reply planes and the circuits carry packets over a port: not while the fabric is HELD (R463)? -/
def State.mayCarry (s : State) (p : Nat) : Bool := s.maySend p && decide (s.fabState ≠ fsHeld)

/-- A round of a plane arbiter: the winner's first packet holds the plane until its tail is sent, with the credits for all its
flits. -/
def State.planeRound (s : State) (p : Nat) (reply : Bool) : State :=
  let x := s.port p
  if !s.mayCarry p || (if reply then x.holdRep else x.holdReq).isSome then s
  else
    let raised := (List.range 33).filter fun i => (s.headOf p reply i).isSome
    match s.arbRound (.plane p reply) raised with
    | (s1, none) => s1
    | (s1, some (i, _)) =>
      match s1.headOf p reply i with
      | none => s1
      | some o =>
        let y := x.spend (classOf o.pkt) (pktFlits o.pkt)
        let h := some (o, pktFlits o.pkt)
        ({ s1 with fab := { s1.fab with outq := s1.fab.outq.erase o } } : State).setPort p
          (if reply then { y with holdRep := h } else { y with holdReq := h })

/-- Flit `j` of a packet: the head's four words, then 32 bytes of data each (R447). -/
def pktFlit (k : Packet) (j : Nat) : Bytes :=
  if j = 0 then ([k.w0, k.w1, k.w2, k.w3] : List Word).flatMap fun w => bytesOfNat 8 w.toNat
  else (k.data.drop (32 * (j - 1))).take 32

/-- A flit of a plane sent in the next data slot: the packet is out with its tail. -/
def State.planeFlit (s : State) (p : Nat) (reply : Bool) : State :=
  let x := s.port p
  match (if reply then x.holdRep else x.holdReq) with
  | none => s
  | some (o, n) =>
    let h := if n ≤ 1 then none else some (o, n - 1)
    let s1 := (s.setPort p (if reply then { x with holdRep := h } else { x with holdReq := h })).fillSlot p
      (if reply then chReply else chRequest) (pktFlit o.pkt (pktFlits o.pkt - n))
    if n ≤ 1 then (s1.emit (.packet p o.pkt)).oweCredit o.owe else s1

/-- The packet at the head of circuit slot `k` of a port's output. -/
def State.circHead (s : State) (p k : Nat) : Option OutPkt :=
  s.fab.outq.find? fun o => decide (o.port = p) && decide (o.input = 33 + k)

/-- A flit of a circuit slot sent. -/
def State.circFlit (s : State) (p k : Nat) : State :=
  let x := (s.port p).spend (7 + k) 1
  match s.circHead p k with
  | none => s
  | some o =>
    let n := x.circSent.getD k 0 + 1
    let done := decide (pktFlits o.pkt ≤ n)
    let s1 := (s.setPort p { x with
      circSent := x.circSent.set k (if done then 0 else n), used := x.used.set k (x.used.getD k 0 + 1) }).fillSlot p (chCircuit k)
      (pktFlit o.pkt (n - 1))
    if done then
      (({ s1 with fab := { s1.fab with outq := s1.fab.outq.erase o } } : State).emit (.circuit p k o.pkt)).oweCredit o.owe
    else s1

/-- The flit of a plane or a circuit slot that takes a data slot (R457): a circuit slot within its SHARE, lowest first, else the winner
of the slot arbiter, else idle. -/
def State.dataSlot (s : State) (p : Nat) : State :=
  let x := s.port p
  let ready (k : Nat) : Bool := (s.circHead p k).isSome && decide (0 < x.credit (7 + k))
  let share (k : Nat) : Nat := ((s.fab.slots.find? fun y => decide (y.port = p) && decide (y.slot = k)).map (·.share)).getD 0
  match (List.range 4).find? fun k => ready k && decide (x.used.getD k 0 < share k) with
  | some k => s.circFlit p k
  | none =>
    let raised := (if x.holdRep.isSome then [0] else []) ++ (if x.holdReq.isSome then [1] else []) ++
      ((List.range 4).filter ready).map (· + 2)
    match s.arbRound (.slot p) raised with
    | (s1, none) => s1.fillSlot p chIdle (idleFlit x.txNext)
    | (s1, some (0, _)) => s1.planeFlit p true
    | (s1, some (1, _)) => s1.planeFlit p false
    | (s1, some (i, _)) => s1.circFlit p (i - 2)

/-- One data slot of a port filled (R457): a waiting control flit first, else what dataSlot chooses. -/
def State.slotRound (s : State) (p : Nat) : State :=
  if !s.maySend p then s
  else if (s.port p).ctlq ≠ [] ∧ 0 < (s.port p).credit 6 then s.pushCtrl p
  else if s.mayCarry p then s.dataSlot p
  else s.fillSlot p chIdle (idleFlit (s.port p).txNext)

/-! ## ARBITRATION_ROUND -/

/-- The resource of an arbiter becomes free. At a bank or a lane the command names the raised requests; at a port's output the
queues raise them. -/
def State.doArbitrationRound (s : State) (a : ArbId) (raised : List Nat) : State :=
  match a with
  | .slice p b => if p < 264 ∧ b < 64 then s.bankRound p a raised else s
  | .padEngine p b => if p < 264 ∧ b < 16 then s.bankRound p a raised else s
  | .padBarrow p b => if p < 264 ∧ b < 16 then s.bankRound p a raised else s
  | .plane p reply => if p < 32 then s.planeRound p reply else s
  | .slot p => if p < 32 then s.slotRound p else s
  | .memLane k => if k < 16 then (s.arbRound a raised).1 else s

def execArbitrationRound (a : ArbId) (raised : List Nat) (s : State) : Host.Outcome State Fault Refusal :=
  .next (s.doArbitrationRound a raised)

end Sys2Proof.Machine
end

