-- ==== Sys2Proof/Machine/Recovery.lean ====
section
/-! DEFINITION. Package recovery, SAFE and the device commands (R364, R416, R453, R617 to R621, R659 to R662, R698 to R709, R713,
R719, R730 to R734). -/

namespace Sys2Proof.Machine

/-! ## Registers at a package recovery (R32, R704, R826, R845 to R848) -/

/-- The blocks whose committed RWC values the harvest keeps (R700). -/
def hubSettings : List Nat := [blkDsp, blkCtx, blkTly, blkMem, blkFab, blkCol, blkPwr, blkHst, blkRas]

/-- The base offsets of the registers whose present values stand through a package recovery beside the STKY fields: what R845 to R848
name, the device's own status, and state held in the HOST and AON domains or restored from the harvest (log entry 40). -/
def keptRegs : List Nat :=
  [0x0, 0x8, 0x10, 0x100200, 0x300000, 0x500220, 0x720000, 0xB00040, 0xE00000, 0xE10000, 0xE18000]

/-- The further bits that stand: counts of the intake, modules retired and copies stale, port modes, circuits FAILED, the copy in
use, the state of a controller, which runs on, and the GO bits, STATE and STAGE of operations still under way (log entry 40). -/
def keptBits (base : Nat) : List (Nat × Nat) :=
  if base = 0x200100 then [(63, 32), (6, 0)]
  else if base = 0x108 then [(63, 8)]
  else if base = 0x500000 then [(7, 7), (5, 5)]
  else if base = 0x500110 then [(7, 7)]
  else if base = 0x500118 then [(31, 31)]
  else if base = 0x600000 then [(17, 16)]
  else if base = 0x900008 then [(3, 0)]
  else if base = 0x600300 then [(34, 34)]
  else if base = 0x602000 then [(11, 8), (3, 0)]
  else if base = 0x18 then [(2, 2)]
  else if base = 0xA00000 then [(4, 4)]
  else if base = 0xA00010 then [(19, 16), (3, 0)]
  else if base = 0x900050 then [(8, 8)]
  else if base = 0xE00010 then [(7, 7)]
  else []

/-- The bits of the register at `a` that a package recovery leaves as they are. -/
def recoveryMask (a : Nat) : Word :=
  match findReg a, blockOf a with
  | some r, some b =>
    if r.clu then 0
    else if b = blkTim ∨ b = blkLog ∨ b = blkTel ∨ r.base ∈ keptRegs then BitVec.ofNat 64 (2 ^ 64 - 1)
    else
      BitVec.ofNat 64 (r.maskOf fun f => f.stky || (decide (f.acc = .rwc) && hubSettings.contains b)) |||
        (keptBits r.base).foldl (fun m x => m ||| fieldMask x.1 x.2) 0
  | _, _ => 0

/-- Every register with the bits that do not stand at their reset values. -/
def recoverRegs (m : Store Word) : Store Word :=
  m.filterMap fun e =>
    let k := recoveryMask e.1
    let v := (regDefault e.1 &&& ~~~ k) ||| (e.2 &&& k)
    if v = regDefault e.1 then none else some (e.1, v)

/-- What GLB_CFG_HOLD and FWU_SEED_STATUS report of what still stands: the causes of the sections that are held, and a copy that comes
through the buffer (R624, R766). -/
def State.keepReports (t s : State) : State :=
  let t1 := (List.range 7).foldl (fun (t : State) i =>
    if (s.fld F.GLB_STATE_HELD_SECT).testBit i then t.setCause (i + 1) (s.fld (holdFld (i + 1))) else t) t
  if s.firm.seed.any fun d => !d.staged then
    (t1.setFld F.FWU_SEED_STATUS_STATE (s.fld F.FWU_SEED_STATUS_STATE)).setFld F.FWU_SEED_STATUS_SEQ_DONE
      (s.fld F.FWU_SEED_STATUS_SEQ_DONE)
  else t1

/-- Staged sets, commits under way and latches discarded (R826), registers returned, a new nonce, and the change of the rack cap
and the heartbeat flag logged (R838 class 0x12). -/
def State.resetRegs (s : State) : State :=
  let s1 : State := ({ s with regs := recoverRegs s.regs, staged := [], commits := [], latches := [] } : State).keepReports s
  let s2 := (s1.setReg F.SEC_NONCE_NONCE.reg s1.free).drawn
  let rack := s.fld F.PWR_CAP_RACK_W
  let s3 := if rack = s2.fld F.PWR_CAP_RACK_W then s2
    else s2.logChange orHw 0x12 0 (logValue rack) (logValue (s2.fld F.PWR_CAP_RACK_W))
  let s4 := if s.fld F.PWR_STATUS_HEARTBEAT_LOST = 0 then s3 else s3.logChange orHw 0x12 1 (logValue 1) (logValue 0)
  ((s4.setFld F.PWR_STATUS_WARN_ACTIVE (bit s4.gov.warn)).showCoolFault).noteTerms

/-! ## The harvest record (R700, R701) -/

/-- The record of the hub's state, `time` being the step clock at event 1; its digest is free, as R700 gives the record no layout in
bytes (log entry 41). -/
def State.takeHarvest (s : State) (time : Word) (genAfter : Nat) : Harvest :=
  { cause := s.fld F.RAS_HARVEST_CAUSE, time := time, genBefore := s.fld F.FAB_STATUS_FAB_GEN, genAfter := genAfter
    contexts := s.openCtxs.length, stepCount := s.disp.steps.length
    digest := (List.range 4).map fun i => Config.freeValue (s.freeCtr + i)
    slots := s.disp.slots, windows := s.disp.windows, setTenant := s.disp.setTenant, images := s.disp.images
    imageRegs := s.regs.filter fun e => decide (e.1 / 0x80 = 0x100200 / 0x80)
    keyRefs := s.disp.keyRefs
    tallies := s.regs.filter fun e => decide (0x300000 ≤ e.1) && decide (e.1 < 0x320000)
    pend := s.disp.pend, steps := s.disp.steps, teardowns := s.disp.teardowns, colls := s.col.colls, records := s.disp.records
    settings := s.regs.filterMap fun e =>
      if ((blockOf e.1).any hubSettings.contains) && decide (e.2 &&& rwcMask e.1 ≠ 0) then some (e.1, e.2 &&& rwcMask e.1) else none
    clusters := s.clusters }

/-- The fields of RAS_HARVEST for a record just written (R745). -/
def State.showHarvest (s : State) (began genAfter : Nat) (loss : Bool) : State :=
  (((((s.setFld F.RAS_HARVEST_CONTEXTS s.openCtxs.length).setFld F.RAS_HARVEST_STEPS s.disp.steps.length).setFld
    F.RAS_HARVEST_DURATION_US (min 65535 ((s.now - began) / 1000))).setFld F.RAS_HARVEST_FAB_GEN genAfter).setFld
    F.RAS_HARVEST_LOSS (bit loss)).setFld F.RAS_HARVEST_VALID 1

/-- Is nothing lost? -/
def lossEmpty (l : HarvestLoss) : Bool :=
  l.contexts.isEmpty && l.sets.isEmpty && l.images.isEmpty && l.tallies.isEmpty && l.messages.isEmpty

/-- Does an open context depend on state that could not be read? -/
def State.dependsOn (s : State) (l : HarvestLoss) (c : Nat) : Bool :=
  let base := s.ctx c cfTallyBase
  l.contexts.contains c || l.sets.contains (s.ctx c cfWset) || l.images.contains (s.ctx c cfImage) ||
    l.tallies.any fun n => decide (base ≤ n) && decide (n < base + s.ctx c cfTallyCount)

/-- Is a context CLOSING with no teardown in progress and no message left that would run one? -/
def State.orphaned (s : State) (c : Nat) : Bool :=
  decide (s.ctx c cfState = ctxClosing) && !(s.disp.teardowns.any fun t => decide (t.ctx = c)) &&
    !(s.disp.pend.any fun m => m.began && decide (mgTarget m.words = c))

/-- Contexts that depend on lost state are CLOSING with HARVEST_LOSS raised; a lost message ends with MALFORMED at context 0's ring,
its words free values, and a teardown that its take began runs on from its context; a lost tally holds a free value (R701; log entry 41). -/
def State.restoreLosses (s : State) (l : HarvestLoss) : State :=
  let s0 := l.tallies.foldl (fun (s : State) n => if n < 16384 then (s.setTally n s.free).drawn else s) s
  let hit := s0.openCtxs.filter (s0.dependsOn l)
  let s1 := hit.foldl (fun (s : State) c =>
    (if s.ctxUsable c then s.beginTeardown c [] else s).raiseEvent 0x27 c 0) s0
  let s2 := l.messages.foldl (fun (s : State) n =>
    if s.disp.pend.any fun m => decide (m.num = n) then
      ((s.unpend n).postRecord s.mgmtRing (s.endRecord (List.replicate 32 s.free) stMalformed 0)).drawn
    else s) s1
  (s2.openCtxs.filter s2.orphaned).foldl (fun s c => s.beginTeardown c []) s2

/-! ## Ends of self-tests (R735, R736, R749) -/

def stRunning : Nat := 1
def stPass : Nat := 2
def stFail : Nat := 3
def stAborted : Nat := 4
def stTestRefused : Nat := 5

/-- A test ends with a result: SUBJECT holds KIND in bits 15:12 and INDEX below (log entry 42). -/
def State.endTest (s : State) (kind index res : Nat) : State :=
  ((({ s with ras := { s.ras with selftest := none } } : State).setFld F.RAS_SELFTEST_GO 0).setFld F.RAS_SELFTEST_RESULT
    res).raiseEvent 0x26 (kind * 4096 + index) res

/-- A test that a package recovery meets is ABORTED, with its event (R736; log entry 42). -/
def State.abortTest (s : State) : State :=
  match s.ras.selftest with
  | some x => s.endTest x.1 x.2.1 stAborted
  | none => s

/-! ## The reset of the package (events 6 to 9 of R703) -/

/-- A cluster at a package reset: engines and sequencer reset, the pad undefined, CGEN advanced; a cluster whose step is past READY
keeps its provisional status, and one whose step replays waits for the replay. -/
def State.resetCluster (s : State) (p : Nat) : State :=
  let c := s.clu p
  let t := s.stepAt p
  let lead := t.map (·.lead)
  let s1 := s.setClu p { c.fresh lead c.logical with
    flags := if t.isSome then c.flags else 0, sat := if t.isSome then c.sat else 0, awake := [], scrubNext := [], resetAt := none
    upset := false }
  let s2 := (s1.padUndefined p).bumpCgen p
  match t with
  | none => s2
  | some u => s2.setSeq p (if u.replay.isSome then sqDiscarding else sqCommitting)

/-- The hub's endpoint and engines at a package reset: FAB_GEN advances, requests of the old generation are forgotten, and only
the held increments of committed steps wait (R453, R695, R699). -/
def State.resetHub (s : State) : State :=
  let tadds := s.fab.hubWait.filter fun w => match w.1 with
    | .tadd => true
    | _ => false
  let s1 := s.addWrap F.FAB_STATUS_FAB_GEN 1
  let s2 := (List.range 16).foldl (fun (s : State) k => s.addWrap (F.MEM_LANE_STATUS_LANE_GEN.at k) 1) s1
  let s2 : State := { s2 with mem := { s2.mem with reqs := [] } }
  let s2 := (List.range 32).foldl (fun (s : State) p => s.setPort p { s.port p with draining := none }) s2
  { s2 with
    arbs := []
    host := { s2.host with reads := [] }
    fab := { s2.fab with reqs := [], heldTags := [], hubWait := tadds, inbound := [], loop := [], owed := [], outq := [],
                         discoverAt := none }
    col := { s2.col with early := [], aborts := [], again := [] } }

/-- Resets and spares under way give way, as do droop steps; a spare being brought in starts again (R719). -/
def State.resetRas (s : State) : State :=
  { s with
    gov := { s.gov with droop := [] }
    ras := { s.ras with
      spareDue := (s.ras.spareDue ++ s.ras.spares.map (·.old)).eraseDups, spares := []
      quadReset := [], compReset := none } }

/-- PORT_GEN of the ports without light: at a package reset that of every port advances, and a port whose light goes off advances its own
(R683, R488). -/
def State.bumpDark (s : State) : State :=
  ((List.range 32).filter fun p => !s.portLit p).foldl (fun (s : State) p => s.addWrap (F.FAB_PORT_STATUS_PORT_GEN.at p) 1) s

/-- Had lanes and ports been started in the state before? -/
def State.linksStarted (s : State) (before : Nat) : Bool :=
  decide (s.powState ≠ psDark) && decide (before ≠ dsHeld) && decide (before ≠ dsBoot) && (decide (before ≠ dsConfiguring) || decide (4 ≤ s.boot.stage))

/-- Events 5 to 9 of R703: the record, RESETTING, the domains off and on again, lanes and ports training. A bank that an access woke
returns to its configured state before that (R288). -/
def State.packageReset (s : State) (r : Recovery) (lost : HarvestLoss) : State :=
  let gen := (s.fld F.FAB_STATUS_FAB_GEN + 1) % 4096
  let s1 : State := { s.showHarvest r.began gen (!lossEmpty lost) with
    harvest := some (s.takeHarvest r.time gen), recovery := some { r with lost := some lost }, freeCtr := s.freeCtr + 4 }
  let s2 := ((List.range 264).foldl State.restBanks (s1.abortTest.bumpDark.lightOff cfRecovery)).resetHub.resetRegs.lanesOff
  let s3 := ((List.range 264).foldl State.resetCluster s2).powerUcode (List.range 264)
  let s4 := [0, 1].foldl (fun (s : State) c => if s.fld (F.RAS_CTL_HEALTH_STATE.at c) = 5 then
    s.setFld (F.RAS_CTL_HEALTH_STATE.at c) 6 else s) s3.resetRas
  let s5 : State := { s4 with ctl := { s4.ctl with fails := [] } }
  let s6 := (s5.setDev orHw dsResetting).raiseEvent 0x0E gen (s5.fld F.RAS_HARVEST_CAUSE)
  if s6.linksStarted r.before then s6.lanesTrain.startFabric else s6

/-- HARVEST_WRITTEN: the record is written and the device enters RESETTING, once every write in flight is acknowledged (R421, R703). -/
def State.doHarvestWritten (s : State) (lost : HarvestLoss) : State :=
  match s.recovery with
  | none => s
  | some r => if s.devState = dsHarvest ∧ (s.mem.reqs.all fun q => !q.sent) = true then s.packageReset r lost else s

def execHarvestWritten (lost : HarvestLoss) (s : State) : Host.Outcome State Fault Refusal := .next (s.doHarvestWritten lost)

/-- The clusters that fail the short self-test: those in use are due for a spare, a failed spare is recorded (R697, R714). -/
def State.noteFailed (s : State) (p : Nat) : State :=
  if 264 ≤ p then s
  else if (List.range 256).any fun l => decide (s.physOf l = p) then
    { s with ras := { s.ras with spareDue := if s.ras.spareDue.contains p then s.ras.spareDue else s.ras.spareDue ++ [p] } }
  else
    (s.writeRepair fun r => { r with failed := if r.failed.contains p then r.failed else r.failed ++ [p] }).showRemap

/-- The power state last commanded, where it is not the present one (R60). -/
def State.resumePower (s : State) : State :=
  let t := s.fld F.GLB_STATE_POWER_TARGET
  let s1 : State := { s with boot := { s.boot with staged := none } }
  s1.orderPower (t, (s.boot.staged.map (·.2)).getD orHw)

/-- The device state after a recovery (R617). -/
def State.returnState (s : State) (before : Nat) : State :=
  if before = dsHeld ∨ before = dsBoot then s.setDev orHw before
  else if before = dsConfiguring then
    ({ s with boot := { s.boot with stage := if 4 ≤ s.boot.stage then 5 else s.boot.stage } } : State).setDev orHw dsConfiguring
  else if s.openCtxs.isEmpty then ((s.setDev orHw dsReady).resumePower).showContexts
  else ((s.setDev orHw (if before = dsDraining then dsDraining else dsServing)).resumePower).showContexts

/-- RECOVERY_DONE: lanes and ports have their outcomes; losses, escalation, and the return to service (event 11 of R703, R709). -/
def State.doRecoveryDone (s : State) (failed : List Nat) : State :=
  match s.recovery with
  | none => s
  | some r =>
    if s.devState = dsResetting ∧ s.boot.refclk = true ∧ ((List.range 16).all fun k => decide (s.laneState k ≠ mlTraining)) = true ∧
        s.fab.discoverAt = none then
      let s1 := (failed.foldl State.noteFailed s).restoreLosses (r.lost.getD ⟨[], [], [], [], []⟩)
      let s2 := s1.showEsc
      if s2.escLimit < s2.ras.pkg.length then s2.enterFallow
      else
        let s3 : State := { s2 with recovery := none, safe := none }
        ((s3.pauseInstall false).setFld F.GLB_DEV_CMD_RECOVER 0).returnState r.before
    else s

def execRecoveryDone (failed : List Nat) (s : State) : Host.Outcome State Fault Refusal := .next (s.doRecoveryDone failed)

/-- HUB_STALL: a hub stage stalls past HUB_STALL_US, or hub state reads as uncorrectable (R687, R690). -/
def State.doHubStall (s : State) (state : Bool) : State := s.startRecovery (if state then hvHubState else hvHubStall) true

def execHubStall (state : Bool) (s : State) : Host.Outcome State Fault Refusal := .next (s.doHubStall state)

/-! ## SAFE (R659 to R662, R731 to R734) -/

/-- A comparator's trip point, 115 °C, and the readings below which a trip may be left, 95 °C, in sixteenths of a degree. -/
def tripPoint : Int := 1840
def coolPoint : Int := 1520

/-- THERMAL_TRIP: sensor `i` reads 115 °C or more for 1 µs. -/
def State.doThermalTrip (s : State) (i : Nat) (reading : BitVec 16) : State :=
  if s.off = false ∧ i < 140 ∧ tripPoint ≤ temp16 reading.toNat ∧ s.gov.thermtrip = false then
    (s.raiseEvent 0x05 i (temp16 reading.toNat / 16).toNat).enterSafe true
  else s

def execThermalTrip (i : Nat) (reading : BitVec 16) (s : State) : Host.Outcome State Fault Refusal :=
  .next (s.doThermalTrip i reading)

/-- DEAD_MAN: 20 ms without a heartbeat of the current EPOCH (R731); the timer runs while firmware runs. -/
def State.doDeadMan (s : State) : State :=
  if s.off = false ∧ s.devState ≠ dsSeedbed ∧ ¬(s.devState = dsBoot ∧ s.boot.stage = 0) ∧ s.devState ≠ dsSafe ∧
      s.ctl.beatAt + 20000000 ≤ s.now then s.enterSafe false
  else s

def execDeadMan (s : State) : Host.Outcome State Fault Refusal := .next s.doDeadMan

/-- The exit from SAFE, with which THERMTRIP_N and ALERT_N return high (R662, R734): the recovery proceeds from event 7, its harvest taken from the hub state kept in SAFE. -/
def State.leaveSafe (s : State) (f : Safe) : State :=
  let s1 := ((s.addSat F.RAS_ESC_STATUS_PKG_TOTAL 1).setFld F.RAS_ESC_STATUS_LAST_LEVEL 4).setFld F.RAS_HARVEST_CAUSE hvSafeExit
  let r : Recovery := { began := s.now, time := s.stepClock, before := f.before, fault := false }
  ({ s1 with recovery := some r, safe := none, gov := { s1.gov with thermtrip := false, alert := false } } : State).packageReset r ⟨[], [], [], [], []⟩

/-- Does every sensor read below 95 °C (R662)? -/
def State.cooled (s : State) : Bool := (List.range 140).all fun i => decide (s.sensor i < coolPoint)

/-- Is a controller healthy (R733)? -/
def State.ctlHealthy (s : State) : Bool :=
  [0, 1].any fun c => decide (s.fld (F.RAS_CTL_HEALTH_STATE.at c) = 2) || decide (s.fld (F.RAS_CTL_HEALTH_STATE.at c) = 3)

/-- A RECOVER taken after a trip proceeds once the package has cooled. -/
def State.tryLeaveTrip (s : State) : State :=
  match s.safe with
  | some f => if f.trip && f.recover.isSome && s.cooled && s.ctlHealthy then s.leaveSafe f else s
  | none => s

/-- TEMP_SENSOR_CONVERT: a sensor's reading, its maximum, and a RECOVER that waits for it (R652, R662, R848). -/
def State.doTempSensorConvert (s : State) (i : Nat) (reading : BitVec 16) : State :=
  if s.off = false ∧ i < 140 then
    let s1 := s.setFld (F.TEL_TEMP_TEMP.at i) reading.toNat
    let s2 := if temp16 (s1.fld (F.TEL_TEMP_MAX.at i)) < temp16 reading.toNat then s1.setFld (F.TEL_TEMP_MAX.at i) reading.toNat
      else s1
    s2.tryLeaveTrip
  else s

def execTempSensorConvert (i : Nat) (reading : BitVec 16) (s : State) : Host.Outcome State Fault Refusal :=
  .next (s.doTempSensorConvert i reading)

/-- CONTROLLER_RESTART_DONE: a controller that restarts or tests itself is healthy again, or UNHEALTHY (R724, R728, R733). -/
def State.doControllerRestartDone (s : State) (c healthy : Bool) : State :=
  let k := bit c
  let st := s.fld (F.RAS_CTL_HEALTH_STATE.at k)
  if s.off ∨ ¬(st = 1 ∨ st = 4 ∨ st = 6) then s
  else
    let up := if s.fld F.RAS_LEASE_ACTIVE = k then 2 else 3
    let s1 := s.setFld (F.RAS_CTL_HEALTH_STATE.at k) (if healthy then up else 5)
    let s2 := if healthy then
        (((s1.setFld (F.RAS_CTL_HEALTH_LOCKSTEP_OK.at k) 1).setFld (F.RAS_CTL_HEALTH_SCRUB_OK.at k) 1).setFld
          (F.RAS_CTL_HEALTH_JOURNAL_OK.at k) 1)
      else (s1.addSat (F.RAS_CTL_HEALTH_FAILS.at k) 1).raiseEvent 0x14 k 4
    let s3 : State := { s2 with ctl := { s2.ctl with
      reported := s2.ctl.reported.set k s2.now
      beatAt := if healthy && decide (up = 2) then s2.now else s2.ctl.beatAt
      stopped := if healthy && decide (up = 2) then false else s2.ctl.stopped } }
    match s3.safe with
    | some f => if healthy && !f.trip && f.recover.isSome then s3.leaveSafe f else s3.tryLeaveTrip
    | none => s3

def execControllerRestartDone (c healthy : Bool) (s : State) : Host.Outcome State Fault Refusal :=
  .next (s.doControllerRestartDone c healthy)

/-- SAFE_RESTART_TIMEOUT: neither controller is healthy 10 s after the RECOVER (R733). -/
def State.doSafeRestartTimeout (s : State) : State :=
  match s.safe with
  | some f =>
    match f.recover with
    | some t =>
      if f.trip = false ∧ t + 10 * nsSec ≤ s.now then
        (({ s with safe := some { f with recover := none } } : State).setFld F.GLB_DEV_CMD_RECOVER 0).setFld F.GLB_DEV_CMD_REFUSED 1
      else s
    | none => s
  | none => s

def execSafeRestartTimeout (s : State) : Host.Outcome State Fault Refusal := .next s.doSafeRestartTimeout

/-! ## Device commands (R619, R620) -/

/-- A command refused. -/
def State.refuseCmd (s : State) : State := s.setFld F.GLB_DEV_CMD_REFUSED 1

/-- DRAIN_COMMAND. -/
def State.doDrainCommand (s : State) (w : Agent) : State :=
  s.gate w blkGlb fun s => if s.devState = dsServing then s.setDev (originOf w) dsDraining else s.refuseCmd

def execDrainCommand (w : Agent) (s : State) : Host.Outcome State Fault Refusal := .next (s.leased w fun s => s.doDrainCommand w)

/-- RESUME_COMMAND. -/
def State.doResumeCommand (s : State) (w : Agent) : State :=
  s.gate w blkGlb fun s => if s.devState = dsDraining then s.setDev (originOf w) dsServing else s.refuseCmd

def execResumeCommand (w : Agent) (s : State) : Host.Outcome State Fault Refusal := .next (s.leased w fun s => s.doResumeCommand w)

/-- RECOVER in SAFE: after a dead-man entry both controllers restart; after a trip it waits until the package has cooled. -/
def State.recoverSafe (s : State) (f : Safe) : State :=
  let s1 := ({ s with safe := some { f with recover := some s.now } } : State).setFld F.GLB_DEV_CMD_RECOVER 1
  if f.trip then s1.tryLeaveTrip
  else (s1.setFld (F.RAS_CTL_HEALTH_STATE.at 0) 6).setFld (F.RAS_CTL_HEALTH_STATE.at 1) 6

/-- RECOVER: a package recovery, the exit from SAFE, or a refusal. -/
def State.doRecover (s : State) (w : Agent) : State :=
  s.gate w blkGlb fun s =>
    match s.safe with
    | some f => if s.devState = dsSafe ∧ f.recover = none then s.recoverSafe f else s.refuseCmd
    | none =>
      if s.devState = dsConfiguring ∨ s.devState = dsHeld ∨ s.inService = true then
        (s.setFld F.GLB_DEV_CMD_RECOVER 1).startRecovery (if w = .host then hvRecover else hvController) false
      else s.refuseCmd

end Sys2Proof.Machine
end

