-- ==== Sys2Proof/Machine/Resets.lean ====
section
/-! DEFINITION. Cluster, quadrant and compute resets with their escalation, spares, self-tests, the on-chip scrubber, and the hub
strikes of the collective reducer (R278 to R281, R287, R683 to R692, R696, R697, R706 to R717, R735, R736, R748, R897). -/

namespace Sys2Proof.Machine

/-! ## One cluster in reset (R684, R691, R693, R696) -/

/-- The attempt that a cluster runs replays with a cause, unless its READY has been sent (R529, R684). -/
def State.replayOn (s : State) (p cause : Nat) : State :=
  match s.stepAt p with
  | none => s
  | some t =>
    if s.col.colls.any fun c => decide (c.lead = t.lead) && c.readyAt.isSome then s else s.replayStep t.lead cause []

/-- Events 1 to 4 of R696 on cluster `p`: it is IN_RESET, CGEN advances, its attempt is marked, its engines are reset and its pad
is destroyed by the self-test; banks woken return to their configured states, as on entry to IDLE (R288). -/
def State.resetOne (s : State) (p cause : Nat) : State :=
  let s1 := ((s.replayOn p cause).discard p).restBanks p
  let c := s1.clu p
  let s2 := (s1.clearSeqRegs p).setClu p { c.fresh c.lead c.logical with
    flags := c.flags, sat := c.sat, resetAt := some s.now, upset := false }
  let s3 := ((s2.padUndefined p).bumpCgen p).resetArbs (ArbId.ofCluster p)
  (s3.setReg (F.CLU_SEQ_STATUS_SEQ_STATE.clu p).reg 0).setSeq p sqInReset

/-- The scrubber's pass over a power-cycled pad starts again (R280, R697). -/
def State.scrubPads (s : State) (p : Nat) : State :=
  s.setClu p { s.clu p with scrubNext := (s.clu p).scrubNext.filter fun e => decide (e.1 < 64) }

/-- The clusters of a quadrant domain, 14 to 29. -/
def domainClusters (q : Nat) : List Nat := (List.range 264).filter fun p => decide (quadDomain p = q)

/-- LAST_LEVEL of RAS_ESC_STATUS. -/
def State.noteLevel (s : State) (l : Nat) : State := s.setFld F.RAS_ESC_STATUS_LAST_LEVEL l

/-! ## Escalation (R706 to R709) -/

/-- A compute reset, or the package recovery that replaces it. -/
def State.computeReset (s : State) (cause : Nat) : State :=
  let n := (recent s.stepNow s.upperWindow s.ras.compResets).length
  if s.fld F.RAS_ESC_CFG_COMPUTE_LIMIT < n + 1 then s.startRecovery hvEscalation true
  else
    let s1 : State := { s with ras := { s.ras with
      compResets := s.ras.compResets ++ [s.stepNow], compReset := some s.now, quadReset := [] } }
    (((List.range 264).foldl (fun (s : State) p => (s.resetOne p cause).scrubPads p) s1).noteLevel 3).showEsc.raiseEvent 0x0D 0 cause

/-- A quadrant reset, or the compute reset that replaces it. -/
def State.quadrantReset (s : State) (q cause : Nat) : State :=
  let n := (recent s.stepNow s.upperWindow s.ras.quadResets).length
  if s.fld F.RAS_ESC_CFG_QUAD_LIMIT < n + 1 then s.computeReset cause
  else
    let s1 : State := { s with ras := { s.ras with
      quadResets := s.ras.quadResets ++ [s.stepNow]
      quadReset := (s.ras.quadReset.filter fun e => decide (e.1 ≠ q)) ++ [(q, s.now)] } }
    ((((domainClusters q).foldl (fun (s : State) p => (s.resetOne p cause).scrubPads p) s1).noteLevel 2).showEsc).raiseEvent 0x0C q cause

/-- CLU_WINDOW_S in nanoseconds. -/
def State.cluWindow (s : State) : Nat := nsSec * s.fld F.RAS_ESC_CFG_CLU_WINDOW_S

/-- A cluster reset, or the quadrant reset that replaces it. -/
def State.clusterReset (s : State) (p cause : Nat) : State :=
  let near := s.ras.cluResets.filter fun e => decide (s.stepNow < e.2 + s.cluWindow)
  let n := (near.filter fun e => decide (quadDomain e.1 = quadDomain p)).length
  if s.fld F.RAS_ESC_CFG_CLU_RESET_LIMIT < n + 1 then s.quadrantReset (quadDomain p) cause
  else
    let s1 := ({ s with ras := { s.ras with cluResets := near ++ [(p, s.stepNow)] } } : State).addSat F.RAS_ESC_STATUS_CLU_RESETS 1
    ((s1.resetOne p cause).noteLevel 1).raiseEvent 0x0B p cause

/-! ## Hang detectors (R687 to R690, R897) -/

/-- Can a cluster stall: powered, and not in reset? -/
def State.cluRuns (s : State) (p : Nat) : Bool :=
  decide (p < 264) && s.inService && s.cluOn && decide (s.seqState p ≠ sqInReset) && !(s.clu p).retired

/-- The fault of a stage stall on the attempt that the cluster runs. R174 does not say what a stall is to a step past READY that has not
committed: it counts as LATE_FAULT of no step, while a granule that the scrubber finds replays such a step (log entry 17). -/
def State.stallFault (s : State) (p : Nat) : State :=
  if s.col.colls.any fun c => decide (some c.lead = (s.clu p).lead) && c.readyAt.isSome then s.lateFault p 0x09
  else s.stepFault p 4 0x09

/-- The arbiter masters through which an engine reaches the slice and the pad (R259). -/
def engineMasters : Engine → List Nat
  | .tensor => [1, 8]
  | .vector => [2, 9]
  | .select => [3, 10]
  | .move => [4, 12]
  | .seq => [0]

/-- Does a stage of engine `e` wait on an arbitration that it has lost? -/
def State.lostArb (s : State) (p : Nat) (e : Engine) : Bool :=
  s.arbs.any fun a => ArbId.ofCluster p a.id && (engineMasters e).any fun i => decide (0 < a.wait i)

/-- Does the sequencer wait: on a control descriptor, or for a place in the queue of the next descriptor's engine? -/
def State.seqHeld (s : State) (p : Nat) : Bool :=
  decide (s.seqState p = sqRunning) &&
    ((s.clu p).inColl.isSome ||
      (s.mayIssue p && !(s.clu p).past &&
        let ws := s.progWords p (s.pcOf p)
        match engineOf (hOpcode ws) with
        | some .seq => !s.controlReady p ws
        | some e => decide (8 ≤ ((s.clu p).waiting e).length)
        | none => false))

/-- Is all that an engine holds a tally wait at the head of its queue, or BARROWs whose transfers the hub holds? -/
def State.engineHeld (s : State) (p : Nat) (e : Engine) : Bool :=
  let mine := (s.clu p).queue.filter fun d => decide (d.eng = e) && d.open
  !mine.isEmpty && (mine.all fun d => !d.started || decide (hOpcode d.words = 0x42)) &&
    ((mine.any (·.started)) || match (s.clu p).waiting e with
      | d :: _ => !s.waitMet p d.wait
      | [] => false)

/-- Does a stage wait for something that is no stall (R688)? A bank's wake, droop and DUTY hold a stage for less than any STALL_US and
are timing (log entry 68). -/
def State.excused (s : State) (p : Nat) (e : Engine) : Bool :=
  s.lostArb p e || match e with
    | .seq => s.seqHeld p
    | e => s.engineHeld p e

/-- STAGE_STALL: the event, a strike, and a cluster reset; a stage that waits as R688 lists does not count as stalled. -/
def State.doStageStall (s : State) (p : Nat) (e : Engine) : State :=
  if s.cluRuns p && !s.excused p e then ((((s.raiseEvent 0x09 p (engineBit e)).stallFault p).strike p).clusterReset p 4) else s

def execStageStall (p : Nat) (e : Engine) (s : State) : Host.Outcome State Fault Refusal := .next (s.doStageStall p e)

/-- SPINE_STALL: a compute reset. -/
def State.doSpineStall (s : State) (die : Nat) : State :=
  if die < 4 ∧ s.inService = true ∧ s.cluOn = true then s.computeReset 3 else s

def execSpineStall (die : Nat) (s : State) : Host.Outcome State Fault Refusal := .next (s.doSpineStall die)

/-- The clusters of an attempt that have not reported STEP_END. -/
def Step.late (t : Step) : List Nat := (t.map.filter fun m => !t.reported.contains m.1).map (·.2)

/-- STEP_BUDGET: an attempt over its budget; every cluster that has not reported is reset. -/
def State.doStepBudget (s : State) (lead : Nat) : State :=
  match s.stepOf lead with
  | none => s
  | some t =>
    if s.inService = true ∧ t.replay = none ∧ t.fail = none ∧ t.late ≠ [] ∧
        t.attemptAt + 1000000 * s.fld F.RAS_HANG_CFG_STEP_BUDGET_MS ≤ s.now then
      let s1 := (s.raiseEvent 0x0A lead (msgSeq t.words)).replayStep lead 4 []
      t.late.foldl (fun (s : State) p => if s.seqState p = sqInReset then s else s.clusterReset p 4) s1
    else s

def execStepBudget (lead : Nat) (s : State) : Host.Outcome State Fault Refusal := .next (s.doStepBudget lead)

/-! ## Ends of resets (R185, R696, R697, R708) -/

/-- A cluster whose self-test has passed is IDLE; one whose step waits for its replay keeps discarding until then. -/
def State.endReset (s : State) (p : Nat) : State :=
  let s1 := s.setClu p { s.clu p with resetAt := none }
  s1.setSeq p (if (s.stepAt p).isSome then sqDiscarding else sqIdle)

/-- The clusters of a larger reset leave it: those that passed are IDLE, the others are replaced. -/
def State.endResets (s : State) (ps failed : List Nat) : State :=
  ps.foldl (fun (s : State) p => if failed.contains p then (s.setClu p { s.clu p with resetAt := none }).noteFailed p
    else s.endReset p) s

/-- Is a cluster in a quadrant or compute reset under way? -/
def State.inLarger (s : State) (p : Nat) : Bool :=
  s.ras.compReset.isSome || s.ras.quadReset.any fun e => decide (e.1 = quadDomain p)

/-- CLUSTER_RESET_DONE. -/
def State.doClusterResetDone (s : State) (p : Nat) (pass : Bool) : State :=
  if s.seqState p = sqInReset ∧ (s.clu p).resetAt ≠ none ∧ s.inLarger p = false then
    s.endResets [p] (if pass then [] else [p])
  else s

def execClusterResetDone (p : Nat) (pass : Bool) (s : State) : Host.Outcome State Fault Refusal :=
  .next (s.doClusterResetDone p pass)

/-- QUADRANT_RESET_DONE. -/
def State.doQuadrantResetDone (s : State) (q : Nat) (failed : List Nat) : State :=
  if s.ras.compReset = none ∧ (s.ras.quadReset.any fun e => decide (e.1 = q)) = true then
    ({ s with ras := { s.ras with quadReset := s.ras.quadReset.filter fun e => decide (e.1 ≠ q) } } : State).powerUcode (domainClusters q)
      |>.endResets (domainClusters q) failed
  else s

def execQuadrantResetDone (domain : Nat) (failed : List Nat) (s : State) : Host.Outcome State Fault Refusal :=
  .next (s.doQuadrantResetDone domain failed)

/-- COMPUTE_RESET_DONE. -/
def State.doComputeResetDone (s : State) (failed : List Nat) : State :=
  match s.ras.compReset with
  | none => s
  | some _ => ({ s with ras := { s.ras with compReset := none } } : State).powerUcode (List.range 264) |>.endResets
    (List.range 264) failed

def execComputeResetDone (failed : List Nat) (s : State) : Host.Outcome State Fault Refusal := .next (s.doComputeResetDone failed)

/-- The slow-corner maxima of R683: 3.6 ms, 90 ms, 550 ms. -/
def resetLimit : ResetLevel → Nat
  | .cluster => 3600000
  | .quadrant => 90000000
  | .compute => 550000000

/-- RESET_TIMEOUT: a reset that has not ended is abandoned for the next level. -/
def State.doResetTimeout (s : State) (l : ResetLevel) (id : Nat) : State :=
  match l with
  | .cluster =>
    if s.seqState id = sqInReset ∧ s.inLarger id = false ∧ ((s.clu id).resetAt.any fun t => decide (t + resetLimit l ≤ s.now)) = true
    then s.quadrantReset (quadDomain id) 3 else s
  | .quadrant =>
    if s.ras.compReset = none ∧ (s.ras.quadReset.any fun e => decide (e.1 = id) && decide (e.2 + resetLimit l ≤ s.now)) = true then
      ({ s with ras := { s.ras with quadReset := s.ras.quadReset.filter fun e => decide (e.1 ≠ id) } } : State).computeReset 3
    else s
  | .compute =>
    if s.ras.compReset.any fun t => decide (t + resetLimit l ≤ s.now) then
      ({ s with ras := { s.ras with compReset := none } } : State).startRecovery hvEscalation true
    else s

def execResetTimeout (level : ResetLevel) (id : Nat) (s : State) : Host.Outcome State Fault Refusal :=
  .next (s.doResetTimeout level id)

/-! ## Spares (R714 to R717, R748) -/

/-- The spares being brought in. -/
def State.busySpares (s : State) : List Nat := s.ras.spares.map (·.spare)

/-- A cluster stopped for good (event 1 of R715): CGEN advances and the attempt on it replays. -/
def State.stopCluster (s : State) (p : Nat) : State :=
  let s1 := ((s.replayOn p 3).discard p).bumpCgen p
  (s1.setClu p { s1.clu p with resetAt := none }).setSeq p sqInReset

/-- RAS_SPARE_CTL.GO falls once the cluster that it was written for has its outcome. -/
def State.endSpareCtl (s : State) (l : Nat) : State :=
  if s.ras.spareGo = some l then ({ s with ras := { s.ras with spareGo := none } } : State).setFld F.RAS_SPARE_CTL_GO 0 else s

/-- A logical cluster marked LOST (R717). -/
def State.loseLogical (s : State) (l : Nat) : State :=
  let lost := if s.repair.lost.contains l then s.repair.lost else s.repair.lost ++ [l]
  (((s.writeRepair fun r => { r with lost := lost }).showRemap).endSpareCtl l).raiseEvent 0x12 l (l / 64)

/-- A spare for logical cluster `l`, in place of physical cluster `old`: its slice banks are woken and its self-test starts (event 2 of
R715), or the cluster is LOST. -/
def State.trySpare (s : State) (l old : Nat) : State :=
  match s.chooseSpare old s.busySpares with
  | none => s.loseLogical l
  | some q =>
    let s1 := (List.range 64).foldl (fun (s : State) b => s.wakeBank q b) s
    { s1 with ras := { s1.ras with spares := s1.ras.spares ++ [{ logical := l, old := old, spare := q, since := s.now }] } }

/-- SPARE_BRING_IN: the trigger of R714 takes effect for logical cluster `l`. -/
def State.doSpareBringIn (s : State) (l : Nat) : State :=
  let p := s.physOf l
  if s.inService = true ∧ l < 256 ∧ s.ras.spareDue.contains p = true ∧ s.isLost l = false then
    let s1 := s.stopCluster p
    ({ s1 with ras := { s1.ras with spareDue := s1.ras.spareDue.filter fun q => decide (q ≠ p) } } : State).trySpare l p
  else s

def execSpareBringIn (l : Nat) (s : State) : Host.Outcome State Fault Refusal := .next (s.doSpareBringIn l)

/-- A physical cluster retired: every bank OFF, its contents lost, out of use from now on (R285, R716). -/
def State.retireCluster (s : State) (p : Nat) : State :=
  let s1 := ((s.setReg (slicePwrReg p 0) 0xAAAAAAAAAAAAAAAA).setReg (slicePwrReg p 1) 0xAAAAAAAAAAAAAAAA).setReg (padPwrReg p) 0xAAAAAAAA
  let s2 := (List.range 80).foldl (fun (s : State) b => s.loseBank p b) s1
  let s3 := s2.setClu p { s2.clu p with retired := true, awake := [] }
  (s3.writeRepair fun r => { r with failed := if r.failed.contains p then r.failed else r.failed ++ [p] }).showRemap

/-- The regions of every LOADED image copied to a logical cluster's new place; an image whose source fails is EMPTY. -/
def State.copyImages (s : State) (l : Nat) : State × CopyEnd :=
  (s.imagesOn l).foldl (fun (a : State × CopyEnd) i =>
    match a.2 with
    | .waits => a
    | _ =>
      match a.1.copyImageTo i l with
      | (s1, .refused) => ((s1.setImageState i imgEmpty).logImage orHw i (s1.imageDigest i), .going)
      | r => r) (s, .going)

/-- The spare takes the place of the old cluster (events 4 to 6 of R715). -/
def State.enterSpare (s : State) (x : SpareIn) : State :=
  let s1 : State := { s with ras := { s.ras with spares := s.ras.spares.filter fun y => decide (y.logical ≠ x.logical) } }
  let s2 := ((s1.putRemap x.logical x.spare).restBanks x.spare).padUndefined x.spare
  let s3 := (((s2.setClu x.spare ((s2.clu x.spare).fresh none x.logical)).clearSeqRegs
    x.spare).resetArbs (ArbId.ofCluster x.spare)).setSeq x.spare sqIdle
  match s3.copyImages x.logical with
  | (_, .waits) => s
  | (s4, _) => ((s4.retireCluster x.old).endSpareCtl x.logical).raiseEvent 0x11 x.logical (x.old * 65536 + x.spare)

/-- SPARE_IN: the spare's self-test passes and it is brought in, or fails and the next spare is tried. A reset that covers the spare
restarts its self-test, which cannot pass before the reset ends (R719). -/
def State.doSpareIn (s : State) (l : Nat) (pass : Bool) : State :=
  match s.ras.spares.find? fun x => decide (x.logical = l) with
  | none => s
  | some x =>
    if s.inService = false ∨ s.cluOn = false then s
    else if pass then (if s.seqState x.spare = sqInReset ∧ (s.clu x.spare).resetAt ≠ none then s else s.enterSpare x)
    else
      let s1 := s.retireCluster x.spare
      ({ s1 with ras := { s1.ras with spares := s1.ras.spares.filter fun y => decide (y.logical ≠ l) } } : State).trySpare l x.old

def execSpareIn (l : Nat) (pass : Bool) (s : State) : Host.Outcome State Fault Refusal := .next (s.doSpareIn l pass)

/-- RAS_SPARE_CTL_GO: a spare asked for; ignored on a die with no free spare, and while GO reads 1. LCLUSTER takes what is written. -/
def State.doRasSpareCtlGo (s : State) (w : Agent) (l : Nat) : State :=
  s.gate w blkRas fun s =>
    let s1 := s.setFld F.RAS_SPARE_CTL_LCLUSTER l
    let p := s.physOf l
    if 256 ≤ l ∨ s.fld F.RAS_SPARE_CTL_GO = 1 ∨ s.chooseSpare p s.busySpares = none then s1
    else
      let s2 := ({ s1 with ras := { s1.ras with spareGo := some l } } : State).setFld F.RAS_SPARE_CTL_GO 1
      if s2.ras.spareDue.contains p || s2.ras.spares.any fun x => decide (x.logical = l) then s2
      else { s2 with ras := { s2.ras with spareDue := s2.ras.spareDue ++ [p] } }

def execRasSpareCtlGo (w : Agent) (l : Nat) (s : State) : Host.Outcome State Fault Refusal := .next (s.leased w fun s => s.doRasSpareCtlGo w l)

/-! ## On-demand self-tests (R735, R736, R749) -/

/-- A write of GO with a kind and an index: KIND and INDEX take what is written; GO is ignored while a test runs, and refused where the
part cannot be tested (R736, R749). -/
def State.startTest (s : State) (w : Agent) (kind index : Nat) (ok : State → Bool) (f : State → State) : State :=
  s.gate w blkRas fun s =>
    let s1 := (s.setFld F.RAS_SELFTEST_KIND kind).setFld F.RAS_SELFTEST_INDEX index
    if s.fld F.RAS_SELFTEST_GO = 1 then s1
    else if ok s1 then
      f ((({ s1 with ras := { s1.ras with selftest := some (kind, index, s1.now) } } : State).setFld F.RAS_SELFTEST_GO 1).setFld
        F.RAS_SELFTEST_RESULT stRunning)
    else s1.endTest kind index stTestRefused

/-- SELFTEST_CLUSTER: steps that reserve the cluster wait until the test ends. -/
def State.doSelftestCluster (s : State) (w : Agent) (i : Nat) : State :=
  s.startTest w 1 i (fun s => s.cluRuns i && !s.repair.failed.contains i && !s.busySpares.contains i) fun s => s

def execSelftestCluster (w : Agent) (index : Nat) (s : State) : Host.Outcome State Fault Refusal := .next (s.leased w fun s => s.doSelftestCluster w index)

/-- SELFTEST_LANE: the lane's requests are held. -/
def State.doSelftestLane (s : State) (w : Agent) (i : Nat) : State :=
  s.startTest w 2 i (fun s => decide (i < 16) && s.inService && s.laneUsable i) fun s => s.setFld (F.MEM_LANE_STATUS_STATE.at i) mlHeld

def execSelftestLane (w : Agent) (index : Nat) (s : State) : Host.Outcome State Fault Refusal := .next (s.leased w fun s => s.doSelftestLane w index)

/-- SELFTEST_PORT: the port drains; its retrain follows at the end of the drain. -/
def State.doSelftestPort (s : State) (w : Agent) (i : Nat) : State :=
  s.startTest w 3 i (fun s => decide (i < 32) && s.inService && s.portUsable i) fun s =>
    s.setFld (F.FAB_PORT_STATUS_STATE.at i) poDraining

def execSelftestPort (w : Agent) (index : Nat) (s : State) : Host.Outcome State Fault Refusal := .next (s.leased w fun s => s.doSelftestPort w index)

/-- The controller that does not hold the lease. -/
def State.standby (s : State) : Nat := 1 - s.fld F.RAS_LEASE_ACTIVE

/-- SELFTEST_CONTROLLER: the standby tests itself. -/
def State.doSelftestController (s : State) (w : Agent) : State :=
  s.startTest w 4 (s.fld F.RAS_SELFTEST_INDEX) (fun s => decide (s.fld (F.RAS_CTL_HEALTH_STATE.at s.standby) = 3)) fun s =>
    s.setFld (F.RAS_CTL_HEALTH_STATE.at s.standby) 4

def execSelftestController (w : Agent) (s : State) : Host.Outcome State Fault Refusal := .next (s.leased w fun s => s.doSelftestController w)

/-- A lane's test over: its requests go on, or it retrains. -/
def State.endLaneTest (s : State) (k : Nat) (pass : Bool) : State :=
  if pass then s.endHold k else if s.mayTrain then s.retrainLane k else s

/-- Have the packets already sent onto a port left it (R476)? -/
def State.portEmpty (s : State) (p : Nat) : Bool :=
  (s.fab.outq.all fun o => decide (o.port ≠ p)) && (s.port p).holdReq.isNone && (s.port p).holdRep.isNone

/-- SELFTEST_DONE: the test of R735 in progress ends. -/
def State.doSelftestDone (s : State) (pass : Bool) : State :=
  let res := if pass then stPass else stFail
  match s.ras.selftest with
  | none => s
  | some x =>
    let i := x.2.1
    if x.1 = 1 then
      if s.seqState i = sqInReset then s.endTest 1 i stAborted
      else if s.seqState i ≠ sqIdle then s
      else
        let s1 := s.padUndefined i
        (if pass then s1 else s1.noteFailed i).endTest 1 i res
    else if x.1 = 2 then
      if s.laneState i = mlHeld then (s.endTest 2 i res).endLaneTest i pass else s.endTest 2 i stAborted
    else if x.1 = 3 then
      if s.portState i ≠ poDraining then s.endTest 3 i stAborted
      else if s.portEmpty i then (s.beginRetrain i 8).endTest 3 i res
      else s
    else
      let c := s.standby
      let s1 := if pass then s.setFld (F.RAS_CTL_HEALTH_STATE.at c) 3
        else ((s.setFld (F.RAS_CTL_HEALTH_STATE.at c) 5).addSat (F.RAS_CTL_HEALTH_FAILS.at c) 1).raiseEvent 0x14 c 4
      s1.endTest 4 i res

def execSelftestDone (pass : Bool) (s : State) : Host.Outcome State Fault Refusal := .next (s.doSelftestDone pass)

/-! ## The scrubber and resident regions (R280, R281) -/

/-- The offset of row `r` of a bank, and the rows of a bank: 8,192 granules of a slice bank, 512 lines of a pad bank (R255, R258). -/
def scrubOffset (pad : Bool) (bank r : Nat) : Nat :=
  if pad then r * 2048 + (bank ^^^ (r % 16)) * 128 else r * 4096 + (bank ^^^ (r % 64)) * 64
def scrubRows (pad : Bool) : Nat := if pad then 512 else 8192

/-- One granule read by the scrubber: corrected and written back, or found uncorrectable. -/
def State.scrubGranule (s : State) (p : Nat) (pad : Bool) (o : Nat) : State :=
  let slice := !pad
  let fl := s.flaws p slice o 64
  let s := if pad then s.scrubPort p (o / 64) ((badGranules o fl).isEmpty && decide (corrected fl ≠ 0)) else s
  let s1 := s.countCorrected p slice (corrected fl)
  if (badGranules o fl).isEmpty then s1.setFlaws slice (flawBase p slice o) (fl.map fun _ => 0)
  else if fl.all fun k => decide (k = poisonMark) then s
  else (s1.uncorrectable p slice o).stepFault p 2 0x07

/-- SCRUB_READ: the next granule of a slice bank or line of a pad bank; a bank that is not ON is skipped, and its pass starts again
when it returns to ON (`State.scrubAgain`). -/
def State.doScrubRead (s : State) (p : Nat) (pad : Bool) (bank : Nat) : State :=
  let b := if pad then 64 + bank else bank
  if 264 ≤ p ∨ (if pad then 16 else 64) ≤ bank ∨ s.cluOn = false ∨ s.cfld p F.CLU_SCRUB_CFG_ENABLE = 0 then s
  else
    let c := s.clu p
    let r := mget (fun _ => 0) c.scrubNext b
    if s.bankCfg p b ≠ 0 ∧ b ∉ c.awake then s
    else
      let o := scrubOffset pad bank r
      let s1 := s.setClu p { c with scrubNext := mset (fun _ => 0) c.scrubNext b ((r + 1) % scrubRows pad) }
      if pad then (s1.scrubGranule p pad o).scrubGranule p pad (o + 64) else s1.scrubGranule p pad o

def execScrubRead (p : Nat) (pad : Bool) (bank : Nat) (s : State) : Host.Outcome State Fault Refusal :=
  .next (s.doScrubRead p pad bank)

/-- The tier line that holds the master of a resident granule of logical cluster `l`. -/
def State.masterLine (s : State) (l o : Nat) : Option Nat :=
  (s.imagesOn l).findSome? fun i => ((s.imageLines i l).find? fun x => decide (x.2 = o)).map (·.1)

/-- RESIDENT_REWRITE: a resident granule found uncorrectable is written again from its master. -/
def State.doResidentRewrite (s : State) (p o : Nat) : State :=
  if s.ras.repairs.contains (p, o) = true ∧ s.inService = true ∧ s.cluOn = true then
    let done (s : State) : State :=
      { s with ras := { s.ras with repairs := s.ras.repairs.filter fun r => decide (r ≠ (p, o)) } }
    match (s.logicalAt p).bind fun l => s.masterLine l o with
    | none => done s
    | some line =>
      match copyLine p line o (s, .going) with
      | (s1, .going) => ((done s1).setCfld p F.CLU_MEM_ERR_RESIDENT_REPAIR 1).raiseEvent 0x08 p (bankCode true o)
      | _ => s
  else s

def execResidentRewrite (p offset : Nat) (s : State) : Host.Outcome State Fault Refusal := .next (s.doResidentRewrite p offset)

/-! ## Hub strikes (R690, R706) -/

/-- More than eight hub strikes in 60 s: a package recovery, counted in place of the last strike. -/
def State.escalateHub (s : State) : State :=
  if 8 < s.ras.hubStrikes.length then
    ({ s with ras := { s.ras with hubStrikes := s.ras.hubStrikes.dropLast } } : State).startRecovery hvEscalation true
  else s

def execCollectiveAdmit (group : Nat) (s : State) : Host.Outcome State Fault Refusal := .next (s.doCollectiveAdmit group).escalateHub

def execStart (port : Nat) (pkt : Packet) (s : State) : Host.Outcome State Fault Refusal := .next (s.doStart port pkt).escalateHub

def execData (port : Nat) (pkt : Packet) (s : State) : Host.Outcome State Fault Refusal := .next (s.doData port pkt).escalateHub

def execCollAck (port : Nat) (pkt : Packet) (s : State) : Host.Outcome State Fault Refusal := .next (s.doCollAck port pkt).escalateHub

end Sys2Proof.Machine
end

