-- ==== Sys2Proof/Machine/Controllers.lean ====
section
/-! DEFINITION. The Tilal controllers: heartbeats, health, takeover, the dual-act window and handover (R575, R721 to R731, R740, R741,
R826). -/

namespace Sys2Proof.Machine

/-- A controller by its number, 0 A and 1 B, as a writer. -/
def ctlAgent (c : Nat) : Agent := if c = 0 then .ctlA else .ctlB

def State.ctlState (s : State) (c : Nat) : Nat := s.fld (F.RAS_CTL_HEALTH_STATE.at c)
def State.setCtlState (s : State) (c n : Nat) : State := s.setFld (F.RAS_CTL_HEALTH_STATE.at c) n

/-- The states of a controller (R741). -/
def csOff : Nat := 0
def csStarting : Nat := 1
def csActive : Nat := 2
def csStandby : Nat := 3
def csSelfTest : Nat := 4
def csUnhealthy : Nat := 5
def csRestarting : Nat := 6

/-- Do the controllers run firmware: the part is on, and not in SEEDBED or before event 5 of R608? -/
def State.firmwareRuns (s : State) : Bool :=
  !s.off && decide (s.devState ≠ dsSeedbed) && !(decide (s.devState = dsBoot) && decide (s.boot.stage = 0))

/-- The time of the last report or heartbeat of a controller. -/
def State.noteReport (s : State) (c : Nat) : State := { s with ctl := { s.ctl with reported := s.ctl.reported.set c s.now } }

/-- CONTROLLER_HEARTBEAT: one that carries EPOCH restarts the dead-man timer; a controller that has stopped sends none. -/
def State.doControllerHeartbeat (s : State) (c : Bool) (epoch : BitVec 16) : State :=
  let k := bit c
  if s.firmwareRuns = false ∨ k ≠ s.activeNum ∨ s.ctl.stopped = true then s
  else
    let s1 := s.noteReport k
    if epoch.toNat = s1.epoch then ({ s1 with ctl := { s1.ctl with beatAt := s1.now } } : State).setCtlState k csActive else s1

def execControllerHeartbeat (c : Bool) (epoch : BitVec 16) (s : State) : Host.Outcome State Fault Refusal :=
  .next (s.doControllerHeartbeat c epoch)

/-- The test of R724 that failed: 1 lockstep, 2 scrub, 3 journal. -/
def State.failBit (s : State) (k cause : Nat) : State :=
  if cause = 1 then s.setFld (F.RAS_CTL_HEALTH_LOCKSTEP_OK.at k) 0
  else if cause = 2 then s.setFld (F.RAS_CTL_HEALTH_SCRUB_OK.at k) 0
  else s.setFld (F.RAS_CTL_HEALTH_JOURNAL_OK.at k) 0

/-- The standby fails a test: UNHEALTHY, then restarted once; it stays UNHEALTHY after a second failure within 1 h. -/
def State.standbyFails (s : State) (cause : Nat) : State :=
  let k := s.standby
  let near := recent s.now nsHour s.ctl.fails
  let s1 := ((s.failBit k cause).addSat (F.RAS_CTL_HEALTH_FAILS.at k) 1).setCtlState k (if near.isEmpty then csRestarting else csUnhealthy)
  ({ s1 with ctl := { s1.ctl with fails := near ++ [s.now] } } : State).raiseEvent 0x14 k cause

/-- HEALTH_REPORT: the standby's own findings, in its register and in the controller journal (R723). The table of R296 lets only the active
controller write the journal, and R723 has the standby write its report there: R723 is followed, under the epoch check (log entry 63). -/
def State.doHealthReport (s : State) (c lockstep scrub journal : Bool) : State :=
  let k := bit c
  if s.firmwareRuns = false ∨ k ≠ s.standby then s
  else
    let s0 := (s.noteReport k).frameWrite .ctlJournal s.epoch fun s => { s with cold := { s.cold with journal := { s.cold.journal with
      health := mset (fun _ => 0) s.cold.journal.health k (1 + bit lockstep + 2 * bit scrub + 4 * bit journal) } } }
    let s1 := ((s0.setFld (F.RAS_CTL_HEALTH_LOCKSTEP_OK.at k) (bit lockstep)).setFld (F.RAS_CTL_HEALTH_SCRUB_OK.at k)
      (bit scrub)).setFld (F.RAS_CTL_HEALTH_JOURNAL_OK.at k) (bit journal)
    if lockstep && scrub && journal then (if s1.ctlState k ≤ csStarting then s1.setCtlState k csStandby else s1)
    else if s1.ctlState k ≤ csStandby then s1.standbyFails (if !lockstep then 1 else if !scrub then 2 else 3)
    else s1

def execHealthReport (c lockstep scrub journal : Bool) (s : State) : Host.Outcome State Fault Refusal :=
  .next (s.doHealthReport c lockstep scrub journal)

/-- STANDBY_UNHEALTHY. -/
def State.doStandbyUnhealthy (s : State) (cause : Nat) : State :=
  if s.firmwareRuns = true ∧ 1 ≤ cause ∧ cause ≤ 3 ∧ s.ctlState s.standby ≤ csStandby then s.standbyFails cause else s

def execStandbyUnhealthy (cause : Nat) (s : State) : Host.Outcome State Fault Refusal := .next (s.doStandbyUnhealthy cause)

/-- LOCKSTEP_MISMATCH in the active controller: its heartbeat stops. -/
def State.doLockstepMismatch (s : State) : State :=
  if s.firmwareRuns then
    ({ s with ctl := { s.ctl with stopped := true } } : State).setFld (F.RAS_CTL_HEALTH_LOCKSTEP_OK.at s.activeNum) 0
  else s

def execLockstepMismatch (s : State) : Host.Outcome State Fault Refusal := .next s.doLockstepMismatch

/-- The staged sets of a controller discarded (R826). -/
def State.dropSets (s : State) (w : Agent) : State :=
  { s with staged := s.staged.filter fun e => decide (e.1 % 4 ≠ agentKey w) }

/-- The lease passes to the other controller: EPOCH advances, ACTIVE changes, MCTP requests not answered are forgotten (R575), and the
loser's staged sets go. The entry is that of class 0x0E. -/
def State.passLease (s : State) (origin : Nat) : State :=
  let old := s.activeNum
  let new := s.standby
  let e := (s.epoch + 1) % 65536
  let s1 := (((s.setFld F.RAS_LEASE_EPOCH e).setFld F.RAS_LEASE_ACTIVE new).setFld F.GLB_STATE_ACTIVE_CTL new).logChange origin 0x0E
    new (logValue s.epoch) (logValue e)
  let s2 := (s1.dropSets (ctlAgent old)).setCtlState new csActive
  { s2 with
    mgmt := { s2.mgmt with sigs := [] }
    ctl := { s2.ctl with stopped := false, relinquished := false, staleSeen := false, dual := [] } }

/-- Is the standby HEALTHY, or only testing itself on demand (R735)? -/
def State.standbyReady (s : State) : Bool :=
  decide (s.ctlState s.standby = csStandby) ||
    (decide (s.ctlState s.standby = csSelfTest) && s.ras.selftest.any fun x => decide (x.1 = 4))

/-- A self-test of the standby is aborted for a takeover (R735). -/
def State.abortCtlTest (s : State) : State := if s.ras.selftest.any fun x => decide (x.1 = 4) then s.abortTest else s

/-- TAKEOVER: no heartbeat for 5 ms, and the standby takes the lease; the former active stops and tests itself. -/
def State.doTakeover (s : State) : State :=
  if s.firmwareRuns = true ∧ s.standbyReady = true ∧ s.ctl.beatAt + 5000000 ≤ s.now then
    let old := s.activeNum
    let s1 := ((s.abortCtlTest).passLease orHw).setCtlState old csSelfTest
    let s2 := (((s1.setFld F.RAS_LEASE_DUAL_ACT 1).setFld F.RAS_LEASE_DUALACT_WRITES 0).addSat F.RAS_LEASE_TAKEOVERS 1)
    ({ s2 with ctl := { s2.ctl with dualAt := some s2.now } } : State).raiseEvent 0x13 s2.activeNum s2.epoch
  else s


/-- The dual-act window closes. -/
def State.closeDual (s : State) : State :=
  ({ s with ctl := { s.ctl with dualAt := none } } : State).setFld F.RAS_LEASE_DUAL_ACT 0

/-- DUAL_ACT_CLEAR: 50 µs after it was set. -/
def State.doDualActClear (s : State) : State :=
  if s.fld F.RAS_LEASE_DUAL_ACT = 1 ∧ (s.ctl.dualAt.all fun t => decide (t + 50000 ≤ s.now)) = true then s.closeDual else s

def execDualActClear (s : State) : Host.Outcome State Fault Refusal := .next s.doDualActClear

/-- A handover: the standby takes the lease without a dual-act window, and the former active is the standby (R730). -/
def State.handover (s : State) (origin : Nat) : State := (s.passLease origin).setCtlState s.activeNum csStandby

/-- RELINQUISH: by the active controller, a handover, or its silence while the standby is not HEALTHY; by the old one in a dual-act
window, the end of the window (R727, R730). -/
def State.doRelinquish (s : State) (c : Bool) (epoch : BitVec 16) : State :=
  let k := bit c
  if s.firmwareRuns = false then s
  else if k = s.activeNum ∧ epoch.toNat = s.epoch then
    if s.ctlState s.standby = csStandby then s.handover (originOf (ctlAgent k))
    else { s with ctl := { s.ctl with relinquished := true, stopped := true } }
  else if k ≠ s.activeNum ∧ s.fld F.RAS_LEASE_DUAL_ACT = 1 ∧ (epoch.toNat + 1) % 65536 = s.epoch then s.closeDual
  else s

def execRelinquish (c : Bool) (epoch : BitVec 16) (s : State) : Host.Outcome State Fault Refusal := .next (s.doRelinquish c epoch)

end Sys2Proof.Machine
end

