-- ==== Sys2Proof/Machine/Firmware.lean ====
section
/-! DEFINITION. The firmware update path: installs, grafts and their fallback, configuration writes, lane calibration and the seedbed
interface (R588, R722, R727, R728, R755 to R778, R791 to R800, R835). -/

namespace Sys2Proof.Machine

/-! ## Writes of a controller (R722, R727, R728) -/

/-- The change of one register during the dual-act window, listed and logged. -/
def State.noteDual (t s : State) (c : Nat) (a : Nat) : State :=
  if s.fld F.RAS_LEASE_DUAL_ACT = 0 then t
  else
    let l := if t.ctl.dual.contains a || decide (256 ≤ t.ctl.dual.length) then t.ctl.dual else t.ctl.dual ++ [a]
    let b := (blockOf a).getD 0
    (({ t with ctl := { t.ctl with dual := l } } : State).setFld F.RAS_LEASE_DUALACT_WRITES l.length).logChange (originOf (ctlAgent c))
      0x0F b (logDigest (s.rwcBytes b [a])) (logDigest (t.rwcBytes b [a]))

/-- The active controller's entry in its journal of what the register at `a` now holds, under the epoch check of the cold frame
(R296, R297, R724; log entry 63). -/
def State.journalWrite (s : State) (k epoch a : Nat) : State :=
  if k = s.activeNum then s.frameWrite .ctlJournal epoch fun s => { s with cold := { s.cold with journal := { s.cold.journal with
    writes := (s.cold.journal.writes.filter fun e => decide (e.1 ≠ a)) ++ [(a, s.reg a)] } } }
  else s

/-- A write of controller `c` at register `a`: done where its epoch is current, or one less in a dual-act window; else discarded as
stale, and the controller stops and tests itself. -/
def State.ctlWrite (s : State) (c : Bool) (epoch a : Nat) (f : State → State) : State :=
  let k := bit c
  if s.off then s
  else if epoch = s.epoch ∨ (s.fld F.RAS_LEASE_DUAL_ACT = 1 ∧ (epoch + 1) % 65536 = s.epoch) then
    (((f s).noteDual s k a).journalWrite k epoch a).emit (.ctlAnswer c true)
  else s.staleWrite c a

/-! ## The update path (R792 to R795) -/

def fwStIdle : Nat := 0
def fwStWriting : Nat := 2
def fwStGrafting : Nat := 4
def fgStandby : Nat := 1
def fgPeer : Nat := 3
def fgMicrocode : Nat := 4
def fgAwait : Nat := 5
def fgBack : Nat := 6

def State.fwStage (s : State) : Nat := s.fld F.FWU_STATUS_STAGE

/-- Is an install, a PLDM update or a buffered CONFIG_WRITE in progress (R835)? -/
def State.fwuBusy (s : State) : Bool := s.firm.install.isSome || s.firm.seed.any (·.config)

/-- An operation ends with a RESULT; STATE and GO stay with what is still in progress. -/
def State.endFwu (s : State) (res : Nat) : State :=
  let s1 := (s.setFld F.FWU_STATUS_RESULT res).setFld F.FWU_STATUS_STATE
    (if s.fwuBusy then s.fld F.FWU_STATUS_STATE else if s.firm.graft.isSome then fwStGrafting else fwStIdle)
  s1.setFld F.FWU_CTL_GO (bit ((s1.firm.install.any fun i => i.pldm.isNone) || s1.firm.seed.any (·.config) ||
    (s1.firm.graft.isSome && decide (s1.fwStage < fgAwait))))

/-- A GO with an OP and a TARGET; an INSTALL or CONFIG_WRITE while another such operation is in progress ends with STATE (R835). -/
def State.startFwu (s : State) (w : Agent) (op target : Nat) (f : State → State) : State :=
  s.gate w blkFwu fun s =>
    let s1 := ((s.setFld F.FWU_CTL_OP op).setFld F.FWU_CTL_TARGET target).setFld F.FWU_CTL_GO 1
    if s.fwuBusy && (decide (op = 1) || decide (op = 4)) then s1.endFwu fwState else f s1

/-- What a write that waits for the fill of its page makes of a line's bytes, none where a staging read refuses the line (R551, R552). -/
def overlay (b : Option Bytes) (w : WaitWrite) : Option Bytes :=
  if w.tag ≠ 0 ∨ w.enc = true then none
  else if w.bytes.all Option.isSome then some (w.bytes.map fun x => x.getD 0)
  else b.map fun d => w.bytes.zipIdx.map fun x => x.1.getD (d.getD x.2 0)

/-- The bytes of line `l` once every write that arrived before and waits for its page has been made (R760). -/
def State.afterWaits (s : State) (l : Nat) (b : Option Bytes) : Option Bytes :=
  (s.mem.waits.filter fun w => decide (w.line = l)).foldl overlay b

/-- One line of the staging window for the update path, every staging write before it included (R760): none where R552 or R553 refuses it. -/
def State.takeLine (s : State) (o : Nat) : State × Option Bytes :=
  if !s.stageReaches o then (s, none)
  else
    let l := s.stageLine o
    match s.readTier l with
    | (s1, .zero) => (s1, s1.afterWaits l (some (List.replicate 64 0)))
    | (s1, .line t) => (s1, s1.afterWaits l (if t.tag = 0 ∧ t.enc = false then some t.data else none))
    | (s1, .lost) => (s1, s1.afterWaits l none)

/-- `n` bytes of the staging window from offset `o`, a multiple of 64. -/
def State.takeStaged (s : State) (o n : Nat) : State × Option Bytes :=
  let r := (List.range ((n + 63) / 64)).foldl (fun (a : State × Option (List Bytes)) i =>
    match a.2 with
    | none => a
    | some l =>
      match a.1.takeLine (o + 64 * i) with
      | (s1, none) => (s1, none)
      | (s1, some b) => (s1, some (b :: l))) (s, some [])
  (r.1, r.2.map fun l => (l.reverse.flatMap fun b => b).take n)

/-- The staging offset of FWU_SRC. -/
def State.fwuSource (s : State) : Nat := 64 * s.fld F.FWU_SRC_OFFSET

/-! ### Installs (R760 to R764) -/

/-- An install that fails, with its event. -/
def State.failInstall (s : State) (k res : Nat) : State :=
  ((({ s with firm := { s.firm with install := none } } : State).endFwu res).showSlot k).raiseEvent 0x31 k res

/-- Does any role entry hold FW_UPDATE, so that an install needs an authorisation (R762)? -/
def State.needsAuth (s : State) : Bool := s.cold.roles.any fun e => roleHas e roleFirmware

/-- May slot `k` be written: neither in RUNNING nor in an open graft? -/
def State.slotOpen (s : State) (k : Nat) : Bool :=
  decide (k < 2) && decide (k ≠ s.runningSlot) && s.firm.graft.all fun g => decide (k ≠ g.slot) && decide (k ≠ g.prev)

/-- The checks of step 2: 0 where the install may go on. -/
def State.installCheck (s : State) (k : Nat) (h : Bytes) : Nat :=
  if s.checkHeader h ≠ 0 then s.checkHeader h
  else if s.needsAuth ∧ s.cold.auths.contains (headerDigest h 64) = false then fwAuth
  else if s.slotOpen k = false then fwSlot
  else 0

/-- The authorisation consumed, and the slot erased (start of step 3). -/
def State.openSlotWrite (s : State) (k : Nat) (h : Bytes) : State :=
  let s1 : State := if s.needsAuth then { s with cold := { s.cold with auths := s.cold.auths.erase (headerDigest h 64) } } else s
  (s1.flashErase (slotBase k) 0x2000000).showSlot k

/-- INSTALL: steps 1 to 3. -/
def State.doInstall (s : State) (w : Agent) (k : Nat) : State :=
  s.startFwu w 1 k fun s =>
    match s.takeStaged s.fwuSource headerBytes with
    | (s1, none) => s1.failInstall k fwSource
    | (s1, some h) =>
      if s1.installCheck k h ≠ 0 then s1.failInstall k (s1.installCheck k h)
      else
        match (s1.openSlotWrite k h).takeStaged (s1.fwuSource + headerBytes) (payloadBytes h) with
        | (s2, none) => s2.failInstall k fwSource
        | (s2, some b) =>
          let s3 := s2.flashWrite (slotPayload k) b
          let i : Install := { slot := k, header := h, origin := originOf w, got := b.length }
          ({ s3 with firm := { s3.firm with install := some i } } : State).setFld F.FWU_STATUS_STATE fwStWriting

def execInstall (w : Agent) (target : Nat) (s : State) : Host.Outcome State Fault Refusal := .next (s.leased w fun s => s.doInstall w target)

/-- Steps 4 and 5. -/
def State.finishInstall (s : State) (i : Install) : State :=
  if s.payloadOk i.slot i.header then
    let s1 := (s.flashWrite (slotBase i.slot) i.header).writeRecord i.origin i.slot srInstalled
    (({ s1 with firm := { s1.firm with install := none } } : State).endFwu fwOk).raiseEvent 0x30 i.slot (numAt i.header 12 2)
  else s.failInstall i.slot fwDigest

/-- The last event of a copy written from the staging window: its header is programmed, last, or the flash has failed and the copy has
none (R588, R761; log entry 72). -/
def State.endCopy (s : State) (d : Seed) (flashOk : Bool) : State :=
  let s1 : State := { s with firm := { s.firm with seed := none } }
  if flashOk then (s1.flashWrite (copyBase d.target) d.header).endFwu fwOk else s1.endFwu fwFlash

/-- INSTALL_DONE: the payload is programmed and read back, or the flash has failed; with no install, what a CONFIG_WRITE from the
staging window programs after the header (log entry 72). -/
def State.doInstallDone (s : State) (flashOk : Bool) : State :=
  match s.firm.install with
  | none =>
    match s.firm.seed with
    | some d => if d.staged && !s.off then s.endCopy d flashOk else s
    | none => s
  | some i =>
    if i.paused || decide (i.got < payloadBytes i.header) then s
    else if flashOk then s.finishInstall i
    else (s.flashErase (slotSector i.slot) 4096).failInstall i.slot fwFlash

def execInstallDone (flashOk : Bool) (s : State) : Host.Outcome State Fault Refusal := .next (s.doInstallDone flashOk)

/-! ### Grafts (R770 to R775) -/

/-- The grafted image put on trial (event 1 of R771). -/
def State.startGraft (s : State) (origin k : Nat) : State :=
  let prev := s.runningSlot
  let s1 := ((s.writeRecord origin k srGraft).setFld F.GLB_STATE_FW_TRIAL 1).setCtlState s.standby csRestarting
  let g : Graft := { slot := k, prev := prev, deadline := s1.now + nsSec * s1.fld F.FWU_GRAFT_CFG_WINDOW_S }
  let s2 : State := { s1 with firm := { s1.firm with graft := some g } }
  ((((s2.setFld F.FWU_STATUS_STATE fwStGrafting).setFld F.FWU_STATUS_STAGE fgStandby).setFld F.FWU_STATUS_RESULT 0).setFld
    F.FWU_STATUS_FALLBACK_CAUSE 0).raiseEvent 0x32 k (s2.slotVersion k)

/-- The RESULT with which a GRAFT is refused, 0 where it is accepted (R770). -/
def State.graftCheck (s : State) (k : Nat) : Nat :=
  if s.fld F.GLB_STATE_FW_TRIAL = 1 ∨ s.ctlState s.standby ≠ csStandby ∨ ¬(s.devState = dsHeld ∨ s.inService = true) then fwState
  else if 2 ≤ k ∨ s.slotState k ≠ srInstalled then fwSlot
  else 0

/-- GRAFT. -/
def State.doGraft (s : State) (w : Agent) (k : Nat) : State :=
  s.startFwu w 2 k fun s => if s.graftCheck k = 0 then s.startGraft (originOf w) k else s.endFwu (s.graftCheck k)

def execGraft (w : Agent) (target : Nat) (s : State) : Host.Outcome State Fault Refusal := .next (s.leased w fun s => s.doGraft w target)

/-- RUNNING shows the slot of the active controller. -/
def State.showRunning (s : State) : State := s.setFld F.FWU_STATUS_RUNNING (s.runs s.activeNum + 1)

/-- GRAFT_HANDOVER: the standby runs the grafted slot and takes the lease; the former active restarts (events 2 and 3). -/
def State.doGraftHandover (s : State) : State :=
  match s.firm.graft with
  | none => s
  | some g =>
    if s.firmwareRuns = true ∧ g.back = none ∧ s.fwStage = fgStandby ∧ s.slotPasses g.slot = true then
      let old := s.activeNum
      let s1 := (s.setRuns s.standby g.slot).handover (originOf (ctlAgent old))
      ((s1.setCtlState old csRestarting).showRunning).setFld F.FWU_STATUS_STAGE fgPeer
    else s

def execGraftHandover (s : State) : Host.Outcome State Fault Refusal := .next s.doGraftHandover

/-- The powered clusters, ascending, that do not yet hold the microcode wanted (event 5 of R771). -/
def State.unloaded (s : State) (g : Graft) : List Nat :=
  if s.cluOn then (List.range 264).filter fun p => !(s.clu p).retired && !g.loaded.contains p else []

/-- The last powered cluster is loaded: clusters that are off load the image when they power up (R772). -/
def State.microcodeDone (s : State) (g : Graft) : State :=
  if (s.unloaded g).isEmpty && g.back.isNone then ((s.loadUcode g.slot).setFld F.FWU_STATUS_STAGE fgAwait).endFwu fwOk else s

/-- GRAFT_PEER_HEALTHY (event 4). -/
def State.doGraftPeerHealthy (s : State) : State :=
  match s.firm.graft with
  | none => s
  | some g =>
    if s.firmwareRuns = true ∧ g.back = none ∧ s.fwStage = fgPeer then
      let s1 := (((s.setRuns s.standby g.slot).setCtlState s.standby csStandby).noteReport s.standby).setFld F.FWU_STATUS_STAGE fgMicrocode
      s1.microcodeDone g
    else s

def execGraftPeerHealthy (s : State) : Host.Outcome State Fault Refusal := .next s.doGraftPeerHealthy

/-- MICROCODE_LOAD: the next powered cluster, its attempt ended, is loaded with the image now wanted; in a fallback once the record is
REJECTED and the controllers run the previous image (R774). -/
def State.doMicrocodeLoad (s : State) (p : Nat) : State :=
  match s.firm.graft with
  | none => s
  | some g =>
    if ¬(s.fwStage = fgMicrocode ∨ (s.fwStage = fgBack ∧ s.slotState g.slot = srRejected)) then s
    else if (s.unloaded g).head? = some p ∧ s.seqState p = sqIdle ∧ (s.clu p).lead = none then
      let g1 := { g with loaded := g.loaded ++ [p] }
      let want := if g.back.isSome then g.prev else g.slot
      ({ s with firm := { s.firm with graft := some g1, ucode := mset (fun _ => 0) s.firm.ucode p want } } : State).microcodeDone g1
    else s.microcodeDone g

def execMicrocodeLoad (p : Nat) (s : State) : Host.Outcome State Fault Refusal := .next (s.doMicrocodeLoad p)

/-- A graft falls back for a cause, once. -/
def State.causeFallback (s : State) (cause : Nat) : State :=
  match s.firm.graft with
  | none => s
  | some g =>
    if g.back.isSome then s
    else (({ s with firm := { s.firm with graft := some { g with back := some cause, loaded := [] } } } : State).setFld
      F.FWU_STATUS_FALLBACK_CAUSE cause).setFld F.FWU_STATUS_STAGE fgBack

/-- GRAFT_WINDOW_EXPIRY: the window closes without a take. -/
def State.doGraftWindowExpiry (s : State) : State :=
  if s.firm.graft.any fun g => g.back.isNone && decide (g.deadline ≤ s.now) then s.causeFallback 1 else s

def execGraftWindowExpiry (s : State) : Host.Outcome State Fault Refusal := .next s.doGraftWindowExpiry

/-- REJECT; with no graft to reject it ends with STATE. -/
def State.doReject (s : State) (w : Agent) : State :=
  s.startFwu w 3 (s.fld F.FWU_CTL_TARGET) fun s =>
    if s.firm.graft.any fun g => g.back.isNone then s.causeFallback 2 else s.endFwu fwState

def execReject (w : Agent) (s : State) : Host.Outcome State Fault Refusal := .next (s.leased w fun s => s.doReject w)

/-- FALLBACK: the record REJECTED, and both controllers restart from the slot in use before. -/
def State.doFallback (s : State) : State :=
  match s.firm.graft with
  | none => s
  | some g =>
    match g.back with
    | none => s
    | some cause =>
      if s.firmwareRuns = true ∧ s.slotState g.slot = srGraft then
        let s1 := (s.writeRecord orHw g.slot srRejected).raiseEvent 0x34 g.slot cause
        let s2 := if s1.runs s1.activeNum = g.prev then s1
          else
            let old := s1.activeNum
            ((s1.setRuns s1.standby g.prev).handover orHw).setCtlState old csRestarting
        ((s2.setRuns 0 g.prev).setRuns 1 g.prev).showRunning
      else s

def execFallback (s : State) : Host.Outcome State Fault Refusal := .next s.doFallback

/-- The end of a graft that has fallen back. -/
def State.dropGraft (s : State) : State :=
  ((({ s with firm := { s.firm with graft := none } } : State).setFld F.GLB_STATE_FW_TRIAL 0).setFld F.FWU_STATUS_STAGE 0).endFwu fwFallback

/-- FALLBACK_DONE: every powered cluster holds the previous microcode. -/
def State.doFallbackDone (s : State) : State :=
  match s.firm.graft with
  | none => s
  | some g =>
    if g.back.isSome ∧ s.slotState g.slot = srRejected ∧ (s.unloaded g).isEmpty = true then
      let s1 := (s.dropGraft).loadUcode g.prev
      if s1.ctlState s1.standby = csRestarting then (s1.setCtlState s1.standby csStandby).noteReport s1.standby else s1
    else s

def execFallbackDone (s : State) : Host.Outcome State Fault Refusal := .next s.doFallbackDone

/-- A take, or its refusal at or after the close of the window (R768, R773). -/
def State.take (s : State) (c : Nat) : State :=
  match s.firm.graft with
  | none => s
  | some g =>
    if g.back.isSome ∨ s.fwStage ≠ fgAwait then s
    else if g.deadline ≤ s.now then s.causeFallback 1
    else
      let h := s.slotHeader g.slot
      let s1 := s.writeRecord (originOf (ctlAgent c)) g.slot srTaken
      let s2 := if numAt h 6 2 % 2 = 1 then s1.raiseSvn (originOf (ctlAgent c)) (numAt h 12 2) else s1
      let s3 := (({ s2 with firm := { s2.firm with graft := none } } : State).setFld F.GLB_STATE_FW_TRIAL 0).setFld F.FWU_STATUS_STAGE 0
      (s3.endFwu fwTaken).raiseEvent 0x33 g.slot (numAt h 12 2)

/-- FWU_TAKE: a write of TAKE by a controller. -/
def State.doFwuTake (s : State) (c : Bool) (epoch : BitVec 16) : State :=
  s.ctlWrite c epoch.toNat 0xA00040 fun s => if bit c = s.activeNum ∧ epoch.toNat = s.epoch then s.take (bit c) else s

def execFwuTake (c : Bool) (epoch : BitVec 16) (s : State) : Host.Outcome State Fault Refusal := .next (s.doFwuTake c epoch)

/-! ### Configuration writes and lane calibration (R765, R766, R776) -/

/-- The first writes of a copy from the staging window: its header erased, then all that follows the header programmed (R588). -/
def State.beginCopy (s : State) (c : Nat) (b : Bytes) : State :=
  let s1 := ((s.flashErase (copyBase c) 256).flashErase (copyBase c) copyBytes).flashWrite (copyBase c + 256) (b.drop 256)
  let d : Seed := { config := true, staged := true, target := c, header := b.take 256 }
  ({ s1 with firm := { s1.firm with seed := some d } } : State).setFld F.FWU_STATUS_STATE fwStWriting

/-- A copy written from the staging window, in the order of R588. -/
def State.writeCopy (s : State) (c : Nat) : State :=
  match s.takeStaged s.fwuSource 256 with
  | (s1, none) => s1.endFwu fwSource
  | (s1, some h) =>
    let n := if 256 ≤ copyTotal h ∧ copyTotal h ≤ copyBytes then copyTotal h else 256
    match s1.takeStaged s1.fwuSource n with
    | (s2, none) => s2.endFwu fwSource
    | (s2, some b) =>
      if s2.checkCopyBytes b ≠ crValid then s2.endFwu fwConfig
      else s2.beginCopy c b

/-- The interface opened for a copy through FWU_SEED_BUF: the header of the copy erased. -/
def State.openBuffer (s : State) (c : Nat) : State :=
  let s1 := (s.flashErase (copyBase c) 256).setFld F.FWU_SEED_STATUS_STATE 1
  ((({ s1 with firm := { s1.firm with seed := some { config := true, target := c } } } : State).setFld F.FWU_SEED_STATUS_SEQ_DONE
    0).setFld F.FWU_SEED_STATUS_RESULT 0).setFld F.FWU_STATUS_STATE fwStWriting

/-- CONFIG_WRITE. -/
def State.doConfigWrite (s : State) (w : Agent) (c : Nat) : State :=
  s.startFwu w 4 c fun s =>
    if 2 ≤ c ∨ s.fld F.GLB_CFG_STATUS_IN_USE = c + 1 then s.endFwu fwSlot
    else if s.fld F.FWU_CTL_VIA_BUF = 1 then s.openBuffer c
    else s.writeCopy c

def execConfigWrite (w : Agent) (target : Nat) (s : State) : Host.Outcome State Fault Refusal := .next (s.leased w fun s => s.doConfigWrite w target)

/-- LANE_CAL: each assigned lane is replaced, recalibrated and returned; with no free spare it ends with STATE. -/
def State.doLaneCal (s : State) (w : Agent) (e : Nat) : State :=
  s.startFwu w 5 e fun s => s.endFwu (if e ≤ 12 ∧ s.sparesUsed e < 2 then fwOk else fwState)

def execLaneCal (w : Agent) (engine : Nat) (s : State) : Host.Outcome State Fault Refusal := .next (s.leased w fun s => s.doLaneCal w engine)

/-! ## The seedbed interface (R766, R777, R778, R800) -/

def sdIdle : Nat := 0
def sdOpen : Nat := 1
def sdReceiving : Nat := 2
def sdDone : Nat := 4
def sdFailed : Nat := 5

def State.setSeed (s : State) (d : Option Seed) : State := { s with firm := { s.firm with seed := d } }
def State.seedState (s : State) (n : Nat) : State := s.setFld F.FWU_SEED_STATUS_STATE n

/-- The end of a download or a buffered copy. -/
def State.endSeed (s : State) (d : Seed) (res : Nat) : State :=
  let s1 := ((s.setSeed none).seedState (if res = fwOk then sdDone else sdFailed)).setFld F.FWU_SEED_STATUS_RESULT res
  if d.config then s1.endFwu res else s1

/-- A command of the interface: in SEEDBED for a download, elsewhere for a buffered copy. -/
def State.seedGate (s : State) (f : State → State) : State :=
  if s.devState = dsSeedbed then (if s.reaches .host then f (s.closeLatch .host blkFwu) else s) else s.gate .host blkFwu f

/-- BEGIN opens a download in SEEDBED. -/
def State.doBegin (s : State) (slot : Nat) : State :=
  s.seedGate fun s =>
    if s.devState = dsSeedbed ∧ slot < 2 then
      (((s.setSeed (some { config := false, target := slot })).seedState sdOpen).setFld F.FWU_SEED_STATUS_SEQ_DONE 0).setFld
        F.FWU_SEED_STATUS_RESULT 0
    else s

def execBegin (slot : Nat) (s : State) : Host.Outcome State Fault Refusal := .next (s.doBegin slot)

/-- The first `n` bytes of FWU_SEED_BUF. -/
def State.seedBuf (s : State) (n : Nat) : Bytes :=
  ((List.range ((n + 7) / 8)).flatMap fun i => bytesOfNat 8 (s.reg (0xA10000 + 8 * i)).toNat).take n

/-- A block taken: SEQ_DONE. -/
def State.ackBlock (s : State) (d : Seed) (seq : Nat) : State :=
  ((s.setSeed (some { d with seq := some seq })).seedState sdReceiving).setFld F.FWU_SEED_STATUS_SEQ_DONE seq

/-- Block 0: the header checked and held, the slot erased; or the header of a copy held and the rest programmed. -/
def State.firstBlock (s : State) (d : Seed) (len : Nat) : State :=
  let b := s.seedBuf len
  if d.config then
    if len < 256 then s.endSeed d fwConfig
    else (s.flashErase (copyBase d.target) copyBytes |>.flashWrite (copyBase d.target + 256) (b.drop 256)).ackBlock
      { d with header := b.take 256 } 0
  else if len ≠ headerBytes then s.endSeed d fwHeader
  else if s.checkHeader b ≠ 0 then s.endSeed d (s.checkHeader b)
  else ((s.flashErase (slotBase d.target) 0x2000000).showSlot d.target).ackBlock { d with header := b } 0

/-- A later block, in order. -/
def State.nextBlock (s : State) (d : Seed) (seq len : Nat) : State :=
  let b := s.seedBuf len
  if d.config then
    if copyBytes < 65536 * seq + len then s
    else (s.flashWrite (copyBase d.target + 65536 * seq) b).ackBlock d seq
  else if 0x1FF7000 < d.got + len then s
  else (s.flashWrite (slotPayload d.target + d.got) b).ackBlock { d with got := d.got + len } seq

/-- BLOCK. -/
def State.doBlock (s : State) (seq len : Nat) : State :=
  s.seedGate fun s =>
    match s.firm.seed with
    | none => s
    | some d =>
      if len = 0 ∨ len % 64 ≠ 0 ∨ 65536 < len ∨ 65536 ≤ seq ∨ d.staged = true ∨ (d.config = false ∧ s.devState ≠ dsSeedbed) then s
      else
        match d.seq with
        | none => if seq = 0 then s.firstBlock d len else s
        | some n => if seq = n then s.ackBlock d n else if seq = n + 1 then s.nextBlock d seq len else s

def execBlock (seq len : Nat) (s : State) : Host.Outcome State Fault Refusal := .next (s.doBlock seq len)

/-- The end of a download: digests, header, record TAKEN, and the restart into BOOT. -/
def State.endDownload (s : State) (d : Seed) : State :=
  if d.seq ≠ none ∧ payloadBytes d.header ≤ d.got ∧ s.payloadOk d.target d.header = true then
    let s1 := ((s.flashWrite (slotBase d.target) d.header).writeRecord orHost d.target srTaken).endSeed d fwOk
    ({ s1 with boot := { s1.boot with stage := 0 } } : State).setDev orHw dsBoot
  else s.endSeed d fwDigest

/-- The end of a buffered copy: read back with the held header, checked, and its header programmed. -/
def State.endBuffered (s : State) (d : Seed) : State :=
  let n := copyTotal d.header
  let b := d.header ++ s.flashRead (copyBase d.target + 256) (min n copyBytes - 256)
  if d.seq ≠ none ∧ s.checkCopyBytes b = crValid then (s.flashWrite (copyBase d.target) d.header).endSeed d fwOk
  else s.endSeed d fwConfig

/-- END. -/
def State.doSeedEnd (s : State) : State :=
  s.seedGate fun s =>
    match s.firm.seed with
    | none => s
    | some d => if d.staged then s else if d.config then s.endBuffered d else if s.devState = dsSeedbed then s.endDownload d else s

def execSeedEnd (s : State) : Host.Outcome State Fault Refusal := .next s.doSeedEnd

/-- ABORT: the slot is EMPTY, or the copy has no header. -/
def State.doSeedAbort (s : State) : State :=
  s.seedGate fun s =>
    match s.firm.seed with
    | none => s.seedState sdIdle
    | some d =>
      if d.staged then s
      else if d.config then
        let s1 := ((s.flashErase (copyBase d.target) 256).setSeed none).seedState sdIdle
        s1.endFwu (s1.fld F.FWU_STATUS_RESULT)
      else (((s.flashErase (slotSector d.target) 4096).showSlot d.target).setSeed none).seedState sdIdle

def execSeedAbort (s : State) : Host.Outcome State Fault Refusal := .next s.doSeedAbort

/-! ## Takeovers during a graft (R775) -/

/-- TAKEOVER: the standby takes the lease; a graft falls back where the new active runs the previous image. -/
def State.doTakeoverGraft (s : State) : State :=
  let t := s.doTakeover
  if t.epoch = s.epoch then t
  else
    let t1 := t.showRunning
    match t1.firm.graft with
    | none => t1
    | some g => if t1.runs t1.activeNum = g.slot then t1 else t1.causeFallback 3

def execTakeover (s : State) : Host.Outcome State Fault Refusal := .next s.doTakeoverGraft

/-- A RECOVER taken in SAFE ends a graft with cause SAFE: both controllers restart from the previous slot. -/
def State.endGraftSafe (s : State) : State :=
  match s.firm.graft with
  | none => s
  | some g =>
    let s1 := if g.back.isSome && decide (s.slotState g.slot = srRejected) then s
      else (s.writeRecord orHw g.slot srRejected).raiseEvent 0x34 g.slot 4
    let s2 := ((s1.setRuns 0 g.prev).setRuns 1 g.prev).showRunning
    ((s2.setFld F.FWU_STATUS_FALLBACK_CAUSE 4).dropGraft).loadUcode g.prev

/-- RECOVER, and its effect on a graft. -/
def State.doRecoverGraft (s : State) (w : Agent) : State :=
  if s.devState = dsSafe ∧ s.reaches w = true ∧ (s.safe.any fun f => f.recover.isNone) = true then (s.endGraftSafe).doRecover w
  else s.doRecover w

def execRecover (w : Agent) (s : State) : Host.Outcome State Fault Refusal := .next (s.leased w fun s => s.doRecoverGraft w)

end Sys2Proof.Machine
end

