-- ==== Sys2Proof/Machine/Log.lean ====
section
/-! DEFINITION. The change log: its entries and chain, the ring of the cold frame, the gap entry, the mirror and the read
registers (R836 to R844, R847). -/

namespace Sys2Proof.Machine

/-- Does an entry of a class start a chain (R839)? -/
def startsChain (cls : Nat) : Bool := decide (cls = 0x01) || decide (cls = 0x13)

/-- The ring slot of an entry number, empty where nothing stands there (R840). -/
def State.ringSlot (s : State) (q : Nat) : Bytes := mget (fun _ => []) s.log.ring (q % 65536)

/-- The entry number of an entry. -/
def entrySeq (e : Bytes) : Nat := natOfBytes ((e.drop 16).take 4)

/-- The entry numbered `q`, where the ring holds it. -/
def State.ringEntry (s : State) (q : Nat) : Option Bytes :=
  let e := s.ringSlot q
  if e.isEmpty = false ∧ entrySeq e = q then some e else none

/-- A value in its twelve bytes. -/
def twelve (b : Bytes) : Bytes := (b ++ List.replicate 12 0).take 12

/-- Bytes 0 to 47 of the entry of a change with number `q` (R836). -/
def entryBody (e : LogPend) (q : Nat) : Bytes :=
  bytesOfNat 8 e.time.toNat ++ bytesOfNat 8 e.wall.toNat ++ bytesOfNat 4 q ++ bytesOfNat 1 e.origin ++ bytesOfNat 1 e.cls ++
    bytesOfNat 2 e.object ++ twelve e.old ++ twelve e.new

/-- The link of an entry (R836, R839): over the previous entry, or over 64 zero bytes where it starts a chain. -/
def entryLink (prev body : Bytes) : Bytes := shake256 (prev ++ body) 16

/-- The bytes before the entry numbered `q` in its chain. -/
def State.linkBase (s : State) (cls q : Nat) : Bytes :=
  if startsChain cls then List.replicate 64 0 else (s.ringEntry ((q + 2 ^ 32 - 1) % 2 ^ 32)).getD (List.replicate 64 0)

/-- An entry written into the ring, with LOG_STATUS, LOG_LAST_LINK and CHAIN_START; while the mirror is off its copies are not
due (R840, R843, R847). -/
def State.writeEntry (s : State) (e : LogPend) : State :=
  let q := s.fld F.LOG_STATUS_NEXT_SEQ
  let body := entryBody e q
  let link := entryLink (s.linkBase e.cls q) body
  let s1 : State := { s with log := { s.log with ring := mset (fun _ => []) s.log.ring (q % 65536) (body ++ link) } }
  let s2 := ((s1.addWrap F.LOG_STATUS_NEXT_SEQ 1).setReg (F.LOG_LAST_LINK_LINK.at 0).reg
    (BitVec.ofNat 64 (natOfBytes (link.take 8)))).setReg (F.LOG_LAST_LINK_LINK.at 1).reg (BitVec.ofNat 64 (natOfBytes (link.drop 8)))
  let s3 := if startsChain e.cls then s2.setFld F.LOG_MIRROR_STATUS_CHAIN_START q else s2
  if s3.fld F.LOG_MIRROR_CFG_ENABLE = 1 then s3
  else s3.setFld F.LOG_MIRROR_STATUS_MIRROR_SEQ (s3.fld F.LOG_STATUS_NEXT_SEQ)

/-- LOG_ENTRY_WRITE: the oldest change waiting is written; during a wipe its entries wait (R842). -/
def State.doLogEntryWrite (s : State) : State :=
  if s.off = true ∨ s.fld F.SEC_CF_STATUS_WIPE_BUSY = 1 then s
  else
    match s.log.queue with
    | [] => s
    | e :: r => ({ s with log := { s.log with queue := r } } : State).writeEntry e

def execLogEntryWrite (s : State) : Host.Outcome State Fault Refusal := .next s.doLogEntryWrite

/-- Every change waiting is written, as when a wipe begins (R840, R842). -/
def State.flushLog (s : State) : State := s.log.queue.foldl State.writeEntry { s with log := { s.log with queue := [] } }

/-- LOG_GAP: one entry with the count lost takes its place in the queue, once there is room. -/
def State.doLogGap (s : State) : State :=
  if s.off = true ∨ s.log.lost = 0 ∨ 1024 ≤ s.log.queue.length then s
  else
    ({ s with log := { s.log with lost := 0 } } : State).logChange orHw 0x14 0 (logValue 0) (logValue s.log.lost)

def execLogGap (s : State) : Host.Outcome State Fault Refusal := .next s.doLogGap

/-- The staging-window offset of the copy of an entry (R843). -/
def State.mirrorOffset (s : State) (q : Nat) : Nat := s.fld F.LOG_MIRROR_CFG_OFFSET_4M * 2 ^ 22 + 64 * (q % 65536)

/-- The next entry to mirror counted as copied. -/
def State.mirrorStep (s : State) : State := s.addWrap F.LOG_MIRROR_STATUS_MIRROR_SEQ 1

/-- LOG_MIRROR_COPY: the next entry due is copied where its line can be written; one that the ring no longer holds is
skipped. -/
def State.doLogMirrorCopy (s : State) : State :=
  let q := s.fld F.LOG_MIRROR_STATUS_MIRROR_SEQ
  if s.off = true ∨ s.fld F.LOG_MIRROR_CFG_ENABLE = 0 ∨ q = s.fld F.LOG_STATUS_NEXT_SEQ then s
  else
    match s.ringEntry q with
    | none => s.mirrorStep
    | some e =>
      if s.stageReaches (s.mirrorOffset q) then
        (s.stageLineWrite (s.stageLine (s.mirrorOffset q)) (e.map some)).mirrorStep
      else s

def execLogMirrorCopy (s : State) : Host.Outcome State Fault Refusal := .next s.doLogMirrorCopy

/-- The words of an entry shown in LOG_READ_DATA, zero where it is missed. -/
def State.showEntry (s : State) (e : Bytes) : State :=
  (List.range 8).foldl (fun (s : State) w =>
    s.setReg (F.LOG_READ_DATA_WORD.at w).reg (BitVec.ofNat 64 (natOfBytes ((e.drop (8 * w)).take 8)))) s

/-- LOG_READ_SEL_WRITE. -/
def State.doLogReadSelWrite (s : State) (w : Agent) (v : Word) : State :=
  s.gate w blkLog fun s =>
    let q := bitsOf v 31 0
    let s1 := s.setFld F.LOG_READ_SEL_SEQ q
    match s.ringEntry q with
    | some e => (s1.setFld F.LOG_READ_SEL_MISS 0).showEntry e
    | none => (s1.setFld F.LOG_READ_SEL_MISS 1).showEntry []

def execLogReadSelWrite (w : Agent) (value : Word) (s : State) : Host.Outcome State Fault Refusal :=
  .next (s.leased w fun s => s.doLogReadSelWrite w value)

end Sys2Proof.Machine
end

