-- ==== Sys2Proof/Machine/Owner.lean ====
section
/-! DEFINITION. Owner commands, the life cycle, wipes of the cold frame, tamper and the scrubber of the key slots (R61, R300 to R307,
R762, R779 to R786, R789, R801). -/

namespace Sys2Proof.Machine

/-! ## The mailbox (R780, R801) -/

def mboxBase : Nat := 0xB10000

/-- The first `n` bytes of SEC_MBOX. -/
def State.mbox (s : State) (n : Nat) : Bytes :=
  ((List.range ((n + 7) / 8)).flatMap fun i => bytesOfNat 8 (s.reg (mboxBase + 8 * i)).toNat).take n

/-- The bytes of a signature (FIPS 205, SLH-DSA-SHAKE-256s). -/
def sigBytes : Nat := 29792

/-- COMMAND of the command in the mailbox. -/
def State.ownerCode (s : State) : Nat := bitsOf (s.reg mboxBase) 47 32

/-- Results (R801). -/
def ocDone : Nat := 1
def ocFormat : Nat := 2
def ocNonce : Nat := 3
def ocNoRole : Nat := 4
def ocSignature : Nat := 5
def ocState : Nat := 6

/-- The length of the body in a header of 64 bytes. -/
def bodyBytes (h : Bytes) : Nat := numAt h 40 4

/-- The form of a header: MAGIC, the reserved bytes and the length. -/
def ownerHeadOk (h : Bytes) : Bool :=
  decide (numAt h 0 4 = 0x434F5856) && zeroAt h 6 2 && zeroAt h 44 20 && decide (bodyBytes h ≤ 35680)

/-- The Device Serial Number (R546). -/
def State.serialNumber (s : State) : Nat := s.confNum 1 0 8 0

/-- The role entry that signs a command and holds its role. -/
def State.signer (s : State) (h : Bytes) (role : Nat) : Option Bytes :=
  s.cold.roles.find? fun e => decide (roleKeyId e = cutAt h 24 16) && roleHas e role

/-- The check of the command in the mailbox up to its signature, in the order of R781: `ocDone` where it passes. -/
def State.ownerCheck (s : State) (role : Nat) (form : Bytes → Bool) : Nat :=
  let h := s.mbox 64
  if ownerHeadOk h = false then ocFormat
  else
    let m := s.mbox (64 + bodyBytes h)
    if form (m.drop 64) = false then ocFormat
    else if numAt h 8 8 ≠ s.serialNumber ∨ numAt h 16 8 ≠ (s.reg F.SEC_NONCE_NONCE.reg).toNat then ocNonce
    else
      match s.signer h role with
      | none => ocNoRole
      | some e =>
        if Config.slhDsaVerify (rolePublic e) m ((s.mbox (64 + bodyBytes h + sigBytes)).drop (64 + bodyBytes h)) then ocDone
        else ocSignature

/-- The end of a command, accepted or refused: a fresh nonce, a zero mailbox, and the result (R781, R791). -/
def State.endOwner (s : State) (code res : Nat) : State :=
  let s1 := (s.setReg F.SEC_NONCE_NONCE.reg s.free).drawn
  let s2 : State := { s1 with regs := mclear s1.regs mboxBase 0x10000 }
  let s3 := (s2.setFld F.SEC_CMD_STATUS_COMMAND code).setFld F.SEC_CMD_STATUS_RESULT res
  if res = ocDone then s3 else s3.raiseEvent 0x37 code res

/-- A GO of `w` with command `code` in the mailbox: its checks, and its effect on the body, which answers the state and
the result. With another command in the mailbox this is that command's row. -/
def State.owner (s : State) (w : Agent) (code role : Nat) (form : Bytes → Bool) (effect : State → Bytes → State × Nat) : State :=
  if s.ownerCode ≠ code then s
  else
    s.gate w blkSec fun s =>
      if s.ownerCheck role form = ocDone then
        let r := effect s ((s.mbox (64 + bodyBytes (s.mbox 64))).drop 64)
        r.1.endOwner code r.2
      else s.endOwner code (s.ownerCheck role form)

/-! ## Wipes (R301 to R306) -/

/-- A wipe begins for a cause, or the cause joins the wipe in progress: keys, identity and change-log ring are zero, and the
erase of the roles is due (events 1 to 3). Entries not yet written are written before the ring is zeroed. -/
def State.startWipe (s : State) (bit : Nat) : State :=
  match s.cold.wiping with
  | some c => { s with cold := { s.cold with wiping := some (c ||| 2 ^ bit) } }
  | none =>
    let s1 := s.flushLog
    ({ s1 with
      disp := { s1.disp with keys := [] }
      log := { s1.log with ring := [] }
      cold := { s1.cold with identity := none, wiped := true, eraseDue := true, wiping := some (2 ^ bit) } } : State).setFld
        F.SEC_CF_STATUS_WIPE_BUSY 1

def wipeTamper : Nat := 0
def wipeLifecycle : Nat := 1
def wipeOwner : Nat := 2

/-- WIPE_DONE (events 4 to 6): the roles are erased, the Frame record holds the count and the causes, and the WIPE entry goes before
the changes made meanwhile. -/
def State.doWipeDone (s : State) : State :=
  match s.cold.wiping with
  | none => s
  | some c =>
    if s.off then s
    else
      let s1 := s.putRoles orHw []
      let s2 : State := { s1 with cold := { s1.cold with wiping := none, eraseDue := false } }
      let s3 := ((((s2.addSat F.SEC_CF_STATUS_WIPE_COUNT 1).setFld F.SEC_CF_STATUS_CAUSE_TAMPER (c % 2)).setFld
        F.SEC_CF_STATUS_CAUSE_LIFECYCLE (c / 2 % 2)).setFld F.SEC_CF_STATUS_CAUSE_OWNER (c / 4 % 2)).setFld F.SEC_CF_STATUS_WIPE_BUSY 0
      let e : LogPend := { time := s3.stepClock, wall := s3.wall, origin := orHw, cls := 0x13, object := 0, old := logValue 0,
                           new := logValue c }
      ({ s3 with log := { s3.log with queue := e :: s3.log.queue } } : State).raiseEvent 0x25 0 c

def execWipeDone (s : State) : Host.Outcome State Fault Refusal := .next s.doWipeDone

/-- TAMPER. -/
def State.doTamper (s : State) : State := if s.off then s else (s.raiseEvent 0x24 0 0).startWipe wipeTamper

def execTamper (s : State) : Host.Outcome State Fault Refusal := .next s.doTamper

/-- COLD_FRAME_SCRUB: every key slot is read, and one that is uncorrectable is zeroed (R300). -/
def State.doColdFrameScrub (s : State) : State :=
  if s.off then s else (s.disp.keys.map (·.1)).foldl State.checkKey s

def execColdFrameScrub (s : State) : Host.Outcome State Fault Refusal := .next s.doColdFrameScrub

/-! ## The commands (R782) -/

/-- A body that is a well-formed roles section with an entry that holds ROLE_ADMIN. -/
def rolesFormOk (b : Bytes) : Bool :=
  decide (16 < b.length) && decide (b.length ≤ 6160) && sectFieldsOk 6 b && (roleEntries b).any fun e => roleHas e roleAdmin

/-- SET_ROLES. -/
def State.setRolesEffect (w : Agent) (s : State) (b : Bytes) : State × Nat :=
  if s.cold.wiping.isSome then (s, ocState) else (s.putRoles (originOf w) (roleEntries b), ocDone)

def State.doSetRoles (s : State) (w : Agent) : State := s.owner w 1 roleAdmin rolesFormOk (State.setRolesEffect w)

def execSetRoles (w : Agent) (s : State) : Host.Outcome State Fault Refusal := .next (s.leased w fun s => s.doSetRoles w)

/-- Does R61 allow a change of life-cycle state? -/
def lifeStep (old new : Nat) : Bool :=
  (decide (old = 0) && decide (new = 1)) || (decide (old = 1) && (decide (new = 2) || decide (new = 3))) ||
    (decide (old = 2) && decide (new = 3)) || (decide (old = 3) && decide (new = 4))

/-- May the life cycle change to `t` now (R783)? -/
def State.lifeOk (s : State) (t : Nat) : Bool :=
  lifeStep s.lifecycle t && decide (s.fld F.GLB_STATE_FW_TRIAL = 0) && decide (s.fld F.CTX_STATS_OPEN_COUNT = 0) &&
    (decide (s.devState = dsReady) || decide (s.devState = dsHeld))

/-- LIFECYCLE: the fuse burns, the state changes, and a wipe starts. -/
def State.lifecycleEffect (w : Agent) (s : State) (b : Bytes) : State × Nat :=
  let t := numAt b 0 1
  if s.lifeOk t then
    let s1 := ((s.setFld F.GLB_STATE_LIFECYCLE t).logChange (originOf w) 0x06 t (logValue s.lifecycle) (logValue t)).raiseEvent
      0x36 t s.lifecycle
    (s1.startWipe wipeLifecycle, ocDone)
  else (s, ocState)

def State.doLifecycle (s : State) (w : Agent) : State :=
  s.owner w 2 roleLifecycle (fun b => decide (b.length = 1)) (State.lifecycleEffect w)

def execLifecycle (w : Agent) (s : State) : Host.Outcome State Fault Refusal := .next (s.leased w fun s => s.doLifecycle w)

/-- WIPE. -/
def State.doWipe (s : State) (w : Agent) : State :=
  s.owner w 3 roleWipe (fun b => b.isEmpty) fun s _ => (s.startWipe wipeOwner, ocDone)

def execWipe (w : Agent) (s : State) : Host.Outcome State Fault Refusal := .next (s.leased w fun s => s.doWipe w)

/-- FW_AUTHORISE: at most four are held (R762). -/
def State.authoriseEffect (s : State) (b : Bytes) : State × Nat :=
  if 4 ≤ s.cold.auths.length then (s, ocState)
  else ({ s with cold := { s.cold with auths := s.cold.auths ++ [b] } }, ocDone)

def State.doFwAuthorise (s : State) (w : Agent) : State :=
  s.owner w 4 roleFirmware (fun b => decide (b.length = 64)) State.authoriseEffect

def execFwAuthorise (w : Agent) (s : State) : Host.Outcome State Fault Refusal := .next (s.leased w fun s => s.doFwAuthorise w)

/-- The key slot that a body names. -/
def ktkSlot (b : Bytes) : Nat := 0xFFF0 + numAt b 0 1

/-- A body of INSTALL_KTK. -/
def ktkFormOk (b : Bytes) : Bool := decide (b.length = 1584) && decide (numAt b 0 1 < 16) && zeroAt b 1 15

/-- The key of R789: the shared secret, "VX9-KTK" and the index hashed. -/
def ktkKey (seed b : Bytes) : Bytes :=
  shake256 (Config.mlKemDecaps seed (b.drop 16) ++ [0x56, 0x58, 0x39, 0x2D, 0x4B, 0x54, 0x4B] ++ b.take 1) 32

/-- INSTALL_KTK. -/
def State.installKtkEffect (w : Agent) (s : State) (b : Bytes) : State × Nat :=
  match s.cold.identity with
  | none => (s, ocState)
  | some i =>
    let k := ktkKey (Config.identitySeed i.1 i.2) b ++ List.replicate 32 0
    ((s.setKeySlot (ktkSlot b) { bytes := k }).logKey (originOf w) (ktkSlot b) (s.keySlot (ktkSlot b)), ocDone)

def State.doInstallKtk (s : State) (w : Agent) : State := s.owner w 5 roleKeys ktkFormOk (State.installKtkEffect w)

def execInstallKtk (w : Agent) (s : State) : Host.Outcome State Fault Refusal := .next (s.leased w fun s => s.doInstallKtk w)

/-- CLEAR_KTK. -/
def State.clearKtkEffect (w : Agent) (s : State) (b : Bytes) : State × Nat :=
  if s.keyRefs (ktkSlot b) = 0 then
    ((s.setKeySlot (ktkSlot b) {}).logKey (originOf w) (ktkSlot b) (s.keySlot (ktkSlot b)), ocDone)
  else (s, ocState)

def State.doClearKtk (s : State) (w : Agent) : State :=
  s.owner w 6 roleKeys (fun b => decide (b.length = 1) && decide (numAt b 0 1 < 16)) (State.clearKtkEffect w)

def execClearKtk (w : Agent) (s : State) : Host.Outcome State Fault Refusal := .next (s.leased w fun s => s.doClearKtk w)

/-- A GO with a command that R782 does not name. -/
def State.unknownOwner (s : State) (w : Agent) : State := s.gate w blkSec fun s => s.endOwner s.ownerCode ocFormat

end Sys2Proof.Machine
end

