-- ==== Sys2Proof/Machine/Mgmt.lean ====
section
/-! DEFINITION. The management services: the I3C target, SPDM, and PLDM for monitoring, control and firmware update (R574, R575, R785
to R788, R829 to R835). A message is modelled by what the rules state of it: its code, its completion and its content; DSP0274,
DSP0248 and DSP0267 frame it (log entry 27). -/

namespace Sys2Proof.Machine

/-! ## The I3C target (R829, R830) -/

/-- BCR and the provisional ID. -/
def bcrByte : BitVec 8 := 0x0E
def provisionalId (chip : Nat) : BitVec 48 := BitVec.ofNat 48 (0x2D1 * 2 ^ 33 + 0x0009 * 2 ^ 16 + chip % 64 * 2 ^ 6)

/-- ENTDAA: a target without a dynamic address sends its identification and takes the address. -/
def State.doEntdaa (s : State) (addr : BitVec 7) : State :=
  if s.off = true ∨ s.mgmt.dynAddr.isSome = true then s
  else
    ({ s with mgmt := { s.mgmt with dynAddr := some addr } } : State).emit (.i3cId (provisionalId (s.fld F.GLB_IDENT_CHIP_ID)) bcrByte)

def execEntdaa (addr : BitVec 7) (s : State) : Host.Outcome State Fault Refusal := .next (s.doEntdaa addr)

/-- SETDASA: a target without a dynamic address takes it, addressed at its static address 0x3A. -/
def State.doSetdasa (s : State) (addr : BitVec 7) : State :=
  if s.off = true ∨ s.mgmt.dynAddr.isSome = true then s
  else { s with mgmt := { s.mgmt with dynAddr := some addr } }

def execSetdasa (addr : BitVec 7) (s : State) : Host.Outcome State Fault Refusal := .next (s.doSetdasa addr)

/-- I3C_MCTP_RECEIVE: a message of a type served is taken, its request being a command of its own; others are dropped
(log entry 26). -/
def execI3cMctpReceive (_msgType : Nat) (_body : Bytes) (s : State) : Host.Outcome State Fault Refusal := .next s

/-- A message cut into transmission units of `n` bytes. -/
def unitsOf (n : Nat) (m : Bytes) : List Bytes := (List.range ((m.length + n - 1) / n)).map fun i => (m.drop (n * i)).take n

/-- The transmission unit of the host port's endpoint (R574, R582). -/
def State.vdmUnit (s : State) : Nat := 64 * 2 ^ s.fld F.HST_MCTP_CFG_MTU

/-- Packet `i` of the `n` of a message sent over VDM: routed by ID to the bus owner, a Vendor Defined Message of code 0x7F under vendor
ID 0x1AB4 (R574; log entry 26). -/
def State.sendUnit (s : State) (n i : Nat) (u : Bytes) : State :=
  s.emit (.vdm 2 0x7F 0x1AB4 (s.fld F.HST_MCTP_CFG_EID) (decide (i = 0)) (decide (i + 1 = n)) (i % 4) u)

/-- Packet `i` of the `n` of a message on the management port (R830). -/
def State.sendI3cUnit (s : State) (n i : Nat) (u : Bytes) : State :=
  s.emit (.i3c s.mgmt.eid (decide (i = 0)) (decide (i + 1 = n)) (i % 4) u)

/-- A reply sent on an endpoint in transmission units, of 64 bytes over I3C, where an in-band interrupt announces it (R574, R830). -/
def State.reply (s : State) (ep : Endpoint) (msgType : Nat) (body : Bytes) : State :=
  match ep with
  | .vdm =>
    let us := unitsOf s.vdmUnit (bytesOfNat 1 msgType ++ body)
    us.zipIdx.foldl (fun s x => s.sendUnit us.length x.2 x.1) s
  | .i3c =>
    let us := unitsOf 64 (bytesOfNat 1 msgType ++ body)
    us.zipIdx.foldl (fun s x => s.sendI3cUnit us.length x.2 x.1) (s.emit (.ibi 0xAE))

/-- A request to an endpoint, which acts where the endpoint is served. -/
def State.request (s : State) (ep : Endpoint) (f : State → State) : State := if s.epServed ep then f s else s

/-! ## SPDM (R787, R788) -/

def mtPldm : Nat := 1
def mtSpdm : Nat := 5

/-- A response of SPDM 1.4: its code, Param1, and content. -/
def spdmBody (code param : Nat) (content : Bytes) : Bytes :=
  bytesOfNat 1 0x14 ++ bytesOfNat 1 code ++ bytesOfNat 1 param ++ bytesOfNat 1 0 ++ content

def State.spdmReply (s : State) (ep : Endpoint) (code param : Nat) (content : Bytes) : State :=
  s.reply ep mtSpdm (spdmBody code param content)

/-- ERROR with InvalidRequest, Busy or Unspecified. -/
def seInvalid : Nat := 1
def seBusy : Nat := 3
def seUnspecified : Nat := 5

def State.spdmError (s : State) (ep : Endpoint) (e : Nat) : State := s.spdmReply ep 0x7F e []

/-- GET_VERSION: version 1.4 alone. -/
def State.doGetVersion (s : State) (ep : Endpoint) : State := s.request ep fun s => s.spdmReply ep 0x04 0 (bytesOfNat 2 0x1400)

def execGetVersion (ep : Endpoint) (s : State) : Host.Outcome State Fault Refusal := .next (s.doGetVersion ep)

/-- GET_CAPABILITIES: certificates, challenge and signed measurements. -/
def State.doGetCapabilities (s : State) (ep : Endpoint) : State :=
  s.request ep fun s => s.spdmReply ep 0x61 0 (bytesOfNat 4 0x16)

def execGetCapabilities (ep : Endpoint) (s : State) : Host.Outcome State Fault Refusal := .next (s.doGetCapabilities ep)

/-- NEGOTIATE_ALGORITHMS: SLH-DSA-SHAKE-256s. -/
def State.doNegotiateAlgorithms (s : State) (ep : Endpoint) : State :=
  s.request ep fun s => s.spdmReply ep 0x63 0 (bytesOfNat 4 0x1000)

def execNegotiateAlgorithms (ep : Endpoint) (s : State) : Host.Outcome State Fault Refusal := .next (s.doNegotiateAlgorithms ep)

/-- The chain of certificate slot 0; none once the Identity partition is zero (R786). -/
def State.certChain (s : State) : Option Bytes :=
  s.cold.identity.map fun i => Config.certificateChain (Config.identitySeed i.1 i.2)

/-- GET_DIGESTS. -/
def State.doGetDigests (s : State) (ep : Endpoint) : State :=
  s.request ep fun s =>
    match s.certChain with
    | none => s.spdmError ep seUnspecified
    | some c => s.spdmReply ep 0x01 0 (Config.spdmDigest c)

def execGetDigests (ep : Endpoint) (s : State) : Host.Outcome State Fault Refusal := .next (s.doGetDigests ep)

/-- GET_CERTIFICATE: a part of the chain, its length and the bytes left. -/
def State.doGetCertificate (s : State) (ep : Endpoint) (offset len : Nat) : State :=
  s.request ep fun s =>
    match s.certChain with
    | none => s.spdmError ep seUnspecified
    | some c =>
      if c.length ≤ offset then s.spdmError ep seInvalid
      else
        let part := cutAt c offset len
        s.spdmReply ep 0x02 0 (bytesOfNat 2 part.length ++ bytesOfNat 2 (c.length - offset - part.length) ++ part)

def execGetCertificate (ep : Endpoint) (offset len : Nat) (s : State) : Host.Outcome State Fault Refusal :=
  .next (s.doGetCertificate ep offset len)

/-- Four free values as a responder's nonce. -/
def State.nonceBytes (s : State) : Bytes :=
  (List.range 4).flatMap fun i => bytesOfNat 8 (Config.freeValue (s.freeCtr + i)).toNat

/-- A signing request: refused without an identity, or with four already waiting behind the one being made; else queued (R787). -/
def State.askSignature (s : State) (r : SigReq) : State :=
  if s.cold.identity.isNone then s.spdmError r.ep seUnspecified
  else if 5 ≤ s.mgmt.sigs.length then s.spdmError r.ep seBusy
  else { s with mgmt := { s.mgmt with sigs := s.mgmt.sigs ++ [r] }, freeCtr := s.freeCtr + 4 }

/-- CHALLENGE. -/
def State.doChallenge (s : State) (ep : Endpoint) (nonce : Bytes) : State :=
  s.request ep fun s =>
    let b := spdmBody 0x03 0 (Config.spdmDigest (s.certChain.getD []) ++ s.nonceBytes)
    s.askSignature { ep := ep, body := b, covers := nonce ++ b }

def execChallenge (ep : Endpoint) (nonce : Bytes) (s : State) : Host.Outcome State Fault Refusal := .next (s.doChallenge ep nonce)

/-- The stored digest of the configuration copy in force; empty with none in force. -/
def State.copyDigest (s : State) : Bytes :=
  let u := s.fld F.GLB_CFG_STATUS_IN_USE
  if u = 0 then [] else cutAt (s.copyAt (u - 1)) (digestAt (s.copyAt (u - 1))) 64

/-- The measurement of an index (R788). -/
def State.measurement (s : State) (i : Nat) : Bytes :=
  let k := s.runningSlot
  if i = 1 then shake256 Config.romImage 64
  else if i = 2 then s.componentDigest k 1
  else if i = 3 then s.componentDigest k 2
  else if i = 4 then s.componentDigest k 3
  else if i = 5 then s.copyDigest
  else if i = 6 then
    Config.measurementSix s.lifecycle (s.fld F.GLB_STATE_FW_TRIAL) (s.fld F.FWU_STATUS_RUNNING) (s.slotVersion k) (s.slotSvn k)
      (s.fld F.FWU_SVN_MIN_SVN)
  else shake256 s.rolesBytes 64

/-- A measurement block. -/
def State.measureBlock (s : State) (i : Nat) : Bytes :=
  bytesOfNat 1 i ++ bytesOfNat 2 (s.measurement i).length ++ s.measurement i

/-- The blocks that a request names: 0 asks for their number alone, 0xFF for all. -/
def measureBlocks (i : Nat) : List Nat :=
  if i = 0xFF then (List.range 7).map (· + 1) else if 1 ≤ i ∧ i ≤ 7 then [i] else []

/-- GET_MEASUREMENTS. -/
def State.doGetMeasurements (s : State) (ep : Endpoint) (index : Nat) (sign : Bool) (nonce : Bytes) : State :=
  s.request ep fun s =>
    if index ≠ 0 ∧ measureBlocks index = [] then s.spdmError ep seInvalid
    else
      let b := spdmBody 0x60 (if index = 0 then 7 else 0)
        (bytesOfNat 1 (measureBlocks index).length ++ (measureBlocks index).flatMap s.measureBlock ++ s.nonceBytes)
      if sign then s.askSignature { ep := ep, body := b, covers := nonce ++ b }
      else ({ s with freeCtr := s.freeCtr + 4 } : State).reply ep mtSpdm b

def execGetMeasurements (ep : Endpoint) (index : Nat) (sign : Bool) (nonce : Bytes) (s : State) : Host.Outcome State Fault Refusal :=
  .next (s.doGetMeasurements ep index sign nonce)

/-- SPDM_SIGNATURE_DONE: the oldest request is signed and answered; a wipe meanwhile leaves no key to sign with (R304, R786). -/
def State.doSpdmSignatureDone (s : State) : State :=
  match s.mgmt.sigs with
  | [] => s
  | r :: rest =>
    let s1 : State := { s with mgmt := { s.mgmt with sigs := rest } }
    match s.cold.identity with
    | none => s1.spdmError r.ep seUnspecified
    | some i => s1.reply r.ep mtSpdm (r.body ++ Config.slhDsaSign (Config.identitySeed i.1 i.2) r.covers)

def execSpdmSignatureDone (s : State) : Host.Outcome State Fault Refusal := .next s.doSpdmSignatureDone

/-! ## PLDM for monitoring and control (R831 to R834) -/

/-- An answer of the management endpoint: command, completion code and content. -/
def State.pldmReply (s : State) (cmd cc : Nat) (content : Bytes) : State :=
  s.reply .i3c mtPldm (bytesOfNat 1 cmd ++ bytesOfNat 1 cc ++ content)

/-- A record of R832: its kind, 0 a numeric sensor, 1 a state sensor, 2 a numeric effecter; its ID, name and unit. -/
structure Pdr where
  kind : Nat
  id : Nat
  name : String
  unit : String
deriving DecidableEq, Repr

/-- The numeric sensors of R832. -/
def pdrNumeric : List Pdr :=
  [⟨0, 1, "Junction temperature", "°C"⟩, ⟨0, 2, "CD0 hottest", "0.0625 °C"⟩, ⟨0, 3, "CD1 hottest", "0.0625 °C"⟩,
   ⟨0, 4, "CD2 hottest", "0.0625 °C"⟩, ⟨0, 5, "CD3 hottest", "0.0625 °C"⟩, ⟨0, 6, "Hub hottest", "0.0625 °C"⟩,
   ⟨0, 7, "Coolant inlet", "0.5 °C"⟩, ⟨0, 8, "Coolant outlet", "0.5 °C"⟩, ⟨0, 9, "Manifold pressure drop", "0.1 kPa"⟩,
   ⟨0, 10, "Coolant flow", "mL/min"⟩, ⟨0, 11, "Input power, last estimate", "W"⟩, ⟨0, 12, "Input power, cooling-window mean", "W"⟩,
   ⟨0, 13, "Effective cap", "W"⟩, ⟨0, 14, "Core voltage setpoint", "mV"⟩, ⟨0, 15, "Handshake rate", "MHz"⟩, ⟨0, 16, "Issue duty", "%"⟩]

/-- The records of R832, in the order of its table. -/
def pdrTable : List Pdr :=
  pdrNumeric ++
  [⟨1, 32, "Device state", ""⟩, ⟨1, 33, "Power state", ""⟩, ⟨1, 34, "Life cycle", ""⟩, ⟨1, 35, "Fabric", ""⟩,
   ⟨1, 36, "Firmware trial", ""⟩, ⟨2, 1, "Rack cap", "W"⟩, ⟨2, 2, "Heartbeat", ""⟩]

/-- How a reading meets a threshold. -/
inductive Meets where
  | atLeast | above | below
deriving DecidableEq, Repr

/-- A threshold of R832: 1 warning, 2 critical, 3 fatal; how a reading meets it; and its value in the sensor's unit. -/
structure Threshold where
  level : Nat
  meets : Meets
  value : Int
deriving DecidableEq, Repr

/-- Does a reading meet a threshold? -/
def Threshold.met (t : Threshold) (v : Int) : Bool :=
  match t.meets with
  | .atLeast => decide (t.value ≤ v)
  | .above => decide (t.value < v)
  | .below => decide (v < t.value)

/-- The thresholds of a numeric sensor (R832). -/
def State.thresholds (s : State) (id : Nat) : List Threshold :=
  let unit : Int := if id = 1 then 1 else 16
  if 1 ≤ id ∧ id ≤ 6 then
    [⟨1, .atLeast, s.fld F.PWR_POLICY_THERM_LIMIT_C * unit⟩, ⟨2, .atLeast, 105 * unit⟩, ⟨3, .atLeast, 115 * unit⟩]
  else if id = 7 then [⟨2, .above, 80⟩]
  else if id = 8 then [⟨2, .above, 120⟩]
  else if id = 9 then [⟨2, .above, 1500⟩]
  else if id = 10 then [⟨1, .below, 2000⟩]
  else []

/-- A text with its length. -/
def textBytes (t : String) : Bytes := bytesOfNat 1 t.length ++ t.toList.flatMap fun c => bytesOfNat 1 c.toNat

/-- A signed number of 4 bytes. -/
def intBytes (v : Int) : Bytes := bytesOfNat 4 (BitVec.ofInt 32 v).toNat

/-- A threshold as a record gives it. -/
def Threshold.bytes (t : Threshold) : Bytes :=
  bytesOfNat 1 t.level ++ bytesOfNat 1 (match t.meets with | .atLeast => 0 | .above => 1 | .below => 2) ++ intBytes t.value

/-- The content of a record: kind, ID, name, unit, and the thresholds of a numeric sensor (R832; log entry 27). -/
def State.pdrBytes (s : State) (e : Pdr) : Bytes :=
  let ts := if e.kind = 0 then s.thresholds e.id else []
  bytesOfNat 1 e.kind ++ bytesOfNat 2 e.id ++ textBytes e.name ++ textBytes e.unit ++ bytesOfNat 1 ts.length ++ ts.flatMap Threshold.bytes

/-- GET_PDR_REPOSITORY_INFO. -/
def State.doGetPdrRepositoryInfo (s : State) : State :=
  s.request .i3c fun s => s.pldmReply 0x50 0 (bytesOfNat 4 pdrTable.length)

def execGetPdrRepositoryInfo (s : State) : Host.Outcome State Fault Refusal := .next s.doGetPdrRepositoryInfo

/-- GET_PDR: records are handled 1, 2, … in the order of the table; handle 0 asks for the first. -/
def State.doGetPdr (s : State) (handle : Nat) : State :=
  s.request .i3c fun s =>
    match pdrTable[handle - 1]? with
    | none => s.pldmReply 0x51 0x82 []
    | some e => s.pldmReply 0x51 0 (s.pdrBytes e)

def execGetPdr (handle : Nat) (s : State) : Host.Outcome State Fault Refusal := .next (s.doGetPdr handle)

/-- What a numeric sensor measures, in its unit. -/
def State.sensorReading (s : State) (id : Nat) : Int :=
  if id = 1 then s.fld F.PWR_THERM_TJ_C
  else if 2 ≤ id ∧ id ≤ 5 then (s.hottest (dieSensors (id - 2))).2
  else if id = 6 then (s.hottest hubSensors).2
  else if id = 7 then s.fld F.PWR_THERM_INLET
  else if id = 8 then s.fld F.PWR_THERM_OUTLET
  else if id = 9 then s.fld F.PWR_THERM_DP
  else if id = 10 then s.fld F.PWR_THERM_FLOW_ML_MIN
  else if id = 11 then s.fld F.PWR_ESTIMATE_INPUT_W
  else if id = 12 then s.fld F.PWR_ESTIMATE_COOL_MEAN_W
  else if id = 13 then s.fld F.PWR_STATUS_EFFECTIVE_CAP_W
  else if id = 14 then s.fld F.PWR_PACE_VCORE_MV
  else if id = 15 then s.fld F.PWR_PACE_RATE_MHZ
  else s.fld F.PWR_PACE_DUTY_PCT

/-- The numeric sensors refreshed, as they are every 100 ms (R831). -/
def State.senseAll (s : State) : State :=
  { s with mgmt := { s.mgmt with sensed := (List.range 16).map fun i => s.sensorReading (i + 1) } }

/-- A numeric sensor as last refreshed; before the first refresh after a start, what it measures (log entry 27). -/
def State.sensed (s : State) (id : Nat) : Int := (s.mgmt.sensed[id - 1]?).getD (s.sensorReading id)

/-- The threshold state of a numeric sensor: 0 normal, 1 warning, 2 critical, 3 fatal. -/
def State.sensorState (s : State) (id : Nat) : Nat :=
  (((s.thresholds id).filter fun t => t.met (s.sensed id)).map (·.level)).foldl max 0

/-- GET_SENSOR_READING: the threshold state and the reading, signed. -/
def State.doGetSensorReading (s : State) (id : Nat) : State :=
  s.request .i3c fun s =>
    if 1 ≤ id ∧ id ≤ 16 then
      s.pldmReply 0x11 0 (bytesOfNat 1 (s.sensorState id) ++ intBytes (s.sensed id))
    else s.pldmReply 0x11 0x80 []

def execGetSensorReading (id : Nat) (s : State) : Host.Outcome State Fault Refusal := .next (s.doGetSensorReading id)

/-- The value of a state sensor. -/
def State.stateSensor (s : State) (id : Nat) : Option Nat :=
  if id = 32 then some s.devState
  else if id = 33 then some s.powState
  else if id = 34 then some s.lifecycle
  else if id = 35 then some (s.fld F.FAB_STATUS_STATE)
  else if id = 36 then some (s.fld F.GLB_STATE_FW_TRIAL)
  else none

/-- GET_STATE_SENSOR_READINGS. -/
def State.doGetStateSensorReadings (s : State) (id : Nat) : State :=
  s.request .i3c fun s =>
    match s.stateSensor id with
    | some v => s.pldmReply 0x21 0 (bytesOfNat 1 v)
    | none => s.pldmReply 0x21 0x80 []

def execGetStateSensorReadings (id : Nat) (s : State) : Host.Outcome State Fault Refusal := .next (s.doGetStateSensorReadings id)

/-- The rack cap set, with its entry and the cap terms. -/
def State.setRackCap (s : State) (v : Nat) : State :=
  if s.fld F.PWR_CAP_RACK_W = v then s
  else ((s.setFld F.PWR_CAP_RACK_W v).logChange orRack 0x12 0 (logValue (s.fld F.PWR_CAP_RACK_W)) (logValue v)).noteTerms

/-- May a requester set an effecter to a value (R833)? -/
def effecterOk (fromOwner : Bool) (id value : Nat) : Bool :=
  fromOwner && ((decide (id = 1) && decide (600 ≤ value) && decide (value ≤ 3200)) || (decide (id = 2) && decide (value < 65536)))

/-- SET_NUMERIC_EFFECTER_VALUE. -/
def State.doSetNumericEffecterValue (s : State) (fromOwner : Bool) (id value : Nat) : State :=
  s.request .i3c fun s =>
    if effecterOk fromOwner id value then
      let s1 := if id = 1 then s.setRackCap value else { s with mgmt := { s.mgmt with heartbeat := value } }
      s1.rackBeat.pldmReply 0x31 0 []
    else s.pldmReply 0x31 1 []

def execSetNumericEffecterValue (fromOwner : Bool) (id value : Nat) (s : State) : Host.Outcome State Fault Refusal :=
  .next (s.doSetNumericEffecterValue fromOwner id value)

/-- GET_NUMERIC_EFFECTER_VALUE. -/
def State.doGetNumericEffecterValue (s : State) (id : Nat) : State :=
  s.request .i3c fun s =>
    if id = 1 then s.pldmReply 0x32 0 (bytesOfNat 2 (s.fld F.PWR_CAP_RACK_W))
    else if id = 2 then s.pldmReply 0x32 0 (bytesOfNat 2 s.mgmt.heartbeat)
    else s.pldmReply 0x32 0x80 []

def execGetNumericEffecterValue (id : Nat) (s : State) : Host.Outcome State Fault Refusal := .next (s.doGetNumericEffecterValue id)

/-- POLL_FOR_PLATFORM_EVENT_MESSAGE: the oldest event, its INFO word, leaves the queue; no content where none waits. -/
def State.doPollForPlatformEventMessage (s : State) : State :=
  s.request .i3c fun s =>
    match s.mgmt.polled with
    | [] => s.pldmReply 0x0B 0 []
    | e :: r => ({ s with mgmt := { s.mgmt with polled := r } } : State).pldmReply 0x0B 0 (bytesOfNat 8 e.toNat)

def execPollForPlatformEventMessage (s : State) : Host.Outcome State Fault Refusal := .next s.doPollForPlatformEventMessage

/-! ## PLDM for firmware update (R835) -/

/-- An answer of PLDM type 5 on an endpoint. -/
def State.updateReply (s : State) (ep : Endpoint) (cmd cc : Nat) : State := s.reply ep mtPldm (bytesOfNat 1 cmd ++ bytesOfNat 1 cc)

/-- RETRY_REQUEST_UPDATE. -/
def ccRetry : Nat := 0x8A

/-- Bytes of the payload programmed in order. -/
def State.putPayload (s : State) (i : Install) (data : Bytes) : State :=
  let d := data.take (payloadBytes i.header - i.got)
  let s1 := s.flashWrite (slotPayload i.slot + i.got) d
  { s1 with firm := { s1.firm with install := some { i with got := i.got + d.length } } }

/-- The next bytes of the update: the first 32 KiB are checked, as step 2 of R761 says, before anything is erased. -/
def State.putUpdate (s : State) (i : Install) (data : Bytes) : State :=
  if i.header.length = headerBytes then s.putPayload i data
  else
    let h := (i.header ++ data).take headerBytes
    let j := { i with header := h }
    if h.length < headerBytes then { s with firm := { s.firm with install := some j } }
    else if s.installCheck i.slot h ≠ 0 then s.failInstall i.slot (s.installCheck i.slot h)
    else
      let s1 := (s.openSlotWrite i.slot h).setFld F.FWU_STATUS_STATE fwStWriting
      s1.putPayload j (data.drop (headerBytes - i.header.length))

/-- PLDM_FIRMWARE_UPDATE: bytes of the image from an offset. Offset 0 begins an update, which another operation in progress
turns away; later bytes come in order. -/
def State.doPldmFirmwareUpdate (s : State) (ep : Endpoint) (offset : Nat) (data : Bytes) : State :=
  s.request ep fun s =>
    match s.firm.install with
    | none =>
      if offset ≠ 0 then s
      else if s.fwuBusy then s.updateReply ep 0x10 ccRetry
      else
        (s.setFld F.FWU_STATUS_STATE 1).putUpdate { slot := 1 - s.runningSlot, header := [], origin := orMgmt, pldm := some ep } data
    | some i =>
      if i.pldm = some ep ∧ offset ≠ 0 then
        (if offset = i.header.length + i.got ∧ i.paused = false then s.putUpdate i data else s)
      else if offset = 0 then s.updateReply ep 0x10 ccRetry
      else s

def execPldmFirmwareUpdate (ep : Endpoint) (offset : Nat) (data : Bytes) (s : State) : Host.Outcome State Fault Refusal :=
  .next (s.doPldmFirmwareUpdate ep offset data)

/-- ACTIVATE_FIRMWARE: a graft of the slot that the update wrote. -/
def State.doActivateFirmware (s : State) (ep : Endpoint) : State :=
  s.request ep fun s =>
    let k := 1 - s.runningSlot
    if s.graftCheck k = 0 then (s.startGraft orMgmt k).updateReply ep 0x1A 0 else s.updateReply ep 0x1A 0x84

def execActivateFirmware (ep : Endpoint) (s : State) : Host.Outcome State Fault Refusal := .next (s.doActivateFirmware ep)

end Sys2Proof.Machine
end

