-- ==== Sys2Proof/Machine/Time.lean ====
section
/-! DEFINITION. The step clock and its synchronisation, and the loss and return of the reference clock (R802 to R813, R861, R862). -/

namespace Sys2Proof.Machine

/-- STATE of TIM_STATUS (R845). -/
def tsFreeRun : Nat := 0
def tsAcquiring : Nat := 1
def tsSynced : Nat := 2
def tsRoot : Nat := 3
def tsHoldover : Nat := 4

def nsMs : Nat := 1000000

def State.timState (s : State) : Nat := s.fld F.TIM_STATUS_STATE

/-! ## The clock (R802, R810) -/

/-- RATE, in tenths of a part per million. -/
def State.timRate (s : State) : Int :=
  let v : Int := s.fld F.TIM_STATUS_RATE
  if v < 2048 then v else v - 4096

def State.setRate (s : State) (r : Int) : State := s.setFld F.TIM_STATUS_RATE (r % 4096).toNat

/-- The period at which numeric sensors refresh (R831). -/
def sensePeriod : Nat := 100000000

/-- One nanosecond: the timers' count, and the step clock at its rate, which now and then advances by two or holds; numeric sensors refresh
at the end of their period. -/
def State.tick (s : State) : State :=
  if s.off then s
  else
    let a := s.clock.slew + s.timRate
    let n : Nat := if 10000000 ≤ a then 2 else if a ≤ -10000000 then 0 else 1
    let left : Int := if 10000000 ≤ a then a - 10000000 else if a ≤ -10000000 then a + 10000000 else a
    let t : State := { s with clock := { s.clock with ticks := s.clock.ticks + 1, step := s.clock.step + BitVec.ofNat 64 n, slew := left } }
    if t.now % sensePeriod = 0 then t.senseAll else t

/-! ## The parent (R807, R808) -/

/-- The latest message of a port recorded. -/
def State.hear (s : State) (p : Nat) (m : SyncMsg) : State :=
  { s with clock := { s.clock with heard := (s.clock.heard.filter fun h => decide (h.1 ≠ p)) ++ [(p, s.now, m)] } }

/-- May the sender of a recorded message be the parent? A chip never follows a tree whose root it is itself, and a root follows only
a lower one. -/
def State.mayFollow (s : State) (h : Nat × Nat × SyncMsg) : Bool :=
  h.2.2.synced && decide (h.2.2.hops < 7) && decide (s.now ≤ h.2.1 + 10 * nsMs) && decide (h.2.2.rootChip ≠ s.chipId) &&
    (decide (s.timState ≠ tsRoot) || decide (h.2.2.rootChip < s.chipId))

/-- Is one message before another: lowest ROOT, fewest HOPS, lowest port? -/
def betterParent (a b : Nat × Nat × SyncMsg) : Bool :=
  let k (h : Nat × Nat × SyncMsg) : Nat := (h.2.2.rootChip * 8 + h.2.2.hops) * 32 + h.1
  decide (k a ≤ k b)

/-- The parent that R807 chooses. -/
def State.bestParent (s : State) : Option (Nat × Nat × SyncMsg) :=
  match s.clock.heard.filter s.mayFollow with
  | [] => none
  | h :: hs => some (hs.foldl (fun a b => if betterParent a b then a else b) h)

/-- The parent chosen, where one is eligible. -/
def State.chooseParent (s : State) : State :=
  match s.bestParent with
  | none => s
  | some h =>
    let same := s.clock.hasParent && decide (s.fld F.TIM_STATUS_PARENT_PORT = h.1)
    let s1 := ((s.setFld F.TIM_STATUS_PARENT_PORT h.1).setFld F.TIM_STATUS_ROOT_CHIP h.2.2.rootChip).setFld F.TIM_STATUS_HOPS
      (h.2.2.hops + 1)
    if same then s1
    else
      let s2 := if s.timState = tsFreeRun ∨ s.timState = tsRoot then s1.setFld F.TIM_STATUS_STATE tsAcquiring else s1
      { s2 with clock := { s2.clock with hasParent := true, lastAnswer := s2.now } }

/-! ## Messages (R805, R806) -/

/-- A message of this chip. -/
def State.syncMsg (s : State) (seq : Nat) (t1 t2 t3 : Word) : SyncMsg :=
  { synced := s.clock.heldTime, root := decide (s.timState = tsRoot), hops := s.fld F.TIM_STATUS_HOPS,
    rootChip := s.fld F.TIM_STATUS_ROOT_CHIP, seq := seq, t1 := t1, t2 := t2, t3 := t3 }

/-- TIME_SYNC_REQUEST_SEND: every 1 ms. -/
def State.doTimeSyncRequestSend (s : State) (p : Nat) : State :=
  if p < 32 ∧ s.portUsable p = true then
    let q := s.clock.nextSeq
    let s1 : State := { s with clock := { s.clock with
      nextSeq := (q + 1) % 256
      asked := (s.clock.asked.filter fun a => decide (a.1 ≠ p)) ++ [(p, q, s.stepClock)] } }
    s1.sendCtrl p (.timeSync false (s.syncMsg q s.stepClock 0 0))
  else s

def execTimeSyncRequestSend (port : Nat) (s : State) : Host.Outcome State Fault Refusal := .next (s.doTimeSyncRequestSend port)

/-- TIME_SYNC_REQUEST: heard, and answered. -/
def State.doTimeSyncRequest (s : State) (p : Nat) (m : SyncMsg) : State :=
  if p < 32 ∧ s.portOn p = true then
    let s1 := (s.hear p m).oweCtrl p
    s1.sendCtrl p (.timeSync true (s1.syncMsg m.seq m.t1 s.stepClock s.stepClock))
  else s

def execTimeSyncRequest (port : Nat) (m : SyncMsg) (s : State) : Host.Outcome State Fault Refusal := .next (s.doTimeSyncRequest port m)

/-- The offset θ of R806, in whole nanoseconds toward zero. -/
def syncOffset (m : SyncMsg) (t4 : Word) : Int := ((m.t2 - m.t1).toInt + (m.t3 - t4).toInt).tdiv 2

/-- The step clock stepped by θ, counted and logged (R811). -/
def State.stepBy (s : State) (theta : Int) : State :=
  let t : State := { s with clock := { s.clock with step := s.clock.step + BitVec.ofInt 64 theta } }
  ((t.addSat F.TIM_STATUS_STEPS 1).setRate 0).logChange orHw 0x11 0 (logValue s.stepClock.toNat) (logValue t.stepClock.toNat)

/-- Valid time held. -/
def State.synced (s : State) : State :=
  ({ s with clock := { s.clock with heldTime := true } } : State).setFld F.TIM_STATUS_STATE tsSynced

/-- The correction by θ (R810, R811). -/
def State.correct (s : State) (theta : Int) : State :=
  let sat : Int := max (-32767) (min 32767 theta)
  let s1 := (s.setFld F.TIM_STATUS_OFFSET_NS (sat % 65536).toNat)
  let s2 : State := { s1 with clock := { s1.clock with lastAnswer := s1.now } }
  if theta.natAbs ≤ 1000 then (s2.setRate (2 * theta)).synced
  else if 0 < theta ∨ s2.clock.reachedReady = false then (s2.stepBy theta).synced
  else s2.setRate (-2000)

/-- TIME_SYNC_RESPONSE: heard; from the parent, in answer to the last REQUEST there, it corrects the step clock. -/
def State.doTimeSyncResponse (s : State) (p : Nat) (m : SyncMsg) : State :=
  if p < 32 ∧ s.portOn p = true then
    let s1 := ((s.oweCtrl p).hear p m).chooseParent
    if s1.clock.asked.contains (p, m.seq, m.t1) then
      let s2 : State := { s1 with clock := { s1.clock with asked := s1.clock.asked.erase (p, m.seq, m.t1) } }
      if s2.clock.hasParent = true ∧ s2.fld F.TIM_STATUS_PARENT_PORT = p then s2.correct (syncOffset m s.stepClock) else s2
    else s1
  else s

def execTimeSyncResponse (port : Nat) (m : SyncMsg) (s : State) : Host.Outcome State Fault Refusal := .next (s.doTimeSyncResponse port m)

/-! ## Holdover and roots (R808, R813) -/

/-- The parent lost: HOLDOVER, at the last rate, and a new parent where one is eligible. -/
def State.enterHoldover (s : State) : State :=
  (({ s with clock := { s.clock with hasParent := false } } : State).setFld F.TIM_STATUS_STATE tsHoldover).chooseParent

/-- HOLDOVER: no RESPONSE from the parent for 10 ms. -/
def State.doHoldover (s : State) : State :=
  if s.off = false ∧ s.clock.hasParent = true ∧ s.clock.lastAnswer + 10 * nsMs ≤ s.now then s.enterHoldover else s

def execHoldover (s : State) : Host.Outcome State Fault Refusal := .next s.doHoldover

/-- May a chip without an eligible parent become a root? -/
def State.rootOk (s : State) : Bool :=
  if s.clock.heldTime then decide (s.timState = tsSynced) || decide (s.timState = tsHoldover)
  else s.clock.discoveryEnd.any fun t => decide (t + 10 * nsMs ≤ s.now)

/-- BECOME_ROOT. -/
def State.doBecomeRoot (s : State) : State :=
  if s.off = false ∧ s.bestParent = none ∧ s.rootOk = true then
    ({ s with clock := { s.clock with heldTime := true, hasParent := false } } : State)
      |>.setFld F.TIM_STATUS_STATE tsRoot |>.setFld F.TIM_STATUS_HOPS 0 |>.setFld F.TIM_STATUS_ROOT_CHIP s.chipId
  else s

def execBecomeRoot (s : State) : Host.Outcome State Fault Refusal := .next s.doBecomeRoot

/-! ## The reference clock (R861, R862) -/

/-- A lane that loses lock: its retrain is due, and it is DOWN until the reference returns. -/
def State.loseLane (s : State) (k : Nat) : State :=
  if s.laneState k = mlDown then s else (s.retrainLane k).setFld (F.MEM_LANE_STATUS_STATE.at k) mlDown

/-- REFCLK_LOSS. -/
def State.doRefclkLoss (s : State) : State :=
  if s.boot.refclk = false then s
  else
    let s1 : State := { s with boot := { s.boot with refclk := false } }
    if s.off then s1
    else
      let s2 := if s1.memOn then (List.range 32).foldl (fun (s : State) p => s.portDown p 1) ((List.range 16).foldl State.loseLane s1)
        else s1
      { (s2.dropLink.setFld F.TIM_STATUS_STATE tsHoldover) with clock := { s2.clock with hasParent := false } }

def execRefclkLoss (s : State) : Host.Outcome State Fault Refusal := .next s.doRefclkLoss

/-- Does the retrain of a memory lane begin with the return of the reference: it lost lock, and has the optical lanes to run on (R382)? -/
def State.laneRelocks (s : State) (k : Nat) : Bool :=
  s.lanesStarted && decide (s.laneState k = mlDown) && decide (laneCount (mget (fun _ => 0) s.mem.lost k) ≤ 2)

/-- Does the retrain of a port begin with it: it is planned, enabled and DOWN, and no notice bids it wait for light (R464, R490)? -/
def State.portRelocks (s : State) (p : Nat) : Bool :=
  s.mayTrain && s.planned p && decide (s.fld (F.FAB_PORT_CFG_ENABLE.at p) = 1) && decide (s.portState p = poDown) &&
    !(s.port p).awaitLight

/-- REFCLK_RETURN: a cold start that waits at event 2 goes on; lanes and ports that are down retrain. -/
def State.doRefclkReturn (s : State) : State :=
  if s.boot.refclk then s
  else
    let s1 : State := { s with boot := { s.boot with refclk := true } }
    match s1.boot.waits with
    | some (pos, par, seedbedN) => s1.coldBegin pos par seedbedN
    | none =>
      (List.range 32).foldl (fun (s : State) p => if s.portRelocks p then s.beginRetrain p 1 else s)
        ((List.range 16).foldl (fun (s : State) k =>
          if s.laneRelocks k then s.setFld (F.MEM_LANE_STATUS_STATE.at k) mlTraining else s) s1)

def execRefclkReturn (s : State) : Host.Outcome State Fault Refusal := .next s.doRefclkReturn

end Sys2Proof.Machine
end

