-- ==== Sys2Proof/Machine/Access.lean ====
section
/-! DEFINITION. Control-window accesses: writes under the access codes of the fields (R20 to R30, R571, R572), the writes that are
rows of their own, reads and snapshot latches (R816 to R821), and the writes of the controllers (R722). -/

namespace Sys2Proof.Machine

/-! ## Field effects (R26, R28, R30) -/

/-- The bits of `x` that a mask names replaced by those of `v`. -/
def mergeBits (x mask v : Word) : Word := (x &&& ~~~mask) ||| (v &&& mask)

/-- A row's register after a write of the bits `mask` of `v`: RW fields whose new encoding is not reserved, and RW1C bits. -/
def RegRow.written (r : RegRow) (old mask v : Word) : Word :=
  let new := mergeBits old mask v
  r.fields.foldl (fun (x : Word) f =>
    let m := fieldMask f.hi f.lo
    match f.acc with
    | .rw => if f.legal.holds (fieldGet new f.hi f.lo) then mergeBits x (m &&& mask) v else x
    | .rw1c => x &&& ~~~(m &&& mask &&& v)
    | _ => x) old

/-- Written RWC bits staged for the writer, the last write winning (R28). -/
def State.stageBits (s : State) (w : Agent) (a : Nat) (mask v : Word) : State :=
  let m := rwcMask a &&& mask
  if m = 0 then s
  else
    let d (_ : Nat) : Stage := { mask := 0, value := 0 }
    let e := mget d s.staged (stageKey a w)
    { s with staged := mset d s.staged (stageKey a w) { mask := e.mask ||| m, value := mergeBits e.value m v } }

/-- A write of bits `mask` of `v` to the register at `a` by its access codes alone. -/
def State.fieldWrite (s : State) (w : Agent) (r : RegRow) (a : Nat) (mask v : Word) : State :=
  (s.setReg a (r.written (s.reg a) mask v)).stageBits w a mask v

/-- Does the write touch a field other than RWC (R572)? -/
def RegRow.touchesOther (r : RegRow) (mask : Word) : Bool :=
  r.fields.any fun f => decide (f.acc ≠ .rwc) && decide (fieldMask f.hi f.lo &&& mask ≠ 0)

/-! ## Writes with an effect of their own -/

/-- GLB_DEV_CMD: one command at a time. -/
def State.devCommand (s : State) (w : Agent) (v : Word) : State :=
  let n := bitsOf v 2 0
  if n = 0 then s
  else if n = 1 then s.doDrainCommand w
  else if n = 2 then s.doResumeCommand w
  else if n = 4 then s.doRecoverGraft w
  else s.refuseCmd

/-- GO of FWU_CTL, by OP; a reserved OP ends with STATE. -/
def State.fwuGo (s : State) (w : Agent) : State :=
  let t := s.fld F.FWU_CTL_TARGET
  match s.fld F.FWU_CTL_OP with
  | 1 => s.doInstall w t
  | 2 => s.doGraft w t
  | 3 => s.doReject w
  | 4 => s.doConfigWrite w t
  | 5 => s.doLaneCal w t
  | _ => s.endFwu fwState

/-- FWU_SEED_CMD, by CMD; others are ignored. -/
def State.seedCommand (s : State) (v : Word) : State :=
  match bitsOf v 3 0 with
  | 1 => s.doBegin (bitsOf v 4 4)
  | 2 => s.doBlock (bitsOf v 63 48) (bitsOf v 24 8)
  | 3 => s.doSeedEnd
  | 4 => s.doSeedAbort
  | _ => s

/-- GO of SEC_CMD_CTL, by the command in the mailbox. -/
def State.ownerGo (s : State) (w : Agent) : State :=
  match s.ownerCode with
  | 1 => s.doSetRoles w
  | 2 => s.doLifecycle w
  | 3 => s.doWipe w
  | 4 => s.doFwAuthorise w
  | 5 => s.doInstallKtk w
  | 6 => s.doClearKtk w
  | _ => s.unknownOwner w

/-- GO of RAS_SELFTEST, by KIND; a reserved KIND is REFUSED. -/
def State.selftestGo (s : State) (w : Agent) : State :=
  let i := s.fld F.RAS_SELFTEST_INDEX
  match s.fld F.RAS_SELFTEST_KIND with
  | 1 => s.doSelftestCluster w i
  | 2 => s.doSelftestLane w i
  | 3 => s.doSelftestPort w i
  | 4 => s.doSelftestController w
  | k => if s.fld F.RAS_SELFTEST_GO = 1 then s else s.endTest k i stTestRefused

/-- FAB_CTL. -/
def State.fabCommand (s : State) (v : Word) : State :=
  let s1 := if v.getLsbD 1 then s.doResume else s
  if v.getLsbD 0 then s1.doSwap else s1

/-- FAB_CIRC[c]. -/
def State.circCommand (s : State) (c : Nat) (v : Word) : State :=
  let s1 := if v.getLsbD 16 then s.doSetup c else s
  if v.getLsbD 17 then s1.doCircuitTeardownWrite c else s1

/-- FWU_TAKE: a host write is discarded and counted (R798); the active controller takes. -/
def State.fwuTakeWrite (s : State) (w : Agent) : State :=
  match w with
  | .host => s.addSat F.HST_ERR_BUSY_WRITE 1
  | _ => if agentKey w = s.activeNum + 1 then s.take s.activeNum else s

/-- MAX of sensor `i` loaded with its present reading (R848). -/
def State.loadMax (s : State) (i : Nat) : State := s.setFld (F.TEL_TEMP_MAX.at i) (s.fld (F.TEL_TEMP_TEMP.at i))

/-- Writes to the shadow copies of the tables; while a swap is pending they are lost (R473). -/
def State.shadowWrite (s : State) (w : Agent) (r : RegRow) (a : Nat) (mask v : Word) : State :=
  if s.fld F.FAB_STATUS_SWAP_PENDING = 1 then s.setFld F.FAB_STATUS_WRITE_LOST 1 else s.fieldWrite w r a mask v

/-- What a write to the register at `a` of an On block does, past its fields: `v` holds the written bits, zero elsewhere, `mask`
names them, and `i` is the index in the row. -/
def State.writeAction (s : State) (w : Agent) (b base i : Nat) (mask v full : Word) : State :=
  let low := decide (mask &&& 0xFFFFFFFF ≠ 0)
  if commitReg b = some base then (if v.getLsbD 0 then s.doCommit w b else s)
  else match base with
    | 0x18 => s.devCommand w v
    | 0x100010 => if low then s.doCtxPeekSelWrite w full else s
    | 0x200000 => if v.getLsbD 1 then s.doLaneReset w i else s
    | 0x201400 => if low then s.doCringHeadWrite w i (full.truncate 32) else s
    | 0x320000 => s.doTlyAdd w i v
    | 0x500080 => if v.getLsbD 0 then s.doMemLaneCtlRetrain i else s
    | 0x500110 => if v.getLsbD 7 then s.doMemEvacGo (s.fld F.MEM_EVAC_CTL_MODULE) else s
    | 0x500118 => if v.getLsbD 31 then s.doMemMigrateGo (s.fld F.MEM_MIGRATE_PAGE) else s
    | 0x600100 => if v.getLsbD 3 then s.doFabPortRetrain i else s
    | 0x600308 => s.fabCommand v
    | 0x602000 => s.circCommand i v
    | 0x800000 => if low then s.powerCmd w (bitsOf v 2 0) else s
    | 0x900050 => if v.getLsbD 8 then s.doRasSpareCtlGo w (s.fld F.RAS_SPARE_CTL_LCLUSTER) else s
    | 0x900058 => if v.getLsbD 31 then s.selftestGo w else s
    | 0xA00000 => if v.getLsbD 4 then s.fwuGo w else s
    | 0xA00040 => if v.getLsbD 0 then s.fwuTakeWrite w else s
    | 0xA00100 => s.seedCommand v
    | 0xB00008 => if v.getLsbD 0 then s.ownerGo w else s
    | 0xD00200 => if low then s.doLogReadSelWrite w full else s
    | 0x3000000 => if mask &&& 0xFFFF000000000000 ≠ 0 then s.loadMax i else s
    | _ => s

/-! ## Snapshot latches (R816 to R821) -/

def latchTime : Nat := 100000
def glbLatchTime : Nat := 1000000

/-- Has a latch reached its age? -/
def State.latchOver (s : State) (l : Latch) : Bool := decide (l.opened + (if l.byGlb then glbLatchTime else latchTime) ≤ s.now)

/-- Does every engine with queued work of a running cluster wait (R182)? No rule says whether an engine counts that runs a descriptor
while the next one's wait is unmet: it counts as held here (log entry 62). -/
def State.allWait (s : State) (p : Nat) : Bool :=
  [Engine.tensor, .vector, .select, .move].all fun e =>
    (s.clu p).queue.all (fun d => decide (d.eng ≠ e)) ||
      match (s.clu p).waiting e with
      | d :: _ => !s.waitMet p d.wait
      | [] => false

/-- Does the sequencer wait on a control descriptor: on its wait, on earlier descriptors, or on a collective (R182, R250)? -/
def State.seqWaits (s : State) (p : Nat) : Bool :=
  (s.clu p).inColl.isSome ||
    (s.mayIssue p && !(s.clu p).past &&
      let ws := s.progWords p (s.pcOf p)
      decide (engineOf (hOpcode ws) = some .seq) && !s.controlReady p ws)

/-- The engines with work queued or running, by their bits of ENGINE_BUSY (R182). -/
def Cluster.busy (c : Cluster) : Nat := c.queue.foldl (fun a d => if d.done then a else a ||| engineBit d.eng) 0

/-- CLU_SEQ_STATUS as read: ENGINE_BUSY and WAITING follow the queues. R182 does not say what SEQ_STATE shows while no engine has queued
work: WAITING where the sequencer itself waits on a control descriptor, and RUNNING otherwise (log entry 62). -/
def State.seqStatus (s : State) (p : Nat) : Word :=
  let v := s.reg (F.CLU_SEQ_STATUS_SEQ_STATE.clu p).reg
  let sw := decide (s.seqState p = sqRunning) && s.seqWaits p
  let v1 := fieldPut v 8 4 ((s.clu p).busy ||| (if sw then 16 else 0))
  if decide (s.seqState p = sqRunning) && s.allWait p && (sw || !(s.clu p).queue.isEmpty) then fieldPut v1 3 0 sqWaiting else v1

/-- The registers whose value follows time or the sequencer, by block. -/
def liveRegs (b : Nat) : List Nat :=
  if b = blkTim then [0xC00000, 0xC00020]
  else if b = blkCol then [0x730008]
  else if b = blkFwu then [0xA00010]
  else if b = blkRas then [0x900008, 0x900010]
  else if b = blkMem then [0x500120]
  else if 0x100 ≤ b ∧ b < 0x208 then [b * 0x10000]
  else []

/-- The whole seconds left of a graft's window (R794). -/
def State.graftLeft (s : State) : Nat :=
  match s.firm.graft with
  | some g => (g.deadline - s.now) / 1000000000
  | none => 0

/-- Does the copy of a page wait: in DARK, or while a lane it uses is not up (R416)? -/
def State.evacPaused (s : State) : Bool :=
  match s.mem.evac with
  | some e =>
    match e.cur with
    | some mv => !s.modReady mv.fromMod || !s.modReady mv.toMod
    | none => false
  | none => false

/-- A register as a live read shows it. -/
def State.view (s : State) (a : Nat) : Word :=
  if a = 0xC00000 then s.stepClock
  else if a = 0xC00020 then s.wall
  else if a = 0x730008 then BitVec.ofNat 64 s.colMark
  else if a = 0x500120 then (if s.evacPaused then fieldPut (s.reg a) 3 0 evPaused else s.reg a)
  else if a = 0xA00010 then fieldPut (s.reg a) 63 48 (min 65535 s.graftLeft)
  else if a = 0x900008 then fieldPut (s.reg a) 63 48 (min 65535 ((s.now - s.ctl.reported.getD 0 0) / 1000000))
  else if a = 0x900010 then fieldPut (s.reg a) 63 48 (min 65535 ((s.now - s.ctl.reported.getD 1 0) / 1000000))
  else if isCluAddr a && decide (a % 0x10000 = 0) then s.seqStatus ((a - 0x01000000) / 0x10000)
  else s.reg a

/-- The registers of a block captured at one instant (R817). -/
def State.capture (s : State) (b : Nat) : Store Word :=
  (liveRegs b).foldl (fun m a => mset regDefault m a (s.view a)) (s.regs.filter fun e => decide (blockOf e.1 = some b))

/-- The latch of a reader for a block. -/
def State.latchOf (s : State) (r : Agent) (b : Nat) : Option Latch :=
  s.latches.find? fun l => decide (l.reader = r) && decide (l.block = b)

def State.openLatch (s : State) (r : Agent) (b : Nat) (glb : Bool) : State :=
  { s with latches := s.latches ++ [{ reader := r, block := b, opened := s.now, byGlb := glb, cap := s.capture b, bytes := [] }] }

/-- SNAP_LATCH_EXPIRY. -/
def State.doSnapLatchExpiry (s : State) (r : Agent) (b : Nat) : State :=
  match s.latchOf r b with
  | some l => if s.latchOver l then s.closeLatch r b else s
  | none => s

def execSnapLatchExpiry (r : Agent) (block : Nat) (s : State) : Host.Outcome State Fault Refusal := .next (s.doSnapLatchExpiry r block)

/-- GLB_SNAP_CTL_WRITE: bit 15 of BLOCKS names TEL (R846). -/
def State.doGlbSnapCtlWrite (s : State) (w : Agent) (v : Word) : State :=
  s.gate w blkGlb fun s =>
    let bs := namedBlocks (bitsOf v 14 0) ++ (if v.getLsbD 15 then [blkTel] else [])
    let s1 := bs.foldl (fun (s : State) b => s.closeLatch w b) s
    bs.foldl (fun (s : State) b => s.openLatch w b true) s1

def execGlbSnapCtlWrite (w : Agent) (value : Word) (s : State) : Host.Outcome State Fault Refusal := .next (s.leased w fun s => s.doGlbSnapCtlWrite w value)

/-! ## Reads (R20 to R25, R548, R570, R572) -/

/-- The bad-access event, with the offset in its detail (R21, R548, R739). -/
def State.badAccess (s : State) (a : Nat) : State := (s.addSat F.HST_ERR_BAD_ACCESS 1).raiseEvent 0x01 0 (a % 2 ^ 32)

/-- Is an address answered with all-ones (R570)? Where only some blocks are seen, an address of no block is not. -/
def State.hidden (s : State) (r : Agent) (a : Nat) : Bool := decide (r = .host) && !s.addrSeen a

/-- The bits of a register that belong to a SNAP field, and those a read returns. -/
def snapMask (r : RegRow) : Word := BitVec.ofNat 64 (r.maskOf (·.snap))
def readMask (r : RegRow) : Word := BitVec.ofNat 64 (r.maskOf fun f => decide (f.acc ≠ .wo))

/-- The bits of a word that an access of `size` bytes at offset `o` of it covers. -/
def accessMask (o size : Nat) : Word := BitVec.ofNat 64 ((2 ^ (8 * size) - 1) * 2 ^ (8 * o))

/-- The latch of the reader after a read of the bytes `bs`: closed by age or by a byte read again, opened for a SNAP field, and
the bytes noted (R817, R818). -/
def State.latchRead (s : State) (r : Agent) (b : Nat) (bs : List Nat) (snap : Bool) : State :=
  let s1 := match s.latchOf r b with
    | some l => if s.latchOver l || (!l.byGlb && bs.any l.bytes.contains) then s.closeLatch r b else s
    | none => s
  let s2 := if snap && (s1.latchOf r b).isNone then s1.openLatch r b false else s1
  { s2 with latches := s2.latches.map fun l =>
    if l.reader = r ∧ l.block = b then { l with bytes := l.bytes ++ bs } else l }

/-- The value of the word at `a` for a reader: SNAP fields from its latch, others live; CTX_PEEK_DATA follows R368 (R820). -/
def State.readWord (s : State) (r : Agent) (row : RegRow) (b a : Nat) : Word :=
  let live := s.view a
  let v := match s.latchOf r b with
    | some l => if row.base = 0x100100 then live else mergeBits live (snapMask row) (mget regDefault l.cap a)
    | none => live
  v &&& readMask row

/-- SNAP_READ: a read of at most 8 bytes within a word. R20, R22 and R548 do not say what a read of 5 to 7 bytes, or one across the
middle of a word, returns: here it is the bytes of the register (log entry 14). -/
def State.doSnapRead (s : State) (r : Agent) (addr size : Nat) : State :=
  let a := addr / 8 * 8
  let o := addr % 8
  if !s.reaches r || decide (size = 0) || decide (8 < o + size) then s
  else if s.hidden r addr then s.emit (.readDone r addr size (accessMask 0 size))
  else
    match blockOf addr, findReg a with
    | some b, some row =>
      let snap := decide (row.base ≠ 0x100100) && decide (snapMask row &&& accessMask o size ≠ 0)
      let s1 := s.latchRead r b ((List.range size).map fun i => addr + i) snap
      s1.emit (.readDone r addr size ((s1.readWord r row b a >>> (8 * o)) &&& accessMask 0 size))
    | _, _ => s.emit (.readDone r addr size 0)

def execSnapRead (r : Agent) (addr size : Nat) (s : State) : Host.Outcome State Fault Refusal := .next (s.doSnapRead r addr size)

/-- CONTROL_READ_OVERSIZE: a read of the host of more than 8 bytes, or across a 64-bit boundary. -/
def State.doControlReadOversize (s : State) (addr len : Nat) : State :=
  if s.hostReach = true ∧ 0 < len ∧ 8 < addr % 8 + len then (s.emit (.readUnsupported addr len)).badAccess addr else s

def execControlReadOversize (addr len : Nat) (s : State) : Host.Outcome State Fault Refusal := .next (s.doControlReadOversize addr len)

/-! ## Writes -/

/-- A write to a block whose domain is Off: RWC bits are staged, the rest is discarded and counted (R572). -/
def State.offWrite (s : State) (w : Agent) (r : RegRow) (a : Nat) (mask v : Word) : State :=
  let s1 := s.stageBits w a mask v
  if r.touchesOther mask then s1.addSat F.HST_ERR_BUSY_WRITE 1 else s1

/-- A write to a register of an On block. -/
def State.onWrite (s : State) (w : Agent) (r : RegRow) (b a : Nat) (mask v : Word) : State :=
  let full := mergeBits (s.reg a) mask v
  let base := if isCluAddr a then b * 0x10000 + r.base else r.base
  if base = 0x100 then s.doReload w (mergeBits full 0x80 (if mask &&& 0x80 = 0 then 0 else v))
  else if base = 0x200 then s.doGlbSnapCtlWrite w v
  else if base = 0x208 then s.doCommitGroup w (mergeBits full 0x50000 v)
  else if base = 0x601200 ∨ base = 0x601600 then s.shadowWrite w r a mask v
  else if isCluAddr a && decide (r.base = 0x10) then (if v.getLsbD 31 then s.setReg a 0 else s)
  else if isCluAddr a && decide (r.base = 0x100) then s.setReg a (numstatClear (s.reg a) v)
  else if base = 0x3000000 ∨ base = 0x201400 then s.writeAction w b base (r.index a) mask v full
  else (s.fieldWrite w r a mask v).writeAction w b base (r.index a) mask v full

/-- A control-window write of `size` bytes at `addr` (R20, R21, R24, R570 to R572). R21 names only writes narrower than 32 bits: one
of 5 to 7 bytes, of more than 8, or misaligned counts as a bad access here (log entry 14). -/
def State.regWrite (s : State) (w : Agent) (addr size : Nat) (value : Word) : State :=
  let a := addr / 8 * 8
  let mask := accessMask (addr % 8) size
  let v := (value <<< (8 * (addr % 8))) &&& mask
  if !s.reaches w then s
  else if (size ≠ 4 ∧ size ≠ 8) ∨ addr % size ≠ 0 then s.badAccess addr
  else if s.hidden w addr then s.addSat F.HST_ERR_BUSY_WRITE 1
  else
    match blockOf a with
    | none => s
    | some b =>
      let s1 := s.closeLatch w b
      match findReg a with
      | none => s1
      | some r => if s1.blockOn b then s1.onWrite w r b a mask v else s1.offWrite w r a mask v

/-- REGISTER_WRITE. A register with a row of its own acts as that row. -/
def State.doRegisterWrite (s : State) (w : Agent) (addr size : Nat) (value : Word) : State := s.regWrite w addr size value

def execRegisterWrite (w : Agent) (addr size : Nat) (value : Word) (s : State) : Host.Outcome State Fault Refusal :=
  .next (s.leased w fun s => s.doRegisterWrite w addr size value)

/-- TEL_TEMP_MAX_WRITE. -/
def State.doTelTempMaxWrite (s : State) (w : Agent) (i : Nat) : State :=
  if i < 140 then s.gate w blkTel fun s => s.loadMax i else s

def execTelTempMaxWrite (w : Agent) (i : Nat) (s : State) : Host.Outcome State Fault Refusal := .next (s.leased w fun s => s.doTelTempMaxWrite w i)

/-- Before the new active controller writes an address of the dual-act list, it reads the address again and, where the value differs
from its journal's, writes the journal's (R729). -/
def State.reconcile (s : State) (k a : Nat) : State :=
  if k = s.activeNum ∧ s.fld F.RAS_LEASE_DUAL_ACT = 0 ∧ a ∈ s.ctl.dual then
    let s1 : State := { s with ctl := { s.ctl with dual := s.ctl.dual.filter fun x => decide (x ≠ a) } }
    match s1.cold.journal.writes.find? fun e => decide (e.1 = a) with
    | some e => if s1.view a = e.2 then s1 else s1.regWrite (ctlAgent k) a 8 e.2
    | none => s1
  else s

/-- CONTROLLER_WRITE: a write with its epoch; a take asks for the current one (R773). -/
def State.doControllerWrite (s : State) (c : Bool) (epoch : BitVec 16) (addr size : Nat) (value : Word) : State :=
  s.ctlWrite c epoch.toNat (addr / 8 * 8) fun s0 =>
    let s := s0.reconcile (bit c) (addr / 8 * 8)
    if addr / 8 * 8 = F.FWU_TAKE_TAKE.reg ∧ epoch.toNat ≠ s.epoch then s
    else s.regWrite (ctlAgent (bit c)) addr size value

def execControllerWrite (c : Bool) (epoch : BitVec 16) (addr size : Nat) (value : Word) (s : State) :
    Host.Outcome State Fault Refusal := .next (s.doControllerWrite c epoch addr size value)

end Sys2Proof.Machine
end

