-- ==== Sys2Proof/Machine/Tap.lean ====
section
/-! DEFINITION. The test access port: the IEEE 1149.1 controller, its instructions, and the boundary register (R880 to R885). -/

namespace Sys2Proof.Machine

/-- The controller's next state (IEEE 1149.1). -/
def tapNext : TapState → Bool → TapState
  | .reset, t => if t then .reset else .idle
  | .idle, t => if t then .selDr else .idle
  | .selDr, t => if t then .selIr else .capDr
  | .capDr, t => if t then .exit1Dr else .shiftDr
  | .shiftDr, t => if t then .exit1Dr else .shiftDr
  | .exit1Dr, t => if t then .updateDr else .pauseDr
  | .pauseDr, t => if t then .exit2Dr else .pauseDr
  | .exit2Dr, t => if t then .updateDr else .shiftDr
  | .updateDr, t => if t then .selDr else .idle
  | .selIr, t => if t then .reset else .capIr
  | .capIr, t => if t then .exit1Ir else .shiftIr
  | .shiftIr, t => if t then .exit1Ir else .shiftIr
  | .exit1Ir, t => if t then .updateIr else .pauseIr
  | .pauseIr, t => if t then .exit2Ir else .pauseIr
  | .exit2Ir, t => if t then .updateIr else .shiftIr
  | .updateIr, t => if t then .selDr else .idle

/-- Instruction codes (R881). -/
def tapExtest : Nat := 0x00
def tapIdcode : Nat := 0x01
def tapSample : Nat := 0x02

/-- The identification register (R882). -/
def tapId : Nat := 0x1000996B

/-- `n` bits of a number, the lowest first. -/
def bitsLow (n v : Nat) : List Bool := (List.range n).map fun i => v.testBit i

/-- The number that bits spell, the lowest first. -/
def numLow (l : List Bool) : Nat := l.foldr (fun b a => bit b + 2 * a) 0

/-- Is the boundary register between TDI and TDO: under SAMPLE/PRELOAD, and under EXTEST in SEEDBED (R881, R884)? -/
def State.tapBoundary (s : State) : Bool :=
  decide (s.tap.ir = tapSample) || (decide (s.tap.ir = tapExtest) && decide (s.devState = dsSeedbed))

/-- A cell of an open-drain output with its output and enable, of which `o` is the number: captured driven low where the device
drives it (R883, R885). -/
def driven (low : Bool) (o : Nat) (l : List Bool) : List Bool := if low then (l.set o false).set (o + 1) true else l

/-- What the 54 cells capture: `pads` at each cell, but for THERMTRIP_N and ALERT_N where the device drives them low. -/
def State.captureCells (s : State) (pads : List Bool) : List Bool :=
  driven s.gov.alert 44 (driven s.gov.thermtrip 42 ((List.range 54).map fun i => pads.getD i false))

/-- The register captured at Capture-DR. -/
def State.captureDr (s : State) (pads : List Bool) : List Bool :=
  if s.tapBoundary then s.captureCells pads
  else if s.tap.ir = tapIdcode then bitsLow 32 tapId
  else [false]

/-- What the edge does to the shift register in the present state. -/
def State.tapShift (s : State) (tdi : Bool) (pads : List Bool) : List Bool :=
  match s.tap.state with
  | .capDr => s.captureDr pads
  | .capIr => bitsLow 8 1
  | .shiftDr => s.tap.shift.drop 1 ++ [tdi]
  | .shiftIr => s.tap.shift.drop 1 ++ [tdi]
  | _ => s.tap.shift

/-- The falling edge that follows, in state `st`: the updates, and the level on TDO. -/
def State.tapFall (s : State) (st : TapState) : State :=
  match st with
  | .reset => ({ s with tap := { s.tap with ir := tapIdcode } } : State).emit (.tdo none)
  | .updateIr => ({ s with tap := { s.tap with ir := numLow s.tap.shift } } : State).emit (.tdo none)
  | .updateDr =>
    ({ s with tap := { s.tap with latch := if s.tapBoundary then s.tap.shift else s.tap.latch } } : State).emit (.tdo none)
  | .shiftDr => s.emit (.tdo s.tap.shift.head?)
  | .shiftIr => s.emit (.tdo s.tap.shift.head?)
  | _ => s.emit (.tdo none)

/-- TCK_RISING_EDGE, with the falling edge that follows it. -/
def State.doTckRisingEdge (s : State) (tms tdi : Bool) (pads : List Bool) : State :=
  if s.off = true ∨ s.tap.trst = false then s
  else
    let st := tapNext s.tap.state tms
    ({ s with tap := { s.tap with state := st, shift := s.tapShift tdi pads } } : State).tapFall st

def execTckRisingEdge (tms tdi : Bool) (pads : List Bool) (s : State) : Host.Outcome State Fault Refusal :=
  .next (s.doTckRisingEdge tms tdi pads)

/-- TRST_N: low holds the controller in Test-Logic-Reset. -/
def State.doTrstN (s : State) (high : Bool) : State :=
  if high then { s with tap := { s.tap with trst := true } }
  else { s with tap := { s.tap with trst := false, state := .reset, ir := tapIdcode } }

def execTrstN (high : Bool) (s : State) : Host.Outcome State Fault Refusal := .next (s.doTrstN high)

end Sys2Proof.Machine
end

