-- ==== Sys2Proof/Machine/Dispatch.lean ====
section
/-! DEFINITION. The dispatch of a command to its meaning: one arm for each constructor, in the order of the table. -/

namespace Sys2Proof.Machine

def exec (i : Instr) (s : State) : Host.Outcome State Fault Refusal :=
  match i with
  | .registerWrite w addr size value => Sys2Proof.Machine.execRegisterWrite w addr size value s
  | .controlReadOversize addr len => Sys2Proof.Machine.execControlReadOversize addr len s
  | .snapRead r addr size => Sys2Proof.Machine.execSnapRead r addr size s
  | .snapLatchExpiry r block => Sys2Proof.Machine.execSnapLatchExpiry r block s
  | .glbSnapCtlWrite w value => Sys2Proof.Machine.execGlbSnapCtlWrite w value s
  | .commit w block => Sys2Proof.Machine.execCommit w block s
  | .clusterCommitApply p => Sys2Proof.Machine.execClusterCommitApply p s
  | .deferredCommitApply block => Sys2Proof.Machine.execDeferredCommitApply block s
  | .commitGroup w value => Sys2Proof.Machine.execCommitGroup w value s
  | .ctxPeekSelWrite w value => Sys2Proof.Machine.execCtxPeekSelWrite w value s
  | .logReadSelWrite w value => Sys2Proof.Machine.execLogReadSelWrite w value s
  | .tlyAdd w n value => Sys2Proof.Machine.execTlyAdd w n value s
  | .telTempMaxWrite w n => Sys2Proof.Machine.execTelTempMaxWrite w n s
  | .cringHeadWrite w r head => Sys2Proof.Machine.execCringHeadWrite w r head s
  | .laneReset w l => Sys2Proof.Machine.execLaneReset w l s
  | .intakeWrite offset data => Sys2Proof.Machine.execIntakeWrite offset data s
  | .laneStallTimeout l => Sys2Proof.Machine.execLaneStallTimeout l s
  | .take l => Sys2Proof.Machine.execTake l s
  | .creditWrite l => Sys2Proof.Machine.execCreditWrite l s
  | .stepMessageEnd num => Sys2Proof.Machine.execStepMessageEnd num s
  | .stepChoose => Sys2Proof.Machine.execStepChoose s
  | .stepAdmit num => Sys2Proof.Machine.execStepAdmit num s
  | .reservationRelease num => Sys2Proof.Machine.execReservationRelease num s
  | .openCtx num => Sys2Proof.Machine.execOpenCtx num s
  | .teardown num => Sys2Proof.Machine.execTeardown num s
  | .teardownDone ctx => Sys2Proof.Machine.execTeardownDone ctx s
  | .setWindow num => Sys2Proof.Machine.execSetWindow num s
  | .loadKey num => Sys2Proof.Machine.execLoadKey num s
  | .clearKey num => Sys2Proof.Machine.execClearKey num s
  | .setAdapter num => Sys2Proof.Machine.execSetAdapter num s
  | .loadImage num => Sys2Proof.Machine.execLoadImage num s
  | .imageLoaded n => Sys2Proof.Machine.execImageLoaded n s
  | .imageSourceRefused n => Sys2Proof.Machine.execImageSourceRefused n s
  | .completionRecordWrite r => Sys2Proof.Machine.execCompletionRecordWrite r s
  | .coalesceTimeout r => Sys2Proof.Machine.execCoalesceTimeout r s
  | .msixPendingSend v => Sys2Proof.Machine.execMsixPendingSend v s
  | .nop p => Sys2Proof.Machine.execNop p s
  | .halt p => Sys2Proof.Machine.execHalt p s
  | .wload p => Sys2Proof.Machine.execWload p s
  | .mma p => Sys2Proof.Machine.execMma p s
  | .mmaMerge p => Sys2Proof.Machine.execMmaMerge p s
  | .mmaAdapt p => Sys2Proof.Machine.execMmaAdapt p s
  | .drain p => Sys2Proof.Machine.execDrain p s
  | .accClear p => Sys2Proof.Machine.execAccClear p s
  | .accScale p => Sys2Proof.Machine.execAccScale p s
  | .vadd p => Sys2Proof.Machine.execVadd p s
  | .vmul p => Sys2Proof.Machine.execVmul p s
  | .vfma p => Sys2Proof.Machine.execVfma p s
  | .vmax p => Sys2Proof.Machine.execVmax p s
  | .vmin p => Sys2Proof.Machine.execVmin p s
  | .vcmp p => Sys2Proof.Machine.execVcmp p s
  | .vselect p => Sys2Proof.Machine.execVselect p s
  | .vcvt p => Sys2Proof.Machine.execVcvt p s
  | .vsfuExp p => Sys2Proof.Machine.execVsfuExp p s
  | .vsfuLog p => Sys2Proof.Machine.execVsfuLog p s
  | .vsfuReciprocal p => Sys2Proof.Machine.execVsfuReciprocal p s
  | .vsfuRsqrt p => Sys2Proof.Machine.execVsfuRsqrt p s
  | .vsfuTanh p => Sys2Proof.Machine.execVsfuTanh p s
  | .vsfuSigmoid p => Sys2Proof.Machine.execVsfuSigmoid p s
  | .vsfuGelu p => Sys2Proof.Machine.execVsfuGelu p s
  | .vreduceSum p => Sys2Proof.Machine.execVreduceSum p s
  | .vreduceMax p => Sys2Proof.Machine.execVreduceMax p s
  | .vreduceMin p => Sys2Proof.Machine.execVreduceMin p s
  | .vsoftmax p => Sys2Proof.Machine.execVsoftmax p s
  | .vnormRms p => Sys2Proof.Machine.execVnormRms p s
  | .vnormLayer p => Sys2Proof.Machine.execVnormLayer p s
  | .vrandUniform p => Sys2Proof.Machine.execVrandUniform p s
  | .vrandRaw p => Sys2Proof.Machine.execVrandRaw p s
  | .vtopk p => Sys2Proof.Machine.execVtopk p s
  | .vgather p => Sys2Proof.Machine.execVgather p s
  | .vscatter p => Sys2Proof.Machine.execVscatter p s
  | .lmove p => Sys2Proof.Machine.execLmove p s
  | .tmovePull p => Sys2Proof.Machine.execTmovePull p s
  | .tmovePush p => Sys2Proof.Machine.execTmovePush p s
  | .barrowInbound p => Sys2Proof.Machine.execBarrowInbound p s
  | .barrowOutbound p => Sys2Proof.Machine.execBarrowOutbound p s
  | .ringCfg p => Sys2Proof.Machine.execRingCfg p s
  | .twait p => Sys2Proof.Machine.execTwait p s
  | .tsignal p => Sys2Proof.Machine.execTsignal p s
  | .taddRemote p => Sys2Proof.Machine.execTaddRemote p s
  | .fence p => Sys2Proof.Machine.execFence p s
  | .loopD p => Sys2Proof.Machine.execLoopD p s
  | .endloop p => Sys2Proof.Machine.execEndloop p s
  | .branchTally p => Sys2Proof.Machine.execBranchTally p s
  | .call p => Sys2Proof.Machine.execCall p s
  | .ret p => Sys2Proof.Machine.execRet p s
  | .stepEnd p => Sys2Proof.Machine.execStepEnd p s
  | .descriptorStart p e => Sys2Proof.Machine.execDescriptorStart p e s
  | .descriptorComplete p id => Sys2Proof.Machine.execDescriptorComplete p id s
  | .hubTallySignalLand p n => Sys2Proof.Machine.execHubTallySignalLand p n s
  | .collEnterAllReduce p => Sys2Proof.Machine.execCollEnterAllReduce p s
  | .collEnterReduceScatter p => Sys2Proof.Machine.execCollEnterReduceScatter p s
  | .collEnterAllGather p => Sys2Proof.Machine.execCollEnterAllGather p s
  | .collEnterBroadcast p => Sys2Proof.Machine.execCollEnterBroadcast p s
  | .collEnterPass p => Sys2Proof.Machine.execCollEnterPass p s
  | .stepCommit lead => Sys2Proof.Machine.execStepCommit lead s
  | .stepFail lead => Sys2Proof.Machine.execStepFail lead s
  | .stepReplay lead => Sys2Proof.Machine.execStepReplay lead s
  | .arbitrationRound a raised => Sys2Proof.Machine.execArbitrationRound a raised s
  | .scrubRead p pad bank => Sys2Proof.Machine.execScrubRead p pad bank s
  | .residentRewrite p offset => Sys2Proof.Machine.execResidentRewrite p offset s
  | .coldFrameScrub => Sys2Proof.Machine.execColdFrameScrub s
  | .wipeDone => Sys2Proof.Machine.execWipeDone s
  | .memGroupReceive k gen uncorrectable => Sys2Proof.Machine.execMemGroupReceive k gen uncorrectable s
  | .memOpticalLaneFail k lane => Sys2Proof.Machine.execMemOpticalLaneFail k lane s
  | .memSpareDone k => Sys2Proof.Machine.execMemSpareDone k s
  | .memLaneRetrain k => Sys2Proof.Machine.execMemLaneRetrain k s
  | .memLaneUp k report => Sys2Proof.Machine.execMemLaneUp k report s
  | .memLaneCtlRetrain k => Sys2Proof.Machine.execMemLaneCtlRetrain k s
  | .memoryReplyTimeout k => Sys2Proof.Machine.execMemoryReplyTimeout k s
  | .pageFillDone page => Sys2Proof.Machine.execPageFillDone page s
  | .mirrorResyncDone k => Sys2Proof.Machine.execMirrorResyncDone k s
  | .tierScrubRead module => Sys2Proof.Machine.execTierScrubRead module s
  | .memEvacGo module => Sys2Proof.Machine.execMemEvacGo module s
  | .memMigrateGo page => Sys2Proof.Machine.execMemMigrateGo page s
  | .evacPageCopied => Sys2Proof.Machine.execEvacPageCopied s
  | .evacPageDone => Sys2Proof.Machine.execEvacPageDone s
  | .fabricFrameReceive port control uncorrectable => Sys2Proof.Machine.execFabricFrameReceive port control uncorrectable s
  | .fabLaneFail port lane => Sys2Proof.Machine.execFabLaneFail port lane s
  | .fabSpareDone port => Sys2Proof.Machine.execFabSpareDone port s
  | .portLossOfLight port => Sys2Proof.Machine.execPortLossOfLight port s
  | .portRetrain port => Sys2Proof.Machine.execPortRetrain port s
  | .portUp port => Sys2Proof.Machine.execPortUp port s
  | .fabPortRetrain port => Sys2Proof.Machine.execFabPortRetrain port s
  | .portRetryTimer port => Sys2Proof.Machine.execPortRetryTimer port s
  | .hello port h => Sys2Proof.Machine.execHello port h s
  | .laneChange port map => Sys2Proof.Machine.execLaneChange port map s
  | .resetNotice port cause => Sys2Proof.Machine.execResetNotice port cause s
  | .portDark port => Sys2Proof.Machine.execPortDark port s
  | .discoveryEnd => Sys2Proof.Machine.execDiscoveryEnd s
  | .packetForward port pkt => Sys2Proof.Machine.execPacketForward port pkt s
  | .write port pkt => Sys2Proof.Machine.execWrite port pkt s
  | .tadd port pkt => Sys2Proof.Machine.execTadd port pkt s
  | .circSetup port pkt => Sys2Proof.Machine.execCircSetup port pkt s
  | .circTeardown port pkt => Sys2Proof.Machine.execCircTeardown port pkt s
  | .ack port pkt => Sys2Proof.Machine.execAck port pkt s
  | .replyTimeout tag => Sys2Proof.Machine.execReplyTimeout tag s
  | .tagReuseExpiry tag => Sys2Proof.Machine.execTagReuseExpiry tag s
  | .swap => Sys2Proof.Machine.execSwap s
  | .swapDrainComplete => Sys2Proof.Machine.execSwapDrainComplete s
  | .drainLimitExpiry => Sys2Proof.Machine.execDrainLimitExpiry s
  | .graceExpiry => Sys2Proof.Machine.execGraceExpiry s
  | .resume => Sys2Proof.Machine.execResume s
  | .portDrainEnd port => Sys2Proof.Machine.execPortDrainEnd port s
  | .setup c => Sys2Proof.Machine.execSetup c s
  | .circuitTeardownWrite c => Sys2Proof.Machine.execCircuitTeardownWrite c s
  | .collectiveReady group => Sys2Proof.Machine.execCollectiveReady group s
  | .collectiveAdmit group => Sys2Proof.Machine.execCollectiveAdmit group s
  | .collectiveComplete group => Sys2Proof.Machine.execCollectiveComplete group s
  | .orderTimeout => Sys2Proof.Machine.execOrderTimeout s
  | .enter port pkt => Sys2Proof.Machine.execEnter port pkt s
  | .start port pkt => Sys2Proof.Machine.execStart port pkt s
  | .data port pkt => Sys2Proof.Machine.execData port pkt s
  | .ready port pkt => Sys2Proof.Machine.execReady port pkt s
  | .abort port pkt => Sys2Proof.Machine.execAbort port pkt s
  | .collAck port pkt => Sys2Proof.Machine.execCollAck port pkt s
  | .enterRetry group rank => Sys2Proof.Machine.execEnterRetry group rank s
  | .readyResend lead => Sys2Proof.Machine.execReadyResend lead s
  | .functionLevelReset => Sys2Proof.Machine.execFunctionLevelReset s
  | .flrComplete => Sys2Proof.Machine.execFlrComplete s
  | .hotReset => Sys2Proof.Machine.execHotReset s
  | .linkDown => Sys2Proof.Machine.execLinkDown s
  | .perstNAssert => Sys2Proof.Machine.execPerstNAssert s
  | .perstNRelease => Sys2Proof.Machine.execPerstNRelease s
  | .hostOpticalLaneFail lane => Sys2Proof.Machine.execHostOpticalLaneFail lane s
  | .hostTrafficResume => Sys2Proof.Machine.execHostTrafficResume s
  | .hostReadCompletion tag gen status data => Sys2Proof.Machine.execHostReadCompletion tag gen status data s
  | .hostCompletionTimeout tag => Sys2Proof.Machine.execHostCompletionTimeout tag s
  | .hostWriteAck seq => Sys2Proof.Machine.execHostWriteAck seq s
  | .stagingWrite offset data => Sys2Proof.Machine.execStagingWrite offset data s
  | .stagingRead offset len => Sys2Proof.Machine.execStagingRead offset len s
  | .mctpVdmReceive routing msgType body => Sys2Proof.Machine.execMctpVdmReceive routing msgType body s
  | .setEndpointId ep fromOwner eid => Sys2Proof.Machine.execSetEndpointId ep fromOwner eid s
  | .inputEntersLimits pos par seedbedN eoffN refclk => Sys2Proof.Machine.execInputEntersLimits pos par seedbedN eoffN refclk s
  | .slotChoice => Sys2Proof.Machine.execSlotChoice s
  | .selfTestDone failed hubFailed => Sys2Proof.Machine.execSelfTestDone failed hubFailed s
  | .configurationChoice => Sys2Proof.Machine.execConfigurationChoice s
  | .sectionsApply => Sys2Proof.Machine.execSectionsApply s
  | .lanesTrained reports => Sys2Proof.Machine.execLanesTrained reports s
  | .coldStartDone => Sys2Proof.Machine.execColdStartDone s
  | .reload w value => Sys2Proof.Machine.execReload w value s
  | .reloadMemoryApply => Sys2Proof.Machine.execReloadMemoryApply s
  | .drainCommand w => Sys2Proof.Machine.execDrainCommand w s
  | .resumeCommand w => Sys2Proof.Machine.execResumeCommand w s
  | .recover w => Sys2Proof.Machine.execRecover w s
  | .powerCmdFull w => Sys2Proof.Machine.execPowerCmdFull w s
  | .powerCmdTrim w => Sys2Proof.Machine.execPowerCmdTrim w s
  | .powerCmdMulch w => Sys2Proof.Machine.execPowerCmdMulch w s
  | .powerCmdQuiet w => Sys2Proof.Machine.execPowerCmdQuiet w s
  | .powerCmdDark w => Sys2Proof.Machine.execPowerCmdDark w s
  | .powerTransitionStart => Sys2Proof.Machine.execPowerTransitionStart s
  | .powerTransitionDone => Sys2Proof.Machine.execPowerTransitionDone s
  | .governorUpdate activity => Sys2Proof.Machine.execGovernorUpdate activity s
  | .governorExtraUpdate => Sys2Proof.Machine.execGovernorExtraUpdate s
  | .droopStep die quadrant => Sys2Proof.Machine.execDroopStep die quadrant s
  | .droopRecover die quadrant => Sys2Proof.Machine.execDroopRecover die quadrant s
  | .tempSensorConvert n reading => Sys2Proof.Machine.execTempSensorConvert n reading s
  | .thermalTrip n reading => Sys2Proof.Machine.execThermalTrip n reading s
  | .coolantMeasure inlet outlet dp => Sys2Proof.Machine.execCoolantMeasure inlet outlet dp s
  | .suddenCoolantLoss => Sys2Proof.Machine.execSuddenCoolantLoss s
  | .coolantLossClear => Sys2Proof.Machine.execCoolantLossClear s
  | .mulchControl => Sys2Proof.Machine.execMulchControl s
  | .mulchLow => Sys2Proof.Machine.execMulchLow s
  | .eoffN => Sys2Proof.Machine.execEoffN s
  | .pwrWarnNLow => Sys2Proof.Machine.execPwrWarnNLow s
  | .pwrWarnNRelease => Sys2Proof.Machine.execPwrWarnNRelease s
  | .coolFaultNLow => Sys2Proof.Machine.execCoolFaultNLow s
  | .coolFaultNRelease => Sys2Proof.Machine.execCoolFaultNRelease s
  | .rackHeartbeatLost => Sys2Proof.Machine.execRackHeartbeatLost s
  | .inputLoss => Sys2Proof.Machine.execInputLoss s
  | .inputOvervoltage => Sys2Proof.Machine.execInputOvervoltage s
  | .refclkLoss => Sys2Proof.Machine.execRefclkLoss s
  | .refclkReturn => Sys2Proof.Machine.execRefclkReturn s
  | .stageStall p e => Sys2Proof.Machine.execStageStall p e s
  | .clusterResetDone p pass => Sys2Proof.Machine.execClusterResetDone p pass s
  | .quadrantResetDone domain failed => Sys2Proof.Machine.execQuadrantResetDone domain failed s
  | .spineStall die => Sys2Proof.Machine.execSpineStall die s
  | .computeResetDone failed => Sys2Proof.Machine.execComputeResetDone failed s
  | .resetTimeout level id => Sys2Proof.Machine.execResetTimeout level id s
  | .stepBudget lead => Sys2Proof.Machine.execStepBudget lead s
  | .hubStall state => Sys2Proof.Machine.execHubStall state s
  | .harvestWritten lost => Sys2Proof.Machine.execHarvestWritten lost s
  | .recoveryDone failed => Sys2Proof.Machine.execRecoveryDone failed s
  | .spareBringIn l => Sys2Proof.Machine.execSpareBringIn l s
  | .spareIn l pass => Sys2Proof.Machine.execSpareIn l pass s
  | .rasSpareCtlGo w l => Sys2Proof.Machine.execRasSpareCtlGo w l s
  | .selftestCluster w index => Sys2Proof.Machine.execSelftestCluster w index s
  | .selftestLane w index => Sys2Proof.Machine.execSelftestLane w index s
  | .selftestPort w index => Sys2Proof.Machine.execSelftestPort w index s
  | .selftestController w => Sys2Proof.Machine.execSelftestController w s
  | .selftestDone pass => Sys2Proof.Machine.execSelftestDone pass s
  | .controllerHeartbeat c epoch => Sys2Proof.Machine.execControllerHeartbeat c epoch s
  | .healthReport c lockstep scrub journal => Sys2Proof.Machine.execHealthReport c lockstep scrub journal s
  | .standbyUnhealthy cause => Sys2Proof.Machine.execStandbyUnhealthy cause s
  | .lockstepMismatch => Sys2Proof.Machine.execLockstepMismatch s
  | .takeover => Sys2Proof.Machine.execTakeover s
  | .dualActClear => Sys2Proof.Machine.execDualActClear s
  | .relinquish c epoch => Sys2Proof.Machine.execRelinquish c epoch s
  | .controllerWrite c epoch addr size value => Sys2Proof.Machine.execControllerWrite c epoch addr size value s
  | .deadMan => Sys2Proof.Machine.execDeadMan s
  | .install w target => Sys2Proof.Machine.execInstall w target s
  | .installDone flashOk => Sys2Proof.Machine.execInstallDone flashOk s
  | .graft w target => Sys2Proof.Machine.execGraft w target s
  | .graftHandover => Sys2Proof.Machine.execGraftHandover s
  | .graftPeerHealthy => Sys2Proof.Machine.execGraftPeerHealthy s
  | .microcodeLoad p => Sys2Proof.Machine.execMicrocodeLoad p s
  | .fwuTake c epoch => Sys2Proof.Machine.execFwuTake c epoch s
  | .graftWindowExpiry => Sys2Proof.Machine.execGraftWindowExpiry s
  | .reject w => Sys2Proof.Machine.execReject w s
  | .fallback => Sys2Proof.Machine.execFallback s
  | .fallbackDone => Sys2Proof.Machine.execFallbackDone s
  | .configWrite w target => Sys2Proof.Machine.execConfigWrite w target s
  | .laneCal w engine => Sys2Proof.Machine.execLaneCal w engine s
  | .begin slot => Sys2Proof.Machine.execBegin slot s
  | .block seq len => Sys2Proof.Machine.execBlock seq len s
  | .seedEnd => Sys2Proof.Machine.execSeedEnd s
  | .seedAbort => Sys2Proof.Machine.execSeedAbort s
  | .setRoles w => Sys2Proof.Machine.execSetRoles w s
  | .lifecycle w => Sys2Proof.Machine.execLifecycle w s
  | .wipe w => Sys2Proof.Machine.execWipe w s
  | .fwAuthorise w => Sys2Proof.Machine.execFwAuthorise w s
  | .installKtk w => Sys2Proof.Machine.execInstallKtk w s
  | .clearKtk w => Sys2Proof.Machine.execClearKtk w s
  | .tamper => Sys2Proof.Machine.execTamper s
  | .getVersion ep => Sys2Proof.Machine.execGetVersion ep s
  | .getCapabilities ep => Sys2Proof.Machine.execGetCapabilities ep s
  | .negotiateAlgorithms ep => Sys2Proof.Machine.execNegotiateAlgorithms ep s
  | .getDigests ep => Sys2Proof.Machine.execGetDigests ep s
  | .getCertificate ep offset len => Sys2Proof.Machine.execGetCertificate ep offset len s
  | .challenge ep nonce => Sys2Proof.Machine.execChallenge ep nonce s
  | .getMeasurements ep index sign nonce => Sys2Proof.Machine.execGetMeasurements ep index sign nonce s
  | .spdmSignatureDone => Sys2Proof.Machine.execSpdmSignatureDone s
  | .entdaa addr => Sys2Proof.Machine.execEntdaa addr s
  | .setdasa addr => Sys2Proof.Machine.execSetdasa addr s
  | .i3cMctpReceive msgType body => Sys2Proof.Machine.execI3cMctpReceive msgType body s
  | .getPdrRepositoryInfo => Sys2Proof.Machine.execGetPdrRepositoryInfo s
  | .getPdr handle => Sys2Proof.Machine.execGetPdr handle s
  | .getSensorReading id => Sys2Proof.Machine.execGetSensorReading id s
  | .getStateSensorReadings id => Sys2Proof.Machine.execGetStateSensorReadings id s
  | .setNumericEffecterValue fromOwner id value => Sys2Proof.Machine.execSetNumericEffecterValue fromOwner id value s
  | .getNumericEffecterValue id => Sys2Proof.Machine.execGetNumericEffecterValue id s
  | .pollForPlatformEventMessage => Sys2Proof.Machine.execPollForPlatformEventMessage s
  | .pldmFirmwareUpdate ep offset data => Sys2Proof.Machine.execPldmFirmwareUpdate ep offset data s
  | .activateFirmware ep => Sys2Proof.Machine.execActivateFirmware ep s
  | .timeSyncRequestSend port => Sys2Proof.Machine.execTimeSyncRequestSend port s
  | .timeSyncRequest port m => Sys2Proof.Machine.execTimeSyncRequest port m s
  | .timeSyncResponse port m => Sys2Proof.Machine.execTimeSyncResponse port m s
  | .holdover => Sys2Proof.Machine.execHoldover s
  | .becomeRoot => Sys2Proof.Machine.execBecomeRoot s
  | .logEntryWrite => Sys2Proof.Machine.execLogEntryWrite s
  | .logGap => Sys2Proof.Machine.execLogGap s
  | .logMirrorCopy => Sys2Proof.Machine.execLogMirrorCopy s
  | .configurationRequest write offset value => Sys2Proof.Machine.execConfigurationRequest write offset value s
  | .lightReturns port => Sys2Proof.Machine.execLightReturns port s
  | .hostSpareDone => Sys2Proof.Machine.execHostSpareDone s
  | .replayTimer seq => Sys2Proof.Machine.execReplayTimer seq s
  | .controllerRestartDone c healthy => Sys2Proof.Machine.execControllerRestartDone c healthy s
  | .safeRestartTimeout => Sys2Proof.Machine.execSafeRestartTimeout s
  | .tckRisingEdge tms tdi pads => Sys2Proof.Machine.execTckRisingEdge tms tdi pads s
  | .trstN high => Sys2Proof.Machine.execTrstN high s

end Sys2Proof.Machine
end

