-- ==== Sys2Proof/Safety.lean ====
section
/-! DEFINITION. What counts as a safe run, the canonical form of the stores, and the words in which the statements are written. -/

namespace Sys2Proof.Safety

open Sys2Proof.Machine

/-- The step answers a next state. -/
def Completes (s : State) : Prop := ∃ t, step s = .next t

/-- Every one of the first `k` steps answers a next state. -/
def SafeFor : Nat → State → Prop
  | 0, _ => True
  | k + 1, s => ∃ t, step s = .next t ∧ SafeFor k t

/-- The stores of the part in their canonical form, so that equal contents are equal data: registers, staged sets, clusters, slices
and their code words, tier lines, context slots and the flash without an entry at its default; pads with keys rising, since what an
unlisted pad byte reads as depends on its bank. -/
structure Good (s : State) : Prop where
  regs : mwf regDefault s.regs = true
  staged : msorted s.staged = true
  clusters : mwf cluDefault s.clusters = true
  slice : mwf sliceDefault s.slice = true
  pad : msorted s.pad = true
  sliceFlaw : mwf flawNone s.sliceFlaw = true
  padFlaw : mwf flawNone s.padFlaw = true
  lines : mwf lineDefault s.mem.lines = true
  slots : mwf slotDefault s.disp.slots = true
  flash : mwf flashByte s.flash = true

/-- The command `c` at `s` answers a next state of which `P` holds. -/
def Does (c : Instr) (s : State) (P : State → Prop) : Prop := ∃ t, exec c s = .next t ∧ P t

/-- Block `b` answers `w`: the access reaches the part, a host sees the block, and the block has power (R21, R571, R789). -/
abbrev Opens (s : State) (w : Agent) (b : Nat) : Prop :=
  s.reaches w = true ∧ (w = .host → s.blockSeen b = true) ∧ s.blockOn b = true

/-- A write of `w` to block `b` is accepted: the block answers, and a controller holds the lease (R48, R722). -/
abbrev Accepts (s : State) (w : Agent) (b : Nat) : Prop := Opens s w b ∧ s.holdsLease w = true

/-- Every register outside `A` holds in `t` what it holds in `s`. -/
def RegsBut (A : List Nat) (s t : State) : Prop := ∀ a, a ∉ A → t.reg a = s.reg a

/-- Registers whose write is another row of the table, or more than the access codes of their fields. -/
def ownBases : List Nat :=
  [0x18, 0x100, 0x200, 0x208, 0x100010, 0x200000, 0x201400, 0x320000, 0x500080, 0x500110, 0x500118, 0x600100, 0x600308, 0x601200,
   0x601600, 0x602000, 0x800000, 0x900050, 0x900058, 0xA00000, 0xA00040, 0xA00100, 0xB00008, 0xD00200, 0x3000000]

/-- Is the write of a register no more than the access codes of its fields (R26)? -/
def plainRegister (b a : Nat) (r : RegRow) : Bool :=
  let base := if isCluAddr a then b * 0x10000 + r.base else r.base
  decide (commitReg b ≠ some base) && decide (base ∉ ownBases) && !(isCluAddr a && (decide (r.base = 0x10) || decide (r.base = 0x100)))

/-- Cluster `p` has fetched the descriptor `ws` of a row: it runs a step that neither fails nor replays, the descriptor at its PC is
one of the row, and its block, and the END_PC of a LOOP, read without an uncorrectable code word (R134, R155). -/
structure Fetched (s : State) (p op v : Nat) (s1 : State) (t : Step) (ws : List Word) : Prop where
  may : s.mayIssue p = true
  inside : (s.clu p).past = false
  words : ws = s.progWords p (s.pcOf p)
  row : matchesRow op v ws = true
  read : ∃ u, s.fetch p (s.pcOf p) = (u, true) ∧ u.peek p (s.pcOf p) ws = (s1, true)
  step : s1.stepAt p = some t

/-- Cluster `p` issues the descriptor `ws` of a row: it is fetched, and every check of issue passes (R134, R202). -/
structure Issued (s : State) (p op v : Nat) (s1 : State) (t : Step) (ws : List Word) (locs : Loc × Loc × Loc × Loc) : Prop where
  fetched : Fetched s p op v s1 t ws
  checks : s1.checkIssue p t ws = .ok locs

/-- The step that notes the hub tallies of an issued descriptor (R170). -/
def noted (s : State) (t : Step) (ws : List Word) : State := s.putStep { t with named := namedWith t ws }

/-- The rows that an engine executes, with their cluster, opcode, variant and engine (R186, R203 to R205). -/
def engineRow : Instr → Option (Nat × Nat × Nat × Engine)
  | .wload p => some (p, 0x10, 0, .tensor)
  | .mma p => some (p, 0x11, 0, .tensor)
  | .mmaMerge p => some (p, 0x11, 1, .tensor)
  | .mmaAdapt p => some (p, 0x12, 0, .tensor)
  | .drain p => some (p, 0x13, 0, .tensor)
  | .accClear p => some (p, 0x14, 0, .tensor)
  | .accScale p => some (p, 0x15, 0, .tensor)
  | .vadd p => some (p, 0x20, 0, .vector)
  | .vmul p => some (p, 0x21, 0, .vector)
  | .vfma p => some (p, 0x22, 0, .vector)
  | .vmax p => some (p, 0x23, 0, .vector)
  | .vmin p => some (p, 0x24, 0, .vector)
  | .vcmp p => some (p, 0x25, 0, .vector)
  | .vselect p => some (p, 0x26, 0, .vector)
  | .vcvt p => some (p, 0x27, 0, .vector)
  | .vsfuExp p => some (p, 0x28, 0, .vector)
  | .vsfuLog p => some (p, 0x28, 1, .vector)
  | .vsfuReciprocal p => some (p, 0x28, 2, .vector)
  | .vsfuRsqrt p => some (p, 0x28, 3, .vector)
  | .vsfuTanh p => some (p, 0x28, 4, .vector)
  | .vsfuSigmoid p => some (p, 0x28, 5, .vector)
  | .vsfuGelu p => some (p, 0x28, 6, .vector)
  | .vreduceSum p => some (p, 0x29, 0, .vector)
  | .vreduceMax p => some (p, 0x29, 1, .vector)
  | .vreduceMin p => some (p, 0x29, 2, .vector)
  | .vsoftmax p => some (p, 0x2A, 0, .vector)
  | .vnormRms p => some (p, 0x2B, 0, .vector)
  | .vnormLayer p => some (p, 0x2B, 1, .vector)
  | .vrandUniform p => some (p, 0x2C, 0, .vector)
  | .vrandRaw p => some (p, 0x2C, 1, .vector)
  | .vtopk p => some (p, 0x30, 0, .select)
  | .vgather p => some (p, 0x31, 0, .select)
  | .vscatter p => some (p, 0x32, 0, .select)
  | .lmove p => some (p, 0x40, 0, .move)
  | .tmovePull p => some (p, 0x41, 0, .move)
  | .tmovePush p => some (p, 0x41, 1, .move)
  | .barrowInbound p => some (p, 0x42, 0, .move)
  | .barrowOutbound p => some (p, 0x42, 1, .move)
  | .ringCfg p => some (p, 0x43, 0, .move)
  | _ => none

/-- The rows of the sequencer's own descriptors, with their cluster, opcode and variant (R186, R242 to R250). -/
def controlRow : Instr → Option (Nat × Nat × Nat)
  | .nop p => some (p, 0x00, 0)
  | .halt p => some (p, 0x01, 0)
  | .twait p => some (p, 0x50, 0)
  | .tsignal p => some (p, 0x51, 0)
  | .taddRemote p => some (p, 0x52, 0)
  | .fence p => some (p, 0x53, 0)
  | .loopD p => some (p, 0x58, 0)
  | .endloop p => some (p, 0x59, 0)
  | .branchTally p => some (p, 0x5A, 0)
  | .call p => some (p, 0x5B, 0)
  | .ret p => some (p, 0x5C, 0)
  | .stepEnd p => some (p, 0x5F, 0)
  | .collEnterAllReduce p => some (p, 0x60, 0)
  | .collEnterReduceScatter p => some (p, 0x60, 1)
  | .collEnterAllGather p => some (p, 0x60, 2)
  | .collEnterBroadcast p => some (p, 0x60, 3)
  | .collEnterPass p => some (p, 0x60, 4)
  | _ => none

/-- A collective packet of kind `k` for this chip is taken: it may arrive, it is well formed, its route generation is current and
nothing of it was cut (R500, R509). -/
def CollTaken (s : State) (p : Nat) (k : Packet) (kind : Nat) : Prop :=
  s.mayArrive p k = true ∧ pktType k = ptColl ∧ pkKind k = kind ∧ headOk k = true ∧ k.data.length = 32 * pktLen k ∧
    pktDest k = s.chipId ∧ s.rgenOk p k = true ∧ k.poisoned = false ∧ (kind = ckData ↔ pktLen k ≠ 0) ∧
    (s.takePacket p k).collRefused k = false

def fwuStarted (s : State) (w : Agent) (op target : Nat) : State :=
  (((s.closeLatch w blkFwu).setFld F.FWU_CTL_OP op).setFld F.FWU_CTL_TARGET target).setFld F.FWU_CTL_GO 1

/-- The owner commands of R782: the row, its code, the role it needs, the form of its body and its effect. -/
def OwnerRow (w : Agent) (c : Instr) (code role : Nat) (form : Bytes → Bool)
    (effect : State → Bytes → State × Nat) : Prop :=
  (c = .setRoles w ∧ code = 1 ∧ role = roleAdmin ∧ form = rolesFormOk ∧ effect = State.setRolesEffect w) ∨
  (c = .lifecycle w ∧ code = 2 ∧ role = roleLifecycle ∧ form = (fun b => decide (b.length = 1)) ∧ effect = State.lifecycleEffect w) ∨
  (c = .wipe w ∧ code = 3 ∧ role = roleWipe ∧ form = (fun b => b.isEmpty) ∧ effect = fun s _ => (s.startWipe wipeOwner, ocDone)) ∨
  (c = .fwAuthorise w ∧ code = 4 ∧ role = roleFirmware ∧ form = (fun b => decide (b.length = 64)) ∧ effect = State.authoriseEffect) ∨
  (c = .installKtk w ∧ code = 5 ∧ role = roleKeys ∧ form = ktkFormOk ∧ effect = State.installKtkEffect w) ∨
  (c = .clearKtk w ∧ code = 6 ∧ role = roleKeys ∧ form = (fun b => decide (b.length = 1) && decide (numAt b 0 1 < 16)) ∧
    effect = State.clearKtkEffect w)

/-- The commands that may write the flash. -/
def mayWriteFlash : Instr → Bool
  | .registerWrite .. | .slotChoice | .recover .. | .controllerWrite .. | .install .. | .installDone .. | .graft .. | .fwuTake ..
  | .fallback | .configWrite .. | .block .. | .seedEnd | .seedAbort | .pldmFirmwareUpdate .. | .activateFirmware .. => true
  | _ => false

/-- The commands that may write the cold frame. -/
def mayWriteFrame : Instr → Bool
  | .registerWrite .. | .wipeDone | .slotChoice | .sectionsApply | .reload .. | .reloadMemoryApply
  | .eoffN | .inputLoss | .inputOvervoltage | .healthReport .. | .controllerWrite .. | .install .. | .fwuTake .. | .setRoles ..
  | .lifecycle .. | .wipe .. | .fwAuthorise .. | .tamper | .pldmFirmwareUpdate ..
  | .drainLimitExpiry | .inputEntersLimits .. | .refclkReturn | .swapDrainComplete => true
  | _ => false

/-- The commands that may write the Repair partition. -/
def mayWriteRepair : Instr → Bool
  | .registerWrite .. | .commit .. | .commitGroup .. | .clusterCommitApply .. | .deferredCommitApply .. | .memGroupReceive ..
  | .memOpticalLaneFail .. | .tierScrubRead .. | .memEvacGo .. | .memMigrateGo .. | .evacPageDone | .fabLaneFail ..
  | .laneChange .. | .hostOpticalLaneFail .. | .selfTestDone .. | .clusterResetDone .. | .quadrantResetDone ..
  | .computeResetDone .. | .recoveryDone .. | .spareBringIn .. | .spareIn .. | .selftestDone .. | .controllerWrite .. => true
  | _ => false

/-- The commands that may write the context slots. -/
def mayWriteSlots : Instr → Bool
  | .registerWrite .. | .take .. | .stepMessageEnd .. | .powerCmdDark .. | .powerTransitionDone | .stepAdmit .. | .openCtx ..
  | .teardown .. | .teardownDone .. | .setAdapter .. | .stepCommit .. | .stepFail .. | .stepReplay .. | .selfTestDone .. | .sectionsApply | .reload .. | .reloadMemoryApply | .thermalTrip ..
  | .eoffN | .inputLoss | .inputOvervoltage | .recoveryDone .. | .controllerWrite .. | .deadMan
  | .drainLimitExpiry | .powerCmdFull .. | .powerCmdMulch .. | .powerCmdQuiet .. | .powerCmdTrim .. | .swapDrainComplete => true
  | _ => false

/-- The commands that may write the window sets and the image table. -/
def mayWriteTables : Instr → Bool
  | .registerWrite .. | .controllerWrite .. | .powerCmdDark .. | .powerTransitionDone | .openCtx .. | .teardownDone ..
  | .setWindow .. | .loadImage .. | .eoffN | .inputLoss | .inputOvervoltage
  | .deadMan | .powerCmdFull .. | .powerCmdMulch .. | .powerCmdQuiet .. | .powerCmdTrim .. | .recoveryDone .. | .selfTestDone .. | .thermalTrip .. => true
  | _ => false

/-- The commands that may write the test access port. -/
def mayWriteTap : Instr → Bool
  | .eoffN | .inputLoss | .inputOvervoltage | .tckRisingEdge .. | .trstN .. => true
  | _ => false

/-- The commands that may write the staged sets. -/
def mayWriteStaged : Instr → Bool
  | .registerWrite .. | .commit .. | .commitGroup .. | .sectionsApply | .reload .. | .reloadMemoryApply | .recover ..
  | .tempSensorConvert .. | .eoffN | .inputLoss | .inputOvervoltage | .harvestWritten .. | .takeover | .relinquish ..
  | .controllerWrite .. | .graftHandover | .fallback | .controllerRestartDone ..
  | .drainLimitExpiry | .swapDrainComplete => true
  | _ => false

/-- The commands that may write the configuration space. -/
def mayWriteConfig : Instr → Bool
  | .functionLevelReset | .hotReset | .linkDown | .perstNAssert | .hostOpticalLaneFail .. | .hostReadCompletion ..
  | .hostCompletionTimeout .. | .stagingRead .. | .eoffN | .inputLoss | .inputOvervoltage | .refclkLoss
  | .configurationRequest ..
  | .intakeWrite .. | .stagingWrite .. => true
  | _ => false

/-- The commands that may write the controllers' timers; a controller's write without the lease notes itself there (R722). -/
def mayWriteLeases : Instr → Bool
  | .registerWrite .. | .slotChoice | .recover .. | .tempSensorConvert .. | .eoffN | .inputLoss | .inputOvervoltage
  | .harvestWritten .. | .controllerHeartbeat .. | .healthReport .. | .standbyUnhealthy .. | .lockstepMismatch | .takeover
  | .dualActClear | .relinquish .. | .controllerWrite .. | .graftHandover | .graftPeerHealthy | .fwuTake .. | .fallback
  | .fallbackDone | .controllerRestartDone .. => true
  | .powerCmdFull w | .powerCmdTrim w | .powerCmdMulch w | .powerCmdQuiet w | .powerCmdDark w | .rasSpareCtlGo w _
  | .selftestCluster w _ | .selftestLane w _ | .selftestPort w _ | .selftestController w | .laneReset w _ | .ctxPeekSelWrite w _
  | .tlyAdd w _ _ | .cringHeadWrite w _ _ | .reload w _ | .commit w _ | .commitGroup w _ | .drainCommand w | .resumeCommand w
  | .install w _ | .graft w _ | .reject w | .configWrite w _ | .laneCal w _ | .logReadSelWrite w _ | .setRoles w | .lifecycle w
  | .wipe w | .fwAuthorise w | .installKtk w | .clearKtk w | .glbSnapCtlWrite w _ | .telTempMaxWrite w _ => decide (w ≠ .host)
  | _ => false

/-- The commands that are a write to a register of block `b` by `w`, accepted or turned away as a whole. -/
def gatedRow : Instr → Option (Agent × Nat)
  | .glbSnapCtlWrite w _ | .commitGroup w _ | .reload w _ | .drainCommand w | .resumeCommand w => some (w, blkGlb)
  | .ctxPeekSelWrite w _ => some (w, blkCtx)
  | .logReadSelWrite w _ => some (w, blkLog)
  | .rasSpareCtlGo w _ | .selftestCluster w _ | .selftestLane w _ | .selftestPort w _ | .selftestController w => some (w, blkRas)
  | .install w _ | .graft w _ | .reject w | .configWrite w _ | .laneCal w _ => some (w, blkFwu)
  | _ => none

/-- The commands of the seedbed download interface, which the host alone writes (R800). -/
def seedRow : Instr → Bool
  | .begin _ | .block _ _ | .seedEnd | .seedAbort => true
  | _ => false

/-- The seedbed download interface takes the host's command: in SEEDBED where the host reaches the part, elsewhere where FWU answers
(R570, R800). -/
abbrev SeedAccepts (s : State) : Prop :=
  s.reaches .host = true ∧ (s.devState = dsSeedbed ∨ s.blockSeen blkFwu = true ∧ s.blockOn blkFwu = true)

/-- The bytes that one cluster's slice, or its pad, holds. -/
def localSize (slice : Bool) : Nat := if slice then 0x2000000 else 0x100000

end Sys2Proof.Safety
end

