-- ==== Sys2Proof/WellFormed.lean ====
section
/-! DEFINITION. The well-formed commands: every number within the range of the thing it names (R39, R308, R375, R391, R422, R501,
R577, R652). The meanings do not assume it. -/

namespace Sys2Proof

/-- Is every operand of the command in its range? -/
def Instr.wellFormed : Instr → Bool
  | .registerWrite _ addr size _ => decide (addr < 0x4000000) && decide (0 < size) && decide (size ≤ 8)
  | .controlReadOversize addr len => decide (addr < 0x4000000) && decide (8 < addr % 8 + len)
  | .snapRead _ addr size => decide (addr < 0x4000000) && decide (0 < size) && decide (addr % 8 + size ≤ 8)
  | .snapLatchExpiry _ b => decide (b < 0x310)
  | .glbSnapCtlWrite _ _ => true
  | .commit _ b => decide (b < 0x310)
  | .clusterCommitApply p => decide (p < 264)
  | .deferredCommitApply b => decide (b < 0x310)
  | .commitGroup _ _ => true
  | .ctxPeekSelWrite _ _ => true
  | .logReadSelWrite _ _ => true
  | .tlyAdd _ n _ => decide (n < 16384)
  | .telTempMaxWrite _ i => decide (i < 140)
  | .cringHeadWrite _ r _ => decide (r < 64)
  | .laneReset _ l => decide (l < 16)
  | .intakeWrite _ d => d.all fun d => decide (d.length ≤ 4096)
  | .laneStallTimeout l => decide (l < 16)
  | .take l => decide (l < 16)
  | .creditWrite l => decide (l < 16)
  | .stepMessageEnd _ => true
  | .stepChoose => true
  | .stepAdmit _ => true
  | .reservationRelease _ => true
  | .openCtx _ => true
  | .teardown _ => true
  | .teardownDone ctx => decide (ctx < 65536)
  | .setWindow _ => true
  | .loadKey _ => true
  | .clearKey _ => true
  | .setAdapter _ => true
  | .loadImage _ => true
  | .imageLoaded i => decide (i < 16)
  | .imageSourceRefused i => decide (i < 16)
  | .completionRecordWrite r => decide (r < 64)
  | .coalesceTimeout r => decide (r < 64)
  | .msixPendingSend v => decide (v < 2048)
  | .nop p => decide (p < 264)
  | .halt p => decide (p < 264)
  | .wload p => decide (p < 264)
  | .mma p => decide (p < 264)
  | .mmaMerge p => decide (p < 264)
  | .mmaAdapt p => decide (p < 264)
  | .drain p => decide (p < 264)
  | .accClear p => decide (p < 264)
  | .accScale p => decide (p < 264)
  | .vadd p => decide (p < 264)
  | .vmul p => decide (p < 264)
  | .vfma p => decide (p < 264)
  | .vmax p => decide (p < 264)
  | .vmin p => decide (p < 264)
  | .vcmp p => decide (p < 264)
  | .vselect p => decide (p < 264)
  | .vcvt p => decide (p < 264)
  | .vsfuExp p => decide (p < 264)
  | .vsfuLog p => decide (p < 264)
  | .vsfuReciprocal p => decide (p < 264)
  | .vsfuRsqrt p => decide (p < 264)
  | .vsfuTanh p => decide (p < 264)
  | .vsfuSigmoid p => decide (p < 264)
  | .vsfuGelu p => decide (p < 264)
  | .vreduceSum p => decide (p < 264)
  | .vreduceMax p => decide (p < 264)
  | .vreduceMin p => decide (p < 264)
  | .vsoftmax p => decide (p < 264)
  | .vnormRms p => decide (p < 264)
  | .vnormLayer p => decide (p < 264)
  | .vrandUniform p => decide (p < 264)
  | .vrandRaw p => decide (p < 264)
  | .vtopk p => decide (p < 264)
  | .vgather p => decide (p < 264)
  | .vscatter p => decide (p < 264)
  | .lmove p => decide (p < 264)
  | .tmovePull p => decide (p < 264)
  | .tmovePush p => decide (p < 264)
  | .barrowInbound p => decide (p < 264)
  | .barrowOutbound p => decide (p < 264)
  | .ringCfg p => decide (p < 264)
  | .twait p => decide (p < 264)
  | .tsignal p => decide (p < 264)
  | .taddRemote p => decide (p < 264)
  | .fence p => decide (p < 264)
  | .loopD p => decide (p < 264)
  | .endloop p => decide (p < 264)
  | .branchTally p => decide (p < 264)
  | .call p => decide (p < 264)
  | .ret p => decide (p < 264)
  | .stepEnd p => decide (p < 264)
  | .descriptorStart p _ => decide (p < 264)
  | .descriptorComplete p _ => decide (p < 264)
  | .hubTallySignalLand p n => decide (p < 264) && decide (n < 16384)
  | .collEnterAllReduce p => decide (p < 264)
  | .collEnterReduceScatter p => decide (p < 264)
  | .collEnterAllGather p => decide (p < 264)
  | .collEnterBroadcast p => decide (p < 264)
  | .collEnterPass p => decide (p < 264)
  | .stepCommit lead => decide (lead < 65536)
  | .stepFail lead => decide (lead < 65536)
  | .stepReplay lead => decide (lead < 65536)
  | .arbitrationRound _ _ => true
  | .scrubRead p pad bank => decide (p < 264) && decide (bank < (if pad then 16 else 64))
  | .residentRewrite p _ => decide (p < 264)
  | .coldFrameScrub => true
  | .wipeDone => true
  | .memGroupReceive k _ _ => decide (k < 16)
  | .memOpticalLaneFail k lane => decide (k < 16) && decide (lane.lane < 4)
  | .memSpareDone k => decide (k < 16)
  | .memLaneRetrain k => decide (k < 16)
  | .memLaneUp k _ => decide (k < 16)
  | .memLaneCtlRetrain k => decide (k < 16)
  | .memoryReplyTimeout k => decide (k < 16)
  | .pageFillDone _ => true
  | .mirrorResyncDone k => decide (k < 16)
  | .tierScrubRead module => decide (module < 32)
  | .memEvacGo module => decide (module < 16)
  | .memMigrateGo page => decide (page < 2 ^ 19)
  | .evacPageCopied => true
  | .evacPageDone => true
  | .fabricFrameReceive port _ _ => decide (port < 32)
  | .fabLaneFail port lane => decide (port < 32) && decide (lane.lane < 4)
  | .fabSpareDone port => decide (port < 32)
  | .portLossOfLight port => decide (port < 32)
  | .portRetrain port => decide (port < 32)
  | .portUp port => decide (port < 32)
  | .fabPortRetrain port => decide (port < 32)
  | .portRetryTimer port => decide (port < 32)
  | .hello port _ => decide (port < 32)
  | .laneChange port _ => decide (port < 32)
  | .resetNotice port cause => decide (port < 32) && decide (1 ≤ cause) && decide (cause ≤ 5)
  | .portDark port => decide (port < 32)
  | .discoveryEnd => true
  | .packetForward port _ => decide (port < 32)
  | .write port _ => decide (port < 32)
  | .tadd port _ => decide (port < 32)
  | .circSetup port _ => decide (port < 32)
  | .circTeardown port _ => decide (port < 32)
  | .ack port _ => decide (port < 32)
  | .replyTimeout _ => true
  | .tagReuseExpiry _ => true
  | .swap => true
  | .swapDrainComplete => true
  | .drainLimitExpiry => true
  | .graceExpiry => true
  | .resume => true
  | .portDrainEnd port => decide (port < 32)
  | .setup c => decide (c < 16)
  | .circuitTeardownWrite c => decide (c < 16)
  | .collectiveReady group => decide (group < 4096)
  | .collectiveAdmit group => decide (group < 4096)
  | .collectiveComplete group => decide (group < 4096)
  | .orderTimeout => true
  | .enter port _ => decide (port < 32)
  | .start port _ => decide (port < 32)
  | .data port _ => decide (port < 32)
  | .ready port _ => decide (port < 32)
  | .abort port _ => decide (port < 32)
  | .collAck port _ => decide (port < 32)
  | .enterRetry group rank => decide (group < 4096) && decide (rank < 64)
  | .readyResend lead => decide (lead < 65536)
  | .functionLevelReset => true
  | .flrComplete => true
  | .hotReset => true
  | .linkDown => true
  | .perstNAssert => true
  | .perstNRelease => true
  | .hostOpticalLaneFail lane => decide (lane.lane < 16)
  | .hostTrafficResume => true
  | .hostReadCompletion tag _ _ _ => decide (tag < 768)
  | .hostCompletionTimeout tag => decide (tag < 768)
  | .hostWriteAck _ => true
  | .stagingWrite _ _ => true
  | .stagingRead _ _ => true
  | .mctpVdmReceive _ _ _ => true
  | .setEndpointId _ _ _ => true
  | .inputEntersLimits _ _ _ _ _ => true
  | .slotChoice => true
  | .selfTestDone _ _ => true
  | .configurationChoice => true
  | .sectionsApply => true
  | .lanesTrained _ => true
  | .coldStartDone => true
  | .reload _ _ => true
  | .reloadMemoryApply => true
  | .drainCommand _ => true
  | .resumeCommand _ => true
  | .recover _ => true
  | .powerCmdFull _ => true
  | .powerCmdTrim _ => true
  | .powerCmdMulch _ => true
  | .powerCmdQuiet _ => true
  | .powerCmdDark _ => true
  | .powerTransitionStart => true
  | .powerTransitionDone => true
  | .governorUpdate _ => true
  | .governorExtraUpdate => true
  | .droopStep die quadrant => decide (die < 4) && decide (quadrant < 4)
  | .droopRecover die quadrant => decide (die < 4) && decide (quadrant < 4)
  | .tempSensorConvert i _ => decide (i < 140)
  | .thermalTrip i _ => decide (i < 140)
  | .coolantMeasure _ _ _ => true
  | .suddenCoolantLoss => true
  | .coolantLossClear => true
  | .mulchControl => true
  | .mulchLow => true
  | .eoffN => true
  | .pwrWarnNLow => true
  | .pwrWarnNRelease => true
  | .coolFaultNLow => true
  | .coolFaultNRelease => true
  | .rackHeartbeatLost => true
  | .inputLoss => true
  | .inputOvervoltage => true
  | .refclkLoss => true
  | .refclkReturn => true
  | .stageStall p _ => decide (p < 264)
  | .clusterResetDone p _ => decide (p < 264)
  | .quadrantResetDone domain _ => decide (14 ≤ domain) && decide (domain < 30)
  | .spineStall die => decide (die < 4)
  | .computeResetDone _ => true
  | .resetTimeout _ _ => true
  | .stepBudget lead => decide (lead < 65536)
  | .hubStall _ => true
  | .harvestWritten _ => true
  | .recoveryDone _ => true
  | .spareBringIn l => decide (l < 256)
  | .spareIn l _ => decide (l < 256)
  | .rasSpareCtlGo _ l => decide (l < 256)
  | .selftestCluster _ _ => true
  | .selftestLane _ _ => true
  | .selftestPort _ _ => true
  | .selftestController _ => true
  | .selftestDone _ => true
  | .controllerHeartbeat _ _ => true
  | .healthReport _ _ _ _ => true
  | .standbyUnhealthy _ => true
  | .lockstepMismatch => true
  | .takeover => true
  | .dualActClear => true
  | .relinquish _ _ => true
  | .controllerWrite _ _ addr size _ => decide (addr < 0x4000000) && decide (0 < size) && decide (size ≤ 8)
  | .deadMan => true
  | .install _ _ => true
  | .installDone _ => true
  | .graft _ _ => true
  | .graftHandover => true
  | .graftPeerHealthy => true
  | .microcodeLoad p => decide (p < 264)
  | .fwuTake _ _ => true
  | .graftWindowExpiry => true
  | .reject _ => true
  | .fallback => true
  | .fallbackDone => true
  | .configWrite _ _ => true
  | .laneCal _ engine => decide (engine ≤ 12)
  | .begin slot => decide (slot < 2)
  | .block seq _ => decide (seq < 65536)
  | .seedEnd => true
  | .seedAbort => true
  | .setRoles _ => true
  | .lifecycle _ => true
  | .wipe _ => true
  | .fwAuthorise _ => true
  | .installKtk _ => true
  | .clearKtk _ => true
  | .tamper => true
  | .getVersion _ => true
  | .getCapabilities _ => true
  | .negotiateAlgorithms _ => true
  | .getDigests _ => true
  | .getCertificate _ _ _ => true
  | .challenge _ _ => true
  | .getMeasurements _ _ _ _ => true
  | .spdmSignatureDone => true
  | .entdaa _ => true
  | .setdasa _ => true
  | .i3cMctpReceive _ _ => true
  | .getPdrRepositoryInfo => true
  | .getPdr _ => true
  | .getSensorReading _ => true
  | .getStateSensorReadings _ => true
  | .setNumericEffecterValue _ _ _ => true
  | .getNumericEffecterValue _ => true
  | .pollForPlatformEventMessage => true
  | .pldmFirmwareUpdate _ _ _ => true
  | .activateFirmware _ => true
  | .timeSyncRequestSend port => decide (port < 32)
  | .timeSyncRequest port _ => decide (port < 32)
  | .timeSyncResponse port _ => decide (port < 32)
  | .holdover => true
  | .becomeRoot => true
  | .logEntryWrite => true
  | .logGap => true
  | .logMirrorCopy => true
  | .configurationRequest _ _ _ => true
  | .lightReturns port => decide (port < 32)
  | .hostSpareDone => true
  | .replayTimer _ => true
  | .controllerRestartDone _ _ => true
  | .safeRestartTimeout => true
  | .tckRisingEdge _ _ _ => true
  | .trstN _ => true

end Sys2Proof
end

