-- ==== Sys2Proof/Certificates/Slice0/Obligations.lean ====
section
/-! DEFINITION. The statements for the provers. -/

open Sys2Proof Sys2Proof.Machine Sys2Proof.Safety

/-- A step runs the front command. For every command c and queue rest q, a step at a state whose queue is c followed by q is exec
of c at the state with queue q. (R26.) -/
def Obligations.StepRunsFront : Prop :=
  ∀ (c : Instr) (q : List Instr) (s : State),
    step { s with pending := c :: q } = exec c { s with pending := q }

/-- On an empty queue a step lets one nanosecond pass. With no command waiting a step answers the tick: an unpowered part stays as
it is, a powered one has one more nanosecond on its clock, and its numeric sensors refresh every 100 ms; registers, messages sent, tier
memory, dispatch and clusters stay. That an empty queue lets time pass is the model's choice (log entry 1). (R803, R831, R887.) -/
def Obligations.IdleStepTicks : Prop :=
  ∀ (s : State), s.pending = [] → step s = .next s.tick ∧ (s.off = true → s.tick = s) ∧
    (s.off = false → s.tick.now = s.now + 1) ∧ s.tick.regs = s.regs ∧ s.tick.pending = [] ∧ s.tick.out = s.out ∧
    s.tick.mem = s.mem ∧ s.tick.disp = s.disp ∧ s.tick.clusters = s.clusters ∧
    (s.off = false → s.tick.mgmt.sensed =
      if (s.now + 1) % 100000000 = 0 then (List.range 16).map fun i => s.sensorReading (i + 1) else s.mgmt.sensed)

/-- What reset leaves. State.reset is canonical, its queue and its staged sets are empty, every register reads its reset value,
and the reset values of RAS_HANG_CFG, RAS_ESC_CFG, FWU_GRAFT_CFG.WINDOW_S and RAS_EVENT_COUNT.TOTAL are those of R742, R743, R796
and R751. The values the spec leaves open are the model's (log entry 3) and are not stated. (R742, R743, R796, R751.) -/
def Obligations.ResetLeaves : Prop :=
  Good State.reset ∧ State.reset.pending = [] ∧ (∀ a, State.reset.reg a = regDefault a) ∧ State.reset.staged = [] ∧
  (State.reset.fld F.RAS_HANG_CFG_STEP_BUDGET_MS = 1000 ∧ State.reset.fld F.RAS_HANG_CFG_STALL_US = 10 ∧
    State.reset.fld F.RAS_HANG_CFG_HUB_STALL_US = 1000) ∧
  (State.reset.fld F.RAS_ESC_CFG_CLU_WINDOW_S = 60 ∧ State.reset.fld F.RAS_ESC_CFG_CLU_RESET_LIMIT = 8 ∧
    State.reset.fld F.RAS_ESC_CFG_STRIKE_LIMIT = 3 ∧ State.reset.fld F.RAS_ESC_CFG_QUAD_LIMIT = 4 ∧
    State.reset.fld F.RAS_ESC_CFG_COMPUTE_LIMIT = 2 ∧ State.reset.fld F.RAS_ESC_CFG_UPPER_WINDOW_S = 600) ∧
  State.reset.fld F.FWU_GRAFT_CFG_WINDOW_S = 900 ∧ State.reset.fld F.RAS_EVENT_COUNT_TOTAL = 0

/-- Every step keeps the stores canonical. For every state s whose stores are in canonical form (registers, staged sets, clusters,
slices, pads, their code words, tier lines, context slots, flash), if a step at s answers next t, the stores of t are in canonical
form. (R26, R253, R258, R587.) -/
def Obligations.StepKeepsGood : Prop :=
  ∀ (s t : State), Good s → step s = .next t → Good t

/-- Every command answers a next state and leaves the queue. For every command c and every state s, exec c s answers a next state,
never a fault or a refusal, and the queue of that state is the queue of s. (R26.) -/
def Obligations.EveryCommandAnswers : Prop :=
  ∀ (c : Instr) (s : State), Does c s fun t => t.pending = s.pending

/-- Only a loss of the input turns the clock back. No command but EOFF_N, INPUT_LOSS and INPUT_OVERVOLTAGE changes the present
time; each of these sets it to 0 on a powered part and leaves it on an unpowered one. That the clock counts from power-on is the
model's choice (log entry 1). (R617, R666, R869, R870.) -/
def Obligations.OnlyPowerLossTurnsBackTheClock : Prop :=
  ∀ (c : Instr) (s t : State), exec c s = .next t →
    (c ≠ .eoffN → c ≠ .inputLoss → c ≠ .inputOvervoltage → t.now = s.now) ∧
    (c = .eoffN ∨ c = .inputLoss ∨ c = .inputOvervoltage → t.now = (if s.off then s.now else 0))

/-- Which commands may write the flash, the fuses and the tables. A command outside the list of those that may write it leaves
unchanged: the flash, the cold frame, the Repair partition, the context slots, the window sets and image table, the test access
port, the staged sets, the configuration space, and the controllers' timers. (R293, R587, R309, R346, R822, R880.) -/
def Obligations.StoresStayApart : Prop :=
  ∀ (c : Instr) (s t : State), exec c s = .next t →
    (mayWriteFlash c = false → t.flash = s.flash) ∧ (mayWriteFrame c = false → t.cold = s.cold) ∧
    (mayWriteRepair c = false → t.repair = s.repair) ∧ (mayWriteSlots c = false → t.disp.slots = s.disp.slots) ∧
    (mayWriteTables c = false →
      t.disp.windows = s.disp.windows ∧ t.disp.setTenant = s.disp.setTenant ∧ t.disp.images = s.disp.images) ∧
    (mayWriteTap c = false → t.tap = s.tap) ∧ (mayWriteStaged c = false → t.staged = s.staged) ∧
    (mayWriteConfig c = false → t.host.cfg = s.host.cfg) ∧ (mayWriteLeases c = false → t.ctl = s.ctl)

/-- A write that a block does not take is counted and has no effect. For each row that is a write to one register block: where the
writer cannot reach the part, the state stays; where the host does not see the block, or its power domain is off,
HST_ERR.BUSY_WRITE counts the write up to its maximum and the writer's read latch of the block closes, and nothing else changes;
the write of a controller without the lease is discarded as stale, counted in STALE_WRITES up to its maximum and answered as
refused. The commands of the download interface, which SEEDBED serves too, do nothing where the host does not reach the part. (R570,
R571, R572, R722, R800.) -/
def Obligations.ShutBlocksCountTheWrite : Prop :=
  (∀ (c : Instr) (w : Agent) (b : Nat) (s : State), gatedRow c = some (w, b) →
    (s.reaches w = false → exec c s = .next s) ∧
    (s.reaches w = true → s.holdsLease w = true → w = .host ∧ s.blockSeen b = false ∨ s.blockOn b = false →
      exec c s = .next ((s.closeLatch w b).addSat F.HST_ERR_BUSY_WRITE 1)) ∧
    (s.reaches w = true → s.holdsLease w = false →
      Does c s fun t => t = s.staleWrite (decide (w = .ctlB)) 0 ∧ .ctlAnswer (decide (w = .ctlB)) false ∈ t.out ∧
        t.fld F.RAS_LEASE_STALE_WRITES = min (s.fld F.RAS_LEASE_STALE_WRITES + 1)
          (2 ^ (F.RAS_LEASE_STALE_WRITES.hi + 1 - F.RAS_LEASE_STALE_WRITES.lo) - 1))) ∧
  ∀ (c : Instr) (s : State), seedRow c = true → s.reaches .host = false → exec c s = .next s

/-- A local store reads back and disturbs nothing else. Bytes written to a cluster's slice or pad read back; every other byte of
it, every byte of other clusters and every byte of the other memory reads as before; registers, tier memory, clusters and dispatch
stay. (R253, R258.) -/
def Obligations.LocalStoresReadBack : Prop :=
  ∀ (s : State) (p : Nat) (sl : Bool) (o : Nat) (data : Bytes), o + data.length ≤ localSize sl →
    (s.localWrite p sl o data).localRead p sl o data.length = data ∧
    (∀ q x n, x + n ≤ localSize sl → q ≠ p ∨ x + n ≤ o ∨ o + data.length ≤ x →
      (s.localWrite p sl o data).localRead q sl x n = s.localRead q sl x n) ∧
    (∀ q x n, (s.localWrite p sl o data).localRead q (!sl) x n = s.localRead q (!sl) x n) ∧
    (s.localWrite p sl o data).regs = s.regs ∧ (s.localWrite p sl o data).mem = s.mem ∧
    (s.localWrite p sl o data).clusters = s.clusters ∧ (s.localWrite p sl o data).disp = s.disp

/-- The element-wise vector operations write the rules' results. With operands read and no adder upset pending, VADD, VMUL, VMAX,
VMIN and VCMP write the operation of A and B element by element, VFMA writes A times B plus C with one rounding, and VSELECT
writes A where C is not zero and B elsewhere, each converted to FMT_OUT. (R103, R104, R223, R224, R226.) -/
def Obligations.ElementwiseOperationsCompute : Prop :=
  (∀ (s s1 : State) (p : Nat) (d : Desc) (a b c : List FVal) (op : FVal → FVal → FVal) (adds : Bool),
    (hOpcode d.words = 0x20 ∧ adds = true ∧ op = FVal.add (modeOf d.words)) ∨ (hOpcode d.words = 0x21 ∧ adds = false ∧ op = FVal.mul) ∨
    (hOpcode d.words = 0x23 ∧ adds = false ∧ op = FVal.vmax) ∨ (hOpcode d.words = 0x24 ∧ adds = false ∧ op = FVal.vmin) ∨
    (hOpcode d.words = 0x25 ∧ adds = false ∧ op = fun x y => .fin false (bit (relate (vSubop d.words) x y)) 0) →
    s.readOperands p d true false 0 = (s1, some (a, b, c)) → adds = false ∨ (s1.clu p).upset = false →
    s.execDesc p d = s1.writeValues p d .none ((a.zip b).map fun q => op q.1 q.2) (List.replicate a.length 0)) ∧
  (∀ (s s1 : State) (p : Nat) (d : Desc) (a b c : List FVal), hOpcode d.words = 0x22 →
    s.readOperands p d true true (hFmtB d.words) = (s1, some (a, b, c)) → (s1.clu p).upset = false →
    s.execDesc p d = s1.writeValues p d .none (((a.zip b).zip c).map fun q => (q.1.1.mul q.1.2).add (modeOf d.words) q.2)
      (List.replicate a.length 0)) ∧
  (∀ (s s1 : State) (p : Nat) (d : Desc) (a b c : List FVal), hOpcode d.words = 0x26 →
    s.readOperands p d true true (vselectFmt d.words) = (s1, some (a, b, c)) →
    s.execDesc p d = s1.writeValues p d .none (((a.zip b).zip c).map fun q => if q.2.isZero then q.1.2 else q.1.1)
      (List.replicate a.length 0))

/-- A commit of an empty set clears PENDING and changes nothing. For every writer and block whose COMMIT register is reached, if
the writer has no staged value of the block, COMMIT leaves the state as it was but for PENDING, which is 0, and the writer's read
latch of the block, which any access by a write closes. While an earlier commit of the block still waits, PENDING stays 1, by the
model's choice (log entry 70). (R825, R498, R541.) -/
def Obligations.EmptyCommitClearsPending : Prop :=
  ∀ (s : State) (w : Agent) (b g : Nat), Accepts s w b → commitReg b = some g → s.stagedSet w b = [] →
    (s.commitWaits b = false → exec (.commit w b) s = .next ((s.closeLatch w b).setFld (commitPending g) 0)) ∧
    (s.commitWaits b = true → exec (.commit w b) s = .next (s.closeLatch w b))

/-- Events fill the ring and raise their vectors. Raising an event writes time and information to ring entry TOTAL mod 256, leaves
every other entry, and counts TOTAL up to its maximum; a FAULT or CRIT event then raises VEC_FAULT while FAULT_EN is 1, a WARN
event VEC_WARN while WARN_EN is 1, and an INFO event no vector. (R737, R738.) -/
def Obligations.EventsFillTheRing : Prop :=
  ∀ (s : State) (c x d i : Nat), i = s.fld F.RAS_EVENT_COUNT_TOTAL % 256 →
    ∃ u : State, RegsBut [eventTimeReg i, eventInfoReg i, F.RAS_EVENT_COUNT_TOTAL.reg] s u ∧ u.out = s.out ∧
      u.reg (eventTimeReg i) = s.stepClock ∧ u.reg (eventInfoReg i) = eventInfo c x d ∧
      u.fld F.RAS_EVENT_COUNT_TOTAL = min (s.fld F.RAS_EVENT_COUNT_TOTAL + 1) 0xFFFFFFFF ∧
      (severityOf c = 0 → s.raiseEvent c x d = u) ∧
      (severityOf c = 1 → s.raiseEvent c x d =
        if s.fld F.RAS_EVENT_CFG_WARN_EN = 1 then u.raiseVector (s.fld F.RAS_EVENT_CFG_VEC_WARN) else u) ∧
      (2 ≤ severityOf c → s.raiseEvent c x d =
        if s.fld F.RAS_EVENT_CFG_FAULT_EN = 1 then u.raiseVector (s.fld F.RAS_EVENT_CFG_VEC_FAULT) else u) ∧
      (∀ j, j < 256 → (s.raiseEvent c x d).reg (eventTimeReg j) = u.reg (eventTimeReg j) ∧
        (s.raiseEvent c x d).reg (eventInfoReg j) = u.reg (eventInfoReg j))

/-- The identification register reads 0x1000_996B. In Capture-DR under IDCODE the edge loads 32 bits that spell 0x1000996B, which
is version 1, part number 0x0009, manufacturer 0x4B5 and a 1; the instruction and the registers stay. (R882.) -/
def Obligations.IdentificationReads : Prop :=
  (∀ (s : State) (tms tdi : Bool) (pads : List Bool), s.off = false → s.tap.trst = true → s.tap.state = .capDr → s.tap.ir = tapIdcode →
    Does (.tckRisingEdge tms tdi pads) s fun t => t.tap.shift.length = 32 ∧ numLow t.tap.shift = 0x1000996B ∧
      t.tap.ir = tapIdcode ∧ t.regs = s.regs) ∧
  0x1000996B = 0x1 * 2 ^ 28 + 0x0009 * 2 ^ 12 + 0x4B5 * 2 ^ 1 + 1

/-- A reserved address reads zero and ignores a write. For a word-aligned address that no register has, in a block that the
accessing agent sees: a write leaves registers, staged sets, clusters, tier memory, dispatch and messages as they are, and a read
answers zero and changes nothing else. (R24.) -/
def Obligations.ReservedAddressesAreEmpty : Prop :=
  ∀ (s : State) (w : Agent) (a : Nat) (v : Word), s.reaches w = true → findReg (a / 8 * 8) = none → s.hidden w a = false → a % 8 = 0 →
    (s.holdsLease w = true → Does (.registerWrite w a 8 v) s fun t => t.regs = s.regs ∧ t.staged = s.staged ∧ t.clusters = s.clusters ∧ t.mem = s.mem ∧
      t.disp = s.disp ∧ t.out = s.out) ∧
    exec (.snapRead w a 8) s = .next (s.emit (.readDone w a 8 0))

/-- A register write takes effect under its access codes. A write of 4 or 8 aligned bytes to a register that acts by its access
codes alone leaves that register with the value the codes give and every other register unchanged; a write to an address without a
register changes no register. (R26.) -/
def Obligations.RegisterWriteCompletes : Prop :=
  (∀ (s : State) (w : Agent) (addr size : Nat) (v : Word) (b : Nat) (r : RegRow),
    Accepts s w b → (size = 4 ∨ size = 8) → addr % size = 0 → blockOf addr = some b → findReg (addr / 8 * 8) = some r →
    plainRegister b (addr / 8 * 8) r = true →
    Does (.registerWrite w addr size v) s fun t =>
      t.reg (addr / 8 * 8) =
        r.written (s.reg (addr / 8 * 8)) (accessMask (addr % 8) size) ((v <<< (8 * (addr % 8))) &&& accessMask (addr % 8) size) ∧
      RegsBut [addr / 8 * 8] s t) ∧
  (∀ (s : State) (w : Agent) (addr size : Nat) (v : Word) (b : Nat),
    Accepts s w b → (size = 4 ∨ size = 8) → addr % size = 0 → blockOf addr = some b → findReg (addr / 8 * 8) = none →
    Does (.registerWrite w addr size v) s fun t => t.regs = s.regs)

/-- Reads, oversized reads and read latches. An oversized host read is answered as unsupported and counted as a bad access; a read
answers the register's visible bits shifted and cut, and opens a latch exactly where it touches a SNAP field; an expired latch
closes; GLB_SNAP_CTL latches every block it names at one instant. (R548, R817, R818, R821, R778.) -/
def Obligations.ReadsAndLatchesComplete : Prop :=
  (∀ (s : State) (addr len : Nat), s.hostReach = true → 0 < len → 8 < addr % 8 + len →
    Does (.controlReadOversize addr len) s fun t =>
      t.fld F.HST_ERR_BAD_ACCESS = min (s.fld F.HST_ERR_BAD_ACCESS + 1) 255 ∧ .readUnsupported addr len ∈ t.out) ∧
  (∀ (s : State) (w : Agent) (addr size b : Nat) (r : RegRow), Opens s w b → 0 < size → addr % 8 + size ≤ 8 →
    blockOf addr = some b → findReg (addr / 8 * 8) = some r → s.latchOf w b = none →
    Does (.snapRead w addr size) s fun t =>
      t.out = .readDone w addr size (((s.view (addr / 8 * 8) &&& readMask r) >>> (8 * (addr % 8))) &&& accessMask 0 size) :: s.out ∧
      t.regs = s.regs ∧
      (t.latchOf w b).isSome = (decide (r.base ≠ 0x100100) && decide (snapMask r &&& accessMask (addr % 8) size ≠ 0))) ∧
  (∀ (s : State) (w : Agent) (b : Nat) (l : Latch), s.latchOf w b = some l → s.latchOver l = true →
    Does (.snapLatchExpiry w b) s fun t => t.latchOf w b = none ∧ t.regs = s.regs) ∧
  (∀ (s : State) (w : Agent) (v : Word), Accepts s w blkGlb →
    Does (.glbSnapCtlWrite w v) s fun t =>
      t.regs = s.regs ∧
      ∀ b ∈ namedBlocks (bitsOf v 14 0) ++ (if v.getLsbD 15 then [blkTel] else []),
        ∃ l ∈ t.latches, l.reader = w ∧ l.block = b ∧ l.byGlb = true ∧ l.opened = s.now ∧ l.cap = s.capture b)

/-- Selector, tally, peak, head and lane-reset writes. CTX_PEEK_SEL and LOG_READ_SEL latch the words they select; a host add to a
tally that no step holds adds; TEL_TEMP MAX takes the present temperature; a ring head takes its value; a lane reset empties the
lane's cells and clears its status. Every other register stays. (R368, R847, R375, R848, R356, R341, R337.) -/
def Obligations.SelectorAndCounterWritesComplete : Prop :=
  (∀ (s : State) (w : Agent) (v : Word), Accepts s w blkCtx →
    Does (.ctxPeekSelWrite w v) s fun t =>
      t.fld F.CTX_PEEK_SEL_CONTEXT = bitsOf v 15 0 ∧
      (∀ i < 16, t.reg (F.CTX_PEEK_DATA_WORD.at i).reg = s.slotWord (bitsOf v 15 0) i) ∧
      RegsBut (F.CTX_PEEK_SEL_CONTEXT.reg :: (List.range 16).map fun i => (F.CTX_PEEK_DATA_WORD.at i).reg) s t) ∧
  (∀ (s : State) (w : Agent) (v : Word), Accepts s w blkLog →
    Does (.logReadSelWrite w v) s fun t =>
      (∀ i < 8, t.reg (F.LOG_READ_DATA_WORD.at i).reg =
        BitVec.ofNat 64 (natOfBytes ((((s.ringEntry (bitsOf v 31 0)).getD []).drop (8 * i)).take 8))) ∧
      t.fld F.LOG_READ_SEL_SEQ = bitsOf v 31 0 ∧
      t.fld F.LOG_READ_SEL_MISS = bit (s.ringEntry (bitsOf v 31 0)).isNone ∧
      RegsBut (F.LOG_READ_SEL_SEQ.reg :: (List.range 8).map fun i => (F.LOG_READ_DATA_WORD.at i).reg) s t) ∧
  (∀ (s : State) (w : Agent) (n : Nat) (v : Word), Accepts s w blkTly → n < 16384 → s.holder none n = none →
    Does (.tlyAdd w n v) s fun t =>
      t.tally n = s.tally n + v ∧ RegsBut [(F.TLY_VALUE_VALUE.at n).reg] s t) ∧
  (∀ (s : State) (w : Agent) (i : Nat), Accepts s w blkTel → i < 140 →
    Does (.telTempMaxWrite w i) s fun t =>
      t.fld (F.TEL_TEMP_MAX.at i) = s.fld (F.TEL_TEMP_TEMP.at i) ∧ RegsBut [(F.TEL_TEMP_MAX.at i).reg] s t) ∧
  (∀ (s : State) (w : Agent) (r : Nat) (h : BitVec 32), Accepts s w blkDsp → r < 64 →
    Does (.cringHeadWrite w r h) s fun t =>
      t.fld (F.DSP_CRING_HEAD_HEAD.at r) = h.toNat ∧ RegsBut [(F.DSP_CRING_HEAD_HEAD.at r).reg] s t) ∧
  (∀ (s : State) (w : Agent) (l : Nat), Accepts s w blkDsp → l < 16 →
    Does (.laneReset w l) s fun t =>
      t.fld (F.DSP_LANE_STATUS_STALLED.at l) = 0 ∧ t.fld (F.DSP_LANE_STATUS_OVERRUN.at l) = 0 ∧
      t.fld (F.DSP_LANE_STATUS_STRAY.at l) = 0 ∧ t.fld (F.DSP_LANE_STATUS_ACCEPTED.at l) = 0 ∧
      (∀ c < 64, t.cellEmpty l c = true) ∧ RegsBut [(F.DSP_LANE_STATUS_STALLED.at l).reg] s t)

/-- Intake writes, stalls, takes and credits. An intake write lands its bytes in the cell it addresses, and one that fails ECRC is
discarded and reported; bytes landing in a cell
not yet accepted replace those they cover; a stalled head sets STALLED; a take moves a formed message into the pending list with
the next number, and the take of a TEARDOWN, the first of its context, makes the context CLOSING; a message not formed ends with
MALFORMED, a STEP message as a failed step of its lead; a credit write posts the lane's total to its address. (R336, R341, R337,
R330, R362, R339, R559, R308.) -/
def Obligations.IntakeCompletes : Prop :=
  (∀ (s : State) (l o : Nat) (data : List (Option Byte)), s.hostReach = true → s.devState ≠ dsSeedbed → l < 16 → data ≠ [] →
    o + data.length ≤ 0x4000 → (o + data.length - 1) / 256 = o / 256 →
    exec (.intakeWrite (l * 2 ^ 24 + o) (some data)) s = .next (s.landCell l (o / 256) (o % 256) data)) ∧
  (∀ (s : State) (o : Nat), s.hostReach = true → exec (.intakeWrite o none) s = .next (s.aer 19)) ∧
  (∀ (s : State) (l c o : Nat) (data : List (Option Byte)), data.any Option.isSome = true → s.cellAccepted l c = false →
    (s.landCell l c o data).cellBytes l c = (s.cellBytes l c).zipIdx.map fun b =>
      if o ≤ b.2 then ((data.getD (b.2 - o) none).orElse fun _ => b.1) else b.1) ∧
  (∀ (s : State) (l : Nat), l < 16 → s.cellEmpty l (s.headCell l) = false → s.cellAccepted l (s.headCell l) = false →
    mget zeroNat s.disp.cellSince (64 * l + s.headCell l) + 10000000 ≤ s.now + 1 →
    Does (.laneStallTimeout l) s fun t =>
      t.fld (F.DSP_LANE_STATUS_STALLED.at l) = 1 ∧ RegsBut [(F.DSP_LANE_STATUS_STALLED.at l).reg] s t ∧ t.disp = s.disp) ∧
  (∀ (s : State) (l : Nat) (ws : List Word), l < 16 → s.taking = true → s.fld (F.DSP_LANE_CFG_ENABLE.at l) = 1 →
    s.disp.pend.length < 4096 → s.cellAccepted l (s.headCell l) = true →
    ws = wordsOfBytes 32 ((s.cellBytes l (s.headCell l)).map fun b => b.getD 0) →
    (msgFormed ws = true → Does (.take l) s fun t =>
      t.disp.pend.map (fun m => (m.num, m.words)) = s.disp.pend.map (fun m => (m.num, m.words)) ++ [(s.disp.nextNum, ws)] ∧
      t.takenOf l = (s.takenOf l + 1) % 2 ^ 64 ∧ l ∈ t.disp.creditDue ∧
      RegsBut [(F.DSP_LANE_STATUS_TAKEN.at l).reg] s t ∧
      (msgKind ws ≠ kiTeardown → t.disp.slots = s.disp.slots) ∧
      (msgKind ws = kiTeardown → mgTarget ws ≠ 0 → s.ctxUsable (mgTarget ws) = true →
        (s.disp.pend.any fun m => decide (m.num ≠ s.disp.nextNum) && decide (msgKind m.words = kiTeardown) &&
          decide (mgTarget m.words = mgTarget ws)) = false → t.ctx (mgTarget ws) cfState = ctxClosing)) ∧
    (msgFormed ws = false → Does (.take l) s fun t => ∃ u : State,
      t = (if msgReserved ws = false ∧ msgKind ws = kiStep then u.endStepMsg ws stMalformed 0 else u.endMsg ws stMalformed 0) ∧
      u.disp.pend = s.disp.pend ∧ u.disp.slots = s.disp.slots ∧
      u.takenOf l = (s.takenOf l + 1) % 2 ^ 64 ∧ l ∈ u.disp.creditDue ∧ RegsBut [(F.DSP_LANE_STATUS_TAKEN.at l).reg] s u)) ∧
  (∀ (s : State) (l : Nat), s.disp.creditDue.contains l = true → s.hostStopped = false →
    Does (.creditWrite l) s fun t =>
      t.out = .hostWrite s.host.nextSeq (s.fld (F.DSP_LANE_CREDIT_ADDR_ADDR.at l) * 8) (bytesOfNat 8 (s.takenOf l)) false :: s.out ∧
      l ∉ t.disp.creditDue ∧ t.regs = s.regs)

/-- Steps end in refusal, are chosen, admitted or released. A STEP message with an end is taken off the list and recorded; the
arbitration's winner is marked chosen; a chosen message with no end due whose clusters are idle becomes a step and its attempt
starts; a chosen message no longer eligible loses its reservation. (R344, R345, R347, R346, R173.) -/
def Obligations.StepMessagesComplete : Prop :=
  (∀ (s : State) (num : Nat) (m : Pend) (e : Nat × Nat), s.pendStep num = some m → s.taking = true → s.stepEnd m.words = some e →
    exec (.stepMessageEnd num) s = .next ((s.unpend num).endStepMsg m.words e.1 e.2)) ∧
  (∀ (s : State) (w : Nat) (m : Pend),
    s.winner ((List.range 8).filter fun c => s.candidates.any fun m => decide (s.msgClass m.words = c)) = some w →
    (s.candidates.find? fun m => decide (s.msgClass m.words = w)) = some m → s.dispatching = true →
    Does .stepChoose s fun t =>
      t.disp.pend = (s.disp.pend.map fun x => if x.num = m.num then { x with chosen := true } else x) ∧
      t.disp.slots = s.disp.slots ∧ t.disp.steps = s.disp.steps ∧ t.regs = s.regs) ∧
  (∀ (s : State) (num : Nat) (m : Pend), s.pendStep num = some m → m.chosen = true → s.dispatching = true →
    s.eligible m.words = true → s.stepEnd m.words = none → s.cluOn = true →
    ((s.msgClusters m.words).map s.physOf).all (fun p => decide (s.seqState p = sqIdle) && s.startableOn p && !s.commitDue p) = true →
    (msgMemberList m.words).any s.heldBack = false →
    Does (.stepAdmit num) s fun t => ∃ u : State,
      t = (u.startAttempt { s.newStep m.words with num := num }).noteFound ∧
      u.disp.steps = s.disp.steps ++ [{ s.newStep m.words with num := num }] ∧
      u.disp.pend = s.disp.pend.filter (fun m => decide (m.num ≠ num)) ∧ u.regs = s.regs) ∧
  (∀ (s : State) (num : Nat) (m : Pend), s.pendStep num = some m → m.chosen = true → s.eligible m.words = false →
    Does (.reservationRelease num) s fun t =>
      t.disp.pend = (s.disp.pend.map fun x => if x.num = num then { x with chosen := false } else x) ∧ t.regs = s.regs ∧
      t.disp.slots = s.disp.slots ∧ t.disp.steps = s.disp.steps)

/-- Management messages act or are refused with their detail. OPEN, TEARDOWN, SET_WINDOW, LOAD_KEY, CLEAR_KEY, SET_ADAPTER and
LOAD_IMAGE whose turn it is act where their checks find nothing, a TEARDOWN also where its take began it, and end REFUSED with the
first detail their checks find otherwise; OPEN and LOAD_KEY read their key slot first, which is zeroed where it is uncorrectable.
(R308, R360, R314, R320, R323, R326, R300.) -/
def Obligations.ManagementMessagesComplete : Prop :=
  (∀ (s : State) (num : Nat) (ws : List Word),
    (s.mgmtTurn num kiOpen = some ws → ((s.unpend num).readKeys ws).openDetail ws = none →
      exec (.openCtx num) s = .next (((s.unpend num).readKeys ws).openSlot ws)) ∧
    (s.mgmtTurn num kiTeardown = some ws → s.hasBegun num = true ∨ (s.unpend num).teardownDetail ws = none →
      exec (.teardown num) s = .next ((s.unpend num).startTeardown ws)) ∧
    (s.mgmtTurn num kiSetWindow = some ws → (s.unpend num).windowDetail ws = none →
      exec (.setWindow num) s = .next ((s.unpend num).putWindow ws)) ∧
    (s.mgmtTurn num kiLoadKey = some ws → ((s.unpend num).readKeys ws).loadKeyDetail ws = none →
      ∀ k, ((s.unpend num).readKeys ws).unwrapped ws = some k →
      Does (.loadKey num) s fun t => t.keySlot (mgTarget ws) = k) ∧
    (s.mgmtTurn num kiClearKey = some ws → (s.unpend num).clearKeyDetail ws = none →
      Does (.clearKey num) s fun t => t.keySlot (mgTarget ws) = {}) ∧
    (s.mgmtTurn num kiSetAdapter = some ws → (s.unpend num).adapterDetail ws = none →
      Does (.setAdapter num) s fun t => t.ctx (mgTarget ws) (cfAdapter (mgIndex ws)) = fieldOf ws 8 31 0) ∧
    (s.mgmtTurn num kiLoadImage = some ws → (s.unpend num).imageDetail ws = none →
      exec (.loadImage num) s = .next ((s.unpend num).startImage ws))) ∧
  (∀ (s : State) (num : Nat) (ws : List Word) (d : Nat),
    (s.mgmtTurn num kiOpen = some ws → ((s.unpend num).readKeys ws).openDetail ws = some d →
      exec (.openCtx num) s = .next (((s.unpend num).readKeys ws).endMsg ws stRefused d)) ∧
    (s.mgmtTurn num kiTeardown = some ws → s.hasBegun num = false → (s.unpend num).teardownDetail ws = some d →
      exec (.teardown num) s = .next ((s.unpend num).endMsg ws stRefused d)) ∧
    (s.mgmtTurn num kiSetWindow = some ws → (s.unpend num).windowDetail ws = some d →
      exec (.setWindow num) s = .next ((s.unpend num).endMsg ws stRefused d)) ∧
    (s.mgmtTurn num kiLoadKey = some ws → ((s.unpend num).readKeys ws).loadKeyDetail ws = some d →
      exec (.loadKey num) s = .next (((s.unpend num).readKeys ws).endMsg ws stRefused d)) ∧
    (s.mgmtTurn num kiClearKey = some ws → (s.unpend num).clearKeyDetail ws = some d →
      exec (.clearKey num) s = .next ((s.unpend num).endMsg ws stRefused d)) ∧
    (s.mgmtTurn num kiSetAdapter = some ws → (s.unpend num).adapterDetail ws = some d →
      exec (.setAdapter num) s = .next ((s.unpend num).endMsg ws stRefused d)) ∧
    (s.mgmtTurn num kiLoadImage = some ws → (s.unpend num).imageDetail ws = some d →
      exec (.loadImage num) s = .next ((s.unpend num).endMsg ws stRefused d)))

/-- Teardowns and image loads end, in FULL and TRIM. A teardown whose context has no traffic leaves it FREE; an image whose copy succeeds becomes
LOADED with the slices copied; one whose source is refused becomes EMPTY. (R360, R326, R896.) -/
def Obligations.LongManagementCompletes : Prop :=
  (∀ (s : State) (c : Nat) (x : Teardown), (s.disp.teardowns.find? fun t => decide (t.ctx = c)) = some x → s.taking = true →
    s.hubOn = true → s.ctxTraffic c = false →
    Does (.teardownDone c) s fun t => t.ctx c cfState = ctxFree ∧ ∀ y ∈ t.disp.teardowns, y.ctx ≠ c) ∧
  (∀ (s : State) (i : Nat) (x : Loading), (s.disp.loading.find? fun x => decide (x.image = i)) = some x → s.imageReady i = true →
    (s.copyImage i).2 = .going →
    Does (.imageLoaded i) s fun t =>
      t.imageState i = imgLoaded ∧ (∀ y ∈ t.disp.loading, y.image ≠ i) ∧
      t.slice = (s.copyImage i).1.slice ∧ t.mem = (s.copyImage i).1.mem) ∧
  (∀ (s : State) (i : Nat) (x : Loading), i < 16 → (s.disp.loading.find? fun x => decide (x.image = i)) = some x →
    s.imageReady i = true → (s.copyImage i).2 = .refused →
    Does (.imageSourceRefused i) s fun t =>
      t.imageState i = imgEmpty ∧ (∀ y ∈ t.disp.loading, y.image ≠ i) ∧ t.slice = (s.copyImage i).1.slice)

/-- Completion records, coalesced and pending vectors are sent. The oldest unsent record of an open ring is written, seven words
and then the first with its phase; a ring's coalescing ends at its limit and sends its vector; a pending vector that opens is sent
and its pending bit clears. (R354, R357, R564.) -/
def Obligations.HostSignalsComplete : Prop :=
  (∀ (s : State) (r : Nat) (x : Record), s.hubOn = true → s.ringOpen r = true → ((s.ringRecords r).find? fun x => !x.sent) = some x →
    Does (.completionRecordWrite r) s fun t =>
      let pos := (s.fld (F.DSP_CRING_TAIL_TAIL.at r) + s.ringFlying r) % 2 ^ 32
      let addr := s.fld (F.DSP_CRING_BASE_ADDR.at r) * 64 + 64 * (pos % s.ringSize r)
      let phase := if pos / s.ringSize r % 2 = 0 then 1 else 0
      .hostWrite s.host.nextSeq (addr + 8) (bytesOfWords (x.words.drop 1)) false ∈ t.out ∧
      .hostWrite (s.host.nextSeq + 1) addr (bytesOfWords [fieldPut (wordAt x.words 0) 0 0 phase]) false ∈ t.out ∧
      t.disp.records = markSent r s.disp.records) ∧
  (∀ (s : State) (r : Nat), r < 64 → 0 < (mget (fun _ => {}) s.disp.unsig r).count →
    (mget (fun _ => {}) s.disp.unsig r).oldest + 1000 * s.fld (F.DSP_CRING_CFG_COALESCE_US.at r) ≤ s.now →
    Does (.coalesceTimeout r) s fun t => mget (fun _ => {}) t.disp.unsig r = {} ∧
      (s.vectorOpen (s.fld (F.DSP_CRING_CFG_VECTOR.at r)) = true →
        t.regs = s.regs ∧ t.out = .msix (s.fld (F.DSP_CRING_CFG_VECTOR.at r)) (s.reg (msixAddr (s.fld (F.DSP_CRING_CFG_VECTOR.at r))))
          ((s.reg (msixData (s.fld (F.DSP_CRING_CFG_VECTOR.at r)))).truncate 32) :: s.out)) ∧
  (∀ (s : State) (v : Nat), v < 2048 → (s.reg (pbaReg v)).getLsbD (v % 64) = true → s.vectorOpen v = true →
    Does (.msixPendingSend v) s fun t =>
      (t.reg (pbaReg v)).getLsbD (v % 64) = false ∧ RegsBut [pbaReg v] s t ∧
      t.out = .msix v (s.reg (msixAddr v)) ((s.reg (msixData v)).truncate 32) :: s.out)

/-- Engine descriptors issue, are refused, or wait for their unit. For each row an engine executes: with room in the unit's queue
a checked descriptor is enqueued and the unit starts its next; with eight descriptors waiting for the unit nothing happens. A
descriptor of any row, an engine's or a control descriptor, that fails a check of its issue is refused with its code. (R208, R211,
R216, R221, R104, R150, R225, R228, R231, R235, R237, R241.) -/
def Obligations.EngineDescriptorsIssue : Prop :=
  (∀ (c : Instr) (p op v : Nat) (e : Engine) (s s1 : State) (t : Step) (ws : List Word) (locs : Loc × Loc × Loc × Loc),
    engineRow c = some (p, op, v, e) → ((s.clu p).waiting e).length < 8 → Issued s p op v s1 t ws locs →
    exec c s = .next ((s1.enqueue p t ws locs e).startNext p e)) ∧
  (∀ (c : Instr) (p op v : Nat) (s s1 : State) (t : Step) (ws : List Word) (code : Nat),
    controlRow c = some (p, op, v) ∨ (∃ e, engineRow c = some (p, op, v, e) ∧ ((s.clu p).waiting e).length < 8) →
    Fetched s p op v s1 t ws → s1.checkIssue p t ws = .error code →
    exec c s = .next (s1.refuse p (s.pcOf p) (hOpcode ws) code)) ∧
  (∀ (c : Instr) (p op v : Nat) (e : Engine) (s : State),
    engineRow c = some (p, op, v, e) → 8 ≤ ((s.clu p).waiting e).length → exec c s = .next s)

/-- Control descriptors act, or wait. With its wait met, and for FENCE, STEP_END and COLL_ENTER with every earlier descriptor of the
cluster complete, each control descriptor has the effect its rules give; until then it changes nothing beyond its fetch. (R201,
R162, R249, R242, R243, R161, R244, R245, R156, R248, R173, R506.) -/
def Obligations.ControlDescriptorsComplete : Prop :=
  (∀ (c : Instr) (s s1 : State) (p op v : Nat) (t : Step) (ws : List Word) (locs : Loc × Loc × Loc × Loc),
    controlRow c = some (p, op, v) → Issued s p op v s1 t ws locs → s1.controlReady p ws = false → exec c s = .next s1) ∧
  ∀ (s s1 u : State) (p op v : Nat) (t : Step) (ws : List Word) (locs : Loc × Loc × Loc × Loc),
    Issued s p op v s1 t ws locs → s1.controlReady p ws = true → u = noted s1 t ws →
    (op = 0x00 ∧ v = 0 → exec (.nop p) s = .next ((u.advance p).signal p (selOf (hSignal ws)))) ∧
    (op = 0x50 ∧ v = 0 → exec (.twait p) s = .next ((u.advance p).signal p (selOf (hSignal ws)))) ∧
    (op = 0x01 ∧ v = 0 → exec (.halt p) s = .next ((u.setSeq p sqHalted).refuse p (u.pcOf p) 0x01 rcHalt)) ∧
    (op = 0x53 ∧ v = 0 → exec (.fence p) s = .next ((u.advance p).signal p (selOf (hSignal ws)))) ∧
    (op = 0x51 ∧ v = 0 → ∀ x, selOf (fieldOf ws 2 15 0) = some x →
      (x.hub = true → exec (.tsignal p) s = .next
        ((u.setClu p { u.clu p with landing := (u.clu p).landing ++ [(x.num, fieldOf ws 2 63 32)] }).finish p ws)) ∧
      (x.hub = false → exec (.tsignal p) s = .next
        ((u.addWrap ((F.CLU_LTALLY_VALUE.clu p).at x.num) (fieldOf ws 2 63 32)).finish p ws))) ∧
    (op = 0x5B ∧ v = 0 → exec (.call p) s = .next
      (((u.setClu p { u.clu p with calls := (u.pcOf p + 1) :: (u.clu p).calls }).goto p (fieldOf ws 2 13 0)).signal p
        (selOf (hSignal ws)))) ∧
    (op = 0x5C ∧ v = 0 → ∀ back rest, (u.clu p).calls = back :: rest → exec (.ret p) s = .next
      (((u.setClu p { u.clu p with calls := rest }).goto p back).signal p (selOf (hSignal ws)))) ∧
    (op = 0x58 ∧ v = 0 →
      (65535 < u.loopCount p ws → exec (.loopD p) s = .next (u.refuse p (u.pcOf p) 0x58 rcControl)) ∧
      (u.loopCount p ws ≤ 65535 → exec (.loopD p) s = .next
        (if u.loopCount p ws = 0 then (u.goto p (fieldOf ws 3 13 0 + 1)).signal p (selOf (hSignal ws))
         else (u.setClu p { u.clu p with loops :=
           { body := u.pcOf p + 1, stop := fieldOf ws 3 13 0, count := u.loopCount p ws, idx := 0, calls := (u.clu p).calls.length } ::
             (u.clu p).loops }).finish p ws))) ∧
    (op = 0x59 ∧ v = 0 → ∀ l ls, (u.clu p).loops = l :: ls → exec (.endloop p) s = .next
      (if l.idx + 1 < l.count then
        ((u.setClu p { u.clu p with loops := { l with idx := l.idx + 1 } :: ls }).goto p l.body).signal p (selOf (hSignal ws))
       else (u.setClu p { u.clu p with loops := ls }).finish p ws)) ∧
    (op = 0x5A ∧ v = 0 → ∀ x, selOf (fieldOf ws 2 15 0) = some x → exec (.branchTally p) s = .next
      (if branchHolds (fieldOf ws 2 18 16) x.hub (u.selValue p x) (fieldOf ws 2 63 32) then
        ((u.setClu p { u.clu p with loops := loopsKept (u.clu p).loops (fieldOf ws 3 13 0) }).goto p (fieldOf ws 3 13 0)).signal p
          (selOf (hSignal ws))
       else u.finish p ws)) ∧
    (op = 0x52 ∧ v = 0 →
      (u.selectWindow { t with named := namedWith t ws } (u.clu p).logical (fieldOf ws 2 63 56) = .ok none → exec (.taddRemote p) s =
        .next ((u.putStep { t with named := namedWith t ws, tadds := t.tadds + 1 }).finish p ws)) ∧
      (∀ r, u.selectWindow { t with named := namedWith t ws } (u.clu p).logical (fieldOf ws 2 63 56) = .ok (some r) →
        u.winValid r = true → u.winKind r = wkRemote →
        (u.fabState = fsHeld → exec (.taddRemote p) s = .next (u.replayStep t.lead 6 [])) ∧
        (u.fabState ≠ fsHeld → exec (.taddRemote p) s = .next
          ((u.putStep { t with named := namedWith t ws, tadds := t.tadds + 1, held := t.held ++
            [{ chip := bitsOf (u.winWord r.set r.win 2) 57 52, ctx := bitsOf (u.winWord r.set r.win 2) 15 0
               gen := bitsOf (u.winWord r.set r.win 2) 47 36, win := bitsOf (u.winWord r.set r.win 2) 51 48
               tally := fieldOf ws 2 13 0, amount := fieldOf ws 3 31 0, tenant := u.ctx r.ctx cfTenant }] }).finish p ws)))) ∧
    (op = 0x5F ∧ v = 0 → ∀ u1 t2, u1 = (match selOf (hSignal ws) with
        | none => u.setSeq p sqCommitting
        | some x => if x.hub then (u.setSeq p sqCommitting).tallyStepAdd t.lead x.num 1 else (u.setSeq p sqCommitting).signal p (some x)) →
      u1.stepOf t.lead = some t2 → exec (.stepEnd p) s = .next
        (let t3 : Step := { t2 with reported := t2.reported ++ [(u.clu p).logical], flags := t2.flags ||| (u.clu p).flags
                                    sat := t2.sat + (u.clu p).sat }
         if t3.clusters.all t3.reported.contains then (u1.putStep t3).sendReadies t.lead else u1.putStep t3)) ∧
    (op = 0x60 ∧ v = 0 → exec (.collEnterAllReduce p) s = .next (u.collEnter p ws locs.1 locs.2.1 (selOf (hSignal ws)))) ∧
    (op = 0x60 ∧ v = 1 → exec (.collEnterReduceScatter p) s = .next (u.collEnter p ws locs.1 locs.2.1 (selOf (hSignal ws)))) ∧
    (op = 0x60 ∧ v = 2 → exec (.collEnterAllGather p) s = .next (u.collEnter p ws locs.1 locs.2.1 (selOf (hSignal ws)))) ∧
    (op = 0x60 ∧ v = 3 → exec (.collEnterBroadcast p) s = .next (u.collEnter p ws locs.1 locs.2.1 (selOf (hSignal ws)))) ∧
    (op = 0x60 ∧ v = 4 → exec (.collEnterPass p) s = .next (u.collEnter p ws locs.1 locs.2.1 (selOf (hSignal ws))))

/-- Descriptors start and complete, and hub signals land. The head of a running cluster's unit starts when it may and executes, with
old data where it meets a write of the other port of a pad; a started descriptor whose traffic has ended is done, puts the bytes of an
inbound BARROW in place, and retires unless held; the oldest hub tally signal of a cluster adds its amount
to a tally no other step holds, and waits with the step that holds it otherwise. (R135, R158, R43, R169, R261, R203.) -/
def Obligations.DescriptorsStartAndComplete : Prop :=
  (∀ (s : State) (p : Nat) (e : Engine) (d : Desc) (rest : List Desc), p < 264 → s.seqState p = sqRunning →
    (s.clu p).waiting e = d :: rest → s.startable p d = true →
    ∀ (d1 : Desc) (s1 : State), d1 = { d with started := true, old := s.preImages p d } →
    s1 = s.setClu p { s.clu p with queue := (s.clu p).queue.map fun x => if x.id = d.id then d1 else x } →
    exec (.descriptorStart p e) s = .next
      ((s1.shadowed (!d.onEnginePort) (s.padGranules p d false) (s.padGranules p d true) fun s => (s.execDesc p d1, ())).1.enginePort p
        d1)) ∧
  (∀ (s : State) (p id : Nat) (d : Desc), ((s.clu p).queue.find? fun d => decide (d.id = id)) = some d → d.started = true → d.done = false →
    s.barrowBusy p id = false → (s.clu p).heldUnit d = false →
    Does (.descriptorComplete p id) s fun t => ∃ u v : State, v = s.landBarrow p d ∧
      u = v.setClu p { v.clu p with queue := (v.clu p).queue.map fun x => if x.id = id then { d with done := true } else x } ∧
      (d.landed = [] → u.regs = s.regs) ∧
      t = if (u.clu p).heldMove { d with done := true } = true then u else (u.retire p { d with done := true }).cascade p) ∧
  (∀ (s : State) (p lead : Nat) (x : Nat × Nat) (rest : List (Nat × Nat)), (s.clu p).landing = x :: rest → (s.clu p).lead = some lead →
    (s.holder (some lead) x.1 = none → Does (.hubTallySignalLand p x.1) s fun t =>
      t.tally x.1 = s.tally x.1 + BitVec.ofNat 64 x.2 ∧ (t.clu p).landing = rest ∧ RegsBut [(F.TLY_VALUE_VALUE.at x.1).reg] s t) ∧
    (∀ h, s.holder (some lead) x.1 = some h → exec (.hubTallySignalLand p x.1) s = .next
      ((s.setClu p { s.clu p with landing := rest }).putStep
        { h with adds := h.adds ++ [{ src := some lead, tally := x.1, amount := BitVec.ofNat 64 x.2 }] })))

/-- Steps commit, fail and replay. A step that may commit sends its held adds, commits slots and collectives, counts, applies
tallies and posts an OK record; a failed step ends with its failure; a step that may replay releases the clusters a
spare has taken the place of, restores tallies, counts and starts its next attempt. (R174, R176, R178, R182.) -/
def Obligations.StepsEndAsTheRulesSay : Prop :=
  (∀ (s : State) (lead : Nat) (t : Step), s.stepOf lead = some t → s.mayCommit t = true →
    Does (.stepCommit lead) s fun u => ∃ v : State,
      v = (t.held.foldl (fun s h => s.sendTadd h) ((s.commitSlots t).commitColls lead)) ∧
      u = ((((t.map.foldl (fun s m => s.release m.2)
        ((((t.map.foldl (fun (s : State) m => (s.numstatMerge m.2).addSat (F.CLU_STEP_COUNT_COMMIT_COUNT.clu m.2) 1) v).dropStep
          lead).keepAdds lead).applyAdds t.adds)).reopen t.members).postRecord (s.ctx lead cfCring) (s.stepRecord t { status := stOk })).noteCollWait t)) ∧
  (∀ (s : State) (lead : Nat) (t : Step) (f : FailInfo), s.stepOf lead = some t → s.inService = true → s.failure t = some f →
    exec (.stepFail lead) s = .next (s.endStep t f)) ∧
  (∀ (s : State) (lead : Nat) (t : Step), s.stepOf lead = some t → s.mayReplay t = true →
    exec (.stepReplay lead) s = .next
      (t.clusters.foldl (fun (s : State) l => s.addSat (F.CLU_STEP_COUNT_REPLAY_COUNT.clu (s.physOf l)) 1)
        (((t.map.filter fun m => decide (s.physOf m.1 ≠ m.2)).foldl (fun s m => s.release m.2)
          (((s.restoreTallies t.holds).dropAdds lead).setCtx lead cfReplays ((s.ctx lead cfReplays + 1) % 2 ^ 32))).startAttempt
            { t with attempt := t.attempt + 1 })))

/-- Arbitration rounds, scrubs, repairs and the end of a wipe. Each arbiter runs its round on the requesters raised; a scrub read
advances the bank's row and reads its granule or two; a resident repair rewrites the code word from its master; the key slots are
scrubbed; a wipe ends with its causes shown. (R266, R280, R281, R300, R303.) -/
def Obligations.ArbitersAndScrubsComplete : Prop :=
  (∀ (s : State) (k : Nat) (raised : List Nat), k < 16 →
    exec (.arbitrationRound (.memLane k) raised) s = .next (s.arbRound (.memLane k) raised).1) ∧
  (∀ (s : State) (p b : Nat) (raised : List Nat), p < 264 → b < 16 →
    exec (.arbitrationRound (.padEngine p b) raised) s = .next (s.bankRound p (.padEngine p b) raised) ∧
    exec (.arbitrationRound (.padBarrow p b) raised) s = .next (s.bankRound p (.padBarrow p b) raised)) ∧
  (∀ (s : State) (p b : Nat) (raised : List Nat), p < 264 → b < 64 →
    exec (.arbitrationRound (.slice p b) raised) s = .next (s.bankRound p (.slice p b) raised)) ∧
  (∀ (s : State) (p : Nat) (reply : Bool) (raised : List Nat), p < 32 →
    exec (.arbitrationRound (.plane p reply) raised) s = .next (s.planeRound p reply) ∧
    exec (.arbitrationRound (.slot p) raised) s = .next (s.slotRound p)) ∧
  (∀ (s : State) (p bank : Nat), p < 264 → bank < 64 → s.cluOn = true → s.cfld p F.CLU_SCRUB_CFG_ENABLE = 1 →
    s.bankCfg p bank = 0 ∨ bank ∈ (s.clu p).awake →
    exec (.scrubRead p false bank) s = .next
      ((s.setClu p { s.clu p with scrubNext := mset (fun _ => 0) (s.clu p).scrubNext bank
                                                ((mget (fun _ => 0) (s.clu p).scrubNext bank + 1) % scrubRows false) }).scrubGranule p false
        (scrubOffset false bank (mget (fun _ => 0) (s.clu p).scrubNext bank)))) ∧
  (∀ (s : State) (p bank : Nat), p < 264 → bank < 16 → s.cluOn = true → s.cfld p F.CLU_SCRUB_CFG_ENABLE = 1 →
    s.bankCfg p (64 + bank) = 0 ∨ 64 + bank ∈ (s.clu p).awake →
    exec (.scrubRead p true bank) s = .next
      (((s.setClu p { s.clu p with scrubNext := mset (fun _ => 0) (s.clu p).scrubNext (64 + bank)
                                                 ((mget (fun _ => 0) (s.clu p).scrubNext (64 + bank) + 1) % scrubRows true) }).scrubGranule p true
        (scrubOffset true bank (mget (fun _ => 0) (s.clu p).scrubNext (64 + bank)))).scrubGranule p true
        (scrubOffset true bank (mget (fun _ => 0) (s.clu p).scrubNext (64 + bank)) + 64))) ∧
  (∀ (s s1 : State) (p o line : Nat), p < 264 → s.ras.repairs.contains (p, o) = true → s.inService = true → s.cluOn = true →
    ((s.logicalAt p).bind fun l => s.masterLine l o) = some line → copyLine p line o (s, .going) = (s1, .going) →
    Does (.residentRewrite p o) s fun t =>
      t.slice = s1.slice ∧ (p, o) ∉ t.ras.repairs ∧ t.cfld p F.CLU_MEM_ERR_RESIDENT_REPAIR = 1) ∧
  (∀ (s : State), s.off = false → exec .coldFrameScrub s = .next ((s.disp.keys.map (·.1)).foldl State.checkKey s)) ∧
  (∀ (s : State) (c : Nat), s.cold.wiping = some c → s.off = false →
    Does .wipeDone s fun t =>
      t.cold.wiping = none ∧ t.cold.eraseDue = false ∧ t.fld F.SEC_CF_STATUS_WIPE_BUSY = 0 ∧
      t.fld F.SEC_CF_STATUS_CAUSE_TAMPER = c % 2 ∧ t.fld F.SEC_CF_STATUS_CAUSE_LIFECYCLE = c / 2 % 2 ∧
      t.fld F.SEC_CF_STATUS_CAUSE_OWNER = c / 4 % 2)

/-- Memory lanes: groups, failures, spares and training. Groups of another generation are pruned and those of a request answer it;
a failing optical lane books a spare of its engine and holds the lane, or narrows it, or takes it DOWN, and one within its limit of
symbol errors stays; a substitution that completes counts and ends the hold; lanes retrain on fault, command or timeout; a training lane
comes up with its width or goes down. (R379, R381, R382, R418, R423, R600, R687.) -/
def Obligations.MemoryLanesComplete : Prop :=
  (∀ (s : State) (k gen : Nat), k < 16 → s.laneUsable k = true → gen % 4096 ≠ s.fld (F.MEM_LANE_STATUS_LANE_GEN.at k) →
    Does (.memGroupReceive k gen false) s fun t =>
      t.fld (F.MEM_LANE_STATUS_PRUNED.at k) = min (s.fld (F.MEM_LANE_STATUS_PRUNED.at k) + 1) 255 ∧
      RegsBut [(F.MEM_LANE_STATUS_PRUNED.at k).reg] s t ∧ t.mem = s.mem) ∧
  (∀ (s : State) (k gen : Nat) (r : Req), k < 16 → s.laneUsable k = true → gen % 4096 = s.fld (F.MEM_LANE_STATUS_LANE_GEN.at k) →
    (s.mem.reqs.find? fun r => decide (r.lane = k) && r.sent) = some r →
    exec (.memGroupReceive k gen false) s = .next (s.answerReq r).runDueEvac) ∧
  (∀ (s : State) (k gen : Nat), k < 16 → s.laneUsable k = true →
    ((((s.mem.retries ++ [(k, s.now)]).filter fun e => decide (s.now < e.2 + 1000000)).filter fun e => decide (e.1 = k)).length ≤ 64 →
      Does (.memGroupReceive k gen true) s fun t =>
        t.mem.retries = ((s.mem.retries ++ [(k, s.now)]).filter fun e => decide (s.now < e.2 + 1000000)) ∧ t.regs = s.regs)) ∧
  (∀ (s : State) (k : Nat) (x : OpticalLane), s.laneFails x = false → exec (.memOpticalLaneFail k x) s = .next s) ∧
  (∀ (s : State) (k lane : Nat) (x : OpticalLane), k < 16 → lane < 4 → x.lane = lane → s.laneFails x = true →
    s.laneUsable k = true ∨ s.laneState k = mlHeld →
    (mget (fun _ => 0) s.mem.lost k ||| mget (fun _ => 0) s.mem.subs k).testBit lane = false →
    (s.sparesUsed (engineOfLane k) < 2 → Does (.memOpticalLaneFail k x) s fun t =>
      t.laneState k = mlHeld ∧ t.repair.lanes = s.repair.lanes ++ [(engineOfLane k, k, lane)] ∧
      mget (fun _ => 0) t.mem.subs k = (mget (fun _ => 0) s.mem.subs k ||| 2 ^ lane) ∧ t.mem.lost = s.mem.lost ∧
      t.mem.reqs = s.mem.reqs ∧ RegsBut [(F.MEM_LANE_STATUS_STATE.at k).reg, F.LOG_STATUS_LOST.reg] s t) ∧
    (∀ m, m = (mget (fun _ => 0) s.mem.lost k ||| 2 ^ lane) → 2 ≤ s.sparesUsed (engineOfLane k) →
      (laneCount m ≤ 2 → s.laneUsable k = true → exec (.memOpticalLaneFail k x) s = .next (s.showLost k m)) ∧
      (laneCount m ≤ 2 → s.laneState k = mlHeld →
        exec (.memOpticalLaneFail k x) s = .next ((s.showLost k m).setFld (F.MEM_LANE_STATUS_STATE.at k) mlHeld)) ∧
      (2 < laneCount m → exec (.memOpticalLaneFail k x) s = .next ((s.showLost k m).laneDown k)))) ∧
  (∀ (s : State) (k i m : Nat), k < 16 → s.laneState k = mlHeld → m = mget (fun _ => 0) s.mem.subs k →
    (List.range 4).find? (fun i => m.testBit i) = some i →
    Does (.memSpareDone k) s fun t => ∃ u : State, t = u.endHold k ∧ mget (fun _ => 0) u.mem.subs k = m ^^^ 2 ^ i ∧
      u.fld (F.MEM_LANE_STATUS_SPARES.at k) = min 2 (s.fld (F.MEM_LANE_STATUS_SPARES.at k) + 1) ∧ u.repair = s.repair) ∧
  (∀ (s : State) (k : Nat), k < 16 → s.mayTrain = true → s.laneUsable k = true ∨ s.laneState k = mlHeld →
    exec (.memLaneRetrain k) s = .next (s.retrainLane k)) ∧
  (∀ (s : State) (k : Nat) (r : BridgeReport), k < 16 → s.memOn = true ∨ s.leavingDark = true → s.laneState k = mlTraining →
    r.up = true → 2 ≤ r.width →
    exec (.memLaneUp k r) s = .next
      ((((((s.takeReport k r).showWidth k (min r.width 4)).setFld (F.MEM_LANE_CTL_RETRAIN.at k) 0).laneReady
        k).checkTiers).showLease.releaseWaits)) ∧
  (∀ (s : State) (k : Nat) (r : BridgeReport), k < 16 → s.memOn = true ∨ s.leavingDark = true → s.laneState k = mlTraining →
    r.up = false ∨ r.width < 2 →
    exec (.memLaneUp k r) s = .next
      (((((((((s.takeReport k r).showWidth k (if r.up then r.width else 0)).setFld (F.MEM_LANE_CTL_RETRAIN.at k) 0).giveUpLane k []).loseCopies
        k).setFld (F.MEM_LANE_STATUS_SELF_REFRESH.at k) 1).raiseEvent 0x17 k 0).laneReady k).checkTiers.showLease.releaseWaits)) ∧
  (∀ (s : State) (k : Nat), k < 16 → s.off = false → s.blockOn blkMem = true → s.lanesStarted = true →
    exec (.memLaneCtlRetrain k) s = .next (s.retrainLane k)) ∧
  (∀ (s : State) (k : Nat), k < 16 → s.laneUsable k = true →
    (s.mem.reqs.any fun r => decide (r.lane = k) && r.sent && decide (r.since + 50000 ≤ s.now)) = true →
    (s.mayTrain = true → exec (.memoryReplyTimeout k) s = .next (s.retrainLane k)) ∧
    (s.mayTrain = false → exec (.memoryReplyTimeout k) s = .next (s.giveUpLane k [])))

/-- Tier memory: first writes, mirrors, scrubbing and evacuation. A page's first write fills it and releases what waited; a stale
module is copied from its fresh copies and its mark clears; a scrub read cleans a correctable line, repairs another from its fresh copy,
waits for that copy's lane, or poisons it; evacuations and migrations start; a copied page is switched in the page table; a drained one is done and the next
begins. (R401, R408, R410, R412, R414, R415, R426.) -/
def Obligations.TierMemoryCompletes : Prop :=
  (∀ (s : State) (page : Nat), (s.mem.waits.any fun w => decide (pageOf w.line = page)) = true → s.isWritten page = false →
    (s.writePlaces page).isEmpty = false → ((s.writePlaces page).all fun p => s.modReady p.1) = true →
    ∃ u : State, exec (.pageFillDone page) s = .next u.releaseWaits ∧ u.isWritten page = true ∧ u.mem.waits = s.mem.waits ∧
      u.mem.reqs = s.mem.reqs) ∧
  (∀ (s : State) (k : Nat), k < 16 → s.modReady k = true → s.fld (F.MEM_LANE_STATUS_STALE.at k) = 1 →
    ((s.staleOn k).all fun e => !s.missedCopy e.1.1 e.1.2 || (s.modReady e.2.1 && !s.missedCopy e.2.1 e.2.2)) = true →
    ∃ t : State, exec (.mirrorResyncDone k) s = .next t ∧ t.fld (F.MEM_LANE_STATUS_STALE.at k) = 0 ∧
      (∀ e ∈ t.mem.missed, e.1 ≠ k) ∧ k ∉ t.mem.behind ∧ RegsBut [(F.MEM_LANE_STATUS_STALE.at k).reg] s t) ∧
  (∀ (s u s1 : State) (m i key : Nat) (c : Nat × Bool) (pl o : Nat × Nat), m < 32 → s.scrubHours (tierOfModule m) ≠ 0 →
    s.modReady m = true → s.patrolNext m = some (c, i) → pl = s.placeOf c.1 c.2 → o = s.placeOf c.1 (!c.2) →
    key = lineKey pl.1 pl.2 i →
    u = { s with mem := { s.mem with patrol := mset (fun _ => 0) s.mem.patrol m (pl.2 * pageLines + i + 1) } } →
    (∀ x, (mget lineDefault s.mem.lines key).bad = false → (u.askLine pl.1 pl.2 i).checkCopy pl.1 key = (s1, some x) →
      exec (.tierScrubRead m) s = .next (if x = x.clean then s1 else s1.putLine pl.1 pl.2 i x.clean).runDueEvac) ∧
    ((mget lineDefault s.mem.lines key).bad = true → s.isMirrored c.1 = true → s.freshCopy o = true → s.modReachable o.1 = true →
      s.modReady o.1 = false → exec (.tierScrubRead m) s = .next s.runDueEvac) ∧
    (∀ s2 x, (u.askLine pl.1 pl.2 i).checkCopy pl.1 key = (s1, none) → s.isMirrored c.1 = true → s.freshCopy o = true →
      s.modReady o.1 = true → (s1.askLine o.1 o.2 i).checkCopy o.1 (lineKey o.1 o.2 i) = (s2, some x) →
      exec (.tierScrubRead m) s = .next
        ((s2.putLine pl.1 pl.2 i x.clean).countLines m (mget lineDefault s.mem.lines key).mended).runDueEvac) ∧
    ((u.askLine pl.1 pl.2 i).checkCopy pl.1 key = (s1, none) → s.isMirrored c.1 = false → (mget lineDefault s.mem.lines key).poison = false →
      exec (.tierScrubRead m) s = .next (s1.loseLine c.1 i).runDueEvac)) ∧
  (∀ (s : State) (m : Nat), s.off = false → s.blockOn blkMem = true → s.mem.evac = none →
    (m < 16 → exec (.memEvacGo m) s = .next ((s.setFld F.MEM_EVAC_CTL_MODULE m).startEvac m false
      (s.copiesOn m) 1)) ∧
    (m < 2 ^ 19 → exec (.memMigrateGo m) s = .next ((s.setFld F.MEM_MIGRATE_PAGE m).startEvac
      ((s.placeOf m false).1) true [(m, false)] 1))) ∧
  (∀ (s : State) (e : Evac) (m : Nat), s.off = false → s.blockOn blkMem = true → s.mem.evac = some e →
    exec (.memEvacGo m) s = .next (s.setFld F.MEM_EVAC_CTL_MODULE m) ∧ exec (.memMigrateGo m) s = .next (s.setFld F.MEM_MIGRATE_PAGE m)) ∧
  (∀ (s : State) (e : Evac) (mv : PageMove), s.mem.evac = some e → e.cur = some mv → mv.switched = false →
    s.modReady mv.fromMod = true → s.modReady mv.toMod = true →
    ∃ t : State, exec .evacPageCopied s = .next t ∧ t.mem.evac = some { e with cur := some { mv with switched := true } } ∧
      t.placeOf mv.page mv.mirror = ((placeCode mv.toMod mv.toPhys - 1) / 2 ^ 18, (placeCode mv.toMod mv.toPhys - 1) % 2 ^ 18) ∧
      mget (fun _ => 0) t.mem.journal mv.fromPhys = joSwitched ∧ RegsBut [(F.MEM_LANE_STATUS_STALE.at mv.toMod).reg] s t) ∧
  (∀ (s : State) (e : Evac) (mv : PageMove), s.mem.evac = some e → e.cur = some mv → mv.switched = true →
    (s.mem.reqs.any fun r => decide (r.module = mv.fromMod) && decide (r.phys = mv.fromPhys)) = false →
    exec .evacPageDone s = .next
      ((((s.freePool mv.fromMod mv.fromPhys).journalAt mv.fromPhys joDone).addSat F.MEM_EVAC_STATUS_PAGES_DONE 1).nextPage
        { e with cur := none }))

/-- Fabric ports: frames, lanes, training and notices. Frames in sequence are acknowledged with credits and others dropped, asked for
again or resent; failing lanes take spares, at one instant the lower port first, or narrow the port, and one within its limit of symbol
errors stays; ports go down, retrain, retry and come up; lane-change, reset and dark messages have their effects. (R436, R437, R438,
R439, R440, R461, R464, R484, R485, R488, R490, R600.) -/
def Obligations.FabricPortsComplete : Prop :=
  (∀ (s : State) (p : Nat) (cw : BitVec 256), p < 32 → s.portOn p = true →
    (cw.toNat / 2 ^ 193 % 32768 ≠ (s.port p).rxNext → exec (.fabricFrameReceive p cw false) s = .next s) ∧
    (cw.toNat / 2 ^ 193 % 32768 = (s.port p).rxNext → (s.port p).dropping = false ∨ cw.getLsbD 192 = true →
      (cw.toNat / 2 ^ 208 % 65536 < 32768 →
        exec (.fabricFrameReceive p cw false) s = .next ((s.setPort p ((s.port p).afterFrame cw)).sendFrame p false)) ∧
      (32768 ≤ cw.toNat / 2 ^ 208 % 65536 → (lastMs s.now ((s.port p).naksGot ++ [s.now])).length ≤ 64 →
        exec (.fabricFrameReceive p cw false) s = .next
          (((s.setPort p { (s.port p).afterFrame cw with naksGot := lastMs s.now ((s.port p).naksGot ++ [s.now]) }).resendFrom p
            (cw.toNat / 2 ^ 208 % 65536 % 32768)).sendFrame p false))) ∧
    ((lastMs s.now ((s.port p).naksSent ++ [s.now])).length ≤ 64 →
      exec (.fabricFrameReceive p cw true) s = .next
        ((s.setPort p { s.port p with dropping := true, naksSent := lastMs s.now ((s.port p).naksSent ++ [s.now]) }).sendFrame p
          true)) ∧
    (64 < (lastMs s.now ((s.port p).naksSent ++ [s.now])).length →
      exec (.fabricFrameReceive p cw true) s = .next
        (((s.setPort p { s.port p with dropping := true, naksSent := lastMs s.now ((s.port p).naksSent ++ [s.now]) }).sendFrame p
          true).dueRetrain p 7))) ∧
  (∀ (s : State) (p : Nat) (x : OpticalLane), s.laneFails x = false → exec (.fabLaneFail p x) s = .next s) ∧
  (∀ (s : State) (p lane : Nat) (x : OpticalLane), p < 32 → lane < 4 → x.lane = lane → s.laneFails x = true → s.portOn p = true →
    lane ∉ (s.port p).lost → lane ∉ (s.port p).sparing →
    (s.rivalSpare p = none → s.sparesUsed (engineOfPort p) < 2 →
      exec (.fabLaneFail p x) s = .next ((s.bookSpare (engineOfPort p) p lane).holdLane p lane true)) ∧
    (s.rivalSpare p = none → 2 ≤ s.sparesUsed (engineOfPort p) → exec (.fabLaneFail p x) s = .next (s.narrowPort p lane)) ∧
    (∀ r, s.rivalSpare p = some r → Does (.fabLaneFail p x) s fun t => (engineOfPort p, p, lane) ∈ t.repair.lanes)) ∧
  (∀ (s : State) (p lane : Nat) (rest : List Nat), p < 32 → (s.port p).sparing = lane :: rest →
    ∃ u : State, u = (s.setPort p { s.port p with sparing := rest }).sendFull p ∧
      exec (.fabSpareDone p) s = .next
        ((u.setFld (F.FAB_PORT_STATUS_SPARES.at p) (min 2 (u.fld (F.FAB_PORT_STATUS_SPARES.at p) + 1))).raiseEvent 0x18
          (engineOfPort p) (4 * (p % 4) + lane))) ∧
  (∀ (s s1 : State) (p : Nat), p < 32 → s.planned p = true → s.portLit p = true → s1 = s.portDown p 1 →
    exec (.portLossOfLight p) s = .next
      (s1.setPort p { s1.port p with tried := s.now, due := if s.portOn p = true then some 0 else (s1.port p).due })) ∧
  (∀ (s : State) (p : Nat), p < 32 → s.planned p = false → s.portState p = poDark →
    Does (.portLossOfLight p) s fun t => (t.port p).light = false ∧
      (s.memOn = true → t.fld (F.FAB_PORT_STATUS_DISCOVERY.at p) = 0) ∧ (s.memOn = false → t.regs = s.regs) ∧
      RegsBut [(F.FAB_PORT_STATUS_DISCOVERY.at p).reg] s t) ∧
  (∀ (s : State) (p cause : Nat), p < 32 → (s.port p).due = some cause → s.boot.refclk = true → s.mayTrain = true →
    s.planned p = true → s.fld (F.FAB_PORT_CFG_ENABLE.at p) = 1 → s.portState p ≠ poDark →
    exec (.portRetrain p) s = .next (s.beginRetrain p cause)) ∧
  (∀ (s : State) (p : Nat), p < 32 → s.portState p = poTraining → (s.port p).hello = true → exec (.portUp p) s = .next (s.portReady p)) ∧
  (∀ (s : State) (p : Nat), p < 32 → s.off = false → s.blockOn blkFab = true → s.planned p = true →
    s.portOn p = true ∨ s.portState p = poDown → (s.port p).due = none →
    exec (.fabPortRetrain p) s = .next ((s.setFld (F.FAB_PORT_CFG_RETRAIN.at p) 1).dueRetrain p 8)) ∧
  (∀ (s : State) (p : Nat), p < 32 → s.boot.refclk = true → s.mayTrain = true → s.planned p = true →
    s.fabState = fsUp ∨ (s.fabState = fsHeld ∧ s.fld (F.FAB_PORT_STATUS_DOWN_CAUSE.at p) = 1) →
    (s.port p).tried + nsSec ≤ s.now → (s.port p).awaitLight = false →
    s.portState p = poDown ∨ (s.portState p = poTraining ∧ (s.port p).hello = false) →
    exec (.portRetryTimer p) s = .next (s.beginRetrain p 1)) ∧
  (∀ (s : State) (p : Nat) (m : List Nat), p < 32 → s.portOn p = true →
    ∃ u : State, u = (s.setPort p { s.port p with
        farMap := m
        asked := (s.port p).asked.filter fun i => decide (m.getD i 0 < 16 ∨ (s.port p).farMap.getD i 0 = m.getD i 0) }).oweCtrl p ∧
      (∀ i, ((List.range 4).filter fun i => s.farMoved p m i && !(s.port p).lost.contains i) = [i] → u.rivalSpare p = none →
        (u.sparesUsed (engineOfPort p) < 2 →
          exec (.laneChange p m) s = .next ((u.bookSpare (engineOfPort p) p i).holdLane p i false)) ∧
        (2 ≤ u.sparesUsed (engineOfPort p) → exec (.laneChange p m) s = .next (u.narrowPort p i))) ∧
      (((List.range 4).filter fun i => s.farMoved p m i && !(s.port p).lost.contains i) = [] → exec (.laneChange p m) s = .next u) ∧
      exec (.laneChange p m) s = .next
        (((List.range 4).filter fun i => s.farMoved p m i && !(s.port p).lost.contains i).foldl
          (fun (s : State) i => if s.portOn p = true then State.takeSpare 4 s p i false else s) u)) ∧
  (∀ (s : State) (p cause : Nat), p < 32 → 1 ≤ cause → cause ≤ 5 → s.portOn p = true ∨ s.portState p = poTraining →
    exec (.resetNotice p cause) s = .next
      ((s.portDown p (1 + cause)).setPort p { (s.portDown p (1 + cause)).port p with
        awaitLight := decide (cause ≠ 1), due := if cause = 1 then some 0 else none, tried := s.now })) ∧
  (∀ (s : State) (p cause : Nat), p < 32 → cause = 0 ∨ 6 ≤ cause →
    exec (.resetNotice p cause) s = .next (s.addSat F.FAB_DROP_MALFORMED 1)) ∧
  (∀ (s : State) (p : Nat), p < 32 → s.portOn p = true ∨ s.portState p = poTraining →
    exec (.portDark p) s = .next ((s.portDown p 1).setPort p { (s.portDown p 1).port p with tried := s.now }))

/-- Discovery, table swaps and drains. HELLO matches, mismatches or is extra; discovery ends UP or HELD; RESUME discovers again;
SWAP waits for the drain or its limit and exchanges the tables; the grace period and port drains end. (R461, R483, R462, R470,
R471, R472, R466, R476.) -/
def Obligations.DiscoveryCompletes : Prop :=
  (∀ (s : State) (p : Nat) (h : HelloMsg), p < 32 → s.planned p = false → s.portState p = poDark →
    ∃ t : State, exec (.hello p h) s = .next t ∧ (t.port p).light = true ∧
      (s.memOn = true → t.fld (F.FAB_PORT_STATUS_DISCOVERY.at p) = dvExtra) ∧ (s.memOn = false → t.regs = s.regs) ∧
      RegsBut [(F.FAB_PORT_STATUS_DISCOVERY.at p).reg] s t) ∧
  (∀ (s s1 : State) (p : Nat) (h : HelloMsg), p < 32 → s.planned p = true → s.portState p = poTraining →
    s1 = (s.setFld (F.FAB_PORT_STATUS_NEIGHBOUR_CHIP.at p) h.chip).setFld (F.FAB_PORT_STATUS_NEIGHBOUR_PORT.at p) h.port →
    (h.chip = s.planBits p 9 4 ∧ h.port = s.planBits p 14 10 ∧ h.rackId = s.rackId → ∀ s2 : State,
      s2 = ((s1.setFld (F.FAB_PORT_STATUS_DISCOVERY.at p) dvMatch).sendHello p).setPort p
        { s1.port p with lost := (List.range 4).drop h.width } →
      ((s.port p).retrainAt = none → exec (.hello p h) s = .next (s2.portReady p)) ∧
      ((s.port p).retrainAt ≠ none → exec (.hello p h) s = .next (s2.setPort p { s2.port p with hello := true }))) ∧
    (¬ (h.chip = s.planBits p 9 4 ∧ h.port = s.planBits p 14 10 ∧ h.rackId = s.rackId) →
      exec (.hello p h) s = .next
        ((((s1.setFld (F.FAB_PORT_STATUS_DISCOVERY.at p) dvMismatch).sendCtrl p .portDark).setFld
          (F.FAB_PORT_STATUS_STATE.at p) poDark).setFld (F.FAB_PORT_CFG_RETRAIN.at p) 0).showFabric)) ∧
  (∀ (s : State) (t0 : Nat), s.fab.discoverAt = some t0 →
    (∀ p < 32, s.planned p = true → s.portOn p = true) →
    (s.fabState ≠ fsUp →
      ∃ u : State, exec .discoveryEnd s = .next u.startWaiting ∧ u.fab.discoverAt = none ∧ u.fabState = fsUp) ∧
    (s.fabState = fsUp → ∃ t : State, exec .discoveryEnd s = .next t ∧ t.fab.discoverAt = none ∧ t.fabState = fsUp)) ∧
  (∀ (s : State) (t0 p : Nat), s.fab.discoverAt = some t0 → t0 + 400000000 ≤ s.now → p < 32 → s.planned p = true → s.portOn p = false →
    s.portRole p = prRequired → s.fabState ≠ fsUp →
    ∃ t : State, exec .discoveryEnd s = .next t ∧ t.fab.discoverAt = none ∧ t.fabState = fsHeld) ∧
  (∀ (s : State), s.off = false → s.blockOn blkFab = true → s.mayTrain = true → s.fld F.FAB_CTL_RESUME = 0 →
    (s.sect 3).isEmpty = false → s.fld F.FAB_STATUS_STRAP_ERR = 0 →
    s.fld F.FAB_STATUS_PLAN_CHIP_ERR = 0 →
    exec .resume s = .next ((s.setFld F.FAB_CTL_RESUME 1).beginDiscovery false)) ∧
  (∀ (s : State), s.off = false → s.blockOn blkFab = true → s.fld F.FAB_STATUS_SWAP_PENDING = 0 →
    ∃ t : State, exec .swap s = .next t ∧
      t.fld F.FAB_STATUS_SWAP_PENDING = 1 ∧ t.fld F.FAB_CTL_SWAP = 1 ∧ t.fab.swapAt = some s.now ∧
      RegsBut [F.FAB_STATUS_SWAP_PENDING.reg, F.FAB_CTL_SWAP.reg] s t) ∧
  (∀ (s : State), s.fab.swapAt.isSome = true → (s.fab.outq.all fun o => decide (33 ≤ o.input)) = true →
    ((List.range 32).all fun p => (s.port p).holdReq.isNone && (s.port p).holdRep.isNone) = true →
    exec .swapDrainComplete s = .next s.exchangeTables) ∧
  (∀ (s : State) (t0 : Nat), s.fab.swapAt = some t0 → t0 + 1000 * s.fld F.FAB_TIMER_CFG_DRAIN_LIMIT_US ≤ s.now →
    ∃ t : State, exec .drainLimitExpiry s = .next t ∧ t.fld F.FAB_STATUS_SWAP_FORCED = 1 ∧ RegsBut [F.FAB_STATUS_SWAP_FORCED.reg] s.exchangeTables t) ∧
  (∀ (s : State), s.fld F.FAB_STATUS_GRACE = 1 → s.fab.graceAt + 1000000 * s.fld F.FAB_TIMER_CFG_GRACE_MS ≤ s.now →
    ∃ t : State, exec .graceExpiry s = .next t ∧ t.fld F.FAB_STATUS_GRACE = 0 ∧ RegsBut [F.FAB_STATUS_GRACE.reg] s t ∧ t.fab = s.fab) ∧
  (∀ (s : State) (p cfg : Nat), p < 32 → (s.port p).draining = some cfg → (s.fab.outq.all fun o => decide (o.port ≠ p)) = true →
    (s.port p).holdReq = none → (s.port p).holdRep = none →
    (((List.range 32).all fun q => ((s.applyPortCfg p cfg).port q).draining.isNone) = false →
      exec (.portDrainEnd p) s = .next (s.applyPortCfg p cfg)) ∧
    (((s.applyPortCfg p cfg).commits.any fun c => decide (c.block = 0x60)) = true →
      exec (.portDrainEnd p) s = .next (s.applyPortCfg p cfg)) ∧
    (((List.range 32).all fun q => ((s.applyPortCfg p cfg).port q).draining.isNone) = true →
      ((s.applyPortCfg p cfg).commits.any fun c => decide (c.block = 0x60)) = false →
      exec (.portDrainEnd p) s = .next ((s.applyPortCfg p cfg).setFld F.FAB_COMMIT_PENDING 0).showGroup))

/-- Packets are forwarded or taken. A packet for another chip is routed on with its hop counted; WRITE, TADD, ACK, CIRC_SETUP and
CIRC_TEARDOWN for this chip are taken; an unanswered request times out and its tag is held until it may be used again. (R468,
R449, R477, R481, R450, R452, R517.) -/
def Obligations.PacketsComplete : Prop :=
  (∀ (s : State) (p : Nat) (k : Packet), p < 32 → s.mayArrive p k = true →
    (headOk k = false → exec (.packetForward p k) s = .next ((s.takePacket p k).addSat F.FAB_DROP_MALFORMED 1)) ∧
    (headOk k = true → pktDest k ≠ s.chipId → pktType k ≠ ptCircSetup → pktType k ≠ ptCircDown →
      (s.rgenOk p k = false → exec (.packetForward p k) s = .next ((s.takePacket p k).cutPacket F.FAB_DROP_STALE_RGEN k)) ∧
      (s.rgenOk p k = true → pktHop k = 2 →
        exec (.packetForward p k) s = .next ((s.takePacket p k).cutPacket F.FAB_DROP_HOP_LIMIT k)) ∧
      (s.rgenOk p k = true → pktHop k ≠ 2 → ∀ s1 : State,
        s1 = s.setPort p { s.port p with
          rx := (s.port p).rx.set (s.channelOf p k) ((s.port p).rx.getD (s.channelOf p k) 0 - pktFlits k) } →
        (s.onCircuit p k = none →
          exec (.packetForward p k) s = .next (s1.routePacket p (s.owedFor p (s.bufferOf p k) k) (onward k))) ∧
        (∀ x, s.onCircuit p k = some x → exec (.packetForward p k) s = .next
          (s1.putOut { port := x.port, reply := false, input := 33 + x.slot, pkt := onward k
                       owe := s.owedFor p (s.bufferOf p k) k }))))) ∧
  (∀ (s : State) (p : Nat) (k : Packet), s.mayArrive p k = true → headOk k = true → k.data.length = 32 * pktLen k →
    pktDest k = s.chipId → s.rgenOk p k = true → k.poisoned = false →
    (pktType k = ptWrite → exec (.write p k) s = .next ((s.takePacket p k).takeWrite k)) ∧
    (pktType k = ptTadd → exec (.tadd p k) s = .next ((s.takePacket p k).takeTadd k)) ∧
    (pktType k = ptAck → exec (.ack p k) s = .next ((s.takePacket p k).takeAck k))) ∧
  (∀ (s : State) (p : Nat) (k : Packet), p < 32 → s.mayArrive p k = true → pktType k = ptCircSetup → headOk k = true → s.rgenOk p k = true →
    k.poisoned = false →
    (pktDest k = s.chipId → ∃ u : State, exec (.circSetup p k) s = .next (u.sendReply ((s.takePacket p k).replyTo k akOk)) ∧
      u.fab.slots = (s.takePacket p k).fab.slots ++
        [{ port := 32, slot := 0, share := 0, origin := pktSrc k, circ := bitsOf k.w3 3 0, input := p, dest := s.chipId
           inSlot := (s.takePacket p k).freeInSlot p }]) ∧
    (∀ (out st : Nat) (s2 : State), pktDest k ≠ s.chipId → pktHop k < 2 → pktHop k + 1 < bitsOf k.w2 17 16 →
      out = (if pktHop k = 0 then bitsOf k.w2 9 5 else bitsOf k.w2 14 10) →
      (s.takePacket p k).reserve out (bitsOf k.w2 23 20) (pktSrc k) (bitsOf k.w3 3 0) p (pktDest k) = (s2, st) →
      (st = akOk → exec (.circSetup p k) s = .next
        (s2.putOut { port := out, reply := false, input := p, owe := none
                     pkt := { k with w0 := fieldPut k.w0 51 50 (pktHop k + 1) } })) ∧
      (st ≠ akOk → exec (.circSetup p k) s = .next (s2.sendReply (s2.replyTo k st))))) ∧
  (∀ (s u : State) (p c : Nat) (k : Packet), s.mayArrive p k = true → pktType k = ptCircDown → headOk k = true → s.rgenOk p k = true →
    k.poisoned = false → c = bitsOf k.w3 3 0 →
    u = (s.takePacket p k).releaseSlots (fun x =>
      (decide (x.circ = c) && decide (x.origin = if decide (bitsOf k.w2 17 16 ≠ 0) then pktSrc k else pktDest k)) &&
        decide (x.origin ≠ s.chipId)) →
    (pktDest k ≠ s.chipId → 2 ≤ pktHop k → exec (.circTeardown p k) s = .next (u.cutPacket F.FAB_DROP_HOP_LIMIT k)) ∧
    (pktDest k ≠ s.chipId → pktHop k < 2 → bitsOf k.w2 17 16 = 0 →
      exec (.circTeardown p k) s = .next (u.routePacket p none { k with w0 := fieldPut k.w0 51 50 (pktHop k + 1) })) ∧
    (pktDest k = s.chipId → bitsOf k.w2 17 16 ≠ 0 → exec (.circTeardown p k) s = .next (u.sendReply (u.replyTo k akOk))) ∧
    (pktDest k = s.chipId → s.fld (F.FAB_CIRC_STATE.at c) ≠ ccEstablished → s.fld (F.FAB_CIRC_STATE.at c) ≠ ccSettingUp →
      exec (.circTeardown p k) s = .next (u.sendReply (u.replyTo k akOk))) ∧
    (pktDest k = s.chipId → bitsOf k.w2 17 16 = 0 →
      s.fld (F.FAB_CIRC_STATE.at c) = ccEstablished ∨ s.fld (F.FAB_CIRC_STATE.at c) = ccSettingUp →
      ∃ v : State, v = u.failCircuit c cfPortDown ∧ exec (.circTeardown p k) s = .next (v.sendReply (v.replyTo k akOk)))) ∧
  (∀ (s : State) (tag : Nat) (r : FabReq), (s.fab.reqs.find? fun r => decide (r.tag = tag)) = some r →
    r.sent + 1000 * s.fld F.FAB_TIMER_CFG_REPLY_TIMEOUT_US ≤ s.now → r.kind = .tadd →
    Does (.replyTimeout tag) s fun t =>
      t.fld F.FAB_DROP_TADD_LOST = min (s.fld F.FAB_DROP_TADD_LOST + 1) 255 ∧
      t.fab.heldTags = s.fab.heldTags ++ [(tag, s.now)]) ∧
  (∀ (s : State) (tag : Nat), (s.fab.heldTags.any fun h => decide (h.1 = tag) &&
      decide (h.2 + 1000 * s.fld F.FAB_TIMER_CFG_REPLY_TIMEOUT_US ≤ s.now)) = true →
    Does (.tagReuseExpiry tag) s fun t => ∃ u : State, t = u.startWaiting ∧ u.regs = s.regs ∧
      u.fab.heldTags = s.fab.heldTags.filter (fun h => decide (h.1 ≠ tag)))

/-- Circuits are set up and torn down from their registers. SETUP on an idle circuit with a free slot sends CIRC_SETUP; without
one the circuit fails with its cause; TEARDOWN sends CIRC_TEARDOWN from an established circuit, and from a failed one whose first port
carries traffic; any other failed one is IDLE at once, by the model's choice (log entry 34). (R477, R497.) -/
def Obligations.CircuitsComplete : Prop :=
  (∀ (s s1 : State) (c : Nat), s.off = false → s.blockOn blkFab = true → c < 16 →
    s.fld (F.FAB_CIRC_STATE.at c) = ccIdle ∨ s.fld (F.FAB_CIRC_STATE.at c) = ccFailed → s.fld (F.FAB_CIRC_HOPS.at c) ≠ 0 →
    s.reserve (s.fld (F.FAB_CIRC_PORT_A.at c)) (s.fld (F.FAB_CIRC_SHARE.at c)) s.chipId c 32 (s.fld (F.FAB_CIRC_DEST_CHIP.at c)) =
      (s1, akOk) →
    Does (.setup c) s fun t => ∃ u : State, t = u.sendCirc c ptCircSetup ∧ u.fld (F.FAB_CIRC_STATE.at c) = ccSettingUp ∧
      u.fld (F.FAB_CIRC_CAUSE.at c) = 0 ∧ u.fld (F.FAB_CIRC_SETUP.at c) = 1 ∧ u.fab = s1.fab) ∧
  (∀ (s s1 : State) (c r : Nat), s.off = false → s.blockOn blkFab = true → c < 16 →
    s.fld (F.FAB_CIRC_STATE.at c) = ccIdle ∨ s.fld (F.FAB_CIRC_STATE.at c) = ccFailed → s.fld (F.FAB_CIRC_HOPS.at c) ≠ 0 →
    s.reserve (s.fld (F.FAB_CIRC_PORT_A.at c)) (s.fld (F.FAB_CIRC_SHARE.at c)) s.chipId c 32 (s.fld (F.FAB_CIRC_DEST_CHIP.at c)) =
      (s1, r) → r ≠ akOk →
    exec (.setup c) s = .next (s1.failCircuit c (if r = akNotUp then cfNotUp else cfNoSlot))) ∧
  (∀ (s : State) (c : Nat), s.off = false → s.blockOn blkFab = true → c < 16 →
    (s.fld (F.FAB_CIRC_STATE.at c) = ccEstablished ∨ s.fld (F.FAB_CIRC_STATE.at c) = ccSettingUp ∨
      (s.fld (F.FAB_CIRC_STATE.at c) = ccFailed ∧ s.portOn (s.fld (F.FAB_CIRC_PORT_A.at c)) = true) →
      Does (.circuitTeardownWrite c) s fun t => ∃ u : State, t = u.sendCirc c ptCircDown ∧
        u.fld (F.FAB_CIRC_STATE.at c) = ccTearing ∧ u.fld (F.FAB_CIRC_TEARDOWN.at c) = 1 ∧ u.fld (F.FAB_CIRC_SETUP.at c) = 0) ∧
    (s.fld (F.FAB_CIRC_STATE.at c) = ccFailed → s.portOn (s.fld (F.FAB_CIRC_PORT_A.at c)) = false →
      Does (.circuitTeardownWrite c) s fun t =>
        t.fld (F.FAB_CIRC_STATE.at c) = ccIdle ∧ t.fld (F.FAB_CIRC_CAUSE.at c) = 0 ∧ t.fld (F.FAB_CIRC_TEARDOWN.at c) = 0 ∧ RegsBut [(F.FAB_CIRC_STATE.at c).reg] s t))

/-- Collectives become ready, are admitted and complete. A covered collective becomes READY and enters are sent; an admissible one
reads its contribution and starts; a complete one counts CSEQ and releases its clusters; an ordered wait fails at its timeout;
collective packets are taken; retries and resends go out. (R513, R516, R519, R524, R515, R517, R529, R527, R532, R530.) -/
def Obligations.CollectivesComplete : Prop :=
  (∀ (s : State) (g : Nat) (c : Coll), s.liveColl g = some c → c.ready = none → c.covered = true →
    (s.fabState = fsHeld → exec (.collectiveReady g) s = .next (s.loseColl c)) ∧
    (s.fabState ≠ fsHeld → s.col.early.any (fun e => decide (e.1 = g) && decide (e.2.1 = c.cseq)) = false →
      Does (.collectiveReady g) s fun t => ∃ (c1 : Coll) (u : State), c1 = { c with
          ready := some (s.now, s.col.nextReady), digest := s.collDigest c, mark := (if s.stepOrdered g then s.colMark else 0), enters := [] } ∧
        u.regs = s.regs ∧ u.col.nextReady = s.col.nextReady + 1 ∧
        t = ((((otherRanks c1.n c1.me).foldl (fun s r => s.sendEnter c1 r) (u.putColl c1)).showCollGroup g).showCol))) ∧
  (∀ (s s1 : State) (g : Nat) (c : Coll) (b : Bytes), s.liveColl g = some c → s.admissible c = true →
    s.readContrib c.parts c.words = (s1, some b) →
    exec (.collectiveAdmit g) s = .next
      ((((((s1.putColl { c with admitted := some s.now, contrib := b
                                sendq := ({ c with admitted := some s.now, contrib := b } : Coll).firstPieces }).showCollGroup
        g).showCol.sendOthers
          { c with admitted := some s.now, contrib := b, sendq := ({ c with admitted := some s.now, contrib := b } : Coll).firstPieces }
          ckStart 0 0).progress g c.cseq)).escalateHub)) ∧
  (∀ (s : State) (g : Nat) (c : Coll), s.liveColl g = some c → c.active = true → c.result.isSome = true → c.sendq = [] → c.flying = [] →
    Does (.collectiveComplete g) s fun t => ∃ u : State,
      u = ((s.putColl { c with done := true }).setFld (F.COL_GROUP_STATE_CSEQ.at g) (c.cseq + 1)).showCollGroup g ∧
      u.fld (F.COL_GROUP_STATE_CSEQ.at g) = (c.cseq + 1) % 65536 ∧
      ((∀ d ∈ s.col.colls, d.group = g → d.cseq = c.cseq) → u.fld (F.COL_GROUP_STATE_STATE.at g) = cgHolding) ∧
      t = c.parts.foldl (fun s x => (s.setClu x.p { s.clu x.p with inColl := none }).signal x.p x.sig) u.showCol) ∧
  (∀ (s : State) (c : Coll) (t0 : Nat), s.col.colls.find? Coll.active = some c → c.admitted = some t0 → s.stepOrdered c.group = false →
    t0 + 1000000 * s.fld F.COL_CFG_TIMEOUT_MS ≤ s.now → exec .orderTimeout s = .next (s.failColl c caOrder true)) ∧
  (∀ (s : State) (p : Nat) (k : Packet),
    (CollTaken s p k ckEnter → exec (.enter p k) s = .next ((s.takePacket p k).takeEnter k)) ∧
    (CollTaken s p k ckStart → exec (.start p k) s = .next ((s.takePacket p k).takeStart k).escalateHub) ∧
    (CollTaken s p k ckData → exec (.data p k) s = .next ((s.takePacket p k).takeData k).escalateHub) ∧
    (CollTaken s p k ckReady → exec (.ready p k) s = .next ((s.takePacket p k).takeReady k)) ∧
    (CollTaken s p k ckAbort → exec (.abort p k) s = .next ((s.takePacket p k).takeAbort k))) ∧
  (∀ (s : State) (p : Nat) (k : Packet), s.mayArrive p k = true → pktType k = ptCollAck → headOk k = true → k.data.length = 32 * pktLen k →
    pktDest k = s.chipId → s.rgenOk p k = true → k.poisoned = false →
    exec (.collAck p k) s = .next ((s.takePacket p k).takeCollAck k).escalateHub) ∧
  (∀ (s : State) (g rank : Nat) (e : Nat × Nat × Nat × Nat) (c : Coll),
    (s.col.again.find? fun e => decide (e.1 = g) && decide (e.2.2.1 = rank) && decide (e.2.2.2 + 10000 ≤ s.now)) = some e →
    s.collAt g e.2.1 = some c →
    Does (.enterRetry g rank) s fun t => ∃ u : State, t = u.sendEnter c rank ∧ u.col.again = s.col.again.erase e ∧ u.regs = s.regs) ∧
  (∀ (s : State) (lead t0 : Nat) (c : Coll), s.collsOf lead = [c] → c.readyAt = some t0 → t0 + 1000000 ≤ s.now →
    exec (.readyResend lead) s = .next
      (((otherRanks c.n c.me).filter fun r => !c.readies.contains r).foldl
        (fun s r => s.sendColl c.group c.cseq r ckReady 0 0 []) (s.putColl { c with readyAt := some s.now })))

/-- The host link resets, falls and comes up. Function-level reset, hot reset, link loss and PERST_N have the link state and stop
that their rules give, and of a part that is OFF only the level of PERST_N is kept; a failing optical lane takes a spare or narrows the link, through Recovery where the link is in L0, and one within
its limit of symbol errors stays; a link that trains takes the fastest speed and the widest width of both ends, and traffic resumes with
credits, records and vectors flushed. (R542, R544, R560, R565, R566, R569, R600, R864.) -/
def Obligations.HostLinkCompletes : Prop :=
  (∀ (s : State), s.hostLinked = true → Does .functionLevelReset s fun t =>
    t.linkState = lsResetting ∧ t.fld F.HST_LINK_STATUS_STOPPED = 1 ∧ t.host = s.hostReset.host) ∧
  (∀ (s : State), s.off = false → s.linkState = lsResetting → Does .flrComplete s fun t => t.linkState = lsUp ∧
    RegsBut [F.HST_LINK_STATUS_STATE.reg] s t) ∧
  (∀ (s : State), s.off = false → s.linkState = lsUp ∨ s.linkState = lsResetting →
    exec .hotReset s = .next (s.hostReset.linkLow lsTraining) ∧ exec .linkDown s = .next (s.hostReset.linkLow lsTraining)) ∧
  (∀ (s : State) (l : Nat), l = lsDown ∨ l = lsTraining →
    (s.linkLow l).linkState = l ∧ (s.linkLow l).fld F.HST_LINK_STATUS_SPEED = 0 ∧ (s.linkLow l).fld F.HST_LINK_STATUS_WIDTH = 0 ∧
      (s.linkLow l).fld F.HST_LINK_STATUS_STOPPED = 1) ∧
  (∀ (s : State), s.off = false → s.host.perst = false →
    Does .perstNAssert s fun t => t.host.perst = true ∧ t.linkState = lsDown) ∧
  (∀ (s : State), s.off = false → s.host.perst = true →
    Does .perstNRelease s fun t => t.host.perst = false ∧ t.linkState = lsTraining ∧ RegsBut [F.HST_LINK_STATUS_STATE.reg] s t) ∧
  (∀ (s : State), s.off = true → exec .perstNAssert s = .next { s with host := { s.host with perst := true } } ∧
    exec .perstNRelease s = .next { s with host := { s.host with perst := false } }) ∧
  (∀ (s : State) (x : OpticalLane), s.laneFails x = false → exec (.hostOpticalLaneFail x) s = .next s) ∧
  (∀ (s : State) (lane : Nat) (x : OpticalLane), s.off = false → lane < 16 → x.lane = lane → s.laneFails x = true →
    lane ∉ s.host.lostLanes → lane ∉ s.host.sparing →
    (s.sparesUsed 0 < 2 → Does (.hostOpticalLaneFail x) s fun t =>
      t.host.sparing = s.host.sparing ++ [lane] ∧ t.repair.lanes = s.repair.lanes ++ [(0, 0, lane)] ∧
      t.fld F.HST_LINK_STATUS_RECOVERIES = (if s.linkInL0 = true then min (s.fld F.HST_LINK_STATUS_RECOVERIES + 1) 65535
        else s.fld F.HST_LINK_STATUS_RECOVERIES) ∧
      RegsBut [F.HST_LINK_STATUS_RECOVERIES.reg, F.LOG_STATUS_LOST.reg] s t) ∧
    (2 ≤ s.sparesUsed 0 → s.linkInL0 = true → wholeWidth s.host.partnerWidth (s.host.lostLanes ++ [lane]) ≠ 0 →
      Does (.hostOpticalLaneFail x) s fun t => t.host.lostLanes = s.host.lostLanes ++ [lane] ∧
        t.fld F.HST_LINK_STATUS_WIDTH = wholeWidth s.host.partnerWidth (s.host.lostLanes ++ [lane]) % 32 ∧
        t.fld F.HST_LINK_STATUS_RECOVERIES = min (s.fld F.HST_LINK_STATUS_RECOVERIES + 1) 65535 ∧
        RegsBut [F.HST_LINK_STATUS_WIDTH.reg] s t) ∧
    (2 ≤ s.sparesUsed 0 → s.linkInL0 = false → Does (.hostOpticalLaneFail x) s fun t =>
      t.host.lostLanes = s.host.lostLanes ++ [lane] ∧ t.regs = s.regs)) ∧
  (∀ (s : State), s.off = false → s.host.perst = false → s.linkState = lsTraining → s.trainedWidth ≠ 0 →
    Does .hostTrafficResume s fun t => ∃ u : State, u = s.linkUp.showStopped ∧ (u.hostStopped = true → t = u) ∧
      (u.hostStopped = false → ∃ v : State, v = (List.range 64).foldl (fun s r => s.flushRing r)
          (u.disp.creditDue.foldl (fun s l => s.doCreditWrite l) u) ∧
        t = v.pendingVectors.foldl (fun s v => s.doMsixPendingSend v) v)) ∧
  (∀ (s : State), (s.linkUp).linkState = lsUp ∧ (s.linkUp).fld F.HST_LINK_STATUS_SPEED = min 5 s.host.partnerSpeed ∧
    (s.linkUp).fld F.HST_LINK_STATUS_WIDTH = wholeWidth s.host.partnerWidth s.host.lostLanes % 32)

/-- Host reads, writes, staging and messages. While the link is in L0 completions of another generation are pruned and others land, wait
for more or fail by status; timeouts fail the read; acknowledged writes leave; staging reads and writes reach tier memory or are
counted, and those that fail ECRC are discarded and reported; MCTP messages are accepted or dropped; an endpoint ID is set by the bus
owner alone. (R551, R552, R553, R555, R558, R559, R566, R574, R575.) -/
def Obligations.HostTrafficCompletes : Prop :=
  (∀ (s : State) (tag : Nat) (gen : BitVec 12) (st : CplStatus) (data : Bytes), s.off = false → s.linkInL0 = true →
    gen.toNat ≠ s.fld F.HST_LINK_STATUS_HOST_GEN ∨ s.readOf tag = none →
    Does (.hostReadCompletion tag gen st data) s fun t => t.fld F.HST_ERR_PRUNED = min (s.fld F.HST_ERR_PRUNED + 1) 255 ∧
      RegsBut [F.HST_ERR_PRUNED.reg] s t ∧ t.slice = s.slice ∧ t.pad = s.pad ∧ t.host = s.host) ∧
  (∀ (s : State) (tag : Nat) (gen : BitVec 12) (data : Bytes) (r : HostRead), s.off = false → s.linkInL0 = true →
    gen.toNat = s.fld F.HST_LINK_STATUS_HOST_GEN → s.readOf tag = some r →
    (r.len ≤ (r.got ++ data).length → exec (.hostReadCompletion tag gen .ok data) s = .next
      (((s.dropRead r).landRead r ((r.got ++ data).take r.len)).sendHostReads)) ∧
    ((r.got ++ data).length < r.len → Does (.hostReadCompletion tag gen .ok data) s fun t => t.regs = s.regs ∧ t.slice = s.slice ∧
      t.pad = s.pad ∧ t.host.reads = s.host.reads.map fun x => if x = r then { r with got := (r.got ++ data).take r.len } else x) ∧
    (s.ctx r.ctx cfGen = r.ctxGen →
      exec (.hostReadCompletion tag gen .unsupported data) s = .next
        ((((s.aer 20).dropRead r).addSat F.HST_ERR_HOST_READ_FAIL 1).failBarrow r.owner).sendHostReads ∧
      exec (.hostReadCompletion tag gen .abort data) s = .next
        ((((s.aer 15).dropRead r).addSat F.HST_ERR_HOST_READ_FAIL 1).failBarrow r.owner).sendHostReads ∧
      exec (.hostReadCompletion tag gen .poisoned data) s = .next
        ((((s.aer 12).dropRead r).addSat F.HST_ERR_HOST_POISON 1).poisonedRead r).sendHostReads ∧
      exec (.hostReadCompletion tag gen .ecrc data) s = .next
        ((((s.aer 19).dropRead r).addSat F.HST_ERR_HOST_POISON 1).poisonedRead r).sendHostReads) ∧
    (s.ctx r.ctx cfGen ≠ r.ctxGen →
      exec (.hostReadCompletion tag gen .unsupported data) s = .next
        (((s.aer 20).dropRead r).addSat F.CTX_STATS_PRUNED 1).sendHostReads ∧
      exec (.hostReadCompletion tag gen .abort data) s = .next
        (((s.aer 15).dropRead r).addSat F.CTX_STATS_PRUNED 1).sendHostReads ∧
      exec (.hostReadCompletion tag gen .poisoned data) s = .next
        (((s.aer 12).dropRead r).addSat F.CTX_STATS_PRUNED 1).sendHostReads ∧
      exec (.hostReadCompletion tag gen .ecrc data) s = .next
        (((s.aer 19).dropRead r).addSat F.CTX_STATS_PRUNED 1).sendHostReads)) ∧
  (∀ (s : State) (tag : Nat) (r : HostRead), s.readOf tag = some r →
    exec (.hostCompletionTimeout tag) s = .next
      ((((s.dropRead r).aer 14).addSat F.HST_ERR_HOST_READ_FAIL 1).failBarrow r.owner).sendHostReads) ∧
  (∀ (s : State) (seq : Nat), s.hostLinked = true → exec (.hostWriteAck seq) s = .next
    ((s.host.unacked.filter fun w => decide (w.seq ≤ seq)).foldl (fun (s : State) w =>
      ({ s with host := { s.host with unacked := s.host.unacked.filter fun x => decide (x.seq ≠ w.seq) } } : State).ackTlp w) s)) ∧
  (∀ (s : State) (seq : Nat) (w : Tlp), s.hostLinked = true → (s.host.unacked.filter fun w => decide (w.seq ≤ seq)) = [w] →
    Does (.hostWriteAck seq) s fun t => ∃ u : State, t = u.ackTlp w ∧ u.regs = s.regs ∧
      u.host.unacked = s.host.unacked.filter fun x => decide (x.seq ≠ w.seq)) ∧
  (∀ (s : State) (o : Nat) (data : List (Option Byte)), s.hostReach = true → o + data.length ≤ 2 ^ 34 →
    (s.stageReaches o = false → Does (.stagingWrite o (some data)) s fun t =>
      t.fld F.HST_ERR_STAGE_UNAVAIL = min (s.fld F.HST_ERR_STAGE_UNAVAIL + 1) 255 ∧ t.mem = s.mem ∧
      RegsBut [F.HST_ERR_STAGE_UNAVAIL.reg] s t) ∧
    (s.stageReaches o = true → exec (.stagingWrite o (some data)) s = .next
      ((linesOf o data).foldl (fun s x => s.stageLineWrite (s.fld F.HST_STAGE_CFG_BASE * 2 ^ 28 + x.1) x.2) s))) ∧
  (∀ (s : State) (o len : Nat), s.hostReach = true → o + len ≤ 2 ^ 34 → 0 < len →
    (s.stageReaches o = false → Does (.stagingRead o (some len)) s fun t =>
      t.out = .stageData o (List.replicate len 0xFF) false :: s.out ∧ t.mem = s.mem ∧
      t.fld F.HST_ERR_STAGE_UNAVAIL = min (s.fld F.HST_ERR_STAGE_UNAVAIL + 1) 255 ∧ RegsBut [F.HST_ERR_STAGE_UNAVAIL.reg] s t) ∧
    (s.stageReaches o = true → Does (.stagingRead o (some len)) s fun t => ∃ r : State × Bytes × Bool,
      r = (List.range ((o + len + 63) / 64 - o / 64)).foldl (fun (a : State × Bytes × Bool) i =>
        let x := a.1.stageLineRead (a.1.stageLine o + i)
        (x.1, a.2.1 ++ x.2.1, a.2.2 || x.2.2)) (s, [], false) ∧
      t = (if r.2.2 then r.1.aer 12 else r.1).emit (.stageData o ((r.2.1.drop (o % 64)).take len) r.2.2))) ∧
  (∀ (s : State) (o : Nat), s.hostReach = true →
    exec (.stagingWrite o none) s = .next (s.aer 19) ∧ exec (.stagingRead o none) s = .next (s.aer 19)) ∧
  (∀ (s : State) (routing msgType : Nat) (body : Bytes), s.hostLinked = true →
    (s.mctpServed = true → msgType = 0 ∨ msgType = 1 ∨ msgType = 5 → routing = 0 ∨ routing = 2 ∨ routing = 3 →
      exec (.mctpVdmReceive routing msgType body) s = .next s) ∧
    (s.mctpServed = false ∨ ¬ (msgType = 0 ∨ msgType = 1 ∨ msgType = 5) ∨ ¬ (routing = 0 ∨ routing = 2 ∨ routing = 3) →
      Does (.mctpVdmReceive routing msgType body) s fun t => t.fld F.HST_ERR_MCTP_DROP = min (s.fld F.HST_ERR_MCTP_DROP + 1) 255 ∧
        RegsBut [F.HST_ERR_MCTP_DROP.reg] s t)) ∧
  (∀ (s : State) (eid : Byte), eid ≠ 0 → eid ≠ 0xFF →
    (s.mctpServed = true → Does (.setEndpointId .vdm true eid) s fun t => t.fld F.HST_MCTP_CFG_EID = eid.toNat ∧
      RegsBut [F.HST_MCTP_CFG_EID.reg] s t) ∧
    (s.i3cServed = true → Does (.setEndpointId .i3c true eid) s fun t => t.mgmt.eid = eid.toNat ∧ t.regs = s.regs)) ∧
  (∀ (s : State) (ep : Endpoint) (eid : Byte), exec (.setEndpointId ep false eid) s = .next s)

/-- The cold start runs its events. With the input in its limits straps are latched and the start begins, or it waits for the
reference, or EOFF_N keeps it off; slot, self-test, configuration and sections follow; with no valid copy the device is HELD with
all seven bits of HELD_SECT set; lanes train and the device becomes READY or HELD. (R608, R769, R609, R604, R606, R419.) -/
def Obligations.ColdStartCompletes : Prop :=
  (∀ (s : State) (pos : BitVec 6) (par sb : Bool), s.off = true →
    (exec (.inputEntersLimits pos par sb true true) s = .next (s.coldBegin pos par sb)) ∧
    (Does (.inputEntersLimits pos par sb true false) s fun t => t.boot.waits = some (pos, par, sb) ∧ t.off = true ∧ t.regs = s.regs) ∧
    (∀ refclk, exec (.inputEntersLimits pos par sb false refclk) s = .next s)) ∧
  (∀ (s : State) (pos : BitVec 6) (par sb : Bool), (s.latchStraps pos par sb).fld F.GLB_STRAPS_POS = pos.toNat ∧
    (s.latchStraps pos par sb).fld F.GLB_STRAPS_PAR = bit par ∧ (s.latchStraps pos par sb).fld F.GLB_STRAPS_SEEDBED = bit !sb ∧
    (s.latchStraps pos par sb).fld F.GLB_IDENT_CHIP_ID = pos.toNat ∧
    (s.latchStraps pos par sb).fld F.FAB_STATUS_STRAP_ERR = 1 - (s.latchStraps pos par sb).fld F.GLB_STRAPS_PAR_OK) ∧
  (∀ (s u : State), s.off = false → s.devState = dsBoot → s.boot.stage = 0 → u = s.settleMirror.flashRetry →
    u.slotState 0 ≠ srGraft → u.slotState 1 ≠ srGraft →
    (∀ k, u.takenSlots.find? u.slotPasses = some k → exec .slotChoice s = .next (u.startFirmware k)) ∧
    (u.takenSlots.find? u.slotPasses = none → exec .slotChoice s = .next (u.setDev orHw dsSeedbed))) ∧
  (∀ (s : State) (failed : List Nat), s.off = false → s.devState = dsBoot → s.boot.stage = 1 → s.boot.hubBad = false →
    s.repair.hub = false → ((List.range 4).any fun d => decide (2 <
        (((s.repair.failed ++ failed.filter fun p => decide (p < 264)).eraseDups).filter fun p => decide (dieOf p = d)).length)) = false →
    Does (.selfTestDone failed false) s fun t => t.boot.stage = 2) ∧
  (∀ (s : State) (failed : List Nat), s.off = false → s.devState = dsBoot → s.boot.stage = 1 →
    Does (.selfTestDone failed true) s fun t => ∃ u : State, t = u.enterFallow ∧ u.repair.hub = true ∧
      u.repair.failed = (s.repair.failed ++ failed.filter fun p => decide (p < 264)).eraseDups) ∧
  (∀ (s : State), s.off = false → s.devState = dsBoot → s.boot.stage = 2 →
    (∀ c, ((s.setDev orHw dsConfiguring).checkCopies).newestCopy = some c →
      Does .configurationChoice s fun t => t.fld F.GLB_CFG_STATUS_IN_USE = (c + 1) % 4 ∧ t.boot.stage = 3) ∧
    (((s.setDev orHw dsConfiguring).checkCopies).newestCopy = none → Does .configurationChoice s fun t => t.devState = dsHeld ∧
      t.fld F.GLB_STATE_HELD_SECT = 127)) ∧
  (∀ (s : State), s.off = false → s.devState = dsConfiguring → s.boot.stage = 3 →
    Does .sectionsApply s fun t => ∃ b s1, b = s.copyAt (s.fld F.GLB_CFG_STATUS_IN_USE - 1) ∧
      s1 = [1, 6, 5, 4, 7].foldl (fun (s : State) t => s.startSect b t) s ∧
      ((s1.sect 1).isEmpty = false → t = s1.eventNine b) ∧
      ((s1.sect 1).isEmpty = true → t = ({ s1 with boot := { s1.boot with stage := 5 } } : State).strapHold)) ∧
  (∀ (s u : State) (rs : List BridgeReport), s.off = false → rs.length = 16 → s.boot.refclk = true →
    u = rs.zipIdx.foldl (fun (s : State) e => s.trainLane e.2 e.1) s →
    (s.devState = dsConfiguring → s.boot.stage = 4 →
      Does (.lanesTrained rs) s fun t => ∃ v : State, v = u.allowMissing.coverRetired.checkTiers.showLease.releaseWaits ∧
        t = { v with boot := { v.boot with stage := 5 } }) ∧
    (s.devState = dsResetting ∨ s.gov.moving.isSome = true ∧ s.powState = psDark →
      (s.devState = dsConfiguring → s.boot.stage ≠ 4) →
      exec (.lanesTrained rs) s = .next u.checkTiers.showLease.releaseWaits)) ∧
  (∀ (s : State), s.off = false → s.devState = dsConfiguring → s.boot.stage = 5 → s.fab.discoverAt = none →
    ((s.sect 1).isEmpty = true → Does .coldStartDone s fun t => t.devState = dsHeld ∧ t.boot.stage = 6 ∧ t.gov.rackRuns = true) ∧
    ((s.sect 1).isEmpty = false → exec .coldStartDone s = .next ({ s with boot := { s.boot with stage := 6 } } : State).enterReady))

/-- Section reloads and device commands. A reload stores its fields, is refused by state, or applies its sections in turn; DRAIN
and RESUME change the device state or are refused; RECOVER starts package recovery or is refused. (R610, R612, R620, R619.) -/
def Obligations.ReloadAndDeviceCommandsComplete : Prop :=
  (∀ (s : State) (w : Agent) (v : Word), Accepts s w blkGlb → v.getLsbD 7 = false ∨ s.fld F.GLB_CFG_RELOAD_GO = 1 →
    bitsOf v 9 8 ≠ 3 → Does (.reload w v) s fun t => t.fld F.GLB_CFG_RELOAD_COPY = bitsOf v 9 8 ∧ t.fld F.GLB_CFG_RELOAD_SECTIONS = bitsOf v 6 0 ∧
      RegsBut [F.GLB_CFG_RELOAD_GO.reg] s t) ∧
  (∀ (s : State) (w : Agent) (v : Word), Accepts s w blkGlb → s.fld F.GLB_CFG_RELOAD_GO = 0 → v.getLsbD 7 = true →
    s.devState ≠ dsHeld → s.inService = false →
    Does (.reload w v) s fun t => t.fld F.GLB_CFG_STATUS_RELOAD_RESULT = rrState ∧ t.fld F.GLB_CFG_RELOAD_GO = 0 ∧ t.boot.reload = none) ∧
  (∀ (s : State) (w : Agent) (v : Word) (c : Nat), Accepts s w blkGlb → s.fld F.GLB_CFG_RELOAD_GO = 0 → v.getLsbD 7 = true →
    s.devState = dsHeld ∨ s.inService = true →
    (s.devState = dsServing ∨ s.devState = dsDraining → v.getLsbD 0 = false) → bitsOf v 9 8 ≠ 3 →
    ∀ u, u = ((((s.closeLatch w blkGlb).setFld F.GLB_CFG_RELOAD_COPY (bitsOf v 9 8)).setFld F.GLB_CFG_RELOAD_SECTIONS
        (bitsOf v 6 0)).checkSelected (bitsOf v 9 8)) → u.selectCopy (bitsOf v 9 8) = some c →
    exec (.reload w v) s = .next (State.runReload 8 ((u.useCopy c).setFld F.GLB_CFG_RELOAD_GO 1) (u.copyAt c)
      { copy := c, todo := ((List.range 7).map (· + 1)).filter fun t => v.getLsbD (t - 1), part := false
        held := decide (s.devState = dsHeld) })) ∧
  (∀ (s : State) (w : Agent) (v : Word), Accepts s w blkGlb → s.fld F.GLB_CFG_RELOAD_GO = 0 → v.getLsbD 7 = true →
    s.devState = dsHeld ∨ s.inService = true → bitsOf v 9 8 ≠ 3 →
    ∀ u, u = ((((s.closeLatch w blkGlb).setFld F.GLB_CFG_RELOAD_COPY (bitsOf v 9 8)).setFld F.GLB_CFG_RELOAD_SECTIONS
        (bitsOf v 6 0)).checkSelected (bitsOf v 9 8)) →
    (u.selectCopy (bitsOf v 9 8) = none → exec (.reload w v) s = .next (u.endReload rrNoCopy)) ∧
    (u.selectCopy (bitsOf v 9 8) ≠ none → s.devState = dsServing ∨ s.devState = dsDraining → v.getLsbD 0 = true →
      Does (.reload w v) s fun t => t.fld F.GLB_CFG_STATUS_RELOAD_RESULT = rrState ∧ t.fld F.GLB_CFG_RELOAD_GO = 0 ∧ t.boot.reload = none)) ∧
  (∀ (s : State) (x : Bytes), s.conf.memDue = some x → s.disp.steps = [] → s.inService = true →
    exec .reloadMemoryApply s = .next ((({ s with conf := { s.conf with memDue := none } } : State).reloadMemory x).goOnReload)) ∧
  (∀ (u : State) (r : Reload), u.boot.reload = some r →
    u.goOnReload = State.runReload 8 u (u.copyAt r.copy) { r with todo := r.todo.tail }) ∧
  (∀ (s : State) (w : Agent), Accepts s w blkGlb →
    (s.devState = dsServing → Does (.drainCommand w) s fun t => t.devState = dsDraining) ∧
    (s.devState ≠ dsServing → Does (.drainCommand w) s fun t => t.fld F.GLB_DEV_CMD_REFUSED = 1 ∧ RegsBut [F.GLB_DEV_CMD_REFUSED.reg] s t) ∧
    (s.devState = dsDraining → Does (.resumeCommand w) s fun t => t.devState = dsServing) ∧
    (s.devState ≠ dsDraining → Does (.resumeCommand w) s fun t => t.fld F.GLB_DEV_CMD_REFUSED = 1 ∧
      RegsBut [F.GLB_DEV_CMD_REFUSED.reg] s t)) ∧
  (∀ (s : State) (w : Agent), Accepts s w blkGlb →
    (s.safe = none → s.devState = dsConfiguring ∨ s.devState = dsHeld ∨ s.inService = true →
      exec (.recover w) s = .next (((s.closeLatch w blkGlb).setFld F.GLB_DEV_CMD_RECOVER 1).startRecovery
        (if w = .host then hvRecover else hvController) false)) ∧
    (s.safe = none → ¬ (s.devState = dsConfiguring ∨ s.devState = dsHeld ∨ s.inService = true) →
      Does (.recover w) s fun t => t.fld F.GLB_DEV_CMD_REFUSED = 1 ∧ RegsBut [F.GLB_DEV_CMD_REFUSED.reg] s t))

/-- Power commands, transitions and the governor. A refused command sets CMD_REFUSED; an accepted one shows its target and is held
during a transition or due otherwise; DARK is refused while a context is open, except in FALLOW; transitions start and end and
then apply the last command held; one between FULL and TRIM takes effect at the governor's update. (R55, R633, R56, R634, R643,
R636.) -/
def Obligations.PowerCommandsComplete : Prop :=
  (∀ (s : State) (w : Agent) (c : Instr) (t0 : Nat), Accepts s w blkPwr →
    (c, t0) ∈ [(Instr.powerCmdFull w, psFull), (.powerCmdTrim w, psTrim), (.powerCmdMulch w, psMulch), (.powerCmdQuiet w, psQuiet),
               (.powerCmdDark w, psDark)] →
    (s.powerRefused t0 = true → Does c s fun t => t.fld F.PWR_STATUS_CMD_REFUSED = 1 ∧ RegsBut [F.PWR_STATUS_CMD_REFUSED.reg] s t) ∧
    (s.powerRefused t0 = false → s.devState ≠ dsFallow → s.inService = true →
      Does c s fun t => t.fld F.GLB_STATE_POWER_TARGET = t0 ∧ RegsBut [F.GLB_STATE_POWER_TARGET.reg] s t ∧
        (s.inTransition = true → t.gov.held = some (t0, originOf w)) ∧
        (s.inTransition = false → s.powState ≠ t0 → t.gov.due = some (t0, originOf w)))) ∧
  (∀ (s : State) (w : Agent), Accepts s w blkPwr → s.devState ≠ dsFallow → s.openCtxs ≠ [] →
    Does (.powerCmdDark w) s fun t => t.fld F.PWR_STATUS_CMD_REFUSED = 1 ∧ t.powState = s.powState ∧ t.gov = s.gov) ∧
  (∀ (s : State) (c : Nat × Nat), s.gov.due = some c → s.inService = true → s.gov.moving = none → psTrim < c.1 ∨ psTrim < s.powState →
    c.1 ≤ psTrim ∨ s.workEnded = true →
    Does .powerTransitionStart s fun t => ∃ u : State, u.gov.due = none ∧ u.gov.moving = some c ∧ u.regs = s.regs ∧
      u.gov.rows = powerRows s.powState c.1 ∧
      t = if u.gov.rows.headD c.1 = psDark then u.goDark else if s.powState = psDark then u.lanesTrain.startFabric else u) ∧
  (∀ (s : State) (c : Nat × Nat) (act : List (List Nat)), s.off = false → s.gov.due = some c → s.inService = true → s.gov.moving = none →
    c.1 ≤ psTrim → s.powState ≤ psTrim →
    Does (.governorUpdate act) s fun t => t.gov.moving = some c ∧ t.gov.due = none) ∧
  (∀ (s : State) (c : Nat × Nat) (r : Nat), s.gov.moving = some c → s.inService = true → r = s.gov.rows.headD c.1 →
    s.transitionEnds r = true →
    (∀ next rest, s.gov.rows.drop 1 = next :: rest → exec .powerTransitionDone s =
      .next (((({ s with gov := { s.gov with rows := next :: rest } } : State).reachPower r c.2)).beginRow next)) ∧
    (s.gov.rows.drop 1 = [] → Does .powerTransitionDone s fun t => ∃ u : State, u.gov.moving = none ∧ u.gov.held = none ∧
      u.regs = s.regs ∧ (s.gov.held = none → t = u.reachPower r c.2) ∧
      (∀ h, s.gov.held = some h → t = (u.reachPower r c.2).orderPower h))) ∧
  (∀ (s : State) (act : List (List Nat)), s.off = false →
    exec (.governorUpdate act) s = .next (s.govern true act) ∧
    exec .governorExtraUpdate s = .next (s.govern false s.gov.activity))

/-- Droop, temperature and coolant readings. Droop steps count to the fourth and recover; a conversion shows its temperature and
peak; a trip raises its event and enters SAFE; a coolant measurement shows its range and, each tenth, the flow and the limit;
sudden loss raises the cooling fault, unless a measurement of the last 100 µs contradicts it. (R649, R650, R652, R654, R655, R656,
R658, R659.) -/
def Obligations.SensorsComplete : Prop :=
  (∀ (s : State) (d q : Nat), d < 4 → q < 4 → s.droopAt (4 * d + q) < 4 → s.cluOn = true →
    Does (.droopStep d q) s fun t => t.droopAt (4 * d + q) = s.droopAt (4 * d + q) + 1 ∧
      (s.droopAt (4 * d + q) = 0 → t.fld (F.PWR_DROOP_EVENTS.at d) = min (s.fld (F.PWR_DROOP_EVENTS.at d) + 1) 0xFFFFFFFF) ∧
      (s.droopAt (4 * d + q) = 3 → t.fld (F.PWR_DROOP_STEP4.at d) = min (s.fld (F.PWR_DROOP_STEP4.at d) + 1) 0xFFFFFFFF)) ∧
  (∀ (s : State) (d q : Nat), d < 4 → q < 4 → 0 < s.droopAt (4 * d + q) →
    Does (.droopRecover d q) s fun t => t.droopAt (4 * d + q) = s.droopAt (4 * d + q) - 1) ∧
  (∀ (s : State) (i : Nat) (r : BitVec 16), s.off = false → i < 140 →
    Does (.tempSensorConvert i r) s fun t => ∃ u : State, t = u.tryLeaveTrip ∧ (s.safe = none → t = u) ∧
      u.fld (F.TEL_TEMP_TEMP.at i) = r.toNat ∧
      u.fld (F.TEL_TEMP_MAX.at i) =
        (if temp16 (s.fld (F.TEL_TEMP_MAX.at i)) < temp16 r.toNat then r.toNat else s.fld (F.TEL_TEMP_MAX.at i)) ∧
      RegsBut [(F.TEL_TEMP_TEMP.at i).reg] s u) ∧
  (∀ (s : State) (i : Nat) (r : BitVec 16), s.off = false → i < 140 → tripPoint ≤ temp16 r.toNat → s.gov.thermtrip = false →
    exec (.thermalTrip i r) s = .next ((s.raiseEvent 0x05 i (temp16 r.toNat / 16).toNat).enterSafe true)) ∧
  (∀ (s : State) (inlet outlet dp : Nat), s.off = false → (s.gov.measures + 1) % 10 ≠ 0 →
    Does (.coolantMeasure inlet outlet dp) s fun t =>
      t.fld F.PWR_STATUS_COOL_RANGE = bit (decide (inlet < 40) || decide (80 < inlet) || decide (1500 < dp)) ∧
      t.gov.temps = ((inlet, outlet) :: s.gov.temps).take 100 ∧ t.gov.dp = dp ∧ RegsBut [F.PWR_STATUS_COOL_RANGE.reg] s t) ∧
  (∀ (s : State) (inlet outlet dp : Nat), s.off = false → (s.gov.measures + 1) % 10 = 0 →
    Does (.coolantMeasure inlet outlet dp) s fun t => ∃ u v : State,
      u.gov.temps = ((inlet, outlet) :: s.gov.temps).take 100 ∧ u.gov.dp = dp ∧ v.gov.flow = (u.flowEstimate inlet).2.1 ∧
      v.gov.limit = some (u.flowEstimate inlet).2.2 ∧ t = v.showDerated.noteTerms) ∧
  (∀ (s : State), s.off = false → s.gov.sudden = none →
    (s.dropStands = false → Does .suddenCoolantLoss s fun t => t.gov.sudden = some s.now ∧ t.fld F.PWR_STATUS_COOL_FAULT = 1) ∧
    (s.dropStands = true → exec .suddenCoolantLoss s = .next s))

/-- Commits apply, wait or are refused. An illegal set is refused and stays staged; an empty one clears PENDING unless an earlier commit
still waits (log entry 70); a legal one that
need not wait is applied with its entry; one that must wait is kept whole with PENDING set, of MEM only its mirror change and of HST
only its staging window; waiting commits apply when their
condition holds; GLB_COMMIT_GROUP shows its blocks and commits them with GO. (R276, R409, R583, R822, R824, R827.) -/
def Obligations.CommitsComplete : Prop :=
  (∀ (s : State) (w : Agent) (b g : Nat), Accepts s w b → commitReg b = some g →
    (s.setLegal (s.stagedSet w b) = false →
      Does (.commit w b) s fun t => t.fld (commitRefused g) = 1 ∧ t.staged = s.staged ∧ t.commits = s.commits ∧ RegsBut [g] s t) ∧
    (s.stagedSet w b = [] → (s.commitWaits b = true → exec (.commit w b) s = .next (s.closeLatch w b)) ∧ (s.commitWaits b = false →
      Does (.commit w b) s fun t => t.fld (commitPending g) = 0 ∧ t.staged = s.staged ∧ t.commits = s.commits ∧ RegsBut [g] s t)) ∧
    (s.stagedSet w b ≠ [] → s.setLegal (s.stagedSet w b) = true → b = blkFab → s.portPart (s.stagedSet w b) = [] →
      s.flowsWait = false →
      exec (.commit w b) s = .next ((((s.closeLatch w b).dropSet w b).applySet b (restPart (s.stagedSet w b))).noteCommit
        (s.closeLatch w b) (originOf w) b (s.stagedSet w b))) ∧
    (s.stagedSet w b ≠ [] → s.setLegal (s.stagedSet w b) = true → b = blkHst →
      (s.stagedSet w b).any (fun e => decide (e.1 = F.HST_STAGE_CFG_BASE.reg)) = true →
      s.mustWait b (s.stagedSet w b) = true ∨ s.earlierCommit b = true →
      Does (.commit w b) s fun t => t.stagedSet w b = [] ∧ t.fld (commitPending g) = 1 ∧ t.commits = s.commits ++
        [{ block := b, writer := w, group := false
           set := (s.stagedSet w b).filter fun e => decide (e.1 = F.HST_STAGE_CFG_BASE.reg) }]) ∧
    (s.stagedSet w b ≠ [] → s.setLegal (s.stagedSet w b) = true → b ≠ blkFab → s.mustWait b (s.stagedSet w b) = false →
      s.earlierCommit b = false →
      exec (.commit w b) s = .next ((((s.closeLatch w b).dropSet w b).applySet b (s.stagedSet w b)).noteCommit (s.closeLatch w b)
        (originOf w) b (s.stagedSet w b))) ∧
    (s.stagedSet w b ≠ [] → s.setLegal (s.stagedSet w b) = true → b = blkCol ∨ 0x100 ≤ b →
      s.mustWait b (s.stagedSet w b) = true ∨ s.earlierCommit b = true →
      Does (.commit w b) s fun t => t.stagedSet w b = [] ∧ t.fld (commitPending g) = 1 ∧
        t.commits = s.commits ++ [{ block := b, writer := w, set := s.stagedSet w b, group := false }]) ∧
    (s.stagedSet w b ≠ [] → s.setLegal (s.stagedSet w b) = true → b = blkMem → s.mirrorChanged (s.stagedSet w b) = true →
      s.mustWait b (s.stagedSet w b) = true ∨ s.earlierCommit b = true →
      Does (.commit w b) s fun t => t.stagedSet w b = [] ∧ t.fld (commitPending g) = 1 ∧
        t.commits = s.commits ++ [{ block := b, writer := w, group := false
                                    set := (s.stagedSet w b).filter fun e => decide (e.1 = F.MEM_MIRROR_REGION.reg) }])) ∧
  (∀ (s : State) (p : Nat) (c : Commit), s.off = false → p < 264 → s.oldestCommit (blkClu p) = some c →
    s.mustWait (blkClu p) c.set = false → exec (.clusterCommitApply p) s = .next (s.applyWaiting c)) ∧
  (∀ (s : State) (b : Nat) (c : Commit), s.off = false → b < 0x100 → s.oldestCommit b = some c →
    (if b = blkFab then s.collRuns || !s.inService else s.mustWait b c.set) = false → exec (.deferredCommitApply b) s = .next (s.applyWaiting c)) ∧
  (∀ (s : State) (w : Agent) (v : Word), Accepts s w blkGlb → v.getLsbD 16 = false →
    Does (.commitGroup w v) s fun t => t.fld F.GLB_COMMIT_GROUP_BLOCKS = bitsOf v 14 1 ∧
      (v.getLsbD 18 = true → t.fld F.GLB_COMMIT_GROUP_REFUSED = 0) ∧ t.staged = s.staged ∧ RegsBut [F.GLB_COMMIT_GROUP_BLOCKS.reg] s t) ∧
  (∀ (s : State) (w : Agent) (v : Word), Accepts s w blkGlb → v.getLsbD 16 = true → v.getLsbD 18 = false →
    exec (.commitGroup w v) s = .next (((s.closeLatch w blkGlb).setFld F.GLB_COMMIT_GROUP_BLOCKS (bitsOf v 14 1)).commitBlocks w
      ((namedBlocks (2 * bitsOf v 14 1)).filter fun b => (commitReg b).isSome)))

/-- A commit puts every staged bit in place at once. For DSP, RAS, FWU, LOG and HST, a legal commit that need not wait empties the writer's set,
gives every register of the set its staged bits and its other bits as they were, and leaves every other register but the change-
log loss count. (R26, R822, R828.) -/
def Obligations.CommitAppliesTheStagedBits : Prop :=
  ∀ (s : State) (w : Agent) (b : Nat), Accepts s w b → b ∈ [blkDsp, blkRas, blkFwu, blkLog, blkHst] → msorted s.staged = true →
    s.stagedSet w b ≠ [] → s.setLegal (s.stagedSet w b) = true → s.earlierCommit b = false →
    s.mustWait b (s.stagedSet w b) = false →
    Does (.commit w b) s fun t => t.stagedSet w b = [] ∧
      (∀ a e, (a, e) ∈ s.stagedSet w b → a ≠ F.LOG_STATUS_LOST.reg → t.reg a = ((s.reg a &&& ~~~ e.mask) ||| (e.value &&& e.mask))) ∧
      RegsBut (F.LOG_STATUS_LOST.reg :: (s.stagedSet w b).map (·.1)) s t

/-- Power, cooling and rack pins, and MULCH control. WARN, cooling-fault and coolant-loss signals and a lost rack heartbeat show
in PWR_STATUS, and in OFF change only their lines; MULCH heat moves by 25 W toward the band and MULCH_LOW follows. (R658, R664, R665, R666, R669.) -/
def Obligations.PowerPinsComplete : Prop :=
  (∀ (s : State) (since : Nat), s.gov.sudden.isSome = true → s.gov.dpHigh = some since → since + 1000000000 ≤ s.now →
    Does .coolantLossClear s fun t => t.gov.sudden = none ∧ t.fld F.PWR_STATUS_COOL_FAULT = bit s.gov.fault ∧
      RegsBut [F.PWR_STATUS_COOL_FAULT.reg] s t) ∧
  (∀ (s : State), s.off = false → s.powState = psMulch →
    (s.dieMean4 < 64 * ((s.fld F.PWR_POLICY_MULCH_CENTRE_C : Int) - s.fld F.PWR_POLICY_MULCH_BAND_C) →
      Does .mulchControl s fun t => t.gov.heat = s.gov.heat + 25 ∧ t.gov.cold = some (s.gov.cold.getD s.now)) ∧
    (64 * ((s.fld F.PWR_POLICY_MULCH_CENTRE_C : Int) + s.fld F.PWR_POLICY_MULCH_BAND_C) < s.dieMean4 →
      Does .mulchControl s fun t => t.gov.heat = s.gov.heat - 25 ∧ t.gov.cold = none ∧ t.fld F.PWR_STATUS_MULCH_LOW = 0) ∧
    (64 * ((s.fld F.PWR_POLICY_MULCH_CENTRE_C : Int) - s.fld F.PWR_POLICY_MULCH_BAND_C) ≤ s.dieMean4 →
      s.dieMean4 ≤ 64 * ((s.fld F.PWR_POLICY_MULCH_CENTRE_C : Int) + s.fld F.PWR_POLICY_MULCH_BAND_C) →
      Does .mulchControl s fun t => t.gov.heat = s.gov.heat ∧ t.gov.cold = none ∧ t.fld F.PWR_STATUS_MULCH_LOW = 0)) ∧
  (∀ (s : State) (n : Nat), s.gov.cold = some n → s.powState = psMulch → n + 10000000000 ≤ s.now → s.gov.short = true →
    Does .mulchLow s fun t => t.fld F.PWR_STATUS_MULCH_LOW = 1 ∧ RegsBut [F.PWR_STATUS_MULCH_LOW.reg] s t) ∧
  (∀ (s : State), s.off = false → s.gov.warn = false →
    Does .pwrWarnNLow s fun t => t.gov.warn = true ∧ t.fld F.PWR_STATUS_WARN_ACTIVE = 1) ∧
  (∀ (s : State), s.off = false → s.gov.warn = true → Does .pwrWarnNRelease s fun t => t.gov.warn = false ∧ t.fld F.PWR_STATUS_WARN_ACTIVE = 0 ∧
    RegsBut [F.PWR_STATUS_WARN_ACTIVE.reg, F.PWR_CAP_LAG_FALLS.reg, F.PWR_CAP_LAG_LAST_US.reg] s t) ∧
  (∀ (s : State), s.off = false → s.gov.fault = false →
    Does .coolFaultNLow s fun t => t.gov.fault = true ∧ t.fld F.PWR_STATUS_COOL_FAULT = 1) ∧
  (∀ (s : State), s.off = false → s.gov.fault = true →
    Does .coolFaultNRelease s fun t => t.gov.fault = false ∧ t.fld F.PWR_STATUS_COOL_FAULT = bit s.gov.sudden.isSome ∧
      RegsBut [F.PWR_STATUS_COOL_FAULT.reg] s t) ∧
  (∀ (s : State), s.off = true →
    Does .pwrWarnNLow s (fun t => t.gov.warn = true ∧ t.regs = s.regs) ∧
    Does .pwrWarnNRelease s (fun t => t.gov.warn = false ∧ t.regs = s.regs) ∧
    Does .coolFaultNLow s (fun t => t.gov.fault = true ∧ t.regs = s.regs) ∧
    Does .coolFaultNRelease s (fun t => t.gov.fault = false ∧ t.regs = s.regs)) ∧
  (∀ (s : State), s.off = false → s.gov.rackRuns = true → s.fld F.PWR_STATUS_HEARTBEAT_LOST = 0 →
    s.gov.beatAt + 1000000000 * s.fld F.PWR_POLICY_HEARTBEAT_S ≤ s.now →
    Does .rackHeartbeatLost s fun t => t.fld F.PWR_STATUS_HEARTBEAT_LOST = 1)

/-- Losing the input or the reference. EOFF_N, input loss and overvoltage leave the part off with only its non-volatile stores; in OFF
each of them drops a pending start; losing the reference enters holdover; its return starts a waiting cold start
and retrains lanes. (R666, R869, R870, R862.) -/
def Obligations.InputsLostComplete : Prop :=
  (∀ (s : State) (c : Instr), c ∈ [Instr.eoffN, .inputLoss, .inputOvervoltage] → s.off = false →
    Does c s fun t => t = s.powerOff ∧ t.off = true ∧ t.flash = s.flash ∧ t.repair = s.repair ∧ t.cold.roles = s.cold.roles ∧
      t.cold.svnCount = s.cold.svnCount ∧ t.cold.eraseDue = s.cold.eraseDue ∧ t.slice = [] ∧ t.pad = [] ∧ t.mem.lines = [] ∧
      t.disp.slots = [] ∧ t.disp.keys = [] ∧ t.staged = [] ∧ t.commits = [] ∧ t.boot.waits = none ∧ t.out = s.out) ∧
  (∀ (s : State) (c : Instr), c ∈ [Instr.eoffN, .inputLoss, .inputOvervoltage] → s.off = true →
    Does c s fun t => t.boot.waits = none ∧ t.regs = s.regs ∧ t.off = true) ∧
  (∀ (s : State), s.boot.refclk = true →
    (s.off = true → Does .refclkLoss s fun t => t.boot.refclk = false ∧ t.regs = s.regs) ∧
    (s.off = false → Does .refclkLoss s fun t => t.boot.refclk = false ∧ t.clock.hasParent = false ∧ t.fld F.TIM_STATUS_STATE = tsHoldover)) ∧
  (∀ (s : State), s.boot.refclk = false →
    (∀ pos par sb, s.boot.waits = some (pos, par, sb) →
      exec .refclkReturn s = .next (({ s with boot := { s.boot with refclk := true } } : State).coldBegin pos par sb)) ∧
    (s.boot.waits = none → Does .refclkReturn s fun t => t.boot.refclk = true ∧
      (∀ k, k < 16 → s.laneRelocks k = true → t.laneState k = mlTraining) ∧
      (∀ p, p < 32 → s.portRelocks p = true → t.portState p = poTraining) ∧
      ((∀ k, k < 16 → s.laneRelocks k = false) → (∀ p, p < 32 → s.portRelocks p = false) → t.regs = s.regs)))

/-- Cluster, quadrant and compute resets begin, end and time out. Stalls reset what they stall, but for stages that only wait; a
cluster reset ends idle or discarding, or with the cluster failed; larger resets end their clusters, which load the microcode; each
reset that overruns its limit goes to the next level; a step over its budget replays and resets its late clusters. (R897, R688, R696,
R697, R687, R708, R772.) -/
def Obligations.ResetsComplete : Prop :=
  (∀ (s : State) (p : Nat) (e : Engine), s.cluRuns p = true →
    (s.excused p e = false →
      exec (.stageStall p e) s = .next ((((s.raiseEvent 0x09 p (engineBit e)).stallFault p).strike p).clusterReset p 4)) ∧
    (s.excused p e = true → exec (.stageStall p e) s = .next s)) ∧
  (∀ (s : State) (p : Nat), s.seqState p = sqInReset → (s.clu p).resetAt ≠ none → s.inLarger p = false →
    (Does (.clusterResetDone p true) s fun t => t.seqState p = (if (s.stepAt p).isSome then sqDiscarding else sqIdle) ∧
      (t.clu p).resetAt = none ∧ RegsBut [(F.CLU_SEQ_STATUS_SEQ_STATE.clu p).reg] s t) ∧
    exec (.clusterResetDone p false) s = .next ((s.setClu p { s.clu p with resetAt := none }).noteFailed p)) ∧
  (∀ (s : State) (q : Nat) (failed : List Nat), s.ras.compReset = none → (∃ n, (q, n) ∈ s.ras.quadReset) →
    exec (.quadrantResetDone q failed) s =
      .next ((({ s with ras := { s.ras with quadReset := s.ras.quadReset.filter fun e => decide (e.1 ≠ q) } } : State).powerUcode
        (domainClusters q)).endResets (domainClusters q) failed)) ∧
  (∀ (s : State) (die : Nat), die < 4 → s.inService = true → s.cluOn = true →
    exec (.spineStall die) s = .next (s.computeReset 3)) ∧
  (∀ (s : State) (failed : List Nat) (n : Nat), s.ras.compReset = some n →
    exec (.computeResetDone failed) s =
      .next ((({ s with ras := { s.ras with compReset := none } } : State).powerUcode (List.range 264)).endResets (List.range 264)
        failed)) ∧
  (∀ (s : State) (p n : Nat), s.seqState p = sqInReset → s.inLarger p = false → (s.clu p).resetAt = some n → n + 3600000 ≤ s.now →
    exec (.resetTimeout .cluster p) s = .next (s.quadrantReset (quadDomain p) 3)) ∧
  (∀ (s : State) (q n : Nat), s.ras.compReset = none → (q, n) ∈ s.ras.quadReset → n + 90000000 ≤ s.now →
    exec (.resetTimeout .quadrant q) s =
      .next (({ s with ras := { s.ras with quadReset := s.ras.quadReset.filter fun e => decide (e.1 ≠ q) } } : State).computeReset 3)) ∧
  (∀ (s : State) (id n : Nat), s.ras.compReset = some n → n + 550000000 ≤ s.now →
    exec (.resetTimeout .compute id) s =
      .next (({ s with ras := { s.ras with compReset := none } } : State).startRecovery hvEscalation true)) ∧
  (∀ (s : State) (lead : Nat) (t : Step), s.stepOf lead = some t → s.inService = true → t.replay = none → t.fail = none → t.late ≠ [] →
    t.attemptAt + 1000000 * s.fld F.RAS_HANG_CFG_STEP_BUDGET_MS ≤ s.now →
    exec (.stepBudget lead) s = .next (t.late.foldl (fun (s : State) p => if s.seqState p = sqInReset then s else s.clusterReset p 4)
      ((s.raiseEvent 0x0A lead (msgSeq t.words)).replayStep lead 4 [])))

/-- Too many resets of one level, in a window of the step clock, start the next. A cluster reset over the quadrant's limit is a quadrant reset, and one within it
puts the cluster IN_RESET at level 1; a quadrant reset over its limit is a compute reset; a compute reset over its limit is a
package recovery for escalation. (R706, R707, R743.) -/
def Obligations.LevelsEscalate : Prop :=
  (∀ (s : State) (p cause : Nat),
    let n := (s.ras.cluResets.filter fun e => decide (s.stepNow < e.2 + s.cluWindow) && decide (quadDomain e.1 = quadDomain p)).length
    (s.fld F.RAS_ESC_CFG_CLU_RESET_LIMIT < n + 1 → s.clusterReset p cause = s.quadrantReset (quadDomain p) cause) ∧
    (n + 1 ≤ s.fld F.RAS_ESC_CFG_CLU_RESET_LIMIT → p < 264 → (s.clusterReset p cause).seqState p = sqInReset ∧
      (s.clusterReset p cause).fld F.RAS_ESC_STATUS_LAST_LEVEL = 1)) ∧
  (∀ (s : State) (q cause : Nat), s.fld F.RAS_ESC_CFG_QUAD_LIMIT < (recent s.stepNow s.upperWindow s.ras.quadResets).length + 1 →
    s.quadrantReset q cause = s.computeReset cause) ∧
  (∀ (s : State) (cause : Nat), s.fld F.RAS_ESC_CFG_COMPUTE_LIMIT < (recent s.stepNow s.upperWindow s.ras.compResets).length + 1 →
    s.computeReset cause = s.startRecovery hvEscalation true)

/-- Package recovery, spares and the harvest. A hub stall begins recovery or joins it; the written harvest resets the package;
recovery ends in FALLOW over its limit and otherwise returns to its state; spares are brought in, fail, or are asked for. (R687,
R703, R715, R748.) -/
def Obligations.RecoveryCompletes : Prop :=
  (∀ (s : State) (b : Bool), s.recovery = none → s.devState = dsConfiguring ∨ s.devState = dsHeld ∨ s.inService = true →
    Does (.hubStall b) s fun t => t.devState = dsHarvest ∧ t.recovery = some { began := s.now, time := s.stepClock, before := s.devState, fault := true } ∧
      t.fld F.RAS_HARVEST_CAUSE = (if b then hvHubState else hvHubStall) ∧ t.fld F.RAS_ESC_STATUS_LAST_LEVEL = 4) ∧
  (∀ (s : State) (b : Bool) (r : Recovery), s.recovery = some r →
    exec (.hubStall b) s = .next { s with recovery := some { r with more := r.more ++ [if b then hvHubState else hvHubStall] } }) ∧
  (∀ (s : State) (r : Recovery) (lost : HarvestLoss), s.recovery = some r → s.devState = dsHarvest →
    (s.mem.reqs.all fun q => !q.sent) = true →
    Does (.harvestWritten lost) s fun t => t = s.packageReset r lost ∧ ∃ u : State, u.fld F.GLB_STATE_DEVICE_STATE = dsResetting ∧
      u.recovery = some { r with lost := some lost } ∧ t = if u.linksStarted r.before then u.lanesTrain.startFabric else u) ∧
  (∀ (s : State) (r : Recovery) (failed : List Nat) (u : State), s.recovery = some r → s.devState = dsResetting → s.boot.refclk = true →
    (∀ k, k < 16 → s.laneState k ≠ mlTraining) → s.fab.discoverAt = none →
    u = ((failed.foldl State.noteFailed s).restoreLosses (r.lost.getD ⟨[], [], [], [], []⟩)).showEsc →
    (u.escLimit < u.ras.pkg.length → exec (.recoveryDone failed) s = .next u.enterFallow) ∧
    (u.ras.pkg.length ≤ u.escLimit → exec (.recoveryDone failed) s = .next (State.returnState
      ((({ u with recovery := none, safe := none } : State).pauseInstall
        false).setFld F.GLB_DEV_CMD_RECOVER 0) r.before))) ∧
  (∀ (s : State) (l : Nat), s.inService = true → l < 256 → s.physOf l ∈ s.ras.spareDue → s.isLost l = false →
    Does (.spareBringIn l) s fun t => ∃ u : State, u.ras.spareDue = (s.stopCluster (s.physOf l)).ras.spareDue.filter (fun q => decide (q ≠ s.physOf l)) ∧
      t = u.trySpare l (s.physOf l)) ∧
  (∀ (s : State) (l : Nat) (x : SpareIn), (s.ras.spares.find? fun x => decide (x.logical = l)) = some x → s.inService = true → s.cluOn = true →
    exec (.spareIn l true) s =
      .next (if s.seqState x.spare = sqInReset ∧ (s.clu x.spare).resetAt ≠ none then s else s.enterSpare x) ∧
    Does (.spareIn l false) s fun t => ∃ u : State, t = u.trySpare l x.old ∧ x.spare ∈ u.repair.failed ∧
      u.ras.spares = (s.ras.spares.filter fun y => decide (y.logical ≠ l))) ∧
  (∀ (s : State) (w : Agent) (l q : Nat), Accepts s w blkRas → l < 256 → s.fld F.RAS_SPARE_CTL_GO = 0 →
    s.chooseSpare (s.physOf l) s.busySpares = some q →
    Does (.rasSpareCtlGo w l) s fun t => t.fld F.RAS_SPARE_CTL_GO = 1 ∧ t.fld F.RAS_SPARE_CTL_LCLUSTER = l ∧
      RegsBut [F.RAS_SPARE_CTL_GO.reg] s t ∧
      (s.physOf l ∈ t.ras.spareDue ∨ ∃ x ∈ t.ras.spares, x.logical = l)) ∧
  (∀ (s : State) (w : Agent) (l : Nat), Accepts s w blkRas → l < 256 → s.chooseSpare (s.physOf l) s.busySpares = none →
    Does (.rasSpareCtlGo w l) s fun t => t.fld F.RAS_SPARE_CTL_GO = s.fld F.RAS_SPARE_CTL_GO ∧ t.fld F.RAS_SPARE_CTL_LCLUSTER = l ∧ t.ras = s.ras ∧
      RegsBut [F.RAS_SPARE_CTL_GO.reg] s t)

/-- Self-tests start and end. A self-test of a cluster, lane, port or standby that may start shows KIND, INDEX and RUNNING and
holds what it tests; one that may not is refused; each ends PASS or FAIL. (R735, R736.) -/
def Obligations.SelfTestsComplete : Prop :=
  (∀ (s : State) (w : Agent) (c : Instr) (kind i : Nat), Accepts s w blkRas → s.fld F.RAS_SELFTEST_GO = 0 → i < 512 →
    (c = .selftestCluster w i ∧ kind = 1 ∧ s.cluRuns i = true ∧ i ∉ s.repair.failed ∧ i ∉ s.busySpares) ∨
    (c = .selftestLane w i ∧ kind = 2 ∧ i < 16 ∧ s.inService = true ∧ s.laneUsable i = true) ∨
    (c = .selftestPort w i ∧ kind = 3 ∧ i < 32 ∧ s.inService = true ∧ s.portUsable i = true) ∨
    (c = .selftestController w ∧ kind = 4 ∧ i = s.fld F.RAS_SELFTEST_INDEX ∧ s.fld (F.RAS_CTL_HEALTH_STATE.at s.standby) = 3) →
    Does c s fun t => t.fld F.RAS_SELFTEST_GO = 1 ∧ t.fld F.RAS_SELFTEST_KIND = kind ∧ t.fld F.RAS_SELFTEST_INDEX = i ∧
      t.fld F.RAS_SELFTEST_RESULT = stRunning ∧ t.ras.selftest = some (kind, i, s.now) ∧
      (kind = 2 → t.laneState i = mlHeld) ∧ (kind = 3 → t.portState i = poDraining) ∧
      (kind = 4 → t.fld (F.RAS_CTL_HEALTH_STATE.at s.standby) = 4)) ∧
  (∀ (s : State) (w : Agent) (i : Nat), Accepts s w blkRas → s.fld F.RAS_SELFTEST_GO = 0 → s.cluRuns i = false → i < 512 →
    Does (.selftestCluster w i) s fun t => t.fld F.RAS_SELFTEST_GO = 0 ∧ t.fld F.RAS_SELFTEST_RESULT = stTestRefused ∧ t.ras.selftest = none) ∧
  (∀ (s : State) (i n : Nat) (pass : Bool), s.ras.selftest = some (1, i, n) → s.seqState i = sqIdle →
    Does (.selftestDone pass) s fun t => t.ras.selftest = none ∧ t.fld F.RAS_SELFTEST_GO = 0 ∧
      t.fld F.RAS_SELFTEST_RESULT = (if pass then stPass else stFail)) ∧
  (∀ (s : State) (i n : Nat) (pass : Bool), s.ras.selftest = some (2, i, n) → s.laneState i = mlHeld →
    exec (.selftestDone pass) s = .next ((s.endTest 2 i (if pass then stPass else stFail)).endLaneTest i pass)) ∧
  (∀ (s : State) (i n : Nat) (pass : Bool), s.ras.selftest = some (3, i, n) → s.portState i = poDraining → s.portEmpty i = true →
    exec (.selftestDone pass) s = .next ((s.beginRetrain i 8).endTest 3 i (if pass then stPass else stFail))) ∧
  (∀ (s : State) (i n : Nat) (pass : Bool), s.ras.selftest = some (4, i, n) →
    Does (.selftestDone pass) s fun t => t.ras.selftest = none ∧ t.fld F.RAS_SELFTEST_GO = 0 ∧
      t.fld (F.RAS_CTL_HEALTH_STATE.at s.standby) = (if pass then 3 else 5))

/-- Controller heartbeats, health, dual-act windows and handovers. A heartbeat of the current EPOCH restarts the timer, another
does not; a healthy report makes the standby HEALTHY; failures restart it or leave it UNHEALTHY; a mismatch stops the active
controller; the dual-act window closes; RELINQUISH hands over. (R723, R724, R725, R727, R730.) -/
def Obligations.ControllersComplete : Prop :=
  (∀ (s : State) (c : Bool) (e : BitVec 16), s.firmwareRuns = true → bit c = s.activeNum → s.ctl.stopped = false →
    (e.toNat = s.epoch → Does (.controllerHeartbeat c e) s fun t => t.ctl.beatAt = s.now ∧ t.ctlState (bit c) = csActive ∧
      RegsBut [(F.RAS_CTL_HEALTH_STATE.at (bit c)).reg] s t) ∧
    (e.toNat ≠ s.epoch → Does (.controllerHeartbeat c e) s fun t => t.ctl.beatAt = s.ctl.beatAt ∧ t.regs = s.regs)) ∧
  (∀ (s : State) (c : Bool), s.firmwareRuns = true → bit c = s.standby → s.ctlState s.standby ≤ csStarting →
    Does (.healthReport c true true true) s fun t => t.ctlState (bit c) = csStandby ∧
      t.fld (F.RAS_CTL_HEALTH_LOCKSTEP_OK.at (bit c)) = 1 ∧ t.fld (F.RAS_CTL_HEALTH_SCRUB_OK.at (bit c)) = 1 ∧
      t.fld (F.RAS_CTL_HEALTH_JOURNAL_OK.at (bit c)) = 1 ∧ RegsBut [(F.RAS_CTL_HEALTH_STATE.at (bit c)).reg] s t) ∧
  (∀ (s : State) (cause : Nat), s.firmwareRuns = true → 1 ≤ cause → cause ≤ 3 → s.ctlState s.standby ≤ csStandby →
    Does (.standbyUnhealthy cause) s fun t =>
      t.ctlState s.standby = (if (recent s.now nsHour s.ctl.fails).isEmpty then csRestarting else csUnhealthy) ∧
      t.ctl.fails = recent s.now nsHour s.ctl.fails ++ [s.now] ∧
      (cause = 1 → t.fld (F.RAS_CTL_HEALTH_LOCKSTEP_OK.at s.standby) = 0) ∧
      (cause = 2 → t.fld (F.RAS_CTL_HEALTH_SCRUB_OK.at s.standby) = 0) ∧
      (cause = 3 → t.fld (F.RAS_CTL_HEALTH_JOURNAL_OK.at s.standby) = 0)) ∧
  (∀ (s : State), s.firmwareRuns = true → Does .lockstepMismatch s fun t => t.ctl.stopped = true ∧
    t.fld (F.RAS_CTL_HEALTH_LOCKSTEP_OK.at s.activeNum) = 0 ∧ RegsBut [(F.RAS_CTL_HEALTH_LOCKSTEP_OK.at s.activeNum).reg] s t) ∧
  (∀ (s : State), s.fld F.RAS_LEASE_DUAL_ACT = 1 → (∀ n, s.ctl.dualAt = some n → n + 50000 ≤ s.now) →
    Does .dualActClear s fun t => t.fld F.RAS_LEASE_DUAL_ACT = 0 ∧ t.ctl.dualAt = none ∧ RegsBut [F.RAS_LEASE_DUAL_ACT.reg] s t) ∧
  (∀ (s : State) (c : Bool) (e : BitVec 16), s.firmwareRuns = true → bit c = s.activeNum → e.toNat = s.epoch →
    (s.ctlState s.standby = csStandby → exec (.relinquish c e) s = .next (s.handover (originOf (ctlAgent (bit c))))) ∧
    (s.ctlState s.standby ≠ csStandby → Does (.relinquish c e) s fun t => t.ctl.stopped = true ∧ t.ctl.relinquished = true ∧ t.regs = s.regs)) ∧
  (∀ (s : State) (c : Bool) (e : BitVec 16), s.firmwareRuns = true → bit c ≠ s.activeNum → s.fld F.RAS_LEASE_DUAL_ACT = 1 →
    (e.toNat + 1) % 65536 = s.epoch → exec (.relinquish c e) s = .next s.closeDual)

/-- Takeovers, epochs and the dead man. A takeover raises EPOCH, swaps the lease and opens the dual-act window; a write of the
current EPOCH is done, entered in the journal and accepted, a listed register first set to its journal entry; one of another EPOCH or
without the lease is counted and refused; the dead-man timer enters SAFE; restarts end healthy or UNHEALTHY; a RECOVER that times out
is refused. What the journal holds is the model's choice (log entry 63). (R48, R297, R619, R722, R726, R729, R731, R733.) -/
def Obligations.LeasesComplete : Prop :=
  (∀ (s : State), s.firmwareRuns = true → s.standbyReady = true → s.ctl.beatAt + 5000000 ≤ s.now → s.firm.graft = none →
    Does .takeover s fun t => t.epoch = (s.epoch + 1) % 65536 ∧ t.activeNum = s.standby ∧ t.fld F.RAS_LEASE_DUAL_ACT = 1 ∧
      t.fld F.RAS_LEASE_DUALACT_WRITES = 0 ∧ t.fld F.GLB_STATE_ACTIVE_CTL = s.standby ∧ t.ctlState s.activeNum = csSelfTest ∧
      t.ctlState s.standby = csActive ∧ t.ctl.dualAt = some s.now) ∧
  (∀ (s u : State) (c : Bool) (e : BitVec 16) (addr size : Nat) (v : Word), s.off = false → e.toNat = s.epoch →
    u = s.reconcile (bit c) (addr / 8 * 8) → exec (.controllerWrite c e addr size v) s = .next (State.emit
      ((((if addr / 8 * 8 = F.FWU_TAKE_TAKE.reg ∧ e.toNat ≠ u.epoch then u else u.regWrite (ctlAgent (bit c)) addr size v).noteDual s
        (bit c) (addr / 8 * 8)).journalWrite (bit c) e.toNat (addr / 8 * 8))) (.ctlAnswer c true))) ∧
  (∀ (s : State) (k a : Nat) (v : Word), k = s.activeNum → s.fld F.RAS_LEASE_DUAL_ACT = 0 → a ∈ s.ctl.dual →
    (s.cold.journal.writes.find? fun e => decide (e.1 = a)) = some (a, v) →
    ∃ u : State, u.ctl.dual = (s.ctl.dual.filter fun x => decide (x ≠ a)) ∧ u.regs = s.regs ∧
      s.reconcile k a = if u.view a = v then u else u.regWrite (ctlAgent k) a 8 v) ∧
  (∀ (s : State) (k e a : Nat), e = s.epoch → k = s.activeNum →
    (s.journalWrite k e a).cold.journal.writes = (s.cold.journal.writes.filter fun x => decide (x.1 ≠ a)) ++ [(a, s.reg a)] ∧
      (s.journalWrite k e a).regs = s.regs) ∧
  (∀ (s : State) (w : Agent) (addr size : Nat) (v : Word), s.off = false → s.holdsLease w = false →
    exec (.registerWrite w addr size v) s = .next (s.staleWrite (decide (w = .ctlB)) 0)) ∧
  (∀ (s : State) (c : Bool) (e : BitVec 16) (addr size : Nat) (v : Word), s.off = false → e.toNat ≠ s.epoch →
    s.fld F.RAS_LEASE_DUAL_ACT = 0 → s.ctl.staleSeen = true → bit c = s.activeNum →
    Does (.controllerWrite c e addr size v) s fun t => t.fld F.RAS_LEASE_STALE_WRITES = min (s.fld F.RAS_LEASE_STALE_WRITES + 1)
        (2 ^ (F.RAS_LEASE_STALE_WRITES.hi + 1 - F.RAS_LEASE_STALE_WRITES.lo) - 1) ∧
      t.out = .ctlAnswer c false :: s.out ∧ RegsBut [F.RAS_LEASE_STALE_WRITES.reg] s t) ∧
  (∀ (s : State), s.off = false → s.devState ≠ dsSeedbed → s.devState ≠ dsSafe → ¬ (s.devState = dsBoot ∧ s.boot.stage = 0) →
    s.ctl.beatAt + 20000000 ≤ s.now → exec .deadMan s = .next (s.enterSafe false)) ∧
  (∀ (s : State) (c : Bool), s.off = false → s.safe = none → s.fld (F.RAS_CTL_HEALTH_STATE.at (bit c)) ∈ [1, 4, 6] →
    (Does (.controllerRestartDone c true) s fun t =>
      t.fld (F.RAS_CTL_HEALTH_STATE.at (bit c)) = (if s.fld F.RAS_LEASE_ACTIVE = bit c then 2 else 3) ∧
      t.ctl.reported = s.ctl.reported.set (bit c) s.now ∧ RegsBut [(F.RAS_CTL_HEALTH_STATE.at (bit c)).reg] s t) ∧
    (Does (.controllerRestartDone c false) s fun t => t.fld (F.RAS_CTL_HEALTH_STATE.at (bit c)) = 5)) ∧
  (∀ (s : State) (f : Safe) (n : Nat), s.safe = some f → f.recover = some n → f.trip = false → n + 10 * nsSec ≤ s.now →
    Does .safeRestartTimeout s fun t => t.safe = some { f with recover := none } ∧ t.fld F.GLB_DEV_CMD_RECOVER = 0 ∧
      t.fld F.GLB_DEV_CMD_REFUSED = 1 ∧ RegsBut [F.GLB_DEV_CMD_RECOVER.reg] s t)

/-- An install checks, writes and ends. INSTALL ends with STATE while one runs, with SOURCE or its check's result on failure, and
otherwise opens the slot and programs the payload; it ends INSTALLED with its digests, or with DIGEST or FLASH. With no install, INSTALL_DONE ends a
copy written from the staging window (log entry 72). (R761.) -/
def Obligations.InstallsComplete : Prop :=
  (∀ (s : State) (w : Agent) (k : Nat), Accepts s w blkFwu → s.fwuBusy = true →
    exec (.install w k) s = .next ((fwuStarted s w 1 k).endFwu fwState)) ∧
  (∀ (s u : State) (w : Agent) (k : Nat), Accepts s w blkFwu → s.fwuBusy = false → (fwuStarted s w 1 k).takeStaged (s.fwuSource) headerBytes = (u, none) →
    exec (.install w k) s = .next (u.failInstall k fwSource)) ∧
  (∀ (s u : State) (w : Agent) (k : Nat) (h : Bytes), Accepts s w blkFwu → s.fwuBusy = false →
    (fwuStarted s w 1 k).takeStaged s.fwuSource headerBytes = (u, some h) → u.installCheck k h ≠ 0 →
    exec (.install w k) s = .next (u.failInstall k (u.installCheck k h))) ∧
  (∀ (s u v : State) (w : Agent) (k : Nat) (h b : Bytes), Accepts s w blkFwu → s.fwuBusy = false →
    (fwuStarted s w 1 k).takeStaged s.fwuSource headerBytes = (u, some h) →
    (u.openSlotWrite k h).takeStaged (u.fwuSource + headerBytes) (payloadBytes h) = (v, some b) →
    Does (.install w k) s fun t =>
      if u.installCheck k h = 0 then
        t.firm.install = some { slot := k, header := h, origin := originOf w, got := b.length } ∧
          t.flash = (v.flashWrite (slotPayload k) b).flash ∧ t.fld F.FWU_STATUS_STATE = fwStWriting
      else t = u.failInstall k (u.installCheck k h)) ∧
  (∀ (s : State) (i : Install), s.firm.install = some i → i.paused = false → payloadBytes i.header ≤ i.got →
    (s.payloadOk i.slot i.header = true → exec (.installDone true) s = .next (State.raiseEvent
      (({ (s.flashWrite (slotBase i.slot) i.header).writeRecord i.origin i.slot srInstalled with
          firm := { ((s.flashWrite (slotBase i.slot) i.header).writeRecord i.origin i.slot srInstalled).firm with install := none } } :
        State).endFwu fwOk) 0x30 i.slot (numAt i.header 12 2))) ∧
    (s.payloadOk i.slot i.header = false → exec (.installDone true) s = .next (s.failInstall i.slot fwDigest)) ∧
    exec (.installDone false) s = .next ((s.flashErase (slotSector i.slot) 4096).failInstall i.slot fwFlash)) ∧
  (∀ (s : State) (d : Seed) (ok : Bool), s.off = false → s.firm.install = none → s.firm.seed = some d → d.staged = true →
    exec (.installDone ok) s = .next (s.endCopy d ok))

/-- Grafts hand over, load, are taken or fall back. A graft starts or ends with its check's result; the standby hands over, its
peer follows, clusters load; a take in time ends TAKEN and one too late falls back; a closed window, a REJECT and the fallback
leave the causes and slots their rules give. (R770, R771, R772, R773, R775, R774.) -/
def Obligations.GraftsComplete : Prop :=
  (∀ (s : State) (w : Agent) (k : Nat), Accepts s w blkFwu →
    ((fwuStarted s w 2 k).graftCheck k = 0 → exec (.graft w k) s = .next ((fwuStarted s w 2 k).startGraft (originOf w) k)) ∧
    ((fwuStarted s w 2 k).graftCheck k ≠ 0 →
      exec (.graft w k) s = .next ((fwuStarted s w 2 k).endFwu ((fwuStarted s w 2 k).graftCheck k)))) ∧
  (∀ (s : State) (g : Graft), s.firm.graft = some g → s.firmwareRuns = true → g.back = none → s.fwStage = fgStandby →
    s.firm.runs.length = 2 →
    Does .graftHandover s fun t =>
      if s.slotPasses g.slot = true then t.activeNum = s.standby ∧ t.epoch = (s.epoch + 1) % 65536 ∧
        t.ctlState s.activeNum = csRestarting ∧ t.fld F.FWU_STATUS_STAGE = fgPeer ∧ t.runs s.standby = g.slot
      else t = s) ∧
  (∀ (s : State) (g : Graft), s.firm.graft = some g → s.firmwareRuns = true → g.back = none → s.fwStage = fgPeer →
    Does .graftPeerHealthy s fun t => ∃ u : State, t = u.microcodeDone g ∧ u.ctlState s.standby = csStandby ∧
      u.fld F.FWU_STATUS_STAGE = fgMicrocode ∧ u.firm.runs = s.firm.runs.set s.standby g.slot) ∧
  (∀ (s : State) (g g1 : Graft) (p : Nat), s.firm.graft = some g →
    s.fwStage = fgMicrocode ∨ (s.fwStage = fgBack ∧ s.slotState g.slot = srRejected) →
    (s.unloaded g).head? = some p → s.seqState p = sqIdle → (s.clu p).lead = none → g1 = { g with loaded := g.loaded ++ [p] } →
    exec (.microcodeLoad p) s = .next (({ s with firm := { s.firm with
      graft := some g1, ucode := mset (fun _ => 0) s.firm.ucode p (if g.back.isSome then g.prev else g.slot) } } : State).microcodeDone g1)) ∧
  (∀ (s : State) (g : Graft) (c : Bool) (e : BitVec 16), s.off = false → e.toNat = s.epoch → bit c = s.activeNum →
    s.firm.graft = some g → g.back = none → s.fwStage = fgAwait →
    (g.deadline ≤ s.now → exec (.fwuTake c e) s = .next ((((s.causeFallback 1).noteDual s (bit c) 0xA00040).journalWrite (bit c) e.toNat
      0xA00040).emit (.ctlAnswer c true))) ∧
    (s.now < g.deadline → Does (.fwuTake c e) s fun t => t.firm.graft = none ∧ t.fld F.GLB_STATE_FW_TRIAL = 0 ∧
      t.fld F.FWU_STATUS_STAGE = 0 ∧ t.fld F.FWU_STATUS_RESULT = fwTaken ∧ t.out.head? = some (.ctlAnswer c true))) ∧
  (∀ (s : State) (g : Graft), s.firm.graft = some g → g.back = none → g.deadline ≤ s.now →
    Does .graftWindowExpiry s fun t => t.firm.graft = some { g with back := some 1, loaded := [] } ∧
      t.fld F.FWU_STATUS_FALLBACK_CAUSE = 1 ∧ t.fld F.FWU_STATUS_STAGE = fgBack ∧
      RegsBut [F.FWU_STATUS_STAGE.reg] s t) ∧
  (∀ (s : State) (w : Agent) (g : Graft), Accepts s w blkFwu → s.firm.graft = some g → g.back = none →
    Does (.reject w) s fun t => t.firm.graft = some { g with back := some 2, loaded := [] } ∧
      t.fld F.FWU_STATUS_FALLBACK_CAUSE = 2 ∧ t.fld F.FWU_STATUS_STAGE = fgBack) ∧
  (∀ (s : State) (w : Agent), Accepts s w blkFwu → s.firm.graft = none →
    Does (.reject w) s fun t => t.fld F.FWU_STATUS_RESULT = fwState) ∧
  (∀ (s : State) (g : Graft) (cause : Nat), s.firm.graft = some g → g.back = some cause → s.firmwareRuns = true → s.slotState g.slot = srGraft →
    s.firm.runs.length = 2 → s.runs s.activeNum = g.slot → g.slot ≠ g.prev →
    Does .fallback s fun t => t.runs 0 = g.prev ∧ t.runs 1 = g.prev ∧ t.fld F.FWU_STATUS_RUNNING = (g.prev + 1) % 4 ∧
      t.activeNum = s.standby ∧ t.ctlState s.activeNum = csRestarting) ∧
  (∀ (s : State) (g : Graft), s.firm.graft = some g → g.back ≠ none → s.slotState g.slot = srRejected → s.unloaded g = [] →
    Does .fallbackDone s fun t => t.firm.graft = none ∧ t.fld F.GLB_STATE_FW_TRIAL = 0 ∧ t.fld F.FWU_STATUS_STAGE = 0 ∧
      t.fld F.FWU_STATUS_RESULT = fwFallback)

/-- Configuration writes, lane calibration and the seedbed. CONFIG_WRITE checks its copy, opens the buffer or writes; LANE_CAL
ends with OK or STATE; BEGIN, BLOCK, END and ABORT open, fill, end and drop a download with the status their rules give. (R765,
R776, R778.) -/
def Obligations.BuffersComplete : Prop :=
  (∀ (s : State) (w : Agent) (c : Nat), Accepts s w blkFwu → s.fwuBusy = false →
    (2 ≤ c ∨ s.fld F.GLB_CFG_STATUS_IN_USE = c + 1 → exec (.configWrite w c) s = .next ((fwuStarted s w 4 c).endFwu fwSlot)) ∧
    (c < 2 → s.fld F.GLB_CFG_STATUS_IN_USE ≠ c + 1 → s.fld F.FWU_CTL_VIA_BUF = 1 →
      Does (.configWrite w c) s fun t => t.firm.seed = some { config := true, target := c } ∧ t.fld F.FWU_SEED_STATUS_STATE = 1 ∧
        t.fld F.FWU_SEED_STATUS_SEQ_DONE = 0 ∧ t.fld F.FWU_SEED_STATUS_RESULT = 0 ∧ t.fld F.FWU_STATUS_STATE = fwStWriting) ∧
    (c < 2 → s.fld F.GLB_CFG_STATUS_IN_USE ≠ c + 1 → s.fld F.FWU_CTL_VIA_BUF = 0 →
      exec (.configWrite w c) s = .next ((fwuStarted s w 4 c).writeCopy c))) ∧
  (∀ (s : State) (w : Agent) (e : Nat), Accepts s w blkFwu →
    Does (.laneCal w e) s fun t => t.fld F.FWU_STATUS_RESULT = (if e ≤ 12 ∧ s.sparesUsed e < 2 then fwOk else fwState)) ∧
  (∀ (s : State) (k : Nat), s.reaches .host = true → s.devState = dsSeedbed → k < 2 →
    Does (.begin k) s fun t => t.firm.seed = some { config := false, target := k } ∧ t.fld F.FWU_SEED_STATUS_STATE = sdOpen ∧
      t.fld F.FWU_SEED_STATUS_SEQ_DONE = 0 ∧ t.fld F.FWU_SEED_STATUS_RESULT = 0 ∧
      RegsBut [F.FWU_SEED_STATUS_STATE.reg] s t) ∧
  (∀ (s : State) (d : Seed) (seq len : Nat), SeedAccepts s → s.firm.seed = some d → d.staged = true →
    exec (.block seq len) s = .next (s.closeLatch .host blkFwu) ∧ exec .seedEnd s = .next (s.closeLatch .host blkFwu) ∧
      exec .seedAbort s = .next (s.closeLatch .host blkFwu)) ∧
  (∀ (s : State) (d : Seed) (seq len : Nat), SeedAccepts s → s.firm.seed = some d → d.staged = false → len ≠ 0 → len % 64 = 0 → len ≤ 65536 →
    seq < 65536 → d.config = true ∨ s.devState = dsSeedbed →
    (d.seq = none → seq = 0 → exec (.block seq len) s = .next ((s.closeLatch .host blkFwu).firstBlock d len)) ∧
    (d.seq = some seq → Does (.block seq len) s fun t => t.fld F.FWU_SEED_STATUS_SEQ_DONE = seq ∧ t.flash = s.flash) ∧
    (∀ n, d.seq = some n → seq = n + 1 → exec (.block seq len) s = .next ((s.closeLatch .host blkFwu).nextBlock d seq len)) ∧
    (∀ n, d.seq = some n → seq ≠ n → seq ≠ n + 1 → Does (.block seq len) s fun t => t.regs = s.regs ∧ t.flash = s.flash ∧ t.firm = s.firm)) ∧
  (∀ (s : State) (d : Seed), SeedAccepts s → s.firm.seed = some d → d.staged = false →
    (d.config = true → exec .seedEnd s = .next ((s.closeLatch .host blkFwu).endBuffered d)) ∧
    (d.config = false → s.devState = dsSeedbed → d.seq ≠ none → payloadBytes d.header ≤ d.got → s.payloadOk d.target d.header = true →
      Does .seedEnd s fun t => t.devState = dsBoot ∧ t.boot.stage = 0 ∧ t.firm.seed = none) ∧
    (d.config = false → s.devState = dsSeedbed → s.payloadOk d.target d.header = false →
      exec .seedEnd s = .next ((s.closeLatch .host blkFwu).endSeed d fwDigest))) ∧
  (∀ (s : State), SeedAccepts s → (∀ d, s.firm.seed = some d → d.staged = false) →
    Does .seedAbort s fun t => t.fld F.FWU_SEED_STATUS_STATE = sdIdle ∧ t.firm.seed = none)

/-- Owner commands are checked in order and have their effects. For each of the six commands: a bad header or body ends FORMAT, a
wrong nonce NONCE, no signer NO_ROLE, a signature that does not verify SIGNATURE, and one that does gives the command's effect and
result. TAMPER raises its event and starts a wipe. The order of the checks is the model's reading (log entry 9). (R782, R783,
R303, R762, R789, R784.) -/
def Obligations.OwnerCommandsComplete : Prop :=
  (∀ (s : State) (w : Agent) (c : Instr) (code role : Nat) (form : Bytes → Bool) (effect : State → Bytes → State × Nat) (h m : Bytes),
    OwnerRow w c code role form effect → Accepts s w blkSec → s.ownerCode = code →
    h = s.mbox 64 → m = s.mbox (64 + bodyBytes h) →
    (ownerHeadOk h = false → exec c s = .next ((s.closeLatch w blkSec).endOwner code ocFormat)) ∧
    (ownerHeadOk h = true → form (m.drop 64) = false → exec c s = .next ((s.closeLatch w blkSec).endOwner code ocFormat)) ∧
    (ownerHeadOk h = true → form (m.drop 64) = true → numAt h 16 8 ≠ (s.reg F.SEC_NONCE_NONCE.reg).toNat →
      exec c s = .next ((s.closeLatch w blkSec).endOwner code ocNonce)) ∧
    (ownerHeadOk h = true → form (m.drop 64) = true → numAt h 8 8 = s.serialNumber →
      numAt h 16 8 = (s.reg F.SEC_NONCE_NONCE.reg).toNat →
      (s.signer h role = none → exec c s = .next ((s.closeLatch w blkSec).endOwner code ocNoRole)) ∧
      (∀ e, s.signer h role = some e → exec c s = .next
        (if Config.slhDsaVerify (rolePublic e) m ((s.mbox (64 + bodyBytes h + sigBytes)).drop (64 + bodyBytes h)) then
          State.endOwner (effect (s.closeLatch w blkSec) (m.drop 64)).1 code (effect (s.closeLatch w blkSec) (m.drop 64)).2
        else (s.closeLatch w blkSec).endOwner code ocSignature)))) ∧
  (∀ (s : State), s.off = false → exec .tamper s = .next ((s.raiseEvent 0x24 0 0).startWipe wipeTamper))

/-- What owner commands and wipes change. A command's end shows command and result, draws a fresh nonce and clears the mailbox; a
wipe clears keys, change-log ring and identity and shows busy, or joins the one in progress; roles, authorisations, the life cycle
and the provisioned keys change, or the command ends with STATE. (R301, R303, R304, R762, R781, R782, R783, R789.) -/
def Obligations.OwnerEffectsFollowTheRules : Prop :=
  (∀ (s : State) (code res : Nat), code < 65536 → res < 256 →
    (s.endOwner code res).fld F.SEC_CMD_STATUS_COMMAND = code ∧ (s.endOwner code res).fld F.SEC_CMD_STATUS_RESULT = res ∧
    (s.endOwner code res).reg F.SEC_NONCE_NONCE.reg = Config.freeValue s.freeCtr ∧
    (∀ a, mboxBase ≤ a → a < mboxBase + 0x10000 → (s.endOwner code res).reg a = regDefault a)) ∧
  (∀ (s : State) (n : Nat), s.cold.wiping = none →
    (s.startWipe n).disp.keys = [] ∧ (s.startWipe n).log.ring = [] ∧ (s.startWipe n).log.queue = [] ∧
    (s.startWipe n).cold.identity = none ∧ (s.startWipe n).cold.eraseDue = true ∧
    (s.startWipe n).cold.wiping = some (2 ^ n) ∧ (s.startWipe n).fld F.SEC_CF_STATUS_WIPE_BUSY = 1) ∧
  (∀ (s : State) (n c : Nat), s.cold.wiping = some c →
    s.startWipe n = { s with cold := { s.cold with wiping := some (c ||| 2 ^ n) } }) ∧
  (∀ (s : State) (w : Agent) (b : Bytes),
    (s.cold.wiping = none → (s.setRolesEffect w b).2 = ocDone ∧ (s.setRolesEffect w b).1.cold.roles = roleEntries b) ∧
    (s.cold.wiping ≠ none → s.setRolesEffect w b = (s, ocState)) ∧
    (s.cold.auths.length < 4 → (s.authoriseEffect b).2 = ocDone ∧ (s.authoriseEffect b).1.cold.auths = s.cold.auths ++ [b]) ∧
    (4 ≤ s.cold.auths.length → s.authoriseEffect b = (s, ocState)) ∧
    (s.lifeOk (numAt b 0 1) = false → s.lifecycleEffect w b = (s, ocState)) ∧
    (s.lifeOk (numAt b 0 1) = true → (s.lifecycleEffect w b).2 = ocDone ∧ (s.lifecycleEffect w b).1.lifecycle = numAt b 0 1) ∧
    (s.keyRefs (ktkSlot b) ≠ 0 → s.clearKtkEffect w b = (s, ocState)) ∧
    (s.keyRefs (ktkSlot b) = 0 → (s.clearKtkEffect w b).2 = ocDone ∧ (s.clearKtkEffect w b).1.keySlot (ktkSlot b) = {}) ∧
    (s.cold.identity = none → s.installKtkEffect w b = (s, ocState)) ∧
    (∀ i, s.cold.identity = some i → (s.installKtkEffect w b).2 = ocDone ∧
      ((s.installKtkEffect w b).1.keySlot (ktkSlot b)).bytes = ktkKey (Config.identitySeed i.1 i.2) b ++ List.replicate 32 0))

/-- SPDM requests are answered. A reply leaves in transmission units, over I3C of 64 bytes and after its in-band interrupt; version, capabilities, algorithms, digests, certificates, challenges and measurements are
answered, with errors where no identity, index or offset allows an answer; signed ones are queued, and the oldest is signed and
sent. Message content is the model's (log entries 7, 26 and 27). (R574, R582, R787, R788, R830.) -/
def Obligations.AttestationCompletes : Prop :=
  (∀ (s : State) (ty : Nat) (b : Bytes) (us : List Bytes), us = unitsOf 64 (bytesOfNat 1 ty ++ b) →
    (s.reply .i3c ty b).out = (us.zipIdx.map fun (x : Bytes × Nat) => Emit.i3c s.mgmt.eid
      (decide (x.2 = 0)) (decide (x.2 + 1 = us.length)) (x.2 % 4) x.1).reverse ++ .ibi 0xAE :: s.out ∧
    us.flatten = bytesOfNat 1 ty ++ b ∧ ∀ u ∈ us, u.length ≤ 64) ∧
  (∀ (s : State) (ty : Nat) (b : Bytes) (us : List Bytes), us = unitsOf s.vdmUnit (bytesOfNat 1 ty ++ b) →
    (s.reply .vdm ty b).out = (us.zipIdx.map fun (x : Bytes × Nat) => Emit.vdm 2 0x7F 0x1AB4 (s.fld F.HST_MCTP_CFG_EID)
      (decide (x.2 = 0)) (decide (x.2 + 1 = us.length)) (x.2 % 4) x.1).reverse ++ s.out ∧
    us.flatten = bytesOfNat 1 ty ++ b ∧ ∀ u ∈ us, u.length ≤ 64 * 2 ^ s.fld F.HST_MCTP_CFG_MTU) ∧
  (∀ (s : State) (ep : Endpoint), s.epServed ep = true →
    exec (.getVersion ep) s = .next (s.spdmReply ep 0x04 0 [0x00, 0x14]) ∧
    exec (.getCapabilities ep) s = .next (s.spdmReply ep 0x61 0 [0x16, 0, 0, 0]) ∧
    exec (.negotiateAlgorithms ep) s = .next (s.spdmReply ep 0x63 0 [0, 0x10, 0, 0]) ∧
    (s.certChain = none → exec (.getDigests ep) s = .next (s.spdmError ep seUnspecified) ∧
      ∀ o n, exec (.getCertificate ep o n) s = .next (s.spdmError ep seUnspecified)) ∧
    (∀ c, s.certChain = some c → exec (.getDigests ep) s = .next (s.spdmReply ep 0x01 0 (Config.spdmDigest c)) ∧
      ∀ o n, exec (.getCertificate ep o n) s = .next
        (if c.length ≤ o then s.spdmError ep seInvalid
        else s.spdmReply ep 0x02 0 (bytesOfNat 2 (cutAt c o n).length ++ bytesOfNat 2 (c.length - o - (cutAt c o n).length) ++
          cutAt c o n)))) ∧
  (∀ (s : State) (ep : Endpoint) (nonce : Bytes), s.epServed ep = true → s.cold.identity ≠ none → s.mgmt.sigs.length < 5 →
    (Does (.challenge ep nonce) s fun t => ∃ b, t.mgmt.sigs = s.mgmt.sigs ++ [{ ep := ep, body := b, covers := nonce ++ b }] ∧
      b = spdmBody 0x03 0 (Config.spdmDigest (s.certChain.getD []) ++ s.nonceBytes) ∧ t.freeCtr = s.freeCtr + 4 ∧ t.out = s.out ∧ t.regs = s.regs) ∧
    (∀ i, i = 0 ∨ measureBlocks i ≠ [] →
      Does (.getMeasurements ep i true nonce) s fun t => ∃ b, t.mgmt.sigs = s.mgmt.sigs ++ [{ ep := ep, body := b, covers := nonce ++ b }] ∧
        b = spdmBody 0x60 (if i = 0 then 7 else 0) (bytesOfNat 1 (measureBlocks i).length ++
          (measureBlocks i).flatMap s.measureBlock ++ s.nonceBytes) ∧ t.regs = s.regs)) ∧
  (∀ (s : State) (ep : Endpoint) (nonce : Bytes), s.epServed ep = true → s.cold.identity ≠ none → 5 ≤ s.mgmt.sigs.length →
    exec (.challenge ep nonce) s = .next (s.spdmError ep seBusy)) ∧
  (∀ (s : State) (ep : Endpoint) (i : Nat) (nonce : Bytes), s.epServed ep = true →
    (i = 0 ∨ measureBlocks i ≠ [] → exec (.getMeasurements ep i false nonce) s = .next (({ s with freeCtr := s.freeCtr + 4 } : State).reply ep mtSpdm
      (spdmBody 0x60 (if i = 0 then 7 else 0) (bytesOfNat 1 (measureBlocks i).length ++ (measureBlocks i).flatMap s.measureBlock ++
        s.nonceBytes)))) ∧
    (i ≠ 0 → measureBlocks i = [] → ∀ sg, exec (.getMeasurements ep i sg nonce) s = .next (s.spdmError ep seInvalid))) ∧
  (∀ (s : State) (r : SigReq) (rest : List SigReq), s.mgmt.sigs = r :: rest →
    (∀ i, s.cold.identity = some i → exec .spdmSignatureDone s = .next (({ s with mgmt := { s.mgmt with sigs := rest } } : State).reply r.ep
      mtSpdm (r.body ++ Config.slhDsaSign (Config.identitySeed i.1 i.2) r.covers))) ∧
    (s.cold.identity = none → exec .spdmSignatureDone s =
      .next (({ s with mgmt := { s.mgmt with sigs := rest } } : State).spdmError r.ep seUnspecified)))

/-- Management-bus addresses, sensors, effecters and updates. ENTDAA and SETDASA give the target its address; records, sensors,
state sensors, effecters and polled events are answered; the rack cap and the heartbeat change; firmware data begin or continue an
update; activation grafts it. Message content is the model's (log entry 27). (R761, R783, R829, R830, R831, R832, R834, R835.) -/
def Obligations.PlatformManagementCompletes : Prop :=
  (∀ (s : State) (a : BitVec 7), s.off = false → s.mgmt.dynAddr = none →
    exec (.entdaa a) s = .next (({ s with mgmt := { s.mgmt with dynAddr := some a } } : State).emit
      (.i3cId (provisionalId (s.fld F.GLB_IDENT_CHIP_ID)) bcrByte)) ∧
    exec (.setdasa a) s = .next { s with mgmt := { s.mgmt with dynAddr := some a } }) ∧
  (∀ (s : State) (ty : Nat) (b : Bytes), exec (.i3cMctpReceive ty b) s = .next s) ∧
  (∀ (s : State), s.i3cServed = true →
    exec .getPdrRepositoryInfo s = .next (s.pldmReply 0x50 0 [23, 0, 0, 0]) ∧
    (∀ k i, 1 ≤ k → k ≤ 23 → pdrTable[k - 1]? = some i → exec (.getPdr k) s = .next (s.pldmReply 0x51 0 (s.pdrBytes i))) ∧
    (∀ k, 23 < k → exec (.getPdr k) s = .next (s.pldmReply 0x51 0x82 [])) ∧
    (∀ k, 1 ≤ k → k ≤ 16 → exec (.getSensorReading k) s = .next (s.pldmReply 0x11 0 (bytesOfNat 1 (s.sensorState k) ++
      intBytes (s.sensed k)))) ∧
    (∀ k, k = 0 ∨ 16 < k → exec (.getSensorReading k) s = .next (s.pldmReply 0x11 0x80 [])) ∧
    exec (.getStateSensorReadings 32) s = .next (s.pldmReply 0x21 0 (bytesOfNat 1 s.devState)) ∧
    exec (.getStateSensorReadings 33) s = .next (s.pldmReply 0x21 0 (bytesOfNat 1 s.powState)) ∧
    exec (.getStateSensorReadings 34) s = .next (s.pldmReply 0x21 0 (bytesOfNat 1 s.lifecycle)) ∧
    exec (.getStateSensorReadings 35) s = .next (s.pldmReply 0x21 0 (bytesOfNat 1 (s.fld F.FAB_STATUS_STATE))) ∧
    exec (.getStateSensorReadings 36) s = .next (s.pldmReply 0x21 0 (bytesOfNat 1 (s.fld F.GLB_STATE_FW_TRIAL))) ∧
    (∀ v, 600 ≤ v → v ≤ 3200 → Does (.setNumericEffecterValue true 1 v) s fun t => t.fld F.PWR_CAP_RACK_W = v ∧ t.gov.beatAt = s.now ∧
      t.fld F.PWR_STATUS_HEARTBEAT_LOST = 0) ∧
    (∀ v, v < 65536 → Does (.setNumericEffecterValue true 2 v) s fun t => t.mgmt.heartbeat = v ∧ t.gov.beatAt = s.now ∧
      t.fld F.PWR_STATUS_HEARTBEAT_LOST = 0) ∧
    (∀ o k v, effecterOk o k v = false → exec (.setNumericEffecterValue o k v) s = .next (s.pldmReply 0x31 1 [])) ∧
    exec (.getNumericEffecterValue 1) s = .next (s.pldmReply 0x32 0 (bytesOfNat 2 (s.fld F.PWR_CAP_RACK_W))) ∧
    exec (.getNumericEffecterValue 2) s = .next (s.pldmReply 0x32 0 (bytesOfNat 2 s.mgmt.heartbeat)) ∧
    (∀ e r, s.mgmt.polled = e :: r → exec .pollForPlatformEventMessage s =
      .next (({ s with mgmt := { s.mgmt with polled := r } } : State).pldmReply 0x0B 0 (bytesOfNat 8 e.toNat))) ∧
    (s.mgmt.polled = [] → exec .pollForPlatformEventMessage s = .next (s.pldmReply 0x0B 0 []))) ∧
  (∀ (s : State) (ep : Endpoint) (b : Bytes), s.epServed ep = true →
    (s.fwuBusy = false → b.length < headerBytes →
      Does (.pldmFirmwareUpdate ep 0 b) s fun t => t.fld F.FWU_STATUS_STATE = 1 ∧
        t.firm.install = some { slot := 1 - s.runningSlot, header := b, origin := orMgmt, pldm := some ep } ∧ t.flash = s.flash) ∧
    (s.fwuBusy = true → s.firm.install = none → exec (.pldmFirmwareUpdate ep 0 b) s = .next (s.updateReply ep 0x10 ccRetry)) ∧
    (∀ i o, s.firm.install = some i → i.pldm = some ep → i.paused = false → o = i.header.length + i.got → o ≠ 0 →
      exec (.pldmFirmwareUpdate ep o b) s = .next (s.putUpdate i b)) ∧
    (s.graftCheck (1 - s.runningSlot) = 0 →
      exec (.activateFirmware ep) s = .next ((s.startGraft orMgmt (1 - s.runningSlot)).updateReply ep 0x1A 0)) ∧
    (s.graftCheck (1 - s.runningSlot) ≠ 0 → exec (.activateFirmware ep) s = .next (s.updateReply ep 0x1A 0x84)))

/-- Time messages, holdover and root. A request goes out with its sequence and time; one heard is answered; a response from the
parent corrects the step clock and another does not; without a response the clock holds over; a chip with no better parent becomes
root. (R806, R809, R813, R808.) -/
def Obligations.TimeKeepingCompletes : Prop :=
  (∀ (s : State) (p : Nat), p < 32 → s.portUsable p = true →
    Does (.timeSyncRequestSend p) s fun t => t.clock.nextSeq = (s.clock.nextSeq + 1) % 256 ∧
      t.clock.asked = (s.clock.asked.filter fun a => decide (a.1 ≠ p)) ++ [(p, s.clock.nextSeq, s.stepClock)] ∧ t.regs = s.regs ∧
      ∃ u : State, u.out = s.out ∧ u.fab = s.fab ∧ t = u.sendCtrl p (.timeSync false (s.syncMsg s.clock.nextSeq s.stepClock 0 0))) ∧
  (∀ (s : State) (p : Nat) (m : SyncMsg), p < 32 → s.portOn p = true →
    (Does (.timeSyncRequest p m) s fun t => t.clock.heard = (s.clock.heard.filter fun h => decide (h.1 ≠ p)) ++ [(p, s.now, m)] ∧
      t.regs = s.regs ∧ t = ((s.hear p m).oweCtrl p).sendCtrl p (.timeSync true ((s.hear p m).syncMsg m.seq m.t1 s.stepClock s.stepClock))) ∧
    ((((s.oweCtrl p).hear p m).chooseParent).clock.asked.contains (p, m.seq, m.t1) = false →
      exec (.timeSyncResponse p m) s = .next (((s.oweCtrl p).hear p m).chooseParent)) ∧
    (∀ u, u = ((s.oweCtrl p).hear p m).chooseParent → (p, m.seq, m.t1) ∈ u.clock.asked → u.clock.hasParent = true →
      u.fld F.TIM_STATUS_PARENT_PORT = p → exec (.timeSyncResponse p m) s = .next
        (({ u with clock := { u.clock with asked := u.clock.asked.erase (p, m.seq, m.t1) } } : State).correct (syncOffset m s.stepClock)))) ∧
  (∀ (s : State), s.off = false → s.clock.hasParent = true → s.clock.lastAnswer + 10000000 ≤ s.now → s.bestParent = none → s.timState ≠ tsRoot →
    Does .holdover s fun t => t.fld F.TIM_STATUS_STATE = tsHoldover ∧ t.clock.hasParent = false ∧ RegsBut [F.TIM_STATUS_STATE.reg] s t) ∧
  (∀ (s : State), s.off = false → s.bestParent = none → s.rootOk = true →
    Does .becomeRoot s fun t => t.fld F.TIM_STATUS_STATE = tsRoot ∧ t.fld F.TIM_STATUS_HOPS = 0 ∧
      t.fld F.TIM_STATUS_ROOT_CHIP = s.chipId % 64 ∧ t.clock.heldTime = true ∧ t.clock.hasParent = false ∧
      RegsBut [F.TIM_STATUS_STATE.reg] s t)

/-- Change-log entries are written, gaps noted and entries mirrored. The oldest change is written to ring entry NEXT_SEQ with its
body and link, and NEXT_SEQ counts; lost changes become one gap entry; an entry due is mirrored, or skipped where the ring no
longer holds it. (R840, R841, R843.) -/
def Obligations.ChangeLogCompletes : Prop :=
  (∀ (s : State) (e : LogPend) (r : List LogPend), s.off = false → s.fld F.SEC_CF_STATUS_WIPE_BUSY = 0 → s.log.queue = e :: r →
    Does .logEntryWrite s fun t => t.log.queue = r ∧
      t.fld F.LOG_STATUS_NEXT_SEQ = (s.fld F.LOG_STATUS_NEXT_SEQ + 1) % 2 ^ (F.LOG_STATUS_NEXT_SEQ.hi + 1 - F.LOG_STATUS_NEXT_SEQ.lo) ∧
      mget (fun _ => []) t.log.ring (s.fld F.LOG_STATUS_NEXT_SEQ % 65536) = entryBody e (s.fld F.LOG_STATUS_NEXT_SEQ) ++
        entryLink (s.linkBase e.cls (s.fld F.LOG_STATUS_NEXT_SEQ)) (entryBody e (s.fld F.LOG_STATUS_NEXT_SEQ))) ∧
  (∀ (s : State), s.off = false → s.log.lost ≠ 0 → s.log.queue.length < 1024 →
    Does .logGap s fun t => t.log.lost = 0 ∧ t.regs = s.regs ∧ ∃ e : LogPend, t.log.queue = s.log.queue ++ [e] ∧ e.cls = 0x14 ∧
      e.new = logValue s.log.lost) ∧
  (∀ (s : State) (q : Nat), s.off = false → s.fld F.LOG_MIRROR_CFG_ENABLE = 1 → q = s.fld F.LOG_MIRROR_STATUS_MIRROR_SEQ →
    q ≠ s.fld F.LOG_STATUS_NEXT_SEQ →
    (s.ringEntry q = none → Does .logMirrorCopy s fun t => t.fld F.LOG_MIRROR_STATUS_MIRROR_SEQ = (q + 1) % 2 ^
      (F.LOG_MIRROR_STATUS_MIRROR_SEQ.hi + 1 - F.LOG_MIRROR_STATUS_MIRROR_SEQ.lo) ∧ RegsBut [F.LOG_MIRROR_STATUS_MIRROR_SEQ.reg] s t) ∧
    (∀ e, s.ringEntry q = some e → s.stageReaches (s.mirrorOffset q) = true → exec .logMirrorCopy s =
      .next ((s.stageLineWrite (s.stageLine (s.mirrorOffset q)) (e.map some)).mirrorStep)))

/-- Link events and the test access port. A configuration request is answered, or retried while the function resets; returning
light begins a retrain, and at an ABSENT port shows EXTRA; a host spare's end is shown; a write without its acknowledgement is sent again. An edge of TCK
moves the controller and shifts, Update-IR takes the shifted instruction and Test-Logic-Reset IDCODE, no other state changes it,
and no register changes; TRST_N low holds the controller in reset and high lets it go. (R517, R560, R461, R488, R544, R558, R880.) -/
def Obligations.LinkAndTestPortComplete : Prop :=
  (∀ (s : State) (wr : Bool) (o : Nat) (v : BitVec 32), s.off = false → s.host.perst = false → o < 4096 → o % 4 = 0 →
    (s.linkState = lsResetting → Does (.configurationRequest wr o v) s fun t => t = s.emit (.cfgDone o none)) ∧
    (s.linkState = lsUp → exec (.configurationRequest false o v) s = .next (s.emit (.cfgDone o (some (s.cfgRead o)))) ∧
      exec (.configurationRequest true o v) s = .next ((s.cfgWrite o v).emit (.cfgDone o (some 0))))) ∧
  (∀ (s : State) (p : Nat), p < 32 →
    (s.boot.refclk = true → s.mayTrain = true → s.portState p = poDown → (s.port p).awaitLight = true →
      exec (.lightReturns p) s = .next (s.beginRetrain p 1)) ∧
    (s.planned p = false → s.portState p = poDark → Does (.lightReturns p) s fun t => (t.port p).light = true ∧
      (s.memOn = true → t.fld (F.FAB_PORT_STATUS_DISCOVERY.at p) = 2) ∧ (s.memOn = false → t.regs = s.regs) ∧
      RegsBut [(F.FAB_PORT_STATUS_DISCOVERY.at p).reg] s t)) ∧
  (∀ (s : State) (l : Nat) (rest : List Nat), s.host.sparing = l :: rest →
    Does .hostSpareDone s fun t => t.host.sparing = rest ∧ t.repair = s.repair ∧
      t.fld F.HST_LINK_STATUS_SPARES = (s.sparesUsed 0 - rest.length) % 2 ^ (F.HST_LINK_STATUS_SPARES.hi + 1 - F.HST_LINK_STATUS_SPARES.lo)) ∧
  (∀ (s : State) (q : Nat) (x : Tlp), s.hostLinked = true → (s.host.unacked.find? fun w => decide (w.seq = q)) = some x →
    Does (.replayTimer q) s fun t => t.out = .hostWrite x.seq x.addr x.data x.ro :: s.out ∧ t.regs = s.regs ∧
      t.host.unacked = s.host.unacked.map fun y => if y.seq = q then { y with sent := s.now } else y) ∧
  (∀ (s : State) (tms tdi : Bool) (pads : List Bool), s.off = false → s.tap.trst = true →
    Does (.tckRisingEdge tms tdi pads) s fun t => t.tap.state = tapNext s.tap.state tms ∧ t.tap.shift = s.tapShift tdi pads ∧
      t.regs = s.regs ∧ (∃ e, t.out = e :: s.out) ∧
      (tapNext s.tap.state tms = .reset → t.tap.ir = tapIdcode ∧ t.tap.latch = s.tap.latch) ∧
      (tapNext s.tap.state tms = .updateIr → t.tap.ir = numLow (s.tapShift tdi pads) ∧ t.tap.latch = s.tap.latch) ∧
      (tapNext s.tap.state tms ≠ .reset → tapNext s.tap.state tms ≠ .updateIr → t.tap.ir = s.tap.ir)) ∧
  (∀ (s : State),
    exec (.trstN true) s = .next { s with tap := { s.tap with trst := true } } ∧
    exec (.trstN false) s = .next { s with tap := { s.tap with trst := false, state := .reset, ir := tapIdcode } })
end

