-- ==== Sys2Proof/Laws/Crypto.lean ====
section
/-! SUPPORT. How many bytes the hash answers. -/

namespace Sys2Proof.Machine

theorem length_squeeze (n a : Nat) : (squeeze (n + 1) a).length = 136 * (n + 1) := by
  induction n generalizing a with
  | zero => simp [squeeze]
  | succ n ih =>
    rw [squeeze, List.length_append, if_neg (by omega), ih]
    simp
    omega

/-- SHAKE256 answers as many bytes as it is asked for. -/
theorem length_shake256 (m : Bytes) (n : Nat) : (shake256 m n).length = n := by
  unfold shake256
  rw [List.length_take, length_squeeze]
  have := Nat.div_add_mod n 136
  have := Nat.mod_lt n (show 0 < 136 by decide)
  omega

end Sys2Proof.Machine
end

