-- ==== Sys2Proof/Laws/State.lean ====
section
/-! SUPPORT. What each update of the state leaves alone: one lemma per update and field, so that no proof unfolds a record. -/

namespace Sys2Proof.Machine

variable (s : State)

@[simp] theorem State.setReg_pending (a : Nat) (v : Word) : (s.setReg a v).pending = s.pending := rfl
@[simp] theorem State.setReg_freeCtr (a : Nat) (v : Word) : (s.setReg a v).freeCtr = s.freeCtr := rfl
@[simp] theorem State.setReg_off (a : Nat) (v : Word) : (s.setReg a v).off = s.off := rfl
@[simp] theorem State.setReg_clock (a : Nat) (v : Word) : (s.setReg a v).clock = s.clock := rfl
@[simp] theorem State.setReg_staged (a : Nat) (v : Word) : (s.setReg a v).staged = s.staged := rfl
@[simp] theorem State.setReg_commits (a : Nat) (v : Word) : (s.setReg a v).commits = s.commits := rfl
@[simp] theorem State.setReg_latches (a : Nat) (v : Word) : (s.setReg a v).latches = s.latches := rfl
@[simp] theorem State.setReg_log (a : Nat) (v : Word) : (s.setReg a v).log = s.log := rfl
@[simp] theorem State.setReg_host (a : Nat) (v : Word) : (s.setReg a v).host = s.host := rfl
@[simp] theorem State.setReg_out (a : Nat) (v : Word) : (s.setReg a v).out = s.out := rfl
@[simp] theorem State.setReg_clusters (a : Nat) (v : Word) : (s.setReg a v).clusters = s.clusters := rfl
@[simp] theorem State.setReg_slice (a : Nat) (v : Word) : (s.setReg a v).slice = s.slice := rfl
@[simp] theorem State.setReg_pad (a : Nat) (v : Word) : (s.setReg a v).pad = s.pad := rfl
@[simp] theorem State.setReg_sliceFlaw (a : Nat) (v : Word) : (s.setReg a v).sliceFlaw = s.sliceFlaw := rfl
@[simp] theorem State.setReg_padFlaw (a : Nat) (v : Word) : (s.setReg a v).padFlaw = s.padFlaw := rfl
@[simp] theorem State.setReg_mem (a : Nat) (v : Word) : (s.setReg a v).mem = s.mem := rfl
@[simp] theorem State.setReg_fab (a : Nat) (v : Word) : (s.setReg a v).fab = s.fab := rfl
@[simp] theorem State.setReg_col (a : Nat) (v : Word) : (s.setReg a v).col = s.col := rfl
@[simp] theorem State.setReg_arbs (a : Nat) (v : Word) : (s.setReg a v).arbs = s.arbs := rfl
@[simp] theorem State.setReg_disp (a : Nat) (v : Word) : (s.setReg a v).disp = s.disp := rfl
@[simp] theorem State.setReg_ras (a : Nat) (v : Word) : (s.setReg a v).ras = s.ras := rfl
@[simp] theorem State.setReg_repair (a : Nat) (v : Word) : (s.setReg a v).repair = s.repair := rfl
@[simp] theorem State.setReg_conf (a : Nat) (v : Word) : (s.setReg a v).conf = s.conf := rfl
@[simp] theorem State.setReg_mgmt (a : Nat) (v : Word) : (s.setReg a v).mgmt = s.mgmt := rfl
@[simp] theorem State.setReg_gov (a : Nat) (v : Word) : (s.setReg a v).gov = s.gov := rfl
@[simp] theorem State.setReg_flash (a : Nat) (v : Word) : (s.setReg a v).flash = s.flash := rfl
@[simp] theorem State.setReg_boot (a : Nat) (v : Word) : (s.setReg a v).boot = s.boot := rfl
@[simp] theorem State.setReg_cold (a : Nat) (v : Word) : (s.setReg a v).cold = s.cold := rfl
@[simp] theorem State.setReg_firm (a : Nat) (v : Word) : (s.setReg a v).firm = s.firm := rfl
@[simp] theorem State.setReg_ctl (a : Nat) (v : Word) : (s.setReg a v).ctl = s.ctl := rfl
@[simp] theorem State.setReg_harvest (a : Nat) (v : Word) : (s.setReg a v).harvest = s.harvest := rfl
@[simp] theorem State.setReg_recovery (a : Nat) (v : Word) : (s.setReg a v).recovery = s.recovery := rfl
@[simp] theorem State.setReg_safe (a : Nat) (v : Word) : (s.setReg a v).safe = s.safe := rfl
@[simp] theorem State.setReg_tap (a : Nat) (v : Word) : (s.setReg a v).tap = s.tap := rfl

@[simp] theorem State.setFld_pending (f : Fld) (n : Nat) : (s.setFld f n).pending = s.pending := rfl
@[simp] theorem State.setFld_freeCtr (f : Fld) (n : Nat) : (s.setFld f n).freeCtr = s.freeCtr := rfl
@[simp] theorem State.setFld_off (f : Fld) (n : Nat) : (s.setFld f n).off = s.off := rfl
@[simp] theorem State.setFld_clock (f : Fld) (n : Nat) : (s.setFld f n).clock = s.clock := rfl
@[simp] theorem State.setFld_staged (f : Fld) (n : Nat) : (s.setFld f n).staged = s.staged := rfl
@[simp] theorem State.setFld_commits (f : Fld) (n : Nat) : (s.setFld f n).commits = s.commits := rfl
@[simp] theorem State.setFld_latches (f : Fld) (n : Nat) : (s.setFld f n).latches = s.latches := rfl
@[simp] theorem State.setFld_log (f : Fld) (n : Nat) : (s.setFld f n).log = s.log := rfl
@[simp] theorem State.setFld_host (f : Fld) (n : Nat) : (s.setFld f n).host = s.host := rfl
@[simp] theorem State.setFld_out (f : Fld) (n : Nat) : (s.setFld f n).out = s.out := rfl
@[simp] theorem State.setFld_clusters (f : Fld) (n : Nat) : (s.setFld f n).clusters = s.clusters := rfl
@[simp] theorem State.setFld_slice (f : Fld) (n : Nat) : (s.setFld f n).slice = s.slice := rfl
@[simp] theorem State.setFld_pad (f : Fld) (n : Nat) : (s.setFld f n).pad = s.pad := rfl
@[simp] theorem State.setFld_sliceFlaw (f : Fld) (n : Nat) : (s.setFld f n).sliceFlaw = s.sliceFlaw := rfl
@[simp] theorem State.setFld_padFlaw (f : Fld) (n : Nat) : (s.setFld f n).padFlaw = s.padFlaw := rfl
@[simp] theorem State.setFld_mem (f : Fld) (n : Nat) : (s.setFld f n).mem = s.mem := rfl
@[simp] theorem State.setFld_fab (f : Fld) (n : Nat) : (s.setFld f n).fab = s.fab := rfl
@[simp] theorem State.setFld_col (f : Fld) (n : Nat) : (s.setFld f n).col = s.col := rfl
@[simp] theorem State.setFld_arbs (f : Fld) (n : Nat) : (s.setFld f n).arbs = s.arbs := rfl
@[simp] theorem State.setFld_disp (f : Fld) (n : Nat) : (s.setFld f n).disp = s.disp := rfl
@[simp] theorem State.setFld_ras (f : Fld) (n : Nat) : (s.setFld f n).ras = s.ras := rfl
@[simp] theorem State.setFld_repair (f : Fld) (n : Nat) : (s.setFld f n).repair = s.repair := rfl
@[simp] theorem State.setFld_conf (f : Fld) (n : Nat) : (s.setFld f n).conf = s.conf := rfl
@[simp] theorem State.setFld_mgmt (f : Fld) (n : Nat) : (s.setFld f n).mgmt = s.mgmt := rfl
@[simp] theorem State.setFld_gov (f : Fld) (n : Nat) : (s.setFld f n).gov = s.gov := rfl
@[simp] theorem State.setFld_flash (f : Fld) (n : Nat) : (s.setFld f n).flash = s.flash := rfl
@[simp] theorem State.setFld_boot (f : Fld) (n : Nat) : (s.setFld f n).boot = s.boot := rfl
@[simp] theorem State.setFld_cold (f : Fld) (n : Nat) : (s.setFld f n).cold = s.cold := rfl
@[simp] theorem State.setFld_firm (f : Fld) (n : Nat) : (s.setFld f n).firm = s.firm := rfl
@[simp] theorem State.setFld_ctl (f : Fld) (n : Nat) : (s.setFld f n).ctl = s.ctl := rfl
@[simp] theorem State.setFld_harvest (f : Fld) (n : Nat) : (s.setFld f n).harvest = s.harvest := rfl
@[simp] theorem State.setFld_recovery (f : Fld) (n : Nat) : (s.setFld f n).recovery = s.recovery := rfl
@[simp] theorem State.setFld_safe (f : Fld) (n : Nat) : (s.setFld f n).safe = s.safe := rfl
@[simp] theorem State.setFld_tap (f : Fld) (n : Nat) : (s.setFld f n).tap = s.tap := rfl

@[simp] theorem State.addSat_pending (f : Fld) (n : Nat) : (s.addSat f n).pending = s.pending := rfl
@[simp] theorem State.addSat_freeCtr (f : Fld) (n : Nat) : (s.addSat f n).freeCtr = s.freeCtr := rfl
@[simp] theorem State.addSat_off (f : Fld) (n : Nat) : (s.addSat f n).off = s.off := rfl
@[simp] theorem State.addSat_clock (f : Fld) (n : Nat) : (s.addSat f n).clock = s.clock := rfl
@[simp] theorem State.addSat_staged (f : Fld) (n : Nat) : (s.addSat f n).staged = s.staged := rfl
@[simp] theorem State.addSat_commits (f : Fld) (n : Nat) : (s.addSat f n).commits = s.commits := rfl
@[simp] theorem State.addSat_latches (f : Fld) (n : Nat) : (s.addSat f n).latches = s.latches := rfl
@[simp] theorem State.addSat_log (f : Fld) (n : Nat) : (s.addSat f n).log = s.log := rfl
@[simp] theorem State.addSat_host (f : Fld) (n : Nat) : (s.addSat f n).host = s.host := rfl
@[simp] theorem State.addSat_out (f : Fld) (n : Nat) : (s.addSat f n).out = s.out := rfl
@[simp] theorem State.addSat_clusters (f : Fld) (n : Nat) : (s.addSat f n).clusters = s.clusters := rfl
@[simp] theorem State.addSat_slice (f : Fld) (n : Nat) : (s.addSat f n).slice = s.slice := rfl
@[simp] theorem State.addSat_pad (f : Fld) (n : Nat) : (s.addSat f n).pad = s.pad := rfl
@[simp] theorem State.addSat_sliceFlaw (f : Fld) (n : Nat) : (s.addSat f n).sliceFlaw = s.sliceFlaw := rfl
@[simp] theorem State.addSat_padFlaw (f : Fld) (n : Nat) : (s.addSat f n).padFlaw = s.padFlaw := rfl
@[simp] theorem State.addSat_mem (f : Fld) (n : Nat) : (s.addSat f n).mem = s.mem := rfl
@[simp] theorem State.addSat_fab (f : Fld) (n : Nat) : (s.addSat f n).fab = s.fab := rfl
@[simp] theorem State.addSat_col (f : Fld) (n : Nat) : (s.addSat f n).col = s.col := rfl
@[simp] theorem State.addSat_arbs (f : Fld) (n : Nat) : (s.addSat f n).arbs = s.arbs := rfl
@[simp] theorem State.addSat_disp (f : Fld) (n : Nat) : (s.addSat f n).disp = s.disp := rfl
@[simp] theorem State.addSat_ras (f : Fld) (n : Nat) : (s.addSat f n).ras = s.ras := rfl
@[simp] theorem State.addSat_repair (f : Fld) (n : Nat) : (s.addSat f n).repair = s.repair := rfl
@[simp] theorem State.addSat_conf (f : Fld) (n : Nat) : (s.addSat f n).conf = s.conf := rfl
@[simp] theorem State.addSat_mgmt (f : Fld) (n : Nat) : (s.addSat f n).mgmt = s.mgmt := rfl
@[simp] theorem State.addSat_gov (f : Fld) (n : Nat) : (s.addSat f n).gov = s.gov := rfl
@[simp] theorem State.addSat_flash (f : Fld) (n : Nat) : (s.addSat f n).flash = s.flash := rfl
@[simp] theorem State.addSat_boot (f : Fld) (n : Nat) : (s.addSat f n).boot = s.boot := rfl
@[simp] theorem State.addSat_cold (f : Fld) (n : Nat) : (s.addSat f n).cold = s.cold := rfl
@[simp] theorem State.addSat_firm (f : Fld) (n : Nat) : (s.addSat f n).firm = s.firm := rfl
@[simp] theorem State.addSat_ctl (f : Fld) (n : Nat) : (s.addSat f n).ctl = s.ctl := rfl
@[simp] theorem State.addSat_harvest (f : Fld) (n : Nat) : (s.addSat f n).harvest = s.harvest := rfl
@[simp] theorem State.addSat_recovery (f : Fld) (n : Nat) : (s.addSat f n).recovery = s.recovery := rfl
@[simp] theorem State.addSat_safe (f : Fld) (n : Nat) : (s.addSat f n).safe = s.safe := rfl
@[simp] theorem State.addSat_tap (f : Fld) (n : Nat) : (s.addSat f n).tap = s.tap := rfl

@[simp] theorem State.addWrap_pending (f : Fld) (n : Nat) : (s.addWrap f n).pending = s.pending := rfl
@[simp] theorem State.addWrap_freeCtr (f : Fld) (n : Nat) : (s.addWrap f n).freeCtr = s.freeCtr := rfl
@[simp] theorem State.addWrap_off (f : Fld) (n : Nat) : (s.addWrap f n).off = s.off := rfl
@[simp] theorem State.addWrap_clock (f : Fld) (n : Nat) : (s.addWrap f n).clock = s.clock := rfl
@[simp] theorem State.addWrap_staged (f : Fld) (n : Nat) : (s.addWrap f n).staged = s.staged := rfl
@[simp] theorem State.addWrap_commits (f : Fld) (n : Nat) : (s.addWrap f n).commits = s.commits := rfl
@[simp] theorem State.addWrap_latches (f : Fld) (n : Nat) : (s.addWrap f n).latches = s.latches := rfl
@[simp] theorem State.addWrap_log (f : Fld) (n : Nat) : (s.addWrap f n).log = s.log := rfl
@[simp] theorem State.addWrap_host (f : Fld) (n : Nat) : (s.addWrap f n).host = s.host := rfl
@[simp] theorem State.addWrap_out (f : Fld) (n : Nat) : (s.addWrap f n).out = s.out := rfl
@[simp] theorem State.addWrap_clusters (f : Fld) (n : Nat) : (s.addWrap f n).clusters = s.clusters := rfl
@[simp] theorem State.addWrap_slice (f : Fld) (n : Nat) : (s.addWrap f n).slice = s.slice := rfl
@[simp] theorem State.addWrap_pad (f : Fld) (n : Nat) : (s.addWrap f n).pad = s.pad := rfl
@[simp] theorem State.addWrap_sliceFlaw (f : Fld) (n : Nat) : (s.addWrap f n).sliceFlaw = s.sliceFlaw := rfl
@[simp] theorem State.addWrap_padFlaw (f : Fld) (n : Nat) : (s.addWrap f n).padFlaw = s.padFlaw := rfl
@[simp] theorem State.addWrap_mem (f : Fld) (n : Nat) : (s.addWrap f n).mem = s.mem := rfl
@[simp] theorem State.addWrap_fab (f : Fld) (n : Nat) : (s.addWrap f n).fab = s.fab := rfl
@[simp] theorem State.addWrap_col (f : Fld) (n : Nat) : (s.addWrap f n).col = s.col := rfl
@[simp] theorem State.addWrap_arbs (f : Fld) (n : Nat) : (s.addWrap f n).arbs = s.arbs := rfl
@[simp] theorem State.addWrap_disp (f : Fld) (n : Nat) : (s.addWrap f n).disp = s.disp := rfl
@[simp] theorem State.addWrap_ras (f : Fld) (n : Nat) : (s.addWrap f n).ras = s.ras := rfl
@[simp] theorem State.addWrap_repair (f : Fld) (n : Nat) : (s.addWrap f n).repair = s.repair := rfl
@[simp] theorem State.addWrap_conf (f : Fld) (n : Nat) : (s.addWrap f n).conf = s.conf := rfl
@[simp] theorem State.addWrap_mgmt (f : Fld) (n : Nat) : (s.addWrap f n).mgmt = s.mgmt := rfl
@[simp] theorem State.addWrap_gov (f : Fld) (n : Nat) : (s.addWrap f n).gov = s.gov := rfl
@[simp] theorem State.addWrap_flash (f : Fld) (n : Nat) : (s.addWrap f n).flash = s.flash := rfl
@[simp] theorem State.addWrap_boot (f : Fld) (n : Nat) : (s.addWrap f n).boot = s.boot := rfl
@[simp] theorem State.addWrap_cold (f : Fld) (n : Nat) : (s.addWrap f n).cold = s.cold := rfl
@[simp] theorem State.addWrap_firm (f : Fld) (n : Nat) : (s.addWrap f n).firm = s.firm := rfl
@[simp] theorem State.addWrap_ctl (f : Fld) (n : Nat) : (s.addWrap f n).ctl = s.ctl := rfl
@[simp] theorem State.addWrap_harvest (f : Fld) (n : Nat) : (s.addWrap f n).harvest = s.harvest := rfl
@[simp] theorem State.addWrap_recovery (f : Fld) (n : Nat) : (s.addWrap f n).recovery = s.recovery := rfl
@[simp] theorem State.addWrap_safe (f : Fld) (n : Nat) : (s.addWrap f n).safe = s.safe := rfl
@[simp] theorem State.addWrap_tap (f : Fld) (n : Nat) : (s.addWrap f n).tap = s.tap := rfl

@[simp] theorem State.setCfld_pending (p : Nat) (f : Fld) (n : Nat) : (s.setCfld p f n).pending = s.pending := rfl
@[simp] theorem State.setCfld_freeCtr (p : Nat) (f : Fld) (n : Nat) : (s.setCfld p f n).freeCtr = s.freeCtr := rfl
@[simp] theorem State.setCfld_off (p : Nat) (f : Fld) (n : Nat) : (s.setCfld p f n).off = s.off := rfl
@[simp] theorem State.setCfld_clock (p : Nat) (f : Fld) (n : Nat) : (s.setCfld p f n).clock = s.clock := rfl
@[simp] theorem State.setCfld_staged (p : Nat) (f : Fld) (n : Nat) : (s.setCfld p f n).staged = s.staged := rfl
@[simp] theorem State.setCfld_commits (p : Nat) (f : Fld) (n : Nat) : (s.setCfld p f n).commits = s.commits := rfl
@[simp] theorem State.setCfld_latches (p : Nat) (f : Fld) (n : Nat) : (s.setCfld p f n).latches = s.latches := rfl
@[simp] theorem State.setCfld_log (p : Nat) (f : Fld) (n : Nat) : (s.setCfld p f n).log = s.log := rfl
@[simp] theorem State.setCfld_host (p : Nat) (f : Fld) (n : Nat) : (s.setCfld p f n).host = s.host := rfl
@[simp] theorem State.setCfld_out (p : Nat) (f : Fld) (n : Nat) : (s.setCfld p f n).out = s.out := rfl
@[simp] theorem State.setCfld_clusters (p : Nat) (f : Fld) (n : Nat) : (s.setCfld p f n).clusters = s.clusters := rfl
@[simp] theorem State.setCfld_slice (p : Nat) (f : Fld) (n : Nat) : (s.setCfld p f n).slice = s.slice := rfl
@[simp] theorem State.setCfld_pad (p : Nat) (f : Fld) (n : Nat) : (s.setCfld p f n).pad = s.pad := rfl
@[simp] theorem State.setCfld_sliceFlaw (p : Nat) (f : Fld) (n : Nat) : (s.setCfld p f n).sliceFlaw = s.sliceFlaw := rfl
@[simp] theorem State.setCfld_padFlaw (p : Nat) (f : Fld) (n : Nat) : (s.setCfld p f n).padFlaw = s.padFlaw := rfl
@[simp] theorem State.setCfld_mem (p : Nat) (f : Fld) (n : Nat) : (s.setCfld p f n).mem = s.mem := rfl
@[simp] theorem State.setCfld_fab (p : Nat) (f : Fld) (n : Nat) : (s.setCfld p f n).fab = s.fab := rfl
@[simp] theorem State.setCfld_col (p : Nat) (f : Fld) (n : Nat) : (s.setCfld p f n).col = s.col := rfl
@[simp] theorem State.setCfld_arbs (p : Nat) (f : Fld) (n : Nat) : (s.setCfld p f n).arbs = s.arbs := rfl
@[simp] theorem State.setCfld_disp (p : Nat) (f : Fld) (n : Nat) : (s.setCfld p f n).disp = s.disp := rfl
@[simp] theorem State.setCfld_ras (p : Nat) (f : Fld) (n : Nat) : (s.setCfld p f n).ras = s.ras := rfl
@[simp] theorem State.setCfld_repair (p : Nat) (f : Fld) (n : Nat) : (s.setCfld p f n).repair = s.repair := rfl
@[simp] theorem State.setCfld_conf (p : Nat) (f : Fld) (n : Nat) : (s.setCfld p f n).conf = s.conf := rfl
@[simp] theorem State.setCfld_mgmt (p : Nat) (f : Fld) (n : Nat) : (s.setCfld p f n).mgmt = s.mgmt := rfl
@[simp] theorem State.setCfld_gov (p : Nat) (f : Fld) (n : Nat) : (s.setCfld p f n).gov = s.gov := rfl
@[simp] theorem State.setCfld_flash (p : Nat) (f : Fld) (n : Nat) : (s.setCfld p f n).flash = s.flash := rfl
@[simp] theorem State.setCfld_boot (p : Nat) (f : Fld) (n : Nat) : (s.setCfld p f n).boot = s.boot := rfl
@[simp] theorem State.setCfld_cold (p : Nat) (f : Fld) (n : Nat) : (s.setCfld p f n).cold = s.cold := rfl
@[simp] theorem State.setCfld_firm (p : Nat) (f : Fld) (n : Nat) : (s.setCfld p f n).firm = s.firm := rfl
@[simp] theorem State.setCfld_ctl (p : Nat) (f : Fld) (n : Nat) : (s.setCfld p f n).ctl = s.ctl := rfl
@[simp] theorem State.setCfld_harvest (p : Nat) (f : Fld) (n : Nat) : (s.setCfld p f n).harvest = s.harvest := rfl
@[simp] theorem State.setCfld_recovery (p : Nat) (f : Fld) (n : Nat) : (s.setCfld p f n).recovery = s.recovery := rfl
@[simp] theorem State.setCfld_safe (p : Nat) (f : Fld) (n : Nat) : (s.setCfld p f n).safe = s.safe := rfl
@[simp] theorem State.setCfld_tap (p : Nat) (f : Fld) (n : Nat) : (s.setCfld p f n).tap = s.tap := rfl

@[simp] theorem State.setTally_pending (n : Nat) (v : Word) : (s.setTally n v).pending = s.pending := rfl
@[simp] theorem State.setTally_freeCtr (n : Nat) (v : Word) : (s.setTally n v).freeCtr = s.freeCtr := rfl
@[simp] theorem State.setTally_off (n : Nat) (v : Word) : (s.setTally n v).off = s.off := rfl
@[simp] theorem State.setTally_clock (n : Nat) (v : Word) : (s.setTally n v).clock = s.clock := rfl
@[simp] theorem State.setTally_staged (n : Nat) (v : Word) : (s.setTally n v).staged = s.staged := rfl
@[simp] theorem State.setTally_commits (n : Nat) (v : Word) : (s.setTally n v).commits = s.commits := rfl
@[simp] theorem State.setTally_latches (n : Nat) (v : Word) : (s.setTally n v).latches = s.latches := rfl
@[simp] theorem State.setTally_log (n : Nat) (v : Word) : (s.setTally n v).log = s.log := rfl
@[simp] theorem State.setTally_host (n : Nat) (v : Word) : (s.setTally n v).host = s.host := rfl
@[simp] theorem State.setTally_out (n : Nat) (v : Word) : (s.setTally n v).out = s.out := rfl
@[simp] theorem State.setTally_clusters (n : Nat) (v : Word) : (s.setTally n v).clusters = s.clusters := rfl
@[simp] theorem State.setTally_slice (n : Nat) (v : Word) : (s.setTally n v).slice = s.slice := rfl
@[simp] theorem State.setTally_pad (n : Nat) (v : Word) : (s.setTally n v).pad = s.pad := rfl
@[simp] theorem State.setTally_sliceFlaw (n : Nat) (v : Word) : (s.setTally n v).sliceFlaw = s.sliceFlaw := rfl
@[simp] theorem State.setTally_padFlaw (n : Nat) (v : Word) : (s.setTally n v).padFlaw = s.padFlaw := rfl
@[simp] theorem State.setTally_mem (n : Nat) (v : Word) : (s.setTally n v).mem = s.mem := rfl
@[simp] theorem State.setTally_fab (n : Nat) (v : Word) : (s.setTally n v).fab = s.fab := rfl
@[simp] theorem State.setTally_col (n : Nat) (v : Word) : (s.setTally n v).col = s.col := rfl
@[simp] theorem State.setTally_arbs (n : Nat) (v : Word) : (s.setTally n v).arbs = s.arbs := rfl
@[simp] theorem State.setTally_disp (n : Nat) (v : Word) : (s.setTally n v).disp = s.disp := rfl
@[simp] theorem State.setTally_ras (n : Nat) (v : Word) : (s.setTally n v).ras = s.ras := rfl
@[simp] theorem State.setTally_repair (n : Nat) (v : Word) : (s.setTally n v).repair = s.repair := rfl
@[simp] theorem State.setTally_conf (n : Nat) (v : Word) : (s.setTally n v).conf = s.conf := rfl
@[simp] theorem State.setTally_mgmt (n : Nat) (v : Word) : (s.setTally n v).mgmt = s.mgmt := rfl
@[simp] theorem State.setTally_gov (n : Nat) (v : Word) : (s.setTally n v).gov = s.gov := rfl
@[simp] theorem State.setTally_flash (n : Nat) (v : Word) : (s.setTally n v).flash = s.flash := rfl
@[simp] theorem State.setTally_boot (n : Nat) (v : Word) : (s.setTally n v).boot = s.boot := rfl
@[simp] theorem State.setTally_cold (n : Nat) (v : Word) : (s.setTally n v).cold = s.cold := rfl
@[simp] theorem State.setTally_firm (n : Nat) (v : Word) : (s.setTally n v).firm = s.firm := rfl
@[simp] theorem State.setTally_ctl (n : Nat) (v : Word) : (s.setTally n v).ctl = s.ctl := rfl
@[simp] theorem State.setTally_harvest (n : Nat) (v : Word) : (s.setTally n v).harvest = s.harvest := rfl
@[simp] theorem State.setTally_recovery (n : Nat) (v : Word) : (s.setTally n v).recovery = s.recovery := rfl
@[simp] theorem State.setTally_safe (n : Nat) (v : Word) : (s.setTally n v).safe = s.safe := rfl
@[simp] theorem State.setTally_tap (n : Nat) (v : Word) : (s.setTally n v).tap = s.tap := rfl

@[simp] theorem State.drawn_pending : (s.drawn).pending = s.pending := rfl
@[simp] theorem State.drawn_off : (s.drawn).off = s.off := rfl
@[simp] theorem State.drawn_clock : (s.drawn).clock = s.clock := rfl
@[simp] theorem State.drawn_regs : (s.drawn).regs = s.regs := rfl
@[simp] theorem State.drawn_staged : (s.drawn).staged = s.staged := rfl
@[simp] theorem State.drawn_commits : (s.drawn).commits = s.commits := rfl
@[simp] theorem State.drawn_latches : (s.drawn).latches = s.latches := rfl
@[simp] theorem State.drawn_log : (s.drawn).log = s.log := rfl
@[simp] theorem State.drawn_host : (s.drawn).host = s.host := rfl
@[simp] theorem State.drawn_out : (s.drawn).out = s.out := rfl
@[simp] theorem State.drawn_clusters : (s.drawn).clusters = s.clusters := rfl
@[simp] theorem State.drawn_slice : (s.drawn).slice = s.slice := rfl
@[simp] theorem State.drawn_pad : (s.drawn).pad = s.pad := rfl
@[simp] theorem State.drawn_sliceFlaw : (s.drawn).sliceFlaw = s.sliceFlaw := rfl
@[simp] theorem State.drawn_padFlaw : (s.drawn).padFlaw = s.padFlaw := rfl
@[simp] theorem State.drawn_mem : (s.drawn).mem = s.mem := rfl
@[simp] theorem State.drawn_fab : (s.drawn).fab = s.fab := rfl
@[simp] theorem State.drawn_col : (s.drawn).col = s.col := rfl
@[simp] theorem State.drawn_arbs : (s.drawn).arbs = s.arbs := rfl
@[simp] theorem State.drawn_disp : (s.drawn).disp = s.disp := rfl
@[simp] theorem State.drawn_ras : (s.drawn).ras = s.ras := rfl
@[simp] theorem State.drawn_repair : (s.drawn).repair = s.repair := rfl
@[simp] theorem State.drawn_conf : (s.drawn).conf = s.conf := rfl
@[simp] theorem State.drawn_mgmt : (s.drawn).mgmt = s.mgmt := rfl
@[simp] theorem State.drawn_gov : (s.drawn).gov = s.gov := rfl
@[simp] theorem State.drawn_flash : (s.drawn).flash = s.flash := rfl
@[simp] theorem State.drawn_boot : (s.drawn).boot = s.boot := rfl
@[simp] theorem State.drawn_cold : (s.drawn).cold = s.cold := rfl
@[simp] theorem State.drawn_firm : (s.drawn).firm = s.firm := rfl
@[simp] theorem State.drawn_ctl : (s.drawn).ctl = s.ctl := rfl
@[simp] theorem State.drawn_harvest : (s.drawn).harvest = s.harvest := rfl
@[simp] theorem State.drawn_recovery : (s.drawn).recovery = s.recovery := rfl
@[simp] theorem State.drawn_safe : (s.drawn).safe = s.safe := rfl
@[simp] theorem State.drawn_tap : (s.drawn).tap = s.tap := rfl

@[simp] theorem State.emit_pending (e : Emit) : (s.emit e).pending = s.pending := rfl
@[simp] theorem State.emit_freeCtr (e : Emit) : (s.emit e).freeCtr = s.freeCtr := rfl
@[simp] theorem State.emit_off (e : Emit) : (s.emit e).off = s.off := rfl
@[simp] theorem State.emit_clock (e : Emit) : (s.emit e).clock = s.clock := rfl
@[simp] theorem State.emit_regs (e : Emit) : (s.emit e).regs = s.regs := rfl
@[simp] theorem State.emit_staged (e : Emit) : (s.emit e).staged = s.staged := rfl
@[simp] theorem State.emit_commits (e : Emit) : (s.emit e).commits = s.commits := rfl
@[simp] theorem State.emit_latches (e : Emit) : (s.emit e).latches = s.latches := rfl
@[simp] theorem State.emit_log (e : Emit) : (s.emit e).log = s.log := rfl
@[simp] theorem State.emit_host (e : Emit) : (s.emit e).host = s.host := rfl
@[simp] theorem State.emit_clusters (e : Emit) : (s.emit e).clusters = s.clusters := rfl
@[simp] theorem State.emit_slice (e : Emit) : (s.emit e).slice = s.slice := rfl
@[simp] theorem State.emit_pad (e : Emit) : (s.emit e).pad = s.pad := rfl
@[simp] theorem State.emit_sliceFlaw (e : Emit) : (s.emit e).sliceFlaw = s.sliceFlaw := rfl
@[simp] theorem State.emit_padFlaw (e : Emit) : (s.emit e).padFlaw = s.padFlaw := rfl
@[simp] theorem State.emit_mem (e : Emit) : (s.emit e).mem = s.mem := rfl
@[simp] theorem State.emit_fab (e : Emit) : (s.emit e).fab = s.fab := rfl
@[simp] theorem State.emit_col (e : Emit) : (s.emit e).col = s.col := rfl
@[simp] theorem State.emit_arbs (e : Emit) : (s.emit e).arbs = s.arbs := rfl
@[simp] theorem State.emit_disp (e : Emit) : (s.emit e).disp = s.disp := rfl
@[simp] theorem State.emit_ras (e : Emit) : (s.emit e).ras = s.ras := rfl
@[simp] theorem State.emit_repair (e : Emit) : (s.emit e).repair = s.repair := rfl
@[simp] theorem State.emit_conf (e : Emit) : (s.emit e).conf = s.conf := rfl
@[simp] theorem State.emit_mgmt (e : Emit) : (s.emit e).mgmt = s.mgmt := rfl
@[simp] theorem State.emit_gov (e : Emit) : (s.emit e).gov = s.gov := rfl
@[simp] theorem State.emit_flash (e : Emit) : (s.emit e).flash = s.flash := rfl
@[simp] theorem State.emit_boot (e : Emit) : (s.emit e).boot = s.boot := rfl
@[simp] theorem State.emit_cold (e : Emit) : (s.emit e).cold = s.cold := rfl
@[simp] theorem State.emit_firm (e : Emit) : (s.emit e).firm = s.firm := rfl
@[simp] theorem State.emit_ctl (e : Emit) : (s.emit e).ctl = s.ctl := rfl
@[simp] theorem State.emit_harvest (e : Emit) : (s.emit e).harvest = s.harvest := rfl
@[simp] theorem State.emit_recovery (e : Emit) : (s.emit e).recovery = s.recovery := rfl
@[simp] theorem State.emit_safe (e : Emit) : (s.emit e).safe = s.safe := rfl
@[simp] theorem State.emit_tap (e : Emit) : (s.emit e).tap = s.tap := rfl

@[simp] theorem State.resetArbs_pending (f : ArbId → Bool) : (s.resetArbs f).pending = s.pending := rfl
@[simp] theorem State.resetArbs_freeCtr (f : ArbId → Bool) : (s.resetArbs f).freeCtr = s.freeCtr := rfl
@[simp] theorem State.resetArbs_off (f : ArbId → Bool) : (s.resetArbs f).off = s.off := rfl
@[simp] theorem State.resetArbs_clock (f : ArbId → Bool) : (s.resetArbs f).clock = s.clock := rfl
@[simp] theorem State.resetArbs_regs (f : ArbId → Bool) : (s.resetArbs f).regs = s.regs := rfl
@[simp] theorem State.resetArbs_staged (f : ArbId → Bool) : (s.resetArbs f).staged = s.staged := rfl
@[simp] theorem State.resetArbs_commits (f : ArbId → Bool) : (s.resetArbs f).commits = s.commits := rfl
@[simp] theorem State.resetArbs_latches (f : ArbId → Bool) : (s.resetArbs f).latches = s.latches := rfl
@[simp] theorem State.resetArbs_log (f : ArbId → Bool) : (s.resetArbs f).log = s.log := rfl
@[simp] theorem State.resetArbs_host (f : ArbId → Bool) : (s.resetArbs f).host = s.host := rfl
@[simp] theorem State.resetArbs_out (f : ArbId → Bool) : (s.resetArbs f).out = s.out := rfl
@[simp] theorem State.resetArbs_clusters (f : ArbId → Bool) : (s.resetArbs f).clusters = s.clusters := rfl
@[simp] theorem State.resetArbs_slice (f : ArbId → Bool) : (s.resetArbs f).slice = s.slice := rfl
@[simp] theorem State.resetArbs_pad (f : ArbId → Bool) : (s.resetArbs f).pad = s.pad := rfl
@[simp] theorem State.resetArbs_sliceFlaw (f : ArbId → Bool) : (s.resetArbs f).sliceFlaw = s.sliceFlaw := rfl
@[simp] theorem State.resetArbs_padFlaw (f : ArbId → Bool) : (s.resetArbs f).padFlaw = s.padFlaw := rfl
@[simp] theorem State.resetArbs_mem (f : ArbId → Bool) : (s.resetArbs f).mem = s.mem := rfl
@[simp] theorem State.resetArbs_fab (f : ArbId → Bool) : (s.resetArbs f).fab = s.fab := rfl
@[simp] theorem State.resetArbs_col (f : ArbId → Bool) : (s.resetArbs f).col = s.col := rfl
@[simp] theorem State.resetArbs_disp (f : ArbId → Bool) : (s.resetArbs f).disp = s.disp := rfl
@[simp] theorem State.resetArbs_ras (f : ArbId → Bool) : (s.resetArbs f).ras = s.ras := rfl
@[simp] theorem State.resetArbs_repair (f : ArbId → Bool) : (s.resetArbs f).repair = s.repair := rfl
@[simp] theorem State.resetArbs_conf (f : ArbId → Bool) : (s.resetArbs f).conf = s.conf := rfl
@[simp] theorem State.resetArbs_mgmt (f : ArbId → Bool) : (s.resetArbs f).mgmt = s.mgmt := rfl
@[simp] theorem State.resetArbs_gov (f : ArbId → Bool) : (s.resetArbs f).gov = s.gov := rfl
@[simp] theorem State.resetArbs_flash (f : ArbId → Bool) : (s.resetArbs f).flash = s.flash := rfl
@[simp] theorem State.resetArbs_boot (f : ArbId → Bool) : (s.resetArbs f).boot = s.boot := rfl
@[simp] theorem State.resetArbs_cold (f : ArbId → Bool) : (s.resetArbs f).cold = s.cold := rfl
@[simp] theorem State.resetArbs_firm (f : ArbId → Bool) : (s.resetArbs f).firm = s.firm := rfl
@[simp] theorem State.resetArbs_ctl (f : ArbId → Bool) : (s.resetArbs f).ctl = s.ctl := rfl
@[simp] theorem State.resetArbs_harvest (f : ArbId → Bool) : (s.resetArbs f).harvest = s.harvest := rfl
@[simp] theorem State.resetArbs_recovery (f : ArbId → Bool) : (s.resetArbs f).recovery = s.recovery := rfl
@[simp] theorem State.resetArbs_safe (f : ArbId → Bool) : (s.resetArbs f).safe = s.safe := rfl
@[simp] theorem State.resetArbs_tap (f : ArbId → Bool) : (s.resetArbs f).tap = s.tap := rfl

@[simp] theorem State.setCfg_pending (o : Nat) (v : BitVec 32) : (s.setCfg o v).pending = s.pending := rfl
@[simp] theorem State.setCfg_freeCtr (o : Nat) (v : BitVec 32) : (s.setCfg o v).freeCtr = s.freeCtr := rfl
@[simp] theorem State.setCfg_off (o : Nat) (v : BitVec 32) : (s.setCfg o v).off = s.off := rfl
@[simp] theorem State.setCfg_clock (o : Nat) (v : BitVec 32) : (s.setCfg o v).clock = s.clock := rfl
@[simp] theorem State.setCfg_regs (o : Nat) (v : BitVec 32) : (s.setCfg o v).regs = s.regs := rfl
@[simp] theorem State.setCfg_staged (o : Nat) (v : BitVec 32) : (s.setCfg o v).staged = s.staged := rfl
@[simp] theorem State.setCfg_commits (o : Nat) (v : BitVec 32) : (s.setCfg o v).commits = s.commits := rfl
@[simp] theorem State.setCfg_latches (o : Nat) (v : BitVec 32) : (s.setCfg o v).latches = s.latches := rfl
@[simp] theorem State.setCfg_log (o : Nat) (v : BitVec 32) : (s.setCfg o v).log = s.log := rfl
@[simp] theorem State.setCfg_out (o : Nat) (v : BitVec 32) : (s.setCfg o v).out = s.out := rfl
@[simp] theorem State.setCfg_clusters (o : Nat) (v : BitVec 32) : (s.setCfg o v).clusters = s.clusters := rfl
@[simp] theorem State.setCfg_slice (o : Nat) (v : BitVec 32) : (s.setCfg o v).slice = s.slice := rfl
@[simp] theorem State.setCfg_pad (o : Nat) (v : BitVec 32) : (s.setCfg o v).pad = s.pad := rfl
@[simp] theorem State.setCfg_sliceFlaw (o : Nat) (v : BitVec 32) : (s.setCfg o v).sliceFlaw = s.sliceFlaw := rfl
@[simp] theorem State.setCfg_padFlaw (o : Nat) (v : BitVec 32) : (s.setCfg o v).padFlaw = s.padFlaw := rfl
@[simp] theorem State.setCfg_mem (o : Nat) (v : BitVec 32) : (s.setCfg o v).mem = s.mem := rfl
@[simp] theorem State.setCfg_fab (o : Nat) (v : BitVec 32) : (s.setCfg o v).fab = s.fab := rfl
@[simp] theorem State.setCfg_col (o : Nat) (v : BitVec 32) : (s.setCfg o v).col = s.col := rfl
@[simp] theorem State.setCfg_arbs (o : Nat) (v : BitVec 32) : (s.setCfg o v).arbs = s.arbs := rfl
@[simp] theorem State.setCfg_disp (o : Nat) (v : BitVec 32) : (s.setCfg o v).disp = s.disp := rfl
@[simp] theorem State.setCfg_ras (o : Nat) (v : BitVec 32) : (s.setCfg o v).ras = s.ras := rfl
@[simp] theorem State.setCfg_repair (o : Nat) (v : BitVec 32) : (s.setCfg o v).repair = s.repair := rfl
@[simp] theorem State.setCfg_conf (o : Nat) (v : BitVec 32) : (s.setCfg o v).conf = s.conf := rfl
@[simp] theorem State.setCfg_mgmt (o : Nat) (v : BitVec 32) : (s.setCfg o v).mgmt = s.mgmt := rfl
@[simp] theorem State.setCfg_gov (o : Nat) (v : BitVec 32) : (s.setCfg o v).gov = s.gov := rfl
@[simp] theorem State.setCfg_flash (o : Nat) (v : BitVec 32) : (s.setCfg o v).flash = s.flash := rfl
@[simp] theorem State.setCfg_boot (o : Nat) (v : BitVec 32) : (s.setCfg o v).boot = s.boot := rfl
@[simp] theorem State.setCfg_cold (o : Nat) (v : BitVec 32) : (s.setCfg o v).cold = s.cold := rfl
@[simp] theorem State.setCfg_firm (o : Nat) (v : BitVec 32) : (s.setCfg o v).firm = s.firm := rfl
@[simp] theorem State.setCfg_ctl (o : Nat) (v : BitVec 32) : (s.setCfg o v).ctl = s.ctl := rfl
@[simp] theorem State.setCfg_harvest (o : Nat) (v : BitVec 32) : (s.setCfg o v).harvest = s.harvest := rfl
@[simp] theorem State.setCfg_recovery (o : Nat) (v : BitVec 32) : (s.setCfg o v).recovery = s.recovery := rfl
@[simp] theorem State.setCfg_safe (o : Nat) (v : BitVec 32) : (s.setCfg o v).safe = s.safe := rfl
@[simp] theorem State.setCfg_tap (o : Nat) (v : BitVec 32) : (s.setCfg o v).tap = s.tap := rfl

@[simp] theorem State.setSlotWord_pending (c w : Nat) (v : Word) : (s.setSlotWord c w v).pending = s.pending := rfl
@[simp] theorem State.setSlotWord_freeCtr (c w : Nat) (v : Word) : (s.setSlotWord c w v).freeCtr = s.freeCtr := rfl
@[simp] theorem State.setSlotWord_off (c w : Nat) (v : Word) : (s.setSlotWord c w v).off = s.off := rfl
@[simp] theorem State.setSlotWord_clock (c w : Nat) (v : Word) : (s.setSlotWord c w v).clock = s.clock := rfl
@[simp] theorem State.setSlotWord_regs (c w : Nat) (v : Word) : (s.setSlotWord c w v).regs = s.regs := rfl
@[simp] theorem State.setSlotWord_staged (c w : Nat) (v : Word) : (s.setSlotWord c w v).staged = s.staged := rfl
@[simp] theorem State.setSlotWord_commits (c w : Nat) (v : Word) : (s.setSlotWord c w v).commits = s.commits := rfl
@[simp] theorem State.setSlotWord_latches (c w : Nat) (v : Word) : (s.setSlotWord c w v).latches = s.latches := rfl
@[simp] theorem State.setSlotWord_log (c w : Nat) (v : Word) : (s.setSlotWord c w v).log = s.log := rfl
@[simp] theorem State.setSlotWord_host (c w : Nat) (v : Word) : (s.setSlotWord c w v).host = s.host := rfl
@[simp] theorem State.setSlotWord_out (c w : Nat) (v : Word) : (s.setSlotWord c w v).out = s.out := rfl
@[simp] theorem State.setSlotWord_clusters (c w : Nat) (v : Word) : (s.setSlotWord c w v).clusters = s.clusters := rfl
@[simp] theorem State.setSlotWord_slice (c w : Nat) (v : Word) : (s.setSlotWord c w v).slice = s.slice := rfl
@[simp] theorem State.setSlotWord_pad (c w : Nat) (v : Word) : (s.setSlotWord c w v).pad = s.pad := rfl
@[simp] theorem State.setSlotWord_sliceFlaw (c w : Nat) (v : Word) : (s.setSlotWord c w v).sliceFlaw = s.sliceFlaw := rfl
@[simp] theorem State.setSlotWord_padFlaw (c w : Nat) (v : Word) : (s.setSlotWord c w v).padFlaw = s.padFlaw := rfl
@[simp] theorem State.setSlotWord_mem (c w : Nat) (v : Word) : (s.setSlotWord c w v).mem = s.mem := rfl
@[simp] theorem State.setSlotWord_fab (c w : Nat) (v : Word) : (s.setSlotWord c w v).fab = s.fab := rfl
@[simp] theorem State.setSlotWord_col (c w : Nat) (v : Word) : (s.setSlotWord c w v).col = s.col := rfl
@[simp] theorem State.setSlotWord_arbs (c w : Nat) (v : Word) : (s.setSlotWord c w v).arbs = s.arbs := rfl
@[simp] theorem State.setSlotWord_ras (c w : Nat) (v : Word) : (s.setSlotWord c w v).ras = s.ras := rfl
@[simp] theorem State.setSlotWord_repair (c w : Nat) (v : Word) : (s.setSlotWord c w v).repair = s.repair := rfl
@[simp] theorem State.setSlotWord_conf (c w : Nat) (v : Word) : (s.setSlotWord c w v).conf = s.conf := rfl
@[simp] theorem State.setSlotWord_mgmt (c w : Nat) (v : Word) : (s.setSlotWord c w v).mgmt = s.mgmt := rfl
@[simp] theorem State.setSlotWord_gov (c w : Nat) (v : Word) : (s.setSlotWord c w v).gov = s.gov := rfl
@[simp] theorem State.setSlotWord_flash (c w : Nat) (v : Word) : (s.setSlotWord c w v).flash = s.flash := rfl
@[simp] theorem State.setSlotWord_boot (c w : Nat) (v : Word) : (s.setSlotWord c w v).boot = s.boot := rfl
@[simp] theorem State.setSlotWord_cold (c w : Nat) (v : Word) : (s.setSlotWord c w v).cold = s.cold := rfl
@[simp] theorem State.setSlotWord_firm (c w : Nat) (v : Word) : (s.setSlotWord c w v).firm = s.firm := rfl
@[simp] theorem State.setSlotWord_ctl (c w : Nat) (v : Word) : (s.setSlotWord c w v).ctl = s.ctl := rfl
@[simp] theorem State.setSlotWord_harvest (c w : Nat) (v : Word) : (s.setSlotWord c w v).harvest = s.harvest := rfl
@[simp] theorem State.setSlotWord_recovery (c w : Nat) (v : Word) : (s.setSlotWord c w v).recovery = s.recovery := rfl
@[simp] theorem State.setSlotWord_safe (c w : Nat) (v : Word) : (s.setSlotWord c w v).safe = s.safe := rfl
@[simp] theorem State.setSlotWord_tap (c w : Nat) (v : Word) : (s.setSlotWord c w v).tap = s.tap := rfl

@[simp] theorem State.setCtx_pending (c : Nat) (f : CtxField) (n : Nat) : (s.setCtx c f n).pending = s.pending := rfl
@[simp] theorem State.setCtx_freeCtr (c : Nat) (f : CtxField) (n : Nat) : (s.setCtx c f n).freeCtr = s.freeCtr := rfl
@[simp] theorem State.setCtx_off (c : Nat) (f : CtxField) (n : Nat) : (s.setCtx c f n).off = s.off := rfl
@[simp] theorem State.setCtx_clock (c : Nat) (f : CtxField) (n : Nat) : (s.setCtx c f n).clock = s.clock := rfl
@[simp] theorem State.setCtx_regs (c : Nat) (f : CtxField) (n : Nat) : (s.setCtx c f n).regs = s.regs := rfl
@[simp] theorem State.setCtx_staged (c : Nat) (f : CtxField) (n : Nat) : (s.setCtx c f n).staged = s.staged := rfl
@[simp] theorem State.setCtx_commits (c : Nat) (f : CtxField) (n : Nat) : (s.setCtx c f n).commits = s.commits := rfl
@[simp] theorem State.setCtx_latches (c : Nat) (f : CtxField) (n : Nat) : (s.setCtx c f n).latches = s.latches := rfl
@[simp] theorem State.setCtx_log (c : Nat) (f : CtxField) (n : Nat) : (s.setCtx c f n).log = s.log := rfl
@[simp] theorem State.setCtx_host (c : Nat) (f : CtxField) (n : Nat) : (s.setCtx c f n).host = s.host := rfl
@[simp] theorem State.setCtx_out (c : Nat) (f : CtxField) (n : Nat) : (s.setCtx c f n).out = s.out := rfl
@[simp] theorem State.setCtx_clusters (c : Nat) (f : CtxField) (n : Nat) : (s.setCtx c f n).clusters = s.clusters := rfl
@[simp] theorem State.setCtx_slice (c : Nat) (f : CtxField) (n : Nat) : (s.setCtx c f n).slice = s.slice := rfl
@[simp] theorem State.setCtx_pad (c : Nat) (f : CtxField) (n : Nat) : (s.setCtx c f n).pad = s.pad := rfl
@[simp] theorem State.setCtx_sliceFlaw (c : Nat) (f : CtxField) (n : Nat) : (s.setCtx c f n).sliceFlaw = s.sliceFlaw := rfl
@[simp] theorem State.setCtx_padFlaw (c : Nat) (f : CtxField) (n : Nat) : (s.setCtx c f n).padFlaw = s.padFlaw := rfl
@[simp] theorem State.setCtx_mem (c : Nat) (f : CtxField) (n : Nat) : (s.setCtx c f n).mem = s.mem := rfl
@[simp] theorem State.setCtx_fab (c : Nat) (f : CtxField) (n : Nat) : (s.setCtx c f n).fab = s.fab := rfl
@[simp] theorem State.setCtx_col (c : Nat) (f : CtxField) (n : Nat) : (s.setCtx c f n).col = s.col := rfl
@[simp] theorem State.setCtx_arbs (c : Nat) (f : CtxField) (n : Nat) : (s.setCtx c f n).arbs = s.arbs := rfl
@[simp] theorem State.setCtx_ras (c : Nat) (f : CtxField) (n : Nat) : (s.setCtx c f n).ras = s.ras := rfl
@[simp] theorem State.setCtx_repair (c : Nat) (f : CtxField) (n : Nat) : (s.setCtx c f n).repair = s.repair := rfl
@[simp] theorem State.setCtx_conf (c : Nat) (f : CtxField) (n : Nat) : (s.setCtx c f n).conf = s.conf := rfl
@[simp] theorem State.setCtx_mgmt (c : Nat) (f : CtxField) (n : Nat) : (s.setCtx c f n).mgmt = s.mgmt := rfl
@[simp] theorem State.setCtx_gov (c : Nat) (f : CtxField) (n : Nat) : (s.setCtx c f n).gov = s.gov := rfl
@[simp] theorem State.setCtx_flash (c : Nat) (f : CtxField) (n : Nat) : (s.setCtx c f n).flash = s.flash := rfl
@[simp] theorem State.setCtx_boot (c : Nat) (f : CtxField) (n : Nat) : (s.setCtx c f n).boot = s.boot := rfl
@[simp] theorem State.setCtx_cold (c : Nat) (f : CtxField) (n : Nat) : (s.setCtx c f n).cold = s.cold := rfl
@[simp] theorem State.setCtx_firm (c : Nat) (f : CtxField) (n : Nat) : (s.setCtx c f n).firm = s.firm := rfl
@[simp] theorem State.setCtx_ctl (c : Nat) (f : CtxField) (n : Nat) : (s.setCtx c f n).ctl = s.ctl := rfl
@[simp] theorem State.setCtx_harvest (c : Nat) (f : CtxField) (n : Nat) : (s.setCtx c f n).harvest = s.harvest := rfl
@[simp] theorem State.setCtx_recovery (c : Nat) (f : CtxField) (n : Nat) : (s.setCtx c f n).recovery = s.recovery := rfl
@[simp] theorem State.setCtx_safe (c : Nat) (f : CtxField) (n : Nat) : (s.setCtx c f n).safe = s.safe := rfl
@[simp] theorem State.setCtx_tap (c : Nat) (f : CtxField) (n : Nat) : (s.setCtx c f n).tap = s.tap := rfl

@[simp] theorem State.setClu_pending (p : Nat) (c : Cluster) : (s.setClu p c).pending = s.pending := rfl
@[simp] theorem State.setClu_freeCtr (p : Nat) (c : Cluster) : (s.setClu p c).freeCtr = s.freeCtr := rfl
@[simp] theorem State.setClu_off (p : Nat) (c : Cluster) : (s.setClu p c).off = s.off := rfl
@[simp] theorem State.setClu_clock (p : Nat) (c : Cluster) : (s.setClu p c).clock = s.clock := rfl
@[simp] theorem State.setClu_regs (p : Nat) (c : Cluster) : (s.setClu p c).regs = s.regs := rfl
@[simp] theorem State.setClu_staged (p : Nat) (c : Cluster) : (s.setClu p c).staged = s.staged := rfl
@[simp] theorem State.setClu_commits (p : Nat) (c : Cluster) : (s.setClu p c).commits = s.commits := rfl
@[simp] theorem State.setClu_latches (p : Nat) (c : Cluster) : (s.setClu p c).latches = s.latches := rfl
@[simp] theorem State.setClu_log (p : Nat) (c : Cluster) : (s.setClu p c).log = s.log := rfl
@[simp] theorem State.setClu_host (p : Nat) (c : Cluster) : (s.setClu p c).host = s.host := rfl
@[simp] theorem State.setClu_out (p : Nat) (c : Cluster) : (s.setClu p c).out = s.out := rfl
@[simp] theorem State.setClu_slice (p : Nat) (c : Cluster) : (s.setClu p c).slice = s.slice := rfl
@[simp] theorem State.setClu_pad (p : Nat) (c : Cluster) : (s.setClu p c).pad = s.pad := rfl
@[simp] theorem State.setClu_sliceFlaw (p : Nat) (c : Cluster) : (s.setClu p c).sliceFlaw = s.sliceFlaw := rfl
@[simp] theorem State.setClu_padFlaw (p : Nat) (c : Cluster) : (s.setClu p c).padFlaw = s.padFlaw := rfl
@[simp] theorem State.setClu_mem (p : Nat) (c : Cluster) : (s.setClu p c).mem = s.mem := rfl
@[simp] theorem State.setClu_fab (p : Nat) (c : Cluster) : (s.setClu p c).fab = s.fab := rfl
@[simp] theorem State.setClu_col (p : Nat) (c : Cluster) : (s.setClu p c).col = s.col := rfl
@[simp] theorem State.setClu_arbs (p : Nat) (c : Cluster) : (s.setClu p c).arbs = s.arbs := rfl
@[simp] theorem State.setClu_disp (p : Nat) (c : Cluster) : (s.setClu p c).disp = s.disp := rfl
@[simp] theorem State.setClu_ras (p : Nat) (c : Cluster) : (s.setClu p c).ras = s.ras := rfl
@[simp] theorem State.setClu_repair (p : Nat) (c : Cluster) : (s.setClu p c).repair = s.repair := rfl
@[simp] theorem State.setClu_conf (p : Nat) (c : Cluster) : (s.setClu p c).conf = s.conf := rfl
@[simp] theorem State.setClu_mgmt (p : Nat) (c : Cluster) : (s.setClu p c).mgmt = s.mgmt := rfl
@[simp] theorem State.setClu_gov (p : Nat) (c : Cluster) : (s.setClu p c).gov = s.gov := rfl
@[simp] theorem State.setClu_flash (p : Nat) (c : Cluster) : (s.setClu p c).flash = s.flash := rfl
@[simp] theorem State.setClu_boot (p : Nat) (c : Cluster) : (s.setClu p c).boot = s.boot := rfl
@[simp] theorem State.setClu_cold (p : Nat) (c : Cluster) : (s.setClu p c).cold = s.cold := rfl
@[simp] theorem State.setClu_firm (p : Nat) (c : Cluster) : (s.setClu p c).firm = s.firm := rfl
@[simp] theorem State.setClu_ctl (p : Nat) (c : Cluster) : (s.setClu p c).ctl = s.ctl := rfl
@[simp] theorem State.setClu_harvest (p : Nat) (c : Cluster) : (s.setClu p c).harvest = s.harvest := rfl
@[simp] theorem State.setClu_recovery (p : Nat) (c : Cluster) : (s.setClu p c).recovery = s.recovery := rfl
@[simp] theorem State.setClu_safe (p : Nat) (c : Cluster) : (s.setClu p c).safe = s.safe := rfl
@[simp] theorem State.setClu_tap (p : Nat) (c : Cluster) : (s.setClu p c).tap = s.tap := rfl

@[simp] theorem State.setPort_pending (p : Nat) (x : Port) : (s.setPort p x).pending = s.pending := rfl
@[simp] theorem State.setPort_freeCtr (p : Nat) (x : Port) : (s.setPort p x).freeCtr = s.freeCtr := rfl
@[simp] theorem State.setPort_off (p : Nat) (x : Port) : (s.setPort p x).off = s.off := rfl
@[simp] theorem State.setPort_clock (p : Nat) (x : Port) : (s.setPort p x).clock = s.clock := rfl
@[simp] theorem State.setPort_regs (p : Nat) (x : Port) : (s.setPort p x).regs = s.regs := rfl
@[simp] theorem State.setPort_staged (p : Nat) (x : Port) : (s.setPort p x).staged = s.staged := rfl
@[simp] theorem State.setPort_commits (p : Nat) (x : Port) : (s.setPort p x).commits = s.commits := rfl
@[simp] theorem State.setPort_latches (p : Nat) (x : Port) : (s.setPort p x).latches = s.latches := rfl
@[simp] theorem State.setPort_log (p : Nat) (x : Port) : (s.setPort p x).log = s.log := rfl
@[simp] theorem State.setPort_host (p : Nat) (x : Port) : (s.setPort p x).host = s.host := rfl
@[simp] theorem State.setPort_out (p : Nat) (x : Port) : (s.setPort p x).out = s.out := rfl
@[simp] theorem State.setPort_clusters (p : Nat) (x : Port) : (s.setPort p x).clusters = s.clusters := rfl
@[simp] theorem State.setPort_slice (p : Nat) (x : Port) : (s.setPort p x).slice = s.slice := rfl
@[simp] theorem State.setPort_pad (p : Nat) (x : Port) : (s.setPort p x).pad = s.pad := rfl
@[simp] theorem State.setPort_sliceFlaw (p : Nat) (x : Port) : (s.setPort p x).sliceFlaw = s.sliceFlaw := rfl
@[simp] theorem State.setPort_padFlaw (p : Nat) (x : Port) : (s.setPort p x).padFlaw = s.padFlaw := rfl
@[simp] theorem State.setPort_mem (p : Nat) (x : Port) : (s.setPort p x).mem = s.mem := rfl
@[simp] theorem State.setPort_col (p : Nat) (x : Port) : (s.setPort p x).col = s.col := rfl
@[simp] theorem State.setPort_arbs (p : Nat) (x : Port) : (s.setPort p x).arbs = s.arbs := rfl
@[simp] theorem State.setPort_disp (p : Nat) (x : Port) : (s.setPort p x).disp = s.disp := rfl
@[simp] theorem State.setPort_ras (p : Nat) (x : Port) : (s.setPort p x).ras = s.ras := rfl
@[simp] theorem State.setPort_repair (p : Nat) (x : Port) : (s.setPort p x).repair = s.repair := rfl
@[simp] theorem State.setPort_conf (p : Nat) (x : Port) : (s.setPort p x).conf = s.conf := rfl
@[simp] theorem State.setPort_mgmt (p : Nat) (x : Port) : (s.setPort p x).mgmt = s.mgmt := rfl
@[simp] theorem State.setPort_gov (p : Nat) (x : Port) : (s.setPort p x).gov = s.gov := rfl
@[simp] theorem State.setPort_flash (p : Nat) (x : Port) : (s.setPort p x).flash = s.flash := rfl
@[simp] theorem State.setPort_boot (p : Nat) (x : Port) : (s.setPort p x).boot = s.boot := rfl
@[simp] theorem State.setPort_cold (p : Nat) (x : Port) : (s.setPort p x).cold = s.cold := rfl
@[simp] theorem State.setPort_firm (p : Nat) (x : Port) : (s.setPort p x).firm = s.firm := rfl
@[simp] theorem State.setPort_ctl (p : Nat) (x : Port) : (s.setPort p x).ctl = s.ctl := rfl
@[simp] theorem State.setPort_harvest (p : Nat) (x : Port) : (s.setPort p x).harvest = s.harvest := rfl
@[simp] theorem State.setPort_recovery (p : Nat) (x : Port) : (s.setPort p x).recovery = s.recovery := rfl
@[simp] theorem State.setPort_safe (p : Nat) (x : Port) : (s.setPort p x).safe = s.safe := rfl
@[simp] theorem State.setPort_tap (p : Nat) (x : Port) : (s.setPort p x).tap = s.tap := rfl

@[simp] theorem State.putOut_pending (o : OutPkt) : (s.putOut o).pending = s.pending := rfl
@[simp] theorem State.putOut_freeCtr (o : OutPkt) : (s.putOut o).freeCtr = s.freeCtr := rfl
@[simp] theorem State.putOut_off (o : OutPkt) : (s.putOut o).off = s.off := rfl
@[simp] theorem State.putOut_clock (o : OutPkt) : (s.putOut o).clock = s.clock := rfl
@[simp] theorem State.putOut_regs (o : OutPkt) : (s.putOut o).regs = s.regs := rfl
@[simp] theorem State.putOut_staged (o : OutPkt) : (s.putOut o).staged = s.staged := rfl
@[simp] theorem State.putOut_commits (o : OutPkt) : (s.putOut o).commits = s.commits := rfl
@[simp] theorem State.putOut_latches (o : OutPkt) : (s.putOut o).latches = s.latches := rfl
@[simp] theorem State.putOut_log (o : OutPkt) : (s.putOut o).log = s.log := rfl
@[simp] theorem State.putOut_host (o : OutPkt) : (s.putOut o).host = s.host := rfl
@[simp] theorem State.putOut_out (o : OutPkt) : (s.putOut o).out = s.out := rfl
@[simp] theorem State.putOut_clusters (o : OutPkt) : (s.putOut o).clusters = s.clusters := rfl
@[simp] theorem State.putOut_slice (o : OutPkt) : (s.putOut o).slice = s.slice := rfl
@[simp] theorem State.putOut_pad (o : OutPkt) : (s.putOut o).pad = s.pad := rfl
@[simp] theorem State.putOut_sliceFlaw (o : OutPkt) : (s.putOut o).sliceFlaw = s.sliceFlaw := rfl
@[simp] theorem State.putOut_padFlaw (o : OutPkt) : (s.putOut o).padFlaw = s.padFlaw := rfl
@[simp] theorem State.putOut_mem (o : OutPkt) : (s.putOut o).mem = s.mem := rfl
@[simp] theorem State.putOut_col (o : OutPkt) : (s.putOut o).col = s.col := rfl
@[simp] theorem State.putOut_arbs (o : OutPkt) : (s.putOut o).arbs = s.arbs := rfl
@[simp] theorem State.putOut_disp (o : OutPkt) : (s.putOut o).disp = s.disp := rfl
@[simp] theorem State.putOut_ras (o : OutPkt) : (s.putOut o).ras = s.ras := rfl
@[simp] theorem State.putOut_repair (o : OutPkt) : (s.putOut o).repair = s.repair := rfl
@[simp] theorem State.putOut_conf (o : OutPkt) : (s.putOut o).conf = s.conf := rfl
@[simp] theorem State.putOut_mgmt (o : OutPkt) : (s.putOut o).mgmt = s.mgmt := rfl
@[simp] theorem State.putOut_gov (o : OutPkt) : (s.putOut o).gov = s.gov := rfl
@[simp] theorem State.putOut_flash (o : OutPkt) : (s.putOut o).flash = s.flash := rfl
@[simp] theorem State.putOut_boot (o : OutPkt) : (s.putOut o).boot = s.boot := rfl
@[simp] theorem State.putOut_cold (o : OutPkt) : (s.putOut o).cold = s.cold := rfl
@[simp] theorem State.putOut_firm (o : OutPkt) : (s.putOut o).firm = s.firm := rfl
@[simp] theorem State.putOut_ctl (o : OutPkt) : (s.putOut o).ctl = s.ctl := rfl
@[simp] theorem State.putOut_harvest (o : OutPkt) : (s.putOut o).harvest = s.harvest := rfl
@[simp] theorem State.putOut_recovery (o : OutPkt) : (s.putOut o).recovery = s.recovery := rfl
@[simp] theorem State.putOut_safe (o : OutPkt) : (s.putOut o).safe = s.safe := rfl
@[simp] theorem State.putOut_tap (o : OutPkt) : (s.putOut o).tap = s.tap := rfl

@[simp] theorem State.postWrite_pending (addr : Nat) (data : Bytes) (ro : Bool) (k : TlpKind) : (s.postWrite addr data ro k).pending = s.pending := rfl
@[simp] theorem State.postWrite_freeCtr (addr : Nat) (data : Bytes) (ro : Bool) (k : TlpKind) : (s.postWrite addr data ro k).freeCtr = s.freeCtr := rfl
@[simp] theorem State.postWrite_off (addr : Nat) (data : Bytes) (ro : Bool) (k : TlpKind) : (s.postWrite addr data ro k).off = s.off := rfl
@[simp] theorem State.postWrite_clock (addr : Nat) (data : Bytes) (ro : Bool) (k : TlpKind) : (s.postWrite addr data ro k).clock = s.clock := rfl
@[simp] theorem State.postWrite_regs (addr : Nat) (data : Bytes) (ro : Bool) (k : TlpKind) : (s.postWrite addr data ro k).regs = s.regs := rfl
@[simp] theorem State.postWrite_staged (addr : Nat) (data : Bytes) (ro : Bool) (k : TlpKind) : (s.postWrite addr data ro k).staged = s.staged := rfl
@[simp] theorem State.postWrite_commits (addr : Nat) (data : Bytes) (ro : Bool) (k : TlpKind) : (s.postWrite addr data ro k).commits = s.commits := rfl
@[simp] theorem State.postWrite_latches (addr : Nat) (data : Bytes) (ro : Bool) (k : TlpKind) : (s.postWrite addr data ro k).latches = s.latches := rfl
@[simp] theorem State.postWrite_log (addr : Nat) (data : Bytes) (ro : Bool) (k : TlpKind) : (s.postWrite addr data ro k).log = s.log := rfl
@[simp] theorem State.postWrite_clusters (addr : Nat) (data : Bytes) (ro : Bool) (k : TlpKind) : (s.postWrite addr data ro k).clusters = s.clusters := rfl
@[simp] theorem State.postWrite_slice (addr : Nat) (data : Bytes) (ro : Bool) (k : TlpKind) : (s.postWrite addr data ro k).slice = s.slice := rfl
@[simp] theorem State.postWrite_pad (addr : Nat) (data : Bytes) (ro : Bool) (k : TlpKind) : (s.postWrite addr data ro k).pad = s.pad := rfl
@[simp] theorem State.postWrite_sliceFlaw (addr : Nat) (data : Bytes) (ro : Bool) (k : TlpKind) : (s.postWrite addr data ro k).sliceFlaw = s.sliceFlaw := rfl
@[simp] theorem State.postWrite_padFlaw (addr : Nat) (data : Bytes) (ro : Bool) (k : TlpKind) : (s.postWrite addr data ro k).padFlaw = s.padFlaw := rfl
@[simp] theorem State.postWrite_mem (addr : Nat) (data : Bytes) (ro : Bool) (k : TlpKind) : (s.postWrite addr data ro k).mem = s.mem := rfl
@[simp] theorem State.postWrite_fab (addr : Nat) (data : Bytes) (ro : Bool) (k : TlpKind) : (s.postWrite addr data ro k).fab = s.fab := rfl
@[simp] theorem State.postWrite_col (addr : Nat) (data : Bytes) (ro : Bool) (k : TlpKind) : (s.postWrite addr data ro k).col = s.col := rfl
@[simp] theorem State.postWrite_arbs (addr : Nat) (data : Bytes) (ro : Bool) (k : TlpKind) : (s.postWrite addr data ro k).arbs = s.arbs := rfl
@[simp] theorem State.postWrite_disp (addr : Nat) (data : Bytes) (ro : Bool) (k : TlpKind) : (s.postWrite addr data ro k).disp = s.disp := rfl
@[simp] theorem State.postWrite_ras (addr : Nat) (data : Bytes) (ro : Bool) (k : TlpKind) : (s.postWrite addr data ro k).ras = s.ras := rfl
@[simp] theorem State.postWrite_repair (addr : Nat) (data : Bytes) (ro : Bool) (k : TlpKind) : (s.postWrite addr data ro k).repair = s.repair := rfl
@[simp] theorem State.postWrite_conf (addr : Nat) (data : Bytes) (ro : Bool) (k : TlpKind) : (s.postWrite addr data ro k).conf = s.conf := rfl
@[simp] theorem State.postWrite_mgmt (addr : Nat) (data : Bytes) (ro : Bool) (k : TlpKind) : (s.postWrite addr data ro k).mgmt = s.mgmt := rfl
@[simp] theorem State.postWrite_gov (addr : Nat) (data : Bytes) (ro : Bool) (k : TlpKind) : (s.postWrite addr data ro k).gov = s.gov := rfl
@[simp] theorem State.postWrite_flash (addr : Nat) (data : Bytes) (ro : Bool) (k : TlpKind) : (s.postWrite addr data ro k).flash = s.flash := rfl
@[simp] theorem State.postWrite_boot (addr : Nat) (data : Bytes) (ro : Bool) (k : TlpKind) : (s.postWrite addr data ro k).boot = s.boot := rfl
@[simp] theorem State.postWrite_cold (addr : Nat) (data : Bytes) (ro : Bool) (k : TlpKind) : (s.postWrite addr data ro k).cold = s.cold := rfl
@[simp] theorem State.postWrite_firm (addr : Nat) (data : Bytes) (ro : Bool) (k : TlpKind) : (s.postWrite addr data ro k).firm = s.firm := rfl
@[simp] theorem State.postWrite_ctl (addr : Nat) (data : Bytes) (ro : Bool) (k : TlpKind) : (s.postWrite addr data ro k).ctl = s.ctl := rfl
@[simp] theorem State.postWrite_harvest (addr : Nat) (data : Bytes) (ro : Bool) (k : TlpKind) : (s.postWrite addr data ro k).harvest = s.harvest := rfl
@[simp] theorem State.postWrite_recovery (addr : Nat) (data : Bytes) (ro : Bool) (k : TlpKind) : (s.postWrite addr data ro k).recovery = s.recovery := rfl
@[simp] theorem State.postWrite_safe (addr : Nat) (data : Bytes) (ro : Bool) (k : TlpKind) : (s.postWrite addr data ro k).safe = s.safe := rfl
@[simp] theorem State.postWrite_tap (addr : Nat) (data : Bytes) (ro : Bool) (k : TlpKind) : (s.postWrite addr data ro k).tap = s.tap := rfl

@[simp] theorem State.setLine_pending (key : Nat) (l : TLine) : (s.setLine key l).pending = s.pending := rfl
@[simp] theorem State.setLine_freeCtr (key : Nat) (l : TLine) : (s.setLine key l).freeCtr = s.freeCtr := rfl
@[simp] theorem State.setLine_off (key : Nat) (l : TLine) : (s.setLine key l).off = s.off := rfl
@[simp] theorem State.setLine_clock (key : Nat) (l : TLine) : (s.setLine key l).clock = s.clock := rfl
@[simp] theorem State.setLine_regs (key : Nat) (l : TLine) : (s.setLine key l).regs = s.regs := rfl
@[simp] theorem State.setLine_staged (key : Nat) (l : TLine) : (s.setLine key l).staged = s.staged := rfl
@[simp] theorem State.setLine_commits (key : Nat) (l : TLine) : (s.setLine key l).commits = s.commits := rfl
@[simp] theorem State.setLine_latches (key : Nat) (l : TLine) : (s.setLine key l).latches = s.latches := rfl
@[simp] theorem State.setLine_log (key : Nat) (l : TLine) : (s.setLine key l).log = s.log := rfl
@[simp] theorem State.setLine_host (key : Nat) (l : TLine) : (s.setLine key l).host = s.host := rfl
@[simp] theorem State.setLine_out (key : Nat) (l : TLine) : (s.setLine key l).out = s.out := rfl
@[simp] theorem State.setLine_clusters (key : Nat) (l : TLine) : (s.setLine key l).clusters = s.clusters := rfl
@[simp] theorem State.setLine_slice (key : Nat) (l : TLine) : (s.setLine key l).slice = s.slice := rfl
@[simp] theorem State.setLine_pad (key : Nat) (l : TLine) : (s.setLine key l).pad = s.pad := rfl
@[simp] theorem State.setLine_sliceFlaw (key : Nat) (l : TLine) : (s.setLine key l).sliceFlaw = s.sliceFlaw := rfl
@[simp] theorem State.setLine_padFlaw (key : Nat) (l : TLine) : (s.setLine key l).padFlaw = s.padFlaw := rfl
@[simp] theorem State.setLine_fab (key : Nat) (l : TLine) : (s.setLine key l).fab = s.fab := rfl
@[simp] theorem State.setLine_col (key : Nat) (l : TLine) : (s.setLine key l).col = s.col := rfl
@[simp] theorem State.setLine_arbs (key : Nat) (l : TLine) : (s.setLine key l).arbs = s.arbs := rfl
@[simp] theorem State.setLine_disp (key : Nat) (l : TLine) : (s.setLine key l).disp = s.disp := rfl
@[simp] theorem State.setLine_ras (key : Nat) (l : TLine) : (s.setLine key l).ras = s.ras := rfl
@[simp] theorem State.setLine_repair (key : Nat) (l : TLine) : (s.setLine key l).repair = s.repair := rfl
@[simp] theorem State.setLine_conf (key : Nat) (l : TLine) : (s.setLine key l).conf = s.conf := rfl
@[simp] theorem State.setLine_mgmt (key : Nat) (l : TLine) : (s.setLine key l).mgmt = s.mgmt := rfl
@[simp] theorem State.setLine_gov (key : Nat) (l : TLine) : (s.setLine key l).gov = s.gov := rfl
@[simp] theorem State.setLine_flash (key : Nat) (l : TLine) : (s.setLine key l).flash = s.flash := rfl
@[simp] theorem State.setLine_boot (key : Nat) (l : TLine) : (s.setLine key l).boot = s.boot := rfl
@[simp] theorem State.setLine_cold (key : Nat) (l : TLine) : (s.setLine key l).cold = s.cold := rfl
@[simp] theorem State.setLine_firm (key : Nat) (l : TLine) : (s.setLine key l).firm = s.firm := rfl
@[simp] theorem State.setLine_ctl (key : Nat) (l : TLine) : (s.setLine key l).ctl = s.ctl := rfl
@[simp] theorem State.setLine_harvest (key : Nat) (l : TLine) : (s.setLine key l).harvest = s.harvest := rfl
@[simp] theorem State.setLine_recovery (key : Nat) (l : TLine) : (s.setLine key l).recovery = s.recovery := rfl
@[simp] theorem State.setLine_safe (key : Nat) (l : TLine) : (s.setLine key l).safe = s.safe := rfl
@[simp] theorem State.setLine_tap (key : Nat) (l : TLine) : (s.setLine key l).tap = s.tap := rfl

@[simp] theorem State.showStopped_pending : (s.showStopped).pending = s.pending := rfl
@[simp] theorem State.showStopped_freeCtr : (s.showStopped).freeCtr = s.freeCtr := rfl
@[simp] theorem State.showStopped_off : (s.showStopped).off = s.off := rfl
@[simp] theorem State.showStopped_clock : (s.showStopped).clock = s.clock := rfl
@[simp] theorem State.showStopped_staged : (s.showStopped).staged = s.staged := rfl
@[simp] theorem State.showStopped_commits : (s.showStopped).commits = s.commits := rfl
@[simp] theorem State.showStopped_latches : (s.showStopped).latches = s.latches := rfl
@[simp] theorem State.showStopped_log : (s.showStopped).log = s.log := rfl
@[simp] theorem State.showStopped_host : (s.showStopped).host = s.host := rfl
@[simp] theorem State.showStopped_out : (s.showStopped).out = s.out := rfl
@[simp] theorem State.showStopped_clusters : (s.showStopped).clusters = s.clusters := rfl
@[simp] theorem State.showStopped_slice : (s.showStopped).slice = s.slice := rfl
@[simp] theorem State.showStopped_pad : (s.showStopped).pad = s.pad := rfl
@[simp] theorem State.showStopped_sliceFlaw : (s.showStopped).sliceFlaw = s.sliceFlaw := rfl
@[simp] theorem State.showStopped_padFlaw : (s.showStopped).padFlaw = s.padFlaw := rfl
@[simp] theorem State.showStopped_mem : (s.showStopped).mem = s.mem := rfl
@[simp] theorem State.showStopped_fab : (s.showStopped).fab = s.fab := rfl
@[simp] theorem State.showStopped_col : (s.showStopped).col = s.col := rfl
@[simp] theorem State.showStopped_arbs : (s.showStopped).arbs = s.arbs := rfl
@[simp] theorem State.showStopped_disp : (s.showStopped).disp = s.disp := rfl
@[simp] theorem State.showStopped_ras : (s.showStopped).ras = s.ras := rfl
@[simp] theorem State.showStopped_repair : (s.showStopped).repair = s.repair := rfl
@[simp] theorem State.showStopped_conf : (s.showStopped).conf = s.conf := rfl
@[simp] theorem State.showStopped_mgmt : (s.showStopped).mgmt = s.mgmt := rfl
@[simp] theorem State.showStopped_gov : (s.showStopped).gov = s.gov := rfl
@[simp] theorem State.showStopped_flash : (s.showStopped).flash = s.flash := rfl
@[simp] theorem State.showStopped_boot : (s.showStopped).boot = s.boot := rfl
@[simp] theorem State.showStopped_cold : (s.showStopped).cold = s.cold := rfl
@[simp] theorem State.showStopped_firm : (s.showStopped).firm = s.firm := rfl
@[simp] theorem State.showStopped_ctl : (s.showStopped).ctl = s.ctl := rfl
@[simp] theorem State.showStopped_harvest : (s.showStopped).harvest = s.harvest := rfl
@[simp] theorem State.showStopped_recovery : (s.showStopped).recovery = s.recovery := rfl
@[simp] theorem State.showStopped_safe : (s.showStopped).safe = s.safe := rfl
@[simp] theorem State.showStopped_tap : (s.showStopped).tap = s.tap := rfl

@[simp] theorem State.sendVector_pending (v : Nat) : (s.sendVector v).pending = s.pending := rfl
@[simp] theorem State.sendVector_freeCtr (v : Nat) : (s.sendVector v).freeCtr = s.freeCtr := rfl
@[simp] theorem State.sendVector_off (v : Nat) : (s.sendVector v).off = s.off := rfl
@[simp] theorem State.sendVector_clock (v : Nat) : (s.sendVector v).clock = s.clock := rfl
@[simp] theorem State.sendVector_regs (v : Nat) : (s.sendVector v).regs = s.regs := rfl
@[simp] theorem State.sendVector_staged (v : Nat) : (s.sendVector v).staged = s.staged := rfl
@[simp] theorem State.sendVector_commits (v : Nat) : (s.sendVector v).commits = s.commits := rfl
@[simp] theorem State.sendVector_latches (v : Nat) : (s.sendVector v).latches = s.latches := rfl
@[simp] theorem State.sendVector_log (v : Nat) : (s.sendVector v).log = s.log := rfl
@[simp] theorem State.sendVector_host (v : Nat) : (s.sendVector v).host = s.host := rfl
@[simp] theorem State.sendVector_clusters (v : Nat) : (s.sendVector v).clusters = s.clusters := rfl
@[simp] theorem State.sendVector_slice (v : Nat) : (s.sendVector v).slice = s.slice := rfl
@[simp] theorem State.sendVector_pad (v : Nat) : (s.sendVector v).pad = s.pad := rfl
@[simp] theorem State.sendVector_sliceFlaw (v : Nat) : (s.sendVector v).sliceFlaw = s.sliceFlaw := rfl
@[simp] theorem State.sendVector_padFlaw (v : Nat) : (s.sendVector v).padFlaw = s.padFlaw := rfl
@[simp] theorem State.sendVector_mem (v : Nat) : (s.sendVector v).mem = s.mem := rfl
@[simp] theorem State.sendVector_fab (v : Nat) : (s.sendVector v).fab = s.fab := rfl
@[simp] theorem State.sendVector_col (v : Nat) : (s.sendVector v).col = s.col := rfl
@[simp] theorem State.sendVector_arbs (v : Nat) : (s.sendVector v).arbs = s.arbs := rfl
@[simp] theorem State.sendVector_disp (v : Nat) : (s.sendVector v).disp = s.disp := rfl
@[simp] theorem State.sendVector_ras (v : Nat) : (s.sendVector v).ras = s.ras := rfl
@[simp] theorem State.sendVector_repair (v : Nat) : (s.sendVector v).repair = s.repair := rfl
@[simp] theorem State.sendVector_conf (v : Nat) : (s.sendVector v).conf = s.conf := rfl
@[simp] theorem State.sendVector_mgmt (v : Nat) : (s.sendVector v).mgmt = s.mgmt := rfl
@[simp] theorem State.sendVector_gov (v : Nat) : (s.sendVector v).gov = s.gov := rfl
@[simp] theorem State.sendVector_flash (v : Nat) : (s.sendVector v).flash = s.flash := rfl
@[simp] theorem State.sendVector_boot (v : Nat) : (s.sendVector v).boot = s.boot := rfl
@[simp] theorem State.sendVector_cold (v : Nat) : (s.sendVector v).cold = s.cold := rfl
@[simp] theorem State.sendVector_firm (v : Nat) : (s.sendVector v).firm = s.firm := rfl
@[simp] theorem State.sendVector_ctl (v : Nat) : (s.sendVector v).ctl = s.ctl := rfl
@[simp] theorem State.sendVector_harvest (v : Nat) : (s.sendVector v).harvest = s.harvest := rfl
@[simp] theorem State.sendVector_recovery (v : Nat) : (s.sendVector v).recovery = s.recovery := rfl
@[simp] theorem State.sendVector_safe (v : Nat) : (s.sendVector v).safe = s.safe := rfl
@[simp] theorem State.sendVector_tap (v : Nat) : (s.sendVector v).tap = s.tap := rfl

@[simp] theorem State.flashWrite_pending (o : Nat) (b : Bytes) : (s.flashWrite o b).pending = s.pending := rfl
@[simp] theorem State.flashWrite_freeCtr (o : Nat) (b : Bytes) : (s.flashWrite o b).freeCtr = s.freeCtr := rfl
@[simp] theorem State.flashWrite_off (o : Nat) (b : Bytes) : (s.flashWrite o b).off = s.off := rfl
@[simp] theorem State.flashWrite_clock (o : Nat) (b : Bytes) : (s.flashWrite o b).clock = s.clock := rfl
@[simp] theorem State.flashWrite_regs (o : Nat) (b : Bytes) : (s.flashWrite o b).regs = s.regs := rfl
@[simp] theorem State.flashWrite_staged (o : Nat) (b : Bytes) : (s.flashWrite o b).staged = s.staged := rfl
@[simp] theorem State.flashWrite_commits (o : Nat) (b : Bytes) : (s.flashWrite o b).commits = s.commits := rfl
@[simp] theorem State.flashWrite_latches (o : Nat) (b : Bytes) : (s.flashWrite o b).latches = s.latches := rfl
@[simp] theorem State.flashWrite_log (o : Nat) (b : Bytes) : (s.flashWrite o b).log = s.log := rfl
@[simp] theorem State.flashWrite_host (o : Nat) (b : Bytes) : (s.flashWrite o b).host = s.host := rfl
@[simp] theorem State.flashWrite_out (o : Nat) (b : Bytes) : (s.flashWrite o b).out = s.out := rfl
@[simp] theorem State.flashWrite_clusters (o : Nat) (b : Bytes) : (s.flashWrite o b).clusters = s.clusters := rfl
@[simp] theorem State.flashWrite_slice (o : Nat) (b : Bytes) : (s.flashWrite o b).slice = s.slice := rfl
@[simp] theorem State.flashWrite_pad (o : Nat) (b : Bytes) : (s.flashWrite o b).pad = s.pad := rfl
@[simp] theorem State.flashWrite_sliceFlaw (o : Nat) (b : Bytes) : (s.flashWrite o b).sliceFlaw = s.sliceFlaw := rfl
@[simp] theorem State.flashWrite_padFlaw (o : Nat) (b : Bytes) : (s.flashWrite o b).padFlaw = s.padFlaw := rfl
@[simp] theorem State.flashWrite_mem (o : Nat) (b : Bytes) : (s.flashWrite o b).mem = s.mem := rfl
@[simp] theorem State.flashWrite_fab (o : Nat) (b : Bytes) : (s.flashWrite o b).fab = s.fab := rfl
@[simp] theorem State.flashWrite_col (o : Nat) (b : Bytes) : (s.flashWrite o b).col = s.col := rfl
@[simp] theorem State.flashWrite_arbs (o : Nat) (b : Bytes) : (s.flashWrite o b).arbs = s.arbs := rfl
@[simp] theorem State.flashWrite_disp (o : Nat) (b : Bytes) : (s.flashWrite o b).disp = s.disp := rfl
@[simp] theorem State.flashWrite_ras (o : Nat) (b : Bytes) : (s.flashWrite o b).ras = s.ras := rfl
@[simp] theorem State.flashWrite_repair (o : Nat) (b : Bytes) : (s.flashWrite o b).repair = s.repair := rfl
@[simp] theorem State.flashWrite_conf (o : Nat) (b : Bytes) : (s.flashWrite o b).conf = s.conf := rfl
@[simp] theorem State.flashWrite_mgmt (o : Nat) (b : Bytes) : (s.flashWrite o b).mgmt = s.mgmt := rfl
@[simp] theorem State.flashWrite_gov (o : Nat) (b : Bytes) : (s.flashWrite o b).gov = s.gov := rfl
@[simp] theorem State.flashWrite_boot (o : Nat) (b : Bytes) : (s.flashWrite o b).boot = s.boot := rfl
@[simp] theorem State.flashWrite_cold (o : Nat) (b : Bytes) : (s.flashWrite o b).cold = s.cold := rfl
@[simp] theorem State.flashWrite_firm (o : Nat) (b : Bytes) : (s.flashWrite o b).firm = s.firm := rfl
@[simp] theorem State.flashWrite_ctl (o : Nat) (b : Bytes) : (s.flashWrite o b).ctl = s.ctl := rfl
@[simp] theorem State.flashWrite_harvest (o : Nat) (b : Bytes) : (s.flashWrite o b).harvest = s.harvest := rfl
@[simp] theorem State.flashWrite_recovery (o : Nat) (b : Bytes) : (s.flashWrite o b).recovery = s.recovery := rfl
@[simp] theorem State.flashWrite_safe (o : Nat) (b : Bytes) : (s.flashWrite o b).safe = s.safe := rfl
@[simp] theorem State.flashWrite_tap (o : Nat) (b : Bytes) : (s.flashWrite o b).tap = s.tap := rfl

@[simp] theorem State.flashErase_pending (o n : Nat) : (s.flashErase o n).pending = s.pending := rfl
@[simp] theorem State.flashErase_freeCtr (o n : Nat) : (s.flashErase o n).freeCtr = s.freeCtr := rfl
@[simp] theorem State.flashErase_off (o n : Nat) : (s.flashErase o n).off = s.off := rfl
@[simp] theorem State.flashErase_clock (o n : Nat) : (s.flashErase o n).clock = s.clock := rfl
@[simp] theorem State.flashErase_regs (o n : Nat) : (s.flashErase o n).regs = s.regs := rfl
@[simp] theorem State.flashErase_staged (o n : Nat) : (s.flashErase o n).staged = s.staged := rfl
@[simp] theorem State.flashErase_commits (o n : Nat) : (s.flashErase o n).commits = s.commits := rfl
@[simp] theorem State.flashErase_latches (o n : Nat) : (s.flashErase o n).latches = s.latches := rfl
@[simp] theorem State.flashErase_log (o n : Nat) : (s.flashErase o n).log = s.log := rfl
@[simp] theorem State.flashErase_host (o n : Nat) : (s.flashErase o n).host = s.host := rfl
@[simp] theorem State.flashErase_out (o n : Nat) : (s.flashErase o n).out = s.out := rfl
@[simp] theorem State.flashErase_clusters (o n : Nat) : (s.flashErase o n).clusters = s.clusters := rfl
@[simp] theorem State.flashErase_slice (o n : Nat) : (s.flashErase o n).slice = s.slice := rfl
@[simp] theorem State.flashErase_pad (o n : Nat) : (s.flashErase o n).pad = s.pad := rfl
@[simp] theorem State.flashErase_sliceFlaw (o n : Nat) : (s.flashErase o n).sliceFlaw = s.sliceFlaw := rfl
@[simp] theorem State.flashErase_padFlaw (o n : Nat) : (s.flashErase o n).padFlaw = s.padFlaw := rfl
@[simp] theorem State.flashErase_mem (o n : Nat) : (s.flashErase o n).mem = s.mem := rfl
@[simp] theorem State.flashErase_fab (o n : Nat) : (s.flashErase o n).fab = s.fab := rfl
@[simp] theorem State.flashErase_col (o n : Nat) : (s.flashErase o n).col = s.col := rfl
@[simp] theorem State.flashErase_arbs (o n : Nat) : (s.flashErase o n).arbs = s.arbs := rfl
@[simp] theorem State.flashErase_disp (o n : Nat) : (s.flashErase o n).disp = s.disp := rfl
@[simp] theorem State.flashErase_ras (o n : Nat) : (s.flashErase o n).ras = s.ras := rfl
@[simp] theorem State.flashErase_repair (o n : Nat) : (s.flashErase o n).repair = s.repair := rfl
@[simp] theorem State.flashErase_conf (o n : Nat) : (s.flashErase o n).conf = s.conf := rfl
@[simp] theorem State.flashErase_mgmt (o n : Nat) : (s.flashErase o n).mgmt = s.mgmt := rfl
@[simp] theorem State.flashErase_gov (o n : Nat) : (s.flashErase o n).gov = s.gov := rfl
@[simp] theorem State.flashErase_boot (o n : Nat) : (s.flashErase o n).boot = s.boot := rfl
@[simp] theorem State.flashErase_cold (o n : Nat) : (s.flashErase o n).cold = s.cold := rfl
@[simp] theorem State.flashErase_firm (o n : Nat) : (s.flashErase o n).firm = s.firm := rfl
@[simp] theorem State.flashErase_ctl (o n : Nat) : (s.flashErase o n).ctl = s.ctl := rfl
@[simp] theorem State.flashErase_harvest (o n : Nat) : (s.flashErase o n).harvest = s.harvest := rfl
@[simp] theorem State.flashErase_recovery (o n : Nat) : (s.flashErase o n).recovery = s.recovery := rfl
@[simp] theorem State.flashErase_safe (o n : Nat) : (s.flashErase o n).safe = s.safe := rfl
@[simp] theorem State.flashErase_tap (o n : Nat) : (s.flashErase o n).tap = s.tap := rfl

end Sys2Proof.Machine
end

