-- ==== Sys2Proof/Laws/Store.lean ====
section
/-! SUPPORT. The laws of a sparse store: a read after a write, and that every operation keeps the canonical form. -/

namespace Sys2Proof.Machine

theorem mfind_append {α : Type} (m n : Store α) (k : Nat) : mfind (m ++ n) k = (mfind m k).or (mfind n k) := by
  induction m with
  | nil => simp [mfind]
  | cons e m ih => by_cases h : k = e.1 <;> simp [mfind, h, ih]

theorem mfind_filter_in {α : Type} (q : Nat → Bool) (m : Store α) (k : Nat) (h : q k = true) :
    mfind (m.filter (fun e => q e.1)) k = mfind m k := by
  induction m with
  | nil => rfl
  | cons e m ih =>
    by_cases hq : q e.1 = true
    · simp [hq, mfind, ih]
    · have : k ≠ e.1 := by intro hk; subst hk; exact hq h
      simp [hq, mfind, this, ih]

theorem mfind_filter_out {α : Type} (q : Nat → Bool) (m : Store α) (k : Nat) (h : q k = false) :
    mfind (m.filter (fun e => q e.1)) k = none := by
  induction m with
  | nil => rfl
  | cons e m ih =>
    by_cases hq : q e.1 = true
    · have : k ≠ e.1 := by intro hk; subst hk; simp [h] at hq
      simp [hq, mfind, this, ih]
    · simp [hq, ih]

section
variable {α : Type} [DecidableEq α] (d : Nat → α)

theorem mfind_mfresh_out (b : Nat) (vs : List α) (k : Nat) (h : k < b ∨ b + vs.length ≤ k) :
    mfind (mfresh d b vs) k = none := by
  induction vs generalizing b with
  | nil => rfl
  | cons v vs ih =>
    simp only [List.length_cons] at h
    have := ih (b + 1) (by omega)
    have hk : k ≠ b := by omega
    unfold mfresh; split <;> simp [mfind, this, hk]

theorem mget_mfresh (b : Nat) (vs : List α) (i : Nat) (h : i < vs.length) :
    mget d (mfresh d b vs) (b + i) = vs[i] := by
  induction vs generalizing b i with
  | nil => simp at h
  | cons v vs ih =>
    cases i with
    | zero =>
      have h0 := mfind_mfresh_out d (b + 1) vs b (by omega)
      unfold mfresh; split
      · next hv => simp [mget, h0, hv]
      · simp [mget, mfind]
    | succ i =>
      have e : b + (i + 1) = b + 1 + i := by omega
      have hi := ih (b + 1) i (by simpa using h)
      unfold mfresh; split
      · rw [e, hi]; simp
      · have : b + 1 + i ≠ b := by omega
        rw [e]; unfold mget; unfold mget at hi; simp [mfind, this, hi]

/-- Reading inside the written range gives the written value. -/
theorem mget_mwrite_in (m : Store α) (b : Nat) (vs : List α) (i : Nat) (h : i < vs.length) :
    mget d (mwrite d m b vs) (b + i) = vs[i] := by
  have hf := mget_mfresh d b vs i h
  have h1 := mfind_filter_out (fun k => decide (k < b)) m (b + i) (by simp)
  have h2 := mfind_filter_out (fun k => decide (b + vs.length ≤ k)) m (b + i) (by simpa using h)
  simp only [mwrite, mget, mfind_append, h1, h2] at *
  simpa using hf

/-- Reading outside the written range gives what it gave before. -/
theorem mget_mwrite_out (m : Store α) (b : Nat) (vs : List α) (k : Nat) (h : k < b ∨ b + vs.length ≤ k) :
    mget d (mwrite d m b vs) k = mget d m k := by
  have hf := mfind_mfresh_out d b vs k h
  simp only [mwrite, mget, mfind_append, hf]
  by_cases hk : k < b
  · rw [mfind_filter_in (fun k => decide (k < b)) m k (by simpa using hk),
      mfind_filter_out (fun k => decide (b + vs.length ≤ k)) m k (by simp; omega)]
    simp
  · rw [mfind_filter_out (fun k => decide (k < b)) m k (by simpa using hk),
      mfind_filter_in (fun k => decide (b + vs.length ≤ k)) m k (by simp; omega)]
    simp

@[simp] theorem mget_mset_same (m : Store α) (k : Nat) (v : α) : mget d (mset d m k v) k = v := by
  have := mget_mwrite_in d m k [v] 0 (by simp)
  simpa [mset] using this

theorem mget_mset_ne (m : Store α) (k j : Nat) (v : α) (h : j ≠ k) : mget d (mset d m k v) j = mget d m j :=
  mget_mwrite_out d m k [v] j (by simp; omega)

theorem mget_mset (m : Store α) (k j : Nat) (v : α) :
    mget d (mset d m k v) j = if j = k then v else mget d m j := by
  by_cases h : j = k
  · subst h; simp
  · simp [h, mget_mset_ne d m k j v h]
end

section
variable {α : Type} (d : Nat → α)

theorem length_mread (m : Store α) (b n : Nat) : (mread d m b n).length = n := by simp [mread]

theorem getElem_mread (m : Store α) (b n i : Nat) (h : i < n) :
    (mread d m b n)[i]'(by simpa [mread] using h) = mget d m (b + i) := by
  simp only [mread, List.getElem_map, List.getElem_range, mget]
  rw [mfind_filter_in (fun k => decide (b ≤ k) && decide (k < b + n)) m (b + i) (by simp; omega)]

theorem mget_mclear_in (m : Store α) (b n k : Nat) (h : b ≤ k ∧ k < b + n) : mget d (mclear m b n) k = d k := by
  unfold mget mclear
  rw [mfind_filter_out (fun k => !(decide (b ≤ k) && decide (k < b + n))) m k (by simp [h])]
  rfl

theorem mget_mclear_out (m : Store α) (b n k : Nat) (h : k < b ∨ b + n ≤ k) :
    mget d (mclear m b n) k = mget d m k := by
  unfold mget mclear
  rw [mfind_filter_in (fun k => !(decide (b ≤ k) && decide (k < b + n))) m k (by simp; omega)]
end

section
variable {α : Type} [DecidableEq α] (d : Nat → α)

/-- A read of the range just written gives the written values. -/
theorem mread_mwrite_same (m : Store α) (b : Nat) (vs : List α) :
    mread d (mwrite d m b vs) b vs.length = vs := by
  apply List.ext_getElem
  · simp [length_mread]
  · intro i h1 h2
    rw [getElem_mread d _ _ _ _ h2, mget_mwrite_in d m b vs i h2]

/-- A read of a range apart from the one written gives what it gave before. -/
theorem mread_mwrite_apart (m : Store α) (b : Nat) (vs : List α) (c n : Nat)
    (h : c + n ≤ b ∨ b + vs.length ≤ c) : mread d (mwrite d m b vs) c n = mread d m c n := by
  apply List.ext_getElem
  · simp [length_mread]
  · intro i h1 h2
    have hi : i < n := by simpa [length_mread] using h1
    rw [getElem_mread d _ _ _ _ hi, getElem_mread d _ _ _ _ hi]
    exact mget_mwrite_out d m b vs (c + i) (by omega)
end

/-! The canonical form. -/

theorem msorted_iff {α : Type} (m : Store α) : msorted m = true ↔ m.Pairwise (fun a b => a.1 < b.1) := by
  induction m with
  | nil => simp [msorted]
  | cons e m ih =>
    cases m with
    | nil => simp [msorted]
    | cons f m =>
      simp only [msorted, Bool.and_eq_true, decide_eq_true_eq, ih]
      constructor
      · rintro ⟨h, hp⟩
        refine List.pairwise_cons.2 ⟨?_, hp⟩
        intro a ha
        rcases List.mem_cons.1 ha with rfl | ha
        · exact h
        · exact Nat.lt_trans h ((List.pairwise_cons.1 hp).1 a ha)
      · intro h
        exact ⟨(List.pairwise_cons.1 h).1 f (by simp), (List.pairwise_cons.1 h).2⟩

/-- A store cut down and changed entry by entry, the keys kept, stays in order. -/
theorem msorted_filterMap {α β : Type} {m : Store α} {f : Nat × α → Option (Nat × β)} (h : msorted m = true)
    (hf : ∀ e x, f e = some x → x.1 = e.1) : msorted (m.filterMap f) = true := by
  rw [msorted_iff] at *
  rw [List.pairwise_filterMap]
  refine h.imp fun {a b} hab x hx y hy => ?_
  rw [hf a x hx, hf b y hy]
  exact hab

section
variable {α : Type} [DecidableEq α] (d : Nat → α)

theorem mwf_iff (m : Store α) :
    mwf d m = true ↔ m.Pairwise (fun a b => a.1 < b.1) ∧ ∀ e ∈ m, e.2 ≠ d e.1 := by
  simp [mwf, msorted_iff]

theorem mem_mfresh (b : Nat) (vs : List α) : ∀ e ∈ mfresh d b vs, b ≤ e.1 ∧ e.1 < b + vs.length ∧ e.2 ≠ d e.1 := by
  induction vs generalizing b with
  | nil => simp [mfresh]
  | cons v vs ih =>
    intro e he
    unfold mfresh at he
    split at he
    · have := ih (b + 1) e he; simp only [List.length_cons]; exact ⟨by omega, by omega, this.2.2⟩
    · next hv =>
      rcases List.mem_cons.1 he with rfl | he
      · exact ⟨by simp, by simp, hv⟩
      · have := ih (b + 1) e he; simp only [List.length_cons]; exact ⟨by omega, by omega, this.2.2⟩

theorem pairwise_mfresh (b : Nat) (vs : List α) : (mfresh d b vs).Pairwise (fun a b => a.1 < b.1) := by
  induction vs generalizing b with
  | nil => simp [mfresh]
  | cons v vs ih =>
    unfold mfresh; split
    · exact ih (b + 1)
    · refine List.pairwise_cons.2 ⟨?_, ih (b + 1)⟩
      intro a ha; have := mem_mfresh d (b + 1) vs a ha; simp; omega

/-- A write keeps the canonical form. -/
theorem mwf_mwrite (m : Store α) (b : Nat) (vs : List α) (h : mwf d m = true) : mwf d (mwrite d m b vs) = true := by
  rw [mwf_iff] at *
  obtain ⟨hs, hd⟩ := h
  refine ⟨?_, ?_⟩
  · unfold mwrite
    rw [List.pairwise_append, List.pairwise_append]
    refine ⟨⟨hs.filter _, pairwise_mfresh d b vs, ?_⟩, hs.filter _, ?_⟩
    · intro x hx y hy
      have := mem_mfresh d b vs y hy
      simp at hx; omega
    · intro x hx y hy
      simp at hy
      rcases List.mem_append.1 hx with hx | hx
      · simp at hx; omega
      · have := mem_mfresh d b vs x hx; omega
  · intro e he
    unfold mwrite at he
    rcases List.mem_append.1 he with he | he
    · rcases List.mem_append.1 he with he | he
      · exact hd e ((List.mem_filter.1 he).1)
      · exact (mem_mfresh d b vs e he).2.2
    · exact hd e ((List.mem_filter.1 he).1)

theorem mwf_mset (m : Store α) (k : Nat) (v : α) (h : mwf d m = true) : mwf d (mset d m k v) = true :=
  mwf_mwrite d m k [v] h

theorem mwf_mclear (m : Store α) (b n : Nat) (h : mwf d m = true) : mwf d (mclear m b n) = true := by
  rw [mwf_iff] at *
  exact ⟨h.1.filter _, fun e he => h.2 e ((List.mem_filter.1 he).1)⟩
end

end Sys2Proof.Machine
end

