-- ==== Sys2Proof/Laws/Registers.lean ====
section
/-! SUPPORT. Reading back what was written: registers, their fields, clusters, context slots, and which registers the shared
operations that raise events and write change-log entries may touch. -/

namespace Sys2Proof.Machine

/-! ## Bits -/

theorem bitsOf_eq (v : Word) (hi lo : Nat) : bitsOf v hi lo = (v.extractLsb' lo (hi + 1 - lo)).toNat := by
  simp [bitsOf, BitVec.extractLsb'_toNat, Nat.shiftRight_eq_div_pow]

theorem maskBits_lt (hi lo : Nat) (h : hi < 64) : maskBits hi lo < 2 ^ 64 := by
  unfold maskBits
  by_cases hl : lo ≤ hi
  · have h1 : 2 ^ (hi + 1 - lo) * 2 ^ lo = 2 ^ (hi + 1) := by rw [← Nat.pow_add]; congr 1; omega
    have h2 : 2 ^ (hi + 1) ≤ 2 ^ 64 := Nat.pow_le_pow_right (by omega) (by omega)
    have h3 : (2 ^ (hi + 1 - lo) - 1) * 2 ^ lo < 2 ^ (hi + 1 - lo) * 2 ^ lo :=
      Nat.mul_lt_mul_of_pos_right (by have := Nat.two_pow_pos (hi + 1 - lo); omega) (Nat.two_pow_pos lo)
    omega
  · have h0 : hi + 1 - lo = 0 := by omega
    simp [h0]

theorem testBit_maskBits (hi lo i : Nat) : (maskBits hi lo).testBit i = (decide (lo ≤ i) && decide (i < hi + 1)) := by
  unfold maskBits
  rw [Nat.testBit_mul_two_pow, Nat.testBit_two_pow_sub_one]
  by_cases h : lo ≤ i
  · simp only [h, decide_true, Bool.true_and]
    by_cases h2 : i < hi + 1 <;> simp [h2] <;> omega
  · simp [h]

theorem getLsbD_fieldMask (hi lo i : Nat) : (fieldMask hi lo).getLsbD i = (decide (i < 64) && (decide (lo ≤ i) && decide (i < hi + 1))) := by
  simp [fieldMask, BitVec.getLsbD_ofNat, testBit_maskBits]

theorem getLsbD_fieldPut (v : Word) (hi lo n i : Nat) :
    (fieldPut v hi lo n).getLsbD i =
      if lo ≤ i ∧ i < hi + 1 then decide (i < 64) && n.testBit (i - lo) else v.getLsbD i := by
  simp only [fieldPut, BitVec.getLsbD_or, BitVec.getLsbD_and, BitVec.getLsbD_not, getLsbD_fieldMask, BitVec.getLsbD_ofNat,
    Nat.testBit_mul_two_pow, Nat.testBit_mod_two_pow]
  by_cases h64 : i < 64
  · by_cases hl : lo ≤ i
    · by_cases hh : i < hi + 1
      · have : i - lo < hi + 1 - lo := by omega
        simp [h64, hl, hh, this]
      · have : ¬ (i - lo < hi + 1 - lo) := by omega
        simp [h64, hl, hh, this]
    · simp [h64, hl]
  · simp [h64, BitVec.getLsbD_of_ge v i (by omega)]

theorem fieldGet_fieldPut_same (v : Word) (hi lo n : Nat) (h : hi < 64) :
    fieldGet (fieldPut v hi lo n) hi lo = n % 2 ^ (hi + 1 - lo) := by
  unfold fieldGet
  rw [bitsOf_eq]
  apply Nat.eq_of_testBit_eq
  intro i
  simp only [BitVec.testBit_toNat, BitVec.getLsbD_extractLsb', getLsbD_fieldPut, Nat.testBit_mod_two_pow]
  by_cases hi' : i < hi + 1 - lo
  · have h1 : lo ≤ lo + i ∧ lo + i < hi + 1 := by omega
    have h2 : lo + i < 64 := by omega
    simp [hi', h1, h2]
  · simp [hi']

theorem fieldGet_fieldPut_apart (v : Word) (hi lo n hi' lo' : Nat) (h : hi' < lo ∨ hi < lo') :
    fieldGet (fieldPut v hi lo n) hi' lo' = fieldGet v hi' lo' := by
  unfold fieldGet
  rw [bitsOf_eq, bitsOf_eq]
  congr 1
  apply BitVec.eq_of_getLsbD_eq
  intro i hi2
  simp only [BitVec.getLsbD_extractLsb', getLsbD_fieldPut]
  have : ¬ (lo ≤ lo' + i ∧ lo' + i < hi + 1) := by omega
  rw [if_neg this]

theorem fieldGet_lt (v : Word) (hi lo : Nat) : fieldGet v hi lo < 2 ^ (hi + 1 - lo) := Nat.mod_lt _ (Nat.two_pow_pos _)

/-! ## Registers -/

@[simp] theorem State.reg_setReg_same (s : State) (a : Nat) (v : Word) : (s.setReg a v).reg a = v := mget_mset_same _ _ _ _

theorem State.reg_setReg_ne (s : State) {a b : Nat} (v : Word) (h : b ≠ a) : (s.setReg a v).reg b = s.reg b :=
  mget_mset_ne _ _ _ _ _ h

theorem State.fld_setFld_same (s : State) (f : Fld) (n : Nat) (h : f.hi < 64) :
    (s.setFld f n).fld f = n % 2 ^ (f.hi + 1 - f.lo) := by
  simp [State.fld, State.setFld, fieldGet_fieldPut_same _ _ _ _ h]

theorem State.reg_setFld_ne (s : State) {f : Fld} {a : Nat} (n : Nat) (h : a ≠ f.reg) : (s.setFld f n).reg a = s.reg a :=
  s.reg_setReg_ne _ h

theorem State.fld_setFld_ne (s : State) {f g : Fld} (n : Nat) (h : g.reg ≠ f.reg) : (s.setFld f n).fld g = s.fld g := by
  simp [State.fld, s.reg_setFld_ne n h]

theorem State.fld_setReg_ne (s : State) {g : Fld} {a : Nat} (v : Word) (h : g.reg ≠ a) : (s.setReg a v).fld g = s.fld g := by
  simp [State.fld, s.reg_setReg_ne v h]

theorem State.fld_setFld_apart (s : State) {f g : Fld} (n : Nat) (h : g.hi < f.lo ∨ f.hi < g.lo) :
    (s.setFld f n).fld g = s.fld g := by
  by_cases e : g.reg = f.reg
  · simp [State.fld, State.setFld, e, fieldGet_fieldPut_apart _ _ _ _ _ _ h]
  · exact s.fld_setFld_ne n e

/-- A field of another register, or of other bits of the same one. -/
theorem State.fld_setFld_other (s : State) {f g : Fld} (n : Nat) (h : g.reg ≠ f.reg ∨ g.hi < f.lo ∨ f.hi < g.lo) :
    (s.setFld f n).fld g = s.fld g := by
  rcases h with h | h
  · exact s.fld_setFld_ne n h
  · exact s.fld_setFld_apart n h

theorem State.fld_of_regs {s t : State} (h : t.regs = s.regs) (f : Fld) : t.fld f = s.fld f := by simp [State.fld, State.reg, h]

theorem State.reg_of_regs {s t : State} (h : t.regs = s.regs) (a : Nat) : t.reg a = s.reg a := by simp [State.reg, h]

theorem State.fld_lt (s : State) (f : Fld) : s.fld f < 2 ^ (f.hi + 1 - f.lo) := fieldGet_lt _ _ _

/-! ## Clusters and slots -/

@[simp] theorem State.clu_setClu_same (s : State) (p : Nat) (c : Cluster) : (s.setClu p c).clu p = c := mget_mset_same _ _ _ _

theorem State.clu_setClu_ne (s : State) {p q : Nat} (c : Cluster) (h : q ≠ p) : (s.setClu p c).clu q = s.clu q :=
  mget_mset_ne _ _ _ _ _ h

@[simp] theorem State.slotWord_setSlotWord_same (s : State) (c w : Nat) (v : Word) : (s.setSlotWord c w v).slotWord c w = v :=
  mget_mset_same _ _ _ _

theorem State.slotWord_setSlotWord_ne (s : State) {c w d x : Nat} (v : Word) (h : 16 * d + x ≠ 16 * c + w) :
    (s.setSlotWord c w v).slotWord d x = s.slotWord d x :=
  mget_mset_ne _ _ _ _ _ h

theorem State.ctx_setCtx_same (s : State) (c : Nat) (f : CtxField) (n : Nat) (h : f.hi < 64) :
    (s.setCtx c f n).ctx c f = n % 2 ^ (f.hi + 1 - f.lo) := by
  simp [State.ctx, State.setCtx, fieldGet_fieldPut_same _ _ _ _ h]

theorem State.ctx_setCtx_other (s : State) {c d : Nat} {f g : CtxField} (n : Nat)
    (h : 16 * d + g.word ≠ 16 * c + f.word ∨ g.hi < f.lo ∨ f.hi < g.lo) : (s.setCtx c f n).ctx d g = s.ctx d g := by
  by_cases e : 16 * d + g.word = 16 * c + f.word
  · have h' := h.resolve_left (by simp [e])
    have e' : s.slotWord d g.word = s.slotWord c f.word := by simp [State.slotWord, e]
    have e'' : (s.setCtx c f n).slotWord d g.word = fieldPut (s.slotWord c f.word) f.hi f.lo n := by
      have : (s.setCtx c f n).slotWord d g.word = (s.setCtx c f n).slotWord c f.word := by simp [State.slotWord, e]
      rw [this]; simp [State.setCtx]
    simp [State.ctx, e', e'', fieldGet_fieldPut_apart _ _ _ _ _ _ h']
  · simp [State.ctx, State.setCtx, s.slotWord_setSlotWord_ne _ e]

/-! ## The change log and events -/

/-- A change-log entry writes no register but LOG_STATUS. -/
theorem State.reg_logChange (s : State) (o c b : Nat) (x y : Bytes) {a : Nat} (h : a ≠ F.LOG_STATUS_LOST.reg) :
    (s.logChange o c b x y).reg a = s.reg a := by
  unfold State.logChange
  split
  · exact State.reg_setReg_ne _ _ h
  · rfl

theorem State.fld_logChange (s : State) (o c b : Nat) (x y : Bytes) {f : Fld} (h : f.reg ≠ F.LOG_STATUS_LOST.reg) :
    (s.logChange o c b x y).fld f = s.fld f := by simp [State.fld, s.reg_logChange o c b x y h]

/-- A vector raised writes no register but those of the pending-bit array. -/
theorem State.reg_raiseVector (s : State) {v a : Nat} (hv : v < 2048) (h : a < 0xE18000 ∨ 0xE18100 ≤ a) :
    (s.raiseVector v).reg a = s.reg a := by
  unfold State.raiseVector
  split
  · rfl
  · refine State.reg_setReg_ne _ _ ?_
    unfold pbaReg
    omega

/-- The vector of an event, where its severity raises one. -/
theorem State.reg_eventVector (s : State) (n a : Nat) (h : a < 0xE18000 ∨ 0xE18100 ≤ a) :
    (if 2 ≤ n then
      (if s.fld F.RAS_EVENT_CFG_FAULT_EN = 1 then s.raiseVector (s.fld F.RAS_EVENT_CFG_VEC_FAULT) else s)
    else if n = sevWarn then
      (if s.fld F.RAS_EVENT_CFG_WARN_EN = 1 then s.raiseVector (s.fld F.RAS_EVENT_CFG_VEC_WARN) else s)
    else s).reg a = s.reg a := by
  have hv1 : s.fld F.RAS_EVENT_CFG_VEC_FAULT < 2048 := by
    simpa [F.RAS_EVENT_CFG_VEC_FAULT] using s.fld_lt F.RAS_EVENT_CFG_VEC_FAULT
  have hv2 : s.fld F.RAS_EVENT_CFG_VEC_WARN < 2048 := by
    simpa [F.RAS_EVENT_CFG_VEC_WARN] using s.fld_lt F.RAS_EVENT_CFG_VEC_WARN
  split
  · split
    · exact s.reg_raiseVector hv1 h
    · rfl
  · split
    · split
      · exact s.reg_raiseVector hv2 h
      · rfl
    · rfl

/-- An event writes no register but its ring entry, RAS_EVENT_COUNT and those of the pending-bit array. -/
theorem State.reg_raiseEvent (s : State) (c x d : Nat) {a : Nat} (h : a < 0xE18000 ∨ 0xE18100 ≤ a)
    (h1 : a < 0x901000 ∨ 0x902000 ≤ a) (h2 : a ≠ F.RAS_EVENT_COUNT_TOTAL.reg) : (s.raiseEvent c x d).reg a = s.reg a := by
  have hi : s.fld F.RAS_EVENT_COUNT_TOTAL % 256 < 256 := Nat.mod_lt _ (by omega)
  have e1 : a ≠ eventTimeReg (s.fld F.RAS_EVENT_COUNT_TOTAL % 256) := by unfold eventTimeReg; omega
  have e2 : a ≠ eventInfoReg (s.fld F.RAS_EVENT_COUNT_TOTAL % 256) := by unfold eventInfoReg; omega
  unfold State.raiseEvent
  refine (State.reg_eventVector _ _ _ h).trans ?_
  have hr (t : State) (b : Prop) [Decidable b] (m : Mgmt) : (if b then t else { t with mgmt := m }).reg a = t.reg a := by
    split <;> rfl
  refine (hr _ _ _).trans ?_
  refine (State.reg_setFld_ne _ _ h2).trans ?_
  exact (State.reg_setReg_ne _ _ e2).trans (State.reg_setReg_ne _ _ e1)

theorem State.fld_raiseEvent (s : State) (c x d : Nat) {f : Fld} (h : f.reg < 0xE18000 ∨ 0xE18100 ≤ f.reg)
    (h1 : f.reg < 0x901000 ∨ 0x902000 ≤ f.reg) (h2 : f.reg ≠ F.RAS_EVENT_COUNT_TOTAL.reg) :
    (s.raiseEvent c x d).fld f = s.fld f := by simp [State.fld, s.reg_raiseEvent c x d h h1 h2]

/-- The device state after a change of it. -/
theorem State.devState_setDev (s : State) (o n : Nat) (h : n < 16) : (s.setDev o n).devState = n := by
  unfold State.setDev
  split
  · assumption
  · unfold State.devState
    rw [State.fld_logChange _ _ _ _ _ _ (by decide), State.fld_setFld_same _ _ _ (by decide)]
    exact Nat.mod_eq_of_lt h

theorem State.fld_setDev (s : State) (o n : Nat) {f : Fld} (h : f.reg ≠ F.LOG_STATUS_LOST.reg)
    (h1 : f.reg ≠ F.GLB_STATE_DEVICE_STATE.reg ∨ 3 < f.lo) : (s.setDev o n).fld f = s.fld f := by
  unfold State.setDev
  split
  · rfl
  · rw [State.fld_logChange _ _ _ _ _ _ h, State.fld_setFld_other]
    rcases h1 with h1 | h1
    · exact Or.inl h1
    · exact Or.inr (Or.inr h1)

end Sys2Proof.Machine
end

