-- ==== Sys2Proof/Laws/Gate.lean ====
section
/-! SUPPORT. The gate of a register write, opened and closed, and the shorthand of statements about one command. -/

namespace Sys2Proof.Machine

open Sys2Proof.Safety

theorem State.gate_open {s : State} {w : Agent} {b : Nat} (f : State → State) (h : Opens s w b) :
    s.gate w b f = f (s.closeLatch w b) := by
  obtain ⟨h1, h2, h3⟩ := h
  unfold State.gate
  have h4 : (decide (w = .host) && !s.blockSeen b) = false := by
    by_cases e : w = .host
    · simp [h2 e]
    · simp [e]
  simp [h1, h3, h4]

/-- A writer that holds the lease, or that a powered-down part does not hear, is not turned away as stale. -/
theorem State.leased_of_holds {s : State} {w : Agent} (f : State → State) (h : s.off = true ∨ s.holdsLease w = true) :
    s.leased w f = f s := by
  unfold State.leased
  rcases h with h | h <;> simp [h]

/-- A controller's write without the lease is stale. -/
theorem State.leased_stale {s : State} {w : Agent} (f : State → State) (h : s.off = false) (h2 : s.holdsLease w = false) :
    s.leased w f = s.staleWrite (decide (w = .ctlB)) 0 := by
  simp [State.leased, h, h2]

@[simp] theorem State.holdsLease_host (s : State) : s.holdsLease .host = true := rfl

theorem State.gate_far {s : State} {w : Agent} (b : Nat) (f : State → State) (h : s.reaches w = false) : s.gate w b f = s := by
  simp [State.gate, h]

theorem State.gate_shut {s : State} {w : Agent} {b : Nat} (f : State → State) (h : s.reaches w = true)
    (h2 : (w = .host ∧ s.blockSeen b = false) ∨ s.blockOn b = false) :
    s.gate w b f = (s.closeLatch w b).addSat F.HST_ERR_BUSY_WRITE 1 := by
  unfold State.gate
  rcases h2 with ⟨rfl, h2⟩ | h2 <;> simp [h, h2]

@[simp] theorem State.closeLatch_reg (s : State) (w : Agent) (b a : Nat) : (s.closeLatch w b).reg a = s.reg a := rfl
@[simp] theorem State.closeLatch_fld (s : State) (w : Agent) (b : Nat) (f : Fld) : (s.closeLatch w b).fld f = s.fld f := rfl

/-! ## What events and change-log entries write -/

/-- What every register write and message keeps, a vector keeps. -/
theorem State.raiseVector_ind (P : State → Prop) (hr : ∀ t a v, P t → P (t.setReg a v)) (he : ∀ t e, P t → P (t.emit e))
    {s : State} (v : Nat) (h : P s) : P (s.raiseVector v) := by
  unfold State.raiseVector State.sendVector
  split
  · exact he _ _ h
  · exact hr _ _ _ h

theorem State.eventVector_ind (P : State → Prop) (hr : ∀ t a v, P t → P (t.setReg a v)) (he : ∀ t e, P t → P (t.emit e))
    {s : State} (n : Nat) (h : P s) : P
    (if 2 ≤ n then
      (if s.fld F.RAS_EVENT_CFG_FAULT_EN = 1 then s.raiseVector (s.fld F.RAS_EVENT_CFG_VEC_FAULT) else s)
    else if n = sevWarn then
      (if s.fld F.RAS_EVENT_CFG_WARN_EN = 1 then s.raiseVector (s.fld F.RAS_EVENT_CFG_VEC_WARN) else s)
    else s) := by
  split
  · split
    · exact s.raiseVector_ind P hr he _ h
    · exact h
  · split
    · split
      · exact s.raiseVector_ind P hr he _ h
      · exact h
    · exact h

/-- What every register write, message and change of the polled events keeps, an event keeps. -/
theorem State.raiseEvent_ind (P : State → Prop) (hr : ∀ t a v, P t → P (t.setReg a v)) (he : ∀ t e, P t → P (t.emit e))
    (hm : ∀ t m, P t → P { t with mgmt := m }) {s : State} (c x d : Nat) (h : P s) : P (s.raiseEvent c x d) := by
  unfold State.raiseEvent
  refine State.eventVector_ind P hr he _ ?_
  have key (t : State) (b : Prop) [Decidable b] (m : Mgmt) (ht : P t) : P (if b then t else { t with mgmt := m }) := by
    split
    · exact ht
    · exact hm _ _ ht
  exact key _ _ _ (hr _ _ _ (hr _ _ _ (hr _ _ _ h)))

/-- A part of the state that no register write, message or change of the polled events touches. -/
theorem State.raiseEvent_frame {α : Type} (g : State → α) (hr : ∀ t a v, g (t.setReg a v) = g t) (he : ∀ t e, g (t.emit e) = g t)
    (hm : ∀ t m, g { t with mgmt := m } = g t) (s : State) (c x d : Nat) : g (s.raiseEvent c x d) = g s :=
  State.raiseEvent_ind (fun t => g t = g s) (fun t a v h => (hr t a v).trans h) (fun t e h => (he t e).trans h)
    (fun t m h => (hm t m).trans h) c x d rfl

/-- Messages sent stay sent: an event adds to them. -/
theorem State.mem_out_raiseEvent (s : State) (c x d : Nat) {e : Emit} (h : e ∈ s.out) : e ∈ (s.raiseEvent c x d).out :=
  State.raiseEvent_ind (fun t => e ∈ t.out) (fun _ _ _ h => h) (fun _ _ h => List.mem_cons_of_mem _ h) (fun _ _ h => h) c x d h

/-- A part of the state that neither registers nor the log hold is kept by a change-log entry. -/
theorem State.logChange_frame {α : Type} (g : State → α) (hr : ∀ t a v, g (t.setReg a v) = g t)
    (hl : ∀ t l, g { t with log := l } = g t) (s : State) (o c b : Nat) (x y : Bytes) : g (s.logChange o c b x y) = g s := by
  unfold State.logChange
  split
  · exact (hr _ _ _).trans (hl _ _)
  · exact hl _ _

end Sys2Proof.Machine

namespace Sys2Proof.Safety

open Sys2Proof.Machine

theorem RegsBut.refl (A : List Nat) (s : State) : RegsBut A s s := fun _ _ => rfl

theorem RegsBut.trans {A : List Nat} {s t u : State} (h : RegsBut A s t) (k : RegsBut A t u) : RegsBut A s u :=
  fun a ha => (k a ha).trans (h a ha)

theorem RegsBut.setReg {A : List Nat} {s t : State} (h : RegsBut A s t) {a : Nat} (v : Word) (ha : a ∈ A) :
    RegsBut A s (t.setReg a v) :=
  fun b hb => (t.reg_setReg_ne v (by rintro rfl; exact hb ha)).trans (h b hb)

theorem RegsBut.setFld {A : List Nat} {s t : State} (h : RegsBut A s t) {f : Fld} (n : Nat) (ha : f.reg ∈ A) :
    RegsBut A s (t.setFld f n) := h.setReg _ ha

theorem RegsBut.of_regs {A : List Nat} {s t u : State} (h : RegsBut A s t) (e : u.regs = t.regs) : RegsBut A s u :=
  fun a ha => (State.reg_of_regs e a).trans (h a ha)

theorem RegsBut.logChange {A : List Nat} {s t : State} (h : RegsBut A s t) (o c b : Nat) (x y : Bytes)
    (ha : F.LOG_STATUS_LOST.reg ∈ A) : RegsBut A s (t.logChange o c b x y) :=
  fun a hb => (t.reg_logChange o c b x y (by rintro rfl; exact hb ha)).trans (h a hb)

end Sys2Proof.Safety
end

