-- ==== Sys2Proof/Laws/Keeps.lean ====
section
/-! SUPPORT. What an operation leaves alone: `Keeps k m s` says that `s` is a state reached from `m` with the queue of `m`, with its
stores in canonical form, and with every part that `k` names as it is in `m`. One lemma for each way in which a state is written
literally; the other files of this family hold one lemma per operation. -/

namespace Sys2Proof.Machine

open Sys2Proof.Safety

/-- The parts of a state that are to stay as they are. -/
structure Kept where
  regs : Bool := true
  clusters : Bool := true
  slice : Bool := true
  pad : Bool := true
  lines : Bool := true
  slots : Bool := true
  tables : Bool := true
  keys : Bool := true
  fab : Bool := true
  col : Bool := true
  conf : Bool := true
  repair : Bool := true
  cold : Bool := true
  flash : Bool := true
  tap : Bool := true
  firm : Bool := true
  ctl : Bool := true
  boot : Bool := true
  ticks : Bool := true
  staged : Bool := true
  cfg : Bool := true

/-- The state `s` has the queue of `m`, canonical stores, and the parts named by `k` of `m`. -/
structure Keeps (k : Kept) (m s : State) : Prop where
  queue : s.pending = m.pending
  good : Good m → Good s
  regs : k.regs = true → s.regs = m.regs
  clusters : k.clusters = true → s.clusters = m.clusters
  slice : k.slice = true → s.slice = m.slice ∧ s.sliceFlaw = m.sliceFlaw
  pad : k.pad = true → s.pad = m.pad ∧ s.padFlaw = m.padFlaw
  lines : k.lines = true → s.mem.lines = m.mem.lines
  slots : k.slots = true → s.disp.slots = m.disp.slots
  tables : k.tables = true → s.disp.windows = m.disp.windows ∧ s.disp.setTenant = m.disp.setTenant ∧ s.disp.images = m.disp.images
  keys : k.keys = true → s.disp.keys = m.disp.keys ∧ s.disp.keyRefs = m.disp.keyRefs
  fab : k.fab = true → s.fab = m.fab
  col : k.col = true → s.col = m.col
  conf : k.conf = true → s.conf = m.conf
  repair : k.repair = true → s.repair = m.repair
  cold : k.cold = true → s.cold = m.cold
  flash : k.flash = true → s.flash = m.flash
  tap : k.tap = true → s.tap = m.tap
  firm : k.firm = true → s.firm = m.firm
  ctl : k.ctl = true → s.ctl = m.ctl
  boot : k.boot = true → s.boot = m.boot
  ticks : k.ticks = true → s.clock.ticks = m.clock.ticks
  staged : k.staged = true → s.staged = m.staged
  cfg : k.cfg = true → s.host.cfg = m.host.cfg

theorem Keeps.rfl {k : Kept} {m : State} : Keeps k m m := by
  constructor <;> first | exact id | simp

/-- A state written with other parts than its canonical stores. -/
theorem keeps_upd {k : Kept} {m s : State} {x1 x2 x3 x6 x7 x8 x9 x10 x16 x17 x18 x19 x20 x21 x22 x23 x24 x25 x27 x28 x29 x30 x31 x32 x33 x34} (h : Keeps k m s)
    (hlines : x16.lines = s.mem.lines)
    (hslots : x20.slots = s.disp.slots)
    (htables : k.tables = false ∨ (x20.windows = s.disp.windows ∧ x20.setTenant = s.disp.setTenant ∧ x20.images = s.disp.images))
    (hkeys : k.keys = false ∨ (x20.keys = s.disp.keys ∧ x20.keyRefs = s.disp.keyRefs))
    (hticks : k.ticks = false ∨ x3.ticks = s.clock.ticks)
    (hcfg : k.cfg = false ∨ x9.cfg = s.host.cfg)
    (hfab : k.fab = false ∨ x17 = s.fab)
    (hcol : k.col = false ∨ x18 = s.col)
    (hconf : k.conf = false ∨ x23 = s.conf)
    (hrepair : k.repair = false ∨ x22 = s.repair)
    (hcold : k.cold = false ∨ x28 = s.cold)
    (htap : k.tap = false ∨ x34 = s.tap)
    (hfirm : k.firm = false ∨ x29 = s.firm)
    (hctl : k.ctl = false ∨ x30 = s.ctl)
    (hboot : k.boot = false ∨ x27 = s.boot) :
    Keeps k m (State.mk s.pending x1 x2 x3 s.regs s.staged x6 x7 x8 x9 x10 s.clusters s.slice s.pad s.sliceFlaw s.padFlaw x16 x17 x18 x19 x20 x21 x22 x23 x24 x25 s.flash x27 x28 x29 x30 x31 x32 x33 x34) := by
  refine ⟨h.queue, fun g => ⟨(h.good g).regs, (h.good g).staged, (h.good g).clusters, (h.good g).slice, (h.good g).pad,
    (h.good g).sliceFlaw, (h.good g).padFlaw, by simpa [hlines] using (h.good g).lines,
    by simpa [hslots] using (h.good g).slots, (h.good g).flash⟩, ?_, ?_, ?_, ?_, ?_, ?_, ?_, ?_, ?_, ?_, ?_,
    ?_, ?_, ?_, ?_, ?_, ?_, ?_, ?_, ?_, ?_⟩
  · exact h.regs
  · exact h.clusters
  · exact h.slice
  · exact h.pad
  · exact fun e => hlines.trans (h.lines e)
  · exact fun e => hslots.trans (h.slots e)
  · exact fun e => by simpa [(htables.resolve_left (by simp [e])).1, (htables.resolve_left (by simp [e])).2.1, (htables.resolve_left (by simp [e])).2.2] using h.tables e
  · exact fun e => by simpa [(hkeys.resolve_left (by simp [e])).1, (hkeys.resolve_left (by simp [e])).2] using h.keys e
  · exact fun e => (hfab.resolve_left (by simp [e])).trans (h.fab e)
  · exact fun e => (hcol.resolve_left (by simp [e])).trans (h.col e)
  · exact fun e => (hconf.resolve_left (by simp [e])).trans (h.conf e)
  · exact fun e => (hrepair.resolve_left (by simp [e])).trans (h.repair e)
  · exact fun e => (hcold.resolve_left (by simp [e])).trans (h.cold e)
  · exact h.flash
  · exact fun e => (htap.resolve_left (by simp [e])).trans (h.tap e)
  · exact fun e => (hfirm.resolve_left (by simp [e])).trans (h.firm e)
  · exact fun e => (hctl.resolve_left (by simp [e])).trans (h.ctl e)
  · exact fun e => (hboot.resolve_left (by simp [e])).trans (h.boot e)
  · exact fun e => (hticks.resolve_left (by simp [e])).trans (h.ticks e)
  · exact h.staged
  · exact fun e => (hcfg.resolve_left (by simp [e])).trans (h.cfg e)

/-- A state written with other parts, its stores still canonical. -/
theorem keeps_all {k : Kept} {m s : State} {x1 x2 x3 x4 x5 x6 x7 x8 x9 x10 x11 x12 x13 x14 x15 x16 x17 x18 x19 x20 x21 x22 x23 x24 x25 x26 x27 x28 x29 x30 x31 x32 x33 x34} (h : Keeps k m s)
    (wregs : Good m → mwf regDefault x4 = true)
    (wstaged : Good m → msorted x5 = true)
    (wclusters : Good m → mwf cluDefault x11 = true)
    (wslice : Good m → mwf sliceDefault x12 = true)
    (wpad : Good m → msorted x13 = true)
    (wsliceFlaw : Good m → mwf flawNone x14 = true)
    (wpadFlaw : Good m → mwf flawNone x15 = true)
    (wflash : Good m → mwf flashByte x26 = true)
    (wlines : Good m → mwf lineDefault x16.lines = true)
    (wslots : Good m → mwf slotDefault x20.slots = true)
    (hregs : k.regs = false ∨ x4 = s.regs)
    (hclusters : k.clusters = false ∨ x11 = s.clusters)
    (hslice : k.slice = false ∨ (x12 = s.slice ∧ x14 = s.sliceFlaw))
    (hpad : k.pad = false ∨ (x13 = s.pad ∧ x15 = s.padFlaw))
    (hlines : k.lines = false ∨ x16.lines = s.mem.lines)
    (hslots : k.slots = false ∨ x20.slots = s.disp.slots)
    (htables : k.tables = false ∨ (x20.windows = s.disp.windows ∧ x20.setTenant = s.disp.setTenant ∧ x20.images = s.disp.images))
    (hkeys : k.keys = false ∨ (x20.keys = s.disp.keys ∧ x20.keyRefs = s.disp.keyRefs))
    (hfab : k.fab = false ∨ x17 = s.fab)
    (hcol : k.col = false ∨ x18 = s.col)
    (hconf : k.conf = false ∨ x23 = s.conf)
    (hrepair : k.repair = false ∨ x22 = s.repair)
    (hcold : k.cold = false ∨ x28 = s.cold)
    (hflash : k.flash = false ∨ x26 = s.flash)
    (htap : k.tap = false ∨ x34 = s.tap)
    (hfirm : k.firm = false ∨ x29 = s.firm)
    (hctl : k.ctl = false ∨ x30 = s.ctl)
    (hboot : k.boot = false ∨ x27 = s.boot)
    (hticks : k.ticks = false ∨ x3.ticks = s.clock.ticks)
    (hstaged : k.staged = false ∨ x5 = s.staged)
    (hcfg : k.cfg = false ∨ x9.cfg = s.host.cfg) :
    Keeps k m (State.mk s.pending x1 x2 x3 x4 x5 x6 x7 x8 x9 x10 x11 x12 x13 x14 x15 x16 x17 x18 x19 x20 x21 x22 x23 x24 x25 x26 x27 x28 x29 x30 x31 x32 x33 x34) := by
  refine ⟨h.queue, fun g => ⟨wregs g, wstaged g, wclusters g, wslice g, wpad g, wsliceFlaw g, wpadFlaw g, wlines g, wslots g, wflash g⟩,
    ?_, ?_, ?_, ?_, ?_, ?_, ?_, ?_, ?_, ?_, ?_, ?_, ?_, ?_, ?_, ?_, ?_, ?_, ?_, ?_, ?_⟩
  · intro e; exact (hregs.resolve_left (by simp [e])).trans (h.regs e)
  · intro e; exact (hclusters.resolve_left (by simp [e])).trans (h.clusters e)
  · intro e; have q := hslice.resolve_left (by simp [e]); exact ⟨q.1.trans (h.slice e).1, q.2.trans (h.slice e).2⟩
  · intro e; have q := hpad.resolve_left (by simp [e]); exact ⟨q.1.trans (h.pad e).1, q.2.trans (h.pad e).2⟩
  · intro e; exact (hlines.resolve_left (by simp [e])).trans (h.lines e)
  · intro e; exact (hslots.resolve_left (by simp [e])).trans (h.slots e)
  · intro e; have q := htables.resolve_left (by simp [e]); exact ⟨q.1.trans (h.tables e).1, q.2.1.trans (h.tables e).2.1, q.2.2.trans (h.tables e).2.2⟩
  · intro e; have q := hkeys.resolve_left (by simp [e]); exact ⟨q.1.trans (h.keys e).1, q.2.trans (h.keys e).2⟩
  · intro e; exact (hfab.resolve_left (by simp [e])).trans (h.fab e)
  · intro e; exact (hcol.resolve_left (by simp [e])).trans (h.col e)
  · intro e; exact (hconf.resolve_left (by simp [e])).trans (h.conf e)
  · intro e; exact (hrepair.resolve_left (by simp [e])).trans (h.repair e)
  · intro e; exact (hcold.resolve_left (by simp [e])).trans (h.cold e)
  · intro e; exact (hflash.resolve_left (by simp [e])).trans (h.flash e)
  · intro e; exact (htap.resolve_left (by simp [e])).trans (h.tap e)
  · intro e; exact (hfirm.resolve_left (by simp [e])).trans (h.firm e)
  · intro e; exact (hctl.resolve_left (by simp [e])).trans (h.ctl e)
  · intro e; exact (hboot.resolve_left (by simp [e])).trans (h.boot e)
  · intro e; exact (hticks.resolve_left (by simp [e])).trans (h.ticks e)
  · intro e; exact (hstaged.resolve_left (by simp [e])).trans (h.staged e)
  · intro e; exact (hcfg.resolve_left (by simp [e])).trans (h.cfg e)

/-! ## Stores -/

theorem msorted_filter {α : Type} (m : Store α) (p : Nat × α → Bool) (h : msorted m = true) : msorted (m.filter p) = true := by
  rw [msorted_iff] at *
  exact h.filter p

theorem msorted_mwrite {α : Type} [DecidableEq α] (d : Nat → α) (m : Store α) (b : Nat) (vs : List α) (h : msorted m = true) :
    msorted (mwrite d m b vs) = true := by
  rw [msorted_iff] at h ⊢
  unfold mwrite
  rw [List.pairwise_append, List.pairwise_append]
  refine ⟨⟨h.filter _, pairwise_mfresh d b vs, ?_⟩, h.filter _, ?_⟩
  · intro x hx y hy
    have := mem_mfresh d b vs y hy
    simp at hx
    omega
  · intro x hx y hy
    simp at hx hy
    rcases hx with hx | hx
    · omega
    · have := mem_mfresh d b vs x hx
      omega

theorem msorted_mset {α : Type} [DecidableEq α] (d : Nat → α) (m : Store α) (k : Nat) (v : α) (h : msorted m = true) :
    msorted (mset d m k v) = true := msorted_mwrite d m k [v] h

theorem mwf_filter {α : Type} [DecidableEq α] (d : Nat → α) (m : Store α) (p : Nat × α → Bool) (h : mwf d m = true) :
    mwf d (m.filter p) = true := by
  rw [mwf_iff] at *
  exact ⟨h.1.filter p, fun e he => h.2 e (List.mem_filter.mp he).1⟩

theorem mwf_nil {α : Type} [DecidableEq α] (d : Nat → α) : mwf d ([] : Store α) = true := rfl

theorem mwf_foldl {α β : Type} [DecidableEq α] (d : Nat → α) (l : List β) (f : Store α → β → Store α) (m : Store α)
    (hf : ∀ m x, mwf d m = true → mwf d (f m x) = true) (h : mwf d m = true) : mwf d (l.foldl f m) = true := by
  induction l generalizing m with
  | nil => exact h
  | cons x l ih => exact ih _ (hf _ _ h)

/-! ## Control -/

section control
variable {k : Kept} {m : State}

theorem keeps_ite {c : Prop} [Decidable c] {a b : State} (ha : Keeps k m a) (hb : Keeps k m b) : Keeps k m (if c then a else b) := by
  split <;> assumption

theorem keeps_ite_fst {α : Type} {c : Prop} [Decidable c] {a b : State × α} (ha : Keeps k m a.1) (hb : Keeps k m b.1) :
    Keeps k m (if c then a else b).1 := by
  split <;> assumption

theorem keeps_foldl {α : Type} {f : State → α → State} {l : List α} {s : State} (h : Keeps k m s)
    (hf : ∀ s x, Keeps k m s → Keeps k m (f s x)) : Keeps k m (l.foldl f s) := by
  induction l generalizing s with
  | nil => exact h
  | cons x l ih => exact ih (hf _ _ h)

theorem keeps_foldl_fst {α β : Type} {f : State × β → α → State × β} {l : List α} {a : State × β} (h : Keeps k m a.1)
    (hf : ∀ a x, Keeps k m a.1 → Keeps k m (f a x).1) : Keeps k m (l.foldl f a).1 := by
  induction l generalizing a with
  | nil => exact h
  | cons x l ih => exact ih (hf _ _ h)

theorem keeps_getD {o : Option State} {s : State} (h : Keeps k m s) (ho : ∀ t, o = some t → Keeps k m t) : Keeps k m (o.getD s) := by
  cases o with
  | none => exact h
  | some t => exact ho t rfl

theorem keeps_of_fst {α : Type} {p : State × α} {s : State} {x : α} (e : p = (s, x)) (h : Keeps k m p.1) : Keeps k m s := by
  subst e; exact h

theorem of_ite_some {α : Type} {c : Prop} [Decidable c] {o : Option α} {x : α} (h : (if c then o else none) = some x) : o = some x := by
  split at h
  · exact h
  · cases h

end control

end Sys2Proof.Machine
end

