-- ==== Sys2Proof/Laws/KeepsCore.lean ====
section
/-! SUPPORT. What the operations leave alone: one lemma per operation of the shared operations, packets on their way, commits, the governor, the sequencers, the ports of a pad. -/

namespace Sys2Proof.Machine

open Sys2Proof.Safety

variable {k : Kept} {m : State}

theorem State.setReg_keeps {a0 : State} {a1 : Nat} {a2 : Word} (hregs : k.regs = false) (h : Keeps k m a0) :
    Keeps k m (State.setReg a0 a1 a2) := by
  unfold State.setReg
  try dsimp only
  repeat' first
    | with_reducible assumption | with_reducible exact Or.inl ‹_› | with_reducible exact Eq.refl _
    | with_reducible exact Or.inr rfl | with_reducible exact Or.inr ⟨rfl, rfl⟩
    | with_reducible exact Or.inr ⟨rfl, rfl, rfl⟩ | intro _
    | exact (Keeps.good (by with_reducible assumption) (by with_reducible assumption)).regs
    | exact (Keeps.good (by with_reducible assumption) (by with_reducible assumption)).staged
    | exact (Keeps.good (by with_reducible assumption) (by with_reducible assumption)).clusters
    | exact (Keeps.good (by with_reducible assumption) (by with_reducible assumption)).slice
    | exact (Keeps.good (by with_reducible assumption) (by with_reducible assumption)).pad
    | exact (Keeps.good (by with_reducible assumption) (by with_reducible assumption)).sliceFlaw
    | exact (Keeps.good (by with_reducible assumption) (by with_reducible assumption)).padFlaw
    | exact (Keeps.good (by with_reducible assumption) (by with_reducible assumption)).lines
    | exact (Keeps.good (by with_reducible assumption) (by with_reducible assumption)).slots
    | exact (Keeps.good (by with_reducible assumption) (by with_reducible assumption)).flash | exact mwf_nil _
    | with_reducible exact Eq.refl true | with_reducible apply mwf_mset | with_reducible apply mwf_mwrite
    | with_reducible apply mwf_mclear | with_reducible apply mwf_filter | with_reducible apply msorted_mset
    | with_reducible apply msorted_mwrite | with_reducible apply msorted_filter | with_reducible apply keeps_ite_fst
    | split | refine keeps_of_fst (by with_reducible assumption) ?_ | with_reducible apply keeps_all

theorem State.setFld_keeps {a0 : State} {a1 : Fld} {a2 : Nat} (hregs : k.regs = false) (h : Keeps k m a0) :
    Keeps k m (State.setFld a0 a1 a2) := by
  unfold State.setFld
  try dsimp only
  repeat' first
    | with_reducible assumption | with_reducible apply State.setReg_keeps

theorem State.addSat_keeps {a0 : State} {a1 : Fld} {a2 : Nat} (hregs : k.regs = false) (h : Keeps k m a0) :
    Keeps k m (State.addSat a0 a1 a2) := by
  unfold State.addSat
  try dsimp only
  repeat' first
    | with_reducible assumption | with_reducible apply State.setFld_keeps

theorem State.addWrap_keeps {a0 : State} {a1 : Fld} {a2 : Nat} (hregs : k.regs = false) (h : Keeps k m a0) :
    Keeps k m (State.addWrap a0 a1 a2) := by
  unfold State.addWrap
  try dsimp only
  repeat' first
    | with_reducible assumption | with_reducible apply State.setFld_keeps

theorem State.drawn_keeps {a0 : State} (h : Keeps k m a0) :
    Keeps k m (State.drawn a0) := by
  unfold State.drawn
  try dsimp only
  repeat' first
    | with_reducible assumption | with_reducible exact Or.inl ‹_› | with_reducible exact Eq.refl _
    | with_reducible exact Or.inr rfl | with_reducible exact Or.inr ⟨rfl, rfl⟩
    | with_reducible exact Or.inr ⟨rfl, rfl, rfl⟩ | with_reducible apply keeps_ite_fst | split
    | refine keeps_of_fst (by with_reducible assumption) ?_ | with_reducible apply keeps_upd

theorem State.emit_keeps {a0 : State} {a1 : Emit} (h : Keeps k m a0) :
    Keeps k m (State.emit a0 a1) := by
  unfold State.emit
  try dsimp only
  repeat' first
    | with_reducible assumption | with_reducible exact Or.inl ‹_› | with_reducible exact Eq.refl _
    | with_reducible exact Or.inr rfl | with_reducible exact Or.inr ⟨rfl, rfl⟩
    | with_reducible exact Or.inr ⟨rfl, rfl, rfl⟩ | with_reducible apply keeps_ite_fst | split
    | refine keeps_of_fst (by with_reducible assumption) ?_ | with_reducible apply keeps_upd

theorem State.resetArbs_keeps {a0 : State} {a1 : ArbId → Bool} (h : Keeps k m a0) :
    Keeps k m (State.resetArbs a0 a1) := by
  unfold State.resetArbs
  try dsimp only
  repeat' first
    | with_reducible assumption | with_reducible exact Or.inl ‹_› | with_reducible exact Eq.refl _
    | with_reducible exact Or.inr rfl | with_reducible exact Or.inr ⟨rfl, rfl⟩
    | with_reducible exact Or.inr ⟨rfl, rfl, rfl⟩ | with_reducible apply keeps_ite_fst | split
    | refine keeps_of_fst (by with_reducible assumption) ?_ | with_reducible apply keeps_upd

theorem State.logChange_keeps {a0 : State} {a1 a2 a3 : Nat} {a4 a5 : Bytes} (hregs : k.regs = false) (h : Keeps k m a0)
    :
    Keeps k m (State.logChange a0 a1 a2 a3 a4 a5) := by
  unfold State.logChange
  try dsimp only
  repeat' first
    | with_reducible assumption | with_reducible exact Or.inl ‹_› | with_reducible exact Eq.refl _
    | with_reducible exact Or.inr rfl | with_reducible exact Or.inr ⟨rfl, rfl⟩
    | with_reducible exact Or.inr ⟨rfl, rfl, rfl⟩ | with_reducible apply State.addSat_keeps
    | with_reducible apply keeps_ite | with_reducible apply keeps_ite_fst | split
    | refine keeps_of_fst (by with_reducible assumption) ?_ | with_reducible apply keeps_upd

theorem State.setDev_keeps {a0 : State} {a1 a2 : Nat} (hregs : k.regs = false) (h : Keeps k m a0) :
    Keeps k m (State.setDev a0 a1 a2) := by
  unfold State.setDev
  try dsimp only
  repeat' first
    | with_reducible assumption | with_reducible apply State.logChange_keeps | with_reducible apply State.setFld_keeps
    | with_reducible apply keeps_ite

theorem State.holdMark_keeps {a0 : State} {a1 : Nat} (hregs : k.regs = false) (h : Keeps k m a0) :
    Keeps k m (State.holdMark a0 a1) := by
  unfold State.holdMark
  try dsimp only
  repeat' first
    | with_reducible assumption | with_reducible apply State.setFld_keeps | with_reducible apply keeps_ite

theorem State.endMulch_keeps {a0 : State} (hregs : k.regs = false) (h : Keeps k m a0) :
    Keeps k m (State.endMulch a0) := by
  unfold State.endMulch
  try dsimp only
  repeat' first
    | with_reducible assumption | with_reducible exact Or.inl ‹_› | with_reducible exact Eq.refl _
    | with_reducible exact Or.inr rfl | with_reducible exact Or.inr ⟨rfl, rfl⟩
    | with_reducible exact Or.inr ⟨rfl, rfl, rfl⟩ | with_reducible apply State.setFld_keeps
    | with_reducible apply keeps_ite_fst | split | refine keeps_of_fst (by with_reducible assumption) ?_
    | with_reducible apply keeps_upd

theorem State.setPow_keeps {a0 : State} {a1 a2 : Nat} (hregs : k.regs = false) (h : Keeps k m a0) :
    Keeps k m (State.setPow a0 a1 a2) := by
  unfold State.setPow
  try dsimp only
  repeat' first
    | with_reducible assumption | with_reducible apply State.endMulch_keeps | with_reducible apply State.holdMark_keeps
    | with_reducible apply State.logChange_keeps | with_reducible apply State.setFld_keeps | with_reducible apply keeps_ite

theorem State.setCfg_keeps {a0 : State} {a1 : Nat} {a2 : BitVec 32} (hcfg : k.cfg = false) (h : Keeps k m a0) :
    Keeps k m (State.setCfg a0 a1 a2) := by
  unfold State.setCfg
  try dsimp only
  repeat' first
    | with_reducible assumption | with_reducible exact Or.inl ‹_› | with_reducible exact Eq.refl _
    | with_reducible exact Or.inr rfl | with_reducible exact Or.inr ⟨rfl, rfl⟩
    | with_reducible exact Or.inr ⟨rfl, rfl, rfl⟩ | with_reducible apply keeps_ite_fst | split
    | refine keeps_of_fst (by with_reducible assumption) ?_ | with_reducible apply keeps_upd

theorem State.aer_keeps {a0 : State} {a1 : Nat} (hcfg : k.cfg = false) (h : Keeps k m a0) :
    Keeps k m (State.aer a0 a1) := by
  unfold State.aer
  try dsimp only
  repeat' first
    | with_reducible assumption | intro _ | with_reducible apply State.setCfg_keeps
    | with_reducible apply State.drawn_keeps | with_reducible apply keeps_ite | with_reducible apply keeps_foldl

theorem State.showStopped_keeps {a0 : State} (hregs : k.regs = false) (h : Keeps k m a0) :
    Keeps k m (State.showStopped a0) := by
  unfold State.showStopped
  try dsimp only
  repeat' first
    | with_reducible assumption | with_reducible apply State.setFld_keeps

theorem State.postWrite_keeps {a0 : State} {a1 : Nat} {a2 : Bytes} {a3 : Bool} {a4 : TlpKind} (h : Keeps k m a0) :
    Keeps k m (State.postWrite a0 a1 a2 a3 a4) := by
  unfold State.postWrite
  try dsimp only
  repeat' first
    | with_reducible assumption | with_reducible exact Or.inl ‹_› | with_reducible exact Eq.refl _
    | with_reducible exact Or.inr rfl | with_reducible exact Or.inr ⟨rfl, rfl⟩
    | with_reducible exact Or.inr ⟨rfl, rfl, rfl⟩ | with_reducible apply State.emit_keeps
    | with_reducible apply keeps_ite_fst | split | refine keeps_of_fst (by with_reducible assumption) ?_
    | with_reducible apply keeps_upd

theorem State.sendVector_keeps {a0 : State} {a1 : Nat} (h : Keeps k m a0) :
    Keeps k m (State.sendVector a0 a1) := by
  unfold State.sendVector
  try dsimp only
  repeat' first
    | with_reducible assumption | with_reducible apply State.emit_keeps

theorem State.raiseVector_keeps {a0 : State} {a1 : Nat} (hregs : k.regs = false) (h : Keeps k m a0) :
    Keeps k m (State.raiseVector a0 a1) := by
  unfold State.raiseVector
  try dsimp only
  repeat' first
    | with_reducible assumption | with_reducible apply State.sendVector_keeps | with_reducible apply State.setReg_keeps
    | with_reducible apply keeps_ite

theorem State.raiseEvent_keeps {a0 : State} {a1 a2 a3 : Nat} (hregs : k.regs = false) (h : Keeps k m a0) :
    Keeps k m (State.raiseEvent a0 a1 a2 a3) := by
  unfold State.raiseEvent
  try dsimp only
  repeat' first
    | with_reducible assumption | with_reducible exact Or.inl ‹_› | with_reducible exact Eq.refl _
    | with_reducible exact Or.inr rfl | with_reducible exact Or.inr ⟨rfl, rfl⟩
    | with_reducible exact Or.inr ⟨rfl, rfl, rfl⟩ | with_reducible apply State.raiseVector_keeps
    | with_reducible apply State.addSat_keeps | with_reducible apply State.setReg_keeps | with_reducible apply keeps_ite
    | with_reducible apply keeps_ite_fst | split | refine keeps_of_fst (by with_reducible assumption) ?_
    | with_reducible apply keeps_upd

theorem State.setSlotWord_keeps {a0 : State} {a1 a2 : Nat} {a3 : Word} (hslots : k.slots = false) (h : Keeps k m a0) :
    Keeps k m (State.setSlotWord a0 a1 a2 a3) := by
  unfold State.setSlotWord
  try dsimp only
  repeat' first
    | with_reducible assumption | with_reducible exact Or.inl ‹_› | with_reducible exact Eq.refl _
    | with_reducible exact Or.inr rfl | with_reducible exact Or.inr ⟨rfl, rfl⟩
    | with_reducible exact Or.inr ⟨rfl, rfl, rfl⟩ | intro _
    | exact (Keeps.good (by with_reducible assumption) (by with_reducible assumption)).regs
    | exact (Keeps.good (by with_reducible assumption) (by with_reducible assumption)).staged
    | exact (Keeps.good (by with_reducible assumption) (by with_reducible assumption)).clusters
    | exact (Keeps.good (by with_reducible assumption) (by with_reducible assumption)).slice
    | exact (Keeps.good (by with_reducible assumption) (by with_reducible assumption)).pad
    | exact (Keeps.good (by with_reducible assumption) (by with_reducible assumption)).sliceFlaw
    | exact (Keeps.good (by with_reducible assumption) (by with_reducible assumption)).padFlaw
    | exact (Keeps.good (by with_reducible assumption) (by with_reducible assumption)).lines
    | exact (Keeps.good (by with_reducible assumption) (by with_reducible assumption)).slots
    | exact (Keeps.good (by with_reducible assumption) (by with_reducible assumption)).flash | exact mwf_nil _
    | with_reducible exact Eq.refl true | with_reducible apply mwf_mset | with_reducible apply mwf_mwrite
    | with_reducible apply mwf_mclear | with_reducible apply mwf_filter | with_reducible apply msorted_mset
    | with_reducible apply msorted_mwrite | with_reducible apply msorted_filter | with_reducible apply keeps_ite_fst
    | split | refine keeps_of_fst (by with_reducible assumption) ?_ | with_reducible apply keeps_all

theorem State.setCtx_keeps {a0 : State} {a1 : Nat} {a2 : CtxField} {a3 : Nat} (hslots : k.slots = false)
    (h : Keeps k m a0) :
    Keeps k m (State.setCtx a0 a1 a2 a3) := by
  unfold State.setCtx
  try dsimp only
  repeat' first
    | with_reducible assumption | with_reducible apply State.setSlotWord_keeps

theorem State.setTally_keeps {a0 : State} {a1 : Nat} {a2 : Word} (hregs : k.regs = false) (h : Keeps k m a0) :
    Keeps k m (State.setTally a0 a1 a2) := by
  unfold State.setTally
  try dsimp only
  repeat' first
    | with_reducible assumption | with_reducible apply State.setReg_keeps

theorem State.setClu_keeps {a0 : State} {a1 : Nat} {a2 : Cluster} (hclusters : k.clusters = false) (h : Keeps k m a0) :
    Keeps k m (State.setClu a0 a1 a2) := by
  unfold State.setClu
  try dsimp only
  repeat' first
    | with_reducible assumption | with_reducible exact Or.inl ‹_› | with_reducible exact Eq.refl _
    | with_reducible exact Or.inr rfl | with_reducible exact Or.inr ⟨rfl, rfl⟩
    | with_reducible exact Or.inr ⟨rfl, rfl, rfl⟩ | intro _
    | exact (Keeps.good (by with_reducible assumption) (by with_reducible assumption)).regs
    | exact (Keeps.good (by with_reducible assumption) (by with_reducible assumption)).staged
    | exact (Keeps.good (by with_reducible assumption) (by with_reducible assumption)).clusters
    | exact (Keeps.good (by with_reducible assumption) (by with_reducible assumption)).slice
    | exact (Keeps.good (by with_reducible assumption) (by with_reducible assumption)).pad
    | exact (Keeps.good (by with_reducible assumption) (by with_reducible assumption)).sliceFlaw
    | exact (Keeps.good (by with_reducible assumption) (by with_reducible assumption)).padFlaw
    | exact (Keeps.good (by with_reducible assumption) (by with_reducible assumption)).lines
    | exact (Keeps.good (by with_reducible assumption) (by with_reducible assumption)).slots
    | exact (Keeps.good (by with_reducible assumption) (by with_reducible assumption)).flash | exact mwf_nil _
    | with_reducible exact Eq.refl true | with_reducible apply mwf_mset | with_reducible apply mwf_mwrite
    | with_reducible apply mwf_mclear | with_reducible apply mwf_filter | with_reducible apply msorted_mset
    | with_reducible apply msorted_mwrite | with_reducible apply msorted_filter | with_reducible apply keeps_ite_fst
    | split | refine keeps_of_fst (by with_reducible assumption) ?_ | with_reducible apply keeps_all

theorem State.setCfld_keeps {a0 : State} {a1 : Nat} {a2 : Fld} {a3 : Nat} (hregs : k.regs = false) (h : Keeps k m a0) :
    Keeps k m (State.setCfld a0 a1 a2 a3) := by
  unfold State.setCfld
  try dsimp only
  repeat' first
    | with_reducible assumption | with_reducible apply State.setFld_keeps

theorem State.setSeq_keeps {a0 : State} {a1 a2 : Nat} (hregs : k.regs = false) (h : Keeps k m a0) :
    Keeps k m (State.setSeq a0 a1 a2) := by
  unfold State.setSeq
  try dsimp only
  repeat' first
    | with_reducible assumption | with_reducible apply State.setCfld_keeps

theorem State.setFlaws_keeps {a0 : State} {a1 : Bool} {a2 : Nat} {a3 : List Nat} (hslice : k.slice = false)
    (hpad : k.pad = false) (h : Keeps k m a0) :
    Keeps k m (State.setFlaws a0 a1 a2 a3) := by
  unfold State.setFlaws
  try dsimp only
  repeat' first
    | with_reducible assumption | with_reducible exact Or.inl ‹_› | with_reducible exact Eq.refl _
    | with_reducible exact Or.inr rfl | with_reducible exact Or.inr ⟨rfl, rfl⟩
    | with_reducible exact Or.inr ⟨rfl, rfl, rfl⟩ | intro _
    | exact (Keeps.good (by with_reducible assumption) (by with_reducible assumption)).regs
    | exact (Keeps.good (by with_reducible assumption) (by with_reducible assumption)).staged
    | exact (Keeps.good (by with_reducible assumption) (by with_reducible assumption)).clusters
    | exact (Keeps.good (by with_reducible assumption) (by with_reducible assumption)).slice
    | exact (Keeps.good (by with_reducible assumption) (by with_reducible assumption)).pad
    | exact (Keeps.good (by with_reducible assumption) (by with_reducible assumption)).sliceFlaw
    | exact (Keeps.good (by with_reducible assumption) (by with_reducible assumption)).padFlaw
    | exact (Keeps.good (by with_reducible assumption) (by with_reducible assumption)).lines
    | exact (Keeps.good (by with_reducible assumption) (by with_reducible assumption)).slots
    | exact (Keeps.good (by with_reducible assumption) (by with_reducible assumption)).flash | exact mwf_nil _
    | with_reducible exact Eq.refl true | with_reducible apply mwf_mset | with_reducible apply mwf_mwrite
    | with_reducible apply mwf_mclear | with_reducible apply mwf_filter | with_reducible apply msorted_mset
    | with_reducible apply msorted_mwrite | with_reducible apply msorted_filter | with_reducible apply keeps_ite
    | with_reducible apply keeps_ite_fst | split | refine keeps_of_fst (by with_reducible assumption) ?_
    | with_reducible apply keeps_all

theorem State.localWrite_keeps {a0 : State} {a1 : Nat} {a2 : Bool} {a3 : Nat} {a4 : Bytes} (hslice : k.slice = false)
    (hpad : k.pad = false) (h : Keeps k m a0) :
    Keeps k m (State.localWrite a0 a1 a2 a3 a4) := by
  unfold State.localWrite
  try dsimp only
  repeat' first
    | with_reducible assumption | with_reducible exact Or.inl ‹_› | with_reducible exact Eq.refl _
    | with_reducible exact Or.inr rfl | with_reducible exact Or.inr ⟨rfl, rfl⟩
    | with_reducible exact Or.inr ⟨rfl, rfl, rfl⟩ | intro _
    | exact (Keeps.good (by with_reducible assumption) (by with_reducible assumption)).regs
    | exact (Keeps.good (by with_reducible assumption) (by with_reducible assumption)).staged
    | exact (Keeps.good (by with_reducible assumption) (by with_reducible assumption)).clusters
    | exact (Keeps.good (by with_reducible assumption) (by with_reducible assumption)).slice
    | exact (Keeps.good (by with_reducible assumption) (by with_reducible assumption)).pad
    | exact (Keeps.good (by with_reducible assumption) (by with_reducible assumption)).sliceFlaw
    | exact (Keeps.good (by with_reducible assumption) (by with_reducible assumption)).padFlaw
    | exact (Keeps.good (by with_reducible assumption) (by with_reducible assumption)).lines
    | exact (Keeps.good (by with_reducible assumption) (by with_reducible assumption)).slots
    | exact (Keeps.good (by with_reducible assumption) (by with_reducible assumption)).flash | exact mwf_nil _
    | with_reducible exact Eq.refl true | with_reducible apply mwf_mset | with_reducible apply mwf_mwrite
    | with_reducible apply mwf_mclear | with_reducible apply mwf_filter | with_reducible apply msorted_mset
    | with_reducible apply msorted_mwrite | with_reducible apply msorted_filter | with_reducible apply State.setFlaws_keeps
    | with_reducible apply keeps_ite | with_reducible apply keeps_ite_fst | split
    | refine keeps_of_fst (by with_reducible assumption) ?_ | with_reducible apply keeps_all

theorem State.poisonGranule_keeps {a0 : State} {a1 : Nat} {a2 : Bool} {a3 : Nat} (hslice : k.slice = false)
    (hpad : k.pad = false) (h : Keeps k m a0) :
    Keeps k m (State.poisonGranule a0 a1 a2 a3) := by
  unfold State.poisonGranule
  try dsimp only
  repeat' first
    | with_reducible assumption | with_reducible apply State.setFlaws_keeps

theorem State.setPort_keeps {a0 : State} {a1 : Nat} {a2 : Port} (hfab : k.fab = false) (h : Keeps k m a0) :
    Keeps k m (State.setPort a0 a1 a2) := by
  unfold State.setPort
  try dsimp only
  repeat' first
    | with_reducible assumption | with_reducible exact Or.inl ‹_› | with_reducible exact Eq.refl _
    | with_reducible exact Or.inr rfl | with_reducible exact Or.inr ⟨rfl, rfl⟩
    | with_reducible exact Or.inr ⟨rfl, rfl, rfl⟩ | with_reducible apply keeps_ite_fst | split
    | refine keeps_of_fst (by with_reducible assumption) ?_ | with_reducible apply keeps_upd

theorem State.putOut_keeps {a0 : State} {a1 : OutPkt} (hfab : k.fab = false) (h : Keeps k m a0) :
    Keeps k m (State.putOut a0 a1) := by
  unfold State.putOut
  try dsimp only
  repeat' first
    | with_reducible assumption | with_reducible exact Or.inl ‹_› | with_reducible exact Eq.refl _
    | with_reducible exact Or.inr rfl | with_reducible exact Or.inr ⟨rfl, rfl⟩
    | with_reducible exact Or.inr ⟨rfl, rfl, rfl⟩ | with_reducible apply keeps_ite_fst | split
    | refine keeps_of_fst (by with_reducible assumption) ?_ | with_reducible apply keeps_upd

theorem State.oweCredit_keeps {a0 : State} {a1 : Option (Nat × Nat × Nat)} (hfab : k.fab = false) (h : Keeps k m a0) :
    Keeps k m (State.oweCredit a0 a1) := by
  unfold State.oweCredit
  try dsimp only
  repeat' first
    | with_reducible assumption | with_reducible exact Or.inl ‹_› | with_reducible exact Eq.refl _
    | with_reducible exact Or.inr rfl | with_reducible exact Or.inr ⟨rfl, rfl⟩
    | with_reducible exact Or.inr ⟨rfl, rfl, rfl⟩ | with_reducible apply keeps_ite | with_reducible apply keeps_ite_fst
    | split | refine keeps_of_fst (by with_reducible assumption) ?_ | with_reducible apply keeps_upd

theorem State.sendReply_keeps {a0 : State} {a1 : Packet} (hregs : k.regs = false) (hfab : k.fab = false)
    (h : Keeps k m a0) :
    Keeps k m (State.sendReply a0 a1) := by
  unfold State.sendReply
  try dsimp only
  repeat' first
    | with_reducible assumption | with_reducible exact Or.inl ‹_› | with_reducible exact Eq.refl _
    | with_reducible exact Or.inr rfl | with_reducible exact Or.inr ⟨rfl, rfl⟩
    | with_reducible exact Or.inr ⟨rfl, rfl, rfl⟩ | with_reducible apply State.putOut_keeps
    | with_reducible apply State.addSat_keeps | with_reducible apply keeps_ite | with_reducible apply keeps_ite_fst | split
    | refine keeps_of_fst (by with_reducible assumption) ?_ | with_reducible apply keeps_upd

theorem State.routePacket_keeps {a0 : State} {a1 : Nat} {a2 : Option (Nat × Nat × Nat)} {a3 : Packet}
    (hregs : k.regs = false) (hfab : k.fab = false) (h : Keeps k m a0) :
    Keeps k m (State.routePacket a0 a1 a2 a3) := by
  unfold State.routePacket
  try dsimp only
  repeat' first
    | with_reducible assumption | with_reducible exact Or.inl ‹_› | with_reducible exact Eq.refl _
    | with_reducible exact Or.inr rfl | with_reducible exact Or.inr ⟨rfl, rfl⟩
    | with_reducible exact Or.inr ⟨rfl, rfl, rfl⟩ | with_reducible apply State.sendReply_keeps
    | with_reducible apply State.oweCredit_keeps | with_reducible apply State.putOut_keeps
    | with_reducible apply State.addSat_keeps | with_reducible apply keeps_ite | with_reducible apply keeps_ite_fst | split
    | refine keeps_of_fst (by with_reducible assumption) ?_ | with_reducible apply keeps_upd

theorem State.startReq_keeps {a0 : State} {a1 : ReqKind} {a2 : Packet} (hregs : k.regs = false) (hfab : k.fab = false)
    (h : Keeps k m a0) :
    Keeps k m (State.startReq a0 a1 a2) := by
  unfold State.startReq
  try dsimp only
  repeat' first
    | with_reducible assumption | with_reducible exact Or.inl ‹_› | with_reducible exact Eq.refl _
    | with_reducible exact Or.inr rfl | with_reducible exact Or.inr ⟨rfl, rfl⟩
    | with_reducible exact Or.inr ⟨rfl, rfl, rfl⟩ | with_reducible apply State.routePacket_keeps
    | with_reducible apply State.putOut_keeps | with_reducible apply keeps_ite | with_reducible apply keeps_ite_fst | split
    | refine keeps_of_fst (by with_reducible assumption) ?_ | with_reducible apply keeps_upd

theorem State.inject_keeps {a0 : State} {a1 : ReqKind} {a2 : Packet} (hregs : k.regs = false) (hfab : k.fab = false)
    (h : Keeps k m a0) :
    Keeps k m (State.inject a0 a1 a2) := by
  unfold State.inject
  try dsimp only
  repeat' first
    | with_reducible assumption | with_reducible exact Or.inl ‹_› | with_reducible exact Eq.refl _
    | with_reducible exact Or.inr rfl | with_reducible exact Or.inr ⟨rfl, rfl⟩
    | with_reducible exact Or.inr ⟨rfl, rfl, rfl⟩ | with_reducible apply State.startReq_keeps
    | with_reducible apply keeps_ite | with_reducible apply keeps_ite_fst | split
    | refine keeps_of_fst (by with_reducible assumption) ?_ | with_reducible apply keeps_upd

theorem State.startWaiting_keeps {a0 : State} (hregs : k.regs = false) (hfab : k.fab = false) (h : Keeps k m a0) :
    Keeps k m (State.startWaiting a0) := by
  unfold State.startWaiting
  try dsimp only
  repeat' first
    | with_reducible assumption | with_reducible exact Or.inl ‹_› | with_reducible exact Eq.refl _
    | with_reducible exact Or.inr rfl | with_reducible exact Or.inr ⟨rfl, rfl⟩
    | with_reducible exact Or.inr ⟨rfl, rfl, rfl⟩ | intro _ | with_reducible apply State.startReq_keeps
    | with_reducible apply keeps_ite | with_reducible apply keeps_foldl | with_reducible apply keeps_ite_fst
    | with_reducible apply keeps_foldl_fst | split | refine keeps_of_fst (by with_reducible assumption) ?_
    | with_reducible apply keeps_upd

theorem State.finishInbound_keeps {a0 : State} {a1 : Nat} (hregs : k.regs = false) (hfab : k.fab = false)
    (h : Keeps k m a0) :
    Keeps k m (State.finishInbound a0 a1) := by
  unfold State.finishInbound
  try dsimp only
  repeat' first
    | with_reducible assumption | with_reducible exact Or.inl ‹_› | with_reducible exact Eq.refl _
    | with_reducible exact Or.inr rfl | with_reducible exact Or.inr ⟨rfl, rfl⟩
    | with_reducible exact Or.inr ⟨rfl, rfl, rfl⟩ | with_reducible apply State.sendReply_keeps
    | with_reducible apply keeps_ite | with_reducible apply keeps_ite_fst | split
    | refine keeps_of_fst (by with_reducible assumption) ?_ | with_reducible apply keeps_upd

theorem State.sendColl_keeps {a0 : State} {a1 a2 a3 a4 : Nat} {a5 a6 : Word} {a7 : Bytes} (hregs : k.regs = false)
    (hfab : k.fab = false) (h : Keeps k m a0) :
    Keeps k m (State.sendColl a0 a1 a2 a3 a4 a5 a6 a7) := by
  unfold State.sendColl
  try dsimp only
  repeat' first
    | with_reducible assumption | with_reducible apply State.inject_keeps

theorem State.sendOthers_keeps {a0 : State} {a1 : Coll} {a2 : Nat} {a3 a4 : Word} (hregs : k.regs = false)
    (hfab : k.fab = false) (h : Keeps k m a0) :
    Keeps k m (State.sendOthers a0 a1 a2 a3 a4) := by
  unfold State.sendOthers
  try dsimp only
  repeat' first
    | with_reducible assumption | intro _ | with_reducible apply State.sendColl_keeps | with_reducible apply keeps_foldl

theorem State.setColls_keeps {a0 : State} {a1 : List Coll} (hcol : k.col = false) (h : Keeps k m a0) :
    Keeps k m (State.setColls a0 a1) := by
  unfold State.setColls
  try dsimp only
  repeat' first
    | with_reducible assumption | with_reducible exact Or.inl ‹_› | with_reducible exact Eq.refl _
    | with_reducible exact Or.inr rfl | with_reducible exact Or.inr ⟨rfl, rfl⟩
    | with_reducible exact Or.inr ⟨rfl, rfl, rfl⟩ | with_reducible apply keeps_ite_fst | split
    | refine keeps_of_fst (by with_reducible assumption) ?_ | with_reducible apply keeps_upd

theorem State.putColl_keeps {a0 : State} {a1 : Coll} (hcol : k.col = false) (h : Keeps k m a0) :
    Keeps k m (State.putColl a0 a1) := by
  unfold State.putColl
  try dsimp only
  repeat' first
    | with_reducible assumption | with_reducible apply State.setColls_keeps

theorem State.showCol_keeps {a0 : State} (hregs : k.regs = false) (h : Keeps k m a0) :
    Keeps k m (State.showCol a0) := by
  unfold State.showCol
  try dsimp only
  repeat' first
    | with_reducible assumption | with_reducible apply State.setFld_keeps | with_reducible apply keeps_ite
    | with_reducible apply keeps_ite_fst | split

theorem State.showCollGroup_keeps {a0 : State} {a1 : Nat} (hregs : k.regs = false) (h : Keeps k m a0) :
    Keeps k m (State.showCollGroup a0 a1) := by
  unfold State.showCollGroup
  try dsimp only
  repeat' first
    | with_reducible assumption | with_reducible apply State.setFld_keeps

theorem State.dropColl_keeps {a0 : State} {a1 : Coll} (hregs : k.regs = false) (hcol : k.col = false)
    (h : Keeps k m a0) :
    Keeps k m (State.dropColl a0 a1) := by
  unfold State.dropColl
  try dsimp only
  repeat' first
    | with_reducible assumption | with_reducible exact Or.inl ‹_› | with_reducible exact Eq.refl _
    | with_reducible exact Or.inr rfl | with_reducible exact Or.inr ⟨rfl, rfl⟩
    | with_reducible exact Or.inr ⟨rfl, rfl, rfl⟩ | with_reducible apply State.showCollGroup_keeps
    | with_reducible apply State.showCol_keeps | with_reducible apply State.setColls_keeps
    | with_reducible apply State.setFld_keeps | with_reducible apply keeps_ite | with_reducible apply keeps_ite_fst | split
    | refine keeps_of_fst (by with_reducible assumption) ?_ | with_reducible apply keeps_upd

theorem State.endColl_keeps {a0 : State} {a1 : Coll} {a2 : Nat} {a3 : Bool} (hregs : k.regs = false)
    (hfab : k.fab = false) (hcol : k.col = false) (h : Keeps k m a0) :
    Keeps k m (State.endColl a0 a1 a2 a3) := by
  unfold State.endColl
  try dsimp only
  repeat' first
    | with_reducible assumption | with_reducible apply State.dropColl_keeps | with_reducible apply State.sendOthers_keeps
    | with_reducible apply State.addSat_keeps | with_reducible apply State.setFld_keeps | with_reducible apply keeps_ite
    | with_reducible apply keeps_ite_fst | split

theorem State.abortColls_keeps {a0 : State} {a1 : Nat} (hregs : k.regs = false) (hfab : k.fab = false)
    (hcol : k.col = false) (h : Keeps k m a0) :
    Keeps k m (State.abortColls a0 a1) := by
  unfold State.abortColls
  try dsimp only
  repeat' first
    | with_reducible assumption | intro _ | with_reducible apply State.endColl_keeps | with_reducible apply keeps_foldl

theorem State.staleWrite_keeps {a0 : State} {a1 : Bool} {a2 : Nat} (hregs : k.regs = false) (hctl : k.ctl = false)
    (h : Keeps k m a0) :
    Keeps k m (State.staleWrite a0 a1 a2) := by
  unfold State.staleWrite
  try dsimp only
  repeat' first
    | with_reducible assumption | with_reducible exact Or.inl ‹_› | with_reducible exact Eq.refl _
    | with_reducible exact Or.inr rfl | with_reducible exact Or.inr ⟨rfl, rfl⟩
    | with_reducible exact Or.inr ⟨rfl, rfl, rfl⟩ | with_reducible apply State.raiseEvent_keeps
    | with_reducible apply State.emit_keeps | with_reducible apply State.addSat_keeps
    | with_reducible apply State.setFld_keeps | with_reducible apply keeps_ite | with_reducible apply keeps_ite_fst | split
    | refine keeps_of_fst (by with_reducible assumption) ?_ | with_reducible apply keeps_upd

theorem State.leased_keeps {a0 : State} {a1 : Agent} {a2 : State → State} (hregs : k.regs = false)
    (hctl : k.ctl = false) (h : Keeps k m a0) (f0 : ∀ s, Keeps k m s → Keeps k m (a2 s)) :
    Keeps k m (State.leased a0 a1 a2) := by
  unfold State.leased
  try dsimp only
  repeat' first
    | with_reducible assumption | intro _ | with_reducible apply f0 | with_reducible apply State.staleWrite_keeps
    | with_reducible apply keeps_ite

theorem State.closeLatch_keeps {a0 : State} {a1 : Agent} {a2 : Nat} (h : Keeps k m a0) :
    Keeps k m (State.closeLatch a0 a1 a2) := by
  unfold State.closeLatch
  try dsimp only
  repeat' first
    | with_reducible assumption | with_reducible exact Or.inl ‹_› | with_reducible exact Eq.refl _
    | with_reducible exact Or.inr rfl | with_reducible exact Or.inr ⟨rfl, rfl⟩
    | with_reducible exact Or.inr ⟨rfl, rfl, rfl⟩ | with_reducible apply keeps_ite_fst | split
    | refine keeps_of_fst (by with_reducible assumption) ?_ | with_reducible apply keeps_upd

theorem State.gate_keeps {a0 : State} {a1 : Agent} {a2 : Nat} {a3 : State → State} (hregs : k.regs = false)
    (h : Keeps k m a0) (f0 : ∀ s, Keeps k m s → Keeps k m (a3 s)) :
    Keeps k m (State.gate a0 a1 a2 a3) := by
  unfold State.gate
  try dsimp only
  repeat' first
    | with_reducible assumption | intro _ | with_reducible apply f0 | with_reducible apply State.closeLatch_keeps
    | with_reducible apply State.addSat_keeps | with_reducible apply keeps_ite

theorem State.powered_keeps {a0 : State} {a1 : Nat} {a2 : State → State} (hregs : k.regs = false) (h : Keeps k m a0)
    (f0 : ∀ s, Keeps k m s → Keeps k m (a2 s)) :
    Keeps k m (State.powered a0 a1 a2) := by
  unfold State.powered
  try dsimp only
  repeat' first
    | with_reducible assumption | intro _ | with_reducible apply f0 | with_reducible apply State.addSat_keeps
    | with_reducible apply keeps_ite

theorem State.frameWrite_keeps {a0 : State} {a1 : FramePart} {a2 : Nat} {a3 : State → State} (h : Keeps k m a0)
    (f0 : ∀ s, Keeps k m s → Keeps k m (a3 s)) :
    Keeps k m (State.frameWrite a0 a1 a2 a3) := by
  unfold State.frameWrite
  try dsimp only
  repeat' first
    | with_reducible assumption | intro _ | with_reducible apply f0 | with_reducible apply keeps_ite

theorem State.writeRepair_keeps {a0 : State} {a1 : Repair → Repair} (hrepair : k.repair = false) (h : Keeps k m a0) :
    Keeps k m (State.writeRepair a0 a1) := by
  unfold State.writeRepair
  try dsimp only
  repeat' first
    | with_reducible assumption | with_reducible exact Or.inl ‹_› | with_reducible exact Eq.refl _
    | with_reducible exact Or.inr rfl | with_reducible exact Or.inr ⟨rfl, rfl⟩
    | with_reducible exact Or.inr ⟨rfl, rfl, rfl⟩ | intro _ | with_reducible apply State.frameWrite_keeps
    | with_reducible apply keeps_ite_fst | split | refine keeps_of_fst (by with_reducible assumption) ?_
    | with_reducible apply keeps_upd

theorem State.setRuns_keeps {a0 : State} {a1 a2 : Nat} (hfirm : k.firm = false) (h : Keeps k m a0) :
    Keeps k m (State.setRuns a0 a1 a2) := by
  unfold State.setRuns
  try dsimp only
  repeat' first
    | with_reducible assumption | with_reducible exact Or.inl ‹_› | with_reducible exact Eq.refl _
    | with_reducible exact Or.inr rfl | with_reducible exact Or.inr ⟨rfl, rfl⟩
    | with_reducible exact Or.inr ⟨rfl, rfl, rfl⟩ | with_reducible apply keeps_ite_fst | split
    | refine keeps_of_fst (by with_reducible assumption) ?_ | with_reducible apply keeps_upd

theorem State.loadUcode_keeps {a0 : State} {a1 : Nat} (hfirm : k.firm = false) (h : Keeps k m a0) :
    Keeps k m (State.loadUcode a0 a1) := by
  unfold State.loadUcode
  try dsimp only
  repeat' first
    | with_reducible assumption | with_reducible exact Or.inl ‹_› | with_reducible exact Eq.refl _
    | with_reducible exact Or.inr rfl | with_reducible exact Or.inr ⟨rfl, rfl⟩
    | with_reducible exact Or.inr ⟨rfl, rfl, rfl⟩ | with_reducible apply keeps_ite | with_reducible apply keeps_ite_fst
    | split | refine keeps_of_fst (by with_reducible assumption) ?_ | with_reducible apply keeps_upd

theorem State.powerUcode_keeps {a0 : State} {a1 : List Nat} (hfirm : k.firm = false) (h : Keeps k m a0) :
    Keeps k m (State.powerUcode a0 a1) := by
  unfold State.powerUcode
  try dsimp only
  repeat' first
    | with_reducible assumption | with_reducible exact Or.inl ‹_› | with_reducible exact Eq.refl _
    | with_reducible exact Or.inr rfl | with_reducible exact Or.inr ⟨rfl, rfl⟩
    | with_reducible exact Or.inr ⟨rfl, rfl, rfl⟩ | intro _ | with_reducible apply keeps_foldl
    | with_reducible apply keeps_ite_fst | with_reducible apply keeps_foldl_fst | split
    | refine keeps_of_fst (by with_reducible assumption) ?_ | with_reducible apply keeps_upd

theorem State.putChanges_keeps {a0 : State} {a1 : List RegChange} (hregs : k.regs = false) (h : Keeps k m a0) :
    Keeps k m (State.putChanges a0 a1) := by
  unfold State.putChanges
  try dsimp only
  repeat' first
    | with_reducible assumption | intro _ | with_reducible apply State.setReg_keeps | with_reducible apply keeps_foldl

theorem State.logCommit_keeps {a0 a1 : State} {a2 a3 : Nat} {a4 : List Nat} (hregs : k.regs = false) (h : Keeps k m a0)
    :
    Keeps k m (State.logCommit a0 a1 a2 a3 a4) := by
  unfold State.logCommit
  try dsimp only
  repeat' first
    | with_reducible assumption | with_reducible apply State.logChange_keeps | with_reducible apply keeps_ite
    | with_reducible apply keeps_ite_fst | split

theorem State.commitSet_keeps {a0 : State} {a1 a2 : Nat} {a3 : List RegChange} (hregs : k.regs = false)
    (h : Keeps k m a0) :
    Keeps k m (State.commitSet a0 a1 a2 a3) := by
  unfold State.commitSet
  try dsimp only
  repeat' first
    | with_reducible assumption | with_reducible apply State.logCommit_keeps | with_reducible apply State.putChanges_keeps

theorem State.dropSet_keeps {a0 : State} {a1 : Agent} {a2 : Nat} (hstaged : k.staged = false) (h : Keeps k m a0) :
    Keeps k m (State.dropSet a0 a1 a2) := by
  unfold State.dropSet
  try dsimp only
  repeat' first
    | with_reducible assumption | with_reducible exact Or.inl ‹_› | with_reducible exact Eq.refl _
    | with_reducible exact Or.inr rfl | with_reducible exact Or.inr ⟨rfl, rfl⟩
    | with_reducible exact Or.inr ⟨rfl, rfl, rfl⟩ | intro _
    | exact (Keeps.good (by with_reducible assumption) (by with_reducible assumption)).regs
    | exact (Keeps.good (by with_reducible assumption) (by with_reducible assumption)).staged
    | exact (Keeps.good (by with_reducible assumption) (by with_reducible assumption)).clusters
    | exact (Keeps.good (by with_reducible assumption) (by with_reducible assumption)).slice
    | exact (Keeps.good (by with_reducible assumption) (by with_reducible assumption)).pad
    | exact (Keeps.good (by with_reducible assumption) (by with_reducible assumption)).sliceFlaw
    | exact (Keeps.good (by with_reducible assumption) (by with_reducible assumption)).padFlaw
    | exact (Keeps.good (by with_reducible assumption) (by with_reducible assumption)).lines
    | exact (Keeps.good (by with_reducible assumption) (by with_reducible assumption)).slots
    | exact (Keeps.good (by with_reducible assumption) (by with_reducible assumption)).flash | exact mwf_nil _
    | with_reducible exact Eq.refl true | with_reducible apply mwf_mset | with_reducible apply mwf_mwrite
    | with_reducible apply mwf_mclear | with_reducible apply mwf_filter | with_reducible apply msorted_mset
    | with_reducible apply msorted_mwrite | with_reducible apply msorted_filter | with_reducible apply keeps_ite_fst
    | split | refine keeps_of_fst (by with_reducible assumption) ?_ | with_reducible apply keeps_all

theorem State.withSet_keeps {a0 : State} {a1 : Store Stage} (hregs : k.regs = false) (h : Keeps k m a0) :
    Keeps k m (State.withSet a0 a1) := by
  unfold State.withSet
  try dsimp only
  repeat' first
    | with_reducible assumption | with_reducible apply State.putChanges_keeps

theorem State.sectionSet_keeps {a0 : State} {a1 : Nat} {a2 : List RegChange} (hregs : k.regs = false)
    (hstaged : k.staged = false) (h : Keeps k m a0) :
    Keeps k m (State.sectionSet a0 a1 a2) := by
  unfold State.sectionSet
  dsimp only
  have h1 : Keeps k m (a0.dropSet .host a1) := State.dropSet_keeps hstaged h
  have h2 : Keeps k m ((a0.dropSet .host a1).dropSet a0.activeCtl a1) := State.dropSet_keeps hstaged h1
  revert h1 h2
  generalize (a0.dropSet .host a1).dropSet a0.activeCtl a1 = s2
  generalize a0.dropSet .host a1 = s1
  intro h1 h2
  split
  · exact State.commitSet_keeps hregs h2
  · have h3 : Keeps k m (s2.commitSet (originOf a0.activeCtl) a1 a2) := State.commitSet_keeps hregs h2
    revert h3
    generalize s2.commitSet (originOf a0.activeCtl) a1 a2 = s3
    intro h3
    refine keeps_all h3 (fun z => (h3.good z).regs) (fun z => msorted_filterMap (h1.good z).staged fun e x hx => ?_)
      (fun z => (h3.good z).clusters) (fun z => (h3.good z).slice) (fun z => (h3.good z).pad) (fun z => (h3.good z).sliceFlaw)
      (fun z => (h3.good z).padFlaw) (fun z => (h3.good z).flash) (fun z => (h3.good z).lines) (fun z => (h3.good z).slots)
      ?_ ?_ ?_ ?_ ?_ ?_ ?_ ?_ ?_ ?_ ?_ ?_ ?_ ?_ ?_ ?_ ?_ ?_ ?_ ?_ ?_
    · split at hx
      · obtain ⟨o, -, rfl⟩ := Option.map_eq_some_iff.1 hx
        rfl
      · cases hx; rfl
    all_goals first
      | exact Or.inl ‹_›
      | exact Or.inr rfl
      | exact Or.inr ⟨rfl, rfl⟩
      | exact Or.inr ⟨rfl, rfl, rfl⟩

theorem State.noteTerms_keeps {a0 : State} (hregs : k.regs = false) (h : Keeps k m a0) :
    Keeps k m (State.noteTerms a0) := by
  unfold State.noteTerms
  try dsimp only
  repeat' first
    | with_reducible assumption | with_reducible exact Or.inl ‹_› | with_reducible exact Eq.refl _
    | with_reducible exact Or.inr rfl | with_reducible exact Or.inr ⟨rfl, rfl⟩
    | with_reducible exact Or.inr ⟨rfl, rfl, rfl⟩ | with_reducible apply State.addSat_keeps
    | with_reducible apply State.setFld_keeps | with_reducible apply keeps_ite | with_reducible apply keeps_ite_fst | split
    | refine keeps_of_fst (by with_reducible assumption) ?_ | with_reducible apply keeps_upd

theorem State.noteUnmet_keeps {a0 : State} {a1 : Bool} (hregs : k.regs = false) (h : Keeps k m a0) :
    Keeps k m (State.noteUnmet a0 a1) := by
  unfold State.noteUnmet
  try dsimp only
  repeat' first
    | with_reducible assumption | with_reducible exact Or.inl ‹_› | with_reducible exact Eq.refl _
    | with_reducible exact Or.inr rfl | with_reducible exact Or.inr ⟨rfl, rfl⟩
    | with_reducible exact Or.inr ⟨rfl, rfl, rfl⟩ | with_reducible apply State.raiseEvent_keeps
    | with_reducible apply State.setFld_keeps | with_reducible apply keeps_ite | with_reducible apply keeps_ite_fst | split
    | refine keeps_of_fst (by with_reducible assumption) ?_ | with_reducible apply keeps_upd

theorem State.noteLag_keeps {a0 : State} (hregs : k.regs = false) (h : Keeps k m a0) :
    Keeps k m (State.noteLag a0) := by
  unfold State.noteLag
  try dsimp only
  repeat' first
    | with_reducible assumption | with_reducible exact Or.inl ‹_› | with_reducible exact Eq.refl _
    | with_reducible exact Or.inr rfl | with_reducible exact Or.inr ⟨rfl, rfl⟩
    | with_reducible exact Or.inr ⟨rfl, rfl, rfl⟩ | with_reducible apply State.setFld_keeps
    | with_reducible apply keeps_ite | with_reducible apply keeps_ite_fst | split
    | refine keeps_of_fst (by with_reducible assumption) ?_ | with_reducible apply keeps_upd

theorem State.noteRate_keeps {a0 : State} {a1 : List Nat} (h : Keeps k m a0) :
    Keeps k m (State.noteRate a0 a1) := by
  unfold State.noteRate
  try dsimp only
  repeat' first
    | with_reducible assumption | with_reducible exact Or.inl ‹_› | with_reducible exact Eq.refl _
    | with_reducible exact Or.inr rfl | with_reducible exact Or.inr ⟨rfl, rfl⟩
    | with_reducible exact Or.inr ⟨rfl, rfl, rfl⟩ | with_reducible apply keeps_ite | with_reducible apply keeps_ite_fst
    | split | refine keeps_of_fst (by with_reducible assumption) ?_ | with_reducible apply keeps_upd

theorem State.setPace_keeps {a0 : State} {a1 : List (List Nat)} {a2 : List (Nat × Int)} (hregs : k.regs = false)
    (h : Keeps k m a0) :
    Keeps k m (State.setPace a0 a1 a2) := by
  unfold State.setPace
  try dsimp only
  repeat' first
    | with_reducible assumption | with_reducible exact Or.inl ‹_› | with_reducible exact Eq.refl _
    | with_reducible exact Or.inr rfl | with_reducible exact Or.inr ⟨rfl, rfl⟩
    | with_reducible exact Or.inr ⟨rfl, rfl, rfl⟩ | with_reducible apply State.setFld_keeps
    | with_reducible apply keeps_ite | with_reducible apply keeps_ite_fst | split
    | refine keeps_of_fst (by with_reducible assumption) ?_ | with_reducible apply keeps_upd

theorem State.showGov_keeps {a0 : State} {a1 : List (List Nat)} (hregs : k.regs = false) (h : Keeps k m a0) :
    Keeps k m (State.showGov a0 a1) := by
  unfold State.showGov
  try dsimp only
  repeat' first
    | with_reducible assumption | intro _ | with_reducible apply State.setFld_keeps

theorem State.noteLimited_keeps {a0 : State} (hregs : k.regs = false) (h : Keeps k m a0) :
    Keeps k m (State.noteLimited a0) := by
  unfold State.noteLimited
  try dsimp only
  repeat' first
    | with_reducible assumption | with_reducible exact Or.inl ‹_› | with_reducible exact Eq.refl _
    | with_reducible exact Or.inr rfl | with_reducible exact Or.inr ⟨rfl, rfl⟩
    | with_reducible exact Or.inr ⟨rfl, rfl, rfl⟩ | with_reducible apply State.addSat_keeps
    | with_reducible apply keeps_ite | with_reducible apply keeps_ite_fst | split
    | refine keeps_of_fst (by with_reducible assumption) ?_ | with_reducible apply keeps_upd

theorem State.takeDue_keeps {a0 : State} (h : Keeps k m a0) :
    Keeps k m (State.takeDue a0) := by
  unfold State.takeDue
  try dsimp only
  repeat' first
    | with_reducible assumption | with_reducible exact Or.inl ‹_› | with_reducible exact Eq.refl _
    | with_reducible exact Or.inr rfl | with_reducible exact Or.inr ⟨rfl, rfl⟩
    | with_reducible exact Or.inr ⟨rfl, rfl, rfl⟩ | with_reducible apply keeps_ite | with_reducible apply keeps_ite_fst
    | split | refine keeps_of_fst (by with_reducible assumption) ?_ | with_reducible apply keeps_upd

theorem State.govern_keeps {a0 : State} {a1 : Bool} {a2 : List (List Nat)} (hregs : k.regs = false) (h : Keeps k m a0)
    :
    Keeps k m (State.govern a0 a1 a2) := by
  unfold State.govern
  try dsimp only
  repeat' first
    | with_reducible assumption | with_reducible exact Or.inl ‹_› | with_reducible exact Eq.refl _
    | with_reducible exact Or.inr rfl | with_reducible exact Or.inr ⟨rfl, rfl⟩
    | with_reducible exact Or.inr ⟨rfl, rfl, rfl⟩ | intro _ | with_reducible apply State.takeDue_keeps
    | with_reducible apply State.noteLimited_keeps | with_reducible apply State.showGov_keeps
    | with_reducible apply State.setPace_keeps | with_reducible apply State.noteRate_keeps
    | with_reducible apply State.noteLag_keeps | with_reducible apply State.noteUnmet_keeps
    | with_reducible apply State.noteTerms_keeps | with_reducible apply State.setFld_keeps | with_reducible apply keeps_ite
    | with_reducible apply keeps_foldl | with_reducible apply keeps_ite_fst | with_reducible apply keeps_foldl_fst | split
    | refine keeps_of_fst (by with_reducible assumption) ?_ | with_reducible apply keeps_upd

theorem State.doGovernorUpdate_keeps {a0 : State} {a1 : List (List Nat)} (hregs : k.regs = false) (h : Keeps k m a0) :
    Keeps k m (State.doGovernorUpdate a0 a1) := by
  unfold State.doGovernorUpdate
  try dsimp only
  repeat' first
    | with_reducible assumption | with_reducible apply State.govern_keeps | with_reducible apply keeps_ite

theorem State.doGovernorExtraUpdate_keeps {a0 : State} (hregs : k.regs = false) (h : Keeps k m a0) :
    Keeps k m (State.doGovernorExtraUpdate a0) := by
  unfold State.doGovernorExtraUpdate
  try dsimp only
  repeat' first
    | with_reducible assumption | with_reducible apply State.govern_keeps | with_reducible apply keeps_ite

theorem State.setDroop_keeps {a0 : State} {a1 a2 : Nat} (hregs : k.regs = false) (h : Keeps k m a0) :
    Keeps k m (State.setDroop a0 a1 a2) := by
  unfold State.setDroop
  try dsimp only
  repeat' first
    | with_reducible assumption | with_reducible exact Or.inl ‹_› | with_reducible exact Eq.refl _
    | with_reducible exact Or.inr rfl | with_reducible exact Or.inr ⟨rfl, rfl⟩
    | with_reducible exact Or.inr ⟨rfl, rfl, rfl⟩ | intro _ | with_reducible apply State.setFld_keeps
    | with_reducible apply keeps_foldl | with_reducible apply keeps_ite_fst | with_reducible apply keeps_foldl_fst | split
    | refine keeps_of_fst (by with_reducible assumption) ?_ | with_reducible apply keeps_upd

theorem State.doDroopStep_keeps {a0 : State} {a1 a2 : Nat} (hregs : k.regs = false) (h : Keeps k m a0) :
    Keeps k m (State.doDroopStep a0 a1 a2) := by
  unfold State.doDroopStep
  try dsimp only
  repeat' first
    | with_reducible assumption | with_reducible apply State.setDroop_keeps | with_reducible apply State.addSat_keeps
    | with_reducible apply keeps_ite

theorem State.doDroopRecover_keeps {a0 : State} {a1 a2 : Nat} (hregs : k.regs = false) (h : Keeps k m a0) :
    Keeps k m (State.doDroopRecover a0 a1 a2) := by
  unfold State.doDroopRecover
  try dsimp only
  repeat' first
    | with_reducible assumption | with_reducible apply State.setDroop_keeps | with_reducible apply keeps_ite

theorem State.flowEstimate_keeps {a0 : State} {a1 : Nat} (h : Keeps k m a0) :
    Keeps k m (State.flowEstimate a0 a1).1 := by
  unfold State.flowEstimate
  try dsimp only
  repeat' first
    | with_reducible assumption | intro _ | with_reducible apply State.drawn_keeps | with_reducible apply keeps_ite
    | with_reducible apply keeps_foldl | with_reducible apply keeps_ite_fst

theorem State.showDerated_keeps {a0 : State} (hregs : k.regs = false) (h : Keeps k m a0) :
    Keeps k m (State.showDerated a0) := by
  unfold State.showDerated
  try dsimp only
  repeat' first
    | with_reducible assumption | with_reducible apply State.raiseEvent_keeps | with_reducible apply State.setFld_keeps
    | with_reducible apply keeps_ite | with_reducible apply keeps_ite_fst | split

theorem State.noteDrop_keeps {a0 : State} {a1 : Nat} (h : Keeps k m a0) :
    Keeps k m (State.noteDrop a0 a1) := by
  unfold State.noteDrop
  try dsimp only
  repeat' first
    | with_reducible assumption | with_reducible exact Or.inl ‹_› | with_reducible exact Eq.refl _
    | with_reducible exact Or.inr rfl | with_reducible exact Or.inr ⟨rfl, rfl⟩
    | with_reducible exact Or.inr ⟨rfl, rfl, rfl⟩ | with_reducible apply keeps_ite | with_reducible apply keeps_ite_fst
    | split | refine keeps_of_fst (by with_reducible assumption) ?_ | with_reducible apply keeps_upd

theorem State.doCoolantMeasure_keeps {a0 : State} {a1 a2 a3 : Nat} (hregs : k.regs = false) (h : Keeps k m a0) :
    Keeps k m (State.doCoolantMeasure a0 a1 a2 a3) := by
  unfold State.doCoolantMeasure
  try dsimp only
  repeat' first
    | with_reducible assumption | with_reducible exact Or.inl ‹_› | with_reducible exact Eq.refl _
    | with_reducible exact Or.inr rfl | with_reducible exact Or.inr ⟨rfl, rfl⟩
    | with_reducible exact Or.inr ⟨rfl, rfl, rfl⟩ | with_reducible apply State.noteDrop_keeps
    | with_reducible apply State.showDerated_keeps | with_reducible apply State.flowEstimate_keeps
    | with_reducible apply State.noteTerms_keeps | with_reducible apply State.setFld_keeps | with_reducible apply keeps_ite
    | with_reducible apply keeps_ite_fst | split | refine keeps_of_fst (by with_reducible assumption) ?_
    | with_reducible apply keeps_upd

theorem State.showCoolFault_keeps {a0 : State} (hregs : k.regs = false) (h : Keeps k m a0) :
    Keeps k m (State.showCoolFault a0) := by
  unfold State.showCoolFault
  try dsimp only
  repeat' first
    | with_reducible assumption | with_reducible apply State.setFld_keeps

theorem State.doSuddenCoolantLoss_keeps {a0 : State} (hregs : k.regs = false) (h : Keeps k m a0) :
    Keeps k m (State.doSuddenCoolantLoss a0) := by
  unfold State.doSuddenCoolantLoss
  try dsimp only
  repeat' first
    | with_reducible assumption | with_reducible exact Or.inl ‹_› | with_reducible exact Eq.refl _
    | with_reducible exact Or.inr rfl | with_reducible exact Or.inr ⟨rfl, rfl⟩
    | with_reducible exact Or.inr ⟨rfl, rfl, rfl⟩ | with_reducible apply State.showCoolFault_keeps
    | with_reducible apply State.raiseEvent_keeps | with_reducible apply keeps_ite | with_reducible apply keeps_ite_fst
    | split | refine keeps_of_fst (by with_reducible assumption) ?_ | with_reducible apply keeps_upd

theorem State.doCoolantLossClear_keeps {a0 : State} (hregs : k.regs = false) (h : Keeps k m a0) :
    Keeps k m (State.doCoolantLossClear a0) := by
  unfold State.doCoolantLossClear
  try dsimp only
  repeat' first
    | with_reducible assumption | with_reducible exact Or.inl ‹_› | with_reducible exact Eq.refl _
    | with_reducible exact Or.inr rfl | with_reducible exact Or.inr ⟨rfl, rfl⟩
    | with_reducible exact Or.inr ⟨rfl, rfl, rfl⟩ | with_reducible apply State.showCoolFault_keeps
    | with_reducible apply keeps_ite | with_reducible apply keeps_ite_fst | split
    | refine keeps_of_fst (by with_reducible assumption) ?_ | with_reducible apply keeps_upd

theorem State.doCoolFaultNLow_keeps {a0 : State} (hregs : k.regs = false) (h : Keeps k m a0) :
    Keeps k m (State.doCoolFaultNLow a0) := by
  unfold State.doCoolFaultNLow
  try dsimp only
  repeat' first
    | with_reducible assumption | with_reducible exact Or.inl ‹_› | with_reducible exact Eq.refl _
    | with_reducible exact Or.inr rfl | with_reducible exact Or.inr ⟨rfl, rfl⟩
    | with_reducible exact Or.inr ⟨rfl, rfl, rfl⟩ | with_reducible apply State.showCoolFault_keeps
    | with_reducible apply State.raiseEvent_keeps | with_reducible apply keeps_ite | with_reducible apply keeps_ite_fst
    | split | refine keeps_of_fst (by with_reducible assumption) ?_ | with_reducible apply keeps_upd

theorem State.doCoolFaultNRelease_keeps {a0 : State} (hregs : k.regs = false) (h : Keeps k m a0) :
    Keeps k m (State.doCoolFaultNRelease a0) := by
  unfold State.doCoolFaultNRelease
  try dsimp only
  repeat' first
    | with_reducible assumption | with_reducible exact Or.inl ‹_› | with_reducible exact Eq.refl _
    | with_reducible exact Or.inr rfl | with_reducible exact Or.inr ⟨rfl, rfl⟩
    | with_reducible exact Or.inr ⟨rfl, rfl, rfl⟩ | with_reducible apply State.showCoolFault_keeps
    | with_reducible apply keeps_ite | with_reducible apply keeps_ite_fst | split
    | refine keeps_of_fst (by with_reducible assumption) ?_ | with_reducible apply keeps_upd

theorem State.doPwrWarnNLow_keeps {a0 : State} (hregs : k.regs = false) (h : Keeps k m a0) :
    Keeps k m (State.doPwrWarnNLow a0) := by
  unfold State.doPwrWarnNLow
  try dsimp only
  repeat' first
    | with_reducible assumption | with_reducible exact Or.inl ‹_› | with_reducible exact Eq.refl _
    | with_reducible exact Or.inr rfl | with_reducible exact Or.inr ⟨rfl, rfl⟩
    | with_reducible exact Or.inr ⟨rfl, rfl, rfl⟩ | with_reducible apply State.noteTerms_keeps
    | with_reducible apply State.raiseEvent_keeps | with_reducible apply State.setFld_keeps
    | with_reducible apply keeps_ite | with_reducible apply keeps_ite_fst | split
    | refine keeps_of_fst (by with_reducible assumption) ?_ | with_reducible apply keeps_upd

theorem State.doPwrWarnNRelease_keeps {a0 : State} (hregs : k.regs = false) (h : Keeps k m a0) :
    Keeps k m (State.doPwrWarnNRelease a0) := by
  unfold State.doPwrWarnNRelease
  try dsimp only
  repeat' first
    | with_reducible assumption | with_reducible exact Or.inl ‹_› | with_reducible exact Eq.refl _
    | with_reducible exact Or.inr rfl | with_reducible exact Or.inr ⟨rfl, rfl⟩
    | with_reducible exact Or.inr ⟨rfl, rfl, rfl⟩ | with_reducible apply State.noteTerms_keeps
    | with_reducible apply State.setFld_keeps | with_reducible apply keeps_ite | with_reducible apply keeps_ite_fst | split
    | refine keeps_of_fst (by with_reducible assumption) ?_ | with_reducible apply keeps_upd

theorem State.setHeartbeatLost_keeps {a0 : State} {a1 a2 : Nat} (hregs : k.regs = false) (h : Keeps k m a0) :
    Keeps k m (State.setHeartbeatLost a0 a1 a2) := by
  unfold State.setHeartbeatLost
  try dsimp only
  repeat' first
    | with_reducible assumption | with_reducible apply State.noteTerms_keeps | with_reducible apply State.logChange_keeps
    | with_reducible apply State.setFld_keeps | with_reducible apply keeps_ite

theorem State.doRackHeartbeatLost_keeps {a0 : State} (hregs : k.regs = false) (h : Keeps k m a0) :
    Keeps k m (State.doRackHeartbeatLost a0) := by
  unfold State.doRackHeartbeatLost
  try dsimp only
  repeat' first
    | with_reducible assumption | with_reducible apply State.setHeartbeatLost_keeps
    | with_reducible apply State.raiseEvent_keeps | with_reducible apply keeps_ite

theorem State.rackBeat_keeps {a0 : State} (hregs : k.regs = false) (h : Keeps k m a0) :
    Keeps k m (State.rackBeat a0) := by
  unfold State.rackBeat
  try dsimp only
  repeat' first
    | with_reducible assumption | with_reducible exact Or.inl ‹_› | with_reducible exact Eq.refl _
    | with_reducible exact Or.inr rfl | with_reducible exact Or.inr ⟨rfl, rfl⟩
    | with_reducible exact Or.inr ⟨rfl, rfl, rfl⟩ | with_reducible apply State.setHeartbeatLost_keeps
    | with_reducible apply keeps_ite_fst | split | refine keeps_of_fst (by with_reducible assumption) ?_
    | with_reducible apply keeps_upd

theorem State.doMulchControl_keeps {a0 : State} (hregs : k.regs = false) (h : Keeps k m a0) :
    Keeps k m (State.doMulchControl a0) := by
  unfold State.doMulchControl
  try dsimp only
  repeat' first
    | with_reducible assumption | with_reducible exact Or.inl ‹_› | with_reducible exact Eq.refl _
    | with_reducible exact Or.inr rfl | with_reducible exact Or.inr ⟨rfl, rfl⟩
    | with_reducible exact Or.inr ⟨rfl, rfl, rfl⟩ | with_reducible apply State.setFld_keeps
    | with_reducible apply keeps_ite | with_reducible apply keeps_ite_fst | split
    | refine keeps_of_fst (by with_reducible assumption) ?_ | with_reducible apply keeps_upd

theorem State.doMulchLow_keeps {a0 : State} (hregs : k.regs = false) (h : Keeps k m a0) :
    Keeps k m (State.doMulchLow a0) := by
  unfold State.doMulchLow
  try dsimp only
  repeat' first
    | with_reducible assumption | with_reducible apply State.setFld_keeps | with_reducible apply keeps_ite
    | with_reducible apply keeps_ite_fst | split

theorem State.noteFlags_keeps {a0 : State} {a1 : Nat} {a2 : NumFlags} (hclusters : k.clusters = false)
    (h : Keeps k m a0) :
    Keeps k m (State.noteFlags a0 a1 a2) := by
  unfold State.noteFlags
  try dsimp only
  repeat' first
    | with_reducible assumption | with_reducible apply State.setClu_keeps

theorem State.numstatSet_keeps {a0 : State} {a1 a2 : Nat} (hregs : k.regs = false) (h : Keeps k m a0) :
    Keeps k m (State.numstatSet a0 a1 a2) := by
  unfold State.numstatSet
  try dsimp only
  repeat' first
    | with_reducible assumption | with_reducible apply State.setReg_keeps

theorem State.numstatMerge_keeps {a0 : State} {a1 : Nat} (hregs : k.regs = false) (hclusters : k.clusters = false)
    (h : Keeps k m a0) :
    Keeps k m (State.numstatMerge a0 a1) := by
  unfold State.numstatMerge
  try dsimp only
  repeat' first
    | with_reducible assumption | with_reducible apply State.numstatSet_keeps | with_reducible apply State.setClu_keeps
    | with_reducible apply State.addSat_keeps

theorem State.numstatResidue_keeps {a0 : State} {a1 : Nat} (hregs : k.regs = false) (h : Keeps k m a0) :
    Keeps k m (State.numstatResidue a0 a1) := by
  unfold State.numstatResidue
  try dsimp only
  repeat' first
    | with_reducible assumption | with_reducible apply State.numstatSet_keeps | with_reducible apply State.addSat_keeps

theorem State.putStep_keeps {a0 : State} {a1 : Step} (h : Keeps k m a0) :
    Keeps k m (State.putStep a0 a1) := by
  unfold State.putStep
  try dsimp only
  repeat' first
    | with_reducible assumption | with_reducible exact Or.inl ‹_› | with_reducible exact Eq.refl _
    | with_reducible exact Or.inr rfl | with_reducible exact Or.inr ⟨rfl, rfl⟩
    | with_reducible exact Or.inr ⟨rfl, rfl, rfl⟩ | with_reducible apply keeps_ite | with_reducible apply keeps_ite_fst
    | split | refine keeps_of_fst (by with_reducible assumption) ?_ | with_reducible apply keeps_upd

theorem State.dropStep_keeps {a0 : State} {a1 : Nat} (h : Keeps k m a0) :
    Keeps k m (State.dropStep a0 a1) := by
  unfold State.dropStep
  try dsimp only
  repeat' first
    | with_reducible assumption | with_reducible exact Or.inl ‹_› | with_reducible exact Eq.refl _
    | with_reducible exact Or.inr rfl | with_reducible exact Or.inr ⟨rfl, rfl⟩
    | with_reducible exact Or.inr ⟨rfl, rfl, rfl⟩ | with_reducible apply keeps_ite_fst | split
    | refine keeps_of_fst (by with_reducible assumption) ?_ | with_reducible apply keeps_upd

theorem State.tallyAdd_keeps {a0 : State} {a1 : Nat} {a2 : Word} (hregs : k.regs = false) (h : Keeps k m a0) :
    Keeps k m (State.tallyAdd a0 a1 a2) := by
  unfold State.tallyAdd
  try dsimp only
  repeat' first
    | with_reducible assumption | with_reducible apply State.putStep_keeps | with_reducible apply State.setTally_keeps
    | with_reducible apply keeps_ite | with_reducible apply keeps_ite_fst | split

theorem State.tallyStepAdd_keeps {a0 : State} {a1 a2 : Nat} {a3 : Word} (hregs : k.regs = false) (h : Keeps k m a0) :
    Keeps k m (State.tallyStepAdd a0 a1 a2 a3) := by
  unfold State.tallyStepAdd
  try dsimp only
  repeat' first
    | with_reducible assumption | with_reducible apply State.putStep_keeps | with_reducible apply State.setTally_keeps
    | with_reducible apply keeps_ite | with_reducible apply keeps_ite_fst | split

theorem State.restoreTallies_keeps {a0 : State} {a1 : List (Nat × Word)} (hregs : k.regs = false) (h : Keeps k m a0) :
    Keeps k m (State.restoreTallies a0 a1) := by
  unfold State.restoreTallies
  try dsimp only
  repeat' first
    | with_reducible assumption | intro _ | with_reducible apply State.setTally_keeps | with_reducible apply keeps_foldl

theorem State.applyAdd_keeps {a0 : State} {a1 : PendAdd} (hregs : k.regs = false) (h : Keeps k m a0) :
    Keeps k m (State.applyAdd a0 a1) := by
  unfold State.applyAdd
  try dsimp only
  repeat' first
    | with_reducible assumption | with_reducible apply State.tallyStepAdd_keeps | with_reducible apply State.tallyAdd_keeps
    | with_reducible apply keeps_ite | with_reducible apply keeps_ite_fst | split

theorem State.applyAdds_keeps {a0 : State} {a1 : List PendAdd} (hregs : k.regs = false) (h : Keeps k m a0) :
    Keeps k m (State.applyAdds a0 a1) := by
  unfold State.applyAdds
  try dsimp only
  repeat' first
    | with_reducible assumption | intro _ | with_reducible apply State.applyAdd_keeps | with_reducible apply keeps_foldl

theorem State.dropAdds_keeps {a0 : State} {a1 : Nat} (h : Keeps k m a0) :
    Keeps k m (State.dropAdds a0 a1) := by
  unfold State.dropAdds
  try dsimp only
  repeat' first
    | with_reducible assumption | with_reducible exact Or.inl ‹_› | with_reducible exact Eq.refl _
    | with_reducible exact Or.inr rfl | with_reducible exact Or.inr ⟨rfl, rfl⟩
    | with_reducible exact Or.inr ⟨rfl, rfl, rfl⟩ | with_reducible apply keeps_ite_fst | split
    | refine keeps_of_fst (by with_reducible assumption) ?_ | with_reducible apply keeps_upd

theorem State.keepAdds_keeps {a0 : State} {a1 : Nat} (h : Keeps k m a0) :
    Keeps k m (State.keepAdds a0 a1) := by
  unfold State.keepAdds
  try dsimp only
  repeat' first
    | with_reducible assumption | with_reducible exact Or.inl ‹_› | with_reducible exact Eq.refl _
    | with_reducible exact Or.inr rfl | with_reducible exact Or.inr ⟨rfl, rfl⟩
    | with_reducible exact Or.inr ⟨rfl, rfl, rfl⟩ | with_reducible apply keeps_ite | with_reducible apply keeps_ite_fst
    | split | refine keeps_of_fst (by with_reducible assumption) ?_ | with_reducible apply keeps_upd

theorem State.loseBank_keeps {a0 : State} {a1 a2 : Nat} (hclusters : k.clusters = false) (hslice : k.slice = false)
    (hpad : k.pad = false) (h : Keeps k m a0) :
    Keeps k m (State.loseBank a0 a1 a2) := by
  unfold State.loseBank
  try dsimp only
  repeat' first
    | with_reducible assumption | with_reducible exact Or.inl ‹_› | with_reducible exact Eq.refl _
    | with_reducible exact Or.inr rfl | with_reducible exact Or.inr ⟨rfl, rfl⟩
    | with_reducible exact Or.inr ⟨rfl, rfl, rfl⟩ | intro _
    | exact (Keeps.good (by with_reducible assumption) (by with_reducible assumption)).regs
    | exact (Keeps.good (by with_reducible assumption) (by with_reducible assumption)).staged
    | exact (Keeps.good (by with_reducible assumption) (by with_reducible assumption)).clusters
    | exact (Keeps.good (by with_reducible assumption) (by with_reducible assumption)).slice
    | exact (Keeps.good (by with_reducible assumption) (by with_reducible assumption)).pad
    | exact (Keeps.good (by with_reducible assumption) (by with_reducible assumption)).sliceFlaw
    | exact (Keeps.good (by with_reducible assumption) (by with_reducible assumption)).padFlaw
    | exact (Keeps.good (by with_reducible assumption) (by with_reducible assumption)).lines
    | exact (Keeps.good (by with_reducible assumption) (by with_reducible assumption)).slots
    | exact (Keeps.good (by with_reducible assumption) (by with_reducible assumption)).flash | exact mwf_nil _
    | with_reducible exact Eq.refl true | with_reducible apply mwf_mset | with_reducible apply mwf_mwrite
    | with_reducible apply mwf_mclear | with_reducible apply mwf_filter | with_reducible apply msorted_mset
    | with_reducible apply msorted_mwrite | with_reducible apply msorted_filter | with_reducible apply State.setClu_keeps
    | with_reducible apply keeps_ite | with_reducible apply keeps_ite_fst | split
    | refine keeps_of_fst (by with_reducible assumption) ?_ | with_reducible apply keeps_all

theorem State.restBanks_keeps {a0 : State} {a1 : Nat} (hclusters : k.clusters = false) (hslice : k.slice = false)
    (hpad : k.pad = false) (h : Keeps k m a0) :
    Keeps k m (State.restBanks a0 a1) := by
  unfold State.restBanks
  try dsimp only
  repeat' first
    | with_reducible assumption | intro _ | with_reducible apply State.loseBank_keeps
    | with_reducible apply State.setClu_keeps | with_reducible apply keeps_ite | with_reducible apply keeps_foldl

theorem State.scrubAgain_keeps {a0 : State} {a1 a2 : Nat} (hclusters : k.clusters = false) (h : Keeps k m a0) :
    Keeps k m (State.scrubAgain a0 a1 a2) := by
  unfold State.scrubAgain
  try dsimp only
  repeat' first
    | with_reducible assumption | with_reducible apply State.setClu_keeps

theorem State.wakeBank_keeps {a0 : State} {a1 a2 : Nat} (hregs : k.regs = false) (hclusters : k.clusters = false)
    (h : Keeps k m a0) :
    Keeps k m (State.wakeBank a0 a1 a2) := by
  unfold State.wakeBank
  try dsimp only
  repeat' first
    | with_reducible assumption | with_reducible apply State.scrubAgain_keeps | with_reducible apply State.setClu_keeps
    | with_reducible apply State.addSat_keeps | with_reducible apply keeps_ite

theorem State.wakeRange_keeps {a0 : State} {a1 : Nat} {a2 : Bool} {a3 a4 : Nat} (hregs : k.regs = false)
    (hclusters : k.clusters = false) (h : Keeps k m a0) :
    Keeps k m (State.wakeRange a0 a1 a2 a3 a4) := by
  unfold State.wakeRange
  try dsimp only
  repeat' first
    | with_reducible assumption | intro _ | with_reducible apply State.wakeBank_keeps | with_reducible apply keeps_ite
    | with_reducible apply keeps_foldl

theorem State.clearSeqRegs_keeps {a0 : State} {a1 : Nat} (hregs : k.regs = false) (h : Keeps k m a0) :
    Keeps k m (State.clearSeqRegs a0 a1) := by
  unfold State.clearSeqRegs
  try dsimp only
  repeat' first
    | with_reducible assumption | intro _ | with_reducible apply State.setReg_keeps | with_reducible apply keeps_foldl

theorem State.startCluster_keeps {a0 : State} {a1 : Step} {a2 a3 : Nat} (hregs : k.regs = false)
    (hclusters : k.clusters = false) (hslice : k.slice = false) (hpad : k.pad = false) (h : Keeps k m a0) :
    Keeps k m (State.startCluster a0 a1 a2 a3) := by
  unfold State.startCluster
  try dsimp only
  repeat' first
    | with_reducible assumption | with_reducible apply State.clearSeqRegs_keeps
    | with_reducible apply State.wakeRange_keeps | with_reducible apply State.localWrite_keeps
    | with_reducible apply State.setSeq_keeps | with_reducible apply State.setCfld_keeps
    | with_reducible apply State.setClu_keeps

theorem State.discard_keeps {a0 : State} {a1 : Nat} (hregs : k.regs = false) (hclusters : k.clusters = false)
    (hfab : k.fab = false) (h : Keeps k m a0) :
    Keeps k m (State.discard a0 a1) := by
  unfold State.discard
  try dsimp only
  repeat' first
    | with_reducible assumption | with_reducible exact Or.inl ‹_› | with_reducible exact Eq.refl _
    | with_reducible exact Or.inr rfl | with_reducible exact Or.inr ⟨rfl, rfl⟩
    | with_reducible exact Or.inr ⟨rfl, rfl, rfl⟩ | with_reducible apply State.setSeq_keeps
    | with_reducible apply State.setClu_keeps | with_reducible apply keeps_ite | with_reducible apply keeps_ite_fst | split
    | refine keeps_of_fst (by with_reducible assumption) ?_ | with_reducible apply keeps_upd

theorem State.discardAll_keeps {a0 : State} {a1 : Step} (hregs : k.regs = false) (hclusters : k.clusters = false)
    (hfab : k.fab = false) (hcol : k.col = false) (h : Keeps k m a0) :
    Keeps k m (State.discardAll a0 a1) := by
  unfold State.discardAll
  try dsimp only
  repeat' first
    | with_reducible assumption | intro _ | with_reducible apply State.discard_keeps
    | with_reducible apply State.abortColls_keeps | with_reducible apply keeps_foldl

theorem State.recordRefusal_keeps {a0 : State} {a1 a2 a3 a4 : Nat} {a5 : Option Step} (hregs : k.regs = false)
    (h : Keeps k m a0) :
    Keeps k m (State.recordRefusal a0 a1 a2 a3 a4 a5) := by
  unfold State.recordRefusal
  try dsimp only
  repeat' first
    | with_reducible assumption | with_reducible apply State.setReg_keeps | with_reducible apply keeps_ite

theorem State.failStep_keeps {a0 : State} {a1 : Nat} {a2 : FailInfo} (h : Keeps k m a0) :
    Keeps k m (State.failStep a0 a1 a2) := by
  unfold State.failStep
  try dsimp only
  repeat' first
    | with_reducible assumption | with_reducible apply State.putStep_keeps | with_reducible apply keeps_ite
    | with_reducible apply keeps_ite_fst | split

theorem State.refuse_keeps {a0 : State} {a1 a2 a3 a4 : Nat} (hregs : k.regs = false) (hclusters : k.clusters = false)
    (hfab : k.fab = false) (hcol : k.col = false) (h : Keeps k m a0) :
    Keeps k m (State.refuse a0 a1 a2 a3 a4) := by
  unfold State.refuse
  try dsimp only
  repeat' first
    | with_reducible assumption | with_reducible apply State.failStep_keeps
    | with_reducible apply State.recordRefusal_keeps | with_reducible apply State.discard_keeps
    | with_reducible apply State.abortColls_keeps | with_reducible apply keeps_ite | with_reducible apply keeps_ite_fst
    | split

theorem State.strike_keeps {a0 : State} {a1 : Nat} (h : Keeps k m a0) :
    Keeps k m (State.strike a0 a1) := by
  unfold State.strike
  try dsimp only
  repeat' first
    | with_reducible assumption | with_reducible exact Or.inl ‹_› | with_reducible exact Eq.refl _
    | with_reducible exact Or.inr rfl | with_reducible exact Or.inr ⟨rfl, rfl⟩
    | with_reducible exact Or.inr ⟨rfl, rfl, rfl⟩ | with_reducible apply keeps_ite | with_reducible apply keeps_ite_fst
    | split | refine keeps_of_fst (by with_reducible assumption) ?_ | with_reducible apply keeps_upd

theorem State.lateFault_keeps {a0 : State} {a1 a2 : Nat} (hregs : k.regs = false) (h : Keeps k m a0) :
    Keeps k m (State.lateFault a0 a1 a2) := by
  unfold State.lateFault
  try dsimp only
  repeat' first
    | with_reducible assumption | with_reducible apply State.raiseEvent_keeps | with_reducible apply State.addSat_keeps

theorem State.stepFault_keeps {a0 : State} {a1 a2 a3 : Nat} (hregs : k.regs = false) (hclusters : k.clusters = false)
    (hfab : k.fab = false) (hcol : k.col = false) (h : Keeps k m a0) :
    Keeps k m (State.stepFault a0 a1 a2 a3) := by
  unfold State.stepFault
  try dsimp only
  repeat' first
    | with_reducible assumption | with_reducible apply State.lateFault_keeps | with_reducible apply State.discardAll_keeps
    | with_reducible apply State.putStep_keeps | with_reducible apply keeps_ite | with_reducible apply keeps_ite_fst
    | split

theorem State.replayStep_keeps {a0 : State} {a1 a2 : Nat} {a3 : List Nat} (hregs : k.regs = false)
    (hclusters : k.clusters = false) (hfab : k.fab = false) (hcol : k.col = false) (h : Keeps k m a0) :
    Keeps k m (State.replayStep a0 a1 a2 a3) := by
  unfold State.replayStep
  try dsimp only
  repeat' first
    | with_reducible assumption | with_reducible apply State.discardAll_keeps | with_reducible apply State.putStep_keeps
    | with_reducible apply keeps_ite | with_reducible apply keeps_ite_fst | split

theorem State.residueFault_keeps {a0 : State} {a1 : Nat} (hregs : k.regs = false) (hclusters : k.clusters = false)
    (hfab : k.fab = false) (hcol : k.col = false) (h : Keeps k m a0) :
    Keeps k m (State.residueFault a0 a1) := by
  unfold State.residueFault
  try dsimp only
  repeat' first
    | with_reducible assumption | with_reducible apply State.stepFault_keeps | with_reducible apply State.strike_keeps
    | with_reducible apply State.numstatResidue_keeps | with_reducible apply State.raiseEvent_keeps

theorem State.uncorrectable_keeps {a0 : State} {a1 : Nat} {a2 : Bool} {a3 : Nat} (hregs : k.regs = false)
    (hslice : k.slice = false) (hpad : k.pad = false) (h : Keeps k m a0) :
    Keeps k m (State.uncorrectable a0 a1 a2 a3) := by
  unfold State.uncorrectable
  try dsimp only
  repeat' first
    | with_reducible assumption | with_reducible exact Or.inl ‹_› | with_reducible exact Eq.refl _
    | with_reducible exact Or.inr rfl | with_reducible exact Or.inr ⟨rfl, rfl⟩
    | with_reducible exact Or.inr ⟨rfl, rfl, rfl⟩ | with_reducible apply State.strike_keeps
    | with_reducible apply State.poisonGranule_keeps | with_reducible apply State.setCfld_keeps
    | with_reducible apply State.raiseEvent_keeps | with_reducible apply State.addSat_keeps
    | with_reducible apply keeps_ite | with_reducible apply keeps_ite_fst | split
    | refine keeps_of_fst (by with_reducible assumption) ?_ | with_reducible apply keeps_upd

theorem State.countCorrected_keeps {a0 : State} {a1 : Nat} {a2 : Bool} {a3 : Nat} (hregs : k.regs = false)
    (h : Keeps k m a0) :
    Keeps k m (State.countCorrected a0 a1 a2 a3) := by
  unfold State.countCorrected
  try dsimp only
  repeat' first
    | with_reducible assumption | with_reducible exact Or.inl ‹_› | with_reducible exact Eq.refl _
    | with_reducible exact Or.inr rfl | with_reducible exact Or.inr ⟨rfl, rfl⟩
    | with_reducible exact Or.inr ⟨rfl, rfl, rfl⟩ | with_reducible apply State.addSat_keeps
    | with_reducible apply keeps_ite | with_reducible apply keeps_ite_fst | split
    | refine keeps_of_fst (by with_reducible assumption) ?_ | with_reducible apply keeps_upd

theorem State.readChecked_keeps {a0 : State} {a1 : Nat} {a2 : Bool} {a3 a4 a5 : Nat} (hregs : k.regs = false)
    (hclusters : k.clusters = false) (hslice : k.slice = false) (hpad : k.pad = false) (hfab : k.fab = false)
    (hcol : k.col = false) (h : Keeps k m a0) :
    Keeps k m (State.readChecked a0 a1 a2 a3 a4 a5).1 := by
  unfold State.readChecked
  try dsimp only
  repeat' first
    | with_reducible assumption | intro _ | with_reducible apply State.countCorrected_keeps
    | with_reducible apply State.uncorrectable_keeps | with_reducible apply State.stepFault_keeps
    | with_reducible apply State.wakeRange_keeps | with_reducible apply keeps_ite | with_reducible apply keeps_foldl
    | with_reducible apply keeps_ite_fst | with_reducible apply keeps_foldl_fst | split

theorem State.writeLocal_keeps {a0 : State} {a1 : Nat} {a2 : Bool} {a3 : Nat} {a4 : Bytes} (hregs : k.regs = false)
    (hclusters : k.clusters = false) (hslice : k.slice = false) (hpad : k.pad = false) (h : Keeps k m a0) :
    Keeps k m (State.writeLocal a0 a1 a2 a3 a4) := by
  unfold State.writeLocal
  try dsimp only
  repeat' first
    | with_reducible assumption | with_reducible apply State.wakeRange_keeps | with_reducible apply State.localWrite_keeps

theorem State.freeEdges_keeps {a0 : State} {a1 : Nat} {a2 : Bool} {a3 a4 : Nat} (hregs : k.regs = false)
    (hclusters : k.clusters = false) (hslice : k.slice = false) (hpad : k.pad = false) (h : Keeps k m a0) :
    Keeps k m (State.freeEdges a0 a1 a2 a3 a4) := by
  unfold State.freeEdges
  try dsimp only
  repeat' first
    | with_reducible assumption | with_reducible apply State.writeLocal_keeps | with_reducible apply State.drawn_keeps
    | with_reducible apply keeps_ite

theorem State.writeRuns_keeps {a0 : State} {a1 : Nat} {a2 : Bool} {a3 : List (Nat × Bytes)} (hregs : k.regs = false)
    (hclusters : k.clusters = false) (hslice : k.slice = false) (hpad : k.pad = false) (h : Keeps k m a0) :
    Keeps k m (State.writeRuns a0 a1 a2 a3) := by
  unfold State.writeRuns
  try dsimp only
  repeat' first
    | with_reducible assumption | intro _ | with_reducible apply State.freeEdges_keeps
    | with_reducible apply State.writeLocal_keeps | with_reducible apply keeps_foldl

theorem State.mergeGranule_keeps {a0 : State} {a1 : Nat} {a2 : Bool} {a3 : Nat} {a4 : Bytes} {a5 : Nat}
    (hregs : k.regs = false) (hclusters : k.clusters = false) (hslice : k.slice = false) (hpad : k.pad = false)
    (hfab : k.fab = false) (hcol : k.col = false) (h : Keeps k m a0) :
    Keeps k m (State.mergeGranule a0 a1 a2 a3 a4 a5) := by
  unfold State.mergeGranule
  try dsimp only
  repeat' first
    | with_reducible assumption | with_reducible apply State.countCorrected_keeps
    | with_reducible apply State.uncorrectable_keeps | with_reducible apply State.stepFault_keeps
    | with_reducible apply State.wakeRange_keeps | with_reducible apply State.localWrite_keeps
    | with_reducible apply keeps_ite

theorem State.mergeScales_keeps {a0 : State} {a1 : Nat} {a2 : Bool} {a3 : Nat} {a4 : Bytes} (hregs : k.regs = false)
    (hclusters : k.clusters = false) (hslice : k.slice = false) (hpad : k.pad = false) (hfab : k.fab = false)
    (hcol : k.col = false) (h : Keeps k m a0) :
    Keeps k m (State.mergeScales a0 a1 a2 a3 a4) := by
  unfold State.mergeScales
  try dsimp only
  repeat' first
    | with_reducible assumption | intro _ | with_reducible apply State.mergeGranule_keeps
    | with_reducible apply keeps_foldl

theorem State.fetch_keeps {a0 : State} {a1 a2 : Nat} (hregs : k.regs = false) (hclusters : k.clusters = false)
    (hslice : k.slice = false) (hpad : k.pad = false) (hfab : k.fab = false) (hcol : k.col = false) (h : Keeps k m a0) :
    Keeps k m (State.fetch a0 a1 a2).1 := by
  unfold State.fetch
  try dsimp only
  repeat' first
    | with_reducible assumption | with_reducible apply State.readChecked_keeps | with_reducible apply State.setClu_keeps
    | with_reducible apply keeps_ite | with_reducible apply keeps_ite_fst | split
    | refine keeps_of_fst (by with_reducible assumption) ?_

theorem State.startAttempt_keeps {a0 : State} {a1 : Step} (hregs : k.regs = false) (hclusters : k.clusters = false)
    (hslice : k.slice = false) (hpad : k.pad = false) (hfab : k.fab = false) (hcol : k.col = false) (h : Keeps k m a0) :
    Keeps k m (State.startAttempt a0 a1) := by
  unfold State.startAttempt
  try dsimp only
  repeat' first
    | with_reducible assumption | intro _ | with_reducible apply State.fetch_keeps
    | with_reducible apply State.startCluster_keeps | with_reducible apply State.putStep_keeps
    | with_reducible apply keeps_foldl

theorem State.postRecord_keeps {a0 : State} {a1 : Nat} {a2 : List Word} (h : Keeps k m a0) :
    Keeps k m (State.postRecord a0 a1 a2) := by
  unfold State.postRecord
  try dsimp only
  repeat' first
    | with_reducible assumption | with_reducible exact Or.inl ‹_› | with_reducible exact Eq.refl _
    | with_reducible exact Or.inr rfl | with_reducible exact Or.inr ⟨rfl, rfl⟩
    | with_reducible exact Or.inr ⟨rfl, rfl, rfl⟩ | with_reducible apply keeps_ite_fst | split
    | refine keeps_of_fst (by with_reducible assumption) ?_ | with_reducible apply keeps_upd

theorem State.signal_keeps {a0 : State} {a1 : Nat} {a2 : Option Sel} (hregs : k.regs = false)
    (hclusters : k.clusters = false) (h : Keeps k m a0) :
    Keeps k m (State.signal a0 a1 a2) := by
  unfold State.signal
  try dsimp only
  repeat' first
    | with_reducible assumption | with_reducible apply State.setClu_keeps | with_reducible apply State.addWrap_keeps
    | with_reducible apply keeps_ite | with_reducible apply keeps_ite_fst | split

theorem State.goto_keeps {a0 : State} {a1 a2 : Nat} (hregs : k.regs = false) (hclusters : k.clusters = false)
    (h : Keeps k m a0) :
    Keeps k m (State.goto a0 a1 a2) := by
  unfold State.goto
  try dsimp only
  repeat' first
    | with_reducible assumption | with_reducible apply State.setCfld_keeps | with_reducible apply State.setClu_keeps

theorem State.advance_keeps {a0 : State} {a1 : Nat} (hregs : k.regs = false) (hclusters : k.clusters = false)
    (h : Keeps k m a0) :
    Keeps k m (State.advance a0 a1) := by
  unfold State.advance
  try dsimp only
  repeat' first
    | with_reducible assumption | with_reducible apply State.goto_keeps

theorem State.release_keeps {a0 : State} {a1 : Nat} (hregs : k.regs = false) (hclusters : k.clusters = false)
    (hslice : k.slice = false) (hpad : k.pad = false) (h : Keeps k m a0) :
    Keeps k m (State.release a0 a1) := by
  unfold State.release
  try dsimp only
  repeat' first
    | with_reducible assumption | with_reducible apply State.restBanks_keeps | with_reducible apply State.setSeq_keeps
    | with_reducible apply State.setClu_keeps | with_reducible apply keeps_ite

theorem State.reopen_keeps {a0 : State} {a1 : List Nat} (hslots : k.slots = false) (h : Keeps k m a0) :
    Keeps k m (State.reopen a0 a1) := by
  unfold State.reopen
  try dsimp only
  repeat' first
    | with_reducible assumption | intro _ | with_reducible apply State.setCtx_keeps | with_reducible apply keeps_ite
    | with_reducible apply keeps_foldl

theorem State.abandon_keeps {a0 : State} {a1 : Step} (hregs : k.regs = false) (hclusters : k.clusters = false)
    (hslice : k.slice = false) (hpad : k.pad = false) (hslots : k.slots = false) (h : Keeps k m a0) :
    Keeps k m (State.abandon a0 a1) := by
  unfold State.abandon
  try dsimp only
  repeat' first
    | with_reducible assumption | intro _ | with_reducible apply State.reopen_keeps
    | with_reducible apply State.release_keeps | with_reducible apply State.dropAdds_keeps
    | with_reducible apply State.applyAdds_keeps | with_reducible apply State.restoreTallies_keeps
    | with_reducible apply State.dropStep_keeps | with_reducible apply keeps_foldl

theorem State.putImage_keeps {a0 : State} {a1 a2 : Nat} {a3 : Bytes × List Nat} (hslice : k.slice = false)
    (hpad : k.pad = false) (h : Keeps k m a0) :
    Keeps k m (State.putImage a0 a1 a2 a3) := by
  unfold State.putImage
  try dsimp only
  repeat' first
    | with_reducible assumption | with_reducible apply State.localWrite_keeps | with_reducible apply State.setFlaws_keeps

theorem State.padMeet_keeps {a0 : State} {a1 : Nat} {a2 a3 a4 : List Nat} (hregs : k.regs = false) (h : Keeps k m a0) :
    Keeps k m (State.padMeet a0 a1 a2 a3 a4).1 := by
  unfold State.padMeet
  try dsimp only
  repeat' first
    | with_reducible assumption | with_reducible apply State.drawn_keeps | with_reducible apply State.addSat_keeps
    | with_reducible apply keeps_ite | with_reducible apply keeps_ite_fst

theorem State.readMeet_keeps {a0 : State} {a1 : Nat} {a2 : Bool} {a3 : List Nat} (hregs : k.regs = false)
    (h : Keeps k m a0) :
    Keeps k m (State.readMeet a0 a1 a2 a3).1 := by
  unfold State.readMeet
  try dsimp only
  repeat' first
    | with_reducible assumption | with_reducible apply State.drawn_keeps | with_reducible apply State.addSat_keeps
    | with_reducible apply keeps_ite | with_reducible apply keeps_ite_fst

theorem State.shadowed_keeps {α : Type} {a1 : State} {a2 : Bool} {a3 a4 : List (Nat × List Nat)} {a5 : State → State × α}
    (hregs : k.regs = false) (hslice : k.slice = false) (hpad : k.pad = false) (h : Keeps k m a1)
    (f0 : ∀ s, Keeps k m s → Keeps k m (a5 s).1) :
    Keeps k m (State.shadowed a1 a2 a3 a4 a5).1 := by
  unfold State.shadowed
  dsimp only
  repeat' first
    | with_reducible assumption | intro _ | with_reducible apply f0 | with_reducible apply State.readMeet_keeps
    | with_reducible apply State.putImage_keeps | with_reducible apply keeps_foldl | with_reducible apply keeps_foldl_fst

theorem State.barrowWrite_keeps {a0 : State} {a1 : Nat} {a2 : Bool} {a3 : Nat} {a4 : Bytes} (hregs : k.regs = false)
    (hclusters : k.clusters = false) (hslice : k.slice = false) (hpad : k.pad = false) (h : Keeps k m a0) :
    Keeps k m (State.barrowWrite a0 a1 a2 a3 a4) := by
  unfold State.barrowWrite
  try dsimp only
  repeat' first
    | with_reducible assumption | intro _ | with_reducible apply State.padMeet_keeps
    | with_reducible apply State.putImage_keeps | with_reducible apply State.writeLocal_keeps
    | with_reducible apply keeps_ite | with_reducible apply keeps_foldl

theorem State.barrowLoc_keeps {a0 : State} {a1 : Nat} {a2 : Loc} {a3 : Bytes} (hregs : k.regs = false)
    (hclusters : k.clusters = false) (hslice : k.slice = false) (hpad : k.pad = false) (h : Keeps k m a0) :
    Keeps k m (State.barrowLoc a0 a1 a2 a3) := by
  unfold State.barrowLoc
  try dsimp only
  repeat' first
    | with_reducible assumption | with_reducible apply State.barrowWrite_keeps | with_reducible apply keeps_ite
    | with_reducible apply keeps_ite_fst | split

theorem State.enginePort_keeps {a0 : State} {a1 : Nat} {a2 : Desc} (hregs : k.regs = false) (h : Keeps k m a0) :
    Keeps k m (State.enginePort a0 a1 a2) := by
  unfold State.enginePort
  try dsimp only
  repeat' first
    | with_reducible assumption | with_reducible apply State.padMeet_keeps | with_reducible apply keeps_ite

theorem State.scrubPort_keeps {a0 : State} {a1 a2 : Nat} {a3 : Bool} (hregs : k.regs = false) (h : Keeps k m a0) :
    Keeps k m (State.scrubPort a0 a1 a2 a3) := by
  unfold State.scrubPort
  try dsimp only
  repeat' first
    | with_reducible assumption | with_reducible apply State.readMeet_keeps | with_reducible apply State.padMeet_keeps
    | with_reducible apply keeps_ite

theorem State.holdBytes_keeps {a0 : State} {a1 a2 : Nat} {a3 : Bool} {a4 : Nat} {a5 : Bytes}
    (hclusters : k.clusters = false) (h : Keeps k m a0) :
    Keeps k m (State.holdBytes a0 a1 a2 a3 a4 a5) := by
  unfold State.holdBytes
  try dsimp only
  repeat' first
    | with_reducible assumption | with_reducible apply State.setClu_keeps

theorem State.landBarrow_keeps {a0 : State} {a1 : Nat} {a2 : Desc} (hregs : k.regs = false)
    (hclusters : k.clusters = false) (hslice : k.slice = false) (hpad : k.pad = false) (h : Keeps k m a0) :
    Keeps k m (State.landBarrow a0 a1 a2) := by
  unfold State.landBarrow
  try dsimp only
  repeat' first
    | with_reducible assumption | intro _ | with_reducible apply State.barrowWrite_keeps | with_reducible apply keeps_foldl

end Sys2Proof.Machine
end

