-- ==== Sys2Proof/Laws/KeepsMemory.lean ====
section
/-! SUPPORT. What the operations leave alone: one lemma per operation of tier memory, its lanes, host transfers, the reads and writes of an engine, windows. -/

namespace Sys2Proof.Machine

open Sys2Proof.Safety

variable {k : Kept} {m : State}

theorem State.evacDue_keeps {a0 : State} {a1 a2 : Nat} (h : Keeps k m a0) :
    Keeps k m (State.evacDue a0 a1 a2) := by
  unfold State.evacDue
  try dsimp only
  repeat' first
    | with_reducible assumption | with_reducible exact Or.inl ‹_› | with_reducible exact Eq.refl _
    | with_reducible exact Or.inr rfl | with_reducible exact Or.inr ⟨rfl, rfl⟩
    | with_reducible exact Or.inr ⟨rfl, rfl, rfl⟩ | with_reducible apply keeps_ite | with_reducible apply keeps_ite_fst
    | split | refine keeps_of_fst (by with_reducible assumption) ?_ | with_reducible apply keeps_upd

theorem State.countLines_keeps {a0 : State} {a1 a2 : Nat} (hregs : k.regs = false) (h : Keeps k m a0) :
    Keeps k m (State.countLines a0 a1 a2) := by
  unfold State.countLines
  try dsimp only
  repeat' first
    | with_reducible assumption | with_reducible exact Or.inl ‹_› | with_reducible exact Eq.refl _
    | with_reducible exact Or.inr rfl | with_reducible exact Or.inr ⟨rfl, rfl⟩
    | with_reducible exact Or.inr ⟨rfl, rfl, rfl⟩ | with_reducible apply State.evacDue_keeps
    | with_reducible apply State.addSat_keeps | with_reducible apply keeps_ite | with_reducible apply keeps_ite_fst | split
    | refine keeps_of_fst (by with_reducible assumption) ?_ | with_reducible apply keeps_upd

theorem State.checkCopy_keeps {a0 : State} {a1 a2 : Nat} (hregs : k.regs = false) (h : Keeps k m a0) :
    Keeps k m (State.checkCopy a0 a1 a2).1 := by
  unfold State.checkCopy
  try dsimp only
  repeat' first
    | with_reducible assumption | with_reducible apply State.countLines_keeps | with_reducible apply State.evacDue_keeps
    | with_reducible apply State.addSat_keeps | with_reducible apply keeps_ite | with_reducible apply keeps_ite_fst

theorem State.askLine_keeps {a0 : State} {a1 a2 a3 : Nat} (h : Keeps k m a0) :
    Keeps k m (State.askLine a0 a1 a2 a3) := by
  unfold State.askLine
  try dsimp only
  repeat' first
    | with_reducible assumption | with_reducible apply State.emit_keeps

theorem State.tellLine_keeps {a0 : State} {a1 a2 a3 : Nat} {a4 : TLine} (h : Keeps k m a0) :
    Keeps k m (State.tellLine a0 a1 a2 a3 a4) := by
  unfold State.tellLine
  try dsimp only
  repeat' first
    | with_reducible assumption | with_reducible apply State.emit_keeps

theorem State.setLine_keeps {a0 : State} {a1 : Nat} {a2 : TLine} (hlines : k.lines = false) (h : Keeps k m a0) :
    Keeps k m (State.setLine a0 a1 a2) := by
  unfold State.setLine
  try dsimp only
  repeat' first
    | with_reducible assumption | with_reducible exact Or.inl ‹_› | with_reducible exact Eq.refl _
    | with_reducible exact Or.inr rfl | with_reducible exact Or.inr ⟨rfl, rfl⟩
    | with_reducible exact Or.inr ⟨rfl, rfl, rfl⟩ | intro _
    | exact (Keeps.good (by with_reducible assumption) (by with_reducible assumption)).regs
    | exact (Keeps.good (by with_reducible assumption) (by with_reducible assumption)).staged
    | exact (Keeps.good (by with_reducible assumption) (by with_reducible assumption)).clusters
    | exact (Keeps.good (by with_reducible assumption) (by with_reducible assumption)).slice
    | exact (Keeps.good (by with_reducible assumption) (by with_reducible assumption)).pad
    | exact (Keeps.good (by with_reducible assumption) (by with_reducible assumption)).sliceFlaw
    | exact (Keeps.good (by with_reducible assumption) (by with_reducible assumption)).padFlaw
    | exact (Keeps.good (by with_reducible assumption) (by with_reducible assumption)).lines
    | exact (Keeps.good (by with_reducible assumption) (by with_reducible assumption)).slots
    | exact (Keeps.good (by with_reducible assumption) (by with_reducible assumption)).flash | exact mwf_nil _
    | with_reducible exact Eq.refl true | with_reducible apply mwf_mset | with_reducible apply mwf_mwrite
    | with_reducible apply mwf_mclear | with_reducible apply mwf_filter | with_reducible apply msorted_mset
    | with_reducible apply msorted_mwrite | with_reducible apply msorted_filter | with_reducible apply keeps_ite_fst
    | split | refine keeps_of_fst (by with_reducible assumption) ?_ | with_reducible apply keeps_all

theorem State.putLine_keeps {a0 : State} {a1 a2 a3 : Nat} {a4 : TLine} (hlines : k.lines = false) (h : Keeps k m a0) :
    Keeps k m (State.putLine a0 a1 a2 a3 a4) := by
  unfold State.putLine
  try dsimp only
  repeat' first
    | with_reducible assumption | with_reducible apply State.setLine_keeps | with_reducible apply State.tellLine_keeps

theorem State.loseLine_keeps {a0 : State} {a1 a2 : Nat} (hregs : k.regs = false) (hlines : k.lines = false)
    (h : Keeps k m a0) :
    Keeps k m (State.loseLine a0 a1 a2) := by
  unfold State.loseLine
  try dsimp only
  repeat' first
    | with_reducible assumption | intro _ | with_reducible apply State.putLine_keeps
    | with_reducible apply State.addSat_keeps | with_reducible apply keeps_foldl

theorem State.readTier_keeps {a0 : State} {a1 : Nat} (hregs : k.regs = false) (hlines : k.lines = false)
    (h : Keeps k m a0) :
    Keeps k m (State.readTier a0 a1).1 := by
  unfold State.readTier
  try dsimp only
  repeat' first
    | with_reducible assumption | with_reducible apply State.loseLine_keeps | with_reducible apply State.putLine_keeps
    | with_reducible apply State.askLine_keeps | with_reducible apply State.checkCopy_keeps
    | with_reducible apply keeps_ite | with_reducible apply keeps_ite_fst | split
    | refine keeps_of_fst (by with_reducible assumption) ?_

theorem State.missWrite_keeps {a0 : State} {a1 a2 : Nat} (hregs : k.regs = false) (h : Keeps k m a0) :
    Keeps k m (State.missWrite a0 a1 a2) := by
  unfold State.missWrite
  try dsimp only
  repeat' first
    | with_reducible assumption | with_reducible exact Or.inl ‹_› | with_reducible exact Eq.refl _
    | with_reducible exact Or.inr rfl | with_reducible exact Or.inr ⟨rfl, rfl⟩
    | with_reducible exact Or.inr ⟨rfl, rfl, rfl⟩ | with_reducible apply State.setFld_keeps
    | with_reducible apply keeps_ite | with_reducible apply keeps_ite_fst | split
    | refine keeps_of_fst (by with_reducible assumption) ?_ | with_reducible apply keeps_upd

theorem State.writeTier_keeps {a0 : State} {a1 : Nat} {a2 : TLine} (hregs : k.regs = false) (hlines : k.lines = false)
    (h : Keeps k m a0) :
    Keeps k m (State.writeTier a0 a1 a2) := by
  unfold State.writeTier
  try dsimp only
  repeat' first
    | with_reducible assumption | intro _ | with_reducible apply State.missWrite_keeps
    | with_reducible apply State.setLine_keeps | with_reducible apply keeps_ite | with_reducible apply keeps_foldl

theorem State.askTier_keeps {a0 : State} {a1 : Nat} (h : Keeps k m a0) :
    Keeps k m (State.askTier a0 a1) := by
  unfold State.askTier
  try dsimp only
  repeat' first
    | with_reducible assumption | with_reducible apply State.askLine_keeps | with_reducible apply keeps_ite
    | with_reducible apply keeps_ite_fst | split

theorem State.fetchTier_keeps {a0 : State} {a1 : Nat} (hregs : k.regs = false) (hlines : k.lines = false)
    (h : Keeps k m a0) :
    Keeps k m (State.fetchTier a0 a1).1 := by
  unfold State.fetchTier
  try dsimp only
  repeat' first
    | with_reducible assumption | with_reducible apply State.askTier_keeps | with_reducible apply State.readTier_keeps
    | with_reducible apply keeps_ite

theorem State.tellTier_keeps {a0 : State} {a1 : Nat} {a2 : TLine} (h : Keeps k m a0) :
    Keeps k m (State.tellTier a0 a1 a2) := by
  unfold State.tellTier
  try dsimp only
  repeat' first
    | with_reducible assumption | intro _ | with_reducible apply State.tellLine_keeps | with_reducible apply keeps_foldl

theorem State.stageMerge_keeps {a0 : State} {a1 : Nat} {a2 : List (Option Byte)} (hregs : k.regs = false)
    (hlines : k.lines = false) (h : Keeps k m a0) :
    Keeps k m (State.stageMerge a0 a1 a2) := by
  unfold State.stageMerge
  try dsimp only
  repeat' first
    | with_reducible assumption | with_reducible apply State.tellTier_keeps | with_reducible apply State.askTier_keeps
    | with_reducible apply State.writeTier_keeps | with_reducible apply State.readTier_keeps
    | with_reducible apply State.addSat_keeps | with_reducible apply keeps_ite | with_reducible apply keeps_ite_fst | split
    | refine keeps_of_fst (by with_reducible assumption) ?_

theorem State.setCopies_keeps {a0 : State} {a1 : Nat} {a2 : TLine} (hlines : k.lines = false) (h : Keeps k m a0) :
    Keeps k m (State.setCopies a0 a1 a2) := by
  unfold State.setCopies
  try dsimp only
  repeat' first
    | with_reducible assumption | intro _ | with_reducible apply State.setLine_keeps | with_reducible apply keeps_foldl

theorem State.clearPage_keeps {a0 : State} {a1 a2 : Nat} (hlines : k.lines = false) (h : Keeps k m a0) :
    Keeps k m (State.clearPage a0 a1 a2) := by
  unfold State.clearPage
  try dsimp only
  repeat' first
    | with_reducible assumption | with_reducible exact Or.inl ‹_› | with_reducible exact Eq.refl _
    | with_reducible exact Or.inr rfl | with_reducible exact Or.inr ⟨rfl, rfl⟩
    | with_reducible exact Or.inr ⟨rfl, rfl, rfl⟩ | intro _
    | exact (Keeps.good (by with_reducible assumption) (by with_reducible assumption)).regs
    | exact (Keeps.good (by with_reducible assumption) (by with_reducible assumption)).staged
    | exact (Keeps.good (by with_reducible assumption) (by with_reducible assumption)).clusters
    | exact (Keeps.good (by with_reducible assumption) (by with_reducible assumption)).slice
    | exact (Keeps.good (by with_reducible assumption) (by with_reducible assumption)).pad
    | exact (Keeps.good (by with_reducible assumption) (by with_reducible assumption)).sliceFlaw
    | exact (Keeps.good (by with_reducible assumption) (by with_reducible assumption)).padFlaw
    | exact (Keeps.good (by with_reducible assumption) (by with_reducible assumption)).lines
    | exact (Keeps.good (by with_reducible assumption) (by with_reducible assumption)).slots
    | exact (Keeps.good (by with_reducible assumption) (by with_reducible assumption)).flash | exact mwf_nil _
    | with_reducible exact Eq.refl true | with_reducible apply mwf_mset | with_reducible apply mwf_mwrite
    | with_reducible apply mwf_mclear | with_reducible apply mwf_filter | with_reducible apply msorted_mset
    | with_reducible apply msorted_mwrite | with_reducible apply msorted_filter | with_reducible apply keeps_ite_fst
    | split | refine keeps_of_fst (by with_reducible assumption) ?_ | with_reducible apply keeps_all

theorem State.unwrite_keeps {a0 : State} {a1 : Nat} (h : Keeps k m a0) :
    Keeps k m (State.unwrite a0 a1) := by
  unfold State.unwrite
  try dsimp only
  repeat' first
    | with_reducible assumption | with_reducible exact Or.inl ‹_› | with_reducible exact Eq.refl _
    | with_reducible exact Or.inr rfl | with_reducible exact Or.inr ⟨rfl, rfl⟩
    | with_reducible exact Or.inr ⟨rfl, rfl, rfl⟩ | with_reducible apply keeps_ite_fst | split
    | refine keeps_of_fst (by with_reducible assumption) ?_ | with_reducible apply keeps_upd

theorem State.setKeySlot_keeps {a0 : State} {a1 : Nat} {a2 : KeySlot} (hkeys : k.keys = false) (h : Keeps k m a0) :
    Keeps k m (State.setKeySlot a0 a1 a2) := by
  unfold State.setKeySlot
  try dsimp only
  repeat' first
    | with_reducible assumption | with_reducible exact Or.inl ‹_› | with_reducible exact Eq.refl _
    | with_reducible exact Or.inr rfl | with_reducible exact Or.inr ⟨rfl, rfl⟩
    | with_reducible exact Or.inr ⟨rfl, rfl, rfl⟩ | with_reducible apply keeps_ite_fst | split
    | refine keeps_of_fst (by with_reducible assumption) ?_ | with_reducible apply keeps_upd

theorem State.checkKey_keeps {a0 : State} {a1 : Nat} (hregs : k.regs = false) (hkeys : k.keys = false)
    (h : Keeps k m a0) :
    Keeps k m (State.checkKey a0 a1) := by
  unfold State.checkKey
  try dsimp only
  repeat' first
    | with_reducible assumption | with_reducible apply State.setKeySlot_keeps | with_reducible apply State.raiseEvent_keeps
    | with_reducible apply keeps_ite

theorem State.keyFor_keeps {a0 : State} {a1 : Nat} (hregs : k.regs = false) (hkeys : k.keys = false) (h : Keeps k m a0)
    :
    Keeps k m (State.keyFor a0 a1).1 := by
  unfold State.keyFor
  try dsimp only
  repeat' first
    | with_reducible assumption | with_reducible apply State.checkKey_keeps | with_reducible apply keeps_ite
    | with_reducible apply keeps_ite_fst

theorem State.putReq_keeps {a0 : State} {a1 : Req} (h : Keeps k m a0) :
    Keeps k m (State.putReq a0 a1) := by
  unfold State.putReq
  try dsimp only
  repeat' first
    | with_reducible assumption | with_reducible exact Or.inl ‹_› | with_reducible exact Eq.refl _
    | with_reducible exact Or.inr rfl | with_reducible exact Or.inr ⟨rfl, rfl⟩
    | with_reducible exact Or.inr ⟨rfl, rfl, rfl⟩ | with_reducible apply keeps_ite_fst | split
    | refine keeps_of_fst (by with_reducible assumption) ?_ | with_reducible apply keeps_upd

theorem State.sendReady_keeps {a0 : State} (h : Keeps k m a0) :
    Keeps k m (State.sendReady a0) := by
  unfold State.sendReady
  try dsimp only
  repeat' first
    | with_reducible assumption | with_reducible exact Or.inl ‹_› | with_reducible exact Eq.refl _
    | with_reducible exact Or.inr rfl | with_reducible exact Or.inr ⟨rfl, rfl⟩
    | with_reducible exact Or.inr ⟨rfl, rfl, rfl⟩ | intro _ | with_reducible apply State.emit_keeps
    | with_reducible apply keeps_ite | with_reducible apply keeps_foldl | with_reducible apply keeps_ite_fst
    | with_reducible apply keeps_foldl_fst | split | refine keeps_of_fst (by with_reducible assumption) ?_
    | with_reducible apply keeps_upd

theorem State.issueRead_keeps {a0 : State} {a1 a2 a3 : Nat} {a4 a5 : Bool} {a6 a7 a8 : Nat} (h : Keeps k m a0) :
    Keeps k m (State.issueRead a0 a1 a2 a3 a4 a5 a6 a7 a8) := by
  unfold State.issueRead
  try dsimp only
  repeat' first
    | with_reducible assumption | with_reducible apply State.sendReady_keeps | with_reducible apply State.putReq_keeps

theorem State.issueWrite_keeps {a0 : State} {a1 : Owner} {a2 : Nat} {a3 : Bool} {a4 a5 a6 : Nat} {a7 : List Bytes}
    (hregs : k.regs = false) (hlines : k.lines = false) (h : Keeps k m a0) :
    Keeps k m (State.issueWrite a0 a1 a2 a3 a4 a5 a6 a7) := by
  unfold State.issueWrite
  try dsimp only
  repeat' first
    | with_reducible assumption | with_reducible exact Or.inl ‹_› | with_reducible exact Eq.refl _
    | with_reducible exact Or.inr rfl | with_reducible exact Or.inr ⟨rfl, rfl⟩
    | with_reducible exact Or.inr ⟨rfl, rfl, rfl⟩ | intro _ | with_reducible apply State.sendReady_keeps
    | with_reducible apply State.putReq_keeps | with_reducible apply State.writeTier_keeps | with_reducible apply keeps_ite
    | with_reducible apply keeps_foldl | with_reducible apply keeps_ite_fst | with_reducible apply keeps_foldl_fst | split
    | refine keeps_of_fst (by with_reducible assumption) ?_ | with_reducible apply keeps_upd

theorem State.applyWait_keeps {a0 : State} {a1 : WaitWrite} (hregs : k.regs = false) (hlines : k.lines = false)
    (h : Keeps k m a0) :
    Keeps k m (State.applyWait a0 a1) := by
  unfold State.applyWait
  try dsimp only
  repeat' first
    | with_reducible assumption | with_reducible apply State.stageMerge_keeps | with_reducible apply State.writeTier_keeps
    | with_reducible apply keeps_ite

theorem State.releaseWaits_keeps {a0 : State} (hregs : k.regs = false) (hlines : k.lines = false) (h : Keeps k m a0) :
    Keeps k m (State.releaseWaits a0) := by
  unfold State.releaseWaits
  try dsimp only
  repeat' first
    | with_reducible assumption | with_reducible exact Or.inl ‹_› | with_reducible exact Eq.refl _
    | with_reducible exact Or.inr rfl | with_reducible exact Or.inr ⟨rfl, rfl⟩
    | with_reducible exact Or.inr ⟨rfl, rfl, rfl⟩ | intro _ | with_reducible apply State.applyWait_keeps
    | with_reducible apply State.sendReady_keeps | with_reducible apply keeps_foldl | with_reducible apply keeps_ite_fst
    | with_reducible apply keeps_foldl_fst | split | refine keeps_of_fst (by with_reducible assumption) ?_
    | with_reducible apply keeps_upd

theorem State.loseCopies_keeps {a0 : State} {a1 : Nat} (hregs : k.regs = false) (h : Keeps k m a0) :
    Keeps k m (State.loseCopies a0 a1) := by
  unfold State.loseCopies
  try dsimp only
  repeat' first
    | with_reducible assumption | with_reducible exact Or.inl ‹_› | with_reducible exact Eq.refl _
    | with_reducible exact Or.inr rfl | with_reducible exact Or.inr ⟨rfl, rfl⟩
    | with_reducible exact Or.inr ⟨rfl, rfl, rfl⟩ | with_reducible apply State.setFld_keeps
    | with_reducible apply keeps_ite | with_reducible apply keeps_ite_fst | split
    | refine keeps_of_fst (by with_reducible assumption) ?_ | with_reducible apply keeps_upd

theorem State.dropCopy_keeps {a0 : State} {a1 : Req} (hregs : k.regs = false) (hfab : k.fab = false) (h : Keeps k m a0)
    :
    Keeps k m (State.dropCopy a0 a1) := by
  unfold State.dropCopy
  try dsimp only
  repeat' first
    | with_reducible assumption | with_reducible exact Or.inl ‹_› | with_reducible exact Eq.refl _
    | with_reducible exact Or.inr rfl | with_reducible exact Or.inr ⟨rfl, rfl⟩
    | with_reducible exact Or.inr ⟨rfl, rfl, rfl⟩ | with_reducible apply State.missWrite_keeps
    | with_reducible apply State.finishInbound_keeps | with_reducible apply keeps_ite | with_reducible apply keeps_ite_fst
    | split | refine keeps_of_fst (by with_reducible assumption) ?_ | with_reducible apply keeps_upd

theorem State.giveUpLane_keeps {a0 : State} {a1 : Nat} {a2 : List Nat} (hregs : k.regs = false)
    (hclusters : k.clusters = false) (hfab : k.fab = false) (hcol : k.col = false) (h : Keeps k m a0) :
    Keeps k m (State.giveUpLane a0 a1 a2) := by
  unfold State.giveUpLane
  try dsimp only
  repeat' first
    | with_reducible assumption | with_reducible exact Or.inl ‹_› | with_reducible exact Eq.refl _
    | with_reducible exact Or.inr rfl | with_reducible exact Or.inr ⟨rfl, rfl⟩
    | with_reducible exact Or.inr ⟨rfl, rfl, rfl⟩ | intro _ | with_reducible apply State.dropCopy_keeps
    | with_reducible apply State.replayStep_keeps | with_reducible apply keeps_ite | with_reducible apply keeps_foldl
    | with_reducible apply keeps_ite_fst | with_reducible apply keeps_foldl_fst | split
    | refine keeps_of_fst (by with_reducible assumption) ?_ | with_reducible apply keeps_upd

theorem State.retrainLane_keeps {a0 : State} {a1 : Nat} (hregs : k.regs = false) (hclusters : k.clusters = false)
    (hfab : k.fab = false) (hcol : k.col = false) (h : Keeps k m a0) :
    Keeps k m (State.retrainLane a0 a1) := by
  unfold State.retrainLane
  try dsimp only
  repeat' first
    | with_reducible assumption | with_reducible exact Or.inl ‹_› | with_reducible exact Eq.refl _
    | with_reducible exact Or.inr rfl | with_reducible exact Or.inr ⟨rfl, rfl⟩
    | with_reducible exact Or.inr ⟨rfl, rfl, rfl⟩ | intro _ | with_reducible apply State.giveUpLane_keeps
    | with_reducible apply State.loseCopies_keeps | with_reducible apply State.sendReady_keeps
    | with_reducible apply State.raiseEvent_keeps | with_reducible apply State.resetArbs_keeps
    | with_reducible apply State.addWrap_keeps | with_reducible apply State.addSat_keeps
    | with_reducible apply State.setFld_keeps | with_reducible apply keeps_ite | with_reducible apply keeps_ite_fst | split
    | refine keeps_of_fst (by with_reducible assumption) ?_ | with_reducible apply keeps_upd

theorem State.doMemLaneRetrain_keeps {a0 : State} {a1 : Nat} (hregs : k.regs = false) (hclusters : k.clusters = false)
    (hfab : k.fab = false) (hcol : k.col = false) (h : Keeps k m a0) :
    Keeps k m (State.doMemLaneRetrain a0 a1) := by
  unfold State.doMemLaneRetrain
  try dsimp only
  repeat' first
    | with_reducible assumption | with_reducible apply State.retrainLane_keeps | with_reducible apply keeps_ite

theorem State.doMemLaneCtlRetrain_keeps {a0 : State} {a1 : Nat} (hregs : k.regs = false)
    (hclusters : k.clusters = false) (hfab : k.fab = false) (hcol : k.col = false) (h : Keeps k m a0) :
    Keeps k m (State.doMemLaneCtlRetrain a0 a1) := by
  unfold State.doMemLaneCtlRetrain
  try dsimp only
  repeat' first
    | with_reducible assumption | intro _ | with_reducible apply State.retrainLane_keeps
    | with_reducible apply State.powered_keeps | with_reducible apply keeps_ite

theorem State.doMemoryReplyTimeout_keeps {a0 : State} {a1 : Nat} (hregs : k.regs = false)
    (hclusters : k.clusters = false) (hfab : k.fab = false) (hcol : k.col = false) (h : Keeps k m a0) :
    Keeps k m (State.doMemoryReplyTimeout a0 a1) := by
  unfold State.doMemoryReplyTimeout
  try dsimp only
  repeat' first
    | with_reducible assumption | with_reducible apply State.retrainLane_keeps
    | with_reducible apply State.giveUpLane_keeps | with_reducible apply keeps_ite

theorem State.holdTier_keeps {a0 : State} {a1 : Nat} (hregs : k.regs = false) (h : Keeps k m a0) :
    Keeps k m (State.holdTier a0 a1) := by
  unfold State.holdTier
  try dsimp only
  repeat' first
    | with_reducible assumption | with_reducible exact Or.inl ‹_› | with_reducible exact Eq.refl _
    | with_reducible exact Or.inr rfl | with_reducible exact Or.inr ⟨rfl, rfl⟩
    | with_reducible exact Or.inr ⟨rfl, rfl, rfl⟩ | with_reducible apply State.raiseEvent_keeps
    | with_reducible apply keeps_ite | with_reducible apply keeps_ite_fst | split
    | refine keeps_of_fst (by with_reducible assumption) ?_ | with_reducible apply keeps_upd

theorem State.checkTiers_keeps {a0 : State} (hregs : k.regs = false) (h : Keeps k m a0) :
    Keeps k m (State.checkTiers a0) := by
  unfold State.checkTiers
  try dsimp only
  repeat' first
    | with_reducible assumption | with_reducible exact Or.inl ‹_› | with_reducible exact Eq.refl _
    | with_reducible exact Or.inr rfl | with_reducible exact Or.inr ⟨rfl, rfl⟩
    | with_reducible exact Or.inr ⟨rfl, rfl, rfl⟩ | intro _ | with_reducible apply State.holdTier_keeps
    | with_reducible apply State.setFld_keeps | with_reducible apply keeps_ite | with_reducible apply keeps_foldl
    | with_reducible apply keeps_ite_fst | with_reducible apply keeps_foldl_fst | split
    | refine keeps_of_fst (by with_reducible assumption) ?_ | with_reducible apply keeps_upd

theorem State.judgeReport_keeps {a0 : State} {a1 : Nat} (hregs : k.regs = false) (h : Keeps k m a0) :
    Keeps k m (State.judgeReport a0 a1) := by
  unfold State.judgeReport
  try dsimp only
  repeat' first
    | with_reducible assumption | with_reducible exact Or.inl ‹_› | with_reducible exact Eq.refl _
    | with_reducible exact Or.inr rfl | with_reducible exact Or.inr ⟨rfl, rfl⟩
    | with_reducible exact Or.inr ⟨rfl, rfl, rfl⟩ | with_reducible apply State.setFld_keeps
    | with_reducible apply keeps_ite | with_reducible apply keeps_ite_fst | split
    | refine keeps_of_fst (by with_reducible assumption) ?_ | with_reducible apply keeps_upd

theorem State.judgeReports_keeps {a0 : State} (hregs : k.regs = false) (h : Keeps k m a0) :
    Keeps k m (State.judgeReports a0) := by
  unfold State.judgeReports
  try dsimp only
  repeat' first
    | with_reducible assumption | intro _ | with_reducible apply State.judgeReport_keeps | with_reducible apply keeps_foldl

theorem State.loseModule_keeps {a0 : State} {a1 : Nat} (h : Keeps k m a0) :
    Keeps k m (State.loseModule a0 a1) := by
  unfold State.loseModule
  try dsimp only
  repeat' first
    | with_reducible assumption | intro _ | with_reducible apply State.unwrite_keeps | with_reducible apply keeps_foldl

theorem State.takeReport_keeps {a0 : State} {a1 : Nat} {a2 : BridgeReport} (hregs : k.regs = false) (h : Keeps k m a0)
    :
    Keeps k m (State.takeReport a0 a1 a2) := by
  unfold State.takeReport
  try dsimp only
  repeat' first
    | with_reducible assumption | with_reducible exact Or.inl ‹_› | with_reducible exact Eq.refl _
    | with_reducible exact Or.inr rfl | with_reducible exact Or.inr ⟨rfl, rfl⟩
    | with_reducible exact Or.inr ⟨rfl, rfl, rfl⟩ | with_reducible apply State.loseModule_keeps
    | with_reducible apply State.judgeReport_keeps | with_reducible apply State.setFld_keeps
    | with_reducible apply keeps_ite | with_reducible apply keeps_ite_fst | split
    | refine keeps_of_fst (by with_reducible assumption) ?_ | with_reducible apply keeps_upd

theorem State.showLease_keeps {a0 : State} (hregs : k.regs = false) (h : Keeps k m a0) :
    Keeps k m (State.showLease a0) := by
  unfold State.showLease
  try dsimp only
  repeat' first
    | with_reducible assumption | with_reducible apply State.setFld_keeps

theorem State.showLost_keeps {a0 : State} {a1 a2 : Nat} (hregs : k.regs = false) (h : Keeps k m a0) :
    Keeps k m (State.showLost a0 a1 a2) := by
  unfold State.showLost
  try dsimp only
  repeat' first
    | with_reducible assumption | with_reducible exact Or.inl ‹_› | with_reducible exact Eq.refl _
    | with_reducible exact Or.inr rfl | with_reducible exact Or.inr ⟨rfl, rfl⟩
    | with_reducible exact Or.inr ⟨rfl, rfl, rfl⟩ | with_reducible apply State.setFld_keeps
    | with_reducible apply keeps_ite | with_reducible apply keeps_ite_fst | split
    | refine keeps_of_fst (by with_reducible assumption) ?_ | with_reducible apply keeps_upd

theorem State.showWidth_keeps {a0 : State} {a1 a2 : Nat} (hregs : k.regs = false) (h : Keeps k m a0) :
    Keeps k m (State.showWidth a0 a1 a2) := by
  unfold State.showWidth
  try dsimp only
  repeat' first
    | with_reducible assumption | with_reducible apply State.showLost_keeps

theorem State.laneReady_keeps {a0 : State} {a1 : Nat} (h : Keeps k m a0) :
    Keeps k m (State.laneReady a0 a1) := by
  unfold State.laneReady
  try dsimp only
  repeat' first
    | with_reducible assumption | with_reducible exact Or.inl ‹_› | with_reducible exact Eq.refl _
    | with_reducible exact Or.inr rfl | with_reducible exact Or.inr ⟨rfl, rfl⟩
    | with_reducible exact Or.inr ⟨rfl, rfl, rfl⟩ | with_reducible apply keeps_ite_fst | split
    | refine keeps_of_fst (by with_reducible assumption) ?_ | with_reducible apply keeps_upd

theorem State.laneTrained_keeps {a0 : State} {a1 : Nat} {a2 : BridgeReport} (hregs : k.regs = false)
    (hclusters : k.clusters = false) (hfab : k.fab = false) (hcol : k.col = false) (h : Keeps k m a0) :
    Keeps k m (State.laneTrained a0 a1 a2) := by
  unfold State.laneTrained
  try dsimp only
  repeat' first
    | with_reducible assumption | with_reducible apply State.laneReady_keeps | with_reducible apply State.showWidth_keeps
    | with_reducible apply State.takeReport_keeps | with_reducible apply State.giveUpLane_keeps
    | with_reducible apply State.loseCopies_keeps | with_reducible apply State.raiseEvent_keeps
    | with_reducible apply State.setFld_keeps | with_reducible apply keeps_ite

theorem State.doMemLaneUp_keeps {a0 : State} {a1 : Nat} {a2 : BridgeReport} (hregs : k.regs = false)
    (hclusters : k.clusters = false) (hlines : k.lines = false) (hfab : k.fab = false) (hcol : k.col = false)
    (h : Keeps k m a0) :
    Keeps k m (State.doMemLaneUp a0 a1 a2) := by
  unfold State.doMemLaneUp
  try dsimp only
  repeat' first
    | with_reducible assumption | with_reducible apply State.laneTrained_keeps | with_reducible apply State.showLease_keeps
    | with_reducible apply State.checkTiers_keeps | with_reducible apply State.releaseWaits_keeps
    | with_reducible apply keeps_ite

theorem State.logRepair_keeps {a0 : State} {a1 a2 a3 a4 : Nat} (hregs : k.regs = false) (h : Keeps k m a0) :
    Keeps k m (State.logRepair a0 a1 a2 a3 a4) := by
  unfold State.logRepair
  try dsimp only
  repeat' first
    | with_reducible assumption | with_reducible apply State.logChange_keeps

theorem State.bookSpare_keeps {a0 : State} {a1 a2 a3 : Nat} (hregs : k.regs = false) (hrepair : k.repair = false)
    (h : Keeps k m a0) :
    Keeps k m (State.bookSpare a0 a1 a2 a3) := by
  unfold State.bookSpare
  try dsimp only
  repeat' first
    | with_reducible assumption | intro _ | with_reducible apply State.logRepair_keeps
    | with_reducible apply State.writeRepair_keeps

theorem State.laneDown_keeps {a0 : State} {a1 : Nat} (hregs : k.regs = false) (hclusters : k.clusters = false)
    (hfab : k.fab = false) (hcol : k.col = false) (h : Keeps k m a0) :
    Keeps k m (State.laneDown a0 a1) := by
  unfold State.laneDown
  try dsimp only
  repeat' first
    | with_reducible assumption | with_reducible exact Or.inl ‹_› | with_reducible exact Eq.refl _
    | with_reducible exact Or.inr rfl | with_reducible exact Or.inr ⟨rfl, rfl⟩
    | with_reducible exact Or.inr ⟨rfl, rfl, rfl⟩ | with_reducible apply State.giveUpLane_keeps
    | with_reducible apply State.loseCopies_keeps | with_reducible apply State.sendReady_keeps
    | with_reducible apply State.raiseEvent_keeps | with_reducible apply State.setFld_keeps
    | with_reducible apply keeps_ite_fst | split | refine keeps_of_fst (by with_reducible assumption) ?_
    | with_reducible apply keeps_upd

theorem State.restartReplies_keeps {a0 : State} {a1 : Nat} (h : Keeps k m a0) :
    Keeps k m (State.restartReplies a0 a1) := by
  unfold State.restartReplies
  try dsimp only
  repeat' first
    | with_reducible assumption | with_reducible exact Or.inl ‹_› | with_reducible exact Eq.refl _
    | with_reducible exact Or.inr rfl | with_reducible exact Or.inr ⟨rfl, rfl⟩
    | with_reducible exact Or.inr ⟨rfl, rfl, rfl⟩ | with_reducible apply keeps_ite | with_reducible apply keeps_ite_fst
    | split | refine keeps_of_fst (by with_reducible assumption) ?_ | with_reducible apply keeps_upd

theorem State.endHold_keeps {a0 : State} {a1 : Nat} (hregs : k.regs = false) (hlines : k.lines = false)
    (h : Keeps k m a0) :
    Keeps k m (State.endHold a0 a1) := by
  unfold State.endHold
  try dsimp only
  repeat' first
    | with_reducible assumption | with_reducible apply State.restartReplies_keeps
    | with_reducible apply State.showLost_keeps | with_reducible apply State.releaseWaits_keeps
    | with_reducible apply keeps_ite

theorem State.doMemOpticalLaneFail_keeps {a0 : State} {a1 : Nat} {a2 : OpticalLane} (hregs : k.regs = false)
    (hclusters : k.clusters = false) (hfab : k.fab = false) (hcol : k.col = false) (hrepair : k.repair = false)
    (h : Keeps k m a0) :
    Keeps k m (State.doMemOpticalLaneFail a0 a1 a2) := by
  unfold State.doMemOpticalLaneFail
  try dsimp only
  repeat' first
    | with_reducible assumption | with_reducible exact Or.inl ‹_› | with_reducible exact Eq.refl _
    | with_reducible exact Or.inr rfl | with_reducible exact Or.inr ⟨rfl, rfl⟩
    | with_reducible exact Or.inr ⟨rfl, rfl, rfl⟩ | with_reducible apply State.laneDown_keeps
    | with_reducible apply State.bookSpare_keeps | with_reducible apply State.showLost_keeps
    | with_reducible apply State.setFld_keeps | with_reducible apply keeps_ite | with_reducible apply keeps_ite_fst | split
    | refine keeps_of_fst (by with_reducible assumption) ?_ | with_reducible apply keeps_upd

theorem State.doMemSpareDone_keeps {a0 : State} {a1 : Nat} (hregs : k.regs = false) (hlines : k.lines = false)
    (h : Keeps k m a0) :
    Keeps k m (State.doMemSpareDone a0 a1) := by
  unfold State.doMemSpareDone
  try dsimp only
  repeat' first
    | with_reducible assumption | with_reducible exact Or.inl ‹_› | with_reducible exact Eq.refl _
    | with_reducible exact Or.inr rfl | with_reducible exact Or.inr ⟨rfl, rfl⟩
    | with_reducible exact Or.inr ⟨rfl, rfl, rfl⟩ | with_reducible apply State.endHold_keeps
    | with_reducible apply State.raiseEvent_keeps | with_reducible apply State.setFld_keeps
    | with_reducible apply keeps_ite | with_reducible apply keeps_ite_fst | split
    | refine keeps_of_fst (by with_reducible assumption) ?_ | with_reducible apply keeps_upd

theorem State.copyPage_keeps {a0 : State} {a1 a2 a3 a4 : Nat} (hlines : k.lines = false) (h : Keeps k m a0) :
    Keeps k m (State.copyPage a0 a1 a2 a3 a4) := by
  unfold State.copyPage
  try dsimp only
  repeat' first
    | with_reducible assumption | intro _ | with_reducible apply State.clearPage_keeps
    | with_reducible apply State.setLine_keeps | with_reducible apply State.emit_keeps | with_reducible apply keeps_foldl

theorem State.setEvac_keeps {a0 : State} {a1 : Option Evac} (h : Keeps k m a0) :
    Keeps k m (State.setEvac a0 a1) := by
  unfold State.setEvac
  try dsimp only
  repeat' first
    | with_reducible assumption | with_reducible exact Or.inl ‹_› | with_reducible exact Eq.refl _
    | with_reducible exact Or.inr rfl | with_reducible exact Or.inr ⟨rfl, rfl⟩
    | with_reducible exact Or.inr ⟨rfl, rfl, rfl⟩ | with_reducible apply keeps_ite_fst | split
    | refine keeps_of_fst (by with_reducible assumption) ?_ | with_reducible apply keeps_upd

theorem State.journalAt_keeps {a0 : State} {a1 a2 : Nat} (h : Keeps k m a0) :
    Keeps k m (State.journalAt a0 a1 a2) := by
  unfold State.journalAt
  try dsimp only
  repeat' first
    | with_reducible assumption | with_reducible exact Or.inl ‹_› | with_reducible exact Eq.refl _
    | with_reducible exact Or.inr rfl | with_reducible exact Or.inr ⟨rfl, rfl⟩
    | with_reducible exact Or.inr ⟨rfl, rfl, rfl⟩ | with_reducible apply keeps_ite_fst | split
    | refine keeps_of_fst (by with_reducible assumption) ?_ | with_reducible apply keeps_upd

theorem State.freePool_keeps {a0 : State} {a1 a2 : Nat} (h : Keeps k m a0) :
    Keeps k m (State.freePool a0 a1 a2) := by
  unfold State.freePool
  try dsimp only
  repeat' first
    | with_reducible assumption | with_reducible exact Or.inl ‹_› | with_reducible exact Eq.refl _
    | with_reducible exact Or.inr rfl | with_reducible exact Or.inr ⟨rfl, rfl⟩
    | with_reducible exact Or.inr ⟨rfl, rfl, rfl⟩ | with_reducible apply keeps_ite_fst | split
    | refine keeps_of_fst (by with_reducible assumption) ?_ | with_reducible apply keeps_upd

theorem State.endEvac_keeps {a0 : State} {a1 : Evac} {a2 : Nat} (hregs : k.regs = false) (hrepair : k.repair = false)
    (h : Keeps k m a0) :
    Keeps k m (State.endEvac a0 a1 a2) := by
  unfold State.endEvac
  try dsimp only
  repeat' first
    | with_reducible assumption | intro _ | with_reducible apply State.setEvac_keeps
    | with_reducible apply State.logRepair_keeps | with_reducible apply State.writeRepair_keeps
    | with_reducible apply State.raiseEvent_keeps | with_reducible apply State.setFld_keeps
    | with_reducible apply keeps_ite

theorem State.joinMove_keeps {a0 : State} {a1 : PageMove} (h : Keeps k m a0) :
    Keeps k m (State.joinMove a0 a1) := by
  unfold State.joinMove
  try dsimp only
  repeat' first
    | with_reducible assumption | intro _ | with_reducible apply State.putReq_keeps | with_reducible apply keeps_ite
    | with_reducible apply keeps_foldl

theorem State.followMove_keeps {a0 : State} {a1 : PageMove} (h : Keeps k m a0) :
    Keeps k m (State.followMove a0 a1) := by
  unfold State.followMove
  try dsimp only
  repeat' first
    | with_reducible assumption | with_reducible exact Or.inl ‹_› | with_reducible exact Eq.refl _
    | with_reducible exact Or.inr rfl | with_reducible exact Or.inr ⟨rfl, rfl⟩
    | with_reducible exact Or.inr ⟨rfl, rfl, rfl⟩ | with_reducible apply keeps_ite | with_reducible apply keeps_ite_fst
    | split | refine keeps_of_fst (by with_reducible assumption) ?_ | with_reducible apply keeps_upd

theorem State.nextPage_keeps {a0 : State} {a1 : Evac} (hregs : k.regs = false) (hrepair : k.repair = false)
    (h : Keeps k m a0) :
    Keeps k m (State.nextPage a0 a1) := by
  unfold State.nextPage
  try dsimp only
  repeat' first
    | with_reducible assumption | with_reducible exact Or.inl ‹_› | with_reducible exact Eq.refl _
    | with_reducible exact Or.inr rfl | with_reducible exact Or.inr ⟨rfl, rfl⟩
    | with_reducible exact Or.inr ⟨rfl, rfl, rfl⟩ | with_reducible apply State.joinMove_keeps
    | with_reducible apply State.endEvac_keeps | with_reducible apply State.journalAt_keeps
    | with_reducible apply State.setEvac_keeps | with_reducible apply keeps_ite | with_reducible apply keeps_ite_fst
    | split | refine keeps_of_fst (by with_reducible assumption) ?_ | with_reducible apply keeps_upd

theorem State.startEvac_keeps {a0 : State} {a1 : Nat} {a2 : Bool} {a3 : List (Nat × Bool)} {a4 : Nat}
    (hregs : k.regs = false) (hrepair : k.repair = false) (h : Keeps k m a0) :
    Keeps k m (State.startEvac a0 a1 a2 a3 a4) := by
  unfold State.startEvac
  try dsimp only
  repeat' first
    | with_reducible assumption | with_reducible exact Or.inl ‹_› | with_reducible exact Eq.refl _
    | with_reducible exact Or.inr rfl | with_reducible exact Or.inr ⟨rfl, rfl⟩
    | with_reducible exact Or.inr ⟨rfl, rfl, rfl⟩ | with_reducible apply State.nextPage_keeps
    | with_reducible apply State.raiseEvent_keeps | with_reducible apply State.setFld_keeps
    | with_reducible apply keeps_ite | with_reducible apply keeps_ite_fst | split
    | refine keeps_of_fst (by with_reducible assumption) ?_ | with_reducible apply keeps_upd

theorem State.runDueEvac_keeps {a0 : State} (hregs : k.regs = false) (hrepair : k.repair = false) (h : Keeps k m a0) :
    Keeps k m (State.runDueEvac a0) := by
  unfold State.runDueEvac
  try dsimp only
  repeat' first
    | with_reducible assumption | with_reducible exact Or.inl ‹_› | with_reducible exact Eq.refl _
    | with_reducible exact Or.inr rfl | with_reducible exact Or.inr ⟨rfl, rfl⟩
    | with_reducible exact Or.inr ⟨rfl, rfl, rfl⟩ | with_reducible apply State.startEvac_keeps
    | with_reducible apply keeps_ite | with_reducible apply keeps_ite_fst | split
    | refine keeps_of_fst (by with_reducible assumption) ?_ | with_reducible apply keeps_upd

theorem State.doMemEvacGo_keeps {a0 : State} {a1 : Nat} (hregs : k.regs = false) (hrepair : k.repair = false)
    (h : Keeps k m a0) :
    Keeps k m (State.doMemEvacGo a0 a1) := by
  unfold State.doMemEvacGo
  try dsimp only
  repeat' first
    | with_reducible assumption | intro _ | with_reducible apply State.startEvac_keeps
    | with_reducible apply State.powered_keeps | with_reducible apply State.setFld_keeps | with_reducible apply keeps_ite

theorem State.doMemMigrateGo_keeps {a0 : State} {a1 : Nat} (hregs : k.regs = false) (hrepair : k.repair = false)
    (h : Keeps k m a0) :
    Keeps k m (State.doMemMigrateGo a0 a1) := by
  unfold State.doMemMigrateGo
  try dsimp only
  repeat' first
    | with_reducible assumption | intro _ | with_reducible apply State.startEvac_keeps
    | with_reducible apply State.powered_keeps | with_reducible apply State.setFld_keeps | with_reducible apply keeps_ite

theorem State.doEvacPageCopied_keeps {a0 : State} (hregs : k.regs = false) (hlines : k.lines = false)
    (h : Keeps k m a0) :
    Keeps k m (State.doEvacPageCopied a0) := by
  unfold State.doEvacPageCopied
  try dsimp only
  repeat' first
    | with_reducible assumption | with_reducible exact Or.inl ‹_› | with_reducible exact Eq.refl _
    | with_reducible exact Or.inr rfl | with_reducible exact Or.inr ⟨rfl, rfl⟩
    | with_reducible exact Or.inr ⟨rfl, rfl, rfl⟩ | with_reducible apply State.followMove_keeps
    | with_reducible apply State.journalAt_keeps | with_reducible apply State.setEvac_keeps
    | with_reducible apply State.copyPage_keeps | with_reducible apply State.sendReady_keeps
    | with_reducible apply State.setFld_keeps | with_reducible apply keeps_ite | with_reducible apply keeps_ite_fst | split
    | refine keeps_of_fst (by with_reducible assumption) ?_ | with_reducible apply keeps_upd

theorem State.doEvacPageDone_keeps {a0 : State} (hregs : k.regs = false) (hrepair : k.repair = false)
    (h : Keeps k m a0) :
    Keeps k m (State.doEvacPageDone a0) := by
  unfold State.doEvacPageDone
  try dsimp only
  repeat' first
    | with_reducible assumption | with_reducible apply State.nextPage_keeps | with_reducible apply State.freePool_keeps
    | with_reducible apply State.journalAt_keeps | with_reducible apply State.addSat_keeps | with_reducible apply keeps_ite
    | with_reducible apply keeps_ite_fst | split

theorem State.deliverLine_keeps {a0 : State} {a1 : Req} {a2 a3 : Nat} {a4 : Option KeySlot} {a5 : Nat}
    (hregs : k.regs = false) (hclusters : k.clusters = false) (hlines : k.lines = false) (hfab : k.fab = false)
    (hcol : k.col = false) (h : Keeps k m a0) :
    Keeps k m (State.deliverLine a0 a1 a2 a3 a4 a5).1 := by
  unfold State.deliverLine
  try dsimp only
  repeat' first
    | with_reducible assumption | with_reducible apply State.readTier_keeps | with_reducible apply State.holdBytes_keeps
    | with_reducible apply State.stepFault_keeps | with_reducible apply State.refuse_keeps
    | with_reducible apply State.addSat_keeps | with_reducible apply keeps_ite | with_reducible apply keeps_ite_fst | split

theorem State.deliverGroup_keeps {a0 : State} {a1 : Req} {a2 a3 : Nat} (hregs : k.regs = false)
    (hclusters : k.clusters = false) (hlines : k.lines = false) (hkeys : k.keys = false) (hfab : k.fab = false)
    (hcol : k.col = false) (h : Keeps k m a0) :
    Keeps k m (State.deliverGroup a0 a1 a2 a3) := by
  unfold State.deliverGroup
  try dsimp only
  repeat' first
    | with_reducible assumption | intro _ | with_reducible apply State.deliverLine_keeps
    | with_reducible apply State.keyFor_keeps | with_reducible apply keeps_ite | with_reducible apply keeps_foldl
    | with_reducible apply keeps_ite_fst | with_reducible apply keeps_foldl_fst

theorem State.answerReq_keeps {a0 : State} {a1 : Req} (hregs : k.regs = false) (hclusters : k.clusters = false)
    (hlines : k.lines = false) (hkeys : k.keys = false) (hfab : k.fab = false) (hcol : k.col = false) (h : Keeps k m a0) :
    Keeps k m (State.answerReq a0 a1) := by
  unfold State.answerReq
  try dsimp only
  repeat' first
    | with_reducible assumption | with_reducible exact Or.inl ‹_› | with_reducible exact Eq.refl _
    | with_reducible exact Or.inr rfl | with_reducible exact Or.inr ⟨rfl, rfl⟩
    | with_reducible exact Or.inr ⟨rfl, rfl, rfl⟩ | with_reducible apply State.deliverGroup_keeps
    | with_reducible apply State.finishInbound_keeps | with_reducible apply State.addSat_keeps
    | with_reducible apply keeps_ite | with_reducible apply keeps_ite_fst | split
    | refine keeps_of_fst (by with_reducible assumption) ?_ | with_reducible apply keeps_upd

theorem State.doMemGroupReceive_keeps {a0 : State} {a1 a2 : Nat} {a3 : Bool} (hregs : k.regs = false)
    (hclusters : k.clusters = false) (hlines : k.lines = false) (hkeys : k.keys = false) (hfab : k.fab = false)
    (hcol : k.col = false) (hrepair : k.repair = false) (h : Keeps k m a0) :
    Keeps k m (State.doMemGroupReceive a0 a1 a2 a3) := by
  unfold State.doMemGroupReceive
  try dsimp only
  repeat' first
    | with_reducible assumption | with_reducible exact Or.inl ‹_› | with_reducible exact Eq.refl _
    | with_reducible exact Or.inr rfl | with_reducible exact Or.inr ⟨rfl, rfl⟩
    | with_reducible exact Or.inr ⟨rfl, rfl, rfl⟩ | with_reducible apply State.answerReq_keeps
    | with_reducible apply State.runDueEvac_keeps | with_reducible apply State.retrainLane_keeps
    | with_reducible apply State.addSat_keeps | with_reducible apply keeps_ite | with_reducible apply keeps_ite_fst | split
    | refine keeps_of_fst (by with_reducible assumption) ?_ | with_reducible apply keeps_upd

theorem State.doPageFillDone_keeps {a0 : State} {a1 : Nat} (hregs : k.regs = false) (hlines : k.lines = false)
    (h : Keeps k m a0) :
    Keeps k m (State.doPageFillDone a0 a1) := by
  unfold State.doPageFillDone
  try dsimp only
  repeat' first
    | with_reducible assumption | with_reducible exact Or.inl ‹_› | with_reducible exact Eq.refl _
    | with_reducible exact Or.inr rfl | with_reducible exact Or.inr ⟨rfl, rfl⟩
    | with_reducible exact Or.inr ⟨rfl, rfl, rfl⟩ | intro _ | with_reducible apply State.releaseWaits_keeps
    | with_reducible apply State.clearPage_keeps | with_reducible apply State.missWrite_keeps
    | with_reducible apply State.emit_keeps | with_reducible apply keeps_ite | with_reducible apply keeps_foldl
    | with_reducible apply keeps_ite_fst | with_reducible apply keeps_foldl_fst | split
    | refine keeps_of_fst (by with_reducible assumption) ?_ | with_reducible apply keeps_upd

theorem State.doMirrorResyncDone_keeps {a0 : State} {a1 : Nat} (hregs : k.regs = false) (hlines : k.lines = false)
    (h : Keeps k m a0) :
    Keeps k m (State.doMirrorResyncDone a0 a1) := by
  unfold State.doMirrorResyncDone
  try dsimp only
  repeat' first
    | with_reducible assumption | with_reducible exact Or.inl ‹_› | with_reducible exact Eq.refl _
    | with_reducible exact Or.inr rfl | with_reducible exact Or.inr ⟨rfl, rfl⟩
    | with_reducible exact Or.inr ⟨rfl, rfl, rfl⟩ | intro _ | with_reducible apply State.copyPage_keeps
    | with_reducible apply State.setFld_keeps | with_reducible apply keeps_ite | with_reducible apply keeps_foldl
    | with_reducible apply keeps_ite_fst | with_reducible apply keeps_foldl_fst | split
    | refine keeps_of_fst (by with_reducible assumption) ?_ | with_reducible apply keeps_upd

theorem State.coverCopy_keeps {a0 : State} {a1 : Nat} {a2 : Nat × Bool} (h : Keeps k m a0) :
    Keeps k m (State.coverCopy a0 a1 a2).1 := by
  unfold State.coverCopy
  try dsimp only
  repeat' first
    | with_reducible assumption | with_reducible exact Or.inl ‹_› | with_reducible exact Eq.refl _
    | with_reducible exact Or.inr rfl | with_reducible exact Or.inr ⟨rfl, rfl⟩
    | with_reducible exact Or.inr ⟨rfl, rfl, rfl⟩ | with_reducible apply keeps_ite | with_reducible apply keeps_ite_fst
    | split | refine keeps_of_fst (by with_reducible assumption) ?_ | with_reducible apply keeps_upd

theorem State.coverRetired_keeps {a0 : State} (h : Keeps k m a0) :
    Keeps k m (State.coverRetired a0) := by
  unfold State.coverRetired
  try dsimp only
  repeat' first
    | with_reducible assumption | with_reducible exact Or.inl ‹_› | with_reducible exact Eq.refl _
    | with_reducible exact Or.inr rfl | with_reducible exact Or.inr ⟨rfl, rfl⟩
    | with_reducible exact Or.inr ⟨rfl, rfl, rfl⟩ | intro _ | with_reducible apply State.coverCopy_keeps
    | with_reducible apply keeps_ite | with_reducible apply keeps_foldl | with_reducible apply keeps_ite_fst
    | with_reducible apply keeps_foldl_fst | split | refine keeps_of_fst (by with_reducible assumption) ?_
    | with_reducible apply keeps_upd

theorem State.forgetMoves_keeps {a0 : State} {a1 : Nat → Bool} (h : Keeps k m a0) :
    Keeps k m (State.forgetMoves a0 a1) := by
  unfold State.forgetMoves
  try dsimp only
  repeat' first
    | with_reducible assumption | with_reducible exact Or.inl ‹_› | with_reducible exact Eq.refl _
    | with_reducible exact Or.inr rfl | with_reducible exact Or.inr ⟨rfl, rfl⟩
    | with_reducible exact Or.inr ⟨rfl, rfl, rfl⟩ | with_reducible apply keeps_ite_fst | split
    | refine keeps_of_fst (by with_reducible assumption) ?_ | with_reducible apply keeps_upd

theorem State.againEvac_keeps {a0 : State} {a1 : Nat → Bool} (hregs : k.regs = false) (hrepair : k.repair = false)
    (h : Keeps k m a0) :
    Keeps k m (State.againEvac a0 a1) := by
  unfold State.againEvac
  try dsimp only
  repeat' first
    | with_reducible assumption | with_reducible apply State.nextPage_keeps | with_reducible apply State.freePool_keeps
    | with_reducible apply State.setEvac_keeps | with_reducible apply keeps_ite | with_reducible apply keeps_ite_fst
    | split

theorem State.markStale_keeps {a0 : State} {a1 : Bool} (hregs : k.regs = false) (h : Keeps k m a0) :
    Keeps k m (State.markStale a0 a1) := by
  unfold State.markStale
  try dsimp only
  repeat' first
    | with_reducible assumption | with_reducible exact Or.inl ‹_› | with_reducible exact Eq.refl _
    | with_reducible exact Or.inr rfl | with_reducible exact Or.inr ⟨rfl, rfl⟩
    | with_reducible exact Or.inr ⟨rfl, rfl, rfl⟩ | intro _ | with_reducible apply State.setFld_keeps
    | with_reducible apply keeps_ite | with_reducible apply keeps_foldl | with_reducible apply keeps_ite_fst
    | with_reducible apply keeps_foldl_fst | split | refine keeps_of_fst (by with_reducible assumption) ?_
    | with_reducible apply keeps_upd

theorem State.setMirror_keeps {a0 : State} {a1 : Nat} (hregs : k.regs = false) (hrepair : k.repair = false)
    (h : Keeps k m a0) :
    Keeps k m (State.setMirror a0 a1) := by
  unfold State.setMirror
  try dsimp only
  repeat' first
    | with_reducible assumption | intro _ | with_reducible apply State.markStale_keeps
    | with_reducible apply State.againEvac_keeps | with_reducible apply State.forgetMoves_keeps
    | with_reducible apply State.coverRetired_keeps | with_reducible apply State.checkTiers_keeps
    | with_reducible apply State.unwrite_keeps | with_reducible apply State.setFld_keeps | with_reducible apply keeps_ite
    | with_reducible apply keeps_foldl

theorem State.doTierScrubRead_keeps {a0 : State} {a1 : Nat} (hregs : k.regs = false) (hlines : k.lines = false)
    (h : Keeps k m a0) :
    Keeps k m (State.doTierScrubRead a0 a1) := by
  unfold State.doTierScrubRead
  try dsimp only
  repeat' first
    | with_reducible assumption | with_reducible exact Or.inl ‹_› | with_reducible exact Eq.refl _
    | with_reducible exact Or.inr rfl | with_reducible exact Or.inr ⟨rfl, rfl⟩
    | with_reducible exact Or.inr ⟨rfl, rfl, rfl⟩ | with_reducible apply State.loseLine_keeps
    | with_reducible apply State.putLine_keeps | with_reducible apply State.askLine_keeps
    | with_reducible apply State.checkCopy_keeps | with_reducible apply State.countLines_keeps
    | with_reducible apply keeps_ite | with_reducible apply keeps_ite_fst | split
    | refine keeps_of_fst (by with_reducible assumption) ?_ | with_reducible apply keeps_upd

theorem State.sendHostRead_keeps {a0 : State} {a1 : HostRead} (h : Keeps k m a0) :
    Keeps k m (State.sendHostRead a0 a1) := by
  unfold State.sendHostRead
  try dsimp only
  repeat' first
    | with_reducible assumption | with_reducible exact Or.inl ‹_› | with_reducible exact Eq.refl _
    | with_reducible exact Or.inr rfl | with_reducible exact Or.inr ⟨rfl, rfl⟩
    | with_reducible exact Or.inr ⟨rfl, rfl, rfl⟩ | with_reducible apply State.emit_keeps | with_reducible apply keeps_ite
    | with_reducible apply keeps_ite_fst | split | refine keeps_of_fst (by with_reducible assumption) ?_
    | with_reducible apply keeps_upd

theorem State.sendHostReads_keeps {a0 : State} (h : Keeps k m a0) :
    Keeps k m (State.sendHostReads a0) := by
  unfold State.sendHostReads
  try dsimp only
  repeat' first
    | with_reducible assumption | intro _ | with_reducible apply State.sendHostRead_keeps | with_reducible apply keeps_ite
    | with_reducible apply keeps_foldl

theorem State.issueHostReads_keeps {a0 : State} {a1 a2 a3 a4 a5 : Nat} {a6 : Bool} {a7 : Nat} (h : Keeps k m a0) :
    Keeps k m (State.issueHostReads a0 a1 a2 a3 a4 a5 a6 a7) := by
  unfold State.issueHostReads
  try dsimp only
  repeat' first
    | with_reducible assumption | with_reducible exact Or.inl ‹_› | with_reducible exact Eq.refl _
    | with_reducible exact Or.inr rfl | with_reducible exact Or.inr ⟨rfl, rfl⟩
    | with_reducible exact Or.inr ⟨rfl, rfl, rfl⟩ | with_reducible apply State.sendHostReads_keeps
    | with_reducible apply keeps_ite_fst | split | refine keeps_of_fst (by with_reducible assumption) ?_
    | with_reducible apply keeps_upd

theorem State.issueHostWrites_keeps {a0 : State} {a1 : TlpKind} {a2 : Nat} {a3 : Bytes} (h : Keeps k m a0) :
    Keeps k m (State.issueHostWrites a0 a1 a2 a3) := by
  unfold State.issueHostWrites
  try dsimp only
  repeat' first
    | with_reducible assumption | intro _ | with_reducible apply State.postWrite_keeps | with_reducible apply keeps_foldl

theorem State.readSegs_keeps {a0 : State} {a1 : Nat} {a2 : Bool} {a3 : List (Nat × Nat)} {a4 : Nat}
    (hregs : k.regs = false) (hclusters : k.clusters = false) (hslice : k.slice = false) (hpad : k.pad = false)
    (hfab : k.fab = false) (hcol : k.col = false) (h : Keeps k m a0) :
    Keeps k m (State.readSegs a0 a1 a2 a3 a4).1 := by
  unfold State.readSegs
  try dsimp only
  repeat' first
    | with_reducible assumption | intro _ | with_reducible apply State.readChecked_keeps | with_reducible apply keeps_ite
    | with_reducible apply keeps_foldl | with_reducible apply keeps_ite_fst | with_reducible apply keeps_foldl_fst

theorem State.readRuns_keeps {a0 : State} {a1 : Nat} {a2 : Loc} {a3 a4 a5 : Nat} (hregs : k.regs = false)
    (hclusters : k.clusters = false) (hslice : k.slice = false) (hpad : k.pad = false) (hfab : k.fab = false)
    (hcol : k.col = false) (h : Keeps k m a0) :
    Keeps k m (State.readRuns a0 a1 a2 a3 a4 a5).1 := by
  unfold State.readRuns
  try dsimp only
  repeat' first
    | with_reducible assumption | with_reducible apply State.readSegs_keeps | with_reducible apply keeps_ite
    | with_reducible apply keeps_ite_fst | split

theorem State.readLoc_keeps {a0 : State} {a1 : Nat} {a2 : Loc} {a3 : Nat} (hregs : k.regs = false)
    (hclusters : k.clusters = false) (hslice : k.slice = false) (hpad : k.pad = false) (hfab : k.fab = false)
    (hcol : k.col = false) (h : Keeps k m a0) :
    Keeps k m (State.readLoc a0 a1 a2 a3).1 := by
  unfold State.readLoc
  try dsimp only
  repeat' first
    | with_reducible assumption | with_reducible apply State.readRuns_keeps

theorem State.readValues_keeps {a0 : State} {a1 : Nat} {a2 a3 : Loc} {a4 : Fmt} {a5 : Nat} (hregs : k.regs = false)
    (hclusters : k.clusters = false) (hslice : k.slice = false) (hpad : k.pad = false) (hfab : k.fab = false)
    (hcol : k.col = false) (h : Keeps k m a0) :
    Keeps k m (State.readValues a0 a1 a2 a3 a4 a5).1 := by
  unfold State.readValues
  try dsimp only
  repeat' first
    | with_reducible assumption | with_reducible apply State.readLoc_keeps | with_reducible apply keeps_ite
    | with_reducible apply keeps_ite_fst | split | refine keeps_of_fst (by with_reducible assumption) ?_

theorem State.writeLoc_keeps {a0 : State} {a1 : Nat} {a2 : Loc} {a3 : Bytes} (hregs : k.regs = false)
    (hclusters : k.clusters = false) (hslice : k.slice = false) (hpad : k.pad = false) (h : Keeps k m a0) :
    Keeps k m (State.writeLoc a0 a1 a2 a3) := by
  unfold State.writeLoc
  try dsimp only
  repeat' first
    | with_reducible assumption | with_reducible apply State.writeRuns_keeps | with_reducible apply keeps_ite
    | with_reducible apply keeps_ite_fst | split

theorem State.mergeLoc_keeps {a0 : State} {a1 : Nat} {a2 : Loc} {a3 : Nat} {a4 : Bytes} (hregs : k.regs = false)
    (hclusters : k.clusters = false) (hslice : k.slice = false) (hpad : k.pad = false) (hfab : k.fab = false)
    (hcol : k.col = false) (h : Keeps k m a0) :
    Keeps k m (State.mergeLoc a0 a1 a2 a3 a4) := by
  unfold State.mergeLoc
  try dsimp only
  repeat' first
    | with_reducible assumption | with_reducible apply State.mergeScales_keeps | with_reducible apply keeps_ite
    | with_reducible apply keeps_ite_fst | split

theorem State.adderCheck_keeps {a0 : State} {a1 : Nat} (hregs : k.regs = false) (hclusters : k.clusters = false) (hfab : k.fab = false) (hcol : k.col = false) (h : Keeps k m a0) :
    ∀ t, State.adderCheck a0 a1 = some t → Keeps k m t := by
  intro t e
  unfold State.adderCheck at e
  split at e
  · cases e
    repeat' first
      | with_reducible assumption
      | with_reducible apply State.residueFault_keeps
      | with_reducible apply State.setClu_keeps
  · cases e

theorem State.winKey_keeps {a0 : State} {a1 : Reach} (hregs : k.regs = false) (hkeys : k.keys = false)
    (h : Keeps k m a0) :
    Keeps k m (State.winKey a0 a1).1 := by
  unfold State.winKey
  try dsimp only
  repeat' first
    | with_reducible assumption | with_reducible apply State.keyFor_keeps | with_reducible apply keeps_ite
    | with_reducible apply keeps_ite_fst | split | refine keeps_of_fst (by with_reducible assumption) ?_

theorem State.tierWrite_keeps {a0 : State} {a1 : Owner} {a2 : Reach} {a3 : Option KeySlot} {a4 : Nat} {a5 : Bytes}
    (hregs : k.regs = false) (hlines : k.lines = false) (h : Keeps k m a0) :
    Keeps k m (State.tierWrite a0 a1 a2 a3 a4 a5) := by
  unfold State.tierWrite
  try dsimp only
  repeat' first
    | with_reducible assumption | intro _ | with_reducible apply State.issueWrite_keeps | with_reducible apply keeps_foldl

theorem State.tierRead_keeps {a0 : State} {a1 a2 : Nat} {a3 : Reach} {a4 a5 : Nat} {a6 : Bool} {a7 : Nat}
    (h : Keeps k m a0) :
    Keeps k m (State.tierRead a0 a1 a2 a3 a4 a5 a6 a7) := by
  unfold State.tierRead
  try dsimp only
  repeat' first
    | with_reducible assumption | intro _ | with_reducible apply State.issueRead_keeps | with_reducible apply keeps_foldl

theorem State.remoteWrite_keeps {a0 : State} {a1 a2 : Nat} {a3 : Reach} {a4 : Nat} {a5 : Bytes}
    (hregs : k.regs = false) (hfab : k.fab = false) (h : Keeps k m a0) :
    Keeps k m (State.remoteWrite a0 a1 a2 a3 a4 a5) := by
  unfold State.remoteWrite
  try dsimp only
  repeat' first
    | with_reducible assumption | intro _ | with_reducible apply State.inject_keeps | with_reducible apply keeps_foldl

theorem State.barrowIn_keeps {a0 : State} {a1 : Nat} {a2 : Desc} {a3 : Reach} {a4 : Nat} (hregs : k.regs = false)
    (hclusters : k.clusters = false) (hkeys : k.keys = false) (hfab : k.fab = false) (hcol : k.col = false)
    (h : Keeps k m a0) :
    Keeps k m (State.barrowIn a0 a1 a2 a3 a4) := by
  unfold State.barrowIn
  try dsimp only
  repeat' first
    | with_reducible assumption | with_reducible apply State.tierRead_keeps | with_reducible apply State.winKey_keeps
    | with_reducible apply State.issueHostReads_keeps | with_reducible apply State.refuse_keeps
    | with_reducible apply keeps_ite | with_reducible apply keeps_ite_fst | split
    | refine keeps_of_fst (by with_reducible assumption) ?_

theorem State.noteWrote_keeps {a0 : State} {a1 a2 a3 : Nat} (h : Keeps k m a0) :
    Keeps k m (State.noteWrote a0 a1 a2 a3) := by
  unfold State.noteWrote
  try dsimp only
  repeat' first
    | with_reducible assumption | with_reducible apply State.putStep_keeps | with_reducible apply keeps_ite
    | with_reducible apply keeps_ite_fst | split

theorem State.barrowOut_keeps {a0 : State} {a1 : Nat} {a2 : Desc} {a3 : Reach} {a4 : Nat} (hregs : k.regs = false)
    (hclusters : k.clusters = false) (hslice : k.slice = false) (hpad : k.pad = false) (hlines : k.lines = false)
    (hkeys : k.keys = false) (hfab : k.fab = false) (hcol : k.col = false) (h : Keeps k m a0) :
    Keeps k m (State.barrowOut a0 a1 a2 a3 a4) := by
  unfold State.barrowOut
  try dsimp only
  repeat' first
    | with_reducible assumption | with_reducible apply State.noteWrote_keeps | with_reducible apply State.remoteWrite_keeps
    | with_reducible apply State.tierWrite_keeps | with_reducible apply State.winKey_keeps
    | with_reducible apply State.readLoc_keeps | with_reducible apply State.issueHostWrites_keeps
    | with_reducible apply State.replayStep_keeps | with_reducible apply State.refuse_keeps
    | with_reducible apply keeps_ite | with_reducible apply keeps_ite_fst | split
    | refine keeps_of_fst (by with_reducible assumption) ?_

theorem State.effBarrow_keeps {a0 : State} {a1 : Nat} {a2 : Desc} (hregs : k.regs = false)
    (hclusters : k.clusters = false) (hslice : k.slice = false) (hpad : k.pad = false) (hlines : k.lines = false)
    (hkeys : k.keys = false) (hfab : k.fab = false) (hcol : k.col = false) (h : Keeps k m a0) :
    Keeps k m (State.effBarrow a0 a1 a2) := by
  unfold State.effBarrow
  try dsimp only
  repeat' first
    | with_reducible assumption | with_reducible apply State.barrowOut_keeps | with_reducible apply State.barrowIn_keeps
    | with_reducible apply State.refuse_keeps | with_reducible apply keeps_ite | with_reducible apply keeps_ite_fst | split

theorem State.effLmove_keeps {a0 : State} {a1 : Nat} {a2 : Desc} (hregs : k.regs = false)
    (hclusters : k.clusters = false) (hslice : k.slice = false) (hpad : k.pad = false) (hfab : k.fab = false)
    (hcol : k.col = false) (h : Keeps k m a0) :
    Keeps k m (State.effLmove a0 a1 a2) := by
  unfold State.effLmove
  try dsimp only
  repeat' first
    | with_reducible assumption | with_reducible apply State.readLoc_keeps | with_reducible apply State.barrowLoc_keeps
    | with_reducible apply keeps_ite | with_reducible apply keeps_ite_fst | split
    | refine keeps_of_fst (by with_reducible assumption) ?_

theorem State.effTmovePull_keeps {a0 : State} {a1 : Nat} {a2 : Desc} (hregs : k.regs = false)
    (hclusters : k.clusters = false) (hslice : k.slice = false) (hpad : k.pad = false) (hfab : k.fab = false)
    (hcol : k.col = false) (h : Keeps k m a0) :
    Keeps k m (State.effTmovePull a0 a1 a2) := by
  unfold State.effTmovePull
  try dsimp only
  repeat' first
    | with_reducible assumption | with_reducible apply State.readSegs_keeps | with_reducible apply State.barrowLoc_keeps
    | with_reducible apply keeps_ite | with_reducible apply keeps_ite_fst | split
    | refine keeps_of_fst (by with_reducible assumption) ?_

theorem State.effTmovePush_keeps {a0 : State} {a1 : Nat} {a2 : Desc} (hregs : k.regs = false)
    (hclusters : k.clusters = false) (hslice : k.slice = false) (hpad : k.pad = false) (hfab : k.fab = false)
    (hcol : k.col = false) (h : Keeps k m a0) :
    Keeps k m (State.effTmovePush a0 a1 a2) := by
  unfold State.effTmovePush
  try dsimp only
  repeat' first
    | with_reducible assumption | with_reducible apply State.readLoc_keeps | with_reducible apply State.barrowWrite_keeps
    | with_reducible apply keeps_ite | with_reducible apply keeps_ite_fst | split
    | refine keeps_of_fst (by with_reducible assumption) ?_

end Sys2Proof.Machine
end

