-- ==== Sys2Proof/Laws/KeepsFabric.lean ====
section
/-! SUPPORT. What the operations leave alone: one lemma per operation of the fabric and the collectives. -/

namespace Sys2Proof.Machine

open Sys2Proof.Safety

variable {k : Kept} {m : State}

theorem State.showFabric_keeps {a0 : State} (hregs : k.regs = false) (h : Keeps k m a0) :
    Keeps k m (State.showFabric a0) := by
  unfold State.showFabric
  try dsimp only
  repeat' first
    | with_reducible assumption | intro _ | with_reducible apply State.raiseEvent_keeps
    | with_reducible apply State.setFld_keeps | with_reducible apply keeps_ite

theorem State.sendFrame_keeps {a0 : State} {a1 : Nat} {a2 : Bool} (hfab : k.fab = false) (h : Keeps k m a0) :
    Keeps k m (State.sendFrame a0 a1 a2) := by
  unfold State.sendFrame
  try dsimp only
  repeat' first
    | with_reducible assumption | with_reducible exact Or.inl ‹_› | with_reducible exact Eq.refl _
    | with_reducible exact Or.inr rfl | with_reducible exact Or.inr ⟨rfl, rfl⟩
    | with_reducible exact Or.inr ⟨rfl, rfl, rfl⟩ | with_reducible apply State.setPort_keeps
    | with_reducible apply State.emit_keeps | with_reducible apply keeps_ite | with_reducible apply keeps_ite_fst | split
    | refine keeps_of_fst (by with_reducible assumption) ?_ | with_reducible apply keeps_upd

theorem State.sendFull_keeps {a0 : State} {a1 : Nat} (hfab : k.fab = false) (h : Keeps k m a0) :
    Keeps k m (State.sendFull a0 a1) := by
  unfold State.sendFull
  try dsimp only
  repeat' first
    | with_reducible assumption | with_reducible apply State.sendFrame_keeps | with_reducible apply keeps_ite

theorem State.fillSlot_keeps {a0 : State} {a1 a2 : Nat} {a3 : Bytes} (hfab : k.fab = false) (h : Keeps k m a0) :
    Keeps k m (State.fillSlot a0 a1 a2 a3) := by
  unfold State.fillSlot
  try dsimp only
  repeat' first
    | with_reducible assumption | with_reducible apply State.sendFull_keeps | with_reducible apply State.setPort_keeps

theorem State.pushCtrl_keeps {a0 : State} {a1 : Nat} (hfab : k.fab = false) (h : Keeps k m a0) :
    Keeps k m (State.pushCtrl a0 a1) := by
  unfold State.pushCtrl
  try dsimp only
  repeat' first
    | with_reducible assumption | with_reducible apply State.fillSlot_keeps | with_reducible apply State.setPort_keeps
    | with_reducible apply keeps_ite | with_reducible apply keeps_ite_fst | split

theorem State.sendCtrl_keeps {a0 : State} {a1 : Nat} {a2 : CtrlMsg} (hfab : k.fab = false) (h : Keeps k m a0) :
    Keeps k m (State.sendCtrl a0 a1 a2) := by
  unfold State.sendCtrl
  try dsimp only
  repeat' first
    | with_reducible assumption | with_reducible apply State.pushCtrl_keeps | with_reducible apply State.setPort_keeps
    | with_reducible apply State.emit_keeps | with_reducible apply keeps_ite

theorem State.oweCtrl_keeps {a0 : State} {a1 : Nat} (hfab : k.fab = false) (h : Keeps k m a0) :
    Keeps k m (State.oweCtrl a0 a1) := by
  unfold State.oweCtrl
  try dsimp only
  repeat' first
    | with_reducible assumption | with_reducible apply State.oweCredit_keeps | with_reducible apply keeps_ite

theorem State.showCircuits_keeps {a0 : State} {a1 : Nat} (hregs : k.regs = false) (h : Keeps k m a0) :
    Keeps k m (State.showCircuits a0 a1) := by
  unfold State.showCircuits
  try dsimp only
  repeat' first
    | with_reducible assumption | with_reducible apply State.setFld_keeps | with_reducible apply keeps_ite

theorem State.reserve_keeps {a0 : State} {a1 a2 a3 a4 a5 a6 : Nat} (hregs : k.regs = false) (hfab : k.fab = false)
    (h : Keeps k m a0) :
    Keeps k m (State.reserve a0 a1 a2 a3 a4 a5 a6).1 := by
  unfold State.reserve
  try dsimp only
  repeat' first
    | with_reducible assumption | with_reducible exact Or.inl ‹_› | with_reducible exact Eq.refl _
    | with_reducible exact Or.inr rfl | with_reducible exact Or.inr ⟨rfl, rfl⟩
    | with_reducible exact Or.inr ⟨rfl, rfl, rfl⟩ | intro _ | with_reducible apply State.showCircuits_keeps
    | with_reducible apply keeps_ite | with_reducible apply keeps_foldl | with_reducible apply keeps_ite_fst
    | with_reducible apply keeps_foldl_fst | split | refine keeps_of_fst (by with_reducible assumption) ?_
    | with_reducible apply keeps_upd

theorem State.releasePacket_keeps {a0 a1 : State} {a2 : CircSlot} {a3 : OutPkt} (hregs : k.regs = false)
    (hfab : k.fab = false) (h : Keeps k m a1) :
    Keeps k m (State.releasePacket a0 a1 a2 a3) := by
  unfold State.releasePacket
  repeat' first
    | with_reducible assumption | with_reducible apply State.routePacket_keeps | with_reducible apply State.oweCredit_keeps
    | with_reducible apply State.putOut_keeps | with_reducible apply State.setPort_keeps | with_reducible apply keeps_ite

theorem State.releaseSlots_keeps {a0 : State} {a1 : CircSlot → Bool} (hregs : k.regs = false) (hfab : k.fab = false)
    (h : Keeps k m a0) :
    Keeps k m (State.releaseSlots a0 a1) := by
  unfold State.releaseSlots
  try dsimp only
  repeat' first
    | with_reducible assumption | with_reducible exact Or.inl ‹_› | with_reducible exact Eq.refl _
    | with_reducible exact Or.inr rfl | with_reducible exact Or.inr ⟨rfl, rfl⟩
    | with_reducible exact Or.inr ⟨rfl, rfl, rfl⟩ | intro _ | with_reducible apply State.releasePacket_keeps
    | with_reducible apply State.showCircuits_keeps | with_reducible apply keeps_ite | with_reducible apply keeps_foldl
    | with_reducible apply keeps_ite_fst | with_reducible apply keeps_foldl_fst | split
    | refine keeps_of_fst (by with_reducible assumption) ?_ | with_reducible apply keeps_upd

theorem State.failCircuit_keeps {a0 : State} {a1 a2 : Nat} (hregs : k.regs = false) (hfab : k.fab = false)
    (h : Keeps k m a0) :
    Keeps k m (State.failCircuit a0 a1 a2) := by
  unfold State.failCircuit
  try dsimp only
  repeat' first
    | with_reducible assumption | intro _ | with_reducible apply State.releaseSlots_keeps
    | with_reducible apply State.setFld_keeps

theorem State.idleCircuit_keeps {a0 : State} {a1 : Nat} (hregs : k.regs = false) (h : Keeps k m a0) :
    Keeps k m (State.idleCircuit a0 a1) := by
  unfold State.idleCircuit
  try dsimp only
  repeat' first
    | with_reducible assumption | with_reducible apply State.setFld_keeps

theorem State.sendCirc_keeps {a0 : State} {a1 a2 : Nat} (hregs : k.regs = false) (hfab : k.fab = false)
    (h : Keeps k m a0) :
    Keeps k m (State.sendCirc a0 a1 a2) := by
  unfold State.sendCirc
  try dsimp only
  repeat' first
    | with_reducible assumption | with_reducible apply State.inject_keeps

theorem State.sendCircBack_keeps {a0 : State} {a1 a2 : Nat} (hregs : k.regs = false) (hfab : k.fab = false)
    (h : Keeps k m a0) :
    Keeps k m (State.sendCircBack a0 a1 a2) := by
  unfold State.sendCircBack
  try dsimp only
  repeat' first
    | with_reducible assumption | with_reducible apply State.inject_keeps

theorem State.dropCircuits_keeps {a0 : State} {a1 a2 : Nat} (hregs : k.regs = false) (hfab : k.fab = false)
    (h : Keeps k m a0) :
    Keeps k m (State.dropCircuits a0 a1 a2) := by
  unfold State.dropCircuits
  try dsimp only
  repeat' first
    | with_reducible assumption | intro _ | with_reducible apply State.sendCircBack_keeps
    | with_reducible apply State.sendCirc_keeps | with_reducible apply State.failCircuit_keeps
    | with_reducible apply State.releaseSlots_keeps | with_reducible apply keeps_ite | with_reducible apply keeps_foldl

theorem State.loseColl_keeps {a0 : State} {a1 : Coll} (hregs : k.regs = false) (hclusters : k.clusters = false)
    (hfab : k.fab = false) (hcol : k.col = false) (h : Keeps k m a0) :
    Keeps k m (State.loseColl a0 a1) := by
  unfold State.loseColl
  try dsimp only
  repeat' first
    | with_reducible assumption | with_reducible apply State.replayStep_keeps | with_reducible apply State.endColl_keeps
    | with_reducible apply keeps_ite

theorem State.rerouteHeads_keeps {a0 : State} {a1 : Nat} (hregs : k.regs = false) (hfab : k.fab = false)
    (h : Keeps k m a0) :
    Keeps k m (State.rerouteHeads a0 a1) := by
  unfold State.rerouteHeads
  try dsimp only
  repeat' first
    | with_reducible assumption | with_reducible exact Or.inl ‹_› | with_reducible exact Eq.refl _
    | with_reducible exact Or.inr rfl | with_reducible exact Or.inr ⟨rfl, rfl⟩
    | with_reducible exact Or.inr ⟨rfl, rfl, rfl⟩ | intro _ | with_reducible apply State.routePacket_keeps
    | with_reducible apply keeps_foldl | with_reducible apply keeps_ite_fst | with_reducible apply keeps_foldl_fst | split
    | refine keeps_of_fst (by with_reducible assumption) ?_ | with_reducible apply keeps_upd

theorem State.forgetOwed_keeps {a0 : State} {a1 : Nat} (hfab : k.fab = false) (h : Keeps k m a0) :
    Keeps k m (State.forgetOwed a0 a1) := by
  unfold State.forgetOwed
  try dsimp only
  repeat' first
    | with_reducible assumption | with_reducible exact Or.inl ‹_› | with_reducible exact Eq.refl _
    | with_reducible exact Or.inr rfl | with_reducible exact Or.inr ⟨rfl, rfl⟩
    | with_reducible exact Or.inr ⟨rfl, rfl, rfl⟩ | with_reducible apply keeps_ite_fst | split
    | refine keeps_of_fst (by with_reducible assumption) ?_ | with_reducible apply keeps_upd

theorem State.dropHeld_keeps {a0 : State} {a1 : OutPkt × Nat} (hregs : k.regs = false) (hfab : k.fab = false)
    (h : Keeps k m a0) :
    Keeps k m (State.dropHeld a0 a1) := by
  unfold State.dropHeld
  try dsimp only
  repeat' first
    | with_reducible assumption | with_reducible apply State.routePacket_keeps | with_reducible apply State.oweCredit_keeps
    | with_reducible apply keeps_ite

theorem State.portDown_keeps {a0 : State} {a1 a2 : Nat} (hregs : k.regs = false) (hclusters : k.clusters = false)
    (hfab : k.fab = false) (hcol : k.col = false) (h : Keeps k m a0) :
    Keeps k m (State.portDown a0 a1 a2) := by
  unfold State.portDown
  try dsimp only
  repeat' first
    | with_reducible assumption | intro _ | with_reducible apply State.dropHeld_keeps
    | with_reducible apply State.forgetOwed_keeps | with_reducible apply State.rerouteHeads_keeps
    | with_reducible apply State.loseColl_keeps | with_reducible apply State.dropCircuits_keeps
    | with_reducible apply State.showFabric_keeps | with_reducible apply State.setPort_keeps
    | with_reducible apply State.raiseEvent_keeps | with_reducible apply State.setFld_keeps
    | with_reducible apply keeps_ite | with_reducible apply keeps_foldl

theorem State.seeLight_keeps {a0 : State} {a1 : Nat} {a2 : Bool} (hregs : k.regs = false) (hfab : k.fab = false)
    (h : Keeps k m a0) :
    Keeps k m (State.seeLight a0 a1 a2) := by
  unfold State.seeLight
  try dsimp only
  repeat' first
    | with_reducible assumption | with_reducible apply State.setPort_keeps | with_reducible apply State.setFld_keeps
    | with_reducible apply keeps_ite

theorem State.doPortLossOfLight_keeps {a0 : State} {a1 : Nat} (hregs : k.regs = false) (hclusters : k.clusters = false)
    (hfab : k.fab = false) (hcol : k.col = false) (h : Keeps k m a0) :
    Keeps k m (State.doPortLossOfLight a0 a1) := by
  unfold State.doPortLossOfLight
  try dsimp only
  repeat' first
    | with_reducible assumption | with_reducible apply State.seeLight_keeps | with_reducible apply State.portDown_keeps
    | with_reducible apply State.setPort_keeps | with_reducible apply keeps_ite

theorem State.doResetNotice_keeps {a0 : State} {a1 a2 : Nat} (hregs : k.regs = false) (hclusters : k.clusters = false)
    (hfab : k.fab = false) (hcol : k.col = false) (h : Keeps k m a0) :
    Keeps k m (State.doResetNotice a0 a1 a2) := by
  unfold State.doResetNotice
  try dsimp only
  repeat' first
    | with_reducible assumption | with_reducible apply State.portDown_keeps | with_reducible apply State.setPort_keeps
    | with_reducible apply State.addSat_keeps | with_reducible apply keeps_ite

theorem State.doPortDark_keeps {a0 : State} {a1 : Nat} (hregs : k.regs = false) (hclusters : k.clusters = false)
    (hfab : k.fab = false) (hcol : k.col = false) (h : Keeps k m a0) :
    Keeps k m (State.doPortDark a0 a1) := by
  unfold State.doPortDark
  try dsimp only
  repeat' first
    | with_reducible assumption | with_reducible apply State.portDown_keeps | with_reducible apply State.setPort_keeps
    | with_reducible apply keeps_ite

theorem State.dueRetrain_keeps {a0 : State} {a1 a2 : Nat} (hfab : k.fab = false) (h : Keeps k m a0) :
    Keeps k m (State.dueRetrain a0 a1 a2) := by
  unfold State.dueRetrain
  try dsimp only
  repeat' first
    | with_reducible assumption | with_reducible apply State.setPort_keeps

theorem State.sendHello_keeps {a0 : State} {a1 : Nat} (hfab : k.fab = false) (h : Keeps k m a0) :
    Keeps k m (State.sendHello a0 a1) := by
  unfold State.sendHello
  try dsimp only
  repeat' first
    | with_reducible assumption | with_reducible apply State.sendCtrl_keeps

theorem State.beginRetrain_keeps {a0 : State} {a1 a2 : Nat} (hregs : k.regs = false) (hclusters : k.clusters = false)
    (hfab : k.fab = false) (hcol : k.col = false) (h : Keeps k m a0) :
    Keeps k m (State.beginRetrain a0 a1 a2) := by
  unfold State.beginRetrain
  try dsimp only
  repeat' first
    | with_reducible assumption | intro _ | with_reducible apply State.sendHello_keeps
    | with_reducible apply State.portDown_keeps | with_reducible apply State.sendCtrl_keeps
    | with_reducible apply State.showFabric_keeps | with_reducible apply State.setPort_keeps
    | with_reducible apply State.resetArbs_keeps | with_reducible apply State.addWrap_keeps
    | with_reducible apply State.addSat_keeps | with_reducible apply State.setFld_keeps | with_reducible apply keeps_ite

theorem State.doPortRetrain_keeps {a0 : State} {a1 : Nat} (hregs : k.regs = false) (hclusters : k.clusters = false)
    (hfab : k.fab = false) (hcol : k.col = false) (h : Keeps k m a0) :
    Keeps k m (State.doPortRetrain a0 a1) := by
  unfold State.doPortRetrain
  try dsimp only
  repeat' first
    | with_reducible assumption | with_reducible apply State.beginRetrain_keeps | with_reducible apply keeps_ite
    | with_reducible apply keeps_ite_fst | split

theorem State.doFabPortRetrain_keeps {a0 : State} {a1 : Nat} (hregs : k.regs = false) (hfab : k.fab = false)
    (h : Keeps k m a0) :
    Keeps k m (State.doFabPortRetrain a0 a1) := by
  unfold State.doFabPortRetrain
  try dsimp only
  repeat' first
    | with_reducible assumption | intro _ | with_reducible apply State.dueRetrain_keeps
    | with_reducible apply State.powered_keeps | with_reducible apply State.setFld_keeps | with_reducible apply keeps_ite

theorem State.doPortRetryTimer_keeps {a0 : State} {a1 : Nat} (hregs : k.regs = false) (hclusters : k.clusters = false)
    (hfab : k.fab = false) (hcol : k.col = false) (h : Keeps k m a0) :
    Keeps k m (State.doPortRetryTimer a0 a1) := by
  unfold State.doPortRetryTimer
  try dsimp only
  repeat' first
    | with_reducible assumption | with_reducible apply State.beginRetrain_keeps | with_reducible apply keeps_ite

theorem State.doLightReturns_keeps {a0 : State} {a1 : Nat} (hregs : k.regs = false) (hclusters : k.clusters = false)
    (hfab : k.fab = false) (hcol : k.col = false) (h : Keeps k m a0) :
    Keeps k m (State.doLightReturns a0 a1) := by
  unfold State.doLightReturns
  try dsimp only
  repeat' first
    | with_reducible assumption | with_reducible apply State.beginRetrain_keeps | with_reducible apply State.seeLight_keeps
    | with_reducible apply keeps_ite

theorem State.showPortWidth_keeps {a0 : State} {a1 : Nat} (hregs : k.regs = false) (h : Keeps k m a0) :
    Keeps k m (State.showPortWidth a0 a1) := by
  unfold State.showPortWidth
  try dsimp only
  repeat' first
    | with_reducible assumption | with_reducible apply State.setFld_keeps

theorem State.portReady_keeps {a0 : State} {a1 : Nat} (hregs : k.regs = false) (hfab : k.fab = false)
    (h : Keeps k m a0) :
    Keeps k m (State.portReady a0 a1) := by
  unfold State.portReady
  try dsimp only
  repeat' first
    | with_reducible assumption | with_reducible apply State.showPortWidth_keeps
    | with_reducible apply State.showFabric_keeps | with_reducible apply State.startWaiting_keeps
    | with_reducible apply State.setPort_keeps | with_reducible apply State.setFld_keeps

theorem State.doPortUp_keeps {a0 : State} {a1 : Nat} (hregs : k.regs = false) (hfab : k.fab = false) (h : Keeps k m a0)
    :
    Keeps k m (State.doPortUp a0 a1) := by
  unfold State.doPortUp
  try dsimp only
  repeat' first
    | with_reducible assumption | with_reducible apply State.portReady_keeps | with_reducible apply keeps_ite

theorem State.doHello_keeps {a0 : State} {a1 : Nat} {a2 : HelloMsg} (hregs : k.regs = false) (hfab : k.fab = false)
    (h : Keeps k m a0) :
    Keeps k m (State.doHello a0 a1 a2) := by
  unfold State.doHello
  try dsimp only
  repeat' first
    | with_reducible assumption | with_reducible apply State.portReady_keeps | with_reducible apply State.sendHello_keeps
    | with_reducible apply State.seeLight_keeps | with_reducible apply State.sendCtrl_keeps
    | with_reducible apply State.showFabric_keeps | with_reducible apply State.setPort_keeps
    | with_reducible apply State.setFld_keeps | with_reducible apply keeps_ite

theorem State.discoverPort_keeps {a0 : State} {a1 : Nat} (hregs : k.regs = false) (hclusters : k.clusters = false)
    (hfab : k.fab = false) (hcol : k.col = false) (h : Keeps k m a0) :
    Keeps k m (State.discoverPort a0 a1) := by
  unfold State.discoverPort
  try dsimp only
  repeat' first
    | with_reducible assumption | with_reducible apply State.sendHello_keeps | with_reducible apply State.portDown_keeps
    | with_reducible apply State.sendCtrl_keeps | with_reducible apply State.setPort_keeps
    | with_reducible apply State.addWrap_keeps | with_reducible apply State.addSat_keeps
    | with_reducible apply State.setFld_keeps | with_reducible apply keeps_ite

theorem State.beginDiscovery_keeps {a0 : State} {a1 : Bool} (hregs : k.regs = false) (hclusters : k.clusters = false)
    (hfab : k.fab = false) (hcol : k.col = false) (h : Keeps k m a0) :
    Keeps k m (State.beginDiscovery a0 a1) := by
  unfold State.beginDiscovery
  try dsimp only
  repeat' first
    | with_reducible assumption | with_reducible exact Or.inl ‹_› | with_reducible exact Eq.refl _
    | with_reducible exact Or.inr rfl | with_reducible exact Or.inr ⟨rfl, rfl⟩
    | with_reducible exact Or.inr ⟨rfl, rfl, rfl⟩ | intro _ | with_reducible apply State.discoverPort_keeps
    | with_reducible apply State.portDown_keeps | with_reducible apply State.showFabric_keeps
    | with_reducible apply State.setFld_keeps | with_reducible apply keeps_ite | with_reducible apply keeps_foldl
    | with_reducible apply keeps_ite_fst | with_reducible apply keeps_foldl_fst | split
    | refine keeps_of_fst (by with_reducible assumption) ?_ | with_reducible apply keeps_upd

theorem State.setFabHeld_keeps {a0 : State} {a1 : Bool} (hregs : k.regs = false) (h : Keeps k m a0) :
    Keeps k m (State.setFabHeld a0 a1) := by
  unfold State.setFabHeld
  try dsimp only
  repeat' first
    | with_reducible assumption | with_reducible apply State.setFld_keeps

theorem State.failRemote_keeps {a0 : State} (hregs : k.regs = false) (hclusters : k.clusters = false)
    (hfab : k.fab = false) (hcol : k.col = false) (h : Keeps k m a0) :
    Keeps k m (State.failRemote a0) := by
  unfold State.failRemote
  try dsimp only
  repeat' first
    | with_reducible assumption | with_reducible exact Or.inl ‹_› | with_reducible exact Eq.refl _
    | with_reducible exact Or.inr rfl | with_reducible exact Or.inr ⟨rfl, rfl⟩
    | with_reducible exact Or.inr ⟨rfl, rfl, rfl⟩ | intro _ | with_reducible apply State.loseColl_keeps
    | with_reducible apply State.replayStep_keeps | with_reducible apply keeps_ite | with_reducible apply keeps_foldl
    | with_reducible apply keeps_ite_fst | with_reducible apply keeps_foldl_fst | split
    | refine keeps_of_fst (by with_reducible assumption) ?_ | with_reducible apply keeps_upd

theorem State.holdFabric_keeps {a0 : State} (hregs : k.regs = false) (hclusters : k.clusters = false)
    (hfab : k.fab = false) (hcol : k.col = false) (h : Keeps k m a0) :
    Keeps k m (State.holdFabric a0) := by
  unfold State.holdFabric
  try dsimp only
  repeat' first
    | with_reducible assumption | with_reducible apply State.failRemote_keeps | with_reducible apply State.setFabHeld_keeps
    | with_reducible apply State.showFabric_keeps | with_reducible apply State.setFld_keeps

theorem State.startFabric_keeps {a0 : State} (hregs : k.regs = false) (hclusters : k.clusters = false)
    (hfab : k.fab = false) (hcol : k.col = false) (h : Keeps k m a0) :
    Keeps k m (State.startFabric a0) := by
  unfold State.startFabric
  try dsimp only
  repeat' first
    | with_reducible assumption | with_reducible exact Or.inl ‹_› | with_reducible exact Eq.refl _
    | with_reducible exact Or.inr rfl | with_reducible exact Or.inr ⟨rfl, rfl⟩
    | with_reducible exact Or.inr ⟨rfl, rfl, rfl⟩ | intro _ | with_reducible apply State.holdFabric_keeps
    | with_reducible apply State.beginDiscovery_keeps | with_reducible apply State.portDown_keeps
    | with_reducible apply State.raiseEvent_keeps | with_reducible apply State.setFld_keeps
    | with_reducible apply keeps_ite | with_reducible apply keeps_foldl | with_reducible apply keeps_ite_fst
    | with_reducible apply keeps_foldl_fst | split | refine keeps_of_fst (by with_reducible assumption) ?_
    | with_reducible apply keeps_upd

theorem State.doDiscoveryEnd_keeps {a0 : State} (hregs : k.regs = false) (hclusters : k.clusters = false)
    (hfab : k.fab = false) (hcol : k.col = false) (h : Keeps k m a0) :
    Keeps k m (State.doDiscoveryEnd a0) := by
  unfold State.doDiscoveryEnd
  try dsimp only
  repeat' first
    | with_reducible assumption | with_reducible exact Or.inl ‹_› | with_reducible exact Eq.refl _
    | with_reducible exact Or.inr rfl | with_reducible exact Or.inr ⟨rfl, rfl⟩
    | with_reducible exact Or.inr ⟨rfl, rfl, rfl⟩ | with_reducible apply State.holdFabric_keeps
    | with_reducible apply State.setFabHeld_keeps | with_reducible apply State.showFabric_keeps
    | with_reducible apply State.startWaiting_keeps | with_reducible apply State.raiseEvent_keeps
    | with_reducible apply State.setFld_keeps | with_reducible apply keeps_ite | with_reducible apply keeps_ite_fst | split
    | refine keeps_of_fst (by with_reducible assumption) ?_ | with_reducible apply keeps_upd

theorem State.doResume_keeps {a0 : State} (hregs : k.regs = false) (hclusters : k.clusters = false)
    (hfab : k.fab = false) (hcol : k.col = false) (h : Keeps k m a0) :
    Keeps k m (State.doResume a0) := by
  unfold State.doResume
  try dsimp only
  repeat' first
    | with_reducible assumption | intro _ | with_reducible apply State.beginDiscovery_keeps
    | with_reducible apply State.powered_keeps | with_reducible apply State.setFld_keeps | with_reducible apply keeps_ite

theorem State.holdLane_keeps {a0 : State} {a1 a2 : Nat} {a3 : Bool} (hfab : k.fab = false) (h : Keeps k m a0) :
    Keeps k m (State.holdLane a0 a1 a2 a3) := by
  unfold State.holdLane
  try dsimp only
  repeat' first
    | with_reducible assumption | with_reducible apply State.sendCtrl_keeps | with_reducible apply State.setPort_keeps

theorem State.narrowPort_keeps {a0 : State} {a1 a2 : Nat} (hregs : k.regs = false) (hclusters : k.clusters = false)
    (hfab : k.fab = false) (hcol : k.col = false) (h : Keeps k m a0) :
    Keeps k m (State.narrowPort a0 a1 a2) := by
  unfold State.narrowPort
  try dsimp only
  repeat' first
    | with_reducible assumption | with_reducible apply State.showPortWidth_keeps
    | with_reducible apply State.portDown_keeps | with_reducible apply State.showFabric_keeps
    | with_reducible apply State.setPort_keeps | with_reducible apply State.setFld_keeps | with_reducible apply keeps_ite

theorem State.takeSpare_keeps {a0 : Nat} {a1 : State} {a2 a3 : Nat} {a4 : Bool} (hregs : k.regs = false)
    (hclusters : k.clusters = false) (hfab : k.fab = false) (hcol : k.col = false) (hrepair : k.repair = false)
    (h : Keeps k m a1) :
    Keeps k m (State.takeSpare a0 a1 a2 a3 a4) := by
  induction a0 generalizing a1 a2 a3 a4 with
  | zero => exact State.narrowPort_keeps hregs hclusters hfab hcol h
  | succ n ih =>
    rw [State.takeSpare]
    split
    · exact ih (State.holdLane_keeps hfab (State.setPort_keeps hfab (State.writeRepair_keeps hrepair h)))
    · exact keeps_ite (State.holdLane_keeps hfab (State.bookSpare_keeps hregs hrepair h))
        (State.narrowPort_keeps hregs hclusters hfab hcol h)

theorem State.doFabLaneFail_keeps {a0 : State} {a1 : Nat} {a2 : OpticalLane} (hregs : k.regs = false)
    (hclusters : k.clusters = false) (hfab : k.fab = false) (hcol : k.col = false) (hrepair : k.repair = false)
    (h : Keeps k m a0) :
    Keeps k m (State.doFabLaneFail a0 a1 a2) := by
  unfold State.doFabLaneFail
  try dsimp only
  repeat' first
    | with_reducible assumption | with_reducible apply State.takeSpare_keeps | with_reducible apply keeps_ite

theorem State.doFabSpareDone_keeps {a0 : State} {a1 : Nat} (hregs : k.regs = false) (hfab : k.fab = false)
    (h : Keeps k m a0) :
    Keeps k m (State.doFabSpareDone a0 a1) := by
  unfold State.doFabSpareDone
  try dsimp only
  repeat' first
    | with_reducible assumption | with_reducible apply State.sendFull_keeps | with_reducible apply State.setPort_keeps
    | with_reducible apply State.raiseEvent_keeps | with_reducible apply State.setFld_keeps
    | with_reducible apply keeps_ite | with_reducible apply keeps_ite_fst | split

theorem State.doLaneChange_keeps {a0 : State} {a1 : Nat} {a2 : List Nat} (hregs : k.regs = false)
    (hclusters : k.clusters = false) (hfab : k.fab = false) (hcol : k.col = false) (hrepair : k.repair = false)
    (h : Keeps k m a0) :
    Keeps k m (State.doLaneChange a0 a1 a2) := by
  unfold State.doLaneChange
  try dsimp only
  repeat' first
    | with_reducible assumption | intro _ | with_reducible apply State.takeSpare_keeps
    | with_reducible apply State.oweCtrl_keeps | with_reducible apply State.setPort_keeps | with_reducible apply keeps_ite
    | with_reducible apply keeps_foldl

theorem State.resendFrom_keeps {a0 : State} {a1 a2 : Nat} (h : Keeps k m a0) :
    Keeps k m (State.resendFrom a0 a1 a2) := by
  unfold State.resendFrom
  try dsimp only
  repeat' first
    | with_reducible assumption | intro _ | with_reducible apply State.emit_keeps | with_reducible apply keeps_foldl

theorem State.doFabricFrameReceive_keeps {a0 : State} {a1 : Nat} {a2 : BitVec 256} {a3 : Bool} (hfab : k.fab = false)
    (h : Keeps k m a0) :
    Keeps k m (State.doFabricFrameReceive a0 a1 a2 a3) := by
  unfold State.doFabricFrameReceive
  try dsimp only
  repeat' first
    | with_reducible assumption | with_reducible apply State.resendFrom_keeps | with_reducible apply State.dueRetrain_keeps
    | with_reducible apply State.sendFrame_keeps | with_reducible apply State.setPort_keeps
    | with_reducible apply keeps_ite

theorem State.takePacket_keeps {a0 : State} {a1 : Nat} {a2 : Packet} (hfab : k.fab = false) (h : Keeps k m a0) :
    Keeps k m (State.takePacket a0 a1 a2) := by
  unfold State.takePacket
  try dsimp only
  repeat' first
    | with_reducible assumption | with_reducible exact Or.inl ‹_› | with_reducible exact Eq.refl _
    | with_reducible exact Or.inr rfl | with_reducible exact Or.inr ⟨rfl, rfl⟩
    | with_reducible exact Or.inr ⟨rfl, rfl, rfl⟩ | with_reducible apply State.oweCredit_keeps
    | with_reducible apply State.setPort_keeps | with_reducible apply keeps_ite | with_reducible apply keeps_ite_fst
    | split | refine keeps_of_fst (by with_reducible assumption) ?_ | with_reducible apply keeps_upd

theorem State.cutPacket_keeps {a0 : State} {a1 : Fld} {a2 : Packet} (hregs : k.regs = false) (hfab : k.fab = false)
    (h : Keeps k m a0) :
    Keeps k m (State.cutPacket a0 a1 a2) := by
  unfold State.cutPacket
  try dsimp only
  repeat' first
    | with_reducible assumption | with_reducible apply State.sendReply_keeps | with_reducible apply State.addSat_keeps
    | with_reducible apply keeps_ite

theorem State.arrive_keeps {a0 : State} {a1 : Nat} {a2 : Packet} {a3 : Nat} {a4 : State → State}
    (hregs : k.regs = false) (hfab : k.fab = false) (h : Keeps k m a0) (f0 : ∀ s, Keeps k m s → Keeps k m (a4 s)) :
    Keeps k m (State.arrive a0 a1 a2 a3 a4) := by
  unfold State.arrive
  try dsimp only
  repeat' first
    | with_reducible assumption | intro _ | with_reducible apply f0 | with_reducible apply State.cutPacket_keeps
    | with_reducible apply State.takePacket_keeps | with_reducible apply State.addSat_keeps
    | with_reducible apply keeps_ite

theorem State.doPacketForward_keeps {a0 : State} {a1 : Nat} {a2 : Packet} (hregs : k.regs = false)
    (hfab : k.fab = false) (h : Keeps k m a0) :
    Keeps k m (State.doPacketForward a0 a1 a2) := by
  unfold State.doPacketForward
  try dsimp only
  repeat' first
    | with_reducible assumption | with_reducible apply State.cutPacket_keeps | with_reducible apply State.takePacket_keeps
    | with_reducible apply State.routePacket_keeps | with_reducible apply State.putOut_keeps
    | with_reducible apply State.setPort_keeps | with_reducible apply State.addSat_keeps | with_reducible apply keeps_ite
    | with_reducible apply keeps_ite_fst | split

theorem State.refuseWrite_keeps {a0 : State} {a1 : Packet} {a2 : Nat} (hregs : k.regs = false) (hfab : k.fab = false)
    (h : Keeps k m a0) :
    Keeps k m (State.refuseWrite a0 a1 a2) := by
  unfold State.refuseWrite
  try dsimp only
  repeat' first
    | with_reducible assumption | with_reducible apply State.sendReply_keeps | with_reducible apply State.addSat_keeps

theorem State.acceptWrite_keeps {a0 : State} {a1 : Packet} {a2 : Owner → TlpKind → State → State}
    (hfab : k.fab = false) (h : Keeps k m a0) (f0 : ∀ o t s, Keeps k m s → Keeps k m (a2 o t s)) :
    Keeps k m (State.acceptWrite a0 a1 a2) := by
  unfold State.acceptWrite
  apply f0
  with_reducible apply keeps_upd
  all_goals first
    | with_reducible assumption
    | exact Or.inl ‹_›
    | with_reducible exact Eq.refl _
    | with_reducible exact Or.inr rfl
    | with_reducible exact Or.inr ⟨rfl, rfl⟩
    | with_reducible exact Or.inr ⟨rfl, rfl, rfl⟩

theorem State.takeWrite_keeps {a0 : State} {a1 : Packet} (hregs : k.regs = false) (hlines : k.lines = false)
    (hkeys : k.keys = false) (hfab : k.fab = false) (h : Keeps k m a0) :
    Keeps k m (State.takeWrite a0 a1) := by
  unfold State.takeWrite
  try dsimp only
  repeat' first
    | with_reducible assumption | intro _ | with_reducible apply State.acceptWrite_keeps
    | with_reducible apply State.refuseWrite_keeps | with_reducible apply State.tierWrite_keeps
    | with_reducible apply State.winKey_keeps | with_reducible apply State.issueHostWrites_keeps
    | with_reducible apply State.addSat_keeps | with_reducible apply keeps_ite | with_reducible apply keeps_ite_fst | split
    | refine keeps_of_fst (by with_reducible assumption) ?_

theorem State.doWrite_keeps {a0 : State} {a1 : Nat} {a2 : Packet} (hregs : k.regs = false) (hlines : k.lines = false)
    (hkeys : k.keys = false) (hfab : k.fab = false) (h : Keeps k m a0) :
    Keeps k m (State.doWrite a0 a1 a2) := by
  unfold State.doWrite
  try dsimp only
  repeat' first
    | with_reducible assumption | intro _ | with_reducible apply State.takeWrite_keeps
    | with_reducible apply State.arrive_keeps

theorem State.takeTadd_keeps {a0 : State} {a1 : Packet} (hregs : k.regs = false) (hfab : k.fab = false)
    (h : Keeps k m a0) :
    Keeps k m (State.takeTadd a0 a1) := by
  unfold State.takeTadd
  try dsimp only
  repeat' first
    | with_reducible assumption | with_reducible apply State.tallyAdd_keeps | with_reducible apply State.sendReply_keeps
    | with_reducible apply State.addSat_keeps | with_reducible apply keeps_ite

theorem State.doTadd_keeps {a0 : State} {a1 : Nat} {a2 : Packet} (hregs : k.regs = false) (hfab : k.fab = false)
    (h : Keeps k m a0) :
    Keeps k m (State.doTadd a0 a1 a2) := by
  unfold State.doTadd
  try dsimp only
  repeat' first
    | with_reducible assumption | intro _ | with_reducible apply State.takeTadd_keeps
    | with_reducible apply State.arrive_keeps

theorem State.doCircSetup_keeps {a0 : State} {a1 : Nat} {a2 : Packet} (hregs : k.regs = false) (hfab : k.fab = false)
    (h : Keeps k m a0) :
    Keeps k m (State.doCircSetup a0 a1 a2) := by
  unfold State.doCircSetup
  try dsimp only
  repeat' first
    | with_reducible assumption | with_reducible exact Or.inl ‹_› | with_reducible exact Eq.refl _
    | with_reducible exact Or.inr rfl | with_reducible exact Or.inr ⟨rfl, rfl⟩
    | with_reducible exact Or.inr ⟨rfl, rfl, rfl⟩ | with_reducible apply State.cutPacket_keeps
    | with_reducible apply State.takePacket_keeps | with_reducible apply State.reserve_keeps
    | with_reducible apply State.sendReply_keeps | with_reducible apply State.putOut_keeps
    | with_reducible apply State.addSat_keeps | with_reducible apply keeps_ite | with_reducible apply keeps_ite_fst | split
    | refine keeps_of_fst (by with_reducible assumption) ?_ | with_reducible apply keeps_upd

theorem State.doCircTeardown_keeps {a0 : State} {a1 : Nat} {a2 : Packet} (hregs : k.regs = false)
    (hfab : k.fab = false) (h : Keeps k m a0) :
    Keeps k m (State.doCircTeardown a0 a1 a2) := by
  unfold State.doCircTeardown
  try dsimp only
  repeat' first
    | with_reducible assumption | intro _ | with_reducible apply State.cutPacket_keeps
    | with_reducible apply State.takePacket_keeps | with_reducible apply State.failCircuit_keeps
    | with_reducible apply State.releaseSlots_keeps | with_reducible apply State.routePacket_keeps
    | with_reducible apply State.sendReply_keeps | with_reducible apply State.putOut_keeps
    | with_reducible apply State.addSat_keeps | with_reducible apply keeps_ite | with_reducible apply keeps_ite_fst | split

theorem State.doSetup_keeps {a0 : State} {a1 : Nat} (hregs : k.regs = false) (hfab : k.fab = false) (h : Keeps k m a0)
    :
    Keeps k m (State.doSetup a0 a1) := by
  unfold State.doSetup
  try dsimp only
  repeat' first
    | with_reducible assumption | intro _ | with_reducible apply State.sendCirc_keeps
    | with_reducible apply State.failCircuit_keeps | with_reducible apply State.reserve_keeps
    | with_reducible apply State.powered_keeps | with_reducible apply State.setFld_keeps | with_reducible apply keeps_ite

theorem State.doCircuitTeardownWrite_keeps {a0 : State} {a1 : Nat} (hregs : k.regs = false) (hfab : k.fab = false)
    (h : Keeps k m a0) :
    Keeps k m (State.doCircuitTeardownWrite a0 a1) := by
  unfold State.doCircuitTeardownWrite
  try dsimp only
  repeat' first
    | with_reducible assumption | intro _ | with_reducible apply State.sendCirc_keeps
    | with_reducible apply State.idleCircuit_keeps | with_reducible apply State.releaseSlots_keeps
    | with_reducible apply State.powered_keeps | with_reducible apply State.setFld_keeps | with_reducible apply keeps_ite

theorem State.endReq_keeps {a0 : State} {a1 : Nat} (hfab : k.fab = false) (h : Keeps k m a0) :
    Keeps k m (State.endReq a0 a1) := by
  unfold State.endReq
  try dsimp only
  repeat' first
    | with_reducible assumption | with_reducible exact Or.inl ‹_› | with_reducible exact Eq.refl _
    | with_reducible exact Or.inr rfl | with_reducible exact Or.inr ⟨rfl, rfl⟩
    | with_reducible exact Or.inr ⟨rfl, rfl, rfl⟩ | with_reducible apply keeps_ite_fst | split
    | refine keeps_of_fst (by with_reducible assumption) ?_ | with_reducible apply keeps_upd

theorem State.loseCollPacket_keeps {a0 : State} {a1 a2 : Nat} (hregs : k.regs = false) (hclusters : k.clusters = false)
    (hfab : k.fab = false) (hcol : k.col = false) (h : Keeps k m a0) :
    Keeps k m (State.loseCollPacket a0 a1 a2) := by
  unfold State.loseCollPacket
  try dsimp only
  repeat' first
    | with_reducible assumption | with_reducible apply State.loseColl_keeps | with_reducible apply keeps_ite
    | with_reducible apply keeps_ite_fst | split

theorem State.ackWrite_keeps {a0 : State} {a1 : Option (Nat × Nat)} {a2 : Nat} (hregs : k.regs = false)
    (hclusters : k.clusters = false) (hfab : k.fab = false) (hcol : k.col = false) (h : Keeps k m a0) :
    Keeps k m (State.ackWrite a0 a1 a2) := by
  unfold State.ackWrite
  try dsimp only
  repeat' first
    | with_reducible assumption | with_reducible apply State.replayStep_keeps | with_reducible apply State.refuse_keeps
    | with_reducible apply keeps_ite | with_reducible apply keeps_ite_fst | split

theorem State.ackSetup_keeps {a0 : State} {a1 a2 : Nat} (hregs : k.regs = false) (hfab : k.fab = false)
    (h : Keeps k m a0) :
    Keeps k m (State.ackSetup a0 a1 a2) := by
  unfold State.ackSetup
  try dsimp only
  repeat' first
    | with_reducible assumption | with_reducible apply State.sendCirc_keeps | with_reducible apply State.failCircuit_keeps
    | with_reducible apply State.setFld_keeps | with_reducible apply keeps_ite

theorem State.ackDown_keeps {a0 : State} {a1 a2 : Nat} (hregs : k.regs = false) (hfab : k.fab = false)
    (h : Keeps k m a0) :
    Keeps k m (State.ackDown a0 a1 a2) := by
  unfold State.ackDown
  try dsimp only
  repeat' first
    | with_reducible assumption | with_reducible apply State.idleCircuit_keeps
    | with_reducible apply State.failCircuit_keeps | with_reducible apply keeps_ite

theorem State.takeAck_keeps {a0 : State} {a1 : Packet} (hregs : k.regs = false) (hclusters : k.clusters = false)
    (hfab : k.fab = false) (hcol : k.col = false) (h : Keeps k m a0) :
    Keeps k m (State.takeAck a0 a1) := by
  unfold State.takeAck
  try dsimp only
  repeat' first
    | with_reducible assumption | with_reducible apply State.ackDown_keeps | with_reducible apply State.ackSetup_keeps
    | with_reducible apply State.ackWrite_keeps | with_reducible apply State.loseCollPacket_keeps
    | with_reducible apply State.endReq_keeps | with_reducible apply State.startWaiting_keeps
    | with_reducible apply State.addSat_keeps | with_reducible apply keeps_ite | with_reducible apply keeps_ite_fst | split

theorem State.doAck_keeps {a0 : State} {a1 : Nat} {a2 : Packet} (hregs : k.regs = false)
    (hclusters : k.clusters = false) (hfab : k.fab = false) (hcol : k.col = false) (h : Keeps k m a0) :
    Keeps k m (State.doAck a0 a1 a2) := by
  unfold State.doAck
  try dsimp only
  repeat' first
    | with_reducible assumption | intro _ | with_reducible apply State.takeAck_keeps
    | with_reducible apply State.arrive_keeps

theorem State.doReplyTimeout_keeps {a0 : State} {a1 : Nat} (hregs : k.regs = false) (hclusters : k.clusters = false)
    (hfab : k.fab = false) (hcol : k.col = false) (h : Keeps k m a0) :
    Keeps k m (State.doReplyTimeout a0 a1) := by
  unfold State.doReplyTimeout
  try dsimp only
  repeat' first
    | with_reducible assumption | with_reducible exact Or.inl ‹_› | with_reducible exact Eq.refl _
    | with_reducible exact Or.inr rfl | with_reducible exact Or.inr ⟨rfl, rfl⟩
    | with_reducible exact Or.inr ⟨rfl, rfl, rfl⟩ | with_reducible apply State.ackWrite_keeps
    | with_reducible apply State.loseCollPacket_keeps | with_reducible apply State.endReq_keeps
    | with_reducible apply State.failCircuit_keeps | with_reducible apply State.addSat_keeps
    | with_reducible apply keeps_ite | with_reducible apply keeps_ite_fst | split
    | refine keeps_of_fst (by with_reducible assumption) ?_ | with_reducible apply keeps_upd

theorem State.doTagReuseExpiry_keeps {a0 : State} {a1 : Nat} (hregs : k.regs = false) (hfab : k.fab = false)
    (h : Keeps k m a0) :
    Keeps k m (State.doTagReuseExpiry a0 a1) := by
  unfold State.doTagReuseExpiry
  try dsimp only
  repeat' first
    | with_reducible assumption | with_reducible exact Or.inl ‹_› | with_reducible exact Eq.refl _
    | with_reducible exact Or.inr rfl | with_reducible exact Or.inr ⟨rfl, rfl⟩
    | with_reducible exact Or.inr ⟨rfl, rfl, rfl⟩ | with_reducible apply State.startWaiting_keeps
    | with_reducible apply keeps_ite | with_reducible apply keeps_ite_fst | split
    | refine keeps_of_fst (by with_reducible assumption) ?_ | with_reducible apply keeps_upd

theorem State.doSwap_keeps {a0 : State} (hregs : k.regs = false) (hfab : k.fab = false) (h : Keeps k m a0) :
    Keeps k m (State.doSwap a0) := by
  unfold State.doSwap
  try dsimp only
  repeat' first
    | with_reducible assumption | with_reducible exact Or.inl ‹_› | with_reducible exact Eq.refl _
    | with_reducible exact Or.inr rfl | with_reducible exact Or.inr ⟨rfl, rfl⟩
    | with_reducible exact Or.inr ⟨rfl, rfl, rfl⟩ | intro _ | with_reducible apply State.powered_keeps
    | with_reducible apply State.setFld_keeps | with_reducible apply keeps_ite | with_reducible apply keeps_ite_fst | split
    | refine keeps_of_fst (by with_reducible assumption) ?_ | with_reducible apply keeps_upd

theorem State.exchange_keeps {a0 : State} {a1 a2 : Nat} (hregs : k.regs = false) (h : Keeps k m a0) :
    Keeps k m (State.exchange a0 a1 a2) := by
  unfold State.exchange
  try dsimp only
  repeat' first
    | with_reducible assumption | with_reducible apply State.setReg_keeps

theorem State.installTables_keeps {a0 : State} {a1 : Bytes} (hregs : k.regs = false) (h : Keeps k m a0) :
    Keeps k m (State.installTables a0 a1) := by
  unfold State.installTables
  try dsimp only
  repeat' first
    | with_reducible assumption | intro _ | with_reducible apply State.setFld_keeps
    | with_reducible apply State.setReg_keeps | with_reducible apply keeps_foldl

theorem State.doGraceExpiry_keeps {a0 : State} (hregs : k.regs = false) (h : Keeps k m a0) :
    Keeps k m (State.doGraceExpiry a0) := by
  unfold State.doGraceExpiry
  try dsimp only
  repeat' first
    | with_reducible assumption | with_reducible apply State.setFld_keeps | with_reducible apply keeps_ite

theorem State.beginDrain_keeps {a0 : State} {a1 a2 : Nat} (hregs : k.regs = false) (hfab : k.fab = false)
    (h : Keeps k m a0) :
    Keeps k m (State.beginDrain a0 a1 a2) := by
  unfold State.beginDrain
  try dsimp only
  repeat' first
    | with_reducible assumption | with_reducible apply State.rerouteHeads_keeps
    | with_reducible apply State.showFabric_keeps | with_reducible apply State.setPort_keeps
    | with_reducible apply State.setFld_keeps | with_reducible apply keeps_ite

theorem State.applyPortCfg_keeps {a0 : State} {a1 a2 : Nat} (hregs : k.regs = false) (hfab : k.fab = false)
    (h : Keeps k m a0) :
    Keeps k m (State.applyPortCfg a0 a1 a2) := by
  unfold State.applyPortCfg
  try dsimp only
  repeat' first
    | with_reducible assumption | with_reducible apply State.dropCircuits_keeps
    | with_reducible apply State.showFabric_keeps | with_reducible apply State.setPort_keeps
    | with_reducible apply State.setFld_keeps | with_reducible apply keeps_ite

theorem State.showGroup_keeps {a0 : State} (hregs : k.regs = false) (h : Keeps k m a0) :
    Keeps k m (State.showGroup a0) := by
  unfold State.showGroup
  try dsimp only
  repeat' first
    | with_reducible assumption | with_reducible apply State.setFld_keeps | with_reducible apply keeps_ite

theorem State.endDrain_keeps {a0 : State} {a1 : Nat} (hregs : k.regs = false) (hfab : k.fab = false) (h : Keeps k m a0)
    :
    Keeps k m (State.endDrain a0 a1) := by
  unfold State.endDrain
  try dsimp only
  repeat' first
    | with_reducible assumption | with_reducible apply State.showGroup_keeps
    | with_reducible apply State.applyPortCfg_keeps | with_reducible apply State.setFld_keeps
    | with_reducible apply keeps_ite | with_reducible apply keeps_ite_fst | split

theorem State.doPortDrainEnd_keeps {a0 : State} {a1 : Nat} (hregs : k.regs = false) (hfab : k.fab = false)
    (h : Keeps k m a0) :
    Keeps k m (State.doPortDrainEnd a0 a1) := by
  unfold State.doPortDrainEnd
  try dsimp only
  repeat' first
    | with_reducible assumption | with_reducible apply State.endDrain_keeps | with_reducible apply keeps_ite

theorem State.collOutcome_keeps {a0 : State} {a1 a2 : Nat} (hregs : k.regs = false) (hclusters : k.clusters = false)
    (hfab : k.fab = false) (hcol : k.col = false) (h : Keeps k m a0) :
    Keeps k m (State.collOutcome a0 a1 a2) := by
  unfold State.collOutcome
  try dsimp only
  repeat' first
    | with_reducible assumption | with_reducible apply State.replayStep_keeps | with_reducible apply State.failStep_keeps
    | with_reducible apply State.abortColls_keeps | with_reducible apply keeps_ite

theorem State.failColl_keeps {a0 : State} {a1 : Coll} {a2 : Nat} {a3 : Bool} (hregs : k.regs = false)
    (hclusters : k.clusters = false) (hfab : k.fab = false) (hcol : k.col = false) (h : Keeps k m a0) :
    Keeps k m (State.failColl a0 a1 a2 a3) := by
  unfold State.failColl
  try dsimp only
  repeat' first
    | with_reducible assumption | with_reducible apply State.collOutcome_keeps | with_reducible apply State.endColl_keeps

theorem State.addPart_keeps {a0 : State} {a1 : Step} {a2 : List Word} {a3 : CollPart} (hregs : k.regs = false)
    (hclusters : k.clusters = false) (hfab : k.fab = false) (hcol : k.col = false) (h : Keeps k m a0) :
    Keeps k m (State.addPart a0 a1 a2 a3) := by
  unfold State.addPart
  try dsimp only
  repeat' first
    | with_reducible assumption | with_reducible exact Or.inl ‹_› | with_reducible exact Eq.refl _
    | with_reducible exact Or.inr rfl | with_reducible exact Or.inr ⟨rfl, rfl⟩
    | with_reducible exact Or.inr ⟨rfl, rfl, rfl⟩ | with_reducible apply State.failColl_keeps
    | with_reducible apply State.putColl_keeps | with_reducible apply keeps_ite | with_reducible apply keeps_ite_fst
    | split | refine keeps_of_fst (by with_reducible assumption) ?_ | with_reducible apply keeps_upd

theorem State.collEnter_keeps {a0 : State} {a1 : Nat} {a2 : List Word} {a3 a4 : Loc} {a5 : Option Sel}
    (hregs : k.regs = false) (hclusters : k.clusters = false) (hfab : k.fab = false) (hcol : k.col = false)
    (h : Keeps k m a0) :
    Keeps k m (State.collEnter a0 a1 a2 a3 a4 a5) := by
  unfold State.collEnter
  try dsimp only
  repeat' first
    | with_reducible assumption | with_reducible apply State.addPart_keeps | with_reducible apply State.advance_keeps
    | with_reducible apply State.refuse_keeps | with_reducible apply State.setClu_keeps | with_reducible apply keeps_ite
    | with_reducible apply keeps_ite_fst | split

theorem State.sendEnter_keeps {a0 : State} {a1 : Coll} {a2 : Nat} (hregs : k.regs = false) (hfab : k.fab = false)
    (h : Keeps k m a0) :
    Keeps k m (State.sendEnter a0 a1 a2) := by
  unfold State.sendEnter
  try dsimp only
  repeat' first
    | with_reducible assumption | with_reducible apply State.sendColl_keeps

theorem State.doCollectiveReady_keeps {a0 : State} {a1 : Nat} (hregs : k.regs = false) (hclusters : k.clusters = false)
    (hfab : k.fab = false) (hcol : k.col = false) (h : Keeps k m a0) :
    Keeps k m (State.doCollectiveReady a0 a1) := by
  unfold State.doCollectiveReady
  try dsimp only
  repeat' first
    | with_reducible assumption | with_reducible exact Or.inl ‹_› | with_reducible exact Eq.refl _
    | with_reducible exact Or.inr rfl | with_reducible exact Or.inr ⟨rfl, rfl⟩
    | with_reducible exact Or.inr ⟨rfl, rfl, rfl⟩ | intro _ | with_reducible apply State.sendEnter_keeps
    | with_reducible apply State.failColl_keeps | with_reducible apply State.loseColl_keeps
    | with_reducible apply State.showCollGroup_keeps | with_reducible apply State.showCol_keeps
    | with_reducible apply State.putColl_keeps | with_reducible apply keeps_ite | with_reducible apply keeps_foldl
    | with_reducible apply keeps_ite_fst | with_reducible apply keeps_foldl_fst | split
    | refine keeps_of_fst (by with_reducible assumption) ?_ | with_reducible apply keeps_upd

theorem State.pump_keeps {a0 : State} {a1 a2 : Nat} (hregs : k.regs = false) (hfab : k.fab = false)
    (hcol : k.col = false) (h : Keeps k m a0) :
    Keeps k m (State.pump a0 a1 a2) := by
  unfold State.pump
  try dsimp only
  repeat' first
    | with_reducible assumption | intro _ | with_reducible apply State.putColl_keeps
    | with_reducible apply State.sendColl_keeps | with_reducible apply keeps_ite | with_reducible apply keeps_foldl
    | with_reducible apply keeps_ite_fst | with_reducible apply keeps_foldl_fst | split

theorem State.noteCollFlags_keeps {a0 : State} {a1 : Coll} {a2 : Nat} {a3 : List NumFlags}
    (hclusters : k.clusters = false) (h : Keeps k m a0) :
    Keeps k m (State.noteCollFlags a0 a1 a2 a3) := by
  unfold State.noteCollFlags
  try dsimp only
  repeat' first
    | with_reducible assumption | intro _ | with_reducible apply State.noteFlags_keeps | with_reducible apply keeps_foldl

theorem State.noteCollResidue_keeps {a0 : State} {a1 : Coll} {a2 : Nat} (hregs : k.regs = false) (h : Keeps k m a0) :
    Keeps k m (State.noteCollResidue a0 a1 a2) := by
  unfold State.noteCollResidue
  try dsimp only
  repeat' first
    | with_reducible assumption | intro _ | with_reducible apply State.numstatResidue_keeps
    | with_reducible apply keeps_foldl

theorem State.hubStrike_keeps {a0 : State} (h : Keeps k m a0) :
    Keeps k m (State.hubStrike a0) := by
  unfold State.hubStrike
  try dsimp only
  repeat' first
    | with_reducible assumption | with_reducible exact Or.inl ‹_› | with_reducible exact Eq.refl _
    | with_reducible exact Or.inr rfl | with_reducible exact Or.inr ⟨rfl, rfl⟩
    | with_reducible exact Or.inr ⟨rfl, rfl, rfl⟩ | with_reducible apply keeps_ite_fst | split
    | refine keeps_of_fst (by with_reducible assumption) ?_ | with_reducible apply keeps_upd

theorem State.reducerFault_keeps {a0 : State} {a1 : Coll} {a2 : Nat} (hregs : k.regs = false)
    (hclusters : k.clusters = false) (hfab : k.fab = false) (hcol : k.col = false) (h : Keeps k m a0) :
    Keeps k m (State.reducerFault a0 a1 a2) := by
  unfold State.reducerFault
  try dsimp only
  repeat' first
    | with_reducible assumption | with_reducible apply State.hubStrike_keeps
    | with_reducible apply State.noteCollResidue_keeps | with_reducible apply State.replayStep_keeps
    | with_reducible apply State.putStep_keeps | with_reducible apply State.raiseEvent_keeps
    | with_reducible apply keeps_ite | with_reducible apply keeps_ite_fst | split

theorem State.reduceOwn_keeps {a0 : State} {a1 a2 : Nat} (hregs : k.regs = false) (hclusters : k.clusters = false)
    (hfab : k.fab = false) (hcol : k.col = false) (h : Keeps k m a0) :
    Keeps k m (State.reduceOwn a0 a1 a2) := by
  unfold State.reduceOwn
  try dsimp only
  repeat' first
    | with_reducible assumption | with_reducible exact Or.inl ‹_› | with_reducible exact Eq.refl _
    | with_reducible exact Or.inr rfl | with_reducible exact Or.inr ⟨rfl, rfl⟩
    | with_reducible exact Or.inr ⟨rfl, rfl, rfl⟩ | with_reducible apply State.reducerFault_keeps
    | with_reducible apply State.noteCollFlags_keeps | with_reducible apply State.pump_keeps
    | with_reducible apply State.failColl_keeps | with_reducible apply State.putColl_keeps | with_reducible apply keeps_ite
    | with_reducible apply keeps_ite_fst | split | refine keeps_of_fst (by with_reducible assumption) ?_
    | with_reducible apply keeps_upd

theorem State.noteFarFlags_keeps {a0 : State} {a1 : Coll} {a2 : Bytes} (hclusters : k.clusters = false)
    (h : Keeps k m a0) :
    Keeps k m (State.noteFarFlags a0 a1 a2) := by
  unfold State.noteFarFlags
  try dsimp only
  repeat' first
    | with_reducible assumption | with_reducible exact Or.inl ‹_› | with_reducible exact Eq.refl _
    | with_reducible exact Or.inr rfl | with_reducible exact Or.inr ⟨rfl, rfl⟩
    | with_reducible exact Or.inr ⟨rfl, rfl, rfl⟩ | with_reducible apply State.noteCollFlags_keeps
    | with_reducible apply keeps_ite | with_reducible apply keeps_ite_fst | split
    | refine keeps_of_fst (by with_reducible assumption) ?_ | with_reducible apply keeps_upd

theorem State.writeResult_keeps {a0 : State} {a1 a2 : Nat} (hregs : k.regs = false) (hclusters : k.clusters = false)
    (hslice : k.slice = false) (hpad : k.pad = false) (hcol : k.col = false) (h : Keeps k m a0) :
    Keeps k m (State.writeResult a0 a1 a2) := by
  unfold State.writeResult
  try dsimp only
  repeat' first
    | with_reducible assumption | intro _ | with_reducible apply State.noteFarFlags_keeps
    | with_reducible apply State.barrowLoc_keeps | with_reducible apply State.putColl_keeps
    | with_reducible apply keeps_ite | with_reducible apply keeps_foldl | with_reducible apply keeps_ite_fst
    | with_reducible apply keeps_foldl_fst | split

theorem State.progress_keeps {a0 : State} {a1 a2 : Nat} (hregs : k.regs = false) (hclusters : k.clusters = false)
    (hslice : k.slice = false) (hpad : k.pad = false) (hfab : k.fab = false) (hcol : k.col = false) (h : Keeps k m a0) :
    Keeps k m (State.progress a0 a1 a2) := by
  unfold State.progress
  try dsimp only
  repeat' first
    | with_reducible assumption | with_reducible apply State.writeResult_keeps | with_reducible apply State.reduceOwn_keeps
    | with_reducible apply State.pump_keeps

theorem State.readContrib_keeps {a0 : State} {a1 : List CollPart} {a2 : List Word} (hregs : k.regs = false)
    (hclusters : k.clusters = false) (hslice : k.slice = false) (hpad : k.pad = false) (hfab : k.fab = false)
    (hcol : k.col = false) (h : Keeps k m a0) :
    Keeps k m (State.readContrib a0 a1 a2).1 := by
  unfold State.readContrib
  try dsimp only
  repeat' first
    | with_reducible assumption | intro _ | with_reducible apply State.readLoc_keeps
    | with_reducible apply State.shadowed_keeps | with_reducible apply keeps_ite | with_reducible apply keeps_foldl
    | with_reducible apply keeps_ite_fst | with_reducible apply keeps_foldl_fst | split

theorem State.doCollectiveAdmit_keeps {a0 : State} {a1 : Nat} (hregs : k.regs = false) (hclusters : k.clusters = false)
    (hslice : k.slice = false) (hpad : k.pad = false) (hfab : k.fab = false) (hcol : k.col = false) (h : Keeps k m a0) :
    Keeps k m (State.doCollectiveAdmit a0 a1) := by
  unfold State.doCollectiveAdmit
  try dsimp only
  repeat' first
    | with_reducible assumption | with_reducible apply State.readContrib_keeps | with_reducible apply State.progress_keeps
    | with_reducible apply State.showCollGroup_keeps | with_reducible apply State.showCol_keeps
    | with_reducible apply State.putColl_keeps | with_reducible apply State.sendOthers_keeps
    | with_reducible apply keeps_ite | with_reducible apply keeps_ite_fst | split
    | refine keeps_of_fst (by with_reducible assumption) ?_

theorem State.doCollectiveComplete_keeps {a0 : State} {a1 : Nat} (hregs : k.regs = false)
    (hclusters : k.clusters = false) (hcol : k.col = false) (h : Keeps k m a0) :
    Keeps k m (State.doCollectiveComplete a0 a1) := by
  unfold State.doCollectiveComplete
  try dsimp only
  repeat' first
    | with_reducible assumption | intro _ | with_reducible apply State.signal_keeps
    | with_reducible apply State.showCollGroup_keeps | with_reducible apply State.showCol_keeps
    | with_reducible apply State.putColl_keeps | with_reducible apply State.setClu_keeps
    | with_reducible apply State.setFld_keeps | with_reducible apply keeps_ite | with_reducible apply keeps_foldl
    | with_reducible apply keeps_ite_fst | with_reducible apply keeps_foldl_fst | split

theorem State.doOrderTimeout_keeps {a0 : State} (hregs : k.regs = false) (hclusters : k.clusters = false)
    (hfab : k.fab = false) (hcol : k.col = false) (h : Keeps k m a0) :
    Keeps k m (State.doOrderTimeout a0) := by
  unfold State.doOrderTimeout
  try dsimp only
  repeat' first
    | with_reducible assumption | with_reducible apply State.failColl_keeps | with_reducible apply keeps_ite
    | with_reducible apply keeps_ite_fst | split

theorem State.sendReadies_keeps {a0 : State} {a1 : Nat} (hregs : k.regs = false) (hfab : k.fab = false)
    (hcol : k.col = false) (h : Keeps k m a0) :
    Keeps k m (State.sendReadies a0 a1) := by
  unfold State.sendReadies
  try dsimp only
  repeat' first
    | with_reducible assumption | intro _ | with_reducible apply State.putColl_keeps
    | with_reducible apply State.sendOthers_keeps | with_reducible apply keeps_foldl

theorem State.doReadyResend_keeps {a0 : State} {a1 : Nat} (hregs : k.regs = false) (hfab : k.fab = false)
    (hcol : k.col = false) (h : Keeps k m a0) :
    Keeps k m (State.doReadyResend a0 a1) := by
  unfold State.doReadyResend
  try dsimp only
  repeat' first
    | with_reducible assumption | intro _ | with_reducible apply State.putColl_keeps
    | with_reducible apply State.sendColl_keeps | with_reducible apply keeps_ite | with_reducible apply keeps_foldl
    | with_reducible apply keeps_ite_fst | with_reducible apply keeps_foldl_fst | split

theorem State.commitColls_keeps {a0 : State} {a1 : Nat} (hregs : k.regs = false) (hcol : k.col = false)
    (h : Keeps k m a0) :
    Keeps k m (State.commitColls a0 a1) := by
  unfold State.commitColls
  try dsimp only
  repeat' first
    | with_reducible assumption | with_reducible exact Or.inl ‹_› | with_reducible exact Eq.refl _
    | with_reducible exact Or.inr rfl | with_reducible exact Or.inr ⟨rfl, rfl⟩
    | with_reducible exact Or.inr ⟨rfl, rfl, rfl⟩ | intro _ | with_reducible apply State.dropColl_keeps
    | with_reducible apply keeps_foldl | with_reducible apply keeps_ite_fst | with_reducible apply keeps_foldl_fst | split
    | refine keeps_of_fst (by with_reducible assumption) ?_ | with_reducible apply keeps_upd

theorem State.arriveColl_keeps {a0 : State} {a1 : Nat} {a2 : Packet} {a3 : Nat} {a4 : State → State}
    (hregs : k.regs = false) (hfab : k.fab = false) (h : Keeps k m a0) (f0 : ∀ s, Keeps k m s → Keeps k m (a4 s)) :
    Keeps k m (State.arriveColl a0 a1 a2 a3 a4) := by
  unfold State.arriveColl
  try dsimp only
  repeat' first
    | with_reducible assumption | intro _ | with_reducible apply f0 | with_reducible apply State.arrive_keeps
    | with_reducible apply State.sendReply_keeps | with_reducible apply State.addSat_keeps | with_reducible apply keeps_ite

theorem State.tookColl_keeps {a0 : State} {a1 : Packet} (hregs : k.regs = false) (hfab : k.fab = false)
    (h : Keeps k m a0) :
    Keeps k m (State.tookColl a0 a1) := by
  unfold State.tookColl
  try dsimp only
  repeat' first
    | with_reducible assumption | with_reducible apply State.sendReply_keeps

theorem State.lateColl_keeps {a0 : State} {a1 : Packet} (hregs : k.regs = false) (hfab : k.fab = false)
    (h : Keeps k m a0) :
    Keeps k m (State.lateColl a0 a1) := by
  unfold State.lateColl
  try dsimp only
  repeat' first
    | with_reducible assumption | with_reducible apply State.tookColl_keeps | with_reducible apply State.addSat_keeps

theorem State.storeEnter_keeps {a0 : State} {a1 : Packet} {a2 : Nat × Word × Nat} (hregs : k.regs = false)
    (hfab : k.fab = false) (hcol : k.col = false) (h : Keeps k m a0) :
    Keeps k m (State.storeEnter a0 a1 a2) := by
  unfold State.storeEnter
  try dsimp only
  repeat' first
    | with_reducible assumption | with_reducible exact Or.inl ‹_› | with_reducible exact Eq.refl _
    | with_reducible exact Or.inr rfl | with_reducible exact Or.inr ⟨rfl, rfl⟩
    | with_reducible exact Or.inr ⟨rfl, rfl, rfl⟩ | with_reducible apply State.tookColl_keeps
    | with_reducible apply State.sendReply_keeps | with_reducible apply keeps_ite | with_reducible apply keeps_ite_fst
    | split | refine keeps_of_fst (by with_reducible assumption) ?_ | with_reducible apply keeps_upd

theorem State.takeEnter_keeps {a0 : State} {a1 : Packet} (hregs : k.regs = false) (hclusters : k.clusters = false)
    (hfab : k.fab = false) (hcol : k.col = false) (h : Keeps k m a0) :
    Keeps k m (State.takeEnter a0 a1) := by
  unfold State.takeEnter
  try dsimp only
  repeat' first
    | with_reducible assumption | with_reducible apply State.storeEnter_keeps | with_reducible apply State.tookColl_keeps
    | with_reducible apply State.failColl_keeps | with_reducible apply State.putColl_keeps | with_reducible apply keeps_ite
    | with_reducible apply keeps_ite_fst | split

theorem State.doEnter_keeps {a0 : State} {a1 : Nat} {a2 : Packet} (hregs : k.regs = false)
    (hclusters : k.clusters = false) (hfab : k.fab = false) (hcol : k.col = false) (h : Keeps k m a0) :
    Keeps k m (State.doEnter a0 a1 a2) := by
  unfold State.doEnter
  try dsimp only
  repeat' first
    | with_reducible assumption | intro _ | with_reducible apply State.takeEnter_keeps
    | with_reducible apply State.arriveColl_keeps

theorem State.noteStarted_keeps {a0 : State} {a1 : Coll} (hcol : k.col = false) (h : Keeps k m a0) :
    Keeps k m (State.noteStarted a0 a1) := by
  unfold State.noteStarted
  try dsimp only
  repeat' first
    | with_reducible assumption | with_reducible apply State.putStep_keeps | with_reducible apply State.putColl_keeps
    | with_reducible apply keeps_ite | with_reducible apply keeps_ite_fst | split

theorem State.takeStart_keeps {a0 : State} {a1 : Packet} (hregs : k.regs = false) (hclusters : k.clusters = false)
    (hslice : k.slice = false) (hpad : k.pad = false) (hfab : k.fab = false) (hcol : k.col = false) (h : Keeps k m a0) :
    Keeps k m (State.takeStart a0 a1) := by
  unfold State.takeStart
  try dsimp only
  repeat' first
    | with_reducible assumption | with_reducible apply State.noteStarted_keeps | with_reducible apply State.lateColl_keeps
    | with_reducible apply State.tookColl_keeps | with_reducible apply State.progress_keeps
    | with_reducible apply State.putColl_keeps | with_reducible apply keeps_ite | with_reducible apply keeps_ite_fst
    | split

theorem State.doStart_keeps {a0 : State} {a1 : Nat} {a2 : Packet} (hregs : k.regs = false)
    (hclusters : k.clusters = false) (hslice : k.slice = false) (hpad : k.pad = false) (hfab : k.fab = false)
    (hcol : k.col = false) (h : Keeps k m a0) :
    Keeps k m (State.doStart a0 a1 a2) := by
  unfold State.doStart
  try dsimp only
  repeat' first
    | with_reducible assumption | intro _ | with_reducible apply State.takeStart_keeps
    | with_reducible apply State.arriveColl_keeps

theorem State.takeData_keeps {a0 : State} {a1 : Packet} (hregs : k.regs = false) (hclusters : k.clusters = false)
    (hslice : k.slice = false) (hpad : k.pad = false) (hfab : k.fab = false) (hcol : k.col = false) (h : Keeps k m a0) :
    Keeps k m (State.takeData a0 a1) := by
  unfold State.takeData
  try dsimp only
  repeat' first
    | with_reducible assumption | with_reducible apply State.lateColl_keeps | with_reducible apply State.tookColl_keeps
    | with_reducible apply State.progress_keeps | with_reducible apply State.putColl_keeps | with_reducible apply keeps_ite
    | with_reducible apply keeps_ite_fst | split

theorem State.doData_keeps {a0 : State} {a1 : Nat} {a2 : Packet} (hregs : k.regs = false)
    (hclusters : k.clusters = false) (hslice : k.slice = false) (hpad : k.pad = false) (hfab : k.fab = false)
    (hcol : k.col = false) (h : Keeps k m a0) :
    Keeps k m (State.doData a0 a1 a2) := by
  unfold State.doData
  try dsimp only
  repeat' first
    | with_reducible assumption | intro _ | with_reducible apply State.takeData_keeps
    | with_reducible apply State.arriveColl_keeps

theorem State.takeReady_keeps {a0 : State} {a1 : Packet} (hregs : k.regs = false) (hfab : k.fab = false)
    (hcol : k.col = false) (h : Keeps k m a0) :
    Keeps k m (State.takeReady a0 a1) := by
  unfold State.takeReady
  try dsimp only
  repeat' first
    | with_reducible assumption | with_reducible apply State.lateColl_keeps | with_reducible apply State.tookColl_keeps
    | with_reducible apply State.putColl_keeps | with_reducible apply State.sendColl_keeps | with_reducible apply keeps_ite
    | with_reducible apply keeps_ite_fst | split

theorem State.doReady_keeps {a0 : State} {a1 : Nat} {a2 : Packet} (hregs : k.regs = false) (hfab : k.fab = false)
    (hcol : k.col = false) (h : Keeps k m a0) :
    Keeps k m (State.doReady a0 a1 a2) := by
  unfold State.doReady
  try dsimp only
  repeat' first
    | with_reducible assumption | intro _ | with_reducible apply State.takeReady_keeps
    | with_reducible apply State.arriveColl_keeps

theorem State.takeAbort_keeps {a0 : State} {a1 : Packet} (hregs : k.regs = false) (hclusters : k.clusters = false)
    (hfab : k.fab = false) (hcol : k.col = false) (h : Keeps k m a0) :
    Keeps k m (State.takeAbort a0 a1) := by
  unfold State.takeAbort
  try dsimp only
  repeat' first
    | with_reducible assumption | with_reducible exact Or.inl ‹_› | with_reducible exact Eq.refl _
    | with_reducible exact Or.inr rfl | with_reducible exact Or.inr ⟨rfl, rfl⟩
    | with_reducible exact Or.inr ⟨rfl, rfl, rfl⟩ | with_reducible apply State.tookColl_keeps
    | with_reducible apply State.failColl_keeps | with_reducible apply State.addSat_keeps | with_reducible apply keeps_ite
    | with_reducible apply keeps_ite_fst | split | refine keeps_of_fst (by with_reducible assumption) ?_
    | with_reducible apply keeps_upd

theorem State.doAbort_keeps {a0 : State} {a1 : Nat} {a2 : Packet} (hregs : k.regs = false)
    (hclusters : k.clusters = false) (hfab : k.fab = false) (hcol : k.col = false) (h : Keeps k m a0) :
    Keeps k m (State.doAbort a0 a1 a2) := by
  unfold State.doAbort
  try dsimp only
  repeat' first
    | with_reducible assumption | intro _ | with_reducible apply State.takeAbort_keeps
    | with_reducible apply State.arriveColl_keeps

theorem State.ackColl_keeps {a0 : State} {a1 a2 a3 a4 a5 : Nat} (hregs : k.regs = false)
    (hclusters : k.clusters = false) (hslice : k.slice = false) (hpad : k.pad = false) (hfab : k.fab = false)
    (hcol : k.col = false) (h : Keeps k m a0) :
    Keeps k m (State.ackColl a0 a1 a2 a3 a4 a5) := by
  unfold State.ackColl
  try dsimp only
  repeat' first
    | with_reducible assumption | with_reducible exact Or.inl ‹_› | with_reducible exact Eq.refl _
    | with_reducible exact Or.inr rfl | with_reducible exact Or.inr ⟨rfl, rfl⟩
    | with_reducible exact Or.inr ⟨rfl, rfl, rfl⟩ | with_reducible apply State.progress_keeps
    | with_reducible apply State.loseColl_keeps | with_reducible apply State.putColl_keeps | with_reducible apply keeps_ite
    | with_reducible apply keeps_ite_fst | split | refine keeps_of_fst (by with_reducible assumption) ?_
    | with_reducible apply keeps_upd

theorem State.takeCollAck_keeps {a0 : State} {a1 : Packet} (hregs : k.regs = false) (hclusters : k.clusters = false)
    (hslice : k.slice = false) (hpad : k.pad = false) (hfab : k.fab = false) (hcol : k.col = false) (h : Keeps k m a0) :
    Keeps k m (State.takeCollAck a0 a1) := by
  unfold State.takeCollAck
  try dsimp only
  repeat' first
    | with_reducible assumption | with_reducible apply State.ackColl_keeps | with_reducible apply State.endReq_keeps
    | with_reducible apply State.startWaiting_keeps | with_reducible apply State.addSat_keeps
    | with_reducible apply keeps_ite | with_reducible apply keeps_ite_fst | split

theorem State.doCollAck_keeps {a0 : State} {a1 : Nat} {a2 : Packet} (hregs : k.regs = false)
    (hclusters : k.clusters = false) (hslice : k.slice = false) (hpad : k.pad = false) (hfab : k.fab = false)
    (hcol : k.col = false) (h : Keeps k m a0) :
    Keeps k m (State.doCollAck a0 a1 a2) := by
  unfold State.doCollAck
  try dsimp only
  repeat' first
    | with_reducible assumption | intro _ | with_reducible apply State.takeCollAck_keeps
    | with_reducible apply State.arrive_keeps

theorem State.doEnterRetry_keeps {a0 : State} {a1 a2 : Nat} (hregs : k.regs = false) (hfab : k.fab = false)
    (hcol : k.col = false) (h : Keeps k m a0) :
    Keeps k m (State.doEnterRetry a0 a1 a2) := by
  unfold State.doEnterRetry
  try dsimp only
  repeat' first
    | with_reducible assumption | with_reducible exact Or.inl ‹_› | with_reducible exact Eq.refl _
    | with_reducible exact Or.inr rfl | with_reducible exact Or.inr ⟨rfl, rfl⟩
    | with_reducible exact Or.inr ⟨rfl, rfl, rfl⟩ | with_reducible apply State.sendEnter_keeps
    | with_reducible apply keeps_ite | with_reducible apply keeps_ite_fst | split
    | refine keeps_of_fst (by with_reducible assumption) ?_ | with_reducible apply keeps_upd

end Sys2Proof.Machine
end

