-- ==== Sys2Proof/Laws/KeepsEngines.lean ====
section
/-! SUPPORT. What the operations leave alone: one lemma per operation of the engines and the sequencer of a cluster. -/

namespace Sys2Proof.Machine

open Sys2Proof.Safety

variable {k : Kept} {m : State}

theorem State.effWload_keeps {a0 : State} {a1 : Nat} {a2 : Desc} (hregs : k.regs = false)
    (hclusters : k.clusters = false) (hslice : k.slice = false) (hpad : k.pad = false) (hfab : k.fab = false)
    (hcol : k.col = false) (h : Keeps k m a0) :
    Keeps k m (State.effWload a0 a1 a2) := by
  unfold State.effWload
  try dsimp only
  repeat' first
    | with_reducible assumption | with_reducible apply State.readLoc_keeps | with_reducible apply State.readRuns_keeps
    | with_reducible apply State.setClu_keeps | with_reducible apply keeps_ite | with_reducible apply keeps_ite_fst | split
    | refine keeps_of_fst (by with_reducible assumption) ?_

theorem State.readActs_keeps {a0 : State} {a1 : Nat} {a2 : Desc} {a3 : Fmt} {a4 a5 : Nat} (hregs : k.regs = false)
    (hclusters : k.clusters = false) (hslice : k.slice = false) (hpad : k.pad = false) (hfab : k.fab = false)
    (hcol : k.col = false) (h : Keeps k m a0) :
    Keeps k m (State.readActs a0 a1 a2 a3 a4 a5).1 := by
  unfold State.readActs
  try dsimp only
  repeat' first
    | with_reducible assumption | with_reducible apply State.readRuns_keeps | with_reducible apply keeps_ite
    | with_reducible apply keeps_ite_fst | split | refine keeps_of_fst (by with_reducible assumption) ?_

theorem State.effMma_keeps {a0 : State} {a1 : Nat} {a2 : Desc} (hregs : k.regs = false)
    (hclusters : k.clusters = false) (hslice : k.slice = false) (hpad : k.pad = false) (hfab : k.fab = false)
    (hcol : k.col = false) (h : Keeps k m a0) :
    Keeps k m (State.effMma a0 a1 a2) := by
  unfold State.effMma
  try dsimp only
  repeat' first
    | with_reducible assumption | refine State.adderCheck_keeps hregs hclusters hfab hcol ?_ _ (by assumption)
    | refine State.adderCheck_keeps hregs hclusters hfab hcol ?_ _ (of_ite_some (by assumption)) | intro _
    | with_reducible apply State.readActs_keeps | with_reducible apply State.setClu_keeps | with_reducible apply keeps_ite
    | with_reducible apply keeps_foldl | with_reducible apply keeps_ite_fst | with_reducible apply keeps_foldl_fst | split
    | refine keeps_of_fst (by with_reducible assumption) ?_

theorem State.effMerge_keeps {a0 : State} {a1 : Nat} {a2 : Desc} (hregs : k.regs = false)
    (hclusters : k.clusters = false) (hslice : k.slice = false) (hpad : k.pad = false) (hfab : k.fab = false)
    (hcol : k.col = false) (h : Keeps k m a0) :
    Keeps k m (State.effMerge a0 a1 a2) := by
  unfold State.effMerge
  try dsimp only
  repeat' first
    | with_reducible assumption | intro _ | with_reducible apply State.readRuns_keeps
    | with_reducible apply State.residueFault_keeps | with_reducible apply State.refuse_keeps
    | with_reducible apply State.setClu_keeps | with_reducible apply keeps_ite | with_reducible apply keeps_foldl
    | with_reducible apply keeps_ite_fst | with_reducible apply keeps_foldl_fst | split
    | refine keeps_of_fst (by with_reducible assumption) ?_

theorem State.effMmaAdapt_keeps {a0 : State} {a1 : Nat} {a2 : Desc} (hregs : k.regs = false)
    (hclusters : k.clusters = false) (hslice : k.slice = false) (hpad : k.pad = false) (hfab : k.fab = false)
    (hcol : k.col = false) (h : Keeps k m a0) :
    Keeps k m (State.effMmaAdapt a0 a1 a2) := by
  unfold State.effMmaAdapt
  try dsimp only
  repeat' first
    | with_reducible assumption | refine State.adderCheck_keeps hregs hclusters hfab hcol ?_ _ (by assumption)
    | refine State.adderCheck_keeps hregs hclusters hfab hcol ?_ _ (of_ite_some (by assumption)) | intro _
    | with_reducible apply State.readActs_keeps | with_reducible apply State.setClu_keeps | with_reducible apply keeps_ite
    | with_reducible apply keeps_foldl | with_reducible apply keeps_ite_fst | with_reducible apply keeps_foldl_fst | split
    | refine keeps_of_fst (by with_reducible assumption) ?_

theorem State.effDrain_keeps {a0 : State} {a1 : Nat} {a2 : Desc} (hregs : k.regs = false)
    (hclusters : k.clusters = false) (hslice : k.slice = false) (hpad : k.pad = false) (hfab : k.fab = false)
    (hcol : k.col = false) (h : Keeps k m a0) :
    Keeps k m (State.effDrain a0 a1 a2) := by
  unfold State.effDrain
  try dsimp only
  repeat' first
    | with_reducible assumption | intro _ | with_reducible apply State.mergeLoc_keeps
    | with_reducible apply State.writeRuns_keeps | with_reducible apply State.residueFault_keeps
    | with_reducible apply State.noteFlags_keeps | with_reducible apply keeps_ite | with_reducible apply keeps_foldl
    | with_reducible apply keeps_ite_fst | with_reducible apply keeps_foldl_fst | split

theorem State.effAccClear_keeps {a0 : State} {a1 : Nat} {a2 : Desc} (hclusters : k.clusters = false) (h : Keeps k m a0)
    :
    Keeps k m (State.effAccClear a0 a1 a2) := by
  unfold State.effAccClear
  try dsimp only
  repeat' first
    | with_reducible assumption | with_reducible apply State.setClu_keeps

theorem State.effAccScale_keeps {a0 : State} {a1 : Nat} {a2 : Desc} (hclusters : k.clusters = false) (h : Keeps k m a0)
    :
    Keeps k m (State.effAccScale a0 a1 a2) := by
  unfold State.effAccScale
  try dsimp only
  repeat' first
    | with_reducible assumption | intro _ | with_reducible apply State.setClu_keeps

theorem State.writeValues_keeps {a0 : State} {a1 : Nat} {a2 : Desc} {a3 : Loc} {a4 : List FVal} {a5 : List Nat}
    (hregs : k.regs = false) (hclusters : k.clusters = false) (hslice : k.slice = false) (hpad : k.pad = false)
    (hfab : k.fab = false) (hcol : k.col = false) (h : Keeps k m a0) :
    Keeps k m (State.writeValues a0 a1 a2 a3 a4 a5) := by
  unfold State.writeValues
  try dsimp only
  repeat' first
    | with_reducible assumption | with_reducible apply State.mergeLoc_keeps | with_reducible apply State.writeLoc_keeps
    | with_reducible apply State.noteFlags_keeps | with_reducible apply keeps_ite

theorem State.readOperands_keeps {a0 : State} {a1 : Nat} {a2 : Desc} {a3 a4 : Bool} {a5 : Nat} (hregs : k.regs = false)
    (hclusters : k.clusters = false) (hslice : k.slice = false) (hpad : k.pad = false) (hfab : k.fab = false)
    (hcol : k.col = false) (h : Keeps k m a0) :
    Keeps k m (State.readOperands a0 a1 a2 a3 a4 a5).1 := by
  unfold State.readOperands
  try dsimp only
  repeat' first
    | with_reducible assumption | with_reducible apply State.readValues_keeps | with_reducible apply keeps_ite
    | with_reducible apply keeps_ite_fst | split | refine keeps_of_fst (by with_reducible assumption) ?_

theorem State.effMap2_keeps {a0 : State} {a1 : Nat} {a2 : Desc} {a3 : Bool} {a4 : FVal → FVal → FVal}
    (hregs : k.regs = false) (hclusters : k.clusters = false) (hslice : k.slice = false) (hpad : k.pad = false)
    (hfab : k.fab = false) (hcol : k.col = false) (h : Keeps k m a0) :
    Keeps k m (State.effMap2 a0 a1 a2 a3 a4) := by
  unfold State.effMap2
  try dsimp only
  repeat' first
    | with_reducible assumption | refine State.adderCheck_keeps hregs hclusters hfab hcol ?_ _ (by assumption)
    | refine State.adderCheck_keeps hregs hclusters hfab hcol ?_ _ (of_ite_some (by assumption))
    | with_reducible apply State.readOperands_keeps | with_reducible apply State.writeValues_keeps
    | with_reducible apply keeps_ite | with_reducible apply keeps_ite_fst | split
    | refine keeps_of_fst (by with_reducible assumption) ?_

theorem State.effVadd_keeps {a0 : State} {a1 : Nat} {a2 : Desc} (hregs : k.regs = false)
    (hclusters : k.clusters = false) (hslice : k.slice = false) (hpad : k.pad = false) (hfab : k.fab = false)
    (hcol : k.col = false) (h : Keeps k m a0) :
    Keeps k m (State.effVadd a0 a1 a2) := by
  unfold State.effVadd
  try dsimp only
  repeat' first
    | with_reducible assumption | intro _ | with_reducible apply State.effMap2_keeps

theorem State.effVmul_keeps {a0 : State} {a1 : Nat} {a2 : Desc} (hregs : k.regs = false)
    (hclusters : k.clusters = false) (hslice : k.slice = false) (hpad : k.pad = false) (hfab : k.fab = false)
    (hcol : k.col = false) (h : Keeps k m a0) :
    Keeps k m (State.effVmul a0 a1 a2) := by
  unfold State.effVmul
  try dsimp only
  repeat' first
    | with_reducible assumption | intro _ | with_reducible apply State.effMap2_keeps

theorem State.effVmax_keeps {a0 : State} {a1 : Nat} {a2 : Desc} (hregs : k.regs = false)
    (hclusters : k.clusters = false) (hslice : k.slice = false) (hpad : k.pad = false) (hfab : k.fab = false)
    (hcol : k.col = false) (h : Keeps k m a0) :
    Keeps k m (State.effVmax a0 a1 a2) := by
  unfold State.effVmax
  try dsimp only
  repeat' first
    | with_reducible assumption | intro _ | with_reducible apply State.effMap2_keeps

theorem State.effVmin_keeps {a0 : State} {a1 : Nat} {a2 : Desc} (hregs : k.regs = false)
    (hclusters : k.clusters = false) (hslice : k.slice = false) (hpad : k.pad = false) (hfab : k.fab = false)
    (hcol : k.col = false) (h : Keeps k m a0) :
    Keeps k m (State.effVmin a0 a1 a2) := by
  unfold State.effVmin
  try dsimp only
  repeat' first
    | with_reducible assumption | intro _ | with_reducible apply State.effMap2_keeps

theorem State.effVfma_keeps {a0 : State} {a1 : Nat} {a2 : Desc} (hregs : k.regs = false)
    (hclusters : k.clusters = false) (hslice : k.slice = false) (hpad : k.pad = false) (hfab : k.fab = false)
    (hcol : k.col = false) (h : Keeps k m a0) :
    Keeps k m (State.effVfma a0 a1 a2) := by
  unfold State.effVfma
  try dsimp only
  repeat' first
    | with_reducible assumption | refine State.adderCheck_keeps hregs hclusters hfab hcol ?_ _ (by assumption)
    | refine State.adderCheck_keeps hregs hclusters hfab hcol ?_ _ (of_ite_some (by assumption))
    | with_reducible apply State.readOperands_keeps | with_reducible apply State.writeValues_keeps
    | with_reducible apply keeps_ite | with_reducible apply keeps_ite_fst | split
    | refine keeps_of_fst (by with_reducible assumption) ?_

theorem State.effVcmp_keeps {a0 : State} {a1 : Nat} {a2 : Desc} (hregs : k.regs = false)
    (hclusters : k.clusters = false) (hslice : k.slice = false) (hpad : k.pad = false) (hfab : k.fab = false)
    (hcol : k.col = false) (h : Keeps k m a0) :
    Keeps k m (State.effVcmp a0 a1 a2) := by
  unfold State.effVcmp
  try dsimp only
  repeat' first
    | with_reducible assumption | intro _ | with_reducible apply State.effMap2_keeps

theorem State.effVselect_keeps {a0 : State} {a1 : Nat} {a2 : Desc} (hregs : k.regs = false)
    (hclusters : k.clusters = false) (hslice : k.slice = false) (hpad : k.pad = false) (hfab : k.fab = false)
    (hcol : k.col = false) (h : Keeps k m a0) :
    Keeps k m (State.effVselect a0 a1 a2) := by
  unfold State.effVselect
  try dsimp only
  repeat' first
    | with_reducible assumption | with_reducible apply State.readOperands_keeps
    | with_reducible apply State.writeValues_keeps | with_reducible apply keeps_ite | with_reducible apply keeps_ite_fst
    | split | refine keeps_of_fst (by with_reducible assumption) ?_

theorem State.effVcvt_keeps {a0 : State} {a1 : Nat} {a2 : Desc} (hregs : k.regs = false)
    (hclusters : k.clusters = false) (hslice : k.slice = false) (hpad : k.pad = false) (hfab : k.fab = false)
    (hcol : k.col = false) (h : Keeps k m a0) :
    Keeps k m (State.effVcvt a0 a1 a2) := by
  unfold State.effVcvt
  try dsimp only
  repeat' first
    | with_reducible assumption | with_reducible apply State.writeValues_keeps
    | with_reducible apply State.readValues_keeps | with_reducible apply keeps_ite | with_reducible apply keeps_ite_fst
    | split | refine keeps_of_fst (by with_reducible assumption) ?_

theorem State.effVsfu_keeps {a0 : State} {a1 : Nat} {a2 : Desc} (hregs : k.regs = false)
    (hclusters : k.clusters = false) (hslice : k.slice = false) (hpad : k.pad = false) (hfab : k.fab = false)
    (hcol : k.col = false) (h : Keeps k m a0) :
    Keeps k m (State.effVsfu a0 a1 a2) := by
  unfold State.effVsfu
  try dsimp only
  repeat' first
    | with_reducible assumption | with_reducible apply State.readOperands_keeps
    | with_reducible apply State.writeValues_keeps | with_reducible apply keeps_ite | with_reducible apply keeps_ite_fst
    | split | refine keeps_of_fst (by with_reducible assumption) ?_

theorem State.effReduce_keeps {a0 : State} {a1 : Nat} {a2 : Desc} {a3 : FVal} {a4 : FVal → FVal → FVal}
    (hregs : k.regs = false) (hclusters : k.clusters = false) (hslice : k.slice = false) (hpad : k.pad = false)
    (hfab : k.fab = false) (hcol : k.col = false) (h : Keeps k m a0) :
    Keeps k m (State.effReduce a0 a1 a2 a3 a4) := by
  unfold State.effReduce
  try dsimp only
  repeat' first
    | with_reducible assumption | refine State.adderCheck_keeps hregs hclusters hfab hcol ?_ _ (by assumption)
    | refine State.adderCheck_keeps hregs hclusters hfab hcol ?_ _ (of_ite_some (by assumption))
    | with_reducible apply State.readOperands_keeps | with_reducible apply State.writeValues_keeps
    | with_reducible apply keeps_ite | with_reducible apply keeps_ite_fst | split
    | refine keeps_of_fst (by with_reducible assumption) ?_

theorem State.effVreduceSum_keeps {a0 : State} {a1 : Nat} {a2 : Desc} (hregs : k.regs = false)
    (hclusters : k.clusters = false) (hslice : k.slice = false) (hpad : k.pad = false) (hfab : k.fab = false)
    (hcol : k.col = false) (h : Keeps k m a0) :
    Keeps k m (State.effVreduceSum a0 a1 a2) := by
  unfold State.effVreduceSum
  try dsimp only
  repeat' first
    | with_reducible assumption | intro _ | with_reducible apply State.effReduce_keeps | with_reducible apply keeps_ite

theorem State.effVreduceMax_keeps {a0 : State} {a1 : Nat} {a2 : Desc} (hregs : k.regs = false)
    (hclusters : k.clusters = false) (hslice : k.slice = false) (hpad : k.pad = false) (hfab : k.fab = false)
    (hcol : k.col = false) (h : Keeps k m a0) :
    Keeps k m (State.effVreduceMax a0 a1 a2) := by
  unfold State.effVreduceMax
  try dsimp only
  repeat' first
    | with_reducible assumption | intro _ | with_reducible apply State.effReduce_keeps

theorem State.effVreduceMin_keeps {a0 : State} {a1 : Nat} {a2 : Desc} (hregs : k.regs = false)
    (hclusters : k.clusters = false) (hslice : k.slice = false) (hpad : k.pad = false) (hfab : k.fab = false)
    (hcol : k.col = false) (h : Keeps k m a0) :
    Keeps k m (State.effVreduceMin a0 a1 a2) := by
  unfold State.effVreduceMin
  try dsimp only
  repeat' first
    | with_reducible assumption | intro _ | with_reducible apply State.effReduce_keeps

theorem State.effVsoftmax_keeps {a0 : State} {a1 : Nat} {a2 : Desc} (hregs : k.regs = false)
    (hclusters : k.clusters = false) (hslice : k.slice = false) (hpad : k.pad = false) (hfab : k.fab = false)
    (hcol : k.col = false) (h : Keeps k m a0) :
    Keeps k m (State.effVsoftmax a0 a1 a2) := by
  unfold State.effVsoftmax
  try dsimp only
  repeat' first
    | with_reducible assumption | refine State.adderCheck_keeps hregs hclusters hfab hcol ?_ _ (by assumption)
    | refine State.adderCheck_keeps hregs hclusters hfab hcol ?_ _ (of_ite_some (by assumption))
    | with_reducible apply State.readOperands_keeps | with_reducible apply State.writeValues_keeps
    | with_reducible apply keeps_ite | with_reducible apply keeps_ite_fst | split
    | refine keeps_of_fst (by with_reducible assumption) ?_

theorem State.effVnorm_keeps {a0 : State} {a1 : Nat} {a2 : Desc} {a3 : Bool} (hregs : k.regs = false)
    (hclusters : k.clusters = false) (hslice : k.slice = false) (hpad : k.pad = false) (hfab : k.fab = false)
    (hcol : k.col = false) (h : Keeps k m a0) :
    Keeps k m (State.effVnorm a0 a1 a2 a3) := by
  unfold State.effVnorm
  try dsimp only
  repeat' first
    | with_reducible assumption | refine State.adderCheck_keeps hregs hclusters hfab hcol ?_ _ (by assumption)
    | refine State.adderCheck_keeps hregs hclusters hfab hcol ?_ _ (of_ite_some (by assumption))
    | with_reducible apply State.writeValues_keeps | with_reducible apply State.readValues_keeps
    | with_reducible apply keeps_ite | with_reducible apply keeps_ite_fst | split
    | refine keeps_of_fst (by with_reducible assumption) ?_

theorem State.effVrandUniform_keeps {a0 : State} {a1 : Nat} {a2 : Desc} (hregs : k.regs = false)
    (hclusters : k.clusters = false) (hslice : k.slice = false) (hpad : k.pad = false) (h : Keeps k m a0) :
    Keeps k m (State.effVrandUniform a0 a1 a2) := by
  unfold State.effVrandUniform
  try dsimp only
  repeat' first
    | with_reducible assumption | with_reducible apply State.writeLoc_keeps

theorem State.effVrandRaw_keeps {a0 : State} {a1 : Nat} {a2 : Desc} (hregs : k.regs = false)
    (hclusters : k.clusters = false) (hslice : k.slice = false) (hpad : k.pad = false) (h : Keeps k m a0) :
    Keeps k m (State.effVrandRaw a0 a1 a2) := by
  unfold State.effVrandRaw
  try dsimp only
  repeat' first
    | with_reducible assumption | with_reducible apply State.writeLoc_keeps

theorem State.effVtopk_keeps {a0 : State} {a1 : Nat} {a2 : Desc} (hregs : k.regs = false)
    (hclusters : k.clusters = false) (hslice : k.slice = false) (hpad : k.pad = false) (hfab : k.fab = false)
    (hcol : k.col = false) (h : Keeps k m a0) :
    Keeps k m (State.effVtopk a0 a1 a2) := by
  unfold State.effVtopk
  try dsimp only
  repeat' first
    | with_reducible assumption | with_reducible apply State.writeLoc_keeps | with_reducible apply State.readValues_keeps
    | with_reducible apply State.noteFlags_keeps | with_reducible apply keeps_ite | with_reducible apply keeps_ite_fst
    | split | refine keeps_of_fst (by with_reducible assumption) ?_

theorem State.effVgather_keeps {a0 : State} {a1 : Nat} {a2 : Desc} (hregs : k.regs = false)
    (hclusters : k.clusters = false) (hslice : k.slice = false) (hpad : k.pad = false) (hfab : k.fab = false)
    (hcol : k.col = false) (h : Keeps k m a0) :
    Keeps k m (State.effVgather a0 a1 a2) := by
  unfold State.effVgather
  try dsimp only
  repeat' first
    | with_reducible assumption | intro _ | with_reducible apply State.writeLoc_keeps
    | with_reducible apply State.readLoc_keeps | with_reducible apply State.readChecked_keeps
    | with_reducible apply State.refuse_keeps | with_reducible apply keeps_ite | with_reducible apply keeps_foldl
    | with_reducible apply keeps_ite_fst | with_reducible apply keeps_foldl_fst | split
    | refine keeps_of_fst (by with_reducible assumption) ?_

theorem State.effVscatter_keeps {a0 : State} {a1 : Nat} {a2 : Desc} (hregs : k.regs = false)
    (hclusters : k.clusters = false) (hslice : k.slice = false) (hpad : k.pad = false) (hfab : k.fab = false)
    (hcol : k.col = false) (h : Keeps k m a0) :
    Keeps k m (State.effVscatter a0 a1 a2) := by
  unfold State.effVscatter
  try dsimp only
  repeat' first
    | with_reducible assumption | intro _ | with_reducible apply State.readLoc_keeps
    | with_reducible apply State.writeLocal_keeps | with_reducible apply State.refuse_keeps
    | with_reducible apply keeps_ite | with_reducible apply keeps_foldl | with_reducible apply keeps_ite_fst
    | with_reducible apply keeps_foldl_fst | split | refine keeps_of_fst (by with_reducible assumption) ?_

theorem State.peek_keeps {a0 : State} {a1 a2 : Nat} {a3 : List Word} (hregs : k.regs = false)
    (hclusters : k.clusters = false) (hslice : k.slice = false) (hpad : k.pad = false) (hfab : k.fab = false)
    (hcol : k.col = false) (h : Keeps k m a0) :
    Keeps k m (State.peek a0 a1 a2 a3).1 := by
  unfold State.peek
  try dsimp only
  repeat' first
    | with_reducible assumption | with_reducible apply State.readChecked_keeps | with_reducible apply State.setClu_keeps
    | with_reducible apply keeps_ite | with_reducible apply keeps_ite_fst | split
    | refine keeps_of_fst (by with_reducible assumption) ?_

theorem State.issueThen_keeps
    {a0 : State} {a1 a2 a3 : Nat} {a4 : State → Step → List Word → Loc × Loc × Loc × Loc → State} (hregs : k.regs = false)
    (hclusters : k.clusters = false) (hslice : k.slice = false) (hpad : k.pad = false) (hfab : k.fab = false)
    (hcol : k.col = false) (h : Keeps k m a0) (f0 : ∀ s x1 x2 x3, Keeps k m s → Keeps k m (a4 s x1 x2 x3)) :
    Keeps k m (State.issueThen a0 a1 a2 a3 a4) := by
  unfold State.issueThen
  try dsimp only
  repeat' first
    | with_reducible assumption | intro _ | with_reducible apply f0 | with_reducible apply State.peek_keeps
    | with_reducible apply State.fetch_keeps | with_reducible apply State.refuse_keeps
    | with_reducible apply State.drawn_keeps | with_reducible apply keeps_ite | with_reducible apply keeps_ite_fst | split
    | refine keeps_of_fst (by with_reducible assumption) ?_

theorem State.execDesc_keeps {a0 : State} {a1 : Nat} {a2 : Desc} (hregs : k.regs = false)
    (hclusters : k.clusters = false) (hslice : k.slice = false) (hpad : k.pad = false) (hlines : k.lines = false)
    (hkeys : k.keys = false) (hfab : k.fab = false) (hcol : k.col = false) (h : Keeps k m a0) :
    Keeps k m (State.execDesc a0 a1 a2) := by
  unfold State.execDesc
  try dsimp only
  repeat' first
    | with_reducible assumption | with_reducible apply State.effVscatter_keeps
    | with_reducible apply State.effVgather_keeps | with_reducible apply State.effVtopk_keeps
    | with_reducible apply State.effVrandRaw_keeps | with_reducible apply State.effVrandUniform_keeps
    | with_reducible apply State.effVnorm_keeps | with_reducible apply State.effVsoftmax_keeps
    | with_reducible apply State.effVreduceMin_keeps | with_reducible apply State.effVreduceMax_keeps
    | with_reducible apply State.effVreduceSum_keeps | with_reducible apply State.effVsfu_keeps
    | with_reducible apply State.effVcvt_keeps | with_reducible apply State.effVselect_keeps
    | with_reducible apply State.effVcmp_keeps | with_reducible apply State.effVfma_keeps
    | with_reducible apply State.effVmin_keeps | with_reducible apply State.effVmax_keeps
    | with_reducible apply State.effVmul_keeps | with_reducible apply State.effVadd_keeps
    | with_reducible apply State.effAccScale_keeps | with_reducible apply State.effAccClear_keeps
    | with_reducible apply State.effDrain_keeps | with_reducible apply State.effMmaAdapt_keeps
    | with_reducible apply State.effMerge_keeps | with_reducible apply State.effMma_keeps
    | with_reducible apply State.effWload_keeps | with_reducible apply State.effTmovePush_keeps
    | with_reducible apply State.effTmovePull_keeps | with_reducible apply State.effLmove_keeps
    | with_reducible apply State.effBarrow_keeps | with_reducible apply keeps_ite | with_reducible apply keeps_ite_fst
    | split

theorem State.startNext_keeps {a0 : State} {a1 : Nat} {a2 : Engine} (hregs : k.regs = false)
    (hclusters : k.clusters = false) (hslice : k.slice = false) (hpad : k.pad = false) (hlines : k.lines = false)
    (hkeys : k.keys = false) (hfab : k.fab = false) (hcol : k.col = false) (h : Keeps k m a0) :
    Keeps k m (State.startNext a0 a1 a2) := by
  unfold State.startNext
  try dsimp only
  repeat' first
    | with_reducible assumption | intro _ | with_reducible apply State.execDesc_keeps
    | with_reducible apply State.enginePort_keeps | with_reducible apply State.shadowed_keeps
    | with_reducible apply State.setClu_keeps | with_reducible apply keeps_ite | with_reducible apply keeps_ite_fst | split

theorem State.doDescriptorStart_keeps {a0 : State} {a1 : Nat} {a2 : Engine} (hregs : k.regs = false)
    (hclusters : k.clusters = false) (hslice : k.slice = false) (hpad : k.pad = false) (hlines : k.lines = false)
    (hkeys : k.keys = false) (hfab : k.fab = false) (hcol : k.col = false) (h : Keeps k m a0) :
    Keeps k m (State.doDescriptorStart a0 a1 a2) := by
  unfold State.doDescriptorStart
  try dsimp only
  repeat' first
    | with_reducible assumption | with_reducible apply State.startNext_keeps | with_reducible apply keeps_ite

theorem State.retire_keeps {a0 : State} {a1 : Nat} {a2 : Desc} (hregs : k.regs = false)
    (hclusters : k.clusters = false) (h : Keeps k m a0) :
    Keeps k m (State.retire a0 a1 a2) := by
  unfold State.retire
  try dsimp only
  repeat' first
    | with_reducible assumption | with_reducible apply State.signal_keeps | with_reducible apply State.setClu_keeps

theorem State.cascade_keeps {a0 : State} {a1 : Nat} (hregs : k.regs = false) (hclusters : k.clusters = false)
    (h : Keeps k m a0) :
    Keeps k m (State.cascade a0 a1) := by
  unfold State.cascade
  try dsimp only
  repeat' first
    | with_reducible assumption | intro _ | with_reducible apply State.retire_keeps | with_reducible apply keeps_ite
    | with_reducible apply keeps_foldl

theorem State.doDescriptorComplete_keeps {a0 : State} {a1 a2 : Nat} (hregs : k.regs = false)
    (hclusters : k.clusters = false) (hslice : k.slice = false) (hpad : k.pad = false) (h : Keeps k m a0) :
    Keeps k m (State.doDescriptorComplete a0 a1 a2) := by
  unfold State.doDescriptorComplete
  try dsimp only
  repeat' first
    | with_reducible assumption | with_reducible apply State.cascade_keeps | with_reducible apply State.retire_keeps
    | with_reducible apply State.landBarrow_keeps | with_reducible apply State.setClu_keeps
    | with_reducible apply keeps_ite | with_reducible apply keeps_ite_fst | split

theorem State.doHubTallySignalLand_keeps {a0 : State} {a1 a2 : Nat} (hregs : k.regs = false)
    (hclusters : k.clusters = false) (h : Keeps k m a0) :
    Keeps k m (State.doHubTallySignalLand a0 a1 a2) := by
  unfold State.doHubTallySignalLand
  try dsimp only
  repeat' first
    | with_reducible assumption | with_reducible apply State.tallyStepAdd_keeps | with_reducible apply State.setClu_keeps
    | with_reducible apply keeps_ite | with_reducible apply keeps_ite_fst | split

theorem State.configRing_keeps {a0 : State} {a1 : Nat} {a2 : List Word} (hregs : k.regs = false) (h : Keeps k m a0) :
    Keeps k m (State.configRing a0 a1 a2) := by
  unfold State.configRing
  try dsimp only
  repeat' first
    | with_reducible assumption | with_reducible apply State.setReg_keeps

theorem State.enqueue_keeps
    {a0 : State} {a1 : Nat} {a2 : Step} {a3 : List Word} {a4 : Loc × Loc × Loc × Loc} {a5 : Engine}
    (hregs : k.regs = false) (hclusters : k.clusters = false) (h : Keeps k m a0) :
    Keeps k m (State.enqueue a0 a1 a2 a3 a4 a5) := by
  unfold State.enqueue
  try dsimp only
  repeat' first
    | with_reducible assumption | with_reducible apply State.configRing_keeps | with_reducible apply State.advance_keeps
    | with_reducible apply State.putStep_keeps | with_reducible apply State.setClu_keeps | with_reducible apply keeps_ite

theorem State.issueDesc_keeps {a0 : State} {a1 a2 a3 : Nat} (hregs : k.regs = false) (hclusters : k.clusters = false)
    (hslice : k.slice = false) (hpad : k.pad = false) (hlines : k.lines = false) (hkeys : k.keys = false)
    (hfab : k.fab = false) (hcol : k.col = false) (h : Keeps k m a0) :
    Keeps k m (State.issueDesc a0 a1 a2 a3) := by
  unfold State.issueDesc
  try dsimp only
  repeat' first
    | with_reducible assumption | intro _ | with_reducible apply State.enqueue_keeps
    | with_reducible apply State.startNext_keeps | with_reducible apply State.issueThen_keeps
    | with_reducible apply keeps_ite | with_reducible apply keeps_ite_fst | split

theorem State.control_keeps {a0 : State} {a1 a2 a3 : Nat} {a4 : State → Step → List Word → Loc × Loc → State}
    (hregs : k.regs = false) (hclusters : k.clusters = false) (hslice : k.slice = false) (hpad : k.pad = false)
    (hfab : k.fab = false) (hcol : k.col = false) (h : Keeps k m a0)
    (f0 : ∀ s x1 x2 x3, Keeps k m s → Keeps k m (a4 s x1 x2 x3)) :
    Keeps k m (State.control a0 a1 a2 a3 a4) := by
  unfold State.control
  try dsimp only
  repeat' first
    | with_reducible assumption | intro _ | with_reducible apply f0 | with_reducible apply State.issueThen_keeps
    | with_reducible apply State.putStep_keeps | with_reducible apply keeps_ite

theorem State.finish_keeps {a0 : State} {a1 : Nat} {a2 : List Word} (hregs : k.regs = false)
    (hclusters : k.clusters = false) (h : Keeps k m a0) :
    Keeps k m (State.finish a0 a1 a2) := by
  unfold State.finish
  try dsimp only
  repeat' first
    | with_reducible assumption | with_reducible apply State.advance_keeps | with_reducible apply State.signal_keeps

theorem State.effTsignal_keeps {a0 : State} {a1 : Nat} {a2 : List Word} (hregs : k.regs = false)
    (hclusters : k.clusters = false) (h : Keeps k m a0) :
    Keeps k m (State.effTsignal a0 a1 a2) := by
  unfold State.effTsignal
  try dsimp only
  repeat' first
    | with_reducible assumption | with_reducible apply State.finish_keeps | with_reducible apply State.setClu_keeps
    | with_reducible apply State.addWrap_keeps | with_reducible apply keeps_ite | with_reducible apply keeps_ite_fst
    | split

theorem State.effTadd_keeps {a0 : State} {a1 : Nat} {a2 : Step} {a3 : List Word} (hregs : k.regs = false)
    (hclusters : k.clusters = false) (hfab : k.fab = false) (hcol : k.col = false) (h : Keeps k m a0) :
    Keeps k m (State.effTadd a0 a1 a2 a3) := by
  unfold State.effTadd
  try dsimp only
  repeat' first
    | with_reducible assumption | with_reducible apply State.finish_keeps | with_reducible apply State.replayStep_keeps
    | with_reducible apply State.refuse_keeps | with_reducible apply State.putStep_keeps | with_reducible apply keeps_ite
    | with_reducible apply keeps_ite_fst | split

theorem State.effLoop_keeps {a0 : State} {a1 : Nat} {a2 : List Word} (hregs : k.regs = false)
    (hclusters : k.clusters = false) (hfab : k.fab = false) (hcol : k.col = false) (h : Keeps k m a0) :
    Keeps k m (State.effLoop a0 a1 a2) := by
  unfold State.effLoop
  try dsimp only
  repeat' first
    | with_reducible assumption | with_reducible apply State.finish_keeps | with_reducible apply State.goto_keeps
    | with_reducible apply State.signal_keeps | with_reducible apply State.refuse_keeps
    | with_reducible apply State.setClu_keeps | with_reducible apply keeps_ite

theorem State.effEndloop_keeps {a0 : State} {a1 : Nat} {a2 : List Word} (hregs : k.regs = false)
    (hclusters : k.clusters = false) (h : Keeps k m a0) :
    Keeps k m (State.effEndloop a0 a1 a2) := by
  unfold State.effEndloop
  try dsimp only
  repeat' first
    | with_reducible assumption | with_reducible apply State.finish_keeps | with_reducible apply State.goto_keeps
    | with_reducible apply State.signal_keeps | with_reducible apply State.setClu_keeps | with_reducible apply keeps_ite
    | with_reducible apply keeps_ite_fst | split

theorem State.effBranch_keeps {a0 : State} {a1 : Nat} {a2 : List Word} (hregs : k.regs = false)
    (hclusters : k.clusters = false) (h : Keeps k m a0) :
    Keeps k m (State.effBranch a0 a1 a2) := by
  unfold State.effBranch
  try dsimp only
  repeat' first
    | with_reducible assumption | with_reducible apply State.finish_keeps | with_reducible apply State.goto_keeps
    | with_reducible apply State.signal_keeps | with_reducible apply State.setClu_keeps | with_reducible apply keeps_ite
    | with_reducible apply keeps_ite_fst | split

theorem State.effCall_keeps {a0 : State} {a1 : Nat} {a2 : List Word} (hregs : k.regs = false)
    (hclusters : k.clusters = false) (h : Keeps k m a0) :
    Keeps k m (State.effCall a0 a1 a2) := by
  unfold State.effCall
  try dsimp only
  repeat' first
    | with_reducible assumption | with_reducible apply State.goto_keeps | with_reducible apply State.signal_keeps
    | with_reducible apply State.setClu_keeps

theorem State.effRet_keeps {a0 : State} {a1 : Nat} {a2 : List Word} (hregs : k.regs = false)
    (hclusters : k.clusters = false) (h : Keeps k m a0) :
    Keeps k m (State.effRet a0 a1 a2) := by
  unfold State.effRet
  try dsimp only
  repeat' first
    | with_reducible assumption | with_reducible apply State.goto_keeps | with_reducible apply State.signal_keeps
    | with_reducible apply State.setClu_keeps | with_reducible apply keeps_ite | with_reducible apply keeps_ite_fst | split

theorem State.effStepEnd_keeps {a0 : State} {a1 : Nat} {a2 : Step} {a3 : List Word} (hregs : k.regs = false)
    (hclusters : k.clusters = false) (hfab : k.fab = false) (hcol : k.col = false) (h : Keeps k m a0) :
    Keeps k m (State.effStepEnd a0 a1 a2 a3) := by
  unfold State.effStepEnd
  try dsimp only
  repeat' first
    | with_reducible assumption | with_reducible apply State.sendReadies_keeps | with_reducible apply State.signal_keeps
    | with_reducible apply State.tallyStepAdd_keeps | with_reducible apply State.putStep_keeps
    | with_reducible apply State.setSeq_keeps | with_reducible apply keeps_ite | with_reducible apply keeps_ite_fst | split

theorem State.doCollEnter_keeps {a0 : State} {a1 a2 : Nat} (hregs : k.regs = false) (hclusters : k.clusters = false)
    (hslice : k.slice = false) (hpad : k.pad = false) (hfab : k.fab = false) (hcol : k.col = false) (h : Keeps k m a0) :
    Keeps k m (State.doCollEnter a0 a1 a2) := by
  unfold State.doCollEnter
  try dsimp only
  repeat' first
    | with_reducible assumption | intro _ | with_reducible apply State.control_keeps
    | with_reducible apply State.collEnter_keeps

end Sys2Proof.Machine
end

