-- ==== Sys2Proof/Laws/KeepsDispatch.lean ====
section
/-! SUPPORT. What the operations leave alone: one lemma per operation of intake, contexts, windows and images, steps. -/

namespace Sys2Proof.Machine

open Sys2Proof.Safety

variable {k : Kept} {m : State}

theorem State.emptyCell_keeps {a0 : State} {a1 a2 : Nat} (h : Keeps k m a0) :
    Keeps k m (State.emptyCell a0 a1 a2) := by
  unfold State.emptyCell
  try dsimp only
  repeat' first
    | with_reducible assumption | with_reducible exact Or.inl ‹_› | with_reducible exact Eq.refl _
    | with_reducible exact Or.inr rfl | with_reducible exact Or.inr ⟨rfl, rfl⟩
    | with_reducible exact Or.inr ⟨rfl, rfl, rfl⟩ | with_reducible apply keeps_ite_fst | split
    | refine keeps_of_fst (by with_reducible assumption) ?_ | with_reducible apply keeps_upd

theorem State.landCell_keeps {a0 : State} {a1 a2 a3 : Nat} {a4 : List (Option Byte)} (hregs : k.regs = false)
    (h : Keeps k m a0) :
    Keeps k m (State.landCell a0 a1 a2 a3 a4) := by
  unfold State.landCell
  try dsimp only
  repeat' first
    | with_reducible assumption | with_reducible exact Or.inl ‹_› | with_reducible exact Eq.refl _
    | with_reducible exact Or.inr rfl | with_reducible exact Or.inr ⟨rfl, rfl⟩
    | with_reducible exact Or.inr ⟨rfl, rfl, rfl⟩ | with_reducible apply State.raiseEvent_keeps
    | with_reducible apply State.addSat_keeps | with_reducible apply keeps_ite | with_reducible apply keeps_ite_fst | split
    | refine keeps_of_fst (by with_reducible assumption) ?_ | with_reducible apply keeps_upd

theorem State.intakeBytes_keeps {a0 : State} {a1 : Nat} {a2 : List (Option Byte)} (hregs : k.regs = false)
    (h : Keeps k m a0) :
    Keeps k m (State.intakeBytes a0 a1 a2) := by
  unfold State.intakeBytes
  try dsimp only
  repeat' first
    | with_reducible assumption | intro _ | with_reducible apply State.landCell_keeps
    | with_reducible apply State.addSat_keeps | with_reducible apply keeps_ite | with_reducible apply keeps_foldl

theorem State.doIntakeWrite_keeps {a0 : State} {a1 : Nat} {a2 : HostData} (hregs : k.regs = false)
    (hcfg : k.cfg = false) (h : Keeps k m a0) :
    Keeps k m (State.doIntakeWrite a0 a1 a2) := by
  unfold State.doIntakeWrite
  try dsimp only
  repeat' first
    | with_reducible assumption | with_reducible apply State.intakeBytes_keeps | with_reducible apply State.aer_keeps
    | with_reducible apply keeps_ite | with_reducible apply keeps_ite_fst | split

theorem State.doLaneStallTimeout_keeps {a0 : State} {a1 : Nat} (hregs : k.regs = false) (h : Keeps k m a0) :
    Keeps k m (State.doLaneStallTimeout a0 a1) := by
  unfold State.doLaneStallTimeout
  try dsimp only
  repeat' first
    | with_reducible assumption | with_reducible apply State.setFld_keeps | with_reducible apply keeps_ite

theorem State.laneReset_keeps {a0 : State} {a1 : Nat} (hregs : k.regs = false) (h : Keeps k m a0) :
    Keeps k m (State.laneReset a0 a1) := by
  unfold State.laneReset
  try dsimp only
  repeat' first
    | with_reducible assumption | intro _ | with_reducible apply State.emptyCell_keeps
    | with_reducible apply State.setFld_keeps | with_reducible apply keeps_foldl

theorem State.doLaneReset_keeps {a0 : State} {a1 : Agent} {a2 : Nat} (hregs : k.regs = false) (h : Keeps k m a0) :
    Keeps k m (State.doLaneReset a0 a1 a2) := by
  unfold State.doLaneReset
  try dsimp only
  repeat' first
    | with_reducible assumption | intro _ | with_reducible apply State.laneReset_keeps
    | with_reducible apply State.gate_keeps | with_reducible apply keeps_ite

theorem State.endMsg_keeps {a0 : State} {a1 : List Word} {a2 a3 : Nat} (h : Keeps k m a0) :
    Keeps k m (State.endMsg a0 a1 a2 a3) := by
  unfold State.endMsg
  try dsimp only
  repeat' first
    | with_reducible assumption | with_reducible apply State.postRecord_keeps

theorem State.noteFound_keeps {a0 : State} (h : Keeps k m a0) :
    Keeps k m (State.noteFound a0) := by
  unfold State.noteFound
  try dsimp only
  repeat' first
    | with_reducible assumption | with_reducible exact Or.inl ‹_› | with_reducible exact Eq.refl _
    | with_reducible exact Or.inr rfl | with_reducible exact Or.inr ⟨rfl, rfl⟩
    | with_reducible exact Or.inr ⟨rfl, rfl, rfl⟩ | with_reducible apply keeps_ite | with_reducible apply keeps_ite_fst
    | split | refine keeps_of_fst (by with_reducible assumption) ?_ | with_reducible apply keeps_upd

theorem State.takeTeardown_keeps {a0 : State} {a1 : Nat} {a2 : List Word} (hslots : k.slots = false) (h : Keeps k m a0)
    :
    Keeps k m (State.takeTeardown a0 a1 a2) := by
  unfold State.takeTeardown
  try dsimp only
  repeat' first
    | with_reducible assumption | with_reducible exact Or.inl ‹_› | with_reducible exact Eq.refl _
    | with_reducible exact Or.inr rfl | with_reducible exact Or.inr ⟨rfl, rfl⟩
    | with_reducible exact Or.inr ⟨rfl, rfl, rfl⟩ | with_reducible apply State.setCtx_keeps
    | with_reducible apply keeps_ite | with_reducible apply keeps_ite_fst | split
    | refine keeps_of_fst (by with_reducible assumption) ?_ | with_reducible apply keeps_upd

theorem State.pended_keeps {a0 : State} {a1 : Nat} {a2 : List Word} (hslots : k.slots = false) (h : Keeps k m a0) :
    Keeps k m (State.pended a0 a1 a2) := by
  unfold State.pended
  try dsimp only
  repeat' first
    | with_reducible assumption | with_reducible exact Or.inl ‹_› | with_reducible exact Eq.refl _
    | with_reducible exact Or.inr rfl | with_reducible exact Or.inr ⟨rfl, rfl⟩
    | with_reducible exact Or.inr ⟨rfl, rfl, rfl⟩ | with_reducible apply State.takeTeardown_keeps
    | with_reducible apply State.noteFound_keeps | with_reducible apply keeps_ite_fst | split
    | refine keeps_of_fst (by with_reducible assumption) ?_ | with_reducible apply keeps_upd

theorem State.countFailed_keeps {a0 : State} {a1 : List Nat} (hslots : k.slots = false) (h : Keeps k m a0) :
    Keeps k m (State.countFailed a0 a1) := by
  unfold State.countFailed
  try dsimp only
  repeat' first
    | with_reducible assumption | intro _ | with_reducible apply State.setCtx_keeps | with_reducible apply keeps_foldl

theorem State.endStepMsg_keeps {a0 : State} {a1 : List Word} {a2 a3 : Nat} (hslots : k.slots = false)
    (h : Keeps k m a0) :
    Keeps k m (State.endStepMsg a0 a1 a2 a3) := by
  unfold State.endStepMsg
  try dsimp only
  repeat' first
    | with_reducible assumption | with_reducible apply State.countFailed_keeps | with_reducible apply State.endMsg_keeps
    | with_reducible apply keeps_ite

theorem State.doTake_keeps {a0 : State} {a1 : Nat} (hregs : k.regs = false) (hslots : k.slots = false)
    (h : Keeps k m a0) :
    Keeps k m (State.doTake a0 a1) := by
  unfold State.doTake
  try dsimp only
  repeat' first
    | with_reducible assumption | with_reducible exact Or.inl ‹_› | with_reducible exact Eq.refl _
    | with_reducible exact Or.inr rfl | with_reducible exact Or.inr ⟨rfl, rfl⟩
    | with_reducible exact Or.inr ⟨rfl, rfl, rfl⟩ | with_reducible apply State.endStepMsg_keeps
    | with_reducible apply State.pended_keeps | with_reducible apply State.endMsg_keeps
    | with_reducible apply State.emptyCell_keeps | with_reducible apply State.setFld_keeps | with_reducible apply keeps_ite
    | with_reducible apply keeps_ite_fst | split | refine keeps_of_fst (by with_reducible assumption) ?_
    | with_reducible apply keeps_upd

theorem State.doCreditWrite_keeps {a0 : State} {a1 : Nat} (h : Keeps k m a0) :
    Keeps k m (State.doCreditWrite a0 a1) := by
  unfold State.doCreditWrite
  try dsimp only
  repeat' first
    | with_reducible assumption | with_reducible exact Or.inl ‹_› | with_reducible exact Eq.refl _
    | with_reducible exact Or.inr rfl | with_reducible exact Or.inr ⟨rfl, rfl⟩
    | with_reducible exact Or.inr ⟨rfl, rfl, rfl⟩ | with_reducible apply State.postWrite_keeps
    | with_reducible apply keeps_ite | with_reducible apply keeps_ite_fst | split
    | refine keeps_of_fst (by with_reducible assumption) ?_ | with_reducible apply keeps_upd

theorem State.doCtxPeekSelWrite_keeps {a0 : State} {a1 : Agent} {a2 : Word} (hregs : k.regs = false) (h : Keeps k m a0)
    :
    Keeps k m (State.doCtxPeekSelWrite a0 a1 a2) := by
  unfold State.doCtxPeekSelWrite
  try dsimp only
  repeat' first
    | with_reducible assumption | intro _ | with_reducible apply State.gate_keeps | with_reducible apply State.setFld_keeps
    | with_reducible apply State.setReg_keeps | with_reducible apply keeps_foldl

theorem State.doTlyAdd_keeps {a0 : State} {a1 : Agent} {a2 : Nat} {a3 : Word} (hregs : k.regs = false)
    (h : Keeps k m a0) :
    Keeps k m (State.doTlyAdd a0 a1 a2 a3) := by
  unfold State.doTlyAdd
  try dsimp only
  repeat' first
    | with_reducible assumption | intro _ | with_reducible apply State.tallyAdd_keeps
    | with_reducible apply State.gate_keeps | with_reducible apply keeps_ite

theorem State.noteUnsig_keeps {a0 : State} {a1 : Nat} (hregs : k.regs = false) (h : Keeps k m a0) :
    Keeps k m (State.noteUnsig a0 a1) := by
  unfold State.noteUnsig
  try dsimp only
  repeat' first
    | with_reducible assumption | with_reducible exact Or.inl ‹_› | with_reducible exact Eq.refl _
    | with_reducible exact Or.inr rfl | with_reducible exact Or.inr ⟨rfl, rfl⟩
    | with_reducible exact Or.inr ⟨rfl, rfl, rfl⟩ | with_reducible apply State.raiseVector_keeps
    | with_reducible apply keeps_ite | with_reducible apply keeps_ite_fst | split
    | refine keeps_of_fst (by with_reducible assumption) ?_ | with_reducible apply keeps_upd

theorem State.doCompletionRecordWrite_keeps {a0 : State} {a1 : Nat} (hregs : k.regs = false) (h : Keeps k m a0) :
    Keeps k m (State.doCompletionRecordWrite a0 a1) := by
  unfold State.doCompletionRecordWrite
  try dsimp only
  repeat' first
    | with_reducible assumption | with_reducible exact Or.inl ‹_› | with_reducible exact Eq.refl _
    | with_reducible exact Or.inr rfl | with_reducible exact Or.inr ⟨rfl, rfl⟩
    | with_reducible exact Or.inr ⟨rfl, rfl, rfl⟩ | with_reducible apply State.noteUnsig_keeps
    | with_reducible apply State.postWrite_keeps | with_reducible apply keeps_ite | with_reducible apply keeps_ite_fst
    | split | refine keeps_of_fst (by with_reducible assumption) ?_ | with_reducible apply keeps_upd

theorem State.doCoalesceTimeout_keeps {a0 : State} {a1 : Nat} (hregs : k.regs = false) (h : Keeps k m a0) :
    Keeps k m (State.doCoalesceTimeout a0 a1) := by
  unfold State.doCoalesceTimeout
  try dsimp only
  repeat' first
    | with_reducible assumption | with_reducible exact Or.inl ‹_› | with_reducible exact Eq.refl _
    | with_reducible exact Or.inr rfl | with_reducible exact Or.inr ⟨rfl, rfl⟩
    | with_reducible exact Or.inr ⟨rfl, rfl, rfl⟩ | with_reducible apply State.raiseVector_keeps
    | with_reducible apply keeps_ite | with_reducible apply keeps_ite_fst | split
    | refine keeps_of_fst (by with_reducible assumption) ?_ | with_reducible apply keeps_upd

theorem State.doMsixPendingSend_keeps {a0 : State} {a1 : Nat} (hregs : k.regs = false) (h : Keeps k m a0) :
    Keeps k m (State.doMsixPendingSend a0 a1) := by
  unfold State.doMsixPendingSend
  try dsimp only
  repeat' first
    | with_reducible assumption | with_reducible apply State.sendVector_keeps | with_reducible apply State.setReg_keeps
    | with_reducible apply keeps_ite

theorem State.doCringHeadWrite_keeps {a0 : State} {a1 : Agent} {a2 : Nat} {a3 : BitVec 32} (hregs : k.regs = false)
    (h : Keeps k m a0) :
    Keeps k m (State.doCringHeadWrite a0 a1 a2 a3) := by
  unfold State.doCringHeadWrite
  try dsimp only
  repeat' first
    | with_reducible assumption | intro _ | with_reducible apply State.gate_keeps | with_reducible apply State.setFld_keeps
    | with_reducible apply keeps_ite

theorem State.showContexts_keeps {a0 : State} (hregs : k.regs = false) (h : Keeps k m a0) :
    Keeps k m (State.showContexts a0) := by
  unfold State.showContexts
  try dsimp only
  repeat' first
    | with_reducible assumption | with_reducible apply State.setDev_keeps | with_reducible apply State.setFld_keeps
    | with_reducible apply keeps_ite

theorem State.putSetTenant_keeps {a0 : State} {a1 a2 : Nat} (htables : k.tables = false) (h : Keeps k m a0) :
    Keeps k m (State.putSetTenant a0 a1 a2) := by
  unfold State.putSetTenant
  try dsimp only
  repeat' first
    | with_reducible assumption | with_reducible exact Or.inl ‹_› | with_reducible exact Eq.refl _
    | with_reducible exact Or.inr rfl | with_reducible exact Or.inr ⟨rfl, rfl⟩
    | with_reducible exact Or.inr ⟨rfl, rfl, rfl⟩ | with_reducible apply keeps_ite_fst | split
    | refine keeps_of_fst (by with_reducible assumption) ?_ | with_reducible apply keeps_upd

theorem State.settleSet_keeps {a0 : State} {a1 : Nat} (htables : k.tables = false) (h : Keeps k m a0) :
    Keeps k m (State.settleSet a0 a1) := by
  unfold State.settleSet
  try dsimp only
  repeat' first
    | with_reducible assumption | with_reducible apply State.putSetTenant_keeps | with_reducible apply keeps_ite

theorem State.setKeyRefs_keeps {a0 : State} {a1 a2 : Nat} (hkeys : k.keys = false) (h : Keeps k m a0) :
    Keeps k m (State.setKeyRefs a0 a1 a2) := by
  unfold State.setKeyRefs
  try dsimp only
  repeat' first
    | with_reducible assumption | with_reducible exact Or.inl ‹_› | with_reducible exact Eq.refl _
    | with_reducible exact Or.inr rfl | with_reducible exact Or.inr ⟨rfl, rfl⟩
    | with_reducible exact Or.inr ⟨rfl, rfl, rfl⟩ | with_reducible apply keeps_ite_fst | split
    | refine keeps_of_fst (by with_reducible assumption) ?_ | with_reducible apply keeps_upd

theorem State.logKey_keeps {a0 : State} {a1 a2 : Nat} {a3 : KeySlot} (hregs : k.regs = false) (h : Keeps k m a0) :
    Keeps k m (State.logKey a0 a1 a2 a3) := by
  unfold State.logKey
  try dsimp only
  repeat' first
    | with_reducible assumption | with_reducible apply State.logChange_keeps

theorem State.logImage_keeps {a0 : State} {a1 a2 : Nat} {a3 : Bytes} (hregs : k.regs = false) (h : Keeps k m a0) :
    Keeps k m (State.logImage a0 a1 a2 a3) := by
  unfold State.logImage
  try dsimp only
  repeat' first
    | with_reducible assumption | with_reducible apply State.logChange_keeps

theorem State.unpend_keeps {a0 : State} {a1 : Nat} (h : Keeps k m a0) :
    Keeps k m (State.unpend a0 a1) := by
  unfold State.unpend
  try dsimp only
  repeat' first
    | with_reducible assumption | with_reducible exact Or.inl ‹_› | with_reducible exact Eq.refl _
    | with_reducible exact Or.inr rfl | with_reducible exact Or.inr ⟨rfl, rfl⟩
    | with_reducible exact Or.inr ⟨rfl, rfl, rfl⟩ | with_reducible apply keeps_ite_fst | split
    | refine keeps_of_fst (by with_reducible assumption) ?_ | with_reducible apply keeps_upd

theorem State.readKeys_keeps {a0 : State} {a1 : List Word} (hregs : k.regs = false) (hkeys : k.keys = false)
    (h : Keeps k m a0) :
    Keeps k m (State.readKeys a0 a1) := by
  unfold State.readKeys
  try dsimp only
  repeat' first
    | with_reducible assumption | with_reducible apply State.checkKey_keeps | with_reducible apply keeps_ite

theorem State.manage_keeps
    {a0 : State} {a1 a2 : Nat} {a3 : State → List Word → Option Nat} {a4 : State → List Word → State}
    (hregs : k.regs = false) (hkeys : k.keys = false) (h : Keeps k m a0) (f0 : ∀ s x1, Keeps k m s → Keeps k m (a4 s x1)) :
    Keeps k m (State.manage a0 a1 a2 a3 a4) := by
  unfold State.manage
  try dsimp only
  repeat' first
    | with_reducible assumption | intro _ | with_reducible apply f0 | with_reducible apply State.readKeys_keeps
    | with_reducible apply State.unpend_keeps | with_reducible apply State.endMsg_keeps | with_reducible apply keeps_ite
    | with_reducible apply keeps_ite_fst | split

theorem State.openSlot_keeps {a0 : State} {a1 : List Word} (hregs : k.regs = false) (hslots : k.slots = false)
    (htables : k.tables = false) (hkeys : k.keys = false) (h : Keeps k m a0) :
    Keeps k m (State.openSlot a0 a1) := by
  unfold State.openSlot
  try dsimp only
  repeat' first
    | with_reducible assumption | with_reducible exact Or.inl ‹_› | with_reducible exact Eq.refl _
    | with_reducible exact Or.inr rfl | with_reducible exact Or.inr ⟨rfl, rfl⟩
    | with_reducible exact Or.inr ⟨rfl, rfl, rfl⟩ | intro _ | with_reducible apply State.setKeyRefs_keeps
    | with_reducible apply State.putSetTenant_keeps | with_reducible apply State.showContexts_keeps
    | with_reducible apply State.endMsg_keeps | with_reducible apply State.setCtx_keeps
    | with_reducible apply State.setSlotWord_keeps | with_reducible apply keeps_ite | with_reducible apply keeps_foldl
    | with_reducible apply keeps_ite_fst | with_reducible apply keeps_foldl_fst | split
    | refine keeps_of_fst (by with_reducible assumption) ?_ | with_reducible apply keeps_upd

theorem State.doOpen_keeps {a0 : State} {a1 : Nat} (hregs : k.regs = false) (hslots : k.slots = false)
    (htables : k.tables = false) (hkeys : k.keys = false) (h : Keeps k m a0) :
    Keeps k m (State.doOpen a0 a1) := by
  unfold State.doOpen
  try dsimp only
  repeat' first
    | with_reducible assumption | intro _ | with_reducible apply State.openSlot_keeps
    | with_reducible apply State.manage_keeps

theorem State.putWindow_keeps {a0 : State} {a1 : List Word} (hregs : k.regs = false) (htables : k.tables = false)
    (h : Keeps k m a0) :
    Keeps k m (State.putWindow a0 a1) := by
  unfold State.putWindow
  try dsimp only
  repeat' first
    | with_reducible assumption | with_reducible exact Or.inl ‹_› | with_reducible exact Eq.refl _
    | with_reducible exact Or.inr rfl | with_reducible exact Or.inr ⟨rfl, rfl⟩
    | with_reducible exact Or.inr ⟨rfl, rfl, rfl⟩ | with_reducible apply State.settleSet_keeps
    | with_reducible apply State.putSetTenant_keeps | with_reducible apply State.endMsg_keeps
    | with_reducible apply State.logChange_keeps | with_reducible apply keeps_ite_fst | split
    | refine keeps_of_fst (by with_reducible assumption) ?_ | with_reducible apply keeps_upd

theorem State.doSetWindow_keeps {a0 : State} {a1 : Nat} (hregs : k.regs = false) (htables : k.tables = false)
    (hkeys : k.keys = false) (h : Keeps k m a0) :
    Keeps k m (State.doSetWindow a0 a1) := by
  unfold State.doSetWindow
  try dsimp only
  repeat' first
    | with_reducible assumption | intro _ | with_reducible apply State.putWindow_keeps
    | with_reducible apply State.manage_keeps

theorem State.doSetAdapter_keeps {a0 : State} {a1 : Nat} (hregs : k.regs = false) (hslots : k.slots = false)
    (hkeys : k.keys = false) (h : Keeps k m a0) :
    Keeps k m (State.doSetAdapter a0 a1) := by
  unfold State.doSetAdapter
  try dsimp only
  repeat' first
    | with_reducible assumption | intro _ | with_reducible apply State.manage_keeps
    | with_reducible apply State.endMsg_keeps | with_reducible apply State.setCtx_keeps

theorem State.doLoadKey_keeps {a0 : State} {a1 : Nat} (hregs : k.regs = false) (hkeys : k.keys = false)
    (h : Keeps k m a0) :
    Keeps k m (State.doLoadKey a0 a1) := by
  unfold State.doLoadKey
  try dsimp only
  repeat' first
    | with_reducible assumption | intro _ | with_reducible apply State.manage_keeps
    | with_reducible apply State.logKey_keeps | with_reducible apply State.endMsg_keeps
    | with_reducible apply State.setKeySlot_keeps

theorem State.doClearKey_keeps {a0 : State} {a1 : Nat} (hregs : k.regs = false) (hkeys : k.keys = false)
    (h : Keeps k m a0) :
    Keeps k m (State.doClearKey a0 a1) := by
  unfold State.doClearKey
  try dsimp only
  repeat' first
    | with_reducible assumption | intro _ | with_reducible apply State.manage_keeps
    | with_reducible apply State.logKey_keeps | with_reducible apply State.endMsg_keeps
    | with_reducible apply State.setKeySlot_keeps

theorem State.setImageState_keeps {a0 : State} {a1 a2 : Nat} (hregs : k.regs = false) (h : Keeps k m a0) :
    Keeps k m (State.setImageState a0 a1 a2) := by
  unfold State.setImageState
  try dsimp only
  repeat' first
    | with_reducible assumption | with_reducible apply State.setFld_keeps

theorem State.startImage_keeps {a0 : State} {a1 : List Word} (hregs : k.regs = false) (htables : k.tables = false)
    (h : Keeps k m a0) :
    Keeps k m (State.startImage a0 a1) := by
  unfold State.startImage
  try dsimp only
  repeat' first
    | with_reducible assumption | with_reducible exact Or.inl ‹_› | with_reducible exact Eq.refl _
    | with_reducible exact Or.inr rfl | with_reducible exact Or.inr ⟨rfl, rfl⟩
    | with_reducible exact Or.inr ⟨rfl, rfl, rfl⟩ | intro _ | with_reducible apply State.setImageState_keeps
    | with_reducible apply State.logImage_keeps | with_reducible apply State.setFld_keeps | with_reducible apply keeps_ite
    | with_reducible apply keeps_foldl | with_reducible apply keeps_ite_fst | with_reducible apply keeps_foldl_fst | split
    | refine keeps_of_fst (by with_reducible assumption) ?_ | with_reducible apply keeps_upd

theorem State.doLoadImage_keeps {a0 : State} {a1 : Nat} (hregs : k.regs = false) (htables : k.tables = false)
    (hkeys : k.keys = false) (h : Keeps k m a0) :
    Keeps k m (State.doLoadImage a0 a1) := by
  unfold State.doLoadImage
  try dsimp only
  repeat' first
    | with_reducible assumption | intro _ | with_reducible apply State.startImage_keeps
    | with_reducible apply State.manage_keeps

theorem copyLine_keeps {a0 a1 a2 : Nat} {a3 : State × CopyEnd} (hregs : k.regs = false)
    (hclusters : k.clusters = false) (hslice : k.slice = false) (hpad : k.pad = false) (hlines : k.lines = false)
    (h : Keeps k m a3.1) :
    Keeps k m (copyLine a0 a1 a2 a3).1 := by
  unfold copyLine
  try dsimp only
  repeat' first
    | with_reducible assumption | with_reducible apply State.fetchTier_keeps | with_reducible apply State.writeLocal_keeps
    | with_reducible apply keeps_ite | with_reducible apply keeps_ite_fst | split
    | refine keeps_of_fst (by with_reducible assumption) ?_

theorem State.copyImageTo_keeps {a0 : State} {a1 a2 : Nat} (hregs : k.regs = false) (hclusters : k.clusters = false)
    (hslice : k.slice = false) (hpad : k.pad = false) (hlines : k.lines = false) (h : Keeps k m a0) :
    Keeps k m (State.copyImageTo a0 a1 a2).1 := by
  unfold State.copyImageTo
  try dsimp only
  repeat' first
    | with_reducible assumption | intro _ | with_reducible apply copyLine_keeps | with_reducible apply keeps_foldl
    | with_reducible apply keeps_ite_fst | with_reducible apply keeps_foldl_fst

theorem State.copyImage_keeps {a0 : State} {a1 : Nat} (hregs : k.regs = false) (hclusters : k.clusters = false)
    (hslice : k.slice = false) (hpad : k.pad = false) (hlines : k.lines = false) (h : Keeps k m a0) :
    Keeps k m (State.copyImage a0 a1).1 := by
  unfold State.copyImage
  try dsimp only
  repeat' first
    | with_reducible assumption | intro _ | with_reducible apply State.copyImageTo_keeps | with_reducible apply keeps_ite
    | with_reducible apply keeps_foldl | with_reducible apply keeps_ite_fst | with_reducible apply keeps_foldl_fst

theorem State.dropLoading_keeps {a0 : State} {a1 : Nat} (h : Keeps k m a0) :
    Keeps k m (State.dropLoading a0 a1) := by
  unfold State.dropLoading
  try dsimp only
  repeat' first
    | with_reducible assumption | with_reducible exact Or.inl ‹_› | with_reducible exact Eq.refl _
    | with_reducible exact Or.inr rfl | with_reducible exact Or.inr ⟨rfl, rfl⟩
    | with_reducible exact Or.inr ⟨rfl, rfl, rfl⟩ | with_reducible apply keeps_ite_fst | split
    | refine keeps_of_fst (by with_reducible assumption) ?_ | with_reducible apply keeps_upd

theorem State.doImageLoaded_keeps {a0 : State} {a1 : Nat} (hregs : k.regs = false) (hclusters : k.clusters = false)
    (hslice : k.slice = false) (hpad : k.pad = false) (hlines : k.lines = false) (h : Keeps k m a0) :
    Keeps k m (State.doImageLoaded a0 a1) := by
  unfold State.doImageLoaded
  try dsimp only
  repeat' first
    | with_reducible assumption | with_reducible apply State.dropLoading_keeps | with_reducible apply State.copyImage_keeps
    | with_reducible apply State.setImageState_keeps | with_reducible apply State.endMsg_keeps
    | with_reducible apply keeps_ite | with_reducible apply keeps_ite_fst | split
    | refine keeps_of_fst (by with_reducible assumption) ?_

theorem State.doImageSourceRefused_keeps {a0 : State} {a1 : Nat} (hregs : k.regs = false)
    (hclusters : k.clusters = false) (hslice : k.slice = false) (hpad : k.pad = false) (hlines : k.lines = false)
    (h : Keeps k m a0) :
    Keeps k m (State.doImageSourceRefused a0 a1) := by
  unfold State.doImageSourceRefused
  try dsimp only
  repeat' first
    | with_reducible assumption | with_reducible apply State.dropLoading_keeps | with_reducible apply State.copyImage_keeps
    | with_reducible apply State.setImageState_keeps | with_reducible apply State.logImage_keeps
    | with_reducible apply State.endMsg_keeps | with_reducible apply keeps_ite | with_reducible apply keeps_ite_fst | split
    | refine keeps_of_fst (by with_reducible assumption) ?_

theorem State.loseWrites_keeps {a0 : State} {a1 : Step} (hlines : k.lines = false) (h : Keeps k m a0) :
    Keeps k m (State.loseWrites a0 a1) := by
  unfold State.loseWrites
  try dsimp only
  repeat' first
    | with_reducible assumption | intro _ | with_reducible apply State.setCopies_keeps
    | with_reducible apply State.drawn_keeps | with_reducible apply keeps_foldl

theorem State.noteCollWait_keeps {a0 : State} {a1 : Step} (hregs : k.regs = false) (h : Keeps k m a0) :
    Keeps k m (State.noteCollWait a0 a1) := by
  unfold State.noteCollWait
  try dsimp only
  repeat' first
    | with_reducible assumption | with_reducible exact Or.inl ‹_› | with_reducible exact Eq.refl _
    | with_reducible exact Or.inr rfl | with_reducible exact Or.inr ⟨rfl, rfl⟩
    | with_reducible exact Or.inr ⟨rfl, rfl, rfl⟩ | with_reducible apply State.addSat_keeps
    | with_reducible apply keeps_ite_fst | split | refine keeps_of_fst (by with_reducible assumption) ?_
    | with_reducible apply keeps_upd

theorem State.failEnd_keeps {a0 : State} {a1 : Step} (hregs : k.regs = false) (hclusters : k.clusters = false)
    (hslice : k.slice = false) (hpad : k.pad = false) (hlines : k.lines = false) (hslots : k.slots = false)
    (hfab : k.fab = false) (hcol : k.col = false) (h : Keeps k m a0) :
    Keeps k m (State.failEnd a0 a1) := by
  unfold State.failEnd
  try dsimp only
  repeat' first
    | with_reducible assumption | with_reducible apply State.noteCollWait_keeps
    | with_reducible apply State.loseWrites_keeps | with_reducible apply State.countFailed_keeps
    | with_reducible apply State.abandon_keeps | with_reducible apply State.discardAll_keeps

theorem State.stopIssue_keeps {a0 : State} {a1 : Nat} (hfab : k.fab = false) (h : Keeps k m a0) :
    Keeps k m (State.stopIssue a0 a1) := by
  unfold State.stopIssue
  try dsimp only
  repeat' first
    | with_reducible assumption | with_reducible exact Or.inl ‹_› | with_reducible exact Eq.refl _
    | with_reducible exact Or.inr rfl | with_reducible exact Or.inr ⟨rfl, rfl⟩
    | with_reducible exact Or.inr ⟨rfl, rfl, rfl⟩ | with_reducible apply keeps_ite | with_reducible apply keeps_ite_fst
    | split | refine keeps_of_fst (by with_reducible assumption) ?_ | with_reducible apply keeps_upd

theorem State.closePending_keeps {a0 : State} {a1 : Nat} (hslots : k.slots = false) (h : Keeps k m a0) :
    Keeps k m (State.closePending a0 a1) := by
  unfold State.closePending
  try dsimp only
  repeat' first
    | with_reducible assumption | with_reducible exact Or.inl ‹_› | with_reducible exact Eq.refl _
    | with_reducible exact Or.inr rfl | with_reducible exact Or.inr ⟨rfl, rfl⟩
    | with_reducible exact Or.inr ⟨rfl, rfl, rfl⟩ | intro _ | with_reducible apply State.endStepMsg_keeps
    | with_reducible apply keeps_foldl | with_reducible apply keeps_ite_fst | with_reducible apply keeps_foldl_fst | split
    | refine keeps_of_fst (by with_reducible assumption) ?_ | with_reducible apply keeps_upd

theorem State.beginTeardown_keeps {a0 : State} {a1 : Nat} {a2 : List Word} (hregs : k.regs = false)
    (hclusters : k.clusters = false) (hslice : k.slice = false) (hpad : k.pad = false) (hlines : k.lines = false)
    (hslots : k.slots = false) (hfab : k.fab = false) (hcol : k.col = false) (h : Keeps k m a0) :
    Keeps k m (State.beginTeardown a0 a1 a2) := by
  unfold State.beginTeardown
  try dsimp only
  repeat' first
    | with_reducible assumption | with_reducible exact Or.inl ‹_› | with_reducible exact Eq.refl _
    | with_reducible exact Or.inr rfl | with_reducible exact Or.inr ⟨rfl, rfl⟩
    | with_reducible exact Or.inr ⟨rfl, rfl, rfl⟩ | with_reducible apply State.closePending_keeps
    | with_reducible apply State.stopIssue_keeps | with_reducible apply State.failEnd_keeps
    | with_reducible apply State.setCtx_keeps | with_reducible apply keeps_ite | with_reducible apply keeps_ite_fst | split
    | refine keeps_of_fst (by with_reducible assumption) ?_ | with_reducible apply keeps_upd

theorem State.startTeardown_keeps {a0 : State} {a1 : List Word} (hregs : k.regs = false)
    (hclusters : k.clusters = false) (hslice : k.slice = false) (hpad : k.pad = false) (hlines : k.lines = false)
    (hslots : k.slots = false) (hfab : k.fab = false) (hcol : k.col = false) (h : Keeps k m a0) :
    Keeps k m (State.startTeardown a0 a1) := by
  unfold State.startTeardown
  try dsimp only
  repeat' first
    | with_reducible assumption | with_reducible apply State.beginTeardown_keeps

theorem State.doTeardown_keeps {a0 : State} {a1 : Nat} (hregs : k.regs = false) (hclusters : k.clusters = false)
    (hslice : k.slice = false) (hpad : k.pad = false) (hlines : k.lines = false) (hslots : k.slots = false)
    (hkeys : k.keys = false) (hfab : k.fab = false) (hcol : k.col = false) (h : Keeps k m a0) :
    Keeps k m (State.doTeardown a0 a1) := by
  unfold State.doTeardown
  try dsimp only
  repeat' first
    | with_reducible assumption | intro _ | with_reducible apply State.startTeardown_keeps
    | with_reducible apply State.manage_keeps

theorem State.revoke_keeps {a0 : State} {a1 : Nat} (hregs : k.regs = false) (hslots : k.slots = false)
    (hkeys : k.keys = false) (h : Keeps k m a0) :
    Keeps k m (State.revoke a0 a1) := by
  unfold State.revoke
  try dsimp only
  repeat' first
    | with_reducible assumption | with_reducible exact Or.inl ‹_› | with_reducible exact Eq.refl _
    | with_reducible exact Or.inr rfl | with_reducible exact Or.inr ⟨rfl, rfl⟩
    | with_reducible exact Or.inr ⟨rfl, rfl, rfl⟩ | intro _ | with_reducible apply State.logKey_keeps
    | with_reducible apply State.setKeyRefs_keeps | with_reducible apply State.setKeySlot_keeps
    | with_reducible apply State.setCtx_keeps | with_reducible apply State.logChange_keeps | with_reducible apply keeps_ite
    | with_reducible apply keeps_foldl | with_reducible apply keeps_ite_fst | with_reducible apply keeps_foldl_fst | split
    | refine keeps_of_fst (by with_reducible assumption) ?_ | with_reducible apply keeps_upd

theorem State.doTeardownDone_keeps {a0 : State} {a1 : Nat} (hregs : k.regs = false) (hslots : k.slots = false)
    (htables : k.tables = false) (hkeys : k.keys = false) (h : Keeps k m a0) :
    Keeps k m (State.doTeardownDone a0 a1) := by
  unfold State.doTeardownDone
  try dsimp only
  repeat' first
    | with_reducible assumption | with_reducible exact Or.inl ‹_› | with_reducible exact Eq.refl _
    | with_reducible exact Or.inr rfl | with_reducible exact Or.inr ⟨rfl, rfl⟩
    | with_reducible exact Or.inr ⟨rfl, rfl, rfl⟩ | with_reducible apply State.revoke_keeps
    | with_reducible apply State.settleSet_keeps | with_reducible apply State.showContexts_keeps
    | with_reducible apply State.endMsg_keeps | with_reducible apply State.postRecord_keeps
    | with_reducible apply State.setCtx_keeps | with_reducible apply keeps_ite | with_reducible apply keeps_ite_fst | split
    | refine keeps_of_fst (by with_reducible assumption) ?_ | with_reducible apply keeps_upd

theorem State.doStepMessageEnd_keeps {a0 : State} {a1 : Nat} (hslots : k.slots = false) (h : Keeps k m a0) :
    Keeps k m (State.doStepMessageEnd a0 a1) := by
  unfold State.doStepMessageEnd
  try dsimp only
  repeat' first
    | with_reducible assumption | with_reducible apply State.unpend_keeps | with_reducible apply State.endStepMsg_keeps
    | with_reducible apply keeps_ite | with_reducible apply keeps_ite_fst | split

theorem State.doStepChoose_keeps {a0 : State} (h : Keeps k m a0) :
    Keeps k m (State.doStepChoose a0) := by
  unfold State.doStepChoose
  try dsimp only
  repeat' first
    | with_reducible assumption | with_reducible exact Or.inl ‹_› | with_reducible exact Eq.refl _
    | with_reducible exact Or.inr rfl | with_reducible exact Or.inr ⟨rfl, rfl⟩
    | with_reducible exact Or.inr ⟨rfl, rfl, rfl⟩ | with_reducible apply keeps_ite | with_reducible apply keeps_ite_fst
    | split | refine keeps_of_fst (by with_reducible assumption) ?_ | with_reducible apply keeps_upd

theorem State.doReservationRelease_keeps {a0 : State} {a1 : Nat} (h : Keeps k m a0) :
    Keeps k m (State.doReservationRelease a0 a1) := by
  unfold State.doReservationRelease
  try dsimp only
  repeat' first
    | with_reducible assumption | with_reducible exact Or.inl ‹_› | with_reducible exact Eq.refl _
    | with_reducible exact Or.inr rfl | with_reducible exact Or.inr ⟨rfl, rfl⟩
    | with_reducible exact Or.inr ⟨rfl, rfl, rfl⟩ | with_reducible apply keeps_ite | with_reducible apply keeps_ite_fst
    | split | refine keeps_of_fst (by with_reducible assumption) ?_ | with_reducible apply keeps_upd

theorem State.doStepAdmit_keeps {a0 : State} {a1 : Nat} (hregs : k.regs = false) (hclusters : k.clusters = false)
    (hslice : k.slice = false) (hpad : k.pad = false) (hslots : k.slots = false) (hfab : k.fab = false)
    (hcol : k.col = false) (h : Keeps k m a0) :
    Keeps k m (State.doStepAdmit a0 a1) := by
  unfold State.doStepAdmit
  try dsimp only
  repeat' first
    | with_reducible assumption | with_reducible exact Or.inl ‹_› | with_reducible exact Eq.refl _
    | with_reducible exact Or.inr rfl | with_reducible exact Or.inr ⟨rfl, rfl⟩
    | with_reducible exact Or.inr ⟨rfl, rfl, rfl⟩ | intro _ | with_reducible apply State.unpend_keeps
    | with_reducible apply State.noteFound_keeps | with_reducible apply State.startAttempt_keeps
    | with_reducible apply State.setCtx_keeps | with_reducible apply keeps_ite | with_reducible apply keeps_foldl
    | with_reducible apply keeps_ite_fst | with_reducible apply keeps_foldl_fst | split
    | refine keeps_of_fst (by with_reducible assumption) ?_ | with_reducible apply keeps_upd

theorem State.sendTadd_keeps {a0 : State} {a1 : HeldAdd} (hregs : k.regs = false) (hfab : k.fab = false)
    (h : Keeps k m a0) :
    Keeps k m (State.sendTadd a0 a1) := by
  unfold State.sendTadd
  try dsimp only
  repeat' first
    | with_reducible assumption | with_reducible apply State.inject_keeps

theorem State.commitSlots_keeps {a0 : State} {a1 : Step} (hslots : k.slots = false) (h : Keeps k m a0) :
    Keeps k m (State.commitSlots a0 a1) := by
  unfold State.commitSlots
  try dsimp only
  repeat' first
    | with_reducible assumption | intro _ | with_reducible apply State.setCtx_keeps | with_reducible apply keeps_foldl

theorem State.doStepCommit_keeps {a0 : State} {a1 : Nat} (hregs : k.regs = false) (hclusters : k.clusters = false)
    (hslice : k.slice = false) (hpad : k.pad = false) (hslots : k.slots = false) (hfab : k.fab = false)
    (hcol : k.col = false) (h : Keeps k m a0) :
    Keeps k m (State.doStepCommit a0 a1) := by
  unfold State.doStepCommit
  try dsimp only
  repeat' first
    | with_reducible assumption | intro _ | with_reducible apply State.commitSlots_keeps
    | with_reducible apply State.sendTadd_keeps | with_reducible apply State.noteCollWait_keeps
    | with_reducible apply State.commitColls_keeps | with_reducible apply State.reopen_keeps
    | with_reducible apply State.release_keeps | with_reducible apply State.postRecord_keeps
    | with_reducible apply State.keepAdds_keeps | with_reducible apply State.applyAdds_keeps
    | with_reducible apply State.dropStep_keeps | with_reducible apply State.numstatMerge_keeps
    | with_reducible apply State.addSat_keeps | with_reducible apply keeps_ite | with_reducible apply keeps_foldl
    | with_reducible apply keeps_ite_fst | with_reducible apply keeps_foldl_fst | split

theorem State.countExhausted_keeps {a0 : State} {a1 : Step} {a2 : FailInfo} (hregs : k.regs = false) (h : Keeps k m a0)
    :
    Keeps k m (State.countExhausted a0 a1 a2) := by
  unfold State.countExhausted
  try dsimp only
  repeat' first
    | with_reducible assumption | intro _ | with_reducible apply State.strike_keeps
    | with_reducible apply State.addSat_keeps | with_reducible apply keeps_ite | with_reducible apply keeps_foldl

theorem State.endStep_keeps {a0 : State} {a1 : Step} {a2 : FailInfo} (hregs : k.regs = false)
    (hclusters : k.clusters = false) (hslice : k.slice = false) (hpad : k.pad = false) (hlines : k.lines = false)
    (hslots : k.slots = false) (hfab : k.fab = false) (hcol : k.col = false) (h : Keeps k m a0) :
    Keeps k m (State.endStep a0 a1 a2) := by
  unfold State.endStep
  try dsimp only
  repeat' first
    | with_reducible assumption | with_reducible apply State.countExhausted_keeps
    | with_reducible apply State.failEnd_keeps | with_reducible apply State.postRecord_keeps

theorem State.doStepFail_keeps {a0 : State} {a1 : Nat} (hregs : k.regs = false) (hclusters : k.clusters = false)
    (hslice : k.slice = false) (hpad : k.pad = false) (hlines : k.lines = false) (hslots : k.slots = false)
    (hfab : k.fab = false) (hcol : k.col = false) (h : Keeps k m a0) :
    Keeps k m (State.doStepFail a0 a1) := by
  unfold State.doStepFail
  try dsimp only
  repeat' first
    | with_reducible assumption | with_reducible apply State.endStep_keeps | with_reducible apply keeps_ite
    | with_reducible apply keeps_ite_fst | split

theorem State.doStepReplay_keeps {a0 : State} {a1 : Nat} (hregs : k.regs = false) (hclusters : k.clusters = false)
    (hslice : k.slice = false) (hpad : k.pad = false) (hslots : k.slots = false) (hfab : k.fab = false)
    (hcol : k.col = false) (h : Keeps k m a0) :
    Keeps k m (State.doStepReplay a0 a1) := by
  unfold State.doStepReplay
  try dsimp only
  repeat' first
    | with_reducible assumption | intro _ | with_reducible apply State.release_keeps
    | with_reducible apply State.startAttempt_keeps | with_reducible apply State.dropAdds_keeps
    | with_reducible apply State.restoreTallies_keeps | with_reducible apply State.setCtx_keeps
    | with_reducible apply State.addSat_keeps | with_reducible apply keeps_ite | with_reducible apply keeps_foldl
    | with_reducible apply keeps_ite_fst | with_reducible apply keeps_foldl_fst | split

end Sys2Proof.Machine
end

