-- ==== Sys2Proof/Laws/KeepsConfig.lean ====
section
/-! SUPPORT. What the operations leave alone: one lemma per operation of power states, configuration copies, firmware slots, larger resets, the host port, the cold start and commits. -/

namespace Sys2Proof.Machine

open Sys2Proof.Safety

variable {k : Kept} {m : State}

theorem State.sendAborts_keeps {a0 : State} (hfab : k.fab = false) (h : Keeps k m a0) :
    Keeps k m (State.sendAborts a0) := by
  unfold State.sendAborts
  try dsimp only
  repeat' first
    | with_reducible assumption | with_reducible exact Or.inl ‹_› | with_reducible exact Eq.refl _
    | with_reducible exact Or.inr rfl | with_reducible exact Or.inr ⟨rfl, rfl⟩
    | with_reducible exact Or.inr ⟨rfl, rfl, rfl⟩ | intro _ | with_reducible apply State.emit_keeps
    | with_reducible apply keeps_ite | with_reducible apply keeps_foldl | with_reducible apply keeps_ite_fst
    | with_reducible apply keeps_foldl_fst | split | refine keeps_of_fst (by with_reducible assumption) ?_
    | with_reducible apply keeps_upd

theorem State.sendNotices_keeps {a0 : State} {a1 : Nat} (hfab : k.fab = false) (h : Keeps k m a0) :
    Keeps k m (State.sendNotices a0 a1) := by
  unfold State.sendNotices
  try dsimp only
  repeat' first
    | with_reducible assumption | intro _ | with_reducible apply State.sendCtrl_keeps | with_reducible apply keeps_foldl

theorem State.lightOff_keeps {a0 : State} {a1 : Nat} (hregs : k.regs = false) (hfab : k.fab = false) (h : Keeps k m a0)
    :
    Keeps k m (State.lightOff a0 a1) := by
  unfold State.lightOff
  try dsimp only
  repeat' first
    | with_reducible assumption | with_reducible exact Or.inl ‹_› | with_reducible exact Eq.refl _
    | with_reducible exact Or.inr rfl | with_reducible exact Or.inr ⟨rfl, rfl⟩
    | with_reducible exact Or.inr ⟨rfl, rfl, rfl⟩ | intro _ | with_reducible apply State.endDrain_keeps
    | with_reducible apply State.failCircuit_keeps | with_reducible apply State.releaseSlots_keeps
    | with_reducible apply State.showFabric_keeps | with_reducible apply State.setPort_keeps
    | with_reducible apply State.resetArbs_keeps | with_reducible apply State.addWrap_keeps
    | with_reducible apply State.setFld_keeps | with_reducible apply keeps_ite | with_reducible apply keeps_foldl
    | with_reducible apply keeps_ite_fst | with_reducible apply keeps_foldl_fst | split
    | refine keeps_of_fst (by with_reducible assumption) ?_ | with_reducible apply keeps_upd

theorem State.lanesOff_keeps {a0 : State} (hregs : k.regs = false) (h : Keeps k m a0) :
    Keeps k m (State.lanesOff a0) := by
  unfold State.lanesOff
  try dsimp only
  repeat' first
    | with_reducible assumption | intro _ | with_reducible apply State.resetArbs_keeps
    | with_reducible apply State.setFld_keeps | with_reducible apply keeps_ite | with_reducible apply keeps_foldl

theorem State.lanesTrain_keeps {a0 : State} (hregs : k.regs = false) (h : Keeps k m a0) :
    Keeps k m (State.lanesTrain a0) := by
  unfold State.lanesTrain
  try dsimp only
  repeat' first
    | with_reducible assumption | intro _ | with_reducible apply State.setFld_keeps | with_reducible apply keeps_foldl

theorem State.padsOff_keeps {a0 : State} (hregs : k.regs = false) (hclusters : k.clusters = false)
    (hpad : k.pad = false) (h : Keeps k m a0) :
    Keeps k m (State.padsOff a0) := by
  unfold State.padsOff
  have hc (f : Nat × Cluster → Cluster) : Good m → mwf cluDefault ((a0.clusters.map fun e => (e.1, f e)).filter fun e =>
      decide (e.2 ≠ cluDefault e.1)) = true := by
    intro z
    have g := (mwf_iff cluDefault a0.clusters).1 (h.good z).clusters
    rw [mwf_iff]
    refine ⟨List.Pairwise.filter _ (List.pairwise_map.2 g.1), fun e he => ?_⟩
    simpa using (List.mem_filter.1 he).2
  have h1 (f : Nat × Cluster → Cluster) (g : Gov) : Keeps k m { a0 with
      pad := [], padFlaw := [], gov := g
      clusters := (a0.clusters.map fun e => (e.1, f e)).filter fun e => decide (e.2 ≠ cluDefault e.1) } :=
    keeps_all h (fun z => (h.good z).regs) (fun z => (h.good z).staged) (hc f) (fun z => (h.good z).slice) (fun _ => rfl)
      (fun z => (h.good z).sliceFlaw) (fun _ => rfl) (fun z => (h.good z).flash) (fun z => (h.good z).lines) (fun z => (h.good z).slots)
      (Or.inr rfl) (Or.inl hclusters) (Or.inr ⟨rfl, rfl⟩) (Or.inl hpad) (Or.inr rfl) (Or.inr rfl) (Or.inr ⟨rfl, rfl, rfl⟩)
      (Or.inr ⟨rfl, rfl⟩) (Or.inr rfl) (Or.inr rfl) (Or.inr rfl) (Or.inr rfl) (Or.inr rfl) (Or.inr rfl) (Or.inr rfl) (Or.inr rfl)
      (Or.inr rfl) (Or.inr rfl) (Or.inr rfl) (Or.inr rfl) (Or.inr rfl)
  repeat' first
    | with_reducible assumption
    | intro _
    | exact h1 _ _
    | with_reducible apply State.clearSeqRegs_keeps
    | with_reducible apply State.resetArbs_keeps
    | with_reducible apply State.setFld_keeps
    | with_reducible apply keeps_foldl

theorem State.slicesReturn_keeps {a0 : State} (hclusters : k.clusters = false) (hslice : k.slice = false)
    (hpad : k.pad = false) (h : Keeps k m a0) :
    Keeps k m (State.slicesReturn a0) := by
  unfold State.slicesReturn
  try dsimp only
  repeat' first
    | with_reducible assumption | intro _ | with_reducible apply State.loseBank_keeps
    | with_reducible apply State.setClu_keeps | with_reducible apply keeps_ite | with_reducible apply keeps_foldl

theorem State.hubLost_keeps {a0 : State} (hregs : k.regs = false) (hslots : k.slots = false)
    (htables : k.tables = false) (hkeys : k.keys = false) (hcol : k.col = false) (h : Keeps k m a0) :
    Keeps k m (State.hubLost a0) := by
  unfold State.hubLost
  try dsimp only
  repeat' first
    | with_reducible assumption | with_reducible exact Or.inl ‹_› | with_reducible exact Eq.refl _
    | with_reducible exact Or.inr rfl | with_reducible exact Or.inr ⟨rfl, rfl⟩
    | with_reducible exact Or.inr ⟨rfl, rfl, rfl⟩ | intro _
    | exact (Keeps.good (by with_reducible assumption) (by with_reducible assumption)).regs
    | exact (Keeps.good (by with_reducible assumption) (by with_reducible assumption)).staged
    | exact (Keeps.good (by with_reducible assumption) (by with_reducible assumption)).clusters
    | exact (Keeps.good (by with_reducible assumption) (by with_reducible assumption)).slice
    | exact (Keeps.good (by with_reducible assumption) (by with_reducible assumption)).pad
    | exact (Keeps.good (by with_reducible assumption) (by with_reducible assumption)).sliceFlaw
    | exact (Keeps.good (by with_reducible assumption) (by with_reducible assumption)).padFlaw
    | exact (Keeps.good (by with_reducible assumption) (by with_reducible assumption)).lines
    | exact (Keeps.good (by with_reducible assumption) (by with_reducible assumption)).slots
    | exact (Keeps.good (by with_reducible assumption) (by with_reducible assumption)).flash | exact mwf_nil _
    | with_reducible exact Eq.refl true | with_reducible apply mwf_mset | with_reducible apply mwf_mwrite
    | with_reducible apply mwf_mclear | with_reducible apply mwf_filter | with_reducible apply msorted_mset
    | with_reducible apply msorted_mwrite | with_reducible apply msorted_filter
    | with_reducible apply State.showContexts_keeps | with_reducible apply State.setCtx_keeps
    | with_reducible apply keeps_ite_fst | split | refine keeps_of_fst (by with_reducible assumption) ?_
    | with_reducible apply keeps_all

theorem State.talliesBack_keeps {a0 : State} (hregs : k.regs = false) (h : Keeps k m a0) :
    Keeps k m (State.talliesBack a0) := by
  unfold State.talliesBack
  try dsimp only
  repeat' first
    | with_reducible assumption | intro _ | with_reducible apply State.setReg_keeps | with_reducible apply keeps_foldl

theorem State.slicesOff_keeps {a0 : State} (hregs : k.regs = false) (hslice : k.slice = false) (h : Keeps k m a0) :
    Keeps k m (State.slicesOff a0) := by
  unfold State.slicesOff
  try dsimp only
  repeat' first
    | with_reducible assumption | with_reducible exact Or.inl ‹_› | with_reducible exact Eq.refl _
    | with_reducible exact Or.inr rfl | with_reducible exact Or.inr ⟨rfl, rfl⟩
    | with_reducible exact Or.inr ⟨rfl, rfl, rfl⟩ | intro _
    | exact (Keeps.good (by with_reducible assumption) (by with_reducible assumption)).regs
    | exact (Keeps.good (by with_reducible assumption) (by with_reducible assumption)).staged
    | exact (Keeps.good (by with_reducible assumption) (by with_reducible assumption)).clusters
    | exact (Keeps.good (by with_reducible assumption) (by with_reducible assumption)).slice
    | exact (Keeps.good (by with_reducible assumption) (by with_reducible assumption)).pad
    | exact (Keeps.good (by with_reducible assumption) (by with_reducible assumption)).sliceFlaw
    | exact (Keeps.good (by with_reducible assumption) (by with_reducible assumption)).padFlaw
    | exact (Keeps.good (by with_reducible assumption) (by with_reducible assumption)).lines
    | exact (Keeps.good (by with_reducible assumption) (by with_reducible assumption)).slots
    | exact (Keeps.good (by with_reducible assumption) (by with_reducible assumption)).flash | exact mwf_nil _
    | with_reducible exact Eq.refl true | with_reducible apply mwf_mset | with_reducible apply mwf_mwrite
    | with_reducible apply mwf_mclear | with_reducible apply mwf_filter | with_reducible apply msorted_mset
    | with_reducible apply msorted_mwrite | with_reducible apply msorted_filter
    | with_reducible apply State.setImageState_keeps | with_reducible apply State.logImage_keeps
    | with_reducible apply keeps_ite | with_reducible apply keeps_foldl | with_reducible apply keeps_ite_fst
    | with_reducible apply keeps_foldl_fst | split | refine keeps_of_fst (by with_reducible assumption) ?_
    | with_reducible apply keeps_all

theorem State.orderPower_keeps {a0 : State} {a1 : Nat × Nat} (h : Keeps k m a0) :
    Keeps k m (State.orderPower a0 a1) := by
  unfold State.orderPower
  try dsimp only
  repeat' first
    | with_reducible assumption | with_reducible exact Or.inl ‹_› | with_reducible exact Eq.refl _
    | with_reducible exact Or.inr rfl | with_reducible exact Or.inr ⟨rfl, rfl⟩
    | with_reducible exact Or.inr ⟨rfl, rfl, rfl⟩ | with_reducible apply keeps_ite | with_reducible apply keeps_ite_fst
    | split | refine keeps_of_fst (by with_reducible assumption) ?_ | with_reducible apply keeps_upd

theorem State.goDark_keeps {a0 : State} (hregs : k.regs = false) (hfab : k.fab = false) (h : Keeps k m a0) :
    Keeps k m (State.goDark a0) := by
  unfold State.goDark
  try dsimp only
  repeat' first
    | with_reducible assumption | with_reducible apply State.lightOff_keeps | with_reducible apply State.sendNotices_keeps

theorem State.beginRow_keeps {a0 : State} {a1 : Nat} (hregs : k.regs = false) (hclusters : k.clusters = false)
    (hfab : k.fab = false) (hcol : k.col = false) (h : Keeps k m a0) :
    Keeps k m (State.beginRow a0 a1) := by
  unfold State.beginRow
  try dsimp only
  repeat' first
    | with_reducible assumption | with_reducible apply State.goDark_keeps | with_reducible apply State.lanesTrain_keeps
    | with_reducible apply State.startFabric_keeps | with_reducible apply keeps_ite

theorem State.reachPower_keeps {a0 : State} {a1 a2 : Nat} (hregs : k.regs = false) (hclusters : k.clusters = false)
    (hslice : k.slice = false) (hpad : k.pad = false) (hslots : k.slots = false) (htables : k.tables = false)
    (hkeys : k.keys = false) (hcol : k.col = false) (hfirm : k.firm = false) (h : Keeps k m a0) :
    Keeps k m (State.reachPower a0 a1 a2) := by
  unfold State.reachPower
  try dsimp only
  repeat' first
    | with_reducible assumption | with_reducible apply State.slicesOff_keeps | with_reducible apply State.talliesBack_keeps
    | with_reducible apply State.hubLost_keeps | with_reducible apply State.slicesReturn_keeps
    | with_reducible apply State.padsOff_keeps | with_reducible apply State.lanesOff_keeps
    | with_reducible apply State.powerUcode_keeps | with_reducible apply State.setPow_keeps
    | with_reducible apply keeps_ite

theorem State.powerCmd_keeps {a0 : State} {a1 : Agent} {a2 : Nat} (hregs : k.regs = false)
    (hclusters : k.clusters = false) (hslice : k.slice = false) (hpad : k.pad = false) (hslots : k.slots = false)
    (htables : k.tables = false) (hkeys : k.keys = false) (hfab : k.fab = false) (hcol : k.col = false)
    (hfirm : k.firm = false) (hboot : k.boot = false) (h : Keeps k m a0) :
    Keeps k m (State.powerCmd a0 a1 a2) := by
  unfold State.powerCmd
  try dsimp only
  repeat' first
    | with_reducible assumption | with_reducible exact Or.inl ‹_› | with_reducible exact Eq.refl _
    | with_reducible exact Or.inr rfl | with_reducible exact Or.inr ⟨rfl, rfl⟩
    | with_reducible exact Or.inr ⟨rfl, rfl, rfl⟩ | intro _ | with_reducible apply State.reachPower_keeps
    | with_reducible apply State.goDark_keeps | with_reducible apply State.orderPower_keeps
    | with_reducible apply State.gate_keeps | with_reducible apply State.setFld_keeps | with_reducible apply keeps_ite
    | with_reducible apply keeps_ite_fst | split | refine keeps_of_fst (by with_reducible assumption) ?_
    | with_reducible apply keeps_upd

theorem State.applyStaged_keeps {a0 : State} (hboot : k.boot = false) (h : Keeps k m a0) :
    Keeps k m (State.applyStaged a0) := by
  unfold State.applyStaged
  try dsimp only
  repeat' first
    | with_reducible assumption | with_reducible exact Or.inl ‹_› | with_reducible exact Eq.refl _
    | with_reducible exact Or.inr rfl | with_reducible exact Or.inr ⟨rfl, rfl⟩
    | with_reducible exact Or.inr ⟨rfl, rfl, rfl⟩ | with_reducible apply State.orderPower_keeps
    | with_reducible apply keeps_ite | with_reducible apply keeps_ite_fst | split
    | refine keeps_of_fst (by with_reducible assumption) ?_ | with_reducible apply keeps_upd

theorem State.doPowerTransitionStart_keeps {a0 : State} (hregs : k.regs = false) (hclusters : k.clusters = false)
    (hfab : k.fab = false) (hcol : k.col = false) (h : Keeps k m a0) :
    Keeps k m (State.doPowerTransitionStart a0) := by
  unfold State.doPowerTransitionStart
  try dsimp only
  repeat' first
    | with_reducible assumption | with_reducible exact Or.inl ‹_› | with_reducible exact Eq.refl _
    | with_reducible exact Or.inr rfl | with_reducible exact Or.inr ⟨rfl, rfl⟩
    | with_reducible exact Or.inr ⟨rfl, rfl, rfl⟩ | with_reducible apply State.beginRow_keeps
    | with_reducible apply keeps_ite | with_reducible apply keeps_ite_fst | split
    | refine keeps_of_fst (by with_reducible assumption) ?_ | with_reducible apply keeps_upd

theorem State.doPowerTransitionDone_keeps {a0 : State} (hregs : k.regs = false) (hclusters : k.clusters = false)
    (hslice : k.slice = false) (hpad : k.pad = false) (hslots : k.slots = false) (htables : k.tables = false)
    (hkeys : k.keys = false) (hfab : k.fab = false) (hcol : k.col = false) (hfirm : k.firm = false) (h : Keeps k m a0) :
    Keeps k m (State.doPowerTransitionDone a0) := by
  unfold State.doPowerTransitionDone
  try dsimp only
  repeat' first
    | with_reducible assumption | with_reducible exact Or.inl ‹_› | with_reducible exact Eq.refl _
    | with_reducible exact Or.inr rfl | with_reducible exact Or.inr ⟨rfl, rfl⟩
    | with_reducible exact Or.inr ⟨rfl, rfl, rfl⟩ | with_reducible apply State.reachPower_keeps
    | with_reducible apply State.beginRow_keeps | with_reducible apply State.orderPower_keeps
    | with_reducible apply keeps_ite | with_reducible apply keeps_ite_fst | split
    | refine keeps_of_fst (by with_reducible assumption) ?_ | with_reducible apply keeps_upd

theorem State.flashRetry_keeps {a0 : State} (h : Keeps k m a0) :
    Keeps k m (State.flashRetry a0) := by
  unfold State.flashRetry
  try dsimp only
  repeat' first
    | with_reducible assumption | with_reducible apply State.emit_keeps | with_reducible apply keeps_ite

theorem State.flashWrite_keeps {a0 : State} {a1 : Nat} {a2 : Bytes} (hflash : k.flash = false) (h : Keeps k m a0) :
    Keeps k m (State.flashWrite a0 a1 a2) := by
  unfold State.flashWrite
  try dsimp only
  repeat' first
    | with_reducible assumption | with_reducible exact Or.inl ‹_› | with_reducible exact Eq.refl _
    | with_reducible exact Or.inr rfl | with_reducible exact Or.inr ⟨rfl, rfl⟩
    | with_reducible exact Or.inr ⟨rfl, rfl, rfl⟩ | intro _
    | exact (Keeps.good (by with_reducible assumption) (by with_reducible assumption)).regs
    | exact (Keeps.good (by with_reducible assumption) (by with_reducible assumption)).staged
    | exact (Keeps.good (by with_reducible assumption) (by with_reducible assumption)).clusters
    | exact (Keeps.good (by with_reducible assumption) (by with_reducible assumption)).slice
    | exact (Keeps.good (by with_reducible assumption) (by with_reducible assumption)).pad
    | exact (Keeps.good (by with_reducible assumption) (by with_reducible assumption)).sliceFlaw
    | exact (Keeps.good (by with_reducible assumption) (by with_reducible assumption)).padFlaw
    | exact (Keeps.good (by with_reducible assumption) (by with_reducible assumption)).lines
    | exact (Keeps.good (by with_reducible assumption) (by with_reducible assumption)).slots
    | exact (Keeps.good (by with_reducible assumption) (by with_reducible assumption)).flash | exact mwf_nil _
    | with_reducible exact Eq.refl true | with_reducible apply mwf_mset | with_reducible apply mwf_mwrite
    | with_reducible apply mwf_mclear | with_reducible apply mwf_filter | with_reducible apply msorted_mset
    | with_reducible apply msorted_mwrite | with_reducible apply msorted_filter | with_reducible apply keeps_ite_fst
    | split | refine keeps_of_fst (by with_reducible assumption) ?_ | with_reducible apply keeps_all

theorem State.flashErase_keeps {a0 : State} {a1 a2 : Nat} (hflash : k.flash = false) (h : Keeps k m a0) :
    Keeps k m (State.flashErase a0 a1 a2) := by
  unfold State.flashErase
  try dsimp only
  repeat' first
    | with_reducible assumption | with_reducible exact Or.inl ‹_› | with_reducible exact Eq.refl _
    | with_reducible exact Or.inr rfl | with_reducible exact Or.inr ⟨rfl, rfl⟩
    | with_reducible exact Or.inr ⟨rfl, rfl, rfl⟩ | intro _
    | exact (Keeps.good (by with_reducible assumption) (by with_reducible assumption)).regs
    | exact (Keeps.good (by with_reducible assumption) (by with_reducible assumption)).staged
    | exact (Keeps.good (by with_reducible assumption) (by with_reducible assumption)).clusters
    | exact (Keeps.good (by with_reducible assumption) (by with_reducible assumption)).slice
    | exact (Keeps.good (by with_reducible assumption) (by with_reducible assumption)).pad
    | exact (Keeps.good (by with_reducible assumption) (by with_reducible assumption)).sliceFlaw
    | exact (Keeps.good (by with_reducible assumption) (by with_reducible assumption)).padFlaw
    | exact (Keeps.good (by with_reducible assumption) (by with_reducible assumption)).lines
    | exact (Keeps.good (by with_reducible assumption) (by with_reducible assumption)).slots
    | exact (Keeps.good (by with_reducible assumption) (by with_reducible assumption)).flash | exact mwf_nil _
    | with_reducible exact Eq.refl true | with_reducible apply mwf_mset | with_reducible apply mwf_mwrite
    | with_reducible apply mwf_mclear | with_reducible apply mwf_filter | with_reducible apply msorted_mset
    | with_reducible apply msorted_mwrite | with_reducible apply msorted_filter | with_reducible apply keeps_ite_fst
    | split | refine keeps_of_fst (by with_reducible assumption) ?_ | with_reducible apply keeps_all

theorem State.putRoles_keeps {a0 : State} {a1 : Nat} {a2 : List Bytes} (hregs : k.regs = false)
    (hcold : k.cold = false) (h : Keeps k m a0) :
    Keeps k m (State.putRoles a0 a1 a2) := by
  unfold State.putRoles
  try dsimp only
  repeat' first
    | with_reducible assumption | with_reducible exact Or.inl ‹_› | with_reducible exact Eq.refl _
    | with_reducible exact Or.inr rfl | with_reducible exact Or.inr ⟨rfl, rfl⟩
    | with_reducible exact Or.inr ⟨rfl, rfl, rfl⟩ | intro _ | with_reducible apply State.frameWrite_keeps
    | with_reducible apply State.logChange_keeps | with_reducible apply keeps_ite | with_reducible apply keeps_ite_fst
    | split | refine keeps_of_fst (by with_reducible assumption) ?_ | with_reducible apply keeps_upd

theorem State.checkCopies_keeps {a0 : State} (hregs : k.regs = false) (h : Keeps k m a0) :
    Keeps k m (State.checkCopies a0) := by
  unfold State.checkCopies
  try dsimp only
  repeat' first
    | with_reducible assumption | with_reducible apply State.flashRetry_keeps | with_reducible apply State.setFld_keeps

theorem State.checkSelected_keeps {a0 : State} {a1 : Nat} (hregs : k.regs = false) (h : Keeps k m a0) :
    Keeps k m (State.checkSelected a0 a1) := by
  unfold State.checkSelected
  try dsimp only
  repeat' first
    | with_reducible assumption | with_reducible apply State.checkCopies_keeps
    | with_reducible apply State.flashRetry_keeps | with_reducible apply State.setFld_keeps
    | with_reducible apply keeps_ite

theorem State.setCause_keeps {a0 : State} {a1 a2 : Nat} (hregs : k.regs = false) (h : Keeps k m a0) :
    Keeps k m (State.setCause a0 a1 a2) := by
  unfold State.setCause
  try dsimp only
  repeat' first
    | with_reducible assumption | with_reducible apply State.setFld_keeps

theorem State.setHeldBit_keeps {a0 : State} {a1 : Nat} {a2 : Bool} (hregs : k.regs = false) (h : Keeps k m a0) :
    Keeps k m (State.setHeldBit a0 a1 a2) := by
  unfold State.setHeldBit
  try dsimp only
  repeat' first
    | with_reducible assumption | with_reducible apply State.setFld_keeps

theorem State.holdSect_keeps {a0 : State} {a1 a2 : Nat} (hregs : k.regs = false) (h : Keeps k m a0) :
    Keeps k m (State.holdSect a0 a1 a2) := by
  unfold State.holdSect
  try dsimp only
  repeat' first
    | with_reducible assumption | with_reducible apply State.setHeldBit_keeps | with_reducible apply State.setCause_keeps

theorem State.setStageBase_keeps {a0 : State} {a1 : Nat} (hregs : k.regs = false) (hstaged : k.staged = false)
    (h : Keeps k m a0) :
    Keeps k m (State.setStageBase a0 a1) := by
  unfold State.setStageBase
  try dsimp only
  repeat' first
    | with_reducible assumption | with_reducible apply State.sectionSet_keeps | with_reducible apply State.setFld_keeps

theorem State.sectEffect_keeps {a0 : State} {a1 : Nat} {a2 : Bytes} (hregs : k.regs = false) (hslots : k.slots = false)
    (hcold : k.cold = false) (hstaged : k.staged = false) (h : Keeps k m a0) :
    Keeps k m (State.sectEffect a0 a1 a2) := by
  unfold State.sectEffect
  try dsimp only
  repeat' first
    | with_reducible assumption | with_reducible apply State.setStageBase_keeps | with_reducible apply State.putRoles_keeps
    | with_reducible apply State.showLease_keeps | with_reducible apply State.noteTerms_keeps
    | with_reducible apply State.sectionSet_keeps | with_reducible apply State.setCtx_keeps
    | with_reducible apply keeps_ite

theorem State.logSection_keeps {a0 : State} {a1 : Nat} {a2 a3 : Bytes} (hregs : k.regs = false) (h : Keeps k m a0) :
    Keeps k m (State.logSection a0 a1 a2 a3) := by
  unfold State.logSection
  try dsimp only
  repeat' first
    | with_reducible assumption | with_reducible apply State.logChange_keeps

theorem State.inForce_keeps {a0 : State} {a1 : Nat} {a2 : Bytes} (hregs : k.regs = false) (hconf : k.conf = false)
    (h : Keeps k m a0) :
    Keeps k m (State.inForce a0 a1 a2) := by
  unfold State.inForce
  try dsimp only
  repeat' first
    | with_reducible assumption | with_reducible exact Or.inl ‹_› | with_reducible exact Eq.refl _
    | with_reducible exact Or.inr rfl | with_reducible exact Or.inr ⟨rfl, rfl⟩
    | with_reducible exact Or.inr ⟨rfl, rfl, rfl⟩ | with_reducible apply State.logSection_keeps
    | with_reducible apply State.setHeldBit_keeps | with_reducible apply State.setCause_keeps
    | with_reducible apply State.setFld_keeps | with_reducible apply keeps_ite_fst | split
    | refine keeps_of_fst (by with_reducible assumption) ?_ | with_reducible apply keeps_upd

theorem State.applySect_keeps {a0 : State} {a1 : Nat} {a2 : Bytes} (hregs : k.regs = false) (hslots : k.slots = false)
    (hconf : k.conf = false) (hcold : k.cold = false) (hstaged : k.staged = false) (h : Keeps k m a0) :
    Keeps k m (State.applySect a0 a1 a2) := by
  unfold State.applySect
  try dsimp only
  repeat' first
    | with_reducible assumption | with_reducible apply State.inForce_keeps | with_reducible apply State.sectEffect_keeps

theorem State.startSect_keeps {a0 : State} {a1 : Bytes} {a2 : Nat} (hregs : k.regs = false) (hslots : k.slots = false)
    (hconf : k.conf = false) (hcold : k.cold = false) (hstaged : k.staged = false) (h : Keeps k m a0) :
    Keeps k m (State.startSect a0 a1 a2) := by
  unfold State.startSect
  try dsimp only
  repeat' first
    | with_reducible assumption | with_reducible apply State.applySect_keeps | with_reducible apply State.holdSect_keeps
    | with_reducible apply keeps_ite

theorem State.useCopy_keeps {a0 : State} {a1 : Nat} (hregs : k.regs = false) (h : Keeps k m a0) :
    Keeps k m (State.useCopy a0 a1) := by
  unfold State.useCopy
  try dsimp only
  repeat' first
    | with_reducible assumption | with_reducible apply State.setFld_keeps

theorem State.showSlot_keeps {a0 : State} {a1 : Nat} (hregs : k.regs = false) (h : Keeps k m a0) :
    Keeps k m (State.showSlot a0 a1) := by
  unfold State.showSlot
  try dsimp only
  repeat' first
    | with_reducible assumption | with_reducible apply State.setFld_keeps

theorem State.writeRecord_keeps {a0 : State} {a1 a2 a3 : Nat} (hregs : k.regs = false) (hflash : k.flash = false)
    (h : Keeps k m a0) :
    Keeps k m (State.writeRecord a0 a1 a2 a3) := by
  unfold State.writeRecord
  try dsimp only
  repeat' first
    | with_reducible assumption | with_reducible apply State.showSlot_keeps | with_reducible apply State.flashWrite_keeps
    | with_reducible apply State.logChange_keeps | with_reducible apply keeps_ite

theorem State.raiseSvn_keeps {a0 : State} {a1 a2 : Nat} (hregs : k.regs = false) (hcold : k.cold = false)
    (h : Keeps k m a0) :
    Keeps k m (State.raiseSvn a0 a1 a2) := by
  unfold State.raiseSvn
  try dsimp only
  repeat' first
    | with_reducible assumption | with_reducible exact Or.inl ‹_› | with_reducible exact Eq.refl _
    | with_reducible exact Or.inr rfl | with_reducible exact Or.inr ⟨rfl, rfl⟩
    | with_reducible exact Or.inr ⟨rfl, rfl, rfl⟩ | with_reducible apply State.raiseEvent_keeps
    | with_reducible apply State.logChange_keeps | with_reducible apply State.setFld_keeps | with_reducible apply keeps_ite
    | with_reducible apply keeps_ite_fst | split | refine keeps_of_fst (by with_reducible assumption) ?_
    | with_reducible apply keeps_upd

theorem State.settleMirror_keeps {a0 : State} (hregs : k.regs = false) (hboot : k.boot = false) (h : Keeps k m a0) :
    Keeps k m (State.settleMirror a0) := by
  unfold State.settleMirror
  try dsimp only
  repeat' first
    | with_reducible assumption | with_reducible exact Or.inl ‹_› | with_reducible exact Eq.refl _
    | with_reducible exact Or.inr rfl | with_reducible exact Or.inr ⟨rfl, rfl⟩
    | with_reducible exact Or.inr ⟨rfl, rfl, rfl⟩ | with_reducible apply State.setFld_keeps
    | with_reducible apply keeps_ite | with_reducible apply keeps_ite_fst | split
    | refine keeps_of_fst (by with_reducible assumption) ?_ | with_reducible apply keeps_upd

theorem State.fuseRegs_good (s : State) : mwf regDefault s.fuseRegs.regs = true := by
  have h : Good ({ State.reset with regs := [] } : State) := by constructor <;> rfl
  refine (Keeps.good (k := ⟨false, false, false, false, false, false, false, false, false, false, false, false, false, false, false,
    false, false, false, false, false, false⟩) (m := ({ State.reset with regs := [] } : State)) ?_ h).regs
  unfold State.fuseRegs
  dsimp only
  repeat' first
    | with_reducible exact Keeps.rfl
    | with_reducible exact Eq.refl _
    | with_reducible apply State.setFld_keeps

theorem State.powerOff_keeps {a0 : State} (hregs : k.regs = false) (hclusters : k.clusters = false) (hslice : k.slice = false) (hpad : k.pad = false) (hlines : k.lines = false) (hslots : k.slots = false) (htables : k.tables = false) (hkeys : k.keys = false) (hfab : k.fab = false) (hcol : k.col = false) (hconf : k.conf = false) (hcold : k.cold = false) (htap : k.tap = false) (hfirm : k.firm = false) (hctl : k.ctl = false) (hboot : k.boot = false) (hticks : k.ticks = false) (hstaged : k.staged = false) (hcfg : k.cfg = false) (h : Keeps k m a0) :
    Keeps k m (State.powerOff a0) := by
  unfold State.powerOff
  refine keeps_all h (fun _ => State.fuseRegs_good a0) (fun _ => rfl) (fun _ => rfl) (fun _ => rfl) (fun _ => rfl) (fun _ => rfl)
    (fun _ => rfl) (fun z => (h.good z).flash) (fun _ => rfl) (fun _ => rfl) ?_ ?_ ?_ ?_ ?_ ?_ ?_ ?_ ?_ ?_ ?_ ?_ ?_ ?_ ?_ ?_ ?_
    ?_ ?_ ?_ ?_
  all_goals first
    | exact Or.inl ‹_›
    | exact Or.inr rfl

theorem State.showRemap_keeps {a0 : State} (hregs : k.regs = false) (h : Keeps k m a0) :
    Keeps k m (State.showRemap a0) := by
  unfold State.showRemap
  try dsimp only
  repeat' first
    | with_reducible assumption | intro _ | with_reducible apply State.setFld_keeps | with_reducible apply keeps_foldl

theorem State.putRemap_keeps {a0 : State} {a1 a2 : Nat} (hregs : k.regs = false) (hrepair : k.repair = false)
    (h : Keeps k m a0) :
    Keeps k m (State.putRemap a0 a1 a2) := by
  unfold State.putRemap
  try dsimp only
  repeat' first
    | with_reducible assumption | intro _ | with_reducible apply State.showRemap_keeps
    | with_reducible apply State.logRepair_keeps | with_reducible apply State.writeRepair_keeps

theorem State.padUndefined_keeps {a0 : State} {a1 : Nat} (hclusters : k.clusters = false) (hpad : k.pad = false)
    (h : Keeps k m a0) :
    Keeps k m (State.padUndefined a0 a1) := by
  unfold State.padUndefined
  try dsimp only
  repeat' first
    | with_reducible assumption | with_reducible exact Or.inl ‹_› | with_reducible exact Eq.refl _
    | with_reducible exact Or.inr rfl | with_reducible exact Or.inr ⟨rfl, rfl⟩
    | with_reducible exact Or.inr ⟨rfl, rfl, rfl⟩ | intro _
    | exact (Keeps.good (by with_reducible assumption) (by with_reducible assumption)).regs
    | exact (Keeps.good (by with_reducible assumption) (by with_reducible assumption)).staged
    | exact (Keeps.good (by with_reducible assumption) (by with_reducible assumption)).clusters
    | exact (Keeps.good (by with_reducible assumption) (by with_reducible assumption)).slice
    | exact (Keeps.good (by with_reducible assumption) (by with_reducible assumption)).pad
    | exact (Keeps.good (by with_reducible assumption) (by with_reducible assumption)).sliceFlaw
    | exact (Keeps.good (by with_reducible assumption) (by with_reducible assumption)).padFlaw
    | exact (Keeps.good (by with_reducible assumption) (by with_reducible assumption)).lines
    | exact (Keeps.good (by with_reducible assumption) (by with_reducible assumption)).slots
    | exact (Keeps.good (by with_reducible assumption) (by with_reducible assumption)).flash | exact mwf_nil _
    | with_reducible exact Eq.refl true | with_reducible apply mwf_mset | with_reducible apply mwf_mwrite
    | with_reducible apply mwf_mclear | with_reducible apply mwf_filter | with_reducible apply msorted_mset
    | with_reducible apply msorted_mwrite | with_reducible apply msorted_filter | with_reducible apply State.setClu_keeps
    | with_reducible apply State.drawn_keeps | with_reducible apply keeps_ite_fst | split
    | refine keeps_of_fst (by with_reducible assumption) ?_ | with_reducible apply keeps_all

theorem State.bumpCgen_keeps {a0 : State} {a1 : Nat} (hclusters : k.clusters = false) (h : Keeps k m a0) :
    Keeps k m (State.bumpCgen a0 a1) := by
  unfold State.bumpCgen
  try dsimp only
  repeat' first
    | with_reducible assumption | with_reducible apply State.setClu_keeps

theorem State.showEsc_keeps {a0 : State} (hregs : k.regs = false) (h : Keeps k m a0) :
    Keeps k m (State.showEsc a0) := by
  unfold State.showEsc
  try dsimp only
  repeat' first
    | with_reducible assumption | with_reducible exact Or.inl ‹_› | with_reducible exact Eq.refl _
    | with_reducible exact Or.inr rfl | with_reducible exact Or.inr ⟨rfl, rfl⟩
    | with_reducible exact Or.inr ⟨rfl, rfl, rfl⟩ | with_reducible apply State.setFld_keeps
    | with_reducible apply keeps_ite_fst | split | refine keeps_of_fst (by with_reducible assumption) ?_
    | with_reducible apply keeps_upd

theorem State.countPkg_keeps {a0 : State} (hregs : k.regs = false) (h : Keeps k m a0) :
    Keeps k m (State.countPkg a0) := by
  unfold State.countPkg
  try dsimp only
  repeat' first
    | with_reducible assumption | with_reducible exact Or.inl ‹_› | with_reducible exact Eq.refl _
    | with_reducible exact Or.inr rfl | with_reducible exact Or.inr ⟨rfl, rfl⟩
    | with_reducible exact Or.inr ⟨rfl, rfl, rfl⟩ | with_reducible apply State.showEsc_keeps
    | with_reducible apply keeps_ite_fst | split | refine keeps_of_fst (by with_reducible assumption) ?_
    | with_reducible apply keeps_upd

theorem State.endSteps_keeps {a0 : State} (hregs : k.regs = false) (hclusters : k.clusters = false)
    (hslice : k.slice = false) (hpad : k.pad = false) (hlines : k.lines = false) (hslots : k.slots = false)
    (hfab : k.fab = false) (hcol : k.col = false) (h : Keeps k m a0) :
    Keeps k m (State.endSteps a0) := by
  unfold State.endSteps
  try dsimp only
  repeat' first
    | with_reducible assumption | intro _ | with_reducible apply State.endStep_keeps | with_reducible apply keeps_foldl

theorem State.resetColls_keeps {a0 : State} (hregs : k.regs = false) (hfab : k.fab = false) (hcol : k.col = false)
    (h : Keeps k m a0) :
    Keeps k m (State.resetColls a0) := by
  unfold State.resetColls
  try dsimp only
  repeat' first
    | with_reducible assumption | intro _ | with_reducible apply State.endColl_keeps | with_reducible apply keeps_foldl

theorem State.dropPower_keeps {a0 : State} (h : Keeps k m a0) :
    Keeps k m (State.dropPower a0) := by
  unfold State.dropPower
  try dsimp only
  repeat' first
    | with_reducible assumption | with_reducible exact Or.inl ‹_› | with_reducible exact Eq.refl _
    | with_reducible exact Or.inr rfl | with_reducible exact Or.inr ⟨rfl, rfl⟩
    | with_reducible exact Or.inr ⟨rfl, rfl, rfl⟩ | with_reducible apply keeps_ite_fst | split
    | refine keeps_of_fst (by with_reducible assumption) ?_ | with_reducible apply keeps_upd

theorem State.quiesce_keeps {a0 : State} (h : Keeps k m a0) :
    Keeps k m (State.quiesce a0) := by
  unfold State.quiesce
  try dsimp only
  repeat' first
    | with_reducible assumption | with_reducible exact Or.inl ‹_› | with_reducible exact Eq.refl _
    | with_reducible exact Or.inr rfl | with_reducible exact Or.inr ⟨rfl, rfl⟩
    | with_reducible exact Or.inr ⟨rfl, rfl, rfl⟩ | with_reducible apply keeps_ite_fst | split
    | refine keeps_of_fst (by with_reducible assumption) ?_ | with_reducible apply keeps_upd

theorem State.settleWrites_keeps {a0 : State} (hregs : k.regs = false) (hclusters : k.clusters = false)
    (hlines : k.lines = false) (hkeys : k.keys = false) (hfab : k.fab = false) (hcol : k.col = false) (h : Keeps k m a0) :
    Keeps k m (State.settleWrites a0) := by
  unfold State.settleWrites
  try dsimp only
  repeat' first
    | with_reducible assumption | intro _ | with_reducible apply State.answerReq_keeps | with_reducible apply keeps_foldl

theorem State.abandonReload_keeps {a0 : State} (hregs : k.regs = false) (hfab : k.fab = false) (hconf : k.conf = false)
    (hboot : k.boot = false) (h : Keeps k m a0) :
    Keeps k m (State.abandonReload a0) := by
  unfold State.abandonReload
  try dsimp only
  repeat' first
    | with_reducible assumption | with_reducible exact Or.inl ‹_› | with_reducible exact Eq.refl _
    | with_reducible exact Or.inr rfl | with_reducible exact Or.inr ⟨rfl, rfl⟩
    | with_reducible exact Or.inr ⟨rfl, rfl, rfl⟩ | with_reducible apply State.setFld_keeps
    | with_reducible apply keeps_ite | with_reducible apply keeps_ite_fst | split
    | refine keeps_of_fst (by with_reducible assumption) ?_ | with_reducible apply keeps_upd

theorem State.domainsSafe_keeps {a0 : State} {a1 a2 : Bool} (hregs : k.regs = false) (hclusters : k.clusters = false)
    (hslice : k.slice = false) (hpad : k.pad = false) (hlines : k.lines = false) (hslots : k.slots = false)
    (htables : k.tables = false) (hkeys : k.keys = false) (hfab : k.fab = false) (hcol : k.col = false) (h : Keeps k m a0)
    :
    Keeps k m (State.domainsSafe a0 a1 a2) := by
  unfold State.domainsSafe
  try dsimp only
  repeat' first
    | with_reducible assumption | with_reducible apply State.settleWrites_keeps | with_reducible apply State.quiesce_keeps
    | with_reducible apply State.dropPower_keeps | with_reducible apply State.slicesOff_keeps
    | with_reducible apply State.hubLost_keeps | with_reducible apply State.padsOff_keeps
    | with_reducible apply State.lanesOff_keeps | with_reducible apply State.lightOff_keeps
    | with_reducible apply State.setPow_keeps | with_reducible apply State.setFld_keeps | with_reducible apply keeps_ite

theorem State.enterFallow_keeps {a0 : State} (hregs : k.regs = false) (hclusters : k.clusters = false)
    (hslice : k.slice = false) (hpad : k.pad = false) (hlines : k.lines = false) (hslots : k.slots = false)
    (htables : k.tables = false) (hkeys : k.keys = false) (hfab : k.fab = false) (hcol : k.col = false)
    (hconf : k.conf = false) (hboot : k.boot = false) (h : Keeps k m a0) :
    Keeps k m (State.enterFallow a0) := by
  unfold State.enterFallow
  try dsimp only
  repeat' first
    | with_reducible assumption | with_reducible exact Or.inl ‹_› | with_reducible exact Eq.refl _
    | with_reducible exact Or.inr rfl | with_reducible exact Or.inr ⟨rfl, rfl⟩
    | with_reducible exact Or.inr ⟨rfl, rfl, rfl⟩ | with_reducible apply State.domainsSafe_keeps
    | with_reducible apply State.abandonReload_keeps | with_reducible apply State.resetColls_keeps
    | with_reducible apply State.endSteps_keeps | with_reducible apply State.sendNotices_keeps
    | with_reducible apply State.sendAborts_keeps | with_reducible apply State.raiseEvent_keeps
    | with_reducible apply State.setDev_keeps | with_reducible apply State.setFld_keeps
    | with_reducible apply keeps_ite_fst | split | refine keeps_of_fst (by with_reducible assumption) ?_
    | with_reducible apply keeps_upd

theorem State.tripSafe_keeps {a0 : State} {a1 : Bool} (hregs : k.regs = false) (hboot : k.boot = false)
    (h : Keeps k m a0) :
    Keeps k m (State.tripSafe a0 a1) := by
  unfold State.tripSafe
  try dsimp only
  repeat' first
    | with_reducible assumption | with_reducible exact Or.inl ‹_› | with_reducible exact Eq.refl _
    | with_reducible exact Or.inr rfl | with_reducible exact Or.inr ⟨rfl, rfl⟩
    | with_reducible exact Or.inr ⟨rfl, rfl, rfl⟩ | with_reducible apply State.setFld_keeps
    | with_reducible apply keeps_ite | with_reducible apply keeps_ite_fst | split
    | refine keeps_of_fst (by with_reducible assumption) ?_ | with_reducible apply keeps_upd

theorem State.enterSafe_keeps {a0 : State} {a1 : Bool} (hregs : k.regs = false) (hclusters : k.clusters = false)
    (hslice : k.slice = false) (hpad : k.pad = false) (hlines : k.lines = false) (hslots : k.slots = false)
    (htables : k.tables = false) (hkeys : k.keys = false) (hfab : k.fab = false) (hcol : k.col = false)
    (hconf : k.conf = false) (hboot : k.boot = false) (h : Keeps k m a0) :
    Keeps k m (State.enterSafe a0 a1) := by
  unfold State.enterSafe
  try dsimp only
  repeat' first
    | with_reducible assumption | with_reducible exact Or.inl ‹_› | with_reducible exact Eq.refl _
    | with_reducible exact Or.inr rfl | with_reducible exact Or.inr ⟨rfl, rfl⟩
    | with_reducible exact Or.inr ⟨rfl, rfl, rfl⟩ | with_reducible apply State.tripSafe_keeps
    | with_reducible apply State.domainsSafe_keeps | with_reducible apply State.abandonReload_keeps
    | with_reducible apply State.resetColls_keeps | with_reducible apply State.endSteps_keeps
    | with_reducible apply State.countPkg_keeps | with_reducible apply State.sendNotices_keeps
    | with_reducible apply State.sendAborts_keeps | with_reducible apply State.raiseEvent_keeps
    | with_reducible apply State.setDev_keeps | with_reducible apply State.setFld_keeps | with_reducible apply keeps_ite
    | with_reducible apply keeps_ite_fst | split | refine keeps_of_fst (by with_reducible assumption) ?_
    | with_reducible apply keeps_upd

theorem State.replayAll_keeps {a0 : State} (hregs : k.regs = false) (hclusters : k.clusters = false)
    (hfab : k.fab = false) (hcol : k.col = false) (h : Keeps k m a0) :
    Keeps k m (State.replayAll a0) := by
  unfold State.replayAll
  try dsimp only
  repeat' first
    | with_reducible assumption | intro _ | with_reducible apply State.replayStep_keeps | with_reducible apply keeps_ite
    | with_reducible apply keeps_foldl

theorem State.pauseInstall_keeps {a0 : State} {a1 : Bool} (hregs : k.regs = false) (hfirm : k.firm = false)
    (h : Keeps k m a0) :
    Keeps k m (State.pauseInstall a0 a1) := by
  unfold State.pauseInstall
  try dsimp only
  repeat' first
    | with_reducible assumption | with_reducible exact Or.inl ‹_› | with_reducible exact Eq.refl _
    | with_reducible exact Or.inr rfl | with_reducible exact Or.inr ⟨rfl, rfl⟩
    | with_reducible exact Or.inr ⟨rfl, rfl, rfl⟩ | with_reducible apply State.setFld_keeps
    | with_reducible apply keeps_ite | with_reducible apply keeps_ite_fst | split
    | refine keeps_of_fst (by with_reducible assumption) ?_ | with_reducible apply keeps_upd

theorem State.startRecovery_keeps {a0 : State} {a1 : Nat} {a2 : Bool} (hregs : k.regs = false)
    (hclusters : k.clusters = false) (hfab : k.fab = false) (hcol : k.col = false) (hconf : k.conf = false)
    (hfirm : k.firm = false) (hboot : k.boot = false) (h : Keeps k m a0) :
    Keeps k m (State.startRecovery a0 a1 a2) := by
  unfold State.startRecovery
  try dsimp only
  repeat' first
    | with_reducible assumption | with_reducible exact Or.inl ‹_› | with_reducible exact Eq.refl _
    | with_reducible exact Or.inr rfl | with_reducible exact Or.inr ⟨rfl, rfl⟩
    | with_reducible exact Or.inr ⟨rfl, rfl, rfl⟩ | with_reducible apply State.pauseInstall_keeps
    | with_reducible apply State.replayAll_keeps | with_reducible apply State.abandonReload_keeps
    | with_reducible apply State.quiesce_keeps | with_reducible apply State.dropPower_keeps
    | with_reducible apply State.resetColls_keeps | with_reducible apply State.countPkg_keeps
    | with_reducible apply State.sendNotices_keeps | with_reducible apply State.sendAborts_keeps
    | with_reducible apply State.setDev_keeps | with_reducible apply State.addSat_keeps
    | with_reducible apply State.setFld_keeps | with_reducible apply keeps_ite | with_reducible apply keeps_ite_fst | split
    | refine keeps_of_fst (by with_reducible assumption) ?_ | with_reducible apply keeps_upd

theorem State.linkUp_keeps {a0 : State} (hregs : k.regs = false) (h : Keeps k m a0) :
    Keeps k m (State.linkUp a0) := by
  unfold State.linkUp
  try dsimp only
  repeat' first
    | with_reducible assumption | with_reducible apply State.showStopped_keeps | with_reducible apply State.setFld_keeps

theorem State.linkLow_keeps {a0 : State} {a1 : Nat} (hregs : k.regs = false) (h : Keeps k m a0) :
    Keeps k m (State.linkLow a0 a1) := by
  unfold State.linkLow
  try dsimp only
  repeat' first
    | with_reducible assumption | with_reducible apply State.showStopped_keeps | with_reducible apply State.setFld_keeps

theorem State.failBarrow_keeps {a0 : State} {a1 : Option (Nat × Nat)} (hregs : k.regs = false)
    (hclusters : k.clusters = false) (hfab : k.fab = false) (hcol : k.col = false) (h : Keeps k m a0) :
    Keeps k m (State.failBarrow a0 a1) := by
  unfold State.failBarrow
  try dsimp only
  repeat' first
    | with_reducible assumption | with_reducible apply State.refuse_keeps | with_reducible apply keeps_ite
    | with_reducible apply keeps_ite_fst | split

theorem State.failQueued_keeps {a0 : State} (hregs : k.regs = false) (hclusters : k.clusters = false)
    (hfab : k.fab = false) (hcol : k.col = false) (h : Keeps k m a0) :
    Keeps k m (State.failQueued a0) := by
  unfold State.failQueued
  try dsimp only
  repeat' first
    | with_reducible assumption | with_reducible exact Or.inl ‹_› | with_reducible exact Eq.refl _
    | with_reducible exact Or.inr rfl | with_reducible exact Or.inr ⟨rfl, rfl⟩
    | with_reducible exact Or.inr ⟨rfl, rfl, rfl⟩ | intro _ | with_reducible apply State.failBarrow_keeps
    | with_reducible apply keeps_foldl | with_reducible apply keeps_ite_fst | with_reducible apply keeps_foldl_fst | split
    | refine keeps_of_fst (by with_reducible assumption) ?_ | with_reducible apply keeps_upd

theorem State.checkTraffic_keeps {a0 : State} (hregs : k.regs = false) (hclusters : k.clusters = false)
    (hfab : k.fab = false) (hcol : k.col = false) (h : Keeps k m a0) :
    Keeps k m (State.checkTraffic a0) := by
  unfold State.checkTraffic
  try dsimp only
  repeat' first
    | with_reducible assumption | with_reducible apply State.failQueued_keeps
    | with_reducible apply State.showStopped_keeps | with_reducible apply keeps_ite

theorem State.stopRemote_keeps {a0 : State} {a1 : TlpKind} (hregs : k.regs = false) (hfab : k.fab = false)
    (h : Keeps k m a0) :
    Keeps k m (State.stopRemote a0 a1) := by
  unfold State.stopRemote
  try dsimp only
  repeat' first
    | with_reducible assumption | with_reducible exact Or.inl ‹_› | with_reducible exact Eq.refl _
    | with_reducible exact Or.inr rfl | with_reducible exact Or.inr ⟨rfl, rfl⟩
    | with_reducible exact Or.inr ⟨rfl, rfl, rfl⟩ | with_reducible apply State.finishInbound_keeps
    | with_reducible apply keeps_ite | with_reducible apply keeps_ite_fst | split
    | refine keeps_of_fst (by with_reducible assumption) ?_ | with_reducible apply keeps_upd

theorem State.hostReset_keeps {a0 : State} (hregs : k.regs = false) (hclusters : k.clusters = false)
    (hfab : k.fab = false) (hcol : k.col = false) (hcfg : k.cfg = false) (h : Keeps k m a0) :
    Keeps k m (State.hostReset a0) := by
  unfold State.hostReset
  have h1 : Keeps k m (a0.setFld F.HST_LINK_STATUS_HOST_GEN ((a0.fld F.HST_LINK_STATUS_HOST_GEN + 1) % 4096)) :=
    State.setFld_keeps hregs h
  revert h1
  generalize a0.setFld F.HST_LINK_STATUS_HOST_GEN ((a0.fld F.HST_LINK_STATUS_HOST_GEN + 1) % 4096) = s1
  intro h1
  have h2 : Keeps k m { s1 with
      host := { s1.host with reads := [], unacked := [], cfg := [] }
      regs := mclear s1.regs 0xE10000 0x8100
      disp := { s1.disp with records := s1.disp.records.map fun r => { r with sent := false, acks := 2 } } } := by
   exact keeps_all
    h1 (fun z => mwf_mclear regDefault s1.regs 0xE10000 0x8100 (h1.good z).regs) (fun z => (h1.good z).staged) (fun z => (h1.good z).clusters) (fun z => (h1.good z).slice) (fun z => (h1.good z).pad)
    (fun z => (h1.good z).sliceFlaw) (fun z => (h1.good z).padFlaw) (fun z => (h1.good z).flash) (fun z => (h1.good z).lines) (fun z => (h1.good z).slots) (Or.inl hregs) (Or.inr rfl) (Or.inr ⟨rfl, rfl⟩)
    (Or.inr ⟨rfl, rfl⟩) (Or.inr rfl) (Or.inr rfl) (Or.inr ⟨rfl, rfl, rfl⟩) (Or.inr ⟨rfl, rfl⟩) (Or.inr rfl) (Or.inr rfl)
    (Or.inr rfl) (Or.inr rfl) (Or.inr rfl) (Or.inr rfl) (Or.inr rfl) (Or.inr rfl) (Or.inr rfl) (Or.inr rfl) (Or.inr rfl)
    (Or.inr rfl) (Or.inl hcfg)
  repeat' first
    | with_reducible assumption
    | with_reducible exact h2
    | intro _
    | with_reducible apply State.setFld_keeps
    | with_reducible apply State.raiseEvent_keeps
    | with_reducible apply State.laneReset_keeps
    | with_reducible apply State.stopRemote_keeps
    | with_reducible apply State.failBarrow_keeps
    | with_reducible apply keeps_foldl

theorem State.doFunctionLevelReset_keeps {a0 : State} (hregs : k.regs = false) (hclusters : k.clusters = false)
    (hfab : k.fab = false) (hcol : k.col = false) (hcfg : k.cfg = false) (h : Keeps k m a0) :
    Keeps k m (State.doFunctionLevelReset a0) := by
  unfold State.doFunctionLevelReset
  try dsimp only
  repeat' first
    | with_reducible assumption | with_reducible apply State.hostReset_keeps | with_reducible apply State.showStopped_keeps
    | with_reducible apply State.setFld_keeps | with_reducible apply keeps_ite

theorem State.doFlrComplete_keeps {a0 : State} (hregs : k.regs = false) (h : Keeps k m a0) :
    Keeps k m (State.doFlrComplete a0) := by
  unfold State.doFlrComplete
  try dsimp only
  repeat' first
    | with_reducible assumption | with_reducible apply State.showStopped_keeps | with_reducible apply State.setFld_keeps
    | with_reducible apply keeps_ite

theorem State.dropLink_keeps {a0 : State} (hregs : k.regs = false) (hclusters : k.clusters = false)
    (hfab : k.fab = false) (hcol : k.col = false) (hcfg : k.cfg = false) (h : Keeps k m a0) :
    Keeps k m (State.dropLink a0) := by
  unfold State.dropLink
  try dsimp only
  repeat' first
    | with_reducible assumption | with_reducible apply State.hostReset_keeps | with_reducible apply State.linkLow_keeps
    | with_reducible apply keeps_ite

theorem State.doHotReset_keeps {a0 : State} (hregs : k.regs = false) (hclusters : k.clusters = false)
    (hfab : k.fab = false) (hcol : k.col = false) (hcfg : k.cfg = false) (h : Keeps k m a0) :
    Keeps k m (State.doHotReset a0) := by
  unfold State.doHotReset
  try dsimp only
  repeat' first
    | with_reducible assumption | with_reducible apply State.dropLink_keeps

theorem State.doLinkDown_keeps {a0 : State} (hregs : k.regs = false) (hclusters : k.clusters = false)
    (hfab : k.fab = false) (hcol : k.col = false) (hcfg : k.cfg = false) (h : Keeps k m a0) :
    Keeps k m (State.doLinkDown a0) := by
  unfold State.doLinkDown
  try dsimp only
  repeat' first
    | with_reducible assumption | with_reducible apply State.dropLink_keeps

theorem State.setPerst_keeps {a0 : State} {a1 : Bool} (h : Keeps k m a0) :
    Keeps k m (State.setPerst a0 a1) := by
  unfold State.setPerst
  try dsimp only
  repeat' first
    | with_reducible assumption | with_reducible exact Or.inl ‹_› | with_reducible exact Eq.refl _
    | with_reducible exact Or.inr rfl | with_reducible exact Or.inr ⟨rfl, rfl⟩
    | with_reducible exact Or.inr ⟨rfl, rfl, rfl⟩ | with_reducible apply keeps_upd

theorem State.doPerstNAssert_keeps {a0 : State} (hregs : k.regs = false) (hclusters : k.clusters = false)
    (hfab : k.fab = false) (hcol : k.col = false) (hcfg : k.cfg = false) (h : Keeps k m a0) :
    Keeps k m (State.doPerstNAssert a0) := by
  unfold State.doPerstNAssert
  try dsimp only
  repeat' first
    | with_reducible assumption | with_reducible apply State.setPerst_keeps | with_reducible apply State.hostReset_keeps
    | with_reducible apply State.linkLow_keeps | with_reducible apply keeps_ite

theorem State.doPerstNRelease_keeps {a0 : State} (hregs : k.regs = false) (h : Keeps k m a0) :
    Keeps k m (State.doPerstNRelease a0) := by
  unfold State.doPerstNRelease
  try dsimp only
  repeat' first
    | with_reducible assumption | with_reducible apply State.setPerst_keeps | with_reducible apply State.linkLow_keeps
    | with_reducible apply keeps_ite

theorem State.flushRing_keeps {a0 : State} {a1 : Nat} (hregs : k.regs = false) (h : Keeps k m a0) :
    Keeps k m (State.flushRing a0 a1) := by
  unfold State.flushRing
  try dsimp only
  repeat' first
    | with_reducible assumption | intro _ | with_reducible apply State.doCompletionRecordWrite_keeps
    | with_reducible apply keeps_foldl

theorem State.doHostTrafficResume_keeps {a0 : State} (hregs : k.regs = false) (h : Keeps k m a0) :
    Keeps k m (State.doHostTrafficResume a0) := by
  unfold State.doHostTrafficResume
  try dsimp only
  repeat' first
    | with_reducible assumption | intro _ | with_reducible apply State.flushRing_keeps
    | with_reducible apply State.linkUp_keeps | with_reducible apply State.doMsixPendingSend_keeps
    | with_reducible apply State.doCreditWrite_keeps | with_reducible apply State.showStopped_keeps
    | with_reducible apply keeps_ite | with_reducible apply keeps_foldl

theorem State.passRecovery_keeps {a0 : State} (hregs : k.regs = false) (h : Keeps k m a0) :
    Keeps k m (State.passRecovery a0) := by
  unfold State.passRecovery
  try dsimp only
  repeat' first
    | with_reducible assumption | with_reducible apply State.addSat_keeps | with_reducible apply keeps_ite

theorem State.doHostOpticalLaneFail_keeps {a0 : State} {a1 : OpticalLane} (hregs : k.regs = false)
    (hclusters : k.clusters = false) (hfab : k.fab = false) (hcol : k.col = false) (hrepair : k.repair = false)
    (hcfg : k.cfg = false) (h : Keeps k m a0) :
    Keeps k m (State.doHostOpticalLaneFail a0 a1) := by
  unfold State.doHostOpticalLaneFail
  try dsimp only
  repeat' first
    | with_reducible assumption | with_reducible exact Or.inl ‹_› | with_reducible exact Eq.refl _
    | with_reducible exact Or.inr rfl | with_reducible exact Or.inr ⟨rfl, rfl⟩
    | with_reducible exact Or.inr ⟨rfl, rfl, rfl⟩ | with_reducible apply State.passRecovery_keeps
    | with_reducible apply State.dropLink_keeps | with_reducible apply State.bookSpare_keeps
    | with_reducible apply State.setFld_keeps | with_reducible apply keeps_ite | with_reducible apply keeps_ite_fst | split
    | refine keeps_of_fst (by with_reducible assumption) ?_ | with_reducible apply keeps_upd

theorem State.doHostSpareDone_keeps {a0 : State} (hregs : k.regs = false) (h : Keeps k m a0) :
    Keeps k m (State.doHostSpareDone a0) := by
  unfold State.doHostSpareDone
  try dsimp only
  repeat' first
    | with_reducible assumption | with_reducible exact Or.inl ‹_› | with_reducible exact Eq.refl _
    | with_reducible exact Or.inr rfl | with_reducible exact Or.inr ⟨rfl, rfl⟩
    | with_reducible exact Or.inr ⟨rfl, rfl, rfl⟩ | with_reducible apply State.raiseEvent_keeps
    | with_reducible apply State.setFld_keeps | with_reducible apply keeps_ite | with_reducible apply keeps_ite_fst | split
    | refine keeps_of_fst (by with_reducible assumption) ?_ | with_reducible apply keeps_upd

theorem State.dropRead_keeps {a0 : State} {a1 : HostRead} (h : Keeps k m a0) :
    Keeps k m (State.dropRead a0 a1) := by
  unfold State.dropRead
  try dsimp only
  repeat' first
    | with_reducible assumption | with_reducible exact Or.inl ‹_› | with_reducible exact Eq.refl _
    | with_reducible exact Or.inr rfl | with_reducible exact Or.inr ⟨rfl, rfl⟩
    | with_reducible exact Or.inr ⟨rfl, rfl, rfl⟩ | with_reducible apply keeps_ite_fst | split
    | refine keeps_of_fst (by with_reducible assumption) ?_ | with_reducible apply keeps_upd

theorem State.landRead_keeps {a0 : State} {a1 : HostRead} {a2 : Bytes} (hregs : k.regs = false)
    (hclusters : k.clusters = false) (h : Keeps k m a0) :
    Keeps k m (State.landRead a0 a1 a2) := by
  unfold State.landRead
  try dsimp only
  repeat' first
    | with_reducible assumption | with_reducible apply State.holdBytes_keeps | with_reducible apply State.addSat_keeps
    | with_reducible apply keeps_ite | with_reducible apply keeps_ite_fst | split

theorem State.endRead_keeps {a0 : State} {a1 : HostRead} {a2 : State → State} (hregs : k.regs = false)
    (h : Keeps k m a0) (f0 : ∀ s, Keeps k m s → Keeps k m (a2 s)) :
    Keeps k m (State.endRead a0 a1 a2) := by
  unfold State.endRead
  try dsimp only
  repeat' first
    | with_reducible assumption | intro _ | with_reducible apply f0 | with_reducible apply State.dropRead_keeps
    | with_reducible apply State.sendHostReads_keeps | with_reducible apply State.addSat_keeps
    | with_reducible apply keeps_ite

theorem State.poisonedRead_keeps {a0 : State} {a1 : HostRead} (hregs : k.regs = false) (hclusters : k.clusters = false)
    (hfab : k.fab = false) (hcol : k.col = false) (h : Keeps k m a0) :
    Keeps k m (State.poisonedRead a0 a1) := by
  unfold State.poisonedRead
  try dsimp only
  repeat' first
    | with_reducible assumption | with_reducible apply State.stepFault_keeps | with_reducible apply keeps_ite
    | with_reducible apply keeps_ite_fst | split

theorem State.doHostReadCompletion_keeps {a0 : State} {a1 a2 : Nat} {a3 : CplStatus} {a4 : Bytes}
    (hregs : k.regs = false) (hclusters : k.clusters = false) (hfab : k.fab = false) (hcol : k.col = false)
    (hcfg : k.cfg = false) (h : Keeps k m a0) :
    Keeps k m (State.doHostReadCompletion a0 a1 a2 a3 a4) := by
  unfold State.doHostReadCompletion
  try dsimp only
  repeat' first
    | with_reducible assumption | with_reducible exact Or.inl ‹_› | with_reducible exact Eq.refl _
    | with_reducible exact Or.inr rfl | with_reducible exact Or.inr ⟨rfl, rfl⟩
    | with_reducible exact Or.inr ⟨rfl, rfl, rfl⟩ | intro _ | with_reducible apply State.poisonedRead_keeps
    | with_reducible apply State.endRead_keeps | with_reducible apply State.landRead_keeps
    | with_reducible apply State.dropRead_keeps | with_reducible apply State.failBarrow_keeps
    | with_reducible apply State.sendHostReads_keeps | with_reducible apply State.aer_keeps
    | with_reducible apply State.addSat_keeps | with_reducible apply keeps_ite | with_reducible apply keeps_ite_fst | split
    | refine keeps_of_fst (by with_reducible assumption) ?_ | with_reducible apply keeps_upd

theorem State.doHostCompletionTimeout_keeps {a0 : State} {a1 : Nat} (hregs : k.regs = false)
    (hclusters : k.clusters = false) (hfab : k.fab = false) (hcol : k.col = false) (hcfg : k.cfg = false)
    (h : Keeps k m a0) :
    Keeps k m (State.doHostCompletionTimeout a0 a1) := by
  unfold State.doHostCompletionTimeout
  try dsimp only
  repeat' first
    | with_reducible assumption | with_reducible apply State.dropRead_keeps | with_reducible apply State.failBarrow_keeps
    | with_reducible apply State.sendHostReads_keeps | with_reducible apply State.aer_keeps
    | with_reducible apply State.addSat_keeps | with_reducible apply keeps_ite | with_reducible apply keeps_ite_fst | split

theorem State.ackTlp_keeps {a0 : State} {a1 : Tlp} (hregs : k.regs = false) (hfab : k.fab = false) (h : Keeps k m a0) :
    Keeps k m (State.ackTlp a0 a1) := by
  unfold State.ackTlp
  try dsimp only
  repeat' first
    | with_reducible assumption | with_reducible exact Or.inl ‹_› | with_reducible exact Eq.refl _
    | with_reducible exact Or.inr rfl | with_reducible exact Or.inr ⟨rfl, rfl⟩
    | with_reducible exact Or.inr ⟨rfl, rfl, rfl⟩ | with_reducible apply State.finishInbound_keeps
    | with_reducible apply State.addWrap_keeps | with_reducible apply State.addSat_keeps | with_reducible apply keeps_ite
    | with_reducible apply keeps_ite_fst | split | refine keeps_of_fst (by with_reducible assumption) ?_
    | with_reducible apply keeps_upd

theorem State.doHostWriteAck_keeps {a0 : State} {a1 : Nat} (hregs : k.regs = false) (hfab : k.fab = false)
    (h : Keeps k m a0) :
    Keeps k m (State.doHostWriteAck a0 a1) := by
  unfold State.doHostWriteAck
  try dsimp only
  repeat' first
    | with_reducible assumption | with_reducible exact Or.inl ‹_› | with_reducible exact Eq.refl _
    | with_reducible exact Or.inr rfl | with_reducible exact Or.inr ⟨rfl, rfl⟩
    | with_reducible exact Or.inr ⟨rfl, rfl, rfl⟩ | intro _ | with_reducible apply State.ackTlp_keeps
    | with_reducible apply keeps_ite | with_reducible apply keeps_foldl | with_reducible apply keeps_ite_fst
    | with_reducible apply keeps_foldl_fst | split | refine keeps_of_fst (by with_reducible assumption) ?_
    | with_reducible apply keeps_upd

theorem State.doReplayTimer_keeps {a0 : State} {a1 : Nat} (h : Keeps k m a0) :
    Keeps k m (State.doReplayTimer a0 a1) := by
  unfold State.doReplayTimer
  try dsimp only
  repeat' first
    | with_reducible assumption | with_reducible exact Or.inl ‹_› | with_reducible exact Eq.refl _
    | with_reducible exact Or.inr rfl | with_reducible exact Or.inr ⟨rfl, rfl⟩
    | with_reducible exact Or.inr ⟨rfl, rfl, rfl⟩ | with_reducible apply State.emit_keeps | with_reducible apply keeps_ite
    | with_reducible apply keeps_ite_fst | split | refine keeps_of_fst (by with_reducible assumption) ?_
    | with_reducible apply keeps_upd

theorem State.stageLineWrite_keeps {a0 : State} {a1 : Nat} {a2 : List (Option Byte)} (hregs : k.regs = false)
    (hlines : k.lines = false) (h : Keeps k m a0) :
    Keeps k m (State.stageLineWrite a0 a1 a2) := by
  unfold State.stageLineWrite
  try dsimp only
  repeat' first
    | with_reducible assumption | with_reducible exact Or.inl ‹_› | with_reducible exact Eq.refl _
    | with_reducible exact Or.inr rfl | with_reducible exact Or.inr ⟨rfl, rfl⟩
    | with_reducible exact Or.inr ⟨rfl, rfl, rfl⟩ | with_reducible apply State.stageMerge_keeps
    | with_reducible apply keeps_ite | with_reducible apply keeps_ite_fst | split
    | refine keeps_of_fst (by with_reducible assumption) ?_ | with_reducible apply keeps_upd

theorem State.stagingBytes_keeps {a0 : State} {a1 : Nat} {a2 : List (Option Byte)} (hregs : k.regs = false)
    (hlines : k.lines = false) (h : Keeps k m a0) :
    Keeps k m (State.stagingBytes a0 a1 a2) := by
  unfold State.stagingBytes
  try dsimp only
  repeat' first
    | with_reducible assumption | intro _ | with_reducible apply State.stageLineWrite_keeps
    | with_reducible apply State.addSat_keeps | with_reducible apply keeps_ite | with_reducible apply keeps_foldl

theorem State.doStagingWrite_keeps {a0 : State} {a1 : Nat} {a2 : HostData} (hregs : k.regs = false)
    (hlines : k.lines = false) (hcfg : k.cfg = false) (h : Keeps k m a0) :
    Keeps k m (State.doStagingWrite a0 a1 a2) := by
  unfold State.doStagingWrite
  try dsimp only
  repeat' first
    | with_reducible assumption | with_reducible apply State.stagingBytes_keeps | with_reducible apply State.aer_keeps
    | with_reducible apply keeps_ite | with_reducible apply keeps_ite_fst | split

theorem State.stageLineRead_keeps {a0 : State} {a1 : Nat} (hregs : k.regs = false) (hlines : k.lines = false)
    (h : Keeps k m a0) :
    Keeps k m (State.stageLineRead a0 a1).1 := by
  unfold State.stageLineRead
  try dsimp only
  repeat' first
    | with_reducible assumption | with_reducible apply State.fetchTier_keeps | with_reducible apply State.drawn_keeps
    | with_reducible apply State.addSat_keeps | with_reducible apply keeps_ite | with_reducible apply keeps_ite_fst | split
    | refine keeps_of_fst (by with_reducible assumption) ?_

theorem State.stagingData_keeps {a0 : State} {a1 a2 : Nat} (hregs : k.regs = false) (hlines : k.lines = false)
    (hcfg : k.cfg = false) (h : Keeps k m a0) :
    Keeps k m (State.stagingData a0 a1 a2) := by
  unfold State.stagingData
  try dsimp only
  repeat' first
    | with_reducible assumption | intro _ | with_reducible apply State.stageLineRead_keeps
    | with_reducible apply State.aer_keeps | with_reducible apply State.emit_keeps
    | with_reducible apply State.addSat_keeps | with_reducible apply keeps_ite | with_reducible apply keeps_foldl
    | with_reducible apply keeps_ite_fst | with_reducible apply keeps_foldl_fst

theorem State.doStagingRead_keeps {a0 : State} {a1 : Nat} {a2 : Option Nat} (hregs : k.regs = false)
    (hlines : k.lines = false) (hcfg : k.cfg = false) (h : Keeps k m a0) :
    Keeps k m (State.doStagingRead a0 a1 a2) := by
  unfold State.doStagingRead
  try dsimp only
  repeat' first
    | with_reducible assumption | with_reducible apply State.stagingData_keeps | with_reducible apply State.aer_keeps
    | with_reducible apply keeps_ite | with_reducible apply keeps_ite_fst | split

theorem State.cfgWrite_keeps {a0 : State} {a1 : Nat} {a2 : BitVec 32} (hregs : k.regs = false)
    (hclusters : k.clusters = false) (hfab : k.fab = false) (hcol : k.col = false) (hcfg : k.cfg = false)
    (h : Keeps k m a0) :
    Keeps k m (State.cfgWrite a0 a1 a2) := by
  unfold State.cfgWrite
  try dsimp only
  repeat' first
    | with_reducible assumption | with_reducible apply State.doFunctionLevelReset_keeps
    | with_reducible apply State.checkTraffic_keeps | with_reducible apply State.setCfg_keeps
    | with_reducible apply keeps_ite

theorem State.doConfigurationRequest_keeps {a0 : State} {a1 : Bool} {a2 : Nat} {a3 : BitVec 32}
    (hregs : k.regs = false) (hclusters : k.clusters = false) (hfab : k.fab = false) (hcol : k.col = false)
    (hcfg : k.cfg = false) (h : Keeps k m a0) :
    Keeps k m (State.doConfigurationRequest a0 a1 a2 a3) := by
  unfold State.doConfigurationRequest
  try dsimp only
  repeat' first
    | with_reducible assumption | with_reducible apply State.cfgWrite_keeps | with_reducible apply State.emit_keeps
    | with_reducible apply keeps_ite

theorem State.doMctpVdmReceive_keeps {a0 : State} {a1 a2 : Nat} (hregs : k.regs = false) (h : Keeps k m a0) :
    Keeps k m (State.doMctpVdmReceive a0 a1 a2) := by
  unfold State.doMctpVdmReceive
  try dsimp only
  repeat' first
    | with_reducible assumption | with_reducible apply State.addSat_keeps | with_reducible apply keeps_ite

theorem State.doSetEndpointId_keeps {a0 : State} {a1 : Endpoint} {a2 : Bool} {a3 : Byte} (hregs : k.regs = false)
    (h : Keeps k m a0) :
    Keeps k m (State.doSetEndpointId a0 a1 a2 a3) := by
  unfold State.doSetEndpointId
  try dsimp only
  repeat' first
    | with_reducible assumption | with_reducible exact Or.inl ‹_› | with_reducible exact Eq.refl _
    | with_reducible exact Or.inr rfl | with_reducible exact Or.inr ⟨rfl, rfl⟩
    | with_reducible exact Or.inr ⟨rfl, rfl, rfl⟩ | with_reducible apply State.setFld_keeps
    | with_reducible apply keeps_ite | with_reducible apply keeps_ite_fst | split
    | refine keeps_of_fst (by with_reducible assumption) ?_ | with_reducible apply keeps_upd

theorem State.latchStraps_keeps {a0 : State} {a1 : BitVec 6} {a2 a3 : Bool} (hregs : k.regs = false) (h : Keeps k m a0)
    :
    Keeps k m (State.latchStraps a0 a1 a2 a3) := by
  unfold State.latchStraps
  try dsimp only
  repeat' first
    | with_reducible assumption | with_reducible apply State.setFld_keeps

theorem State.coldRegs_keeps {a0 : State} (hregs : k.regs = false) (h : Keeps k m a0) :
    Keeps k m (State.coldRegs a0) := by
  unfold State.coldRegs
  try dsimp only
  repeat' first
    | with_reducible assumption | intro _ | with_reducible apply State.setFld_keeps | with_reducible apply keeps_foldl

theorem State.drawIds_keeps {a0 : State} (hregs : k.regs = false) (h : Keeps k m a0) :
    Keeps k m (State.drawIds a0) := by
  unfold State.drawIds
  try dsimp only
  repeat' first
    | with_reducible assumption | with_reducible apply State.drawn_keeps | with_reducible apply State.setReg_keeps

theorem State.completeErase_keeps {a0 : State} (hregs : k.regs = false) (hcold : k.cold = false) (h : Keeps k m a0) :
    Keeps k m (State.completeErase a0) := by
  unfold State.completeErase
  try dsimp only
  repeat' first
    | with_reducible assumption | with_reducible exact Or.inl ‹_› | with_reducible exact Eq.refl _
    | with_reducible exact Or.inr rfl | with_reducible exact Or.inr ⟨rfl, rfl⟩
    | with_reducible exact Or.inr ⟨rfl, rfl, rfl⟩ | with_reducible apply State.putRoles_keeps
    | with_reducible apply keeps_ite | with_reducible apply keeps_ite_fst | split
    | refine keeps_of_fst (by with_reducible assumption) ?_ | with_reducible apply keeps_upd

theorem State.coldBegin_keeps {a0 : State} {a1 : BitVec 6} {a2 a3 : Bool} (hregs : k.regs = false)
    (hcold : k.cold = false) (hboot : k.boot = false) (h : Keeps k m a0) :
    Keeps k m (State.coldBegin a0 a1 a2 a3) := by
  unfold State.coldBegin
  try dsimp only
  repeat' first
    | with_reducible assumption | with_reducible exact Or.inl ‹_› | with_reducible exact Eq.refl _
    | with_reducible exact Or.inr rfl | with_reducible exact Or.inr ⟨rfl, rfl⟩
    | with_reducible exact Or.inr ⟨rfl, rfl, rfl⟩ | with_reducible apply State.completeErase_keeps
    | with_reducible apply State.drawIds_keeps | with_reducible apply State.coldRegs_keeps
    | with_reducible apply State.latchStraps_keeps | with_reducible apply State.linkLow_keeps
    | with_reducible apply State.showSlot_keeps | with_reducible apply State.showCoolFault_keeps
    | with_reducible apply State.logChange_keeps | with_reducible apply State.emit_keeps
    | with_reducible apply State.setFld_keeps | with_reducible apply keeps_ite | with_reducible apply keeps_ite_fst | split
    | refine keeps_of_fst (by with_reducible assumption) ?_ | with_reducible apply keeps_upd

theorem State.doInputEntersLimits_keeps {a0 : State} {a1 : BitVec 6} {a2 a3 a4 a5 : Bool} (hregs : k.regs = false)
    (hcold : k.cold = false) (hboot : k.boot = false) (h : Keeps k m a0) :
    Keeps k m (State.doInputEntersLimits a0 a1 a2 a3 a4 a5) := by
  unfold State.doInputEntersLimits
  try dsimp only
  repeat' first
    | with_reducible assumption | with_reducible exact Or.inl ‹_› | with_reducible exact Eq.refl _
    | with_reducible exact Or.inr rfl | with_reducible exact Or.inr ⟨rfl, rfl⟩
    | with_reducible exact Or.inr ⟨rfl, rfl, rfl⟩ | with_reducible apply State.coldBegin_keeps
    | with_reducible apply keeps_ite | with_reducible apply keeps_ite_fst | split
    | refine keeps_of_fst (by with_reducible assumption) ?_ | with_reducible apply keeps_upd

theorem State.doEoffN_keeps {a0 : State} (hregs : k.regs = false) (hclusters : k.clusters = false)
    (hslice : k.slice = false) (hpad : k.pad = false) (hlines : k.lines = false) (hslots : k.slots = false)
    (htables : k.tables = false) (hkeys : k.keys = false) (hfab : k.fab = false) (hcol : k.col = false)
    (hconf : k.conf = false) (hcold : k.cold = false) (htap : k.tap = false) (hfirm : k.firm = false)
    (hctl : k.ctl = false) (hboot : k.boot = false) (hticks : k.ticks = false) (hstaged : k.staged = false)
    (hcfg : k.cfg = false) (h : Keeps k m a0) :
    Keeps k m (State.doEoffN a0) := by
  unfold State.doEoffN
  try dsimp only
  repeat' first
    | with_reducible assumption | with_reducible exact Or.inl ‹_› | with_reducible exact Eq.refl _
    | with_reducible exact Or.inr rfl | with_reducible exact Or.inr ⟨rfl, rfl⟩
    | with_reducible exact Or.inr ⟨rfl, rfl, rfl⟩ | with_reducible apply State.powerOff_keeps
    | with_reducible apply keeps_ite | with_reducible apply keeps_ite_fst | split
    | refine keeps_of_fst (by with_reducible assumption) ?_ | with_reducible apply keeps_upd

theorem State.doInputLoss_keeps {a0 : State} (hregs : k.regs = false) (hclusters : k.clusters = false)
    (hslice : k.slice = false) (hpad : k.pad = false) (hlines : k.lines = false) (hslots : k.slots = false)
    (htables : k.tables = false) (hkeys : k.keys = false) (hfab : k.fab = false) (hcol : k.col = false)
    (hconf : k.conf = false) (hcold : k.cold = false) (htap : k.tap = false) (hfirm : k.firm = false)
    (hctl : k.ctl = false) (hboot : k.boot = false) (hticks : k.ticks = false) (hstaged : k.staged = false)
    (hcfg : k.cfg = false) (h : Keeps k m a0) :
    Keeps k m (State.doInputLoss a0) := by
  unfold State.doInputLoss
  try dsimp only
  repeat' first
    | with_reducible assumption | with_reducible exact Or.inl ‹_› | with_reducible exact Eq.refl _
    | with_reducible exact Or.inr rfl | with_reducible exact Or.inr ⟨rfl, rfl⟩
    | with_reducible exact Or.inr ⟨rfl, rfl, rfl⟩ | with_reducible apply State.powerOff_keeps
    | with_reducible apply keeps_ite | with_reducible apply keeps_ite_fst | split
    | refine keeps_of_fst (by with_reducible assumption) ?_ | with_reducible apply keeps_upd

theorem State.doInputOvervoltage_keeps {a0 : State} (hregs : k.regs = false) (hclusters : k.clusters = false)
    (hslice : k.slice = false) (hpad : k.pad = false) (hlines : k.lines = false) (hslots : k.slots = false)
    (htables : k.tables = false) (hkeys : k.keys = false) (hfab : k.fab = false) (hcol : k.col = false)
    (hconf : k.conf = false) (hcold : k.cold = false) (htap : k.tap = false) (hfirm : k.firm = false)
    (hctl : k.ctl = false) (hboot : k.boot = false) (hticks : k.ticks = false) (hstaged : k.staged = false)
    (hcfg : k.cfg = false) (h : Keeps k m a0) :
    Keeps k m (State.doInputOvervoltage a0) := by
  unfold State.doInputOvervoltage
  try dsimp only
  repeat' first
    | with_reducible assumption | with_reducible exact Or.inl ‹_› | with_reducible exact Eq.refl _
    | with_reducible exact Or.inr rfl | with_reducible exact Or.inr ⟨rfl, rfl⟩
    | with_reducible exact Or.inr ⟨rfl, rfl, rfl⟩ | with_reducible apply State.powerOff_keeps
    | with_reducible apply keeps_ite | with_reducible apply keeps_ite_fst | split
    | refine keeps_of_fst (by with_reducible assumption) ?_ | with_reducible apply keeps_upd

theorem State.startFirmware_keeps {a0 : State} {a1 : Nat} (hregs : k.regs = false) (hcold : k.cold = false)
    (hfirm : k.firm = false) (hctl : k.ctl = false) (hboot : k.boot = false) (h : Keeps k m a0) :
    Keeps k m (State.startFirmware a0 a1) := by
  unfold State.startFirmware
  try dsimp only
  repeat' first
    | with_reducible assumption | with_reducible exact Or.inl ‹_› | with_reducible exact Eq.refl _
    | with_reducible exact Or.inr rfl | with_reducible exact Or.inr ⟨rfl, rfl⟩
    | with_reducible exact Or.inr ⟨rfl, rfl, rfl⟩ | with_reducible apply State.loadUcode_keeps
    | with_reducible apply State.setFld_keeps | with_reducible apply keeps_ite | with_reducible apply keeps_ite_fst | split
    | refine keeps_of_fst (by with_reducible assumption) ?_ | with_reducible apply keeps_upd

theorem State.doSlotChoice_keeps {a0 : State} (hregs : k.regs = false) (hcold : k.cold = false)
    (hflash : k.flash = false) (hfirm : k.firm = false) (hctl : k.ctl = false) (hboot : k.boot = false) (h : Keeps k m a0)
    :
    Keeps k m (State.doSlotChoice a0) := by
  unfold State.doSlotChoice
  try dsimp only
  repeat' first
    | with_reducible assumption | intro _ | with_reducible apply State.startFirmware_keeps
    | with_reducible apply State.settleMirror_keeps | with_reducible apply State.writeRecord_keeps
    | with_reducible apply State.flashRetry_keeps | with_reducible apply State.setDev_keeps
    | with_reducible apply keeps_ite | with_reducible apply keeps_foldl | with_reducible apply keeps_ite_fst
    | with_reducible apply keeps_foldl_fst | split

theorem State.remapFailed_keeps {a0 : State} {a1 : Nat} (hregs : k.regs = false) (hrepair : k.repair = false)
    (h : Keeps k m a0) :
    Keeps k m (State.remapFailed a0 a1) := by
  unfold State.remapFailed
  try dsimp only
  repeat' first
    | with_reducible assumption | with_reducible apply State.putRemap_keeps | with_reducible apply keeps_ite
    | with_reducible apply keeps_ite_fst | split

theorem State.doSelfTestDone_keeps {a0 : State} {a1 : List Nat} {a2 : Bool} (hregs : k.regs = false)
    (hclusters : k.clusters = false) (hslice : k.slice = false) (hpad : k.pad = false) (hlines : k.lines = false)
    (hslots : k.slots = false) (htables : k.tables = false) (hkeys : k.keys = false) (hfab : k.fab = false)
    (hcol : k.col = false) (hconf : k.conf = false) (hrepair : k.repair = false) (hboot : k.boot = false)
    (h : Keeps k m a0) :
    Keeps k m (State.doSelfTestDone a0 a1 a2) := by
  unfold State.doSelfTestDone
  have h3 (s3 : State) (g : Keeps k m s3) : Keeps k m { s3 with
      boot := { s3.boot with stage := 2 }
      clusters := s3.repair.failed.foldl (fun m p => mset cluDefault m p { mget cluDefault m p with retired := true }) s3.clusters } := by
    refine keeps_all g (fun z => (g.good z).regs) (fun z => (g.good z).staged) (fun z => mwf_foldl _ _ _ _ (fun m x e => mwf_mset _ _ _ _ e) (g.good z).clusters) (fun z => (g.good z).slice)
      (fun z => (g.good z).pad) (fun z => (g.good z).sliceFlaw) (fun z => (g.good z).padFlaw) (fun z => (g.good z).flash) (fun z => (g.good z).lines) (fun z => (g.good z).slots) (Or.inr rfl) (Or.inl hclusters)
      (Or.inr ⟨rfl, rfl⟩) (Or.inr ⟨rfl, rfl⟩) (Or.inr rfl) (Or.inr rfl) (Or.inr ⟨rfl, rfl, rfl⟩) (Or.inr ⟨rfl, rfl⟩) (Or.inr rfl)
      (Or.inr rfl) (Or.inr rfl) (Or.inr rfl) (Or.inr rfl) (Or.inr rfl) (Or.inr rfl) (Or.inr rfl) (Or.inr rfl) (Or.inl hboot)
      (Or.inr rfl) (Or.inr rfl) (Or.inr rfl)
  have h1 (f : Repair → Repair) := State.writeRepair_keeps (a1 := f) hrepair h
  dsimp only
  refine keeps_ite (keeps_ite ?_ ?_) h
  · with_reducible apply State.enterFallow_keeps <;> first | assumption | exact State.showRemap_keeps hregs (h1 _)
  · exact h3 _ (State.showRemap_keeps hregs (keeps_foldl (h1 _) fun s x g => by
      with_reducible apply State.remapFailed_keeps <;> assumption))

theorem State.strapHold_keeps {a0 : State} (hregs : k.regs = false) (hclusters : k.clusters = false)
    (hfab : k.fab = false) (hcol : k.col = false) (h : Keeps k m a0) :
    Keeps k m (State.strapHold a0) := by
  unfold State.strapHold
  try dsimp only
  repeat' first
    | with_reducible assumption | with_reducible apply State.setCause_keeps | with_reducible apply State.holdFabric_keeps
    | with_reducible apply State.raiseEvent_keeps | with_reducible apply keeps_ite

theorem State.startRackTimer_keeps {a0 : State} (h : Keeps k m a0) :
    Keeps k m (State.startRackTimer a0) := by
  unfold State.startRackTimer
  try dsimp only
  repeat' first
    | with_reducible assumption | with_reducible exact Or.inl ‹_› | with_reducible exact Eq.refl _
    | with_reducible exact Or.inr rfl | with_reducible exact Or.inr ⟨rfl, rfl⟩
    | with_reducible exact Or.inr ⟨rfl, rfl, rfl⟩ | with_reducible apply keeps_ite | with_reducible apply keeps_ite_fst
    | split | refine keeps_of_fst (by with_reducible assumption) ?_ | with_reducible apply keeps_upd

theorem State.doConfigurationChoice_keeps {a0 : State} (hregs : k.regs = false) (hclusters : k.clusters = false)
    (hfab : k.fab = false) (hcol : k.col = false) (hboot : k.boot = false) (h : Keeps k m a0) :
    Keeps k m (State.doConfigurationChoice a0) := by
  unfold State.doConfigurationChoice
  try dsimp only
  repeat' first
    | with_reducible assumption | with_reducible exact Or.inl ‹_› | with_reducible exact Eq.refl _
    | with_reducible exact Or.inr rfl | with_reducible exact Or.inr ⟨rfl, rfl⟩
    | with_reducible exact Or.inr ⟨rfl, rfl, rfl⟩ | intro _ | with_reducible apply State.startRackTimer_keeps
    | with_reducible apply State.strapHold_keeps | with_reducible apply State.useCopy_keeps
    | with_reducible apply State.holdSect_keeps | with_reducible apply State.checkCopies_keeps
    | with_reducible apply State.setDev_keeps | with_reducible apply keeps_ite | with_reducible apply keeps_foldl
    | with_reducible apply keeps_ite_fst | with_reducible apply keeps_foldl_fst | split
    | refine keeps_of_fst (by with_reducible assumption) ?_ | with_reducible apply keeps_upd

theorem State.startRoutes_keeps {a0 : State} (hregs : k.regs = false) (h : Keeps k m a0) :
    Keeps k m (State.startRoutes a0) := by
  unfold State.startRoutes
  try dsimp only
  repeat' first
    | with_reducible assumption | with_reducible apply State.installTables_keeps
    | with_reducible apply State.logChange_keeps

theorem State.eventNine_keeps {a0 : State} {a1 : Bytes} (hregs : k.regs = false) (hclusters : k.clusters = false)
    (hslots : k.slots = false) (hfab : k.fab = false) (hcol : k.col = false) (hconf : k.conf = false)
    (hcold : k.cold = false) (hboot : k.boot = false) (hstaged : k.staged = false) (h : Keeps k m a0) :
    Keeps k m (State.eventNine a0 a1) := by
  unfold State.eventNine
  try dsimp only
  repeat' first
    | with_reducible assumption | with_reducible exact Or.inl ‹_› | with_reducible exact Eq.refl _
    | with_reducible exact Or.inr rfl | with_reducible exact Or.inr ⟨rfl, rfl⟩
    | with_reducible exact Or.inr ⟨rfl, rfl, rfl⟩ | with_reducible apply State.startRoutes_keeps
    | with_reducible apply State.startSect_keeps | with_reducible apply State.setStageBase_keeps
    | with_reducible apply State.lanesTrain_keeps | with_reducible apply State.startFabric_keeps
    | with_reducible apply keeps_ite | with_reducible apply keeps_ite_fst | split
    | refine keeps_of_fst (by with_reducible assumption) ?_ | with_reducible apply keeps_upd

theorem State.doSectionsApply_keeps {a0 : State} (hregs : k.regs = false) (hclusters : k.clusters = false)
    (hslots : k.slots = false) (hfab : k.fab = false) (hcol : k.col = false) (hconf : k.conf = false)
    (hcold : k.cold = false) (hboot : k.boot = false) (hstaged : k.staged = false) (h : Keeps k m a0) :
    Keeps k m (State.doSectionsApply a0) := by
  unfold State.doSectionsApply
  try dsimp only
  repeat' first
    | with_reducible assumption | with_reducible exact Or.inl ‹_› | with_reducible exact Eq.refl _
    | with_reducible exact Or.inr rfl | with_reducible exact Or.inr ⟨rfl, rfl⟩
    | with_reducible exact Or.inr ⟨rfl, rfl, rfl⟩ | intro _ | with_reducible apply State.eventNine_keeps
    | with_reducible apply State.strapHold_keeps | with_reducible apply State.startSect_keeps
    | with_reducible apply keeps_ite | with_reducible apply keeps_foldl | with_reducible apply keeps_ite_fst
    | with_reducible apply keeps_foldl_fst | split | refine keeps_of_fst (by with_reducible assumption) ?_
    | with_reducible apply keeps_upd

theorem State.trainLane_keeps {a0 : State} {a1 : Nat} {a2 : BridgeReport} (hregs : k.regs = false)
    (hclusters : k.clusters = false) (hfab : k.fab = false) (hcol : k.col = false) (h : Keeps k m a0) :
    Keeps k m (State.trainLane a0 a1 a2) := by
  unfold State.trainLane
  try dsimp only
  repeat' first
    | with_reducible assumption | with_reducible apply State.laneTrained_keeps | with_reducible apply keeps_ite

theorem State.allowMissing_keeps {a0 : State} (hregs : k.regs = false) (h : Keeps k m a0) :
    Keeps k m (State.allowMissing a0) := by
  unfold State.allowMissing
  try dsimp only
  repeat' first
    | with_reducible assumption | with_reducible exact Or.inl ‹_› | with_reducible exact Eq.refl _
    | with_reducible exact Or.inr rfl | with_reducible exact Or.inr ⟨rfl, rfl⟩
    | with_reducible exact Or.inr ⟨rfl, rfl, rfl⟩ | with_reducible apply State.setFld_keeps
    | with_reducible apply keeps_ite | with_reducible apply keeps_ite_fst | split
    | refine keeps_of_fst (by with_reducible assumption) ?_ | with_reducible apply keeps_upd

theorem State.doLanesTrained_keeps {a0 : State} {a1 : List BridgeReport} (hregs : k.regs = false)
    (hclusters : k.clusters = false) (hlines : k.lines = false) (hfab : k.fab = false) (hcol : k.col = false)
    (hboot : k.boot = false) (h : Keeps k m a0) :
    Keeps k m (State.doLanesTrained a0 a1) := by
  unfold State.doLanesTrained
  try dsimp only
  repeat' first
    | with_reducible assumption | with_reducible exact Or.inl ‹_› | with_reducible exact Eq.refl _
    | with_reducible exact Or.inr rfl | with_reducible exact Or.inr ⟨rfl, rfl⟩
    | with_reducible exact Or.inr ⟨rfl, rfl, rfl⟩ | intro _ | with_reducible apply State.allowMissing_keeps
    | with_reducible apply State.trainLane_keeps | with_reducible apply State.coverRetired_keeps
    | with_reducible apply State.showLease_keeps | with_reducible apply State.checkTiers_keeps
    | with_reducible apply State.releaseWaits_keeps | with_reducible apply keeps_ite | with_reducible apply keeps_foldl
    | with_reducible apply keeps_ite_fst | with_reducible apply keeps_foldl_fst | split
    | refine keeps_of_fst (by with_reducible assumption) ?_ | with_reducible apply keeps_upd

theorem State.enterReady_keeps {a0 : State} (hregs : k.regs = false) (hboot : k.boot = false) (h : Keeps k m a0) :
    Keeps k m (State.enterReady a0) := by
  unfold State.enterReady
  try dsimp only
  repeat' first
    | with_reducible assumption | with_reducible exact Or.inl ‹_› | with_reducible exact Eq.refl _
    | with_reducible exact Or.inr rfl | with_reducible exact Or.inr ⟨rfl, rfl⟩
    | with_reducible exact Or.inr ⟨rfl, rfl, rfl⟩ | with_reducible apply State.startRackTimer_keeps
    | with_reducible apply State.applyStaged_keeps | with_reducible apply State.showContexts_keeps
    | with_reducible apply State.setDev_keeps | with_reducible apply keeps_ite_fst | split
    | refine keeps_of_fst (by with_reducible assumption) ?_ | with_reducible apply keeps_upd

theorem State.doColdStartDone_keeps {a0 : State} (hregs : k.regs = false) (hboot : k.boot = false) (h : Keeps k m a0) :
    Keeps k m (State.doColdStartDone a0) := by
  unfold State.doColdStartDone
  try dsimp only
  repeat' first
    | with_reducible assumption | with_reducible exact Or.inl ‹_› | with_reducible exact Eq.refl _
    | with_reducible exact Or.inr rfl | with_reducible exact Or.inr ⟨rfl, rfl⟩
    | with_reducible exact Or.inr ⟨rfl, rfl, rfl⟩ | with_reducible apply State.enterReady_keeps
    | with_reducible apply State.startRackTimer_keeps | with_reducible apply State.setDev_keeps
    | with_reducible apply keeps_ite | with_reducible apply keeps_ite_fst | split
    | refine keeps_of_fst (by with_reducible assumption) ?_ | with_reducible apply keeps_upd

theorem State.endReload_keeps {a0 : State} {a1 : Nat} (hregs : k.regs = false) (hboot : k.boot = false)
    (h : Keeps k m a0) :
    Keeps k m (State.endReload a0 a1) := by
  unfold State.endReload
  try dsimp only
  repeat' first
    | with_reducible assumption | with_reducible exact Or.inl ‹_› | with_reducible exact Eq.refl _
    | with_reducible exact Or.inr rfl | with_reducible exact Or.inr ⟨rfl, rfl⟩
    | with_reducible exact Or.inr ⟨rfl, rfl, rfl⟩ | with_reducible apply State.setFld_keeps
    | with_reducible apply keeps_ite_fst | split | refine keeps_of_fst (by with_reducible assumption) ?_
    | with_reducible apply keeps_upd

theorem State.drainModes_keeps {a0 a1 : State} (hregs : k.regs = false) (hfab : k.fab = false) (h : Keeps k m a0) :
    Keeps k m (State.drainModes a0 a1) := by
  unfold State.drainModes
  try dsimp only
  repeat' first
    | with_reducible assumption | with_reducible exact Or.inl ‹_› | with_reducible exact Eq.refl _
    | with_reducible exact Or.inr rfl | with_reducible exact Or.inr ⟨rfl, rfl⟩
    | with_reducible exact Or.inr ⟨rfl, rfl, rfl⟩ | intro _ | with_reducible apply State.beginDrain_keeps
    | with_reducible apply State.setFld_keeps | with_reducible apply keeps_ite | with_reducible apply keeps_foldl
    | with_reducible apply keeps_ite_fst | with_reducible apply keeps_foldl_fst | split
    | refine keeps_of_fst (by with_reducible assumption) ?_ | with_reducible apply keeps_upd

theorem State.reloadMemory_keeps {a0 : State} {a1 : Bytes} (hregs : k.regs = false) (hslots : k.slots = false)
    (hconf : k.conf = false) (hcold : k.cold = false) (hstaged : k.staged = false) (h : Keeps k m a0) :
    Keeps k m (State.reloadMemory a0 a1) := by
  unfold State.reloadMemory
  try dsimp only
  repeat' first
    | with_reducible assumption | with_reducible apply State.applySect_keeps | with_reducible apply State.showLease_keeps
    | with_reducible apply State.judgeReports_keeps | with_reducible apply State.checkTiers_keeps

theorem State.reloadFabric_keeps {a0 : State} {a1 : Bytes} (hregs : k.regs = false) (hfab : k.fab = false)
    (hconf : k.conf = false) (h : Keeps k m a0) :
    Keeps k m (State.reloadFabric a0 a1) := by
  unfold State.reloadFabric
  try dsimp only
  repeat' first
    | with_reducible assumption | with_reducible exact Or.inl ‹_› | with_reducible exact Eq.refl _
    | with_reducible exact Or.inr rfl | with_reducible exact Or.inr ⟨rfl, rfl⟩
    | with_reducible exact Or.inr ⟨rfl, rfl, rfl⟩ | with_reducible apply State.setFld_keeps
    | with_reducible apply keeps_ite_fst | split | refine keeps_of_fst (by with_reducible assumption) ?_
    | with_reducible apply keeps_upd

theorem State.leaveHeld_keeps {a0 : State} {a1 : Bytes} (hregs : k.regs = false) (hclusters : k.clusters = false)
    (hslots : k.slots = false) (hfab : k.fab = false) (hcol : k.col = false) (hconf : k.conf = false)
    (hcold : k.cold = false) (hboot : k.boot = false) (hstaged : k.staged = false) (h : Keeps k m a0) :
    Keeps k m (State.leaveHeld a0 a1) := by
  unfold State.leaveHeld
  try dsimp only
  repeat' first
    | with_reducible assumption | with_reducible exact Or.inl ‹_› | with_reducible exact Eq.refl _
    | with_reducible exact Or.inr rfl | with_reducible exact Or.inr ⟨rfl, rfl⟩
    | with_reducible exact Or.inr ⟨rfl, rfl, rfl⟩ | with_reducible apply State.eventNine_keeps
    | with_reducible apply State.setDev_keeps | with_reducible apply keeps_ite | with_reducible apply keeps_ite_fst | split
    | refine keeps_of_fst (by with_reducible assumption) ?_ | with_reducible apply keeps_upd

theorem State.runReload_keeps {a0 : Nat} {a1 : State} {a2 : Bytes} {a3 : Reload} (hregs : k.regs = false)
    (hclusters : k.clusters = false) (hslots : k.slots = false) (hfab : k.fab = false) (hcol : k.col = false)
    (hconf : k.conf = false) (hcold : k.cold = false) (hboot : k.boot = false) (hstaged : k.staged = false)
    (h : Keeps k m a1) :
    Keeps k m (State.runReload a0 a1 a2 a3) := by
  induction a0 generalizing a1 a3 with
  | zero =>
    unfold State.runReload
    with_reducible apply keeps_upd
    all_goals first
      | with_reducible assumption
      | exact Or.inl ‹_›
      | with_reducible exact Eq.refl _
      | with_reducible exact Or.inr rfl
      | with_reducible exact Or.inr ⟨rfl, rfl⟩
      | with_reducible exact Or.inr ⟨rfl, rfl, rfl⟩
  | succ n ih =>
    rw [State.runReload]
    split
    · dsimp only
      refine keeps_ite ?_ ?_ <;> repeat' first
        | with_reducible assumption
        | with_reducible apply State.leaveHeld_keeps
        | with_reducible apply State.endReload_keeps
    · dsimp only
      repeat' first
        | with_reducible assumption
        | with_reducible exact Or.inl ‹_›
        | with_reducible exact Eq.refl _
        | with_reducible exact Or.inr rfl
        | with_reducible exact Or.inr ⟨rfl, rfl⟩
        | with_reducible exact Or.inr ⟨rfl, rfl, rfl⟩
        | with_reducible apply ih
        | with_reducible apply State.setCause_keeps
        | with_reducible apply State.reloadFabric_keeps
        | with_reducible apply State.reloadMemory_keeps
        | with_reducible apply State.applySect_keeps
        | with_reducible apply keeps_ite
        | with_reducible apply keeps_upd

theorem State.goOnReload_keeps {a0 : State} (hregs : k.regs = false) (hclusters : k.clusters = false)
    (hslots : k.slots = false) (hfab : k.fab = false) (hcol : k.col = false) (hconf : k.conf = false)
    (hcold : k.cold = false) (hboot : k.boot = false) (hstaged : k.staged = false) (h : Keeps k m a0) :
    Keeps k m (State.goOnReload a0) := by
  unfold State.goOnReload
  try dsimp only
  repeat' first
    | with_reducible assumption | with_reducible apply State.runReload_keeps | with_reducible apply keeps_ite
    | with_reducible apply keeps_ite_fst | split

theorem State.doReload_keeps {a0 : State} {a1 : Agent} {a2 : Word} (hregs : k.regs = false)
    (hclusters : k.clusters = false) (hslots : k.slots = false) (hfab : k.fab = false) (hcol : k.col = false)
    (hconf : k.conf = false) (hcold : k.cold = false) (hboot : k.boot = false) (hstaged : k.staged = false)
    (h : Keeps k m a0) :
    Keeps k m (State.doReload a0 a1 a2) := by
  unfold State.doReload
  try dsimp only
  repeat' first
    | with_reducible assumption | intro _ | with_reducible apply State.runReload_keeps
    | with_reducible apply State.endReload_keeps | with_reducible apply State.useCopy_keeps
    | with_reducible apply State.checkSelected_keeps | with_reducible apply State.gate_keeps
    | with_reducible apply State.setFld_keeps | with_reducible apply keeps_ite | with_reducible apply keeps_ite_fst | split

theorem State.doReloadMemoryApply_keeps {a0 : State} (hregs : k.regs = false) (hclusters : k.clusters = false)
    (hslots : k.slots = false) (hfab : k.fab = false) (hcol : k.col = false) (hconf : k.conf = false)
    (hcold : k.cold = false) (hboot : k.boot = false) (hstaged : k.staged = false) (h : Keeps k m a0) :
    Keeps k m (State.doReloadMemoryApply a0) := by
  unfold State.doReloadMemoryApply
  try dsimp only
  repeat' first
    | with_reducible assumption | with_reducible exact Or.inl ‹_› | with_reducible exact Eq.refl _
    | with_reducible exact Or.inr rfl | with_reducible exact Or.inr ⟨rfl, rfl⟩
    | with_reducible exact Or.inr ⟨rfl, rfl, rfl⟩ | with_reducible apply State.goOnReload_keeps
    | with_reducible apply State.reloadMemory_keeps | with_reducible apply keeps_ite | with_reducible apply keeps_ite_fst
    | split | refine keeps_of_fst (by with_reducible assumption) ?_ | with_reducible apply keeps_upd

theorem State.swapTables_keeps {a0 : State} (hregs : k.regs = false) (h : Keeps k m a0) :
    Keeps k m (State.swapTables a0) := by
  unfold State.swapTables
  try dsimp only
  repeat' first
    | with_reducible assumption | intro _ | with_reducible apply State.exchange_keeps
    | with_reducible apply State.addWrap_keeps | with_reducible apply keeps_foldl

theorem State.endSwap_keeps {a0 a1 : State} {a2 : Nat} (hregs : k.regs = false) (hfab : k.fab = false)
    (h : Keeps k m a0) :
    Keeps k m (State.endSwap a0 a1 a2) := by
  unfold State.endSwap
  try dsimp only
  repeat' first
    | with_reducible assumption | with_reducible exact Or.inl ‹_› | with_reducible exact Eq.refl _
    | with_reducible exact Or.inr rfl | with_reducible exact Or.inr ⟨rfl, rfl⟩
    | with_reducible exact Or.inr ⟨rfl, rfl, rfl⟩ | with_reducible apply State.startWaiting_keeps
    | with_reducible apply State.logChange_keeps | with_reducible apply State.setFld_keeps
    | with_reducible apply keeps_ite_fst | split | refine keeps_of_fst (by with_reducible assumption) ?_
    | with_reducible apply keeps_upd

theorem State.exchangeTables_keeps {a0 : State} (hregs : k.regs = false) (hclusters : k.clusters = false)
    (hslots : k.slots = false) (hfab : k.fab = false) (hcol : k.col = false) (hconf : k.conf = false)
    (hcold : k.cold = false) (hboot : k.boot = false) (hstaged : k.staged = false) (h : Keeps k m a0) :
    Keeps k m (State.exchangeTables a0) := by
  unfold State.exchangeTables
  try dsimp only
  repeat' first
    | with_reducible assumption | with_reducible exact Or.inl ‹_› | with_reducible exact Eq.refl _
    | with_reducible exact Or.inr rfl | with_reducible exact Or.inr ⟨rfl, rfl⟩
    | with_reducible exact Or.inr ⟨rfl, rfl, rfl⟩ | with_reducible apply State.endSwap_keeps
    | with_reducible apply State.swapTables_keeps | with_reducible apply State.goOnReload_keeps
    | with_reducible apply State.drainModes_keeps | with_reducible apply State.applySect_keeps
    | with_reducible apply State.installTables_keeps | with_reducible apply State.startFabric_keeps
    | with_reducible apply keeps_ite | with_reducible apply keeps_ite_fst | split
    | refine keeps_of_fst (by with_reducible assumption) ?_ | with_reducible apply keeps_upd

theorem State.doSwapDrainComplete_keeps {a0 : State} (hregs : k.regs = false) (hclusters : k.clusters = false)
    (hslots : k.slots = false) (hfab : k.fab = false) (hcol : k.col = false) (hconf : k.conf = false)
    (hcold : k.cold = false) (hboot : k.boot = false) (hstaged : k.staged = false) (h : Keeps k m a0) :
    Keeps k m (State.doSwapDrainComplete a0) := by
  unfold State.doSwapDrainComplete
  try dsimp only
  repeat' first
    | with_reducible assumption | with_reducible apply State.exchangeTables_keeps | with_reducible apply keeps_ite

theorem State.doDrainLimitExpiry_keeps {a0 : State} (hregs : k.regs = false) (hclusters : k.clusters = false)
    (hslots : k.slots = false) (hfab : k.fab = false) (hcol : k.col = false) (hconf : k.conf = false)
    (hcold : k.cold = false) (hboot : k.boot = false) (hstaged : k.staged = false) (h : Keeps k m a0) :
    Keeps k m (State.doDrainLimitExpiry a0) := by
  unfold State.doDrainLimitExpiry
  try dsimp only
  repeat' first
    | with_reducible assumption | with_reducible apply State.exchangeTables_keeps | with_reducible apply State.setFld_keeps
    | with_reducible apply keeps_ite | with_reducible apply keeps_ite_fst | split

theorem State.setPending_keeps {a0 : State} {a1 a2 : Nat} (hregs : k.regs = false) (h : Keeps k m a0) :
    Keeps k m (State.setPending a0 a1 a2) := by
  unfold State.setPending
  try dsimp only
  repeat' first
    | with_reducible assumption | with_reducible apply State.setFld_keeps | with_reducible apply keeps_ite
    | with_reducible apply keeps_ite_fst | split

theorem State.setRefused_keeps {a0 : State} {a1 : Nat} (hregs : k.regs = false) (h : Keeps k m a0) :
    Keeps k m (State.setRefused a0 a1) := by
  unfold State.setRefused
  try dsimp only
  repeat' first
    | with_reducible assumption | with_reducible apply State.setFld_keeps | with_reducible apply keeps_ite
    | with_reducible apply keeps_ite_fst | split

theorem State.offBanks_keeps {a0 a1 : State} {a2 : Nat} (hclusters : k.clusters = false) (hslice : k.slice = false)
    (hpad : k.pad = false) (h : Keeps k m a0) :
    Keeps k m (State.offBanks a0 a1 a2) := by
  unfold State.offBanks
  try dsimp only
  repeat' first
    | with_reducible assumption | intro _ | with_reducible apply State.scrubAgain_keeps
    | with_reducible apply State.loseBank_keeps | with_reducible apply State.setClu_keeps | with_reducible apply keeps_ite
    | with_reducible apply keeps_foldl

theorem State.zeroCseq_keeps {a0 a1 : State} {a2 : Store Stage} (hregs : k.regs = false) (h : Keeps k m a0) :
    Keeps k m (State.zeroCseq a0 a1 a2) := by
  unfold State.zeroCseq
  try dsimp only
  repeat' first
    | with_reducible assumption | intro _ | with_reducible apply State.setFld_keeps | with_reducible apply keeps_ite
    | with_reducible apply keeps_foldl

theorem State.applySet_keeps {a0 : State} {a1 : Nat} {a2 : Store Stage} (hregs : k.regs = false)
    (hclusters : k.clusters = false) (hslice : k.slice = false) (hpad : k.pad = false) (hrepair : k.repair = false)
    (h : Keeps k m a0) :
    Keeps k m (State.applySet a0 a1 a2) := by
  unfold State.applySet
  try dsimp only
  repeat' first
    | with_reducible assumption | with_reducible exact Or.inl ‹_› | with_reducible exact Eq.refl _
    | with_reducible exact Or.inr rfl | with_reducible exact Or.inr ⟨rfl, rfl⟩
    | with_reducible exact Or.inr ⟨rfl, rfl, rfl⟩ | with_reducible apply State.zeroCseq_keeps
    | with_reducible apply State.offBanks_keeps | with_reducible apply State.setMirror_keeps
    | with_reducible apply State.noteTerms_keeps | with_reducible apply State.withSet_keeps
    | with_reducible apply State.setReg_keeps | with_reducible apply keeps_ite | with_reducible apply keeps_ite_fst | split
    | refine keeps_of_fst (by with_reducible assumption) ?_ | with_reducible apply keeps_upd

theorem State.noteCommit_keeps {a0 a1 : State} {a2 a3 : Nat} {a4 : Store Stage} (hregs : k.regs = false)
    (h : Keeps k m a0) :
    Keeps k m (State.noteCommit a0 a1 a2 a3 a4) := by
  unfold State.noteCommit
  try dsimp only
  repeat' first
    | with_reducible assumption | with_reducible apply State.withSet_keeps | with_reducible apply State.logChange_keeps
    | with_reducible apply keeps_ite | with_reducible apply keeps_ite_fst | split

theorem State.beginDrains_keeps {a0 : State} {a1 : Store Stage} {a2 : Bool} (hregs : k.regs = false)
    (hfab : k.fab = false) (h : Keeps k m a0) :
    Keeps k m (State.beginDrains a0 a1 a2) := by
  unfold State.beginDrains
  try dsimp only
  repeat' first
    | with_reducible assumption | intro _ | with_reducible apply State.beginDrain_keeps | with_reducible apply keeps_ite
    | with_reducible apply keeps_foldl | with_reducible apply keeps_ite_fst | with_reducible apply keeps_foldl_fst | split

theorem State.deferSet_keeps {a0 : State} {a1 : Agent} {a2 : Nat} {a3 : Bool} {a4 : Store Stage}
    (hregs : k.regs = false) (hfab : k.fab = false) (h : Keeps k m a0) :
    Keeps k m (State.deferSet a0 a1 a2 a3 a4) := by
  unfold State.deferSet
  try dsimp only
  repeat' first
    | with_reducible assumption | with_reducible exact Or.inl ‹_› | with_reducible exact Eq.refl _
    | with_reducible exact Or.inr rfl | with_reducible exact Or.inr ⟨rfl, rfl⟩
    | with_reducible exact Or.inr ⟨rfl, rfl, rfl⟩ | with_reducible apply State.beginDrains_keeps
    | with_reducible apply State.setPending_keeps | with_reducible apply keeps_ite | with_reducible apply keeps_ite_fst
    | split | refine keeps_of_fst (by with_reducible assumption) ?_ | with_reducible apply keeps_upd

theorem State.commitPart_keeps {a0 : State} {a1 : Agent} {a2 : Nat} {a3 : Bool} (hregs : k.regs = false)
    (hclusters : k.clusters = false) (hslice : k.slice = false) (hpad : k.pad = false) (hfab : k.fab = false)
    (hrepair : k.repair = false) (hstaged : k.staged = false) (h : Keeps k m a0) :
    Keeps k m (State.commitPart a0 a1 a2 a3) := by
  unfold State.commitPart
  try dsimp only
  repeat' first
    | with_reducible assumption | with_reducible apply State.deferSet_keeps | with_reducible apply State.noteCommit_keeps
    | with_reducible apply State.applySet_keeps | with_reducible apply State.setPending_keeps
    | with_reducible apply State.dropSet_keeps | with_reducible apply keeps_ite

theorem State.doCommit_keeps {a0 : State} {a1 : Agent} {a2 : Nat} (hregs : k.regs = false)
    (hclusters : k.clusters = false) (hslice : k.slice = false) (hpad : k.pad = false) (hfab : k.fab = false)
    (hrepair : k.repair = false) (hstaged : k.staged = false) (h : Keeps k m a0) :
    Keeps k m (State.doCommit a0 a1 a2) := by
  unfold State.doCommit
  try dsimp only
  repeat' first
    | with_reducible assumption | intro _ | with_reducible apply State.commitPart_keeps
    | with_reducible apply State.setRefused_keeps | with_reducible apply State.gate_keeps | with_reducible apply keeps_ite

theorem State.applyWaiting_keeps {a0 : State} {a1 : Commit} (hregs : k.regs = false) (hclusters : k.clusters = false)
    (hslice : k.slice = false) (hpad : k.pad = false) (hfab : k.fab = false) (hrepair : k.repair = false)
    (h : Keeps k m a0) :
    Keeps k m (State.applyWaiting a0 a1) := by
  unfold State.applyWaiting
  try dsimp only
  repeat' first
    | with_reducible assumption | with_reducible exact Or.inl ‹_› | with_reducible exact Eq.refl _
    | with_reducible exact Or.inr rfl | with_reducible exact Or.inr ⟨rfl, rfl⟩
    | with_reducible exact Or.inr ⟨rfl, rfl, rfl⟩ | with_reducible apply State.beginDrains_keeps
    | with_reducible apply State.noteCommit_keeps | with_reducible apply State.applySet_keeps
    | with_reducible apply State.setPending_keeps | with_reducible apply State.showGroup_keeps
    | with_reducible apply State.withSet_keeps | with_reducible apply keeps_ite | with_reducible apply keeps_ite_fst
    | split | refine keeps_of_fst (by with_reducible assumption) ?_ | with_reducible apply keeps_upd

theorem State.doClusterCommitApply_keeps {a0 : State} {a1 : Nat} (hregs : k.regs = false)
    (hclusters : k.clusters = false) (hslice : k.slice = false) (hpad : k.pad = false) (hfab : k.fab = false)
    (hrepair : k.repair = false) (h : Keeps k m a0) :
    Keeps k m (State.doClusterCommitApply a0 a1) := by
  unfold State.doClusterCommitApply
  try dsimp only
  repeat' first
    | with_reducible assumption | with_reducible apply State.applyWaiting_keeps | with_reducible apply keeps_ite
    | with_reducible apply keeps_ite_fst | split

theorem State.doDeferredCommitApply_keeps {a0 : State} {a1 : Nat} (hregs : k.regs = false)
    (hclusters : k.clusters = false) (hslice : k.slice = false) (hpad : k.pad = false) (hfab : k.fab = false)
    (hrepair : k.repair = false) (h : Keeps k m a0) :
    Keeps k m (State.doDeferredCommitApply a0 a1) := by
  unfold State.doDeferredCommitApply
  try dsimp only
  repeat' first
    | with_reducible assumption | with_reducible apply State.applyWaiting_keeps | with_reducible apply keeps_ite
    | with_reducible apply keeps_ite_fst | split

theorem State.commitBlocks_keeps {a0 : State} {a1 : Agent} {a2 : List Nat} (hregs : k.regs = false)
    (hclusters : k.clusters = false) (hslice : k.slice = false) (hpad : k.pad = false) (hfab : k.fab = false)
    (hrepair : k.repair = false) (hstaged : k.staged = false) (h : Keeps k m a0) :
    Keeps k m (State.commitBlocks a0 a1 a2) := by
  unfold State.commitBlocks
  try dsimp only
  repeat' first
    | with_reducible assumption | intro _ | with_reducible apply State.commitPart_keeps
    | with_reducible apply State.setRefused_keeps | with_reducible apply State.closeLatch_keeps
    | with_reducible apply State.addSat_keeps | with_reducible apply State.setFld_keeps | with_reducible apply keeps_ite
    | with_reducible apply keeps_foldl

theorem State.doCommitGroup_keeps {a0 : State} {a1 : Agent} {a2 : Word} (hregs : k.regs = false)
    (hclusters : k.clusters = false) (hslice : k.slice = false) (hpad : k.pad = false) (hfab : k.fab = false)
    (hrepair : k.repair = false) (hstaged : k.staged = false) (h : Keeps k m a0) :
    Keeps k m (State.doCommitGroup a0 a1 a2) := by
  unfold State.doCommitGroup
  try dsimp only
  repeat' first
    | with_reducible assumption | intro _ | with_reducible apply State.commitBlocks_keeps
    | with_reducible apply State.gate_keeps | with_reducible apply State.setFld_keeps | with_reducible apply keeps_ite

end Sys2Proof.Machine
end

