-- ==== Sys2Proof/Laws/KeepsResets.lean ====
section
/-! SUPPORT. What the operations leave alone: one lemma per operation of recovery, arbiters, resets, controllers and the update path. -/

namespace Sys2Proof.Machine

open Sys2Proof.Safety

variable {k : Kept} {m : State}

theorem State.keepReports_keeps {a0 a1 : State} (hregs : k.regs = false) (h : Keeps k m a0) :
    Keeps k m (State.keepReports a0 a1) := by
  unfold State.keepReports
  try dsimp only
  repeat' first
    | with_reducible assumption | intro _ | with_reducible apply State.setCause_keeps
    | with_reducible apply State.setFld_keeps | with_reducible apply keeps_ite | with_reducible apply keeps_foldl

theorem recoverRegs_good (r : Store Word) (h : mwf regDefault r = true) : mwf regDefault (recoverRegs r) = true := by
  rw [mwf_iff] at *
  unfold recoverRegs
  refine ⟨?_, ?_⟩
  · refine List.pairwise_filterMap.2 (h.1.imp ?_)
    intro a b hab x hx y hy
    dsimp only at hx hy
    split at hx <;> split at hy <;> simp_all
    rw [← hx, ← hy]
    exact hab
  · intro e he
    obtain ⟨a, -, ha⟩ := List.mem_filterMap.1 he
    dsimp only at ha
    split at ha
    · simp at ha
    · rename_i hne
      rw [← Option.some.inj ha]
      exact hne

theorem State.resetRegs_keeps {a0 : State} (hregs : k.regs = false) (hstaged : k.staged = false) (h : Keeps k m a0) :
    Keeps k m (State.resetRegs a0) := by
  unfold State.resetRegs
  have h1 : Keeps k m { a0 with regs := recoverRegs a0.regs, staged := [], commits := [], latches := [] } := by
    refine keeps_all h (fun z => recoverRegs_good _ (h.good z).regs) (fun _ => rfl) (fun z => (h.good z).clusters) (fun z => (h.good z).slice) (fun z => (h.good z).pad) (fun z => (h.good z).sliceFlaw) (fun z => (h.good z).padFlaw)
      (fun z => (h.good z).flash) (fun z => (h.good z).lines) (fun z => (h.good z).slots) (Or.inl hregs) (Or.inr rfl) (Or.inr ⟨rfl, rfl⟩)
      (Or.inr ⟨rfl, rfl⟩) (Or.inr rfl) (Or.inr rfl) (Or.inr ⟨rfl, rfl, rfl⟩) (Or.inr ⟨rfl, rfl⟩) (Or.inr rfl) (Or.inr rfl)
      (Or.inr rfl) (Or.inr rfl) (Or.inr rfl) (Or.inr rfl) (Or.inr rfl) (Or.inr rfl) (Or.inr rfl) (Or.inr rfl) (Or.inr rfl)
      (Or.inl hstaged) (Or.inr rfl)
  revert h1
  generalize ({ a0 with regs := recoverRegs a0.regs, staged := [], commits := [], latches := [] } : State) = s1
  intro h1
  dsimp only
  repeat' first
    | with_reducible assumption
    | intro _
    | with_reducible apply State.keepReports_keeps
    | with_reducible apply State.noteTerms_keeps
    | with_reducible apply State.showCoolFault_keeps
    | with_reducible apply State.setFld_keeps
    | with_reducible apply State.setReg_keeps
    | with_reducible apply State.drawn_keeps
    | with_reducible apply State.logChange_keeps
    | with_reducible apply keeps_ite

theorem State.showHarvest_keeps {a0 : State} {a1 a2 : Nat} {a3 : Bool} (hregs : k.regs = false) (h : Keeps k m a0) :
    Keeps k m (State.showHarvest a0 a1 a2 a3) := by
  unfold State.showHarvest
  try dsimp only
  repeat' first
    | with_reducible assumption | with_reducible apply State.setFld_keeps

theorem State.restoreLosses_keeps {a0 : State} {a1 : HarvestLoss} (hregs : k.regs = false)
    (hclusters : k.clusters = false) (hslice : k.slice = false) (hpad : k.pad = false) (hlines : k.lines = false)
    (hslots : k.slots = false) (hfab : k.fab = false) (hcol : k.col = false) (h : Keeps k m a0) :
    Keeps k m (State.restoreLosses a0 a1) := by
  unfold State.restoreLosses
  try dsimp only
  repeat' first
    | with_reducible assumption | intro _ | with_reducible apply State.beginTeardown_keeps
    | with_reducible apply State.unpend_keeps | with_reducible apply State.postRecord_keeps
    | with_reducible apply State.setTally_keeps | with_reducible apply State.raiseEvent_keeps
    | with_reducible apply State.drawn_keeps | with_reducible apply keeps_ite | with_reducible apply keeps_foldl

theorem State.resetCluster_keeps {a0 : State} {a1 : Nat} (hregs : k.regs = false) (hclusters : k.clusters = false)
    (hpad : k.pad = false) (h : Keeps k m a0) :
    Keeps k m (State.resetCluster a0 a1) := by
  unfold State.resetCluster
  try dsimp only
  repeat' first
    | with_reducible assumption | with_reducible apply State.bumpCgen_keeps | with_reducible apply State.padUndefined_keeps
    | with_reducible apply State.setSeq_keeps | with_reducible apply State.setClu_keeps | with_reducible apply keeps_ite
    | with_reducible apply keeps_ite_fst | split

theorem State.resetHub_keeps {a0 : State} (hregs : k.regs = false) (hfab : k.fab = false) (hcol : k.col = false)
    (h : Keeps k m a0) :
    Keeps k m (State.resetHub a0) := by
  unfold State.resetHub
  try dsimp only
  repeat' first
    | with_reducible assumption | with_reducible exact Or.inl ‹_› | with_reducible exact Eq.refl _
    | with_reducible exact Or.inr rfl | with_reducible exact Or.inr ⟨rfl, rfl⟩
    | with_reducible exact Or.inr ⟨rfl, rfl, rfl⟩ | intro _ | with_reducible apply State.setPort_keeps
    | with_reducible apply State.addWrap_keeps | with_reducible apply keeps_ite | with_reducible apply keeps_foldl
    | with_reducible apply keeps_ite_fst | with_reducible apply keeps_foldl_fst | split
    | refine keeps_of_fst (by with_reducible assumption) ?_ | with_reducible apply keeps_upd

theorem State.resetRas_keeps {a0 : State} (h : Keeps k m a0) :
    Keeps k m (State.resetRas a0) := by
  unfold State.resetRas
  try dsimp only
  repeat' first
    | with_reducible assumption | with_reducible exact Or.inl ‹_› | with_reducible exact Eq.refl _
    | with_reducible exact Or.inr rfl | with_reducible exact Or.inr ⟨rfl, rfl⟩
    | with_reducible exact Or.inr ⟨rfl, rfl, rfl⟩ | with_reducible apply keeps_ite_fst | split
    | refine keeps_of_fst (by with_reducible assumption) ?_ | with_reducible apply keeps_upd

theorem State.endTest_keeps {a0 : State} {a1 a2 a3 : Nat} (hregs : k.regs = false) (h : Keeps k m a0) :
    Keeps k m (State.endTest a0 a1 a2 a3) := by
  unfold State.endTest
  try dsimp only
  repeat' first
    | with_reducible assumption | with_reducible exact Or.inl ‹_› | with_reducible exact Eq.refl _
    | with_reducible exact Or.inr rfl | with_reducible exact Or.inr ⟨rfl, rfl⟩
    | with_reducible exact Or.inr ⟨rfl, rfl, rfl⟩ | with_reducible apply State.raiseEvent_keeps
    | with_reducible apply State.setFld_keeps | with_reducible apply keeps_ite_fst | split
    | refine keeps_of_fst (by with_reducible assumption) ?_ | with_reducible apply keeps_upd

theorem State.abortTest_keeps {a0 : State} (hregs : k.regs = false) (h : Keeps k m a0) :
    Keeps k m (State.abortTest a0) := by
  unfold State.abortTest
  try dsimp only
  repeat' first
    | with_reducible assumption | with_reducible apply State.endTest_keeps | split

theorem State.bumpDark_keeps {a0 : State} (hregs : k.regs = false) (h : Keeps k m a0) :
    Keeps k m (State.bumpDark a0) := by
  unfold State.bumpDark
  try dsimp only
  repeat' first
    | with_reducible assumption | intro _ | with_reducible apply State.addWrap_keeps | with_reducible apply keeps_foldl

theorem State.packageReset_keeps {a0 : State} {a1 : Recovery} {a2 : HarvestLoss} (hregs : k.regs = false)
    (hclusters : k.clusters = false) (hslice : k.slice = false) (hpad : k.pad = false) (hfab : k.fab = false)
    (hcol : k.col = false) (hfirm : k.firm = false) (hctl : k.ctl = false) (hstaged : k.staged = false) (h : Keeps k m a0)
    :
    Keeps k m (State.packageReset a0 a1 a2) := by
  unfold State.packageReset
  try dsimp only
  repeat' first
    | with_reducible assumption | with_reducible exact Or.inl ‹_› | with_reducible exact Eq.refl _
    | with_reducible exact Or.inr rfl | with_reducible exact Or.inr ⟨rfl, rfl⟩
    | with_reducible exact Or.inr ⟨rfl, rfl, rfl⟩ | intro _ | with_reducible apply State.resetRas_keeps
    | with_reducible apply State.abortTest_keeps | with_reducible apply State.bumpDark_keeps
    | with_reducible apply State.resetHub_keeps | with_reducible apply State.resetCluster_keeps
    | with_reducible apply State.showHarvest_keeps | with_reducible apply State.resetRegs_keeps
    | with_reducible apply State.lanesTrain_keeps | with_reducible apply State.lanesOff_keeps
    | with_reducible apply State.lightOff_keeps | with_reducible apply State.startFabric_keeps
    | with_reducible apply State.restBanks_keeps | with_reducible apply State.powerUcode_keeps
    | with_reducible apply State.raiseEvent_keeps | with_reducible apply State.setDev_keeps
    | with_reducible apply State.setFld_keeps | with_reducible apply keeps_ite | with_reducible apply keeps_foldl
    | with_reducible apply keeps_ite_fst | with_reducible apply keeps_foldl_fst | split
    | refine keeps_of_fst (by with_reducible assumption) ?_ | with_reducible apply keeps_upd

theorem State.doHarvestWritten_keeps {a0 : State} {a1 : HarvestLoss} (hregs : k.regs = false)
    (hclusters : k.clusters = false) (hslice : k.slice = false) (hpad : k.pad = false) (hfab : k.fab = false)
    (hcol : k.col = false) (hfirm : k.firm = false) (hctl : k.ctl = false) (hstaged : k.staged = false) (h : Keeps k m a0)
    :
    Keeps k m (State.doHarvestWritten a0 a1) := by
  unfold State.doHarvestWritten
  try dsimp only
  repeat' first
    | with_reducible assumption | with_reducible apply State.packageReset_keeps | with_reducible apply keeps_ite
    | with_reducible apply keeps_ite_fst | split

theorem State.noteFailed_keeps {a0 : State} {a1 : Nat} (hregs : k.regs = false) (hrepair : k.repair = false)
    (h : Keeps k m a0) :
    Keeps k m (State.noteFailed a0 a1) := by
  unfold State.noteFailed
  try dsimp only
  repeat' first
    | with_reducible assumption | with_reducible exact Or.inl ‹_› | with_reducible exact Eq.refl _
    | with_reducible exact Or.inr rfl | with_reducible exact Or.inr ⟨rfl, rfl⟩
    | with_reducible exact Or.inr ⟨rfl, rfl, rfl⟩ | intro _ | with_reducible apply State.showRemap_keeps
    | with_reducible apply State.writeRepair_keeps | with_reducible apply keeps_ite | with_reducible apply keeps_ite_fst
    | split | refine keeps_of_fst (by with_reducible assumption) ?_ | with_reducible apply keeps_upd

theorem State.resumePower_keeps {a0 : State} (hboot : k.boot = false) (h : Keeps k m a0) :
    Keeps k m (State.resumePower a0) := by
  unfold State.resumePower
  try dsimp only
  repeat' first
    | with_reducible assumption | with_reducible exact Or.inl ‹_› | with_reducible exact Eq.refl _
    | with_reducible exact Or.inr rfl | with_reducible exact Or.inr ⟨rfl, rfl⟩
    | with_reducible exact Or.inr ⟨rfl, rfl, rfl⟩ | with_reducible apply State.orderPower_keeps
    | with_reducible apply keeps_ite_fst | split | refine keeps_of_fst (by with_reducible assumption) ?_
    | with_reducible apply keeps_upd

theorem State.returnState_keeps {a0 : State} {a1 : Nat} (hregs : k.regs = false) (hboot : k.boot = false)
    (h : Keeps k m a0) :
    Keeps k m (State.returnState a0 a1) := by
  unfold State.returnState
  try dsimp only
  repeat' first
    | with_reducible assumption | with_reducible exact Or.inl ‹_› | with_reducible exact Eq.refl _
    | with_reducible exact Or.inr rfl | with_reducible exact Or.inr ⟨rfl, rfl⟩
    | with_reducible exact Or.inr ⟨rfl, rfl, rfl⟩ | with_reducible apply State.resumePower_keeps
    | with_reducible apply State.showContexts_keeps | with_reducible apply State.setDev_keeps
    | with_reducible apply keeps_ite | with_reducible apply keeps_ite_fst | split
    | refine keeps_of_fst (by with_reducible assumption) ?_ | with_reducible apply keeps_upd

theorem State.doRecoveryDone_keeps {a0 : State} {a1 : List Nat} (hregs : k.regs = false)
    (hclusters : k.clusters = false) (hslice : k.slice = false) (hpad : k.pad = false) (hlines : k.lines = false)
    (hslots : k.slots = false) (htables : k.tables = false) (hkeys : k.keys = false) (hfab : k.fab = false)
    (hcol : k.col = false) (hconf : k.conf = false) (hrepair : k.repair = false) (hfirm : k.firm = false)
    (hboot : k.boot = false) (h : Keeps k m a0) :
    Keeps k m (State.doRecoveryDone a0 a1) := by
  unfold State.doRecoveryDone
  try dsimp only
  repeat' first
    | with_reducible assumption | with_reducible exact Or.inl ‹_› | with_reducible exact Eq.refl _
    | with_reducible exact Or.inr rfl | with_reducible exact Or.inr ⟨rfl, rfl⟩
    | with_reducible exact Or.inr ⟨rfl, rfl, rfl⟩ | intro _ | with_reducible apply State.returnState_keeps
    | with_reducible apply State.noteFailed_keeps | with_reducible apply State.restoreLosses_keeps
    | with_reducible apply State.pauseInstall_keeps | with_reducible apply State.enterFallow_keeps
    | with_reducible apply State.showEsc_keeps | with_reducible apply State.setFld_keeps | with_reducible apply keeps_ite
    | with_reducible apply keeps_foldl | with_reducible apply keeps_ite_fst | with_reducible apply keeps_foldl_fst | split
    | refine keeps_of_fst (by with_reducible assumption) ?_ | with_reducible apply keeps_upd

theorem State.doHubStall_keeps {a0 : State} {a1 : Bool} (hregs : k.regs = false) (hclusters : k.clusters = false)
    (hfab : k.fab = false) (hcol : k.col = false) (hconf : k.conf = false) (hfirm : k.firm = false)
    (hboot : k.boot = false) (h : Keeps k m a0) :
    Keeps k m (State.doHubStall a0 a1) := by
  unfold State.doHubStall
  try dsimp only
  repeat' first
    | with_reducible assumption | with_reducible apply State.startRecovery_keeps

theorem State.doThermalTrip_keeps {a0 : State} {a1 : Nat} {a2 : BitVec 16} (hregs : k.regs = false)
    (hclusters : k.clusters = false) (hslice : k.slice = false) (hpad : k.pad = false) (hlines : k.lines = false)
    (hslots : k.slots = false) (htables : k.tables = false) (hkeys : k.keys = false) (hfab : k.fab = false)
    (hcol : k.col = false) (hconf : k.conf = false) (hboot : k.boot = false) (h : Keeps k m a0) :
    Keeps k m (State.doThermalTrip a0 a1 a2) := by
  unfold State.doThermalTrip
  try dsimp only
  repeat' first
    | with_reducible assumption | with_reducible apply State.enterSafe_keeps | with_reducible apply State.raiseEvent_keeps
    | with_reducible apply keeps_ite

theorem State.doDeadMan_keeps {a0 : State} (hregs : k.regs = false) (hclusters : k.clusters = false)
    (hslice : k.slice = false) (hpad : k.pad = false) (hlines : k.lines = false) (hslots : k.slots = false)
    (htables : k.tables = false) (hkeys : k.keys = false) (hfab : k.fab = false) (hcol : k.col = false)
    (hconf : k.conf = false) (hboot : k.boot = false) (h : Keeps k m a0) :
    Keeps k m (State.doDeadMan a0) := by
  unfold State.doDeadMan
  try dsimp only
  repeat' first
    | with_reducible assumption | with_reducible apply State.enterSafe_keeps | with_reducible apply keeps_ite

theorem State.leaveSafe_keeps {a0 : State} {a1 : Safe} (hregs : k.regs = false) (hclusters : k.clusters = false)
    (hslice : k.slice = false) (hpad : k.pad = false) (hfab : k.fab = false) (hcol : k.col = false)
    (hfirm : k.firm = false) (hctl : k.ctl = false) (hstaged : k.staged = false) (h : Keeps k m a0) :
    Keeps k m (State.leaveSafe a0 a1) := by
  unfold State.leaveSafe
  try dsimp only
  repeat' first
    | with_reducible assumption | with_reducible exact Or.inl ‹_› | with_reducible exact Eq.refl _
    | with_reducible exact Or.inr rfl | with_reducible exact Or.inr ⟨rfl, rfl⟩
    | with_reducible exact Or.inr ⟨rfl, rfl, rfl⟩ | with_reducible apply State.packageReset_keeps
    | with_reducible apply State.addSat_keeps | with_reducible apply State.setFld_keeps
    | with_reducible apply keeps_ite_fst | split | refine keeps_of_fst (by with_reducible assumption) ?_
    | with_reducible apply keeps_upd

theorem State.tryLeaveTrip_keeps {a0 : State} (hregs : k.regs = false) (hclusters : k.clusters = false)
    (hslice : k.slice = false) (hpad : k.pad = false) (hfab : k.fab = false) (hcol : k.col = false)
    (hfirm : k.firm = false) (hctl : k.ctl = false) (hstaged : k.staged = false) (h : Keeps k m a0) :
    Keeps k m (State.tryLeaveTrip a0) := by
  unfold State.tryLeaveTrip
  try dsimp only
  repeat' first
    | with_reducible assumption | with_reducible apply State.leaveSafe_keeps | with_reducible apply keeps_ite
    | with_reducible apply keeps_ite_fst | split

theorem State.doTempSensorConvert_keeps {a0 : State} {a1 : Nat} {a2 : BitVec 16} (hregs : k.regs = false)
    (hclusters : k.clusters = false) (hslice : k.slice = false) (hpad : k.pad = false) (hfab : k.fab = false)
    (hcol : k.col = false) (hfirm : k.firm = false) (hctl : k.ctl = false) (hstaged : k.staged = false) (h : Keeps k m a0)
    :
    Keeps k m (State.doTempSensorConvert a0 a1 a2) := by
  unfold State.doTempSensorConvert
  try dsimp only
  repeat' first
    | with_reducible assumption | with_reducible apply State.tryLeaveTrip_keeps | with_reducible apply State.setFld_keeps
    | with_reducible apply keeps_ite

theorem State.doControllerRestartDone_keeps {a0 : State} {a1 a2 : Bool} (hregs : k.regs = false)
    (hclusters : k.clusters = false) (hslice : k.slice = false) (hpad : k.pad = false) (hfab : k.fab = false)
    (hcol : k.col = false) (hfirm : k.firm = false) (hctl : k.ctl = false) (hstaged : k.staged = false) (h : Keeps k m a0)
    :
    Keeps k m (State.doControllerRestartDone a0 a1 a2) := by
  unfold State.doControllerRestartDone
  try dsimp only
  repeat' first
    | with_reducible assumption | with_reducible exact Or.inl ‹_› | with_reducible exact Eq.refl _
    | with_reducible exact Or.inr rfl | with_reducible exact Or.inr ⟨rfl, rfl⟩
    | with_reducible exact Or.inr ⟨rfl, rfl, rfl⟩ | with_reducible apply State.tryLeaveTrip_keeps
    | with_reducible apply State.leaveSafe_keeps | with_reducible apply State.raiseEvent_keeps
    | with_reducible apply State.addSat_keeps | with_reducible apply State.setFld_keeps | with_reducible apply keeps_ite
    | with_reducible apply keeps_ite_fst | split | refine keeps_of_fst (by with_reducible assumption) ?_
    | with_reducible apply keeps_upd

theorem State.doSafeRestartTimeout_keeps {a0 : State} (hregs : k.regs = false) (h : Keeps k m a0) :
    Keeps k m (State.doSafeRestartTimeout a0) := by
  unfold State.doSafeRestartTimeout
  try dsimp only
  repeat' first
    | with_reducible assumption | with_reducible exact Or.inl ‹_› | with_reducible exact Eq.refl _
    | with_reducible exact Or.inr rfl | with_reducible exact Or.inr ⟨rfl, rfl⟩
    | with_reducible exact Or.inr ⟨rfl, rfl, rfl⟩ | with_reducible apply State.setFld_keeps
    | with_reducible apply keeps_ite | with_reducible apply keeps_ite_fst | split
    | refine keeps_of_fst (by with_reducible assumption) ?_ | with_reducible apply keeps_upd

theorem State.refuseCmd_keeps {a0 : State} (hregs : k.regs = false) (h : Keeps k m a0) :
    Keeps k m (State.refuseCmd a0) := by
  unfold State.refuseCmd
  try dsimp only
  repeat' first
    | with_reducible assumption | with_reducible apply State.setFld_keeps

theorem State.doDrainCommand_keeps {a0 : State} {a1 : Agent} (hregs : k.regs = false) (h : Keeps k m a0) :
    Keeps k m (State.doDrainCommand a0 a1) := by
  unfold State.doDrainCommand
  try dsimp only
  repeat' first
    | with_reducible assumption | intro _ | with_reducible apply State.refuseCmd_keeps
    | with_reducible apply State.gate_keeps | with_reducible apply State.setDev_keeps | with_reducible apply keeps_ite

theorem State.doResumeCommand_keeps {a0 : State} {a1 : Agent} (hregs : k.regs = false) (h : Keeps k m a0) :
    Keeps k m (State.doResumeCommand a0 a1) := by
  unfold State.doResumeCommand
  try dsimp only
  repeat' first
    | with_reducible assumption | intro _ | with_reducible apply State.refuseCmd_keeps
    | with_reducible apply State.gate_keeps | with_reducible apply State.setDev_keeps | with_reducible apply keeps_ite

theorem State.recoverSafe_keeps {a0 : State} {a1 : Safe} (hregs : k.regs = false) (hclusters : k.clusters = false)
    (hslice : k.slice = false) (hpad : k.pad = false) (hfab : k.fab = false) (hcol : k.col = false)
    (hfirm : k.firm = false) (hctl : k.ctl = false) (hstaged : k.staged = false) (h : Keeps k m a0) :
    Keeps k m (State.recoverSafe a0 a1) := by
  unfold State.recoverSafe
  try dsimp only
  repeat' first
    | with_reducible assumption | with_reducible exact Or.inl ‹_› | with_reducible exact Eq.refl _
    | with_reducible exact Or.inr rfl | with_reducible exact Or.inr ⟨rfl, rfl⟩
    | with_reducible exact Or.inr ⟨rfl, rfl, rfl⟩ | with_reducible apply State.tryLeaveTrip_keeps
    | with_reducible apply State.setFld_keeps | with_reducible apply keeps_ite | with_reducible apply keeps_ite_fst | split
    | refine keeps_of_fst (by with_reducible assumption) ?_ | with_reducible apply keeps_upd

theorem State.doRecover_keeps {a0 : State} {a1 : Agent} (hregs : k.regs = false) (hclusters : k.clusters = false)
    (hslice : k.slice = false) (hpad : k.pad = false) (hfab : k.fab = false) (hcol : k.col = false)
    (hconf : k.conf = false) (hfirm : k.firm = false) (hctl : k.ctl = false) (hboot : k.boot = false)
    (hstaged : k.staged = false) (h : Keeps k m a0) :
    Keeps k m (State.doRecover a0 a1) := by
  unfold State.doRecover
  try dsimp only
  repeat' first
    | with_reducible assumption | intro _ | with_reducible apply State.recoverSafe_keeps
    | with_reducible apply State.refuseCmd_keeps | with_reducible apply State.startRecovery_keeps
    | with_reducible apply State.gate_keeps | with_reducible apply State.setFld_keeps | with_reducible apply keeps_ite
    | with_reducible apply keeps_ite_fst | split

theorem State.putArb_keeps {a0 : State} {a1 : Arb} (h : Keeps k m a0) :
    Keeps k m (State.putArb a0 a1) := by
  unfold State.putArb
  try dsimp only
  repeat' first
    | with_reducible assumption | with_reducible exact Or.inl ‹_› | with_reducible exact Eq.refl _
    | with_reducible exact Or.inr rfl | with_reducible exact Or.inr ⟨rfl, rfl⟩
    | with_reducible exact Or.inr ⟨rfl, rfl, rfl⟩ | with_reducible apply keeps_ite_fst | split
    | refine keeps_of_fst (by with_reducible assumption) ?_ | with_reducible apply keeps_upd

theorem State.arbRound_keeps {a0 : State} {a1 : ArbId} {a2 : List Nat} (h : Keeps k m a0) :
    Keeps k m (State.arbRound a0 a1 a2).1 := by
  unfold State.arbRound
  try dsimp only
  repeat' first
    | with_reducible assumption | with_reducible apply State.putArb_keeps | with_reducible apply keeps_ite
    | with_reducible apply keeps_ite_fst | split

theorem State.bankRound_keeps {a0 : State} {a1 : Nat} {a2 : ArbId} {a3 : List Nat} (hregs : k.regs = false)
    (h : Keeps k m a0) :
    Keeps k m (State.bankRound a0 a1 a2 a3) := by
  unfold State.bankRound
  try dsimp only
  repeat' first
    | with_reducible assumption | intro _ | with_reducible apply State.arbRound_keeps
    | with_reducible apply State.addSat_keeps | with_reducible apply keeps_ite | with_reducible apply keeps_foldl
    | with_reducible apply keeps_ite_fst | with_reducible apply keeps_foldl_fst | split
    | refine keeps_of_fst (by with_reducible assumption) ?_

theorem State.planeRound_keeps {a0 : State} {a1 : Nat} {a2 : Bool} (hfab : k.fab = false) (h : Keeps k m a0) :
    Keeps k m (State.planeRound a0 a1 a2) := by
  unfold State.planeRound
  try dsimp only
  repeat' first
    | with_reducible assumption | with_reducible exact Or.inl ‹_› | with_reducible exact Eq.refl _
    | with_reducible exact Or.inr rfl | with_reducible exact Or.inr ⟨rfl, rfl⟩
    | with_reducible exact Or.inr ⟨rfl, rfl, rfl⟩ | with_reducible apply State.arbRound_keeps
    | with_reducible apply State.setPort_keeps | with_reducible apply keeps_ite | with_reducible apply keeps_ite_fst
    | split | refine keeps_of_fst (by with_reducible assumption) ?_ | with_reducible apply keeps_upd

theorem State.planeFlit_keeps {a0 : State} {a1 : Nat} {a2 : Bool} (hfab : k.fab = false) (h : Keeps k m a0) :
    Keeps k m (State.planeFlit a0 a1 a2) := by
  unfold State.planeFlit
  try dsimp only
  repeat' first
    | with_reducible assumption | with_reducible apply State.fillSlot_keeps | with_reducible apply State.oweCredit_keeps
    | with_reducible apply State.setPort_keeps | with_reducible apply State.emit_keeps | with_reducible apply keeps_ite
    | with_reducible apply keeps_ite_fst | split

theorem State.circFlit_keeps {a0 : State} {a1 a2 : Nat} (hfab : k.fab = false) (h : Keeps k m a0) :
    Keeps k m (State.circFlit a0 a1 a2) := by
  unfold State.circFlit
  try dsimp only
  repeat' first
    | with_reducible assumption | with_reducible exact Or.inl ‹_› | with_reducible exact Eq.refl _
    | with_reducible exact Or.inr rfl | with_reducible exact Or.inr ⟨rfl, rfl⟩
    | with_reducible exact Or.inr ⟨rfl, rfl, rfl⟩ | with_reducible apply State.fillSlot_keeps
    | with_reducible apply State.oweCredit_keeps | with_reducible apply State.setPort_keeps
    | with_reducible apply State.emit_keeps | with_reducible apply keeps_ite | with_reducible apply keeps_ite_fst | split
    | refine keeps_of_fst (by with_reducible assumption) ?_ | with_reducible apply keeps_upd

theorem State.dataSlot_keeps {a0 : State} {a1 : Nat} (hfab : k.fab = false) (h : Keeps k m a0) :
    Keeps k m (State.dataSlot a0 a1) := by
  unfold State.dataSlot
  try dsimp only
  repeat' first
    | with_reducible assumption | with_reducible apply State.circFlit_keeps | with_reducible apply State.planeFlit_keeps
    | with_reducible apply State.arbRound_keeps | with_reducible apply State.fillSlot_keeps
    | with_reducible apply keeps_ite | with_reducible apply keeps_ite_fst | split
    | refine keeps_of_fst (by with_reducible assumption) ?_

theorem State.slotRound_keeps {a0 : State} {a1 : Nat} (hfab : k.fab = false) (h : Keeps k m a0) :
    Keeps k m (State.slotRound a0 a1) := by
  unfold State.slotRound
  try dsimp only
  repeat' first
    | with_reducible assumption | with_reducible apply State.dataSlot_keeps | with_reducible apply State.pushCtrl_keeps
    | with_reducible apply State.fillSlot_keeps | with_reducible apply keeps_ite

theorem State.doArbitrationRound_keeps {a0 : State} {a1 : ArbId} {a2 : List Nat} (hregs : k.regs = false)
    (hfab : k.fab = false) (h : Keeps k m a0) :
    Keeps k m (State.doArbitrationRound a0 a1 a2) := by
  unfold State.doArbitrationRound
  try dsimp only
  repeat' first
    | with_reducible assumption | with_reducible apply State.slotRound_keeps | with_reducible apply State.planeRound_keeps
    | with_reducible apply State.bankRound_keeps | with_reducible apply State.arbRound_keeps
    | with_reducible apply keeps_ite | with_reducible apply keeps_ite_fst | split

theorem State.replayOn_keeps {a0 : State} {a1 a2 : Nat} (hregs : k.regs = false) (hclusters : k.clusters = false)
    (hfab : k.fab = false) (hcol : k.col = false) (h : Keeps k m a0) :
    Keeps k m (State.replayOn a0 a1 a2) := by
  unfold State.replayOn
  try dsimp only
  repeat' first
    | with_reducible assumption | with_reducible apply State.replayStep_keeps | with_reducible apply keeps_ite
    | with_reducible apply keeps_ite_fst | split

theorem State.resetOne_keeps {a0 : State} {a1 a2 : Nat} (hregs : k.regs = false) (hclusters : k.clusters = false)
    (hslice : k.slice = false) (hpad : k.pad = false) (hfab : k.fab = false) (hcol : k.col = false) (h : Keeps k m a0) :
    Keeps k m (State.resetOne a0 a1 a2) := by
  unfold State.resetOne
  try dsimp only
  repeat' first
    | with_reducible assumption | intro _ | with_reducible apply State.replayOn_keeps
    | with_reducible apply State.bumpCgen_keeps | with_reducible apply State.padUndefined_keeps
    | with_reducible apply State.discard_keeps | with_reducible apply State.clearSeqRegs_keeps
    | with_reducible apply State.restBanks_keeps | with_reducible apply State.setSeq_keeps
    | with_reducible apply State.setClu_keeps | with_reducible apply State.resetArbs_keeps
    | with_reducible apply State.setReg_keeps

theorem State.scrubPads_keeps {a0 : State} {a1 : Nat} (hclusters : k.clusters = false) (h : Keeps k m a0) :
    Keeps k m (State.scrubPads a0 a1) := by
  unfold State.scrubPads
  try dsimp only
  repeat' first
    | with_reducible assumption | with_reducible apply State.setClu_keeps

theorem State.noteLevel_keeps {a0 : State} {a1 : Nat} (hregs : k.regs = false) (h : Keeps k m a0) :
    Keeps k m (State.noteLevel a0 a1) := by
  unfold State.noteLevel
  try dsimp only
  repeat' first
    | with_reducible assumption | with_reducible apply State.setFld_keeps

theorem State.computeReset_keeps {a0 : State} {a1 : Nat} (hregs : k.regs = false) (hclusters : k.clusters = false)
    (hslice : k.slice = false) (hpad : k.pad = false) (hfab : k.fab = false) (hcol : k.col = false)
    (hconf : k.conf = false) (hfirm : k.firm = false) (hboot : k.boot = false) (h : Keeps k m a0) :
    Keeps k m (State.computeReset a0 a1) := by
  unfold State.computeReset
  try dsimp only
  repeat' first
    | with_reducible assumption | with_reducible exact Or.inl ‹_› | with_reducible exact Eq.refl _
    | with_reducible exact Or.inr rfl | with_reducible exact Or.inr ⟨rfl, rfl⟩
    | with_reducible exact Or.inr ⟨rfl, rfl, rfl⟩ | intro _ | with_reducible apply State.noteLevel_keeps
    | with_reducible apply State.scrubPads_keeps | with_reducible apply State.resetOne_keeps
    | with_reducible apply State.startRecovery_keeps | with_reducible apply State.showEsc_keeps
    | with_reducible apply State.raiseEvent_keeps | with_reducible apply keeps_ite | with_reducible apply keeps_foldl
    | with_reducible apply keeps_ite_fst | with_reducible apply keeps_foldl_fst | split
    | refine keeps_of_fst (by with_reducible assumption) ?_ | with_reducible apply keeps_upd

theorem State.quadrantReset_keeps {a0 : State} {a1 a2 : Nat} (hregs : k.regs = false) (hclusters : k.clusters = false)
    (hslice : k.slice = false) (hpad : k.pad = false) (hfab : k.fab = false) (hcol : k.col = false)
    (hconf : k.conf = false) (hfirm : k.firm = false) (hboot : k.boot = false) (h : Keeps k m a0) :
    Keeps k m (State.quadrantReset a0 a1 a2) := by
  unfold State.quadrantReset
  try dsimp only
  repeat' first
    | with_reducible assumption | with_reducible exact Or.inl ‹_› | with_reducible exact Eq.refl _
    | with_reducible exact Or.inr rfl | with_reducible exact Or.inr ⟨rfl, rfl⟩
    | with_reducible exact Or.inr ⟨rfl, rfl, rfl⟩ | intro _ | with_reducible apply State.computeReset_keeps
    | with_reducible apply State.noteLevel_keeps | with_reducible apply State.scrubPads_keeps
    | with_reducible apply State.resetOne_keeps | with_reducible apply State.showEsc_keeps
    | with_reducible apply State.raiseEvent_keeps | with_reducible apply keeps_ite | with_reducible apply keeps_foldl
    | with_reducible apply keeps_ite_fst | with_reducible apply keeps_foldl_fst | split
    | refine keeps_of_fst (by with_reducible assumption) ?_ | with_reducible apply keeps_upd

theorem State.clusterReset_keeps {a0 : State} {a1 a2 : Nat} (hregs : k.regs = false) (hclusters : k.clusters = false)
    (hslice : k.slice = false) (hpad : k.pad = false) (hfab : k.fab = false) (hcol : k.col = false)
    (hconf : k.conf = false) (hfirm : k.firm = false) (hboot : k.boot = false) (h : Keeps k m a0) :
    Keeps k m (State.clusterReset a0 a1 a2) := by
  unfold State.clusterReset
  try dsimp only
  repeat' first
    | with_reducible assumption | with_reducible exact Or.inl ‹_› | with_reducible exact Eq.refl _
    | with_reducible exact Or.inr rfl | with_reducible exact Or.inr ⟨rfl, rfl⟩
    | with_reducible exact Or.inr ⟨rfl, rfl, rfl⟩ | with_reducible apply State.quadrantReset_keeps
    | with_reducible apply State.noteLevel_keeps | with_reducible apply State.resetOne_keeps
    | with_reducible apply State.raiseEvent_keeps | with_reducible apply State.addSat_keeps
    | with_reducible apply keeps_ite | with_reducible apply keeps_ite_fst | split
    | refine keeps_of_fst (by with_reducible assumption) ?_ | with_reducible apply keeps_upd

theorem State.stallFault_keeps {a0 : State} {a1 : Nat} (hregs : k.regs = false) (hclusters : k.clusters = false)
    (hfab : k.fab = false) (hcol : k.col = false) (h : Keeps k m a0) :
    Keeps k m (State.stallFault a0 a1) := by
  unfold State.stallFault
  try dsimp only
  repeat' first
    | with_reducible assumption | with_reducible apply State.stepFault_keeps | with_reducible apply State.lateFault_keeps
    | with_reducible apply keeps_ite

theorem State.doStageStall_keeps {a0 : State} {a1 : Nat} {a2 : Engine} (hregs : k.regs = false)
    (hclusters : k.clusters = false) (hslice : k.slice = false) (hpad : k.pad = false) (hfab : k.fab = false)
    (hcol : k.col = false) (hconf : k.conf = false) (hfirm : k.firm = false) (hboot : k.boot = false) (h : Keeps k m a0) :
    Keeps k m (State.doStageStall a0 a1 a2) := by
  unfold State.doStageStall
  try dsimp only
  repeat' first
    | with_reducible assumption | with_reducible apply State.stallFault_keeps
    | with_reducible apply State.clusterReset_keeps | with_reducible apply State.strike_keeps
    | with_reducible apply State.raiseEvent_keeps | with_reducible apply keeps_ite

theorem State.doSpineStall_keeps {a0 : State} {a1 : Nat} (hregs : k.regs = false) (hclusters : k.clusters = false)
    (hslice : k.slice = false) (hpad : k.pad = false) (hfab : k.fab = false) (hcol : k.col = false)
    (hconf : k.conf = false) (hfirm : k.firm = false) (hboot : k.boot = false) (h : Keeps k m a0) :
    Keeps k m (State.doSpineStall a0 a1) := by
  unfold State.doSpineStall
  try dsimp only
  repeat' first
    | with_reducible assumption | with_reducible apply State.computeReset_keeps | with_reducible apply keeps_ite

theorem State.doStepBudget_keeps {a0 : State} {a1 : Nat} (hregs : k.regs = false) (hclusters : k.clusters = false)
    (hslice : k.slice = false) (hpad : k.pad = false) (hfab : k.fab = false) (hcol : k.col = false)
    (hconf : k.conf = false) (hfirm : k.firm = false) (hboot : k.boot = false) (h : Keeps k m a0) :
    Keeps k m (State.doStepBudget a0 a1) := by
  unfold State.doStepBudget
  try dsimp only
  repeat' first
    | with_reducible assumption | intro _ | with_reducible apply State.clusterReset_keeps
    | with_reducible apply State.replayStep_keeps | with_reducible apply State.raiseEvent_keeps
    | with_reducible apply keeps_ite | with_reducible apply keeps_foldl | with_reducible apply keeps_ite_fst
    | with_reducible apply keeps_foldl_fst | split

theorem State.endReset_keeps {a0 : State} {a1 : Nat} (hregs : k.regs = false) (hclusters : k.clusters = false)
    (h : Keeps k m a0) :
    Keeps k m (State.endReset a0 a1) := by
  unfold State.endReset
  try dsimp only
  repeat' first
    | with_reducible assumption | with_reducible apply State.setSeq_keeps | with_reducible apply State.setClu_keeps

theorem State.endResets_keeps {a0 : State} {a1 a2 : List Nat} (hregs : k.regs = false) (hclusters : k.clusters = false)
    (hrepair : k.repair = false) (h : Keeps k m a0) :
    Keeps k m (State.endResets a0 a1 a2) := by
  unfold State.endResets
  try dsimp only
  repeat' first
    | with_reducible assumption | intro _ | with_reducible apply State.endReset_keeps
    | with_reducible apply State.noteFailed_keeps | with_reducible apply State.setClu_keeps
    | with_reducible apply keeps_ite | with_reducible apply keeps_foldl

theorem State.doClusterResetDone_keeps {a0 : State} {a1 : Nat} {a2 : Bool} (hregs : k.regs = false)
    (hclusters : k.clusters = false) (hrepair : k.repair = false) (h : Keeps k m a0) :
    Keeps k m (State.doClusterResetDone a0 a1 a2) := by
  unfold State.doClusterResetDone
  try dsimp only
  repeat' first
    | with_reducible assumption | with_reducible apply State.endResets_keeps | with_reducible apply keeps_ite

theorem State.doQuadrantResetDone_keeps {a0 : State} {a1 : Nat} {a2 : List Nat} (hregs : k.regs = false)
    (hclusters : k.clusters = false) (hrepair : k.repair = false) (hfirm : k.firm = false) (h : Keeps k m a0) :
    Keeps k m (State.doQuadrantResetDone a0 a1 a2) := by
  unfold State.doQuadrantResetDone
  try dsimp only
  repeat' first
    | with_reducible assumption | with_reducible exact Or.inl ‹_› | with_reducible exact Eq.refl _
    | with_reducible exact Or.inr rfl | with_reducible exact Or.inr ⟨rfl, rfl⟩
    | with_reducible exact Or.inr ⟨rfl, rfl, rfl⟩ | with_reducible apply State.endResets_keeps
    | with_reducible apply State.powerUcode_keeps | with_reducible apply keeps_ite | with_reducible apply keeps_ite_fst
    | split | refine keeps_of_fst (by with_reducible assumption) ?_ | with_reducible apply keeps_upd

theorem State.doComputeResetDone_keeps {a0 : State} {a1 : List Nat} (hregs : k.regs = false)
    (hclusters : k.clusters = false) (hrepair : k.repair = false) (hfirm : k.firm = false) (h : Keeps k m a0) :
    Keeps k m (State.doComputeResetDone a0 a1) := by
  unfold State.doComputeResetDone
  try dsimp only
  repeat' first
    | with_reducible assumption | with_reducible exact Or.inl ‹_› | with_reducible exact Eq.refl _
    | with_reducible exact Or.inr rfl | with_reducible exact Or.inr ⟨rfl, rfl⟩
    | with_reducible exact Or.inr ⟨rfl, rfl, rfl⟩ | with_reducible apply State.endResets_keeps
    | with_reducible apply State.powerUcode_keeps | with_reducible apply keeps_ite | with_reducible apply keeps_ite_fst
    | split | refine keeps_of_fst (by with_reducible assumption) ?_ | with_reducible apply keeps_upd

theorem State.doResetTimeout_keeps {a0 : State} {a1 : ResetLevel} {a2 : Nat} (hregs : k.regs = false)
    (hclusters : k.clusters = false) (hslice : k.slice = false) (hpad : k.pad = false) (hfab : k.fab = false)
    (hcol : k.col = false) (hconf : k.conf = false) (hfirm : k.firm = false) (hboot : k.boot = false) (h : Keeps k m a0) :
    Keeps k m (State.doResetTimeout a0 a1 a2) := by
  unfold State.doResetTimeout
  try dsimp only
  repeat' first
    | with_reducible assumption | with_reducible exact Or.inl ‹_› | with_reducible exact Eq.refl _
    | with_reducible exact Or.inr rfl | with_reducible exact Or.inr ⟨rfl, rfl⟩
    | with_reducible exact Or.inr ⟨rfl, rfl, rfl⟩ | with_reducible apply State.quadrantReset_keeps
    | with_reducible apply State.computeReset_keeps | with_reducible apply State.startRecovery_keeps
    | with_reducible apply keeps_ite | with_reducible apply keeps_ite_fst | split
    | refine keeps_of_fst (by with_reducible assumption) ?_ | with_reducible apply keeps_upd

theorem State.stopCluster_keeps {a0 : State} {a1 : Nat} (hregs : k.regs = false) (hclusters : k.clusters = false)
    (hfab : k.fab = false) (hcol : k.col = false) (h : Keeps k m a0) :
    Keeps k m (State.stopCluster a0 a1) := by
  unfold State.stopCluster
  try dsimp only
  repeat' first
    | with_reducible assumption | with_reducible apply State.replayOn_keeps | with_reducible apply State.bumpCgen_keeps
    | with_reducible apply State.discard_keeps | with_reducible apply State.setSeq_keeps
    | with_reducible apply State.setClu_keeps

theorem State.endSpareCtl_keeps {a0 : State} {a1 : Nat} (hregs : k.regs = false) (h : Keeps k m a0) :
    Keeps k m (State.endSpareCtl a0 a1) := by
  unfold State.endSpareCtl
  try dsimp only
  repeat' first
    | with_reducible assumption | with_reducible exact Or.inl ‹_› | with_reducible exact Eq.refl _
    | with_reducible exact Or.inr rfl | with_reducible exact Or.inr ⟨rfl, rfl⟩
    | with_reducible exact Or.inr ⟨rfl, rfl, rfl⟩ | with_reducible apply State.setFld_keeps
    | with_reducible apply keeps_ite | with_reducible apply keeps_upd

theorem State.loseLogical_keeps {a0 : State} {a1 : Nat} (hregs : k.regs = false) (hrepair : k.repair = false)
    (h : Keeps k m a0) :
    Keeps k m (State.loseLogical a0 a1) := by
  unfold State.loseLogical
  try dsimp only
  repeat' first
    | with_reducible assumption | intro _ | with_reducible apply State.endSpareCtl_keeps
    | with_reducible apply State.showRemap_keeps | with_reducible apply State.writeRepair_keeps
    | with_reducible apply State.raiseEvent_keeps

theorem State.trySpare_keeps {a0 : State} {a1 a2 : Nat} (hregs : k.regs = false) (hclusters : k.clusters = false)
    (hrepair : k.repair = false) (h : Keeps k m a0) :
    Keeps k m (State.trySpare a0 a1 a2) := by
  unfold State.trySpare
  try dsimp only
  repeat' first
    | with_reducible assumption | with_reducible exact Or.inl ‹_› | with_reducible exact Eq.refl _
    | with_reducible exact Or.inr rfl | with_reducible exact Or.inr ⟨rfl, rfl⟩
    | with_reducible exact Or.inr ⟨rfl, rfl, rfl⟩ | intro _ | with_reducible apply State.loseLogical_keeps
    | with_reducible apply State.wakeBank_keeps | with_reducible apply keeps_foldl | split
    | with_reducible apply keeps_upd

theorem State.doSpareBringIn_keeps {a0 : State} {a1 : Nat} (hregs : k.regs = false) (hclusters : k.clusters = false)
    (hfab : k.fab = false) (hcol : k.col = false) (hrepair : k.repair = false) (h : Keeps k m a0) :
    Keeps k m (State.doSpareBringIn a0 a1) := by
  unfold State.doSpareBringIn
  try dsimp only
  repeat' first
    | with_reducible assumption | with_reducible exact Or.inl ‹_› | with_reducible exact Eq.refl _
    | with_reducible exact Or.inr rfl | with_reducible exact Or.inr ⟨rfl, rfl⟩
    | with_reducible exact Or.inr ⟨rfl, rfl, rfl⟩ | with_reducible apply State.trySpare_keeps
    | with_reducible apply State.stopCluster_keeps | with_reducible apply keeps_ite | with_reducible apply keeps_ite_fst
    | split | refine keeps_of_fst (by with_reducible assumption) ?_ | with_reducible apply keeps_upd

theorem State.retireCluster_keeps {a0 : State} {a1 : Nat} (hregs : k.regs = false) (hclusters : k.clusters = false)
    (hslice : k.slice = false) (hpad : k.pad = false) (hrepair : k.repair = false) (h : Keeps k m a0) :
    Keeps k m (State.retireCluster a0 a1) := by
  unfold State.retireCluster
  try dsimp only
  repeat' first
    | with_reducible assumption | intro _ | with_reducible apply State.showRemap_keeps
    | with_reducible apply State.loseBank_keeps | with_reducible apply State.writeRepair_keeps
    | with_reducible apply State.setClu_keeps | with_reducible apply State.setReg_keeps | with_reducible apply keeps_ite
    | with_reducible apply keeps_foldl

theorem State.copyImages_keeps {a0 : State} {a1 : Nat} (hregs : k.regs = false) (hclusters : k.clusters = false)
    (hslice : k.slice = false) (hpad : k.pad = false) (hlines : k.lines = false) (h : Keeps k m a0) :
    Keeps k m (State.copyImages a0 a1).1 := by
  unfold State.copyImages
  try dsimp only
  repeat' first
    | with_reducible assumption | intro _ | with_reducible apply State.copyImageTo_keeps
    | with_reducible apply State.setImageState_keeps | with_reducible apply State.logImage_keeps
    | with_reducible apply keeps_ite | with_reducible apply keeps_foldl | with_reducible apply keeps_ite_fst
    | with_reducible apply keeps_foldl_fst | split | refine keeps_of_fst (by with_reducible assumption) ?_

theorem State.enterSpare_keeps {a0 : State} {a1 : SpareIn} (hregs : k.regs = false) (hclusters : k.clusters = false)
    (hslice : k.slice = false) (hpad : k.pad = false) (hlines : k.lines = false) (hrepair : k.repair = false)
    (h : Keeps k m a0) :
    Keeps k m (State.enterSpare a0 a1) := by
  unfold State.enterSpare
  try dsimp only
  repeat' first
    | with_reducible assumption | with_reducible exact Or.inl ‹_› | with_reducible exact Eq.refl _
    | with_reducible exact Or.inr rfl | with_reducible exact Or.inr ⟨rfl, rfl⟩
    | with_reducible exact Or.inr ⟨rfl, rfl, rfl⟩ | intro _ | with_reducible apply State.copyImages_keeps
    | with_reducible apply State.retireCluster_keeps | with_reducible apply State.endSpareCtl_keeps
    | with_reducible apply State.padUndefined_keeps | with_reducible apply State.putRemap_keeps
    | with_reducible apply State.clearSeqRegs_keeps | with_reducible apply State.restBanks_keeps
    | with_reducible apply State.setSeq_keeps | with_reducible apply State.setClu_keeps
    | with_reducible apply State.raiseEvent_keeps | with_reducible apply State.resetArbs_keeps
    | with_reducible apply keeps_ite | with_reducible apply keeps_ite_fst | split
    | refine keeps_of_fst (by with_reducible assumption) ?_ | with_reducible apply keeps_upd

theorem State.doSpareIn_keeps {a0 : State} {a1 : Nat} {a2 : Bool} (hregs : k.regs = false)
    (hclusters : k.clusters = false) (hslice : k.slice = false) (hpad : k.pad = false) (hlines : k.lines = false)
    (hrepair : k.repair = false) (h : Keeps k m a0) :
    Keeps k m (State.doSpareIn a0 a1 a2) := by
  unfold State.doSpareIn
  try dsimp only
  repeat' first
    | with_reducible assumption | with_reducible exact Or.inl ‹_› | with_reducible exact Eq.refl _
    | with_reducible exact Or.inr rfl | with_reducible exact Or.inr ⟨rfl, rfl⟩
    | with_reducible exact Or.inr ⟨rfl, rfl, rfl⟩ | with_reducible apply State.enterSpare_keeps
    | with_reducible apply State.retireCluster_keeps | with_reducible apply State.trySpare_keeps
    | with_reducible apply keeps_ite | with_reducible apply keeps_ite_fst | split
    | refine keeps_of_fst (by with_reducible assumption) ?_ | with_reducible apply keeps_upd

theorem State.doRasSpareCtlGo_keeps {a0 : State} {a1 : Agent} {a2 : Nat} (hregs : k.regs = false) (h : Keeps k m a0) :
    Keeps k m (State.doRasSpareCtlGo a0 a1 a2) := by
  unfold State.doRasSpareCtlGo
  try dsimp only
  repeat' first
    | with_reducible assumption | with_reducible exact Or.inl ‹_› | with_reducible exact Eq.refl _
    | with_reducible exact Or.inr rfl | with_reducible exact Or.inr ⟨rfl, rfl⟩
    | with_reducible exact Or.inr ⟨rfl, rfl, rfl⟩ | intro _ | with_reducible apply State.gate_keeps
    | with_reducible apply State.setFld_keeps | with_reducible apply keeps_ite | with_reducible apply keeps_ite_fst | split
    | refine keeps_of_fst (by with_reducible assumption) ?_ | with_reducible apply keeps_upd

theorem State.startTest_keeps {a0 : State} {a1 : Agent} {a2 a3 : Nat} {a4 : State → Bool} {a5 : State → State}
    (hregs : k.regs = false) (h : Keeps k m a0) (f0 : ∀ s, Keeps k m s → Keeps k m (a5 s)) :
    Keeps k m (State.startTest a0 a1 a2 a3 a4 a5) := by
  unfold State.startTest
  try dsimp only
  repeat' first
    | with_reducible assumption | with_reducible exact Or.inl ‹_› | with_reducible exact Eq.refl _
    | with_reducible exact Or.inr rfl | with_reducible exact Or.inr ⟨rfl, rfl⟩
    | with_reducible exact Or.inr ⟨rfl, rfl, rfl⟩ | intro _ | with_reducible apply f0
    | with_reducible apply State.endTest_keeps | with_reducible apply State.gate_keeps
    | with_reducible apply State.setFld_keeps | with_reducible apply keeps_ite | with_reducible apply keeps_ite_fst | split
    | refine keeps_of_fst (by with_reducible assumption) ?_ | with_reducible apply keeps_upd

theorem State.doSelftestCluster_keeps {a0 : State} {a1 : Agent} {a2 : Nat} (hregs : k.regs = false) (h : Keeps k m a0)
    :
    Keeps k m (State.doSelftestCluster a0 a1 a2) := by
  unfold State.doSelftestCluster
  try dsimp only
  repeat' first
    | with_reducible assumption | intro _ | with_reducible apply State.startTest_keeps

theorem State.doSelftestLane_keeps {a0 : State} {a1 : Agent} {a2 : Nat} (hregs : k.regs = false) (h : Keeps k m a0) :
    Keeps k m (State.doSelftestLane a0 a1 a2) := by
  unfold State.doSelftestLane
  try dsimp only
  repeat' first
    | with_reducible assumption | intro _ | with_reducible apply State.startTest_keeps
    | with_reducible apply State.setFld_keeps

theorem State.doSelftestPort_keeps {a0 : State} {a1 : Agent} {a2 : Nat} (hregs : k.regs = false) (h : Keeps k m a0) :
    Keeps k m (State.doSelftestPort a0 a1 a2) := by
  unfold State.doSelftestPort
  try dsimp only
  repeat' first
    | with_reducible assumption | intro _ | with_reducible apply State.startTest_keeps
    | with_reducible apply State.setFld_keeps

theorem State.doSelftestController_keeps {a0 : State} {a1 : Agent} (hregs : k.regs = false) (h : Keeps k m a0) :
    Keeps k m (State.doSelftestController a0 a1) := by
  unfold State.doSelftestController
  try dsimp only
  repeat' first
    | with_reducible assumption | intro _ | with_reducible apply State.startTest_keeps
    | with_reducible apply State.setFld_keeps

theorem State.endLaneTest_keeps {a0 : State} {a1 : Nat} {a2 : Bool} (hregs : k.regs = false)
    (hclusters : k.clusters = false) (hlines : k.lines = false) (hfab : k.fab = false) (hcol : k.col = false)
    (h : Keeps k m a0) :
    Keeps k m (State.endLaneTest a0 a1 a2) := by
  unfold State.endLaneTest
  try dsimp only
  repeat' first
    | with_reducible assumption | with_reducible apply State.endHold_keeps | with_reducible apply State.retrainLane_keeps
    | with_reducible apply keeps_ite

theorem State.doSelftestDone_keeps {a0 : State} {a1 : Bool} (hregs : k.regs = false) (hclusters : k.clusters = false)
    (hpad : k.pad = false) (hlines : k.lines = false) (hfab : k.fab = false) (hcol : k.col = false)
    (hrepair : k.repair = false) (h : Keeps k m a0) :
    Keeps k m (State.doSelftestDone a0 a1) := by
  unfold State.doSelftestDone
  try dsimp only
  repeat' first
    | with_reducible assumption | with_reducible apply State.endLaneTest_keeps | with_reducible apply State.endTest_keeps
    | with_reducible apply State.noteFailed_keeps | with_reducible apply State.padUndefined_keeps
    | with_reducible apply State.beginRetrain_keeps | with_reducible apply State.raiseEvent_keeps
    | with_reducible apply State.addSat_keeps | with_reducible apply State.setFld_keeps | with_reducible apply keeps_ite
    | with_reducible apply keeps_ite_fst | split

theorem State.scrubGranule_keeps {a0 : State} {a1 : Nat} {a2 : Bool} {a3 : Nat} (hregs : k.regs = false)
    (hclusters : k.clusters = false) (hslice : k.slice = false) (hpad : k.pad = false) (hfab : k.fab = false)
    (hcol : k.col = false) (h : Keeps k m a0) :
    Keeps k m (State.scrubGranule a0 a1 a2 a3) := by
  unfold State.scrubGranule
  try dsimp only
  repeat' first
    | with_reducible assumption | with_reducible apply State.scrubPort_keeps
    | with_reducible apply State.countCorrected_keeps | with_reducible apply State.uncorrectable_keeps
    | with_reducible apply State.stepFault_keeps | with_reducible apply State.setFlaws_keeps
    | with_reducible apply keeps_ite

theorem State.doScrubRead_keeps {a0 : State} {a1 : Nat} {a2 : Bool} {a3 : Nat} (hregs : k.regs = false)
    (hclusters : k.clusters = false) (hslice : k.slice = false) (hpad : k.pad = false) (hfab : k.fab = false)
    (hcol : k.col = false) (h : Keeps k m a0) :
    Keeps k m (State.doScrubRead a0 a1 a2 a3) := by
  unfold State.doScrubRead
  try dsimp only
  repeat' first
    | with_reducible assumption | with_reducible apply State.scrubGranule_keeps | with_reducible apply State.setClu_keeps
    | with_reducible apply keeps_ite

theorem State.doResidentRewrite_keeps {a0 : State} {a1 a2 : Nat} (hregs : k.regs = false)
    (hclusters : k.clusters = false) (hslice : k.slice = false) (hpad : k.pad = false) (hlines : k.lines = false)
    (h : Keeps k m a0) :
    Keeps k m (State.doResidentRewrite a0 a1 a2) := by
  unfold State.doResidentRewrite
  try dsimp only
  repeat' first
    | with_reducible assumption | with_reducible exact Or.inl ‹_› | with_reducible exact Eq.refl _
    | with_reducible exact Or.inr rfl | with_reducible exact Or.inr ⟨rfl, rfl⟩
    | with_reducible exact Or.inr ⟨rfl, rfl, rfl⟩ | with_reducible apply copyLine_keeps
    | with_reducible apply State.setCfld_keeps | with_reducible apply State.raiseEvent_keeps
    | with_reducible apply keeps_ite | with_reducible apply keeps_ite_fst | split
    | refine keeps_of_fst (by with_reducible assumption) ?_ | with_reducible apply keeps_upd

theorem State.escalateHub_keeps {a0 : State} (hregs : k.regs = false) (hclusters : k.clusters = false)
    (hfab : k.fab = false) (hcol : k.col = false) (hconf : k.conf = false) (hfirm : k.firm = false)
    (hboot : k.boot = false) (h : Keeps k m a0) :
    Keeps k m (State.escalateHub a0) := by
  unfold State.escalateHub
  try dsimp only
  repeat' first
    | with_reducible assumption | with_reducible exact Or.inl ‹_› | with_reducible exact Eq.refl _
    | with_reducible exact Or.inr rfl | with_reducible exact Or.inr ⟨rfl, rfl⟩
    | with_reducible exact Or.inr ⟨rfl, rfl, rfl⟩ | with_reducible apply State.startRecovery_keeps
    | with_reducible apply keeps_ite | with_reducible apply keeps_ite_fst | split
    | refine keeps_of_fst (by with_reducible assumption) ?_ | with_reducible apply keeps_upd

theorem State.setCtlState_keeps {a0 : State} {a1 a2 : Nat} (hregs : k.regs = false) (h : Keeps k m a0) :
    Keeps k m (State.setCtlState a0 a1 a2) := by
  unfold State.setCtlState
  try dsimp only
  repeat' first
    | with_reducible assumption | with_reducible apply State.setFld_keeps

theorem State.noteReport_keeps {a0 : State} {a1 : Nat} (hctl : k.ctl = false) (h : Keeps k m a0) :
    Keeps k m (State.noteReport a0 a1) := by
  unfold State.noteReport
  try dsimp only
  repeat' first
    | with_reducible assumption | with_reducible exact Or.inl ‹_› | with_reducible exact Eq.refl _
    | with_reducible exact Or.inr rfl | with_reducible exact Or.inr ⟨rfl, rfl⟩
    | with_reducible exact Or.inr ⟨rfl, rfl, rfl⟩ | with_reducible apply keeps_ite_fst | split
    | refine keeps_of_fst (by with_reducible assumption) ?_ | with_reducible apply keeps_upd

theorem State.doControllerHeartbeat_keeps {a0 : State} {a1 : Bool} {a2 : BitVec 16} (hregs : k.regs = false)
    (hctl : k.ctl = false) (h : Keeps k m a0) :
    Keeps k m (State.doControllerHeartbeat a0 a1 a2) := by
  unfold State.doControllerHeartbeat
  try dsimp only
  repeat' first
    | with_reducible assumption | with_reducible exact Or.inl ‹_› | with_reducible exact Eq.refl _
    | with_reducible exact Or.inr rfl | with_reducible exact Or.inr ⟨rfl, rfl⟩
    | with_reducible exact Or.inr ⟨rfl, rfl, rfl⟩ | with_reducible apply State.noteReport_keeps
    | with_reducible apply State.setCtlState_keeps | with_reducible apply keeps_ite | with_reducible apply keeps_ite_fst
    | split | refine keeps_of_fst (by with_reducible assumption) ?_ | with_reducible apply keeps_upd

theorem State.failBit_keeps {a0 : State} {a1 a2 : Nat} (hregs : k.regs = false) (h : Keeps k m a0) :
    Keeps k m (State.failBit a0 a1 a2) := by
  unfold State.failBit
  try dsimp only
  repeat' first
    | with_reducible assumption | with_reducible apply State.setFld_keeps | with_reducible apply keeps_ite

theorem State.standbyFails_keeps {a0 : State} {a1 : Nat} (hregs : k.regs = false) (hctl : k.ctl = false)
    (h : Keeps k m a0) :
    Keeps k m (State.standbyFails a0 a1) := by
  unfold State.standbyFails
  try dsimp only
  repeat' first
    | with_reducible assumption | with_reducible exact Or.inl ‹_› | with_reducible exact Eq.refl _
    | with_reducible exact Or.inr rfl | with_reducible exact Or.inr ⟨rfl, rfl⟩
    | with_reducible exact Or.inr ⟨rfl, rfl, rfl⟩ | with_reducible apply State.failBit_keeps
    | with_reducible apply State.setCtlState_keeps | with_reducible apply State.raiseEvent_keeps
    | with_reducible apply State.addSat_keeps | with_reducible apply keeps_ite | with_reducible apply keeps_ite_fst | split
    | refine keeps_of_fst (by with_reducible assumption) ?_ | with_reducible apply keeps_upd

theorem State.doHealthReport_keeps {a0 : State} {a1 a2 a3 a4 : Bool} (hregs : k.regs = false) (hcold : k.cold = false)
    (hctl : k.ctl = false) (h : Keeps k m a0) :
    Keeps k m (State.doHealthReport a0 a1 a2 a3 a4) := by
  unfold State.doHealthReport
  try dsimp only
  repeat' first
    | with_reducible assumption | with_reducible exact Or.inl ‹_› | with_reducible exact Eq.refl _
    | with_reducible exact Or.inr rfl | with_reducible exact Or.inr ⟨rfl, rfl⟩
    | with_reducible exact Or.inr ⟨rfl, rfl, rfl⟩ | intro _ | with_reducible apply State.standbyFails_keeps
    | with_reducible apply State.noteReport_keeps | with_reducible apply State.setCtlState_keeps
    | with_reducible apply State.frameWrite_keeps | with_reducible apply State.setFld_keeps
    | with_reducible apply keeps_ite | with_reducible apply keeps_ite_fst | split
    | refine keeps_of_fst (by with_reducible assumption) ?_ | with_reducible apply keeps_upd

theorem State.doStandbyUnhealthy_keeps {a0 : State} {a1 : Nat} (hregs : k.regs = false) (hctl : k.ctl = false)
    (h : Keeps k m a0) :
    Keeps k m (State.doStandbyUnhealthy a0 a1) := by
  unfold State.doStandbyUnhealthy
  try dsimp only
  repeat' first
    | with_reducible assumption | with_reducible apply State.standbyFails_keeps | with_reducible apply keeps_ite

theorem State.doLockstepMismatch_keeps {a0 : State} (hregs : k.regs = false) (hctl : k.ctl = false) (h : Keeps k m a0)
    :
    Keeps k m (State.doLockstepMismatch a0) := by
  unfold State.doLockstepMismatch
  try dsimp only
  repeat' first
    | with_reducible assumption | with_reducible exact Or.inl ‹_› | with_reducible exact Eq.refl _
    | with_reducible exact Or.inr rfl | with_reducible exact Or.inr ⟨rfl, rfl⟩
    | with_reducible exact Or.inr ⟨rfl, rfl, rfl⟩ | with_reducible apply State.setFld_keeps
    | with_reducible apply keeps_ite | with_reducible apply keeps_ite_fst | split
    | refine keeps_of_fst (by with_reducible assumption) ?_ | with_reducible apply keeps_upd

theorem State.dropSets_keeps {a0 : State} {a1 : Agent} (hstaged : k.staged = false) (h : Keeps k m a0) :
    Keeps k m (State.dropSets a0 a1) := by
  unfold State.dropSets
  try dsimp only
  repeat' first
    | with_reducible assumption | with_reducible exact Or.inl ‹_› | with_reducible exact Eq.refl _
    | with_reducible exact Or.inr rfl | with_reducible exact Or.inr ⟨rfl, rfl⟩
    | with_reducible exact Or.inr ⟨rfl, rfl, rfl⟩ | intro _
    | exact (Keeps.good (by with_reducible assumption) (by with_reducible assumption)).regs
    | exact (Keeps.good (by with_reducible assumption) (by with_reducible assumption)).staged
    | exact (Keeps.good (by with_reducible assumption) (by with_reducible assumption)).clusters
    | exact (Keeps.good (by with_reducible assumption) (by with_reducible assumption)).slice
    | exact (Keeps.good (by with_reducible assumption) (by with_reducible assumption)).pad
    | exact (Keeps.good (by with_reducible assumption) (by with_reducible assumption)).sliceFlaw
    | exact (Keeps.good (by with_reducible assumption) (by with_reducible assumption)).padFlaw
    | exact (Keeps.good (by with_reducible assumption) (by with_reducible assumption)).lines
    | exact (Keeps.good (by with_reducible assumption) (by with_reducible assumption)).slots
    | exact (Keeps.good (by with_reducible assumption) (by with_reducible assumption)).flash | exact mwf_nil _
    | with_reducible exact Eq.refl true | with_reducible apply mwf_mset | with_reducible apply mwf_mwrite
    | with_reducible apply mwf_mclear | with_reducible apply mwf_filter | with_reducible apply msorted_mset
    | with_reducible apply msorted_mwrite | with_reducible apply msorted_filter | with_reducible apply keeps_ite_fst
    | split | refine keeps_of_fst (by with_reducible assumption) ?_ | with_reducible apply keeps_all

theorem State.passLease_keeps {a0 : State} {a1 : Nat} (hregs : k.regs = false) (hctl : k.ctl = false)
    (hstaged : k.staged = false) (h : Keeps k m a0) :
    Keeps k m (State.passLease a0 a1) := by
  unfold State.passLease
  try dsimp only
  repeat' first
    | with_reducible assumption | with_reducible exact Or.inl ‹_› | with_reducible exact Eq.refl _
    | with_reducible exact Or.inr rfl | with_reducible exact Or.inr ⟨rfl, rfl⟩
    | with_reducible exact Or.inr ⟨rfl, rfl, rfl⟩ | with_reducible apply State.dropSets_keeps
    | with_reducible apply State.setCtlState_keeps | with_reducible apply State.logChange_keeps
    | with_reducible apply State.setFld_keeps | with_reducible apply keeps_ite_fst | split
    | refine keeps_of_fst (by with_reducible assumption) ?_ | with_reducible apply keeps_upd

theorem State.abortCtlTest_keeps {a0 : State} (hregs : k.regs = false) (h : Keeps k m a0) :
    Keeps k m (State.abortCtlTest a0) := by
  unfold State.abortCtlTest
  try dsimp only
  repeat' first
    | with_reducible assumption | with_reducible apply State.abortTest_keeps | with_reducible apply keeps_ite

theorem State.doTakeover_keeps {a0 : State} (hregs : k.regs = false) (hctl : k.ctl = false)
    (hstaged : k.staged = false) (h : Keeps k m a0) :
    Keeps k m (State.doTakeover a0) := by
  unfold State.doTakeover
  try dsimp only
  repeat' first
    | with_reducible assumption | with_reducible exact Or.inl ‹_› | with_reducible exact Eq.refl _
    | with_reducible exact Or.inr rfl | with_reducible exact Or.inr ⟨rfl, rfl⟩
    | with_reducible exact Or.inr ⟨rfl, rfl, rfl⟩ | with_reducible apply State.abortCtlTest_keeps
    | with_reducible apply State.passLease_keeps | with_reducible apply State.setCtlState_keeps
    | with_reducible apply State.raiseEvent_keeps | with_reducible apply State.addSat_keeps
    | with_reducible apply State.setFld_keeps | with_reducible apply keeps_ite | with_reducible apply keeps_ite_fst | split
    | refine keeps_of_fst (by with_reducible assumption) ?_ | with_reducible apply keeps_upd

theorem State.closeDual_keeps {a0 : State} (hregs : k.regs = false) (hctl : k.ctl = false) (h : Keeps k m a0) :
    Keeps k m (State.closeDual a0) := by
  unfold State.closeDual
  try dsimp only
  repeat' first
    | with_reducible assumption | with_reducible exact Or.inl ‹_› | with_reducible exact Eq.refl _
    | with_reducible exact Or.inr rfl | with_reducible exact Or.inr ⟨rfl, rfl⟩
    | with_reducible exact Or.inr ⟨rfl, rfl, rfl⟩ | with_reducible apply State.setFld_keeps
    | with_reducible apply keeps_ite_fst | split | refine keeps_of_fst (by with_reducible assumption) ?_
    | with_reducible apply keeps_upd

theorem State.doDualActClear_keeps {a0 : State} (hregs : k.regs = false) (hctl : k.ctl = false) (h : Keeps k m a0) :
    Keeps k m (State.doDualActClear a0) := by
  unfold State.doDualActClear
  try dsimp only
  repeat' first
    | with_reducible assumption | with_reducible apply State.closeDual_keeps | with_reducible apply keeps_ite

theorem State.handover_keeps {a0 : State} {a1 : Nat} (hregs : k.regs = false) (hctl : k.ctl = false)
    (hstaged : k.staged = false) (h : Keeps k m a0) :
    Keeps k m (State.handover a0 a1) := by
  unfold State.handover
  try dsimp only
  repeat' first
    | with_reducible assumption | with_reducible apply State.passLease_keeps | with_reducible apply State.setCtlState_keeps

theorem State.doRelinquish_keeps {a0 : State} {a1 : Bool} {a2 : BitVec 16} (hregs : k.regs = false)
    (hctl : k.ctl = false) (hstaged : k.staged = false) (h : Keeps k m a0) :
    Keeps k m (State.doRelinquish a0 a1 a2) := by
  unfold State.doRelinquish
  try dsimp only
  repeat' first
    | with_reducible assumption | with_reducible exact Or.inl ‹_› | with_reducible exact Eq.refl _
    | with_reducible exact Or.inr rfl | with_reducible exact Or.inr ⟨rfl, rfl⟩
    | with_reducible exact Or.inr ⟨rfl, rfl, rfl⟩ | with_reducible apply State.handover_keeps
    | with_reducible apply State.closeDual_keeps | with_reducible apply keeps_ite | with_reducible apply keeps_ite_fst
    | split | refine keeps_of_fst (by with_reducible assumption) ?_ | with_reducible apply keeps_upd

theorem State.noteDual_keeps {a0 a1 : State} {a2 a3 : Nat} (hregs : k.regs = false) (hctl : k.ctl = false)
    (h : Keeps k m a0) :
    Keeps k m (State.noteDual a0 a1 a2 a3) := by
  unfold State.noteDual
  try dsimp only
  repeat' first
    | with_reducible assumption | with_reducible exact Or.inl ‹_› | with_reducible exact Eq.refl _
    | with_reducible exact Or.inr rfl | with_reducible exact Or.inr ⟨rfl, rfl⟩
    | with_reducible exact Or.inr ⟨rfl, rfl, rfl⟩ | with_reducible apply State.logChange_keeps
    | with_reducible apply State.setFld_keeps | with_reducible apply keeps_ite | with_reducible apply keeps_ite_fst | split
    | refine keeps_of_fst (by with_reducible assumption) ?_ | with_reducible apply keeps_upd

theorem State.journalWrite_keeps {a0 : State} {a1 a2 a3 : Nat} (hcold : k.cold = false) (h : Keeps k m a0) :
    Keeps k m (State.journalWrite a0 a1 a2 a3) := by
  unfold State.journalWrite
  try dsimp only
  repeat' first
    | with_reducible assumption | with_reducible exact Or.inl ‹_› | with_reducible exact Eq.refl _
    | with_reducible exact Or.inr rfl | with_reducible exact Or.inr ⟨rfl, rfl⟩
    | with_reducible exact Or.inr ⟨rfl, rfl, rfl⟩ | intro _ | with_reducible apply State.frameWrite_keeps
    | with_reducible apply keeps_ite | with_reducible apply keeps_ite_fst | split
    | refine keeps_of_fst (by with_reducible assumption) ?_ | with_reducible apply keeps_upd

theorem State.ctlWrite_keeps {a0 : State} {a1 : Bool} {a2 a3 : Nat} {a4 : State → State} (hregs : k.regs = false)
    (hcold : k.cold = false) (hctl : k.ctl = false) (h : Keeps k m a0) (f0 : ∀ s, Keeps k m s → Keeps k m (a4 s)) :
    Keeps k m (State.ctlWrite a0 a1 a2 a3 a4) := by
  unfold State.ctlWrite
  try dsimp only
  repeat' first
    | with_reducible assumption | intro _ | with_reducible apply f0 | with_reducible apply State.journalWrite_keeps
    | with_reducible apply State.noteDual_keeps | with_reducible apply State.staleWrite_keeps
    | with_reducible apply State.emit_keeps | with_reducible apply keeps_ite

theorem State.endFwu_keeps {a0 : State} {a1 : Nat} (hregs : k.regs = false) (h : Keeps k m a0) :
    Keeps k m (State.endFwu a0 a1) := by
  unfold State.endFwu
  try dsimp only
  repeat' first
    | with_reducible assumption | with_reducible apply State.setFld_keeps

theorem State.startFwu_keeps {a0 : State} {a1 : Agent} {a2 a3 : Nat} {a4 : State → State} (hregs : k.regs = false)
    (h : Keeps k m a0) (f0 : ∀ s, Keeps k m s → Keeps k m (a4 s)) :
    Keeps k m (State.startFwu a0 a1 a2 a3 a4) := by
  unfold State.startFwu
  try dsimp only
  repeat' first
    | with_reducible assumption | intro _ | with_reducible apply f0 | with_reducible apply State.endFwu_keeps
    | with_reducible apply State.gate_keeps | with_reducible apply State.setFld_keeps | with_reducible apply keeps_ite

theorem State.takeLine_keeps {a0 : State} {a1 : Nat} (hregs : k.regs = false) (hlines : k.lines = false)
    (h : Keeps k m a0) :
    Keeps k m (State.takeLine a0 a1).1 := by
  unfold State.takeLine
  try dsimp only
  repeat' first
    | with_reducible assumption | with_reducible apply State.readTier_keeps | with_reducible apply keeps_ite
    | with_reducible apply keeps_ite_fst | split | refine keeps_of_fst (by with_reducible assumption) ?_

theorem State.takeStaged_keeps {a0 : State} {a1 a2 : Nat} (hregs : k.regs = false) (hlines : k.lines = false)
    (h : Keeps k m a0) :
    Keeps k m (State.takeStaged a0 a1 a2).1 := by
  unfold State.takeStaged
  try dsimp only
  repeat' first
    | with_reducible assumption | intro _ | with_reducible apply State.takeLine_keeps | with_reducible apply keeps_ite
    | with_reducible apply keeps_foldl | with_reducible apply keeps_ite_fst | with_reducible apply keeps_foldl_fst | split
    | refine keeps_of_fst (by with_reducible assumption) ?_

theorem State.failInstall_keeps {a0 : State} {a1 a2 : Nat} (hregs : k.regs = false) (hfirm : k.firm = false)
    (h : Keeps k m a0) :
    Keeps k m (State.failInstall a0 a1 a2) := by
  unfold State.failInstall
  try dsimp only
  repeat' first
    | with_reducible assumption | with_reducible exact Or.inl ‹_› | with_reducible exact Eq.refl _
    | with_reducible exact Or.inr rfl | with_reducible exact Or.inr ⟨rfl, rfl⟩
    | with_reducible exact Or.inr ⟨rfl, rfl, rfl⟩ | with_reducible apply State.endFwu_keeps
    | with_reducible apply State.showSlot_keeps | with_reducible apply State.raiseEvent_keeps
    | with_reducible apply keeps_ite_fst | split | refine keeps_of_fst (by with_reducible assumption) ?_
    | with_reducible apply keeps_upd

theorem State.openSlotWrite_keeps {a0 : State} {a1 : Nat} {a2 : Bytes} (hregs : k.regs = false)
    (hcold : k.cold = false) (hflash : k.flash = false) (h : Keeps k m a0) :
    Keeps k m (State.openSlotWrite a0 a1 a2) := by
  unfold State.openSlotWrite
  try dsimp only
  repeat' first
    | with_reducible assumption | with_reducible exact Or.inl ‹_› | with_reducible exact Eq.refl _
    | with_reducible exact Or.inr rfl | with_reducible exact Or.inr ⟨rfl, rfl⟩
    | with_reducible exact Or.inr ⟨rfl, rfl, rfl⟩ | with_reducible apply State.showSlot_keeps
    | with_reducible apply State.flashErase_keeps | with_reducible apply keeps_ite | with_reducible apply keeps_ite_fst
    | split | refine keeps_of_fst (by with_reducible assumption) ?_ | with_reducible apply keeps_upd

theorem State.doInstall_keeps {a0 : State} {a1 : Agent} {a2 : Nat} (hregs : k.regs = false) (hlines : k.lines = false)
    (hcold : k.cold = false) (hflash : k.flash = false) (hfirm : k.firm = false) (h : Keeps k m a0) :
    Keeps k m (State.doInstall a0 a1 a2) := by
  unfold State.doInstall
  try dsimp only
  repeat' first
    | with_reducible assumption | with_reducible exact Or.inl ‹_› | with_reducible exact Eq.refl _
    | with_reducible exact Or.inr rfl | with_reducible exact Or.inr ⟨rfl, rfl⟩
    | with_reducible exact Or.inr ⟨rfl, rfl, rfl⟩ | intro _ | with_reducible apply State.openSlotWrite_keeps
    | with_reducible apply State.failInstall_keeps | with_reducible apply State.takeStaged_keeps
    | with_reducible apply State.startFwu_keeps | with_reducible apply State.flashWrite_keeps
    | with_reducible apply State.setFld_keeps | with_reducible apply keeps_ite | with_reducible apply keeps_ite_fst | split
    | refine keeps_of_fst (by with_reducible assumption) ?_ | with_reducible apply keeps_upd

theorem State.finishInstall_keeps {a0 : State} {a1 : Install} (hregs : k.regs = false) (hflash : k.flash = false)
    (hfirm : k.firm = false) (h : Keeps k m a0) :
    Keeps k m (State.finishInstall a0 a1) := by
  unfold State.finishInstall
  try dsimp only
  repeat' first
    | with_reducible assumption | with_reducible exact Or.inl ‹_› | with_reducible exact Eq.refl _
    | with_reducible exact Or.inr rfl | with_reducible exact Or.inr ⟨rfl, rfl⟩
    | with_reducible exact Or.inr ⟨rfl, rfl, rfl⟩ | with_reducible apply State.failInstall_keeps
    | with_reducible apply State.endFwu_keeps | with_reducible apply State.writeRecord_keeps
    | with_reducible apply State.flashWrite_keeps | with_reducible apply State.raiseEvent_keeps
    | with_reducible apply keeps_ite | with_reducible apply keeps_ite_fst | split
    | refine keeps_of_fst (by with_reducible assumption) ?_ | with_reducible apply keeps_upd

theorem State.endCopy_keeps {a0 : State} {a1 : Seed} {a2 : Bool} (hregs : k.regs = false) (hflash : k.flash = false)
    (hfirm : k.firm = false) (h : Keeps k m a0) :
    Keeps k m (State.endCopy a0 a1 a2) := by
  unfold State.endCopy
  try dsimp only
  repeat' first
    | with_reducible assumption | with_reducible exact Or.inl ‹_› | with_reducible exact Eq.refl _
    | with_reducible exact Or.inr rfl | with_reducible exact Or.inr ⟨rfl, rfl⟩
    | with_reducible exact Or.inr ⟨rfl, rfl, rfl⟩ | with_reducible apply State.endFwu_keeps
    | with_reducible apply State.flashWrite_keeps | with_reducible apply keeps_ite | with_reducible apply keeps_ite_fst
    | split | refine keeps_of_fst (by with_reducible assumption) ?_ | with_reducible apply keeps_upd

theorem State.doInstallDone_keeps {a0 : State} {a1 : Bool} (hregs : k.regs = false) (hflash : k.flash = false)
    (hfirm : k.firm = false) (h : Keeps k m a0) :
    Keeps k m (State.doInstallDone a0 a1) := by
  unfold State.doInstallDone
  try dsimp only
  repeat' first
    | with_reducible assumption | with_reducible apply State.endCopy_keeps | with_reducible apply State.finishInstall_keeps
    | with_reducible apply State.failInstall_keeps | with_reducible apply State.flashErase_keeps
    | with_reducible apply keeps_ite | with_reducible apply keeps_ite_fst | split

theorem State.startGraft_keeps {a0 : State} {a1 a2 : Nat} (hregs : k.regs = false) (hflash : k.flash = false)
    (hfirm : k.firm = false) (h : Keeps k m a0) :
    Keeps k m (State.startGraft a0 a1 a2) := by
  unfold State.startGraft
  try dsimp only
  repeat' first
    | with_reducible assumption | with_reducible exact Or.inl ‹_› | with_reducible exact Eq.refl _
    | with_reducible exact Or.inr rfl | with_reducible exact Or.inr ⟨rfl, rfl⟩
    | with_reducible exact Or.inr ⟨rfl, rfl, rfl⟩ | with_reducible apply State.setCtlState_keeps
    | with_reducible apply State.writeRecord_keeps | with_reducible apply State.raiseEvent_keeps
    | with_reducible apply State.setFld_keeps | with_reducible apply keeps_ite_fst | split
    | refine keeps_of_fst (by with_reducible assumption) ?_ | with_reducible apply keeps_upd

theorem State.doGraft_keeps {a0 : State} {a1 : Agent} {a2 : Nat} (hregs : k.regs = false) (hflash : k.flash = false)
    (hfirm : k.firm = false) (h : Keeps k m a0) :
    Keeps k m (State.doGraft a0 a1 a2) := by
  unfold State.doGraft
  try dsimp only
  repeat' first
    | with_reducible assumption | intro _ | with_reducible apply State.startGraft_keeps
    | with_reducible apply State.startFwu_keeps | with_reducible apply State.endFwu_keeps | with_reducible apply keeps_ite

theorem State.showRunning_keeps {a0 : State} (hregs : k.regs = false) (h : Keeps k m a0) :
    Keeps k m (State.showRunning a0) := by
  unfold State.showRunning
  try dsimp only
  repeat' first
    | with_reducible assumption | with_reducible apply State.setFld_keeps

theorem State.doGraftHandover_keeps {a0 : State} (hregs : k.regs = false) (hfirm : k.firm = false)
    (hctl : k.ctl = false) (hstaged : k.staged = false) (h : Keeps k m a0) :
    Keeps k m (State.doGraftHandover a0) := by
  unfold State.doGraftHandover
  try dsimp only
  repeat' first
    | with_reducible assumption | with_reducible apply State.showRunning_keeps | with_reducible apply State.handover_keeps
    | with_reducible apply State.setCtlState_keeps | with_reducible apply State.setRuns_keeps
    | with_reducible apply State.setFld_keeps | with_reducible apply keeps_ite | with_reducible apply keeps_ite_fst | split

theorem State.microcodeDone_keeps {a0 : State} {a1 : Graft} (hregs : k.regs = false) (hfirm : k.firm = false)
    (h : Keeps k m a0) :
    Keeps k m (State.microcodeDone a0 a1) := by
  unfold State.microcodeDone
  try dsimp only
  repeat' first
    | with_reducible assumption | with_reducible apply State.endFwu_keeps | with_reducible apply State.loadUcode_keeps
    | with_reducible apply State.setFld_keeps | with_reducible apply keeps_ite

theorem State.doGraftPeerHealthy_keeps {a0 : State} (hregs : k.regs = false) (hfirm : k.firm = false)
    (hctl : k.ctl = false) (h : Keeps k m a0) :
    Keeps k m (State.doGraftPeerHealthy a0) := by
  unfold State.doGraftPeerHealthy
  try dsimp only
  repeat' first
    | with_reducible assumption | with_reducible apply State.microcodeDone_keeps
    | with_reducible apply State.noteReport_keeps | with_reducible apply State.setCtlState_keeps
    | with_reducible apply State.setRuns_keeps | with_reducible apply State.setFld_keeps | with_reducible apply keeps_ite
    | with_reducible apply keeps_ite_fst | split

theorem State.doMicrocodeLoad_keeps {a0 : State} {a1 : Nat} (hregs : k.regs = false) (hfirm : k.firm = false)
    (h : Keeps k m a0) :
    Keeps k m (State.doMicrocodeLoad a0 a1) := by
  unfold State.doMicrocodeLoad
  try dsimp only
  repeat' first
    | with_reducible assumption | with_reducible exact Or.inl ‹_› | with_reducible exact Eq.refl _
    | with_reducible exact Or.inr rfl | with_reducible exact Or.inr ⟨rfl, rfl⟩
    | with_reducible exact Or.inr ⟨rfl, rfl, rfl⟩ | with_reducible apply State.microcodeDone_keeps
    | with_reducible apply keeps_ite | with_reducible apply keeps_ite_fst | split
    | refine keeps_of_fst (by with_reducible assumption) ?_ | with_reducible apply keeps_upd

theorem State.causeFallback_keeps {a0 : State} {a1 : Nat} (hregs : k.regs = false) (hfirm : k.firm = false)
    (h : Keeps k m a0) :
    Keeps k m (State.causeFallback a0 a1) := by
  unfold State.causeFallback
  try dsimp only
  repeat' first
    | with_reducible assumption | with_reducible exact Or.inl ‹_› | with_reducible exact Eq.refl _
    | with_reducible exact Or.inr rfl | with_reducible exact Or.inr ⟨rfl, rfl⟩
    | with_reducible exact Or.inr ⟨rfl, rfl, rfl⟩ | with_reducible apply State.setFld_keeps
    | with_reducible apply keeps_ite | with_reducible apply keeps_ite_fst | split
    | refine keeps_of_fst (by with_reducible assumption) ?_ | with_reducible apply keeps_upd

theorem State.doGraftWindowExpiry_keeps {a0 : State} (hregs : k.regs = false) (hfirm : k.firm = false)
    (h : Keeps k m a0) :
    Keeps k m (State.doGraftWindowExpiry a0) := by
  unfold State.doGraftWindowExpiry
  try dsimp only
  repeat' first
    | with_reducible assumption | with_reducible apply State.causeFallback_keeps | with_reducible apply keeps_ite

theorem State.doReject_keeps {a0 : State} {a1 : Agent} (hregs : k.regs = false) (hfirm : k.firm = false)
    (h : Keeps k m a0) :
    Keeps k m (State.doReject a0 a1) := by
  unfold State.doReject
  try dsimp only
  repeat' first
    | with_reducible assumption | intro _ | with_reducible apply State.causeFallback_keeps
    | with_reducible apply State.startFwu_keeps | with_reducible apply State.endFwu_keeps | with_reducible apply keeps_ite

theorem State.doFallback_keeps {a0 : State} (hregs : k.regs = false) (hflash : k.flash = false)
    (hfirm : k.firm = false) (hctl : k.ctl = false) (hstaged : k.staged = false) (h : Keeps k m a0) :
    Keeps k m (State.doFallback a0) := by
  unfold State.doFallback
  try dsimp only
  repeat' first
    | with_reducible assumption | with_reducible apply State.showRunning_keeps | with_reducible apply State.handover_keeps
    | with_reducible apply State.setCtlState_keeps | with_reducible apply State.writeRecord_keeps
    | with_reducible apply State.setRuns_keeps | with_reducible apply State.raiseEvent_keeps
    | with_reducible apply keeps_ite | with_reducible apply keeps_ite_fst | split

theorem State.dropGraft_keeps {a0 : State} (hregs : k.regs = false) (hfirm : k.firm = false) (h : Keeps k m a0) :
    Keeps k m (State.dropGraft a0) := by
  unfold State.dropGraft
  try dsimp only
  repeat' first
    | with_reducible assumption | with_reducible exact Or.inl ‹_› | with_reducible exact Eq.refl _
    | with_reducible exact Or.inr rfl | with_reducible exact Or.inr ⟨rfl, rfl⟩
    | with_reducible exact Or.inr ⟨rfl, rfl, rfl⟩ | with_reducible apply State.endFwu_keeps
    | with_reducible apply State.setFld_keeps | with_reducible apply keeps_ite_fst | split
    | refine keeps_of_fst (by with_reducible assumption) ?_ | with_reducible apply keeps_upd

theorem State.doFallbackDone_keeps {a0 : State} (hregs : k.regs = false) (hfirm : k.firm = false)
    (hctl : k.ctl = false) (h : Keeps k m a0) :
    Keeps k m (State.doFallbackDone a0) := by
  unfold State.doFallbackDone
  try dsimp only
  repeat' first
    | with_reducible assumption | with_reducible apply State.dropGraft_keeps | with_reducible apply State.noteReport_keeps
    | with_reducible apply State.setCtlState_keeps | with_reducible apply State.loadUcode_keeps
    | with_reducible apply keeps_ite | with_reducible apply keeps_ite_fst | split

theorem State.take_keeps {a0 : State} {a1 : Nat} (hregs : k.regs = false) (hcold : k.cold = false)
    (hflash : k.flash = false) (hfirm : k.firm = false) (h : Keeps k m a0) :
    Keeps k m (State.take a0 a1) := by
  unfold State.take
  try dsimp only
  repeat' first
    | with_reducible assumption | with_reducible exact Or.inl ‹_› | with_reducible exact Eq.refl _
    | with_reducible exact Or.inr rfl | with_reducible exact Or.inr ⟨rfl, rfl⟩
    | with_reducible exact Or.inr ⟨rfl, rfl, rfl⟩ | with_reducible apply State.causeFallback_keeps
    | with_reducible apply State.endFwu_keeps | with_reducible apply State.raiseSvn_keeps
    | with_reducible apply State.writeRecord_keeps | with_reducible apply State.raiseEvent_keeps
    | with_reducible apply State.setFld_keeps | with_reducible apply keeps_ite | with_reducible apply keeps_ite_fst | split
    | refine keeps_of_fst (by with_reducible assumption) ?_ | with_reducible apply keeps_upd

theorem State.doFwuTake_keeps {a0 : State} {a1 : Bool} {a2 : BitVec 16} (hregs : k.regs = false)
    (hcold : k.cold = false) (hflash : k.flash = false) (hfirm : k.firm = false) (hctl : k.ctl = false) (h : Keeps k m a0)
    :
    Keeps k m (State.doFwuTake a0 a1 a2) := by
  unfold State.doFwuTake
  try dsimp only
  repeat' first
    | with_reducible assumption | intro _ | with_reducible apply State.take_keeps
    | with_reducible apply State.ctlWrite_keeps | with_reducible apply keeps_ite

theorem State.beginCopy_keeps {a0 : State} {a1 : Nat} {a2 : Bytes} (hregs : k.regs = false) (hflash : k.flash = false)
    (hfirm : k.firm = false) (h : Keeps k m a0) :
    Keeps k m (State.beginCopy a0 a1 a2) := by
  unfold State.beginCopy
  try dsimp only
  repeat' first
    | with_reducible assumption | with_reducible exact Or.inl ‹_› | with_reducible exact Eq.refl _
    | with_reducible exact Or.inr rfl | with_reducible exact Or.inr ⟨rfl, rfl⟩
    | with_reducible exact Or.inr ⟨rfl, rfl, rfl⟩ | with_reducible apply State.flashErase_keeps
    | with_reducible apply State.flashWrite_keeps | with_reducible apply State.setFld_keeps
    | with_reducible apply keeps_ite_fst | split | refine keeps_of_fst (by with_reducible assumption) ?_
    | with_reducible apply keeps_upd

theorem State.writeCopy_keeps {a0 : State} {a1 : Nat} (hregs : k.regs = false) (hlines : k.lines = false)
    (hflash : k.flash = false) (hfirm : k.firm = false) (h : Keeps k m a0) :
    Keeps k m (State.writeCopy a0 a1) := by
  unfold State.writeCopy
  try dsimp only
  repeat' first
    | with_reducible assumption | with_reducible apply State.beginCopy_keeps | with_reducible apply State.takeStaged_keeps
    | with_reducible apply State.endFwu_keeps | with_reducible apply keeps_ite | with_reducible apply keeps_ite_fst | split
    | refine keeps_of_fst (by with_reducible assumption) ?_

theorem State.openBuffer_keeps {a0 : State} {a1 : Nat} (hregs : k.regs = false) (hflash : k.flash = false)
    (hfirm : k.firm = false) (h : Keeps k m a0) :
    Keeps k m (State.openBuffer a0 a1) := by
  unfold State.openBuffer
  try dsimp only
  repeat' first
    | with_reducible assumption | with_reducible exact Or.inl ‹_› | with_reducible exact Eq.refl _
    | with_reducible exact Or.inr rfl | with_reducible exact Or.inr ⟨rfl, rfl⟩
    | with_reducible exact Or.inr ⟨rfl, rfl, rfl⟩ | with_reducible apply State.flashErase_keeps
    | with_reducible apply State.setFld_keeps | with_reducible apply keeps_ite_fst | split
    | refine keeps_of_fst (by with_reducible assumption) ?_ | with_reducible apply keeps_upd

theorem State.doConfigWrite_keeps {a0 : State} {a1 : Agent} {a2 : Nat} (hregs : k.regs = false)
    (hlines : k.lines = false) (hflash : k.flash = false) (hfirm : k.firm = false) (h : Keeps k m a0) :
    Keeps k m (State.doConfigWrite a0 a1 a2) := by
  unfold State.doConfigWrite
  try dsimp only
  repeat' first
    | with_reducible assumption | intro _ | with_reducible apply State.openBuffer_keeps
    | with_reducible apply State.writeCopy_keeps | with_reducible apply State.startFwu_keeps
    | with_reducible apply State.endFwu_keeps | with_reducible apply keeps_ite

theorem State.doLaneCal_keeps {a0 : State} {a1 : Agent} {a2 : Nat} (hregs : k.regs = false) (h : Keeps k m a0) :
    Keeps k m (State.doLaneCal a0 a1 a2) := by
  unfold State.doLaneCal
  try dsimp only
  repeat' first
    | with_reducible assumption | intro _ | with_reducible apply State.startFwu_keeps
    | with_reducible apply State.endFwu_keeps

theorem State.setSeed_keeps {a0 : State} {a1 : Option Seed} (hfirm : k.firm = false) (h : Keeps k m a0) :
    Keeps k m (State.setSeed a0 a1) := by
  unfold State.setSeed
  try dsimp only
  repeat' first
    | with_reducible assumption | with_reducible exact Or.inl ‹_› | with_reducible exact Eq.refl _
    | with_reducible exact Or.inr rfl | with_reducible exact Or.inr ⟨rfl, rfl⟩
    | with_reducible exact Or.inr ⟨rfl, rfl, rfl⟩ | with_reducible apply keeps_ite_fst | split
    | refine keeps_of_fst (by with_reducible assumption) ?_ | with_reducible apply keeps_upd

theorem State.seedState_keeps {a0 : State} {a1 : Nat} (hregs : k.regs = false) (h : Keeps k m a0) :
    Keeps k m (State.seedState a0 a1) := by
  unfold State.seedState
  try dsimp only
  repeat' first
    | with_reducible assumption | with_reducible apply State.setFld_keeps

theorem State.endSeed_keeps {a0 : State} {a1 : Seed} {a2 : Nat} (hregs : k.regs = false) (hfirm : k.firm = false)
    (h : Keeps k m a0) :
    Keeps k m (State.endSeed a0 a1 a2) := by
  unfold State.endSeed
  try dsimp only
  repeat' first
    | with_reducible assumption | with_reducible apply State.seedState_keeps | with_reducible apply State.setSeed_keeps
    | with_reducible apply State.endFwu_keeps | with_reducible apply State.setFld_keeps | with_reducible apply keeps_ite

theorem State.seedGate_keeps {a0 : State} {a1 : State → State} (hregs : k.regs = false) (h : Keeps k m a0)
    (f0 : ∀ s, Keeps k m s → Keeps k m (a1 s)) :
    Keeps k m (State.seedGate a0 a1) := by
  unfold State.seedGate
  try dsimp only
  repeat' first
    | with_reducible assumption | intro _ | with_reducible apply f0 | with_reducible apply State.gate_keeps
    | with_reducible apply State.closeLatch_keeps | with_reducible apply keeps_ite

theorem State.doBegin_keeps {a0 : State} {a1 : Nat} (hregs : k.regs = false) (hfirm : k.firm = false)
    (h : Keeps k m a0) :
    Keeps k m (State.doBegin a0 a1) := by
  unfold State.doBegin
  try dsimp only
  repeat' first
    | with_reducible assumption | intro _ | with_reducible apply State.seedGate_keeps
    | with_reducible apply State.seedState_keeps | with_reducible apply State.setSeed_keeps
    | with_reducible apply State.setFld_keeps | with_reducible apply keeps_ite

theorem State.ackBlock_keeps {a0 : State} {a1 : Seed} {a2 : Nat} (hregs : k.regs = false) (hfirm : k.firm = false)
    (h : Keeps k m a0) :
    Keeps k m (State.ackBlock a0 a1 a2) := by
  unfold State.ackBlock
  try dsimp only
  repeat' first
    | with_reducible assumption | with_reducible apply State.seedState_keeps | with_reducible apply State.setSeed_keeps
    | with_reducible apply State.setFld_keeps

theorem State.firstBlock_keeps {a0 : State} {a1 : Seed} {a2 : Nat} (hregs : k.regs = false) (hflash : k.flash = false)
    (hfirm : k.firm = false) (h : Keeps k m a0) :
    Keeps k m (State.firstBlock a0 a1 a2) := by
  unfold State.firstBlock
  try dsimp only
  repeat' first
    | with_reducible assumption | with_reducible apply State.ackBlock_keeps | with_reducible apply State.endSeed_keeps
    | with_reducible apply State.showSlot_keeps | with_reducible apply State.flashErase_keeps
    | with_reducible apply State.flashWrite_keeps | with_reducible apply keeps_ite

theorem State.nextBlock_keeps {a0 : State} {a1 : Seed} {a2 a3 : Nat} (hregs : k.regs = false)
    (hflash : k.flash = false) (hfirm : k.firm = false) (h : Keeps k m a0) :
    Keeps k m (State.nextBlock a0 a1 a2 a3) := by
  unfold State.nextBlock
  try dsimp only
  repeat' first
    | with_reducible assumption | with_reducible apply State.ackBlock_keeps | with_reducible apply State.flashWrite_keeps
    | with_reducible apply keeps_ite

theorem State.doBlock_keeps {a0 : State} {a1 a2 : Nat} (hregs : k.regs = false) (hflash : k.flash = false)
    (hfirm : k.firm = false) (h : Keeps k m a0) :
    Keeps k m (State.doBlock a0 a1 a2) := by
  unfold State.doBlock
  try dsimp only
  repeat' first
    | with_reducible assumption | intro _ | with_reducible apply State.nextBlock_keeps
    | with_reducible apply State.firstBlock_keeps | with_reducible apply State.ackBlock_keeps
    | with_reducible apply State.seedGate_keeps | with_reducible apply keeps_ite | with_reducible apply keeps_ite_fst
    | split

theorem State.endDownload_keeps {a0 : State} {a1 : Seed} (hregs : k.regs = false) (hflash : k.flash = false)
    (hfirm : k.firm = false) (hboot : k.boot = false) (h : Keeps k m a0) :
    Keeps k m (State.endDownload a0 a1) := by
  unfold State.endDownload
  try dsimp only
  repeat' first
    | with_reducible assumption | with_reducible exact Or.inl ‹_› | with_reducible exact Eq.refl _
    | with_reducible exact Or.inr rfl | with_reducible exact Or.inr ⟨rfl, rfl⟩
    | with_reducible exact Or.inr ⟨rfl, rfl, rfl⟩ | with_reducible apply State.endSeed_keeps
    | with_reducible apply State.writeRecord_keeps | with_reducible apply State.flashWrite_keeps
    | with_reducible apply State.setDev_keeps | with_reducible apply keeps_ite | with_reducible apply keeps_ite_fst | split
    | refine keeps_of_fst (by with_reducible assumption) ?_ | with_reducible apply keeps_upd

theorem State.endBuffered_keeps {a0 : State} {a1 : Seed} (hregs : k.regs = false) (hflash : k.flash = false)
    (hfirm : k.firm = false) (h : Keeps k m a0) :
    Keeps k m (State.endBuffered a0 a1) := by
  unfold State.endBuffered
  try dsimp only
  repeat' first
    | with_reducible assumption | with_reducible apply State.endSeed_keeps | with_reducible apply State.flashWrite_keeps
    | with_reducible apply keeps_ite

theorem State.doSeedEnd_keeps {a0 : State} (hregs : k.regs = false) (hflash : k.flash = false) (hfirm : k.firm = false)
    (hboot : k.boot = false) (h : Keeps k m a0) :
    Keeps k m (State.doSeedEnd a0) := by
  unfold State.doSeedEnd
  try dsimp only
  repeat' first
    | with_reducible assumption | intro _ | with_reducible apply State.endBuffered_keeps
    | with_reducible apply State.endDownload_keeps | with_reducible apply State.seedGate_keeps
    | with_reducible apply keeps_ite | with_reducible apply keeps_ite_fst | split

theorem State.doSeedAbort_keeps {a0 : State} (hregs : k.regs = false) (hflash : k.flash = false)
    (hfirm : k.firm = false) (h : Keeps k m a0) :
    Keeps k m (State.doSeedAbort a0) := by
  unfold State.doSeedAbort
  try dsimp only
  repeat' first
    | with_reducible assumption | intro _ | with_reducible apply State.seedGate_keeps
    | with_reducible apply State.seedState_keeps | with_reducible apply State.setSeed_keeps
    | with_reducible apply State.endFwu_keeps | with_reducible apply State.showSlot_keeps
    | with_reducible apply State.flashErase_keeps | with_reducible apply keeps_ite | with_reducible apply keeps_ite_fst
    | split

theorem State.doTakeoverGraft_keeps {a0 : State} (hregs : k.regs = false) (hfirm : k.firm = false)
    (hctl : k.ctl = false) (hstaged : k.staged = false) (h : Keeps k m a0) :
    Keeps k m (State.doTakeoverGraft a0) := by
  unfold State.doTakeoverGraft
  try dsimp only
  repeat' first
    | with_reducible assumption | with_reducible apply State.causeFallback_keeps
    | with_reducible apply State.showRunning_keeps | with_reducible apply State.doTakeover_keeps
    | with_reducible apply keeps_ite | with_reducible apply keeps_ite_fst | split

theorem State.endGraftSafe_keeps {a0 : State} (hregs : k.regs = false) (hflash : k.flash = false)
    (hfirm : k.firm = false) (h : Keeps k m a0) :
    Keeps k m (State.endGraftSafe a0) := by
  unfold State.endGraftSafe
  try dsimp only
  repeat' first
    | with_reducible assumption | with_reducible apply State.dropGraft_keeps | with_reducible apply State.showRunning_keeps
    | with_reducible apply State.writeRecord_keeps | with_reducible apply State.loadUcode_keeps
    | with_reducible apply State.setRuns_keeps | with_reducible apply State.raiseEvent_keeps
    | with_reducible apply State.setFld_keeps | with_reducible apply keeps_ite | with_reducible apply keeps_ite_fst | split

theorem State.doRecoverGraft_keeps {a0 : State} {a1 : Agent} (hregs : k.regs = false) (hclusters : k.clusters = false)
    (hslice : k.slice = false) (hpad : k.pad = false) (hfab : k.fab = false) (hcol : k.col = false)
    (hconf : k.conf = false) (hflash : k.flash = false) (hfirm : k.firm = false) (hctl : k.ctl = false)
    (hboot : k.boot = false) (hstaged : k.staged = false) (h : Keeps k m a0) :
    Keeps k m (State.doRecoverGraft a0 a1) := by
  unfold State.doRecoverGraft
  try dsimp only
  repeat' first
    | with_reducible assumption | with_reducible apply State.endGraftSafe_keeps
    | with_reducible apply State.doRecover_keeps | with_reducible apply keeps_ite

end Sys2Proof.Machine
end

