-- ==== Sys2Proof/Laws/KeepsManage.lean ====
section
/-! SUPPORT. What the operations leave alone: one lemma per operation of the change log, owner commands, management, time, register access and the test access port. -/

namespace Sys2Proof.Machine

open Sys2Proof.Safety

variable {k : Kept} {m : State}

theorem State.writeEntry_keeps {a0 : State} {a1 : LogPend} (hregs : k.regs = false) (h : Keeps k m a0) :
    Keeps k m (State.writeEntry a0 a1) := by
  unfold State.writeEntry
  try dsimp only
  repeat' first
    | with_reducible assumption | with_reducible exact Or.inl ‹_› | with_reducible exact Eq.refl _
    | with_reducible exact Or.inr rfl | with_reducible exact Or.inr ⟨rfl, rfl⟩
    | with_reducible exact Or.inr ⟨rfl, rfl, rfl⟩ | with_reducible apply State.addWrap_keeps
    | with_reducible apply State.setFld_keeps | with_reducible apply State.setReg_keeps | with_reducible apply keeps_ite
    | with_reducible apply keeps_ite_fst | split | refine keeps_of_fst (by with_reducible assumption) ?_
    | with_reducible apply keeps_upd

theorem State.doLogEntryWrite_keeps {a0 : State} (hregs : k.regs = false) (h : Keeps k m a0) :
    Keeps k m (State.doLogEntryWrite a0) := by
  unfold State.doLogEntryWrite
  try dsimp only
  repeat' first
    | with_reducible assumption | with_reducible exact Or.inl ‹_› | with_reducible exact Eq.refl _
    | with_reducible exact Or.inr rfl | with_reducible exact Or.inr ⟨rfl, rfl⟩
    | with_reducible exact Or.inr ⟨rfl, rfl, rfl⟩ | with_reducible apply State.writeEntry_keeps
    | with_reducible apply keeps_ite | with_reducible apply keeps_ite_fst | split
    | refine keeps_of_fst (by with_reducible assumption) ?_ | with_reducible apply keeps_upd

theorem State.flushLog_keeps {a0 : State} (hregs : k.regs = false) (h : Keeps k m a0) :
    Keeps k m (State.flushLog a0) := by
  unfold State.flushLog
  try dsimp only
  repeat' first
    | with_reducible assumption | with_reducible exact Or.inl ‹_› | with_reducible exact Eq.refl _
    | with_reducible exact Or.inr rfl | with_reducible exact Or.inr ⟨rfl, rfl⟩
    | with_reducible exact Or.inr ⟨rfl, rfl, rfl⟩ | intro _ | with_reducible apply State.writeEntry_keeps
    | with_reducible apply keeps_foldl | with_reducible apply keeps_ite_fst | with_reducible apply keeps_foldl_fst | split
    | refine keeps_of_fst (by with_reducible assumption) ?_ | with_reducible apply keeps_upd

theorem State.doLogGap_keeps {a0 : State} (hregs : k.regs = false) (h : Keeps k m a0) :
    Keeps k m (State.doLogGap a0) := by
  unfold State.doLogGap
  try dsimp only
  repeat' first
    | with_reducible assumption | with_reducible exact Or.inl ‹_› | with_reducible exact Eq.refl _
    | with_reducible exact Or.inr rfl | with_reducible exact Or.inr ⟨rfl, rfl⟩
    | with_reducible exact Or.inr ⟨rfl, rfl, rfl⟩ | with_reducible apply State.logChange_keeps
    | with_reducible apply keeps_ite | with_reducible apply keeps_ite_fst | split
    | refine keeps_of_fst (by with_reducible assumption) ?_ | with_reducible apply keeps_upd

theorem State.mirrorStep_keeps {a0 : State} (hregs : k.regs = false) (h : Keeps k m a0) :
    Keeps k m (State.mirrorStep a0) := by
  unfold State.mirrorStep
  try dsimp only
  repeat' first
    | with_reducible assumption | with_reducible apply State.addWrap_keeps

theorem State.doLogMirrorCopy_keeps {a0 : State} (hregs : k.regs = false) (hlines : k.lines = false) (h : Keeps k m a0)
    :
    Keeps k m (State.doLogMirrorCopy a0) := by
  unfold State.doLogMirrorCopy
  try dsimp only
  repeat' first
    | with_reducible assumption | with_reducible apply State.mirrorStep_keeps
    | with_reducible apply State.stageLineWrite_keeps | with_reducible apply keeps_ite | with_reducible apply keeps_ite_fst
    | split

theorem State.showEntry_keeps {a0 : State} {a1 : Bytes} (hregs : k.regs = false) (h : Keeps k m a0) :
    Keeps k m (State.showEntry a0 a1) := by
  unfold State.showEntry
  try dsimp only
  repeat' first
    | with_reducible assumption | intro _ | with_reducible apply State.setReg_keeps | with_reducible apply keeps_foldl

theorem State.doLogReadSelWrite_keeps {a0 : State} {a1 : Agent} {a2 : Word} (hregs : k.regs = false) (h : Keeps k m a0)
    :
    Keeps k m (State.doLogReadSelWrite a0 a1 a2) := by
  unfold State.doLogReadSelWrite
  try dsimp only
  repeat' first
    | with_reducible assumption | intro _ | with_reducible apply State.showEntry_keeps
    | with_reducible apply State.gate_keeps | with_reducible apply State.setFld_keeps | with_reducible apply keeps_ite
    | with_reducible apply keeps_ite_fst | split

theorem State.endOwner_keeps {a0 : State} {a1 a2 : Nat} (hregs : k.regs = false) (h : Keeps k m a0) :
    Keeps k m (State.endOwner a0 a1 a2) := by
  unfold State.endOwner
  have h1 : Keeps k m (a0.setReg F.SEC_NONCE_NONCE.reg a0.free).drawn := State.drawn_keeps (State.setReg_keeps hregs h)
  revert h1
  generalize (a0.setReg F.SEC_NONCE_NONCE.reg a0.free).drawn = s1
  intro h1
  have h2 : Keeps k m { s1 with regs := mclear s1.regs mboxBase 0x10000 } := by
    refine keeps_all h1 (fun z => mwf_mclear _ _ _ _ (h1.good z).regs) (fun z => (h1.good z).staged) (fun z => (h1.good z).clusters) (fun z => (h1.good z).slice) (fun z => (h1.good z).pad) (fun z => (h1.good z).sliceFlaw)
      (fun z => (h1.good z).padFlaw) (fun z => (h1.good z).flash) (fun z => (h1.good z).lines) (fun z => (h1.good z).slots) (Or.inl hregs) (Or.inr rfl) (Or.inr ⟨rfl, rfl⟩)
      (Or.inr ⟨rfl, rfl⟩) (Or.inr rfl) (Or.inr rfl) (Or.inr ⟨rfl, rfl, rfl⟩) (Or.inr ⟨rfl, rfl⟩) (Or.inr rfl) (Or.inr rfl)
      (Or.inr rfl) (Or.inr rfl) (Or.inr rfl) (Or.inr rfl) (Or.inr rfl) (Or.inr rfl) (Or.inr rfl) (Or.inr rfl) (Or.inr rfl)
      (Or.inr rfl) (Or.inr rfl)
  repeat' first
    | with_reducible assumption
    | with_reducible exact h2
    | intro _
    | with_reducible apply State.setFld_keeps
    | with_reducible apply State.raiseEvent_keeps
    | with_reducible apply keeps_ite

theorem State.owner_keeps
    {a0 : State} {a1 : Agent} {a2 a3 : Nat} {a4 : Bytes → Bool} {a5 : State → Bytes → State × Nat} (hregs : k.regs = false)
    (h : Keeps k m a0) (f0 : ∀ s x1, Keeps k m s → Keeps k m (a5 s x1).1) :
    Keeps k m (State.owner a0 a1 a2 a3 a4 a5) := by
  unfold State.owner
  try dsimp only
  repeat' first
    | with_reducible assumption | intro _ | with_reducible apply f0 | with_reducible apply State.endOwner_keeps
    | with_reducible apply State.gate_keeps | with_reducible apply keeps_ite

theorem State.startWipe_keeps {a0 : State} {a1 : Nat} (hregs : k.regs = false) (hkeys : k.keys = false)
    (hcold : k.cold = false) (h : Keeps k m a0) :
    Keeps k m (State.startWipe a0 a1) := by
  unfold State.startWipe
  try dsimp only
  repeat' first
    | with_reducible assumption | with_reducible exact Or.inl ‹_› | with_reducible exact Eq.refl _
    | with_reducible exact Or.inr rfl | with_reducible exact Or.inr ⟨rfl, rfl⟩
    | with_reducible exact Or.inr ⟨rfl, rfl, rfl⟩ | with_reducible apply State.flushLog_keeps
    | with_reducible apply State.setFld_keeps | with_reducible apply keeps_ite | with_reducible apply keeps_ite_fst | split
    | refine keeps_of_fst (by with_reducible assumption) ?_ | with_reducible apply keeps_upd

theorem State.doWipeDone_keeps {a0 : State} (hregs : k.regs = false) (hcold : k.cold = false) (h : Keeps k m a0) :
    Keeps k m (State.doWipeDone a0) := by
  unfold State.doWipeDone
  try dsimp only
  repeat' first
    | with_reducible assumption | with_reducible exact Or.inl ‹_› | with_reducible exact Eq.refl _
    | with_reducible exact Or.inr rfl | with_reducible exact Or.inr ⟨rfl, rfl⟩
    | with_reducible exact Or.inr ⟨rfl, rfl, rfl⟩ | with_reducible apply State.putRoles_keeps
    | with_reducible apply State.raiseEvent_keeps | with_reducible apply State.addSat_keeps
    | with_reducible apply State.setFld_keeps | with_reducible apply keeps_ite | with_reducible apply keeps_ite_fst | split
    | refine keeps_of_fst (by with_reducible assumption) ?_ | with_reducible apply keeps_upd

theorem State.doTamper_keeps {a0 : State} (hregs : k.regs = false) (hkeys : k.keys = false) (hcold : k.cold = false)
    (h : Keeps k m a0) :
    Keeps k m (State.doTamper a0) := by
  unfold State.doTamper
  try dsimp only
  repeat' first
    | with_reducible assumption | with_reducible apply State.startWipe_keeps | with_reducible apply State.raiseEvent_keeps
    | with_reducible apply keeps_ite

theorem State.doColdFrameScrub_keeps {a0 : State} (hregs : k.regs = false) (hkeys : k.keys = false) (h : Keeps k m a0)
    :
    Keeps k m (State.doColdFrameScrub a0) := by
  unfold State.doColdFrameScrub
  try dsimp only
  repeat' first
    | with_reducible assumption | intro _ | with_reducible apply State.checkKey_keeps | with_reducible apply keeps_ite
    | with_reducible apply keeps_foldl

theorem State.setRolesEffect_keeps {a0 : Agent} {a1 : State} {a2 : Bytes} (hregs : k.regs = false)
    (hcold : k.cold = false) (h : Keeps k m a1) :
    Keeps k m (State.setRolesEffect a0 a1 a2).1 := by
  unfold State.setRolesEffect
  try dsimp only
  repeat' first
    | with_reducible assumption | with_reducible apply State.putRoles_keeps | with_reducible apply keeps_ite
    | with_reducible apply keeps_ite_fst

theorem State.doSetRoles_keeps {a0 : State} {a1 : Agent} (hregs : k.regs = false) (hcold : k.cold = false)
    (h : Keeps k m a0) :
    Keeps k m (State.doSetRoles a0 a1) := by
  unfold State.doSetRoles
  try dsimp only
  repeat' first
    | with_reducible assumption | intro _ | with_reducible apply State.setRolesEffect_keeps
    | with_reducible apply State.owner_keeps

theorem State.lifecycleEffect_keeps {a0 : Agent} {a1 : State} {a2 : Bytes} (hregs : k.regs = false)
    (hkeys : k.keys = false) (hcold : k.cold = false) (h : Keeps k m a1) :
    Keeps k m (State.lifecycleEffect a0 a1 a2).1 := by
  unfold State.lifecycleEffect
  try dsimp only
  repeat' first
    | with_reducible assumption | with_reducible apply State.startWipe_keeps | with_reducible apply State.raiseEvent_keeps
    | with_reducible apply State.logChange_keeps | with_reducible apply State.setFld_keeps | with_reducible apply keeps_ite
    | with_reducible apply keeps_ite_fst

theorem State.doLifecycle_keeps {a0 : State} {a1 : Agent} (hregs : k.regs = false) (hkeys : k.keys = false)
    (hcold : k.cold = false) (h : Keeps k m a0) :
    Keeps k m (State.doLifecycle a0 a1) := by
  unfold State.doLifecycle
  try dsimp only
  repeat' first
    | with_reducible assumption | intro _ | with_reducible apply State.lifecycleEffect_keeps
    | with_reducible apply State.owner_keeps

theorem State.doWipe_keeps {a0 : State} {a1 : Agent} (hregs : k.regs = false) (hkeys : k.keys = false)
    (hcold : k.cold = false) (h : Keeps k m a0) :
    Keeps k m (State.doWipe a0 a1) := by
  unfold State.doWipe
  try dsimp only
  repeat' first
    | with_reducible assumption | intro _ | with_reducible apply State.startWipe_keeps
    | with_reducible apply State.owner_keeps

theorem State.authoriseEffect_keeps {a0 : State} {a1 : Bytes} (hcold : k.cold = false) (h : Keeps k m a0) :
    Keeps k m (State.authoriseEffect a0 a1).1 := by
  unfold State.authoriseEffect
  try dsimp only
  repeat' first
    | with_reducible assumption | with_reducible exact Or.inl ‹_› | with_reducible exact Eq.refl _
    | with_reducible exact Or.inr rfl | with_reducible exact Or.inr ⟨rfl, rfl⟩
    | with_reducible exact Or.inr ⟨rfl, rfl, rfl⟩ | with_reducible apply keeps_ite | with_reducible apply keeps_ite_fst
    | split | refine keeps_of_fst (by with_reducible assumption) ?_ | with_reducible apply keeps_upd

theorem State.doFwAuthorise_keeps {a0 : State} {a1 : Agent} (hregs : k.regs = false) (hcold : k.cold = false)
    (h : Keeps k m a0) :
    Keeps k m (State.doFwAuthorise a0 a1) := by
  unfold State.doFwAuthorise
  try dsimp only
  repeat' first
    | with_reducible assumption | intro _ | with_reducible apply State.authoriseEffect_keeps
    | with_reducible apply State.owner_keeps

theorem State.installKtkEffect_keeps {a0 : Agent} {a1 : State} {a2 : Bytes} (hregs : k.regs = false)
    (hkeys : k.keys = false) (h : Keeps k m a1) :
    Keeps k m (State.installKtkEffect a0 a1 a2).1 := by
  unfold State.installKtkEffect
  try dsimp only
  repeat' first
    | with_reducible assumption | with_reducible apply State.logKey_keeps | with_reducible apply State.setKeySlot_keeps
    | with_reducible apply keeps_ite | with_reducible apply keeps_ite_fst | split

theorem State.doInstallKtk_keeps {a0 : State} {a1 : Agent} (hregs : k.regs = false) (hkeys : k.keys = false)
    (h : Keeps k m a0) :
    Keeps k m (State.doInstallKtk a0 a1) := by
  unfold State.doInstallKtk
  try dsimp only
  repeat' first
    | with_reducible assumption | intro _ | with_reducible apply State.installKtkEffect_keeps
    | with_reducible apply State.owner_keeps

theorem State.clearKtkEffect_keeps {a0 : Agent} {a1 : State} {a2 : Bytes} (hregs : k.regs = false)
    (hkeys : k.keys = false) (h : Keeps k m a1) :
    Keeps k m (State.clearKtkEffect a0 a1 a2).1 := by
  unfold State.clearKtkEffect
  try dsimp only
  repeat' first
    | with_reducible assumption | with_reducible apply State.logKey_keeps | with_reducible apply State.setKeySlot_keeps
    | with_reducible apply keeps_ite | with_reducible apply keeps_ite_fst

theorem State.doClearKtk_keeps {a0 : State} {a1 : Agent} (hregs : k.regs = false) (hkeys : k.keys = false)
    (h : Keeps k m a0) :
    Keeps k m (State.doClearKtk a0 a1) := by
  unfold State.doClearKtk
  try dsimp only
  repeat' first
    | with_reducible assumption | intro _ | with_reducible apply State.clearKtkEffect_keeps
    | with_reducible apply State.owner_keeps

theorem State.unknownOwner_keeps {a0 : State} {a1 : Agent} (hregs : k.regs = false) (h : Keeps k m a0) :
    Keeps k m (State.unknownOwner a0 a1) := by
  unfold State.unknownOwner
  try dsimp only
  repeat' first
    | with_reducible assumption | intro _ | with_reducible apply State.endOwner_keeps
    | with_reducible apply State.gate_keeps

theorem State.doEntdaa_keeps {a0 : State} {a1 : BitVec 7} (h : Keeps k m a0) :
    Keeps k m (State.doEntdaa a0 a1) := by
  unfold State.doEntdaa
  try dsimp only
  repeat' first
    | with_reducible assumption | with_reducible exact Or.inl ‹_› | with_reducible exact Eq.refl _
    | with_reducible exact Or.inr rfl | with_reducible exact Or.inr ⟨rfl, rfl⟩
    | with_reducible exact Or.inr ⟨rfl, rfl, rfl⟩ | with_reducible apply State.emit_keeps | with_reducible apply keeps_ite
    | with_reducible apply keeps_ite_fst | split | refine keeps_of_fst (by with_reducible assumption) ?_
    | with_reducible apply keeps_upd

theorem State.doSetdasa_keeps {a0 : State} {a1 : BitVec 7} (h : Keeps k m a0) :
    Keeps k m (State.doSetdasa a0 a1) := by
  unfold State.doSetdasa
  try dsimp only
  repeat' first
    | with_reducible assumption | with_reducible exact Or.inl ‹_› | with_reducible exact Eq.refl _
    | with_reducible exact Or.inr rfl | with_reducible exact Or.inr ⟨rfl, rfl⟩
    | with_reducible exact Or.inr ⟨rfl, rfl, rfl⟩ | with_reducible apply keeps_ite | with_reducible apply keeps_ite_fst
    | split | refine keeps_of_fst (by with_reducible assumption) ?_ | with_reducible apply keeps_upd

theorem State.sendUnit_keeps {a0 : State} {a1 a2 : Nat} {a3 : Bytes} (h : Keeps k m a0) :
    Keeps k m (State.sendUnit a0 a1 a2 a3) := by
  unfold State.sendUnit
  try dsimp only
  repeat' first
    | with_reducible assumption | with_reducible apply State.emit_keeps

theorem State.sendI3cUnit_keeps {a0 : State} {a1 a2 : Nat} {a3 : Bytes} (h : Keeps k m a0) :
    Keeps k m (State.sendI3cUnit a0 a1 a2 a3) := by
  unfold State.sendI3cUnit
  try dsimp only
  repeat' first
    | with_reducible assumption | with_reducible apply State.emit_keeps

theorem State.reply_keeps {a0 : State} {a1 : Endpoint} {a2 : Nat} {a3 : Bytes} (h : Keeps k m a0) :
    Keeps k m (State.reply a0 a1 a2 a3) := by
  unfold State.reply
  try dsimp only
  repeat' first
    | with_reducible assumption | intro _ | with_reducible apply State.sendUnit_keeps
    | with_reducible apply State.sendI3cUnit_keeps | with_reducible apply State.emit_keeps
    | with_reducible apply keeps_foldl | split

theorem State.request_keeps {a0 : State} {a1 : Endpoint} {a2 : State → State} (h : Keeps k m a0)
    (f0 : ∀ s, Keeps k m s → Keeps k m (a2 s)) :
    Keeps k m (State.request a0 a1 a2) := by
  unfold State.request
  try dsimp only
  repeat' first
    | with_reducible assumption | intro _ | with_reducible apply f0 | with_reducible apply keeps_ite

theorem State.spdmReply_keeps {a0 : State} {a1 : Endpoint} {a2 a3 : Nat} {a4 : Bytes} (h : Keeps k m a0) :
    Keeps k m (State.spdmReply a0 a1 a2 a3 a4) := by
  unfold State.spdmReply
  try dsimp only
  repeat' first
    | with_reducible assumption | with_reducible apply State.reply_keeps

theorem State.spdmError_keeps {a0 : State} {a1 : Endpoint} {a2 : Nat} (h : Keeps k m a0) :
    Keeps k m (State.spdmError a0 a1 a2) := by
  unfold State.spdmError
  try dsimp only
  repeat' first
    | with_reducible assumption | with_reducible apply State.spdmReply_keeps

theorem State.doGetVersion_keeps {a0 : State} {a1 : Endpoint} (h : Keeps k m a0) :
    Keeps k m (State.doGetVersion a0 a1) := by
  unfold State.doGetVersion
  try dsimp only
  repeat' first
    | with_reducible assumption | intro _ | with_reducible apply State.spdmReply_keeps
    | with_reducible apply State.request_keeps

theorem State.doGetCapabilities_keeps {a0 : State} {a1 : Endpoint} (h : Keeps k m a0) :
    Keeps k m (State.doGetCapabilities a0 a1) := by
  unfold State.doGetCapabilities
  try dsimp only
  repeat' first
    | with_reducible assumption | intro _ | with_reducible apply State.spdmReply_keeps
    | with_reducible apply State.request_keeps

theorem State.doNegotiateAlgorithms_keeps {a0 : State} {a1 : Endpoint} (h : Keeps k m a0) :
    Keeps k m (State.doNegotiateAlgorithms a0 a1) := by
  unfold State.doNegotiateAlgorithms
  try dsimp only
  repeat' first
    | with_reducible assumption | intro _ | with_reducible apply State.spdmReply_keeps
    | with_reducible apply State.request_keeps

theorem State.doGetDigests_keeps {a0 : State} {a1 : Endpoint} (h : Keeps k m a0) :
    Keeps k m (State.doGetDigests a0 a1) := by
  unfold State.doGetDigests
  try dsimp only
  repeat' first
    | with_reducible assumption | intro _ | with_reducible apply State.spdmError_keeps
    | with_reducible apply State.spdmReply_keeps | with_reducible apply State.request_keeps
    | with_reducible apply keeps_ite | with_reducible apply keeps_ite_fst | split

theorem State.doGetCertificate_keeps {a0 : State} {a1 : Endpoint} {a2 a3 : Nat} (h : Keeps k m a0) :
    Keeps k m (State.doGetCertificate a0 a1 a2 a3) := by
  unfold State.doGetCertificate
  try dsimp only
  repeat' first
    | with_reducible assumption | intro _ | with_reducible apply State.spdmError_keeps
    | with_reducible apply State.spdmReply_keeps | with_reducible apply State.request_keeps
    | with_reducible apply keeps_ite | with_reducible apply keeps_ite_fst | split

theorem State.askSignature_keeps {a0 : State} {a1 : SigReq} (h : Keeps k m a0) :
    Keeps k m (State.askSignature a0 a1) := by
  unfold State.askSignature
  try dsimp only
  repeat' first
    | with_reducible assumption | with_reducible exact Or.inl ‹_› | with_reducible exact Eq.refl _
    | with_reducible exact Or.inr rfl | with_reducible exact Or.inr ⟨rfl, rfl⟩
    | with_reducible exact Or.inr ⟨rfl, rfl, rfl⟩ | with_reducible apply State.spdmError_keeps
    | with_reducible apply keeps_ite | with_reducible apply keeps_ite_fst | split
    | refine keeps_of_fst (by with_reducible assumption) ?_ | with_reducible apply keeps_upd

theorem State.doChallenge_keeps {a0 : State} {a1 : Endpoint} {a2 : Bytes} (h : Keeps k m a0) :
    Keeps k m (State.doChallenge a0 a1 a2) := by
  unfold State.doChallenge
  try dsimp only
  repeat' first
    | with_reducible assumption | intro _ | with_reducible apply State.askSignature_keeps
    | with_reducible apply State.request_keeps

theorem State.doGetMeasurements_keeps {a0 : State} {a1 : Endpoint} {a2 : Nat} {a3 : Bool} {a4 : Bytes}
    (h : Keeps k m a0) :
    Keeps k m (State.doGetMeasurements a0 a1 a2 a3 a4) := by
  unfold State.doGetMeasurements
  try dsimp only
  repeat' first
    | with_reducible assumption | with_reducible exact Or.inl ‹_› | with_reducible exact Eq.refl _
    | with_reducible exact Or.inr rfl | with_reducible exact Or.inr ⟨rfl, rfl⟩
    | with_reducible exact Or.inr ⟨rfl, rfl, rfl⟩ | intro _ | with_reducible apply State.askSignature_keeps
    | with_reducible apply State.spdmError_keeps | with_reducible apply State.request_keeps
    | with_reducible apply State.reply_keeps | with_reducible apply keeps_ite | with_reducible apply keeps_ite_fst | split
    | refine keeps_of_fst (by with_reducible assumption) ?_ | with_reducible apply keeps_upd

theorem State.doSpdmSignatureDone_keeps {a0 : State} (h : Keeps k m a0) :
    Keeps k m (State.doSpdmSignatureDone a0) := by
  unfold State.doSpdmSignatureDone
  try dsimp only
  repeat' first
    | with_reducible assumption | with_reducible exact Or.inl ‹_› | with_reducible exact Eq.refl _
    | with_reducible exact Or.inr rfl | with_reducible exact Or.inr ⟨rfl, rfl⟩
    | with_reducible exact Or.inr ⟨rfl, rfl, rfl⟩ | with_reducible apply State.spdmError_keeps
    | with_reducible apply State.reply_keeps | with_reducible apply keeps_ite | with_reducible apply keeps_ite_fst | split
    | refine keeps_of_fst (by with_reducible assumption) ?_ | with_reducible apply keeps_upd

theorem State.pldmReply_keeps {a0 : State} {a1 a2 : Nat} {a3 : Bytes} (h : Keeps k m a0) :
    Keeps k m (State.pldmReply a0 a1 a2 a3) := by
  unfold State.pldmReply
  try dsimp only
  repeat' first
    | with_reducible assumption | with_reducible apply State.reply_keeps

theorem State.doGetPdrRepositoryInfo_keeps {a0 : State} (h : Keeps k m a0) :
    Keeps k m (State.doGetPdrRepositoryInfo a0) := by
  unfold State.doGetPdrRepositoryInfo
  try dsimp only
  repeat' first
    | with_reducible assumption | intro _ | with_reducible apply State.pldmReply_keeps
    | with_reducible apply State.request_keeps

theorem State.doGetPdr_keeps {a0 : State} {a1 : Nat} (h : Keeps k m a0) :
    Keeps k m (State.doGetPdr a0 a1) := by
  unfold State.doGetPdr
  try dsimp only
  repeat' first
    | with_reducible assumption | intro _ | with_reducible apply State.pldmReply_keeps
    | with_reducible apply State.request_keeps | with_reducible apply keeps_ite | with_reducible apply keeps_ite_fst
    | split

theorem State.doGetSensorReading_keeps {a0 : State} {a1 : Nat} (h : Keeps k m a0) :
    Keeps k m (State.doGetSensorReading a0 a1) := by
  unfold State.doGetSensorReading
  try dsimp only
  repeat' first
    | with_reducible assumption | intro _ | with_reducible apply State.pldmReply_keeps
    | with_reducible apply State.request_keeps | with_reducible apply keeps_ite

theorem State.doGetStateSensorReadings_keeps {a0 : State} {a1 : Nat} (h : Keeps k m a0) :
    Keeps k m (State.doGetStateSensorReadings a0 a1) := by
  unfold State.doGetStateSensorReadings
  try dsimp only
  repeat' first
    | with_reducible assumption | intro _ | with_reducible apply State.pldmReply_keeps
    | with_reducible apply State.request_keeps | with_reducible apply keeps_ite | with_reducible apply keeps_ite_fst
    | split

theorem State.setRackCap_keeps {a0 : State} {a1 : Nat} (hregs : k.regs = false) (h : Keeps k m a0) :
    Keeps k m (State.setRackCap a0 a1) := by
  unfold State.setRackCap
  try dsimp only
  repeat' first
    | with_reducible assumption | with_reducible apply State.noteTerms_keeps | with_reducible apply State.logChange_keeps
    | with_reducible apply State.setFld_keeps | with_reducible apply keeps_ite

theorem State.doSetNumericEffecterValue_keeps {a0 : State} {a1 : Bool} {a2 a3 : Nat} (hregs : k.regs = false)
    (h : Keeps k m a0) :
    Keeps k m (State.doSetNumericEffecterValue a0 a1 a2 a3) := by
  unfold State.doSetNumericEffecterValue
  try dsimp only
  repeat' first
    | with_reducible assumption | with_reducible exact Or.inl ‹_› | with_reducible exact Eq.refl _
    | with_reducible exact Or.inr rfl | with_reducible exact Or.inr ⟨rfl, rfl⟩
    | with_reducible exact Or.inr ⟨rfl, rfl, rfl⟩ | intro _ | with_reducible apply State.setRackCap_keeps
    | with_reducible apply State.pldmReply_keeps | with_reducible apply State.request_keeps
    | with_reducible apply State.rackBeat_keeps | with_reducible apply keeps_ite | with_reducible apply keeps_ite_fst
    | split | refine keeps_of_fst (by with_reducible assumption) ?_ | with_reducible apply keeps_upd

theorem State.doGetNumericEffecterValue_keeps {a0 : State} {a1 : Nat} (h : Keeps k m a0) :
    Keeps k m (State.doGetNumericEffecterValue a0 a1) := by
  unfold State.doGetNumericEffecterValue
  try dsimp only
  repeat' first
    | with_reducible assumption | intro _ | with_reducible apply State.pldmReply_keeps
    | with_reducible apply State.request_keeps | with_reducible apply keeps_ite

theorem State.doPollForPlatformEventMessage_keeps {a0 : State} (h : Keeps k m a0) :
    Keeps k m (State.doPollForPlatformEventMessage a0) := by
  unfold State.doPollForPlatformEventMessage
  try dsimp only
  repeat' first
    | with_reducible assumption | with_reducible exact Or.inl ‹_› | with_reducible exact Eq.refl _
    | with_reducible exact Or.inr rfl | with_reducible exact Or.inr ⟨rfl, rfl⟩
    | with_reducible exact Or.inr ⟨rfl, rfl, rfl⟩ | intro _ | with_reducible apply State.pldmReply_keeps
    | with_reducible apply State.request_keeps | with_reducible apply keeps_ite | with_reducible apply keeps_ite_fst
    | split | refine keeps_of_fst (by with_reducible assumption) ?_ | with_reducible apply keeps_upd

theorem State.updateReply_keeps {a0 : State} {a1 : Endpoint} {a2 a3 : Nat} (h : Keeps k m a0) :
    Keeps k m (State.updateReply a0 a1 a2 a3) := by
  unfold State.updateReply
  try dsimp only
  repeat' first
    | with_reducible assumption | with_reducible apply State.reply_keeps

theorem State.putPayload_keeps {a0 : State} {a1 : Install} {a2 : Bytes} (hflash : k.flash = false)
    (hfirm : k.firm = false) (h : Keeps k m a0) :
    Keeps k m (State.putPayload a0 a1 a2) := by
  unfold State.putPayload
  try dsimp only
  repeat' first
    | with_reducible assumption | with_reducible exact Or.inl ‹_› | with_reducible exact Eq.refl _
    | with_reducible exact Or.inr rfl | with_reducible exact Or.inr ⟨rfl, rfl⟩
    | with_reducible exact Or.inr ⟨rfl, rfl, rfl⟩ | with_reducible apply State.flashWrite_keeps
    | with_reducible apply keeps_ite_fst | split | refine keeps_of_fst (by with_reducible assumption) ?_
    | with_reducible apply keeps_upd

theorem State.putUpdate_keeps {a0 : State} {a1 : Install} {a2 : Bytes} (hregs : k.regs = false)
    (hcold : k.cold = false) (hflash : k.flash = false) (hfirm : k.firm = false) (h : Keeps k m a0) :
    Keeps k m (State.putUpdate a0 a1 a2) := by
  unfold State.putUpdate
  try dsimp only
  repeat' first
    | with_reducible assumption | with_reducible exact Or.inl ‹_› | with_reducible exact Eq.refl _
    | with_reducible exact Or.inr rfl | with_reducible exact Or.inr ⟨rfl, rfl⟩
    | with_reducible exact Or.inr ⟨rfl, rfl, rfl⟩ | with_reducible apply State.putPayload_keeps
    | with_reducible apply State.openSlotWrite_keeps | with_reducible apply State.failInstall_keeps
    | with_reducible apply State.setFld_keeps | with_reducible apply keeps_ite | with_reducible apply keeps_ite_fst | split
    | refine keeps_of_fst (by with_reducible assumption) ?_ | with_reducible apply keeps_upd

theorem State.doPldmFirmwareUpdate_keeps {a0 : State} {a1 : Endpoint} {a2 : Nat} {a3 : Bytes} (hregs : k.regs = false)
    (hcold : k.cold = false) (hflash : k.flash = false) (hfirm : k.firm = false) (h : Keeps k m a0) :
    Keeps k m (State.doPldmFirmwareUpdate a0 a1 a2 a3) := by
  unfold State.doPldmFirmwareUpdate
  try dsimp only
  repeat' first
    | with_reducible assumption | intro _ | with_reducible apply State.putUpdate_keeps
    | with_reducible apply State.updateReply_keeps | with_reducible apply State.request_keeps
    | with_reducible apply State.setFld_keeps | with_reducible apply keeps_ite | with_reducible apply keeps_ite_fst | split

theorem State.doActivateFirmware_keeps {a0 : State} {a1 : Endpoint} (hregs : k.regs = false) (hflash : k.flash = false)
    (hfirm : k.firm = false) (h : Keeps k m a0) :
    Keeps k m (State.doActivateFirmware a0 a1) := by
  unfold State.doActivateFirmware
  try dsimp only
  repeat' first
    | with_reducible assumption | intro _ | with_reducible apply State.updateReply_keeps
    | with_reducible apply State.request_keeps | with_reducible apply State.startGraft_keeps
    | with_reducible apply keeps_ite

theorem State.setRate_keeps {a0 : State} {a1 : Int} (hregs : k.regs = false) (h : Keeps k m a0) :
    Keeps k m (State.setRate a0 a1) := by
  unfold State.setRate
  try dsimp only
  repeat' first
    | with_reducible assumption | with_reducible apply State.setFld_keeps

theorem State.senseAll_keeps {a0 : State} (h : Keeps k m a0) :
    Keeps k m (State.senseAll a0) := by
  unfold State.senseAll
  try dsimp only
  repeat' first
    | with_reducible assumption | with_reducible exact Or.inl ‹_› | with_reducible exact Eq.refl _
    | with_reducible exact Or.inr rfl | with_reducible exact Or.inr ⟨rfl, rfl⟩
    | with_reducible exact Or.inr ⟨rfl, rfl, rfl⟩ | with_reducible apply keeps_upd

theorem State.tick_keeps {a0 : State} (hticks : k.ticks = false) (h : Keeps k m a0) :
    Keeps k m (State.tick a0) := by
  unfold State.tick
  try dsimp only
  repeat' first
    | with_reducible assumption | with_reducible exact Or.inl ‹_› | with_reducible exact Eq.refl _
    | with_reducible exact Or.inr rfl | with_reducible exact Or.inr ⟨rfl, rfl⟩
    | with_reducible exact Or.inr ⟨rfl, rfl, rfl⟩ | with_reducible apply State.senseAll_keeps
    | with_reducible apply keeps_ite | with_reducible apply keeps_upd

theorem State.hear_keeps {a0 : State} {a1 : Nat} {a2 : SyncMsg} (h : Keeps k m a0) :
    Keeps k m (State.hear a0 a1 a2) := by
  unfold State.hear
  try dsimp only
  repeat' first
    | with_reducible assumption | with_reducible exact Or.inl ‹_› | with_reducible exact Eq.refl _
    | with_reducible exact Or.inr rfl | with_reducible exact Or.inr ⟨rfl, rfl⟩
    | with_reducible exact Or.inr ⟨rfl, rfl, rfl⟩ | with_reducible apply keeps_ite_fst | split
    | refine keeps_of_fst (by with_reducible assumption) ?_ | with_reducible apply keeps_upd

theorem State.chooseParent_keeps {a0 : State} (hregs : k.regs = false) (h : Keeps k m a0) :
    Keeps k m (State.chooseParent a0) := by
  unfold State.chooseParent
  try dsimp only
  repeat' first
    | with_reducible assumption | with_reducible exact Or.inl ‹_› | with_reducible exact Eq.refl _
    | with_reducible exact Or.inr rfl | with_reducible exact Or.inr ⟨rfl, rfl⟩
    | with_reducible exact Or.inr ⟨rfl, rfl, rfl⟩ | with_reducible apply State.setFld_keeps
    | with_reducible apply keeps_ite | with_reducible apply keeps_ite_fst | split
    | refine keeps_of_fst (by with_reducible assumption) ?_ | with_reducible apply keeps_upd

theorem State.doTimeSyncRequestSend_keeps {a0 : State} {a1 : Nat} (hfab : k.fab = false) (h : Keeps k m a0) :
    Keeps k m (State.doTimeSyncRequestSend a0 a1) := by
  unfold State.doTimeSyncRequestSend
  try dsimp only
  repeat' first
    | with_reducible assumption | with_reducible exact Or.inl ‹_› | with_reducible exact Eq.refl _
    | with_reducible exact Or.inr rfl | with_reducible exact Or.inr ⟨rfl, rfl⟩
    | with_reducible exact Or.inr ⟨rfl, rfl, rfl⟩ | with_reducible apply State.sendCtrl_keeps
    | with_reducible apply keeps_ite | with_reducible apply keeps_ite_fst | split
    | refine keeps_of_fst (by with_reducible assumption) ?_ | with_reducible apply keeps_upd

theorem State.doTimeSyncRequest_keeps {a0 : State} {a1 : Nat} {a2 : SyncMsg} (hfab : k.fab = false) (h : Keeps k m a0)
    :
    Keeps k m (State.doTimeSyncRequest a0 a1 a2) := by
  unfold State.doTimeSyncRequest
  try dsimp only
  repeat' first
    | with_reducible assumption | with_reducible apply State.hear_keeps | with_reducible apply State.oweCtrl_keeps
    | with_reducible apply State.sendCtrl_keeps | with_reducible apply keeps_ite

theorem State.stepBy_keeps {a0 : State} {a1 : Int} (hregs : k.regs = false) (h : Keeps k m a0) :
    Keeps k m (State.stepBy a0 a1) := by
  unfold State.stepBy
  try dsimp only
  repeat' first
    | with_reducible assumption | with_reducible exact Or.inl ‹_› | with_reducible exact Eq.refl _
    | with_reducible exact Or.inr rfl | with_reducible exact Or.inr ⟨rfl, rfl⟩
    | with_reducible exact Or.inr ⟨rfl, rfl, rfl⟩ | with_reducible apply State.setRate_keeps
    | with_reducible apply State.logChange_keeps | with_reducible apply State.addSat_keeps
    | with_reducible apply keeps_ite_fst | split | refine keeps_of_fst (by with_reducible assumption) ?_
    | with_reducible apply keeps_upd

theorem State.synced_keeps {a0 : State} (hregs : k.regs = false) (h : Keeps k m a0) :
    Keeps k m (State.synced a0) := by
  unfold State.synced
  try dsimp only
  repeat' first
    | with_reducible assumption | with_reducible exact Or.inl ‹_› | with_reducible exact Eq.refl _
    | with_reducible exact Or.inr rfl | with_reducible exact Or.inr ⟨rfl, rfl⟩
    | with_reducible exact Or.inr ⟨rfl, rfl, rfl⟩ | with_reducible apply State.setFld_keeps
    | with_reducible apply keeps_ite_fst | split | refine keeps_of_fst (by with_reducible assumption) ?_
    | with_reducible apply keeps_upd

theorem State.correct_keeps {a0 : State} {a1 : Int} (hregs : k.regs = false) (h : Keeps k m a0) :
    Keeps k m (State.correct a0 a1) := by
  unfold State.correct
  try dsimp only
  repeat' first
    | with_reducible assumption | with_reducible exact Or.inl ‹_› | with_reducible exact Eq.refl _
    | with_reducible exact Or.inr rfl | with_reducible exact Or.inr ⟨rfl, rfl⟩
    | with_reducible exact Or.inr ⟨rfl, rfl, rfl⟩ | with_reducible apply State.synced_keeps
    | with_reducible apply State.stepBy_keeps | with_reducible apply State.setRate_keeps
    | with_reducible apply State.setFld_keeps | with_reducible apply keeps_ite | with_reducible apply keeps_ite_fst | split
    | refine keeps_of_fst (by with_reducible assumption) ?_ | with_reducible apply keeps_upd

theorem State.doTimeSyncResponse_keeps {a0 : State} {a1 : Nat} {a2 : SyncMsg} (hregs : k.regs = false)
    (hfab : k.fab = false) (h : Keeps k m a0) :
    Keeps k m (State.doTimeSyncResponse a0 a1 a2) := by
  unfold State.doTimeSyncResponse
  try dsimp only
  repeat' first
    | with_reducible assumption | with_reducible exact Or.inl ‹_› | with_reducible exact Eq.refl _
    | with_reducible exact Or.inr rfl | with_reducible exact Or.inr ⟨rfl, rfl⟩
    | with_reducible exact Or.inr ⟨rfl, rfl, rfl⟩ | with_reducible apply State.correct_keeps
    | with_reducible apply State.chooseParent_keeps | with_reducible apply State.hear_keeps
    | with_reducible apply State.oweCtrl_keeps | with_reducible apply keeps_ite | with_reducible apply keeps_ite_fst
    | split | refine keeps_of_fst (by with_reducible assumption) ?_ | with_reducible apply keeps_upd

theorem State.enterHoldover_keeps {a0 : State} (hregs : k.regs = false) (h : Keeps k m a0) :
    Keeps k m (State.enterHoldover a0) := by
  unfold State.enterHoldover
  try dsimp only
  repeat' first
    | with_reducible assumption | with_reducible exact Or.inl ‹_› | with_reducible exact Eq.refl _
    | with_reducible exact Or.inr rfl | with_reducible exact Or.inr ⟨rfl, rfl⟩
    | with_reducible exact Or.inr ⟨rfl, rfl, rfl⟩ | with_reducible apply State.chooseParent_keeps
    | with_reducible apply State.setFld_keeps | with_reducible apply keeps_ite_fst | split
    | refine keeps_of_fst (by with_reducible assumption) ?_ | with_reducible apply keeps_upd

theorem State.doHoldover_keeps {a0 : State} (hregs : k.regs = false) (h : Keeps k m a0) :
    Keeps k m (State.doHoldover a0) := by
  unfold State.doHoldover
  try dsimp only
  repeat' first
    | with_reducible assumption | with_reducible apply State.enterHoldover_keeps | with_reducible apply keeps_ite

theorem State.doBecomeRoot_keeps {a0 : State} (hregs : k.regs = false) (h : Keeps k m a0) :
    Keeps k m (State.doBecomeRoot a0) := by
  unfold State.doBecomeRoot
  try dsimp only
  repeat' first
    | with_reducible assumption | with_reducible exact Or.inl ‹_› | with_reducible exact Eq.refl _
    | with_reducible exact Or.inr rfl | with_reducible exact Or.inr ⟨rfl, rfl⟩
    | with_reducible exact Or.inr ⟨rfl, rfl, rfl⟩ | with_reducible apply State.setFld_keeps
    | with_reducible apply keeps_ite | with_reducible apply keeps_ite_fst | split
    | refine keeps_of_fst (by with_reducible assumption) ?_ | with_reducible apply keeps_upd

theorem State.loseLane_keeps {a0 : State} {a1 : Nat} (hregs : k.regs = false) (hclusters : k.clusters = false)
    (hfab : k.fab = false) (hcol : k.col = false) (h : Keeps k m a0) :
    Keeps k m (State.loseLane a0 a1) := by
  unfold State.loseLane
  try dsimp only
  repeat' first
    | with_reducible assumption | with_reducible apply State.retrainLane_keeps | with_reducible apply State.setFld_keeps
    | with_reducible apply keeps_ite

theorem State.doRefclkLoss_keeps {a0 : State} (hregs : k.regs = false) (hclusters : k.clusters = false)
    (hfab : k.fab = false) (hcol : k.col = false) (hboot : k.boot = false) (hcfg : k.cfg = false) (h : Keeps k m a0) :
    Keeps k m (State.doRefclkLoss a0) := by
  unfold State.doRefclkLoss
  by_cases hr : a0.boot.refclk = false
  · rw [if_pos hr]; exact h
  rw [if_neg hr]
  have h1 : Keeps k m { a0 with boot := { a0.boot with refclk := false } } := by
    with_reducible apply keeps_upd
    all_goals first
      | with_reducible assumption
      | exact Or.inl ‹_›
      | with_reducible exact Eq.refl _
      | with_reducible exact Or.inr rfl
      | with_reducible exact Or.inr ⟨rfl, rfl⟩
      | with_reducible exact Or.inr ⟨rfl, rfl, rfl⟩
  revert h1
  dsimp only
  generalize ({ a0 with boot := { a0.boot with refclk := false } } : State) = s1
  intro h1
  split
  · exact h1
  have h2 : Keeps k m (if s1.memOn = true then
      (List.range 32).foldl (fun (s : State) p => s.portDown p 1) ((List.range 16).foldl State.loseLane s1) else s1) := by
    repeat' first
      | with_reducible assumption
      | intro _
      | with_reducible apply State.portDown_keeps
      | with_reducible apply State.loseLane_keeps
      | with_reducible apply keeps_ite
      | with_reducible apply keeps_foldl
  revert h2
  generalize (if s1.memOn = true then
    (List.range 32).foldl (fun (s : State) p => s.portDown p 1) ((List.range 16).foldl State.loseLane s1) else s1) = s2
  intro h2
  have h3 : Keeps k m (s2.dropLink.setFld F.TIM_STATUS_STATE tsHoldover) := by
    repeat' first
      | with_reducible assumption
      | with_reducible apply State.setFld_keeps
      | with_reducible apply State.dropLink_keeps
  refine keeps_all h3 (fun z => (h3.good z).regs) (fun z => (h3.good z).staged) (fun z => (h3.good z).clusters) (fun z => (h3.good z).slice) (fun z => (h3.good z).pad) (fun z => (h3.good z).sliceFlaw)
    (fun z => (h3.good z).padFlaw) (fun z => (h3.good z).flash) (fun z => (h3.good z).lines) (fun z => (h3.good z).slots) (Or.inr rfl) (Or.inr rfl) (Or.inr ⟨rfl, rfl⟩)
    (Or.inr ⟨rfl, rfl⟩) (Or.inr rfl) (Or.inr rfl) (Or.inr ⟨rfl, rfl, rfl⟩) (Or.inr ⟨rfl, rfl⟩) (Or.inr rfl) (Or.inr rfl)
    (Or.inr rfl) (Or.inr rfl) (Or.inr rfl) (Or.inr rfl) (Or.inr rfl) (Or.inr rfl) (Or.inr rfl) (Or.inr rfl) ?_
    (Or.inr rfl) (Or.inr rfl)
  cases hk : k.ticks with
  | false => exact Or.inl rfl
  | true => exact Or.inr ((h2.ticks hk).trans (h3.ticks hk).symm)

theorem State.doRefclkReturn_keeps {a0 : State} (hregs : k.regs = false) (hclusters : k.clusters = false)
    (hfab : k.fab = false) (hcol : k.col = false) (hcold : k.cold = false) (hboot : k.boot = false) (h : Keeps k m a0) :
    Keeps k m (State.doRefclkReturn a0) := by
  unfold State.doRefclkReturn
  try dsimp only
  repeat' first
    | with_reducible assumption | with_reducible exact Or.inl ‹_› | with_reducible exact Eq.refl _
    | with_reducible exact Or.inr rfl | with_reducible exact Or.inr ⟨rfl, rfl⟩
    | with_reducible exact Or.inr ⟨rfl, rfl, rfl⟩ | intro _ | with_reducible apply State.coldBegin_keeps
    | with_reducible apply State.beginRetrain_keeps | with_reducible apply State.setFld_keeps
    | with_reducible apply keeps_ite | with_reducible apply keeps_foldl | with_reducible apply keeps_ite_fst
    | with_reducible apply keeps_foldl_fst | split | refine keeps_of_fst (by with_reducible assumption) ?_
    | with_reducible apply keeps_upd

theorem State.stageBits_keeps {a0 : State} {a1 : Agent} {a2 : Nat} {a3 a4 : Word} (hstaged : k.staged = false)
    (h : Keeps k m a0) :
    Keeps k m (State.stageBits a0 a1 a2 a3 a4) := by
  unfold State.stageBits
  try dsimp only
  repeat' first
    | with_reducible assumption | with_reducible exact Or.inl ‹_› | with_reducible exact Eq.refl _
    | with_reducible exact Or.inr rfl | with_reducible exact Or.inr ⟨rfl, rfl⟩
    | with_reducible exact Or.inr ⟨rfl, rfl, rfl⟩ | intro _
    | exact (Keeps.good (by with_reducible assumption) (by with_reducible assumption)).regs
    | exact (Keeps.good (by with_reducible assumption) (by with_reducible assumption)).staged
    | exact (Keeps.good (by with_reducible assumption) (by with_reducible assumption)).clusters
    | exact (Keeps.good (by with_reducible assumption) (by with_reducible assumption)).slice
    | exact (Keeps.good (by with_reducible assumption) (by with_reducible assumption)).pad
    | exact (Keeps.good (by with_reducible assumption) (by with_reducible assumption)).sliceFlaw
    | exact (Keeps.good (by with_reducible assumption) (by with_reducible assumption)).padFlaw
    | exact (Keeps.good (by with_reducible assumption) (by with_reducible assumption)).lines
    | exact (Keeps.good (by with_reducible assumption) (by with_reducible assumption)).slots
    | exact (Keeps.good (by with_reducible assumption) (by with_reducible assumption)).flash | exact mwf_nil _
    | with_reducible exact Eq.refl true | with_reducible apply mwf_mset | with_reducible apply mwf_mwrite
    | with_reducible apply mwf_mclear | with_reducible apply mwf_filter | with_reducible apply msorted_mset
    | with_reducible apply msorted_mwrite | with_reducible apply msorted_filter | with_reducible apply keeps_ite
    | with_reducible apply keeps_ite_fst | split | refine keeps_of_fst (by with_reducible assumption) ?_
    | with_reducible apply keeps_all

theorem State.fieldWrite_keeps {a0 : State} {a1 : Agent} {a2 : RegRow} {a3 : Nat} {a4 a5 : Word}
    (hregs : k.regs = false) (hstaged : k.staged = false) (h : Keeps k m a0) :
    Keeps k m (State.fieldWrite a0 a1 a2 a3 a4 a5) := by
  unfold State.fieldWrite
  try dsimp only
  repeat' first
    | with_reducible assumption | with_reducible apply State.stageBits_keeps | with_reducible apply State.setReg_keeps

theorem State.devCommand_keeps {a0 : State} {a1 : Agent} {a2 : Word} (hregs : k.regs = false)
    (hclusters : k.clusters = false) (hslice : k.slice = false) (hpad : k.pad = false) (hfab : k.fab = false)
    (hcol : k.col = false) (hconf : k.conf = false) (hflash : k.flash = false) (hfirm : k.firm = false)
    (hctl : k.ctl = false) (hboot : k.boot = false) (hstaged : k.staged = false) (h : Keeps k m a0) :
    Keeps k m (State.devCommand a0 a1 a2) := by
  unfold State.devCommand
  try dsimp only
  repeat' first
    | with_reducible assumption | with_reducible apply State.doRecoverGraft_keeps
    | with_reducible apply State.doResumeCommand_keeps | with_reducible apply State.doDrainCommand_keeps
    | with_reducible apply State.refuseCmd_keeps | with_reducible apply keeps_ite

theorem State.fwuGo_keeps {a0 : State} {a1 : Agent} (hregs : k.regs = false) (hlines : k.lines = false)
    (hcold : k.cold = false) (hflash : k.flash = false) (hfirm : k.firm = false) (h : Keeps k m a0) :
    Keeps k m (State.fwuGo a0 a1) := by
  unfold State.fwuGo
  try dsimp only
  repeat' first
    | with_reducible assumption | with_reducible apply State.doLaneCal_keeps
    | with_reducible apply State.doConfigWrite_keeps | with_reducible apply State.doReject_keeps
    | with_reducible apply State.doGraft_keeps | with_reducible apply State.doInstall_keeps
    | with_reducible apply State.endFwu_keeps | with_reducible apply keeps_ite | with_reducible apply keeps_ite_fst | split

theorem State.seedCommand_keeps {a0 : State} {a1 : Word} (hregs : k.regs = false) (hflash : k.flash = false)
    (hfirm : k.firm = false) (hboot : k.boot = false) (h : Keeps k m a0) :
    Keeps k m (State.seedCommand a0 a1) := by
  unfold State.seedCommand
  try dsimp only
  repeat' first
    | with_reducible assumption | with_reducible apply State.doSeedAbort_keeps | with_reducible apply State.doSeedEnd_keeps
    | with_reducible apply State.doBlock_keeps | with_reducible apply State.doBegin_keeps | with_reducible apply keeps_ite
    | with_reducible apply keeps_ite_fst | split

theorem State.ownerGo_keeps {a0 : State} {a1 : Agent} (hregs : k.regs = false) (hkeys : k.keys = false)
    (hcold : k.cold = false) (h : Keeps k m a0) :
    Keeps k m (State.ownerGo a0 a1) := by
  unfold State.ownerGo
  try dsimp only
  repeat' first
    | with_reducible assumption | with_reducible apply State.unknownOwner_keeps
    | with_reducible apply State.doClearKtk_keeps | with_reducible apply State.doInstallKtk_keeps
    | with_reducible apply State.doFwAuthorise_keeps | with_reducible apply State.doWipe_keeps
    | with_reducible apply State.doLifecycle_keeps | with_reducible apply State.doSetRoles_keeps
    | with_reducible apply keeps_ite | with_reducible apply keeps_ite_fst | split

theorem State.selftestGo_keeps {a0 : State} {a1 : Agent} (hregs : k.regs = false) (h : Keeps k m a0) :
    Keeps k m (State.selftestGo a0 a1) := by
  unfold State.selftestGo
  try dsimp only
  repeat' first
    | with_reducible assumption | with_reducible apply State.doSelftestController_keeps
    | with_reducible apply State.doSelftestPort_keeps | with_reducible apply State.doSelftestLane_keeps
    | with_reducible apply State.doSelftestCluster_keeps | with_reducible apply State.endTest_keeps
    | with_reducible apply keeps_ite | with_reducible apply keeps_ite_fst | split

theorem State.fabCommand_keeps {a0 : State} {a1 : Word} (hregs : k.regs = false) (hclusters : k.clusters = false)
    (hfab : k.fab = false) (hcol : k.col = false) (h : Keeps k m a0) :
    Keeps k m (State.fabCommand a0 a1) := by
  unfold State.fabCommand
  try dsimp only
  repeat' first
    | with_reducible assumption | with_reducible apply State.doSwap_keeps | with_reducible apply State.doResume_keeps
    | with_reducible apply keeps_ite

theorem State.circCommand_keeps {a0 : State} {a1 : Nat} {a2 : Word} (hregs : k.regs = false) (hfab : k.fab = false)
    (h : Keeps k m a0) :
    Keeps k m (State.circCommand a0 a1 a2) := by
  unfold State.circCommand
  try dsimp only
  repeat' first
    | with_reducible assumption | with_reducible apply State.doCircuitTeardownWrite_keeps
    | with_reducible apply State.doSetup_keeps | with_reducible apply keeps_ite

theorem State.fwuTakeWrite_keeps {a0 : State} {a1 : Agent} (hregs : k.regs = false) (hcold : k.cold = false)
    (hflash : k.flash = false) (hfirm : k.firm = false) (h : Keeps k m a0) :
    Keeps k m (State.fwuTakeWrite a0 a1) := by
  unfold State.fwuTakeWrite
  try dsimp only
  repeat' first
    | with_reducible assumption | with_reducible apply State.take_keeps | with_reducible apply State.addSat_keeps
    | with_reducible apply keeps_ite | with_reducible apply keeps_ite_fst | split

theorem State.loadMax_keeps {a0 : State} {a1 : Nat} (hregs : k.regs = false) (h : Keeps k m a0) :
    Keeps k m (State.loadMax a0 a1) := by
  unfold State.loadMax
  try dsimp only
  repeat' first
    | with_reducible assumption | with_reducible apply State.setFld_keeps

theorem State.shadowWrite_keeps {a0 : State} {a1 : Agent} {a2 : RegRow} {a3 : Nat} {a4 a5 : Word}
    (hregs : k.regs = false) (hstaged : k.staged = false) (h : Keeps k m a0) :
    Keeps k m (State.shadowWrite a0 a1 a2 a3 a4 a5) := by
  unfold State.shadowWrite
  try dsimp only
  repeat' first
    | with_reducible assumption | with_reducible apply State.fieldWrite_keeps | with_reducible apply State.setFld_keeps
    | with_reducible apply keeps_ite

theorem State.writeAction_keeps {a0 : State} {a1 : Agent} {a2 a3 a4 : Nat} {a5 a6 a7 : Word} (hregs : k.regs = false)
    (hclusters : k.clusters = false) (hslice : k.slice = false) (hpad : k.pad = false) (hlines : k.lines = false)
    (hslots : k.slots = false) (htables : k.tables = false) (hkeys : k.keys = false) (hfab : k.fab = false)
    (hcol : k.col = false) (hconf : k.conf = false) (hrepair : k.repair = false) (hcold : k.cold = false)
    (hflash : k.flash = false) (hfirm : k.firm = false) (hctl : k.ctl = false) (hboot : k.boot = false)
    (hstaged : k.staged = false) (h : Keeps k m a0) :
    Keeps k m (State.writeAction a0 a1 a2 a3 a4 a5 a6 a7) := by
  unfold State.writeAction
  try dsimp only
  repeat' first
    | with_reducible assumption | with_reducible apply State.loadMax_keeps | with_reducible apply State.fwuTakeWrite_keeps
    | with_reducible apply State.circCommand_keeps | with_reducible apply State.fabCommand_keeps
    | with_reducible apply State.selftestGo_keeps | with_reducible apply State.ownerGo_keeps
    | with_reducible apply State.seedCommand_keeps | with_reducible apply State.fwuGo_keeps
    | with_reducible apply State.devCommand_keeps | with_reducible apply State.doLogReadSelWrite_keeps
    | with_reducible apply State.doRasSpareCtlGo_keeps | with_reducible apply State.doCommit_keeps
    | with_reducible apply State.powerCmd_keeps | with_reducible apply State.doCringHeadWrite_keeps
    | with_reducible apply State.doTlyAdd_keeps | with_reducible apply State.doCtxPeekSelWrite_keeps
    | with_reducible apply State.doLaneReset_keeps | with_reducible apply State.doFabPortRetrain_keeps
    | with_reducible apply State.doMemMigrateGo_keeps | with_reducible apply State.doMemEvacGo_keeps
    | with_reducible apply State.doMemLaneCtlRetrain_keeps | with_reducible apply keeps_ite
    | with_reducible apply keeps_ite_fst | split

theorem State.openLatch_keeps {a0 : State} {a1 : Agent} {a2 : Nat} {a3 : Bool} (h : Keeps k m a0) :
    Keeps k m (State.openLatch a0 a1 a2 a3) := by
  unfold State.openLatch
  try dsimp only
  repeat' first
    | with_reducible assumption | with_reducible exact Or.inl ‹_› | with_reducible exact Eq.refl _
    | with_reducible exact Or.inr rfl | with_reducible exact Or.inr ⟨rfl, rfl⟩
    | with_reducible exact Or.inr ⟨rfl, rfl, rfl⟩ | with_reducible apply keeps_ite_fst | split
    | refine keeps_of_fst (by with_reducible assumption) ?_ | with_reducible apply keeps_upd

theorem State.doSnapLatchExpiry_keeps {a0 : State} {a1 : Agent} {a2 : Nat} (h : Keeps k m a0) :
    Keeps k m (State.doSnapLatchExpiry a0 a1 a2) := by
  unfold State.doSnapLatchExpiry
  try dsimp only
  repeat' first
    | with_reducible assumption | with_reducible apply State.closeLatch_keeps | with_reducible apply keeps_ite
    | with_reducible apply keeps_ite_fst | split

theorem State.doGlbSnapCtlWrite_keeps {a0 : State} {a1 : Agent} {a2 : Word} (hregs : k.regs = false) (h : Keeps k m a0)
    :
    Keeps k m (State.doGlbSnapCtlWrite a0 a1 a2) := by
  unfold State.doGlbSnapCtlWrite
  try dsimp only
  repeat' first
    | with_reducible assumption | intro _ | with_reducible apply State.openLatch_keeps
    | with_reducible apply State.gate_keeps | with_reducible apply State.closeLatch_keeps | with_reducible apply keeps_ite
    | with_reducible apply keeps_foldl

theorem State.badAccess_keeps {a0 : State} {a1 : Nat} (hregs : k.regs = false) (h : Keeps k m a0) :
    Keeps k m (State.badAccess a0 a1) := by
  unfold State.badAccess
  try dsimp only
  repeat' first
    | with_reducible assumption | with_reducible apply State.raiseEvent_keeps | with_reducible apply State.addSat_keeps

theorem State.latchRead_keeps {a0 : State} {a1 : Agent} {a2 : Nat} {a3 : List Nat} {a4 : Bool} (h : Keeps k m a0) :
    Keeps k m (State.latchRead a0 a1 a2 a3 a4) := by
  unfold State.latchRead
  try dsimp only
  repeat' first
    | with_reducible assumption | with_reducible exact Or.inl ‹_› | with_reducible exact Eq.refl _
    | with_reducible exact Or.inr rfl | with_reducible exact Or.inr ⟨rfl, rfl⟩
    | with_reducible exact Or.inr ⟨rfl, rfl, rfl⟩ | with_reducible apply State.openLatch_keeps
    | with_reducible apply State.closeLatch_keeps | with_reducible apply keeps_ite | with_reducible apply keeps_ite_fst
    | split | refine keeps_of_fst (by with_reducible assumption) ?_ | with_reducible apply keeps_upd

theorem State.doSnapRead_keeps {a0 : State} {a1 : Agent} {a2 a3 : Nat} (h : Keeps k m a0) :
    Keeps k m (State.doSnapRead a0 a1 a2 a3) := by
  unfold State.doSnapRead
  try dsimp only
  repeat' first
    | with_reducible assumption | with_reducible apply State.latchRead_keeps | with_reducible apply State.emit_keeps
    | with_reducible apply keeps_ite | with_reducible apply keeps_ite_fst | split

theorem State.doControlReadOversize_keeps {a0 : State} {a1 a2 : Nat} (hregs : k.regs = false) (h : Keeps k m a0) :
    Keeps k m (State.doControlReadOversize a0 a1 a2) := by
  unfold State.doControlReadOversize
  try dsimp only
  repeat' first
    | with_reducible assumption | with_reducible apply State.badAccess_keeps | with_reducible apply State.emit_keeps
    | with_reducible apply keeps_ite

theorem State.offWrite_keeps {a0 : State} {a1 : Agent} {a2 : RegRow} {a3 : Nat} {a4 a5 : Word} (hregs : k.regs = false)
    (hstaged : k.staged = false) (h : Keeps k m a0) :
    Keeps k m (State.offWrite a0 a1 a2 a3 a4 a5) := by
  unfold State.offWrite
  try dsimp only
  repeat' first
    | with_reducible assumption | with_reducible apply State.stageBits_keeps | with_reducible apply State.addSat_keeps
    | with_reducible apply keeps_ite

theorem State.onWrite_keeps {a0 : State} {a1 : Agent} {a2 : RegRow} {a3 a4 : Nat} {a5 a6 : Word}
    (hregs : k.regs = false) (hclusters : k.clusters = false) (hslice : k.slice = false) (hpad : k.pad = false)
    (hlines : k.lines = false) (hslots : k.slots = false) (htables : k.tables = false) (hkeys : k.keys = false)
    (hfab : k.fab = false) (hcol : k.col = false) (hconf : k.conf = false) (hrepair : k.repair = false)
    (hcold : k.cold = false) (hflash : k.flash = false) (hfirm : k.firm = false) (hctl : k.ctl = false)
    (hboot : k.boot = false) (hstaged : k.staged = false) (h : Keeps k m a0) :
    Keeps k m (State.onWrite a0 a1 a2 a3 a4 a5 a6) := by
  unfold State.onWrite
  try dsimp only
  repeat' first
    | with_reducible assumption | with_reducible apply State.doGlbSnapCtlWrite_keeps
    | with_reducible apply State.writeAction_keeps | with_reducible apply State.shadowWrite_keeps
    | with_reducible apply State.fieldWrite_keeps | with_reducible apply State.doCommitGroup_keeps
    | with_reducible apply State.doReload_keeps | with_reducible apply State.setReg_keeps | with_reducible apply keeps_ite

theorem State.regWrite_keeps {a0 : State} {a1 : Agent} {a2 a3 : Nat} {a4 : Word} (hregs : k.regs = false)
    (hclusters : k.clusters = false) (hslice : k.slice = false) (hpad : k.pad = false) (hlines : k.lines = false)
    (hslots : k.slots = false) (htables : k.tables = false) (hkeys : k.keys = false) (hfab : k.fab = false)
    (hcol : k.col = false) (hconf : k.conf = false) (hrepair : k.repair = false) (hcold : k.cold = false)
    (hflash : k.flash = false) (hfirm : k.firm = false) (hctl : k.ctl = false) (hboot : k.boot = false)
    (hstaged : k.staged = false) (h : Keeps k m a0) :
    Keeps k m (State.regWrite a0 a1 a2 a3 a4) := by
  unfold State.regWrite
  try dsimp only
  repeat' first
    | with_reducible assumption | with_reducible apply State.onWrite_keeps | with_reducible apply State.offWrite_keeps
    | with_reducible apply State.badAccess_keeps | with_reducible apply State.closeLatch_keeps
    | with_reducible apply State.addSat_keeps | with_reducible apply keeps_ite | with_reducible apply keeps_ite_fst | split

theorem State.doRegisterWrite_keeps {a0 : State} {a1 : Agent} {a2 a3 : Nat} {a4 : Word} (hregs : k.regs = false)
    (hclusters : k.clusters = false) (hslice : k.slice = false) (hpad : k.pad = false) (hlines : k.lines = false)
    (hslots : k.slots = false) (htables : k.tables = false) (hkeys : k.keys = false) (hfab : k.fab = false)
    (hcol : k.col = false) (hconf : k.conf = false) (hrepair : k.repair = false) (hcold : k.cold = false)
    (hflash : k.flash = false) (hfirm : k.firm = false) (hctl : k.ctl = false) (hboot : k.boot = false)
    (hstaged : k.staged = false) (h : Keeps k m a0) :
    Keeps k m (State.doRegisterWrite a0 a1 a2 a3 a4) := by
  unfold State.doRegisterWrite
  try dsimp only
  repeat' first
    | with_reducible assumption | with_reducible apply State.regWrite_keeps

theorem State.doTelTempMaxWrite_keeps {a0 : State} {a1 : Agent} {a2 : Nat} (hregs : k.regs = false) (h : Keeps k m a0)
    :
    Keeps k m (State.doTelTempMaxWrite a0 a1 a2) := by
  unfold State.doTelTempMaxWrite
  try dsimp only
  repeat' first
    | with_reducible assumption | intro _ | with_reducible apply State.loadMax_keeps
    | with_reducible apply State.gate_keeps | with_reducible apply keeps_ite

theorem State.reconcile_keeps {a0 : State} {a1 a2 : Nat} (hregs : k.regs = false) (hclusters : k.clusters = false)
    (hslice : k.slice = false) (hpad : k.pad = false) (hlines : k.lines = false) (hslots : k.slots = false)
    (htables : k.tables = false) (hkeys : k.keys = false) (hfab : k.fab = false) (hcol : k.col = false)
    (hconf : k.conf = false) (hrepair : k.repair = false) (hcold : k.cold = false) (hflash : k.flash = false)
    (hfirm : k.firm = false) (hctl : k.ctl = false) (hboot : k.boot = false) (hstaged : k.staged = false)
    (h : Keeps k m a0) :
    Keeps k m (State.reconcile a0 a1 a2) := by
  unfold State.reconcile
  try dsimp only
  repeat' first
    | with_reducible assumption | with_reducible exact Or.inl ‹_› | with_reducible exact Eq.refl _
    | with_reducible exact Or.inr rfl | with_reducible exact Or.inr ⟨rfl, rfl⟩
    | with_reducible exact Or.inr ⟨rfl, rfl, rfl⟩ | with_reducible apply State.regWrite_keeps
    | with_reducible apply keeps_ite | with_reducible apply keeps_ite_fst | split
    | refine keeps_of_fst (by with_reducible assumption) ?_ | with_reducible apply keeps_upd

theorem State.doControllerWrite_keeps {a0 : State} {a1 : Bool} {a2 : BitVec 16} {a3 a4 : Nat} {a5 : Word}
    (hregs : k.regs = false) (hclusters : k.clusters = false) (hslice : k.slice = false) (hpad : k.pad = false)
    (hlines : k.lines = false) (hslots : k.slots = false) (htables : k.tables = false) (hkeys : k.keys = false)
    (hfab : k.fab = false) (hcol : k.col = false) (hconf : k.conf = false) (hrepair : k.repair = false)
    (hcold : k.cold = false) (hflash : k.flash = false) (hfirm : k.firm = false) (hctl : k.ctl = false)
    (hboot : k.boot = false) (hstaged : k.staged = false) (h : Keeps k m a0) :
    Keeps k m (State.doControllerWrite a0 a1 a2 a3 a4 a5) := by
  unfold State.doControllerWrite
  try dsimp only
  repeat' first
    | with_reducible assumption | intro _ | with_reducible apply State.reconcile_keeps
    | with_reducible apply State.regWrite_keeps | with_reducible apply State.ctlWrite_keeps
    | with_reducible apply keeps_ite

theorem State.tapFall_keeps {a0 : State} {a1 : TapState} (htap : k.tap = false) (h : Keeps k m a0) :
    Keeps k m (State.tapFall a0 a1) := by
  unfold State.tapFall
  try dsimp only
  repeat' first
    | with_reducible assumption | with_reducible exact Or.inl ‹_› | with_reducible exact Eq.refl _
    | with_reducible exact Or.inr rfl | with_reducible exact Or.inr ⟨rfl, rfl⟩
    | with_reducible exact Or.inr ⟨rfl, rfl, rfl⟩ | with_reducible apply State.emit_keeps | with_reducible apply keeps_ite
    | with_reducible apply keeps_ite_fst | split | refine keeps_of_fst (by with_reducible assumption) ?_
    | with_reducible apply keeps_upd

theorem State.doTckRisingEdge_keeps {a0 : State} {a1 a2 : Bool} {a3 : List Bool} (htap : k.tap = false)
    (h : Keeps k m a0) :
    Keeps k m (State.doTckRisingEdge a0 a1 a2 a3) := by
  unfold State.doTckRisingEdge
  try dsimp only
  repeat' first
    | with_reducible assumption | with_reducible exact Or.inl ‹_› | with_reducible exact Eq.refl _
    | with_reducible exact Or.inr rfl | with_reducible exact Or.inr ⟨rfl, rfl⟩
    | with_reducible exact Or.inr ⟨rfl, rfl, rfl⟩ | with_reducible apply State.tapFall_keeps
    | with_reducible apply keeps_ite | with_reducible apply keeps_ite_fst | split
    | refine keeps_of_fst (by with_reducible assumption) ?_ | with_reducible apply keeps_upd

theorem State.doTrstN_keeps {a0 : State} {a1 : Bool} (htap : k.tap = false) (h : Keeps k m a0) :
    Keeps k m (State.doTrstN a0 a1) := by
  unfold State.doTrstN
  try dsimp only
  repeat' first
    | with_reducible assumption | with_reducible exact Or.inl ‹_› | with_reducible exact Eq.refl _
    | with_reducible exact Or.inr rfl | with_reducible exact Or.inr ⟨rfl, rfl⟩
    | with_reducible exact Or.inr ⟨rfl, rfl, rfl⟩ | with_reducible apply keeps_ite | with_reducible apply keeps_ite_fst
    | split | refine keeps_of_fst (by with_reducible assumption) ?_ | with_reducible apply keeps_upd

end Sys2Proof.Machine
end

