-- ==== Sys2Proof/Laws/KeepsCommands.lean ====
section
/-! SUPPORT. What each command leaves alone: one lemma per command. -/

namespace Sys2Proof.Machine

open Sys2Proof.Safety

variable {k : Kept} {m : State}

theorem execGovernorUpdate_keeps {a0 : List (List Nat)} {a1 : State} {t : State} (hregs : k.regs = false)
    (h : Keeps k m a1) (e : execGovernorUpdate a0 a1 = .next t) : Keeps k m t := by
  cases e
  repeat' first | with_reducible assumption | with_reducible apply State.doGovernorUpdate_keeps

theorem execGovernorExtraUpdate_keeps {a0 : State} {t : State} (hregs : k.regs = false) (h : Keeps k m a0)
    (e : execGovernorExtraUpdate a0 = .next t) : Keeps k m t := by
  cases e
  repeat' first | with_reducible assumption | with_reducible apply State.doGovernorExtraUpdate_keeps

theorem execDroopStep_keeps {a0 a1 : Nat} {a2 : State} {t : State} (hregs : k.regs = false) (h : Keeps k m a2)
    (e : execDroopStep a0 a1 a2 = .next t) : Keeps k m t := by
  cases e
  repeat' first | with_reducible assumption | with_reducible apply State.doDroopStep_keeps

theorem execDroopRecover_keeps {a0 a1 : Nat} {a2 : State} {t : State} (hregs : k.regs = false) (h : Keeps k m a2)
    (e : execDroopRecover a0 a1 a2 = .next t) : Keeps k m t := by
  cases e
  repeat' first | with_reducible assumption | with_reducible apply State.doDroopRecover_keeps

theorem execCoolantMeasure_keeps {a0 a1 a2 : Nat} {a3 : State} {t : State} (hregs : k.regs = false) (h : Keeps k m a3)
    (e : execCoolantMeasure a0 a1 a2 a3 = .next t) : Keeps k m t := by
  cases e
  repeat' first | with_reducible assumption | with_reducible apply State.doCoolantMeasure_keeps

theorem execSuddenCoolantLoss_keeps {a0 : State} {t : State} (hregs : k.regs = false) (h : Keeps k m a0)
    (e : execSuddenCoolantLoss a0 = .next t) : Keeps k m t := by
  cases e
  repeat' first | with_reducible assumption | with_reducible apply State.doSuddenCoolantLoss_keeps

theorem execCoolantLossClear_keeps {a0 : State} {t : State} (hregs : k.regs = false) (h : Keeps k m a0)
    (e : execCoolantLossClear a0 = .next t) : Keeps k m t := by
  cases e
  repeat' first | with_reducible assumption | with_reducible apply State.doCoolantLossClear_keeps

theorem execCoolFaultNLow_keeps {a0 : State} {t : State} (hregs : k.regs = false) (h : Keeps k m a0)
    (e : execCoolFaultNLow a0 = .next t) : Keeps k m t := by
  cases e
  repeat' first | with_reducible assumption | with_reducible apply State.doCoolFaultNLow_keeps

theorem execCoolFaultNRelease_keeps {a0 : State} {t : State} (hregs : k.regs = false) (h : Keeps k m a0)
    (e : execCoolFaultNRelease a0 = .next t) : Keeps k m t := by
  cases e
  repeat' first | with_reducible assumption | with_reducible apply State.doCoolFaultNRelease_keeps

theorem execPwrWarnNLow_keeps {a0 : State} {t : State} (hregs : k.regs = false) (h : Keeps k m a0)
    (e : execPwrWarnNLow a0 = .next t) : Keeps k m t := by
  cases e
  repeat' first | with_reducible assumption | with_reducible apply State.doPwrWarnNLow_keeps

theorem execPwrWarnNRelease_keeps {a0 : State} {t : State} (hregs : k.regs = false) (h : Keeps k m a0)
    (e : execPwrWarnNRelease a0 = .next t) : Keeps k m t := by
  cases e
  repeat' first | with_reducible assumption | with_reducible apply State.doPwrWarnNRelease_keeps

theorem execRackHeartbeatLost_keeps {a0 : State} {t : State} (hregs : k.regs = false) (h : Keeps k m a0)
    (e : execRackHeartbeatLost a0 = .next t) : Keeps k m t := by
  cases e
  repeat' first | with_reducible assumption | with_reducible apply State.doRackHeartbeatLost_keeps

theorem execMulchControl_keeps {a0 : State} {t : State} (hregs : k.regs = false) (h : Keeps k m a0)
    (e : execMulchControl a0 = .next t) : Keeps k m t := by
  cases e
  repeat' first | with_reducible assumption | with_reducible apply State.doMulchControl_keeps

theorem execMulchLow_keeps {a0 : State} {t : State} (hregs : k.regs = false) (h : Keeps k m a0)
    (e : execMulchLow a0 = .next t) : Keeps k m t := by
  cases e
  repeat' first | with_reducible assumption | with_reducible apply State.doMulchLow_keeps

theorem execMemLaneRetrain_keeps {a0 : Nat} {a1 : State} {t : State} (hregs : k.regs = false)
    (hclusters : k.clusters = false) (hfab : k.fab = false) (hcol : k.col = false) (h : Keeps k m a1)
    (e : execMemLaneRetrain a0 a1 = .next t) : Keeps k m t := by
  cases e
  repeat' first | with_reducible assumption | with_reducible apply State.doMemLaneRetrain_keeps

theorem execMemLaneCtlRetrain_keeps {a0 : Nat} {a1 : State} {t : State} (hregs : k.regs = false)
    (hclusters : k.clusters = false) (hfab : k.fab = false) (hcol : k.col = false) (h : Keeps k m a1)
    (e : execMemLaneCtlRetrain a0 a1 = .next t) : Keeps k m t := by
  cases e
  repeat' first | with_reducible assumption | with_reducible apply State.doMemLaneCtlRetrain_keeps

theorem execMemoryReplyTimeout_keeps {a0 : Nat} {a1 : State} {t : State} (hregs : k.regs = false)
    (hclusters : k.clusters = false) (hfab : k.fab = false) (hcol : k.col = false) (h : Keeps k m a1)
    (e : execMemoryReplyTimeout a0 a1 = .next t) : Keeps k m t := by
  cases e
  repeat' first | with_reducible assumption | with_reducible apply State.doMemoryReplyTimeout_keeps

theorem execMemLaneUp_keeps {a0 : Nat} {a1 : BridgeReport} {a2 : State} {t : State} (hregs : k.regs = false)
    (hclusters : k.clusters = false) (hlines : k.lines = false) (hfab : k.fab = false) (hcol : k.col = false)
    (h : Keeps k m a2) (e : execMemLaneUp a0 a1 a2 = .next t) : Keeps k m t := by
  cases e
  repeat' first | with_reducible assumption | with_reducible apply State.doMemLaneUp_keeps

theorem execMemOpticalLaneFail_keeps {a0 : Nat} {a1 : OpticalLane} {a2 : State} {t : State} (hregs : k.regs = false)
    (hclusters : k.clusters = false) (hfab : k.fab = false) (hcol : k.col = false) (hrepair : k.repair = false)
    (h : Keeps k m a2) (e : execMemOpticalLaneFail a0 a1 a2 = .next t) : Keeps k m t := by
  cases e
  repeat' first | with_reducible assumption | with_reducible apply State.doMemOpticalLaneFail_keeps

theorem execMemSpareDone_keeps {a0 : Nat} {a1 : State} {t : State} (hregs : k.regs = false) (hlines : k.lines = false)
    (h : Keeps k m a1) (e : execMemSpareDone a0 a1 = .next t) : Keeps k m t := by
  cases e
  repeat' first | with_reducible assumption | with_reducible apply State.doMemSpareDone_keeps

theorem execMemEvacGo_keeps {a0 : Nat} {a1 : State} {t : State} (hregs : k.regs = false) (hrepair : k.repair = false)
    (h : Keeps k m a1) (e : execMemEvacGo a0 a1 = .next t) : Keeps k m t := by
  cases e
  repeat' first | with_reducible assumption | with_reducible apply State.doMemEvacGo_keeps

theorem execMemMigrateGo_keeps {a0 : Nat} {a1 : State} {t : State} (hregs : k.regs = false)
    (hrepair : k.repair = false) (h : Keeps k m a1) (e : execMemMigrateGo a0 a1 = .next t) : Keeps k m t := by
  cases e
  repeat' first | with_reducible assumption | with_reducible apply State.doMemMigrateGo_keeps

theorem execEvacPageCopied_keeps {a0 : State} {t : State} (hregs : k.regs = false) (hlines : k.lines = false)
    (h : Keeps k m a0) (e : execEvacPageCopied a0 = .next t) : Keeps k m t := by
  cases e
  repeat' first | with_reducible assumption | with_reducible apply State.doEvacPageCopied_keeps

theorem execEvacPageDone_keeps {a0 : State} {t : State} (hregs : k.regs = false) (hrepair : k.repair = false)
    (h : Keeps k m a0) (e : execEvacPageDone a0 = .next t) : Keeps k m t := by
  cases e
  repeat' first | with_reducible assumption | with_reducible apply State.doEvacPageDone_keeps

theorem execMemGroupReceive_keeps {a0 a1 : Nat} {a2 : Bool} {a3 : State} {t : State} (hregs : k.regs = false)
    (hclusters : k.clusters = false) (hlines : k.lines = false) (hkeys : k.keys = false) (hfab : k.fab = false)
    (hcol : k.col = false) (hrepair : k.repair = false) (h : Keeps k m a3) (e : execMemGroupReceive a0 a1 a2 a3 = .next t)
    : Keeps k m t := by
  cases e
  repeat' first | with_reducible assumption | with_reducible apply State.doMemGroupReceive_keeps

theorem execPageFillDone_keeps {a0 : Nat} {a1 : State} {t : State} (hregs : k.regs = false) (hlines : k.lines = false)
    (h : Keeps k m a1) (e : execPageFillDone a0 a1 = .next t) : Keeps k m t := by
  cases e
  repeat' first | with_reducible assumption | with_reducible apply State.doPageFillDone_keeps

theorem execMirrorResyncDone_keeps {a0 : Nat} {a1 : State} {t : State} (hregs : k.regs = false)
    (hlines : k.lines = false) (h : Keeps k m a1) (e : execMirrorResyncDone a0 a1 = .next t) : Keeps k m t := by
  cases e
  repeat' first | with_reducible assumption | with_reducible apply State.doMirrorResyncDone_keeps

theorem execTierScrubRead_keeps {a0 : Nat} {a1 : State} {t : State} (hregs : k.regs = false) (hlines : k.lines = false)
    (hrepair : k.repair = false) (h : Keeps k m a1) (e : execTierScrubRead a0 a1 = .next t) : Keeps k m t := by
  cases e
  repeat' first
    | with_reducible assumption | with_reducible apply State.doTierScrubRead_keeps
    | with_reducible apply State.runDueEvac_keeps

theorem execPortLossOfLight_keeps {a0 : Nat} {a1 : State} {t : State} (hregs : k.regs = false)
    (hclusters : k.clusters = false) (hfab : k.fab = false) (hcol : k.col = false) (h : Keeps k m a1)
    (e : execPortLossOfLight a0 a1 = .next t) : Keeps k m t := by
  cases e
  repeat' first | with_reducible assumption | with_reducible apply State.doPortLossOfLight_keeps

theorem execResetNotice_keeps {a0 a1 : Nat} {a2 : State} {t : State} (hregs : k.regs = false)
    (hclusters : k.clusters = false) (hfab : k.fab = false) (hcol : k.col = false) (h : Keeps k m a2)
    (e : execResetNotice a0 a1 a2 = .next t) : Keeps k m t := by
  cases e
  repeat' first | with_reducible assumption | with_reducible apply State.doResetNotice_keeps

theorem execPortDark_keeps {a0 : Nat} {a1 : State} {t : State} (hregs : k.regs = false)
    (hclusters : k.clusters = false) (hfab : k.fab = false) (hcol : k.col = false) (h : Keeps k m a1)
    (e : execPortDark a0 a1 = .next t) : Keeps k m t := by
  cases e
  repeat' first | with_reducible assumption | with_reducible apply State.doPortDark_keeps

theorem execPortRetrain_keeps {a0 : Nat} {a1 : State} {t : State} (hregs : k.regs = false)
    (hclusters : k.clusters = false) (hfab : k.fab = false) (hcol : k.col = false) (h : Keeps k m a1)
    (e : execPortRetrain a0 a1 = .next t) : Keeps k m t := by
  cases e
  repeat' first | with_reducible assumption | with_reducible apply State.doPortRetrain_keeps

theorem execFabPortRetrain_keeps {a0 : Nat} {a1 : State} {t : State} (hregs : k.regs = false) (hfab : k.fab = false)
    (h : Keeps k m a1) (e : execFabPortRetrain a0 a1 = .next t) : Keeps k m t := by
  cases e
  repeat' first | with_reducible assumption | with_reducible apply State.doFabPortRetrain_keeps

theorem execPortRetryTimer_keeps {a0 : Nat} {a1 : State} {t : State} (hregs : k.regs = false)
    (hclusters : k.clusters = false) (hfab : k.fab = false) (hcol : k.col = false) (h : Keeps k m a1)
    (e : execPortRetryTimer a0 a1 = .next t) : Keeps k m t := by
  cases e
  repeat' first | with_reducible assumption | with_reducible apply State.doPortRetryTimer_keeps

theorem execLightReturns_keeps {a0 : Nat} {a1 : State} {t : State} (hregs : k.regs = false)
    (hclusters : k.clusters = false) (hfab : k.fab = false) (hcol : k.col = false) (h : Keeps k m a1)
    (e : execLightReturns a0 a1 = .next t) : Keeps k m t := by
  cases e
  repeat' first | with_reducible assumption | with_reducible apply State.doLightReturns_keeps

theorem execPortUp_keeps {a0 : Nat} {a1 : State} {t : State} (hregs : k.regs = false) (hfab : k.fab = false)
    (h : Keeps k m a1) (e : execPortUp a0 a1 = .next t) : Keeps k m t := by
  cases e
  repeat' first | with_reducible assumption | with_reducible apply State.doPortUp_keeps

theorem execHello_keeps {a0 : Nat} {a1 : HelloMsg} {a2 : State} {t : State} (hregs : k.regs = false)
    (hfab : k.fab = false) (h : Keeps k m a2) (e : execHello a0 a1 a2 = .next t) : Keeps k m t := by
  cases e
  repeat' first | with_reducible assumption | with_reducible apply State.doHello_keeps

theorem execDiscoveryEnd_keeps {a0 : State} {t : State} (hregs : k.regs = false) (hclusters : k.clusters = false)
    (hfab : k.fab = false) (hcol : k.col = false) (h : Keeps k m a0) (e : execDiscoveryEnd a0 = .next t) : Keeps k m t := by
  cases e
  repeat' first | with_reducible assumption | with_reducible apply State.doDiscoveryEnd_keeps

theorem execResume_keeps {a0 : State} {t : State} (hregs : k.regs = false) (hclusters : k.clusters = false)
    (hfab : k.fab = false) (hcol : k.col = false) (h : Keeps k m a0) (e : execResume a0 = .next t) : Keeps k m t := by
  cases e
  repeat' first | with_reducible assumption | with_reducible apply State.doResume_keeps

theorem execFabLaneFail_keeps {a0 : Nat} {a1 : OpticalLane} {a2 : State} {t : State} (hregs : k.regs = false)
    (hclusters : k.clusters = false) (hfab : k.fab = false) (hcol : k.col = false) (hrepair : k.repair = false)
    (h : Keeps k m a2) (e : execFabLaneFail a0 a1 a2 = .next t) : Keeps k m t := by
  cases e
  repeat' first | with_reducible assumption | with_reducible apply State.doFabLaneFail_keeps

theorem execFabSpareDone_keeps {a0 : Nat} {a1 : State} {t : State} (hregs : k.regs = false) (hfab : k.fab = false)
    (h : Keeps k m a1) (e : execFabSpareDone a0 a1 = .next t) : Keeps k m t := by
  cases e
  repeat' first | with_reducible assumption | with_reducible apply State.doFabSpareDone_keeps

theorem execLaneChange_keeps {a0 : Nat} {a1 : List Nat} {a2 : State} {t : State} (hregs : k.regs = false)
    (hclusters : k.clusters = false) (hfab : k.fab = false) (hcol : k.col = false) (hrepair : k.repair = false)
    (h : Keeps k m a2) (e : execLaneChange a0 a1 a2 = .next t) : Keeps k m t := by
  cases e
  repeat' first | with_reducible assumption | with_reducible apply State.doLaneChange_keeps

theorem execFabricFrameReceive_keeps {a0 : Nat} {a1 : BitVec 256} {a2 : Bool} {a3 : State} {t : State}
    (hfab : k.fab = false) (h : Keeps k m a3) (e : execFabricFrameReceive a0 a1 a2 a3 = .next t) : Keeps k m t := by
  cases e
  repeat' first | with_reducible assumption | with_reducible apply State.doFabricFrameReceive_keeps

theorem execPacketForward_keeps {a0 : Nat} {a1 : Packet} {a2 : State} {t : State} (hregs : k.regs = false)
    (hfab : k.fab = false) (h : Keeps k m a2) (e : execPacketForward a0 a1 a2 = .next t) : Keeps k m t := by
  cases e
  repeat' first | with_reducible assumption | with_reducible apply State.doPacketForward_keeps

theorem execWrite_keeps {a0 : Nat} {a1 : Packet} {a2 : State} {t : State} (hregs : k.regs = false)
    (hlines : k.lines = false) (hkeys : k.keys = false) (hfab : k.fab = false) (h : Keeps k m a2)
    (e : execWrite a0 a1 a2 = .next t) : Keeps k m t := by
  cases e
  repeat' first | with_reducible assumption | with_reducible apply State.doWrite_keeps

theorem execTadd_keeps {a0 : Nat} {a1 : Packet} {a2 : State} {t : State} (hregs : k.regs = false)
    (hfab : k.fab = false) (h : Keeps k m a2) (e : execTadd a0 a1 a2 = .next t) : Keeps k m t := by
  cases e
  repeat' first | with_reducible assumption | with_reducible apply State.doTadd_keeps

theorem execCircSetup_keeps {a0 : Nat} {a1 : Packet} {a2 : State} {t : State} (hregs : k.regs = false)
    (hfab : k.fab = false) (h : Keeps k m a2) (e : execCircSetup a0 a1 a2 = .next t) : Keeps k m t := by
  cases e
  repeat' first | with_reducible assumption | with_reducible apply State.doCircSetup_keeps

theorem execCircTeardown_keeps {a0 : Nat} {a1 : Packet} {a2 : State} {t : State} (hregs : k.regs = false)
    (hfab : k.fab = false) (h : Keeps k m a2) (e : execCircTeardown a0 a1 a2 = .next t) : Keeps k m t := by
  cases e
  repeat' first | with_reducible assumption | with_reducible apply State.doCircTeardown_keeps

theorem execSetup_keeps {a0 : Nat} {a1 : State} {t : State} (hregs : k.regs = false) (hfab : k.fab = false)
    (h : Keeps k m a1) (e : execSetup a0 a1 = .next t) : Keeps k m t := by
  cases e
  repeat' first | with_reducible assumption | with_reducible apply State.doSetup_keeps

theorem execCircuitTeardownWrite_keeps {a0 : Nat} {a1 : State} {t : State} (hregs : k.regs = false)
    (hfab : k.fab = false) (h : Keeps k m a1) (e : execCircuitTeardownWrite a0 a1 = .next t) : Keeps k m t := by
  cases e
  repeat' first | with_reducible assumption | with_reducible apply State.doCircuitTeardownWrite_keeps

theorem execAck_keeps {a0 : Nat} {a1 : Packet} {a2 : State} {t : State} (hregs : k.regs = false)
    (hclusters : k.clusters = false) (hfab : k.fab = false) (hcol : k.col = false) (h : Keeps k m a2)
    (e : execAck a0 a1 a2 = .next t) : Keeps k m t := by
  cases e
  repeat' first | with_reducible assumption | with_reducible apply State.doAck_keeps

theorem execReplyTimeout_keeps {a0 : Nat} {a1 : State} {t : State} (hregs : k.regs = false)
    (hclusters : k.clusters = false) (hfab : k.fab = false) (hcol : k.col = false) (h : Keeps k m a1)
    (e : execReplyTimeout a0 a1 = .next t) : Keeps k m t := by
  cases e
  repeat' first | with_reducible assumption | with_reducible apply State.doReplyTimeout_keeps

theorem execTagReuseExpiry_keeps {a0 : Nat} {a1 : State} {t : State} (hregs : k.regs = false) (hfab : k.fab = false)
    (h : Keeps k m a1) (e : execTagReuseExpiry a0 a1 = .next t) : Keeps k m t := by
  cases e
  repeat' first | with_reducible assumption | with_reducible apply State.doTagReuseExpiry_keeps

theorem execSwap_keeps {a0 : State} {t : State} (hregs : k.regs = false) (hfab : k.fab = false) (h : Keeps k m a0)
    (e : execSwap a0 = .next t) : Keeps k m t := by
  cases e
  repeat' first | with_reducible assumption | with_reducible apply State.doSwap_keeps

theorem execGraceExpiry_keeps {a0 : State} {t : State} (hregs : k.regs = false) (h : Keeps k m a0)
    (e : execGraceExpiry a0 = .next t) : Keeps k m t := by
  cases e
  repeat' first | with_reducible assumption | with_reducible apply State.doGraceExpiry_keeps

theorem execPortDrainEnd_keeps {a0 : Nat} {a1 : State} {t : State} (hregs : k.regs = false) (hfab : k.fab = false)
    (h : Keeps k m a1) (e : execPortDrainEnd a0 a1 = .next t) : Keeps k m t := by
  cases e
  repeat' first | with_reducible assumption | with_reducible apply State.doPortDrainEnd_keeps

theorem execCollectiveReady_keeps {a0 : Nat} {a1 : State} {t : State} (hregs : k.regs = false)
    (hclusters : k.clusters = false) (hfab : k.fab = false) (hcol : k.col = false) (h : Keeps k m a1)
    (e : execCollectiveReady a0 a1 = .next t) : Keeps k m t := by
  cases e
  repeat' first | with_reducible assumption | with_reducible apply State.doCollectiveReady_keeps

theorem execCollectiveComplete_keeps {a0 : Nat} {a1 : State} {t : State} (hregs : k.regs = false)
    (hclusters : k.clusters = false) (hcol : k.col = false) (h : Keeps k m a1) (e : execCollectiveComplete a0 a1 = .next t)
    : Keeps k m t := by
  cases e
  repeat' first | with_reducible assumption | with_reducible apply State.doCollectiveComplete_keeps

theorem execOrderTimeout_keeps {a0 : State} {t : State} (hregs : k.regs = false) (hclusters : k.clusters = false)
    (hfab : k.fab = false) (hcol : k.col = false) (h : Keeps k m a0) (e : execOrderTimeout a0 = .next t) : Keeps k m t := by
  cases e
  repeat' first | with_reducible assumption | with_reducible apply State.doOrderTimeout_keeps

theorem execReadyResend_keeps {a0 : Nat} {a1 : State} {t : State} (hregs : k.regs = false) (hfab : k.fab = false)
    (hcol : k.col = false) (h : Keeps k m a1) (e : execReadyResend a0 a1 = .next t) : Keeps k m t := by
  cases e
  repeat' first | with_reducible assumption | with_reducible apply State.doReadyResend_keeps

theorem execEnter_keeps {a0 : Nat} {a1 : Packet} {a2 : State} {t : State} (hregs : k.regs = false)
    (hclusters : k.clusters = false) (hfab : k.fab = false) (hcol : k.col = false) (h : Keeps k m a2)
    (e : execEnter a0 a1 a2 = .next t) : Keeps k m t := by
  cases e
  repeat' first | with_reducible assumption | with_reducible apply State.doEnter_keeps

theorem execReady_keeps {a0 : Nat} {a1 : Packet} {a2 : State} {t : State} (hregs : k.regs = false)
    (hfab : k.fab = false) (hcol : k.col = false) (h : Keeps k m a2) (e : execReady a0 a1 a2 = .next t) : Keeps k m t := by
  cases e
  repeat' first | with_reducible assumption | with_reducible apply State.doReady_keeps

theorem execAbort_keeps {a0 : Nat} {a1 : Packet} {a2 : State} {t : State} (hregs : k.regs = false)
    (hclusters : k.clusters = false) (hfab : k.fab = false) (hcol : k.col = false) (h : Keeps k m a2)
    (e : execAbort a0 a1 a2 = .next t) : Keeps k m t := by
  cases e
  repeat' first | with_reducible assumption | with_reducible apply State.doAbort_keeps

theorem execEnterRetry_keeps {a0 a1 : Nat} {a2 : State} {t : State} (hregs : k.regs = false) (hfab : k.fab = false)
    (hcol : k.col = false) (h : Keeps k m a2) (e : execEnterRetry a0 a1 a2 = .next t) : Keeps k m t := by
  cases e
  repeat' first | with_reducible assumption | with_reducible apply State.doEnterRetry_keeps

theorem execDescriptorStart_keeps {a0 : Nat} {a1 : Engine} {a2 : State} {t : State} (hregs : k.regs = false)
    (hclusters : k.clusters = false) (hslice : k.slice = false) (hpad : k.pad = false) (hlines : k.lines = false)
    (hkeys : k.keys = false) (hfab : k.fab = false) (hcol : k.col = false) (h : Keeps k m a2)
    (e : execDescriptorStart a0 a1 a2 = .next t) : Keeps k m t := by
  cases e
  repeat' first | with_reducible assumption | with_reducible apply State.doDescriptorStart_keeps

theorem execDescriptorComplete_keeps {a0 a1 : Nat} {a2 : State} {t : State} (hregs : k.regs = false)
    (hclusters : k.clusters = false) (hslice : k.slice = false) (hpad : k.pad = false) (h : Keeps k m a2)
    (e : execDescriptorComplete a0 a1 a2 = .next t) : Keeps k m t := by
  cases e
  repeat' first | with_reducible assumption | with_reducible apply State.doDescriptorComplete_keeps

theorem execHubTallySignalLand_keeps {a0 a1 : Nat} {a2 : State} {t : State} (hregs : k.regs = false)
    (hclusters : k.clusters = false) (h : Keeps k m a2) (e : execHubTallySignalLand a0 a1 a2 = .next t) : Keeps k m t := by
  cases e
  repeat' first | with_reducible assumption | with_reducible apply State.doHubTallySignalLand_keeps

theorem execWload_keeps {a0 : Nat} {a1 : State} {t : State} (hregs : k.regs = false) (hclusters : k.clusters = false)
    (hslice : k.slice = false) (hpad : k.pad = false) (hlines : k.lines = false) (hkeys : k.keys = false)
    (hfab : k.fab = false) (hcol : k.col = false) (h : Keeps k m a1) (e : execWload a0 a1 = .next t) : Keeps k m t := by
  cases e
  repeat' first | with_reducible assumption | with_reducible apply State.issueDesc_keeps

theorem execMma_keeps {a0 : Nat} {a1 : State} {t : State} (hregs : k.regs = false) (hclusters : k.clusters = false)
    (hslice : k.slice = false) (hpad : k.pad = false) (hlines : k.lines = false) (hkeys : k.keys = false)
    (hfab : k.fab = false) (hcol : k.col = false) (h : Keeps k m a1) (e : execMma a0 a1 = .next t) : Keeps k m t := by
  cases e
  repeat' first | with_reducible assumption | with_reducible apply State.issueDesc_keeps

theorem execMmaMerge_keeps {a0 : Nat} {a1 : State} {t : State} (hregs : k.regs = false)
    (hclusters : k.clusters = false) (hslice : k.slice = false) (hpad : k.pad = false) (hlines : k.lines = false)
    (hkeys : k.keys = false) (hfab : k.fab = false) (hcol : k.col = false) (h : Keeps k m a1)
    (e : execMmaMerge a0 a1 = .next t) : Keeps k m t := by
  cases e
  repeat' first | with_reducible assumption | with_reducible apply State.issueDesc_keeps

theorem execMmaAdapt_keeps {a0 : Nat} {a1 : State} {t : State} (hregs : k.regs = false)
    (hclusters : k.clusters = false) (hslice : k.slice = false) (hpad : k.pad = false) (hlines : k.lines = false)
    (hkeys : k.keys = false) (hfab : k.fab = false) (hcol : k.col = false) (h : Keeps k m a1)
    (e : execMmaAdapt a0 a1 = .next t) : Keeps k m t := by
  cases e
  repeat' first | with_reducible assumption | with_reducible apply State.issueDesc_keeps

theorem execDrain_keeps {a0 : Nat} {a1 : State} {t : State} (hregs : k.regs = false) (hclusters : k.clusters = false)
    (hslice : k.slice = false) (hpad : k.pad = false) (hlines : k.lines = false) (hkeys : k.keys = false)
    (hfab : k.fab = false) (hcol : k.col = false) (h : Keeps k m a1) (e : execDrain a0 a1 = .next t) : Keeps k m t := by
  cases e
  repeat' first | with_reducible assumption | with_reducible apply State.issueDesc_keeps

theorem execAccClear_keeps {a0 : Nat} {a1 : State} {t : State} (hregs : k.regs = false)
    (hclusters : k.clusters = false) (hslice : k.slice = false) (hpad : k.pad = false) (hlines : k.lines = false)
    (hkeys : k.keys = false) (hfab : k.fab = false) (hcol : k.col = false) (h : Keeps k m a1)
    (e : execAccClear a0 a1 = .next t) : Keeps k m t := by
  cases e
  repeat' first | with_reducible assumption | with_reducible apply State.issueDesc_keeps

theorem execAccScale_keeps {a0 : Nat} {a1 : State} {t : State} (hregs : k.regs = false)
    (hclusters : k.clusters = false) (hslice : k.slice = false) (hpad : k.pad = false) (hlines : k.lines = false)
    (hkeys : k.keys = false) (hfab : k.fab = false) (hcol : k.col = false) (h : Keeps k m a1)
    (e : execAccScale a0 a1 = .next t) : Keeps k m t := by
  cases e
  repeat' first | with_reducible assumption | with_reducible apply State.issueDesc_keeps

theorem execVadd_keeps {a0 : Nat} {a1 : State} {t : State} (hregs : k.regs = false) (hclusters : k.clusters = false)
    (hslice : k.slice = false) (hpad : k.pad = false) (hlines : k.lines = false) (hkeys : k.keys = false)
    (hfab : k.fab = false) (hcol : k.col = false) (h : Keeps k m a1) (e : execVadd a0 a1 = .next t) : Keeps k m t := by
  cases e
  repeat' first | with_reducible assumption | with_reducible apply State.issueDesc_keeps

theorem execVmul_keeps {a0 : Nat} {a1 : State} {t : State} (hregs : k.regs = false) (hclusters : k.clusters = false)
    (hslice : k.slice = false) (hpad : k.pad = false) (hlines : k.lines = false) (hkeys : k.keys = false)
    (hfab : k.fab = false) (hcol : k.col = false) (h : Keeps k m a1) (e : execVmul a0 a1 = .next t) : Keeps k m t := by
  cases e
  repeat' first | with_reducible assumption | with_reducible apply State.issueDesc_keeps

theorem execVfma_keeps {a0 : Nat} {a1 : State} {t : State} (hregs : k.regs = false) (hclusters : k.clusters = false)
    (hslice : k.slice = false) (hpad : k.pad = false) (hlines : k.lines = false) (hkeys : k.keys = false)
    (hfab : k.fab = false) (hcol : k.col = false) (h : Keeps k m a1) (e : execVfma a0 a1 = .next t) : Keeps k m t := by
  cases e
  repeat' first | with_reducible assumption | with_reducible apply State.issueDesc_keeps

theorem execVmax_keeps {a0 : Nat} {a1 : State} {t : State} (hregs : k.regs = false) (hclusters : k.clusters = false)
    (hslice : k.slice = false) (hpad : k.pad = false) (hlines : k.lines = false) (hkeys : k.keys = false)
    (hfab : k.fab = false) (hcol : k.col = false) (h : Keeps k m a1) (e : execVmax a0 a1 = .next t) : Keeps k m t := by
  cases e
  repeat' first | with_reducible assumption | with_reducible apply State.issueDesc_keeps

theorem execVmin_keeps {a0 : Nat} {a1 : State} {t : State} (hregs : k.regs = false) (hclusters : k.clusters = false)
    (hslice : k.slice = false) (hpad : k.pad = false) (hlines : k.lines = false) (hkeys : k.keys = false)
    (hfab : k.fab = false) (hcol : k.col = false) (h : Keeps k m a1) (e : execVmin a0 a1 = .next t) : Keeps k m t := by
  cases e
  repeat' first | with_reducible assumption | with_reducible apply State.issueDesc_keeps

theorem execVcmp_keeps {a0 : Nat} {a1 : State} {t : State} (hregs : k.regs = false) (hclusters : k.clusters = false)
    (hslice : k.slice = false) (hpad : k.pad = false) (hlines : k.lines = false) (hkeys : k.keys = false)
    (hfab : k.fab = false) (hcol : k.col = false) (h : Keeps k m a1) (e : execVcmp a0 a1 = .next t) : Keeps k m t := by
  cases e
  repeat' first | with_reducible assumption | with_reducible apply State.issueDesc_keeps

theorem execVselect_keeps {a0 : Nat} {a1 : State} {t : State} (hregs : k.regs = false) (hclusters : k.clusters = false)
    (hslice : k.slice = false) (hpad : k.pad = false) (hlines : k.lines = false) (hkeys : k.keys = false)
    (hfab : k.fab = false) (hcol : k.col = false) (h : Keeps k m a1) (e : execVselect a0 a1 = .next t) : Keeps k m t := by
  cases e
  repeat' first | with_reducible assumption | with_reducible apply State.issueDesc_keeps

theorem execVcvt_keeps {a0 : Nat} {a1 : State} {t : State} (hregs : k.regs = false) (hclusters : k.clusters = false)
    (hslice : k.slice = false) (hpad : k.pad = false) (hlines : k.lines = false) (hkeys : k.keys = false)
    (hfab : k.fab = false) (hcol : k.col = false) (h : Keeps k m a1) (e : execVcvt a0 a1 = .next t) : Keeps k m t := by
  cases e
  repeat' first | with_reducible assumption | with_reducible apply State.issueDesc_keeps

theorem execVsfuExp_keeps {a0 : Nat} {a1 : State} {t : State} (hregs : k.regs = false) (hclusters : k.clusters = false)
    (hslice : k.slice = false) (hpad : k.pad = false) (hlines : k.lines = false) (hkeys : k.keys = false)
    (hfab : k.fab = false) (hcol : k.col = false) (h : Keeps k m a1) (e : execVsfuExp a0 a1 = .next t) : Keeps k m t := by
  cases e
  repeat' first | with_reducible assumption | with_reducible apply State.issueDesc_keeps

theorem execVsfuLog_keeps {a0 : Nat} {a1 : State} {t : State} (hregs : k.regs = false) (hclusters : k.clusters = false)
    (hslice : k.slice = false) (hpad : k.pad = false) (hlines : k.lines = false) (hkeys : k.keys = false)
    (hfab : k.fab = false) (hcol : k.col = false) (h : Keeps k m a1) (e : execVsfuLog a0 a1 = .next t) : Keeps k m t := by
  cases e
  repeat' first | with_reducible assumption | with_reducible apply State.issueDesc_keeps

theorem execVsfuReciprocal_keeps {a0 : Nat} {a1 : State} {t : State} (hregs : k.regs = false)
    (hclusters : k.clusters = false) (hslice : k.slice = false) (hpad : k.pad = false) (hlines : k.lines = false)
    (hkeys : k.keys = false) (hfab : k.fab = false) (hcol : k.col = false) (h : Keeps k m a1)
    (e : execVsfuReciprocal a0 a1 = .next t) : Keeps k m t := by
  cases e
  repeat' first | with_reducible assumption | with_reducible apply State.issueDesc_keeps

theorem execVsfuRsqrt_keeps {a0 : Nat} {a1 : State} {t : State} (hregs : k.regs = false)
    (hclusters : k.clusters = false) (hslice : k.slice = false) (hpad : k.pad = false) (hlines : k.lines = false)
    (hkeys : k.keys = false) (hfab : k.fab = false) (hcol : k.col = false) (h : Keeps k m a1)
    (e : execVsfuRsqrt a0 a1 = .next t) : Keeps k m t := by
  cases e
  repeat' first | with_reducible assumption | with_reducible apply State.issueDesc_keeps

theorem execVsfuTanh_keeps {a0 : Nat} {a1 : State} {t : State} (hregs : k.regs = false)
    (hclusters : k.clusters = false) (hslice : k.slice = false) (hpad : k.pad = false) (hlines : k.lines = false)
    (hkeys : k.keys = false) (hfab : k.fab = false) (hcol : k.col = false) (h : Keeps k m a1)
    (e : execVsfuTanh a0 a1 = .next t) : Keeps k m t := by
  cases e
  repeat' first | with_reducible assumption | with_reducible apply State.issueDesc_keeps

theorem execVsfuSigmoid_keeps {a0 : Nat} {a1 : State} {t : State} (hregs : k.regs = false)
    (hclusters : k.clusters = false) (hslice : k.slice = false) (hpad : k.pad = false) (hlines : k.lines = false)
    (hkeys : k.keys = false) (hfab : k.fab = false) (hcol : k.col = false) (h : Keeps k m a1)
    (e : execVsfuSigmoid a0 a1 = .next t) : Keeps k m t := by
  cases e
  repeat' first | with_reducible assumption | with_reducible apply State.issueDesc_keeps

theorem execVsfuGelu_keeps {a0 : Nat} {a1 : State} {t : State} (hregs : k.regs = false)
    (hclusters : k.clusters = false) (hslice : k.slice = false) (hpad : k.pad = false) (hlines : k.lines = false)
    (hkeys : k.keys = false) (hfab : k.fab = false) (hcol : k.col = false) (h : Keeps k m a1)
    (e : execVsfuGelu a0 a1 = .next t) : Keeps k m t := by
  cases e
  repeat' first | with_reducible assumption | with_reducible apply State.issueDesc_keeps

theorem execVreduceSum_keeps {a0 : Nat} {a1 : State} {t : State} (hregs : k.regs = false)
    (hclusters : k.clusters = false) (hslice : k.slice = false) (hpad : k.pad = false) (hlines : k.lines = false)
    (hkeys : k.keys = false) (hfab : k.fab = false) (hcol : k.col = false) (h : Keeps k m a1)
    (e : execVreduceSum a0 a1 = .next t) : Keeps k m t := by
  cases e
  repeat' first | with_reducible assumption | with_reducible apply State.issueDesc_keeps

theorem execVreduceMax_keeps {a0 : Nat} {a1 : State} {t : State} (hregs : k.regs = false)
    (hclusters : k.clusters = false) (hslice : k.slice = false) (hpad : k.pad = false) (hlines : k.lines = false)
    (hkeys : k.keys = false) (hfab : k.fab = false) (hcol : k.col = false) (h : Keeps k m a1)
    (e : execVreduceMax a0 a1 = .next t) : Keeps k m t := by
  cases e
  repeat' first | with_reducible assumption | with_reducible apply State.issueDesc_keeps

theorem execVreduceMin_keeps {a0 : Nat} {a1 : State} {t : State} (hregs : k.regs = false)
    (hclusters : k.clusters = false) (hslice : k.slice = false) (hpad : k.pad = false) (hlines : k.lines = false)
    (hkeys : k.keys = false) (hfab : k.fab = false) (hcol : k.col = false) (h : Keeps k m a1)
    (e : execVreduceMin a0 a1 = .next t) : Keeps k m t := by
  cases e
  repeat' first | with_reducible assumption | with_reducible apply State.issueDesc_keeps

theorem execVsoftmax_keeps {a0 : Nat} {a1 : State} {t : State} (hregs : k.regs = false)
    (hclusters : k.clusters = false) (hslice : k.slice = false) (hpad : k.pad = false) (hlines : k.lines = false)
    (hkeys : k.keys = false) (hfab : k.fab = false) (hcol : k.col = false) (h : Keeps k m a1)
    (e : execVsoftmax a0 a1 = .next t) : Keeps k m t := by
  cases e
  repeat' first | with_reducible assumption | with_reducible apply State.issueDesc_keeps

theorem execVnormRms_keeps {a0 : Nat} {a1 : State} {t : State} (hregs : k.regs = false)
    (hclusters : k.clusters = false) (hslice : k.slice = false) (hpad : k.pad = false) (hlines : k.lines = false)
    (hkeys : k.keys = false) (hfab : k.fab = false) (hcol : k.col = false) (h : Keeps k m a1)
    (e : execVnormRms a0 a1 = .next t) : Keeps k m t := by
  cases e
  repeat' first | with_reducible assumption | with_reducible apply State.issueDesc_keeps

theorem execVnormLayer_keeps {a0 : Nat} {a1 : State} {t : State} (hregs : k.regs = false)
    (hclusters : k.clusters = false) (hslice : k.slice = false) (hpad : k.pad = false) (hlines : k.lines = false)
    (hkeys : k.keys = false) (hfab : k.fab = false) (hcol : k.col = false) (h : Keeps k m a1)
    (e : execVnormLayer a0 a1 = .next t) : Keeps k m t := by
  cases e
  repeat' first | with_reducible assumption | with_reducible apply State.issueDesc_keeps

theorem execVrandUniform_keeps {a0 : Nat} {a1 : State} {t : State} (hregs : k.regs = false)
    (hclusters : k.clusters = false) (hslice : k.slice = false) (hpad : k.pad = false) (hlines : k.lines = false)
    (hkeys : k.keys = false) (hfab : k.fab = false) (hcol : k.col = false) (h : Keeps k m a1)
    (e : execVrandUniform a0 a1 = .next t) : Keeps k m t := by
  cases e
  repeat' first | with_reducible assumption | with_reducible apply State.issueDesc_keeps

theorem execVrandRaw_keeps {a0 : Nat} {a1 : State} {t : State} (hregs : k.regs = false)
    (hclusters : k.clusters = false) (hslice : k.slice = false) (hpad : k.pad = false) (hlines : k.lines = false)
    (hkeys : k.keys = false) (hfab : k.fab = false) (hcol : k.col = false) (h : Keeps k m a1)
    (e : execVrandRaw a0 a1 = .next t) : Keeps k m t := by
  cases e
  repeat' first | with_reducible assumption | with_reducible apply State.issueDesc_keeps

theorem execVtopk_keeps {a0 : Nat} {a1 : State} {t : State} (hregs : k.regs = false) (hclusters : k.clusters = false)
    (hslice : k.slice = false) (hpad : k.pad = false) (hlines : k.lines = false) (hkeys : k.keys = false)
    (hfab : k.fab = false) (hcol : k.col = false) (h : Keeps k m a1) (e : execVtopk a0 a1 = .next t) : Keeps k m t := by
  cases e
  repeat' first | with_reducible assumption | with_reducible apply State.issueDesc_keeps

theorem execVgather_keeps {a0 : Nat} {a1 : State} {t : State} (hregs : k.regs = false) (hclusters : k.clusters = false)
    (hslice : k.slice = false) (hpad : k.pad = false) (hlines : k.lines = false) (hkeys : k.keys = false)
    (hfab : k.fab = false) (hcol : k.col = false) (h : Keeps k m a1) (e : execVgather a0 a1 = .next t) : Keeps k m t := by
  cases e
  repeat' first | with_reducible assumption | with_reducible apply State.issueDesc_keeps

theorem execVscatter_keeps {a0 : Nat} {a1 : State} {t : State} (hregs : k.regs = false)
    (hclusters : k.clusters = false) (hslice : k.slice = false) (hpad : k.pad = false) (hlines : k.lines = false)
    (hkeys : k.keys = false) (hfab : k.fab = false) (hcol : k.col = false) (h : Keeps k m a1)
    (e : execVscatter a0 a1 = .next t) : Keeps k m t := by
  cases e
  repeat' first | with_reducible assumption | with_reducible apply State.issueDesc_keeps

theorem execLmove_keeps {a0 : Nat} {a1 : State} {t : State} (hregs : k.regs = false) (hclusters : k.clusters = false)
    (hslice : k.slice = false) (hpad : k.pad = false) (hlines : k.lines = false) (hkeys : k.keys = false)
    (hfab : k.fab = false) (hcol : k.col = false) (h : Keeps k m a1) (e : execLmove a0 a1 = .next t) : Keeps k m t := by
  cases e
  repeat' first | with_reducible assumption | with_reducible apply State.issueDesc_keeps

theorem execTmovePull_keeps {a0 : Nat} {a1 : State} {t : State} (hregs : k.regs = false)
    (hclusters : k.clusters = false) (hslice : k.slice = false) (hpad : k.pad = false) (hlines : k.lines = false)
    (hkeys : k.keys = false) (hfab : k.fab = false) (hcol : k.col = false) (h : Keeps k m a1)
    (e : execTmovePull a0 a1 = .next t) : Keeps k m t := by
  cases e
  repeat' first | with_reducible assumption | with_reducible apply State.issueDesc_keeps

theorem execTmovePush_keeps {a0 : Nat} {a1 : State} {t : State} (hregs : k.regs = false)
    (hclusters : k.clusters = false) (hslice : k.slice = false) (hpad : k.pad = false) (hlines : k.lines = false)
    (hkeys : k.keys = false) (hfab : k.fab = false) (hcol : k.col = false) (h : Keeps k m a1)
    (e : execTmovePush a0 a1 = .next t) : Keeps k m t := by
  cases e
  repeat' first | with_reducible assumption | with_reducible apply State.issueDesc_keeps

theorem execBarrowInbound_keeps {a0 : Nat} {a1 : State} {t : State} (hregs : k.regs = false)
    (hclusters : k.clusters = false) (hslice : k.slice = false) (hpad : k.pad = false) (hlines : k.lines = false)
    (hkeys : k.keys = false) (hfab : k.fab = false) (hcol : k.col = false) (h : Keeps k m a1)
    (e : execBarrowInbound a0 a1 = .next t) : Keeps k m t := by
  cases e
  repeat' first | with_reducible assumption | with_reducible apply State.issueDesc_keeps

theorem execBarrowOutbound_keeps {a0 : Nat} {a1 : State} {t : State} (hregs : k.regs = false)
    (hclusters : k.clusters = false) (hslice : k.slice = false) (hpad : k.pad = false) (hlines : k.lines = false)
    (hkeys : k.keys = false) (hfab : k.fab = false) (hcol : k.col = false) (h : Keeps k m a1)
    (e : execBarrowOutbound a0 a1 = .next t) : Keeps k m t := by
  cases e
  repeat' first | with_reducible assumption | with_reducible apply State.issueDesc_keeps

theorem execRingCfg_keeps {a0 : Nat} {a1 : State} {t : State} (hregs : k.regs = false) (hclusters : k.clusters = false)
    (hslice : k.slice = false) (hpad : k.pad = false) (hlines : k.lines = false) (hkeys : k.keys = false)
    (hfab : k.fab = false) (hcol : k.col = false) (h : Keeps k m a1) (e : execRingCfg a0 a1 = .next t) : Keeps k m t := by
  cases e
  repeat' first | with_reducible assumption | with_reducible apply State.issueDesc_keeps

theorem execNop_keeps {a0 : Nat} {a1 : State} {t : State} (hregs : k.regs = false) (hclusters : k.clusters = false)
    (hslice : k.slice = false) (hpad : k.pad = false) (hfab : k.fab = false) (hcol : k.col = false) (h : Keeps k m a1)
    (e : execNop a0 a1 = .next t) : Keeps k m t := by
  cases e
  repeat' first
    | with_reducible assumption | intro _ | with_reducible apply State.finish_keeps
    | with_reducible apply State.control_keeps

theorem execTwait_keeps {a0 : Nat} {a1 : State} {t : State} (hregs : k.regs = false) (hclusters : k.clusters = false)
    (hslice : k.slice = false) (hpad : k.pad = false) (hfab : k.fab = false) (hcol : k.col = false) (h : Keeps k m a1)
    (e : execTwait a0 a1 = .next t) : Keeps k m t := by
  cases e
  repeat' first
    | with_reducible assumption | intro _ | with_reducible apply State.finish_keeps
    | with_reducible apply State.control_keeps

theorem execHalt_keeps {a0 : Nat} {a1 : State} {t : State} (hregs : k.regs = false) (hclusters : k.clusters = false)
    (hslice : k.slice = false) (hpad : k.pad = false) (hfab : k.fab = false) (hcol : k.col = false) (h : Keeps k m a1)
    (e : execHalt a0 a1 = .next t) : Keeps k m t := by
  cases e
  repeat' first
    | with_reducible assumption | intro _ | with_reducible apply State.control_keeps
    | with_reducible apply State.refuse_keeps | with_reducible apply State.setSeq_keeps

theorem execTsignal_keeps {a0 : Nat} {a1 : State} {t : State} (hregs : k.regs = false) (hclusters : k.clusters = false)
    (hslice : k.slice = false) (hpad : k.pad = false) (hfab : k.fab = false) (hcol : k.col = false) (h : Keeps k m a1)
    (e : execTsignal a0 a1 = .next t) : Keeps k m t := by
  cases e
  repeat' first
    | with_reducible assumption | intro _ | with_reducible apply State.effTsignal_keeps
    | with_reducible apply State.control_keeps

theorem execTaddRemote_keeps {a0 : Nat} {a1 : State} {t : State} (hregs : k.regs = false)
    (hclusters : k.clusters = false) (hslice : k.slice = false) (hpad : k.pad = false) (hfab : k.fab = false)
    (hcol : k.col = false) (h : Keeps k m a1) (e : execTaddRemote a0 a1 = .next t) : Keeps k m t := by
  cases e
  repeat' first
    | with_reducible assumption | intro _ | with_reducible apply State.effTadd_keeps
    | with_reducible apply State.control_keeps

theorem execFence_keeps {a0 : Nat} {a1 : State} {t : State} (hregs : k.regs = false) (hclusters : k.clusters = false)
    (hslice : k.slice = false) (hpad : k.pad = false) (hfab : k.fab = false) (hcol : k.col = false) (h : Keeps k m a1)
    (e : execFence a0 a1 = .next t) : Keeps k m t := by
  cases e
  repeat' first
    | with_reducible assumption | intro _ | with_reducible apply State.finish_keeps
    | with_reducible apply State.control_keeps

theorem execLoopD_keeps {a0 : Nat} {a1 : State} {t : State} (hregs : k.regs = false) (hclusters : k.clusters = false)
    (hslice : k.slice = false) (hpad : k.pad = false) (hfab : k.fab = false) (hcol : k.col = false) (h : Keeps k m a1)
    (e : execLoopD a0 a1 = .next t) : Keeps k m t := by
  cases e
  repeat' first
    | with_reducible assumption | intro _ | with_reducible apply State.effLoop_keeps
    | with_reducible apply State.control_keeps

theorem execEndloop_keeps {a0 : Nat} {a1 : State} {t : State} (hregs : k.regs = false) (hclusters : k.clusters = false)
    (hslice : k.slice = false) (hpad : k.pad = false) (hfab : k.fab = false) (hcol : k.col = false) (h : Keeps k m a1)
    (e : execEndloop a0 a1 = .next t) : Keeps k m t := by
  cases e
  repeat' first
    | with_reducible assumption | intro _ | with_reducible apply State.effEndloop_keeps
    | with_reducible apply State.control_keeps

theorem execBranchTally_keeps {a0 : Nat} {a1 : State} {t : State} (hregs : k.regs = false)
    (hclusters : k.clusters = false) (hslice : k.slice = false) (hpad : k.pad = false) (hfab : k.fab = false)
    (hcol : k.col = false) (h : Keeps k m a1) (e : execBranchTally a0 a1 = .next t) : Keeps k m t := by
  cases e
  repeat' first
    | with_reducible assumption | intro _ | with_reducible apply State.effBranch_keeps
    | with_reducible apply State.control_keeps

theorem execCall_keeps {a0 : Nat} {a1 : State} {t : State} (hregs : k.regs = false) (hclusters : k.clusters = false)
    (hslice : k.slice = false) (hpad : k.pad = false) (hfab : k.fab = false) (hcol : k.col = false) (h : Keeps k m a1)
    (e : execCall a0 a1 = .next t) : Keeps k m t := by
  cases e
  repeat' first
    | with_reducible assumption | intro _ | with_reducible apply State.effCall_keeps
    | with_reducible apply State.control_keeps

theorem execRet_keeps {a0 : Nat} {a1 : State} {t : State} (hregs : k.regs = false) (hclusters : k.clusters = false)
    (hslice : k.slice = false) (hpad : k.pad = false) (hfab : k.fab = false) (hcol : k.col = false) (h : Keeps k m a1)
    (e : execRet a0 a1 = .next t) : Keeps k m t := by
  cases e
  repeat' first
    | with_reducible assumption | intro _ | with_reducible apply State.effRet_keeps
    | with_reducible apply State.control_keeps

theorem execStepEnd_keeps {a0 : Nat} {a1 : State} {t : State} (hregs : k.regs = false) (hclusters : k.clusters = false)
    (hslice : k.slice = false) (hpad : k.pad = false) (hfab : k.fab = false) (hcol : k.col = false) (h : Keeps k m a1)
    (e : execStepEnd a0 a1 = .next t) : Keeps k m t := by
  cases e
  repeat' first
    | with_reducible assumption | intro _ | with_reducible apply State.effStepEnd_keeps
    | with_reducible apply State.control_keeps

theorem execCollEnterAllReduce_keeps {a0 : Nat} {a1 : State} {t : State} (hregs : k.regs = false)
    (hclusters : k.clusters = false) (hslice : k.slice = false) (hpad : k.pad = false) (hfab : k.fab = false)
    (hcol : k.col = false) (h : Keeps k m a1) (e : execCollEnterAllReduce a0 a1 = .next t) : Keeps k m t := by
  cases e
  repeat' first | with_reducible assumption | with_reducible apply State.doCollEnter_keeps

theorem execCollEnterReduceScatter_keeps {a0 : Nat} {a1 : State} {t : State} (hregs : k.regs = false)
    (hclusters : k.clusters = false) (hslice : k.slice = false) (hpad : k.pad = false) (hfab : k.fab = false)
    (hcol : k.col = false) (h : Keeps k m a1) (e : execCollEnterReduceScatter a0 a1 = .next t) : Keeps k m t := by
  cases e
  repeat' first | with_reducible assumption | with_reducible apply State.doCollEnter_keeps

theorem execCollEnterAllGather_keeps {a0 : Nat} {a1 : State} {t : State} (hregs : k.regs = false)
    (hclusters : k.clusters = false) (hslice : k.slice = false) (hpad : k.pad = false) (hfab : k.fab = false)
    (hcol : k.col = false) (h : Keeps k m a1) (e : execCollEnterAllGather a0 a1 = .next t) : Keeps k m t := by
  cases e
  repeat' first | with_reducible assumption | with_reducible apply State.doCollEnter_keeps

theorem execCollEnterBroadcast_keeps {a0 : Nat} {a1 : State} {t : State} (hregs : k.regs = false)
    (hclusters : k.clusters = false) (hslice : k.slice = false) (hpad : k.pad = false) (hfab : k.fab = false)
    (hcol : k.col = false) (h : Keeps k m a1) (e : execCollEnterBroadcast a0 a1 = .next t) : Keeps k m t := by
  cases e
  repeat' first | with_reducible assumption | with_reducible apply State.doCollEnter_keeps

theorem execCollEnterPass_keeps {a0 : Nat} {a1 : State} {t : State} (hregs : k.regs = false)
    (hclusters : k.clusters = false) (hslice : k.slice = false) (hpad : k.pad = false) (hfab : k.fab = false)
    (hcol : k.col = false) (h : Keeps k m a1) (e : execCollEnterPass a0 a1 = .next t) : Keeps k m t := by
  cases e
  repeat' first | with_reducible assumption | with_reducible apply State.doCollEnter_keeps

theorem execIntakeWrite_keeps {a0 : Nat} {a1 : HostData} {a2 : State} {t : State} (hregs : k.regs = false)
    (hcfg : k.cfg = false) (h : Keeps k m a2) (e : execIntakeWrite a0 a1 a2 = .next t) : Keeps k m t := by
  cases e
  repeat' first | with_reducible assumption | with_reducible apply State.doIntakeWrite_keeps

theorem execLaneStallTimeout_keeps {a0 : Nat} {a1 : State} {t : State} (hregs : k.regs = false) (h : Keeps k m a1)
    (e : execLaneStallTimeout a0 a1 = .next t) : Keeps k m t := by
  cases e
  repeat' first | with_reducible assumption | with_reducible apply State.doLaneStallTimeout_keeps

theorem execLaneReset_keeps {a0 : Agent} {a1 : Nat} {a2 : State} {t : State} (hregs : k.regs = false)
    (hctl : k.ctl = false) (h : Keeps k m a2) (e : execLaneReset a0 a1 a2 = .next t) : Keeps k m t := by
  cases e
  repeat' first
    | with_reducible assumption | intro _ | with_reducible apply State.doLaneReset_keeps
    | with_reducible apply State.leased_keeps

theorem execTake_keeps {a0 : Nat} {a1 : State} {t : State} (hregs : k.regs = false) (hslots : k.slots = false)
    (h : Keeps k m a1) (e : execTake a0 a1 = .next t) : Keeps k m t := by
  cases e
  repeat' first | with_reducible assumption | with_reducible apply State.doTake_keeps

theorem execCreditWrite_keeps {a0 : Nat} {a1 : State} {t : State} (h : Keeps k m a1)
    (e : execCreditWrite a0 a1 = .next t) : Keeps k m t := by
  cases e
  repeat' first | with_reducible assumption | with_reducible apply State.doCreditWrite_keeps

theorem execCtxPeekSelWrite_keeps {a0 : Agent} {a1 : Word} {a2 : State} {t : State} (hregs : k.regs = false)
    (hctl : k.ctl = false) (h : Keeps k m a2) (e : execCtxPeekSelWrite a0 a1 a2 = .next t) : Keeps k m t := by
  cases e
  repeat' first
    | with_reducible assumption | intro _ | with_reducible apply State.doCtxPeekSelWrite_keeps
    | with_reducible apply State.leased_keeps

theorem execTlyAdd_keeps {a0 : Agent} {a1 : Nat} {a2 : Word} {a3 : State} {t : State} (hregs : k.regs = false)
    (hctl : k.ctl = false) (h : Keeps k m a3) (e : execTlyAdd a0 a1 a2 a3 = .next t) : Keeps k m t := by
  cases e
  repeat' first
    | with_reducible assumption | intro _ | with_reducible apply State.doTlyAdd_keeps
    | with_reducible apply State.leased_keeps

theorem execCompletionRecordWrite_keeps {a0 : Nat} {a1 : State} {t : State} (hregs : k.regs = false) (h : Keeps k m a1)
    (e : execCompletionRecordWrite a0 a1 = .next t) : Keeps k m t := by
  cases e
  repeat' first | with_reducible assumption | with_reducible apply State.doCompletionRecordWrite_keeps

theorem execCoalesceTimeout_keeps {a0 : Nat} {a1 : State} {t : State} (hregs : k.regs = false) (h : Keeps k m a1)
    (e : execCoalesceTimeout a0 a1 = .next t) : Keeps k m t := by
  cases e
  repeat' first | with_reducible assumption | with_reducible apply State.doCoalesceTimeout_keeps

theorem execMsixPendingSend_keeps {a0 : Nat} {a1 : State} {t : State} (hregs : k.regs = false) (h : Keeps k m a1)
    (e : execMsixPendingSend a0 a1 = .next t) : Keeps k m t := by
  cases e
  repeat' first | with_reducible assumption | with_reducible apply State.doMsixPendingSend_keeps

theorem execCringHeadWrite_keeps {a0 : Agent} {a1 : Nat} {a2 : BitVec 32} {a3 : State} {t : State}
    (hregs : k.regs = false) (hctl : k.ctl = false) (h : Keeps k m a3) (e : execCringHeadWrite a0 a1 a2 a3 = .next t) :
    Keeps k m t := by
  cases e
  repeat' first
    | with_reducible assumption | intro _ | with_reducible apply State.doCringHeadWrite_keeps
    | with_reducible apply State.leased_keeps

theorem execOpenCtx_keeps {a0 : Nat} {a1 : State} {t : State} (hregs : k.regs = false) (hslots : k.slots = false)
    (htables : k.tables = false) (hkeys : k.keys = false) (h : Keeps k m a1) (e : execOpenCtx a0 a1 = .next t) :
    Keeps k m t := by
  cases e
  repeat' first | with_reducible assumption | with_reducible apply State.doOpen_keeps

theorem execSetWindow_keeps {a0 : Nat} {a1 : State} {t : State} (hregs : k.regs = false) (htables : k.tables = false)
    (hkeys : k.keys = false) (h : Keeps k m a1) (e : execSetWindow a0 a1 = .next t) : Keeps k m t := by
  cases e
  repeat' first | with_reducible assumption | with_reducible apply State.doSetWindow_keeps

theorem execSetAdapter_keeps {a0 : Nat} {a1 : State} {t : State} (hregs : k.regs = false) (hslots : k.slots = false)
    (hkeys : k.keys = false) (h : Keeps k m a1) (e : execSetAdapter a0 a1 = .next t) : Keeps k m t := by
  cases e
  repeat' first | with_reducible assumption | with_reducible apply State.doSetAdapter_keeps

theorem execLoadKey_keeps {a0 : Nat} {a1 : State} {t : State} (hregs : k.regs = false) (hkeys : k.keys = false)
    (h : Keeps k m a1) (e : execLoadKey a0 a1 = .next t) : Keeps k m t := by
  cases e
  repeat' first | with_reducible assumption | with_reducible apply State.doLoadKey_keeps

theorem execClearKey_keeps {a0 : Nat} {a1 : State} {t : State} (hregs : k.regs = false) (hkeys : k.keys = false)
    (h : Keeps k m a1) (e : execClearKey a0 a1 = .next t) : Keeps k m t := by
  cases e
  repeat' first | with_reducible assumption | with_reducible apply State.doClearKey_keeps

theorem execLoadImage_keeps {a0 : Nat} {a1 : State} {t : State} (hregs : k.regs = false) (htables : k.tables = false)
    (hkeys : k.keys = false) (h : Keeps k m a1) (e : execLoadImage a0 a1 = .next t) : Keeps k m t := by
  cases e
  repeat' first | with_reducible assumption | with_reducible apply State.doLoadImage_keeps

theorem execImageLoaded_keeps {a0 : Nat} {a1 : State} {t : State} (hregs : k.regs = false)
    (hclusters : k.clusters = false) (hslice : k.slice = false) (hpad : k.pad = false) (hlines : k.lines = false)
    (h : Keeps k m a1) (e : execImageLoaded a0 a1 = .next t) : Keeps k m t := by
  cases e
  repeat' first | with_reducible assumption | with_reducible apply State.doImageLoaded_keeps

theorem execImageSourceRefused_keeps {a0 : Nat} {a1 : State} {t : State} (hregs : k.regs = false)
    (hclusters : k.clusters = false) (hslice : k.slice = false) (hpad : k.pad = false) (hlines : k.lines = false)
    (h : Keeps k m a1) (e : execImageSourceRefused a0 a1 = .next t) : Keeps k m t := by
  cases e
  repeat' first | with_reducible assumption | with_reducible apply State.doImageSourceRefused_keeps

theorem execTeardown_keeps {a0 : Nat} {a1 : State} {t : State} (hregs : k.regs = false)
    (hclusters : k.clusters = false) (hslice : k.slice = false) (hpad : k.pad = false) (hlines : k.lines = false)
    (hslots : k.slots = false) (hkeys : k.keys = false) (hfab : k.fab = false) (hcol : k.col = false) (h : Keeps k m a1)
    (e : execTeardown a0 a1 = .next t) : Keeps k m t := by
  cases e
  repeat' first | with_reducible assumption | with_reducible apply State.doTeardown_keeps

theorem execTeardownDone_keeps {a0 : Nat} {a1 : State} {t : State} (hregs : k.regs = false) (hslots : k.slots = false)
    (htables : k.tables = false) (hkeys : k.keys = false) (h : Keeps k m a1) (e : execTeardownDone a0 a1 = .next t) :
    Keeps k m t := by
  cases e
  repeat' first | with_reducible assumption | with_reducible apply State.doTeardownDone_keeps

theorem execStepMessageEnd_keeps {a0 : Nat} {a1 : State} {t : State} (hslots : k.slots = false) (h : Keeps k m a1)
    (e : execStepMessageEnd a0 a1 = .next t) : Keeps k m t := by
  cases e
  repeat' first | with_reducible assumption | with_reducible apply State.doStepMessageEnd_keeps

theorem execStepChoose_keeps {a0 : State} {t : State} (h : Keeps k m a0) (e : execStepChoose a0 = .next t) :
    Keeps k m t := by
  cases e
  repeat' first | with_reducible assumption | with_reducible apply State.doStepChoose_keeps

theorem execReservationRelease_keeps {a0 : Nat} {a1 : State} {t : State} (h : Keeps k m a1)
    (e : execReservationRelease a0 a1 = .next t) : Keeps k m t := by
  cases e
  repeat' first | with_reducible assumption | with_reducible apply State.doReservationRelease_keeps

theorem execStepAdmit_keeps {a0 : Nat} {a1 : State} {t : State} (hregs : k.regs = false)
    (hclusters : k.clusters = false) (hslice : k.slice = false) (hpad : k.pad = false) (hslots : k.slots = false)
    (hfab : k.fab = false) (hcol : k.col = false) (h : Keeps k m a1) (e : execStepAdmit a0 a1 = .next t) : Keeps k m t := by
  cases e
  repeat' first | with_reducible assumption | with_reducible apply State.doStepAdmit_keeps

theorem execStepCommit_keeps {a0 : Nat} {a1 : State} {t : State} (hregs : k.regs = false)
    (hclusters : k.clusters = false) (hslice : k.slice = false) (hpad : k.pad = false) (hslots : k.slots = false)
    (hfab : k.fab = false) (hcol : k.col = false) (h : Keeps k m a1) (e : execStepCommit a0 a1 = .next t) : Keeps k m t := by
  cases e
  repeat' first | with_reducible assumption | with_reducible apply State.doStepCommit_keeps

theorem execStepFail_keeps {a0 : Nat} {a1 : State} {t : State} (hregs : k.regs = false)
    (hclusters : k.clusters = false) (hslice : k.slice = false) (hpad : k.pad = false) (hlines : k.lines = false)
    (hslots : k.slots = false) (hfab : k.fab = false) (hcol : k.col = false) (h : Keeps k m a1)
    (e : execStepFail a0 a1 = .next t) : Keeps k m t := by
  cases e
  repeat' first | with_reducible assumption | with_reducible apply State.doStepFail_keeps

theorem execStepReplay_keeps {a0 : Nat} {a1 : State} {t : State} (hregs : k.regs = false)
    (hclusters : k.clusters = false) (hslice : k.slice = false) (hpad : k.pad = false) (hslots : k.slots = false)
    (hfab : k.fab = false) (hcol : k.col = false) (h : Keeps k m a1) (e : execStepReplay a0 a1 = .next t) : Keeps k m t := by
  cases e
  repeat' first | with_reducible assumption | with_reducible apply State.doStepReplay_keeps

theorem execPowerCmdFull_keeps {a0 : Agent} {a1 : State} {t : State} (hregs : k.regs = false)
    (hclusters : k.clusters = false) (hslice : k.slice = false) (hpad : k.pad = false) (hslots : k.slots = false)
    (htables : k.tables = false) (hkeys : k.keys = false) (hfab : k.fab = false) (hcol : k.col = false)
    (hfirm : k.firm = false) (hctl : k.ctl = false) (hboot : k.boot = false) (h : Keeps k m a1)
    (e : execPowerCmdFull a0 a1 = .next t) : Keeps k m t := by
  cases e
  repeat' first
    | with_reducible assumption | intro _ | with_reducible apply State.powerCmd_keeps
    | with_reducible apply State.leased_keeps

theorem execPowerCmdTrim_keeps {a0 : Agent} {a1 : State} {t : State} (hregs : k.regs = false)
    (hclusters : k.clusters = false) (hslice : k.slice = false) (hpad : k.pad = false) (hslots : k.slots = false)
    (htables : k.tables = false) (hkeys : k.keys = false) (hfab : k.fab = false) (hcol : k.col = false)
    (hfirm : k.firm = false) (hctl : k.ctl = false) (hboot : k.boot = false) (h : Keeps k m a1)
    (e : execPowerCmdTrim a0 a1 = .next t) : Keeps k m t := by
  cases e
  repeat' first
    | with_reducible assumption | intro _ | with_reducible apply State.powerCmd_keeps
    | with_reducible apply State.leased_keeps

theorem execPowerCmdMulch_keeps {a0 : Agent} {a1 : State} {t : State} (hregs : k.regs = false)
    (hclusters : k.clusters = false) (hslice : k.slice = false) (hpad : k.pad = false) (hslots : k.slots = false)
    (htables : k.tables = false) (hkeys : k.keys = false) (hfab : k.fab = false) (hcol : k.col = false)
    (hfirm : k.firm = false) (hctl : k.ctl = false) (hboot : k.boot = false) (h : Keeps k m a1)
    (e : execPowerCmdMulch a0 a1 = .next t) : Keeps k m t := by
  cases e
  repeat' first
    | with_reducible assumption | intro _ | with_reducible apply State.powerCmd_keeps
    | with_reducible apply State.leased_keeps

theorem execPowerCmdQuiet_keeps {a0 : Agent} {a1 : State} {t : State} (hregs : k.regs = false)
    (hclusters : k.clusters = false) (hslice : k.slice = false) (hpad : k.pad = false) (hslots : k.slots = false)
    (htables : k.tables = false) (hkeys : k.keys = false) (hfab : k.fab = false) (hcol : k.col = false)
    (hfirm : k.firm = false) (hctl : k.ctl = false) (hboot : k.boot = false) (h : Keeps k m a1)
    (e : execPowerCmdQuiet a0 a1 = .next t) : Keeps k m t := by
  cases e
  repeat' first
    | with_reducible assumption | intro _ | with_reducible apply State.powerCmd_keeps
    | with_reducible apply State.leased_keeps

theorem execPowerCmdDark_keeps {a0 : Agent} {a1 : State} {t : State} (hregs : k.regs = false)
    (hclusters : k.clusters = false) (hslice : k.slice = false) (hpad : k.pad = false) (hslots : k.slots = false)
    (htables : k.tables = false) (hkeys : k.keys = false) (hfab : k.fab = false) (hcol : k.col = false)
    (hfirm : k.firm = false) (hctl : k.ctl = false) (hboot : k.boot = false) (h : Keeps k m a1)
    (e : execPowerCmdDark a0 a1 = .next t) : Keeps k m t := by
  cases e
  repeat' first
    | with_reducible assumption | intro _ | with_reducible apply State.powerCmd_keeps
    | with_reducible apply State.leased_keeps

theorem execPowerTransitionStart_keeps {a0 : State} {t : State} (hregs : k.regs = false)
    (hclusters : k.clusters = false) (hfab : k.fab = false) (hcol : k.col = false) (h : Keeps k m a0)
    (e : execPowerTransitionStart a0 = .next t) : Keeps k m t := by
  cases e
  repeat' first | with_reducible assumption | with_reducible apply State.doPowerTransitionStart_keeps

theorem execPowerTransitionDone_keeps {a0 : State} {t : State} (hregs : k.regs = false)
    (hclusters : k.clusters = false) (hslice : k.slice = false) (hpad : k.pad = false) (hslots : k.slots = false)
    (htables : k.tables = false) (hkeys : k.keys = false) (hfab : k.fab = false) (hcol : k.col = false)
    (hfirm : k.firm = false) (h : Keeps k m a0) (e : execPowerTransitionDone a0 = .next t) : Keeps k m t := by
  cases e
  repeat' first | with_reducible assumption | with_reducible apply State.doPowerTransitionDone_keeps

theorem execFunctionLevelReset_keeps {a0 : State} {t : State} (hregs : k.regs = false) (hclusters : k.clusters = false)
    (hfab : k.fab = false) (hcol : k.col = false) (hcfg : k.cfg = false) (h : Keeps k m a0)
    (e : execFunctionLevelReset a0 = .next t) : Keeps k m t := by
  cases e
  repeat' first | with_reducible assumption | with_reducible apply State.doFunctionLevelReset_keeps

theorem execFlrComplete_keeps {a0 : State} {t : State} (hregs : k.regs = false) (h : Keeps k m a0)
    (e : execFlrComplete a0 = .next t) : Keeps k m t := by
  cases e
  repeat' first | with_reducible assumption | with_reducible apply State.doFlrComplete_keeps

theorem execHotReset_keeps {a0 : State} {t : State} (hregs : k.regs = false) (hclusters : k.clusters = false)
    (hfab : k.fab = false) (hcol : k.col = false) (hcfg : k.cfg = false) (h : Keeps k m a0) (e : execHotReset a0 = .next t)
    : Keeps k m t := by
  cases e
  repeat' first | with_reducible assumption | with_reducible apply State.doHotReset_keeps

theorem execLinkDown_keeps {a0 : State} {t : State} (hregs : k.regs = false) (hclusters : k.clusters = false)
    (hfab : k.fab = false) (hcol : k.col = false) (hcfg : k.cfg = false) (h : Keeps k m a0) (e : execLinkDown a0 = .next t)
    : Keeps k m t := by
  cases e
  repeat' first | with_reducible assumption | with_reducible apply State.doLinkDown_keeps

theorem execPerstNAssert_keeps {a0 : State} {t : State} (hregs : k.regs = false) (hclusters : k.clusters = false)
    (hfab : k.fab = false) (hcol : k.col = false) (hcfg : k.cfg = false) (h : Keeps k m a0)
    (e : execPerstNAssert a0 = .next t) : Keeps k m t := by
  cases e
  repeat' first | with_reducible assumption | with_reducible apply State.doPerstNAssert_keeps

theorem execPerstNRelease_keeps {a0 : State} {t : State} (hregs : k.regs = false) (h : Keeps k m a0)
    (e : execPerstNRelease a0 = .next t) : Keeps k m t := by
  cases e
  repeat' first | with_reducible assumption | with_reducible apply State.doPerstNRelease_keeps

theorem execHostTrafficResume_keeps {a0 : State} {t : State} (hregs : k.regs = false) (h : Keeps k m a0)
    (e : execHostTrafficResume a0 = .next t) : Keeps k m t := by
  cases e
  repeat' first | with_reducible assumption | with_reducible apply State.doHostTrafficResume_keeps

theorem execHostOpticalLaneFail_keeps {a0 : OpticalLane} {a1 : State} {t : State} (hregs : k.regs = false)
    (hclusters : k.clusters = false) (hfab : k.fab = false) (hcol : k.col = false) (hrepair : k.repair = false)
    (hcfg : k.cfg = false) (h : Keeps k m a1) (e : execHostOpticalLaneFail a0 a1 = .next t) : Keeps k m t := by
  cases e
  repeat' first | with_reducible assumption | with_reducible apply State.doHostOpticalLaneFail_keeps

theorem execHostSpareDone_keeps {a0 : State} {t : State} (hregs : k.regs = false) (h : Keeps k m a0)
    (e : execHostSpareDone a0 = .next t) : Keeps k m t := by
  cases e
  repeat' first | with_reducible assumption | with_reducible apply State.doHostSpareDone_keeps

theorem execHostReadCompletion_keeps {a0 : Nat} {a1 : BitVec 12} {a2 : CplStatus} {a3 : Bytes} {a4 : State} {t : State}
    (hregs : k.regs = false) (hclusters : k.clusters = false) (hfab : k.fab = false) (hcol : k.col = false)
    (hcfg : k.cfg = false) (h : Keeps k m a4) (e : execHostReadCompletion a0 a1 a2 a3 a4 = .next t) : Keeps k m t := by
  cases e
  repeat' first | with_reducible assumption | with_reducible apply State.doHostReadCompletion_keeps

theorem execHostCompletionTimeout_keeps {a0 : Nat} {a1 : State} {t : State} (hregs : k.regs = false)
    (hclusters : k.clusters = false) (hfab : k.fab = false) (hcol : k.col = false) (hcfg : k.cfg = false)
    (h : Keeps k m a1) (e : execHostCompletionTimeout a0 a1 = .next t) : Keeps k m t := by
  cases e
  repeat' first | with_reducible assumption | with_reducible apply State.doHostCompletionTimeout_keeps

theorem execHostWriteAck_keeps {a0 : Nat} {a1 : State} {t : State} (hregs : k.regs = false) (hfab : k.fab = false)
    (h : Keeps k m a1) (e : execHostWriteAck a0 a1 = .next t) : Keeps k m t := by
  cases e
  repeat' first | with_reducible assumption | with_reducible apply State.doHostWriteAck_keeps

theorem execReplayTimer_keeps {a0 : Nat} {a1 : State} {t : State} (h : Keeps k m a1)
    (e : execReplayTimer a0 a1 = .next t) : Keeps k m t := by
  cases e
  repeat' first | with_reducible assumption | with_reducible apply State.doReplayTimer_keeps

theorem execStagingWrite_keeps {a0 : Nat} {a1 : HostData} {a2 : State} {t : State} (hregs : k.regs = false)
    (hlines : k.lines = false) (hcfg : k.cfg = false) (h : Keeps k m a2) (e : execStagingWrite a0 a1 a2 = .next t) :
    Keeps k m t := by
  cases e
  repeat' first | with_reducible assumption | with_reducible apply State.doStagingWrite_keeps

theorem execStagingRead_keeps {a0 : Nat} {a1 : Option Nat} {a2 : State} {t : State} (hregs : k.regs = false)
    (hlines : k.lines = false) (hcfg : k.cfg = false) (h : Keeps k m a2) (e : execStagingRead a0 a1 a2 = .next t) :
    Keeps k m t := by
  cases e
  repeat' first | with_reducible assumption | with_reducible apply State.doStagingRead_keeps

theorem execConfigurationRequest_keeps {a0 : Bool} {a1 : Nat} {a2 : BitVec 32} {a3 : State} {t : State}
    (hregs : k.regs = false) (hclusters : k.clusters = false) (hfab : k.fab = false) (hcol : k.col = false)
    (hcfg : k.cfg = false) (h : Keeps k m a3) (e : execConfigurationRequest a0 a1 a2 a3 = .next t) : Keeps k m t := by
  cases e
  repeat' first | with_reducible assumption | with_reducible apply State.doConfigurationRequest_keeps

theorem execMctpVdmReceive_keeps {a0 a1 : Nat} {a2 : Bytes} {a3 : State} {t : State} (hregs : k.regs = false)
    (h : Keeps k m a3) (e : execMctpVdmReceive a0 a1 a2 a3 = .next t) : Keeps k m t := by
  cases e
  repeat' first | with_reducible assumption | with_reducible apply State.doMctpVdmReceive_keeps

theorem execSetEndpointId_keeps {a0 : Endpoint} {a1 : Bool} {a2 : Byte} {a3 : State} {t : State}
    (hregs : k.regs = false) (h : Keeps k m a3) (e : execSetEndpointId a0 a1 a2 a3 = .next t) : Keeps k m t := by
  cases e
  repeat' first | with_reducible assumption | with_reducible apply State.doSetEndpointId_keeps

theorem execInputEntersLimits_keeps {a0 : BitVec 6} {a1 a2 a3 a4 : Bool} {a5 : State} {t : State}
    (hregs : k.regs = false) (hcold : k.cold = false) (hboot : k.boot = false) (h : Keeps k m a5)
    (e : execInputEntersLimits a0 a1 a2 a3 a4 a5 = .next t) : Keeps k m t := by
  cases e
  repeat' first | with_reducible assumption | with_reducible apply State.doInputEntersLimits_keeps

theorem execEoffN_keeps {a0 : State} {t : State} (hregs : k.regs = false) (hclusters : k.clusters = false)
    (hslice : k.slice = false) (hpad : k.pad = false) (hlines : k.lines = false) (hslots : k.slots = false)
    (htables : k.tables = false) (hkeys : k.keys = false) (hfab : k.fab = false) (hcol : k.col = false)
    (hconf : k.conf = false) (hcold : k.cold = false) (htap : k.tap = false) (hfirm : k.firm = false)
    (hctl : k.ctl = false) (hboot : k.boot = false) (hticks : k.ticks = false) (hstaged : k.staged = false)
    (hcfg : k.cfg = false) (h : Keeps k m a0) (e : execEoffN a0 = .next t) : Keeps k m t := by
  cases e
  repeat' first | with_reducible assumption | with_reducible apply State.doEoffN_keeps

theorem execInputLoss_keeps {a0 : State} {t : State} (hregs : k.regs = false) (hclusters : k.clusters = false)
    (hslice : k.slice = false) (hpad : k.pad = false) (hlines : k.lines = false) (hslots : k.slots = false)
    (htables : k.tables = false) (hkeys : k.keys = false) (hfab : k.fab = false) (hcol : k.col = false)
    (hconf : k.conf = false) (hcold : k.cold = false) (htap : k.tap = false) (hfirm : k.firm = false)
    (hctl : k.ctl = false) (hboot : k.boot = false) (hticks : k.ticks = false) (hstaged : k.staged = false)
    (hcfg : k.cfg = false) (h : Keeps k m a0) (e : execInputLoss a0 = .next t) : Keeps k m t := by
  cases e
  repeat' first | with_reducible assumption | with_reducible apply State.doInputLoss_keeps

theorem execInputOvervoltage_keeps {a0 : State} {t : State} (hregs : k.regs = false) (hclusters : k.clusters = false)
    (hslice : k.slice = false) (hpad : k.pad = false) (hlines : k.lines = false) (hslots : k.slots = false)
    (htables : k.tables = false) (hkeys : k.keys = false) (hfab : k.fab = false) (hcol : k.col = false)
    (hconf : k.conf = false) (hcold : k.cold = false) (htap : k.tap = false) (hfirm : k.firm = false)
    (hctl : k.ctl = false) (hboot : k.boot = false) (hticks : k.ticks = false) (hstaged : k.staged = false)
    (hcfg : k.cfg = false) (h : Keeps k m a0) (e : execInputOvervoltage a0 = .next t) : Keeps k m t := by
  cases e
  repeat' first | with_reducible assumption | with_reducible apply State.doInputOvervoltage_keeps

theorem execSlotChoice_keeps {a0 : State} {t : State} (hregs : k.regs = false) (hcold : k.cold = false)
    (hflash : k.flash = false) (hfirm : k.firm = false) (hctl : k.ctl = false) (hboot : k.boot = false) (h : Keeps k m a0)
    (e : execSlotChoice a0 = .next t) : Keeps k m t := by
  cases e
  repeat' first | with_reducible assumption | with_reducible apply State.doSlotChoice_keeps

theorem execSelfTestDone_keeps {a0 : List Nat} {a1 : Bool} {a2 : State} {t : State} (hregs : k.regs = false)
    (hclusters : k.clusters = false) (hslice : k.slice = false) (hpad : k.pad = false) (hlines : k.lines = false)
    (hslots : k.slots = false) (htables : k.tables = false) (hkeys : k.keys = false) (hfab : k.fab = false)
    (hcol : k.col = false) (hconf : k.conf = false) (hrepair : k.repair = false) (hboot : k.boot = false)
    (h : Keeps k m a2) (e : execSelfTestDone a0 a1 a2 = .next t) : Keeps k m t := by
  cases e
  repeat' first | with_reducible assumption | with_reducible apply State.doSelfTestDone_keeps

theorem execConfigurationChoice_keeps {a0 : State} {t : State} (hregs : k.regs = false)
    (hclusters : k.clusters = false) (hfab : k.fab = false) (hcol : k.col = false) (hboot : k.boot = false)
    (h : Keeps k m a0) (e : execConfigurationChoice a0 = .next t) : Keeps k m t := by
  cases e
  repeat' first | with_reducible assumption | with_reducible apply State.doConfigurationChoice_keeps

theorem execSectionsApply_keeps {a0 : State} {t : State} (hregs : k.regs = false) (hclusters : k.clusters = false)
    (hslots : k.slots = false) (hfab : k.fab = false) (hcol : k.col = false) (hconf : k.conf = false)
    (hcold : k.cold = false) (hboot : k.boot = false) (hstaged : k.staged = false) (h : Keeps k m a0)
    (e : execSectionsApply a0 = .next t) : Keeps k m t := by
  cases e
  repeat' first | with_reducible assumption | with_reducible apply State.doSectionsApply_keeps

theorem execLanesTrained_keeps {a0 : List BridgeReport} {a1 : State} {t : State} (hregs : k.regs = false)
    (hclusters : k.clusters = false) (hlines : k.lines = false) (hfab : k.fab = false) (hcol : k.col = false)
    (hboot : k.boot = false) (h : Keeps k m a1) (e : execLanesTrained a0 a1 = .next t) : Keeps k m t := by
  cases e
  repeat' first | with_reducible assumption | with_reducible apply State.doLanesTrained_keeps

theorem execColdStartDone_keeps {a0 : State} {t : State} (hregs : k.regs = false) (hboot : k.boot = false)
    (h : Keeps k m a0) (e : execColdStartDone a0 = .next t) : Keeps k m t := by
  cases e
  repeat' first | with_reducible assumption | with_reducible apply State.doColdStartDone_keeps

theorem execReload_keeps {a0 : Agent} {a1 : Word} {a2 : State} {t : State} (hregs : k.regs = false)
    (hclusters : k.clusters = false) (hslots : k.slots = false) (hfab : k.fab = false) (hcol : k.col = false)
    (hconf : k.conf = false) (hcold : k.cold = false) (hctl : k.ctl = false) (hboot : k.boot = false)
    (hstaged : k.staged = false) (h : Keeps k m a2) (e : execReload a0 a1 a2 = .next t) : Keeps k m t := by
  cases e
  repeat' first
    | with_reducible assumption | intro _ | with_reducible apply State.doReload_keeps
    | with_reducible apply State.leased_keeps

theorem execReloadMemoryApply_keeps {a0 : State} {t : State} (hregs : k.regs = false) (hclusters : k.clusters = false)
    (hslots : k.slots = false) (hfab : k.fab = false) (hcol : k.col = false) (hconf : k.conf = false)
    (hcold : k.cold = false) (hboot : k.boot = false) (hstaged : k.staged = false) (h : Keeps k m a0)
    (e : execReloadMemoryApply a0 = .next t) : Keeps k m t := by
  cases e
  repeat' first | with_reducible assumption | with_reducible apply State.doReloadMemoryApply_keeps

theorem execSwapDrainComplete_keeps {a0 : State} {t : State} (hregs : k.regs = false) (hclusters : k.clusters = false)
    (hslots : k.slots = false) (hfab : k.fab = false) (hcol : k.col = false) (hconf : k.conf = false)
    (hcold : k.cold = false) (hboot : k.boot = false) (hstaged : k.staged = false) (h : Keeps k m a0)
    (e : execSwapDrainComplete a0 = .next t) : Keeps k m t := by
  cases e
  repeat' first | with_reducible assumption | with_reducible apply State.doSwapDrainComplete_keeps

theorem execDrainLimitExpiry_keeps {a0 : State} {t : State} (hregs : k.regs = false) (hclusters : k.clusters = false)
    (hslots : k.slots = false) (hfab : k.fab = false) (hcol : k.col = false) (hconf : k.conf = false)
    (hcold : k.cold = false) (hboot : k.boot = false) (hstaged : k.staged = false) (h : Keeps k m a0)
    (e : execDrainLimitExpiry a0 = .next t) : Keeps k m t := by
  cases e
  repeat' first | with_reducible assumption | with_reducible apply State.doDrainLimitExpiry_keeps

theorem execCommit_keeps {a0 : Agent} {a1 : Nat} {a2 : State} {t : State} (hregs : k.regs = false)
    (hclusters : k.clusters = false) (hslice : k.slice = false) (hpad : k.pad = false) (hfab : k.fab = false)
    (hrepair : k.repair = false) (hctl : k.ctl = false) (hstaged : k.staged = false) (h : Keeps k m a2)
    (e : execCommit a0 a1 a2 = .next t) : Keeps k m t := by
  cases e
  repeat' first
    | with_reducible assumption | intro _ | with_reducible apply State.doCommit_keeps
    | with_reducible apply State.leased_keeps

theorem execClusterCommitApply_keeps {a0 : Nat} {a1 : State} {t : State} (hregs : k.regs = false)
    (hclusters : k.clusters = false) (hslice : k.slice = false) (hpad : k.pad = false) (hfab : k.fab = false)
    (hrepair : k.repair = false) (h : Keeps k m a1) (e : execClusterCommitApply a0 a1 = .next t) : Keeps k m t := by
  cases e
  repeat' first | with_reducible assumption | with_reducible apply State.doClusterCommitApply_keeps

theorem execDeferredCommitApply_keeps {a0 : Nat} {a1 : State} {t : State} (hregs : k.regs = false)
    (hclusters : k.clusters = false) (hslice : k.slice = false) (hpad : k.pad = false) (hfab : k.fab = false)
    (hrepair : k.repair = false) (h : Keeps k m a1) (e : execDeferredCommitApply a0 a1 = .next t) : Keeps k m t := by
  cases e
  repeat' first | with_reducible assumption | with_reducible apply State.doDeferredCommitApply_keeps

theorem execCommitGroup_keeps {a0 : Agent} {a1 : Word} {a2 : State} {t : State} (hregs : k.regs = false)
    (hclusters : k.clusters = false) (hslice : k.slice = false) (hpad : k.pad = false) (hfab : k.fab = false)
    (hrepair : k.repair = false) (hctl : k.ctl = false) (hstaged : k.staged = false) (h : Keeps k m a2)
    (e : execCommitGroup a0 a1 a2 = .next t) : Keeps k m t := by
  cases e
  repeat' first
    | with_reducible assumption | intro _ | with_reducible apply State.doCommitGroup_keeps
    | with_reducible apply State.leased_keeps

theorem execHarvestWritten_keeps {a0 : HarvestLoss} {a1 : State} {t : State} (hregs : k.regs = false)
    (hclusters : k.clusters = false) (hslice : k.slice = false) (hpad : k.pad = false) (hfab : k.fab = false)
    (hcol : k.col = false) (hfirm : k.firm = false) (hctl : k.ctl = false) (hstaged : k.staged = false) (h : Keeps k m a1)
    (e : execHarvestWritten a0 a1 = .next t) : Keeps k m t := by
  cases e
  repeat' first | with_reducible assumption | with_reducible apply State.doHarvestWritten_keeps

theorem execRecoveryDone_keeps {a0 : List Nat} {a1 : State} {t : State} (hregs : k.regs = false)
    (hclusters : k.clusters = false) (hslice : k.slice = false) (hpad : k.pad = false) (hlines : k.lines = false)
    (hslots : k.slots = false) (htables : k.tables = false) (hkeys : k.keys = false) (hfab : k.fab = false)
    (hcol : k.col = false) (hconf : k.conf = false) (hrepair : k.repair = false) (hfirm : k.firm = false)
    (hboot : k.boot = false) (h : Keeps k m a1) (e : execRecoveryDone a0 a1 = .next t) : Keeps k m t := by
  cases e
  repeat' first | with_reducible assumption | with_reducible apply State.doRecoveryDone_keeps

theorem execHubStall_keeps {a0 : Bool} {a1 : State} {t : State} (hregs : k.regs = false)
    (hclusters : k.clusters = false) (hfab : k.fab = false) (hcol : k.col = false) (hconf : k.conf = false)
    (hfirm : k.firm = false) (hboot : k.boot = false) (h : Keeps k m a1) (e : execHubStall a0 a1 = .next t) : Keeps k m t
    := by
  cases e
  repeat' first | with_reducible assumption | with_reducible apply State.doHubStall_keeps

theorem execThermalTrip_keeps {a0 : Nat} {a1 : BitVec 16} {a2 : State} {t : State} (hregs : k.regs = false)
    (hclusters : k.clusters = false) (hslice : k.slice = false) (hpad : k.pad = false) (hlines : k.lines = false)
    (hslots : k.slots = false) (htables : k.tables = false) (hkeys : k.keys = false) (hfab : k.fab = false)
    (hcol : k.col = false) (hconf : k.conf = false) (hboot : k.boot = false) (h : Keeps k m a2)
    (e : execThermalTrip a0 a1 a2 = .next t) : Keeps k m t := by
  cases e
  repeat' first | with_reducible assumption | with_reducible apply State.doThermalTrip_keeps

theorem execDeadMan_keeps {a0 : State} {t : State} (hregs : k.regs = false) (hclusters : k.clusters = false)
    (hslice : k.slice = false) (hpad : k.pad = false) (hlines : k.lines = false) (hslots : k.slots = false)
    (htables : k.tables = false) (hkeys : k.keys = false) (hfab : k.fab = false) (hcol : k.col = false)
    (hconf : k.conf = false) (hboot : k.boot = false) (h : Keeps k m a0) (e : execDeadMan a0 = .next t) : Keeps k m t := by
  cases e
  repeat' first | with_reducible assumption | with_reducible apply State.doDeadMan_keeps

theorem execTempSensorConvert_keeps {a0 : Nat} {a1 : BitVec 16} {a2 : State} {t : State} (hregs : k.regs = false)
    (hclusters : k.clusters = false) (hslice : k.slice = false) (hpad : k.pad = false) (hfab : k.fab = false)
    (hcol : k.col = false) (hfirm : k.firm = false) (hctl : k.ctl = false) (hstaged : k.staged = false) (h : Keeps k m a2)
    (e : execTempSensorConvert a0 a1 a2 = .next t) : Keeps k m t := by
  cases e
  repeat' first | with_reducible assumption | with_reducible apply State.doTempSensorConvert_keeps

theorem execControllerRestartDone_keeps {a0 a1 : Bool} {a2 : State} {t : State} (hregs : k.regs = false)
    (hclusters : k.clusters = false) (hslice : k.slice = false) (hpad : k.pad = false) (hfab : k.fab = false)
    (hcol : k.col = false) (hfirm : k.firm = false) (hctl : k.ctl = false) (hstaged : k.staged = false) (h : Keeps k m a2)
    (e : execControllerRestartDone a0 a1 a2 = .next t) : Keeps k m t := by
  cases e
  repeat' first | with_reducible assumption | with_reducible apply State.doControllerRestartDone_keeps

theorem execSafeRestartTimeout_keeps {a0 : State} {t : State} (hregs : k.regs = false) (h : Keeps k m a0)
    (e : execSafeRestartTimeout a0 = .next t) : Keeps k m t := by
  cases e
  repeat' first | with_reducible assumption | with_reducible apply State.doSafeRestartTimeout_keeps

theorem execDrainCommand_keeps {a0 : Agent} {a1 : State} {t : State} (hregs : k.regs = false) (hctl : k.ctl = false)
    (h : Keeps k m a1) (e : execDrainCommand a0 a1 = .next t) : Keeps k m t := by
  cases e
  repeat' first
    | with_reducible assumption | intro _ | with_reducible apply State.doDrainCommand_keeps
    | with_reducible apply State.leased_keeps

theorem execResumeCommand_keeps {a0 : Agent} {a1 : State} {t : State} (hregs : k.regs = false) (hctl : k.ctl = false)
    (h : Keeps k m a1) (e : execResumeCommand a0 a1 = .next t) : Keeps k m t := by
  cases e
  repeat' first
    | with_reducible assumption | intro _ | with_reducible apply State.doResumeCommand_keeps
    | with_reducible apply State.leased_keeps

theorem execArbitrationRound_keeps {a0 : ArbId} {a1 : List Nat} {a2 : State} {t : State} (hregs : k.regs = false)
    (hfab : k.fab = false) (h : Keeps k m a2) (e : execArbitrationRound a0 a1 a2 = .next t) : Keeps k m t := by
  cases e
  repeat' first | with_reducible assumption | with_reducible apply State.doArbitrationRound_keeps

theorem execStageStall_keeps {a0 : Nat} {a1 : Engine} {a2 : State} {t : State} (hregs : k.regs = false)
    (hclusters : k.clusters = false) (hslice : k.slice = false) (hpad : k.pad = false) (hfab : k.fab = false)
    (hcol : k.col = false) (hconf : k.conf = false) (hfirm : k.firm = false) (hboot : k.boot = false) (h : Keeps k m a2)
    (e : execStageStall a0 a1 a2 = .next t) : Keeps k m t := by
  cases e
  repeat' first | with_reducible assumption | with_reducible apply State.doStageStall_keeps

theorem execSpineStall_keeps {a0 : Nat} {a1 : State} {t : State} (hregs : k.regs = false)
    (hclusters : k.clusters = false) (hslice : k.slice = false) (hpad : k.pad = false) (hfab : k.fab = false)
    (hcol : k.col = false) (hconf : k.conf = false) (hfirm : k.firm = false) (hboot : k.boot = false) (h : Keeps k m a1)
    (e : execSpineStall a0 a1 = .next t) : Keeps k m t := by
  cases e
  repeat' first | with_reducible assumption | with_reducible apply State.doSpineStall_keeps

theorem execStepBudget_keeps {a0 : Nat} {a1 : State} {t : State} (hregs : k.regs = false)
    (hclusters : k.clusters = false) (hslice : k.slice = false) (hpad : k.pad = false) (hfab : k.fab = false)
    (hcol : k.col = false) (hconf : k.conf = false) (hfirm : k.firm = false) (hboot : k.boot = false) (h : Keeps k m a1)
    (e : execStepBudget a0 a1 = .next t) : Keeps k m t := by
  cases e
  repeat' first | with_reducible assumption | with_reducible apply State.doStepBudget_keeps

theorem execClusterResetDone_keeps {a0 : Nat} {a1 : Bool} {a2 : State} {t : State} (hregs : k.regs = false)
    (hclusters : k.clusters = false) (hrepair : k.repair = false) (h : Keeps k m a2)
    (e : execClusterResetDone a0 a1 a2 = .next t) : Keeps k m t := by
  cases e
  repeat' first | with_reducible assumption | with_reducible apply State.doClusterResetDone_keeps

theorem execQuadrantResetDone_keeps {a0 : Nat} {a1 : List Nat} {a2 : State} {t : State} (hregs : k.regs = false)
    (hclusters : k.clusters = false) (hrepair : k.repair = false) (hfirm : k.firm = false) (h : Keeps k m a2)
    (e : execQuadrantResetDone a0 a1 a2 = .next t) : Keeps k m t := by
  cases e
  repeat' first | with_reducible assumption | with_reducible apply State.doQuadrantResetDone_keeps

theorem execComputeResetDone_keeps {a0 : List Nat} {a1 : State} {t : State} (hregs : k.regs = false)
    (hclusters : k.clusters = false) (hrepair : k.repair = false) (hfirm : k.firm = false) (h : Keeps k m a1)
    (e : execComputeResetDone a0 a1 = .next t) : Keeps k m t := by
  cases e
  repeat' first | with_reducible assumption | with_reducible apply State.doComputeResetDone_keeps

theorem execResetTimeout_keeps {a0 : ResetLevel} {a1 : Nat} {a2 : State} {t : State} (hregs : k.regs = false)
    (hclusters : k.clusters = false) (hslice : k.slice = false) (hpad : k.pad = false) (hfab : k.fab = false)
    (hcol : k.col = false) (hconf : k.conf = false) (hfirm : k.firm = false) (hboot : k.boot = false) (h : Keeps k m a2)
    (e : execResetTimeout a0 a1 a2 = .next t) : Keeps k m t := by
  cases e
  repeat' first | with_reducible assumption | with_reducible apply State.doResetTimeout_keeps

theorem execSpareBringIn_keeps {a0 : Nat} {a1 : State} {t : State} (hregs : k.regs = false)
    (hclusters : k.clusters = false) (hfab : k.fab = false) (hcol : k.col = false) (hrepair : k.repair = false)
    (h : Keeps k m a1) (e : execSpareBringIn a0 a1 = .next t) : Keeps k m t := by
  cases e
  repeat' first | with_reducible assumption | with_reducible apply State.doSpareBringIn_keeps

theorem execSpareIn_keeps {a0 : Nat} {a1 : Bool} {a2 : State} {t : State} (hregs : k.regs = false)
    (hclusters : k.clusters = false) (hslice : k.slice = false) (hpad : k.pad = false) (hlines : k.lines = false)
    (hrepair : k.repair = false) (h : Keeps k m a2) (e : execSpareIn a0 a1 a2 = .next t) : Keeps k m t := by
  cases e
  repeat' first | with_reducible assumption | with_reducible apply State.doSpareIn_keeps

theorem execRasSpareCtlGo_keeps {a0 : Agent} {a1 : Nat} {a2 : State} {t : State} (hregs : k.regs = false)
    (hctl : k.ctl = false) (h : Keeps k m a2) (e : execRasSpareCtlGo a0 a1 a2 = .next t) : Keeps k m t := by
  cases e
  repeat' first
    | with_reducible assumption | intro _ | with_reducible apply State.doRasSpareCtlGo_keeps
    | with_reducible apply State.leased_keeps

theorem execSelftestCluster_keeps {a0 : Agent} {a1 : Nat} {a2 : State} {t : State} (hregs : k.regs = false)
    (hctl : k.ctl = false) (h : Keeps k m a2) (e : execSelftestCluster a0 a1 a2 = .next t) : Keeps k m t := by
  cases e
  repeat' first
    | with_reducible assumption | intro _ | with_reducible apply State.doSelftestCluster_keeps
    | with_reducible apply State.leased_keeps

theorem execSelftestLane_keeps {a0 : Agent} {a1 : Nat} {a2 : State} {t : State} (hregs : k.regs = false)
    (hctl : k.ctl = false) (h : Keeps k m a2) (e : execSelftestLane a0 a1 a2 = .next t) : Keeps k m t := by
  cases e
  repeat' first
    | with_reducible assumption | intro _ | with_reducible apply State.doSelftestLane_keeps
    | with_reducible apply State.leased_keeps

theorem execSelftestPort_keeps {a0 : Agent} {a1 : Nat} {a2 : State} {t : State} (hregs : k.regs = false)
    (hctl : k.ctl = false) (h : Keeps k m a2) (e : execSelftestPort a0 a1 a2 = .next t) : Keeps k m t := by
  cases e
  repeat' first
    | with_reducible assumption | intro _ | with_reducible apply State.doSelftestPort_keeps
    | with_reducible apply State.leased_keeps

theorem execSelftestController_keeps {a0 : Agent} {a1 : State} {t : State} (hregs : k.regs = false)
    (hctl : k.ctl = false) (h : Keeps k m a1) (e : execSelftestController a0 a1 = .next t) : Keeps k m t := by
  cases e
  repeat' first
    | with_reducible assumption | intro _ | with_reducible apply State.doSelftestController_keeps
    | with_reducible apply State.leased_keeps

theorem execSelftestDone_keeps {a0 : Bool} {a1 : State} {t : State} (hregs : k.regs = false)
    (hclusters : k.clusters = false) (hpad : k.pad = false) (hlines : k.lines = false) (hfab : k.fab = false)
    (hcol : k.col = false) (hrepair : k.repair = false) (h : Keeps k m a1) (e : execSelftestDone a0 a1 = .next t) :
    Keeps k m t := by
  cases e
  repeat' first | with_reducible assumption | with_reducible apply State.doSelftestDone_keeps

theorem execScrubRead_keeps {a0 : Nat} {a1 : Bool} {a2 : Nat} {a3 : State} {t : State} (hregs : k.regs = false)
    (hclusters : k.clusters = false) (hslice : k.slice = false) (hpad : k.pad = false) (hfab : k.fab = false)
    (hcol : k.col = false) (h : Keeps k m a3) (e : execScrubRead a0 a1 a2 a3 = .next t) : Keeps k m t := by
  cases e
  repeat' first | with_reducible assumption | with_reducible apply State.doScrubRead_keeps

theorem execResidentRewrite_keeps {a0 a1 : Nat} {a2 : State} {t : State} (hregs : k.regs = false)
    (hclusters : k.clusters = false) (hslice : k.slice = false) (hpad : k.pad = false) (hlines : k.lines = false)
    (h : Keeps k m a2) (e : execResidentRewrite a0 a1 a2 = .next t) : Keeps k m t := by
  cases e
  repeat' first | with_reducible assumption | with_reducible apply State.doResidentRewrite_keeps

theorem execCollectiveAdmit_keeps {a0 : Nat} {a1 : State} {t : State} (hregs : k.regs = false)
    (hclusters : k.clusters = false) (hslice : k.slice = false) (hpad : k.pad = false) (hfab : k.fab = false)
    (hcol : k.col = false) (hconf : k.conf = false) (hfirm : k.firm = false) (hboot : k.boot = false) (h : Keeps k m a1)
    (e : execCollectiveAdmit a0 a1 = .next t) : Keeps k m t := by
  cases e
  repeat' first
    | with_reducible assumption | with_reducible apply State.escalateHub_keeps
    | with_reducible apply State.doCollectiveAdmit_keeps

theorem execStart_keeps {a0 : Nat} {a1 : Packet} {a2 : State} {t : State} (hregs : k.regs = false)
    (hclusters : k.clusters = false) (hslice : k.slice = false) (hpad : k.pad = false) (hfab : k.fab = false)
    (hcol : k.col = false) (hconf : k.conf = false) (hfirm : k.firm = false) (hboot : k.boot = false) (h : Keeps k m a2)
    (e : execStart a0 a1 a2 = .next t) : Keeps k m t := by
  cases e
  repeat' first
    | with_reducible assumption | with_reducible apply State.escalateHub_keeps | with_reducible apply State.doStart_keeps

theorem execData_keeps {a0 : Nat} {a1 : Packet} {a2 : State} {t : State} (hregs : k.regs = false)
    (hclusters : k.clusters = false) (hslice : k.slice = false) (hpad : k.pad = false) (hfab : k.fab = false)
    (hcol : k.col = false) (hconf : k.conf = false) (hfirm : k.firm = false) (hboot : k.boot = false) (h : Keeps k m a2)
    (e : execData a0 a1 a2 = .next t) : Keeps k m t := by
  cases e
  repeat' first
    | with_reducible assumption | with_reducible apply State.escalateHub_keeps | with_reducible apply State.doData_keeps

theorem execCollAck_keeps {a0 : Nat} {a1 : Packet} {a2 : State} {t : State} (hregs : k.regs = false)
    (hclusters : k.clusters = false) (hslice : k.slice = false) (hpad : k.pad = false) (hfab : k.fab = false)
    (hcol : k.col = false) (hconf : k.conf = false) (hfirm : k.firm = false) (hboot : k.boot = false) (h : Keeps k m a2)
    (e : execCollAck a0 a1 a2 = .next t) : Keeps k m t := by
  cases e
  repeat' first
    | with_reducible assumption | with_reducible apply State.escalateHub_keeps | with_reducible apply State.doCollAck_keeps

theorem execControllerHeartbeat_keeps {a0 : Bool} {a1 : BitVec 16} {a2 : State} {t : State} (hregs : k.regs = false)
    (hctl : k.ctl = false) (h : Keeps k m a2) (e : execControllerHeartbeat a0 a1 a2 = .next t) : Keeps k m t := by
  cases e
  repeat' first | with_reducible assumption | with_reducible apply State.doControllerHeartbeat_keeps

theorem execHealthReport_keeps {a0 a1 a2 a3 : Bool} {a4 : State} {t : State} (hregs : k.regs = false)
    (hcold : k.cold = false) (hctl : k.ctl = false) (h : Keeps k m a4) (e : execHealthReport a0 a1 a2 a3 a4 = .next t) :
    Keeps k m t := by
  cases e
  repeat' first | with_reducible assumption | with_reducible apply State.doHealthReport_keeps

theorem execStandbyUnhealthy_keeps {a0 : Nat} {a1 : State} {t : State} (hregs : k.regs = false) (hctl : k.ctl = false)
    (h : Keeps k m a1) (e : execStandbyUnhealthy a0 a1 = .next t) : Keeps k m t := by
  cases e
  repeat' first | with_reducible assumption | with_reducible apply State.doStandbyUnhealthy_keeps

theorem execLockstepMismatch_keeps {a0 : State} {t : State} (hregs : k.regs = false) (hctl : k.ctl = false)
    (h : Keeps k m a0) (e : execLockstepMismatch a0 = .next t) : Keeps k m t := by
  cases e
  repeat' first | with_reducible assumption | with_reducible apply State.doLockstepMismatch_keeps

theorem execDualActClear_keeps {a0 : State} {t : State} (hregs : k.regs = false) (hctl : k.ctl = false)
    (h : Keeps k m a0) (e : execDualActClear a0 = .next t) : Keeps k m t := by
  cases e
  repeat' first | with_reducible assumption | with_reducible apply State.doDualActClear_keeps

theorem execRelinquish_keeps {a0 : Bool} {a1 : BitVec 16} {a2 : State} {t : State} (hregs : k.regs = false)
    (hctl : k.ctl = false) (hstaged : k.staged = false) (h : Keeps k m a2) (e : execRelinquish a0 a1 a2 = .next t) :
    Keeps k m t := by
  cases e
  repeat' first | with_reducible assumption | with_reducible apply State.doRelinquish_keeps

theorem execInstall_keeps {a0 : Agent} {a1 : Nat} {a2 : State} {t : State} (hregs : k.regs = false)
    (hlines : k.lines = false) (hcold : k.cold = false) (hflash : k.flash = false) (hfirm : k.firm = false)
    (hctl : k.ctl = false) (h : Keeps k m a2) (e : execInstall a0 a1 a2 = .next t) : Keeps k m t := by
  cases e
  repeat' first
    | with_reducible assumption | intro _ | with_reducible apply State.doInstall_keeps
    | with_reducible apply State.leased_keeps

theorem execInstallDone_keeps {a0 : Bool} {a1 : State} {t : State} (hregs : k.regs = false) (hflash : k.flash = false)
    (hfirm : k.firm = false) (h : Keeps k m a1) (e : execInstallDone a0 a1 = .next t) : Keeps k m t := by
  cases e
  repeat' first | with_reducible assumption | with_reducible apply State.doInstallDone_keeps

theorem execGraft_keeps {a0 : Agent} {a1 : Nat} {a2 : State} {t : State} (hregs : k.regs = false)
    (hflash : k.flash = false) (hfirm : k.firm = false) (hctl : k.ctl = false) (h : Keeps k m a2)
    (e : execGraft a0 a1 a2 = .next t) : Keeps k m t := by
  cases e
  repeat' first
    | with_reducible assumption | intro _ | with_reducible apply State.doGraft_keeps
    | with_reducible apply State.leased_keeps

theorem execGraftHandover_keeps {a0 : State} {t : State} (hregs : k.regs = false) (hfirm : k.firm = false)
    (hctl : k.ctl = false) (hstaged : k.staged = false) (h : Keeps k m a0) (e : execGraftHandover a0 = .next t) :
    Keeps k m t := by
  cases e
  repeat' first | with_reducible assumption | with_reducible apply State.doGraftHandover_keeps

theorem execGraftPeerHealthy_keeps {a0 : State} {t : State} (hregs : k.regs = false) (hfirm : k.firm = false)
    (hctl : k.ctl = false) (h : Keeps k m a0) (e : execGraftPeerHealthy a0 = .next t) : Keeps k m t := by
  cases e
  repeat' first | with_reducible assumption | with_reducible apply State.doGraftPeerHealthy_keeps

theorem execMicrocodeLoad_keeps {a0 : Nat} {a1 : State} {t : State} (hregs : k.regs = false) (hfirm : k.firm = false)
    (h : Keeps k m a1) (e : execMicrocodeLoad a0 a1 = .next t) : Keeps k m t := by
  cases e
  repeat' first | with_reducible assumption | with_reducible apply State.doMicrocodeLoad_keeps

theorem execGraftWindowExpiry_keeps {a0 : State} {t : State} (hregs : k.regs = false) (hfirm : k.firm = false)
    (h : Keeps k m a0) (e : execGraftWindowExpiry a0 = .next t) : Keeps k m t := by
  cases e
  repeat' first | with_reducible assumption | with_reducible apply State.doGraftWindowExpiry_keeps

theorem execReject_keeps {a0 : Agent} {a1 : State} {t : State} (hregs : k.regs = false) (hfirm : k.firm = false)
    (hctl : k.ctl = false) (h : Keeps k m a1) (e : execReject a0 a1 = .next t) : Keeps k m t := by
  cases e
  repeat' first
    | with_reducible assumption | intro _ | with_reducible apply State.doReject_keeps
    | with_reducible apply State.leased_keeps

theorem execFallback_keeps {a0 : State} {t : State} (hregs : k.regs = false) (hflash : k.flash = false)
    (hfirm : k.firm = false) (hctl : k.ctl = false) (hstaged : k.staged = false) (h : Keeps k m a0)
    (e : execFallback a0 = .next t) : Keeps k m t := by
  cases e
  repeat' first | with_reducible assumption | with_reducible apply State.doFallback_keeps

theorem execFallbackDone_keeps {a0 : State} {t : State} (hregs : k.regs = false) (hfirm : k.firm = false)
    (hctl : k.ctl = false) (h : Keeps k m a0) (e : execFallbackDone a0 = .next t) : Keeps k m t := by
  cases e
  repeat' first | with_reducible assumption | with_reducible apply State.doFallbackDone_keeps

theorem execFwuTake_keeps {a0 : Bool} {a1 : BitVec 16} {a2 : State} {t : State} (hregs : k.regs = false)
    (hcold : k.cold = false) (hflash : k.flash = false) (hfirm : k.firm = false) (hctl : k.ctl = false) (h : Keeps k m a2)
    (e : execFwuTake a0 a1 a2 = .next t) : Keeps k m t := by
  cases e
  repeat' first | with_reducible assumption | with_reducible apply State.doFwuTake_keeps

theorem execConfigWrite_keeps {a0 : Agent} {a1 : Nat} {a2 : State} {t : State} (hregs : k.regs = false)
    (hlines : k.lines = false) (hflash : k.flash = false) (hfirm : k.firm = false) (hctl : k.ctl = false)
    (h : Keeps k m a2) (e : execConfigWrite a0 a1 a2 = .next t) : Keeps k m t := by
  cases e
  repeat' first
    | with_reducible assumption | intro _ | with_reducible apply State.doConfigWrite_keeps
    | with_reducible apply State.leased_keeps

theorem execLaneCal_keeps {a0 : Agent} {a1 : Nat} {a2 : State} {t : State} (hregs : k.regs = false)
    (hctl : k.ctl = false) (h : Keeps k m a2) (e : execLaneCal a0 a1 a2 = .next t) : Keeps k m t := by
  cases e
  repeat' first
    | with_reducible assumption | intro _ | with_reducible apply State.doLaneCal_keeps
    | with_reducible apply State.leased_keeps

theorem execBegin_keeps {a0 : Nat} {a1 : State} {t : State} (hregs : k.regs = false) (hfirm : k.firm = false)
    (h : Keeps k m a1) (e : execBegin a0 a1 = .next t) : Keeps k m t := by
  cases e
  repeat' first | with_reducible assumption | with_reducible apply State.doBegin_keeps

theorem execBlock_keeps {a0 a1 : Nat} {a2 : State} {t : State} (hregs : k.regs = false) (hflash : k.flash = false)
    (hfirm : k.firm = false) (h : Keeps k m a2) (e : execBlock a0 a1 a2 = .next t) : Keeps k m t := by
  cases e
  repeat' first | with_reducible assumption | with_reducible apply State.doBlock_keeps

theorem execSeedEnd_keeps {a0 : State} {t : State} (hregs : k.regs = false) (hflash : k.flash = false)
    (hfirm : k.firm = false) (hboot : k.boot = false) (h : Keeps k m a0) (e : execSeedEnd a0 = .next t) : Keeps k m t := by
  cases e
  repeat' first | with_reducible assumption | with_reducible apply State.doSeedEnd_keeps

theorem execSeedAbort_keeps {a0 : State} {t : State} (hregs : k.regs = false) (hflash : k.flash = false)
    (hfirm : k.firm = false) (h : Keeps k m a0) (e : execSeedAbort a0 = .next t) : Keeps k m t := by
  cases e
  repeat' first | with_reducible assumption | with_reducible apply State.doSeedAbort_keeps

theorem execTakeover_keeps {a0 : State} {t : State} (hregs : k.regs = false) (hfirm : k.firm = false)
    (hctl : k.ctl = false) (hstaged : k.staged = false) (h : Keeps k m a0) (e : execTakeover a0 = .next t) : Keeps k m t
    := by
  cases e
  repeat' first | with_reducible assumption | with_reducible apply State.doTakeoverGraft_keeps

theorem execRecover_keeps {a0 : Agent} {a1 : State} {t : State} (hregs : k.regs = false)
    (hclusters : k.clusters = false) (hslice : k.slice = false) (hpad : k.pad = false) (hfab : k.fab = false)
    (hcol : k.col = false) (hconf : k.conf = false) (hflash : k.flash = false) (hfirm : k.firm = false)
    (hctl : k.ctl = false) (hboot : k.boot = false) (hstaged : k.staged = false) (h : Keeps k m a1)
    (e : execRecover a0 a1 = .next t) : Keeps k m t := by
  cases e
  repeat' first
    | with_reducible assumption | intro _ | with_reducible apply State.doRecoverGraft_keeps
    | with_reducible apply State.leased_keeps

theorem execLogEntryWrite_keeps {a0 : State} {t : State} (hregs : k.regs = false) (h : Keeps k m a0)
    (e : execLogEntryWrite a0 = .next t) : Keeps k m t := by
  cases e
  repeat' first | with_reducible assumption | with_reducible apply State.doLogEntryWrite_keeps

theorem execLogGap_keeps {a0 : State} {t : State} (hregs : k.regs = false) (h : Keeps k m a0)
    (e : execLogGap a0 = .next t) : Keeps k m t := by
  cases e
  repeat' first | with_reducible assumption | with_reducible apply State.doLogGap_keeps

theorem execLogMirrorCopy_keeps {a0 : State} {t : State} (hregs : k.regs = false) (hlines : k.lines = false)
    (h : Keeps k m a0) (e : execLogMirrorCopy a0 = .next t) : Keeps k m t := by
  cases e
  repeat' first | with_reducible assumption | with_reducible apply State.doLogMirrorCopy_keeps

theorem execLogReadSelWrite_keeps {a0 : Agent} {a1 : Word} {a2 : State} {t : State} (hregs : k.regs = false)
    (hctl : k.ctl = false) (h : Keeps k m a2) (e : execLogReadSelWrite a0 a1 a2 = .next t) : Keeps k m t := by
  cases e
  repeat' first
    | with_reducible assumption | intro _ | with_reducible apply State.doLogReadSelWrite_keeps
    | with_reducible apply State.leased_keeps

theorem execWipeDone_keeps {a0 : State} {t : State} (hregs : k.regs = false) (hcold : k.cold = false)
    (h : Keeps k m a0) (e : execWipeDone a0 = .next t) : Keeps k m t := by
  cases e
  repeat' first | with_reducible assumption | with_reducible apply State.doWipeDone_keeps

theorem execTamper_keeps {a0 : State} {t : State} (hregs : k.regs = false) (hkeys : k.keys = false)
    (hcold : k.cold = false) (h : Keeps k m a0) (e : execTamper a0 = .next t) : Keeps k m t := by
  cases e
  repeat' first | with_reducible assumption | with_reducible apply State.doTamper_keeps

theorem execColdFrameScrub_keeps {a0 : State} {t : State} (hregs : k.regs = false) (hkeys : k.keys = false)
    (h : Keeps k m a0) (e : execColdFrameScrub a0 = .next t) : Keeps k m t := by
  cases e
  repeat' first | with_reducible assumption | with_reducible apply State.doColdFrameScrub_keeps

theorem execSetRoles_keeps {a0 : Agent} {a1 : State} {t : State} (hregs : k.regs = false) (hcold : k.cold = false)
    (hctl : k.ctl = false) (h : Keeps k m a1) (e : execSetRoles a0 a1 = .next t) : Keeps k m t := by
  cases e
  repeat' first
    | with_reducible assumption | intro _ | with_reducible apply State.doSetRoles_keeps
    | with_reducible apply State.leased_keeps

theorem execLifecycle_keeps {a0 : Agent} {a1 : State} {t : State} (hregs : k.regs = false) (hkeys : k.keys = false)
    (hcold : k.cold = false) (hctl : k.ctl = false) (h : Keeps k m a1) (e : execLifecycle a0 a1 = .next t) : Keeps k m t
    := by
  cases e
  repeat' first
    | with_reducible assumption | intro _ | with_reducible apply State.doLifecycle_keeps
    | with_reducible apply State.leased_keeps

theorem execWipe_keeps {a0 : Agent} {a1 : State} {t : State} (hregs : k.regs = false) (hkeys : k.keys = false)
    (hcold : k.cold = false) (hctl : k.ctl = false) (h : Keeps k m a1) (e : execWipe a0 a1 = .next t) : Keeps k m t := by
  cases e
  repeat' first
    | with_reducible assumption | intro _ | with_reducible apply State.doWipe_keeps
    | with_reducible apply State.leased_keeps

theorem execFwAuthorise_keeps {a0 : Agent} {a1 : State} {t : State} (hregs : k.regs = false) (hcold : k.cold = false)
    (hctl : k.ctl = false) (h : Keeps k m a1) (e : execFwAuthorise a0 a1 = .next t) : Keeps k m t := by
  cases e
  repeat' first
    | with_reducible assumption | intro _ | with_reducible apply State.doFwAuthorise_keeps
    | with_reducible apply State.leased_keeps

theorem execInstallKtk_keeps {a0 : Agent} {a1 : State} {t : State} (hregs : k.regs = false) (hkeys : k.keys = false)
    (hctl : k.ctl = false) (h : Keeps k m a1) (e : execInstallKtk a0 a1 = .next t) : Keeps k m t := by
  cases e
  repeat' first
    | with_reducible assumption | intro _ | with_reducible apply State.doInstallKtk_keeps
    | with_reducible apply State.leased_keeps

theorem execClearKtk_keeps {a0 : Agent} {a1 : State} {t : State} (hregs : k.regs = false) (hkeys : k.keys = false)
    (hctl : k.ctl = false) (h : Keeps k m a1) (e : execClearKtk a0 a1 = .next t) : Keeps k m t := by
  cases e
  repeat' first
    | with_reducible assumption | intro _ | with_reducible apply State.doClearKtk_keeps
    | with_reducible apply State.leased_keeps

theorem execEntdaa_keeps {a0 : BitVec 7} {a1 : State} {t : State} (h : Keeps k m a1) (e : execEntdaa a0 a1 = .next t) :
    Keeps k m t := by
  cases e
  repeat' first | with_reducible assumption | with_reducible apply State.doEntdaa_keeps

theorem execSetdasa_keeps {a0 : BitVec 7} {a1 : State} {t : State} (h : Keeps k m a1) (e : execSetdasa a0 a1 = .next t)
    : Keeps k m t := by
  cases e
  repeat' first | with_reducible assumption | with_reducible apply State.doSetdasa_keeps

theorem execI3cMctpReceive_keeps {a0 : Nat} {a1 : Bytes} {a2 : State} {t : State} (h : Keeps k m a2)
    (e : execI3cMctpReceive a0 a1 a2 = .next t) : Keeps k m t := by
  cases e
  repeat' first | with_reducible assumption

theorem execGetVersion_keeps {a0 : Endpoint} {a1 : State} {t : State} (h : Keeps k m a1)
    (e : execGetVersion a0 a1 = .next t) : Keeps k m t := by
  cases e
  repeat' first | with_reducible assumption | with_reducible apply State.doGetVersion_keeps

theorem execGetCapabilities_keeps {a0 : Endpoint} {a1 : State} {t : State} (h : Keeps k m a1)
    (e : execGetCapabilities a0 a1 = .next t) : Keeps k m t := by
  cases e
  repeat' first | with_reducible assumption | with_reducible apply State.doGetCapabilities_keeps

theorem execNegotiateAlgorithms_keeps {a0 : Endpoint} {a1 : State} {t : State} (h : Keeps k m a1)
    (e : execNegotiateAlgorithms a0 a1 = .next t) : Keeps k m t := by
  cases e
  repeat' first | with_reducible assumption | with_reducible apply State.doNegotiateAlgorithms_keeps

theorem execGetDigests_keeps {a0 : Endpoint} {a1 : State} {t : State} (h : Keeps k m a1)
    (e : execGetDigests a0 a1 = .next t) : Keeps k m t := by
  cases e
  repeat' first | with_reducible assumption | with_reducible apply State.doGetDigests_keeps

theorem execGetCertificate_keeps {a0 : Endpoint} {a1 a2 : Nat} {a3 : State} {t : State} (h : Keeps k m a3)
    (e : execGetCertificate a0 a1 a2 a3 = .next t) : Keeps k m t := by
  cases e
  repeat' first | with_reducible assumption | with_reducible apply State.doGetCertificate_keeps

theorem execChallenge_keeps {a0 : Endpoint} {a1 : Bytes} {a2 : State} {t : State} (h : Keeps k m a2)
    (e : execChallenge a0 a1 a2 = .next t) : Keeps k m t := by
  cases e
  repeat' first | with_reducible assumption | with_reducible apply State.doChallenge_keeps

theorem execGetMeasurements_keeps {a0 : Endpoint} {a1 : Nat} {a2 : Bool} {a3 : Bytes} {a4 : State} {t : State}
    (h : Keeps k m a4) (e : execGetMeasurements a0 a1 a2 a3 a4 = .next t) : Keeps k m t := by
  cases e
  repeat' first | with_reducible assumption | with_reducible apply State.doGetMeasurements_keeps

theorem execSpdmSignatureDone_keeps {a0 : State} {t : State} (h : Keeps k m a0)
    (e : execSpdmSignatureDone a0 = .next t) : Keeps k m t := by
  cases e
  repeat' first | with_reducible assumption | with_reducible apply State.doSpdmSignatureDone_keeps

theorem execGetPdrRepositoryInfo_keeps {a0 : State} {t : State} (h : Keeps k m a0)
    (e : execGetPdrRepositoryInfo a0 = .next t) : Keeps k m t := by
  cases e
  repeat' first | with_reducible assumption | with_reducible apply State.doGetPdrRepositoryInfo_keeps

theorem execGetPdr_keeps {a0 : Nat} {a1 : State} {t : State} (h : Keeps k m a1) (e : execGetPdr a0 a1 = .next t) :
    Keeps k m t := by
  cases e
  repeat' first | with_reducible assumption | with_reducible apply State.doGetPdr_keeps

theorem execGetSensorReading_keeps {a0 : Nat} {a1 : State} {t : State} (h : Keeps k m a1)
    (e : execGetSensorReading a0 a1 = .next t) : Keeps k m t := by
  cases e
  repeat' first | with_reducible assumption | with_reducible apply State.doGetSensorReading_keeps

theorem execGetStateSensorReadings_keeps {a0 : Nat} {a1 : State} {t : State} (h : Keeps k m a1)
    (e : execGetStateSensorReadings a0 a1 = .next t) : Keeps k m t := by
  cases e
  repeat' first | with_reducible assumption | with_reducible apply State.doGetStateSensorReadings_keeps

theorem execSetNumericEffecterValue_keeps {a0 : Bool} {a1 a2 : Nat} {a3 : State} {t : State} (hregs : k.regs = false)
    (h : Keeps k m a3) (e : execSetNumericEffecterValue a0 a1 a2 a3 = .next t) : Keeps k m t := by
  cases e
  repeat' first | with_reducible assumption | with_reducible apply State.doSetNumericEffecterValue_keeps

theorem execGetNumericEffecterValue_keeps {a0 : Nat} {a1 : State} {t : State} (h : Keeps k m a1)
    (e : execGetNumericEffecterValue a0 a1 = .next t) : Keeps k m t := by
  cases e
  repeat' first | with_reducible assumption | with_reducible apply State.doGetNumericEffecterValue_keeps

theorem execPollForPlatformEventMessage_keeps {a0 : State} {t : State} (h : Keeps k m a0)
    (e : execPollForPlatformEventMessage a0 = .next t) : Keeps k m t := by
  cases e
  repeat' first | with_reducible assumption | with_reducible apply State.doPollForPlatformEventMessage_keeps

theorem execPldmFirmwareUpdate_keeps {a0 : Endpoint} {a1 : Nat} {a2 : Bytes} {a3 : State} {t : State}
    (hregs : k.regs = false) (hcold : k.cold = false) (hflash : k.flash = false) (hfirm : k.firm = false)
    (h : Keeps k m a3) (e : execPldmFirmwareUpdate a0 a1 a2 a3 = .next t) : Keeps k m t := by
  cases e
  repeat' first | with_reducible assumption | with_reducible apply State.doPldmFirmwareUpdate_keeps

theorem execActivateFirmware_keeps {a0 : Endpoint} {a1 : State} {t : State} (hregs : k.regs = false)
    (hflash : k.flash = false) (hfirm : k.firm = false) (h : Keeps k m a1) (e : execActivateFirmware a0 a1 = .next t) :
    Keeps k m t := by
  cases e
  repeat' first | with_reducible assumption | with_reducible apply State.doActivateFirmware_keeps

theorem execTimeSyncRequestSend_keeps {a0 : Nat} {a1 : State} {t : State} (hfab : k.fab = false) (h : Keeps k m a1)
    (e : execTimeSyncRequestSend a0 a1 = .next t) : Keeps k m t := by
  cases e
  repeat' first | with_reducible assumption | with_reducible apply State.doTimeSyncRequestSend_keeps

theorem execTimeSyncRequest_keeps {a0 : Nat} {a1 : SyncMsg} {a2 : State} {t : State} (hfab : k.fab = false)
    (h : Keeps k m a2) (e : execTimeSyncRequest a0 a1 a2 = .next t) : Keeps k m t := by
  cases e
  repeat' first | with_reducible assumption | with_reducible apply State.doTimeSyncRequest_keeps

theorem execTimeSyncResponse_keeps {a0 : Nat} {a1 : SyncMsg} {a2 : State} {t : State} (hregs : k.regs = false)
    (hfab : k.fab = false) (h : Keeps k m a2) (e : execTimeSyncResponse a0 a1 a2 = .next t) : Keeps k m t := by
  cases e
  repeat' first | with_reducible assumption | with_reducible apply State.doTimeSyncResponse_keeps

theorem execHoldover_keeps {a0 : State} {t : State} (hregs : k.regs = false) (h : Keeps k m a0)
    (e : execHoldover a0 = .next t) : Keeps k m t := by
  cases e
  repeat' first | with_reducible assumption | with_reducible apply State.doHoldover_keeps

theorem execBecomeRoot_keeps {a0 : State} {t : State} (hregs : k.regs = false) (h : Keeps k m a0)
    (e : execBecomeRoot a0 = .next t) : Keeps k m t := by
  cases e
  repeat' first | with_reducible assumption | with_reducible apply State.doBecomeRoot_keeps

theorem execRefclkLoss_keeps {a0 : State} {t : State} (hregs : k.regs = false) (hclusters : k.clusters = false)
    (hfab : k.fab = false) (hcol : k.col = false) (hboot : k.boot = false) (hcfg : k.cfg = false) (h : Keeps k m a0)
    (e : execRefclkLoss a0 = .next t) : Keeps k m t := by
  cases e
  repeat' first | with_reducible assumption | with_reducible apply State.doRefclkLoss_keeps

theorem execRefclkReturn_keeps {a0 : State} {t : State} (hregs : k.regs = false) (hclusters : k.clusters = false)
    (hfab : k.fab = false) (hcol : k.col = false) (hcold : k.cold = false) (hboot : k.boot = false) (h : Keeps k m a0)
    (e : execRefclkReturn a0 = .next t) : Keeps k m t := by
  cases e
  repeat' first | with_reducible assumption | with_reducible apply State.doRefclkReturn_keeps

theorem execSnapLatchExpiry_keeps {a0 : Agent} {a1 : Nat} {a2 : State} {t : State} (h : Keeps k m a2)
    (e : execSnapLatchExpiry a0 a1 a2 = .next t) : Keeps k m t := by
  cases e
  repeat' first | with_reducible assumption | with_reducible apply State.doSnapLatchExpiry_keeps

theorem execGlbSnapCtlWrite_keeps {a0 : Agent} {a1 : Word} {a2 : State} {t : State} (hregs : k.regs = false)
    (hctl : k.ctl = false) (h : Keeps k m a2) (e : execGlbSnapCtlWrite a0 a1 a2 = .next t) : Keeps k m t := by
  cases e
  repeat' first
    | with_reducible assumption | intro _ | with_reducible apply State.doGlbSnapCtlWrite_keeps
    | with_reducible apply State.leased_keeps

theorem execSnapRead_keeps {a0 : Agent} {a1 a2 : Nat} {a3 : State} {t : State} (h : Keeps k m a3)
    (e : execSnapRead a0 a1 a2 a3 = .next t) : Keeps k m t := by
  cases e
  repeat' first | with_reducible assumption | with_reducible apply State.doSnapRead_keeps

theorem execControlReadOversize_keeps {a0 a1 : Nat} {a2 : State} {t : State} (hregs : k.regs = false)
    (h : Keeps k m a2) (e : execControlReadOversize a0 a1 a2 = .next t) : Keeps k m t := by
  cases e
  repeat' first | with_reducible assumption | with_reducible apply State.doControlReadOversize_keeps

theorem execRegisterWrite_keeps {a0 : Agent} {a1 a2 : Nat} {a3 : Word} {a4 : State} {t : State}
    (hregs : k.regs = false) (hclusters : k.clusters = false) (hslice : k.slice = false) (hpad : k.pad = false)
    (hlines : k.lines = false) (hslots : k.slots = false) (htables : k.tables = false) (hkeys : k.keys = false)
    (hfab : k.fab = false) (hcol : k.col = false) (hconf : k.conf = false) (hrepair : k.repair = false)
    (hcold : k.cold = false) (hflash : k.flash = false) (hfirm : k.firm = false) (hctl : k.ctl = false)
    (hboot : k.boot = false) (hstaged : k.staged = false) (h : Keeps k m a4)
    (e : execRegisterWrite a0 a1 a2 a3 a4 = .next t) : Keeps k m t := by
  cases e
  repeat' first
    | with_reducible assumption | intro _ | with_reducible apply State.doRegisterWrite_keeps
    | with_reducible apply State.leased_keeps

theorem execTelTempMaxWrite_keeps {a0 : Agent} {a1 : Nat} {a2 : State} {t : State} (hregs : k.regs = false)
    (hctl : k.ctl = false) (h : Keeps k m a2) (e : execTelTempMaxWrite a0 a1 a2 = .next t) : Keeps k m t := by
  cases e
  repeat' first
    | with_reducible assumption | intro _ | with_reducible apply State.doTelTempMaxWrite_keeps
    | with_reducible apply State.leased_keeps

theorem execControllerWrite_keeps {a0 : Bool} {a1 : BitVec 16} {a2 a3 : Nat} {a4 : Word} {a5 : State} {t : State}
    (hregs : k.regs = false) (hclusters : k.clusters = false) (hslice : k.slice = false) (hpad : k.pad = false)
    (hlines : k.lines = false) (hslots : k.slots = false) (htables : k.tables = false) (hkeys : k.keys = false)
    (hfab : k.fab = false) (hcol : k.col = false) (hconf : k.conf = false) (hrepair : k.repair = false)
    (hcold : k.cold = false) (hflash : k.flash = false) (hfirm : k.firm = false) (hctl : k.ctl = false)
    (hboot : k.boot = false) (hstaged : k.staged = false) (h : Keeps k m a5)
    (e : execControllerWrite a0 a1 a2 a3 a4 a5 = .next t) : Keeps k m t := by
  cases e
  repeat' first | with_reducible assumption | with_reducible apply State.doControllerWrite_keeps

theorem execTckRisingEdge_keeps {a0 a1 : Bool} {a2 : List Bool} {a3 : State} {t : State} (htap : k.tap = false)
    (h : Keeps k m a3) (e : execTckRisingEdge a0 a1 a2 a3 = .next t) : Keeps k m t := by
  cases e
  repeat' first | with_reducible assumption | with_reducible apply State.doTckRisingEdge_keeps

theorem execTrstN_keeps {a0 : Bool} {a1 : State} {t : State} (htap : k.tap = false) (h : Keeps k m a1)
    (e : execTrstN a0 a1 = .next t) : Keeps k m t := by
  cases e
  repeat' first | with_reducible assumption | with_reducible apply State.doTrstN_keeps

end Sys2Proof.Machine
end

