-- ==== Sys2Proof/Laws/Slots.lean ====
section
/-! SUPPORT. What a state record in the last place of a slot's sector says. -/

namespace Sys2Proof.Machine

theorem length_bytesOfNat (n v : Nat) : (bytesOfNat n v).length = n := by
  induction n generalizing v with
  | zero => rfl
  | succ n ih => simp [bytesOfNat, ih]

/-- The bytes of a record of STATE `st` whose header digest is `h` (R758). -/
def recordOf (st : Nat) (h : Bytes) : Bytes :=
  let b := bytesOfNat 4 0x52535856 ++ bytesOfNat 4 st ++ bytesOfNat 8 0 ++ h
  b ++ shake256 b 16

theorem length_recordOf (st : Nat) (h : Bytes) (hl : h.length = 32) : (recordOf st h).length = 64 := by
  simp [recordOf, length_bytesOfNat, length_shake256, hl]

theorem recordWhole_recordOf (st : Nat) (h : Bytes) (hl : h.length = 32) : recordWhole (recordOf st h) = true := by
  have h1 : (recordOf st h).take 48 = bytesOfNat 4 0x52535856 ++ bytesOfNat 4 st ++ bytesOfNat 8 0 ++ h := by
    unfold recordOf
    exact List.take_left' (by simp [length_bytesOfNat, hl])
  have h2 : (recordOf st h).drop 48 = shake256 (bytesOfNat 4 0x52535856 ++ bytesOfNat 4 st ++ bytesOfNat 8 0 ++ h) 16 := by
    unfold recordOf
    exact List.drop_left' (by simp [length_bytesOfNat, hl])
  unfold recordWhole cutAt
  rw [h1, h2, List.take_of_length_le (Nat.le_of_eq (length_shake256 ..))]
  have h3 : (recordOf st h).take 4 = bytesOfNat 4 0x52535856 := by
    unfold recordOf
    rw [List.append_assoc, List.append_assoc, List.append_assoc]
    exact List.take_left' (length_bytesOfNat _ _)
  unfold numAt
  rw [List.drop_zero, h3, decide_eq_true rfl, Bool.and_true]
  decide

theorem cutAt_recordOf (st : Nat) (h : Bytes) (hl : h.length = 32) : cutAt (recordOf st h) 16 32 = h := by
  unfold cutAt recordOf
  dsimp only
  rw [List.append_assoc (bytesOfNat 4 0x52535856 ++ bytesOfNat 4 st ++ bytesOfNat 8 0) h,
    List.drop_left' (by simp [length_bytesOfNat]), List.take_left' hl]

theorem numAt_recordOf (st : Nat) (h : Bytes) (hs : st < 256) : numAt (recordOf st h) 4 1 = st := by
  have : (recordOf st h).drop 4 = bytesOfNat 4 st ++ (bytesOfNat 8 0 ++ (h ++
      shake256 (bytesOfNat 4 0x52535856 ++ bytesOfNat 4 st ++ bytesOfNat 8 0 ++ h) 16)) := by
    unfold recordOf
    simp only [List.append_assoc]
    exact List.drop_left' (length_bytesOfNat _ _)
  unfold numAt
  rw [this]
  simp [bytesOfNat, natOfBytes]
  omega

/-- A whole record in the last place of a slot's sector is the slot's current one. -/
theorem State.slotState_recordOf (s : State) (k st : Nat) (hb : s.boot.flashBad = false) (hs : st < 256) :
    (s.flashWrite (slotSector k + 64 * 63) (recordOf st (headerDigest (s.slotHeader k) 32))).slotState k = st := by
  have hl : (headerDigest (s.slotHeader k) 32).length = 32 := length_shake256 _ _
  generalize hd : headerDigest (s.slotHeader k) 32 = d at *
  generalize ht : s.flashWrite (slotSector k + 64 * 63) (recordOf st d) = t
  have hb' : t.boot.flashBad = false := by rw [← ht]; exact hb
  have h1 : t.recordAt k 63 = recordOf st d := by
    unfold State.recordAt State.flashRead
    rw [hb', if_neg Bool.false_ne_true, ← ht]
    unfold State.flashWrite
    have := mread_mwrite_same flashByte s.flash (slotSector k + 64 * 63) (recordOf st d)
    rwa [length_recordOf st d hl] at this
  have h2 : t.slotHeader k = s.slotHeader k := by
    unfold State.slotHeader State.flashRead
    rw [hb', hb, if_neg Bool.false_ne_true, if_neg Bool.false_ne_true, ← ht]
    unfold State.flashWrite
    exact mread_mwrite_apart flashByte _ _ _ _ _ (by rw [length_recordOf st d hl]; unfold slotSector headerBytes; omega)
  have h3 : t.lastRecord k = some 63 := by
    unfold State.lastRecord
    have : (List.range 64).reverse = 63 :: (List.range 63).reverse := by decide
    rw [this, List.find?_cons_of_pos (by rw [h1]; exact recordWhole_recordOf st d hl)]
  unfold State.slotState State.slotRecord
  rw [h3]
  dsimp only
  rw [h1, h2, hd, if_pos (cutAt_recordOf st d hl)]
  exact numAt_recordOf st d hs

/-- The state of a slot is a function of the flash and of whether it answers. -/
theorem State.slotState_flash {s t : State} (h : t.flash = s.flash) (hb : t.boot.flashBad = s.boot.flashBad) (k : Nat) :
    t.slotState k = s.slotState k := by
  simp only [State.slotState, State.slotRecord, State.lastRecord, State.recordAt, State.slotHeader, State.flashRead, h, hb]
  rfl

end Sys2Proof.Machine
end

