-- ==== Sys2Proof/Tests/Slice0.lean ====
section
/-! SUPPORT. Tests: an ill-formed command for every check of `Instr.wellFormed`, the manual's worked examples, and for every
statement with hypotheses a theorem `wit_<statement>` that shows a concrete state and operands meeting them, clause by clause. -/

namespace Sys2Proof.Tests
open Sys2Proof Sys2Proof.Machine Sys2Proof.Safety

/- One test at a time: the kernel evaluates whole states, and several at once take memory that the check does not have. -/
set_option Elab.async false

/-! ### Ill-formed commands

One term for each check of `Instr.wellFormed`, each just outside its range. -/

/-- A packet of zeros. -/
def noPacket : Packet := ⟨0, 0, 0, 0, [], false⟩

theorem test_ill_formed_1_refused : ([
    .registerWrite .host 67108864 1 0, .registerWrite .host 0 0 0, .registerWrite .host 0 9 0,
    .controlReadOversize 67108864 9, .controlReadOversize 0 8, .snapRead .host 67108864 1, .snapRead .host 0 0,
    .snapRead .host 7 2, .snapLatchExpiry .host 784, .commit .host 784, .clusterCommitApply 264,
    .deferredCommitApply 784, .tlyAdd .host 16384 0, .telTempMaxWrite .host 140, .cringHeadWrite .host 64 0,
    .laneReset .host 16, .intakeWrite 0 (some (List.replicate 4097 none)), .laneStallTimeout 16, .take 16, .creditWrite 16,
    .teardownDone 65536, .imageLoaded 16, .imageSourceRefused 16, .completionRecordWrite 64, .coalesceTimeout 64,
    .msixPendingSend 2048, .nop 264, .halt 264, .wload 264, .mma 264, .mmaMerge 264, .mmaAdapt 264, .drain 264,
    .accClear 264, .accScale 264, .vadd 264, .vmul 264, .vfma 264, .vmax 264,
    .vmin 264] : List Instr).all (fun c => !c.wellFormed) = true := by
  decide +kernel

theorem test_ill_formed_2_refused : ([
    .vcmp 264, .vselect 264, .vcvt 264, .vsfuExp 264, .vsfuLog 264, .vsfuReciprocal 264, .vsfuRsqrt 264,
    .vsfuTanh 264, .vsfuSigmoid 264, .vsfuGelu 264, .vreduceSum 264, .vreduceMax 264, .vreduceMin 264, .vsoftmax 264,
    .vnormRms 264, .vnormLayer 264, .vrandUniform 264, .vrandRaw 264, .vtopk 264, .vgather 264, .vscatter 264,
    .lmove 264, .tmovePull 264, .tmovePush 264, .barrowInbound 264, .barrowOutbound 264, .ringCfg 264, .twait 264,
    .tsignal 264, .taddRemote 264, .fence 264, .loopD 264, .endloop 264, .branchTally 264, .call 264, .ret 264,
    .stepEnd 264, .descriptorStart 264 .tensor, .descriptorComplete 264 0,
    .hubTallySignalLand 264 0] : List Instr).all (fun c => !c.wellFormed) = true := by
  decide +kernel

theorem test_ill_formed_3_refused : ([
    .collEnterAllReduce 264, .collEnterReduceScatter 264, .collEnterAllGather 264, .collEnterBroadcast 264,
    .collEnterPass 264, .stepCommit 65536, .stepFail 65536, .stepReplay 65536, .scrubRead 264 true 0,
    .scrubRead 0 true 16, .scrubRead 0 false 64, .residentRewrite 264 0, .memGroupReceive 16 0 true,
    .memOpticalLaneFail 16 ⟨0, none⟩, .memOpticalLaneFail 0 ⟨4, none⟩, .memSpareDone 16, .memLaneRetrain 16,
    .memLaneUp 16 ⟨true, 4, 0, true, true, true, 0, false, false⟩, .memLaneCtlRetrain 16, .memoryReplyTimeout 16,
    .mirrorResyncDone 16, .tierScrubRead 32, .memEvacGo 16, .memMigrateGo 524288, .fabricFrameReceive 32 0 true,
    .fabLaneFail 32 ⟨0, none⟩, .fabLaneFail 0 ⟨4, none⟩, .fabSpareDone 32, .portLossOfLight 32, .portRetrain 32, .portUp 32,
    .fabPortRetrain 32, .portRetryTimer 32, .hello 32 ⟨0, 0, 0, 0, 0, 0⟩, .laneChange 32 [], .resetNotice 32 1,
    .resetNotice 0 0, .resetNotice 0 6, .portDark 32,
    .packetForward 32 noPacket] : List Instr).all (fun c => !c.wellFormed) = true := by
  decide +kernel

theorem test_ill_formed_4_refused : ([
    .write 32 noPacket, .tadd 32 noPacket, .circSetup 32 noPacket, .circTeardown 32 noPacket, .ack 32 noPacket,
    .portDrainEnd 32, .setup 16, .circuitTeardownWrite 16, .collectiveReady 4096, .collectiveAdmit 4096,
    .collectiveComplete 4096, .enter 32 noPacket, .start 32 noPacket, .data 32 noPacket, .ready 32 noPacket,
    .abort 32 noPacket, .collAck 32 noPacket, .enterRetry 4096 0, .enterRetry 0 64, .readyResend 65536,
    .hostOpticalLaneFail ⟨16, none⟩, .hostReadCompletion 768 0 .ok [], .hostCompletionTimeout 768, .droopStep 4 0,
    .droopStep 0 4, .droopRecover 4 0, .droopRecover 0 4, .tempSensorConvert 140 0, .thermalTrip 140 0,
    .stageStall 264 .tensor, .clusterResetDone 264 true, .quadrantResetDone 13 [], .quadrantResetDone 30 [],
    .spineStall 4, .stepBudget 65536, .spareBringIn 256, .spareIn 256 true, .rasSpareCtlGo .host 256,
    .controllerWrite true 0 67108864 1 0,
    .controllerWrite true 0 0 0 0] : List Instr).all (fun c => !c.wellFormed) = true := by
  decide +kernel

theorem test_ill_formed_5_refused : ([
    .controllerWrite true 0 0 9 0, .microcodeLoad 264, .laneCal .host 13, .begin 2, .block 65536 0,
    .timeSyncRequestSend 32, .timeSyncRequest 32 ⟨true, true, 0, 0, 0, 0, 0, 0⟩,
    .timeSyncResponse 32 ⟨true, true, 0, 0, 0, 0, 0, 0⟩,
    .lightReturns 32] : List Instr).all (fun c => !c.wellFormed) = true := by
  decide +kernel

/-! ### The manual's worked examples

Expected values from the examples of the chapters named; the two cipher tests use the vectors of FIPS 197 and FIPS 202, which
the manual names. -/

/-- "Worked conversions" (02): 300.0 to E4M3. -/
theorem test_convert_300 : (convert .e4m3 .rne false 0 (.fin false 300 0)).1 = 0x79 ∧
    (convert .e4m3 .rup false 0 (.fin false 300 0)).1 = 0x7A ∧ (convert .e4m3 .rsr false 24575 (.fin false 300 0)).1 = 0x7A ∧
    (convert .e4m3 .rsr false 24576 (.fin false 300 0)).1 = 0x79 := by decide +kernel

/-- 500.0 saturates in E4M3; 6.5 rounds to 6 in E2M1 with no flag and 7 saturates. -/
theorem test_convert_saturates : convert .e4m3 .rtz false 0 (.fin false 500 0) = (0x7E, { bits := nfSaturated, sat := 1 }) ∧
    convert .e2m1 .rne false 0 (.fin false 13 (-1)) = (7, {}) ∧
    convert .e2m1 .rne false 0 (.fin false 7 0) = (7, { bits := nfSaturated, sat := 1 }) := by decide +kernel

/-- Sixteen values to one E2M1 block, in units of 2^-10. -/
theorem test_convert_block : (convertBlock .e2m1 .rne false (List.replicate 16 0)
    (([22528, -3174, 9216, 614, -12800, 1024, 5120, -7168, 0, 17408, -2048, 3994, 11264, -410, 6656, -24576] : List Int).map
      fun z => .fin (decide (z < 0)) z.natAbs (-10))).1 = 129 ∧
    (convertBlock .e2m1 .rne false (List.replicate 16 0)
    (([22528, -3174, 9216, 614, -12800, 1024, 5120, -7168, 0, 17408, -2048, 3994, 11264, -410, 6656, -24576] : List Int).map
      fun z => .fin (decide (z < 0)) z.natAbs (-10))).2.1 = [7, 10, 4, 0, 13, 0, 2, 12, 0, 6, 9, 2, 5, 8, 3, 15] := by
  decide +kernel

/-- "Exact accumulation against FP32" (02): the sum of three terms is the same in two orders, with the residue found. -/
theorem test_exact_sum : ((({} : LongEntry).addTerm (-32) (.fin false 1 30)).addTerm (-32) (.fin false 1 0)).addTerm (-32)
      (.fin true 1 30) = { value := 4294967296, terms := 3, residue := 1 } ∧
    ((({} : LongEntry).addTerm (-32) (.fin true 1 30)).addTerm (-32) (.fin false 1 30)).addTerm (-32) (.fin false 1 0) =
      { value := 4294967296, terms := 3, residue := 1 } ∧
    convert .fp32 .rne false 0 (({ value := 4294967296, terms := 3, residue := 1 } : LongEntry).toVal (-32)) =
      (0x3F800000, {}) := by decide +kernel

/-- "One key tile" (07): logical page 131,081 lies on module 9 at its physical page 8,192. -/
theorem test_key_tile_place : pageOf 0x100049500 = 131081 ∧ homePlace 131081 false = (9, 8192) ∧ laneOfModule 9 = 9 := by
  decide +kernel

/-- The clusters of logical clusters 100 and 200 at reset (01). -/
theorem test_logical_clusters : State.reset.physOf 100 = 103 ∧ State.reset.physOf 200 = 206 := by decide +kernel

/-- Chip 41 and its parent (15): the offset is 3 ns. -/
theorem test_sync_offset : syncOffset ⟨true, true, 0, 33, 0, 1000000000, 1000000061, 1000000200⟩ 1000000255 = 3 := by
  decide +kernel

/-- FIPS 197, C.3, both ways. -/
theorem test_aes : aesEncrypt (List.range 32) ((List.range 16).map (17 * ·)) =
      [0x8E, 0xA2, 0xB7, 0xCA, 0x51, 0x67, 0x45, 0xBF, 0xEA, 0xFC, 0x49, 0x90, 0x4B, 0x49, 0x60, 0x89] ∧
    aesDecrypt (List.range 32) [0x8E, 0xA2, 0xB7, 0xCA, 0x51, 0x67, 0x45, 0xBF, 0xEA, 0xFC, 0x49, 0x90, 0x4B, 0x49, 0x60,
      0x89] = (List.range 16).map (17 * ·) := by decide +kernel

/-- SHAKE256 of the empty message. -/
theorem test_shake256 : shake256 [] 8 = [0x46, 0xB9, 0xDD, 0x2B, 0x0B, 0xA8, 0x8D, 0x13] := by decide +kernel


/-! ### The hypotheses of the statements are met

Small states built from `full`, the part at reset but running at full power. -/

theorem someWith {α : Type} {o : Option α} {p : α → Bool} (h : o.any p = true) : ∃ x, o = some x ∧ p x = true := by
  cases o with
  | none => simp at h
  | some x => exact ⟨x, rfl, by simpa using h⟩

theorem pairWith {α β : Type} {q : α × Option β} {p : α → β → Bool} (h : q.2.any (p q.1) = true) :
    ∃ a b, q = (a, some b) ∧ p a b = true := by
  obtain ⟨a, b⟩ := q
  obtain ⟨x, rfl, hx⟩ := someWith h
  exact ⟨a, x, rfl, hx⟩

theorem pairNone {α β : Type} {q : α × Option β} (h : q.2.isNone = true) : ∃ a, q = (a, none) :=
  ⟨q.1, Prod.ext rfl (by simpa using h)⟩

/-- A part that has started and runs at full power. -/
def full : State := State.reset.setFld F.GLB_STATE_POWER_STATE 0

/-- `full` some time later. -/
def later : State := { full with clock := { full.clock with ticks := 1000000000000, reachedReady := true } }


/-! ## Witnesses: for each statement, states and operands that meet its hypotheses -/

theorem wit_StepKeepsGood : Good State.reset ∧ step State.reset = .next State.reset.tick :=
  ⟨⟨by decide, by decide, by decide, by decide, by decide, by decide, by decide, by decide, by decide, by decide⟩, rfl⟩

theorem wit_IdleStepTicks : full.pending = [] ∧ full.off = false ∧ full.powerOff.pending = [] ∧ full.powerOff.off = true ∧
    (({ full with clock := { full.clock with ticks := 99999999 } } : State).now + 1) % 100000000 = 0 := by decide +kernel

theorem wit_OnlyPowerLossTurnsBackTheClock : exec .eoffN later = .next later.powerOff ∧ later.now ≠ 0 ∧ exec .stepChoose later = .next later.doStepChoose :=
  ⟨rfl, by decide +kernel, rfl⟩

theorem wit_StoresStayApart : (∃ t, exec (.nop 0) full = .next t) ∧ mayWriteFlash (.nop 0) = false ∧ mayWriteFrame (.nop 0) = false ∧
    mayWriteRepair (.nop 0) = false ∧ mayWriteSlots (.nop 0) = false ∧ mayWriteTables (.nop 0) = false ∧ mayWriteTap (.nop 0) = false ∧
    mayWriteStaged (.nop 0) = false ∧ mayWriteConfig (.nop 0) = false ∧ mayWriteLeases (.nop 0) = false :=
  ⟨⟨_, rfl⟩, rfl, rfl, rfl, rfl, rfl, rfl, rfl, rfl, rfl⟩

/-- A part in HARVEST: the host sees the AON blocks and its own port alone. -/
def harvesting : State := full.setFld F.GLB_STATE_DEVICE_STATE dsHarvest

theorem wit_ShutBlocksCountTheWrite : gatedRow (.ctxPeekSelWrite .host 0) = some (.host, blkCtx) ∧ harvesting.reaches .host = true ∧
    harvesting.holdsLease .host = true ∧ harvesting.blockSeen blkCtx = false ∧ full.powerOff.reaches .host = false ∧
    gatedRow (.drainCommand .ctlB) = some (.ctlB, blkGlb) ∧ full.reaches .ctlB = true ∧ full.holdsLease .ctlB = false ∧
    seedRow (.begin 0) = true ∧ full.powerOff.reaches .host = false := by
  decide +kernel

theorem wit_LocalStoresReadBack : 0x2000000 - 1 + [(7 : Byte)].length ≤ localSize true ∧ 0 + 1 ≤ localSize true ∧
    0xFFFFF + [(7 : Byte)].length ≤ localSize false ∧ (0 : Nat) ≠ 263 := by decide

theorem wit_EmptyCommitClearsPending : Accepts full .host blkDsp ∧ commitReg blkDsp = some F.DSP_COMMIT_GO.reg ∧
    full.stagedSet .host blkDsp = [] ∧ full.commitWaits blkDsp = false ∧
    (let s : State := { full with commits := [{ block := blkCol, writer := .host, set := [], group := false }] }
     Accepts s .host blkCol ∧ (commitReg blkCol).isSome = true ∧ s.stagedSet .host blkCol = [] ∧ s.commitWaits blkCol = true) := by
  decide +kernel

theorem wit_EventsFillTheRing : full.fld F.RAS_EVENT_COUNT_TOTAL % 256 = 0 ∧ severityOf 0x18 = 0 ∧ severityOf 0x21 = 0 ∧ severityOf 0x04 = 1 ∧
    2 ≤ severityOf 0x03 := by decide +kernel

/-- The controller of the test access port in Capture-DR. -/
def capturing : State := { full with tap := { full.tap with trst := true, state := .capDr, ir := tapIdcode } }

theorem wit_IdentificationReads : capturing.off = false ∧ capturing.tap.trst = true ∧ capturing.tap.state = .capDr ∧
    capturing.tap.ir = tapIdcode := by decide +kernel

theorem wit_ReservedAddressesAreEmpty : full.reaches .host = true ∧ findReg (0xFFF8 / 8 * 8) = none ∧ full.hidden .host 0xFFF8 = false ∧
    0xFFF8 % 8 = 0 ∧ full.holdsLease .host = true := by decide +kernel

theorem wit_RegisterWriteCompletes : Accepts full .host blkRas ∧ 0x900060 % 8 = 0 ∧ blockOf 0x900060 = some blkRas ∧
    (∃ r, findReg (0x900060 / 8 * 8) = some r ∧ plainRegister blkRas (0x900060 / 8 * 8) r = true) ∧
    blockOf 0x90FFF8 = some blkRas ∧ findReg (0x90FFF8 / 8 * 8) = none :=
  ⟨by decide +kernel, by decide, by decide +kernel, someWith (by decide +kernel), by decide +kernel, by decide +kernel⟩

/-- The host's read latch of the TIM block, opened long ago. -/
def latched : State := { later with latches := [{ reader := .host, block := blkTim, opened := 0, byGlb := false, cap := [], bytes := [] }] }

theorem wit_ReadsAndLatchesComplete : full.hostReach = true ∧ 8 < 0xFFFFFF % 8 + 2 ∧
    (Accepts full .host blkTim ∧ 0xC00008 % 8 + 8 ≤ 8 ∧ blockOf 0xC00008 = some blkTim ∧ (∃ r, findReg (0xC00008 / 8 * 8) = some r) ∧
      full.latchOf .host blkTim = none) ∧
    (∃ l, latched.latchOf .host blkTim = some l ∧ latched.latchOver l = true) ∧ Accepts full .host blkGlb :=
  ⟨by decide +kernel, by decide, ⟨by decide +kernel, by decide, by decide +kernel,
    (someWith (p := fun _ => true) (by decide +kernel)).imp fun _ h => h.1, by decide +kernel⟩, someWith (by decide +kernel), by decide +kernel⟩

theorem wit_SelectorAndCounterWritesComplete : Accepts full .host blkCtx ∧ Accepts full .host blkLog ∧ Accepts full .host blkTly ∧
    full.holder none 16383 = none ∧ Accepts full .host blkTel ∧ Accepts full .host blkDsp := by decide +kernel


/-- `n` words, all zero but those listed. -/
def wordsOf (n : Nat) (l : List (Nat × Nat)) : List Word :=
  (List.range n).map fun i => BitVec.ofNat 64 ((l.lookup i).getD 0)

/-- A cell of lane 15 with one byte landed, long ago. -/
def stalledLane : State := { full.landCell 15 0 0 [some 7] with clock := later.clock }

/-- A STEP message of context 1 with sequence number `seq`. -/
def stepMsg (seq : Nat) : List Word := wordsOf 32 [(0, 0x01 + 0x100 + 0x10000 + seq * 2 ^ 32), (8, 1)]

/-- Lane 15 with a whole message in its head cell. -/
def loadedLane : State :=
  (full.setFld (F.DSP_LANE_CFG_ENABLE.at 15) 1).landCell 15 0 0 ((bytesOfWords (stepMsg 1)).map some)

/-- A lane whose credit is due. -/
def creditDue : State := { full with disp := { full.disp with creditDue := [15] } }

theorem wit_IntakeCompletes : full.hostReach = true ∧ full.devState ≠ dsSeedbed ∧ 0x3FFF + [some (7 : Byte)].length ≤ 0x4000 ∧
    (0x3FFF + [some (7 : Byte)].length - 1) / 256 = 0x3FFF / 256 ∧
    [some (7 : Byte)].any Option.isSome = true ∧ full.cellAccepted 15 63 = false ∧
    stalledLane.cellEmpty 15 (stalledLane.headCell 15) = false ∧ stalledLane.cellAccepted 15 (stalledLane.headCell 15) = false ∧
    mget zeroNat stalledLane.disp.cellSince (64 * 15 + stalledLane.headCell 15) + 10000000 ≤ stalledLane.now + 1 ∧
    loadedLane.taking = true ∧ loadedLane.fld (F.DSP_LANE_CFG_ENABLE.at 15) = 1 ∧ loadedLane.disp.pend.length < 4096 ∧
    loadedLane.cellAccepted 15 (loadedLane.headCell 15) = true ∧
    msgFormed (wordsOfBytes 32 ((loadedLane.cellBytes 15 (loadedLane.headCell 15)).map fun b => b.getD 0)) = true ∧
    creditDue.disp.creditDue.contains 15 = true ∧ creditDue.hostStopped = false := by decide +kernel

/-- Lane 15 with a message of a kind and target in its head cell; context 1 is open. -/
def headed (kind c : Nat) : State :=
  let s := full.setCtx 1 cfState ctxOpen
  (s.setFld (F.DSP_LANE_CFG_ENABLE.at 15) 1).landCell 15 0 0 ((bytesOfWords (wordsOf 32 [(0, kind + 0x100), (1, c)])).map some)

/-- The message in the head cell of lane 15. -/
def headMsg (s : State) : List Word := wordsOfBytes 32 ((s.cellBytes 15 (s.headCell 15)).map fun b => b.getD 0)

theorem wit_IntakeTakesTeardowns : (headed kiTeardown 1).taking = true ∧ (headed kiTeardown 1).cellAccepted 15 ((headed kiTeardown 1).headCell 15) = true ∧
    msgFormed (headMsg (headed kiTeardown 1)) = true ∧ msgKind (headMsg (headed kiTeardown 1)) = kiTeardown ∧
    mgTarget (headMsg (headed kiTeardown 1)) = 1 ∧ (headed kiTeardown 1).ctxUsable 1 = true ∧ (headed kiTeardown 1).disp.pend = [] ∧
    (headed 0x7F 1).taking = true ∧ msgFormed (headMsg (headed 0x7F 1)) = false ∧
    (headed kiStep 1).cellAccepted 15 ((headed kiStep 1).headCell 15) = true ∧ msgFormed (headMsg (headed kiStep 1)) = false ∧
    msgReserved (headMsg (headed kiStep 1)) = false ∧ msgKind (headMsg (headed kiStep 1)) = kiStep := by decide +kernel

/-- A part that serves context 1, whose image 0 is loaded on logical cluster 0 and whose records go to ring 0; the message `ws`
waits. -/
def served (ws : List Word) (chosen : Bool) : State :=
  let s := ((((full.setFld F.GLB_STATE_DEVICE_STATE dsServing).setFld F.GLB_STATE_POWER_TARGET 0).setFld (F.CTX_IMAGE_STATE.at 0)
    imgLoaded).setFld (F.DSP_CRING_CFG_ENABLE.at 0) 1).setCtx 1 cfState ctxOpen
  { s with disp := { s.disp with pend := [{ num := 0, words := ws, chosen := chosen }] } }

theorem wit_StepMessagesComplete :
    (∃ m, (served (stepMsg 0) false).pendStep 0 = some m ∧ ((served (stepMsg 0) false).taking &&
      ((served (stepMsg 0) false).stepEnd m.words).isSome) = true) ∧
    ((served (stepMsg 1) false).winner ((List.range 8).filter fun c => (served (stepMsg 1) false).candidates.any fun m =>
        decide ((served (stepMsg 1) false).msgClass m.words = c)) = some 0 ∧
      ∃ m, ((served (stepMsg 1) false).candidates.find? fun m => decide ((served (stepMsg 1) false).msgClass m.words = 0)) = some m ∧
        (served (stepMsg 1) false).dispatching = true) ∧
    (∃ m, (served (stepMsg 1) true).pendStep 0 = some m ∧ (m.chosen && (served (stepMsg 1) true).dispatching &&
      (served (stepMsg 1) true).eligible m.words && (served (stepMsg 1) true).cluOn &&
      (((served (stepMsg 1) true).msgClusters m.words).map (served (stepMsg 1) true).physOf).all (fun p =>
        decide ((served (stepMsg 1) true).seqState p = sqIdle) && (served (stepMsg 1) true).startableOn p &&
          !(served (stepMsg 1) true).commitDue p) && ((served (stepMsg 1) true).stepEnd m.words).isNone &&
      !(msgMemberList m.words).any (served (stepMsg 1) true).heldBack) = true) ∧
    (∃ m, (served (stepMsg 0) true).pendStep 0 = some m ∧ (m.chosen && !(served (stepMsg 0) true).eligible m.words) = true) :=
  ⟨someWith (by decide +kernel), ⟨by decide +kernel, someWith (by decide +kernel)⟩, someWith (by decide +kernel),
    someWith (by decide +kernel)⟩


/-- A management message of a kind. -/
def mgmtMsg (kind : Nat) (l : List (Nat × Nat)) : List Word := wordsOf 32 ((0, kind + 0x100) :: l)

def openMsg : List Word := mgmtMsg kiOpen [(1, 2), (8, 5 * 2 ^ 48)]
def teardownMsg (c : Nat) : List Word := mgmtMsg kiTeardown [(1, c)]
def windowMsg (tenant : Nat) : List Word := mgmtMsg kiSetWindow [(11, tenant * 2 ^ 48)]
def clearKeyMsg (n : Nat) : List Word := mgmtMsg kiClearKey [(1, n)]
def adapterMsg (c : Nat) : List Word := mgmtMsg kiSetAdapter [(1, c), (8, 64)]
def imageMsg (n : Nat) : List Word := mgmtMsg kiLoadImage [(8, n * 2 ^ 24 + 2 ^ 33), (9, 64), (10, 64 * 2 ^ 32)]

/-- A LOAD_KEY whose 72 bytes (32 of 1, 32 of 2, tenant 5, KGEN 9) are wrapped under a key of 32 bytes of 7. -/
def loadKeyMsg (target : Nat) : List Word :=
  mgmtMsg kiLoadKey ((1, target + 5 * 2 ^ 32) :: (10, 4124963386515834244) :: (11, 1083569964009517746) :: (12, 3663142127621798732) ::
    (13, 13854721581445844348) :: (14, 13652881722001878915) :: (15, 9871479676599432681) :: (16, 8421231766094545228) ::
    (17, 4779806579622233359) :: (18, 3685578704573968932) :: [(19, 6720446536201535280)])

/-- `served` with window 0 of set 0 open on the first 64 bytes of tier 1, set 7 of tenant 3, that wrapping key, and the part
in use. -/
def windowed (ws : List Word) : State :=
  let s := (served ws false).setFld F.GLB_STATE_LIFECYCLE 1
  { s with disp := { s.disp with windows := mset zeroWord (mset zeroWord [] 0 (BitVec.ofNat 64 (2 ^ 63))) 1 64
                                 setTenant := [(7, 3)]
                                 keys := [(0xFFF0, { bytes := List.replicate 32 7, tenant := 0, kgen := 0 })] } }


/-- With `m` waiting on `windowed`: its turn has come, and what its checks find. -/
def turns (m : List Word) (kind : Nat) (detail : State → List Word → Option Nat) (d : Option Nat) : Bool :=
  decide ((windowed m).mgmtTurn 0 kind = some m) && decide (detail ((windowed m).unpend 0) m = d)

theorem wit_ManagementMessagesComplete :
    turns openMsg kiOpen (fun s m => (s.readKeys m).openDetail m) none = true ∧ turns (teardownMsg 1) kiTeardown State.teardownDetail none = true ∧
    (let s : State := { windowed (teardownMsg 1) with disp := { (windowed (teardownMsg 1)).disp with
        pend := [{ num := 0, words := teardownMsg 1, began := true }] } }
     s.mgmtTurn 0 kiTeardown = some (teardownMsg 1) ∧ s.hasBegun 0 = true) ∧
    turns (windowMsg 5) kiSetWindow State.windowDetail none = true ∧
    turns (clearKeyMsg 65519) kiClearKey State.clearKeyDetail none = true ∧
    turns (adapterMsg 1) kiSetAdapter State.adapterDetail none = true ∧ turns (imageMsg 0) kiLoadImage State.imageDetail none = true ∧
    (windowed (teardownMsg 0)).hasBegun 0 = false := by
  decide +kernel

theorem wit_LoadKeyUnwraps : turns (loadKeyMsg 65519) kiLoadKey (fun s m => (s.readKeys m).loadKeyDetail m) none = true ∧
    (((windowed (loadKeyMsg 65519)).unpend 0).readKeys (loadKeyMsg 65519)).unwrapped (loadKeyMsg 65519) =
      some { bytes := List.replicate 32 1 ++ List.replicate 32 2, tenant := 5, kgen := 9 } := by decide +kernel

theorem wit_ManagementMessagesRefused :
    turns (mgmtMsg kiOpen [(1, 1), (8, 5 * 2 ^ 48)]) kiOpen (fun s m => (s.readKeys m).openDetail m) (some 1) = true ∧
    turns (teardownMsg 0) kiTeardown State.teardownDetail (some 2) = true ∧
    turns (mgmtMsg kiSetWindow [(1, 7 * 2 ^ 16), (11, 5 * 2 ^ 48)]) kiSetWindow State.windowDetail (some 3) = true ∧
    turns (loadKeyMsg 65520) kiLoadKey (fun s m => (s.readKeys m).loadKeyDetail m) (some 2) = true ∧
    turns (clearKeyMsg 65520) kiClearKey State.clearKeyDetail (some 2) = true ∧
    turns (adapterMsg 2) kiSetAdapter State.adapterDetail (some 1) = true ∧
    turns (imageMsg 255) kiLoadImage State.imageDetail (some 2) = true := by decide +kernel


/-- A step of context 1 that runs on clusters 0 and 1, with tallies 0 to 3 granted to it; cluster 0 has a tile of format 1 and its
accumulator rows in LONG mode, row 63 in FP32 mode. -/
def admitted : State :=
  let s := ((full.setFld F.GLB_STATE_DEVICE_STATE dsServing).setSeq 0 sqRunning).setClu 0
    { lead := some 1, tileIssued := some 1, rowsIssued := (List.range 64).map fun r => (r, { mode := if r = 63 then 2 else 1 }) }
  let t : Step := { lead := 1, num := 0, words := stepMsg 1, members := [1], clusters := [0, 1], map := [(0, 0), (1, 1)] }
  ({ s with disp := { s.disp with steps := [t] } } : State).setCtx 1 cfTallyCount 4

/-- `admitted` with a descriptor as the next of cluster 0's program, listed by opcode with FMT and FLAGS, and words. -/
def prog (op : Nat) (l : List (Nat × Nat)) : State :=
  admitted.localWrite 0 true progBase (bytesOfWords (wordsOf 8 ((0, op) :: l)))

/-- What cluster 0's next descriptor as one of the row finds once fetched: the state, its step and its words. -/
def fetched (s : State) (op v : Nat) : Option (State × Step × List Word) :=
  if s.mayIssue 0 && !(s.clu 0).past && matchesRow op v (s.progWords 0 (s.pcOf 0)) then
    match s.fetch 0 (s.pcOf 0) with
    | (u, true) => match u.peek 0 (s.pcOf 0) (s.progWords 0 (s.pcOf 0)) with
      | (s1, true) => match s1.stepAt 0 with
        | some t => some (s1, t, s.progWords 0 (s.pcOf 0))
        | none => none
      | (_, false) => none
    | (_, false) => none
  else none

theorem fetched_spec {s s1 : State} {op v : Nat} {t : Step} {ws : List Word} (h : fetched s op v = some (s1, t, ws)) :
    Fetched s 0 op v s1 t ws := by
  unfold fetched at h
  split at h
  · next hb =>
    simp only [Bool.and_eq_true, Bool.not_eq_true'] at hb
    split at h
    · next u hu =>
      split at h
      · next v2 hv =>
        split at h
        · next t2 ht =>
          cases h
          exact ⟨hb.1.1, hb.1.2, rfl, hb.2, ⟨u, hu, hv⟩, ht⟩
        · cases h
      · cases h
    · cases h
  · cases h

/-- Does cluster 0 issue its next descriptor as one of the row, and do the words and the sequencer then meet `f`? -/
def checked (s : State) (op v : Nat) (f : State → Step → List Word → Bool) : Bool :=
  match fetched s op v with
  | some (s1, t, ws) => match s1.checkIssue 0 t ws with
    | .ok _ => f s1 t ws
    | .error _ => false
  | none => false

theorem checked_issued {s : State} {op v : Nat} {f : State → Step → List Word → Bool} (h : checked s op v f = true) :
    ∃ s1 t ws locs, Issued s 0 op v s1 t ws locs ∧ f s1 t ws = true := by
  unfold checked at h
  split at h
  · next s1 t ws hf =>
    split at h
    · next locs hc => exact ⟨s1, t, ws, locs, ⟨fetched_spec hf, hc⟩, h⟩
    · cases h
  · cases h

/-- `checked`, with the descriptor's wait met and, where it must, every earlier one complete. -/
def issues (s : State) (op v : Nat) (f : State → Step → List Word → Bool) : Bool :=
  checked s op v fun s1 t ws => s1.controlReady 0 ws && f (noted s1 t ws) t ws

theorem issues_issued {s : State} {op v : Nat} {f : State → Step → List Word → Bool} (h : issues s op v f = true) :
    ∃ s1 t ws locs, Issued s 0 op v s1 t ws locs ∧ s1.controlReady 0 ws = true ∧ f (noted s1 t ws) t ws = true := by
  obtain ⟨s1, t, ws, locs, hi, hf⟩ := checked_issued h
  exact ⟨s1, t, ws, locs, hi, Bool.and_eq_true _ _ ▸ hf⟩

/-- Is cluster 0's next descriptor as one of the row refused with the code? -/
def refuses (s : State) (op v code : Nat) : Bool :=
  match fetched s op v with
  | some (s1, t, ws) => match s1.checkIssue 0 t ws with
    | .ok _ => false
    | .error c => decide (c = code)
  | none => false

theorem refuses_fetched {s : State} {op v code : Nat} (h : refuses s op v code = true) :
    ∃ s1 t ws, Fetched s 0 op v s1 t ws ∧ s1.checkIssue 0 t ws = .error code := by
  unfold refuses at h
  split at h
  · next s1 t ws hf =>
    split at h
    · cases h
    · next c hc => exact ⟨s1, t, ws, fetched_spec hf, of_decide_eq_true h ▸ hc⟩
  · cases h


/-- For each row that an engine executes: the opcode with its formats, and the words of a descriptor. -/
def engineDescs : List (Instr × Nat × List (Nat × Nat)) :=
  let tier := 2 ^ 62
  [(.wload 0, 0x100010, []), (.mma 0, 0x110011, [(4, 2 ^ 40 + 63 * 2 ^ 32)]), (.mmaMerge 0, 0xAA0011, [(4, 63 * 2 ^ 40)]),
    (.mmaAdapt 0, 0x110012, [(4, 2 ^ 40), (5, 128 * 2 ^ 40)]), (.drain 0, 0x13, [(4, 2 ^ 40)]),
    (.accClear 0, 0x14, [(2, 64 * 2 ^ 8)]), (.accScale 0, 0x15, [(2, 2 ^ 8 + 63)]), (.vadd 0, 0x20, [(2, tier), (6, 16)]),
    (.vmul 0, 0x21, [(6, 16)]), (.vfma 0, 0x22, [(6, 16)]), (.vmax 0, 0x23, [(6, 16)]), (.vmin 0, 0x24, [(6, 16)]),
    (.vcmp 0, 0x25, [(6, 16)]), (.vselect 0, 0x26, [(6, 16)]), (.vcvt 0, 0x27, [(6, 16)]), (.vsfuExp 0, 0x28, [(6, 16)]),
    (.vsfuLog 0, 0x28, [(6, 16), (7, 1)]), (.vsfuReciprocal 0, 0x28, [(6, 16), (7, 2)]),
    (.vsfuRsqrt 0, 0x28, [(6, 16), (7, 3)]), (.vsfuTanh 0, 0x28, [(6, 16), (7, 4)])] ++
  [(.vsfuSigmoid 0, 0x28, [(6, 16), (7, 5)]), (.vsfuGelu 0, 0x28, [(6, 16), (7, 6)]), (.vreduceSum 0, 0x29, [(6, 16)]),
    (.vreduceMax 0, 0x29, [(6, 16), (7, 1)]), (.vreduceMin 0, 0x29, [(6, 16), (7, 2)]),
    (.vsoftmax 0, 0x2A, [(6, 16), (7, 16 * 2 ^ 8)]), (.vnormRms 0, 0x2B, [(6, 16), (7, 16 * 2 ^ 8)]),
    (.vnormLayer 0, 0x2B, [(6, 16), (7, 16 * 2 ^ 8 + 1)]), (.vrandUniform 0, 0x2C, [(6, 16)]),
    (.vrandRaw 0, 0x900002C, [(6, 16), (7, 1)]), (.vtopk 0, 0x30, [(6, 16), (7, 16 * 2 ^ 8)]), (.vgather 0, 0x31, [(6, 16)]),
    (.vscatter 0, 0x32, [(6, 16)]), (.lmove 0, 0x40, [(3, tier), (6, 64)]), (.tmovePull 0, 0x41, [(4, 1), (6, 64)]),
    (.tmovePush 0, 0x41, [(4, 257), (6, 64)]), (.barrowInbound 0, 0x42, [(5, 64)]),
    (.barrowOutbound 0, 0x42, [(5, 64 + 2 ^ 32)]), (.ringCfg 0, 0x43, [(3, 2 ^ 32 + 64)])]

theorem wit_EngineDescriptorsIssue : (engineDescs.all fun d => match engineRow d.1 with
    | some (p, op, v, e) => decide (p = 0) && decide ((((prog d.2.1 d.2.2).clu 0).waiting e).length < 8) &&
        checked (prog d.2.1 d.2.2) op v fun _ _ _ => true
    | none => false) = true := by decide +kernel

/-- `prog` with eight descriptors waiting for the vector engine. -/
def crowded : State :=
  admitted.setClu 0 { admitted.clu 0 with queue := (List.range 8).map fun i =>
    { id := i, pc := 0, words := [], eng := .vector, wait := none, sig := none, a := .none, b := .none, c := .none, d := .none
      idx := 0, far := 0 } }

/-- An engine descriptor with a reserved bit set and a RET with no call open are refused; a full unit waits. -/
theorem wit_EngineDescriptorsRefused : refuses (prog 0x80000020 [(6, 16)]) 0x20 0 rcReserved = true ∧
    engineRow (.vadd 0) = some (0, 0x20, 0, .vector) ∧ (((prog 0x80000020 [(6, 16)]).clu 0).waiting .vector).length < 8 ∧
    refuses (prog 0x5C []) 0x5C 0 rcControl = true ∧ controlRow (.ret 0) = some (0, 0x5C, 0) ∧
    8 ≤ ((crowded.clu 0).waiting .vector).length := by decide +kernel


/-- `prog` with open loops and calls on the sequencer, and the words of the next descriptor but one. -/
def nested (s : State) (loops : List Loop) (calls : List Nat) (op2 : Nat) : State :=
  (s.setClu 0 { s.clu 0 with loops := loops, calls := calls }).localWrite 0 true (progBase + 64) (bytesOfWords (wordsOf 8 [(0, op2)]))


/-- `s` with window 0 of set 0 a remote one. -/
def remote (s : State) : State := { s with disp := { s.disp with windows := [(0, BitVec.ofNat 64 (2 ^ 63 + 2 * 2 ^ 61))] } }

/-- `s` with group 0 of two members. -/
def twoOf (s : State) : State := (s.setFld (F.COL_GROUP_VALID.at 0) 1).setFld (F.COL_GROUP_N_LESS_ONE.at 0) 1

/-- A COLL_ENTER of 32 values to the slice from byte 4096 on. -/
def enterColl (v : Nat) : State :=
  twoOf (prog 0x60 [(3, 4096), (4, v * 2 ^ 48 + (if v = 4 then 2 ^ 32 else 0) + 32), (5, 32)])

/-- A descriptor that waits for a tally, and a FENCE behind others, do not go on. -/
theorem wit_ControlDescriptorsWait : checked (prog (0x50 + 0x8000 * 2 ^ 32) [(1, 1)]) 0x50 0 (fun s1 _ ws => !s1.controlReady 0 ws) = true ∧
    checked (crowded.localWrite 0 true progBase (bytesOfWords (wordsOf 8 [(0, 0x53)]))) 0x53 0
      (fun s1 _ ws => !s1.controlReady 0 ws) = true := by decide +kernel

/-- A LOOP that takes its count from local tally 0. -/
def tallyLoop (count : Nat) : State :=
  (nested (prog 0x58 [(2, 2 ^ 16 + 0x8000 * 2 ^ 32), (3, 1)]) [] [] 0x59).setFld ((F.CLU_LTALLY_VALUE.clu 0).at 0) count

theorem wit_ControlDescriptorsComplete :
    issues (prog 0x00 []) 0x00 0 (fun _ _ _ => true) = true ∧
    issues (prog (0x50 + 0x8000 * 2 ^ 32) []) 0x50 0 (fun _ _ _ => true) = true ∧
    issues (prog 0x01 []) 0x01 0 (fun _ _ _ => true) = true ∧
    issues (prog 0x53 []) 0x53 0 (fun _ _ _ => true) = true ∧
    issues (prog 0x51 [(2, 0xC003 + 2 ^ 32)]) 0x51 0 (fun _ _ ws => (selOf (fieldOf ws 2 15 0)).any (·.hub)) = true ∧
    issues (prog 0x51 [(2, 0x800F + (2 ^ 32 - 1) * 2 ^ 32)]) 0x51 0 (fun _ _ ws => (selOf (fieldOf ws 2 15 0)).any fun x => !x.hub) = true ∧
    issues (nested (prog 0x5B [(2, 16383)]) [] [1, 2, 3] 0) 0x5B 0 (fun _ _ _ => true) = true ∧
    issues (nested (prog 0x5C []) [{ body := 0, stop := 9, count := 2, idx := 0, calls := 0 }] [5] 0) 0x5C 0 (fun u _ _ =>
      decide ((u.clu 0).calls = [5])) = true ∧
    issues (nested (prog 0x58 [(2, 65535), (3, 1)]) (List.replicate 3 { body := 0, stop := 9, count := 2, idx := 0, calls := 0 }) [] 0x59)
      0x58 0 (fun u _ ws => decide (u.loopCount 0 ws = 65535)) = true ∧
    issues (tallyLoop 65536) 0x58 0 (fun u _ ws => decide (65535 < u.loopCount 0 ws)) = true ∧
    issues (tallyLoop 0) 0x58 0 (fun u _ ws => decide (u.loopCount 0 ws = 0)) = true ∧
    issues (nested (prog 0x59 []) [{ body := 0, stop := 0, count := 2, idx := 1, calls := 0 }] [] 0) 0x59 0 (fun u _ _ =>
      !(u.clu 0).loops.isEmpty) = true ∧
    issues (prog 0x5A [(2, 0x8000)]) 0x5A 0 (fun _ _ ws => (selOf (fieldOf ws 2 15 0)).isSome) = true ∧
    issues (remote (prog 0x52 [(3, 1)])) 0x52 0 (fun u t ws =>
      (match u.selectWindow { t with named := namedWith t ws } (u.clu 0).logical (fieldOf ws 2 63 56) with
        | .ok (some r) => u.winValid r && decide (u.winKind r = wkRemote)
        | _ => false) && decide (u.fabState ≠ fsHeld)) = true ∧
    issues ((remote (prog 0x52 [(3, 1)])).setFld F.FAB_STATUS_STATE fsHeld) 0x52 0 (fun u t ws =>
      (match u.selectWindow { t with named := namedWith t ws } (u.clu 0).logical (fieldOf ws 2 63 56) with
        | .ok (some r) => u.winValid r && decide (u.winKind r = wkRemote)
        | _ => false) && decide (u.fabState = fsHeld)) = true ∧
    issues (prog 0x52 [(2, 2 ^ 63), (3, 1)]) 0x52 0 (fun u t ws =>
      match u.selectWindow { t with named := namedWith t ws } (u.clu 0).logical (fieldOf ws 2 63 56) with
        | .ok none => true
        | _ => false) = true ∧
    issues (prog 0x5F []) 0x5F 0 (fun u t ws => decide (selOf (hSignal ws) = none) && ((u.setSeq 0 sqCommitting).stepOf t.lead).isSome) = true ∧
    ((List.range 5).all fun v => issues (enterColl v) 0x60 v fun _ _ _ => true) = true := by
  decide +kernel


/-- `crowded` with the first of its descriptors started, and a hub signal on its way. -/
def startedOne : State :=
  crowded.setClu 0 { crowded.clu 0 with queue := ((crowded.clu 0).queue.take 1).map fun d => { d with started := true }
                                        landing := [(16383, 2 ^ 32 - 1)] }

/-- `admitted` with its step changed. -/
def stepWith (f : Step → Step) : State := { admitted with disp := { admitted.disp with steps := admitted.disp.steps.map f } }

/-- `startedOne` with a step of context 2 that holds the tally of the signal. -/
def heldElsewhere : State :=
  { startedOne with disp := { startedOne.disp with steps := startedOne.disp.steps ++
      [{ lead := 2, num := 1, words := stepMsg 1, members := [2], clusters := [], map := [], holds := [(16383, 0)] }] } }

theorem wit_DescriptorsStartAndComplete : (crowded.seqState 0 = sqRunning ∧ (∃ d, ((crowded.clu 0).waiting .vector).head? = some d ∧
      crowded.startable 0 d = true)) ∧
    (∃ d, ((startedOne.clu 0).queue.find? fun d => decide (d.id = 0)) = some d ∧
      (d.started && !d.done && d.landed.isEmpty && !startedOne.barrowBusy 0 0 && !(startedOne.clu 0).heldUnit d) = true) ∧
    ((startedOne.clu 0).landing = [(16383, 2 ^ 32 - 1)] ∧ (startedOne.clu 0).lead = some 1 ∧ startedOne.holder (some 1) 16383 = none) ∧
    (heldElsewhere.clu 0).landing = [(16383, 2 ^ 32 - 1)] ∧ (heldElsewhere.clu 0).lead = some 1 ∧
      (heldElsewhere.holder (some 1) 16383).isSome = true :=
  ⟨⟨by decide +kernel, someWith (by decide +kernel)⟩, someWith (by decide +kernel), by decide +kernel, by decide +kernel⟩

theorem wit_StepsEndAsTheRulesSay :
    (∃ t, (stepWith fun t => { t with reported := [0, 1] }).stepOf 1 = some t ∧
      (stepWith fun t => { t with reported := [0, 1] }).mayCommit t = true) ∧
    (∃ t, (stepWith fun t => { t with fail := some { status := stDeviceState } }).stepOf 1 = some t ∧
      ((stepWith fun t => { t with fail := some { status := stDeviceState } }).inService &&
        ((stepWith fun t => { t with fail := some { status := stDeviceState } }).failure t).isSome) = true) ∧
    (∃ t, (stepWith fun t => { t with replay := some 1 }).stepOf 1 = some t ∧ (stepWith fun t => { t with replay := some 1 }).mayReplay t = true) :=
  ⟨someWith (by decide +kernel), someWith (by decide +kernel), someWith (by decide +kernel)⟩


/-- A context's teardown with nothing outstanding. -/
def tearing : State := { full with disp := { full.disp with teardowns := [{ ctx := 65535, words := [], record := none }] } }

/-- Image 0 of one run of 64 bytes for cluster 0 loads from the first line of window 0; that line is written where `enc` says. -/
def imaging (written enc : Bool) : State :=
  let s := windowed (imageMsg 0)
  { s with disp := { s.disp with pend := []
                                 images := (List.range 7).map fun k => (k, wordAt (imageMsg 0) (8 + k))
                                 loading := [{ image := 0, words := imageMsg 0 }] }
           mem := { s.mem with written := if written then [(0, true)] else []
                               lines := [(0, { data := List.replicate 64 7, enc := enc, tag := 5 })] } }

theorem wit_LongManagementCompletes :
    (tearing.disp.teardowns.find? fun t => decide (t.ctx = 65535)).isSome = true ∧ tearing.taking = true ∧ tearing.hubOn = true ∧
    tearing.ctxTraffic 65535 = false ∧
    ((imaging false false).disp.loading.find? fun x => decide (x.image = 0)).isSome = true ∧ (imaging false false).imageReady 0 = true ∧
    ((imaging false false).copyImage 0).2 = .going ∧ (imaging true true).imageReady 0 = true ∧
    ((imaging true true).copyImage 0).2 = .refused := by decide +kernel

/-- A record waits for ring 0; vector 2047 is pending and open; a record of ring 63 is unsignalled. -/
def signalling : State :=
  let s := served [] false
  ({ s with disp := { s.disp with records := [{ ring := 0, words := wordsOf 8 [(0, 2)] }], unsig := [(63, { count := 1, oldest := 0 })] }
            clock := later.clock } : State).setReg (pbaReg 2047) (BitVec.ofNat 64 (2 ^ 63)) |>.setReg (msixData 2047) 5

theorem wit_HostSignalsComplete : signalling.hubOn = true ∧ signalling.ringOpen 0 = true ∧
    ((signalling.ringRecords 0).find? fun x => !x.sent).isSome = true ∧ 0 < (mget (fun _ => {}) signalling.disp.unsig 63).count ∧
    (mget (fun _ => {}) signalling.disp.unsig 63).oldest + 1000 * signalling.fld (F.DSP_CRING_CFG_COALESCE_US.at 63) ≤ signalling.now ∧
    (signalling.reg (pbaReg 2047)).getLsbD (2047 % 64) = true ∧ signalling.vectorOpen 2047 = true := by decide +kernel

/-- Scrubbing is enabled and a granule of the image of `imaging` waits for its repair; a wipe runs for two causes. -/
def mending : State :=
  let s := (((imaging false false).setImageState 0 imgLoaded).setCfld 263 F.CLU_SCRUB_CFG_ENABLE 1).setCtx 1 cfState ctxOpen
  { s with disp := { s.disp with loading := [] }, ras := { s.ras with repairs := [(0, 0)] }, cold := { s.cold with wiping := some 5 } }

theorem wit_ArbitersAndScrubsComplete : mending.cluOn = true ∧ mending.cfld 263 F.CLU_SCRUB_CFG_ENABLE = 1 ∧ mending.bankCfg 263 63 = 0 ∧
    mending.bankCfg 263 (64 + 15) = 0 ∧ mending.ras.repairs.contains (0, 0) = true ∧ mending.inService = true ∧
    (∃ l, ((mending.logicalAt 0).bind fun n => mending.masterLine n 0) = some l ∧ decide ((copyLine 0 l 0 (mending, .going)).2 = .going) = true) ∧
    mending.off = false ∧ mending.cold.wiping = some 5 :=
  ⟨by decide +kernel, by decide +kernel, by decide +kernel, by decide +kernel, by decide +kernel, by decide +kernel,
    someWith (by decide +kernel), by decide +kernel, by decide +kernel⟩

/-- `full` with memory lane 15 in a state. -/
def laneIn (st : Nat) : State := full.setFld (F.MEM_LANE_STATUS_STATE.at 15) st

/-- A request of lane 15 sent long ago; the lane in a state, with `n` spares of its engine used and the optical lanes of a mask lost. -/
def asked (st n lost : Nat) : State :=
  let s := later.setFld (F.MEM_LANE_STATUS_STATE.at 15) st
  { s with mem := { s.mem with lost := mset (fun _ => 0) s.mem.lost 15 lost
                               reqs := [{ seq := 0, lane := 15, sent := true, since := 0, write := false, owner := none, ctx := 1,
                                          ctxGen := 0, cgen := 0, enc := false, line := 0, count := 8, module := 15, phys := 0,
                                          slice := true, off := 0 }] }
           repair := { s.repair with lanes := List.replicate n (engineOfLane 15, 14, 0) } }

/-- `asked` in a part on its way to DARK. -/
def bound : State := { asked mlUp 0 0 with gov := { (asked mlUp 0 0).gov with moving := some (psDark, 0), rows := [psDark] } }

/-- Lane 15 held for a spare in the place of optical lane 3. -/
def held15 : State := { laneIn mlHeld with mem := { (laneIn mlHeld).mem with subs := mset (fun _ => 0) (laneIn mlHeld).mem.subs 15 8 } }

/-- Optical lane 3 of lane 15 is neither lost nor replaced. -/
def failing (s : State) : Bool := decide ((mget (fun _ => 0) s.mem.lost 15 ||| mget (fun _ => 0) s.mem.subs 15).testBit 3 = false)

theorem wit_MemoryLanesComplete : (asked mlUp 1 0).laneUsable 15 = true ∧ full.laneFails ⟨3, none⟩ = true ∧
    full.laneFails ⟨3, some 1025⟩ = true ∧ full.laneFails ⟨3, some 1024⟩ = false ∧
    4095 % 4096 ≠ (asked mlUp 1 0).fld (F.MEM_LANE_STATUS_LANE_GEN.at 15) ∧
    4096 % 4096 = (asked mlUp 1 0).fld (F.MEM_LANE_STATUS_LANE_GEN.at 15) ∧
    ((asked mlUp 1 0).mem.reqs.find? fun r => decide (r.lane = 15) && r.sent).isSome = true ∧
    ((((asked mlUp 1 0).mem.retries ++ [(15, (asked mlUp 1 0).now)]).filter fun (e : Nat × Nat) =>
      decide ((asked mlUp 1 0).now < e.2 + 1000000)).filter fun (e : Nat × Nat) => decide (e.1 = 15)).length ≤ 64 ∧
    failing (asked mlUp 1 0) = true ∧ (asked mlUp 1 0).sparesUsed (engineOfLane 15) < 2 ∧
    failing (asked mlUp 2 1) = true ∧ 2 ≤ (asked mlUp 2 1).sparesUsed (engineOfLane 15) ∧ laneCount (1 ||| 2 ^ 3) ≤ 2 ∧
    (asked mlUp 2 1).laneUsable 15 = true ∧ failing (asked mlHeld 2 1) = true ∧ (asked mlHeld 2 1).laneState 15 = mlHeld ∧
    failing (asked mlDegraded 2 3) = true ∧ (asked mlDegraded 2 3).laneUsable 15 = true ∧ 2 < laneCount (3 ||| 2 ^ 3) ∧
    held15.laneState 15 = mlHeld ∧ (List.range 4).find? (fun i => (mget (fun _ => 0) held15.mem.subs 15).testBit i) = some 3 ∧
    (asked mlUp 1 0).mayTrain = true ∧ (laneIn mlTraining).memOn = true ∧ (laneIn mlTraining).laneState 15 = mlTraining ∧
    full.blockOn blkMem = true ∧ full.lanesStarted = true ∧
    ((asked mlUp 1 0).mem.reqs.any fun r => decide (r.lane = 15) && r.sent && decide (r.since + 50000 ≤ (asked mlUp 1 0).now)) = true ∧
    bound.laneUsable 15 = true ∧ bound.mayTrain = false ∧
    (bound.mem.reqs.any fun r => decide (r.lane = 15) && r.sent && decide (r.since + 50000 ≤ bound.now)) = true := by
  decide +kernel

/-- Page 7 is mirrored on modules 7 and 15, the lines of the primary copy as `l` says; module 15 is stale and its copy missed a
write; a write waits for page 0. -/
def mirrored (mirror : Bool) (l : TLine) : State :=
  let s := (full.setFld F.MEM_MIRROR_REGION (bit mirror)).setFld (F.MEM_LANE_STATUS_STALE.at 15) (bit mirror)
  { s with mem := { s.mem with written := [(7, true)], missed := if l.bad then [] else [(15, (homePlace 7 true).2)]
                               lines := mset lineDefault [] (lineKey 7 (homePlace 7 false).2 0) l
                               waits := [{ line := pageLines - 1, bytes := [], tag := 0, kgen := 0, enc := false, req := none }] } }

/-- `mirrored` with a page of module 7 on its way to module 3. -/
def moving (switched : Bool) : State :=
  let s := mirrored true {}
  { s with mem := { s.mem with evac := some { module := 7, migration := false, todo := []
                                              cur := some { page := 7, mirror := false, fromMod := 7, fromPhys := 0
                                                            toMod := 3, toPhys := 9, switched := switched } } } }

/-- The patrol of module 7 is at the first line of page 7's primary copy; what it finds there, and on the other copy. -/
def patrolled (mirror : Bool) (l : TLine) (primary other : Option Bool) : Bool :=
  let s := mirrored mirror l
  let u : State := { s with mem := { s.mem with
    patrol := mset (fun _ => 0) s.mem.patrol 7 ((s.placeOf 7 false).2 * pageLines + 0 + 1) } }
  let q := (u.askLine (s.placeOf 7 false).1 (s.placeOf 7 false).2 0).checkCopy (s.placeOf 7 false).1 (lineKey (s.placeOf 7 false).1 (s.placeOf 7 false).2 0)
  decide (s.scrubHours (tierOfModule 7) ≠ 0) && s.modReady 7 && decide (s.patrolNext 7 = some ((7, false), 0)) &&
    decide (some q.2.isSome = primary) && (decide (other = none) ||
      (let o := s.placeOf 7 true
       s.isMirrored 7 && s.modReady o.1 && s.freshCopy o && decide (some ((q.1.askLine o.1 o.2 0).checkCopy o.1 (lineKey o.1 o.2 0)).2.isSome = other)))

theorem wit_TierMemoryCompletes : ((mirrored true {}).mem.waits.any fun w => decide (pageOf w.line = 0)) = true ∧
    (mirrored true {}).isWritten 0 = false ∧ ((mirrored true {}).writePlaces 0).isEmpty = false ∧
    (((mirrored true {}).writePlaces 0).all fun p => (mirrored true {}).modReady p.1) = true ∧
    (mirrored true {}).modReady 15 = true ∧ (mirrored true {}).fld (F.MEM_LANE_STATUS_STALE.at 15) = 1 ∧
    ((mirrored true {}).staleOn 15).length = 1 ∧ (((mirrored true {}).staleOn 15).all fun e => !(mirrored true {}).missedCopy e.1.1 e.1.2 ||
      ((mirrored true {}).modReady e.2.1 && !(mirrored true {}).missedCopy e.2.1 e.2.2)) = true ∧
    patrolled true { err0 := 1 } (some true) none = true ∧ patrolled true { err0 := 3 } (some false) (some true) = true ∧
    patrolled false { err0 := 3 } (some false) none = true ∧ (mirrored false { err0 := 3 }).isMirrored 7 = false ∧
    (let s := (mirrored true { err0 := 3 }).setFld (F.MEM_LANE_STATUS_STATE.at 15) mlHeld
     (mget lineDefault s.mem.lines (lineKey (s.placeOf 7 false).1 (s.placeOf 7 false).2 0)).bad = true ∧ s.isMirrored 7 = true ∧
       s.freshCopy (s.placeOf 7 true) = true ∧ s.modReachable (s.placeOf 7 true).1 = true ∧ s.modReady (s.placeOf 7 true).1 = false ∧
       s.modReady 7 = true ∧ s.patrolNext 7 = some ((7, false), 0)) ∧
    (mget lineDefault (mirrored true { err0 := 1 }).mem.lines (lineKey 7 (homePlace 7 false).2 0)).bad = false ∧
    (mirrored true {}).blockOn blkMem = true ∧ (mirrored true {}).mem.evac = none ∧ (moving false).mem.evac.isSome = true ∧
    (moving false).modReady 7 = true ∧ (moving false).modReady 3 = true ∧ (moving true).mem.reqs = [] := by decide +kernel


/-- Port 31 in a state, planned for port 21 of chip 63 with a role (none where it is 3), long after start. -/
def ported (st role : Nat) : State :=
  { later with conf := { later.conf with sect := [(3, List.replicate (16 + 4 * 31) 0 ++ bytesOfNat 4 (role + 63 * 2 ^ 4 + 21 * 2 ^ 10))] } }
    |>.setFld (F.FAB_PORT_STATUS_STATE.at 31) st

def sparingPort : State := (ported poUp 2).setPort 31 { sparing := [3, 2], due := some 8, hello := true, draining := some 6 }

/-- A frame with its number and its acknowledgement. -/
def frameOf (n ack : Nat) : BitVec 256 := BitVec.ofNat 256 (n * 2 ^ 193 + ack * 2 ^ 208)

/-- Port 31 up, with 64 refusals sent and got within the millisecond, or dropping until a resent frame, or without spares. -/
def nakked (n : Nat) : State :=
  (ported poUp 2).setPort 31 { naksSent := List.replicate n (ported poUp 2).now, naksGot := List.replicate n (ported poUp 2).now }
def droppingPort : State := (ported poUp 2).setPort 31 { dropping := true }
def spareless : State :=
  { ported poUp 2 with repair := { (ported poUp 2).repair with lanes := List.replicate 2 (engineOfPort 31, 16, 0) } }

theorem wit_FabricPortsComplete : (ported poUp 2).portOn 31 = true ∧
    (frameOf 1 0).toNat / 2 ^ 193 % 32768 ≠ ((ported poUp 2).port 31).rxNext ∧
    (frameOf 0 32767).toNat / 2 ^ 193 % 32768 = ((ported poUp 2).port 31).rxNext ∧ ((ported poUp 2).port 31).dropping = false ∧
    (frameOf 0 32767).toNat / 2 ^ 208 % 65536 < 32768 ∧ 32768 ≤ (frameOf 0 32768).toNat / 2 ^ 208 % 65536 ∧
    (droppingPort.portOn 31 = true ∧ (frameOf 0 0 ||| BitVec.ofNat 256 (2 ^ 192)).getLsbD 192 = true ∧
      (frameOf 0 0 ||| BitVec.ofNat 256 (2 ^ 192)).toNat / 2 ^ 193 % 32768 = (droppingPort.port 31).rxNext) ∧
    (lastMs (nakked 63).now (((nakked 63).port 31).naksSent ++ [(nakked 63).now])).length ≤ 64 ∧
    (lastMs (nakked 63).now (((nakked 63).port 31).naksGot ++ [(nakked 63).now])).length ≤ 64 ∧ (nakked 64).portOn 31 = true ∧
    64 < (lastMs (nakked 64).now (((nakked 64).port 31).naksSent ++ [(nakked 64).now])).length ∧
    3 ∉ ((ported poUp 2).port 31).lost ∧ 3 ∉ ((ported poUp 2).port 31).sparing ∧ (ported poUp 2).rivalSpare 31 = none ∧
    (ported poUp 2).sparesUsed (engineOfPort 31) < 2 ∧ 2 ≤ spareless.sparesUsed (engineOfPort 31) ∧ spareless.portOn 31 = true ∧
    spareless.rivalSpare 31 = none ∧ (sparingPort.port 31).sparing = [3, 2] ∧ (ported poUp 2).planned 31 = true ∧
    (ported poDark 0).planned 31 = false ∧ (ported poDark 0).portState 31 = poDark ∧ (sparingPort.port 31).due = some 8 ∧
    sparingPort.boot.refclk = true ∧ sparingPort.mayTrain = true ∧
    ((ported poTraining 2).setPort 31 { hello := true }).portState 31 = poTraining ∧
    (((ported poTraining 2).setPort 31 { hello := true }).port 31).hello = true ∧
    (ported poUp 2).off = false ∧ (ported poUp 2).blockOn blkFab = true ∧ ((ported poUp 2).port 31).due = none ∧
    (ported poDown 2).planned 31 = true ∧ (ported poDown 2).portState 31 = poDown ∧ (ported poDown 2).boot.refclk = true ∧
    (ported poDown 2).mayTrain = true ∧ (ported poDown 2).fabState = fsUp ∧
    ((ported poDown 2).port 31).tried + nsSec ≤ (ported poDown 2).now ∧ ((ported poDown 2).port 31).awaitLight = false ∧
    (ported poTraining 2).portState 31 = poTraining ∧ ((ported poTraining 2).port 31).hello = false := by
  decide +kernel

/-- Ports 28 and 31 on, where lane 2 of port 31 took a spare of their engine at this instant. -/
def rivals : State :=
  let s := ((ported poUp 2).setFld (F.FAB_PORT_STATUS_STATE.at 28) poUp).setPort 31 { sparing := [2], spareAt := [(2, later.now)] }
  { s with repair := { s.repair with lanes := [(engineOfPort 31, 31, 2)] } }

theorem wit_FabricPortsShareSpares : full.laneFails ⟨3, none⟩ = true ∧ full.laneFails ⟨3, some 1024⟩ = false ∧
    rivals.portOn 28 = true ∧ (rivals.rivalSpare 28).isSome = true ∧ 3 ∉ (rivals.port 28).lost ∧ 3 ∉ (rivals.port 28).sparing ∧
    (ported poUp 2).portLit 31 = true ∧ (ported poTraining 2).portLit 31 = true ∧ (ported poDark 0).memOn = true ∧
    (ported poDown 2).fld (F.FAB_PORT_CFG_ENABLE.at 31) = 1 ∧ sparingPort.planned 31 = true ∧
    sparingPort.fld (F.FAB_PORT_CFG_ENABLE.at 31) = 1 ∧ sparingPort.portState 31 ≠ poDark ∧
    (let s := ((ported poDown 2).setFld F.FAB_STATUS_STATE fsHeld).setFld (F.FAB_PORT_STATUS_DOWN_CAUSE.at 31) 1
     s.fabState = fsHeld ∧ s.fld (F.FAB_PORT_STATUS_DOWN_CAUSE.at 31) = 1 ∧ s.mayTrain = true) ∧
    ((List.range 4).filter fun i => (ported poUp 2).farMoved 31 [16, 1, 2, 3] i && !((ported poUp 2).port 31).lost.contains i) = [0] ∧
    ((List.range 4).filter fun i => (ported poUp 2).farMoved 31 [0, 1, 2, 3] i && !((ported poUp 2).port 31).lost.contains i) = [] ∧
    (((ported poUp 2).setPort 31 { farMap := [16, 1, 2, 3] }).oweCtrl 31).rivalSpare 31 = none ∧
    (((ported poUp 2).setPort 31 { farMap := [16, 1, 2, 3] }).oweCtrl 31).sparesUsed (engineOfPort 31) < 2 ∧
    2 ≤ ((spareless.setPort 31 { farMap := [16, 1, 2, 3] }).oweCtrl 31).sparesUsed (engineOfPort 31) := by decide +kernel

def helloOf (chip : Nat) : HelloMsg := { chip := chip, port := 21, portGen := 0, fabGen := 0, rackId := 0, width := 4 }

/-- Discovery began long ago in FAB state `st`; a swap waits since then and the grace period runs. -/
def discovering (s : State) (st : Nat) : State :=
  ({ s with fab := { s.fab with discoverAt := some 0, swapAt := some 0, graceAt := 0 } } : State).setFld F.FAB_STATUS_STATE st
    |>.setFld F.FAB_STATUS_GRACE 1

theorem wit_DiscoveryCompletes : (ported poDark 0).planned 31 = false ∧ (ported poDark 0).portState 31 = poDark ∧
    (ported poTraining 1).planned 31 = true ∧ (ported poTraining 1).portState 31 = poTraining ∧
    (helloOf 63).chip = (ported poTraining 1).planBits 31 9 4 ∧ (helloOf 63).port = (ported poTraining 1).planBits 31 14 10 ∧
    (helloOf 63).rackId = (ported poTraining 1).rackId ∧ ((ported poTraining 1).port 31).retrainAt = none ∧
    (((ported poTraining 1).setPort 31 { retrainAt := some 0 }).port 31).retrainAt ≠ none ∧
    (helloOf 62).chip ≠ (ported poTraining 1).planBits 31 9 4 ∧
    ((List.range 32).all fun p => !(discovering (ported poUp 2) 0).planned p || (discovering (ported poUp 2) 0).portOn p) = true ∧
    (discovering (ported poUp 2) 0).fabState ≠ fsUp ∧
    (0 + 400000000 ≤ (discovering (ported poDown 2) 0).now ∧ (discovering (ported poDown 2) 0).planned 31 = true ∧
      (discovering (ported poDown 2) 0).portOn 31 = false ∧ (discovering (ported poDown 2) 0).portRole 31 = prRequired ∧
      (discovering (ported poDown 2) 0).fabState ≠ fsUp) ∧
    (let s := ported poUp 2
     s.off = false ∧ s.blockOn blkFab = true ∧ s.mayTrain = true ∧ s.fld F.FAB_CTL_RESUME = 0 ∧ (s.sect 3).isEmpty = false ∧
       s.fld F.FAB_STATUS_STRAP_ERR = 0 ∧ s.fld F.FAB_STATUS_PLAN_CHIP_ERR = 0) ∧
    full.off = false ∧ full.blockOn blkFab = true ∧ full.mayTrain = true ∧
    ((discovering (ported poUp 2) fsUp).fabState = fsUp ∧
      ((List.range 32).all fun p => !(discovering (ported poUp 2) fsUp).planned p || (discovering (ported poUp 2) fsUp).portOn p) = true) ∧
    full.fld F.FAB_CTL_RESUME = 0 ∧ full.fld F.FAB_STATUS_STRAP_ERR = 0 ∧ full.fld F.FAB_STATUS_PLAN_CHIP_ERR = 0 ∧
    full.fld F.FAB_STATUS_SWAP_PENDING = 0 ∧
    ((discovering later 1).fab.swapAt.isSome = true ∧ ((discovering later 1).fab.outq.all fun o => decide (33 ≤ o.input)) = true ∧
      ((List.range 32).all fun p => ((discovering later 1).port p).holdReq.isNone && ((discovering later 1).port p).holdRep.isNone) = true) ∧
    0 + 1000 * (discovering later 1).fld F.FAB_TIMER_CFG_DRAIN_LIMIT_US ≤ (discovering later 1).now ∧
    ((discovering later 1).fld F.FAB_STATUS_GRACE = 1 ∧
      (discovering later 1).fab.graceAt + 1000000 * (discovering later 1).fld F.FAB_TIMER_CFG_GRACE_MS ≤ (discovering later 1).now) ∧
    ((sparingPort.port 31).draining = some 6 ∧ (sparingPort.fab.outq.all fun o => decide (o.port ≠ 31)) = true ∧
      (sparingPort.port 31).holdReq = none ∧ (sparingPort.port 31).holdRep = none) ∧
    ((List.range 32).all fun q => ((sparingPort.applyPortCfg 31 6).port q).draining.isNone) = true ∧
    ((sparingPort.applyPortCfg 31 6).commits.any fun c => decide (c.block = 0x60)) = false ∧
    (((sparingPort.setPort 0 { draining := some 4 }).port 31).draining = some 6 ∧
      ((List.range 32).all fun q => (((sparingPort.setPort 0 { draining := some 4 }).applyPortCfg 31 6).port q).draining.isNone) = false) ∧
    (let s : State := { sparingPort with commits := [{ block := blkFab, writer := .host, set := [], group := false }] }
     (s.port 31).draining = some 6 ∧ ((s.applyPortCfg 31 6).commits.any fun c => decide (c.block = 0x60)) = true) := by
  decide +kernel

/-- A packet of a type with no data and no hop, from chip 5. -/
def packetOf (type dest hop rgen : Nat) (w1 w3 : Nat) (data : Bytes) : Packet :=
  { w0 := BitVec.ofNat 64 (dest * 2 ^ 58 + 5 * 2 ^ 52 + hop * 2 ^ 50 + rgen * 2 ^ 40 + type * 2 ^ 36 + data.length / 32 * 2 ^ 29)
    w1 := BitVec.ofNat 64 w1, w2 := 0, w3 := BitVec.ofNat 64 w3, data := data, poisoned := false }

/-- Is a packet of a type taken whole at port 31, for this chip or for another? -/
def arrives (k : Packet) (type : Nat) (own : Bool) : Bool :=
  let s := ported poUp 2
  s.mayArrive 31 k && decide (pktType k = type) && headOk k && decide (k.data.length = 32 * pktLen k) && s.rgenOk 31 k && !k.poisoned &&
    (decide (pktDest k = s.chipId) == own)

/-- A remote add without an answer and a tag whose reuse is due. -/
def unanswered : State :=
  { later with fab := { later.fab with reqs := [{ tag := 4095, kind := .tadd, sent := 0 }], heldTags := [(0, 0)] } }

theorem wit_PacketsComplete : (ported poUp 2).chipId = 63 ∧
    ((ported poUp 2).mayArrive 31 (packetOf 7 63 0 0 0 0 []) = true ∧ headOk (packetOf 7 63 0 0 0 0 []) = false) ∧
    ((ported poUp 2).mayArrive 31 (packetOf ptTadd 1 0 2 0 0 []) = true ∧ headOk (packetOf ptTadd 1 0 2 0 0 []) = true ∧
      (ported poUp 2).rgenOk 31 (packetOf ptTadd 1 0 2 0 0 []) = false) ∧
    (arrives (packetOf ptTadd 62 2 1 0 0 []) ptTadd false = true ∧ pktHop (packetOf ptTadd 62 2 1 0 0 []) = 2) ∧
    (arrives (packetOf ptWrite 62 1 0 0 0 (List.replicate 2048 0)) ptWrite false = true ∧
      (ported poUp 2).onCircuit 31 (packetOf ptWrite 62 1 0 0 0 (List.replicate 2048 0)) = none) ∧
    arrives (packetOf ptWrite 63 1 0 0 0 (List.replicate 64 0)) ptWrite true = true ∧
    arrives (packetOf ptTadd 63 0 0 0 0 []) ptTadd true = true ∧ arrives (packetOf ptAck 63 0 0 0 0 []) ptAck true = true ∧
    arrives (packetOf ptCircSetup 63 0 0 0 0 []) ptCircSetup true = true ∧
    (arrives (packetOf ptCircDown 62 2 0 0 0 []) ptCircDown false = true ∧ 2 ≤ pktHop (packetOf ptCircDown 62 2 0 0 0 [])) ∧
    (arrives (packetOf ptCircDown 63 0 0 0 15 []) ptCircDown true = true ∧
      (ported poUp 2).fld (F.FAB_CIRC_STATE.at (bitsOf (packetOf ptCircDown 63 0 0 0 15 []).w3 3 0)) = ccIdle) ∧
    ((unanswered.fab.reqs.find? fun r => decide (r.tag = 4095)).isSome = true ∧
      0 + 1000 * unanswered.fld F.FAB_TIMER_CFG_REPLY_TIMEOUT_US ≤ unanswered.now) ∧
    (unanswered.fab.heldTags.any fun h => decide (h.1 = 0) &&
      decide (h.2 + 1000 * unanswered.fld F.FAB_TIMER_CFG_REPLY_TIMEOUT_US ≤ unanswered.now)) = true := by decide +kernel

/-- Port 31 with a circuit of chip 5 to chip 62 that came in at it, and room for a packet in its slots. -/
def carrying : State :=
  let s := (ported poUp 2).setPort 31 { rx := List.replicate 8 99 }
  { s with fab := { s.fab with slots := [{ port := 30, slot := 1, share := 1, origin := 5, circ := 0, input := 31, dest := 62, inSlot := 0 }] } }

/-- A CIRC_SETUP of two hops on its first, for chip 62, that leaves by port `out`. -/
def circHop (out : Nat) : Packet :=
  { packetOf ptCircSetup 62 0 0 0 0 [] with w2 := BitVec.ofNat 64 (2 * 2 ^ 16 + 2 ^ 20 + out * 2 ^ 5) }

/-- A CIRC_TEARDOWN with a count of hops that asks for an answer, or without. -/
def circDown (dest hops : Nat) : Packet := { packetOf ptCircDown dest 0 0 0 15 [] with w2 := BitVec.ofNat 64 (hops * 2 ^ 16) }

theorem wit_CircuitPackets :
    ((carrying.mayArrive 31 (packetOf ptWrite 62 0 0 0 0 (List.replicate 2048 0)) &&
      headOk (packetOf ptWrite 62 0 0 0 0 (List.replicate 2048 0)) &&
      carrying.rgenOk 31 (packetOf ptWrite 62 0 0 0 0 (List.replicate 2048 0)) &&
      (carrying.onCircuit 31 (packetOf ptWrite 62 0 0 0 0 (List.replicate 2048 0))).isSome) = true) ∧
    (arrives (circHop 31) ptCircSetup false = true ∧ pktHop (circHop 31) = 0 ∧ 1 < bitsOf (circHop 31).w2 17 16 ∧
      (((ported poUp 2).takePacket 31 (circHop 31)).reserve (bitsOf (circHop 31).w2 9 5) (bitsOf (circHop 31).w2 23 20) 5 0 31 62).2 =
        akOk) ∧
    (arrives (circHop 30) ptCircSetup false = true ∧
      (((ported poUp 2).takePacket 31 (circHop 30)).reserve (bitsOf (circHop 30).w2 9 5) (bitsOf (circHop 30).w2 23 20) 5 0 31 62).2 ≠
        akOk) ∧
    (arrives (circDown 62 0) ptCircDown false = true ∧ bitsOf (circDown 62 0).w2 17 16 = 0 ∧ pktHop (circDown 62 0) < 2) ∧
    (arrives (circDown 63 1) ptCircDown true = true ∧ bitsOf (circDown 63 1).w2 17 16 ≠ 0) ∧
    (arrives (circDown 63 0) ptCircDown true = true ∧
      (let s := (ported poUp 2).setFld (F.FAB_CIRC_STATE.at 15) ccEstablished
       s.mayArrive 31 (circDown 63 0) = true ∧ s.rgenOk 31 (circDown 63 0) = true ∧
         s.fld (F.FAB_CIRC_STATE.at (bitsOf (circDown 63 0).w3 3 0)) = ccEstablished)) := by decide +kernel

/-- Circuit 15 through port 31 to chip 62, in a state. -/
def circuit (portSt st : Nat) : State :=
  (((ported portSt 2).setFld (F.FAB_CIRC_PORT_A.at 15) 31).setFld (F.FAB_CIRC_HOPS.at 15) 1).setFld (F.FAB_CIRC_STATE.at 15) st

/-- Its reservation. -/
def reserved (s : State) : State × Nat :=
  s.reserve (s.fld (F.FAB_CIRC_PORT_A.at 15)) (s.fld (F.FAB_CIRC_SHARE.at 15)) s.chipId 15 32 (s.fld (F.FAB_CIRC_DEST_CHIP.at 15))

theorem wit_CircuitsComplete : (circuit poUp ccIdle).off = false ∧ (circuit poUp ccIdle).blockOn blkFab = true ∧
    (circuit poUp ccIdle).fld (F.FAB_CIRC_STATE.at 15) = ccIdle ∧ (circuit poUp ccIdle).fld (F.FAB_CIRC_HOPS.at 15) ≠ 0 ∧
    (reserved (circuit poUp ccIdle)).2 = akOk ∧ (circuit poDown ccFailed).fld (F.FAB_CIRC_STATE.at 15) = ccFailed ∧
    (reserved (circuit poDown ccFailed)).2 = akNotUp ∧ (circuit poUp ccEstablished).fld (F.FAB_CIRC_STATE.at 15) = ccEstablished ∧
    (circuit poUp ccSettingUp).fld (F.FAB_CIRC_STATE.at 15) = ccSettingUp ∧
    (circuit poUp ccFailed).fld (F.FAB_CIRC_STATE.at 15) = ccFailed ∧
    (circuit poUp ccFailed).portOn ((circuit poUp ccFailed).fld (F.FAB_CIRC_PORT_A.at 15)) = true ∧
    (circuit poDown ccFailed).portOn ((circuit poDown ccFailed).fld (F.FAB_CIRC_PORT_A.at 15)) = false := by decide +kernel


/-- A collective of group 3 with one part of one element, entered by the step of context 1. -/
def collOf (ready admitted result : Bool) : Coll :=
  { group := 3, cseq := 65535, lead := 1, words := wordsOf 8 [(0, 0x60), (4, 3 * 2 ^ 52 + 1), (5, 1)], n := 1, me := 0
    parts := [{ p := 0, l := 0, pc := 0, off := 0, count := 1, src := .mem false 0, dst := .mem false 64 }]
    ready := if ready then some (0, 0) else none
    admitted := if admitted then some 0 else none
    result := if result then some [7] else none
    readyAt := some 0 }

/-- It in the engine, with an ENTER to be sent again, long after. -/
def colling (c : Coll) : State := { later with col := { later.col with colls := [c], again := [(3, 65535, 0, 0)] } }

/-- A collective packet of a kind for group 0, whose one member is chip 5, arrives. -/
def collPacket (kind : Nat) : Packet :=
  packetOf ptColl 63 0 0 (kind * 2 ^ 11) 0 (if kind = ckData then List.replicate 2048 0 else [])

def grouped : State :=
  ((ported poUp 2).setFld (F.COL_GROUP_VALID.at 0) 1).setReg (F.COL_RANK_CHIPA.at 0).reg 5

theorem wit_CollectivesComplete :
    (∃ c, (colling (collOf false false false)).liveColl 3 = some c ∧ (c.ready.isNone && c.covered) = true) ∧
    (colling (collOf false false false)).fabState = fsUp ∧
    (colling (collOf false false false)).col.early.any (fun e => decide (e.1 = 3) && decide (e.2.1 = 65535)) = false ∧
    ((colling (collOf false false false)).setFld F.FAB_STATUS_STATE fsHeld).fabState = fsHeld ∧
    (∃ c, (colling (collOf true false false)).liveColl 3 = some c ∧ ((colling (collOf true false false)).admissible c &&
      ((colling (collOf true false false)).readContrib c.parts c.words).2.isSome) = true) ∧
    (∃ c, (colling (collOf true true true)).liveColl 3 = some c ∧
      (c.active && c.result.isSome && c.sendq.isEmpty && c.flying.isEmpty) = true) ∧
    (∃ c, (colling (collOf true true false)).col.colls.find? Coll.active = some c ∧ (decide (c.admitted = some 0) &&
      !(colling (collOf true true false)).stepOrdered c.group &&
      decide (0 + 1000000 * (colling (collOf true true false)).fld F.COL_CFG_TIMEOUT_MS ≤ (colling (collOf true true false)).now)) = true) ∧
    (∃ e, ((colling (collOf true false false)).col.again.find? fun e => decide (e.1 = 3) && decide (e.2.2.1 = 0) &&
        decide (e.2.2.2 + 10000 ≤ (colling (collOf true false false)).now)) = some e ∧
      ((colling (collOf true false false)).collAt 3 e.2.1).isSome = true) ∧
    (∃ c, (colling (collOf true true true)).collsOf 1 = [c] ∧ (decide (c.readyAt = some 0) &&
      decide (0 + 1000000 ≤ (colling (collOf true true true)).now)) = true) :=
  ⟨someWith (by decide +kernel), by decide +kernel, by decide +kernel, by decide +kernel, someWith (by decide +kernel),
    someWith (by decide +kernel), someWith (by decide +kernel), someWith (by decide +kernel), ⟨_, rfl, by decide +kernel⟩⟩

theorem wit_CollectivePacketsTaken : (∀ kind < 5, CollTaken grouped 31 (collPacket kind) kind) ∧
    grouped.mayArrive 31 (packetOf ptCollAck 63 0 0 0 0 []) = true ∧ headOk (packetOf ptCollAck 63 0 0 0 0 []) = true ∧
    grouped.rgenOk 31 (packetOf ptCollAck 63 0 0 0 0 []) = true ∧ pktDest (packetOf ptCollAck 63 0 0 0 0 []) = grouped.chipId := by
  unfold CollTaken
  decide +kernel

/-- The host link in a state, with a posted write outstanding and a read of 64 bytes whose first 32 have come. -/
def linked (st : Nat) (perst : Bool) (spares : Nat) : State :=
  ({ full with host := { full.host with perst := perst
                                        unacked := [{ seq := 9, addr := 0, data := [1], ro := false, kind := .credit 0, sent := 0 }]
                                        reads := [{ tag := 511, gen := 0, sent := true, owner := none, ctx := 1, ctxGen := 0, cgen := 0
                                                    addr := 0, len := 64, slice := true, off := 0, got := List.replicate 32 1 }] }
               repair := { full.repair with lanes := List.replicate spares (0, 0, 1) } } : State).setFld F.HST_LINK_STATUS_STATE st

theorem wit_HostLinkCompletes : (linked lsUp false 0).hostLinked = true ∧ (linked lsResetting false 0).off = false ∧
    (linked lsResetting false 0).linkState = lsResetting ∧ (linked lsUp false 0).linkState = lsUp ∧
    (linked lsUp false 0).host.perst = false ∧ (linked lsDown true 0).host.perst = true ∧ 15 ∉ (linked lsUp false 1).host.lostLanes ∧
    15 ∉ (linked lsUp false 1).host.sparing ∧ full.laneFails ⟨15, none⟩ = true ∧
    full.laneFails ⟨15, some 1025⟩ = true ∧ full.laneFails ⟨15, some 1024⟩ = false ∧ (linked lsUp false 1).sparesUsed 0 < 2 ∧ 2 ≤ (linked lsUp false 2).sparesUsed 0 ∧
    wholeWidth (linked lsUp false 2).host.partnerWidth ((linked lsUp false 2).host.lostLanes ++ [15]) ≠ 0 ∧ (linked lsTraining false 0).linkState = lsTraining ∧
    (linked lsUp false 1).linkInL0 = true ∧ (linked lsUp false 2).linkInL0 = true ∧ (linked lsTraining false 2).linkInL0 = false ∧
    2 ≤ (linked lsTraining false 2).sparesUsed 0 ∧ full.powerOff.off = true ∧
    (linked lsTraining false 0).trainedWidth ≠ 0 ∧ (linked lsTraining false 0).linkUp.showStopped.hostStopped = false ∧
    ({ linked lsTraining false 0 with host := { (linked lsTraining false 0).host with cfg := [] } } : State).linkUp.showStopped.hostStopped =
      true := by decide +kernel

/-- The part with a dynamic address on the I3C port. -/
def onI3c : State := { full with mgmt := { full.mgmt with dynAddr := some 8 } }

theorem wit_HostTrafficCompletes : (linked lsUp false 0).hostLinked = true ∧ (linked lsUp false 0).off = false ∧
    (linked lsUp false 0).linkInL0 = true ∧ (linked lsResetting false 0).linkInL0 = true ∧ (linked lsUp false 0).readOf 510 = none ∧
    (4095 : BitVec 12).toNat ≠ (linked lsUp false 0).fld F.HST_LINK_STATUS_HOST_GEN ∧
    (0 : BitVec 12).toNat = (linked lsUp false 0).fld F.HST_LINK_STATUS_HOST_GEN ∧
    (∃ r, (linked lsUp false 0).readOf 511 = some r ∧ (decide (r.len ≤ (r.got ++ List.replicate 32 (2 : Byte)).length) &&
      decide ((r.got ++ List.replicate 31 (2 : Byte)).length < r.len) && decide ((linked lsUp false 0).ctx r.ctx cfGen = r.ctxGen) &&
      decide (((linked lsUp false 0).setCtx 1 cfGen 7).ctx r.ctx cfGen ≠ r.ctxGen)) = true) ∧
    ((linked lsUp false 0).host.unacked.filter fun w => decide (w.seq ≤ 9)).length = 1 ∧
    full.hostReach = true ∧ 2 ^ 34 - 64 + 64 ≤ 2 ^ 34 ∧ full.stageReaches (2 ^ 34 - 64) = true ∧
    (full.setFld (F.MEM_LANE_STATUS_STATE.at 0) 0).stageReaches 0 = false ∧ full.mctpServed = true ∧
    ((full.setFld F.GLB_STATE_DEVICE_STATE dsSeedbed).hostLinked = true ∧
      (full.setFld F.GLB_STATE_DEVICE_STATE dsSeedbed).mctpServed = false) ∧ onI3c.i3cServed = true := by decide +kernel


/-- `full` in the cold start at an event's stage. -/
def starting (dev stage : Nat) : State :=
  { full.setFld F.GLB_STATE_DEVICE_STATE dev with boot := { full.boot with stage := stage } }

/-- A configuration copy with seven empty sections: its header and digest. -/
def copyBytes320 : Bytes :=
  bytesOfNat 8 (0x46435856 + 2 ^ 32) ++ bytesOfNat 8 (7 + 320 * 2 ^ 32) ++
    ((List.range 7).flatMap fun i => bytesOfNat 16 (i + 1 + 256 * 2 ^ 32)) ++ List.replicate 128 0 ++
    bytesOfNat 64 2980714055874324533557569572371996158663998292562951462897245131548598852000128210181479339431489246666737145826052381322590501969385982270616952038084038

/-- `s` with that copy as copy A. -/
def withCopy (s : State) : State := { s with flash := (copyBytes320.zipIdx.map fun e => (e.2, e.1)).filter fun e => decide (e.2 ≠ 0xFF) }

theorem wit_ColdStartCompletes : full.powerOff.off = true ∧
    ((starting dsBoot 0).off = false ∧ (starting dsBoot 0).devState = dsBoot ∧ (starting dsBoot 0).boot.stage = 0 ∧
      (starting dsBoot 0).settleMirror.flashRetry.slotState 0 ≠ srGraft ∧ (starting dsBoot 0).settleMirror.flashRetry.slotState 1 ≠ srGraft ∧
      (starting dsBoot 0).settleMirror.flashRetry.takenSlots.find? (starting dsBoot 0).settleMirror.flashRetry.slotPasses = none) ∧
    ((starting dsBoot 1).boot.stage = 1 ∧ (starting dsBoot 1).boot.hubBad = false ∧
      (starting dsBoot 1).repair.hub = false ∧
      ((List.range 4).any fun d => decide (2 < ((((starting dsBoot 1).repair.failed ++ [0, 1, 262, 263].filter fun p =>
        decide (p < 264)).eraseDups).filter fun p => decide (dieOf p = d)).length)) = false) ∧
    (starting dsBoot 2).boot.stage = 2 ∧ (((starting dsBoot 2).setDev orHw dsConfiguring).checkCopies).newestCopy = none ∧
    ((starting dsConfiguring 3).devState = dsConfiguring ∧ (starting dsConfiguring 3).boot.stage = 3) ∧
    ((starting dsConfiguring 4).boot.stage = 4 ∧ (starting dsConfiguring 4).boot.refclk = true) ∧
    ((starting dsResetting 4).devState = dsResetting ∧ (starting dsResetting 4).off = false ∧ (starting dsResetting 4).boot.refclk = true) ∧
    (let s : State := { starting dsReady 6 with gov := { full.gov with moving := some (psFull, 0), rows := [psQuiet] } }
     (s.setFld F.GLB_STATE_POWER_STATE psDark).gov.moving.isSome = true ∧ (s.setFld F.GLB_STATE_POWER_STATE psDark).powState = psDark ∧
       (s.setFld F.GLB_STATE_POWER_STATE psDark).devState ≠ dsConfiguring ∧ s.boot.refclk = true) ∧
    (List.replicate 16 (⟨true, 4, 0, true, true, true, 0, false, false⟩ : BridgeReport)).length = 16 ∧
    ((starting dsConfiguring 5).boot.stage = 5 ∧ (starting dsConfiguring 5).fab.discoverAt = none ∧
      ((starting dsConfiguring 5).sect 1).isEmpty = false ∧
      (({ starting dsConfiguring 5 with conf := {} } : State).sect 1).isEmpty = true) := by decide +kernel

theorem wit_CopyChosen : (((withCopy (starting dsBoot 2)).setDev orHw dsConfiguring).checkCopies).newestCopy = some 0 := by decide +kernel

/-- A reload from HELD on copy A of section 2, and one whose memory section waits for the steps to end. -/
def reloading : State :=
  { full with boot := { full.boot with reload := some { copy := 0, todo := [2], part := false, held := false } }
              conf := { full.conf with memDue := some (List.replicate 64 0) } }

theorem wit_ReloadAndDeviceCommandsComplete : Accepts full .host blkGlb ∧ full.fld F.GLB_CFG_RELOAD_GO = 0 ∧
    (0x22A : Word).getLsbD 7 = false ∧ bitsOf (0x22A : Word) 9 8 ≠ 3 ∧ (0x82 : Word).getLsbD 7 = true ∧
    (Accepts (starting dsFallow 6) .host blkGlb ∧ (starting dsFallow 6).devState ≠ dsHeld ∧ (starting dsFallow 6).inService = false) ∧
    (full.devState = dsReady ∧ full.off = false ∧ bitsOf (0x182 : Word) 9 8 ≠ 3) ∧
    (reloading.boot.reload.isSome && reloading.conf.memDue.isSome && reloading.disp.steps.isEmpty && reloading.inService) = true ∧
    ((starting dsServing 6).devState = dsServing ∧ Accepts (starting dsServing 6) .host blkGlb ∧
      (starting dsDraining 6).devState = dsDraining ∧ Accepts (starting dsDraining 6) .host blkGlb) ∧
    full.safe = none ∧ full.inService = true ∧
    ¬ ((starting dsFallow 6).devState = dsConfiguring ∨ (starting dsFallow 6).devState = dsHeld ∨ (starting dsFallow 6).inService = true) := by
  decide +kernel

/-- `s` with COPY and SECTIONS of a reload written and the copy checked. -/
def selecting (s : State) (copy sections : Nat) : State :=
  (((s.closeLatch .host blkGlb).setFld F.GLB_CFG_RELOAD_COPY copy).setFld F.GLB_CFG_RELOAD_SECTIONS sections).checkSelected copy

theorem wit_ReloadSelects : (selecting (withCopy full) 1 2).selectCopy 1 = some 0 ∧ (selecting full 1 2).selectCopy 1 = none ∧
    bitsOf (0x181 : Word) 9 8 = 1 ∧ (0x181 : Word).getLsbD 0 = true ∧ (0x181 : Word).getLsbD 7 = true ∧
    (selecting (withCopy (starting dsServing 6)) 1 1).selectCopy 1 ≠ none ∧ Accepts (withCopy (starting dsServing 6)) .host blkGlb ∧
    (full.setFld F.GLB_CFG_RELOAD_GO 1).fld F.GLB_CFG_RELOAD_GO = 1 ∧ Accepts (full.setFld F.GLB_CFG_RELOAD_GO 1) .host blkGlb := by
  decide +kernel

/-- A power command due, in transition and held; a context open. -/
def powering (due moving held : Option (Nat × Nat)) : State :=
  { full.setCtx 1 cfState ctxOpen with gov := { full.gov with due := due, moving := moving, held := held } }

theorem wit_PowerCommandsComplete : Accepts full .host blkPwr ∧ full.inService = true ∧ full.devState ≠ dsFallow ∧
    (powering none none none).powerRefused psDark = true ∧ (powering none none none).openCtxs ≠ [] ∧
    Accepts (powering none none none) .host blkPwr ∧ full.powerRefused psDark = false ∧ full.powerRefused psTrim = false ∧
    full.inTransition = false ∧ full.powState ≠ psTrim ∧ (powering (some (1, 0)) none none).inTransition = true ∧
    ((powering (some (4, 0)) none none).gov.moving = none ∧ (powering (some (4, 0)) none none).workEnded = true ∧ psTrim < 4) ∧
    ((powering (some (psTrim, 0)) none none).gov.moving = none ∧ (powering (some (psTrim, 0)) none none).inService = true ∧
      (powering (some (psTrim, 0)) none none).powState ≤ psTrim) ∧
    (((powering (some (psTrim, 0)) none none).setFld F.GLB_STATE_POWER_STATE psQuiet).inService = true ∧
      psTrim < ((powering (some (psTrim, 0)) none none).setFld F.GLB_STATE_POWER_STATE psQuiet).powState) ∧
    ((powering none (some (4, 0)) (some (0, 1))).transitionEnds 4 = true ∧
      (powering none (some (4, 0)) (some (0, 1))).gov.rows.headD 4 = 4 ∧ (powering none (some (4, 0)) (some (0, 1))).gov.rows.drop 1 = []) ∧
    (let s : State := { full with gov := { full.gov with moving := some (psDark, 0), rows := powerRows psFull psDark } }
     s.gov.rows.headD psDark = psMulch ∧ s.transitionEnds psMulch = true ∧ s.gov.rows.drop 1 = [psQuiet, psDark] ∧
       s.inService = true) := by decide +kernel

/-- Quadrant 3 of die 3 slowed by three droop steps; the ninth measurement and a sudden loss of coolant. -/
def sensing : State :=
  { full with gov := { full.gov with droop := [(4 * 3 + 3, 3)], measures := 9, sudden := some 0, dp := 1, dpAt := some 0 } }

theorem wit_SensorsComplete : sensing.droopAt (4 * 3 + 3) = 3 ∧ sensing.droopAt 0 = 0 ∧ sensing.cluOn = true ∧ sensing.off = false ∧
    sensing.safe = none ∧ tripPoint ≤ temp16 (1840 : BitVec 16).toNat ∧ sensing.gov.thermtrip = false ∧ (sensing.gov.measures + 1) % 10 = 0 ∧
    (full.gov.measures + 1) % 10 ≠ 0 ∧ full.gov.sudden = none ∧ full.dropStands = false := by decide +kernel

theorem wit_SuddenLossContradicted : (({ full with gov := { full.gov with dpAt := some full.now, dp := Config.dpNominal } } :
    State)).dropStands = true := by
  simp [State.dropStands]
  exact ⟨Nat.lt_add_of_pos_right (by decide), Nat.mul_le_mul_right _ (by decide)⟩

/-- One staged bit of the host: register `a` of `s` with a mask and a value. -/
def staging (s : State) (a mask value : Nat) : State :=
  { s with staged := [(4 * a, { mask := BitVec.ofNat 64 mask, value := BitVec.ofNat 64 value })] }

def scrubCfg : Nat := (F.CLU_SCRUB_CFG_ENABLE.clu 263).reg

/-- A set of block `b` waiting. -/
def pendingOf (b : Nat) : State :=
  { full with commits := [{ block := b, writer := .host, set := [(scrubCfg, { mask := 1, value := 1 })], group := false }] }

theorem wit_CommitsWait :
    ((pendingOf blkCol).stagedSet .host blkCol = [] ∧ (pendingOf blkCol).commitWaits blkCol = true ∧ Accepts (pendingOf blkCol) .host blkCol) ∧
    (let s := staging full F.FAB_TIMER_CFG_GRACE_MS.reg 1 1
     s.stagedSet .host blkFab ≠ [] ∧ s.setLegal (s.stagedSet .host blkFab) = true ∧ s.portPart (s.stagedSet .host blkFab) = [] ∧
       s.flowsWait = false ∧ Accepts s .host blkFab) ∧
    (let t := staging full F.HST_STAGE_CFG_BASE.reg 1 1
     let s : State := { t with mem := { t.mem with waits := [{ line := 0, bytes := [], tag := 0, kgen := 0, enc := false, req := none }] } }
     s.stagedSet .host blkHst ≠ [] ∧ s.setLegal (s.stagedSet .host blkHst) = true ∧
       (s.stagedSet .host blkHst).any (fun e => decide (e.1 = F.HST_STAGE_CFG_BASE.reg)) = true ∧
       s.mustWait blkHst (s.stagedSet .host blkHst) = true ∧ Accepts s .host blkHst) := by decide +kernel

theorem wit_CommitsComplete : Accepts full .host blkHst ∧ Accepts full .host (blkClu 263) ∧ (commitReg (blkClu 263)).isSome = true ∧
    (staging full F.HST_STAGE_CFG_BASE.reg 63 63).setLegal ((staging full F.HST_STAGE_CFG_BASE.reg 63 63).stagedSet .host blkHst) = false ∧
    full.stagedSet .host blkHst = [] ∧ full.commitWaits blkHst = false ∧
    ((staging full scrubCfg 1 1).stagedSet .host (blkClu 263) ≠ [] ∧
      (staging full scrubCfg 1 1).setLegal ((staging full scrubCfg 1 1).stagedSet .host (blkClu 263)) = true ∧
      (staging full scrubCfg 1 1).mustWait (blkClu 263) ((staging full scrubCfg 1 1).stagedSet .host (blkClu 263)) = false ∧
      (staging full scrubCfg 1 1).earlierCommit (blkClu 263) = false) ∧
    ((staging (full.setSeq 263 sqRunning) scrubCfg 1 1).stagedSet .host (blkClu 263) ≠ [] ∧
      (staging (full.setSeq 263 sqRunning) scrubCfg 1 1).mustWait (blkClu 263)
        ((staging (full.setSeq 263 sqRunning) scrubCfg 1 1).stagedSet .host (blkClu 263)) = true ∧
      (staging (pendingOf blkCol) (F.COL_GROUP_VALID.at 4095).reg (2 ^ 32) 0).earlierCommit blkCol = true ∧ 0x100 ≤ blkClu 263) ∧
    (((pendingOf (blkClu 263)).oldestCommit (blkClu 263)).any fun c => !(pendingOf (blkClu 263)).mustWait (blkClu 263) c.set) = true ∧
    (((pendingOf blkFab).oldestCommit blkFab).isSome && !(pendingOf blkFab).collRuns && (pendingOf blkFab).inService) = true ∧
    (let s := (staging full F.MEM_MIRROR_REGION.reg 1 1).setFld F.GLB_STATE_DEVICE_STATE dsHeld
     s.stagedSet .host blkMem ≠ [] ∧ s.setLegal (s.stagedSet .host blkMem) = true ∧ s.mirrorChanged (s.stagedSet .host blkMem) = true ∧
       s.mustWait blkMem (s.stagedSet .host blkMem) = true ∧ Accepts s .host blkMem) ∧
    (((pendingOf blkMem).oldestCommit blkMem).any fun c => !(pendingOf blkMem).mustWait blkMem c.set) = true ∧
    Accepts full .host blkGlb ∧ (0x47FFE : Word).getLsbD 16 = false ∧ (0x47FFE : Word).getLsbD 18 = true ∧
    (0x17FFE : Word).getLsbD 16 = true ∧ (0x17FFE : Word).getLsbD 18 = false := by decide +kernel

/-- A class limit staged. -/
def limitStaged : State := staging full F.DSP_CLASS_LIMIT_LIMITA.reg 0xFF 0xFF

theorem wit_CommitAppliesTheStagedBits : Accepts limitStaged .host blkDsp ∧ blkDsp ∈ [blkDsp, blkRas, blkFwu, blkLog, blkHst] ∧
    msorted limitStaged.staged = true ∧ limitStaged.stagedSet .host blkDsp ≠ [] ∧
    limitStaged.setLegal (limitStaged.stagedSet .host blkDsp) = true ∧ limitStaged.earlierCommit blkDsp = false ∧
    limitStaged.mustWait blkDsp (limitStaged.stagedSet .host blkDsp) = false := by decide +kernel


/-- The part in MULCH with one sensor of each die at a reading of `c` sixteenths, heat on and the pins of power and cooling active. -/
def mulching (c : Nat) : State :=
  let s := [0, 24, 48, 72].foldl (fun (s : State) i => s.setFld (F.TEL_TEMP_TEMP.at i) c) (later.setFld F.GLB_STATE_POWER_STATE psMulch)
  { s with gov := { s.gov with cold := some 0, heat := 25, grant := 24, short := true, sudden := some 0, dpHigh := some 0, rackRuns := true, warn := true, fault := true } }

theorem wit_PowerPinsComplete : (mulching 0).gov.sudden.isSome = true ∧ (mulching 0).gov.dpHigh = some 0 ∧ 0 + 1000000000 ≤ (mulching 0).now ∧
    full.powerOff.off = true ∧ (mulching 0).off = false ∧ (mulching 0).powState = psMulch ∧
    (mulching 799).dieMean4 < 64 * (((mulching 799).fld F.PWR_POLICY_MULCH_CENTRE_C : Int) - (mulching 799).fld F.PWR_POLICY_MULCH_BAND_C) ∧
    64 * (((mulching 961).fld F.PWR_POLICY_MULCH_CENTRE_C : Int) + (mulching 961).fld F.PWR_POLICY_MULCH_BAND_C) < (mulching 961).dieMean4 ∧
    64 * (((mulching 800).fld F.PWR_POLICY_MULCH_CENTRE_C : Int) - (mulching 800).fld F.PWR_POLICY_MULCH_BAND_C) ≤ (mulching 800).dieMean4 ∧
    (mulching 960).dieMean4 ≤ 64 * (((mulching 960).fld F.PWR_POLICY_MULCH_CENTRE_C : Int) + (mulching 960).fld F.PWR_POLICY_MULCH_BAND_C) ∧
    (mulching 0).gov.cold = some 0 ∧ 0 + 10000000000 ≤ (mulching 0).now ∧ (mulching 0).gov.short = true ∧
    full.gov.warn = false ∧ (mulching 0).gov.warn = true ∧ full.gov.fault = false ∧ (mulching 0).gov.fault = true ∧
    (mulching 0).gov.rackRuns = true ∧ (mulching 0).fld F.PWR_STATUS_HEARTBEAT_LOST = 0 ∧
    (mulching 0).gov.beatAt + 1000000000 * (mulching 0).fld F.PWR_POLICY_HEARTBEAT_S ≤ (mulching 0).now := by decide +kernel

/-- The part without its reference; where it is off, a cold start waits for it. -/
def noRef (s : State) : State := { s with boot := { s.boot with refclk := false, waits := some (63, true, true) } }

theorem wit_InputsLostComplete : full.off = false ∧ full.powerOff.off = true ∧ full.boot.refclk = true ∧ full.powerOff.boot.refclk = true ∧
    (noRef full.powerOff).boot.refclk = false ∧ (noRef full.powerOff).boot.waits = some (63, true, true) ∧
    (let s : State := { ported poDown 2 with boot := { (ported poDown 2).boot with refclk := false, waits := none } }
     s.boot.waits = none ∧ s.portRelocks 31 = true ∧ (s.setFld (F.MEM_LANE_STATUS_STATE.at 15) mlDown).laneRelocks 15 = true) ∧
    (let s : State := { full.setFld F.GLB_STATE_POWER_STATE psDark with boot := { full.boot with refclk := false, waits := none } }
     s.boot.refclk = false ∧ (∀ k, k < 16 → s.laneRelocks k = false) ∧ (∀ p, p < 32 → s.portRelocks p = false)) := by decide +kernel

/-- Cluster 263 in a reset of its own; the last quadrant and all the compute in one, from long ago. -/
def resetting (quad comp : Bool) : State :=
  let s := (later.setSeq 263 sqInReset).setClu 263 { resetAt := some 0 }
  { s with ras := { s.ras with quadReset := if quad then [(29, 0)] else [], compReset := if comp then some 0 else none } }

/-- The step of `admitted` long over its budget. -/
def overdue : State := { admitted with clock := later.clock }

/-- Cluster 0 with a TWAIT whose tally is not reached, and with a vector descriptor that waits so. -/
def awaiting : State :=
  let s := prog (0x50 + 0x8000 * 2 ^ 32) [(1, 1)]
  s.setClu 0 { s.clu 0 with queue := [{ id := 0, pc := 0, words := [], eng := .vector, wait := some ({ hub := false, num := 0 }, 1)
                                        sig := none, a := .none, b := .none, c := .none, d := .none, idx := 0, far := 0 }] }

theorem wit_ResetsComplete : (full.cluRuns 263 = true ∧ full.excused 263 .seq = false ∧ full.excused 263 .tensor = false) ∧
    (awaiting.cluRuns 0 = true ∧ awaiting.excused 0 .seq = true ∧ awaiting.excused 0 .vector = true) ∧
    ((resetting false false).seqState 263 = sqInReset ∧ ((resetting false false).clu 263).resetAt = some 0 ∧
      (resetting false false).inLarger 263 = false ∧ 0 + 3600000 ≤ (resetting false false).now) ∧
    ((resetting true false).ras.compReset = none ∧ (29, 0) ∈ (resetting true false).ras.quadReset ∧ 0 + 90000000 ≤ later.now) ∧
    full.inService = true ∧ full.cluOn = true ∧ ((resetting true true).ras.compReset = some 0 ∧ 0 + 550000000 ≤ later.now) ∧
    (∃ t, overdue.stepOf 1 = some t ∧ (overdue.inService && t.replay.isNone && t.fail.isNone && !t.late.isEmpty &&
      decide (t.attemptAt + 1000000 * overdue.fld F.RAS_HANG_CFG_STEP_BUDGET_MS ≤ overdue.now)) = true) :=
  ⟨by decide +kernel, by decide +kernel, by decide +kernel, by decide +kernel, by decide +kernel, by decide +kernel, by decide +kernel,
    someWith (by decide +kernel)⟩

/-- `n` resets of each level just begun. -/
def resetOften (n : Nat) : State :=
  { full with ras := { full.ras with cluResets := List.replicate n (0, 0), quadResets := List.replicate n 0, compResets := List.replicate n 0 } }

theorem wit_LevelsEscalate :
    (resetOften 8).fld F.RAS_ESC_CFG_CLU_RESET_LIMIT < (((resetOften 8).ras.cluResets.filter fun e =>
      decide ((resetOften 8).stepNow < e.2 + (resetOften 8).cluWindow) && decide (quadDomain e.1 = quadDomain 0)).length) + 1 ∧
    (((resetOften 7).ras.cluResets.filter fun e => decide ((resetOften 7).stepNow < e.2 + (resetOften 7).cluWindow) &&
      decide (quadDomain e.1 = quadDomain 0)).length) + 1 ≤ (resetOften 7).fld F.RAS_ESC_CFG_CLU_RESET_LIMIT ∧
    (resetOften 8).fld F.RAS_ESC_CFG_QUAD_LIMIT < (recent (resetOften 8).stepNow (resetOften 8).upperWindow (resetOften 8).ras.quadResets).length + 1 ∧
    (resetOften 8).fld F.RAS_ESC_CFG_COMPUTE_LIMIT <
      (recent (resetOften 8).stepNow (resetOften 8).upperWindow (resetOften 8).ras.compResets).length + 1 := by decide +kernel

/-- A package recovery from READY at a device state, with `n` recoveries counted. -/
def recovering (dev n : Nat) : State :=
  let s := full.setFld F.GLB_STATE_DEVICE_STATE dev
  { s with recovery := some { began := 0, before := dsReady, fault := true }, ras := { s.ras with pkg := List.replicate n 0 } }

/-- Cluster 263, logical 255, due for a spare; a spare coming in for logical cluster 0. -/
def sparing : State :=
  { full with ras := { full.ras with spareDue := [263], spares := [{ logical := 0, old := 0, spare := 16, since := 0 }] } }

/-- The losses that recovery brought back, as the statement names them. -/
def restored (s : State) : State :=
  (((([] : List Nat).foldl State.noteFailed s)).restoreLosses ⟨[], [], [], [], []⟩).showEsc

theorem wit_RecoveryCompletes : full.recovery = none ∧ full.inService = true ∧ (recovering dsHarvest 0).recovery.isSome = true ∧
    (recovering dsHarvest 0).devState = dsHarvest ∧ ((recovering dsHarvest 0).mem.reqs.all fun q => !q.sent) = true ∧
    ((recovering dsResetting 4).devState = dsResetting ∧ (recovering dsResetting 4).boot.refclk = true ∧
      ((List.range 16).all fun k => decide ((recovering dsResetting 4).laneState k ≠ mlTraining)) = true ∧
      (recovering dsResetting 4).fab.discoverAt = none) ∧
    (restored (recovering dsResetting 4)).escLimit < (restored (recovering dsResetting 4)).ras.pkg.length ∧
    (restored (recovering dsResetting 3)).ras.pkg.length ≤ (restored (recovering dsResetting 3)).escLimit ∧
    (sparing.physOf 255 ∈ sparing.ras.spareDue ∧ sparing.isLost 255 = false) ∧
    ((sparing.ras.spares.find? fun x => decide (x.logical = 0)).isSome && sparing.inService && sparing.cluOn) = true ∧
    sparing.inService = true ∧ full.cluOn = true ∧
    (Accepts full .host blkRas ∧ full.fld F.RAS_SPARE_CTL_GO = 0 ∧ (full.chooseSpare (full.physOf 0) full.busySpares).isSome = true) ∧
    (let s : State := { full with repair := { full.repair with failed := List.range 264 } }
     Accepts s .host blkRas ∧ s.chooseSpare (s.physOf 0) s.busySpares = none) := by decide +kernel

/-- A self-test of a kind and index under way. -/
def testing (s : State) (kind i : Nat) : State := { s with ras := { s.ras with selftest := some (kind, i, 0) } }

theorem wit_SelfTestsComplete : Accepts full .host blkRas ∧ full.fld F.RAS_SELFTEST_GO = 0 ∧
    (full.cluRuns 263 = true ∧ 263 ∉ full.repair.failed ∧ 263 ∉ full.busySpares) ∧ full.laneUsable 15 = true ∧
    (Accepts (ported poUp 2) .host blkRas ∧ (ported poUp 2).portUsable 31 = true ∧ (ported poUp 2).fld F.RAS_SELFTEST_GO = 0) ∧
    0 = full.fld F.RAS_SELFTEST_INDEX ∧
    (full.setFld (F.RAS_CTL_HEALTH_STATE.at full.standby) 3).fld (F.RAS_CTL_HEALTH_STATE.at
      (full.setFld (F.RAS_CTL_HEALTH_STATE.at full.standby) 3).standby) = 3 ∧
    full.cluRuns 264 = false ∧ full.cluRuns 511 = false ∧
    (testing full 1 263).seqState 263 = sqIdle ∧ (testing (laneIn mlHeld) 2 15).laneState 15 = mlHeld ∧
    ((testing (ported poDraining 2) 3 31).portState 31 = poDraining ∧ (testing (ported poDraining 2) 3 31).portEmpty 31 = true) ∧
    (testing full 4 0).ras.selftest = some (4, 0, 0) ∧ full.inService = true := by decide +kernel

/-- The standby at a state, with an EPOCH and a dual-act window long open. -/
def leased (st epoch dual : Nat) : State :=
  let s := ((later.setFld (F.RAS_CTL_HEALTH_STATE.at 1) st).setFld F.RAS_LEASE_EPOCH epoch).setFld F.RAS_LEASE_DUAL_ACT dual
  { s with ctl := { s.ctl with dualAt := some 0, staleSeen := true } }

theorem wit_ControllersComplete : (leased 3 65535 0).firmwareRuns = true ∧ bit false = (leased 3 65535 0).activeNum ∧
    (leased 3 65535 0).ctl.stopped = false ∧ (65535 : BitVec 16).toNat = (leased 3 65535 0).epoch ∧
    (65534 : BitVec 16).toNat ≠ (leased 3 65535 0).epoch ∧
    (bit true = (leased 1 0 0).standby ∧ (leased 1 0 0).ctlState (leased 1 0 0).standby ≤ csStarting) ∧
    (leased 3 0 0).ctlState (leased 3 0 0).standby ≤ csStandby ∧
    ((leased 3 0 1).fld F.RAS_LEASE_DUAL_ACT = 1 ∧ (leased 3 0 1).ctl.dualAt = some 0 ∧ 0 + 50000 ≤ (leased 3 0 1).now) ∧
    (leased 3 65535 0).ctlState (leased 3 65535 0).standby = csStandby ∧ (leased 5 65535 0).ctlState (leased 5 65535 0).standby ≠ csStandby ∧
    (bit true ≠ (leased 3 0 1).activeNum ∧ ((65535 : BitVec 16).toNat + 1) % 65536 = (leased 3 0 1).epoch) := by decide +kernel

/-- SAFE for a cause other than a trip, with a RECOVER taken long ago. -/
def inSafe : State := { later with safe := some { before := dsReady, trip := false, recover := some 0 } }

/-- A register written in a dual-act window that has closed, with its entry in the journal. -/
def journalled : State :=
  { leased 3 65535 0 with
      ctl := { (leased 3 65535 0).ctl with dual := [0x900060] }
      cold := { (leased 3 65535 0).cold with journal := { (leased 3 65535 0).cold.journal with writes := [(0x900060, 5)] } } }

theorem wit_LeasesComplete : (leased 3 65535 0).firmwareRuns = true ∧ (leased 3 65535 0).standbyReady = true ∧
    (leased 3 65535 0).ctl.beatAt + 5000000 ≤ (leased 3 65535 0).now ∧ (leased 3 65535 0).firm.graft = none ∧
    (leased 3 65535 0).off = false ∧ (65535 : BitVec 16).toNat = (leased 3 65535 0).epoch ∧ (0 : BitVec 16).toNat ≠ (leased 3 65535 0).epoch ∧
    (leased 3 65535 0).fld F.RAS_LEASE_DUAL_ACT = 0 ∧ (leased 3 65535 0).ctl.staleSeen = true ∧ bit false = (leased 3 65535 0).activeNum ∧
    (bit false = journalled.activeNum ∧ journalled.fld F.RAS_LEASE_DUAL_ACT = 0 ∧ 0x900060 ∈ journalled.ctl.dual ∧
      (journalled.cold.journal.writes.find? fun e => decide (e.1 = 0x900060)) = some (0x900060, 5)) ∧
    full.holdsLease .ctlB = false ∧
    (later.devState ≠ dsSeedbed ∧ later.devState ≠ dsSafe ∧ ¬ (later.devState = dsBoot ∧ later.boot.stage = 0) ∧
      later.ctl.beatAt + 20000000 ≤ later.now) ∧
    ((leased 6 0 0).safe = none ∧ (leased 6 0 0).fld (F.RAS_CTL_HEALTH_STATE.at (bit true)) ∈ [1, 4, 6]) ∧
    (inSafe.safe = some { before := dsReady, trip := false, recover := some 0 } ∧ 0 + 10 * nsSec ≤ inSafe.now) := by decide +kernel


/-- An install of a header of no components at slot 1, or of `h`, whose payload of no bytes has come. -/
def installing (h : Bytes) : State :=
  { full with firm := { full.firm with install := some { slot := 1, header := h, origin := 0, got := 0, pldm := some .vdm } } }

/-- A header of one component of no bytes whose digest is zero. -/
def oneComponent : Bytes := List.replicate 17 0 ++ [1] ++ List.replicate 206 0

/-- `full` without the lane of the first line of tier 1. -/
def laneless : State := full.setFld (F.MEM_LANE_STATUS_STATE.at 0) 0

theorem wit_InstallsComplete : Accepts (installing []) .host blkFwu ∧ (installing []).fwuBusy = true ∧ Accepts full .host blkFwu ∧
    full.fwuBusy = false ∧ (Accepts laneless .host blkFwu ∧ laneless.fwuBusy = false ∧
      ∃ u, (fwuStarted laneless .host 1 1).takeStaged laneless.fwuSource headerBytes = (u, none)) ∧
    (∃ u h, (fwuStarted full .host 1 1).takeStaged full.fwuSource headerBytes = (u, some h) ∧
      (decide (u.installCheck 1 h ≠ 0) && ((u.openSlotWrite 1 h).takeStaged (u.fwuSource + headerBytes) (payloadBytes h)).2.isSome) = true) ∧
    (∃ i, (installing (List.replicate 224 0)).firm.install = some i ∧ (!i.paused && decide (payloadBytes i.header ≤ i.got) &&
      (installing (List.replicate 224 0)).payloadOk i.slot i.header) = true) ∧
    (installing oneComponent).payloadOk 1 oneComponent = false ∧
    (let s : State := { full with firm := { full.firm with seed := some { config := true, staged := true, target := 1 } } }
     s.off = false ∧ s.firm.install = none ∧ s.firm.seed = some { config := true, staged := true, target := 1 } ∧ SeedAccepts s) :=
  ⟨by decide +kernel, by decide +kernel, by decide +kernel, by decide +kernel, ⟨by decide +kernel, by decide +kernel, pairNone (by decide +kernel)⟩,
    pairWith (by decide +kernel), someWith (by decide +kernel), by decide +kernel, by decide +kernel⟩

/-- The standby is ready and the update path at a stage. -/
def graftBase (stage : Nat) : State :=
  (later.setFld (F.RAS_CTL_HEALTH_STATE.at 1) csStandby).setFld F.FWU_STATUS_STAGE stage

/-- Slot 1 holds a record of STATE `st`; where a graft of it is under way, it is at `stage`. -/
def slotted (st stage : Nat) (back : Option Nat) : State :=
  { graftBase stage with
    flash := ((graftBase stage).flashWrite (slotSector 1 + 64 * 63) (recordOf st (headerDigest ((graftBase stage).slotHeader 1) 32))).flash
    firm := { (graftBase stage).firm with
      runs := [1, 0]
      graft := if stage = 0 then none else some { slot := 1, prev := 0, deadline := 1000000000000, back := back,
                                                  loaded := if st = srRejected then List.range 264 else [] } } }

theorem slotState_slotted (st stage : Nat) (back : Option Nat) (h : st < 256) : (slotted st stage back).slotState 1 = st := by
  exact (State.slotState_flash (by unfold slotted; rfl) (by unfold slotted; rfl) 1).trans (State.slotState_recordOf (graftBase stage) 1 st rfl h)

theorem graftCheck_slotted : (fwuStarted (slotted srInstalled 0 none) .host 2 1).graftCheck 1 = 0 := by
  have h : (fwuStarted (slotted srInstalled 0 none) .host 2 1).slotState 1 = srInstalled :=
    (State.slotState_flash (by unfold fwuStarted State.setFld State.setReg State.closeLatch; rfl)
      (by unfold fwuStarted State.setFld State.setReg State.closeLatch; rfl) 1).trans
      (slotState_slotted srInstalled 0 none (by decide))
  unfold State.graftCheck
  rw [if_neg (by decide +kernel), h, if_neg (by decide)]

theorem wit_GraftsComplete : Accepts (slotted srInstalled 0 none) .host blkFwu ∧ Accepts full .host blkFwu ∧
    (fwuStarted full .host 2 2).graftCheck 2 ≠ 0 ∧
    (∃ g, (slotted srGraft fgStandby none).firm.graft = some g ∧ ((slotted srGraft fgStandby none).firmwareRuns && g.back.isNone &&
      decide ((slotted srGraft fgStandby none).fwStage = fgStandby) && decide ((slotted srGraft fgStandby none).firm.runs.length = 2)) = true) ∧
    (slotted srGraft fgPeer none).fwStage = fgPeer ∧
    (∃ g, (slotted srGraft fgMicrocode none).firm.graft = some g ∧ (decide ((slotted srGraft fgMicrocode none).fwStage = fgMicrocode) &&
      decide (((slotted srGraft fgMicrocode none).unloaded g).head? = some 0) && decide ((slotted srGraft fgMicrocode none).seqState 0 = sqIdle) &&
      ((slotted srGraft fgMicrocode none).clu 0).lead.isNone) = true) ∧
    (∃ g, (slotted srGraft fgAwait none).firm.graft = some g ∧ (!(slotted srGraft fgAwait none).off &&
      decide ((0 : BitVec 16).toNat = (slotted srGraft fgAwait none).epoch) && decide (bit false = (slotted srGraft fgAwait none).activeNum) &&
      g.back.isNone && decide ((slotted srGraft fgAwait none).fwStage = fgAwait) && decide (g.deadline ≤ (slotted srGraft fgAwait none).now)) = true) ∧
    (let s := { slotted srGraft fgAwait none with clock := full.clock }
     (∃ g, s.firm.graft = some g ∧ (!s.off && decide ((0 : BitVec 16).toNat = s.epoch) && decide (bit false = s.activeNum) &&
      g.back.isNone && decide (s.fwStage = fgAwait) && decide (s.now < g.deadline)) = true)) ∧
    (Accepts (slotted srGraft fgAwait none) .host blkFwu ∧ (slotted srInstalled 0 none).firm.graft = none) ∧
    (∃ g, (slotted srGraft fgBack (some 1)).firm.graft = some g ∧ (decide (g.back = some 1) && (slotted srGraft fgBack (some 1)).firmwareRuns &&
      decide ((slotted srGraft fgBack (some 1)).firm.runs.length = 2) && decide (g.slot = 1) && decide (g.slot ≠ g.prev) &&
      decide ((slotted srGraft fgBack (some 1)).runs (slotted srGraft fgBack (some 1)).activeNum = g.slot)) = true) ∧
    (slotted srGraft fgBack (some 1)).slotState 1 = srGraft ∧
    (∃ g, (slotted srRejected fgBack (some 1)).firm.graft = some g ∧ (g.back.isSome && decide (g.slot = 1) &&
      ((slotted srRejected fgBack (some 1)).unloaded g).isEmpty) = true) ∧
    (slotted srRejected fgBack (some 1)).slotState 1 = srRejected :=
  ⟨by decide +kernel, by decide +kernel, by decide +kernel, someWith (by decide +kernel), by decide +kernel, someWith (by decide +kernel),
    someWith (by decide +kernel), someWith (by decide +kernel), by decide +kernel, someWith (by decide +kernel),
    slotState_slotted srGraft fgBack (some 1) (by decide), someWith (by decide +kernel), slotState_slotted srRejected fgBack (some 1) (by decide)⟩

/-- A download of a kind open at a device state, the last block acknowledged. -/
def seeding (dev : Nat) (config : Bool) (seq : Option Nat) (header : Bytes) : State :=
  let s := full.setFld F.GLB_STATE_DEVICE_STATE dev
  { s with firm := { s.firm with seed := some { config := config, target := 1, seq := seq, header := header } } }

theorem wit_BuffersComplete : Accepts full .host blkFwu ∧ full.fwuBusy = false ∧ full.fld F.GLB_CFG_STATUS_IN_USE = 0 + 1 ∧
    full.fld F.GLB_CFG_STATUS_IN_USE ≠ 1 + 1 ∧ full.fld F.FWU_CTL_VIA_BUF = 0 ∧
    (Accepts (full.setFld F.FWU_CTL_VIA_BUF 1) .host blkFwu ∧ (full.setFld F.FWU_CTL_VIA_BUF 1).fld F.FWU_CTL_VIA_BUF = 1 ∧
      (full.setFld F.FWU_CTL_VIA_BUF 1).fld F.GLB_CFG_STATUS_IN_USE ≠ 1 + 1) ∧
    (SeedAccepts (seeding dsSeedbed false none []) ∧ (seeding dsSeedbed false none []).devState = dsSeedbed ∧
      (seeding dsSeedbed false none []).reaches .host = true) ∧
    (∃ d, (seeding dsSeedbed false none []).firm.seed = some d ∧ (d.seq.isNone && !d.config && !d.staged) = true) ∧
    (∃ d, (seeding dsReady true (some 65534) []).firm.seed = some d ∧ (decide (d.seq = some 65534) && d.config && !d.staged) = true) ∧
    SeedAccepts (seeding dsReady true (some 65534) []) ∧
    (∃ d, (seeding dsSeedbed false (some 0) (List.replicate 224 0)).firm.seed = some d ∧ (!d.config && d.seq.isSome &&
      decide (payloadBytes d.header ≤ d.got) && (seeding dsSeedbed false (some 0) (List.replicate 224 0)).payloadOk d.target d.header) = true) ∧
    (seeding dsSeedbed false (some 0) oneComponent).payloadOk 1 oneComponent = false :=
  ⟨by decide +kernel, by decide +kernel, by decide +kernel, by decide +kernel, by decide +kernel, by decide +kernel, by decide +kernel,
    someWith (by decide +kernel), someWith (by decide +kernel), by decide +kernel, someWith (by decide +kernel), by decide +kernel⟩

/-- An entry of every role for the key of zeros; the mailbox holds a command of a code with a body of `n` zeros and a nonce. -/
def mailed (code n nonce : Nat) : State :=
  let s := (((full.setReg mboxBase (BitVec.ofNat 64 (0x434F5856 + code * 2 ^ 32))).setReg (mboxBase + 8) 1).setReg (mboxBase + 16)
    (BitVec.ofNat 64 nonce)).setReg (mboxBase + 40) (BitVec.ofNat 64 n)
  { s with cold := { s.cold with roles := [0x3F :: List.replicate 95 0] } }

/-- Are the form, the nonce and the signer of a command in `s` right? -/
def mailOk (s : State) (role : Nat) (form : Bytes → Bool) : Bool :=
  ownerHeadOk (s.mbox 64) && form ((s.mbox (64 + bodyBytes (s.mbox 64))).drop 64) &&
    decide (numAt (s.mbox 64) 8 8 = s.serialNumber) && decide (numAt (s.mbox 64) 16 8 = (s.reg F.SEC_NONCE_NONCE.reg).toNat) &&
    (s.signer (s.mbox 64) role).isSome

theorem wit_OwnerCommandsComplete : Accepts (mailed 3 0 0) .host blkSec ∧ (mailed 3 0 0).ownerCode = 3 ∧
    mailOk (mailed 3 0 0) roleWipe (fun b => b.isEmpty) = true ∧ mailOk (mailed 2 1 0) roleLifecycle (fun b => decide (b.length = 1)) = true ∧
    mailOk (mailed 6 1 0) roleKeys (fun b => decide (b.length = 1) && decide (numAt b 0 1 < 16)) = true ∧
    ktkFormOk (15 :: List.replicate 1583 0) = true ∧
    ownerHeadOk ((mailed 3 40000 0).mbox 64) = false ∧
    ((mailed 2 0 0).ownerCode = 2 ∧ ((mailed 2 0 0).mbox (64 + bodyBytes ((mailed 2 0 0).mbox 64))).drop 64 = []) ∧
    numAt ((mailed 3 0 7).mbox 64) 16 8 ≠ ((mailed 3 0 7).reg F.SEC_NONCE_NONCE.reg).toNat ∧
    (let s := { mailed 3 0 0 with cold := {} }
     s.signer (s.mbox 64) roleWipe = none) ∧ full.off = false := by decide +kernel


/-- Wipes, authorisations and the life cycle: `n` authorisations held; a key named by a context. -/
def owned (wiping : Option Nat) (n : Nat) (identity : Option (Nat × Nat)) : State :=
  { full with cold := { full.cold with wiping := wiping, auths := List.replicate n [], identity := identity }
              disp := { full.disp with keyRefs := [(0xFFFF, 1)] } }

theorem wit_OwnerEffectsFollowTheRules : (owned none 3 none).cold.wiping = none ∧ (owned (some 1) 4 none).cold.wiping = some 1 ∧
    (owned none 3 none).cold.auths.length < 4 ∧ 4 ≤ (owned none 4 none).cold.auths.length ∧
    (owned none 3 none).lifeOk (numAt [0xFF] 0 1) = false ∧ (owned none 3 none).lifeOk (numAt [1] 0 1) = true ∧
    (owned none 3 none).keyRefs (ktkSlot [15]) ≠ 0 ∧ (owned none 3 none).keyRefs (ktkSlot [0]) = 0 ∧ (owned none 3 none).cold.identity = none ∧
    (owned none 3 (some (1, 1))).cold.identity = some (1, 1) := by decide +kernel

/-- `n` signatures asked for over the I3C port, with or without an identity. -/
def signing (n : Nat) (identity : Option (Nat × Nat)) : State :=
  { onI3c with mgmt := { onI3c.mgmt with sigs := List.replicate n { ep := .i3c, body := [], covers := [] }, polled := [7] }
               cold := { onI3c.cold with identity := identity } }

theorem wit_AttestationCompletes : (signing 4 (some (0, 0))).epServed .vdm = true ∧ (signing 4 (some (0, 0))).epServed .i3c = true ∧
    (signing 4 none).certChain = none ∧ (∃ c, (signing 4 (some (0, 0))).certChain = some c) ∧
    (signing 4 (some (0, 0))).cold.identity ≠ none ∧ (signing 4 (some (0, 0))).mgmt.sigs.length < 5 ∧
    5 ≤ (signing 5 (some (0, 0))).mgmt.sigs.length ∧ measureBlocks 7 ≠ [] ∧ measureBlocks 0xFF ≠ [] ∧ measureBlocks 8 = [] ∧
    (∃ r rest, (signing 1 (some (0, 0))).mgmt.sigs = r :: rest) ∧ (signing 1 none).cold.identity = none :=
  ⟨by decide +kernel, by decide +kernel, rfl, ⟨_, rfl⟩, by decide +kernel, by decide +kernel, by decide +kernel, by decide, by decide, by decide,
    ⟨_, _, rfl⟩, by decide +kernel⟩

theorem wit_PlatformManagementCompletes : full.off = false ∧ full.mgmt.dynAddr = none ∧ onI3c.i3cServed = true ∧
    (pdrTable[1 - 1]?).map (·.id) = some 1 ∧ (pdrTable[23 - 1]?).map (·.kind) = some 2 ∧ effecterOk true 1 599 = false ∧ effecterOk false 2 65535 = false ∧
    (signing 0 none).i3cServed = true ∧ (signing 0 none).mgmt.polled = [7] ∧ onI3c.mgmt.polled = [] ∧
    (full.epServed .vdm = true ∧ full.fwuBusy = false ∧ ([] : Bytes).length < headerBytes) ∧
    ((seeding dsReady true none []).epServed .vdm = true ∧ (seeding dsReady true none []).fwuBusy = true ∧
      (seeding dsReady true none []).firm.install = none) ∧
    (∃ i, (installing [1]).firm.install = some i ∧ (decide (i.pldm = some .vdm) && !i.paused && decide (i.header.length + i.got ≠ 0)) = true) ∧
    (installing [1]).epServed .vdm = true ∧ full.graftCheck (1 - full.runningSlot) ≠ 0 ∧
    ((slotted srInstalled 0 none).epServed .vdm = true ∧ (slotted srInstalled 0 none).runningSlot = 0) ∧
    (slotted srInstalled 0 none).graftCheck 1 = 0 := by
  refine ⟨by decide +kernel, by decide +kernel, by decide +kernel, by decide, by decide, by decide, by decide, by decide +kernel,
    by decide +kernel, by decide +kernel, by decide +kernel, by decide +kernel, someWith (by decide +kernel), by decide +kernel,
    by decide +kernel, by decide +kernel, ?_⟩
  unfold State.graftCheck
  rw [if_neg (by decide +kernel), slotState_slotted srInstalled 0 none (by decide), if_neg (by decide)]

/-- What a parent answers. -/
def answer : SyncMsg := { synced := true, root := true, hops := 6, rootChip := 0, seq := 9, t1 := 5, t2 := 0, t3 := 0 }

/-- Port 31, up, asked its neighbour; its parent is long silent. -/
def timed : State :=
  { ported poUp 2 with clock := { (ported poUp 2).clock with asked := [(31, 9, 5)], hasParent := true, lastAnswer := 0 } }

theorem wit_TimeKeepingCompletes : timed.portUsable 31 = true ∧ timed.portOn 31 = true ∧
    (((timed.oweCtrl 31).hear 31 { answer with seq := 8 }).chooseParent).clock.asked.contains (31, 8, 5) = false ∧
    ((31, answer.seq, answer.t1) ∈ (((timed.oweCtrl 31).hear 31 answer).chooseParent).clock.asked ∧
      (((timed.oweCtrl 31).hear 31 answer).chooseParent).clock.hasParent = true ∧
      (((timed.oweCtrl 31).hear 31 answer).chooseParent).fld F.TIM_STATUS_PARENT_PORT = 31) ∧
    (timed.off = false ∧ timed.clock.hasParent = true ∧ timed.clock.lastAnswer + 10000000 ≤ timed.now ∧ timed.bestParent = none ∧
      timed.timState ≠ tsRoot) ∧ timed.rootOk = true := by decide +kernel

/-- A change waiting; changes lost; the ring without its first entry, and with one of 64 zeros there. -/
def changed (ring : Bool) : State :=
  let s := (full.setFld F.LOG_MIRROR_CFG_ENABLE 1).setFld F.LOG_STATUS_NEXT_SEQ 1
  { s with log := { s.log with
      queue := [{ time := 0, wall := 0, origin := 0, cls := 1, object := 0, old := [], new := [] }]
      lost := 1
      ring := if ring then [(0, List.replicate 64 0)] else [] } }

theorem wit_ChangeLogCompletes : (changed false).off = false ∧ (changed false).fld F.SEC_CF_STATUS_WIPE_BUSY = 0 ∧
    (changed false).log.queue.length = 1 ∧ (changed false).log.lost ≠ 0 ∧ (changed false).log.queue.length < 1024 ∧
    (changed false).fld F.LOG_MIRROR_CFG_ENABLE = 1 ∧ (changed false).fld F.LOG_MIRROR_STATUS_MIRROR_SEQ = 0 ∧
    0 ≠ (changed false).fld F.LOG_STATUS_NEXT_SEQ ∧ (changed false).ringEntry 0 = none ∧ ((changed true).ringEntry 0).isSome = true ∧
    (changed true).stageReaches ((changed true).mirrorOffset 0) = true := by decide +kernel

/-- Port 31 down and waiting for light; the host link with a lane under substitution. -/
def waitingLight : State :=
  let s := (ported poDown 2).setPort 31 { awaitLight := true }
  { s with host := { s.host with sparing := [15, 14] } }

theorem wit_LinkAndTestPortComplete : full.off = false ∧ full.host.perst = false ∧ 4092 % 4 = 0 ∧
    (linked lsResetting false 0).linkState = lsResetting ∧ full.linkState = lsUp ∧
    ((ported poDark 0).planned 31 = false ∧ (ported poDark 0).portState 31 = poDark) ∧
    (waitingLight.boot.refclk = true ∧ waitingLight.mayTrain = true ∧ waitingLight.portState 31 = poDown ∧ (waitingLight.port 31).awaitLight = true) ∧
    waitingLight.host.sparing = [15, 14] ∧ (ported poDark 0).memOn = true ∧
    ((ported poDark 0).setFld F.GLB_STATE_POWER_STATE psDark).memOn = false ∧
    ((linked lsUp false 0).hostLinked = true ∧ ((linked lsUp false 0).host.unacked.find? fun w => decide (w.seq = 9)).isSome = true) ∧
    capturing.off = false ∧ capturing.tap.trst = true ∧ tapNext .selIr true = .reset ∧ tapNext .exit1Ir true = .updateIr ∧
    tapNext capturing.tap.state true ≠ .reset := by decide +kernel

/-- A vector descriptor of sixteen elements on cluster 0. -/
def vecDesc (op : Nat) : Desc :=
  { id := 0, pc := 0, words := wordsOf 8 [(0, op), (6, 16)], eng := .vector, wait := none, sig := none, a := .mem false 0
    b := .mem false 64, c := .mem false 128, d := .mem false 192, idx := 0, far := 0 }

theorem wit_ElementwiseOperationsCompute :
    (∃ s1 v, admitted.readOperands 0 (vecDesc 0x20) true false 0 = (s1, some v) ∧ (!(s1.clu 0).upset) = true) ∧
    (∃ s1 v, admitted.readOperands 0 (vecDesc 0x22) true true (hFmtB (vecDesc 0x22).words) = (s1, some v) ∧ (!(s1.clu 0).upset) = true) ∧
    (∃ s1 v, admitted.readOperands 0 (vecDesc 0x26) true true (vselectFmt (vecDesc 0x26).words) = (s1, some v) ∧ true = true) ∧
    hOpcode (vecDesc 0x26).words = 0x26 :=
  ⟨pairWith (by decide +kernel), pairWith (by decide +kernel), pairWith (p := fun _ _ => true) (by decide +kernel), by decide +kernel⟩

end Sys2Proof.Tests
end

section
/-! SUPPORT. What a step leaves alone, for every command at once: the queue, the canonical form of the stores, and the stores that the
command is not among the writers of. -/

namespace Sys2Proof.Machine

open Sys2Proof.Safety

/-- The commands that set the present time back to 0 (R617, R666, R869, R870). -/
def setsClock : Instr → Bool
  | .eoffN | .inputLoss | .inputOvervoltage => true
  | _ => false

/-- The stores whose writers `Safety` lists, each kept by a command that is not on its list. The other parts are open here: a command
that keeps more of them says so in its own `Keeps` lemma. -/
def keptBy (c : Instr) : Kept :=
  { regs := false, clusters := false, slice := false, pad := false, lines := false, keys := false, fab := false, col := false
    conf := false, firm := false, ctl := false, boot := false
    slots := !mayWriteSlots c, tables := !mayWriteTables c, repair := !mayWriteRepair c, cold := !mayWriteFrame c
    flash := !mayWriteFlash c, tap := !mayWriteTap c, staged := !mayWriteStaged c, cfg := !mayWriteConfig c
    ticks := !setsClock c }

/-- No command faults or is refused: every arm of `exec` answers a next state (log entry 5). -/
theorem exec_next (c : Instr) (s : State) : ∃ t, exec c s = .next t := by
  cases c <;> exact ⟨_, rfl⟩

/-- One arm for each command: its own `Keeps` lemma, each `rfl` a part that the command may write and that `keptBy` leaves open. -/
theorem exec_keeps {c : Instr} {s t : State} (e : exec c s = .next t) : Keeps (keptBy c) s t := by
  cases c with
  | registerWrite => exact execRegisterWrite_keeps rfl rfl rfl rfl rfl rfl rfl rfl rfl rfl rfl rfl rfl rfl rfl rfl rfl rfl .rfl e
  | controlReadOversize => exact execControlReadOversize_keeps rfl .rfl e
  | snapRead => exact execSnapRead_keeps .rfl e
  | snapLatchExpiry => exact execSnapLatchExpiry_keeps .rfl e
  | glbSnapCtlWrite => exact execGlbSnapCtlWrite_keeps rfl rfl .rfl e
  | commit => exact execCommit_keeps rfl rfl rfl rfl rfl rfl rfl rfl .rfl e
  | clusterCommitApply => exact execClusterCommitApply_keeps rfl rfl rfl rfl rfl rfl .rfl e
  | deferredCommitApply => exact execDeferredCommitApply_keeps rfl rfl rfl rfl rfl rfl .rfl e
  | commitGroup => exact execCommitGroup_keeps rfl rfl rfl rfl rfl rfl rfl rfl .rfl e
  | ctxPeekSelWrite => exact execCtxPeekSelWrite_keeps rfl rfl .rfl e
  | logReadSelWrite => exact execLogReadSelWrite_keeps rfl rfl .rfl e
  | tlyAdd => exact execTlyAdd_keeps rfl rfl .rfl e
  | telTempMaxWrite => exact execTelTempMaxWrite_keeps rfl rfl .rfl e
  | cringHeadWrite => exact execCringHeadWrite_keeps rfl rfl .rfl e
  | laneReset => exact execLaneReset_keeps rfl rfl .rfl e
  | intakeWrite => exact execIntakeWrite_keeps rfl rfl .rfl e
  | laneStallTimeout => exact execLaneStallTimeout_keeps rfl .rfl e
  | take => exact execTake_keeps rfl rfl .rfl e
  | creditWrite => exact execCreditWrite_keeps .rfl e
  | stepMessageEnd => exact execStepMessageEnd_keeps rfl .rfl e
  | stepChoose => exact execStepChoose_keeps .rfl e
  | stepAdmit => exact execStepAdmit_keeps rfl rfl rfl rfl rfl rfl rfl .rfl e
  | reservationRelease => exact execReservationRelease_keeps .rfl e
  | openCtx => exact execOpenCtx_keeps rfl rfl rfl rfl .rfl e
  | teardown => exact execTeardown_keeps rfl rfl rfl rfl rfl rfl rfl rfl rfl .rfl e
  | teardownDone => exact execTeardownDone_keeps rfl rfl rfl rfl .rfl e
  | setWindow => exact execSetWindow_keeps rfl rfl rfl .rfl e
  | loadKey => exact execLoadKey_keeps rfl rfl .rfl e
  | clearKey => exact execClearKey_keeps rfl rfl .rfl e
  | setAdapter => exact execSetAdapter_keeps rfl rfl rfl .rfl e
  | loadImage => exact execLoadImage_keeps rfl rfl rfl .rfl e
  | imageLoaded => exact execImageLoaded_keeps rfl rfl rfl rfl rfl .rfl e
  | imageSourceRefused => exact execImageSourceRefused_keeps rfl rfl rfl rfl rfl .rfl e
  | completionRecordWrite => exact execCompletionRecordWrite_keeps rfl .rfl e
  | coalesceTimeout => exact execCoalesceTimeout_keeps rfl .rfl e
  | msixPendingSend => exact execMsixPendingSend_keeps rfl .rfl e
  | nop => exact execNop_keeps rfl rfl rfl rfl rfl rfl .rfl e
  | halt => exact execHalt_keeps rfl rfl rfl rfl rfl rfl .rfl e
  | wload => exact execWload_keeps rfl rfl rfl rfl rfl rfl rfl rfl .rfl e
  | mma => exact execMma_keeps rfl rfl rfl rfl rfl rfl rfl rfl .rfl e
  | mmaMerge => exact execMmaMerge_keeps rfl rfl rfl rfl rfl rfl rfl rfl .rfl e
  | mmaAdapt => exact execMmaAdapt_keeps rfl rfl rfl rfl rfl rfl rfl rfl .rfl e
  | drain => exact execDrain_keeps rfl rfl rfl rfl rfl rfl rfl rfl .rfl e
  | accClear => exact execAccClear_keeps rfl rfl rfl rfl rfl rfl rfl rfl .rfl e
  | accScale => exact execAccScale_keeps rfl rfl rfl rfl rfl rfl rfl rfl .rfl e
  | vadd => exact execVadd_keeps rfl rfl rfl rfl rfl rfl rfl rfl .rfl e
  | vmul => exact execVmul_keeps rfl rfl rfl rfl rfl rfl rfl rfl .rfl e
  | vfma => exact execVfma_keeps rfl rfl rfl rfl rfl rfl rfl rfl .rfl e
  | vmax => exact execVmax_keeps rfl rfl rfl rfl rfl rfl rfl rfl .rfl e
  | vmin => exact execVmin_keeps rfl rfl rfl rfl rfl rfl rfl rfl .rfl e
  | vcmp => exact execVcmp_keeps rfl rfl rfl rfl rfl rfl rfl rfl .rfl e
  | vselect => exact execVselect_keeps rfl rfl rfl rfl rfl rfl rfl rfl .rfl e
  | vcvt => exact execVcvt_keeps rfl rfl rfl rfl rfl rfl rfl rfl .rfl e
  | vsfuExp => exact execVsfuExp_keeps rfl rfl rfl rfl rfl rfl rfl rfl .rfl e
  | vsfuLog => exact execVsfuLog_keeps rfl rfl rfl rfl rfl rfl rfl rfl .rfl e
  | vsfuReciprocal => exact execVsfuReciprocal_keeps rfl rfl rfl rfl rfl rfl rfl rfl .rfl e
  | vsfuRsqrt => exact execVsfuRsqrt_keeps rfl rfl rfl rfl rfl rfl rfl rfl .rfl e
  | vsfuTanh => exact execVsfuTanh_keeps rfl rfl rfl rfl rfl rfl rfl rfl .rfl e
  | vsfuSigmoid => exact execVsfuSigmoid_keeps rfl rfl rfl rfl rfl rfl rfl rfl .rfl e
  | vsfuGelu => exact execVsfuGelu_keeps rfl rfl rfl rfl rfl rfl rfl rfl .rfl e
  | vreduceSum => exact execVreduceSum_keeps rfl rfl rfl rfl rfl rfl rfl rfl .rfl e
  | vreduceMax => exact execVreduceMax_keeps rfl rfl rfl rfl rfl rfl rfl rfl .rfl e
  | vreduceMin => exact execVreduceMin_keeps rfl rfl rfl rfl rfl rfl rfl rfl .rfl e
  | vsoftmax => exact execVsoftmax_keeps rfl rfl rfl rfl rfl rfl rfl rfl .rfl e
  | vnormRms => exact execVnormRms_keeps rfl rfl rfl rfl rfl rfl rfl rfl .rfl e
  | vnormLayer => exact execVnormLayer_keeps rfl rfl rfl rfl rfl rfl rfl rfl .rfl e
  | vrandUniform => exact execVrandUniform_keeps rfl rfl rfl rfl rfl rfl rfl rfl .rfl e
  | vrandRaw => exact execVrandRaw_keeps rfl rfl rfl rfl rfl rfl rfl rfl .rfl e
  | vtopk => exact execVtopk_keeps rfl rfl rfl rfl rfl rfl rfl rfl .rfl e
  | vgather => exact execVgather_keeps rfl rfl rfl rfl rfl rfl rfl rfl .rfl e
  | vscatter => exact execVscatter_keeps rfl rfl rfl rfl rfl rfl rfl rfl .rfl e
  | lmove => exact execLmove_keeps rfl rfl rfl rfl rfl rfl rfl rfl .rfl e
  | tmovePull => exact execTmovePull_keeps rfl rfl rfl rfl rfl rfl rfl rfl .rfl e
  | tmovePush => exact execTmovePush_keeps rfl rfl rfl rfl rfl rfl rfl rfl .rfl e
  | barrowInbound => exact execBarrowInbound_keeps rfl rfl rfl rfl rfl rfl rfl rfl .rfl e
  | barrowOutbound => exact execBarrowOutbound_keeps rfl rfl rfl rfl rfl rfl rfl rfl .rfl e
  | ringCfg => exact execRingCfg_keeps rfl rfl rfl rfl rfl rfl rfl rfl .rfl e
  | twait => exact execTwait_keeps rfl rfl rfl rfl rfl rfl .rfl e
  | tsignal => exact execTsignal_keeps rfl rfl rfl rfl rfl rfl .rfl e
  | taddRemote => exact execTaddRemote_keeps rfl rfl rfl rfl rfl rfl .rfl e
  | fence => exact execFence_keeps rfl rfl rfl rfl rfl rfl .rfl e
  | loopD => exact execLoopD_keeps rfl rfl rfl rfl rfl rfl .rfl e
  | endloop => exact execEndloop_keeps rfl rfl rfl rfl rfl rfl .rfl e
  | branchTally => exact execBranchTally_keeps rfl rfl rfl rfl rfl rfl .rfl e
  | call => exact execCall_keeps rfl rfl rfl rfl rfl rfl .rfl e
  | ret => exact execRet_keeps rfl rfl rfl rfl rfl rfl .rfl e
  | stepEnd => exact execStepEnd_keeps rfl rfl rfl rfl rfl rfl .rfl e
  | descriptorStart => exact execDescriptorStart_keeps rfl rfl rfl rfl rfl rfl rfl rfl .rfl e
  | descriptorComplete => exact execDescriptorComplete_keeps rfl rfl rfl rfl .rfl e
  | hubTallySignalLand => exact execHubTallySignalLand_keeps rfl rfl .rfl e
  | collEnterAllReduce => exact execCollEnterAllReduce_keeps rfl rfl rfl rfl rfl rfl .rfl e
  | collEnterReduceScatter => exact execCollEnterReduceScatter_keeps rfl rfl rfl rfl rfl rfl .rfl e
  | collEnterAllGather => exact execCollEnterAllGather_keeps rfl rfl rfl rfl rfl rfl .rfl e
  | collEnterBroadcast => exact execCollEnterBroadcast_keeps rfl rfl rfl rfl rfl rfl .rfl e
  | collEnterPass => exact execCollEnterPass_keeps rfl rfl rfl rfl rfl rfl .rfl e
  | stepCommit => exact execStepCommit_keeps rfl rfl rfl rfl rfl rfl rfl .rfl e
  | stepFail => exact execStepFail_keeps rfl rfl rfl rfl rfl rfl rfl rfl .rfl e
  | stepReplay => exact execStepReplay_keeps rfl rfl rfl rfl rfl rfl rfl .rfl e
  | arbitrationRound => exact execArbitrationRound_keeps rfl rfl .rfl e
  | scrubRead => exact execScrubRead_keeps rfl rfl rfl rfl rfl rfl .rfl e
  | residentRewrite => exact execResidentRewrite_keeps rfl rfl rfl rfl rfl .rfl e
  | coldFrameScrub => exact execColdFrameScrub_keeps rfl rfl .rfl e
  | wipeDone => exact execWipeDone_keeps rfl rfl .rfl e
  | memGroupReceive => exact execMemGroupReceive_keeps rfl rfl rfl rfl rfl rfl rfl .rfl e
  | memOpticalLaneFail => exact execMemOpticalLaneFail_keeps rfl rfl rfl rfl rfl .rfl e
  | memSpareDone => exact execMemSpareDone_keeps rfl rfl .rfl e
  | memLaneRetrain => exact execMemLaneRetrain_keeps rfl rfl rfl rfl .rfl e
  | memLaneUp => exact execMemLaneUp_keeps rfl rfl rfl rfl rfl .rfl e
  | memLaneCtlRetrain => exact execMemLaneCtlRetrain_keeps rfl rfl rfl rfl .rfl e
  | memoryReplyTimeout => exact execMemoryReplyTimeout_keeps rfl rfl rfl rfl .rfl e
  | pageFillDone => exact execPageFillDone_keeps rfl rfl .rfl e
  | mirrorResyncDone => exact execMirrorResyncDone_keeps rfl rfl .rfl e
  | tierScrubRead => exact execTierScrubRead_keeps rfl rfl rfl .rfl e
  | memEvacGo => exact execMemEvacGo_keeps rfl rfl .rfl e
  | memMigrateGo => exact execMemMigrateGo_keeps rfl rfl .rfl e
  | evacPageCopied => exact execEvacPageCopied_keeps rfl rfl .rfl e
  | evacPageDone => exact execEvacPageDone_keeps rfl rfl .rfl e
  | fabricFrameReceive => exact execFabricFrameReceive_keeps rfl .rfl e
  | fabLaneFail => exact execFabLaneFail_keeps rfl rfl rfl rfl rfl .rfl e
  | fabSpareDone => exact execFabSpareDone_keeps rfl rfl .rfl e
  | portLossOfLight => exact execPortLossOfLight_keeps rfl rfl rfl rfl .rfl e
  | portRetrain => exact execPortRetrain_keeps rfl rfl rfl rfl .rfl e
  | portUp => exact execPortUp_keeps rfl rfl .rfl e
  | fabPortRetrain => exact execFabPortRetrain_keeps rfl rfl .rfl e
  | portRetryTimer => exact execPortRetryTimer_keeps rfl rfl rfl rfl .rfl e
  | hello => exact execHello_keeps rfl rfl .rfl e
  | laneChange => exact execLaneChange_keeps rfl rfl rfl rfl rfl .rfl e
  | resetNotice => exact execResetNotice_keeps rfl rfl rfl rfl .rfl e
  | portDark => exact execPortDark_keeps rfl rfl rfl rfl .rfl e
  | discoveryEnd => exact execDiscoveryEnd_keeps rfl rfl rfl rfl .rfl e
  | packetForward => exact execPacketForward_keeps rfl rfl .rfl e
  | write => exact execWrite_keeps rfl rfl rfl rfl .rfl e
  | tadd => exact execTadd_keeps rfl rfl .rfl e
  | circSetup => exact execCircSetup_keeps rfl rfl .rfl e
  | circTeardown => exact execCircTeardown_keeps rfl rfl .rfl e
  | ack => exact execAck_keeps rfl rfl rfl rfl .rfl e
  | replyTimeout => exact execReplyTimeout_keeps rfl rfl rfl rfl .rfl e
  | tagReuseExpiry => exact execTagReuseExpiry_keeps rfl rfl .rfl e
  | swap => exact execSwap_keeps rfl rfl .rfl e
  | swapDrainComplete => exact execSwapDrainComplete_keeps rfl rfl rfl rfl rfl rfl rfl rfl rfl .rfl e
  | drainLimitExpiry => exact execDrainLimitExpiry_keeps rfl rfl rfl rfl rfl rfl rfl rfl rfl .rfl e
  | graceExpiry => exact execGraceExpiry_keeps rfl .rfl e
  | resume => exact execResume_keeps rfl rfl rfl rfl .rfl e
  | portDrainEnd => exact execPortDrainEnd_keeps rfl rfl .rfl e
  | setup => exact execSetup_keeps rfl rfl .rfl e
  | circuitTeardownWrite => exact execCircuitTeardownWrite_keeps rfl rfl .rfl e
  | collectiveReady => exact execCollectiveReady_keeps rfl rfl rfl rfl .rfl e
  | collectiveAdmit => exact execCollectiveAdmit_keeps rfl rfl rfl rfl rfl rfl rfl rfl rfl .rfl e
  | collectiveComplete => exact execCollectiveComplete_keeps rfl rfl rfl .rfl e
  | orderTimeout => exact execOrderTimeout_keeps rfl rfl rfl rfl .rfl e
  | enter => exact execEnter_keeps rfl rfl rfl rfl .rfl e
  | start => exact execStart_keeps rfl rfl rfl rfl rfl rfl rfl rfl rfl .rfl e
  | data => exact execData_keeps rfl rfl rfl rfl rfl rfl rfl rfl rfl .rfl e
  | ready => exact execReady_keeps rfl rfl rfl .rfl e
  | abort => exact execAbort_keeps rfl rfl rfl rfl .rfl e
  | collAck => exact execCollAck_keeps rfl rfl rfl rfl rfl rfl rfl rfl rfl .rfl e
  | enterRetry => exact execEnterRetry_keeps rfl rfl rfl .rfl e
  | readyResend => exact execReadyResend_keeps rfl rfl rfl .rfl e
  | functionLevelReset => exact execFunctionLevelReset_keeps rfl rfl rfl rfl rfl .rfl e
  | flrComplete => exact execFlrComplete_keeps rfl .rfl e
  | hotReset => exact execHotReset_keeps rfl rfl rfl rfl rfl .rfl e
  | linkDown => exact execLinkDown_keeps rfl rfl rfl rfl rfl .rfl e
  | perstNAssert => exact execPerstNAssert_keeps rfl rfl rfl rfl rfl .rfl e
  | perstNRelease => exact execPerstNRelease_keeps rfl .rfl e
  | hostOpticalLaneFail => exact execHostOpticalLaneFail_keeps rfl rfl rfl rfl rfl rfl .rfl e
  | hostTrafficResume => exact execHostTrafficResume_keeps rfl .rfl e
  | hostReadCompletion => exact execHostReadCompletion_keeps rfl rfl rfl rfl rfl .rfl e
  | hostCompletionTimeout => exact execHostCompletionTimeout_keeps rfl rfl rfl rfl rfl .rfl e
  | hostWriteAck => exact execHostWriteAck_keeps rfl rfl .rfl e
  | stagingWrite => exact execStagingWrite_keeps rfl rfl rfl .rfl e
  | stagingRead => exact execStagingRead_keeps rfl rfl rfl .rfl e
  | mctpVdmReceive _ _ body => exact execMctpVdmReceive_keeps (a2 := body) rfl .rfl e
  | setEndpointId => exact execSetEndpointId_keeps rfl .rfl e
  | inputEntersLimits => exact execInputEntersLimits_keeps rfl rfl rfl .rfl e
  | slotChoice => exact execSlotChoice_keeps rfl rfl rfl rfl rfl rfl .rfl e
  | selfTestDone => exact execSelfTestDone_keeps rfl rfl rfl rfl rfl rfl rfl rfl rfl rfl rfl rfl rfl .rfl e
  | configurationChoice => exact execConfigurationChoice_keeps rfl rfl rfl rfl rfl .rfl e
  | sectionsApply => exact execSectionsApply_keeps rfl rfl rfl rfl rfl rfl rfl rfl rfl .rfl e
  | lanesTrained => exact execLanesTrained_keeps rfl rfl rfl rfl rfl rfl .rfl e
  | coldStartDone => exact execColdStartDone_keeps rfl rfl .rfl e
  | reload => exact execReload_keeps rfl rfl rfl rfl rfl rfl rfl rfl rfl rfl .rfl e
  | reloadMemoryApply => exact execReloadMemoryApply_keeps rfl rfl rfl rfl rfl rfl rfl rfl rfl .rfl e
  | drainCommand => exact execDrainCommand_keeps rfl rfl .rfl e
  | resumeCommand => exact execResumeCommand_keeps rfl rfl .rfl e
  | recover => exact execRecover_keeps rfl rfl rfl rfl rfl rfl rfl rfl rfl rfl rfl rfl .rfl e
  | powerCmdFull => exact execPowerCmdFull_keeps rfl rfl rfl rfl rfl rfl rfl rfl rfl rfl rfl rfl .rfl e
  | powerCmdTrim => exact execPowerCmdTrim_keeps rfl rfl rfl rfl rfl rfl rfl rfl rfl rfl rfl rfl .rfl e
  | powerCmdMulch => exact execPowerCmdMulch_keeps rfl rfl rfl rfl rfl rfl rfl rfl rfl rfl rfl rfl .rfl e
  | powerCmdQuiet => exact execPowerCmdQuiet_keeps rfl rfl rfl rfl rfl rfl rfl rfl rfl rfl rfl rfl .rfl e
  | powerCmdDark => exact execPowerCmdDark_keeps rfl rfl rfl rfl rfl rfl rfl rfl rfl rfl rfl rfl .rfl e
  | powerTransitionStart => exact execPowerTransitionStart_keeps rfl rfl rfl rfl .rfl e
  | powerTransitionDone => exact execPowerTransitionDone_keeps rfl rfl rfl rfl rfl rfl rfl rfl rfl rfl .rfl e
  | governorUpdate => exact execGovernorUpdate_keeps rfl .rfl e
  | governorExtraUpdate => exact execGovernorExtraUpdate_keeps rfl .rfl e
  | droopStep => exact execDroopStep_keeps rfl .rfl e
  | droopRecover => exact execDroopRecover_keeps rfl .rfl e
  | tempSensorConvert => exact execTempSensorConvert_keeps rfl rfl rfl rfl rfl rfl rfl rfl rfl .rfl e
  | thermalTrip => exact execThermalTrip_keeps rfl rfl rfl rfl rfl rfl rfl rfl rfl rfl rfl rfl .rfl e
  | coolantMeasure => exact execCoolantMeasure_keeps rfl .rfl e
  | suddenCoolantLoss => exact execSuddenCoolantLoss_keeps rfl .rfl e
  | coolantLossClear => exact execCoolantLossClear_keeps rfl .rfl e
  | mulchControl => exact execMulchControl_keeps rfl .rfl e
  | mulchLow => exact execMulchLow_keeps rfl .rfl e
  | eoffN => exact execEoffN_keeps rfl rfl rfl rfl rfl rfl rfl rfl rfl rfl rfl rfl rfl rfl rfl rfl rfl rfl rfl .rfl e
  | pwrWarnNLow => exact execPwrWarnNLow_keeps rfl .rfl e
  | pwrWarnNRelease => exact execPwrWarnNRelease_keeps rfl .rfl e
  | coolFaultNLow => exact execCoolFaultNLow_keeps rfl .rfl e
  | coolFaultNRelease => exact execCoolFaultNRelease_keeps rfl .rfl e
  | rackHeartbeatLost => exact execRackHeartbeatLost_keeps rfl .rfl e
  | inputLoss => exact execInputLoss_keeps rfl rfl rfl rfl rfl rfl rfl rfl rfl rfl rfl rfl rfl rfl rfl rfl rfl rfl rfl .rfl e
  | inputOvervoltage => exact execInputOvervoltage_keeps rfl rfl rfl rfl rfl rfl rfl rfl rfl rfl rfl rfl rfl rfl rfl rfl rfl rfl rfl .rfl e
  | refclkLoss => exact execRefclkLoss_keeps rfl rfl rfl rfl rfl rfl .rfl e
  | refclkReturn => exact execRefclkReturn_keeps rfl rfl rfl rfl rfl rfl .rfl e
  | stageStall => exact execStageStall_keeps rfl rfl rfl rfl rfl rfl rfl rfl rfl .rfl e
  | clusterResetDone => exact execClusterResetDone_keeps rfl rfl rfl .rfl e
  | quadrantResetDone => exact execQuadrantResetDone_keeps rfl rfl rfl rfl .rfl e
  | spineStall => exact execSpineStall_keeps rfl rfl rfl rfl rfl rfl rfl rfl rfl .rfl e
  | computeResetDone => exact execComputeResetDone_keeps rfl rfl rfl rfl .rfl e
  | resetTimeout => exact execResetTimeout_keeps rfl rfl rfl rfl rfl rfl rfl rfl rfl .rfl e
  | stepBudget => exact execStepBudget_keeps rfl rfl rfl rfl rfl rfl rfl rfl rfl .rfl e
  | hubStall => exact execHubStall_keeps rfl rfl rfl rfl rfl rfl rfl .rfl e
  | harvestWritten => exact execHarvestWritten_keeps rfl rfl rfl rfl rfl rfl rfl rfl rfl .rfl e
  | recoveryDone => exact execRecoveryDone_keeps rfl rfl rfl rfl rfl rfl rfl rfl rfl rfl rfl rfl rfl rfl .rfl e
  | spareBringIn => exact execSpareBringIn_keeps rfl rfl rfl rfl rfl .rfl e
  | spareIn => exact execSpareIn_keeps rfl rfl rfl rfl rfl rfl .rfl e
  | rasSpareCtlGo => exact execRasSpareCtlGo_keeps rfl rfl .rfl e
  | selftestCluster => exact execSelftestCluster_keeps rfl rfl .rfl e
  | selftestLane => exact execSelftestLane_keeps rfl rfl .rfl e
  | selftestPort => exact execSelftestPort_keeps rfl rfl .rfl e
  | selftestController => exact execSelftestController_keeps rfl rfl .rfl e
  | selftestDone => exact execSelftestDone_keeps rfl rfl rfl rfl rfl rfl rfl .rfl e
  | controllerHeartbeat => exact execControllerHeartbeat_keeps rfl rfl .rfl e
  | healthReport => exact execHealthReport_keeps rfl rfl rfl .rfl e
  | standbyUnhealthy => exact execStandbyUnhealthy_keeps rfl rfl .rfl e
  | lockstepMismatch => exact execLockstepMismatch_keeps rfl rfl .rfl e
  | takeover => exact execTakeover_keeps rfl rfl rfl rfl .rfl e
  | dualActClear => exact execDualActClear_keeps rfl rfl .rfl e
  | relinquish => exact execRelinquish_keeps rfl rfl rfl .rfl e
  | controllerWrite => exact execControllerWrite_keeps rfl rfl rfl rfl rfl rfl rfl rfl rfl rfl rfl rfl rfl rfl rfl rfl rfl rfl .rfl e
  | deadMan => exact execDeadMan_keeps rfl rfl rfl rfl rfl rfl rfl rfl rfl rfl rfl rfl .rfl e
  | install => exact execInstall_keeps rfl rfl rfl rfl rfl rfl .rfl e
  | installDone => exact execInstallDone_keeps rfl rfl rfl .rfl e
  | graft => exact execGraft_keeps rfl rfl rfl rfl .rfl e
  | graftHandover => exact execGraftHandover_keeps rfl rfl rfl rfl .rfl e
  | graftPeerHealthy => exact execGraftPeerHealthy_keeps rfl rfl rfl .rfl e
  | microcodeLoad => exact execMicrocodeLoad_keeps rfl rfl .rfl e
  | fwuTake => exact execFwuTake_keeps rfl rfl rfl rfl rfl .rfl e
  | graftWindowExpiry => exact execGraftWindowExpiry_keeps rfl rfl .rfl e
  | reject => exact execReject_keeps rfl rfl rfl .rfl e
  | fallback => exact execFallback_keeps rfl rfl rfl rfl rfl .rfl e
  | fallbackDone => exact execFallbackDone_keeps rfl rfl rfl .rfl e
  | configWrite => exact execConfigWrite_keeps rfl rfl rfl rfl rfl .rfl e
  | laneCal => exact execLaneCal_keeps rfl rfl .rfl e
  | begin => exact execBegin_keeps rfl rfl .rfl e
  | block => exact execBlock_keeps rfl rfl rfl .rfl e
  | seedEnd => exact execSeedEnd_keeps rfl rfl rfl rfl .rfl e
  | seedAbort => exact execSeedAbort_keeps rfl rfl rfl .rfl e
  | setRoles => exact execSetRoles_keeps rfl rfl rfl .rfl e
  | lifecycle => exact execLifecycle_keeps rfl rfl rfl rfl .rfl e
  | wipe => exact execWipe_keeps rfl rfl rfl rfl .rfl e
  | fwAuthorise => exact execFwAuthorise_keeps rfl rfl rfl .rfl e
  | installKtk => exact execInstallKtk_keeps rfl rfl rfl .rfl e
  | clearKtk => exact execClearKtk_keeps rfl rfl rfl .rfl e
  | tamper => exact execTamper_keeps rfl rfl rfl .rfl e
  | getVersion => exact execGetVersion_keeps .rfl e
  | getCapabilities => exact execGetCapabilities_keeps .rfl e
  | negotiateAlgorithms => exact execNegotiateAlgorithms_keeps .rfl e
  | getDigests => exact execGetDigests_keeps .rfl e
  | getCertificate => exact execGetCertificate_keeps .rfl e
  | challenge => exact execChallenge_keeps .rfl e
  | getMeasurements => exact execGetMeasurements_keeps .rfl e
  | spdmSignatureDone => exact execSpdmSignatureDone_keeps .rfl e
  | entdaa => exact execEntdaa_keeps .rfl e
  | setdasa => exact execSetdasa_keeps .rfl e
  | i3cMctpReceive msgType body => exact execI3cMctpReceive_keeps (a0 := msgType) (a1 := body) .rfl e
  | getPdrRepositoryInfo => exact execGetPdrRepositoryInfo_keeps .rfl e
  | getPdr => exact execGetPdr_keeps .rfl e
  | getSensorReading => exact execGetSensorReading_keeps .rfl e
  | getStateSensorReadings => exact execGetStateSensorReadings_keeps .rfl e
  | setNumericEffecterValue => exact execSetNumericEffecterValue_keeps rfl .rfl e
  | getNumericEffecterValue => exact execGetNumericEffecterValue_keeps .rfl e
  | pollForPlatformEventMessage => exact execPollForPlatformEventMessage_keeps .rfl e
  | pldmFirmwareUpdate => exact execPldmFirmwareUpdate_keeps rfl rfl rfl rfl .rfl e
  | activateFirmware => exact execActivateFirmware_keeps rfl rfl rfl .rfl e
  | timeSyncRequestSend => exact execTimeSyncRequestSend_keeps rfl .rfl e
  | timeSyncRequest => exact execTimeSyncRequest_keeps rfl .rfl e
  | timeSyncResponse => exact execTimeSyncResponse_keeps rfl rfl .rfl e
  | holdover => exact execHoldover_keeps rfl .rfl e
  | becomeRoot => exact execBecomeRoot_keeps rfl .rfl e
  | logEntryWrite => exact execLogEntryWrite_keeps rfl .rfl e
  | logGap => exact execLogGap_keeps rfl .rfl e
  | logMirrorCopy => exact execLogMirrorCopy_keeps rfl rfl .rfl e
  | configurationRequest => exact execConfigurationRequest_keeps rfl rfl rfl rfl rfl .rfl e
  | lightReturns => exact execLightReturns_keeps rfl rfl rfl rfl .rfl e
  | hostSpareDone => exact execHostSpareDone_keeps rfl .rfl e
  | replayTimer => exact execReplayTimer_keeps .rfl e
  | controllerRestartDone => exact execControllerRestartDone_keeps rfl rfl rfl rfl rfl rfl rfl rfl rfl .rfl e
  | safeRestartTimeout => exact execSafeRestartTimeout_keeps rfl .rfl e
  | tckRisingEdge => exact execTckRisingEdge_keeps rfl .rfl e
  | trstN => exact execTrstN_keeps rfl .rfl e

theorem good_withQueue {s : State} (q : List Instr) (h : Good s) : Good { s with pending := q } := { h with }

theorem step_of_empty {s : State} (h : s.pending = []) : step s = .next s.tick := by
  unfold step
  rw [h]

theorem step_of_front {s : State} {c : Instr} {q : List Instr} (h : s.pending = c :: q) :
    step s = exec c { s with pending := q } := by
  unfold step
  rw [h]

/-- A tick changes clocks and sensor readings only. -/
theorem good_tick {s : State} (h : Good s) : Good s.tick := (State.tick_keeps (k := { ticks := false }) rfl .rfl).good h

end Sys2Proof.Machine
end

section
/-! SUPPORT. A write and a read of the control window, by what stands at the address: no register, or one that acts by the access codes of
its fields alone (R20 to R26). -/

namespace Sys2Proof.Machine

open Sys2Proof.Safety

theorem blockOf_word (a : Nat) : blockOf (a / 8 * 8) = blockOf a := by
  have hk : a / 8 * 8 / 0x10000 = a / 0x10000 := by omega
  have hlt : a / 8 * 8 < 0xF00000 ↔ a < 0xF00000 := by omega
  simp only [blockOf, hk, hlt]

/-- An address of a block that a host sees is not answered with all-ones. -/
theorem State.hidden_of_seen {s : State} {w : Agent} {a b : Nat} (hb : blockOf a = some b)
    (hs : w = .host → s.blockSeen b = true) : s.hidden w a = false := by
  unfold State.hidden State.addrSeen
  by_cases hw : w = .host
  · simp [hb, hs hw]
  · simp [hw]

section
variable {s : State} {w : Agent} {addr size : Nat} (v : Word)

/-- A well-formed write where no register stands closes the writer's latch of the block, and does no more (R24, R818). -/
theorem State.regWrite_reserved (hr : s.reaches w = true) (hsz : size = 4 ∨ size = 8) (hal : addr % size = 0)
    (hh : s.hidden w addr = false) (hf : findReg (addr / 8 * 8) = none) :
    s.regWrite w addr size v = (blockOf addr).elim s (s.closeLatch w) := by
  have hok : ¬ ((size ≠ 4 ∧ size ≠ 8) ∨ addr % size ≠ 0) := by omega
  unfold State.regWrite
  simp only [hr, hok, hh, hf, blockOf_word]
  cases blockOf addr <;> rfl

/-- A well-formed write to a register of a block that answers, its bytes moved to their place in the word. -/
theorem State.regWrite_on {b : Nat} {r : RegRow} (ho : Opens s w b) (hsz : size = 4 ∨ size = 8) (hal : addr % size = 0)
    (hb : blockOf addr = some b) (hf : findReg (addr / 8 * 8) = some r) :
    s.regWrite w addr size v = (s.closeLatch w b).onWrite w r b (addr / 8 * 8) (accessMask (addr % 8) size)
      ((v <<< (8 * (addr % 8))) &&& accessMask (addr % 8) size) := by
  obtain ⟨hr, hseen, hon⟩ := ho
  have hok : ¬ ((size ≠ 4 ∧ size ≠ 8) ∨ addr % size ≠ 0) := by omega
  have hon' : (s.closeLatch w b).blockOn b = true := hon
  unfold State.regWrite
  simp [hr, hok, State.hidden_of_seen hb hseen, blockOf_word, hb, hf, hon']

end

/-- Past its fields, a register outside `ownBases` that is no COMMIT register has no effect: each of the bases with one is in the list. -/
theorem State.writeAction_plain (s : State) (w : Agent) {b base : Nat} (i : Nat) (mask v full : Word)
    (hc : commitReg b ≠ some base) (ho : base ∉ ownBases) : s.writeAction w b base i mask v full = s := by
  unfold State.writeAction
  rw [if_neg hc]
  split <;> simp_all [ownBases]

/-- A plain register is written by the access codes of its fields alone (R26). -/
theorem State.onWrite_plain (s : State) (w : Agent) {r : RegRow} {b a : Nat} (mask v : Word)
    (hp : plainRegister b a r = true) : s.onWrite w r b a mask v = s.fieldWrite w r a mask v := by
  simp only [plainRegister, Bool.and_eq_true, Bool.not_eq_true', decide_eq_true_eq] at hp
  obtain ⟨⟨hc, ho⟩, hclu⟩ := hp
  have hclu' : (isCluAddr a && decide (r.base = 0x10)) = false ∧ (isCluAddr a && decide (r.base = 0x100)) = false := by
    simpa [Bool.and_or_distrib_left] using hclu
  have hw := fun s' : State => s'.writeAction_plain w (r.index a) mask v (mergeBits (s.reg a) mask v) hc ho
  have hown : ∀ x ∈ ownBases, (if isCluAddr a then b * 0x10000 + r.base else r.base) ≠ x := fun x hx e => ho (e ▸ hx)
  unfold State.onWrite
  simp only [hown 0x100 (by decide), hown 0x200 (by decide), hown 0x208 (by decide), hown 0x601200 (by decide),
    hown 0x601600 (by decide), hown 0x3000000 (by decide), hown 0x201400 (by decide), hclu', hw, if_false, or_self,
    Bool.false_eq_true]

@[simp] theorem State.stageBits_regs (s : State) (w : Agent) (a : Nat) (mask v : Word) : (s.stageBits w a mask v).regs = s.regs := by
  unfold State.stageBits
  dsimp only
  split <;> rfl

theorem State.fieldWrite_regs (s : State) (w : Agent) (r : RegRow) (a : Nat) (mask v : Word) :
    (s.fieldWrite w r a mask v).regs = (s.setReg a (r.written (s.reg a) mask v)).regs :=
  State.stageBits_regs _ w a mask v

theorem exec_registerWrite_leased {s : State} {w : Agent} (addr size : Nat) (v : Word) (hl : s.holdsLease w = true) :
    exec (.registerWrite w addr size v) s = .next (s.regWrite w addr size v) :=
  congrArg Host.Outcome.next (State.leased_of_holds _ (.inr hl))

theorem exec_snapRead_reserved {s : State} {r : Agent} {a : Nat} (hr : s.reaches r = true) (hf : findReg (a / 8 * 8) = none)
    (hh : s.hidden r a = false) (ha : a % 8 = 0) : exec (.snapRead r a 8) s = .next (s.emit (.readDone r a 8 0)) := by
  refine congrArg Host.Outcome.next ?_
  unfold State.doSnapRead
  simp [hr, hf, hh, ha]

end Sys2Proof.Machine
end

section
/-! SUPPORT. A commit that need not wait: the staged set of a writer, the values of a set in place, and what COMMIT does with them
(R822 to R828). -/

namespace Sys2Proof.Machine

open Sys2Proof.Safety

theorem State.withSet_cons (s : State) (e : Nat × Stage) (set : Store Stage) :
    s.withSet (e :: set) = (s.setReg e.1 ((s.reg e.1 &&& ~~~ e.2.mask) ||| (e.2.value &&& e.2.mask))).withSet set := rfl

theorem State.reg_withSet_ne (s : State) {set : Store Stage} {a : Nat} (h : a ∉ set.map (·.1)) :
    (s.withSet set).reg a = s.reg a := by
  induction set generalizing s with
  | nil => rfl
  | cons e set ih =>
    simp only [List.map_cons, List.mem_cons, not_or] at h
    rw [State.withSet_cons, ih _ h.2, State.reg_setReg_ne _ _ h.1]

/-- The keys of a sorted set differ, so each of its registers takes the bits of its own entry. -/
theorem State.reg_withSet_mem (s : State) {set : Store Stage} (hs : msorted set = true) {a : Nat} {e : Stage} (he : (a, e) ∈ set) :
    (s.withSet set).reg a = ((s.reg a &&& ~~~ e.mask) ||| (e.value &&& e.mask)) := by
  rw [msorted_iff] at hs
  induction set generalizing s with
  | nil => cases he
  | cons x set ih =>
    obtain ⟨hx, hs⟩ := List.pairwise_cons.1 hs
    rw [State.withSet_cons]
    rcases List.mem_cons.1 he with rfl | he
    · have hout : a ∉ set.map (·.1) := by
        intro hm
        obtain ⟨y, hy, rfl⟩ := List.mem_map.1 hm
        exact Nat.lt_irrefl _ (hx y hy)
      rw [State.reg_withSet_ne _ hout, State.reg_setReg_same]
    · rw [ih _ hs he, State.reg_setReg_ne _ _ (Nat.ne_of_gt (hx _ he))]

@[simp] theorem State.withSet_staged (s : State) (set : Store Stage) : (s.withSet set).staged = s.staged := by
  induction set generalizing s with
  | nil => rfl
  | cons e set ih => rw [State.withSet_cons, ih, State.setReg_staged]

theorem State.withSet_closeLatch (s : State) (w : Agent) (b : Nat) (set : Store Stage) :
    (s.closeLatch w b).withSet set = (s.withSet set).closeLatch w b := by
  induction set generalizing s with
  | nil => rfl
  | cons e set ih => exact ih (s.setReg e.1 _)

theorem State.setLegal_closeLatch (s : State) (w : Agent) (b : Nat) (set : Store Stage) :
    (s.closeLatch w b).setLegal set = s.setLegal set := by
  unfold State.setLegal
  rw [State.withSet_closeLatch]
  rfl

theorem State.mustWait_closeLatch (s : State) (w : Agent) (b c : Nat) (set : Store Stage) :
    (s.closeLatch w b).mustWait c set = s.mustWait c set := by
  unfold State.mustWait State.mirrorHeld State.groupChanged
  simp only [State.withSet_closeLatch]
  rfl

/-- The keys of one writer agree modulo 4, so that its set is sorted by register as the store is by key. -/
theorem State.msorted_stagedSet {s : State} (w : Agent) (b : Nat) (h : msorted s.staged = true) : msorted (s.stagedSet w b) = true := by
  rw [msorted_iff] at *
  unfold State.stagedSet
  rw [List.pairwise_filterMap]
  refine h.imp fun {x y} hxy => ?_
  simp only [Option.ite_none_right_eq_some, Option.some.injEq, inSet, Bool.and_eq_true, decide_eq_true_eq]
  rintro _ ⟨⟨hx, _⟩, rfl⟩ _ ⟨⟨hy, _⟩, rfl⟩
  show x.1 / 4 < y.1 / 4
  omega

theorem State.stagedSet_of_staged {s t : State} (h : t.staged = s.staged) (w : Agent) (b : Nat) : t.stagedSet w b = s.stagedSet w b := by
  unfold State.stagedSet
  rw [h]

@[simp] theorem State.stagedSet_dropSet (s : State) (w : Agent) (b : Nat) : (s.dropSet w b).stagedSet w b = [] := by
  simp [State.stagedSet, State.dropSet, List.filterMap_filter, List.filterMap_eq_nil_iff]

/-- Outside FAB, nothing of a set that need not wait is put off. -/
theorem State.cutSet_at_once {s : State} {b : Nat} (group : Bool) {set : Store Stage} (hfab : b ≠ blkFab)
    (hm : s.mustWait b set = false) (he : s.earlierCommit b = false) : s.cutSet b group set = (set, []) := by
  unfold State.cutSet
  simp [hfab, hm, he]

theorem State.commitPart_at_once {s : State} {w : Agent} {b : Nat} (group : Bool) (hfab : b ≠ blkFab) (hne : s.stagedSet w b ≠ [])
    (hm : s.mustWait b (s.stagedSet w b) = false) (he : s.earlierCommit b = false) :
    s.commitPart w b group =
      ((s.dropSet w b).applySet b (s.stagedSet w b)).noteCommit s (originOf w) b (s.stagedSet w b) := by
  unfold State.commitPart
  simp [State.cutSet_at_once group hfab hm he, hne, State.deferSet]

theorem State.applySet_plain (s : State) {b : Nat} (set : Store Stage) (hb : b ∈ [blkDsp, blkRas, blkFwu, blkLog, blkHst]) :
    s.applySet b set = s.withSet set := by
  simp only [List.mem_cons, List.not_mem_nil, or_false] at hb
  rcases hb with rfl | rfl | rfl | rfl | rfl <;> rfl

/-- What every change-log entry keeps, the entries of a commit keep. -/
theorem State.noteCommit_frame {α : Type} (g : State → α) (hl : ∀ t o c b x y, g (State.logChange t o c b x y) = g t)
    (t s : State) (o b : Nat) (set : Store Stage) : g (t.noteCommit s o b set) = g t := by
  unfold State.noteCommit
  dsimp only
  split <;> split <;> simp only [hl]

@[simp] theorem State.noteCommit_staged (t s : State) (o b : Nat) (set : Store Stage) : (t.noteCommit s o b set).staged = t.staged :=
  State.noteCommit_frame (·.staged) (State.logChange_frame (·.staged) (fun _ _ _ => rfl) fun _ _ => rfl) t s o b set

/-- The entries of a commit write no register but the loss count of the change log. -/
theorem State.reg_noteCommit (t s : State) (o b : Nat) (set : Store Stage) {a : Nat} (h : a ≠ F.LOG_STATUS_LOST.reg) :
    (t.noteCommit s o b set).reg a = t.reg a :=
  State.noteCommit_frame (·.reg a) (fun t o c b x y => t.reg_logChange o c b x y h) t s o b set

theorem exec_commit_legal {s : State} {w : Agent} {b g : Nat} (ha : Accepts s w b) (hg : commitReg b = some g)
    (hl : s.setLegal (s.stagedSet w b) = true) : exec (.commit w b) s = .next ((s.closeLatch w b).commitPart w b false) := by
  refine congrArg Host.Outcome.next ((State.leased_of_holds _ (.inr ha.2)).trans ?_)
  unfold State.doCommit
  have hl' : (s.closeLatch w b).setLegal ((s.closeLatch w b).stagedSet w b) = true := (s.setLegal_closeLatch w b _).trans hl
  rw [if_neg (by simp [hg]), State.gate_open _ ha.1, if_pos hl']

/-- DSP, RAS, FWU, LOG and HST have a COMMIT register, and none of them cuts its sets as FAB does. -/
theorem commitReg_plain {b : Nat} (hb : b ∈ [blkDsp, blkRas, blkFwu, blkLog, blkHst]) : (∃ g, commitReg b = some g) ∧ b ≠ blkFab := by
  simp only [List.mem_cons, List.not_mem_nil, or_false] at hb
  rcases hb with rfl | rfl | rfl | rfl | rfl <;> exact ⟨⟨_, rfl⟩, by decide⟩

/-- COMMIT of a legal set of DSP, RAS, FWU, LOG or HST that need not wait: the set dropped, its values in place, its entries noted. -/
theorem exec_commit_at_once {s : State} {w : Agent} {b : Nat} (ha : Accepts s w b) (hb : b ∈ [blkDsp, blkRas, blkFwu, blkLog, blkHst])
    (hne : s.stagedSet w b ≠ []) (hl : s.setLegal (s.stagedSet w b) = true) (he : s.earlierCommit b = false)
    (hm : s.mustWait b (s.stagedSet w b) = false) :
    exec (.commit w b) s = .next ((((s.closeLatch w b).dropSet w b).withSet (s.stagedSet w b)).noteCommit (s.closeLatch w b)
      (originOf w) b (s.stagedSet w b)) := by
  obtain ⟨⟨g, hg⟩, hfab⟩ := commitReg_plain hb
  have hpart := State.commitPart_at_once (s := s.closeLatch w b) false hfab hne ((s.mustWait_closeLatch w b b _).trans hm) he
  rw [State.applySet_plain _ _ hb] at hpart
  exact (exec_commit_legal ha hg hl).trans (congrArg _ hpart)

end Sys2Proof.Machine
end

section
/-! The statements of the scope: a step runs its front command, every command answers, the stores stay canonical, and what a register
write and a commit do. -/

namespace Sys2Proof.Machine

open Sys2Proof.Safety

/-- Settles O1. -/
theorem stepRunsFront : Obligations.StepRunsFront := fun _ _ _ => step_of_front rfl

/-- Settles O5: no arm of `exec` stops, not even for an event whose condition does not hold (log entry 5), and every command keeps
the queue. -/
theorem everyCommandAnswers : Obligations.EveryCommandAnswers := by
  intro c s
  obtain ⟨t, e⟩ := exec_next c s
  exact ⟨t, e, (exec_keeps e).queue⟩

/-- Settles O4, by the two ways of a step: an empty queue ticks, and a command keeps the form of its stores. -/
theorem stepKeepsGood : Obligations.StepKeepsGood := by
  intro s t hs e
  cases hq : s.pending with
  | nil =>
    obtain rfl : s.tick = t := Host.Outcome.next.inj ((step_of_empty hq).symm.trans e)
    exact good_tick hs
  | cons c q => exact (exec_keeps ((step_of_front hq).symm.trans e)).good (good_withQueue q hs)

/-- Settles O14: without a register a write closes at most the writer's latch of the block, and a read answers zero. -/
theorem reservedAddressesAreEmpty : Obligations.ReservedAddressesAreEmpty := by
  intro s w a v hr hf hh ha
  refine ⟨fun hl => ⟨_, exec_registerWrite_leased a 8 v hl, ?_⟩, exec_snapRead_reserved hr hf hh ha⟩
  rw [State.regWrite_reserved v hr (.inr rfl) ha hh hf]
  cases blockOf a <;> exact ⟨rfl, rfl, rfl, rfl, rfl, rfl⟩

/-- Settles O15: a plain register takes what `RegRow.written` gives, in a store that nothing else of the write touches. -/
theorem registerWriteCompletes : Obligations.RegisterWriteCompletes := by
  constructor
  · intro s w addr size v b r ⟨hopen, hl⟩ hsz hal hb hf hp
    refine ⟨_, exec_registerWrite_leased addr size v hl, ?_⟩
    rw [State.regWrite_on v hopen hsz hal hb hf, State.onWrite_plain _ w _ _ hp]
    have hregs := State.fieldWrite_regs (s.closeLatch w b) w r (addr / 8 * 8) (accessMask (addr % 8) size)
      ((v <<< (8 * (addr % 8))) &&& accessMask (addr % 8) size)
    refine ⟨?_, ?_⟩
    · rw [State.reg_of_regs hregs, State.reg_setReg_same, State.closeLatch_reg]
    · exact (RegsBut.setReg (.of_regs (.refl _ s) rfl) _ (List.mem_singleton_self _)).of_regs hregs
  · intro s w addr size v b ⟨⟨hr, hseen, _⟩, hl⟩ hsz hal hb hf
    refine ⟨_, exec_registerWrite_leased addr size v hl, ?_⟩
    rw [State.regWrite_reserved v hr hsz hal (State.hidden_of_seen hb hseen) hf, hb]
    rfl

/-- Settles O42: the addresses of a staged set rise, so each of its values is put in place once. -/
theorem commitAppliesTheStagedBits : Obligations.CommitAppliesTheStagedBits := by
  intro s w b ha hb hsort hne hlegal hearly hwait
  refine ⟨_, exec_commit_at_once ha hb hne hlegal hearly hwait, ?_, ?_, ?_⟩
  · rw [State.stagedSet_of_staged (State.noteCommit_staged _ _ _ _ _), State.stagedSet_of_staged (State.withSet_staged _ _),
      State.stagedSet_dropSet]
  · intro a e he hlost
    rw [State.reg_noteCommit _ _ _ _ _ hlost, State.reg_withSet_mem _ (s.msorted_stagedSet w b hsort) he]
    rfl
  · intro a ha
    rw [State.reg_noteCommit _ _ _ _ _ (List.ne_of_not_mem_cons ha), State.reg_withSet_ne _ (List.not_mem_of_not_mem_cons ha)]
    rfl

end Sys2Proof.Machine
end

section
/-! SUPPORT. Power commands, their transitions, and the orders that a run of the governor keeps (R55 to R58, R633, R634, R643). -/

namespace Sys2Proof.Machine

open Sys2Proof.Safety

/-! ## Commands -/

/-- A refused command leaves its mark and nothing more. -/
theorem State.powerCmd_refused {s : State} {w : Agent} {t : Nat} (ho : Opens s w blkPwr) (hr : s.powerRefused t = true) :
    s.powerCmd w t = (s.closeLatch w blkPwr).setFld F.PWR_STATUS_CMD_REFUSED 1 :=
  (State.gate_open _ ho).trans (if_pos hr)

/-- An accepted command in service, outside FALLOW: its target shown, and an order given. -/
theorem State.powerCmd_ordered {s : State} {w : Agent} {t : Nat} (ho : Opens s w blkPwr) (hr : s.powerRefused t = false)
    (hf : s.devState ≠ dsFallow) (hs : s.inService = true) :
    s.powerCmd w t = ((s.closeLatch w blkPwr).setFld F.GLB_STATE_POWER_TARGET t).orderPower (t, originOf w) := by
  have hr' : ¬ (s.closeLatch w blkPwr).powerRefused t = true := fun h => Bool.noConfusion (h.symm.trans hr)
  have hf' : ¬ (s.closeLatch w blkPwr).devState = dsFallow := hf
  refine (State.gate_open _ ho).trans ?_
  dsimp only
  rw [if_neg hr', if_neg hf']
  exact if_pos hs

theorem State.powerRefused_dark {s : State} (hf : s.devState ≠ dsFallow) (hc : s.openCtxs ≠ []) : s.powerRefused psDark = true := by
  simp [State.powerRefused, hf, hc]

/-- Each power command is a write of its target, one of the five states. -/
theorem exec_powerCommand {s : State} {w : Agent} {c : Instr} {t : Nat} (hl : s.holdsLease w = true)
    (hc : (c, t) ∈ [(Instr.powerCmdFull w, psFull), (.powerCmdTrim w, psTrim), (.powerCmdMulch w, psMulch), (.powerCmdQuiet w, psQuiet),
      (.powerCmdDark w, psDark)]) : exec c s = .next (s.powerCmd w t) ∧ t ≤ psDark := by
  have hrow (t : Nat) : Host.Outcome.next (s.leased w fun s => s.powerCmd w t) =
      (.next (s.powerCmd w t) : Host.Outcome State Fault Refusal) := congrArg _ (State.leased_of_holds _ (.inr hl))
  simp only [List.mem_cons, List.not_mem_nil, or_false, Prod.mk.injEq] at hc
  rcases hc with ⟨rfl, rfl⟩ | ⟨rfl, rfl⟩ | ⟨rfl, rfl⟩ | ⟨rfl, rfl⟩ | ⟨rfl, rfl⟩ <;> exact ⟨hrow _, by decide⟩

/-! ## Orders -/

@[simp] theorem State.orderPower_regs (s : State) (c : Nat × Nat) : (s.orderPower c).regs = s.regs := by
  unfold State.orderPower
  split
  · rfl
  · split <;> rfl

theorem State.orderPower_held {s : State} {c : Nat × Nat} (h : s.inTransition = true) : (s.orderPower c).gov.held = some c := by
  simp [State.orderPower, h]

theorem State.orderPower_due {s : State} {c : Nat × Nat} (h : s.inTransition = false) (hp : s.powState ≠ c.1) :
    (s.orderPower c).gov.due = some c := by
  simp [State.orderPower, h, hp]

/-! ## Transitions -/

theorem State.doPowerTransitionStart_due {s : State} {c : Nat × Nat} (hd : s.gov.due = some c) (hs : s.inService = true)
    (hm : s.gov.moving = none) (hrow : psTrim < c.1 ∨ psTrim < s.powState) (hw : c.1 ≤ psTrim ∨ s.workEnded = true) :
    s.doPowerTransitionStart = ({ s with gov := { s.gov with
      due := none, moving := some c, rows := powerRows s.powState c.1 } } : State).beginRow ((powerRows s.powState c.1).headD c.1) := by
  have hrow' : ¬ (c.1 ≤ psTrim ∧ s.powState ≤ psTrim) := by omega
  unfold State.doPowerTransitionStart
  simp only [hd]
  exact if_pos ⟨hs, by rw [hm]; rfl, hrow', hw⟩

/-- The end of a row that is not the last: the next one begins. -/
theorem State.doPowerTransitionDone_row {s : State} {c : Nat × Nat} {next : Nat} {rest : List Nat} (hm : s.gov.moving = some c)
    (hs : s.inService = true) (he : s.transitionEnds (s.gov.rows.headD c.1) = true) (hr : s.gov.rows.drop 1 = next :: rest) :
    s.doPowerTransitionDone = (({ s with gov := { s.gov with rows := next :: rest } } : State).reachPower
      (s.gov.rows.headD c.1) c.2).beginRow next := by
  unfold State.doPowerTransitionDone
  simp only [hm, hr]
  exact if_pos ⟨hs, he⟩

/-- The end of the last row: the target is reached, and a command held becomes an order (R58). -/
theorem State.doPowerTransitionDone_last {s : State} {c : Nat × Nat} (hm : s.gov.moving = some c) (hs : s.inService = true)
    (he : s.transitionEnds (s.gov.rows.headD c.1) = true) (hr : s.gov.rows.drop 1 = []) :
    s.doPowerTransitionDone = s.gov.held.elim id (fun h t => t.orderPower h)
      (({ s with gov := { s.gov with moving := none, rows := [], held := none } } : State).reachPower (s.gov.rows.headD c.1) c.2) := by
  unfold State.doPowerTransitionDone
  simp only [hm, hr]
  refine (if_pos ⟨hs, he⟩).trans ?_
  cases s.gov.held <;> rfl

/-! ## The governor -/

/-- The command `d` is due, and the transition `m` in progress. -/
structure State.Orders (d m : Option (Nat × Nat)) (s : State) : Prop where
  due : s.gov.due = d
  moving : s.gov.moving = m

section
variable {d m : Option (Nat × Nat)} {s : State}

theorem State.Orders.ite {p : Prop} [Decidable p] {t : State} (hs : s.Orders d m) (ht : t.Orders d m) :
    (if p then s else t).Orders d m := by
  split <;> assumption

theorem State.Orders.setFld (h : s.Orders d m) (f : Fld) (n : Nat) : (s.setFld f n).Orders d m := ⟨h.due, h.moving⟩

theorem State.Orders.raiseEvent (h : s.Orders d m) (c x e : Nat) : (s.raiseEvent c x e).Orders d m :=
  State.raiseEvent_ind (State.Orders d m) (fun _ _ _ h => ⟨h.due, h.moving⟩) (fun _ _ h => ⟨h.due, h.moving⟩)
    (fun _ _ h => ⟨h.due, h.moving⟩) c x e h

theorem State.Orders.noteTerms (h : s.Orders d m) : s.noteTerms.Orders d m := .ite ⟨h.due, h.moving⟩ ⟨h.due, h.moving⟩

theorem State.Orders.showGov (h : s.Orders d m) (act : List (List Nat)) : (s.showGov act).Orders d m := by
  unfold State.showGov
  iterate 11 refine State.Orders.setFld ?_ _ _
  exact h

theorem State.Orders.noteUnmet (h : s.Orders d m) (b : Bool) : (s.noteUnmet b).Orders d m := by
  have h1 : ({ s with gov := { s.gov with
      unmet := if b then s.gov.unmet + 1 else 0, met := if b then 0 else s.gov.met + 1 } } : State).Orders d m := ⟨h.due, h.moving⟩
  exact .ite ((h1.setFld _ _).raiseEvent _ _ _) (.ite (h1.setFld _ _) h1)

theorem State.Orders.noteRate (h : s.Orders d m) (a : List Nat) : (s.noteRate a).Orders d m := .ite ⟨h.due, h.moving⟩ h

theorem State.Orders.setPace (h : s.Orders d m) (act : List (List Nat)) (gs : List (Nat × Int)) : (s.setPace act gs).Orders d m := by
  unfold State.setPace
  extract_lets unmet grant rate a2 v duty vGoal dutyAt vd s1 g1 s2 s3
  have h1 : s1.Orders d m := (h.setFld _ _).setFld _ _
  have h2 : s2.Orders d m := ⟨h1.due, h1.moving⟩
  exact .ite h2 (((h2.setFld _ _).setFld _ _).setFld _ _)

theorem State.Orders.noteLimited (h : s.Orders d m) : s.noteLimited.Orders d m := by
  unfold State.noteLimited
  extract_lets n
  refine .ite (State.Orders.setFld ?_ _ _) h
  exact ⟨h.due, h.moving⟩

theorem State.Orders.noteLag (h : s.Orders d m) : s.noteLag.Orders d m := by
  unfold State.noteLag
  split
  · exact h
  · exact .ite (.ite ⟨h.due, h.moving⟩ ⟨h.due, h.moving⟩) h

end

/-- A run of the governor gives no order but the one it takes first. -/
theorem State.Orders.govern {d m : Option (Nat × Nat)} {s : State} (h : s.takeDue.Orders d m) (sample : Bool) (act : List (List Nat)) :
    (s.govern sample act).Orders d m := by
  unfold State.govern
  extract_lets s1 g p cool del push s2 g2 s3 s4 t need r limiter s5 s6 s7
  have h1 : s1.Orders d m := h.noteTerms
  have h2 : s2.Orders d m := ⟨h1.due, h1.moving⟩
  have h3 : s3.Orders d m := ⟨h2.due, h2.moving⟩
  have h5 : s5.Orders d m := ((h3.noteTerms.showGov _).setFld _ _).noteUnmet _
  have h6 : s6.Orders d m := (State.Orders.ite (h5.noteRate _) h5).setPace _ _
  have h7 : s7.Orders d m := .ite h6 (h6.setFld _ _)
  exact .ite h7.noteLimited.noteLag h7

theorem State.takeDue_orders {s : State} {c : Nat × Nat} (hd : s.gov.due = some c) (hs : s.inService = true)
    (hm : s.gov.moving = none) (ht : c.1 ≤ psTrim) (hp : s.powState ≤ psTrim) : s.takeDue.Orders none (some c) := by
  have h : s.takeDue = { s with gov := { s.gov with due := none, moving := some c, rows := [c.1] } } := by
    simp [State.takeDue, hd, hs, hm, ht, hp]
  rw [h]
  exact ⟨rfl, rfl⟩

theorem exec_governorUpdate {s : State} (act : List (List Nat)) (h : s.off = false) :
    exec (.governorUpdate act) s = .next (s.govern true act) := by
  refine congrArg Host.Outcome.next ?_
  simp [State.doGovernorUpdate, h]

theorem exec_governorExtraUpdate {s : State} (h : s.off = false) :
    exec .governorExtraUpdate s = .next (s.govern false s.gov.activity) := by
  refine congrArg Host.Outcome.next ?_
  simp [State.doGovernorExtraUpdate, h]

end Sys2Proof.Machine
end

section
/-! SUPPORT. The lease of the controllers, their states and their writes, restarts and the journal (R48, R297, R722, R724, R726 to R733). -/

namespace Sys2Proof.Machine

open Sys2Proof.Safety

/-! ## Counters -/

theorem State.fld_addSat_same (s : State) (f : Fld) (n : Nat) (h : f.hi < 64) :
    (s.addSat f n).fld f = min (s.fld f + n) (2 ^ (f.hi + 1 - f.lo) - 1) := by
  refine (s.fld_setFld_same f _ h).trans (Nat.mod_eq_of_lt ?_)
  have := Nat.two_pow_pos (f.hi + 1 - f.lo)
  omega

theorem State.fld_addSat_other (s : State) {f g : Fld} (n : Nat) (h : g.reg ≠ f.reg ∨ g.hi < f.lo ∨ f.hi < g.lo) :
    (s.addSat f n).fld g = s.fld g := s.fld_setFld_other _ h

/-! ## The controllers and their states -/

theorem State.fld_withCtl (s : State) (x : Ctl) (f : Fld) : ({ s with ctl := x } : State).fld f = s.fld f := rfl

theorem bit_lt_two (b : Bool) : bit b < 2 := by cases b <;> decide

theorem State.activeNum_lt (s : State) : s.activeNum < 2 := s.fld_lt F.RAS_LEASE_ACTIVE

theorem State.epoch_lt (s : State) : s.epoch < 65536 := s.fld_lt F.RAS_LEASE_EPOCH

theorem State.standby_lt (s : State) : s.standby < 2 := by unfold State.standby; omega

theorem State.standby_ne_activeNum (s : State) : s.standby ≠ s.activeNum := by
  have := s.activeNum_lt
  show 1 - s.activeNum ≠ s.activeNum
  omega

theorem State.ctlState_setCtlState_same (s : State) (k : Nat) {n : Nat} (h : n < 16) : (s.setCtlState k n).ctlState k = n :=
  (s.fld_setFld_same (F.RAS_CTL_HEALTH_STATE.at k) n (show 3 < 64 by decide)).trans (Nat.mod_eq_of_lt h)

theorem State.ctlState_setCtlState_ne (s : State) {j k : Nat} (n : Nat) (h : j ≠ k) : (s.setCtlState k n).ctlState j = s.ctlState j := by
  refine s.fld_setFld_ne n ?_
  show 0x900008 + 8 * j ≠ 0x900008 + 8 * k
  omega

/-- The state of a controller is no field of a register outside RAS_CTL_HEALTH. -/
theorem State.fld_setCtlState (s : State) {f : Fld} {k : Nat} (n : Nat) (hk : k < 2) (hf : f.reg ≠ 0x900008 ∧ f.reg ≠ 0x900010) :
    (s.setCtlState k n).fld f = s.fld f := by
  refine s.fld_setFld_ne n ?_
  show f.reg ≠ 0x900008 + 8 * k
  omega

theorem State.ctlState_setFld (s : State) {f : Fld} {k : Nat} (n : Nat) (hk : k < 2) (hf : f.reg ≠ 0x900008 ∧ f.reg ≠ 0x900010) :
    (s.setFld f n).ctlState k = s.ctlState k := by
  refine s.fld_setFld_ne n ?_
  show 0x900008 + 8 * k ≠ f.reg
  omega

/-! ## The lease passes (R726) -/

/-- An event writes no register below that of tests on demand. -/
theorem State.fld_raiseEvent_below (s : State) (c x d : Nat) {f : Fld} (h : f.reg < F.RAS_SELFTEST_GO.reg) :
    (s.raiseEvent c x d).fld f = s.fld f := by
  have h' : f.reg < 0x900058 := h
  exact s.fld_raiseEvent c x d (by omega) (by omega) (Nat.ne_of_lt (Nat.lt_trans h (by decide)))

/-- A test on demand that is aborted shows its result and raises an event, past every register below its own. -/
theorem State.fld_abortCtlTest (s : State) {f : Fld} (h : f.reg < F.RAS_SELFTEST_GO.reg) : s.abortCtlTest.fld f = s.fld f := by
  have hend (k i r : Nat) : (s.endTest k i r).fld f = s.fld f := by
    unfold State.endTest
    rw [State.fld_raiseEvent_below _ _ _ _ h,
      State.fld_setFld_ne (f := F.RAS_SELFTEST_RESULT) _ _ (Nat.ne_of_lt h),
      State.fld_setFld_ne (f := F.RAS_SELFTEST_GO) _ _ (Nat.ne_of_lt h)]
    exact State.fld_of_regs rfl f
  unfold State.abortCtlTest State.abortTest
  split
  · split
    · exact hend _ _ _
    · rfl
  · rfl

/-- The registers of the lease after it has passed, those of RAS_CTL_HEALTH and the loss count of the log apart. -/
theorem State.fld_passLease (s : State) (o : Nat) {f : Fld} (hl : f.reg ≠ F.LOG_STATUS_LOST.reg)
    (hf : f.reg ≠ 0x900008 ∧ f.reg ≠ 0x900010) :
    (s.passLease o).fld f = (((s.setFld F.RAS_LEASE_EPOCH ((s.epoch + 1) % 65536)).setFld F.RAS_LEASE_ACTIVE s.standby).setFld
      F.GLB_STATE_ACTIVE_CTL s.standby).fld f :=
  (State.fld_setCtlState _ csActive s.standby_lt hf).trans (State.fld_logChange _ _ _ _ _ _ hl)

theorem State.epoch_passLease (s : State) (o : Nat) : (s.passLease o).epoch = (s.epoch + 1) % 65536 := by
  refine (s.fld_passLease o (by decide) (by decide)).trans ?_
  rw [State.fld_setFld_ne _ _ (by decide), State.fld_setFld_apart _ _ (by decide), State.fld_setFld_same _ _ _ (by decide)]
  exact Nat.mod_mod _ _

theorem State.activeNum_passLease (s : State) (o : Nat) : (s.passLease o).activeNum = s.standby := by
  refine (s.fld_passLease o (by decide) (by decide)).trans ?_
  rw [State.fld_setFld_ne _ _ (by decide), State.fld_setFld_same _ _ _ (by decide)]
  exact Nat.mod_eq_of_lt s.standby_lt

theorem State.activeCtl_passLease (s : State) (o : Nat) : (s.passLease o).fld F.GLB_STATE_ACTIVE_CTL = s.standby := by
  refine (s.fld_passLease o (by decide) (by decide)).trans ?_
  rw [State.fld_setFld_same _ _ _ (by decide)]
  exact Nat.mod_eq_of_lt s.standby_lt

theorem State.ctlState_passLease_standby (s : State) (o : Nat) : (s.passLease o).ctlState s.standby = csActive :=
  State.ctlState_setCtlState_same _ _ (by decide)

/-! ## Takeover (R726, R728) -/

/-- The lease in the hands of the standby, the dual-act window open, before the event of the takeover. -/
def State.leaseTaken (s : State) : State :=
  (((((s.abortCtlTest).passLease orHw).setCtlState s.activeNum csSelfTest).setFld F.RAS_LEASE_DUAL_ACT 1).setFld
    F.RAS_LEASE_DUALACT_WRITES 0).addSat F.RAS_LEASE_TAKEOVERS 1

theorem State.activeNum_abortCtlTest (s : State) : s.abortCtlTest.activeNum = s.activeNum := s.fld_abortCtlTest (by decide)

theorem State.epoch_abortCtlTest (s : State) : s.abortCtlTest.epoch = s.epoch := s.fld_abortCtlTest (by decide)

theorem State.standby_abortCtlTest (s : State) : s.abortCtlTest.standby = s.standby :=
  congrArg (1 - ·) s.activeNum_abortCtlTest

/-- The lease's registers in `leaseTaken`, its window and its counts apart. -/
theorem State.fld_leaseTaken (s : State) {f : Fld} (hf : f.reg ≠ 0x900008 ∧ f.reg ≠ 0x900010)
    (h : f.reg ≠ 0x900000 ∨ 31 < f.lo ∨ f.hi < 1) : s.leaseTaken.fld f = (s.abortCtlTest.passLease orHw).fld f := by
  unfold State.leaseTaken
  rw [State.fld_addSat_other _ _ (by simp only [F.RAS_LEASE_TAKEOVERS]; omega),
    State.fld_setFld_other _ _ (by simp only [F.RAS_LEASE_DUALACT_WRITES]; omega),
    State.fld_setFld_other _ _ (by simp only [F.RAS_LEASE_DUAL_ACT]; omega),
    State.fld_setCtlState _ _ s.activeNum_lt hf]

theorem State.epoch_leaseTaken (s : State) : s.leaseTaken.epoch = (s.epoch + 1) % 65536 := by
  rw [← s.epoch_abortCtlTest, ← State.epoch_passLease _ orHw]
  exact s.fld_leaseTaken (by decide) (by decide)

theorem State.activeNum_leaseTaken (s : State) : s.leaseTaken.activeNum = s.standby := by
  rw [← s.standby_abortCtlTest, ← State.activeNum_passLease _ orHw]
  exact s.fld_leaseTaken (by decide) (by decide)

theorem State.activeCtl_leaseTaken (s : State) : s.leaseTaken.fld F.GLB_STATE_ACTIVE_CTL = s.standby := by
  rw [← s.standby_abortCtlTest, ← State.activeCtl_passLease _ orHw]
  exact s.fld_leaseTaken (by decide) (by decide)

theorem State.dualAct_leaseTaken (s : State) : s.leaseTaken.fld F.RAS_LEASE_DUAL_ACT = 1 := by
  unfold State.leaseTaken
  rw [State.fld_addSat_other _ _ (by decide), State.fld_setFld_apart _ _ (by decide), State.fld_setFld_same _ _ _ (by decide)]
  rfl

theorem State.dualActWrites_leaseTaken (s : State) : s.leaseTaken.fld F.RAS_LEASE_DUALACT_WRITES = 0 := by
  unfold State.leaseTaken
  rw [State.fld_addSat_other _ _ (by decide), State.fld_setFld_same _ _ _ (by decide)]
  rfl

theorem State.ctlState_leaseTaken (s : State) {k : Nat} (hk : k < 2) :
    s.leaseTaken.ctlState k = ((s.abortCtlTest.passLease orHw).setCtlState s.activeNum csSelfTest).ctlState k :=
  (State.ctlState_setFld _ _ hk (by decide)).trans
    ((State.ctlState_setFld _ _ hk (by decide)).trans (State.ctlState_setFld _ _ hk (by decide)))

theorem State.ctlState_leaseTaken_old (s : State) : s.leaseTaken.ctlState s.activeNum = csSelfTest :=
  (s.ctlState_leaseTaken s.activeNum_lt).trans (State.ctlState_setCtlState_same _ _ (by decide))

theorem State.ctlState_leaseTaken_new (s : State) : s.leaseTaken.ctlState s.standby = csActive := by
  rw [s.ctlState_leaseTaken s.standby_lt, State.ctlState_setCtlState_ne _ _ s.standby_ne_activeNum, ← s.standby_abortCtlTest]
  exact State.ctlState_passLease_standby _ _

/-- What the passing of the lease leaves alone. -/
def leaseKept : Kept := { regs := false, ctl := false, staged := false }

theorem State.leaseTaken_keeps (s : State) : Keeps leaseKept s s.leaseTaken :=
  State.addSat_keeps rfl (State.setFld_keeps rfl (State.setFld_keeps rfl (State.setCtlState_keeps rfl
    (State.passLease_keeps rfl rfl rfl (State.abortCtlTest_keeps rfl .rfl)))))

theorem State.now_leaseTaken (s : State) : s.leaseTaken.now = s.now := s.leaseTaken_keeps.ticks rfl

theorem State.doTakeover_due {s : State} (hf : s.firmwareRuns = true) (hr : s.standbyReady = true) (hb : s.ctl.beatAt + 5000000 ≤ s.now) :
    s.doTakeover = ({ s.leaseTaken with ctl := { s.leaseTaken.ctl with dualAt := some s.leaseTaken.now } } : State).raiseEvent 0x13
      s.leaseTaken.activeNum s.leaseTaken.epoch := by
  unfold State.doTakeover State.leaseTaken
  rw [if_pos ⟨hf, hr, hb⟩]

section
variable {s : State} (hf : s.firmwareRuns = true) (hr : s.standbyReady = true) (hb : s.ctl.beatAt + 5000000 ≤ s.now)
include hf hr hb

/-- The event of a takeover leaves the registers before those of events as they are. -/
theorem State.fld_doTakeover {f : Fld} (h : f.reg < F.RAS_SELFTEST_GO.reg) : s.doTakeover.fld f = s.leaseTaken.fld f := by
  rw [State.doTakeover_due hf hr hb, State.fld_raiseEvent_below _ _ _ _ h]
  exact State.fld_withCtl _ _ f

theorem State.ctl_doTakeover : s.doTakeover.ctl.dualAt = some s.now := by
  rw [State.doTakeover_due hf hr hb, ← s.now_leaseTaken]
  exact State.raiseEvent_frame (·.ctl.dualAt) (fun _ _ _ => rfl) (fun _ _ => rfl) (fun _ _ => rfl) _ _ _ _

theorem State.epoch_doTakeover : s.doTakeover.epoch = (s.epoch + 1) % 65536 :=
  (State.fld_doTakeover hf hr hb (by decide)).trans s.epoch_leaseTaken

/-- A takeover with no graft running shows the slot that the new active runs. -/
theorem exec_takeover (hg : s.firm.graft = none) : exec .takeover s = .next s.doTakeover.showRunning := by
  have he : ¬ s.doTakeover.epoch = s.epoch := by
    have := s.epoch_lt
    rw [State.epoch_doTakeover hf hr hb]
    omega
  have hfirm : s.doTakeover.firm = s.firm := (State.doTakeover_keeps rfl rfl rfl (k := leaseKept) .rfl).firm rfl
  have hg' : s.doTakeover.showRunning.firm.graft = none := by rw [← hg, ← hfirm]; rfl
  refine congrArg Host.Outcome.next ((if_neg he).trans ?_)
  simp only [hg']

end

/-! ## Writes of a controller (R722, R728, R729) -/

theorem State.ctlWrite_current {s : State} {c : Bool} {e a : Nat} (f : State → State) (ho : s.off = false) (he : e = s.epoch) :
    s.ctlWrite c e a f = (((f s).noteDual s (bit c) a).journalWrite (bit c) e a).emit (.ctlAnswer c true) := by
  unfold State.ctlWrite
  simp [ho, he]

theorem State.ctlWrite_stale {s : State} {c : Bool} {e a : Nat} (f : State → State) (ho : s.off = false) (he : e ≠ s.epoch)
    (hd : s.fld F.RAS_LEASE_DUAL_ACT = 0) : s.ctlWrite c e a f = s.staleWrite c a := by
  unfold State.ctlWrite
  simp [ho, he, hd]

/-- A stale write of the active controller, after the first, is counted and answered. -/
theorem State.staleWrite_of_active {s : State} {c : Bool} (a : Nat) (hs : s.ctl.staleSeen = true) (hc : bit c = s.activeNum) :
    s.staleWrite c a = (s.addSat F.RAS_LEASE_STALE_WRITES 1).emit (.ctlAnswer c false) := by
  have hn : (if c then 1 else 0) = (s.addSat F.RAS_LEASE_STALE_WRITES 1).fld F.RAS_LEASE_ACTIVE :=
    hc.trans (s.fld_addSat_other 1 (by decide)).symm
  unfold State.staleWrite
  simp only [State.emit_ctl, State.addSat_ctl, hs, if_true]
  exact if_pos hn

/-- The register of an address of the dual-act list leaves the list, and takes the journal's value where its own differs. -/
theorem State.reconcile_listed {s : State} {k a : Nat} {v : Word} (hk : k = s.activeNum) (hd : s.fld F.RAS_LEASE_DUAL_ACT = 0)
    (ha : a ∈ s.ctl.dual) (hj : (s.cold.journal.writes.find? fun e => decide (e.1 = a)) = some (a, v)) :
    ∃ u : State, u.ctl.dual = (s.ctl.dual.filter fun x => decide (x ≠ a)) ∧ u.regs = s.regs ∧
      s.reconcile k a = if u.view a = v then u else u.regWrite (ctlAgent k) a 8 v := by
  refine ⟨{ s with ctl := { s.ctl with dual := s.ctl.dual.filter fun x => decide (x ≠ a) } }, rfl, rfl, ?_⟩
  unfold State.reconcile
  rw [if_pos ⟨hk, hd, ha⟩]
  simp only [hj]

/-- The active controller's entry under the current epoch replaces the one of the same register. -/
theorem State.journalWrite_current {s : State} {k e : Nat} (a : Nat) (he : e = s.epoch) (hk : k = s.activeNum) :
    s.journalWrite k e a = { s with cold := { s.cold with journal := { s.cold.journal with
      writes := (s.cold.journal.writes.filter fun x => decide (x.1 ≠ a)) ++ [(a, s.reg a)] } } } := by
  unfold State.journalWrite
  rw [if_pos hk]
  unfold State.frameWrite
  rw [if_neg (by decide), if_pos (.inl he)]

/-! ## Restarts and SAFE (R619, R724, R731, R733) -/

theorem exec_deadMan {s : State} (ho : s.off = false) (hsb : s.devState ≠ dsSeedbed) (hsf : s.devState ≠ dsSafe)
    (hb : ¬ (s.devState = dsBoot ∧ s.boot.stage = 0)) (ht : s.ctl.beatAt + 20000000 ≤ s.now) :
    exec .deadMan s = .next (s.enterSafe false) := by
  refine congrArg Host.Outcome.next ?_
  unfold State.doDeadMan
  rw [if_pos ⟨ho, hsb, hb, hsf, ht⟩]

theorem exec_safeRestartTimeout {s : State} {f : Safe} {n : Nat} (hf : s.safe = some f) (hn : f.recover = some n)
    (ht : f.trip = false) (h : n + 10 * nsSec ≤ s.now) :
    exec .safeRestartTimeout s = .next ((({ s with safe := some { f with recover := none } } : State).setFld
      F.GLB_DEV_CMD_RECOVER 0).setFld F.GLB_DEV_CMD_REFUSED 1) := by
  refine congrArg Host.Outcome.next ?_
  unfold State.doSafeRestartTimeout
  simp only [hf, hn]
  rw [if_pos ⟨ht, h⟩]

/-- The registers of controller `k`, healthy again: in its role, every test of R724 passed. -/
def State.restartPassed (s : State) (k : Nat) : State :=
  (((s.setCtlState k (if s.fld F.RAS_LEASE_ACTIVE = k then csActive else csStandby)).setFld (F.RAS_CTL_HEALTH_LOCKSTEP_OK.at k) 1).setFld
    (F.RAS_CTL_HEALTH_SCRUB_OK.at k) 1).setFld (F.RAS_CTL_HEALTH_JOURNAL_OK.at k) 1

/-- Controller `k` UNHEALTHY after its restart: one failure more, and its event. -/
def State.restartFailed (s : State) (k : Nat) : State :=
  ((s.setCtlState k csUnhealthy).addSat (F.RAS_CTL_HEALTH_FAILS.at k) 1).raiseEvent 0x14 k 4

theorem State.ctlState_restartPassed (s : State) (k : Nat) :
    (s.restartPassed k).ctlState k = if s.fld F.RAS_LEASE_ACTIVE = k then csActive else csStandby := by
  have hlt : (if s.fld F.RAS_LEASE_ACTIVE = k then csActive else csStandby) < 16 := by split <;> decide
  have hbit {f : Fld} (n : Nat) (t : State) (h : 3 < f.lo) : (t.setFld (f.at k) n).ctlState k = t.ctlState k :=
    t.fld_setFld_apart n (.inl h)
  unfold State.restartPassed
  rw [hbit _ _ (by decide), hbit _ _ (by decide), hbit _ _ (by decide)]
  exact State.ctlState_setCtlState_same _ _ hlt

/-- The four fields lie in the one register of the controller's health. -/
theorem State.restartPassed_regsBut (s : State) (k : Nat) : RegsBut [(F.RAS_CTL_HEALTH_STATE.at k).reg] s (s.restartPassed k) := by
  have hset {t : State} {f : Fld} (n : Nat) (h : RegsBut [(F.RAS_CTL_HEALTH_STATE.at k).reg] s t)
      (hf : f.reg = 0x900008 ∧ f.stride = 8) : RegsBut [(F.RAS_CTL_HEALTH_STATE.at k).reg] s (t.setFld (f.at k) n) :=
    h.setFld n (by simp [Fld.at, hf.1, hf.2, F.RAS_CTL_HEALTH_STATE])
  unfold State.restartPassed State.setCtlState
  exact hset _ (hset _ (hset _ (hset _ (.refl _ s) (by decide)) (by decide)) (by decide)) (by decide)

theorem State.ctlState_restartFailed (s : State) {k : Nat} (hk : k < 2) : (s.restartFailed k).ctlState k = csUnhealthy := by
  unfold State.restartFailed
  have hreg : (F.RAS_CTL_HEALTH_STATE.at k).reg < F.RAS_SELFTEST_GO.reg := by
    show 0x900008 + 8 * k < 0x900058
    omega
  refine (State.fld_raiseEvent_below _ _ _ _ hreg).trans ((State.fld_addSat_other _ _ (.inr (.inl (show 3 < 40 by decide)))).trans ?_)
  exact State.ctlState_setCtlState_same _ _ (by decide)

/-- The end of a restart noted in the timers; the dead-man timer runs anew where the active is `up` (R731). -/
def State.noteRestart (s : State) (k : Nat) (up : Bool) : State :=
  { s with ctl := { s.ctl with
    reported := s.ctl.reported.set k s.now
    beatAt := if up then s.now else s.ctl.beatAt
    stopped := if up then false else s.ctl.stopped } }

theorem State.noteRestart_safe (s : State) (k : Nat) (up : Bool) : (s.noteRestart k up).safe = s.safe := rfl
theorem State.noteRestart_regs (s : State) (k : Nat) (up : Bool) : (s.noteRestart k up).regs = s.regs := rfl
theorem State.noteRestart_reported (s : State) (k : Nat) (up : Bool) :
    (s.noteRestart k up).ctl.reported = s.ctl.reported.set k s.now := rfl

/-- What no register holds is kept by the four fields. -/
theorem State.restartPassed_frame {α : Type} (g : State → α) (hr : ∀ t a v, g (t.setReg a v) = g t) (s : State) (k : Nat) :
    g (s.restartPassed k) = g s :=
  (hr _ _ _).trans ((hr _ _ _).trans ((hr _ _ _).trans (hr _ _ _)))

theorem State.restartPassed_safe (s : State) (k : Nat) : (s.restartPassed k).safe = s.safe :=
  State.restartPassed_frame (·.safe) (fun _ _ _ => rfl) s k

theorem State.restartPassed_reported (s : State) (k : Nat) :
    (s.restartPassed k).ctl.reported.set k (s.restartPassed k).now = s.ctl.reported.set k s.now :=
  State.restartPassed_frame (fun t => t.ctl.reported.set k t.now) (fun _ _ _ => rfl) s k

theorem State.restartFailed_safe (s : State) (k : Nat) : (s.restartFailed k).safe = s.safe :=
  (State.raiseEvent_frame (·.safe) (fun _ _ _ => rfl) (fun _ _ => rfl) (fun _ _ => rfl) _ _ _ _).trans
    ((State.addSat_safe _ _ _).trans (State.setFld_safe _ _ _))

section
variable {s : State} {c : Bool} (ho : s.off = false) (hs : s.safe = none)
  (hst : s.ctlState (bit c) ∈ [csStarting, csSelfTest, csRestarting])
include ho hs hst

/-- Outside SAFE the end of a restart writes the registers and the timers of the controllers alone (R728). -/
theorem State.doControllerRestartDone_outside_safe (healthy : Bool) : s.doControllerRestartDone c healthy =
    (if healthy then s.restartPassed (bit c) else s.restartFailed (bit c)).noteRestart (bit c)
      (healthy && decide ((if s.fld F.RAS_LEASE_ACTIVE = bit c then csActive else csStandby) = csActive)) := by
  unfold State.doControllerRestartDone
  extract_lets k st up s1 s2 x2 s3
  have hst' : st = 1 ∨ st = 4 ∨ st = 6 := by simpa [State.ctlState, csStarting, csSelfTest, csRestarting] using hst
  rw [if_neg (by simp only [ho, hst', not_true_eq_false, Bool.false_eq_true, or_self, not_false_eq_true])]
  have h2 : s2 = if healthy then s.restartPassed (bit c) else s.restartFailed (bit c) := by
    cases healthy with
    | true =>
      simp only [s2, s1, up, k, if_true, State.restartPassed, State.setCtlState, csActive, csStandby]
    | false =>
      simp only [s2, s1, up, k, Bool.false_eq_true, if_false, State.restartFailed, State.setCtlState, csUnhealthy]
  have h3 : s3 = s2.noteRestart (bit c)
      (healthy && decide ((if s.fld F.RAS_LEASE_ACTIVE = bit c then csActive else csStandby) = csActive)) := rfl
  have h4 : s3.safe = none := by
    rw [h3, h2, State.noteRestart_safe]
    split
    · exact (s.restartPassed_safe _).trans hs
    · exact (s.restartFailed_safe _).trans hs
  simp only [h4]
  rw [h3, h2]

theorem exec_controllerRestartDone_passed : ∃ up, exec (.controllerRestartDone c true) s =
    .next ((s.restartPassed (bit c)).noteRestart (bit c) up) := by
  have h := State.doControllerRestartDone_outside_safe ho hs hst true
  rw [if_pos rfl] at h
  exact ⟨_, congrArg Host.Outcome.next h⟩

theorem exec_controllerRestartDone_failed : ∃ up, exec (.controllerRestartDone c false) s =
    .next ((s.restartFailed (bit c)).noteRestart (bit c) up) := by
  have h := State.doControllerRestartDone_outside_safe ho hs hst false
  rw [if_neg Bool.false_ne_true] at h
  exact ⟨_, congrArg Host.Outcome.next h⟩

end

end Sys2Proof.Machine
end

section
/-! The statements of the power commands and of the leases. -/

namespace Sys2Proof.Machine

open Sys2Proof.Safety

/-- Settles O39: a command is refused (R57) or given as an order, held behind a transition (R58); a transition takes the order and
ends row by row (log entry 73), and the governor takes one between FULL and TRIM. -/
theorem powerCommandsComplete : Obligations.PowerCommandsComplete := by
  refine ⟨?_, ?_, ?_, ?_, ?_, ?_⟩
  · intro s w c t0 ⟨ho, hl⟩ hc
    obtain ⟨he, ht⟩ := exec_powerCommand hl hc
    refine ⟨fun hr => ⟨_, he, ?_⟩, fun hr hf hs => ⟨_, he, ?_⟩⟩
    · rw [State.powerCmd_refused ho hr]
      exact ⟨State.fld_setFld_same _ _ _ (by decide), (RegsBut.refl _ s).setFld (t := s.closeLatch w blkPwr) _ (by simp)⟩
    · rw [State.powerCmd_ordered ho hr hf hs]
      refine ⟨?_, ?_, fun hi => State.orderPower_held hi, fun hi hp => State.orderPower_due hi ?_⟩
      · rw [State.fld_of_regs (State.orderPower_regs _ _), State.fld_setFld_same _ _ _ (by decide)]
        exact Nat.mod_eq_of_lt (Nat.lt_of_le_of_lt ht (by decide))
      · exact ((RegsBut.refl _ s).setFld (t := s.closeLatch w blkPwr) _ (by simp)).of_regs (State.orderPower_regs _ _)
      · have hpow : ((s.closeLatch w blkPwr).setFld F.GLB_STATE_POWER_TARGET t0).powState = s.powState :=
          State.fld_setFld_apart _ _ (by decide)
        exact fun h => hp (hpow.symm.trans h)
  · intro s w ⟨ho, hl⟩ hf hc
    refine ⟨_, (exec_powerCommand (t := psDark) hl (by simp)).1, ?_⟩
    rw [State.powerCmd_refused ho (State.powerRefused_dark hf hc)]
    exact ⟨State.fld_setFld_same _ _ _ (by decide), State.fld_setFld_ne _ _ (by decide), rfl⟩
  · intro s c hd hs hm hrow hw
    exact ⟨_, congrArg Host.Outcome.next (State.doPowerTransitionStart_due hd hs hm hrow hw),
      { s with gov := { s.gov with due := none, moving := some c, rows := powerRows s.powState c.1 } }, rfl, rfl, rfl, rfl, rfl⟩
  · intro s c act hoff hd hs hm ht hp
    have h := (State.takeDue_orders hd hs hm ht hp).govern true act
    exact ⟨_, exec_governorUpdate act hoff, h.moving, h.due⟩
  · rintro s c _ hm hs rfl he
    refine ⟨fun next rest hr => congrArg Host.Outcome.next (State.doPowerTransitionDone_row hm hs he hr), fun hr => ?_⟩
    refine ⟨_, congrArg Host.Outcome.next (State.doPowerTransitionDone_last hm hs he hr),
      { s with gov := { s.gov with moving := none, rows := [], held := none } }, rfl, rfl, rfl, ?_⟩
    exact ⟨fun hh => by rw [hh]; rfl, fun h hh => by rw [hh]; rfl⟩
  · exact fun s act hoff => ⟨exec_governorUpdate act hoff, exec_governorExtraUpdate hoff⟩

/-- Settles O50: the passing of the lease (log entry 46), the writes under an epoch (log entries 57 and 63), and the ends of restarts,
each by what it writes. -/
theorem leasesComplete : Obligations.LeasesComplete := by
  refine ⟨?_, ?_, ?_, ?_, ?_, ?_, ?_, ?_, ?_⟩
  · intro s hf hr hb hg
    have hfld {f : Fld} (h : f.reg < F.RAS_SELFTEST_GO.reg) : s.doTakeover.showRunning.fld f = s.leaseTaken.fld f := by
      refine (State.fld_setFld_ne _ _ ?_).trans (State.fld_doTakeover hf hr hb h)
      exact Nat.ne_of_lt (Nat.lt_trans h (by decide))
    have hctl {k : Nat} (hk : k < 2) : s.doTakeover.showRunning.ctlState k = s.leaseTaken.ctlState k := by
      refine hfld ?_
      show 0x900008 + 8 * k < 0x900058
      omega
    exact ⟨_, exec_takeover hf hr hb hg, (hfld (by decide)).trans s.epoch_leaseTaken, (hfld (by decide)).trans s.activeNum_leaseTaken,
      (hfld (by decide)).trans s.dualAct_leaseTaken, (hfld (by decide)).trans s.dualActWrites_leaseTaken,
      (hfld (by decide)).trans s.activeCtl_leaseTaken, (hctl s.activeNum_lt).trans s.ctlState_leaseTaken_old,
      (hctl s.standby_lt).trans s.ctlState_leaseTaken_new, State.ctl_doTakeover hf hr hb⟩
  · rintro s _ c e addr size v ho he rfl
    exact congrArg Host.Outcome.next (State.ctlWrite_current _ ho he)
  · exact fun s k a v hk hd ha hj => State.reconcile_listed hk hd ha hj
  · intro s k e a he hk
    rw [State.journalWrite_current a he hk]
    exact ⟨rfl, rfl⟩
  · exact fun s w addr size v ho hl => congrArg Host.Outcome.next (State.leased_stale _ ho hl)
  · intro s c e addr size v ho he hd hs hc
    refine ⟨_, congrArg Host.Outcome.next ((State.ctlWrite_stale _ ho he hd).trans (State.staleWrite_of_active _ hs hc)), ?_, rfl, ?_⟩
    · exact s.fld_addSat_same F.RAS_LEASE_STALE_WRITES 1 (by decide)
    · exact (RegsBut.refl _ s).setFld _ (List.mem_singleton_self _)
  · exact fun s ho hsb hsf hb ht => exec_deadMan ho hsb hsf hb ht
  · intro s c ho hs hst
    obtain ⟨up, hup⟩ := exec_controllerRestartDone_passed ho hs hst
    obtain ⟨down, hdown⟩ := exec_controllerRestartDone_failed ho hs hst
    refine ⟨⟨_, hup, ?_, ?_, ?_⟩, ⟨_, hdown, ?_⟩⟩
    · exact (State.fld_of_regs (State.noteRestart_regs _ _ _) _).trans (s.ctlState_restartPassed (bit c))
    · exact (State.noteRestart_reported _ _ _).trans (s.restartPassed_reported _)
    · exact (s.restartPassed_regsBut (bit c)).of_regs (State.noteRestart_regs _ _ _)
    · exact (State.fld_of_regs (State.noteRestart_regs _ _ _) _).trans (s.ctlState_restartFailed (bit_lt_two c))
  · intro s f n hf hn ht h
    refine ⟨_, exec_safeRestartTimeout hf hn ht h, rfl, ?_, State.fld_setFld_same _ _ _ (by decide), ?_⟩
    · rw [State.fld_setFld_apart _ _ (by decide), State.fld_setFld_same _ _ _ (by decide)]
      exact Nat.zero_mod _
    · exact (((RegsBut.refl _ s).of_regs rfl).setFld _ (by decide)).setFld _ (by decide)

end Sys2Proof.Machine
end

section
/-! SUPPORT. The element-wise operations of the vector unit: which effect an opcode has, and what that effect writes once its operands
are read and no adder upset discards the result (R103, R104, R127, R223, R224). -/

namespace Sys2Proof.Machine

/-! ## The effect of an opcode (R201, R224) -/

theorem State.execDesc_vadd (s : State) (p : Nat) {d : Desc} (h : hOpcode d.words = 0x20) :
    s.execDesc p d = s.effMap2 p d true (FVal.add (modeOf d.words)) := by
  simp only [State.execDesc, h]; rfl

theorem State.execDesc_vmul (s : State) (p : Nat) {d : Desc} (h : hOpcode d.words = 0x21) :
    s.execDesc p d = s.effMap2 p d false FVal.mul := by
  simp only [State.execDesc, h]; rfl

theorem State.execDesc_vfma (s : State) (p : Nat) {d : Desc} (h : hOpcode d.words = 0x22) : s.execDesc p d = s.effVfma p d := by
  simp only [State.execDesc, h]

theorem State.execDesc_vmax (s : State) (p : Nat) {d : Desc} (h : hOpcode d.words = 0x23) :
    s.execDesc p d = s.effMap2 p d false FVal.vmax := by
  simp only [State.execDesc, h]; rfl

theorem State.execDesc_vmin (s : State) (p : Nat) {d : Desc} (h : hOpcode d.words = 0x24) :
    s.execDesc p d = s.effMap2 p d false FVal.vmin := by
  simp only [State.execDesc, h]; rfl

theorem State.execDesc_vcmp (s : State) (p : Nat) {d : Desc} (h : hOpcode d.words = 0x25) :
    s.execDesc p d = s.effMap2 p d false fun x y => .fin false (bit (relate (vSubop d.words) x y)) 0 := by
  simp only [State.execDesc, h]; rfl

theorem State.execDesc_vselect (s : State) (p : Nat) {d : Desc} (h : hOpcode d.words = 0x26) :
    s.execDesc p d = s.effVselect p d := by
  simp only [State.execDesc, h]

/-! ## What an effect writes -/

section
variable {s s1 : State} {p : Nat} {d : Desc} {a b c : List FVal}

theorem State.adderCheck_of_no_upset (h : (s.clu p).upset = false) : s.adderCheck p = none := by
  simp [State.adderCheck, h]

/-- An operation that adds meets the residue check of the adder (R127); the others have none. -/
theorem State.effMap2_written {adds : Bool} {op : FVal → FVal → FVal}
    (hread : s.readOperands p d true false 0 = (s1, some (a, b, c))) (hup : adds = false ∨ (s1.clu p).upset = false) :
    s.effMap2 p d adds op =
      s1.writeValues p d .none ((a.zip b).map fun q => op q.1 q.2) (List.replicate a.length 0) := by
  have hcheck : (if adds then s1.adderCheck p else none) = none := by
    obtain rfl | hu := hup
    · rfl
    · rw [State.adderCheck_of_no_upset hu, ite_self]
  simp only [State.effMap2, hread, hcheck]

theorem State.effVfma_written (hread : s.readOperands p d true true (hFmtB d.words) = (s1, some (a, b, c)))
    (hup : (s1.clu p).upset = false) :
    s.effVfma p d = s1.writeValues p d .none (((a.zip b).zip c).map fun q => (q.1.1.mul q.1.2).add (modeOf d.words) q.2)
      (List.replicate a.length 0) := by
  simp only [State.effVfma, hread, State.adderCheck_of_no_upset hup]

theorem State.effVselect_written (hread : s.readOperands p d true true (vselectFmt d.words) = (s1, some (a, b, c))) :
    s.effVselect p d = s1.writeValues p d .none (((a.zip b).zip c).map fun q => if q.2.isZero then q.1.2 else q.1.1)
      (List.replicate a.length 0) := by
  simp only [State.effVselect, hread]

end

end Sys2Proof.Machine
end

section
/-! The statement of the vector unit's element-wise operations. -/

namespace Sys2Proof.Machine

/-- Settles O10: five opcodes map one operation over A and B, VADD alone of them past the check of the adder (R127); VFMA, past that
check too, and VSELECT read C as well. -/
theorem elementwiseOperationsCompute : Obligations.ElementwiseOperationsCompute := by
  refine ⟨?_, ?_, ?_⟩
  · intro s s1 p d a b c op adds hop hread hup
    refine Eq.trans ?_ (State.effMap2_written hread hup)
    obtain ⟨h, rfl, rfl⟩ | ⟨h, rfl, rfl⟩ | ⟨h, rfl, rfl⟩ | ⟨h, rfl, rfl⟩ | ⟨h, rfl, rfl⟩ := hop
    · exact s.execDesc_vadd p h
    · exact s.execDesc_vmul p h
    · exact s.execDesc_vmax p h
    · exact s.execDesc_vmin p h
    · exact s.execDesc_vcmp p h
  · intro s s1 p d a b c h hread hup
    exact (s.execDesc_vfma p h).trans (State.effVfma_written hread hup)
  · intro s s1 p d a b c h hread
    exact (s.execDesc_vselect p h).trans (State.effVselect_written hread)

end Sys2Proof.Machine
end

section
/-! SUPPORT. What a descriptor's start and completion and a hub signal's landing do once their conditions hold (R135, R158, R169, R237,
R348; log entries 37 and 77). -/

namespace Sys2Proof.Machine

open Sys2Proof.Safety

variable {s : State} {p : Nat} {d : Desc} {lead : Nat}

/-! ## Descriptors (R135, R158, R237) -/

theorem State.doDescriptorStart_of_running (e : Engine) (hp : p < 264) (hrun : s.seqState p = sqRunning) :
    s.doDescriptorStart p e = s.startNext p e := if_pos ⟨hp, hrun⟩

theorem State.startNext_of_startable {e : Engine} {rest : List Desc} (hq : (s.clu p).waiting e = d :: rest)
    (hs : s.startable p d = true) {d1 : Desc} {s1 : State} (hd1 : d1 = { d with started := true, old := s.preImages p d })
    (hs1 : s1 = s.setClu p { s.clu p with queue := (s.clu p).queue.map fun x => if x.id = d.id then d1 else x }) :
    s.startNext p e = (s1.shadowed (!d.onEnginePort) (s.padGranules p d false) (s.padGranules p d true) fun s =>
      (s.execDesc p d1, ())).1.enginePort p d1 := by
  subst hd1 hs1
  simp only [State.startNext, hq, if_pos hs]

theorem State.landBarrow_of_nothing_landed (h : d.landed = []) : s.landBarrow p d = s := by
  simp only [State.landBarrow, h, List.foldl_nil]

/-- A descriptor done in its queue, with the bytes that came for it put in place. -/
def State.descriptorDone (s : State) (p id : Nat) (d : Desc) : State :=
  (s.landBarrow p d).setClu p { (s.landBarrow p d).clu p with
    queue := ((s.landBarrow p d).clu p).queue.map fun x => if x.id = id then { d with done := true } else x }

theorem State.descriptorDone_regs_of_nothing_landed (id : Nat) (h : d.landed = []) : (s.descriptorDone p id d).regs = s.regs := by
  rw [State.descriptorDone, State.setClu_regs, State.landBarrow_of_nothing_landed h]

theorem State.doDescriptorComplete_of_ended {id : Nat} (hq : ((s.clu p).queue.find? fun d => decide (d.id = id)) = some d)
    (hstart : d.started = true) (hdone : d.done = false) (hbusy : s.barrowBusy p id = false) (hunit : (s.clu p).heldUnit d = false) :
    s.doDescriptorComplete p id =
      if ((s.descriptorDone p id d).clu p).heldMove { d with done := true } = true then s.descriptorDone p id d
      else ((s.descriptorDone p id d).retire p { d with done := true }).cascade p := by
  have hgoes : ¬(!d.started || d.done || s.barrowBusy p id || (s.clu p).heldUnit d) = true := by
    simp [hstart, hdone, hbusy, hunit]
  rw [State.doDescriptorComplete, hq]
  exact if_neg hgoes

/-! ## Hub tallies (R169, R348) -/

theorem State.tallyStepAdd_of_held {h : Step} {n : Nat} (v : Word) (hh : s.holder (some lead) n = some h) :
    s.tallyStepAdd lead n v = s.putStep { h with adds := h.adds ++ [{ src := some lead, tally := n, amount := v }] } := by
  simp only [State.tallyStepAdd, hh]

/-- An add to a tally that no other step holds is a write of the tally, after the step has noted at most that it holds it. -/
theorem State.tallyStepAdd_of_free {n : Nat} (v : Word) (hh : s.holder (some lead) n = none) :
    ∃ s1 : State, s.tallyStepAdd lead n v = s1.setTally n (s.tally n + v) ∧ s1.regs = s.regs ∧ ∀ p, s1.clu p = s.clu p := by
  simp only [State.tallyStepAdd, hh]
  cases s.stepOf lead with
  | none => exact ⟨s, rfl, rfl, fun _ => rfl⟩
  | some t =>
    refine ⟨_, rfl, ?_⟩
    split <;> exact ⟨rfl, fun _ => rfl⟩

@[simp] theorem State.tally_setTally_same (s : State) (n : Nat) (v : Word) : (s.setTally n v).tally n = v := s.reg_setReg_same _ v

theorem State.doHubTallySignalLand_oldest {x : Nat × Nat} {rest : List (Nat × Nat)} (hl : (s.clu p).landing = x :: rest)
    (hlead : (s.clu p).lead = some lead) :
    s.doHubTallySignalLand p x.1 =
      (s.setClu p { s.clu p with landing := rest }).tallyStepAdd lead x.1 (BitVec.ofNat 64 x.2) := by
  simp only [State.doHubTallySignalLand, hl, hlead, if_true]

theorem State.doHubTallySignalLand_free {x : Nat × Nat} {rest : List (Nat × Nat)} (hl : (s.clu p).landing = x :: rest)
    (hlead : (s.clu p).lead = some lead) (hh : s.holder (some lead) x.1 = none) :
    (s.doHubTallySignalLand p x.1).tally x.1 = s.tally x.1 + BitVec.ofNat 64 x.2 ∧
      ((s.doHubTallySignalLand p x.1).clu p).landing = rest ∧
      RegsBut [(F.TLY_VALUE_VALUE.at x.1).reg] s (s.doHubTallySignalLand p x.1) := by
  rw [State.doHubTallySignalLand_oldest hl hlead]
  obtain ⟨s1, hadd, hregs, hclu⟩ := State.tallyStepAdd_of_free (s := s.setClu p { s.clu p with landing := rest })
    (BitVec.ofNat 64 x.2) hh
  rw [hadd]
  refine ⟨State.tally_setTally_same _ _ _, ?_, ?_⟩
  · exact congrArg Cluster.landing ((hclu p).trans (s.clu_setClu_same p _))
  · exact ((RegsBut.refl _ s).of_regs hregs).setReg _ (List.mem_singleton_self _)

end Sys2Proof.Machine
end

section
/-! The statements of the clusters' descriptors and of the ends of steps. -/

namespace Sys2Proof.Machine

/-- Settles O25: the start of the head of an engine's queue, with old data where it meets the other port's write (log entry 37); the end
of a descriptor, with an inbound BARROW's bytes put in place at it (log entry 77); and the oldest signal's landing, by whether another
step holds its tally. -/
theorem descriptorsStartAndComplete : Obligations.DescriptorsStartAndComplete := by
  refine ⟨?_, ?_, ?_⟩
  · intro s p e d rest hp hrun hq hs d1 s1 hd1 hs1
    exact congrArg Host.Outcome.next
      ((State.doDescriptorStart_of_running e hp hrun).trans (State.startNext_of_startable hq hs hd1 hs1))
  · intro s p id d hq hstart hdone hbusy hunit
    refine ⟨_, congrArg Host.Outcome.next (State.doDescriptorComplete_of_ended hq hstart hdone hbusy hunit),
      s.descriptorDone p id d, s.landBarrow p d, rfl, rfl, ?_, rfl⟩
    exact State.descriptorDone_regs_of_nothing_landed id
  · intro s p lead x rest hl hlead
    refine ⟨fun hh => ⟨_, rfl, State.doHubTallySignalLand_free hl hlead hh⟩, fun h hh => ?_⟩
    exact congrArg Host.Outcome.next
      ((State.doHubTallySignalLand_oldest hl hlead).trans (State.tallyStepAdd_of_held _ hh))

/-- Settles O26: each end of a step (log entry 17) is what its command does to a step in flight once the condition of that end holds. -/
theorem stepsEndAsTheRulesSay : Obligations.StepsEndAsTheRulesSay := by
  refine ⟨?_, ?_, ?_⟩
  · intro s lead t ht hcommit
    refine ⟨s.doStepCommit lead, rfl, _, rfl, ?_⟩
    simp only [State.doStepCommit, ht, if_pos hcommit]
  · intro s lead t f ht hin hfail
    refine congrArg Host.Outcome.next ?_
    simp only [State.doStepFail, ht, if_pos hin, hfail]
  · intro s lead t ht hreplay
    refine congrArg Host.Outcome.next ?_
    simp only [State.doStepReplay, ht, if_pos hreplay]

end Sys2Proof.Machine
end

section
/-! SUPPORT. The issue of a descriptor once it is fetched: refused, enqueued for its engine, or gone on with as a control descriptor; and
the effect of each control descriptor (R134, R202, R242 to R250; log entries 9, 36 and 62). -/

namespace Sys2Proof.Machine

open Sys2Proof.Safety

variable {s s1 : State} {p op v : Nat} {t : Step} {ws : List Word} {locs : Loc × Loc × Loc × Loc} {c : Instr}

/-! ## Issue (R134, R202) -/

section
variable (f : State → Step → List Word → Loc × Loc × Loc × Loc → State)

theorem State.issueThen_of_issued (h : Issued s p op v s1 t ws locs) : s.issueThen p op v f = f s1 t ws locs := by
  obtain ⟨⟨hmay, hinside, rfl, hrow, ⟨u, hfetch, hpeek⟩, hstep⟩, hchecks⟩ := h
  simp [State.issueThen, hmay, hinside, hrow, hfetch, hpeek, hstep, hchecks]

theorem State.issueThen_of_refused (h : Fetched s p op v s1 t ws) {code : Nat} (hc : s1.checkIssue p t ws = .error code) :
    s.issueThen p op v f = s1.refuse p (s.pcOf p) (hOpcode ws) code := by
  obtain ⟨hmay, hinside, rfl, hrow, ⟨u, hfetch, hpeek⟩, hstep⟩ := h
  simp [State.issueThen, hmay, hinside, hrow, hfetch, hpeek, hstep, hc]

end

/-! ## Engine descriptors (R134) -/

theorem exec_of_engineRow {e : Engine} (s : State) (h : engineRow c = some (p, op, v, e)) :
    exec c s = .next (s.issueDesc p op v) ∧ engineOf op = some e := by
  unfold engineRow at h
  split at h <;> cases h <;> exact ⟨rfl, rfl⟩

theorem State.issueDesc_of_room {e : Engine} (v : Nat) (he : engineOf op = some e) (hroom : ((s.clu p).waiting e).length < 8) :
    s.issueDesc p op v = s.issueThen p op v fun s1 t ws locs => (s1.enqueue p t ws locs e).startNext p e := by
  simp only [State.issueDesc, he, if_neg (Nat.not_le.mpr hroom)]

theorem State.issueDesc_of_full {e : Engine} (v : Nat) (he : engineOf op = some e) (hfull : 8 ≤ ((s.clu p).waiting e).length) :
    s.issueDesc p op v = s := by
  simp only [State.issueDesc, he, if_pos hfull]

/-! ## Control descriptors (R242 to R250) -/

theorem exec_of_controlRow (s : State) (h : controlRow c = some (p, op, v)) : ∃ f, exec c s = .next (s.control p op v f) := by
  unfold controlRow at h
  split at h <;> cases h <;> exact ⟨_, rfl⟩

section
variable (f : State → Step → List Word → Loc × Loc → State)

theorem State.control_of_waiting (h : Issued s p op v s1 t ws locs) (hw : s1.controlReady p ws = false) :
    s.control p op v f = s1 :=
  (State.issueThen_of_issued _ h).trans (if_neg (Bool.eq_false_iff.mp hw))

theorem State.control_of_ready (h : Issued s p op v s1 t ws locs) (hr : s1.controlReady p ws = true) :
    s.control p op v f = f (noted s1 t ws) { t with named := namedWith t ws } ws (locs.1, locs.2.1) :=
  (State.issueThen_of_issued _ h).trans (if_pos hr)

end

/-! ## The effect of each control descriptor -/

theorem State.effTsignal_hub {x : Sel} (hx : selOf (fieldOf ws 2 15 0) = some x) (hhub : x.hub = true) :
    s.effTsignal p ws =
      (s.setClu p { s.clu p with landing := (s.clu p).landing ++ [(x.num, fieldOf ws 2 63 32)] }).finish p ws := by
  simp only [State.effTsignal, hx, if_pos hhub]

theorem State.effTsignal_local {x : Sel} (hx : selOf (fieldOf ws 2 15 0) = some x) (hhub : x.hub = false) :
    s.effTsignal p ws = (s.addWrap ((F.CLU_LTALLY_VALUE.clu p).at x.num) (fieldOf ws 2 63 32)).finish p ws := by
  simp only [State.effTsignal, hx, if_neg (Bool.eq_false_iff.mp hhub)]

theorem State.effRet_of_calls {back : Nat} {rest : List Nat} (h : (s.clu p).calls = back :: rest) :
    s.effRet p ws = ((s.setClu p { s.clu p with calls := rest }).goto p back).signal p (selOf (hSignal ws)) := by
  simp only [State.effRet, h]

/-- The count of a LOOP that comes from a tally is checked as the LOOP acts (R244; log entry 9). -/
theorem State.effLoop_of_count_over (h : 65535 < s.loopCount p ws) : s.effLoop p ws = s.refuse p (s.pcOf p) 0x58 rcControl :=
  if_pos h

theorem State.effLoop_of_count_within (h : s.loopCount p ws ≤ 65535) :
    s.effLoop p ws =
      if s.loopCount p ws = 0 then (s.goto p (fieldOf ws 3 13 0 + 1)).signal p (selOf (hSignal ws))
      else (s.setClu p { s.clu p with loops :=
        { body := s.pcOf p + 1, stop := fieldOf ws 3 13 0, count := s.loopCount p ws, idx := 0, calls := (s.clu p).calls.length } ::
          (s.clu p).loops }).finish p ws :=
  if_neg (Nat.not_lt.mpr h)

theorem State.effEndloop_of_loops {l : Loop} {ls : List Loop} (h : (s.clu p).loops = l :: ls) :
    s.effEndloop p ws =
      if l.idx + 1 < l.count then
        ((s.setClu p { s.clu p with loops := { l with idx := l.idx + 1 } :: ls }).goto p l.body).signal p (selOf (hSignal ws))
      else (s.setClu p { s.clu p with loops := ls }).finish p ws := by
  simp only [State.effEndloop, h]

theorem State.effBranch_of_tally {x : Sel} (hx : selOf (fieldOf ws 2 15 0) = some x) :
    s.effBranch p ws =
      if branchHolds (fieldOf ws 2 18 16) x.hub (s.selValue p x) (fieldOf ws 2 63 32) then
        ((s.setClu p { s.clu p with loops := loopsKept (s.clu p).loops (fieldOf ws 3 13 0) }).goto p (fieldOf ws 3 13 0)).signal p
          (selOf (hSignal ws))
      else s.finish p ws := by
  simp only [State.effBranch, hx]

theorem State.effTadd_of_no_window (h : s.selectWindow t (s.clu p).logical (fieldOf ws 2 63 56) = .ok none) :
    s.effTadd p t ws = (s.putStep { t with tadds := t.tadds + 1 }).finish p ws := by
  simp only [State.effTadd, h]

section
variable {r : Reach} (h : s.selectWindow t (s.clu p).logical (fieldOf ws 2 63 56) = .ok (some r)) (hv : s.winValid r = true)
  (hk : s.winKind r = wkRemote)
include h hv hk

theorem State.effTadd_of_fabric_held (hheld : s.fabState = fsHeld) : s.effTadd p t ws = s.replayStep t.lead 6 [] := by
  simp [State.effTadd, h, hv, hk, hheld]

theorem State.effTadd_of_remote (hfree : s.fabState ≠ fsHeld) :
    s.effTadd p t ws = (s.putStep { t with
      held := t.held ++ [{ chip := bitsOf (s.winWord r.set r.win 2) 57 52, ctx := bitsOf (s.winWord r.set r.win 2) 15 0
                           gen := bitsOf (s.winWord r.set r.win 2) 47 36, win := bitsOf (s.winWord r.set r.win 2) 51 48
                           tally := fieldOf ws 2 13 0, amount := fieldOf ws 3 31 0, tenant := s.ctx r.ctx cfTenant }]
      tadds := t.tadds + 1 }).finish p ws := by
  simp [State.effTadd, h, hv, hk, hfree]

end

/-- The state in which a STEP_END reports its cluster: COMMITTING, and its own signal applied, one to the hub at once (R173; log
entry 36). -/
def State.endSignalled (s : State) (p lead : Nat) (sig : Option Sel) : State :=
  match sig with
  | none => s.setSeq p sqCommitting
  | some x => if x.hub then (s.setSeq p sqCommitting).tallyStepAdd lead x.num 1 else (s.setSeq p sqCommitting).signal p (some x)

/-- A step to which a cluster has reported, with the cluster's provisional flags (R173). -/
def Step.reportedBy (t : Step) (c : Cluster) : Step :=
  { t with reported := t.reported ++ [c.logical], flags := t.flags ||| c.flags, sat := t.sat + c.sat }

theorem State.effStepEnd_of_step {t2 : Step} (h : (s.endSignalled p t.lead (selOf (hSignal ws))).stepOf t.lead = some t2) :
    s.effStepEnd p t ws =
      if (t2.reportedBy (s.clu p)).clusters.all (t2.reportedBy (s.clu p)).reported.contains then
        ((s.endSignalled p t.lead (selOf (hSignal ws))).putStep (t2.reportedBy (s.clu p))).sendReadies t.lead
      else (s.endSignalled p t.lead (selOf (hSignal ws))).putStep (t2.reportedBy (s.clu p)) := by
  cases hsig : selOf (hSignal ws) <;>
    · rw [hsig, State.endSignalled] at h
      simp only [State.effStepEnd, State.endSignalled, hsig, h]
      rfl

end Sys2Proof.Machine
end

section
/-! The statements of the issue of descriptors and of the control descriptors. -/

namespace Sys2Proof.Machine

open Sys2Proof.Safety

/-- Settles O23: what the issue of a row does with its descriptor, by whether its unit has room and whether the checks pass. -/
theorem engineDescriptorsIssue : Obligations.EngineDescriptorsIssue := by
  refine ⟨?_, ?_, ?_⟩
  · intro c p op v e s s1 t ws locs hrow hroom hissued
    obtain ⟨hexec, he⟩ := exec_of_engineRow s hrow
    rw [hexec, State.issueDesc_of_room v he hroom, State.issueThen_of_issued _ hissued]
  · intro c p op v s s1 t ws code hrow hfetched hcode
    obtain hrow | ⟨e, hrow, hroom⟩ := hrow
    · obtain ⟨f, hexec⟩ := exec_of_controlRow s hrow
      rw [hexec, State.control, State.issueThen_of_refused _ hfetched hcode]
    · obtain ⟨hexec, he⟩ := exec_of_engineRow s hrow
      rw [hexec, State.issueDesc_of_room v he hroom, State.issueThen_of_refused _ hfetched hcode]
  · intro c p op v e s hrow hfull
    obtain ⟨hexec, he⟩ := exec_of_engineRow s hrow
    rw [hexec, State.issueDesc_of_full v he hfull]

/-- Settles O24: a control descriptor that may not go on leaves the state of its fetch, and one that may has the effect of its row. By
the model's choices HALT and STEP_END leave PC at themselves (log entry 62), the signal of a STEP_END to the own hub lands at once (log
entry 36), and the count that a LOOP takes from a tally is checked as it acts (log entry 9). -/
theorem controlDescriptorsComplete : Obligations.ControlDescriptorsComplete := by
  refine ⟨?_, ?_⟩
  · intro c s s1 p op v t ws locs hrow hissued hwait
    obtain ⟨f, hexec⟩ := exec_of_controlRow s hrow
    rw [hexec, State.control_of_waiting f hissued hwait]
  · rintro s s1 u p op v t ws locs hissued hready rfl
    have hgo {t' : State} (f : State → Step → List Word → Loc × Loc → State)
        (he : f (noted s1 t ws) { t with named := namedWith t ws } ws (locs.1, locs.2.1) = t') :
        Host.Outcome.next (s.control p op v f) = (.next t' : Host.Outcome State Fault Refusal) :=
      congrArg _ ((State.control_of_ready f hissued hready).trans he)
    refine ⟨?nop, ?twait, ?halt, ?fence, ?tsignal, ?call, ?ret, ?loop, ?endloop, ?branch, ?tadd, ?stepEnd, ?allReduce,
      ?reduceScatter, ?allGather, ?broadcast, ?pass⟩ <;> rintro ⟨rfl, rfl⟩
    case nop | twait | halt | fence | call | allReduce | reduceScatter | allGather | broadcast | pass => exact hgo _ rfl
    case tsignal =>
      exact fun x hx => ⟨fun hhub => hgo _ (State.effTsignal_hub hx hhub), fun hhub => hgo _ (State.effTsignal_local hx hhub)⟩
    case ret => exact fun back rest hcalls => hgo _ (State.effRet_of_calls hcalls)
    case loop =>
      exact ⟨fun hover => hgo _ (State.effLoop_of_count_over hover), fun hwithin => hgo _ (State.effLoop_of_count_within hwithin)⟩
    case endloop => exact fun l ls hloops => hgo _ (State.effEndloop_of_loops hloops)
    case branch => exact fun x hx => hgo _ (State.effBranch_of_tally hx)
    case tadd =>
      exact ⟨fun hnone => hgo _ (State.effTadd_of_no_window hnone), fun r hr hvalid hkind =>
        ⟨fun hheld => hgo _ (State.effTadd_of_fabric_held hr hvalid hkind hheld),
          fun hfree => hgo _ (State.effTadd_of_remote hr hvalid hkind hfree)⟩⟩
    case stepEnd =>
      rintro u1 t2 rfl hstep
      exact hgo _ (State.effStepEnd_of_step hstep)

end Sys2Proof.Machine
end

section
/-! SUPPORT. Which commands leave the controllers' timers: a row that any agent may write does so when the host writes it, since only a
controller without the lease is noted there (R722). -/

namespace Sys2Proof.Machine

open Sys2Proof.Safety

/-- The controllers' timers alone. -/
def timersKept : Kept :=
  { regs := false, clusters := false, slice := false, pad := false, lines := false, slots := false, tables := false, keys := false
    fab := false, col := false, conf := false, repair := false, cold := false, flash := false, tap := false, firm := false
    boot := false, ticks := false, staged := false, cfg := false }

theorem keeps_of_engineRow {c : Instr} {p op v : Nat} {g : Engine} {s t : State} (hrow : engineRow c = some (p, op, v, g))
    (e : exec c s = .next t) : Keeps timersKept s t := by
  obtain rfl := Host.Outcome.next.inj ((exec_of_engineRow s hrow).1.symm.trans e)
  exact State.issueDesc_keeps rfl rfl rfl rfl rfl rfl rfl rfl .rfl

/-- The host needs no lease, so its write is the row's effect. -/
theorem keeps_of_hostRow {w : Agent} {f : State → State} {k : Kept} {s t : State} (hw : decide (w ≠ .host) = false)
    (e : (.next (s.leased w f) : Host.Outcome State Fault Refusal) = .next t) (h : Keeps k s (f s)) : Keeps k s t := by
  obtain rfl : w = .host := by simpa using hw
  cases e
  rwa [State.leased_of_holds f (.inr s.holdsLease_host)]

/-- One arm for each command that is not itself a writer of the timers. -/
theorem exec_keeps_timers {c : Instr} {s t : State} (hc : mayWriteLeases c = false) (e : exec c s = .next t) :
    Keeps timersKept s t := by
  cases c with
  | registerWrite | slotChoice | recover | tempSensorConvert | eoffN | inputLoss | inputOvervoltage | harvestWritten |
    controllerHeartbeat | healthReport | standbyUnhealthy | lockstepMismatch | takeover | dualActClear | relinquish | controllerWrite |
    graftHandover | graftPeerHealthy | fwuTake | fallback | fallbackDone | controllerRestartDone => cases hc
  | wload | mma | mmaMerge | mmaAdapt | drain | accClear | accScale | vadd | vmul | vfma | vmax | vmin | vcmp | vselect | vcvt |
    vsfuExp | vsfuLog | vsfuReciprocal | vsfuRsqrt | vsfuTanh | vsfuSigmoid | vsfuGelu | vreduceSum | vreduceMax | vreduceMin |
    vsoftmax | vnormRms | vnormLayer | vrandUniform | vrandRaw | vtopk | vgather | vscatter | lmove | tmovePull | tmovePush |
    barrowInbound | barrowOutbound | ringCfg => exact keeps_of_engineRow rfl e
  | glbSnapCtlWrite => exact keeps_of_hostRow hc e (State.doGlbSnapCtlWrite_keeps rfl .rfl)
  | commit => exact keeps_of_hostRow hc e (State.doCommit_keeps rfl rfl rfl rfl rfl rfl rfl .rfl)
  | commitGroup => exact keeps_of_hostRow hc e (State.doCommitGroup_keeps rfl rfl rfl rfl rfl rfl rfl .rfl)
  | ctxPeekSelWrite => exact keeps_of_hostRow hc e (State.doCtxPeekSelWrite_keeps rfl .rfl)
  | logReadSelWrite => exact keeps_of_hostRow hc e (State.doLogReadSelWrite_keeps rfl .rfl)
  | tlyAdd => exact keeps_of_hostRow hc e (State.doTlyAdd_keeps rfl .rfl)
  | telTempMaxWrite => exact keeps_of_hostRow hc e (State.doTelTempMaxWrite_keeps rfl .rfl)
  | cringHeadWrite => exact keeps_of_hostRow hc e (State.doCringHeadWrite_keeps rfl .rfl)
  | laneReset => exact keeps_of_hostRow hc e (State.doLaneReset_keeps rfl .rfl)
  | reload => exact keeps_of_hostRow hc e (State.doReload_keeps rfl rfl rfl rfl rfl rfl rfl rfl rfl .rfl)
  | drainCommand => exact keeps_of_hostRow hc e (State.doDrainCommand_keeps rfl .rfl)
  | resumeCommand => exact keeps_of_hostRow hc e (State.doResumeCommand_keeps rfl .rfl)
  | powerCmdFull | powerCmdTrim | powerCmdMulch | powerCmdQuiet | powerCmdDark =>
    exact keeps_of_hostRow hc e (State.powerCmd_keeps rfl rfl rfl rfl rfl rfl rfl rfl rfl rfl rfl .rfl)
  | rasSpareCtlGo => exact keeps_of_hostRow hc e (State.doRasSpareCtlGo_keeps rfl .rfl)
  | selftestCluster => exact keeps_of_hostRow hc e (State.doSelftestCluster_keeps rfl .rfl)
  | selftestLane => exact keeps_of_hostRow hc e (State.doSelftestLane_keeps rfl .rfl)
  | selftestPort => exact keeps_of_hostRow hc e (State.doSelftestPort_keeps rfl .rfl)
  | selftestController => exact keeps_of_hostRow hc e (State.doSelftestController_keeps rfl .rfl)
  | install => exact keeps_of_hostRow hc e (State.doInstall_keeps rfl rfl rfl rfl rfl .rfl)
  | graft => exact keeps_of_hostRow hc e (State.doGraft_keeps rfl rfl rfl .rfl)
  | reject => exact keeps_of_hostRow hc e (State.doReject_keeps rfl rfl .rfl)
  | configWrite => exact keeps_of_hostRow hc e (State.doConfigWrite_keeps rfl rfl rfl rfl .rfl)
  | laneCal => exact keeps_of_hostRow hc e (State.doLaneCal_keeps rfl .rfl)
  | setRoles => exact keeps_of_hostRow hc e (State.doSetRoles_keeps rfl rfl .rfl)
  | lifecycle => exact keeps_of_hostRow hc e (State.doLifecycle_keeps rfl rfl rfl .rfl)
  | wipe => exact keeps_of_hostRow hc e (State.doWipe_keeps rfl rfl rfl .rfl)
  | fwAuthorise => exact keeps_of_hostRow hc e (State.doFwAuthorise_keeps rfl rfl .rfl)
  | installKtk => exact keeps_of_hostRow hc e (State.doInstallKtk_keeps rfl rfl .rfl)
  | clearKtk => exact keeps_of_hostRow hc e (State.doClearKtk_keeps rfl rfl .rfl)
  | controlReadOversize => exact execControlReadOversize_keeps rfl .rfl e
  | snapRead => exact execSnapRead_keeps .rfl e
  | snapLatchExpiry => exact execSnapLatchExpiry_keeps .rfl e
  | clusterCommitApply => exact execClusterCommitApply_keeps rfl rfl rfl rfl rfl rfl .rfl e
  | deferredCommitApply => exact execDeferredCommitApply_keeps rfl rfl rfl rfl rfl rfl .rfl e
  | intakeWrite => exact execIntakeWrite_keeps rfl rfl .rfl e
  | laneStallTimeout => exact execLaneStallTimeout_keeps rfl .rfl e
  | take => exact execTake_keeps rfl rfl .rfl e
  | creditWrite => exact execCreditWrite_keeps .rfl e
  | stepMessageEnd => exact execStepMessageEnd_keeps rfl .rfl e
  | stepChoose => exact execStepChoose_keeps .rfl e
  | stepAdmit => exact execStepAdmit_keeps rfl rfl rfl rfl rfl rfl rfl .rfl e
  | reservationRelease => exact execReservationRelease_keeps .rfl e
  | openCtx => exact execOpenCtx_keeps rfl rfl rfl rfl .rfl e
  | teardown => exact execTeardown_keeps rfl rfl rfl rfl rfl rfl rfl rfl rfl .rfl e
  | teardownDone => exact execTeardownDone_keeps rfl rfl rfl rfl .rfl e
  | setWindow => exact execSetWindow_keeps rfl rfl rfl .rfl e
  | loadKey => exact execLoadKey_keeps rfl rfl .rfl e
  | clearKey => exact execClearKey_keeps rfl rfl .rfl e
  | setAdapter => exact execSetAdapter_keeps rfl rfl rfl .rfl e
  | loadImage => exact execLoadImage_keeps rfl rfl rfl .rfl e
  | imageLoaded => exact execImageLoaded_keeps rfl rfl rfl rfl rfl .rfl e
  | imageSourceRefused => exact execImageSourceRefused_keeps rfl rfl rfl rfl rfl .rfl e
  | completionRecordWrite => exact execCompletionRecordWrite_keeps rfl .rfl e
  | coalesceTimeout => exact execCoalesceTimeout_keeps rfl .rfl e
  | msixPendingSend => exact execMsixPendingSend_keeps rfl .rfl e
  | nop => exact execNop_keeps rfl rfl rfl rfl rfl rfl .rfl e
  | halt => exact execHalt_keeps rfl rfl rfl rfl rfl rfl .rfl e
  | twait => exact execTwait_keeps rfl rfl rfl rfl rfl rfl .rfl e
  | tsignal => exact execTsignal_keeps rfl rfl rfl rfl rfl rfl .rfl e
  | taddRemote => exact execTaddRemote_keeps rfl rfl rfl rfl rfl rfl .rfl e
  | fence => exact execFence_keeps rfl rfl rfl rfl rfl rfl .rfl e
  | loopD => exact execLoopD_keeps rfl rfl rfl rfl rfl rfl .rfl e
  | endloop => exact execEndloop_keeps rfl rfl rfl rfl rfl rfl .rfl e
  | branchTally => exact execBranchTally_keeps rfl rfl rfl rfl rfl rfl .rfl e
  | call => exact execCall_keeps rfl rfl rfl rfl rfl rfl .rfl e
  | ret => exact execRet_keeps rfl rfl rfl rfl rfl rfl .rfl e
  | stepEnd => exact execStepEnd_keeps rfl rfl rfl rfl rfl rfl .rfl e
  | descriptorStart => exact execDescriptorStart_keeps rfl rfl rfl rfl rfl rfl rfl rfl .rfl e
  | descriptorComplete => exact execDescriptorComplete_keeps rfl rfl rfl rfl .rfl e
  | hubTallySignalLand => exact execHubTallySignalLand_keeps rfl rfl .rfl e
  | collEnterAllReduce => exact execCollEnterAllReduce_keeps rfl rfl rfl rfl rfl rfl .rfl e
  | collEnterReduceScatter => exact execCollEnterReduceScatter_keeps rfl rfl rfl rfl rfl rfl .rfl e
  | collEnterAllGather => exact execCollEnterAllGather_keeps rfl rfl rfl rfl rfl rfl .rfl e
  | collEnterBroadcast => exact execCollEnterBroadcast_keeps rfl rfl rfl rfl rfl rfl .rfl e
  | collEnterPass => exact execCollEnterPass_keeps rfl rfl rfl rfl rfl rfl .rfl e
  | stepCommit => exact execStepCommit_keeps rfl rfl rfl rfl rfl rfl rfl .rfl e
  | stepFail => exact execStepFail_keeps rfl rfl rfl rfl rfl rfl rfl rfl .rfl e
  | stepReplay => exact execStepReplay_keeps rfl rfl rfl rfl rfl rfl rfl .rfl e
  | arbitrationRound => exact execArbitrationRound_keeps rfl rfl .rfl e
  | scrubRead => exact execScrubRead_keeps rfl rfl rfl rfl rfl rfl .rfl e
  | residentRewrite => exact execResidentRewrite_keeps rfl rfl rfl rfl rfl .rfl e
  | coldFrameScrub => exact execColdFrameScrub_keeps rfl rfl .rfl e
  | wipeDone => exact execWipeDone_keeps rfl rfl .rfl e
  | memGroupReceive => exact execMemGroupReceive_keeps rfl rfl rfl rfl rfl rfl rfl .rfl e
  | memOpticalLaneFail => exact execMemOpticalLaneFail_keeps rfl rfl rfl rfl rfl .rfl e
  | memSpareDone => exact execMemSpareDone_keeps rfl rfl .rfl e
  | memLaneRetrain => exact execMemLaneRetrain_keeps rfl rfl rfl rfl .rfl e
  | memLaneUp => exact execMemLaneUp_keeps rfl rfl rfl rfl rfl .rfl e
  | memLaneCtlRetrain => exact execMemLaneCtlRetrain_keeps rfl rfl rfl rfl .rfl e
  | memoryReplyTimeout => exact execMemoryReplyTimeout_keeps rfl rfl rfl rfl .rfl e
  | pageFillDone => exact execPageFillDone_keeps rfl rfl .rfl e
  | mirrorResyncDone => exact execMirrorResyncDone_keeps rfl rfl .rfl e
  | tierScrubRead => exact execTierScrubRead_keeps rfl rfl rfl .rfl e
  | memEvacGo => exact execMemEvacGo_keeps rfl rfl .rfl e
  | memMigrateGo => exact execMemMigrateGo_keeps rfl rfl .rfl e
  | evacPageCopied => exact execEvacPageCopied_keeps rfl rfl .rfl e
  | evacPageDone => exact execEvacPageDone_keeps rfl rfl .rfl e
  | fabricFrameReceive => exact execFabricFrameReceive_keeps rfl .rfl e
  | fabLaneFail => exact execFabLaneFail_keeps rfl rfl rfl rfl rfl .rfl e
  | fabSpareDone => exact execFabSpareDone_keeps rfl rfl .rfl e
  | portLossOfLight => exact execPortLossOfLight_keeps rfl rfl rfl rfl .rfl e
  | portRetrain => exact execPortRetrain_keeps rfl rfl rfl rfl .rfl e
  | portUp => exact execPortUp_keeps rfl rfl .rfl e
  | fabPortRetrain => exact execFabPortRetrain_keeps rfl rfl .rfl e
  | portRetryTimer => exact execPortRetryTimer_keeps rfl rfl rfl rfl .rfl e
  | hello => exact execHello_keeps rfl rfl .rfl e
  | laneChange => exact execLaneChange_keeps rfl rfl rfl rfl rfl .rfl e
  | resetNotice => exact execResetNotice_keeps rfl rfl rfl rfl .rfl e
  | portDark => exact execPortDark_keeps rfl rfl rfl rfl .rfl e
  | discoveryEnd => exact execDiscoveryEnd_keeps rfl rfl rfl rfl .rfl e
  | packetForward => exact execPacketForward_keeps rfl rfl .rfl e
  | write => exact execWrite_keeps rfl rfl rfl rfl .rfl e
  | tadd => exact execTadd_keeps rfl rfl .rfl e
  | circSetup => exact execCircSetup_keeps rfl rfl .rfl e
  | circTeardown => exact execCircTeardown_keeps rfl rfl .rfl e
  | ack => exact execAck_keeps rfl rfl rfl rfl .rfl e
  | replyTimeout => exact execReplyTimeout_keeps rfl rfl rfl rfl .rfl e
  | tagReuseExpiry => exact execTagReuseExpiry_keeps rfl rfl .rfl e
  | swap => exact execSwap_keeps rfl rfl .rfl e
  | swapDrainComplete => exact execSwapDrainComplete_keeps rfl rfl rfl rfl rfl rfl rfl rfl rfl .rfl e
  | drainLimitExpiry => exact execDrainLimitExpiry_keeps rfl rfl rfl rfl rfl rfl rfl rfl rfl .rfl e
  | graceExpiry => exact execGraceExpiry_keeps rfl .rfl e
  | resume => exact execResume_keeps rfl rfl rfl rfl .rfl e
  | portDrainEnd => exact execPortDrainEnd_keeps rfl rfl .rfl e
  | setup => exact execSetup_keeps rfl rfl .rfl e
  | circuitTeardownWrite => exact execCircuitTeardownWrite_keeps rfl rfl .rfl e
  | collectiveReady => exact execCollectiveReady_keeps rfl rfl rfl rfl .rfl e
  | collectiveAdmit => exact execCollectiveAdmit_keeps rfl rfl rfl rfl rfl rfl rfl rfl rfl .rfl e
  | collectiveComplete => exact execCollectiveComplete_keeps rfl rfl rfl .rfl e
  | orderTimeout => exact execOrderTimeout_keeps rfl rfl rfl rfl .rfl e
  | enter => exact execEnter_keeps rfl rfl rfl rfl .rfl e
  | start => exact execStart_keeps rfl rfl rfl rfl rfl rfl rfl rfl rfl .rfl e
  | data => exact execData_keeps rfl rfl rfl rfl rfl rfl rfl rfl rfl .rfl e
  | ready => exact execReady_keeps rfl rfl rfl .rfl e
  | abort => exact execAbort_keeps rfl rfl rfl rfl .rfl e
  | collAck => exact execCollAck_keeps rfl rfl rfl rfl rfl rfl rfl rfl rfl .rfl e
  | enterRetry => exact execEnterRetry_keeps rfl rfl rfl .rfl e
  | readyResend => exact execReadyResend_keeps rfl rfl rfl .rfl e
  | functionLevelReset => exact execFunctionLevelReset_keeps rfl rfl rfl rfl rfl .rfl e
  | flrComplete => exact execFlrComplete_keeps rfl .rfl e
  | hotReset => exact execHotReset_keeps rfl rfl rfl rfl rfl .rfl e
  | linkDown => exact execLinkDown_keeps rfl rfl rfl rfl rfl .rfl e
  | perstNAssert => exact execPerstNAssert_keeps rfl rfl rfl rfl rfl .rfl e
  | perstNRelease => exact execPerstNRelease_keeps rfl .rfl e
  | hostOpticalLaneFail => exact execHostOpticalLaneFail_keeps rfl rfl rfl rfl rfl rfl .rfl e
  | hostTrafficResume => exact execHostTrafficResume_keeps rfl .rfl e
  | hostReadCompletion => exact execHostReadCompletion_keeps rfl rfl rfl rfl rfl .rfl e
  | hostCompletionTimeout => exact execHostCompletionTimeout_keeps rfl rfl rfl rfl rfl .rfl e
  | hostWriteAck => exact execHostWriteAck_keeps rfl rfl .rfl e
  | stagingWrite => exact execStagingWrite_keeps rfl rfl rfl .rfl e
  | stagingRead => exact execStagingRead_keeps rfl rfl rfl .rfl e
  | mctpVdmReceive _ _ body => exact execMctpVdmReceive_keeps (a2 := body) rfl .rfl e
  | setEndpointId => exact execSetEndpointId_keeps rfl .rfl e
  | inputEntersLimits => exact execInputEntersLimits_keeps rfl rfl rfl .rfl e
  | selfTestDone => exact execSelfTestDone_keeps rfl rfl rfl rfl rfl rfl rfl rfl rfl rfl rfl rfl rfl .rfl e
  | configurationChoice => exact execConfigurationChoice_keeps rfl rfl rfl rfl rfl .rfl e
  | sectionsApply => exact execSectionsApply_keeps rfl rfl rfl rfl rfl rfl rfl rfl rfl .rfl e
  | lanesTrained => exact execLanesTrained_keeps rfl rfl rfl rfl rfl rfl .rfl e
  | coldStartDone => exact execColdStartDone_keeps rfl rfl .rfl e
  | reloadMemoryApply => exact execReloadMemoryApply_keeps rfl rfl rfl rfl rfl rfl rfl rfl rfl .rfl e
  | powerTransitionStart => exact execPowerTransitionStart_keeps rfl rfl rfl rfl .rfl e
  | powerTransitionDone => exact execPowerTransitionDone_keeps rfl rfl rfl rfl rfl rfl rfl rfl rfl rfl .rfl e
  | governorUpdate => exact execGovernorUpdate_keeps rfl .rfl e
  | governorExtraUpdate => exact execGovernorExtraUpdate_keeps rfl .rfl e
  | droopStep => exact execDroopStep_keeps rfl .rfl e
  | droopRecover => exact execDroopRecover_keeps rfl .rfl e
  | thermalTrip => exact execThermalTrip_keeps rfl rfl rfl rfl rfl rfl rfl rfl rfl rfl rfl rfl .rfl e
  | coolantMeasure => exact execCoolantMeasure_keeps rfl .rfl e
  | suddenCoolantLoss => exact execSuddenCoolantLoss_keeps rfl .rfl e
  | coolantLossClear => exact execCoolantLossClear_keeps rfl .rfl e
  | mulchControl => exact execMulchControl_keeps rfl .rfl e
  | mulchLow => exact execMulchLow_keeps rfl .rfl e
  | pwrWarnNLow => exact execPwrWarnNLow_keeps rfl .rfl e
  | pwrWarnNRelease => exact execPwrWarnNRelease_keeps rfl .rfl e
  | coolFaultNLow => exact execCoolFaultNLow_keeps rfl .rfl e
  | coolFaultNRelease => exact execCoolFaultNRelease_keeps rfl .rfl e
  | rackHeartbeatLost => exact execRackHeartbeatLost_keeps rfl .rfl e
  | refclkLoss => exact execRefclkLoss_keeps rfl rfl rfl rfl rfl rfl .rfl e
  | refclkReturn => exact execRefclkReturn_keeps rfl rfl rfl rfl rfl rfl .rfl e
  | stageStall => exact execStageStall_keeps rfl rfl rfl rfl rfl rfl rfl rfl rfl .rfl e
  | clusterResetDone => exact execClusterResetDone_keeps rfl rfl rfl .rfl e
  | quadrantResetDone => exact execQuadrantResetDone_keeps rfl rfl rfl rfl .rfl e
  | spineStall => exact execSpineStall_keeps rfl rfl rfl rfl rfl rfl rfl rfl rfl .rfl e
  | computeResetDone => exact execComputeResetDone_keeps rfl rfl rfl rfl .rfl e
  | resetTimeout => exact execResetTimeout_keeps rfl rfl rfl rfl rfl rfl rfl rfl rfl .rfl e
  | stepBudget => exact execStepBudget_keeps rfl rfl rfl rfl rfl rfl rfl rfl rfl .rfl e
  | hubStall => exact execHubStall_keeps rfl rfl rfl rfl rfl rfl rfl .rfl e
  | recoveryDone => exact execRecoveryDone_keeps rfl rfl rfl rfl rfl rfl rfl rfl rfl rfl rfl rfl rfl rfl .rfl e
  | spareBringIn => exact execSpareBringIn_keeps rfl rfl rfl rfl rfl .rfl e
  | spareIn => exact execSpareIn_keeps rfl rfl rfl rfl rfl rfl .rfl e
  | selftestDone => exact execSelftestDone_keeps rfl rfl rfl rfl rfl rfl rfl .rfl e
  | deadMan => exact execDeadMan_keeps rfl rfl rfl rfl rfl rfl rfl rfl rfl rfl rfl rfl .rfl e
  | installDone => exact execInstallDone_keeps rfl rfl rfl .rfl e
  | microcodeLoad => exact execMicrocodeLoad_keeps rfl rfl .rfl e
  | graftWindowExpiry => exact execGraftWindowExpiry_keeps rfl rfl .rfl e
  | begin => exact execBegin_keeps rfl rfl .rfl e
  | block => exact execBlock_keeps rfl rfl rfl .rfl e
  | seedEnd => exact execSeedEnd_keeps rfl rfl rfl rfl .rfl e
  | seedAbort => exact execSeedAbort_keeps rfl rfl rfl .rfl e
  | tamper => exact execTamper_keeps rfl rfl rfl .rfl e
  | getVersion => exact execGetVersion_keeps .rfl e
  | getCapabilities => exact execGetCapabilities_keeps .rfl e
  | negotiateAlgorithms => exact execNegotiateAlgorithms_keeps .rfl e
  | getDigests => exact execGetDigests_keeps .rfl e
  | getCertificate => exact execGetCertificate_keeps .rfl e
  | challenge => exact execChallenge_keeps .rfl e
  | getMeasurements => exact execGetMeasurements_keeps .rfl e
  | spdmSignatureDone => exact execSpdmSignatureDone_keeps .rfl e
  | entdaa => exact execEntdaa_keeps .rfl e
  | setdasa => exact execSetdasa_keeps .rfl e
  | i3cMctpReceive msgType body => exact execI3cMctpReceive_keeps (a0 := msgType) (a1 := body) .rfl e
  | getPdrRepositoryInfo => exact execGetPdrRepositoryInfo_keeps .rfl e
  | getPdr => exact execGetPdr_keeps .rfl e
  | getSensorReading => exact execGetSensorReading_keeps .rfl e
  | getStateSensorReadings => exact execGetStateSensorReadings_keeps .rfl e
  | setNumericEffecterValue => exact execSetNumericEffecterValue_keeps rfl .rfl e
  | getNumericEffecterValue => exact execGetNumericEffecterValue_keeps .rfl e
  | pollForPlatformEventMessage => exact execPollForPlatformEventMessage_keeps .rfl e
  | pldmFirmwareUpdate => exact execPldmFirmwareUpdate_keeps rfl rfl rfl rfl .rfl e
  | activateFirmware => exact execActivateFirmware_keeps rfl rfl rfl .rfl e
  | timeSyncRequestSend => exact execTimeSyncRequestSend_keeps rfl .rfl e
  | timeSyncRequest => exact execTimeSyncRequest_keeps rfl .rfl e
  | timeSyncResponse => exact execTimeSyncResponse_keeps rfl rfl .rfl e
  | holdover => exact execHoldover_keeps rfl .rfl e
  | becomeRoot => exact execBecomeRoot_keeps rfl .rfl e
  | logEntryWrite => exact execLogEntryWrite_keeps rfl .rfl e
  | logGap => exact execLogGap_keeps rfl .rfl e
  | logMirrorCopy => exact execLogMirrorCopy_keeps rfl rfl .rfl e
  | configurationRequest => exact execConfigurationRequest_keeps rfl rfl rfl rfl rfl .rfl e
  | lightReturns => exact execLightReturns_keeps rfl rfl rfl rfl .rfl e
  | hostSpareDone => exact execHostSpareDone_keeps rfl .rfl e
  | replayTimer => exact execReplayTimer_keeps .rfl e
  | safeRestartTimeout => exact execSafeRestartTimeout_keeps rfl .rfl e
  | tckRisingEdge => exact execTckRisingEdge_keeps rfl .rfl e
  | trstN => exact execTrstN_keeps rfl .rfl e

end Sys2Proof.Machine
end

section
/-! SUPPORT. Reading back what was written to a slice or a pad (R253, R258). -/

namespace Sys2Proof.Machine

open Sys2Proof.Safety

/-- A cluster's slices, and its pads, stand one after another in their store. -/
theorem localKey (p : Nat) (sl : Bool) (o : Nat) : (if sl then sliceKey p o else padKey p o) = p * localSize sl + o := by
  cases sl <;> simp [sliceKey, padKey, localSize]

theorem State.localRead_eq (s : State) (p : Nat) (sl : Bool) (o n : Nat) :
    s.localRead p sl o n =
      if sl then mread sliceDefault s.slice (p * localSize sl + o) n else mread s.padDefault s.pad (p * localSize sl + o) n := by
  rw [← localKey]
  cases sl <;> simp [State.localRead]

theorem State.localWrite_slice (s : State) (p : Nat) (sl : Bool) (o : Nat) (data : Bytes) :
    (s.localWrite p sl o data).slice = if sl then mwrite sliceDefault s.slice (p * localSize sl + o) data else s.slice := by
  rw [← localKey]
  cases sl <;> rfl

theorem State.localWrite_pad (s : State) (p : Nat) (sl : Bool) (o : Nat) (data : Bytes) :
    (s.localWrite p sl o data).pad = if sl then s.pad else mwrite s.padDefault s.pad (p * localSize sl + o) data := by
  rw [← localKey]
  cases sl <;> rfl

/-- A write of a slice or pad leaves the clusters, and with them what an unlisted pad byte reads as. -/
theorem State.localWrite_padDefault (s : State) (p : Nat) (sl : Bool) (o : Nat) (data : Bytes) :
    (s.localWrite p sl o data).padDefault = s.padDefault := by
  cases sl <;> rfl

/-- Two ranges apart, of one cluster or of two. -/
theorem keys_apart {size p q o x m n : Nat} (hm : o + m ≤ size) (hn : x + n ≤ size) (h : q ≠ p ∨ x + n ≤ o ∨ o + m ≤ x) :
    q * size + x + n ≤ p * size + o ∨ p * size + o + m ≤ q * size + x := by
  rcases Nat.lt_trichotomy q p with hlt | rfl | hlt
  · have := Nat.mul_le_mul_right size (Nat.succ_le_of_lt hlt)
    rw [Nat.succ_mul] at this
    omega
  · omega
  · have := Nat.mul_le_mul_right size (Nat.succ_le_of_lt hlt)
    rw [Nat.succ_mul] at this
    omega

theorem State.localRead_localWrite_same (s : State) (p : Nat) (sl : Bool) (o : Nat) (data : Bytes) :
    (s.localWrite p sl o data).localRead p sl o data.length = data := by
  rw [State.localRead_eq, State.localWrite_slice, State.localWrite_pad, State.localWrite_padDefault]
  cases sl <;> exact mread_mwrite_same _ _ _ _

theorem State.localRead_localWrite_apart (s : State) {p q : Nat} {sl : Bool} {o x n : Nat} {data : Bytes}
    (hw : o + data.length ≤ localSize sl) (hr : x + n ≤ localSize sl) (h : q ≠ p ∨ x + n ≤ o ∨ o + data.length ≤ x) :
    (s.localWrite p sl o data).localRead q sl x n = s.localRead q sl x n := by
  have hk := keys_apart hw hr h
  rw [State.localRead_eq, State.localRead_eq, State.localWrite_slice, State.localWrite_pad, State.localWrite_padDefault]
  cases sl <;> exact mread_mwrite_apart _ _ _ _ _ _ hk

theorem State.localRead_localWrite_other (s : State) (p q : Nat) (sl : Bool) (o x n : Nat) (data : Bytes) :
    (s.localWrite p sl o data).localRead q (!sl) x n = s.localRead q (!sl) x n := by
  rw [State.localRead_eq, State.localRead_eq, State.localWrite_slice, State.localWrite_pad, State.localWrite_padDefault]
  cases sl <;> rfl

end Sys2Proof.Machine
end

section
/-! SUPPORT. What owner commands write: the end of a command, the start of a wipe, the Roles partition and a key slot (R301 to R304, R762,
R781 to R789). -/

namespace Sys2Proof.Machine

open Sys2Proof.Safety

/-! ## The end of a command (R781, R801) -/

/-- No register of SEC is one of an event. -/
theorem State.reg_raiseEvent_sec (s : State) (c x d : Nat) {a : Nat} (h : 0xB00000 ≤ a) (h' : a < 0xC00000) :
    (s.raiseEvent c x d).reg a = s.reg a :=
  s.reg_raiseEvent c x d (by omega) (by omega) (Nat.ne_of_gt (Nat.lt_of_lt_of_le (by decide) h))

theorem State.fld_raiseEvent_sec (s : State) (c x d : Nat) {f : Fld} (h : 0xB00000 ≤ f.reg) (h' : f.reg < 0xC00000) :
    (s.raiseEvent c x d).fld f = s.fld f := by
  simp [State.fld, s.reg_raiseEvent_sec c x d h h']

/-- The registers of SEC at the end of a command: a fresh nonce and an empty mailbox, then the command and its result. -/
theorem State.reg_endOwner (s : State) (code res : Nat) {a : Nat} (h : 0xB00000 ≤ a) (h' : a < 0xC00000) :
    (s.endOwner code res).reg a =
      ((({ s with regs := mclear (s.setReg F.SEC_NONCE_NONCE.reg s.free).regs mboxBase 0x10000 } : State).setFld
        F.SEC_CMD_STATUS_COMMAND code).setFld F.SEC_CMD_STATUS_RESULT res).reg a := by
  unfold State.endOwner
  dsimp only
  split
  · rfl
  · exact State.reg_raiseEvent_sec _ _ _ _ h h'

theorem State.fld_endOwner (s : State) (code res : Nat) {f : Fld} (h : 0xB00000 ≤ f.reg) (h' : f.reg < 0xC00000) :
    (s.endOwner code res).fld f =
      ((({ s with regs := mclear (s.setReg F.SEC_NONCE_NONCE.reg s.free).regs mboxBase 0x10000 } : State).setFld
        F.SEC_CMD_STATUS_COMMAND code).setFld F.SEC_CMD_STATUS_RESULT res).fld f := by
  simp only [State.fld, s.reg_endOwner code res h h']

theorem State.command_endOwner (s : State) {code : Nat} (res : Nat) (h : code < 65536) :
    (s.endOwner code res).fld F.SEC_CMD_STATUS_COMMAND = code := by
  rw [State.fld_endOwner _ _ _ (by decide) (by decide), State.fld_setFld_apart _ _ (by decide), State.fld_setFld_same _ _ _ (by decide)]
  exact Nat.mod_eq_of_lt h

theorem State.result_endOwner (s : State) (code : Nat) {res : Nat} (h : res < 256) :
    (s.endOwner code res).fld F.SEC_CMD_STATUS_RESULT = res := by
  rw [State.fld_endOwner _ _ _ (by decide) (by decide), State.fld_setFld_same _ _ _ (by decide)]
  exact Nat.mod_eq_of_lt h

theorem State.nonce_endOwner (s : State) (code res : Nat) :
    (s.endOwner code res).reg F.SEC_NONCE_NONCE.reg = Config.freeValue s.freeCtr := by
  rw [State.reg_endOwner _ _ _ (by decide) (by decide), State.reg_setFld_ne _ _ (by decide), State.reg_setFld_ne _ _ (by decide)]
  refine (mget_mclear_out _ _ _ _ _ ?_).trans (s.reg_setReg_same _ _)
  exact .inl (by decide)

theorem State.mailbox_endOwner (s : State) (code res : Nat) {a : Nat} (h : mboxBase ≤ a) (h' : a < mboxBase + 0x10000) :
    (s.endOwner code res).reg a = regDefault a := by
  have hm : 0xB10000 ≤ a := h
  have hm' : a < 0xB20000 := h'
  have hstatus : a ≠ 0xB00010 := by omega
  rw [State.reg_endOwner _ _ _ (by omega) (by omega), State.reg_setFld_ne _ _ hstatus, State.reg_setFld_ne _ _ hstatus]
  exact mget_mclear_in _ _ _ _ _ ⟨h, h'⟩

/-! ## A wipe begins (R301, R303, R304, R842) -/

/-- What every change of the ring and every write of a register of LOG keeps, an entry written into the ring keeps. -/
theorem State.writeEntry_ind (P : State → Prop) (hr : ∀ t a v, 0xD00000 ≤ a → P t → P (t.setReg a v))
    (hl : ∀ t r, P t → P { t with log := { t.log with ring := r } }) {s : State} (e : LogPend) (h : P s) : P (s.writeEntry e) := by
  unfold State.writeEntry
  extract_lets q body link l s1 s2 s3
  have h2 : P s2 := by
    refine hr _ _ _ ?_ (hr _ _ _ ?_ (hr _ _ _ ?_ (hl _ _ h))) <;> decide
  have h3 : P s3 := by
    unfold s3
    split
    · exact hr _ _ _ (by decide) h2
    · exact h2
  split
  · exact h3
  · exact hr _ _ _ (by decide) h3

/-- What each of them keeps, the entries written as a wipe begins keep together. -/
theorem State.flushLog_ind (P : State → Prop) (hr : ∀ t a v, 0xD00000 ≤ a → P t → P (t.setReg a v))
    (hl : ∀ t r, P t → P { t with log := { t.log with ring := r } }) {s : State} (h : P { s with log := { s.log with queue := [] } }) :
    P s.flushLog :=
  List.foldlRecOn s.log.queue State.writeEntry h fun _ ht e _ => State.writeEntry_ind P hr hl e ht

theorem State.reg_flushLog (s : State) {a : Nat} (h : a < 0xD00000) : s.flushLog.reg a = s.reg a :=
  State.flushLog_ind (·.reg a = s.reg a) (fun t _ v hx ht => (t.reg_setReg_ne v (Nat.ne_of_lt (Nat.lt_of_lt_of_le h hx))).trans ht)
    (fun _ _ ht => ht) rfl

theorem State.queue_flushLog (s : State) : s.flushLog.log.queue = [] :=
  State.flushLog_ind (·.log.queue = []) (fun _ _ _ _ ht => ht) (fun _ _ ht => ht) rfl

/-- The wipe that begins, where none is in progress. -/
theorem State.startWipe_of_none {s : State} (n : Nat) (h : s.cold.wiping = none) :
    s.startWipe n = ({ s.flushLog with
      disp := { s.flushLog.disp with keys := [] }
      log := { s.flushLog.log with ring := [] }
      cold := { s.flushLog.cold with identity := none, wiped := true, eraseDue := true, wiping := some (2 ^ n) } } : State).setFld
        F.SEC_CF_STATUS_WIPE_BUSY 1 := by
  unfold State.startWipe
  rw [h]

/-- The wipe in progress takes the cause. -/
theorem State.startWipe_of_some {s : State} (n : Nat) {c : Nat} (h : s.cold.wiping = some c) :
    s.startWipe n = { s with cold := { s.cold with wiping := some (c ||| 2 ^ n) } } := by
  unfold State.startWipe
  rw [h]

/-- A wipe begun writes no register below those of LOG but SEC_CF_STATUS. -/
theorem State.reg_startWipe (s : State) (n : Nat) {a : Nat} (h : a < 0xD00000) (h' : a ≠ F.SEC_CF_STATUS_WIPE_BUSY.reg) :
    (s.startWipe n).reg a = s.reg a := by
  cases hw : s.cold.wiping with
  | none =>
    rw [State.startWipe_of_none n hw, State.reg_setFld_ne _ _ h']
    exact s.reg_flushLog h
  | some c => rw [State.startWipe_of_some n hw]; rfl

/-! ## Effects (R61, R762, R782, R783, R789) -/

/-- A write of the active controller under the current epoch reaches the Roles partition (R296, R297). -/
theorem State.roles_putRoles (s : State) (origin : Nat) (es : List Bytes) : (s.putRoles origin es).cold.roles = es := by
  unfold State.putRoles
  split
  · assumption
  · refine (congrArg (·.roles) ((State.logChange_keeps (k := { regs := false }) rfl .rfl).cold rfl)).trans ?_
    unfold State.frameWrite
    rw [if_neg (by decide), if_pos (.inl rfl)]

theorem State.keySlot_setKeySlot_same (s : State) (n : Nat) (k : KeySlot) : (s.setKeySlot n k).keySlot n = k := mget_mset_same _ _ _ _

/-- The entry of a key change leaves the keys. -/
theorem State.keySlot_logKey (s : State) (o n m : Nat) (k : KeySlot) : (s.logKey o n k).keySlot m = s.keySlot m := by
  obtain ⟨hkeys, -⟩ := (State.logKey_keeps (k := { regs := false }) (a1 := o) (a2 := n) (a3 := k) rfl (.rfl (m := s))).keys rfl
  simp only [State.keySlot, hkeys]

/-- R61 has no step to a life-cycle state above 4. -/
theorem lifeStep_lt {old new : Nat} (h : lifeStep old new = true) : new < 8 := by
  simp only [lifeStep, Bool.or_eq_true, Bool.and_eq_true, decide_eq_true_eq] at h
  omega

/-- The fuse that burns shows through the entry, the event and the wipe that follow. -/
theorem State.lifecycle_lifecycleEffect {w : Agent} {s : State} {b : Bytes} (h : s.lifeOk (numAt b 0 1) = true) :
    (s.lifecycleEffect w b).1.lifecycle = numAt b 0 1 := by
  have hlt : numAt b 0 1 < 8 := by
    simp only [State.lifeOk, Bool.and_eq_true] at h
    obtain ⟨⟨⟨hstep, -⟩, -⟩, -⟩ := h
    exact lifeStep_lt hstep
  unfold State.lifecycleEffect
  dsimp only
  rw [if_pos h]
  refine (congrArg (fieldGet · _ _) (State.reg_startWipe _ _ (by decide) (by decide))).trans ?_
  refine (State.fld_raiseEvent_below _ _ _ _ (by decide)).trans ((State.fld_logChange _ _ _ _ _ _ (by decide)).trans ?_)
  rw [State.fld_setFld_same _ _ _ (by decide)]
  exact Nat.mod_eq_of_lt hlt

end Sys2Proof.Machine
end

section
/-! SUPPORT. The rounds of arbiters, the scrubber of slices, pads and key slots, resident repairs and the end of a wipe (R266, R280, R281,
R300, R303). -/

namespace Sys2Proof.Machine

open Sys2Proof.Safety

theorem exec_arbitrationRound_memLane {s : State} {k : Nat} (raised : List Nat) (h : k < 16) :
    exec (.arbitrationRound (.memLane k) raised) s = .next (s.arbRound (.memLane k) raised).1 :=
  congrArg Host.Outcome.next (if_pos h)

theorem exec_arbitrationRound_slice {s : State} {p b : Nat} (raised : List Nat) (hp : p < 264) (hb : b < 64) :
    exec (.arbitrationRound (.slice p b) raised) s = .next (s.bankRound p (.slice p b) raised) :=
  congrArg Host.Outcome.next (if_pos ⟨hp, hb⟩)

theorem exec_arbitrationRound_padEngine {s : State} {p b : Nat} (raised : List Nat) (hp : p < 264) (hb : b < 16) :
    exec (.arbitrationRound (.padEngine p b) raised) s = .next (s.bankRound p (.padEngine p b) raised) :=
  congrArg Host.Outcome.next (if_pos ⟨hp, hb⟩)

theorem exec_arbitrationRound_padBarrow {s : State} {p b : Nat} (raised : List Nat) (hp : p < 264) (hb : b < 16) :
    exec (.arbitrationRound (.padBarrow p b) raised) s = .next (s.bankRound p (.padBarrow p b) raised) :=
  congrArg Host.Outcome.next (if_pos ⟨hp, hb⟩)

theorem exec_arbitrationRound_plane {s : State} {p : Nat} (reply : Bool) (raised : List Nat) (hp : p < 32) :
    exec (.arbitrationRound (.plane p reply) raised) s = .next (s.planeRound p reply) :=
  congrArg Host.Outcome.next (if_pos hp)

theorem exec_arbitrationRound_slot {s : State} {p : Nat} (raised : List Nat) (hp : p < 32) :
    exec (.arbitrationRound (.slot p) raised) s = .next (s.slotRound p) :=
  congrArg Host.Outcome.next (if_pos hp)

/-! ## The scrubber (R280, R300) -/

/-- The number of a bank of a cluster, those of the pad after those of the slice. -/
def bankIndex (pad : Bool) (bank : Nat) : Nat := if pad then 64 + bank else bank

/-- The row that the scrubber reads next in a bank. -/
def State.scrubRow (s : State) (p b : Nat) : Nat := mget (fun _ => 0) (s.clu p).scrubNext b

/-- The row of a bank read, the next one comes next, and after the last row the first. -/
def State.scrubOn (s : State) (p : Nat) (pad : Bool) (b : Nat) : State :=
  s.setClu p { s.clu p with scrubNext := mset (fun _ => 0) (s.clu p).scrubNext b ((s.scrubRow p b + 1) % scrubRows pad) }

theorem exec_scrubRead {s : State} {p bank : Nat} {pad : Bool} (hp : p < 264) (hb : bank < if pad then 16 else 64) (hc : s.cluOn = true)
    (he : s.cfld p F.CLU_SCRUB_CFG_ENABLE = 1)
    (hon : s.bankCfg p (bankIndex pad bank) = 0 ∨ bankIndex pad bank ∈ (s.clu p).awake) :
    exec (.scrubRead p pad bank) s = .next
      (if pad then
        ((s.scrubOn p pad (bankIndex pad bank)).scrubGranule p pad (scrubOffset pad bank (s.scrubRow p (bankIndex pad bank)))).scrubGranule
          p pad (scrubOffset pad bank (s.scrubRow p (bankIndex pad bank)) + 64)
      else
        (s.scrubOn p pad (bankIndex pad bank)).scrubGranule p pad (scrubOffset pad bank (s.scrubRow p (bankIndex pad bank)))) := by
  refine congrArg Host.Outcome.next ((if_neg ?_).trans (if_neg ?_))
  · rintro (h | h | h | h)
    · omega
    · exact absurd hb (Nat.not_lt.2 h)
    · exact Bool.noConfusion (hc.symm.trans h)
    · exact absurd (he.symm.trans h) (by decide)
  · rintro ⟨h, h'⟩
    exact hon.elim h h'

theorem exec_coldFrameScrub {s : State} (h : s.off = false) :
    exec .coldFrameScrub s = .next ((s.disp.keys.map (·.1)).foldl State.checkKey s) :=
  congrArg Host.Outcome.next (if_neg (by simp [h]))

/-! ## Resident repairs (R281) -/

/-- A repair done is wanted no more. -/
def State.dropRepair (s : State) (p o : Nat) : State :=
  { s with ras := { s.ras with repairs := s.ras.repairs.filter fun r => decide (r ≠ (p, o)) } }

theorem exec_residentRewrite {s s1 : State} {p o line : Nat} (hr : s.ras.repairs.contains (p, o) = true) (hs : s.inService = true)
    (hc : s.cluOn = true) (hl : ((s.logicalAt p).bind fun l => s.masterLine l o) = some line)
    (hcopy : copyLine p line o (s, .going) = (s1, .going)) :
    exec (.residentRewrite p o) s = .next
      (((s1.dropRepair p o).setCfld p F.CLU_MEM_ERR_RESIDENT_REPAIR 1).raiseEvent 0x08 p (bankCode true o)) := by
  refine congrArg Host.Outcome.next ?_
  unfold State.doResidentRewrite
  rw [if_pos ⟨hr, hs, hc⟩]
  simp only [hl, hcopy]
  rfl

/-- An event writes no register of a cluster's window. -/
theorem State.cfld_raiseEvent (s : State) (c x d p : Nat) (f : Fld) : (s.raiseEvent c x d).cfld p f = s.cfld p f := by
  have h : 0x1000000 ≤ (f.clu p).reg := by simp [Fld.clu]; omega
  exact s.fld_raiseEvent c x d (by omega) (by omega) (Nat.ne_of_gt (Nat.lt_of_lt_of_le (by decide) h))

/-! ## The end of a wipe (R303) -/

/-- The causes of a wipe shown, and its count. -/
def State.showWipe (s : State) (c : Nat) : State :=
  ((((s.addSat F.SEC_CF_STATUS_WIPE_COUNT 1).setFld F.SEC_CF_STATUS_CAUSE_TAMPER (c % 2)).setFld
    F.SEC_CF_STATUS_CAUSE_LIFECYCLE (c / 2 % 2)).setFld F.SEC_CF_STATUS_CAUSE_OWNER (c / 4 % 2)).setFld F.SEC_CF_STATUS_WIPE_BUSY 0

theorem State.showWipe_fields (s : State) (c : Nat) :
    (s.showWipe c).fld F.SEC_CF_STATUS_WIPE_BUSY = 0 ∧ (s.showWipe c).fld F.SEC_CF_STATUS_CAUSE_TAMPER = c % 2 ∧
      (s.showWipe c).fld F.SEC_CF_STATUS_CAUSE_LIFECYCLE = c / 2 % 2 ∧ (s.showWipe c).fld F.SEC_CF_STATUS_CAUSE_OWNER = c / 4 % 2 := by
  unfold State.showWipe
  refine ⟨?busy, ?tamper, ?lifecycle, ?owner⟩
  case busy => rw [State.fld_setFld_same _ _ _ (by decide)]; rfl
  case tamper =>
    rw [State.fld_setFld_apart _ _ (by decide), State.fld_setFld_apart _ _ (by decide), State.fld_setFld_apart _ _ (by decide),
      State.fld_setFld_same _ _ _ (by decide)]
    exact Nat.mod_mod _ _
  case lifecycle =>
    rw [State.fld_setFld_apart _ _ (by decide), State.fld_setFld_apart _ _ (by decide), State.fld_setFld_same _ _ _ (by decide)]
    exact Nat.mod_mod _ _
  case owner =>
    rw [State.fld_setFld_apart _ _ (by decide), State.fld_setFld_same _ _ _ (by decide)]
    exact Nat.mod_mod _ _

/-- The end of a wipe: the roles erased, the frame free again, and the causes shown. -/
def State.wipeEnded (s : State) (c : Nat) : State :=
  ({ s.putRoles orHw [] with cold := { (s.putRoles orHw []).cold with wiping := none, eraseDue := false } } : State).showWipe c

theorem State.wipeEnded_cold (s : State) (c : Nat) : (s.wipeEnded c).cold.wiping = none ∧ (s.wipeEnded c).cold.eraseDue = false :=
  ⟨rfl, rfl⟩

/-- The WIPE entry put before those of the changes made meanwhile. -/
def State.logWipe (s : State) (c : Nat) : State :=
  { s with log := { s.log with queue :=
      { time := s.stepClock, wall := s.wall, origin := orHw, cls := 0x13, object := 0, old := logValue 0, new := logValue c } ::
        s.log.queue } }

theorem State.logWipe_cold (s : State) (c : Nat) : (s.logWipe c).cold = s.cold := rfl

theorem State.logWipe_fld (s : State) (c : Nat) (f : Fld) : (s.logWipe c).fld f = s.fld f := rfl

theorem exec_wipeDone {s : State} {c : Nat} (hw : s.cold.wiping = some c) (h : s.off = false) :
    exec .wipeDone s = .next (((s.wipeEnded c).logWipe c).raiseEvent 0x25 0 c) := by
  refine congrArg Host.Outcome.next ?_
  unfold State.doWipeDone
  rw [hw]
  exact if_neg (by simp [h])

/-- The event at the end of a wipe leaves the cold frame and the registers of SEC. -/
theorem State.cold_wipeDone (s : State) (c : Nat) : (((s.wipeEnded c).logWipe c).raiseEvent 0x25 0 c).cold = (s.wipeEnded c).cold :=
  (State.raiseEvent_frame (·.cold) (fun _ _ _ => rfl) (fun _ _ => rfl) (fun _ _ => rfl) _ _ _ _).trans (State.logWipe_cold _ _)

theorem State.fld_wipeDone (s : State) (c : Nat) {f : Fld} (h : 0xB00000 ≤ f.reg) (h' : f.reg < 0xC00000) :
    (((s.wipeEnded c).logWipe c).raiseEvent 0x25 0 c).fld f = (s.wipeEnded c).fld f :=
  (State.fld_raiseEvent_sec _ _ _ _ h h').trans (State.logWipe_fld _ _ _)

end Sys2Proof.Machine
end

section
/-! SUPPORT. The commits that wait, through the values of a set in place: nothing that a change of the mirror setting, of a power limit,
of a group or of a bank does at that instant adds a commit or takes one away. -/

namespace Sys2Proof.Machine

open Sys2Proof.Safety

theorem State.commits_foldl {α : Type} {f : State → α → State} {l : List α} {s : State} (h : ∀ t x, (f t x).commits = t.commits) :
    (l.foldl f s).commits = s.commits :=
  List.foldlRecOn l f (motive := fun t : State => t.commits = s.commits) rfl fun t ht x _ => (h t x).trans ht

theorem State.commits_ite {p : Prop} [Decidable p] {s t u : State} (ht : t.commits = s.commits) (hu : u.commits = s.commits) :
    (if p then t else u).commits = s.commits := by
  split <;> assumption

theorem State.logChange_commits (s : State) (o c b : Nat) (x y : Bytes) : (s.logChange o c b x y).commits = s.commits :=
  State.logChange_frame (·.commits) (fun _ _ _ => rfl) (fun _ _ => rfl) s o c b x y

theorem State.raiseEvent_commits (s : State) (c x d : Nat) : (s.raiseEvent c x d).commits = s.commits :=
  State.raiseEvent_frame (·.commits) (fun _ _ _ => rfl) (fun _ _ => rfl) (fun _ _ => rfl) s c x d

theorem State.noteCommit_commits (t s : State) (o b : Nat) (set : Store Stage) : (t.noteCommit s o b set).commits = t.commits :=
  State.noteCommit_frame (·.commits) State.logChange_commits t s o b set

theorem State.withSet_commits (s : State) (set : Store Stage) : (s.withSet set).commits = s.commits := by
  unfold State.withSet State.putChanges
  exact State.commits_foldl fun _ _ => rfl

/-! ## The mirror setting (R409, R415) -/

theorem State.coverRetired_commits (s : State) : s.coverRetired.commits = s.commits := by
  have hcopy (a : State × Bool) (m : Nat) (c : Nat × Bool) :
      (if a.2 then a.1.coverCopy m c else a).1.commits = a.1.commits := by
    split
    · unfold State.coverCopy; split <;> rfl
    · rfl
  have hcopies (t : State) (m : Nat) (l : List (Nat × Bool)) :
      (l.foldl (fun (a : State × Bool) c => if a.2 then a.1.coverCopy m c else a) (t, true)).1.commits = t.commits :=
    List.foldlRecOn l _ (motive := fun a : State × Bool => a.1.commits = t.commits) rfl fun a ha c _ => (hcopy a m c).trans ha
  unfold State.coverRetired
  refine State.commits_foldl fun t m => ?_
  dsimp only
  exact State.commits_ite (hcopies t m _) rfl

theorem State.endEvac_commits (s : State) (e : Evac) (st : Nat) : (s.endEvac e st).commits = s.commits := by
  unfold State.endEvac
  dsimp only
  refine State.commits_ite rfl (State.commits_ite ?_ (State.raiseEvent_commits _ _ _ _))
  refine (State.raiseEvent_commits _ _ _ _).trans ((State.logChange_commits _ _ _ _ _ _).trans ?_)
  unfold State.writeRepair State.frameWrite
  exact State.commits_ite (s := s) rfl (State.commits_ite rfl rfl)

theorem State.joinMove_commits (s : State) (mv : PageMove) : (s.joinMove mv).commits = s.commits := by
  unfold State.joinMove
  exact State.commits_ite (State.commits_foldl fun _ _ => rfl) rfl

theorem State.nextPage_commits (s : State) (e : Evac) : (s.nextPage e).commits = s.commits := by
  unfold State.nextPage
  split
  · exact State.endEvac_commits _ _ _
  · split
    · exact State.endEvac_commits _ _ _
    · exact State.joinMove_commits _ _

theorem State.againEvac_commits (s : State) (changed : Nat → Bool) : (s.againEvac changed).commits = s.commits := by
  unfold State.againEvac
  split
  · rfl
  · extract_lets cut s1 todo e1
    have h1 : s1.commits = s.commits := by
      unfold s1
      split <;> rfl
    exact State.commits_ite ((State.nextPage_commits _ _).trans h1) h1

theorem State.checkTiers_commits (s : State) : s.checkTiers.commits = s.commits := by
  have hhold (t : State) (k : Nat) : (t.holdTier k).commits = t.commits := by
    unfold State.holdTier
    exact State.commits_ite rfl (State.raiseEvent_commits _ _ _ _)
  unfold State.checkTiers
  extract_lets held m s1 s2
  have h1 : s1.commits = s.commits := State.commits_foldl hhold
  exact State.commits_ite h1 h1

theorem State.markStale_commits (s : State) (new : Bool) : (s.markStale new).commits = s.commits := by
  unfold State.markStale
  exact State.commits_foldl fun _ _ => rfl

theorem State.setMirror_commits (s : State) (v : Nat) : (s.setMirror v).commits = s.commits := by
  unfold State.setMirror
  dsimp only
  refine State.commits_ite rfl ((State.checkTiers_commits _).trans ((State.againEvac_commits _ _).trans
    ((State.coverRetired_commits _).trans ((State.markStale_commits _ _).trans ?_))))
  exact State.commits_foldl (f := State.unwrite) fun _ _ => rfl

/-! ## The values of a set in place -/

theorem State.loseBank_commits (s : State) (p b : Nat) : (s.loseBank p b).commits = s.commits := by
  unfold State.loseBank
  exact State.commits_ite rfl rfl

theorem State.offBanks_commits (t s : State) (p : Nat) : (t.offBanks s p).commits = t.commits := by
  unfold State.offBanks
  refine State.commits_foldl fun u b => ?_
  dsimp only
  refine State.commits_ite rfl ((State.setClu_commits _ _ _).trans (State.commits_ite ((State.loseBank_commits _ _ _).trans ?_) ?_)) <;>
    exact State.commits_ite rfl rfl

theorem State.noteTerms_commits (s : State) : s.noteTerms.commits = s.commits := by
  unfold State.noteTerms
  exact State.commits_ite rfl rfl

theorem State.applySet_commits (s : State) (b : Nat) (set : Store Stage) : (s.applySet b set).commits = s.commits := by
  have hset := s.withSet_commits set
  unfold State.applySet
  dsimp only
  refine State.commits_ite ?mem (State.commits_ite ?pwr (State.commits_ite ?col (State.commits_ite ?tim (State.commits_ite ?clu hset))))
  case mem => exact (State.withSet_commits _ _).trans (State.setMirror_commits _ _)
  case pwr => exact (State.noteTerms_commits _).trans hset
  case col =>
    unfold State.zeroCseq
    refine (State.commits_foldl fun t a => ?_).trans hset
    dsimp only
    exact State.commits_ite rfl rfl
  case tim => exact State.commits_ite hset hset
  case clu => exact (State.offBanks_commits _ _ _).trans hset

theorem State.applySet_staged (s : State) (b : Nat) (set : Store Stage) : (s.applySet b set).staged = s.staged :=
  (State.applySet_keeps (k := { regs := false, clusters := false, slice := false, pad := false, repair := false }) rfl rfl rfl rfl rfl
    .rfl).staged rfl

end Sys2Proof.Machine
end

section
/-! SUPPORT. The commit rows: a set refused, an empty one, one that waits, and commits that waited (R29, R276, R409, R498, R583, R824 to
R827). -/

namespace Sys2Proof.Machine

open Sys2Proof.Safety

/-! ## Refused and empty sets (R29, R825) -/

theorem exec_commit_illegal {s : State} {w : Agent} {b g : Nat} (ha : Accepts s w b) (hg : commitReg b = some g)
    (hl : s.setLegal (s.stagedSet w b) = false) : exec (.commit w b) s = .next ((s.closeLatch w b).setFld (commitRefused g) 1) := by
  have hl' : ¬ (s.closeLatch w b).setLegal ((s.closeLatch w b).stagedSet w b) = true := fun h =>
    Bool.noConfusion (hl.symm.trans ((s.setLegal_closeLatch w b _).symm.trans h))
  refine congrArg Host.Outcome.next ((State.leased_of_holds _ (.inr ha.2)).trans ?_)
  unfold State.doCommit
  rw [if_neg (by simp [hg]), State.gate_open _ ha.1, if_neg hl', State.setRefused, hg]

theorem exec_commit_empty {s : State} {w : Agent} {b g : Nat} (ha : Accepts s w b) (hg : commitReg b = some g)
    (he : s.stagedSet w b = []) :
    exec (.commit w b) s = .next (if s.commitWaits b then s.closeLatch w b else (s.closeLatch w b).setFld (commitPending g) 0) := by
  have he' : (s.closeLatch w b).stagedSet w b = [] := he
  rw [exec_commit_legal ha hg (by rw [he]; rfl), State.commitPart, he', State.setPending, hg]
  rfl

/-! ## Sets that wait (R276, R409, R476, R504, R583) -/

/-- What of a set waits, waits: the writer's set is gone, PENDING shows 1, and the commit is the last of those that wait. -/
theorem State.commitPart_waits {s : State} {w : Agent} {b g : Nat} {atOnce later : Store Stage} (hg : commitReg b = some g)
    (hfab : b ≠ blkFab) (hne : s.stagedSet w b ≠ []) (hcut : s.cutSet b false (s.stagedSet w b) = (atOnce, later))
    (hlater : later ≠ []) :
    (s.commitPart w b false).stagedSet w b = [] ∧ (s.commitPart w b false).fld (commitPending g) = 1 ∧
      (s.commitPart w b false).commits = s.commits ++ [{ block := b, writer := w, group := false, set := later }] := by
  have hstaged : ((s.dropSet w b).applySet b atOnce).staged = (s.dropSet w b).staged := State.applySet_staged _ _ _
  have hcommits : ((s.dropSet w b).applySet b atOnce).commits = s.commits := State.applySet_commits _ _ _
  have hwait (t : State) (hs : t.staged = (s.dropSet w b).staged) (hc : t.commits = s.commits) :
      (t.deferSet w b false later).stagedSet w b = [] ∧ (t.deferSet w b false later).fld (commitPending g) = 1 ∧
        (t.deferSet w b false later).commits = s.commits ++ [{ block := b, writer := w, group := false, set := later }] := by
    have hd : t.deferSet w b false later =
        ({ t with commits := t.commits ++ [{ block := b, writer := w, set := later, group := false }] } : State).setFld
          (commitPending g) 1 := by
      simp only [State.deferSet, State.setPending, hg, hfab, hlater, List.isEmpty_iff, if_false, false_and]
    rw [hd, ← hc]
    exact ⟨(State.stagedSet_of_staged hs w b).trans (s.stagedSet_dropSet w b), State.fld_setFld_same _ _ _ (show 1 < 64 by decide), rfl⟩
  unfold State.commitPart
  simp only [hcut, hne, List.isEmpty_iff, if_false]
  split
  · exact hwait _ ((State.noteCommit_staged _ _ _ _ _).trans hstaged) ((State.noteCommit_commits _ _ _ _ _).trans hcommits)
  · exact hwait _ hstaged hcommits

theorem exec_commit_waits {s : State} {w : Agent} {b g : Nat} {atOnce later : Store Stage} (ha : Accepts s w b) (hg : commitReg b = some g)
    (hfab : b ≠ blkFab) (hne : s.stagedSet w b ≠ []) (hl : s.setLegal (s.stagedSet w b) = true)
    (hcut : (s.closeLatch w b).cutSet b false (s.stagedSet w b) = (atOnce, later)) (hlater : later ≠ []) :
    Does (.commit w b) s fun t => t.stagedSet w b = [] ∧ t.fld (commitPending g) = 1 ∧
      t.commits = s.commits ++ [{ block := b, writer := w, group := false, set := later }] :=
  ⟨_, exec_commit_legal ha hg hl, State.commitPart_waits (s := s.closeLatch w b) hg hfab hne hcut hlater⟩

section
variable {s : State} {w : Agent} {b : Nat} {set : Store Stage}

theorem State.waits_closeLatch (h : s.mustWait b set = true ∨ s.earlierCommit b = true) :
    ((s.closeLatch w b).mustWait b set || (s.closeLatch w b).earlierCommit b) = true := by
  rw [State.mustWait_closeLatch]
  exact Bool.or_eq_true_iff.2 h

/-- Of HST only a new staging window waits. -/
theorem State.cutSet_hst (h : (s.mustWait blkHst set || s.earlierCommit blkHst) = true) :
    s.cutSet blkHst false set =
      (set.filter fun e => !defers blkHst e.1, set.filter fun e => decide (e.1 = F.HST_STAGE_CFG_BASE.reg)) := by
  have hd : (fun e : Nat × Stage => defers blkHst e.1) = fun e => decide (e.1 = F.HST_STAGE_CFG_BASE.reg) := by
    funext e
    simp [defers, blkHst, blkMem, blkCol]
  unfold State.cutSet
  rw [if_neg (by decide), if_pos rfl, if_pos h, hd]

/-- Of MEM only a change of the mirror setting waits. -/
theorem State.cutSet_mem (hm : s.mirrorChanged set = true) (h : (s.mustWait blkMem set || s.earlierCommit blkMem) = true) :
    s.cutSet blkMem false set =
      (set.filter fun e => !(set.filter fun e => decide (e.1 = F.MEM_MIRROR_REGION.reg)).contains e,
        set.filter fun e => decide (e.1 = F.MEM_MIRROR_REGION.reg)) := by
  have hd : (fun e : Nat × Stage => defers blkMem e.1) = fun e => decide (e.1 = F.MEM_MIRROR_REGION.reg) := by
    funext e
    simp [defers, blkHst, blkMem, blkCol]
  unfold State.cutSet
  rw [if_neg (by decide), if_neg (by decide), if_pos rfl, hm, h, hd]
  rfl

/-- Of COL, or of a cluster, a commit of its own waits whole. -/
theorem State.cutSet_whole (hb : b = blkCol ∨ 0x100 ≤ b) (h : (s.mustWait b set || s.earlierCommit b) = true) :
    s.cutSet b false set = ([], set) := by
  have hne : b ≠ blkFab ∧ b ≠ blkHst ∧ b ≠ blkMem := by
    simp only [blkCol, blkFab, blkHst, blkMem] at hb ⊢
    omega
  obtain ⟨hfab, hhst, hmem⟩ := hne
  unfold State.cutSet
  rw [if_neg hfab, if_neg hhst, if_neg hmem, if_pos h]
  rfl

/-- A change of the mirror setting is one of its register. -/
theorem State.mem_of_mirrorChanged (h : s.mirrorChanged set = true) :
    (set.filter fun e => decide (e.1 = F.MEM_MIRROR_REGION.reg)) ≠ [] := by
  intro hnil
  have hout : F.MEM_MIRROR_REGION.reg ∉ set.map (·.1) := by
    intro hmem
    obtain ⟨e, he, hreg⟩ := List.mem_map.1 hmem
    exact List.filter_eq_nil_iff.1 hnil e he (decide_eq_true hreg)
  simp [State.mirrorChanged, State.fld, State.reg_withSet_ne s hout] at h

/-- Of FAB, where no port changes and the flows need not wait, the set applies at once (R66, R476). -/
theorem State.commitPart_fab (hne : s.stagedSet w blkFab ≠ []) (hp : s.portPart (s.stagedSet w blkFab) = [])
    (hf : s.flowsWait = false) :
    s.commitPart w blkFab false = ((s.dropSet w blkFab).applySet blkFab (restPart (s.stagedSet w blkFab))).noteCommit s (originOf w) blkFab
      (s.stagedSet w blkFab) := by
  have hcut : s.cutSet blkFab false (s.stagedSet w blkFab) = (restPart (s.stagedSet w blkFab), []) := by
    unfold State.cutSet
    simp [hp, hf]
  unfold State.commitPart
  simp [hcut, hne, State.deferSet]

end

/-! ## Commits that waited (R276, R409, R476, R504, R583) -/

theorem exec_clusterCommitApply {s : State} {p : Nat} {c : Commit} (ho : s.off = false) (hp : p < 264)
    (hc : s.oldestCommit (blkClu p) = some c) (hm : s.mustWait (blkClu p) c.set = false) :
    exec (.clusterCommitApply p) s = .next (s.applyWaiting c) := by
  refine congrArg Host.Outcome.next ?_
  unfold State.doClusterCommitApply
  rw [hc]
  exact if_pos ⟨ho, hp, hm⟩

theorem exec_deferredCommitApply {s : State} {b : Nat} {c : Commit} (ho : s.off = false) (hb : b < 0x100)
    (hc : s.oldestCommit b = some c) (hm : (if b = blkFab then s.collRuns || !s.inService else s.mustWait b c.set) = false) :
    exec (.deferredCommitApply b) s = .next (s.applyWaiting c) := by
  refine congrArg Host.Outcome.next ?_
  unfold State.doDeferredCommitApply
  rw [hc]
  exact if_pos ⟨ho, hb, hm⟩

/-! ## Groups (R827) -/

/-- A write of GLB_COMMIT_GROUP: its blocks shown, REFUSED cleared where bit 18 is 1, and with GO the blocks committed. -/
theorem exec_commitGroup {s : State} {w : Agent} (v : Word) (ha : Accepts s w blkGlb) :
    exec (.commitGroup w v) s = .next
      (let shown := (s.closeLatch w blkGlb).setFld F.GLB_COMMIT_GROUP_BLOCKS (bitsOf v 14 1)
       let cleared := if v.getLsbD 18 then shown.setFld F.GLB_COMMIT_GROUP_REFUSED 0 else shown
       if v.getLsbD 16 then cleared.commitBlocks w ((namedBlocks (2 * bitsOf v 14 1)).filter fun b => (commitReg b).isSome)
       else cleared) :=
  congrArg Host.Outcome.next ((State.leased_of_holds _ (.inr ha.2)).trans (State.gate_open _ ha.1))

end Sys2Proof.Machine
end

section
/-! The statements about the stores: which commands may write which, what a slice or a pad holds after a write, and what owner commands,
arbiters, scrubs and commits change. -/

namespace Sys2Proof.Machine

open Sys2Proof.Safety

/-- Settles O7: `keptBy` leaves a store open to its writers alone, but for the controllers' timers, which have their own list of arms. -/
theorem storesStayApart : Obligations.StoresStayApart := by
  intro c s t e
  have h := exec_keeps e
  refine ⟨fun hc => h.flash ?_, fun hc => h.cold ?_, fun hc => h.repair ?_, fun hc => h.slots ?_, fun hc => h.tables ?_,
    fun hc => h.tap ?_, fun hc => h.staged ?_, fun hc => h.cfg ?_, fun hc => (exec_keeps_timers hc e).ctl rfl⟩
  all_goals simp [keptBy, hc]

/-- Settles O9. -/
theorem localStoresReadBack : Obligations.LocalStoresReadBack := by
  intro s p sl o data hw
  refine ⟨s.localRead_localWrite_same p sl o data, fun q x n hr h => s.localRead_localWrite_apart hw hr h,
    fun q x n => s.localRead_localWrite_other p q sl o x n data, ?_⟩
  cases sl <;> exact ⟨rfl, rfl, rfl, rfl⟩

/-- Settles O55. By the model's choices SET_ROLES during a wipe ends with STATE (log entry 9), and a wipe that begins has the entries
still waiting written first, so that their queue is empty (log entry 15). -/
theorem ownerEffectsFollowTheRules : Obligations.OwnerEffectsFollowTheRules := by
  refine ⟨?command, ?wipe, fun s n c h => State.startWipe_of_some n h, ?effects⟩
  case command =>
    exact fun s code res hcode hres => ⟨s.command_endOwner res hcode, s.result_endOwner code hres, s.nonce_endOwner code res,
      fun a h h' => s.mailbox_endOwner code res h h'⟩
  case wipe =>
    intro s n h
    rw [State.startWipe_of_none n h]
    exact ⟨rfl, rfl, s.queue_flushLog, rfl, rfl, rfl, State.fld_setFld_same _ _ _ (by decide)⟩
  case effects =>
    intro s w b
    refine ⟨fun h => ?_, fun h => if_pos (Option.isSome_iff_ne_none.2 h), fun h => ?_, fun h => if_pos h, fun h => ?_, fun h => ?_,
      fun h => if_neg h, fun h => ?_, fun h => ?_, fun i h => ?_⟩
    · rw [State.setRolesEffect, if_neg (by simp [h])]
      exact ⟨rfl, s.roles_putRoles _ _⟩
    · rw [State.authoriseEffect, if_neg (Nat.not_le.2 h)]
      exact ⟨rfl, rfl⟩
    · exact if_neg (by simp [h])
    · exact ⟨congrArg Prod.snd (if_pos h), State.lifecycle_lifecycleEffect h⟩
    · rw [State.clearKtkEffect, if_pos h]
      exact ⟨rfl, (State.keySlot_logKey _ _ _ _ _).trans (s.keySlot_setKeySlot_same _ _)⟩
    · simp only [State.installKtkEffect, h]
    · simp only [State.installKtkEffect, h, true_and]
      rw [State.keySlot_logKey, State.keySlot_setKeySlot_same]

/-- Settles O27. The requesters of a memory lane's arbiter are those of log entry 23. -/
theorem arbitersAndScrubsComplete : Obligations.ArbitersAndScrubsComplete := by
  refine ⟨fun s k r => exec_arbitrationRound_memLane r,
    fun s p b r hp hb => ⟨exec_arbitrationRound_padEngine r hp hb, exec_arbitrationRound_padBarrow r hp hb⟩,
    fun s p b r => exec_arbitrationRound_slice r,
    fun s p reply r hp => ⟨exec_arbitrationRound_plane reply r hp, exec_arbitrationRound_slot r hp⟩,
    fun s p bank => exec_scrubRead (pad := false), fun s p bank => exec_scrubRead (pad := true), ?repair,
    fun s => exec_coldFrameScrub, ?wipe⟩
  case repair =>
    intro s s1 p o line _ hr hs hc hl hcopy
    refine ⟨_, exec_residentRewrite hr hs hc hl hcopy, ?_, ?_, ?_⟩
    · exact State.raiseEvent_frame (·.slice) (fun _ _ _ => rfl) (fun _ _ => rfl) (fun _ _ => rfl) _ _ _ _
    · rw [State.raiseEvent_frame (·.ras) (fun _ _ _ => rfl) (fun _ _ => rfl) (fun _ _ => rfl)]
      simp [State.setCfld, State.dropRepair]
    · rw [State.cfld_raiseEvent]
      exact State.fld_setFld_same _ _ _ (show 15 < 64 by decide)
  case wipe =>
    intro s c hw h
    refine ⟨_, exec_wipeDone hw h, ?_⟩
    dsimp only
    rw [State.cold_wipeDone, State.fld_wipeDone _ _ (by decide) (by decide), State.fld_wipeDone _ _ (by decide) (by decide),
      State.fld_wipeDone _ _ (by decide) (by decide), State.fld_wipeDone _ _ (by decide) (by decide)]
    obtain ⟨hnone, hdue⟩ := s.wipeEnded_cold c
    exact ⟨hnone, hdue, State.showWipe_fields _ c⟩

/-- Settles O41. By the model's choices a refused set stays staged (log entry 13), and an empty one leaves PENDING to an earlier commit that
still waits (log entry 70). -/
theorem commitsComplete : Obligations.CommitsComplete := by
  refine ⟨?commit, fun s p c ho hp => exec_clusterCommitApply ho hp, fun s b c ho hb => exec_deferredCommitApply ho hb, ?group, ?go⟩
  case commit =>
    intro s w b g ha hg
    refine ⟨?illegal, ?empty, ?fab, ?hst, ?once, ?whole, ?mem⟩
    case illegal =>
      exact fun hl => ⟨_, exec_commit_illegal ha hg hl, State.fld_setFld_same _ _ _ (show 2 < 64 by decide), rfl, rfl,
        (RegsBut.refl _ s).setFld (t := s.closeLatch w b) (f := commitRefused g) _ (List.mem_singleton_self _)⟩
    case empty =>
      refine fun he => ⟨fun hw => ?_, fun hw => ?_⟩
      · rw [exec_commit_empty ha hg he, if_pos hw]
      · refine ⟨_, exec_commit_empty ha hg he, ?_⟩
        rw [if_neg (Bool.eq_false_iff.1 hw)]
        exact ⟨State.fld_setFld_same _ _ _ (show 1 < 64 by decide), rfl, rfl,
          (RegsBut.refl _ s).setFld (t := s.closeLatch w b) (f := commitPending g) _ (List.mem_singleton_self _)⟩
    case fab =>
      rintro hne hl rfl hp hf
      rw [exec_commit_legal ha hg hl, State.commitPart_fab (s := s.closeLatch w blkFab) hne hp hf]
      rfl
    case hst =>
      rintro hne hl rfl hany hwait
      refine exec_commit_waits ha hg (by decide) hne hl (State.cutSet_hst (State.waits_closeLatch hwait)) ?_
      simpa [List.filter_eq_nil_iff] using hany
    case once =>
      intro hne hl hfab hm he
      exact (exec_commit_legal ha hg hl).trans (congrArg _ (State.commitPart_at_once (s := s.closeLatch w b) false hfab hne
        ((s.mustWait_closeLatch w b b _).trans hm) he))
    case whole =>
      intro hne hl hb hwait
      have hfab : b ≠ blkFab := by
        simp only [blkCol, blkFab] at hb ⊢
        omega
      exact exec_commit_waits ha hg hfab hne hl (State.cutSet_whole hb (State.waits_closeLatch hwait)) hne
    case mem =>
      rintro hne hl rfl hm hwait
      have hm' : (s.closeLatch w blkMem).mirrorChanged (s.stagedSet w blkMem) = true := by
        rwa [State.mirrorChanged, State.withSet_closeLatch]
      exact exec_commit_waits ha hg (by decide) hne hl (State.cutSet_mem hm' (State.waits_closeLatch hwait)) (State.mem_of_mirrorChanged hm)
  case group =>
    intro s w v ha hgo
    refine ⟨_, exec_commitGroup v ha, ?_⟩
    have hblocks : ((s.closeLatch w blkGlb).setFld F.GLB_COMMIT_GROUP_BLOCKS (bitsOf v 14 1)).fld F.GLB_COMMIT_GROUP_BLOCKS =
        bitsOf v 14 1 :=
      (State.fld_setFld_same _ _ _ (by decide)).trans (Nat.mod_eq_of_lt (Nat.mod_lt _ (by decide)))
    have hregs : RegsBut [F.GLB_COMMIT_GROUP_BLOCKS.reg] s
        ((s.closeLatch w blkGlb).setFld F.GLB_COMMIT_GROUP_BLOCKS (bitsOf v 14 1)) :=
      (RegsBut.refl _ s).setFld (t := s.closeLatch w blkGlb) _ (List.mem_singleton_self _)
    dsimp only
    rw [if_neg (Bool.eq_false_iff.1 hgo)]
    split
    · exact ⟨(State.fld_setFld_apart _ _ (by decide)).trans hblocks, fun _ => State.fld_setFld_same _ _ _ (by decide), rfl,
        hregs.setFld (f := F.GLB_COMMIT_GROUP_REFUSED) _ (by decide)⟩
    next hclear => exact ⟨hblocks, fun h => absurd h hclear, rfl, hregs⟩
  case go =>
    intro s w v ha hgo hclear
    rw [exec_commitGroup v ha]
    simp only [hgo, hclear, if_true, Bool.false_eq_true, if_false]

end Sys2Proof.Machine
end

section
/-! SUPPORT. Register rows of the contexts' blocks: a gated write that is accepted, words latched one after another, the tally at the
host's hand, and a lane's cells emptied (R341, R348, R368, R375, R847). -/

namespace Sys2Proof.Machine

open Sys2Proof.Safety

theorem State.leased_gate_of_accepts {s : State} {w : Agent} {b : Nat} (f : State → State) (ha : Accepts s w b) :
    s.leased w (fun t => t.gate w b f) = f (s.closeLatch w b) :=
  (State.leased_of_holds _ (.inr ha.2)).trans (State.gate_open _ ha.1)

/-- A gated write to an entry of an array, where the entry exists. -/
theorem State.leased_gate_of_entry {s : State} {w : Agent} {b i n : Nat} (f : State → State) (ha : Accepts s w b) (hi : i < n) :
    s.leased w (fun t => if i < n then t.gate w b f else t) = f (s.closeLatch w b) :=
  (State.leased_of_holds _ (.inr ha.2)).trans ((if_pos hi).trans (State.gate_open _ ha.1))

theorem regsBut_cons {A : List Nat} {s t : State} (a : Nat) (h : RegsBut A s t) : RegsBut (a :: A) s t :=
  fun b hb => h b (List.not_mem_of_not_mem_cons hb)

/-! ## Words latched (R368, R847) -/

section
variable {g : Nat → Nat} {v : State → Nat → Word}

/-- The words `v s i` written at the registers `g i`, one after another. -/
def State.latchWords (g : Nat → Nat) (v : State → Nat → Word) (l : List Nat) (s : State) : State :=
  l.foldl (fun t i => t.setReg (g i) (v t i)) s

theorem State.latchWords_regsBut (l : List Nat) (s : State) : RegsBut (l.map g) s (s.latchWords g v l) := by
  induction l generalizing s with
  | nil => exact .refl [] s
  | cons i l ih =>
    intro a ha
    exact (ih _ a (List.not_mem_of_not_mem_cons ha)).trans (s.reg_setReg_ne _ (List.ne_of_not_mem_cons ha))

theorem State.fld_latchWords {l : List Nat} {f : Fld} (hf : f.reg ∉ l.map g) (s : State) : (s.latchWords g v l).fld f = s.fld f :=
  congrArg (fieldGet · f.hi f.lo) (State.latchWords_regsBut l s _ hf)

/-- Words that no register decides stand in their registers, where each has one of its own. -/
theorem State.reg_latchWords (hv : ∀ t a x i, v (t.setReg a x) i = v t i) {l : List Nat} (hl : (l.map g).Nodup) (s : State) :
    ∀ i ∈ l, (s.latchWords g v l).reg (g i) = v s i := by
  induction l generalizing s with
  | nil => simp
  | cons j l ih =>
    obtain ⟨hj, hl⟩ := List.nodup_cons.1 hl
    intro i hi
    rcases List.mem_cons.1 hi with rfl | hi
    · exact (State.latchWords_regsBut l _ _ hj).trans (State.reg_setReg_same _ _ _)
    · exact (ih hl _ i hi).trans (hv _ _ _ _)

end

/-! ## Hub tallies (R348) -/

theorem State.tallyAdd_of_free {s : State} {n : Nat} (v : Word) (h : s.holder none n = none) :
    s.tallyAdd n v = s.setTally n (s.tally n + v) := by
  unfold State.tallyAdd
  rw [h]

/-! ## The cells of a lane (R336, R341) -/

theorem State.cellEmpty_iff (s : State) (l c : Nat) :
    s.cellEmpty l c = true ↔ ∀ i < 256, mget cellDefault s.disp.cells ((64 * l + c) * 256 + i) = none := by
  simp only [State.cellEmpty, State.cellBytes, List.all_eq_true, List.forall_mem_iff_forall_getElem, length_mread,
    Option.isNone_iff_eq_none]
  exact forall₂_congr fun i hi => by rw [getElem_mread _ _ _ _ _ hi]

theorem State.cellEmpty_emptyCell_same (s : State) (l c : Nat) : (s.emptyCell l c).cellEmpty l c = true :=
  (State.cellEmpty_iff _ _ _).2 fun i hi => mget_mclear_in cellDefault _ _ _ _ ⟨by omega, by omega⟩

/-- Emptying a cell fills no other. -/
theorem State.cellEmpty_emptyCell {s : State} {l d : Nat} (k c : Nat) (h : s.cellEmpty l d = true) :
    (s.emptyCell k c).cellEmpty l d = true := by
  refine (State.cellEmpty_iff _ _ _).2 fun i hi => ?_
  by_cases hin : (64 * k + c) * 256 ≤ (64 * l + d) * 256 + i ∧ (64 * l + d) * 256 + i < (64 * k + c) * 256 + 256
  · exact mget_mclear_in cellDefault _ _ _ _ hin
  · exact (mget_mclear_out cellDefault _ _ _ _ (by omega)).trans ((State.cellEmpty_iff _ _ _).1 h i hi)

/-- The cells of a list emptied. -/
def State.emptyCells (s : State) (l : Nat) (cs : List Nat) : State := cs.foldl (fun t c => t.emptyCell l c) s

theorem State.regs_emptyCells (s : State) (l : Nat) (cs : List Nat) : (s.emptyCells l cs).regs = s.regs := by
  induction cs generalizing s with
  | nil => rfl
  | cons c cs ih => exact ih _

theorem State.cellEmpty_emptyCells {s : State} {l d : Nat} {cs : List Nat} (h : s.cellEmpty l d = true ∨ d ∈ cs) :
    (s.emptyCells l cs).cellEmpty l d = true := by
  induction cs generalizing s with
  | nil => exact h.resolve_right List.not_mem_nil
  | cons c cs ih =>
    refine ih ?_
    rcases h with h | h
    · exact .inl (State.cellEmpty_emptyCell l c h)
    · rcases List.mem_cons.1 h with rfl | h
      · exact .inl (State.cellEmpty_emptyCell_same _ _ _)
      · exact .inr h

/-- A lane reset clears the flags and counts of the lane's status and leaves its TAKEN (R341). -/
def State.clearLaneStatus (s : State) (l : Nat) : State :=
  (((s.setFld (F.DSP_LANE_STATUS_STALLED.at l) 0).setFld (F.DSP_LANE_STATUS_OVERRUN.at l) 0).setFld
    (F.DSP_LANE_STATUS_STRAY.at l) 0).setFld (F.DSP_LANE_STATUS_ACCEPTED.at l) 0

theorem State.laneReset_eq (s : State) (l : Nat) : s.laneReset l = (s.emptyCells l (List.range 64)).clearLaneStatus l := rfl

theorem State.clearLaneStatus_fields (s : State) (l : Nat) :
    (s.clearLaneStatus l).fld (F.DSP_LANE_STATUS_STALLED.at l) = 0 ∧ (s.clearLaneStatus l).fld (F.DSP_LANE_STATUS_OVERRUN.at l) = 0 ∧
      (s.clearLaneStatus l).fld (F.DSP_LANE_STATUS_STRAY.at l) = 0 ∧ (s.clearLaneStatus l).fld (F.DSP_LANE_STATUS_ACCEPTED.at l) = 0 := by
  unfold State.clearLaneStatus
  refine ⟨?_, ?_, ?_, ?_⟩
  · rw [State.fld_setFld_apart _ _ (.inr (show 6 < 31 by decide)), State.fld_setFld_apart _ _ (.inr (show 23 < 31 by decide)),
      State.fld_setFld_apart _ _ (.inr (show 15 < 31 by decide))]
    exact (State.fld_setFld_same _ _ _ (show 31 < 64 by decide)).trans (Nat.zero_mod _)
  · rw [State.fld_setFld_apart _ _ (.inr (show 6 < 8 by decide)), State.fld_setFld_apart _ _ (.inl (show 15 < 16 by decide))]
    exact (State.fld_setFld_same _ _ _ (show 15 < 64 by decide)).trans (Nat.zero_mod _)
  · rw [State.fld_setFld_apart _ _ (.inr (show 6 < 16 by decide))]
    exact (State.fld_setFld_same _ _ _ (show 23 < 64 by decide)).trans (Nat.zero_mod _)
  · exact (State.fld_setFld_same _ _ _ (show 6 < 64 by decide)).trans (Nat.zero_mod _)

theorem State.cellEmpty_clearLaneStatus (s : State) (k l c : Nat) : (s.clearLaneStatus k).cellEmpty l c = s.cellEmpty l c := rfl

theorem State.clearLaneStatus_regsBut (s : State) (l : Nat) : RegsBut [(F.DSP_LANE_STATUS_STALLED.at l).reg] s (s.clearLaneStatus l) :=
  have hl : (F.DSP_LANE_STATUS_STALLED.at l).reg ∈ [(F.DSP_LANE_STATUS_STALLED.at l).reg] := List.mem_singleton_self _
  ((((RegsBut.refl _ s).setFld _ hl).setFld (f := F.DSP_LANE_STATUS_OVERRUN.at l) _ hl).setFld
    (f := F.DSP_LANE_STATUS_STRAY.at l) _ hl).setFld (f := F.DSP_LANE_STATUS_ACCEPTED.at l) _ hl

/-! ## The rows -/

section
variable {s : State} {w : Agent}

theorem exec_ctxPeekSelWrite (v : Word) (ha : Accepts s w blkCtx) :
    exec (.ctxPeekSelWrite w v) s = .next (((s.closeLatch w blkCtx).setFld F.CTX_PEEK_SEL_CONTEXT (bitsOf v 15 0)).latchWords
      (fun i => (F.CTX_PEEK_DATA_WORD.at i).reg) (fun t i => t.slotWord (bitsOf v 15 0) i) (List.range 16)) :=
  congrArg Host.Outcome.next (State.leased_gate_of_accepts _ ha)

theorem exec_logReadSelWrite (v : Word) (ha : Accepts s w blkLog) :
    exec (.logReadSelWrite w v) s = .next
      ((((s.closeLatch w blkLog).setFld F.LOG_READ_SEL_SEQ (bitsOf v 31 0)).setFld F.LOG_READ_SEL_MISS
        (bit (s.ringEntry (bitsOf v 31 0)).isNone)).latchWords (fun i => (F.LOG_READ_DATA_WORD.at i).reg)
        (fun _ i => BitVec.ofNat 64 (natOfBytes ((((s.ringEntry (bitsOf v 31 0)).getD []).drop (8 * i)).take 8))) (List.range 8)) := by
  refine congrArg Host.Outcome.next ((State.leased_gate_of_accepts _ ha).trans ?_)
  have hring : (s.closeLatch w blkLog).ringEntry (bitsOf v 31 0) = s.ringEntry (bitsOf v 31 0) := rfl
  dsimp only
  rw [hring]
  cases s.ringEntry (bitsOf v 31 0) <;> rfl

theorem exec_tlyAdd {n : Nat} (v : Word) (ha : Accepts s w blkTly) (hn : n < 16384) (hfree : s.holder none n = none) :
    exec (.tlyAdd w n v) s = .next ((s.closeLatch w blkTly).setTally n (s.tally n + v)) :=
  congrArg Host.Outcome.next
    ((State.leased_gate_of_entry (fun t => t.tallyAdd n v) ha hn).trans (State.tallyAdd_of_free (s := s.closeLatch w blkTly) v hfree))

theorem exec_telTempMaxWrite {i : Nat} (ha : Accepts s w blkTel) (hi : i < 140) :
    exec (.telTempMaxWrite w i) s = .next ((s.closeLatch w blkTel).setFld (F.TEL_TEMP_MAX.at i) (s.fld (F.TEL_TEMP_TEMP.at i))) :=
  congrArg Host.Outcome.next (State.leased_gate_of_entry (fun t => t.loadMax i) ha hi)

theorem exec_cringHeadWrite {r : Nat} (h : BitVec 32) (ha : Accepts s w blkDsp) (hr : r < 64) :
    exec (.cringHeadWrite w r h) s = .next ((s.closeLatch w blkDsp).setFld (F.DSP_CRING_HEAD_HEAD.at r) h.toNat) :=
  congrArg Host.Outcome.next (State.leased_gate_of_entry (fun t => t.setFld (F.DSP_CRING_HEAD_HEAD.at r) h.toNat) ha hr)

theorem exec_laneReset {l : Nat} (ha : Accepts s w blkDsp) (hl : l < 16) :
    exec (.laneReset w l) s = .next (((s.closeLatch w blkDsp).emptyCells l (List.range 64)).clearLaneStatus l) :=
  congrArg Host.Outcome.next ((State.leased_gate_of_entry (fun t => t.laneReset l) ha hl).trans (State.laneReset_eq _ _))

end

end Sys2Proof.Machine
end

section
/-! SUPPORT. The intake lanes: bytes that land in one cell, the take of a head cell, its message in the pending store, and credits (R308,
R330, R336, R337, R339, R362). -/

namespace Sys2Proof.Machine

open Sys2Proof.Safety

/-! ## Bytes landing (R335, R336, R549) -/

/-- A run that lies in a range whole is not cut. -/
theorem clip_of_within {α : Type} {o a b : Nat} {data : List α} (ha : a ≤ o) (hb : o + data.length ≤ b) :
    clip o a b data = (o, data) := by
  simp only [clip, Nat.max_eq_left ha, Nat.sub_self, List.drop_zero]
  rw [List.take_of_length_le (by omega)]

/-- An intake write whose bytes all lie in one cell. -/
theorem State.intakeBytes_of_one_cell {s : State} {l o : Nat} {data : List (Option Byte)} (hr : s.hostReach = true)
    (hd : s.devState ≠ dsSeedbed) (hl : l < 16) (hne : data ≠ []) (hend : o + data.length ≤ 0x4000)
    (hcell : (o + data.length - 1) / 256 = o / 256) :
    s.intakeBytes (l * 2 ^ 24 + o) data = s.landCell l (o / 256) (o % 256) data := by
  have hpos : 0 < data.length := List.length_pos_iff.2 hne
  have hlane : (l * 16777216 + o) / 16777216 = l := by omega
  have hoff : (l * 16777216 + o) % 16777216 = o := by omega
  have hcount : (o + data.length + 255) / 256 - o / 256 = 1 := by omega
  have hwindow : ¬ 268435456 ≤ l * 16777216 + o := by omega
  have hin : o / 256 < 64 := by omega
  have hclip : clip o (256 * (o / 256)) (256 * (o / 256) + 256) data = (o, data) := clip_of_within (by omega) (by omega)
  have hnonempty : data.isEmpty = false := by simpa using hne
  have hbyte : o - 256 * (o / 256) = o % 256 := by omega
  have hstray : data.drop (16384 - o) = [] := List.drop_eq_nil_of_le (by omega)
  simp only [State.intakeBytes, hr, hd, hwindow, hlane, hoff, hnonempty, hcount, hstray, Nat.reducePow, Bool.not_true, decide_false,
    Bool.or_self, Bool.false_eq_true, if_false, List.any_nil, List.range_one, List.foldl_cons, List.foldl_nil, Nat.add_zero, hin,
    if_true, hclip, hbyte]

/-- A cell with bytes landed from offset `o` on. -/
def landed (o : Nat) (old data : List (Option Byte)) : List (Option Byte) :=
  old.zipIdx.map fun b => if o ≤ b.2 then ((data.getD (b.2 - o) none).orElse fun _ => b.1) else b.1

theorem State.length_cellBytes (s : State) (l c : Nat) : (s.cellBytes l c).length = 256 := length_mread _ _ _ _

theorem State.cellBytes_landCell {s : State} {l c : Nat} (o : Nat) {data : List (Option Byte)} (hsome : data.any Option.isSome = true)
    (hacc : s.cellAccepted l c = false) : (s.landCell l c o data).cellBytes l c = landed o (s.cellBytes l c) data := by
  have hlen : (landed o (s.cellBytes l c) data).length = 256 := by simp [landed, s.length_cellBytes]
  have hread := mread_mwrite_same cellDefault s.disp.cells ((64 * l + c) * 256) (landed o (s.cellBytes l c) data)
  rw [hlen] at hread
  have hcount (t : State) : (if t.cellAccepted l c then t.addSat (F.DSP_LANE_STATUS_ACCEPTED.at l) 1 else t).cellBytes l c =
      t.cellBytes l c := by split <;> rfl
  unfold State.landCell
  rw [if_neg (by simp [hsome]), if_neg (by simp [hacc])]
  exact (hcount _).trans hread

/-! ## Stalls (R341) -/

theorem exec_laneStallTimeout {s : State} {l : Nat} (hl : l < 16) (he : s.cellEmpty l (s.headCell l) = false)
    (ha : s.cellAccepted l (s.headCell l) = false)
    (ht : mget zeroNat s.disp.cellSince (64 * l + s.headCell l) + 10000000 ≤ s.now + 1) :
    exec (.laneStallTimeout l) s = .next (s.setFld (F.DSP_LANE_STATUS_STALLED.at l) 1) :=
  congrArg Host.Outcome.next (if_pos ⟨hl, he, ha, ht⟩)

/-! ## The take (R337, R339) -/

/-- The message in the head cell of a lane. -/
def State.headWords (s : State) (l : Nat) : List Word := wordsOfBytes 32 ((s.cellBytes l (s.headCell l)).map fun b => b.getD 0)

/-- The head cell taken: it is empty, the next number is used, TAKEN is one more and ACCEPTED one less, and a credit is due. -/
def State.headTaken (s : State) (l : Nat) : State :=
  let u : State := { s.emptyCell l (s.headCell l) with disp := { (s.emptyCell l (s.headCell l)).disp with
    taken := mset zeroNat s.disp.taken l ((s.takenOf l + 1) % 2 ^ 64)
    nextNum := s.disp.nextNum + 1
    creditDue := if s.disp.creditDue.contains l then s.disp.creditDue else s.disp.creditDue ++ [l] } }
  (u.setFld (F.DSP_LANE_STATUS_TAKEN.at l) ((s.takenOf l + 1) % 2 ^ 64)).setFld (F.DSP_LANE_STATUS_ACCEPTED.at l)
    (u.fld (F.DSP_LANE_STATUS_ACCEPTED.at l) - 1)

section
variable (s : State) (l : Nat)

theorem State.headTaken_pend : (s.headTaken l).disp.pend = s.disp.pend := rfl
theorem State.headTaken_slots : (s.headTaken l).disp.slots = s.disp.slots := rfl

theorem State.headTaken_takenOf : (s.headTaken l).takenOf l = (s.takenOf l + 1) % 2 ^ 64 := mget_mset_same _ _ _ _

theorem State.mem_headTaken_creditDue : l ∈ (s.headTaken l).disp.creditDue := by
  show l ∈ if s.disp.creditDue.contains l then s.disp.creditDue else s.disp.creditDue ++ [l]
  split
  · next h => exact List.contains_iff_mem.1 h
  · exact List.mem_append_right _ (List.mem_singleton_self l)

theorem State.headTaken_regsBut : RegsBut [(F.DSP_LANE_STATUS_TAKEN.at l).reg] s (s.headTaken l) :=
  ((RegsBut.refl _ s).of_regs rfl |>.setFld (f := F.DSP_LANE_STATUS_TAKEN.at l) _ (List.mem_singleton_self _)).setFld
    (f := F.DSP_LANE_STATUS_ACCEPTED.at l) _ (List.mem_singleton_self _)

end

section
variable {s : State} {l : Nat} (hl : l < 16) (htaking : s.taking = true) (hen : s.fld (F.DSP_LANE_CFG_ENABLE.at l) = 1)
  (hroom : s.disp.pend.length < 4096) (hacc : s.cellAccepted l (s.headCell l) = true)
include hl htaking hen hroom hacc

theorem exec_take_formed (hf : msgFormed (s.headWords l) = true) :
    exec (.take l) s = .next ((s.headTaken l).pended s.disp.nextNum (s.headWords l)) :=
  congrArg Host.Outcome.next ((if_pos ⟨hl, htaking, hen, hroom, hacc⟩).trans (if_pos hf))

theorem exec_take_malformed (hf : msgFormed (s.headWords l) = false) :
    exec (.take l) s = .next (if msgReserved (s.headWords l) = false ∧ msgKind (s.headWords l) = kiStep then
      (s.headTaken l).endStepMsg (s.headWords l) stMalformed 0 else (s.headTaken l).endMsg (s.headWords l) stMalformed 0) := by
  have hstep : ((!msgReserved (s.headWords l) && decide (msgKind (s.headWords l) = kiStep)) = true) =
      (msgReserved (s.headWords l) = false ∧ msgKind (s.headWords l) = kiStep) := by
    rw [Bool.and_eq_true, Bool.not_eq_true', decide_eq_true_eq]
  refine congrArg Host.Outcome.next ((if_pos ⟨hl, htaking, hen, hroom, hacc⟩).trans ((if_neg (Bool.eq_false_iff.1 hf)).trans ?_))
  exact ite_congr hstep (fun _ => rfl) (fun _ => rfl)

end

/-! ## The pending store (R319, R337, R362) -/

/-- The numbers and the words of the messages that wait. -/
def State.waitingMsgs (s : State) : List (Nat × List Word) := s.disp.pend.map fun m => (m.num, m.words)

theorem State.waitingMsgs_noteFound (s : State) : s.noteFound.waitingMsgs = s.waitingMsgs := by
  simp only [State.waitingMsgs, State.noteFound, List.map_map]
  refine List.map_congr_left fun m _ => ?_
  simp only [Function.comp_apply]
  split <;> rfl

theorem State.waitingMsgs_takeTeardown (s : State) (num : Nat) (ws : List Word) :
    (s.takeTeardown num ws).waitingMsgs = s.waitingMsgs := by
  unfold State.takeTeardown
  dsimp only
  split
  · simp only [State.waitingMsgs, State.setCtx, State.setSlotWord, List.map_map]
    refine List.map_congr_left fun m _ => ?_
    simp only [Function.comp_apply]
    split <;> rfl
  · rfl

theorem State.waitingMsgs_pended (s : State) (num : Nat) (ws : List Word) :
    (s.pended num ws).waitingMsgs = s.waitingMsgs ++ [(num, ws)] := by
  rw [State.pended, State.waitingMsgs_noteFound, State.waitingMsgs_takeTeardown]
  exact List.map_append

/-- What neither the pending store nor a context slot decides, a message entering the store leaves alone. -/
theorem State.pended_frame {α : Type} (g : State → α) (hp : ∀ (t : State) p, g { t with disp := { t.disp with pend := p } } = g t)
    (hc : ∀ (t : State) c f n, g (t.setCtx c f n) = g t) (s : State) (num : Nat) (ws : List Word) : g (s.pended num ws) = g s := by
  have hbegin (t : State) : g (t.takeTeardown num ws) = g t := by
    unfold State.takeTeardown
    dsimp only
    split
    · exact (hc _ _ _ _).trans (hp _ _)
    · rfl
  exact (hp _ _).trans ((hbegin _).trans (hp _ _))

theorem State.pended_slots_of_kind {ws : List Word} (h : msgKind ws ≠ kiTeardown) (s : State) (num : Nat) :
    (s.pended num ws).disp.slots = s.disp.slots := by
  simp [State.pended, State.takeTeardown, State.noteFound, h]

/-- The take of a TEARDOWN, the first of its context in the store, makes the context CLOSING (R362). -/
theorem State.pended_ctx_of_first_teardown {s : State} {num : Nat} {ws : List Word} (hk : msgKind ws = kiTeardown) (hc : mgTarget ws ≠ 0)
    (hu : s.ctxUsable (mgTarget ws) = true)
    (hfirst : (s.disp.pend.any fun m => decide (m.num ≠ num) && decide (msgKind m.words = kiTeardown) &&
      decide (mgTarget m.words = mgTarget ws)) = false) : (s.pended num ws).ctx (mgTarget ws) cfState = ctxClosing := by
  have hbegun : ((s.disp.pend ++ [({ num := num, words := ws } : Pend)]).any fun m => decide (m.num ≠ num) &&
      decide (msgKind m.words = kiTeardown) && decide (mgTarget m.words = mgTarget ws)) = false := by
    rw [List.any_append, hfirst]
    simp
  unfold State.pended State.takeTeardown
  dsimp only
  rw [if_pos ⟨hk, hc, hu, hbegun⟩]
  exact State.ctx_setCtx_same _ _ _ _ (by decide)

/-! ## Credits (R339) -/

/-- A posted write gives its number away and sends its bytes. -/
theorem exec_creditWrite {s : State} {l : Nat} (hdue : s.disp.creditDue.contains l = true) (hrun : s.hostStopped = false) :
    exec (.creditWrite l) s = .next
      (({ s with disp := { s.disp with creditDue := s.disp.creditDue.filter fun k => decide (k ≠ l) } } : State).postWrite
        (s.fld (F.DSP_LANE_CREDIT_ADDR_ADDR.at l) * 8) (bytesOfNat 8 (s.takenOf l)) false (.credit l)) :=
  congrArg Host.Outcome.next (if_pos (by simp only [hdue, hrun, Bool.not_false, Bool.and_self]))

end Sys2Proof.Machine
end

section
/-! SUPPORT. The messages of the pending store: how a STEP message ends, is chosen, admitted or released, and how a management message
runs, at once or over time (R308, R319, R326, R343 to R347, R360). -/

namespace Sys2Proof.Machine

open Sys2Proof.Safety

/-! ## STEP messages (R344 to R347) -/

/-- The message's step among those in flight, its members RUNNING. -/
def State.admitted (s : State) (num : Nat) (ws : List Word) : State :=
  let u := (msgMemberList ws).foldl (fun (t : State) c => t.setCtx c cfState ctxRunning) (s.unpend num)
  { u with disp := { u.disp with steps := u.disp.steps ++ [{ s.newStep ws with num := num }] } }

section
variable {s : State} {num : Nat} {m : Pend} (hm : s.pendStep num = some m)
include hm

theorem exec_stepMessageEnd {e : Nat × Nat} (htaking : s.taking = true) (he : s.stepEnd m.words = some e) :
    exec (.stepMessageEnd num) s = .next ((s.unpend num).endStepMsg m.words e.1 e.2) := by
  refine congrArg Host.Outcome.next ?_
  unfold State.doStepMessageEnd
  rw [hm]
  dsimp only
  rw [if_pos htaking, he]

theorem exec_reservationRelease (hc : m.chosen = true) (he : s.eligible m.words = false) :
    exec (.reservationRelease num) s = .next { s with disp := { s.disp with
      pend := s.disp.pend.map fun x => if x.num = num then { x with chosen := false } else x } } := by
  refine congrArg Host.Outcome.next ?_
  unfold State.doReservationRelease
  rw [hm]
  exact if_pos (by simp [hc, he])

theorem exec_stepAdmit (hc : m.chosen = true) (hd : s.dispatching = true) (he : s.eligible m.words = true)
    (hend : s.stepEnd m.words = none) (hon : s.cluOn = true)
    (hidle : ((s.msgClusters m.words).map s.physOf).all
      (fun p => decide (s.seqState p = sqIdle) && s.startableOn p && !s.commitDue p) = true)
    (hheld : (msgMemberList m.words).any s.heldBack = false) :
    exec (.stepAdmit num) s = .next
      ((s.admitted num m.words).startAttempt { s.newStep m.words with num := num }).noteFound := by
  refine congrArg Host.Outcome.next ?_
  unfold State.doStepAdmit
  rw [hm]
  exact if_pos (by rw [hc, hd, he, hend, hon, hidle, hheld]; rfl)

end

/-- What the context slots do not decide, a field set in several of them leaves alone. -/
theorem State.foldl_setCtx_frame {α : Type} (g : State → α) (hc : ∀ (t : State) c f n, g (t.setCtx c f n) = g t) (f : CtxField)
    (n : Nat) (cs : List Nat) (s : State) : g (cs.foldl (fun (t : State) c => t.setCtx c f n) s) = g s := by
  induction cs generalizing s with
  | nil => rfl
  | cons c cs ih => exact (ih _).trans (hc _ _ _ _)

section
variable (s : State) (num : Nat) (ws : List Word)

theorem State.admitted_steps : (s.admitted num ws).disp.steps = s.disp.steps ++ [{ s.newStep ws with num := num }] :=
  congrArg (· ++ _) (State.foldl_setCtx_frame (·.disp.steps) (fun _ _ _ _ => rfl) _ _ _ (s.unpend num))

theorem State.admitted_pend : (s.admitted num ws).disp.pend = s.disp.pend.filter fun m => decide (m.num ≠ num) :=
  State.foldl_setCtx_frame (·.disp.pend) (fun _ _ _ _ => rfl) _ _ _ (s.unpend num)

theorem State.admitted_regs : (s.admitted num ws).regs = s.regs :=
  State.foldl_setCtx_frame (·.regs) (fun _ _ _ _ => rfl) _ _ _ (s.unpend num)

end

theorem exec_stepChoose {s : State} {w : Nat} {m : Pend}
    (hw : s.winner ((List.range 8).filter fun c => s.candidates.any fun m => decide (s.msgClass m.words = c)) = some w)
    (hm : (s.candidates.find? fun m => decide (s.msgClass m.words = w)) = some m) (hd : s.dispatching = true) :
    exec .stepChoose s = .next { s with disp := { s.disp with
      lost := s.countLost ((List.range 8).filter fun c => s.candidates.any fun m => decide (s.msgClass m.words = c)) w
      pend := s.disp.pend.map fun x => if x.num = m.num then { x with chosen := true } else x } } := by
  refine congrArg Host.Outcome.next ?_
  unfold State.doStepChoose
  dsimp only
  rw [hw]
  dsimp only
  rw [hm]
  exact if_pos hd

/-! ## Management messages (R300, R334) -/

section
variable {s : State} {num kind : Nat} {ws : List Word} {check : State → List Word → Option Nat} (f : State → List Word → State)

theorem State.msgKind_of_mgmtTurn (ht : s.mgmtTurn num kind = some ws) : msgKind ws = kind := by
  unfold State.mgmtTurn at ht
  split at ht
  · cases ht
  · next m hm =>
    have hk := (Bool.and_eq_true _ _ ▸ List.find?_some hm).2
    cases of_ite_some ht
    exact of_decide_eq_true hk

/-- Only OPEN and LOAD_KEY read a key slot (R300). -/
theorem State.readKeys_of_kind (ho : msgKind ws ≠ kiOpen) (hl : msgKind ws ≠ kiLoadKey) (s : State) : s.readKeys ws = s := by
  simp [State.readKeys, ho, hl]

theorem State.manage_of_passed (ht : s.mgmtTurn num kind = some ws) (hc : check ((s.unpend num).readKeys ws) ws = none) :
    s.manage num kind check f = f ((s.unpend num).readKeys ws) ws := by
  unfold State.manage
  rw [ht]
  dsimp only
  rw [hc]

theorem State.manage_of_refused {d : Nat} (ht : s.mgmtTurn num kind = some ws)
    (hc : check ((s.unpend num).readKeys ws) ws = some d) :
    s.manage num kind check f = ((s.unpend num).readKeys ws).endMsg ws stRefused d := by
  unfold State.manage
  rw [ht]
  dsimp only
  rw [hc]

variable (hkind : kind ≠ kiOpen ∧ kind ≠ kiLoadKey) (ht : s.mgmtTurn num kind = some ws)
include hkind ht

theorem State.readKeys_of_turn (t : State) : t.readKeys ws = t :=
  State.readKeys_of_kind (State.msgKind_of_mgmtTurn ht ▸ hkind.1) (State.msgKind_of_mgmtTurn ht ▸ hkind.2) t

theorem State.manage_of_passed_keyless (hc : check (s.unpend num) ws = none) : s.manage num kind check f = f (s.unpend num) ws := by
  have hread := State.readKeys_of_turn hkind ht (s.unpend num)
  exact (State.manage_of_passed f ht (hread.symm ▸ hc)).trans (by rw [hread])

theorem State.manage_of_refused_keyless {d : Nat} (hc : check (s.unpend num) ws = some d) :
    s.manage num kind check f = (s.unpend num).endMsg ws stRefused d := by
  have hread := State.readKeys_of_turn hkind ht (s.unpend num)
  exact (State.manage_of_refused f ht (hread.symm ▸ hc)).trans (by rw [hread])

end

section
variable {s : State} {num : Nat} {ws : List Word}

theorem exec_loadKey {k : KeySlot} (ht : s.mgmtTurn num kiLoadKey = some ws)
    (hc : ((s.unpend num).readKeys ws).loadKeyDetail ws = none) (hk : ((s.unpend num).readKeys ws).unwrapped ws = some k) :
    exec (.loadKey num) s = .next (((((s.unpend num).readKeys ws).setKeySlot (mgTarget ws) k).logKey orHost (mgTarget ws)
      (((s.unpend num).readKeys ws).keySlot (mgTarget ws))).endMsg ws stOk 0) :=
  congrArg Host.Outcome.next ((State.manage_of_passed _ ht hc).trans (by rw [hk]; rfl))

theorem exec_clearKey (ht : s.mgmtTurn num kiClearKey = some ws) (hc : (s.unpend num).clearKeyDetail ws = none) :
    exec (.clearKey num) s = .next ((((s.unpend num).setKeySlot (mgTarget ws) {}).logKey orHost (mgTarget ws)
      ((s.unpend num).keySlot (mgTarget ws))).endMsg ws stOk 0) :=
  congrArg Host.Outcome.next (State.manage_of_passed_keyless _ (by decide) ht hc)

theorem exec_setAdapter (ht : s.mgmtTurn num kiSetAdapter = some ws) (hc : (s.unpend num).adapterDetail ws = none) :
    exec (.setAdapter num) s = .next
      (((s.unpend num).setCtx (mgTarget ws) (cfAdapter (mgIndex ws)) (fieldOf ws 8 31 0)).endMsg ws stOk 0) :=
  congrArg Host.Outcome.next (State.manage_of_passed_keyless _ (by decide) ht hc)

end

/-- A key slot written, with its change-log entry and the message's record. -/
theorem State.keySlot_of_written (s : State) (o n : Nat) (k old : KeySlot) (ws : List Word) (st aux : Nat) :
    (((s.setKeySlot n k).logKey o n old).endMsg ws st aux).keySlot n = k :=
  (State.keySlot_logKey _ _ _ _ _).trans (State.keySlot_setKeySlot_same _ _ _)

/-- An adapter entry is a whole 32-bit half of its word. -/
theorem State.ctx_setCtx_adapter (s : State) (c k : Nat) {n : Nat} (hn : n < 2 ^ 32) :
    (s.setCtx c (cfAdapter k) n).ctx c (cfAdapter k) = n := by
  have hhi : (cfAdapter k).hi < 64 := by
    simp only [cfAdapter]
    omega
  have hwidth : (cfAdapter k).hi + 1 - (cfAdapter k).lo = 32 := by
    simp only [cfAdapter]
    omega
  rw [State.ctx_setCtx_same _ _ _ _ hhi, hwidth, Nat.mod_eq_of_lt hn]

/-! ## The bookkeeping behind a message (R311, R360, R367, R893) -/

section
variable {α : Type} (g : State → α) (hr : ∀ t a v, g (State.setReg t a v) = g t) (hl : ∀ t l, g { t with log := l } = g t)
include hr hl

theorem State.setDev_frame (s : State) (o n : Nat) : g (s.setDev o n) = g s := by
  unfold State.setDev
  split
  · rfl
  · exact (State.logChange_frame g hr hl _ _ _ _ _ _).trans (hr _ _ _)

/-- The count of open contexts and the device state are registers, and a change of the latter enters the change log. -/
theorem State.showContexts_frame (s : State) : g s.showContexts = g s := by
  unfold State.showContexts
  dsimp only
  split
  · exact (State.setDev_frame g hr hl _ _ _).trans (hr _ _ _)
  · split
    · exact (State.setDev_frame g hr hl _ _ _).trans (hr _ _ _)
    · exact hr _ _ _

end

theorem State.settleSet_frame {α : Type} (g : State → α) (ht : ∀ t n x, g (State.putSetTenant t n x) = g t) (s : State) (n : Nat) :
    g (s.settleSet n) = g s := by
  unfold State.settleSet
  split
  · rfl
  · exact ht _ _ _

/-! ## Teardowns (R360) -/

/-- Steps 6 and 7 of R360, and the records of the step it ended and of the message. -/
def State.reportTeardown (s : State) (x : Teardown) : State :=
  let u := match x.record with
    | some r => (s.revoke x.ctx).postRecord r.ring r.words
    | none => s.revoke x.ctx
  if x.words.isEmpty then u else u.endMsg x.words stTeardownDone 0

/-- Context `c` FREE, its teardown no longer running. -/
def State.freeCtx (s : State) (c : Nat) : State :=
  let u := s.setCtx c cfState ctxFree
  { u with disp := { u.disp with teardowns := u.disp.teardowns.filter fun x => decide (x.ctx ≠ c) } }

theorem exec_teardownDone {s : State} {c : Nat} {x : Teardown} (hx : (s.disp.teardowns.find? fun t => decide (t.ctx = c)) = some x)
    (htaking : s.taking = true) (hon : s.hubOn = true) (ht : s.ctxTraffic c = false) :
    exec (.teardownDone c) s = .next (((s.reportTeardown x).freeCtx c).settleSet (s.ctx c cfWset)).showContexts := by
  have hc := List.find?_some hx
  obtain rfl : x.ctx = c := of_decide_eq_true hc
  refine congrArg Host.Outcome.next ?_
  unfold State.doTeardownDone
  rw [hx]
  exact if_neg (by simp [htaking, hon, ht])

/-- A context that is free stays so through the bookkeeping that follows. -/
theorem State.freeCtx_settled (s : State) (c n : Nat) :
    ((s.freeCtx c).settleSet n).showContexts.ctx c cfState = ctxFree ∧
      ∀ y ∈ ((s.freeCtx c).settleSet n).showContexts.disp.teardowns, y.ctx ≠ c := by
  have hstate : ((s.freeCtx c).settleSet n).showContexts.ctx c cfState = (s.freeCtx c).ctx c cfState :=
    (State.showContexts_frame (·.ctx c cfState) (fun _ _ _ => rfl) (fun _ _ => rfl) _).trans
      (State.settleSet_frame (·.ctx c cfState) (fun _ _ _ => rfl) _ _)
  have hteardowns : ((s.freeCtx c).settleSet n).showContexts.disp.teardowns = (s.freeCtx c).disp.teardowns :=
    (State.showContexts_frame (·.disp.teardowns) (fun _ _ _ => rfl) (fun _ _ => rfl) _).trans
      (State.settleSet_frame (·.disp.teardowns) (fun _ _ _ => rfl) _ _)
  rw [hstate, hteardowns]
  exact ⟨State.ctx_setCtx_same _ _ _ _ (by decide), fun y hy => of_decide_eq_true (List.mem_filter.1 hy).2⟩

/-! ## Images (R326, R896) -/

section
variable {s : State} {i : Nat} {x : Loading} (hx : (s.disp.loading.find? fun x => decide (x.image = i)) = some x)
  (hready : s.imageReady i = true)
include hx hready

theorem exec_imageLoaded (hcopy : (s.copyImage i).2 = .going) :
    exec (.imageLoaded i) s = .next ((((s.copyImage i).1.dropLoading i).setImageState i imgLoaded).endMsg x.words stOk 0) := by
  refine congrArg Host.Outcome.next ?_
  unfold State.doImageLoaded
  rw [hx]
  refine (if_pos hready).trans ?_
  rw [show s.copyImage i = ((s.copyImage i).1, .going) from Prod.ext rfl hcopy]

theorem exec_imageSourceRefused (hcopy : (s.copyImage i).2 = .refused) :
    exec (.imageSourceRefused i) s = .next (((((s.copyImage i).1.dropLoading i).setImageState i imgEmpty).logImage orHw i
      ((s.copyImage i).1.imageDigest i)).endMsg x.words stRefused 0xA) := by
  refine congrArg Host.Outcome.next ?_
  unfold State.doImageSourceRefused
  rw [hx]
  refine (if_pos hready).trans ?_
  rw [show s.copyImage i = ((s.copyImage i).1, .refused) from Prod.ext rfl hcopy]

end

theorem State.imageState_setImageState_same (s : State) (i : Nat) {v : Nat} (hv : v < 4) : (s.setImageState i v).imageState i = v :=
  (State.fld_setFld_same _ _ _ (show 17 < 64 by decide)).trans (Nat.mod_eq_of_lt hv)

theorem State.imageState_logImage (s : State) (o : Nat) {i : Nat} (hi : i < 16) (old : Bytes) :
    (s.logImage o i old).imageState i = s.imageState i := by
  refine State.fld_logChange _ _ _ _ _ _ ?_
  simp only [Fld.at, F.CTX_IMAGE_STATE, F.LOG_STATUS_LOST]
  omega

/-- A change-log entry of an image leaves what neither the registers nor the log hold. -/
theorem State.logImage_frame {α : Type} (g : State → α) (hr : ∀ t a v, g (State.setReg t a v) = g t)
    (hl : ∀ t l, g { t with log := l } = g t) (s : State) (o i : Nat) (old : Bytes) : g (s.logImage o i old) = g s :=
  State.logChange_frame g hr hl _ _ _ _ _ _

theorem State.image_ne_of_dropLoading (s : State) (i : Nat) : ∀ y ∈ (s.dropLoading i).disp.loading, y.image ≠ i :=
  fun _ hy => of_decide_eq_true (List.mem_filter.1 hy).2

section
variable (s : State) {i : Nat} (ws : List Word) (st aux : Nat)

/-- What the end of a copy leaves: the image LOADED and no longer loading, the slices and the tiers as the copy left them. -/
theorem State.imageLoaded_fields :
    (((s.dropLoading i).setImageState i imgLoaded).endMsg ws st aux).imageState i = imgLoaded ∧
      (∀ y ∈ (((s.dropLoading i).setImageState i imgLoaded).endMsg ws st aux).disp.loading, y.image ≠ i) ∧
      (((s.dropLoading i).setImageState i imgLoaded).endMsg ws st aux).slice = s.slice ∧
      (((s.dropLoading i).setImageState i imgLoaded).endMsg ws st aux).mem = s.mem :=
  ⟨(s.dropLoading i).imageState_setImageState_same i (by decide), s.image_ne_of_dropLoading i, rfl, rfl⟩

/-- What a refused source leaves: the image EMPTY and no longer loading, and in the slices what has landed. -/
theorem State.imageRefused_fields (hi : i < 16) (old : Bytes) :
    ((((s.dropLoading i).setImageState i imgEmpty).logImage orHw i old).endMsg ws st aux).imageState i = imgEmpty ∧
      (∀ y ∈ ((((s.dropLoading i).setImageState i imgEmpty).logImage orHw i old).endMsg ws st aux).disp.loading, y.image ≠ i) ∧
      ((((s.dropLoading i).setImageState i imgEmpty).logImage orHw i old).endMsg ws st aux).slice = s.slice := by
  have hloading := State.logImage_frame (·.disp.loading) (fun _ _ _ => rfl) (fun _ _ => rfl) ((s.dropLoading i).setImageState i imgEmpty)
    orHw i old
  refine ⟨?_, fun y hy => s.image_ne_of_dropLoading i y (hloading ▸ hy), ?_⟩
  · exact (State.imageState_logImage _ _ hi _).trans ((s.dropLoading i).imageState_setImageState_same i (by decide))
  · exact State.logImage_frame (·.slice) (fun _ _ _ => rfl) (fun _ _ => rfl) _ _ _ _

end

end Sys2Proof.Machine
end

section
/-! SUPPORT. What the part sends to the host of itself: the records of a completion ring, the vectors of its coalescing and the pending ones
(R352 to R357, R563, R564). -/

namespace Sys2Proof.Machine

open Sys2Proof.Safety

/-! ## Vectors (R563, R564) -/

/-- The message of a vector. -/
def State.vectorMsg (s : State) (v : Nat) : Emit := .msix v (s.reg (msixAddr v)) ((s.reg (msixData v)).truncate 32)

theorem State.raiseVector_of_open {s : State} {v : Nat} (h : s.vectorOpen v = true) : s.raiseVector v = s.emit (s.vectorMsg v) := if_pos h

/-- The pending-bit array lies behind the table of the vectors. -/
theorem pbaReg_apart {v w : Nat} (hv : v < 2048) : msixAddr v ≠ pbaReg w ∧ msixData v ≠ pbaReg w := by
  unfold msixAddr msixData pbaReg
  omega

/-- The pending bit of a vector cleared. -/
def State.clearPending (s : State) (v : Nat) : State :=
  s.setReg (pbaReg v) (s.reg (pbaReg v) &&& ~~~ BitVec.ofNat 64 (2 ^ (v % 64)))

theorem State.pending_clearPending (s : State) (v : Nat) : ((s.clearPending v).reg (pbaReg v)).getLsbD (v % 64) = false := by
  have hv : v % 64 < 64 := Nat.mod_lt v (by decide)
  rw [State.clearPending, State.reg_setReg_same, BitVec.getLsbD_and, BitVec.getLsbD_not, BitVec.getLsbD_ofNat, Nat.testBit_two_pow_self]
  simp [hv]

theorem State.vectorMsg_clearPending (s : State) {v : Nat} (hv : v < 2048) : (s.clearPending v).vectorMsg v = s.vectorMsg v := by
  obtain ⟨haddr, hdata⟩ := pbaReg_apart (w := v) hv
  rw [State.vectorMsg, State.vectorMsg, State.clearPending, State.reg_setReg_ne _ _ haddr, State.reg_setReg_ne _ _ hdata]

theorem exec_msixPendingSend {s : State} {v : Nat} (hv : v < 2048) (hp : (s.reg (pbaReg v)).getLsbD (v % 64) = true)
    (ho : s.vectorOpen v = true) : exec (.msixPendingSend v) s = .next ((s.clearPending v).emit (s.vectorMsg v)) := by
  rw [← s.vectorMsg_clearPending hv]
  exact congrArg Host.Outcome.next (if_pos ⟨hv, hp, ho⟩)

/-! ## Coalescing (R357) -/

/-- The unsignalled records of ring `r`. -/
def State.putUnsig (s : State) (r : Nat) (x : Unsig) : State :=
  { s with disp := { s.disp with unsig := mset (fun _ => {}) s.disp.unsig r x } }

theorem exec_coalesceTimeout {s : State} {r : Nat} (hr : r < 64) (hn : 0 < (mget (fun _ => {}) s.disp.unsig r).count)
    (ht : (mget (fun _ => {}) s.disp.unsig r).oldest + 1000 * s.fld (F.DSP_CRING_CFG_COALESCE_US.at r) ≤ s.now) :
    exec (.coalesceTimeout r) s = .next ((s.putUnsig r {}).raiseVector (s.fld (F.DSP_CRING_CFG_VECTOR.at r))) :=
  congrArg Host.Outcome.next (if_pos ⟨hr, hn, ht⟩)

/-- What neither a register, a message nor the count of unsignalled records decides, a record's count leaves alone. -/
theorem State.noteUnsig_ind (P : State → Prop) (hu : ∀ t r x, P t → P (State.putUnsig t r x))
    (hr : ∀ t a v, P t → P (State.setReg t a v)) (he : ∀ t e, P t → P (State.emit t e)) {s : State} (r : Nat) (h : P s) :
    P (s.noteUnsig r) := by
  unfold State.noteUnsig
  dsimp only
  split
  · exact State.raiseVector_ind P hr he _ (hu s r _ h)
  · exact hu s r _ h

/-! ## Completion records (R352 to R355) -/

/-- The place of the next record of a ring: its count, its address, and the PHASE of its lap. -/
def State.recordPos (s : State) (r : Nat) : Nat := (s.fld (F.DSP_CRING_TAIL_TAIL.at r) + s.ringFlying r) % 2 ^ 32
def State.recordAddr (s : State) (r : Nat) : Nat := s.fld (F.DSP_CRING_BASE_ADDR.at r) * 64 + 64 * (s.recordPos r % s.ringSize r)
def State.recordPhase (s : State) (r : Nat) : Nat := if s.recordPos r / s.ringSize r % 2 = 0 then 1 else 0

/-- The two writes of a record, its first word last. -/
def State.sendRecord (s : State) (r : Nat) (x : Record) : State :=
  (({ s with disp := { s.disp with records := markSent r s.disp.records } } : State).postWrite (s.recordAddr r + 8)
    (bytesOfWords (x.words.drop 1)) false (.record r)).postWrite (s.recordAddr r)
    (bytesOfWords [fieldPut (wordAt x.words 0) 0 0 (s.recordPhase r)]) false (.record r)

theorem State.sendRecord_out (s : State) (r : Nat) (x : Record) : (s.sendRecord r x).out =
    .hostWrite (s.host.nextSeq + 1) (s.recordAddr r) (bytesOfWords [fieldPut (wordAt x.words 0) 0 0 (s.recordPhase r)]) false ::
      .hostWrite s.host.nextSeq (s.recordAddr r + 8) (bytesOfWords (x.words.drop 1)) false :: s.out := rfl

theorem exec_completionRecordWrite {s : State} {r : Nat} {x : Record} (hon : s.hubOn = true) (ho : s.ringOpen r = true)
    (hx : ((s.ringRecords r).find? fun x => !x.sent) = some x) :
    exec (.completionRecordWrite r) s = .next ((s.sendRecord r x).noteUnsig r) := by
  refine congrArg Host.Outcome.next ?_
  unfold State.doCompletionRecordWrite
  rw [if_pos (by rw [hon, ho]; rfl), hx]
  rfl

end Sys2Proof.Machine
end

section
/-! The statements of the contexts: the rows of their registers, the intake lanes, STEP and management messages, and what the part sends to
the host of itself. -/

namespace Sys2Proof.Machine

open Sys2Proof.Safety

/-- Settles O17: each row is a gated write, and each writes the registers of one entry and those of its window alone. -/
theorem selectorAndCounterWritesComplete : Obligations.SelectorAndCounterWritesComplete := by
  refine ⟨?peek, ?logRead, ?tally, ?temp, ?head, ?lane⟩
  case peek =>
    intro s w v ha
    refine ⟨_, exec_ctxPeekSelWrite v ha, ?_, fun i hi => ?_, ?_⟩
    · rw [State.fld_latchWords (by decide), State.fld_setFld_same _ _ _ (by decide)]
      exact Nat.mod_eq_of_lt (Nat.mod_lt _ (by decide))
    · exact State.reg_latchWords (fun _ _ _ _ => rfl) (by decide) _ i (List.mem_range.2 hi)
    · exact ((RegsBut.refl _ s).setFld (t := s.closeLatch w blkCtx) _ List.mem_cons_self).trans
        (regsBut_cons _ (State.latchWords_regsBut _ _))
  case logRead =>
    intro s w v ha
    refine ⟨_, exec_logReadSelWrite v ha, fun i hi => ?_, ?_, ?_, ?_⟩
    · exact State.reg_latchWords (fun _ _ _ _ => rfl) (by decide) _ i (List.mem_range.2 hi)
    · rw [State.fld_latchWords (by decide), State.fld_setFld_apart _ _ (by decide), State.fld_setFld_same _ _ _ (by decide)]
      exact Nat.mod_eq_of_lt (Nat.mod_lt _ (by decide))
    · rw [State.fld_latchWords (by decide), State.fld_setFld_same _ _ _ (by decide)]
      exact Nat.mod_eq_of_lt (bit_lt_two _)
    · refine RegsBut.trans ?_ (regsBut_cons _ (State.latchWords_regsBut _ _))
      exact ((RegsBut.refl _ s).setFld (t := s.closeLatch w blkLog) _ List.mem_cons_self).setFld (f := F.LOG_READ_SEL_MISS) _
        List.mem_cons_self
  case tally =>
    exact fun s w n v ha hn hfree => ⟨_, exec_tlyAdd v ha hn hfree, State.tally_setTally_same _ _ _,
      (RegsBut.refl _ s).setReg (t := s.closeLatch w blkTly) _ (List.mem_singleton_self _)⟩
  case temp =>
    exact fun s w i ha hi => ⟨_, exec_telTempMaxWrite ha hi,
      (State.fld_setFld_same _ _ _ (show 63 < 64 by decide)).trans (Nat.mod_eq_of_lt (s.fld_lt (F.TEL_TEMP_TEMP.at i))),
      (RegsBut.refl _ s).setFld (t := s.closeLatch w blkTel) _ (List.mem_singleton_self _)⟩
  case head =>
    exact fun s w r h ha hr => ⟨_, exec_cringHeadWrite h ha hr,
      (State.fld_setFld_same _ _ _ (show 31 < 64 by decide)).trans (Nat.mod_eq_of_lt h.isLt),
      (RegsBut.refl _ s).setFld (t := s.closeLatch w blkDsp) _ (List.mem_singleton_self _)⟩
  case lane =>
    intro s w l ha hl
    obtain ⟨hstalled, hoverrun, hstray, haccepted⟩ := ((s.closeLatch w blkDsp).emptyCells l (List.range 64)).clearLaneStatus_fields l
    refine ⟨_, exec_laneReset ha hl, hstalled, hoverrun, hstray, haccepted, fun c hc => ?_, ?_⟩
    · rw [State.cellEmpty_clearLaneStatus]
      exact State.cellEmpty_emptyCells (.inr (List.mem_range.2 hc))
    · exact ((RegsBut.refl _ s).of_regs (State.regs_emptyCells (s.closeLatch w blkDsp) l _)).trans (State.clearLaneStatus_regsBut _ l)

/-- Settles O18. That a malformed STEP message counts at its lead as a failed step is log entry 25, and that a take of a TEARDOWN makes its
context CLOSING is log entry 69. -/
theorem intakeCompletes : Obligations.IntakeCompletes := by
  refine ⟨fun s l o data hr hd hl hne hend hcell => congrArg _ (State.intakeBytes_of_one_cell hr hd hl hne hend hcell),
    fun s o hr => congrArg _ (if_pos hr), fun s l c o data hsome hacc => State.cellBytes_landCell o hsome hacc, ?stall, ?take, ?credit⟩
  case stall =>
    exact fun s l hl he ha ht => ⟨_, exec_laneStallTimeout hl he ha ht, State.fld_setFld_same _ _ _ (show 31 < 64 by decide),
      (RegsBut.refl _ s).setFld _ (List.mem_singleton_self _), rfl⟩
  case take =>
    rintro s l ws hl htaking hen hroom hacc rfl
    refine ⟨fun hf => ⟨_, exec_take_formed hl htaking hen hroom hacc hf, ?msgs, ?taken, ?due, ?regs, ?others, ?teardown⟩,
      fun hf => ⟨_, exec_take_malformed hl htaking hen hroom hacc hf, _, rfl, s.headTaken_pend l, s.headTaken_slots l,
        s.headTaken_takenOf l, s.mem_headTaken_creditDue l, s.headTaken_regsBut l⟩⟩
    case msgs => exact State.waitingMsgs_pended _ _ _
    case taken => exact (State.pended_frame (·.takenOf l) (fun _ _ => rfl) (fun _ _ _ _ => rfl) _ _ _).trans (s.headTaken_takenOf l)
    case due =>
      rw [State.pended_frame (·.disp.creditDue) (fun _ _ => rfl) (fun _ _ _ _ => rfl)]
      exact s.mem_headTaken_creditDue l
    case regs => exact (s.headTaken_regsBut l).of_regs (State.pended_frame (·.regs) (fun _ _ => rfl) (fun _ _ _ _ => rfl) _ _ _)
    case others => exact fun hk => State.pended_slots_of_kind hk _ _
    case teardown => exact fun hk hc hu hfirst => State.pended_ctx_of_first_teardown hk hc hu hfirst
  case credit =>
    exact fun s l hdue hrun => ⟨_, exec_creditWrite hdue hrun, rfl,
      fun hmem => of_decide_eq_true (List.mem_filter.1 hmem).2 rfl, rfl⟩

/-- Settles O19: each row names its message and acts once the conditions of its rule hold. -/
theorem stepMessagesComplete : Obligations.StepMessagesComplete := by
  refine ⟨fun s num m e hm htaking he => exec_stepMessageEnd hm htaking he,
    fun s w m hw hm hd => ⟨_, exec_stepChoose hw hm hd, rfl, rfl, rfl, rfl⟩, ?started,
    fun s num m hm hc he => ⟨_, exec_reservationRelease hm hc he, rfl, rfl, rfl, rfl⟩⟩
  case started =>
    exact fun s num m hm hc hd he hend hon hidle hheld => ⟨_, exec_stepAdmit hm hc hd he hend hon hidle hheld, s.admitted num m.words,
      rfl, s.admitted_steps num m.words, s.admitted_pend num m.words, s.admitted_regs num m.words⟩

/-- Settles O20: a message whose turn has come runs behind its checks, and only OPEN and LOAD_KEY read a key slot first. The order of the
checks is log entry 9, and the detail of LOAD_KEY in a wipe log entry 21. -/
theorem managementMessagesComplete : Obligations.ManagementMessagesComplete := by
  refine ⟨fun s num ws => ⟨?openCtx, ?teardown, ?window, ?loadKey, ?clearKey, ?adapter, ?image⟩,
    fun s num ws d => ⟨?openCtx', ?teardown', ?window', ?loadKey', ?clearKey', ?adapter', ?image'⟩⟩
  case openCtx => exact fun ht hc => congrArg _ (State.manage_of_passed _ ht hc)
  case openCtx' => exact fun ht hc => congrArg _ (State.manage_of_refused _ ht hc)
  case teardown =>
    refine fun ht hc => congrArg _ (State.manage_of_passed_keyless _ (by decide) ht ?_)
    rcases hc with hc | hc
    · exact if_pos hc
    · exact (ite_eq_left_iff).2 fun _ => hc
  case teardown' =>
    exact fun ht hb hc => congrArg _ (State.manage_of_refused_keyless _ (by decide) ht ((if_neg (Bool.eq_false_iff.1 hb)).trans hc))
  case window => exact fun ht hc => congrArg _ (State.manage_of_passed_keyless _ (by decide) ht hc)
  case window' => exact fun ht hc => congrArg _ (State.manage_of_refused_keyless _ (by decide) ht hc)
  case loadKey => exact fun ht hc k hk => ⟨_, exec_loadKey ht hc hk, State.keySlot_of_written _ _ _ _ _ _ _ _⟩
  case loadKey' => exact fun ht hc => congrArg _ (State.manage_of_refused _ ht hc)
  case clearKey => exact fun ht hc => ⟨_, exec_clearKey ht hc, State.keySlot_of_written _ _ _ _ _ _ _ _⟩
  case clearKey' => exact fun ht hc => congrArg _ (State.manage_of_refused_keyless _ (by decide) ht hc)
  case adapter =>
    exact fun ht hc => ⟨_, exec_setAdapter ht hc, State.ctx_setCtx_adapter _ _ _ (Nat.mod_lt _ (by decide))⟩
  case adapter' => exact fun ht hc => congrArg _ (State.manage_of_refused_keyless _ (by decide) ht hc)
  case image => exact fun ht hc => congrArg _ (State.manage_of_passed_keyless _ (by decide) ht hc)
  case image' => exact fun ht hc => congrArg _ (State.manage_of_refused_keyless _ (by decide) ht hc)

/-- Settles O21. That the copy of an image takes effect as one, at its end, is log entry 21. -/
theorem longManagementCompletes : Obligations.LongManagementCompletes := by
  refine ⟨?teardown, ?loaded, ?refused⟩
  case teardown =>
    exact fun s c x hx htaking hon ht => ⟨_, exec_teardownDone hx htaking hon ht, State.freeCtx_settled _ c _⟩
  case loaded => exact fun s i x hx hready hcopy => ⟨_, exec_imageLoaded hx hready hcopy, State.imageLoaded_fields _ _ _ _⟩
  case refused =>
    exact fun s i x hi hx hready hcopy => ⟨_, exec_imageSourceRefused hx hready hcopy, State.imageRefused_fields _ _ _ _ hi _⟩

/-- Settles O22: what a row sends stays sent through the coalescing that follows. -/
theorem hostSignalsComplete : Obligations.HostSignalsComplete := by
  refine ⟨?record, ?coalesce, ?pending⟩
  case record =>
    intro s r x hon ho hx
    have hsent (e : Emit) (he : e ∈ (s.sendRecord r x).out) : e ∈ ((s.sendRecord r x).noteUnsig r).out :=
      State.noteUnsig_ind (fun t => e ∈ t.out) (fun _ _ _ h => h) (fun _ _ _ h => h) (fun _ _ h => List.mem_cons_of_mem _ h) r he
    refine ⟨_, exec_completionRecordWrite hon ho hx, hsent _ ?_, hsent _ ?_, ?_⟩
    · exact List.mem_cons_of_mem _ List.mem_cons_self
    · exact List.mem_cons_self
    · exact State.noteUnsig_ind (fun t => t.disp.records = markSent r s.disp.records) (fun _ _ _ h => h) (fun _ _ _ h => h)
        (fun _ _ h => h) r rfl
  case coalesce =>
    intro s r hr hn ht
    refine ⟨_, exec_coalesceTimeout hr hn ht, ?_, fun ho => ?_⟩
    · exact State.raiseVector_ind (fun t => mget (fun _ => {}) t.disp.unsig r = {}) (fun _ _ _ h => h) (fun _ _ h => h) _
        (mget_mset_same _ _ _ _)
    · rw [State.raiseVector_of_open (s := s.putUnsig r {}) ho]
      exact ⟨rfl, rfl⟩
  case pending =>
    exact fun s v hv hp ho => ⟨_, exec_msixPendingSend hv hp ho, s.pending_clearPending v,
      (RegsBut.refl _ s).setReg _ (List.mem_singleton_self _), rfl⟩

end Sys2Proof.Machine
end

section
/-! SUPPORT. The rows of the memory lanes: groups received, optical lanes that fail and their spares, retrains and the end of a training
(R379 to R382, R418, R423, R687). -/

namespace Sys2Proof.Machine

open Sys2Proof.Safety

/-- A command to a block of a part that is on, where the block has power, is obeyed. -/
theorem State.powered_of_on {s : State} {b : Nat} (f : State → State) (ho : s.off = false) (hb : s.blockOn b = true) :
    s.powered b f = f s := by
  unfold State.powered
  rw [if_neg (by simp [ho]), if_neg (by simp [hb])]

/-- A lane that carries traffic is not held. -/
theorem State.not_held_of_usable {s : State} {k : Nat} (h : s.laneUsable k = true) : s.laneState k ≠ mlHeld := by
  intro hheld
  simp [State.laneUsable, hheld, mlHeld, mlUp, mlDegraded] at h

/-! ## Groups received (R379, R417) -/

/-- The retries of the last millisecond, that of lane `k` now among them. -/
def State.retriesWith (s : State) (k : Nat) : List (Nat × Nat) :=
  (s.mem.retries ++ [(k, s.now)]).filter fun e => decide (s.now < e.2 + 1000000)

section
variable {s : State} {k : Nat}

theorem exec_memGroupReceive_pruned {gen : Nat} (hk : k < 16) (hu : s.laneUsable k = true)
    (hg : gen % 4096 ≠ s.fld (F.MEM_LANE_STATUS_LANE_GEN.at k)) :
    exec (.memGroupReceive k gen false) s = .next (s.addSat (F.MEM_LANE_STATUS_PRUNED.at k) 1) :=
  congrArg Host.Outcome.next ((if_pos ⟨hk, hu⟩).trans (if_pos hg))

theorem exec_memGroupReceive_reply {gen : Nat} {r : Req} (hk : k < 16) (hu : s.laneUsable k = true)
    (hg : gen % 4096 = s.fld (F.MEM_LANE_STATUS_LANE_GEN.at k))
    (hr : (s.mem.reqs.find? fun r => decide (r.lane = k) && r.sent) = some r) :
    exec (.memGroupReceive k gen false) s = .next (s.answerReq r).runDueEvac := by
  refine congrArg Host.Outcome.next ((if_pos ⟨hk, hu⟩).trans ((if_neg (Decidable.not_not.2 hg)).trans ?_))
  rw [hr]

theorem exec_memGroupReceive_retry (gen : Nat) (hk : k < 16) (hu : s.laneUsable k = true)
    (hfew : ((s.retriesWith k).filter fun e => decide (e.1 = k)).length ≤ 64) :
    exec (.memGroupReceive k gen true) s = .next { s with mem := { s.mem with retries := s.retriesWith k } } :=
  congrArg Host.Outcome.next ((if_pos ⟨hk, hu⟩).trans (if_neg (Nat.not_lt.2 hfew)))

end

/-! ## Spares (R381, R718) -/

/-- A change of the repair records under the current epoch is taken (R297). -/
theorem State.writeRepair_eq (s : State) (f : Repair → Repair) : s.writeRepair f = { s with repair := f s.repair } := if_pos (.inl rfl)

theorem State.bookSpare_eq (s : State) (e unit lane : Nat) : s.bookSpare e unit lane =
    ({ s with repair := { s.repair with lanes := s.repair.lanes ++ [(e, unit, lane)] } } : State).logRepair 3 e (s.sparesUsed e)
      (s.sparesUsed e + 1) :=
  congrArg (State.logRepair · 3 e (s.sparesUsed e) (s.sparesUsed e + 1)) (s.writeRepair_eq _)

theorem State.bookSpare_mem (s : State) (e unit lane : Nat) : (s.bookSpare e unit lane).mem = s.mem := by
  rw [State.bookSpare_eq]
  exact State.logChange_frame (·.mem) (fun _ _ _ => rfl) (fun _ _ => rfl) _ _ _ _ _ _

theorem State.bookSpare_lanes (s : State) (e unit lane : Nat) :
    (s.bookSpare e unit lane).repair.lanes = s.repair.lanes ++ [(e, unit, lane)] := by
  rw [State.bookSpare_eq]
  exact State.logChange_frame (·.repair.lanes) (fun _ _ _ => rfl) (fun _ _ => rfl) _ _ _ _ _ _

theorem State.bookSpare_regsBut (s : State) (e unit lane : Nat) : RegsBut [F.LOG_STATUS_LOST.reg] s (s.bookSpare e unit lane) := by
  rw [State.bookSpare_eq]
  exact RegsBut.logChange (fun _ _ => rfl) _ _ _ _ _ (List.mem_singleton_self _)

theorem State.laneState_setFld_same (s : State) (k : Nat) {n : Nat} (hn : n < 16) :
    (s.setFld (F.MEM_LANE_STATUS_STATE.at k) n).laneState k = n :=
  (s.fld_setFld_same (F.MEM_LANE_STATUS_STATE.at k) n (show 3 < 64 by decide)).trans (Nat.mod_eq_of_lt hn)

/-- Optical lane `lane` among those of lane `k` under substitution. -/
def State.substituting (s : State) (k lane : Nat) : State :=
  { s with mem := { s.mem with subs := mset (fun _ => 0) s.mem.subs k (mget (fun _ => 0) s.mem.subs k ||| 2 ^ lane) } }

theorem State.substituting_regs (s : State) (k lane : Nat) : (s.substituting k lane).regs = s.regs := rfl

theorem State.substituting_repair (s : State) (k lane : Nat) : (s.substituting k lane).repair = s.repair := rfl

/-- A spare of the lane's engine booked for optical lane `lane`, and the lane held until it is substituted. -/
def State.spareLane (s : State) (k lane : Nat) : State :=
  ((s.bookSpare (engineOfLane k) k lane).setFld (F.MEM_LANE_STATUS_STATE.at k) mlHeld).substituting k lane

theorem State.spareLane_mem (s : State) (k lane : Nat) : (s.spareLane k lane).mem =
    { s.mem with subs := mset (fun _ => 0) s.mem.subs k (mget (fun _ => 0) s.mem.subs k ||| 2 ^ lane) } := by
  simp only [State.spareLane, State.substituting, State.setFld_mem, State.bookSpare_mem]

theorem State.spareLane_laneState (s : State) (k lane : Nat) : (s.spareLane k lane).laneState k = mlHeld :=
  (State.fld_of_regs (State.substituting_regs _ k lane) _).trans (State.laneState_setFld_same _ k (show 4 < 16 by decide))

theorem State.spareLane_lanes (s : State) (k lane : Nat) :
    (s.spareLane k lane).repair.lanes = s.repair.lanes ++ [(engineOfLane k, k, lane)] := by
  unfold State.spareLane
  rw [State.substituting_repair, State.setFld_repair, State.bookSpare_lanes]

theorem State.spareLane_regsBut (s : State) (k lane : Nat) :
    RegsBut [(F.MEM_LANE_STATUS_STATE.at k).reg, F.LOG_STATUS_LOST.reg] s (s.spareLane k lane) :=
  RegsBut.of_regs ((regsBut_cons _ (s.bookSpare_regsBut _ _ _)).setFld _ List.mem_cons_self) (State.substituting_regs _ k lane)

/-! ## Optical lanes that fail (R381, R382, R600) -/

/-- An optical lane that fails, neither lost nor replaced before, of a lane that carries or holds traffic. -/
def State.LaneLost (s : State) (k : Nat) (x : OpticalLane) : Prop :=
  k < 16 ∧ x.lane < 4 ∧ s.laneFails x = true ∧ (s.laneUsable k = true ∨ s.laneState k = mlHeld) ∧
    (mget (fun _ => 0) s.mem.lost k ||| mget (fun _ => 0) s.mem.subs k).testBit x.lane = false

section
variable {s : State} {k : Nat} {x : OpticalLane}

theorem exec_memOpticalLaneFail_within (k : Nat) (hf : s.laneFails x = false) : exec (.memOpticalLaneFail k x) s = .next s := by
  refine congrArg Host.Outcome.next (if_neg ?_)
  rintro ⟨-, -, h, -⟩
  exact Bool.noConfusion (hf.symm.trans h)

theorem exec_memOpticalLaneFail_spare (h : s.LaneLost k x) (hs : s.sparesUsed (engineOfLane k) < 2) :
    exec (.memOpticalLaneFail k x) s = .next (s.spareLane k x.lane) :=
  congrArg Host.Outcome.next ((if_pos h).trans (if_pos hs))

theorem exec_memOpticalLaneFail_spareless (h : s.LaneLost k x) (hs : 2 ≤ s.sparesUsed (engineOfLane k)) {m : Nat}
    (hm : m = (mget (fun _ => 0) s.mem.lost k ||| 2 ^ x.lane)) :
    exec (.memOpticalLaneFail k x) s = .next
      (if 2 < laneCount m then (s.showLost k m).laneDown k
      else if s.laneState k = mlHeld then (s.showLost k m).setFld (F.MEM_LANE_STATUS_STATE.at k) mlHeld
      else s.showLost k m) := by
  subst hm
  exact congrArg Host.Outcome.next ((if_pos h).trans (if_neg (Nat.not_lt.2 hs)))

end

/-- The substitution of optical lane `i` complete: it leaves the mask `m` of those under way, and the lane's spares are counted. -/
def State.spareCounted (s : State) (k m i : Nat) : State :=
  let t : State := { s with mem := { s.mem with subs := mset (fun _ => 0) s.mem.subs k (m ^^^ 2 ^ i) } }
  (t.setFld (F.MEM_LANE_STATUS_SPARES.at k) (min 2 (t.fld (F.MEM_LANE_STATUS_SPARES.at k) + 1))).raiseEvent 0x18 (engineOfLane k) k

theorem exec_memSpareDone {s : State} {k i m : Nat} (hk : k < 16) (hheld : s.laneState k = mlHeld)
    (hm : m = mget (fun _ => 0) s.mem.subs k) (hi : (List.range 4).find? (fun i => m.testBit i) = some i) :
    exec (.memSpareDone k) s = .next ((s.spareCounted k m i).endHold k) := by
  subst hm
  refine congrArg Host.Outcome.next ?_
  unfold State.doMemSpareDone
  dsimp only
  rw [hi]
  exact if_pos ⟨hk, hheld⟩

theorem State.spareCounted_subs (s : State) (k m i : Nat) : mget (fun _ => 0) (s.spareCounted k m i).mem.subs k = m ^^^ 2 ^ i :=
  (State.raiseEvent_frame (fun t => mget (fun _ => 0) t.mem.subs k) (fun _ _ _ => rfl) (fun _ _ => rfl) (fun _ _ => rfl) _ _ _ _).trans
    (mget_mset_same _ _ _ _)

theorem State.spareCounted_repair (s : State) (k m i : Nat) : (s.spareCounted k m i).repair = s.repair :=
  State.raiseEvent_frame (·.repair) (fun _ _ _ => rfl) (fun _ _ => rfl) (fun _ _ => rfl) _ _ _ _

theorem State.spareCounted_fld (s : State) {k : Nat} (m i : Nat) (hk : k < 16) :
    (s.spareCounted k m i).fld (F.MEM_LANE_STATUS_SPARES.at k) = min 2 (s.fld (F.MEM_LANE_STATUS_SPARES.at k) + 1) := by
  have hreg : (F.MEM_LANE_STATUS_SPARES.at k).reg < F.RAS_SELFTEST_GO.reg := by
    show 0x500000 + 8 * k < 0x900058
    omega
  refine (State.fld_raiseEvent_below _ _ _ _ hreg).trans ((State.fld_setFld_same _ _ _ (show 15 < 64 by decide)).trans ?_)
  exact Nat.mod_eq_of_lt (Nat.lt_of_le_of_lt (Nat.min_le_left _ _) (show 2 < 4 by decide))

/-! ## Retrains and the end of a training (R418, R423, R687) -/

section
variable {s : State} {k : Nat}

theorem exec_memLaneRetrain (hk : k < 16) (ht : s.mayTrain = true) (hl : s.laneUsable k = true ∨ s.laneState k = mlHeld) :
    exec (.memLaneRetrain k) s = .next (s.retrainLane k) :=
  congrArg Host.Outcome.next (if_pos ⟨hk, ht, hl⟩)

theorem exec_memLaneCtlRetrain (hk : k < 16) (ho : s.off = false) (hb : s.blockOn blkMem = true) (hl : s.lanesStarted = true) :
    exec (.memLaneCtlRetrain k) s = .next (s.retrainLane k) :=
  congrArg Host.Outcome.next ((State.powered_of_on _ ho hb).trans (if_pos ⟨hk, hl⟩))

theorem exec_memoryReplyTimeout (hk : k < 16) (hu : s.laneUsable k = true)
    (hr : (s.mem.reqs.any fun r => decide (r.lane = k) && r.sent && decide (r.since + 50000 ≤ s.now)) = true) :
    exec (.memoryReplyTimeout k) s = .next (if s.mayTrain then s.retrainLane k else s.giveUpLane k []) :=
  congrArg Host.Outcome.next (if_pos ⟨hk, hu, hr⟩)

theorem exec_memLaneUp (r : BridgeReport) (hk : k < 16) (hon : s.memOn = true ∨ s.leavingDark = true)
    (ht : s.laneState k = mlTraining) :
    exec (.memLaneUp k r) s = .next (s.laneTrained k r).checkTiers.showLease.releaseWaits :=
  congrArg Host.Outcome.next (if_pos ⟨hk, hon, ht⟩)

/-- Two optical lanes carry a lane (R382). -/
theorem State.laneTrained_up {r : BridgeReport} (hup : r.up = true) (hw : 2 ≤ r.width) :
    s.laneTrained k r = (((s.takeReport k r).showWidth k (min r.width 4)).setFld (F.MEM_LANE_CTL_RETRAIN.at k) 0).laneReady k := by
  unfold State.laneTrained
  simp only [hup, if_true]
  exact if_neg (by omega)

theorem State.laneTrained_down {r : BridgeReport} (h : r.up = false ∨ r.width < 2) :
    s.laneTrained k r = (((((((s.takeReport k r).showWidth k (if r.up then r.width else 0)).setFld (F.MEM_LANE_CTL_RETRAIN.at k)
      0).giveUpLane k []).loseCopies k).setFld (F.MEM_LANE_STATUS_SELF_REFRESH.at k) 1).raiseEvent 0x17 k 0).laneReady k := by
  have hwidth : (if r.up then min r.width 4 else 0) = if r.up then r.width else 0 := by
    split
    · next hup => exact Nat.min_eq_left (by have := h.resolve_left (by simp [hup]); omega)
    · rfl
  have hfew : (if r.up then r.width else 0) < 2 := by
    split
    · next hup => exact h.resolve_left (by simp [hup])
    · decide
  unfold State.laneTrained
  simp only [hwidth]
  exact if_pos hfew

end

end Sys2Proof.Machine
end

section
/-! SUPPORT. The rows of the tiers: page fills, the copies of a mirror brought up to date, the patrol, and the moves of pages (R401, R408,
R410, R412 to R415, R426). -/

namespace Sys2Proof.Machine

open Sys2Proof.Safety

/-- A part of the state that neither messages nor the queue of requests hold is kept while requests are sent. -/
theorem State.sendReady_frame {α : Type} (g : State → α) (he : ∀ t e, g (State.emit t e) = g t)
    (hr : ∀ (t : State) l, g { t with mem := { t.mem with reqs := l } } = g t) (s : State) : g s.sendReady = g s :=
  List.foldlRecOn _ _ (motive := fun t => g t = g s) (hr s _) fun t ht e _ => (he t e).trans ht

/-- A copy of a page reads and writes lines alone. -/
theorem State.copyPage_regs (s : State) (fm fp tm tp : Nat) : (s.copyPage fm fp tm tp).regs = s.regs :=
  (State.copyPage_keeps (k := { lines := false }) rfl .rfl).regs rfl

/-! ## Page fills (R401) -/

/-- One copy of a page filled with zero lines, or marked where its lane does not take the fill. -/
def State.fillCopy (s : State) (p : Nat × Nat) : State :=
  if s.modReachable p.1 then (s.clearPage p.1 p.2).emit (.memFill (laneOfModule p.1) (s.laneGen p.1) p.1 (lineAddr p.2 0) pageLines)
  else s.missWrite p.1 p.2

theorem State.fillCopy_queues (s : State) (p : Nat × Nat) :
    (s.fillCopy p).mem.waits = s.mem.waits ∧ (s.fillCopy p).mem.reqs = s.mem.reqs := by
  unfold State.fillCopy State.missWrite
  split
  · exact ⟨rfl, rfl⟩
  · split <;> exact ⟨rfl, rfl⟩

theorem State.foldl_fillCopy_queues (s : State) (ps : List (Nat × Nat)) :
    (ps.foldl State.fillCopy s).mem.waits = s.mem.waits ∧ (ps.foldl State.fillCopy s).mem.reqs = s.mem.reqs :=
  List.foldlRecOn ps _ (motive := fun t : State => t.mem.waits = s.mem.waits ∧ t.mem.reqs = s.mem.reqs) ⟨rfl, rfl⟩
    fun t ⟨hw, hr⟩ p _ => ⟨(t.fillCopy_queues p).1.trans hw, (t.fillCopy_queues p).2.trans hr⟩

/-- Every copy of a page filled, and the page marked written. -/
def State.pageFilled (s : State) (page : Nat) : State :=
  let t := (s.copiesOf page).foldl State.fillCopy s
  { t with mem := { t.mem with written := mset (fun _ => false) t.mem.written page true } }

theorem State.pageFilled_isWritten (s : State) (page : Nat) : (s.pageFilled page).isWritten page = true := mget_mset_same _ _ _ _

theorem exec_pageFillDone {s : State} {page : Nat} (hw : (s.mem.waits.any fun w => decide (pageOf w.line = page)) = true)
    (hu : s.isWritten page = false) (hp : (s.writePlaces page).isEmpty = false)
    (hr : ((s.writePlaces page).all fun p => s.modReady p.1) = true) :
    exec (.pageFillDone page) s = .next (s.pageFilled page).releaseWaits :=
  congrArg Host.Outcome.next (if_pos ⟨hw, hu, hp, hr⟩)

/-! ## Copies of a mirror (R408) -/

/-- A stale copy brought up to date from the other one, where that one can be read and missed no write. -/
def State.resyncCopy (s : State) (e : (Nat × Nat) × (Nat × Nat)) : State :=
  if s.modReady e.2.1 && !s.missedCopy e.2.1 e.2.2 then s.copyPage e.2.1 e.2.2 e.1.1 e.1.2 else s

theorem State.foldl_resyncCopy_regs (s : State) (l : List ((Nat × Nat) × (Nat × Nat))) : (l.foldl State.resyncCopy s).regs = s.regs :=
  List.foldlRecOn l _ (motive := fun t : State => t.regs = s.regs) rfl fun t ht e _ => by
    unfold State.resyncCopy
    split
    · exact (t.copyPage_regs _ _ _ _).trans ht
    · exact ht

/-- Module `k` without stale copies. -/
def State.resynced (s : State) (k : Nat) : State :=
  let t := (s.staleOn k).foldl State.resyncCopy s
  ({ t with mem := { t.mem with
    missed := t.mem.missed.filter fun e => decide (e.1 ≠ k)
    behind := t.mem.behind.filter fun m => decide (m ≠ k) } } : State).setFld (F.MEM_LANE_STATUS_STALE.at k) 0

theorem exec_mirrorResyncDone {s : State} {k : Nat} (hk : k < 16) (hr : s.modReady k = true)
    (hs : s.fld (F.MEM_LANE_STATUS_STALE.at k) = 1)
    (hc : ((s.staleOn k).all fun e => !s.missedCopy e.1.1 e.1.2 || (s.modReady e.2.1 && !s.missedCopy e.2.1 e.2.2)) = true) :
    exec (.mirrorResyncDone k) s = .next (s.resynced k) :=
  congrArg Host.Outcome.next (if_pos ⟨hk, hr, hs, hc⟩)

theorem State.resynced_stale (s : State) (k : Nat) : (s.resynced k).fld (F.MEM_LANE_STATUS_STALE.at k) = 0 :=
  State.fld_setFld_same _ _ _ (show 5 < 64 by decide)

theorem State.ne_of_mem_resynced_missed {s : State} {k : Nat} {e : Nat × Nat} (h : e ∈ (s.resynced k).mem.missed) : e.1 ≠ k :=
  of_decide_eq_true (List.mem_filter.1 h).2

theorem State.not_mem_resynced_behind (s : State) (k : Nat) : k ∉ (s.resynced k).mem.behind :=
  fun h => of_decide_eq_true (List.mem_filter.1 h).2 rfl

theorem State.resynced_regsBut (s : State) (k : Nat) : RegsBut [(F.MEM_LANE_STATUS_STALE.at k).reg] s (s.resynced k) :=
  ((RegsBut.refl _ s).of_regs (s.foldl_resyncCopy_regs (s.staleOn k))).setFld _ (List.mem_singleton_self _)

/-! ## The patrol (R410) -/

/-- The patrol of a module past line `i` of a physical page. -/
def State.patrolPast (s : State) (m phys i : Nat) : State :=
  { s with mem := { s.mem with patrol := mset (fun _ => 0) s.mem.patrol m (phys * pageLines + i + 1) } }

/-- What the patrol finds at a line of a module: the state after its check, and the line, or none where it is uncorrectable. -/
def State.patrolCheck (s : State) (m : Nat) (pl : Nat × Nat) (i : Nat) : State × Option TLine :=
  ((s.patrolPast m pl.2 i).askLine pl.1 pl.2 i).checkCopy pl.1 (lineKey pl.1 pl.2 i)

section
variable {s s1 : State} {m i : Nat} {c : Nat × Bool} (hm : m < 32) (hh : s.scrubHours (tierOfModule m) ≠ 0) (hr : s.modReady m = true)
  (hn : s.patrolNext m = some (c, i))
include hm hh hr hn

theorem exec_tierScrubRead_waits
    (hb : (mget lineDefault s.mem.lines (lineKey (s.placeOf c.1 c.2).1 (s.placeOf c.1 c.2).2 i)).bad = true)
    (hmir : s.isMirrored c.1 = true) (hf : s.freshCopy (s.placeOf c.1 !c.2) = true)
    (hreach : s.modReachable (s.placeOf c.1 !c.2).1 = true) (hheld : s.modReady (s.placeOf c.1 !c.2).1 = false) :
    exec (.tierScrubRead m) s = .next s.runDueEvac := by
  refine congrArg (fun t => Host.Outcome.next (State.runDueEvac t)) ((if_pos ⟨hm, hh, hr⟩).trans ?_)
  rw [hn]
  exact if_pos (by simp only [hb, hmir, hf, hreach, hheld]; rfl)

theorem exec_tierScrubRead_cleans {x : TLine}
    (hb : (mget lineDefault s.mem.lines (lineKey (s.placeOf c.1 c.2).1 (s.placeOf c.1 c.2).2 i)).bad = false)
    (hc : s.patrolCheck m (s.placeOf c.1 c.2) i = (s1, some x)) :
    exec (.tierScrubRead m) s = .next
      (if x = x.clean then s1 else s1.putLine (s.placeOf c.1 c.2).1 (s.placeOf c.1 c.2).2 i x.clean).runDueEvac := by
  unfold State.patrolCheck State.patrolPast at hc
  refine congrArg (fun t => Host.Outcome.next (State.runDueEvac t)) ((if_pos ⟨hm, hh, hr⟩).trans ?_)
  rw [hn]
  refine (if_neg (by simp [hb])).trans ?_
  dsimp only
  rw [hc]

theorem exec_tierScrubRead_repairs {s2 : State} {x : TLine} (hmir : s.isMirrored c.1 = true)
    (hf : s.freshCopy (s.placeOf c.1 !c.2) = true) (hready : s.modReady (s.placeOf c.1 !c.2).1 = true)
    (hc : s.patrolCheck m (s.placeOf c.1 c.2) i = (s1, none))
    (ho : (s1.askLine (s.placeOf c.1 !c.2).1 (s.placeOf c.1 !c.2).2 i).checkCopy (s.placeOf c.1 !c.2).1
      (lineKey (s.placeOf c.1 !c.2).1 (s.placeOf c.1 !c.2).2 i) = (s2, some x)) :
    exec (.tierScrubRead m) s = .next
      ((s2.putLine (s.placeOf c.1 c.2).1 (s.placeOf c.1 c.2).2 i x.clean).countLines m
        (mget lineDefault s.mem.lines (lineKey (s.placeOf c.1 c.2).1 (s.placeOf c.1 c.2).2 i)).mended).runDueEvac := by
  have hreach : s.modReachable (s.placeOf c.1 !c.2).1 = true := by
    unfold State.modReady at hready
    simp only [Bool.and_eq_true] at hready
    exact hready.1.1
  unfold State.patrolCheck State.patrolPast at hc
  refine congrArg (fun t => Host.Outcome.next (State.runDueEvac t)) ((if_pos ⟨hm, hh, hr⟩).trans ?_)
  rw [hn]
  refine (if_neg (by simp [hready])).trans ?_
  dsimp only
  rw [hc]
  refine (if_pos (by simp only [hmir, hf, hreach, Bool.and_self])).trans ?_
  rw [ho]

theorem exec_tierScrubRead_loses (hmir : s.isMirrored c.1 = false)
    (hp : (mget lineDefault s.mem.lines (lineKey (s.placeOf c.1 c.2).1 (s.placeOf c.1 c.2).2 i)).poison = false)
    (hc : s.patrolCheck m (s.placeOf c.1 c.2) i = (s1, none)) :
    exec (.tierScrubRead m) s = .next (s1.loseLine c.1 i).runDueEvac := by
  unfold State.patrolCheck State.patrolPast at hc
  refine congrArg (fun t => Host.Outcome.next (State.runDueEvac t)) ((if_pos ⟨hm, hh, hr⟩).trans ?_)
  rw [hn]
  refine (if_neg (by simp [hmir])).trans ?_
  dsimp only
  rw [hc]
  exact (if_neg (by simp [hmir])).trans (if_neg (by simp [hp]))

end

/-! ## Evacuation and migration (R412 to R415, R426) -/

section
variable {s : State} (ho : s.off = false) (hb : s.blockOn blkMem = true)
include ho hb

theorem exec_memEvacGo_starts {m : Nat} (hm : m < 16) (he : s.mem.evac = none) :
    exec (.memEvacGo m) s = .next ((s.setFld F.MEM_EVAC_CTL_MODULE m).startEvac m false (s.copiesOn m) 1) :=
  congrArg Host.Outcome.next ((State.powered_of_on _ ho hb).trans (if_pos ⟨hm, he⟩))

theorem exec_memMigrateGo_starts {q : Nat} (hq : q < 2 ^ 19) (he : s.mem.evac = none) :
    exec (.memMigrateGo q) s = .next
      ((s.setFld F.MEM_MIGRATE_PAGE q).startEvac ((s.placeOf q false).1) true [(q, false)] 1) :=
  congrArg Host.Outcome.next ((State.powered_of_on _ ho hb).trans (if_pos ⟨hq, he⟩))

theorem exec_memEvacGo_ignored (m : Nat) (he : s.mem.evac ≠ none) :
    exec (.memEvacGo m) s = .next (s.setFld F.MEM_EVAC_CTL_MODULE m) :=
  congrArg Host.Outcome.next ((State.powered_of_on _ ho hb).trans (if_neg fun h => he h.2))

theorem exec_memMigrateGo_ignored (q : Nat) (he : s.mem.evac ≠ none) :
    exec (.memMigrateGo q) s = .next (s.setFld F.MEM_MIGRATE_PAGE q) :=
  congrArg Host.Outcome.next ((State.powered_of_on _ ho hb).trans (if_neg fun h => he h.2))

end

/-- A copy of a page lies where the page table says. -/
theorem State.placeOf_of_table {s : State} {q m phys : Nat} {mirror : Bool}
    (h : mget (fun _ => 0) s.mem.table (2 * q + bit mirror) = placeCode m phys) :
    s.placeOf q mirror = ((placeCode m phys - 1) / 2 ^ 18, (placeCode m phys - 1) % 2 ^ 18) := by
  unfold State.placeOf
  rw [h]
  exact if_neg (by unfold placeCode; omega)

/-- Is the copy that moves stale? -/
def State.movesStale (s : State) (mv : PageMove) : Bool := s.isMirrored mv.page && !s.freshCopy (mv.fromMod, mv.fromPhys)

/-- A page's copy at its new place, which the page table names; a stale copy stays stale there. -/
def State.pageMoved (s : State) (mv : PageMove) : State :=
  let t := s.copyPage mv.fromMod mv.fromPhys mv.toMod mv.toPhys
  let kept := t.mem.missed.filter fun e => decide (e ≠ (mv.fromMod, mv.fromPhys))
  let u : State := { t with mem := { t.mem with
    table := mset (fun _ => 0) t.mem.table (2 * mv.page + bit mv.mirror) (placeCode mv.toMod mv.toPhys)
    missed := if s.movesStale mv then kept ++ [(mv.toMod, mv.toPhys)] else kept } }
  if s.movesStale mv then u.setFld (F.MEM_LANE_STATUS_STALE.at mv.toMod) 1 else u

theorem State.pageMoved_table (s : State) (mv : PageMove) :
    mget (fun _ => 0) (s.pageMoved mv).mem.table (2 * mv.page + bit mv.mirror) = placeCode mv.toMod mv.toPhys := by
  unfold State.pageMoved
  dsimp only
  split <;> exact mget_mset_same _ _ _ _

theorem State.pageMoved_regsBut (s : State) (mv : PageMove) :
    RegsBut [(F.MEM_LANE_STATUS_STALE.at mv.toMod).reg] s (s.pageMoved mv) := by
  have hcopy : RegsBut [(F.MEM_LANE_STATUS_STALE.at mv.toMod).reg] s (s.copyPage mv.fromMod mv.fromPhys mv.toMod mv.toPhys) :=
    (RegsBut.refl _ s).of_regs (s.copyPage_regs _ _ _ _)
  unfold State.pageMoved
  dsimp only
  split
  · exact (hcopy.of_regs rfl).setFld _ (List.mem_singleton_self _)
  · exact hcopy.of_regs rfl

/-- A page moved and SWITCHED: what waited for its old place goes to the new one, and the journal holds it. -/
def State.pageSwitched (s : State) (e : Evac) (mv : PageMove) : State :=
  ((((s.pageMoved mv).followMove mv).setEvac (some { e with cur := some { mv with switched := true } })).journalAt mv.fromPhys
    joSwitched).sendReady

section
variable {s : State} {e : Evac} {mv : PageMove}

theorem exec_evacPageCopied (he : s.mem.evac = some e) (hcur : e.cur = some mv) (hs : mv.switched = false)
    (hfrom : s.modReady mv.fromMod = true) (hto : s.modReady mv.toMod = true) :
    exec .evacPageCopied s = .next (s.pageSwitched e mv) := by
  refine congrArg Host.Outcome.next ?_
  unfold State.doEvacPageCopied
  simp only [he, hcur]
  exact if_pos ⟨hs, hfrom, hto⟩

theorem State.pageSwitched_evac : (s.pageSwitched e mv).mem.evac = some { e with cur := some { mv with switched := true } } :=
  State.sendReady_frame (·.mem.evac) (fun _ _ => rfl) (fun _ _ => rfl) _

theorem State.pageSwitched_journal : mget (fun _ => 0) (s.pageSwitched e mv).mem.journal mv.fromPhys = joSwitched :=
  (State.sendReady_frame (fun t => mget (fun _ => 0) t.mem.journal mv.fromPhys) (fun _ _ => rfl) (fun _ _ => rfl) _).trans
    (mget_mset_same _ _ _ _)

theorem State.pageSwitched_placeOf : (s.pageSwitched e mv).placeOf mv.page mv.mirror =
    ((placeCode mv.toMod mv.toPhys - 1) / 2 ^ 18, (placeCode mv.toMod mv.toPhys - 1) % 2 ^ 18) := by
  have htable : (s.pageSwitched e mv).mem.table = (s.pageMoved mv).mem.table :=
    State.sendReady_frame (·.mem.table) (fun _ _ => rfl) (fun _ _ => rfl) _
  refine State.placeOf_of_table ?_
  rw [htable]
  exact s.pageMoved_table mv

theorem State.pageSwitched_regsBut : RegsBut [(F.MEM_LANE_STATUS_STALE.at mv.toMod).reg] s (s.pageSwitched e mv) :=
  (s.pageMoved_regsBut mv).of_regs
    ((State.sendReady_keeps (k := {}) (State.journalAt_keeps (State.setEvac_keeps (State.followMove_keeps .rfl)))).regs rfl)

theorem exec_evacPageDone (he : s.mem.evac = some e) (hcur : e.cur = some mv) (hs : mv.switched = true)
    (hfree : (s.mem.reqs.any fun r => decide (r.module = mv.fromMod) && decide (r.phys = mv.fromPhys)) = false) :
    exec .evacPageDone s = .next
      ((((s.freePool mv.fromMod mv.fromPhys).journalAt mv.fromPhys joDone).addSat F.MEM_EVAC_STATUS_PAGES_DONE 1).nextPage
        { e with cur := none }) := by
  refine congrArg Host.Outcome.next ?_
  unfold State.doEvacPageDone
  simp only [he, hcur]
  exact if_pos ⟨hs, hfree⟩

end

end Sys2Proof.Machine
end

section
/-! The statements of the memory: its lanes and the three tiers. -/

namespace Sys2Proof.Machine

open Sys2Proof.Safety

/-- Settles O28: the outcomes of a failing optical lane exclude each other by the spares left on its engine, the optical lanes lost and
whether the lane is held. -/
theorem memoryLanesComplete : Obligations.MemoryLanesComplete := by
  refine ⟨?pruned, fun s k gen r hk hu hg hr => exec_memGroupReceive_reply hk hu hg hr, ?retry,
    fun s k x hf => exec_memOpticalLaneFail_within k hf, ?fails, ?spareDone,
    fun s k hk ht hl => exec_memLaneRetrain hk ht hl, ?up, ?down,
    fun s k hk ho hb hl => exec_memLaneCtlRetrain hk ho hb hl, ?timeout⟩
  case pruned =>
    exact fun s k gen hk hu hg => ⟨_, exec_memGroupReceive_pruned hk hu hg, State.fld_addSat_same _ _ _ (show 23 < 64 by decide),
      (RegsBut.refl _ s).setFld _ (List.mem_singleton_self _), rfl⟩
  case retry => exact fun s k gen hk hu hfew => ⟨_, exec_memGroupReceive_retry gen hk hu hfew, rfl, rfl⟩
  case fails =>
    rintro s k lane x hk hlane rfl hf hstate hgone
    have hlost : s.LaneLost k x := ⟨hk, hlane, hf, hstate, hgone⟩
    refine ⟨fun hs => ⟨_, exec_memOpticalLaneFail_spare hlost hs, s.spareLane_laneState k x.lane, s.spareLane_lanes k x.lane, ?_, ?_, ?_,
      s.spareLane_regsBut k x.lane⟩, fun m hm hs => ?_⟩
    · rw [State.spareLane_mem]; exact mget_mset_same _ _ _ _
    · rw [State.spareLane_mem]
    · rw [State.spareLane_mem]
    · rw [exec_memOpticalLaneFail_spareless hlost hs hm]
      refine ⟨fun hfew hu => ?_, fun hfew hheld => ?_, fun hmany => ?_⟩
      · rw [if_neg (Nat.not_lt.2 hfew), if_neg (State.not_held_of_usable hu)]
      · rw [if_neg (Nat.not_lt.2 hfew), if_pos hheld]
      · rw [if_pos hmany]
  case spareDone =>
    exact fun s k i m hk hheld hm hi => ⟨_, exec_memSpareDone hk hheld hm hi, _, rfl, s.spareCounted_subs k m i,
      s.spareCounted_fld m i hk, s.spareCounted_repair k m i⟩
  case up =>
    intro s k r hk hon ht hup hw
    rw [exec_memLaneUp r hk hon ht, State.laneTrained_up hup hw]
  case down =>
    intro s k r hk hon ht h
    rw [exec_memLaneUp r hk hon ht, State.laneTrained_down h]
  case timeout =>
    intro s k hk hu hr
    rw [exec_memoryReplyTimeout hk hu hr]
    exact ⟨fun h => by rw [if_pos h], fun h => by rw [if_neg (Bool.eq_false_iff.1 h)]⟩

/-- Settles O29. By the model's choices the patrol waits at a line while the lane of its fresh copy is held, and the code words that a
repair mends count as corrected (log entry 66). -/
theorem tierMemoryCompletes : Obligations.TierMemoryCompletes := by
  refine ⟨?fill, ?resync, ?scrub, ?starts, ?ignored, ?copied, fun s e mv he hcur hs hfree => exec_evacPageDone he hcur hs hfree⟩
  case fill =>
    intro s page hw hu hp hr
    obtain ⟨hwaits, hreqs⟩ := s.foldl_fillCopy_queues (s.copiesOf page)
    exact ⟨s.pageFilled page, exec_pageFillDone hw hu hp hr, s.pageFilled_isWritten page, hwaits, hreqs⟩
  case resync =>
    exact fun s k hk hr hs hc => ⟨_, exec_mirrorResyncDone hk hr hs hc, s.resynced_stale k,
      fun _ => State.ne_of_mem_resynced_missed, s.not_mem_resynced_behind k, s.resynced_regsBut k⟩
  case scrub =>
    rintro s u s1 m i key c pl o hm hh hr hn rfl rfl rfl rfl
    refine ⟨fun x hb hc => exec_tierScrubRead_cleans hm hh hr hn hb hc, ?waits, ?repairs,
      fun hc hmir hp => exec_tierScrubRead_loses hm hh hr hn hmir hp hc⟩
    case waits => exact fun hb hmir hf hreach hheld => exec_tierScrubRead_waits hm hh hr hn hb hmir hf hreach hheld
    case repairs => exact fun s2 x hc hmir hf hready ho => exec_tierScrubRead_repairs hm hh hr hn hmir hf hready hc ho
  case starts =>
    exact fun s m ho hb he => ⟨fun hm => exec_memEvacGo_starts ho hb hm he, fun hm => exec_memMigrateGo_starts ho hb hm he⟩
  case ignored =>
    intro s e m ho hb he
    have hne : s.mem.evac ≠ none := by simp [he]
    exact ⟨exec_memEvacGo_ignored ho hb m hne, exec_memMigrateGo_ignored ho hb m hne⟩
  case copied =>
    exact fun s e mv he hcur hs hfrom hto => ⟨_, exec_evacPageCopied he hcur hs hfrom hto, State.pageSwitched_evac,
      State.pageSwitched_placeOf, State.pageSwitched_journal, State.pageSwitched_regsBut⟩

end Sys2Proof.Machine
end

section
/-! SUPPORT. Circuits: their setup and teardown from the registers, and the packets that reserve and release them along a path (R477, R481,
R497). -/

namespace Sys2Proof.Machine

open Sys2Proof.Safety

/-! ## The registers of a circuit (R477, R497) -/

/-- A circuit shown as SETTING_UP. -/
def State.circSettingUp (s : State) (c : Nat) : State :=
  ((s.setFld (F.FAB_CIRC_STATE.at c) ccSettingUp).setFld (F.FAB_CIRC_CAUSE.at c) 0).setFld (F.FAB_CIRC_SETUP.at c) 1

/-- A circuit of this chip shown as TEARING, its own reservation released. -/
def State.circTearing (s : State) (c : Nat) : State :=
  (((s.releaseSlots fun x => decide (x.origin = s.chipId) && decide (x.circ = c)).setFld (F.FAB_CIRC_STATE.at c) ccTearing).setFld
    (F.FAB_CIRC_TEARDOWN.at c) 1).setFld (F.FAB_CIRC_SETUP.at c) 0

/-- STATE of a circuit, written before two fields above it. -/
theorem State.circState_under (s : State) (c : Nat) {n m k : Nat} {f g : Fld} (hn : n < 16) (hf : 3 < f.lo) (hg : 3 < g.lo) :
    (((s.setFld (F.FAB_CIRC_STATE.at c) n).setFld f m).setFld g k).fld (F.FAB_CIRC_STATE.at c) = n := by
  rw [State.fld_setFld_apart _ _ (.inl hg), State.fld_setFld_apart _ _ (.inl hf), State.fld_setFld_same _ _ _ (show 3 < 64 by decide)]
  exact Nat.mod_eq_of_lt hn

theorem State.circSettingUp_fields (s : State) (c : Nat) :
    (s.circSettingUp c).fld (F.FAB_CIRC_STATE.at c) = ccSettingUp ∧ (s.circSettingUp c).fld (F.FAB_CIRC_CAUSE.at c) = 0 ∧
      (s.circSettingUp c).fld (F.FAB_CIRC_SETUP.at c) = 1 := by
  refine ⟨s.circState_under c (by decide) (show 3 < 8 by decide) (show 3 < 16 by decide), ?_,
    State.fld_setFld_same _ _ _ (show 16 < 64 by decide)⟩
  rw [State.circSettingUp, State.fld_setFld_apart _ _ (.inl (show 11 < 16 by decide))]
  exact State.fld_setFld_same _ _ _ (show 11 < 64 by decide)

theorem State.circTearing_fields (s : State) (c : Nat) :
    (s.circTearing c).fld (F.FAB_CIRC_STATE.at c) = ccTearing ∧ (s.circTearing c).fld (F.FAB_CIRC_TEARDOWN.at c) = 1 ∧
      (s.circTearing c).fld (F.FAB_CIRC_SETUP.at c) = 0 := by
  refine ⟨State.circState_under _ c (by decide) (show 3 < 17 by decide) (show 3 < 16 by decide), ?_,
    State.fld_setFld_same _ _ _ (show 16 < 64 by decide)⟩
  rw [State.circTearing, State.fld_setFld_apart _ _ (.inr (show 16 < 17 by decide))]
  exact State.fld_setFld_same _ _ _ (show 17 < 64 by decide)

theorem State.idleCircuit_fields (s : State) (c : Nat) :
    (s.idleCircuit c).fld (F.FAB_CIRC_STATE.at c) = ccIdle ∧ (s.idleCircuit c).fld (F.FAB_CIRC_CAUSE.at c) = 0 ∧
      (s.idleCircuit c).fld (F.FAB_CIRC_TEARDOWN.at c) = 0 := by
  refine ⟨State.circState_under _ c (by decide) (show 3 < 8 by decide) (show 3 < 17 by decide), ?_,
    State.fld_setFld_same _ _ _ (show 17 < 64 by decide)⟩
  rw [State.idleCircuit, State.fld_setFld_apart _ _ (.inl (show 11 < 17 by decide))]
  exact State.fld_setFld_same _ _ _ (show 11 < 64 by decide)

theorem State.idleCircuit_regsBut (s : State) (c : Nat) : RegsBut [(F.FAB_CIRC_STATE.at c).reg] s (s.idleCircuit c) := by
  have hmem : (F.FAB_CIRC_STATE.at c).reg ∈ [(F.FAB_CIRC_STATE.at c).reg] := List.mem_singleton_self _
  have hstate := (RegsBut.refl _ s).setFld ccIdle hmem
  have hcause := hstate.setFld (f := F.FAB_CIRC_CAUSE.at c) 0 hmem
  exact hcause.setFld (f := F.FAB_CIRC_TEARDOWN.at c) 0 hmem

section
variable {s : State} {c : Nat} (ho : s.off = false) (hb : s.blockOn blkFab = true) (hc : c < 16)
include ho hb hc

/-- SETUP of a circuit that is IDLE or FAILED and has a path. -/
theorem exec_setup {s1 : State} {r : Nat} (hst : s.fld (F.FAB_CIRC_STATE.at c) = ccIdle ∨ s.fld (F.FAB_CIRC_STATE.at c) = ccFailed)
    (hh : s.fld (F.FAB_CIRC_HOPS.at c) ≠ 0)
    (hr : s.reserve (s.fld (F.FAB_CIRC_PORT_A.at c)) (s.fld (F.FAB_CIRC_SHARE.at c)) s.chipId c 32 (s.fld (F.FAB_CIRC_DEST_CHIP.at c)) =
      (s1, r)) :
    exec (.setup c) s = .next (if r = akOk then (s1.circSettingUp c).sendCirc c ptCircSetup
      else s1.failCircuit c (if r = akNotUp then cfNotUp else cfNoSlot)) := by
  refine congrArg Host.Outcome.next ((State.powered_of_on _ ho hb).trans ((if_pos ⟨hc, hst, hh⟩).trans ?_))
  rw [hr]
  rfl

theorem exec_circuitTeardownWrite_tearing
    (hst : s.fld (F.FAB_CIRC_STATE.at c) = ccEstablished ∨ s.fld (F.FAB_CIRC_STATE.at c) = ccSettingUp ∨
      (s.fld (F.FAB_CIRC_STATE.at c) = ccFailed ∧ s.portOn (s.fld (F.FAB_CIRC_PORT_A.at c)) = true)) :
    exec (.circuitTeardownWrite c) s = .next ((s.circTearing c).sendCirc c ptCircDown) :=
  congrArg Host.Outcome.next ((State.powered_of_on _ ho hb).trans ((if_neg (Nat.not_le.2 hc)).trans (if_pos hst)))

theorem exec_circuitTeardownWrite_idle (hst : s.fld (F.FAB_CIRC_STATE.at c) = ccFailed)
    (hp : s.portOn (s.fld (F.FAB_CIRC_PORT_A.at c)) = false) :
    exec (.circuitTeardownWrite c) s = .next (s.idleCircuit c) := by
  refine congrArg Host.Outcome.next ((State.powered_of_on _ ho hb).trans ((if_neg (Nat.not_le.2 hc)).trans ((if_neg ?_).trans
    (if_pos hst))))
  simp [hst, hp, ccFailed, ccEstablished, ccSettingUp]

end

end Sys2Proof.Machine
end

section
/-! SUPPORT. Arriving packets: those that go on to another chip, those taken for this one, the packets of circuits, and requests without an
answer (R443, R448 to R452, R468, R469, R477, R481). -/

namespace Sys2Proof.Machine

open Sys2Proof.Safety

/-! ## Packets for another chip (R443, R448, R468, R469) -/

/-- A packet that arrived on a port goes on, over the circuit it came on or by the routes; its credits are owed once it leaves. -/
def State.passOn (s : State) (p : Nat) (k : Packet) : State :=
  let s1 := s.setPort p { s.port p with
    rx := (s.port p).rx.set (s.channelOf p k) ((s.port p).rx.getD (s.channelOf p k) 0 - pktFlits k) }
  let owe := s.owedFor p (s.bufferOf p k) k
  match s.onCircuit p k with
  | some x => s1.putOut { port := x.port, reply := false, input := 33 + x.slot, pkt := onward k, owe := owe }
  | none => s1.routePacket p owe (onward k)

section
variable {s : State} {p : Nat} {k : Packet} (hp : p < 32) (hm : s.mayArrive p k = true)
include hp hm

theorem exec_packetForward_malformed (hh : headOk k = false) :
    exec (.packetForward p k) s = .next ((s.takePacket p k).addSat F.FAB_DROP_MALFORMED 1) :=
  congrArg Host.Outcome.next ((if_neg (by simp [hm, hp])).trans (if_pos (by simp [hh])))

/-- A head for another chip goes on, unless its RGEN is stale or its hops are used up. -/
theorem exec_packetForward_onward (hh : headOk k = true) (hd : pktDest k ≠ s.chipId) (hup : pktType k ≠ ptCircSetup)
    (hdown : pktType k ≠ ptCircDown) :
    exec (.packetForward p k) s = .next (if s.rgenOk p k = false then (s.takePacket p k).cutPacket F.FAB_DROP_STALE_RGEN k
      else if pktHop k = 2 then (s.takePacket p k).cutPacket F.FAB_DROP_HOP_LIMIT k else s.passOn p k) := by
  refine congrArg Host.Outcome.next ((if_neg (by simp [hm, hp])).trans ((if_neg (by simp [hh])).trans
    ((if_neg (by simp [hd, hup, hdown])).trans ?_)))
  simp only [Bool.not_eq_true']
  rfl

end

/-! ## Packets for this chip (R449, R450, R454) -/

/-- A whole packet of type `t` for this chip is taken and handed to its effect. -/
theorem State.arrive_of_whole {s : State} {p t : Nat} {k : Packet} (hm : s.mayArrive p k = true) (hh : headOk k = true)
    (hlen : k.data.length = 32 * pktLen k) (hd : pktDest k = s.chipId) (hr : s.rgenOk p k = true) (hk : k.poisoned = false)
    (ht : pktType k = t) (f : State → State) : s.arrive p k t f = f (s.takePacket p k) :=
  (if_neg (by simp [hm, ht])).trans ((if_neg (by simp [hh, hlen])).trans ((if_neg (Decidable.not_not.2 hd)).trans
    ((if_neg (by simp [hr])).trans (if_neg (by simp [hk, isCut, hlen])))))

/-! ## The packets of circuits (R477, R478, R481) -/

/-- Past the checks of an arriving packet: its row, its head, its RGEN and its flits. -/
theorem ite_of_checked {x h r c : Bool} {s1 s2 s3 s4 t : State} (hx : x = false) (hh : h = true) (hr : r = true) (hc : c = false) :
    (if x then s1 else if !h then s2 else if !r then s3 else if c then s4 else t) = t := by
  simp [hx, hh, hr, hc]

/-- Does a CIRC_TEARDOWN name a reservation: by its circuit, and by the originator, whom its HOPS tell? -/
def circNamed (k : Packet) (x : CircSlot) : Bool :=
  decide (x.circ = bitsOf k.w3 3 0) &&
    decide (x.origin = if decide (bitsOf k.w2 17 16 ≠ 0) then pktSrc k else pktDest k)

/-- The reservations that a CIRC_TEARDOWN names released, but for those of this chip's own circuits. -/
def State.circReleased (s : State) (p : Nat) (k : Packet) : State :=
  (s.takePacket p k).releaseSlots fun x => circNamed k x && decide (x.origin ≠ s.chipId)

/-- The reservation of a circuit that ends at this chip. -/
def State.circEnd (s : State) (p : Nat) (k : Packet) : CircSlot :=
  { port := 32, slot := 0, share := 0, origin := pktSrc k, circ := bitsOf k.w3 3 0, input := p, dest := s.chipId
    inSlot := (s.takePacket p k).freeInSlot p }

/-- A circuit that ends at this chip reserved. -/
def State.circEnded (s : State) (p : Nat) (k : Packet) : State :=
  { s.takePacket p k with fab := { (s.takePacket p k).fab with slots := (s.takePacket p k).fab.slots ++ [s.circEnd p k] } }

section
variable {s : State} {p : Nat} {k : Packet} (hm : s.mayArrive p k = true) (hh : headOk k = true) (hr : s.rgenOk p k = true)
  (hk : k.poisoned = false)
include hm hh hr hk

section
variable (ht : pktType k = ptCircSetup)
include ht

theorem exec_circSetup_end (hp : p < 32) (hd : pktDest k = s.chipId) :
    exec (.circSetup p k) s = .next ((s.circEnded p k).sendReply ((s.takePacket p k).replyTo k akOk)) :=
  congrArg Host.Outcome.next ((ite_of_checked (by simp [hm, ht, hp]) hh hr hk).trans (if_pos hd))

theorem exec_circSetup_path (hp : p < 32) (hd : pktDest k ≠ s.chipId) (hhop : pktHop k < 2) (hlast : pktHop k + 1 < bitsOf k.w2 17 16)
    {out st : Nat} {s2 : State} (hout : out = if pktHop k = 0 then bitsOf k.w2 9 5 else bitsOf k.w2 14 10)
    (hres : (s.takePacket p k).reserve out (bitsOf k.w2 23 20) (pktSrc k) (bitsOf k.w3 3 0) p (pktDest k) = (s2, st)) :
    exec (.circSetup p k) s = .next (if st ≠ akOk then s2.sendReply (s2.replyTo k st)
      else s2.putOut { port := out, reply := false, input := p, owe := none
                       pkt := { k with w0 := fieldPut k.w0 51 50 (pktHop k + 1) } }) := by
  subst hout
  refine congrArg Host.Outcome.next ((ite_of_checked (by simp [hm, ht, hp]) hh hr hk).trans ((if_neg hd).trans
    ((if_neg (by omega)).trans ?_)))
  dsimp only
  rw [hres]

end

variable (ht : pktType k = ptCircDown)
include ht

/-- The answer of the destination, where no circuit of its own fails. -/
theorem exec_circTeardown_answered {c : Nat} (hc : c = bitsOf k.w3 3 0) (hd : pktDest k = s.chipId)
    (hst : bitsOf k.w2 17 16 ≠ 0 ∨ (s.fld (F.FAB_CIRC_STATE.at c) ≠ ccEstablished ∧ s.fld (F.FAB_CIRC_STATE.at c) ≠ ccSettingUp)) :
    exec (.circTeardown p k) s = .next ((s.circReleased p k).sendReply ((s.circReleased p k).replyTo k akOk)) := by
  subst hc
  refine congrArg Host.Outcome.next ((ite_of_checked (by simp [hm, ht]) hh hr hk).trans ((if_pos hd).trans
    (congrArg (fun v : State => v.sendReply (v.replyTo k akOk)) (if_neg ?_))))
  rcases hst with h | h <;> simp [h]

/-- A CIRC_TEARDOWN that comes back to the originator fails its circuit. -/
theorem exec_circTeardown_failed {c : Nat} (hc : c = bitsOf k.w3 3 0) (hd : pktDest k = s.chipId) (hback : bitsOf k.w2 17 16 = 0)
    (hst : s.fld (F.FAB_CIRC_STATE.at c) = ccEstablished ∨ s.fld (F.FAB_CIRC_STATE.at c) = ccSettingUp) :
    exec (.circTeardown p k) s = .next (((s.circReleased p k).failCircuit c cfPortDown).sendReply
      (((s.circReleased p k).failCircuit c cfPortDown).replyTo k akOk)) := by
  subst hc
  exact congrArg Host.Outcome.next ((ite_of_checked (by simp [hm, ht]) hh hr hk).trans ((if_pos hd).trans
    (congrArg (fun v : State => v.sendReply (v.replyTo k akOk)) (if_pos (by simpa [hback] using hst)))))

theorem exec_circTeardown_limit (hd : pktDest k ≠ s.chipId) (hhop : 2 ≤ pktHop k) :
    exec (.circTeardown p k) s = .next ((s.circReleased p k).cutPacket F.FAB_DROP_HOP_LIMIT k) :=
  congrArg Host.Outcome.next ((ite_of_checked (by simp [hm, ht]) hh hr hk).trans ((if_neg hd).trans (if_pos hhop)))

/-- A CIRC_TEARDOWN toward the originator is routed, whether or not it released a reservation here. -/
theorem exec_circTeardown_back (hd : pktDest k ≠ s.chipId) (hhop : pktHop k < 2) (hback : bitsOf k.w2 17 16 = 0) :
    exec (.circTeardown p k) s = .next ((s.circReleased p k).routePacket p none { k with w0 := fieldPut k.w0 51 50 (pktHop k + 1) }) := by
  refine congrArg Host.Outcome.next ((ite_of_checked (by simp [hm, ht]) hh hr hk).trans ((if_neg hd).trans
    ((if_neg (Nat.not_le.2 hhop)).trans ?_)))
  dsimp only
  split
  · exact if_neg (by simp [hback])
  · rfl

end

/-! ## Requests without an answer (R450, R452) -/

/-- A request that timed out: it is no longer outstanding, and its tag is held from now on. -/
def State.tagHeld (s : State) (tag : Nat) : State :=
  { s.endReq tag with fab := { (s.endReq tag).fab with heldTags := (s.endReq tag).fab.heldTags ++ [(tag, s.now)] } }

theorem exec_replyTimeout_tadd {s : State} {tag : Nat} {r : FabReq}
    (hf : (s.fab.reqs.find? fun r => decide (r.tag = tag)) = some r)
    (hlate : r.sent + 1000 * s.fld F.FAB_TIMER_CFG_REPLY_TIMEOUT_US ≤ s.now) (hkind : r.kind = .tadd) :
    exec (.replyTimeout tag) s = .next ((s.tagHeld tag).addSat F.FAB_DROP_TADD_LOST 1) := by
  refine congrArg Host.Outcome.next ?_
  unfold State.doReplyTimeout
  rw [hf]
  refine (if_neg (Nat.not_lt.2 hlate)).trans ?_
  dsimp only
  rw [hkind]
  rfl

/-- A tag no longer held. -/
def State.tagFreed (s : State) (tag : Nat) : State :=
  { s with fab := { s.fab with heldTags := s.fab.heldTags.filter fun h => decide (h.1 ≠ tag) } }

theorem exec_tagReuseExpiry {s : State} {tag : Nat} (hheld : (s.fab.heldTags.any fun h => decide (h.1 = tag) &&
    decide (h.2 + 1000 * s.fld F.FAB_TIMER_CFG_REPLY_TIMEOUT_US ≤ s.now)) = true) :
    exec (.tagReuseExpiry tag) s = .next (s.tagFreed tag).startWaiting := congrArg Host.Outcome.next (if_pos hheld)

end Sys2Proof.Machine
end

section
/-! SUPPORT. A fabric that is HELD gives up steps and collectives (R462, R463, R526): neither they nor the packets they send write FAB_STATUS
or end the discovery under way. -/

namespace Sys2Proof.Machine

/-- The discovery under way, and FAB_STATUS. -/
def State.discovery (s : State) : Option Nat × Word := (s.fab.discoverAt, s.reg F.FAB_STATUS_STATE.reg)

section
variable (s : State)

/-! ## Registers (R492) -/

theorem State.setReg_discovery {a : Nat} (v : Word) (h : F.FAB_STATUS_STATE.reg ≠ a) : (s.setReg a v).discovery = s.discovery :=
  congrArg (Prod.mk _) (s.reg_setReg_ne v h)

theorem State.setFld_discovery {f : Fld} (n : Nat) (h : F.FAB_STATUS_STATE.reg ≠ f.reg) : (s.setFld f n).discovery = s.discovery :=
  s.setReg_discovery _ h

theorem State.addSat_discovery {f : Fld} (n : Nat) (h : F.FAB_STATUS_STATE.reg ≠ f.reg) : (s.addSat f n).discovery = s.discovery :=
  s.setFld_discovery _ h

/-- FAB_STATUS lies below the registers of the collectives and of the clusters. -/
theorem fabStatus_ne {a : Nat} (h : 0x700000 ≤ a) : F.FAB_STATUS_STATE.reg ≠ a := by
  show 0x600300 ≠ a
  omega

/-- What each step of a fold keeps, the fold keeps. -/
theorem State.foldl_discovery {α : Type} (l : List α) {f : State → α → State} (h : ∀ t x, (f t x).discovery = t.discovery) :
    (l.foldl f s).discovery = s.discovery :=
  List.foldlRecOn l f (motive := fun t : State => t.discovery = s.discovery) rfl fun t ht x _ => (h t x).trans ht

/-! ## Packets sent (R451, R468, R482) -/

theorem State.oweCredit_discovery (o : Option (Nat × Nat × Nat)) : (s.oweCredit o).discovery = s.discovery := by
  cases o <;> rfl

theorem State.sendReply_discovery (r : Packet) : (s.sendReply r).discovery = s.discovery := by
  unfold State.sendReply
  split
  · rfl
  · split
    · rfl
    · exact s.addSat_discovery 1 (by decide)

theorem State.routePacket_discovery (i : Nat) (owe : Option (Nat × Nat × Nat)) (k : Packet) :
    (s.routePacket i owe k).discovery = s.discovery := by
  have hdrop : ((s.addSat F.FAB_DROP_NO_ROUTE 1).oweCredit owe).discovery = s.discovery :=
    (State.oweCredit_discovery _ owe).trans (s.addSat_discovery 1 (by decide))
  unfold State.routePacket
  split
  · rfl
  · split
    · rfl
    · dsimp only
      split
      · exact hdrop
      · exact (State.sendReply_discovery _ _).trans hdrop

theorem State.startReq_discovery (kind : ReqKind) (k : Packet) : (s.startReq kind k).discovery = s.discovery := by
  unfold State.startReq
  dsimp only
  split
  · rfl
  · rfl
  · split
    · rfl
    · exact State.routePacket_discovery _ _ _ _

theorem State.inject_discovery (kind : ReqKind) (k : Packet) : (s.inject kind k).discovery = s.discovery := by
  unfold State.inject
  split
  · exact s.startReq_discovery kind k
  · rfl

/-! ## Collectives that end (R519, R526, R539) -/

theorem State.showCol_discovery : s.showCol.discovery = s.discovery := by
  unfold State.showCol
  dsimp only
  split <;> simp (disch := decide) only [State.setFld_discovery]

/-- A field of the state of a collective group. -/
theorem State.setGroupFld_discovery {f : Fld} (g n : Nat) (h : 0x700000 ≤ f.reg) : (s.setFld (f.at g) n).discovery = s.discovery :=
  s.setFld_discovery n (fabStatus_ne (Nat.le_trans h (Nat.le_add_right _ _)))

theorem State.dropColl_discovery (c : Coll) : (s.dropColl c).discovery = s.discovery := by
  unfold State.dropColl
  refine (State.showCol_discovery _).trans ((State.setGroupFld_discovery _ _ _ (by decide)).trans ?_)
  split
  · rfl
  · exact State.setGroupFld_discovery _ _ _ (by decide)

/-- The counters of the causes lie among the registers of the collectives (R540). -/
theorem collCounter_ne {cause : Nat} {f : Fld} (h : collCounter cause = some f) : F.FAB_STATUS_STATE.reg ≠ f.reg := by
  unfold collCounter at h
  split at h
  · cases h
    decide
  · split at h
    · cases h
      decide
    · split at h
      · cases h
        decide
      · cases h

theorem State.endColl_discovery (c : Coll) (cause : Nat) (send : Bool) : (s.endColl c cause send).discovery = s.discovery := by
  have hsent : (if send then s.sendOthers c ckAbort (BitVec.ofNat 64 cause) 0 else s).discovery = s.discovery := by
    split
    · exact s.foldl_discovery _ fun t r => t.inject_discovery _ _
    · rfl
  have hended := (State.setGroupFld_discovery _ c.group cause (f := F.COL_GROUP_STATE_LAST_CAUSE) (by decide)).trans
    ((State.dropColl_discovery _ c).trans hsent)
  unfold State.endColl
  dsimp only
  split
  · next f hf => exact (State.addSat_discovery _ 1 (collCounter_ne hf)).trans hended
  · exact hended

/-! ## Steps that replay (R177, R180, R526) -/

theorem State.discard_discovery (p : Nat) : (s.discard p).discovery = s.discovery := by
  unfold State.discard
  dsimp only
  split
  · rfl
  · exact State.setFld_discovery _ _ (fabStatus_ne (by show 0x700000 ≤ 0x01000000 + 0x10000 * p + 0; omega))

theorem State.replayStep_discovery (lead cause : Nat) (lanes : List Nat) : (s.replayStep lead cause lanes).discovery = s.discovery := by
  have hall (t : State) (x : Step) : (t.discardAll x).discovery = t.discovery :=
    (State.foldl_discovery _ x.map fun t m => t.discard_discovery m.2).trans
      (State.foldl_discovery t _ fun t c => t.endColl_discovery c _ _)
  unfold State.replayStep
  split
  · rfl
  · split
    · rfl
    · exact hall _ _

theorem State.loseColl_discovery (c : Coll) : (s.loseColl c).discovery = s.discovery := by
  unfold State.loseColl
  split
  · rfl
  · exact (State.replayStep_discovery _ _ _ _).trans (s.endColl_discovery c _ _)

theorem State.failRemote_discovery : s.failRemote.discovery = s.discovery := by
  unfold State.failRemote
  refine (State.foldl_discovery _ _ fun t c => t.loseColl_discovery c).trans ((State.foldl_discovery _ _ fun t w => ?_).trans rfl)
  split
  · split
    · exact t.replayStep_discovery _ _ _
    · rfl
  · rfl

end

end Sys2Proof.Machine
end

section
/-! SUPPORT. Discovery, table swaps and port drains (R461, R462, R466, R470 to R472, R476). -/

namespace Sys2Proof.Machine

open Sys2Proof.Safety

/-! ## Light and HELLO (R440, R461) -/

/-- Light seen at a port whose role is ABSENT shows in DISCOVERY while the domain is on. -/
theorem State.seeLight_fields (s : State) (p : Nat) (light : Bool) :
    ((s.seeLight p light).port p).light = light ∧
      (s.memOn = true → (s.seeLight p light).fld (F.FAB_PORT_STATUS_DISCOVERY.at p) = if light then dvExtra else dvNotPlanned) ∧
      (s.memOn = false → (s.seeLight p light).regs = s.regs) ∧
      RegsBut [(F.FAB_PORT_STATUS_DISCOVERY.at p).reg] s (s.seeLight p light) := by
  have hlight : ((s.setPort p { s.port p with light := light }).port p).light = light :=
    congrArg Port.light (mget_mset_same _ _ _ _)
  by_cases hon : s.memOn = true
  · rw [show s.seeLight p light = (s.setPort p { s.port p with light := light }).setFld (F.FAB_PORT_STATUS_DISCOVERY.at p)
      (if light then dvExtra else dvNotPlanned) from if_pos hon]
    refine ⟨hlight, fun _ => ?_, fun hoff => absurd (hon.symm.trans hoff) (by decide),
      (RegsBut.refl _ s).setFld (t := s.setPort p _) _ (List.mem_singleton_self _)⟩
    refine (State.fld_setFld_same _ _ _ (show 11 < 64 by decide)).trans (Nat.mod_eq_of_lt ?_)
    show _ < 2 ^ (11 + 1 - 8)
    cases light <;> decide
  · rw [show s.seeLight p light = s.setPort p { s.port p with light := light } from if_neg hon]
    exact ⟨hlight, fun h => absurd h hon, fun _ => rfl, RegsBut.refl _ s⟩

theorem exec_hello_unplanned {s : State} {p : Nat} (h : HelloMsg) (hp : p < 32) (hpl : s.planned p = false) (hst : s.portState p = poDark) :
    exec (.hello p h) s = .next (s.seeLight p true) :=
  congrArg Host.Outcome.next ((if_neg (Nat.not_le.2 hp)).trans ((if_pos (by simp [hpl])).trans (if_pos hst)))

/-- The neighbour that a HELLO names shown. -/
def State.neighbourShown (s : State) (p : Nat) (h : HelloMsg) : State :=
  (s.setFld (F.FAB_PORT_STATUS_NEIGHBOUR_CHIP.at p) h.chip).setFld (F.FAB_PORT_STATUS_NEIGHBOUR_PORT.at p) h.port

/-- Does a HELLO name the neighbour that the plan gives a port (R461)? -/
def State.expects (s : State) (p : Nat) (h : HelloMsg) : Prop :=
  h.chip = s.planBits p 9 4 ∧ h.port = s.planBits p 14 10 ∧ h.rackId = s.rackId

/-- The expected neighbour answered, on the width that it gives. -/
def State.neighbourMatched (s : State) (p : Nat) (h : HelloMsg) : State :=
  (((s.neighbourShown p h).setFld (F.FAB_PORT_STATUS_DISCOVERY.at p) dvMatch).sendHello p).setPort p
    { (s.neighbourShown p h).port p with lost := (List.range 4).drop h.width }

/-- Another neighbour refused: the port is left DARK. -/
def State.neighbourRefused (s : State) (p : Nat) (h : HelloMsg) : State :=
  (((((s.neighbourShown p h).setFld (F.FAB_PORT_STATUS_DISCOVERY.at p) dvMismatch).sendCtrl p .portDark).setFld
    (F.FAB_PORT_STATUS_STATE.at p) poDark).setFld (F.FAB_PORT_CFG_RETRAIN.at p) 0).showFabric

section
variable {s : State} {p : Nat} {h : HelloMsg} (hp : p < 32) (hpl : s.planned p = true) (hst : s.portState p = poTraining)
include hp hpl hst

theorem exec_hello_match (hm : s.expects p h) :
    exec (.hello p h) s = .next (if (s.port p).retrainAt.isNone then (s.neighbourMatched p h).portReady p
      else (s.neighbourMatched p h).setPort p { (s.neighbourMatched p h).port p with hello := true }) :=
  congrArg Host.Outcome.next ((if_neg (Nat.not_le.2 hp)).trans ((if_neg (by simp [hpl])).trans ((if_neg (Decidable.not_not.2 hst)).trans
    (if_pos hm))))

theorem exec_hello_mismatch (hm : ¬ s.expects p h) : exec (.hello p h) s = .next (s.neighbourRefused p h) :=
  congrArg Host.Outcome.next ((if_neg (Nat.not_le.2 hp)).trans ((if_neg (by simp [hpl])).trans ((if_neg (Decidable.not_not.2 hst)).trans
    (if_neg hm))))

end

/-! ## The end of discovery (R462, R465, R466) -/

/-- The planned ports that carry no traffic. -/
def State.missingPorts (s : State) : List Nat := (List.range 32).filter fun p => s.planned p && !s.portOn p

theorem State.missingPorts_nil {s : State} (h : ∀ p < 32, s.planned p = true → s.portOn p = true) : s.missingPorts = [] :=
  List.filter_eq_nil_iff.2 fun p hp => by
    intro hmiss
    obtain ⟨hpl, hoff⟩ := (Bool.and_eq_true _ _).mp hmiss
    simp [h p (List.mem_range.1 hp) hpl] at hoff

theorem State.missingPorts_required {s : State} {p : Nat} (hp : p < 32) (hpl : s.planned p = true) (hon : s.portOn p = false)
    (hrole : s.portRole p = prRequired) : (s.missingPorts.any fun p => decide (s.portRole p = prRequired)) = true :=
  List.any_eq_true.2 ⟨p, List.mem_filter.2 ⟨List.mem_range.2 hp, by simp [hpl, hon]⟩, decide_eq_true hrole⟩

/-- Discovery over, with the time of its end and RESUME clear. -/
def State.discoveryOver (s : State) : State :=
  ({ s with fab := { s.fab with discoverAt := none }, clock := { s.clock with discoveryEnd := some s.now } } : State).setFld
    F.FAB_CTL_RESUME 0

/-- The fabric UP. -/
def State.fabricUp (s : State) : State := ((s.setFld F.FAB_STATUS_STATE fsUp).setFabHeld false).showFabric

/-- The fabric HELD at the end of discovery, with its event where it was not HELD before. -/
def State.discoveryHeld (s : State) : State :=
  if s.fabState = fsHeld then s.discoveryOver.holdFabric
  else s.discoveryOver.holdFabric.raiseEvent 0x1E 0 (s.discoveryOver.holdFabric.fld F.FAB_STATUS_MISSING)

/-- Discovery ends once no planned port is missing or its time is over. -/
theorem exec_discoveryEnd {s : State} {t0 : Nat} (hat : s.fab.discoverAt = some t0)
    (hend : s.missingPorts = [] ∨ t0 + 400000000 ≤ s.now) :
    exec .discoveryEnd s = .next (if s.fabState = fsUp then s.discoveryOver.showFabric
      else if (s.missingPorts.any fun p => decide (s.portRole p = prRequired)) = true then s.discoveryHeld
      else s.discoveryOver.fabricUp.startWaiting) := by
  refine congrArg Host.Outcome.next ?_
  unfold State.doDiscoveryEnd
  rw [hat]
  exact if_pos (hend.imp_left List.isEmpty_iff.2)

theorem State.showFabric_fab (s : State) : s.showFabric.fab = s.fab := by
  unfold State.showFabric
  dsimp only
  split
  · exact State.raiseEvent_frame (·.fab) (fun _ _ _ => rfl) (fun _ _ => rfl) (fun _ _ => rfl) _ _ _ _
  · rfl

theorem State.showFabric_fabState (s : State) : s.showFabric.fabState = s.fabState := by
  have hshown (n b : Nat) : ((s.setFld F.FAB_STATUS_MISSING n).setFld F.GLB_STATE_TOPO_DEGRADED b).fabState = s.fabState :=
    (State.fld_setFld_ne _ _ (by decide)).trans (State.fld_setFld_apart _ _ (.inr (by decide)))
  unfold State.showFabric
  dsimp only
  split
  · exact (State.fld_raiseEvent_below _ _ _ _ (by decide)).trans (hshown _ _)
  · exact hshown _ _

/-- STATE of the fabric stands once the marks of its hold and its missing ports are shown. -/
theorem State.fabState_showFabric_setFabHeld (s : State) {n : Nat} (hn : n < 4) (b : Bool) :
    ((s.setFld F.FAB_STATUS_STATE n).setFabHeld b).showFabric.fabState = n := by
  refine (State.showFabric_fabState _).trans ((State.fld_setFld_ne _ _ (by decide)).trans ((State.fld_setFld_ne _ _ (by decide)).trans
    ((State.fld_setFld_same _ _ _ (by decide)).trans ?_)))
  exact Nat.mod_eq_of_lt hn

theorem State.fabricUp_fields (s : State) : s.fabricUp.fab = s.fab ∧ s.fabricUp.fabState = fsUp :=
  ⟨State.showFabric_fab _, s.fabState_showFabric_setFabHeld (by decide) false⟩

theorem State.fabState_of_discovery {s t : State} (h : t.discovery = s.discovery) : t.fabState = s.fabState :=
  congrArg (fun d : Option Nat × Word => fieldGet d.2 63 62) h

theorem State.holdFabric_fields (s : State) :
    s.holdFabric.fab.discoverAt = s.fab.discoverAt ∧ s.holdFabric.fabState = fsHeld := by
  have hkept := State.failRemote_discovery (((s.setFld F.FAB_STATUS_STATE fsHeld).setFabHeld true).showFabric)
  exact ⟨(congrArg Prod.fst hkept).trans (congrArg Fab.discoverAt (State.showFabric_fab _)),
    (State.fabState_of_discovery hkept).trans (s.fabState_showFabric_setFabHeld (by decide) true)⟩

theorem State.discoveryHeld_fields (s : State) : s.discoveryHeld.fab.discoverAt = none ∧ s.discoveryHeld.fabState = fsHeld := by
  obtain ⟨hat, hstate⟩ := s.discoveryOver.holdFabric_fields
  unfold State.discoveryHeld
  split
  · exact ⟨hat, hstate⟩
  · exact ⟨(State.raiseEvent_frame (·.fab.discoverAt) (fun _ _ _ => rfl) (fun _ _ => rfl) (fun _ _ => rfl) _ _ _ _).trans hat,
      (State.fld_raiseEvent_below _ _ _ _ (by decide)).trans hstate⟩

/-- RESUME of a chip whose straps, plan and section are right, while no discovery runs. -/
theorem exec_resume {s : State} (ho : s.off = false) (hb : s.blockOn blkFab = true) (ht : s.mayTrain = true)
    (hr : s.fld F.FAB_CTL_RESUME = 0) (hsect : (s.sect 3).isEmpty = false) (hstrap : s.fld F.FAB_STATUS_STRAP_ERR = 0)
    (hplan : s.fld F.FAB_STATUS_PLAN_CHIP_ERR = 0) :
    exec .resume s = .next ((s.setFld F.FAB_CTL_RESUME 1).beginDiscovery false) :=
  congrArg Host.Outcome.next ((State.powered_of_on _ ho hb).trans (if_neg (by simp [ht, hr, hsect, hstrap, hplan])))

/-! ## Table swaps (R470 to R472) -/

/-- A table swap pending. -/
def State.swapPending (s : State) : State :=
  let t := (s.setFld F.FAB_STATUS_SWAP_PENDING 1).setFld F.FAB_CTL_SWAP 1
  { t with fab := { t.fab with swapAt := some s.now } }

theorem exec_swap {s : State} (ho : s.off = false) (hb : s.blockOn blkFab = true) (hn : s.fld F.FAB_STATUS_SWAP_PENDING = 0) :
    exec .swap s = .next s.swapPending :=
  congrArg Host.Outcome.next ((State.powered_of_on _ ho hb).trans (if_neg (by simp [hn])))

theorem State.swapPending_fields (s : State) : s.swapPending.fld F.FAB_STATUS_SWAP_PENDING = 1 ∧ s.swapPending.fld F.FAB_CTL_SWAP = 1 ∧
    s.swapPending.fab.swapAt = some s.now ∧ RegsBut [F.FAB_STATUS_SWAP_PENDING.reg, F.FAB_CTL_SWAP.reg] s s.swapPending := by
  have hpending := (s.setFld F.FAB_STATUS_SWAP_PENDING 1).fld_setFld_ne (f := F.FAB_CTL_SWAP) (g := F.FAB_STATUS_SWAP_PENDING) 1
    (by decide)
  refine ⟨hpending.trans (State.fld_setFld_same _ _ _ (by decide)), State.fld_setFld_same _ F.FAB_CTL_SWAP _ (by decide), rfl, ?_⟩
  exact (((RegsBut.refl _ s).setFld _ List.mem_cons_self).setFld (f := F.FAB_CTL_SWAP) 1
    (List.mem_cons_of_mem _ List.mem_cons_self)).of_regs rfl

theorem exec_swapDrainComplete {s : State} (hat : s.fab.swapAt.isSome = true)
    (hout : (s.fab.outq.all fun o => decide (33 ≤ o.input)) = true)
    (hheld : ((List.range 32).all fun p => (s.port p).holdReq.isNone && (s.port p).holdRep.isNone) = true) :
    exec .swapDrainComplete s = .next s.exchangeTables := congrArg Host.Outcome.next (if_pos ⟨hat, hout, hheld⟩)

theorem exec_drainLimitExpiry {s : State} {t0 : Nat} (hat : s.fab.swapAt = some t0)
    (hlate : t0 + 1000 * s.fld F.FAB_TIMER_CFG_DRAIN_LIMIT_US ≤ s.now) :
    exec .drainLimitExpiry s = .next (s.exchangeTables.setFld F.FAB_STATUS_SWAP_FORCED 1) := by
  refine congrArg Host.Outcome.next ?_
  unfold State.doDrainLimitExpiry
  rw [hat]
  exact if_pos hlate

theorem exec_graceExpiry {s : State} (hg : s.fld F.FAB_STATUS_GRACE = 1)
    (hlate : s.fab.graceAt + 1000000 * s.fld F.FAB_TIMER_CFG_GRACE_MS ≤ s.now) :
    exec .graceExpiry s = .next (s.setFld F.FAB_STATUS_GRACE 0) := congrArg Host.Outcome.next (if_pos ⟨hg, hlate⟩)

/-! ## Port drains (R476, R498) -/

/-- A drained port takes its configuration, and the last one of a commit clears PENDING. -/
theorem exec_portDrainEnd {s : State} {p cfg : Nat} (hp : p < 32) (hd : (s.port p).draining = some cfg)
    (hout : (s.fab.outq.all fun o => decide (o.port ≠ p)) = true) (hreq : (s.port p).holdReq = none)
    (hrep : (s.port p).holdRep = none) :
    exec (.portDrainEnd p) s = .next
      (if ((List.range 32).all fun q => ((s.applyPortCfg p cfg).port q).draining.isNone) = true then
        if ((s.applyPortCfg p cfg).commits.any fun c => decide (c.block = 0x60)) = true then s.applyPortCfg p cfg
        else ((s.applyPortCfg p cfg).setFld F.FAB_COMMIT_PENDING 0).showGroup
      else s.applyPortCfg p cfg) := by
  refine congrArg Host.Outcome.next ((if_pos ⟨hp, hout, hreq, hrep⟩).trans ?_)
  unfold State.endDrain
  rw [hd]

end Sys2Proof.Machine
end

section
/-! SUPPORT. The rows of a port: frames received, spare lanes, ports that lose light or a neighbour, and retrains (R434 to R440, R461, R464,
R484, R485, R488, R490). -/

namespace Sys2Proof.Machine

open Sys2Proof.Safety

/-! ## Frames received (R434 to R437) -/

/-- The NAKs that port `p` sent within the last millisecond, one at this instant among them. -/
def State.naksSentWith (s : State) (p : Nat) : List Nat := lastMs s.now ((s.port p).naksSent ++ [s.now])

/-- The NAKs that port `p` got within the last millisecond, one at this instant among them. -/
def State.naksGotWith (s : State) (p : Nat) : List Nat := lastMs s.now ((s.port p).naksGot ++ [s.now])

/-- A frame refused: later ones are dropped until it is resent, which a NAK asks for. -/
def State.frameRefused (s : State) (p : Nat) : State :=
  (s.setPort p { s.port p with dropping := true, naksSent := s.naksSentWith p }).sendFrame p true

/-- The frames that a NAK names resent, and it answered. -/
def State.frameResent (s : State) (p : Nat) (cw : BitVec 256) : State :=
  ((s.setPort p { (s.port p).afterFrame cw with naksGot := s.naksGotWith p }).resendFrom p
    (cw.toNat / 2 ^ 208 % 65536 % 32768)).sendFrame p false

section
variable {s : State} {p : Nat} {cw : BitVec 256} (hp : p < 32) (hon : s.portOn p = true)
include hp hon

theorem exec_fabricFrameReceive_uncorrectable (cw : BitVec 256) :
    exec (.fabricFrameReceive p cw true) s = .next
      (if 64 < (s.naksSentWith p).length then (s.frameRefused p).dueRetrain p 7 else s.frameRefused p) :=
  congrArg Host.Outcome.next ((if_neg (by simp [hp, hon])).trans (if_pos rfl))

theorem exec_fabricFrameReceive_out_of_sequence (hseq : cw.toNat / 2 ^ 193 % 32768 ≠ (s.port p).rxNext) :
    exec (.fabricFrameReceive p cw false) s = .next s :=
  congrArg Host.Outcome.next ((if_neg (by simp [hp, hon])).trans ((if_neg Bool.false_ne_true).trans (if_pos (.inl hseq))))

/-- A frame in sequence, which no earlier refusal drops, acknowledges frames or asks for them again. -/
theorem exec_fabricFrameReceive_in_sequence (hseq : cw.toNat / 2 ^ 193 % 32768 = (s.port p).rxNext)
    (hresent : (s.port p).dropping = false ∨ cw.getLsbD 192 = true) :
    exec (.fabricFrameReceive p cw false) s = .next
      (if 32768 ≤ cw.toNat / 2 ^ 208 % 65536 then
        if 64 < (s.naksGotWith p).length then (s.frameResent p cw).dueRetrain p 7 else s.frameResent p cw
      else (s.setPort p ((s.port p).afterFrame cw)).sendFrame p false) := by
  refine congrArg Host.Outcome.next ((if_neg (by simp [hp, hon])).trans ((if_neg Bool.false_ne_true).trans (if_neg ?_)))
  rintro (hother | ⟨hdropping, hfirst⟩)
  · exact hother hseq
  · rcases hresent with h | h
    · exact Bool.false_ne_true (h.symm.trans hdropping)
    · exact Bool.false_ne_true (hfirst.symm.trans h)

end

/-! ## Spare lanes (R438 to R440, R718) -/

/-- What a port that loses a lane or is put on hold leaves alone: the repair records among the rest. -/
def portKept : Kept := { regs := false, clusters := false, fab := false, col := false }

theorem State.narrowPort_repair (s : State) (p lane : Nat) : (s.narrowPort p lane).repair = s.repair :=
  (State.narrowPort_keeps (k := portKept) rfl rfl rfl rfl .rfl).repair rfl

theorem State.holdLane_repair (s : State) (p lane : Nat) (own : Bool) : (s.holdLane p lane own).repair = s.repair :=
  (State.holdLane_keeps (k := portKept) rfl .rfl).repair rfl

theorem State.takeSpare_of_no_rival {s : State} {p : Nat} (h : s.rivalSpare p = none) (n lane : Nat) (own : Bool) :
    State.takeSpare (n + 1) s p lane own =
      if s.sparesUsed (engineOfPort p) < 2 then (s.bookSpare (engineOfPort p) p lane).holdLane p lane own else s.narrowPort p lane := by
  rw [State.takeSpare, h]

/-- A rival's spare stands in the repair records of the port's engine, for a higher-numbered port (R439). -/
theorem State.rivalSpare_some {s : State} {p : Nat} {x : Nat × Nat × Nat} (h : s.rivalSpare p = some x) :
    x ∈ s.repair.lanes ∧ x.1 = engineOfPort p ∧ p < x.2.1 := by
  have hx := List.find?_some h
  simp only [Bool.and_eq_true, decide_eq_true_eq] at hx
  obtain ⟨⟨⟨hengine, hlow⟩, -⟩, -⟩ := hx
  exact ⟨List.mem_of_find?_eq_some h, hengine, hlow⟩

/-- The spare `x` of a higher-numbered port turned over to a lane of port `p`. -/
def State.spareTurned (s : State) (p lane : Nat) (x : Nat × Nat × Nat) (own : Bool) : State :=
  let s1 := s.writeRepair fun r => { r with lanes := r.lanes.map fun y => if y = x then (x.1, p, lane) else y }
  (s1.setPort x.2.1 { s1.port x.2.1 with
    sparing := (s1.port x.2.1).sparing.filter fun l => decide (l ≠ x.2.2)
    asked := (s1.port x.2.1).asked.filter fun l => decide (l ≠ x.2.2) }).holdLane p lane own

theorem State.takeSpare_of_rival {s : State} {p : Nat} {x : Nat × Nat × Nat} (h : s.rivalSpare p = some x) (n lane : Nat) (own : Bool) :
    ∃ again, State.takeSpare (n + 1) s p lane own = State.takeSpare n (s.spareTurned p lane x own) x.2.1 x.2.2 again := by
  rw [State.takeSpare, h]
  exact ⟨_, rfl⟩

theorem State.spareTurned_lanes (s : State) (p lane : Nat) (x : Nat × Nat × Nat) (own : Bool) :
    (s.spareTurned p lane x own).repair.lanes = s.repair.lanes.map fun y => if y = x then (x.1, p, lane) else y := by
  unfold State.spareTurned
  rw [State.holdLane_repair, State.setPort_repair, State.writeRepair_eq]

/-- A spare stays with its port through the choices of ports not below it. -/
theorem State.mem_takeSpare_lanes {y : Nat × Nat × Nat} {n : Nat} {s : State} {q lane : Nat} {own : Bool} (hy : y ∈ s.repair.lanes)
    (hq : y.2.1 ≤ q) : y ∈ (State.takeSpare n s q lane own).repair.lanes := by
  induction n generalizing s q lane own with
  | zero => rwa [State.takeSpare, State.narrowPort_repair]
  | succ n ih =>
    cases hr : s.rivalSpare q with
    | none =>
      rw [State.takeSpare_of_no_rival hr]
      split
      · rw [State.holdLane_repair, State.bookSpare_lanes]
        exact List.mem_append_left _ hy
      · rwa [State.narrowPort_repair]
    | some x =>
      obtain ⟨-, -, hlow⟩ := State.rivalSpare_some hr
      obtain ⟨again, heq⟩ := State.takeSpare_of_rival hr n lane own
      have hne : y ≠ x := by
        rintro rfl
        exact Nat.not_lt.2 hq hlow
      rw [heq]
      refine ih ?_ (Nat.le_of_lt (Nat.lt_of_le_of_lt hq hlow))
      rw [State.spareTurned_lanes]
      exact List.mem_map.2 ⟨y, hy, if_neg hne⟩

/-- Of two ports whose lanes fail at one instant the lower takes the spare (R439). -/
theorem State.mem_takeSpare_of_rival {s : State} {p : Nat} {x : Nat × Nat × Nat} (h : s.rivalSpare p = some x) (n lane : Nat) (own : Bool) :
    (engineOfPort p, p, lane) ∈ (State.takeSpare (n + 1) s p lane own).repair.lanes := by
  obtain ⟨hmem, hengine, hlow⟩ := State.rivalSpare_some h
  obtain ⟨again, heq⟩ := State.takeSpare_of_rival h n lane own
  rw [heq]
  refine State.mem_takeSpare_lanes ?_ (Nat.le_of_lt hlow)
  rw [State.spareTurned_lanes]
  exact List.mem_map.2 ⟨x, hmem, by simp [hengine]⟩

theorem exec_fabLaneFail_within {s : State} {x : OpticalLane} (p : Nat) (hf : s.laneFails x = false) :
    exec (.fabLaneFail p x) s = .next s :=
  congrArg Host.Outcome.next (if_neg (by simp [hf]))

theorem exec_fabLaneFail {s : State} {p : Nat} {x : OpticalLane} (hp : p < 32) (hl : x.lane < 4) (hf : s.laneFails x = true)
    (hon : s.portOn p = true) (hlost : x.lane ∉ (s.port p).lost) (hsparing : x.lane ∉ (s.port p).sparing) :
    exec (.fabLaneFail p x) s = .next (State.takeSpare 4 s p x.lane true) :=
  congrArg Host.Outcome.next (if_pos ⟨hp, hl, hf, hon, hlost, hsparing⟩)

/-- The substitution begun first on a port ended; traffic goes on with the last. -/
def State.sparingEnded (s : State) (p : Nat) (rest : List Nat) : State :=
  (s.setPort p { s.port p with sparing := rest }).sendFull p

theorem exec_fabSpareDone {s : State} {p lane : Nat} {rest : List Nat} (hp : p < 32) (hs : (s.port p).sparing = lane :: rest) :
    exec (.fabSpareDone p) s = .next
      (((s.sparingEnded p rest).setFld (F.FAB_PORT_STATUS_SPARES.at p)
        (min 2 ((s.sparingEnded p rest).fld (F.FAB_PORT_STATUS_SPARES.at p) + 1))).raiseEvent 0x18 (engineOfPort p)
          (4 * (p % 4) + lane)) := by
  refine congrArg Host.Outcome.next ?_
  unfold State.doFabSpareDone
  rw [hs]
  exact if_pos hp

/-- The logical lanes of a port that its far end moved to spares, of those not lost. -/
def State.movedLanes (s : State) (p : Nat) (m : List Nat) : List Nat :=
  (List.range 4).filter fun i => s.farMoved p m i && !(s.port p).lost.contains i

/-- The far end's map of lanes taken, with the credit of its message owed. -/
def State.farMapTaken (s : State) (p : Nat) (m : List Nat) : State :=
  (s.setPort p { s.port p with
    farMap := m
    asked := (s.port p).asked.filter fun i => decide (m.getD i 0 < 16 ∨ (s.port p).farMap.getD i 0 = m.getD i 0) }).oweCtrl p

theorem exec_laneChange {s : State} {p : Nat} (hp : p < 32) (hon : s.portOn p = true) (m : List Nat) :
    exec (.laneChange p m) s = .next ((s.movedLanes p m).foldl
      (fun (s : State) i => if s.portOn p = true then State.takeSpare 4 s p i false else s) (s.farMapTaken p m)) :=
  congrArg Host.Outcome.next (if_pos ⟨hp, hon⟩)

theorem State.portOn_of_regs {s t : State} (h : t.regs = s.regs) (p : Nat) : t.portOn p = s.portOn p := by
  have hst : t.portState p = s.portState p := State.fld_of_regs h _
  simp only [State.portOn, State.portUsable, hst]

theorem State.farMapTaken_regs (s : State) (p : Nat) (m : List Nat) : (s.farMapTaken p m).regs = s.regs := by
  unfold State.farMapTaken State.oweCtrl
  split <;> rfl

/-- One lane moved takes the spares as one that fails does. -/
theorem exec_laneChange_one {s : State} {p i : Nat} {m : List Nat} (hp : p < 32) (hon : s.portOn p = true) (hm : s.movedLanes p m = [i]) :
    exec (.laneChange p m) s = .next (State.takeSpare 4 (s.farMapTaken p m) p i false) := by
  rw [exec_laneChange hp hon, hm]
  exact congrArg Host.Outcome.next (if_pos ((State.portOn_of_regs (s.farMapTaken_regs p m) p).trans hon))

/-! ## Light and notices (R461, R484, R485, R487) -/

theorem State.portLit_of {s : State} {p : Nat} (h : s.portOn p = true ∨ s.portState p = poTraining) : s.portLit p = true := by
  rcases h with h | h <;> simp [State.portLit, h]

section
variable {s : State} {p : Nat} (hp : p < 32)
include hp

theorem exec_portLossOfLight_planned (hpl : s.planned p = true) (hlit : s.portLit p = true) :
    exec (.portLossOfLight p) s = .next
      ((s.portDown p 1).setPort p { (s.portDown p 1).port p with
        tried := s.now, due := if s.portOn p = true then some 0 else ((s.portDown p 1).port p).due }) :=
  congrArg Host.Outcome.next ((if_neg (by simp [hpl])).trans (if_pos ⟨hp, hlit⟩))

theorem exec_portLossOfLight_unplanned (hpl : s.planned p = false) (hst : s.portState p = poDark) :
    exec (.portLossOfLight p) s = .next (s.seeLight p false) := congrArg Host.Outcome.next (if_pos ⟨hp, hpl, hst⟩)

theorem exec_resetNotice {cause : Nat} (hlow : 1 ≤ cause) (hhigh : cause ≤ 5) (hlit : s.portLit p = true) :
    exec (.resetNotice p cause) s = .next
      ((s.portDown p (1 + cause)).setPort p { (s.portDown p (1 + cause)).port p with
        awaitLight := decide (cause ≠ 1), due := if cause = 1 then some 0 else none, tried := s.now }) :=
  congrArg Host.Outcome.next (if_pos ⟨hp, hlow, hhigh, hlit⟩)

theorem exec_resetNotice_malformed {cause : Nat} (hcause : ¬ (1 ≤ cause ∧ cause ≤ 5)) :
    exec (.resetNotice p cause) s = .next (s.addSat F.FAB_DROP_MALFORMED 1) :=
  congrArg Host.Outcome.next ((if_neg fun h => hcause ⟨h.2.1, h.2.2.1⟩).trans (if_pos ⟨hp, hcause⟩))

theorem exec_portDark (hlit : s.portLit p = true) :
    exec (.portDark p) s = .next ((s.portDown p 1).setPort p { (s.portDown p 1).port p with tried := s.now }) :=
  congrArg Host.Outcome.next (if_pos ⟨hp, hlit⟩)

/-! ## Retrains (R464, R488, R490) -/

theorem exec_portRetrain {cause : Nat} (hdue : (s.port p).due = some cause) (hclock : s.boot.refclk = true) (ht : s.mayTrain = true)
    (hpl : s.planned p = true) (hen : s.fld (F.FAB_PORT_CFG_ENABLE.at p) = 1) (hst : s.portState p ≠ poDark) :
    exec (.portRetrain p) s = .next (s.beginRetrain p cause) := by
  refine congrArg Host.Outcome.next ?_
  unfold State.doPortRetrain
  rw [hdue]
  exact if_pos ⟨hp, hclock, ht, hpl, hen, hst⟩

theorem exec_portUp (hst : s.portState p = poTraining) (hh : (s.port p).hello = true) :
    exec (.portUp p) s = .next (s.portReady p) := congrArg Host.Outcome.next (if_pos ⟨hp, hst, hh⟩)

theorem exec_fabPortRetrain (ho : s.off = false) (hb : s.blockOn blkFab = true) (hpl : s.planned p = true)
    (hst : s.portOn p = true ∨ s.portState p = poDown) (hdue : (s.port p).due = none) :
    exec (.fabPortRetrain p) s = .next ((s.setFld (F.FAB_PORT_CFG_RETRAIN.at p) 1).dueRetrain p 8) :=
  congrArg Host.Outcome.next ((State.powered_of_on _ ho hb).trans (if_pos ⟨hp, hpl, hst, hdue⟩))

theorem exec_portRetryTimer (hclock : s.boot.refclk = true) (ht : s.mayTrain = true) (hpl : s.planned p = true)
    (hfab : s.fabState = fsUp ∨ (s.fabState = fsHeld ∧ s.fld (F.FAB_PORT_STATUS_DOWN_CAUSE.at p) = 1))
    (hlate : (s.port p).tried + nsSec ≤ s.now) (hlight : (s.port p).awaitLight = false)
    (hst : s.portState p = poDown ∨ (s.portState p = poTraining ∧ (s.port p).hello = false)) :
    exec (.portRetryTimer p) s = .next (s.beginRetrain p 1) :=
  congrArg Host.Outcome.next (if_pos ⟨hp, hclock, ht, hpl, hlate, hfab, hlight, hst⟩)

end

end Sys2Proof.Machine
end

section
/-! The statements of the fabric: its ports, discovery and table swaps, packets and circuits. -/

namespace Sys2Proof.Machine

open Sys2Proof.Safety

/-- Settles O30. By the model's choices a LANE_CHANGE books a spare at this end for each lane that the far end moved, and one that answers
this end's own change books none (log entry 67). -/
theorem fabricPortsComplete : Obligations.FabricPortsComplete := by
  refine ⟨?frames, fun s p x hf => exec_fabLaneFail_within p hf, ?laneFails, fun s p lane rest hp hs => ⟨_, rfl, exec_fabSpareDone hp hs⟩,
    ?lightLost, ?lightGone, fun s p cause hp hdue hclock ht hpl hen hst => exec_portRetrain hp hdue hclock ht hpl hen hst,
    fun s p hp hst hh => exec_portUp hp hst hh, fun s p hp ho hb hpl hst hdue => exec_fabPortRetrain hp ho hb hpl hst hdue,
    fun s p hp hclock ht hpl hfab hlate hlight hst => exec_portRetryTimer hp hclock ht hpl hfab hlate hlight hst, ?laneChange,
    fun s p cause hp hlow hhigh hlit => exec_resetNotice hp hlow hhigh (State.portLit_of hlit), ?malformed,
    fun s p hp hlit => exec_portDark hp (State.portLit_of hlit)⟩
  case frames =>
    intro s p cw hp hon
    refine ⟨fun hseq => exec_fabricFrameReceive_out_of_sequence hp hon hseq, fun hseq hresent => ?_, fun hfew => ?_, fun hmany => ?_⟩
    · have hexec := exec_fabricFrameReceive_in_sequence hp hon hseq hresent
      exact ⟨fun hack => hexec.trans (congrArg _ (if_neg (Nat.not_le.2 hack))),
        fun hnak hfew => hexec.trans (congrArg _ ((if_pos hnak).trans (if_neg (Nat.not_lt.2 hfew))))⟩
    · exact (exec_fabricFrameReceive_uncorrectable hp hon cw).trans (congrArg _ (if_neg (Nat.not_lt.2 hfew)))
    · exact (exec_fabricFrameReceive_uncorrectable hp hon cw).trans (congrArg _ (if_pos hmany))
  case laneFails =>
    rintro s p lane x hp hl rfl hf hon hlost hsparing
    have hexec := exec_fabLaneFail hp hl hf hon hlost hsparing
    refine ⟨fun hr hs => ?_, fun hr hs => ?_, fun r hr => ⟨_, hexec, State.mem_takeSpare_of_rival hr 3 x.lane true⟩⟩
    · rw [hexec, State.takeSpare_of_no_rival hr, if_pos hs]
    · rw [hexec, State.takeSpare_of_no_rival hr, if_neg (Nat.not_lt.2 hs)]
  case lightLost =>
    rintro s s1 p hp hpl hlit rfl
    exact exec_portLossOfLight_planned hp hpl hlit
  case lightGone =>
    exact fun s p hp hpl hst => ⟨_, exec_portLossOfLight_unplanned hp hpl hst, s.seeLight_fields p false⟩
  case laneChange =>
    refine fun s p m hp hon => ⟨s.farMapTaken p m, rfl, fun i hm hr => ?_, fun hm => ?_, exec_laneChange hp hon m⟩
    · have hexec := exec_laneChange_one hp hon hm
      refine ⟨fun hs => ?_, fun hs => ?_⟩
      · rw [hexec, State.takeSpare_of_no_rival hr, if_pos hs]
      · rw [hexec, State.takeSpare_of_no_rival hr, if_neg (Nat.not_lt.2 hs)]
    · rw [exec_laneChange hp hon, show s.movedLanes p m = [] from hm]
      rfl
  case malformed => exact fun s p cause hp hcause => exec_resetNotice_malformed hp (by omega)

/-- Settles O31. By the model's choices a matching HELLO in discovery brings its port UP at once, and a fabric that is UP stays UP while
RESUME looks for its missing ports (log entry 33). -/
theorem discoveryCompletes : Obligations.DiscoveryCompletes := by
  refine ⟨?extra, ?hello, ?found, ?held, fun s ho hb ht hr hsect hstrap hplan => exec_resume ho hb ht hr hsect hstrap hplan,
    fun s ho hb hn => ⟨_, exec_swap ho hb hn, s.swapPending_fields⟩, fun s hat hout hheld => exec_swapDrainComplete hat hout hheld,
    ?forced, ?grace, ?drained⟩
  case extra =>
    intro s p h hp hpl hst
    obtain ⟨hlight, hon, hoff, hregs⟩ := s.seeLight_fields p true
    exact ⟨_, exec_hello_unplanned h hp hpl hst, hlight, hon, hoff, hregs⟩
  case hello =>
    rintro s s1 p h hp hpl hst rfl
    refine ⟨?_, fun hm => exec_hello_mismatch hp hpl hst hm⟩
    rintro hm s2 rfl
    have hexec := exec_hello_match hp hpl hst hm
    exact ⟨fun hn => hexec.trans (congrArg _ (if_pos (by simp [hn]))), fun hn => hexec.trans (congrArg _ (if_neg (by simp [hn])))⟩
  case found =>
    intro s t0 hat hall
    have hnil := State.missingPorts_nil hall
    have hexec := exec_discoveryEnd hat (.inl hnil)
    refine ⟨fun hup => ⟨s.discoveryOver.fabricUp, ?_, ?_⟩, fun hup => ⟨_, hexec.trans (congrArg _ (if_pos hup)), ?_, ?_⟩⟩
    · exact hexec.trans (congrArg _ ((if_neg hup).trans (if_neg (by simp [hnil]))))
    · obtain ⟨hfab, hstate⟩ := s.discoveryOver.fabricUp_fields
      exact ⟨congrArg Fab.discoverAt hfab, hstate⟩
    · exact congrArg Fab.discoverAt (State.showFabric_fab _)
    · exact (State.showFabric_fabState _).trans ((State.fld_setFld_ne _ _ (by decide)).trans hup)
  case held =>
    intro s t0 p hat hlate hp hpl hon hrole hup
    have hexec := exec_discoveryEnd hat (.inr hlate)
    exact ⟨_, hexec.trans (congrArg _ ((if_neg hup).trans (if_pos (State.missingPorts_required hp hpl hon hrole)))),
      s.discoveryHeld_fields⟩
  case forced =>
    exact fun s t0 hat hlate => ⟨_, exec_drainLimitExpiry hat hlate, State.fld_setFld_same _ _ _ (by decide),
      (RegsBut.refl _ _).setFld _ (List.mem_singleton_self _)⟩
  case grace =>
    exact fun s hg hlate => ⟨_, exec_graceExpiry hg hlate, State.fld_setFld_same _ _ _ (by decide),
      (RegsBut.refl _ _).setFld _ (List.mem_singleton_self _), rfl⟩
  case drained =>
    intro s p cfg hp hd hout hreq hrep
    have hexec := exec_portDrainEnd hp hd hout hreq hrep
    refine ⟨fun hq => hexec.trans (congrArg _ (if_neg (by simp [hq]))),
      fun hc => hexec.trans (congrArg _ (ite_eq_right_iff.2 fun _ => if_pos hc)),
      fun hq hc => hexec.trans (congrArg _ ((if_pos hq).trans (if_neg (by simp [hc]))))⟩

/-- Settles O32. By the model's choices a circuit that ends here holds the lowest free receive buffer of its input (log entry 22), and a
CIRC_TEARDOWN with HOPS 0 travels toward the originator, whose circuit it fails (log entry 34). -/
theorem packetsComplete : Obligations.PacketsComplete := by
  refine ⟨fun s p k hp hm => ⟨fun hh => exec_packetForward_malformed hp hm hh, ?forward⟩, ?taken, ?setup, ?teardown, ?timeout, ?reuse⟩
  case forward =>
    intro hh hd hup hdown
    have hexec := exec_packetForward_onward hp hm hh hd hup hdown
    refine ⟨fun hr => hexec.trans (congrArg _ (if_pos hr)), fun hr hhop => ?limit, ?onward⟩
    case limit => exact hexec.trans (congrArg _ ((if_neg (by simp [hr])).trans (if_pos hhop)))
    case onward =>
      rintro hr hhop s1 rfl
      have hpass := hexec.trans (congrArg _ ((if_neg (by simp [hr])).trans (if_neg hhop)))
      refine ⟨fun hc => hpass.trans ?_, fun x hc => hpass.trans ?_⟩ <;> rw [State.passOn, hc]
  case taken =>
    intro s p k hm hh hlen hd hr hk
    have htake {t : Nat} (ht : pktType k = t) := State.arrive_of_whole hm hh hlen hd hr hk ht
    exact ⟨fun ht => congrArg _ (htake ht _), fun ht => congrArg _ (htake ht _), fun ht => congrArg _ (htake ht _)⟩
  case setup =>
    intro s p k hp hm ht hh hr hk
    refine ⟨fun hd => ⟨_, exec_circSetup_end hm hh hr hk ht hp hd, rfl⟩, fun out st s2 hd hhop hlast hout hres => ?_⟩
    have hexec := exec_circSetup_path hm hh hr hk ht hp hd hhop hlast hout hres
    exact ⟨fun hok => hexec.trans (congrArg _ (if_neg (Decidable.not_not.2 hok))), fun hne => hexec.trans (congrArg _ (if_pos hne))⟩
  case teardown =>
    rintro s u p c k hm ht hh hr hk rfl rfl
    refine ⟨fun hd hhop => exec_circTeardown_limit hm hh hr hk ht hd hhop,
      fun hd hhop hback => exec_circTeardown_back hm hh hr hk ht hd hhop hback,
      fun hd hal => exec_circTeardown_answered hm hh hr hk ht rfl hd (.inl hal),
      fun hd he hs => exec_circTeardown_answered hm hh hr hk ht rfl hd (.inr ⟨he, hs⟩),
      fun hd hback hst => ⟨_, rfl, exec_circTeardown_failed hm hh hr hk ht rfl hd hback hst⟩⟩
  case timeout =>
    exact fun s tag r hf hlate hkind => ⟨_, exec_replyTimeout_tadd hf hlate hkind,
      State.fld_addSat_same (s.tagHeld tag) F.FAB_DROP_TADD_LOST 1 (show 7 < 64 by decide), rfl⟩
  case reuse => exact fun s tag hheld => ⟨_, exec_tagReuseExpiry hheld, s.tagFreed tag, rfl, rfl, rfl⟩

/-- Settles O33. That a failed circuit whose first port carries nothing is IDLE at once is log entry 34. -/
theorem circuitsComplete : Obligations.CircuitsComplete := by
  refine ⟨?reserved, ?refused, fun s c ho hb hc => ⟨?tearing, ?idle⟩⟩
  case reserved =>
    intro s s1 c ho hb hc hst hh hr
    obtain ⟨hstate, hcause, hsetup⟩ := s1.circSettingUp_fields c
    exact ⟨_, (exec_setup ho hb hc hst hh hr).trans (congrArg _ (if_pos rfl)), _, rfl, hstate, hcause, hsetup, rfl⟩
  case refused =>
    exact fun s s1 c r ho hb hc hst hh hr hne => (exec_setup ho hb hc hst hh hr).trans (congrArg _ (if_neg hne))
  case tearing => exact fun hst => ⟨_, exec_circuitTeardownWrite_tearing ho hb hc hst, _, rfl, s.circTearing_fields c⟩
  case idle =>
    intro hst hp
    obtain ⟨hstate, hcause, hdown⟩ := s.idleCircuit_fields c
    exact ⟨_, exec_circuitTeardownWrite_idle ho hb hc hst hp, hstate, hcause, hdown, s.idleCircuit_regsBut c⟩

end Sys2Proof.Machine
end

section
/-! SUPPORT. The collective engine: readiness, admission, completion, the limit of an ordered wait, and what is sent again (R513, R516, R519,
R524, R530, R532). -/

namespace Sys2Proof.Machine

open Sys2Proof.Safety

/-! ## Readiness (R513, R514) -/

/-- Is an ENTER held early one of a collective of group `g`? -/
def earlyOf (g : Nat) (c : Coll) (e : Nat × Nat × Nat × Word × Nat) : Bool := decide (e.1 = g) && decide (e.2.1 = c.cseq)

/-- A collective made READY with no ENTER held: it has its digest, its mark and its place in the order of readiness. -/
def State.asReady (s : State) (g : Nat) (c : Coll) : Coll :=
  { c with ready := some (s.now, s.col.nextReady), digest := s.collDigest c, mark := if s.stepOrdered g then s.colMark else 0
           enters := [] }

/-- The next place in the order of readiness taken by a collective, whose early ENTERs leave their table. -/
def State.readied (s : State) (g : Nat) (c : Coll) : State :=
  { s with col := { s.col with nextReady := s.col.nextReady + 1, early := s.col.early.filter fun e => !earlyOf g c e } }

section
variable {s : State} {g : Nat} {c : Coll} (hl : s.liveColl g = some c)
include hl

theorem exec_collectiveReady_held (hr : c.ready = none) (hc : c.covered = true) (hf : s.fabState = fsHeld) :
    exec (.collectiveReady g) s = .next (s.loseColl c) := by
  refine congrArg Host.Outcome.next ?_
  unfold State.doCollectiveReady
  rw [hl]
  exact (if_neg (by simp [hr, hc])).trans (if_pos hf)

theorem exec_collectiveReady (hr : c.ready = none) (hc : c.covered = true) (hf : s.fabState ≠ fsHeld)
    (he : s.col.early.any (earlyOf g c) = false) :
    exec (.collectiveReady g) s = .next (((otherRanks c.n c.me).foldl (fun t r => t.sendEnter (s.asReady g c) r)
      ((s.readied g c).putColl (s.asReady g c))).showCollGroup g).showCol := by
  have hnone : s.col.early.filter (earlyOf g c) = [] := List.filter_eq_nil_iff.2 (List.any_eq_false.1 he)
  refine congrArg Host.Outcome.next ?_
  unfold State.doCollectiveReady
  rw [hl]
  refine (if_neg (by simp [hr, hc])).trans ((if_neg hf).trans ?_)
  dsimp only
  rw [show (s.col.early.filter fun e => decide (e.1 = g) && decide (e.2.1 = c.cseq)) = [] from hnone]
  rfl

/-! ## Admission (R516, R517) -/

/-- A collective admitted with its contribution `b`, whose pieces wait to be sent. -/
def State.asAdmitted (s : State) (c : Coll) (b : Bytes) : Coll :=
  { c with admitted := some s.now, contrib := b, sendq := ({ c with admitted := some s.now, contrib := b } : Coll).firstPieces }

theorem exec_collectiveAdmit {s1 : State} {b : Bytes} (ha : s.admissible c = true) (hr : s.readContrib c.parts c.words = (s1, some b)) :
    exec (.collectiveAdmit g) s = .next (((((s1.putColl (s.asAdmitted c b)).showCollGroup g).showCol.sendOthers
      (s.asAdmitted c b) ckStart 0 0).progress g c.cseq).escalateHub) := by
  refine congrArg (fun t : State => Host.Outcome.next t.escalateHub) ?_
  unfold State.doCollectiveAdmit
  rw [hl]
  refine (if_neg (by simp [ha])).trans ?_
  rw [hr]
  rfl

/-! ## Completion (R519) -/

/-- A complete collective shown at its group, which counts CSEQ. -/
def State.collDone (s : State) (g : Nat) (c : Coll) : State :=
  ((s.putColl { c with done := true }).setFld (F.COL_GROUP_STATE_CSEQ.at g) (c.cseq + 1)).showCollGroup g

theorem exec_collectiveComplete (ha : c.active = true) (hr : c.result.isSome = true) (hq : c.sendq = []) (hf : c.flying = []) :
    exec (.collectiveComplete g) s = .next (c.parts.foldl
      (fun t x => (t.setClu x.p { t.clu x.p with inColl := none }).signal x.p x.sig) (s.collDone g c).showCol) := by
  refine congrArg Host.Outcome.next ?_
  unfold State.doCollectiveComplete
  rw [hl]
  exact if_pos (by simp [ha, hr, hq, hf])

end

/-- CSEQ of a group lies above the STATE that is shown after it. -/
theorem State.collDone_cseq (s : State) (g : Nat) (c : Coll) :
    (s.collDone g c).fld (F.COL_GROUP_STATE_CSEQ.at g) = (c.cseq + 1) % 65536 :=
  (State.fld_setFld_apart _ _ (.inr (show 3 < 48 by decide))).trans (State.fld_setFld_same _ _ _ (show 63 < 64 by decide))

/-- A group that has collectives, each admitted and complete, holds its clusters until READY (R536). -/
theorem State.showCollGroup_holding {s : State} {g : Nat} {c : Coll} (hc : c ∈ s.col.colls) (hg : c.group = g)
    (hall : ∀ d ∈ s.col.colls, d.group = g → d.admitted.isSome = true ∧ d.done = true) :
    (s.showCollGroup g).fld (F.COL_GROUP_STATE_STATE.at g) = cgHolding := by
  have hmine {d : Coll} (hd : d ∈ s.col.colls.filter fun d => decide (d.group = g)) : d.admitted.isSome = true ∧ d.done = true :=
    hall d (List.mem_filter.1 hd).1 (of_decide_eq_true (List.mem_filter.1 hd).2)
  have hactive : (s.col.colls.filter fun d => decide (d.group = g)).any Coll.active = false :=
    List.any_eq_false.2 fun d hd => by simp [Coll.active, (hmine hd).2]
  have hwaiting : (s.col.colls.filter fun d => decide (d.group = g)).any Coll.waiting = false :=
    List.any_eq_false.2 fun d hd => by simp [Coll.waiting, Option.isNone_eq_false_iff.2 (hmine hd).1]
  have hdone : (s.col.colls.filter fun d => decide (d.group = g)).any (·.done) = true :=
    List.any_eq_true.2 ⟨c, List.mem_filter.2 ⟨hc, decide_eq_true hg⟩, (hall c hc hg).2⟩
  unfold State.showCollGroup
  dsimp only
  rw [hactive, hwaiting, hdone]
  exact State.fld_setFld_same _ _ _ (show 3 < 64 by decide)

/-- A group whose live collective is its only one holds its clusters once that one is complete. -/
theorem State.collDone_holding {s : State} {g : Nat} {c : Coll} (hl : s.liveColl g = some c) (ha : c.active = true)
    (hone : ∀ d ∈ s.col.colls, d.group = g → d.cseq = c.cseq) : (s.collDone g c).fld (F.COL_GROUP_STATE_STATE.at g) = cgHolding := by
  have hfound := List.find?_some hl
  have hgroup : c.group = g := of_decide_eq_true (Bool.and_eq_true_iff.1 hfound).1
  have hadmitted : c.admitted.isSome = true := (Bool.and_eq_true_iff.1 ha).1
  have hmem : c ∈ s.col.colls := List.mem_of_find?_eq_some hl
  refine State.showCollGroup_holding (c := { c with done := true })
    (List.mem_map.2 ⟨c, hmem, if_pos ⟨rfl, rfl⟩⟩) hgroup fun d hd hg => ?_
  obtain ⟨e, he, rfl⟩ := List.mem_map.1 hd
  by_cases hsame : e.group = c.group ∧ e.cseq = c.cseq
  · rw [if_pos hsame]
    exact ⟨hadmitted, rfl⟩
  · rw [if_neg hsame] at hg
    exact absurd ⟨hg.trans hgroup.symm, hone e he hg⟩ hsame

/-! ## What time brings (R524, R530, R532) -/

theorem exec_orderTimeout {s : State} {c : Coll} {t0 : Nat} (hf : s.col.colls.find? Coll.active = some c) (ha : c.admitted = some t0)
    (ho : s.stepOrdered c.group = false) (hlate : t0 + 1000000 * s.fld F.COL_CFG_TIMEOUT_MS ≤ s.now) :
    exec .orderTimeout s = .next (s.failColl c caOrder true) := by
  refine congrArg Host.Outcome.next ?_
  unfold State.doOrderTimeout
  rw [hf]
  dsimp only
  rw [ha]
  exact if_pos (by simp [ho, hlate])

/-- An ENTER that met BUSY leaves those that wait to be sent again. -/
def State.retried (s : State) (e : Nat × Nat × Nat × Nat) : State := { s with col := { s.col with again := s.col.again.erase e } }

theorem exec_enterRetry {s : State} {g rank : Nat} {e : Nat × Nat × Nat × Nat} {c : Coll}
    (hf : (s.col.again.find? fun e => decide (e.1 = g) && decide (e.2.2.1 = rank) && decide (e.2.2.2 + 10000 ≤ s.now)) = some e)
    (hc : s.collAt g e.2.1 = some c) : exec (.enterRetry g rank) s = .next ((s.retried e).sendEnter c rank) := by
  refine congrArg Host.Outcome.next ?_
  unfold State.doEnterRetry
  rw [hf]
  dsimp only
  rw [hc]
  rfl

theorem exec_readyResend {s : State} {lead t0 : Nat} {c : Coll} (hone : s.collsOf lead = [c]) (hr : c.readyAt = some t0)
    (hlate : t0 + 1000000 ≤ s.now) :
    exec (.readyResend lead) s = .next (((otherRanks c.n c.me).filter fun r => !c.readies.contains r).foldl
      (fun t r => t.sendColl c.group c.cseq r ckReady 0 0 []) (s.putColl { c with readyAt := some s.now })) := by
  refine congrArg Host.Outcome.next ?_
  unfold State.doReadyResend
  rw [hone, List.foldl_cons, List.foldl_nil, hr]
  exact if_pos hlate

/-! ## Packets taken (R531, R533) -/

/-- A collective packet that is taken is handed to the effect of its kind. -/
theorem State.arriveColl_of_taken {s : State} {p kind : Nat} {k : Packet} (h : CollTaken s p k kind) (hkind : kind ≤ 4)
    (f : State → State) : s.arriveColl p k kind f = f (s.takePacket p k) := by
  obtain ⟨hm, ht, hk, hh, hlen, hd, hr, hp, hdata, hopen⟩ := h
  refine (if_neg fun hother => hother.1 hk).trans ((State.arrive_of_whole hm hh hlen hd hr hp ht _).trans ((if_neg ?_).trans
    (if_neg (by simp [hopen]))))
  rintro (hreserved | hform)
  · omega
  · rw [hk] at hform
    by_cases hlong : pktLen k = 0 <;> simp [hdata, hlong] at hform

end Sys2Proof.Machine
end

section
/-! SUPPORT. The host's configuration requests, substitutions and posted writes, and the light that returns at a port (R461, R488, R544, R545,
R558, R560). -/

namespace Sys2Proof.Machine

open Sys2Proof.Safety

/-! ## Configuration requests (R545, R560) -/

section
variable {s : State} {o : Nat} (wr : Bool) (v : BitVec 32) (hon : s.off = false) (hp : s.host.perst = false) (hlt : o < 4096)
  (hal : o % 4 = 0)
include hon hp hlt hal

theorem exec_configurationRequest_resetting (hst : s.linkState = lsResetting) :
    exec (.configurationRequest wr o v) s = .next (s.emit (.cfgDone o none)) :=
  congrArg Host.Outcome.next ((if_neg (by simp [hon, hp, hlt, hal])).trans (if_pos hst))

theorem exec_configurationRequest_up (hst : s.linkState = lsUp) :
    exec (.configurationRequest wr o v) s = .next (if wr = true then (s.cfgWrite o v).emit (.cfgDone o (some 0))
      else s.emit (.cfgDone o (some (s.cfgRead o)))) :=
  congrArg Host.Outcome.next ((if_neg (by simp [hon, hp, hlt, hal])).trans ((if_neg (by simp [hst, lsUp, lsResetting])).trans
    (if_neg (Decidable.not_not.2 hst))))

end

/-! ## Light at a port (R461, R488) -/

section
variable {s : State} {p : Nat} (hp : p < 32)
include hp

theorem exec_lightReturns_waiting (hclock : s.boot.refclk = true) (ht : s.mayTrain = true) (hst : s.portState p = poDown)
    (hlight : (s.port p).awaitLight = true) : exec (.lightReturns p) s = .next (s.beginRetrain p 1) :=
  congrArg Host.Outcome.next (if_pos ⟨hp, hclock, ht, hst, hlight⟩)

theorem exec_lightReturns_unplanned (hpl : s.planned p = false) (hst : s.portState p = poDark) :
    exec (.lightReturns p) s = .next (s.seeLight p true) :=
  congrArg Host.Outcome.next ((if_neg (by simp [hst, poDark, poDown])).trans (if_pos ⟨hp, hpl, hst⟩))

end

/-! ## Spare lanes of the host link (R544) -/

/-- The oldest substitution complete: `rest` are under way, and SPARES counts the ones that are not. -/
def State.hostSpared (s : State) (rest : List Nat) : State :=
  ({ s with host := { s.host with sparing := rest } } : State).setFld F.HST_LINK_STATUS_SPARES (s.sparesUsed 0 - rest.length)

theorem exec_hostSpareDone {s : State} {l : Nat} {rest : List Nat} (h : s.host.sparing = l :: rest) :
    exec .hostSpareDone s = .next ((s.hostSpared rest).raiseEvent 0x18 0 l) := by
  refine congrArg Host.Outcome.next ?_
  unfold State.doHostSpareDone
  rw [h]
  rfl

/-! ## Posted writes (R558) -/

/-- The posted write of sequence number `q` sent anew. -/
def State.resentAt (s : State) (q : Nat) : State :=
  { s with host := { s.host with unacked := s.host.unacked.map fun x => if x.seq = q then { x with sent := s.now } else x } }

theorem exec_replayTimer {s : State} {q : Nat} {x : Tlp} (hl : s.hostLinked = true)
    (hf : (s.host.unacked.find? fun w => decide (w.seq = q)) = some x) :
    exec (.replayTimer q) s = .next ((s.resentAt q).emit (.hostWrite x.seq x.addr x.data x.ro)) := by
  refine congrArg Host.Outcome.next ?_
  unfold State.doReplayTimer
  rw [if_pos hl, hf]
  rfl

end Sys2Proof.Machine
end

section
/-! SUPPORT. The test access port: what an edge of TCK and the level of TRST_N do (R880, R881; by log entry 51 the controller, its shift and
its updates are those of IEEE 1149.1). -/

namespace Sys2Proof.Machine

open Sys2Proof.Safety

/-- The rising edge: the controller moves, and its present state shifts or captures. -/
def State.tapRise (s : State) (tms tdi : Bool) (pads : List Bool) : State :=
  { s with tap := { s.tap with state := tapNext s.tap.state tms, shift := s.tapShift tdi pads } }

theorem exec_tckRisingEdge {s : State} (tms tdi : Bool) (pads : List Bool) (hon : s.off = false) (ht : s.tap.trst = true) :
    exec (.tckRisingEdge tms tdi pads) s = .next ((s.tapRise tms tdi pads).tapFall (tapNext s.tap.state tms)) :=
  congrArg Host.Outcome.next (if_neg (by simp [hon, ht]))

section
variable (s : State) (st : TapState)

/-- The falling edge neither moves the controller nor shifts; it answers a level of TDO. -/
theorem State.tapFall_frame : (s.tapFall st).tap.state = s.tap.state ∧ (s.tapFall st).tap.shift = s.tap.shift ∧
    (s.tapFall st).regs = s.regs ∧ ∃ e, (s.tapFall st).out = e :: s.out := by
  cases st <;> exact ⟨rfl, rfl, rfl, _, rfl⟩

/-- Two states change the instruction. -/
theorem State.tapFall_ir : (s.tapFall st).tap.ir =
    if st = .reset then tapIdcode else if st = .updateIr then numLow s.tap.shift else s.tap.ir := by
  cases st <;> rfl

/-- Update-DR alone changes the latch of the boundary register. -/
theorem State.tapFall_latch (h : st ≠ .updateDr) : (s.tapFall st).tap.latch = s.tap.latch := by
  cases st with
  | updateDr => exact absurd rfl h
  | _ => rfl

end

end Sys2Proof.Machine
end

section
/-! The statements of the collectives, and of the link events and the test access port. -/

namespace Sys2Proof.Machine

open Sys2Proof.Safety

/-- Settles O34. By the model's choice a contribution is read when its collective is admitted (log entry 35). -/
theorem collectivesComplete : Obligations.CollectivesComplete := by
  refine ⟨fun s g c hl hr hc => ⟨fun hf => exec_collectiveReady_held hl hr hc hf, fun hf he => ?ready⟩,
    fun s s1 g c b hl ha hr => exec_collectiveAdmit hl ha hr, ?complete,
    fun s c t0 hf ha ho hlate => exec_orderTimeout hf ha ho hlate, ?packets, ?acks,
    fun s g rank e c hf hc => ⟨_, exec_enterRetry hf hc, s.retried e, rfl, rfl, rfl⟩,
    fun s lead t0 c hone hr hlate => exec_readyResend hone hr hlate⟩
  case ready => exact ⟨_, exec_collectiveReady hl hr hc hf he, s.asReady g c, s.readied g c, rfl, rfl, rfl, rfl⟩
  case complete =>
    exact fun s g c hl ha hr hq hf => ⟨_, exec_collectiveComplete hl ha hr hq hf, s.collDone g c, rfl, s.collDone_cseq g c,
      State.collDone_holding hl ha, rfl⟩
  case packets =>
    intro s p k
    refine ⟨fun h => ?_, fun h => ?_, fun h => ?_, fun h => ?_, fun h => ?_⟩
    · exact congrArg Host.Outcome.next (State.arriveColl_of_taken h (by decide) _)
    · exact congrArg (fun t : State => Host.Outcome.next t.escalateHub) (State.arriveColl_of_taken h (by decide) _)
    · exact congrArg (fun t : State => Host.Outcome.next t.escalateHub) (State.arriveColl_of_taken h (by decide) _)
    · exact congrArg Host.Outcome.next (State.arriveColl_of_taken h (by decide) _)
    · exact congrArg Host.Outcome.next (State.arriveColl_of_taken h (by decide) _)
  case acks =>
    exact fun s p k hm ht hh hlen hd hr hk => congrArg (fun t : State => Host.Outcome.next t.escalateHub)
      (State.arrive_of_whole hm hh hlen hd hr hk ht _)

/-- Settles O60. The controller's states, its shift and its updates are the model's reading of IEEE 1149.1 (log entry 51; R881). -/
theorem linkAndTestPortComplete : Obligations.LinkAndTestPortComplete := by
  refine ⟨fun s wr o v hon hp hlt hal => ⟨fun hst => ⟨_, exec_configurationRequest_resetting wr v hon hp hlt hal hst, rfl⟩,
      fun hst => ⟨exec_configurationRequest_up false v hon hp hlt hal hst, exec_configurationRequest_up true v hon hp hlt hal hst⟩⟩,
    fun s p hp => ⟨fun hclock ht hst hlight => exec_lightReturns_waiting hp hclock ht hst hlight,
      fun hpl hst => ⟨_, exec_lightReturns_unplanned hp hpl hst, s.seeLight_fields p true⟩⟩,
    ?spare, fun s q x hl hf => ⟨_, exec_replayTimer hl hf, rfl, rfl, rfl⟩, ?edge, fun s => ⟨rfl, rfl⟩⟩
  case spare =>
    refine fun s l rest h => ⟨_, exec_hostSpareDone h, ?_, ?_, ?_⟩
    · exact State.raiseEvent_frame (·.host.sparing) (fun _ _ _ => rfl) (fun _ _ => rfl) (fun _ _ => rfl) _ _ _ _
    · exact State.raiseEvent_frame (·.repair) (fun _ _ _ => rfl) (fun _ _ => rfl) (fun _ _ => rfl) _ _ _ _
    · exact (State.fld_raiseEvent _ _ _ _ (by decide) (by decide) (by decide)).trans (State.fld_setFld_same _ _ _ (by decide))
  case edge =>
    intro s tms tdi pads hon ht
    obtain ⟨hstate, hshift, hregs, hout⟩ := (s.tapRise tms tdi pads).tapFall_frame (tapNext s.tap.state tms)
    have hir := (s.tapRise tms tdi pads).tapFall_ir (tapNext s.tap.state tms)
    have hlatch := (s.tapRise tms tdi pads).tapFall_latch (tapNext s.tap.state tms)
    exact ⟨_, exec_tckRisingEdge tms tdi pads hon ht, hstate, hshift, hregs, hout,
      fun h => ⟨hir.trans (if_pos h), hlatch (by simp [h])⟩,
      fun h => ⟨hir.trans ((if_neg (by simp [h])).trans (if_pos h)), hlatch (by simp [h])⟩,
      fun hr hu => hir.trans ((if_neg hr).trans (if_neg hu))⟩

end Sys2Proof.Machine
end

section
/-! SUPPORT. Register rows that are turned away: a row of one register block is a gated write under the lease, a row of the download
interface passes its own gate, and a write without the lease is counted and answered (R571, R572, R722, R800). -/

namespace Sys2Proof.Machine

open Sys2Proof.Safety

theorem State.startTest_gated (s : State) (w : Agent) (k i : Nat) (ok : State → Bool) (f : State → State) :
    ∃ g, s.startTest w k i ok f = s.gate w blkRas g := ⟨_, rfl⟩

theorem State.startFwu_gated (s : State) (w : Agent) (op t : Nat) (f : State → State) :
    ∃ g, s.startFwu w op t f = s.gate w blkFwu g := ⟨_, rfl⟩

/-- A row of one register block is a write through the gate of its block, under the lease of its writer. -/
theorem exec_of_gatedRow {c : Instr} {w : Agent} {b : Nat} (hc : gatedRow c = some (w, b)) (s : State) :
    ∃ h : State → State, exec c s = .next (s.leased w h) ∧ ∀ t, ∃ f, h t = t.gate w b f := by
  cases c with
  | glbSnapCtlWrite | commitGroup | reload | drainCommand | resumeCommand | ctxPeekSelWrite | logReadSelWrite | rasSpareCtlGo =>
    cases hc
    exact ⟨_, rfl, fun _ => ⟨_, rfl⟩⟩
  | selftestCluster | selftestLane | selftestPort | selftestController =>
    cases hc
    exact ⟨_, rfl, fun t => t.startTest_gated _ _ _ _ _⟩
  | install | graft | reject | configWrite | laneCal =>
    cases hc
    exact ⟨_, rfl, fun t => t.startFwu_gated _ _ _ _⟩
  | _ => cases hc

/-- A row of the download interface is a write through that interface's gate. -/
theorem exec_of_seedRow {c : Instr} (hc : seedRow c = true) : ∃ f : State → State, ∀ s, exec c s = .next (s.seedGate f) := by
  unfold seedRow at hc
  split at hc
  case h_5 => cases hc
  all_goals exact ⟨_, fun _ => rfl⟩

theorem State.seedGate_far {s : State} (f : State → State) (h : s.reaches .host = false) : s.seedGate f = s := by
  unfold State.seedGate
  split
  · exact if_neg (by simp [h])
  · exact State.gate_far _ f h

/-- A controller that does not reach the part is powered down, and the host needs no lease: neither is turned away as stale. -/
theorem State.unheld_of_far {s : State} {w : Agent} (h : s.reaches w = false) : s.off = true ∨ s.holdsLease w = true := by
  cases w with
  | host => exact .inr s.holdsLease_host
  | ctlA | ctlB => exact .inl (by simpa [State.reaches] using h)

/-- Only a controller can lack the lease, and one that reaches the part finds it powered. -/
theorem State.on_of_unheld {s : State} {w : Agent} (hr : s.reaches w = true) (hl : s.holdsLease w = false) : s.off = false := by
  cases w with
  | host => cases hl
  | ctlA | ctlB => simpa [State.reaches] using hr

/-- What its count and answer bring and every event, note of the controllers and state of theirs keeps, a stale write brings. -/
theorem State.staleWrite_ind (P : State → Prop) (s : State) (k : Bool) (d : Nat)
    (h : P ((s.addSat F.RAS_LEASE_STALE_WRITES 1).emit (.ctlAnswer k false))) (hctl : ∀ t x, P t → P { t with ctl := x })
    (hev : ∀ t c x e, P t → P (t.raiseEvent c x e)) (hst : ∀ t n, P t → P (t.setFld (F.RAS_CTL_HEALTH_STATE.at n) 4)) :
    P (s.staleWrite k d) := by
  have role (t : State) (n : Nat) (ht : P t) :
      P (if n = t.fld F.RAS_LEASE_ACTIVE then t else t.setFld (F.RAS_CTL_HEALTH_STATE.at n) 4) := by
    split
    · exact ht
    · exact hst _ _ ht
  have seen (t u : State) (b : Bool) (ht : P t) (hu : P u) : P (if b then t else u) := by
    cases b
    · exact hu
    · exact ht
  exact role _ _ (seen _ _ _ h (hev _ _ _ _ (hctl _ _ h)))

/-- A stale write is answered as refused. -/
theorem State.mem_out_staleWrite (s : State) (k : Bool) (d : Nat) : .ctlAnswer k false ∈ (s.staleWrite k d).out :=
  State.staleWrite_ind (fun t => .ctlAnswer k false ∈ t.out) s k d List.mem_cons_self (fun _ _ h => h)
    (fun t c x e h => t.mem_out_raiseEvent c x e h) (fun _ _ h => h)

theorem State.fld_staleWrite_count (s : State) (k : Bool) (d : Nat) :
    (s.staleWrite k d).fld F.RAS_LEASE_STALE_WRITES = min (s.fld F.RAS_LEASE_STALE_WRITES + 1)
      (2 ^ (F.RAS_LEASE_STALE_WRITES.hi + 1 - F.RAS_LEASE_STALE_WRITES.lo) - 1) := by
  refine State.staleWrite_ind (fun t => t.fld F.RAS_LEASE_STALE_WRITES = _) s k d (s.fld_addSat_same _ 1 (by decide)) (fun _ _ h => h)
    (fun t c x e h => (t.fld_raiseEvent_below c x e (by decide)).trans h) (fun t n h => (t.fld_setFld_ne 4 ?_).trans h)
  show 0x900000 ≠ 0x900008 + 8 * n
  omega

end Sys2Proof.Machine
end

section
/-! SUPPORT. Reads and snapshot latches: what a block's capture holds, the latch of a reader after a read, and the latches that one write
of GLB_SNAP_CTL opens (R816 to R821). -/

namespace Sys2Proof.Machine

open Sys2Proof.Safety

/-! ## What a latch captures (R817) -/

theorem mergeBits_self (x m : Word) : mergeBits x m x = x := by
  refine BitVec.eq_of_getLsbD_eq fun i _ => ?_
  simp only [mergeBits, BitVec.getLsbD_or, BitVec.getLsbD_and, BitVec.getLsbD_not]
  cases m.getLsbD i <;> simp_all

/-- Keys of a list take their new values, the others keep theirs. -/
theorem mget_foldl_mset {α : Type} [DecidableEq α] (d v : Nat → α) (l : List Nat) (m : Store α) (a : Nat) :
    mget d (l.foldl (fun m x => mset d m x (v x)) m) a = if a ∈ l then v a else mget d m a := by
  induction l generalizing m with
  | nil => rfl
  | cons x l ih =>
    rw [List.foldl_cons, ih, mget_mset]
    by_cases ha : a ∈ l
    · simp [ha]
    · by_cases hx : a = x <;> simp [ha, hx]

/-- The sequencer status of a cluster is live. -/
theorem mem_liveRegs_clu {a : Nat} (h : 0x100 ≤ a / 0x10000 ∧ a / 0x10000 < 0x208) (ha : a % 0x10000 = 0) :
    a ∈ liveRegs (a / 0x10000) := by
  have hne (c : Nat) (hc : c < 0x100) : a / 0x10000 ≠ c := by omega
  unfold liveRegs
  rw [if_neg (hne _ (by decide)), if_neg (hne _ (by decide)), if_neg (hne _ (by decide)), if_neg (hne _ (by decide)),
    if_neg (hne _ (by decide)), if_pos h, List.mem_singleton]
  omega

/-- Only the registers that follow time or the sequencer read otherwise than they stand. -/
theorem State.view_of_not_live {s : State} {a b : Nat} (hb : blockOf a = some b) (hl : a ∉ liveRegs b) : s.view a = s.reg a := by
  have ne (x : Nat) (hx : ∀ c ∈ blockOf x, x ∈ liveRegs c) : a ≠ x := by
    rintro rfl
    exact hl (hx b hb)
  have hclu : (isCluAddr a && decide (a % 0x10000 = 0)) = false := by
    refine Bool.eq_false_iff.2 fun h => ?_
    simp only [isCluAddr, Bool.and_eq_true, decide_eq_true_eq] at h
    obtain ⟨⟨h1, h2⟩, h3⟩ := h
    have hk : blockOf a = some (a / 0x10000) := by
      have hlow : ¬ a < 0xF00000 := by omega
      have hin : 0x100 ≤ a / 0x10000 ∧ a / 0x10000 < 0x100 + 264 := by omega
      simp only [blockOf, hlow, hin, if_false, and_self, if_true]
    obtain rfl : b = a / 0x10000 := Option.some.inj (hb.symm.trans hk)
    exact hl (mem_liveRegs_clu (by omega) (by omega))
  unfold State.view
  rw [if_neg (ne _ (by decide)), if_neg (ne _ (by decide)), if_neg (ne _ (by decide)), if_neg (ne _ (by decide)),
    if_neg (ne _ (by decide)), if_neg (ne _ (by decide)), if_neg (ne _ (by decide)), hclu]
  rfl

/-- A capture holds what a read of each register of its block shows. -/
theorem State.mget_capture {s : State} {a b : Nat} (hb : blockOf a = some b) : mget regDefault (s.capture b) a = s.view a := by
  unfold State.capture
  rw [mget_foldl_mset]
  split
  · rfl
  · next hl =>
    rw [State.view_of_not_live hb hl]
    exact congrArg (Option.getD · _) (mfind_filter_in (fun k => decide (blockOf k = some b)) s.regs a (decide_eq_true hb))

/-! ## The latch of a reader (R817, R818) -/

theorem State.latchOf_closeLatch (s : State) (r : Agent) (b : Nat) : (s.closeLatch r b).latchOf r b = none := by
  refine List.find?_eq_none.2 fun l hl => ?_
  have hkept := (List.mem_filter.1 hl).2
  cases h : (decide (l.reader = r) && decide (l.block = b)) with
  | false => simp
  | true => simp [h] at hkept

/-- The latch that a read or GLB_SNAP_CTL opens now. -/
def State.newLatch (s : State) (r : Agent) (b : Nat) (glb : Bool) : Latch :=
  { reader := r, block := b, opened := s.now, byGlb := glb, cap := s.capture b, bytes := [] }

theorem State.openLatch_eq (s : State) (r : Agent) (b : Nat) (glb : Bool) :
    s.openLatch r b glb = { s with latches := s.latches ++ [s.newLatch r b glb] } := rfl

theorem State.latchOf_openLatch {s : State} {r : Agent} {b : Nat} (glb : Bool) (h : s.latchOf r b = none) :
    (s.openLatch r b glb).latchOf r b = some (s.newLatch r b glb) := by
  have h' : (s.latches.find? fun l => decide (l.reader = r) && decide (l.block = b)) = none := h
  rw [State.openLatch_eq]
  unfold State.latchOf
  rw [List.find?_append, h']
  simp [State.newLatch]

/-- The bytes `bs` noted in the reader's latch of a block. -/
def State.noteBytes (s : State) (r : Agent) (b : Nat) (bs : List Nat) : State :=
  { s with latches := s.latches.map fun l => if l.reader = r ∧ l.block = b then { l with bytes := l.bytes ++ bs } else l }

theorem State.latchOf_noteBytes (s : State) (r : Agent) (b : Nat) (bs : List Nat) :
    (s.noteBytes r b bs).latchOf r b = (s.latchOf r b).map fun l => { l with bytes := l.bytes ++ bs } := by
  unfold State.latchOf State.noteBytes
  induction s.latches with
  | nil => rfl
  | cons l ls ih =>
    by_cases h : l.reader = r ∧ l.block = b
    · simp [h]
    · have hp : (decide (l.reader = r) && decide (l.block = b)) = false := by simpa using h
      rw [List.map_cons, if_neg h, List.find?_cons_of_neg (by simp [hp]), ih, List.find?_cons_of_neg (by simp [hp])]

section
variable {s : State} {r : Agent} {b : Nat} (bs : List Nat) (hl : s.latchOf r b = none)
include hl

/-- A reader without a latch opens one where the read touches a SNAP field. -/
theorem State.latchRead_unlatched (snap : Bool) :
    s.latchRead r b bs snap = (if snap then s.openLatch r b false else s).noteBytes r b bs := by
  unfold State.latchRead State.noteBytes
  simp [hl]

theorem State.latchOf_latchRead_unlatched (snap : Bool) : (s.latchRead r b bs snap).latchOf r b =
    if snap then some { s.newLatch r b false with bytes := bs } else none := by
  rw [State.latchRead_unlatched bs hl, State.latchOf_noteBytes]
  cases snap with
  | false => simp [hl]
  | true => simp [State.latchOf_openLatch false hl, State.newLatch]

theorem State.latchRead_unlatched_frame (snap : Bool) :
    (s.latchRead r b bs snap).out = s.out ∧ (s.latchRead r b bs snap).regs = s.regs ∧
      ∀ a, (s.latchRead r b bs snap).view a = s.view a := by
  rw [State.latchRead_unlatched bs hl]
  cases snap <;> exact ⟨rfl, rfl, fun _ => rfl⟩

/-- Opened by this very read, a latch shows what a live read shows. -/
theorem State.readWord_unlatched {a : Nat} (row : RegRow) (hb : blockOf a = some b) (snap : Bool) :
    (s.latchRead r b bs snap).readWord r row b a = s.view a &&& readMask row := by
  obtain ⟨-, -, hview⟩ := State.latchRead_unlatched_frame bs hl snap
  unfold State.readWord
  rw [State.latchOf_latchRead_unlatched bs hl, hview]
  cases snap with
  | false => rfl
  | true =>
    have hcap : mget regDefault (s.newLatch r b false).cap a = s.view a := State.mget_capture hb
    simp [hcap, mergeBits_self]

end

/-! ## Reads (R20, R22, R548, R817) -/

/-- Does a read of `size` bytes at `addr` of a row open a latch: it touches a SNAP field, outside CTX_PEEK_DATA (R820)? -/
def snapTouched (r : RegRow) (addr size : Nat) : Bool :=
  decide (r.base ≠ 0x100100) && decide (snapMask r &&& accessMask (addr % 8) size ≠ 0)

theorem exec_snapRead {s : State} {w : Agent} {addr size b : Nat} {r : RegRow} (ho : Opens s w b) (h0 : 0 < size)
    (h8 : addr % 8 + size ≤ 8) (hb : blockOf addr = some b) (hf : findReg (addr / 8 * 8) = some r) (hl : s.latchOf w b = none) :
    exec (.snapRead w addr size) s = .next ((s.latchRead w b ((List.range size).map fun i => addr + i) (snapTouched r addr size)).emit
      (.readDone w addr size (((s.view (addr / 8 * 8) &&& readMask r) >>> (8 * (addr % 8))) &&& accessMask 0 size))) := by
  obtain ⟨hr, hseen, -⟩ := ho
  have hok : (!s.reaches w || decide (size = 0) || decide (8 < addr % 8 + size)) = false := by
    simp only [hr, Bool.not_true, Bool.false_or, Bool.or_eq_false_iff, decide_eq_false_iff_not]
    omega
  have hword := State.readWord_unlatched ((List.range size).map fun i => addr + i) hl r ((blockOf_word addr).trans hb)
    (snapTouched r addr size)
  refine congrArg Host.Outcome.next ?_
  unfold State.doSnapRead
  simp only [hok, State.hidden_of_seen hb hseen, hb, hf, Bool.false_eq_true, if_false]
  rw [← hword]
  rfl

/-! ## GLB_SNAP_CTL (R821) -/

/-- One write of GLB_SNAP_CTL opens latches that all capture the same instant. -/
theorem State.foldl_openLatch (s : State) (w : Agent) (bs : List Nat) :
    (bs.foldl (fun (s : State) b => s.openLatch w b true) s).regs = s.regs ∧
      (bs.foldl (fun (s : State) b => s.openLatch w b true) s).latches = s.latches ++ bs.map fun b => s.newLatch w b true := by
  induction bs generalizing s with
  | nil => exact ⟨rfl, (List.append_nil _).symm⟩
  | cons b bs ih =>
    obtain ⟨hregs, hlatches⟩ := ih (s.openLatch w b true)
    exact ⟨hregs, hlatches.trans (List.append_assoc _ [_] _)⟩

theorem State.foldl_closeLatch (s : State) (w : Agent) (bs : List Nat) :
    ∃ ls, bs.foldl (fun (s : State) b => s.closeLatch w b) s = { s with latches := ls } := by
  induction bs generalizing s with
  | nil => exact ⟨_, rfl⟩
  | cons b bs ih => exact ih (s.closeLatch w b)

/-- The blocks that GLB_SNAP_CTL names; bit 15 names TEL (R846). -/
def snapBlocks (v : Word) : List Nat := namedBlocks (bitsOf v 14 0) ++ (if v.getLsbD 15 then [blkTel] else [])

theorem exec_glbSnapCtlWrite {s : State} {w : Agent} (v : Word) (ha : Accepts s w blkGlb) :
    ∃ ls, exec (.glbSnapCtlWrite w v) s =
      .next ((snapBlocks v).foldl (fun (s : State) b => s.openLatch w b true) { s with latches := ls }) := by
  obtain ⟨ls, hls⟩ := (s.closeLatch w blkGlb).foldl_closeLatch w (snapBlocks v)
  refine ⟨ls, congrArg Host.Outcome.next ((State.leased_gate_of_accepts _ ha).trans ?_)⟩
  exact congrArg ((snapBlocks v).foldl fun (s : State) b => s.openLatch w b true) hls

/-! ## Ends of latches and reads refused (R548, R818) -/

theorem exec_snapLatchExpiry {s : State} {w : Agent} {b : Nat} {l : Latch} (hl : s.latchOf w b = some l) (ho : s.latchOver l = true) :
    exec (.snapLatchExpiry w b) s = .next (s.closeLatch w b) := by
  refine congrArg Host.Outcome.next ?_
  unfold State.doSnapLatchExpiry
  simp only [hl, ho, if_true]

theorem exec_controlReadOversize {s : State} {a n : Nat} (hr : s.hostReach = true) (hn : 0 < n) (hc : 8 < a % 8 + n) :
    exec (.controlReadOversize a n) s = .next ((s.emit (.readUnsupported a n)).badAccess a) :=
  congrArg Host.Outcome.next (if_pos ⟨hr, hn, hc⟩)

theorem State.fld_badAccess (s : State) (a : Nat) :
    (s.badAccess a).fld F.HST_ERR_BAD_ACCESS = min (s.fld F.HST_ERR_BAD_ACCESS + 1) 255 :=
  (State.fld_raiseEvent _ _ _ _ (by decide) (by decide) (by decide)).trans (s.fld_addSat_same F.HST_ERR_BAD_ACCESS 1 (by decide))

end Sys2Proof.Machine
end

section
/-! SUPPORT. The host link: its state as it resets, falls, trains and comes up, and the optical lanes that fail under it (R542, R544, R560,
R565, R569, R578, R600, R864). -/

namespace Sys2Proof.Machine

open Sys2Proof.Safety

/-! ## The fields of HST_LINK_STATUS (R578) -/

/-- STOPPED is one bit: showing it leaves every other field. -/
theorem State.fld_showStopped (s : State) {f : Fld} (h : f.reg ≠ 0xE00000 ∨ f.hi < 4 ∨ 4 < f.lo) : s.showStopped.fld f = s.fld f :=
  s.fld_setFld_other _ h

theorem State.linkState_showStopped (s : State) : s.showStopped.linkState = s.linkState := s.fld_showStopped (by decide)

theorem State.stopped_showStopped (s : State) : s.showStopped.fld F.HST_LINK_STATUS_STOPPED = bit s.hostStopped :=
  (s.fld_setFld_same F.HST_LINK_STATUS_STOPPED _ (by decide)).trans (Nat.mod_eq_of_lt (bit_lt_two _))

theorem State.showStopped_regsBut (s : State) : RegsBut [F.HST_LINK_STATUS_STATE.reg] s s.showStopped :=
  (RegsBut.refl _ s).setFld _ (by decide)

theorem State.linkState_setFld_same (s : State) {n : Nat} (h : n < 16) : (s.setFld F.HST_LINK_STATUS_STATE n).linkState = n :=
  (s.fld_setFld_same F.HST_LINK_STATUS_STATE n (by decide)).trans (Nat.mod_eq_of_lt h)

/-- Host traffic stops while the link is not up (R560). -/
theorem State.hostStopped_of_not_up {s : State} (h : s.linkState ≠ lsUp) : s.hostStopped = true := by
  have h' : s.fld F.HST_LINK_STATUS_STATE ≠ 2 := h
  simp [State.hostStopped, h']

/-! ## A link low, and a link that came up (R542, R560) -/

/-- The link in state `st`, with no speed and no width. -/
def State.linkIdle (s : State) (st : Nat) : State :=
  ((s.setFld F.HST_LINK_STATUS_STATE st).setFld F.HST_LINK_STATUS_SPEED 0).setFld F.HST_LINK_STATUS_WIDTH 0

theorem State.linkState_linkIdle (s : State) {st : Nat} (h : st < 16) : (s.linkIdle st).linkState = st := by
  unfold State.linkIdle State.linkState
  rw [State.fld_setFld_apart _ _ (by decide), State.fld_setFld_apart _ _ (by decide)]
  exact s.linkState_setFld_same h

theorem State.linkState_linkLow (s : State) {st : Nat} (h : st < 16) : (s.linkLow st).linkState = st :=
  (s.linkIdle st).linkState_showStopped.trans (s.linkState_linkIdle h)

theorem State.speed_linkLow (s : State) (st : Nat) : (s.linkLow st).fld F.HST_LINK_STATUS_SPEED = 0 := by
  refine ((s.linkIdle st).fld_showStopped (by decide)).trans ?_
  exact (State.fld_setFld_apart _ _ (by decide)).trans ((State.fld_setFld_same _ _ _ (by decide)).trans (Nat.zero_mod _))

theorem State.width_linkLow (s : State) (st : Nat) : (s.linkLow st).fld F.HST_LINK_STATUS_WIDTH = 0 := by
  refine ((s.linkIdle st).fld_showStopped (by decide)).trans ?_
  exact (State.fld_setFld_same _ _ _ (by decide)).trans (Nat.zero_mod _)

theorem State.stopped_linkLow (s : State) {st : Nat} (h : st < 16) (hup : st ≠ lsUp) :
    (s.linkLow st).fld F.HST_LINK_STATUS_STOPPED = 1 := by
  have hs : (s.linkIdle st).hostStopped = true := State.hostStopped_of_not_up (by rwa [s.linkState_linkIdle h])
  exact (s.linkIdle st).stopped_showStopped.trans (by rw [hs]; rfl)

theorem State.linkLow_regsBut (s : State) (st : Nat) : RegsBut [F.HST_LINK_STATUS_STATE.reg] s (s.linkLow st) :=
  RegsBut.trans (t := s.linkIdle st)
    ((((RegsBut.refl _ s).setFld _ (by decide)).setFld _ (by decide)).setFld _ (by decide)) (State.showStopped_regsBut _)

theorem State.linkState_linkUp (s : State) : s.linkUp.linkState = lsUp := by
  refine (State.linkState_showStopped _).trans ?_
  unfold State.linkState
  rw [State.fld_setFld_apart _ _ (by decide), State.fld_setFld_apart _ _ (by decide)]
  exact s.linkState_setFld_same (by decide)

theorem State.speed_linkUp (s : State) : s.linkUp.fld F.HST_LINK_STATUS_SPEED = min 5 s.host.partnerSpeed := by
  refine (State.fld_showStopped _ (by decide)).trans ((State.fld_setFld_apart _ _ (by decide)).trans ?_)
  refine (State.fld_setFld_same _ _ _ (by decide)).trans (Nat.mod_eq_of_lt ?_)
  exact Nat.lt_of_le_of_lt (Nat.min_le_left _ _) (by decide)

theorem State.width_linkUp (s : State) : s.linkUp.fld F.HST_LINK_STATUS_WIDTH = wholeWidth s.host.partnerWidth s.host.lostLanes % 32 :=
  (State.fld_showStopped _ (by decide)).trans (State.fld_setFld_same _ _ _ (by decide))

/-! ## Resets (R565, R569, R864) -/

theorem exec_functionLevelReset {s : State} (h : s.hostLinked = true) :
    exec .functionLevelReset s = .next (s.hostReset.setFld F.HST_LINK_STATUS_STATE lsResetting).showStopped :=
  congrArg Host.Outcome.next (if_pos h)

theorem exec_flrComplete {s : State} (ho : s.off = false) (hl : s.linkState = lsResetting) :
    exec .flrComplete s = .next (s.setFld F.HST_LINK_STATUS_STATE lsUp).showStopped :=
  congrArg Host.Outcome.next (if_pos (by simp [ho, hl]))

theorem State.dropLink_of_linked {s : State} (ho : s.off = false) (hl : s.linkState = lsUp ∨ s.linkState = lsResetting) :
    s.dropLink = s.hostReset.linkLow lsTraining :=
  if_pos (by simpa [ho] using hl)

theorem exec_perstNAssert {s : State} (ho : s.off = false) (hp : s.host.perst = false) :
    exec .perstNAssert s = .next ((s.hostReset.setPerst true).linkLow lsDown) :=
  congrArg Host.Outcome.next ((if_neg (by simp [ho])).trans (if_neg (by simp [hp])))

theorem exec_perstNRelease {s : State} (ho : s.off = false) (hp : s.host.perst = true) :
    exec .perstNRelease s = .next ((s.setPerst false).linkLow lsTraining) :=
  congrArg Host.Outcome.next ((if_neg (by simp [ho])).trans (if_pos hp))

/-! ## Optical lanes that fail (R544, R600) -/

theorem exec_hostOpticalLaneFail_tolerated {s : State} {x : OpticalLane} (h : s.laneFails x = false) :
    exec (.hostOpticalLaneFail x) s = .next s :=
  congrArg Host.Outcome.next (if_neg (by simp [h]))

theorem State.passRecovery_eq (s : State) :
    s.passRecovery = if s.linkInL0 = true then s.addSat F.HST_LINK_STATUS_RECOVERIES 1 else s := rfl

@[simp] theorem State.passRecovery_host (s : State) : s.passRecovery.host = s.host := by
  rw [State.passRecovery_eq]
  split <;> rfl

@[simp] theorem State.passRecovery_repair (s : State) : s.passRecovery.repair = s.repair := by
  rw [State.passRecovery_eq]
  split <;> rfl

theorem State.recoveries_passRecovery (s : State) : s.passRecovery.fld F.HST_LINK_STATUS_RECOVERIES =
    if s.linkInL0 = true then min (s.fld F.HST_LINK_STATUS_RECOVERIES + 1) 65535 else s.fld F.HST_LINK_STATUS_RECOVERIES := by
  rw [State.passRecovery_eq]
  split
  · exact s.fld_addSat_same F.HST_LINK_STATUS_RECOVERIES 1 (by decide)
  · rfl

theorem State.passRecovery_regsBut (s : State) : RegsBut [F.HST_LINK_STATUS_RECOVERIES.reg] s s.passRecovery := by
  rw [State.passRecovery_eq]
  split
  · exact (RegsBut.refl _ s).setFld _ (by decide)
  · exact .refl _ s

theorem State.bookSpare_host (s : State) (e unit lane : Nat) : (s.bookSpare e unit lane).host = s.host := by
  rw [State.bookSpare_eq]
  exact State.logChange_frame (·.host) (fun _ _ _ => rfl) (fun _ _ => rfl) _ _ _ _ _ _

/-- A lane of the link among those under substitution. -/
def State.sparingHostLane (s : State) (lane : Nat) : State :=
  { s with host := { s.host with sparing := s.host.sparing ++ [lane] } }

/-- A spare booked for a lane of the link, through one Recovery where it is in L0, and its substitution under way. -/
def State.spareHostLane (s : State) (lane : Nat) : State := (s.passRecovery.bookSpare 0 0 lane).sparingHostLane lane

theorem State.spareHostLane_sparing (s : State) (lane : Nat) : (s.spareHostLane lane).host.sparing = s.host.sparing ++ [lane] := by
  show (s.passRecovery.bookSpare 0 0 lane).host.sparing ++ [lane] = _
  rw [State.bookSpare_host, State.passRecovery_host]

theorem State.spareHostLane_lanes (s : State) (lane : Nat) : (s.spareHostLane lane).repair.lanes = s.repair.lanes ++ [(0, 0, lane)] :=
  (State.bookSpare_lanes _ 0 0 lane).trans (by rw [State.passRecovery_repair])

theorem State.spareHostLane_recoveries (s : State) (lane : Nat) : (s.spareHostLane lane).fld F.HST_LINK_STATUS_RECOVERIES =
    s.passRecovery.fld F.HST_LINK_STATUS_RECOVERIES :=
  congrArg (fieldGet · F.HST_LINK_STATUS_RECOVERIES.hi F.HST_LINK_STATUS_RECOVERIES.lo)
    (s.passRecovery.bookSpare_regsBut 0 0 lane F.HST_LINK_STATUS_RECOVERIES.reg (by decide))

theorem State.spareHostLane_regsBut (s : State) (lane : Nat) :
    RegsBut [F.HST_LINK_STATUS_RECOVERIES.reg, F.LOG_STATUS_LOST.reg] s (s.spareHostLane lane) := by
  intro a ha
  simp only [List.mem_cons, List.not_mem_nil, or_false, not_or] at ha
  exact (s.passRecovery.bookSpare_regsBut 0 0 lane a (by simpa using ha.2)).trans (s.passRecovery_regsBut a (by simpa using ha.1))

/-- A lane of the link lost. -/
def State.loseHostLane (s : State) (lane : Nat) : State :=
  { s with host := { s.host with lostLanes := s.host.lostLanes ++ [lane] } }

/-- The link narrowed, through one Recovery, to the width whose lanes are whole without the lane lost. -/
def State.narrowHostLink (s : State) (lane : Nat) : State :=
  (s.loseHostLane lane).passRecovery.setFld F.HST_LINK_STATUS_WIDTH (s.loseHostLane lane).trainedWidth

theorem State.narrowHostLink_lostLanes (s : State) (lane : Nat) :
    (s.narrowHostLink lane).host.lostLanes = s.host.lostLanes ++ [lane] :=
  congrArg (·.lostLanes) (s.loseHostLane lane).passRecovery_host

theorem State.narrowHostLink_width (s : State) (lane : Nat) : (s.narrowHostLink lane).fld F.HST_LINK_STATUS_WIDTH =
    wholeWidth s.host.partnerWidth (s.host.lostLanes ++ [lane]) % 32 := State.fld_setFld_same _ _ _ (by decide)

theorem State.narrowHostLink_recoveries {s : State} (lane : Nat) (h : s.linkInL0 = true) :
    (s.narrowHostLink lane).fld F.HST_LINK_STATUS_RECOVERIES = min (s.fld F.HST_LINK_STATUS_RECOVERIES + 1) 65535 :=
  (State.fld_setFld_apart _ _ (by decide)).trans ((s.loseHostLane lane).recoveries_passRecovery.trans (if_pos h))

theorem State.narrowHostLink_regsBut (s : State) (lane : Nat) :
    RegsBut [F.HST_LINK_STATUS_WIDTH.reg] s (s.narrowHostLink lane) :=
  RegsBut.setFld (t := (s.loseHostLane lane).passRecovery) (fun a ha => (s.loseHostLane lane).passRecovery_regsBut a ha) _ (by decide)

section
variable {s : State} {x : OpticalLane} (ho : s.off = false) (hlt : x.lane < 16) (hf : s.laneFails x = true)
  (hlost : x.lane ∉ s.host.lostLanes) (hsp : x.lane ∉ s.host.sparing)
include ho hlt hf hlost hsp

theorem exec_hostOpticalLaneFail_spared (h : s.sparesUsed 0 < 2) :
    exec (.hostOpticalLaneFail x) s = .next (s.spareHostLane x.lane) :=
  congrArg Host.Outcome.next ((if_pos ⟨ho, hlt, hf, hlost, hsp⟩).trans (if_pos h))

/-- A link that is not up keeps the failure for its next training. -/
theorem exec_hostOpticalLaneFail_down (h : 2 ≤ s.sparesUsed 0) (hl : s.linkInL0 = false) :
    exec (.hostOpticalLaneFail x) s = .next (s.loseHostLane x.lane) :=
  congrArg Host.Outcome.next ((if_pos ⟨ho, hlt, hf, hlost, hsp⟩).trans ((if_neg (by omega)).trans
    (if_pos (congrArg (!·) hl : (!(s.loseHostLane x.lane).linkInL0) = true))))

theorem exec_hostOpticalLaneFail_narrowed (h : 2 ≤ s.sparesUsed 0) (hl : s.linkInL0 = true)
    (hw : wholeWidth s.host.partnerWidth (s.host.lostLanes ++ [x.lane]) ≠ 0) :
    exec (.hostOpticalLaneFail x) s = .next (s.narrowHostLink x.lane) := by
  have hl0 : ¬ (!(s.loseHostLane x.lane).linkInL0) = true := by
    rw [show (s.loseHostLane x.lane).linkInL0 = true from hl]
    decide
  exact congrArg Host.Outcome.next ((if_pos ⟨ho, hlt, hf, hlost, hsp⟩).trans ((if_neg (by omega)).trans
    ((if_neg hl0).trans (if_neg hw))))

end

/-! ## Traffic that resumes (R560, R566) -/

/-- What leaves once traffic flows again: credits due, records held and vectors pending. -/
def State.flushHost (s : State) : State :=
  let v := (List.range 64).foldl (fun s r => s.flushRing r) (s.disp.creditDue.foldl (fun s l => s.doCreditWrite l) s)
  v.pendingVectors.foldl (fun s v => s.doMsixPendingSend v) v

theorem exec_hostTrafficResume {s : State} (ho : s.off = false) (hp : s.host.perst = false) (hl : s.linkState = lsTraining)
    (hw : s.trainedWidth ≠ 0) : exec .hostTrafficResume s =
      .next (if s.linkUp.showStopped.hostStopped = true then s.linkUp.showStopped else s.linkUp.showStopped.flushHost) := by
  have hup : (if s.linkState = lsTraining ∧ s.trainedWidth ≠ 0 then s.linkUp else s) = s.linkUp := if_pos ⟨hl, hw⟩
  refine congrArg Host.Outcome.next ?_
  unfold State.doHostTrafficResume
  rw [if_neg (by simp [ho, hp]), hup]
  rfl

end Sys2Proof.Machine
end

section
/-! SUPPORT. Traffic of the host: completions of its reads, acknowledgements of posted writes, the staging window, and MCTP over VDM (R551
to R553, R555, R558, R559, R566, R574, R575). -/

namespace Sys2Proof.Machine

open Sys2Proof.Safety

/-- A count goes up to its maximum, in its own register alone. -/
theorem State.addSat_counts (s : State) (f : Fld) (hf : f.hi < 64) :
    (s.addSat f 1).fld f = min (s.fld f + 1) (2 ^ (f.hi + 1 - f.lo) - 1) ∧ RegsBut [f.reg] s (s.addSat f 1) :=
  ⟨s.fld_addSat_same f 1 hf, (RegsBut.refl _ s).setFld _ (List.mem_singleton_self _)⟩

/-! ## Completions of host reads (R555, R559, R566) -/

/-- An error noted in the AER status changes no context slot (R559). -/
theorem State.ctx_aer (s : State) (b c : Nat) (f : CtxField) : (s.aer b).ctx c f = s.ctx c f := by
  have hslots : (s.aer b).disp.slots = s.disp.slots := (State.aer_keeps (k := { cfg := false }) rfl .rfl).slots rfl
  simp [State.ctx, State.slotWord, hslots]

/-- The bytes got so far kept for a read that waits for more. -/
def State.keepPart (s : State) (r : HostRead) (data : Bytes) : State :=
  { s with host := { s.host with
    reads := s.host.reads.map fun x => if x = r then { r with got := (r.got ++ data).take r.len } else x } }

/-- The bit of the AER status that a completion without its data sets (R559). -/
def failureBit : CplStatus → Nat
  | .ok => 0
  | .unsupported => 20
  | .abort => 15
  | .poisoned => 12
  | .ecrc => 19

/-- What a completion without its data brings the read's owner: the failure of its barrow, or the replay of its step (R559). -/
def State.failRead (s : State) (r : HostRead) : CplStatus → State
  | .ok => s
  | .unsupported | .abort => (s.addSat F.HST_ERR_HOST_READ_FAIL 1).failBarrow r.owner
  | .poisoned | .ecrc => (s.addSat F.HST_ERR_HOST_POISON 1).poisonedRead r

section
variable {s : State} {tag : Nat} {gen : BitVec 12} (data : Bytes) (ho : s.off = false) (hl : s.linkInL0 = true)
include ho hl

/-- A completion of another generation, or of no read, is dropped and counted. -/
theorem exec_hostReadCompletion_pruned (st : CplStatus) (h : gen.toNat ≠ s.fld F.HST_LINK_STATUS_HOST_GEN ∨ s.readOf tag = none) :
    exec (.hostReadCompletion tag gen st data) s = .next (s.addSat F.HST_ERR_PRUNED 1) := by
  have hread : (if gen.toNat = s.fld F.HST_LINK_STATUS_HOST_GEN then s.readOf tag else none) = none := by
    rcases h with h | h
    · exact if_neg h
    · simp [h]
  refine congrArg Host.Outcome.next ?_
  unfold State.doHostReadCompletion
  rw [if_neg (by simp [ho, hl]), hread]

variable {r : HostRead} (hg : gen.toNat = s.fld F.HST_LINK_STATUS_HOST_GEN) (hr : s.readOf tag = some r)
include hg hr

/-- A completion with status Successful is what the read has got so far, and the rest of it lands once it is whole. -/
theorem exec_hostReadCompletion_ok : exec (.hostReadCompletion tag gen .ok data) s =
    .next (if ((r.got ++ data).take r.len).length < r.len then s.keepPart r data
      else ((s.dropRead r).landRead r ((r.got ++ data).take r.len)).sendHostReads) := by
  have hread : (if gen.toNat = s.fld F.HST_LINK_STATUS_HOST_GEN then s.readOf tag else none) = some r := (if_pos hg).trans hr
  refine congrArg Host.Outcome.next ?_
  unfold State.doHostReadCompletion
  rw [if_neg (by simp [ho, hl]), hread]
  rfl

theorem exec_hostReadCompletion_whole (h : r.len ≤ (r.got ++ data).length) : exec (.hostReadCompletion tag gen .ok data) s =
    .next (((s.dropRead r).landRead r ((r.got ++ data).take r.len)).sendHostReads) := by
  rw [exec_hostReadCompletion_ok data ho hl hg hr, if_neg (by rw [List.length_take]; omega)]

theorem exec_hostReadCompletion_part (h : (r.got ++ data).length < r.len) :
    exec (.hostReadCompletion tag gen .ok data) s = .next (s.keepPart r data) := by
  rw [exec_hostReadCompletion_ok data ho hl hg hr, if_pos (by rw [List.length_take]; omega)]

variable {st : CplStatus} (hst : st ≠ .ok)
include hst

/-- A completion without its data sets its AER bit and ends the read. -/
theorem exec_hostReadCompletion_failed : exec (.hostReadCompletion tag gen st data) s =
    .next ((s.aer (failureBit st)).endRead r fun t => t.failRead r st) := by
  have hread : (if gen.toNat = s.fld F.HST_LINK_STATUS_HOST_GEN then s.readOf tag else none) = some r := (if_pos hg).trans hr
  refine congrArg Host.Outcome.next ?_
  unfold State.doHostReadCompletion
  rw [if_neg (by simp [ho, hl]), hread]
  cases st with
  | ok => exact absurd rfl hst
  | unsupported | abort | poisoned | ecrc => rfl

/-- The context of the read is of its generation still: the failure is its owner's. -/
theorem exec_hostReadCompletion_failed_current (hc : s.ctx r.ctx cfGen = r.ctxGen) :
    exec (.hostReadCompletion tag gen st data) s = .next (((s.aer (failureBit st)).dropRead r).failRead r st).sendHostReads := by
  rw [exec_hostReadCompletion_failed data ho hl hg hr hst, State.endRead, if_neg (by rw [State.ctx_aer]; exact Decidable.not_not.2 hc)]

/-- The reply of an old generation of its context is pruned (R358; log entry 69). -/
theorem exec_hostReadCompletion_failed_stale (hc : s.ctx r.ctx cfGen ≠ r.ctxGen) :
    exec (.hostReadCompletion tag gen st data) s =
      .next (((s.aer (failureBit st)).dropRead r).addSat F.CTX_STATS_PRUNED 1).sendHostReads := by
  rw [exec_hostReadCompletion_failed data ho hl hg hr hst, State.endRead, if_pos (by rw [State.ctx_aer]; exact hc)]

end

theorem exec_hostCompletionTimeout {s : State} {tag : Nat} {r : HostRead} (hr : s.readOf tag = some r) :
    exec (.hostCompletionTimeout tag) s =
      .next ((((s.dropRead r).aer 14).addSat F.HST_ERR_HOST_READ_FAIL 1).failBarrow r.owner).sendHostReads := by
  refine congrArg Host.Outcome.next ?_
  unfold State.doHostCompletionTimeout
  rw [hr]

/-! ## Acknowledgements (R558) -/

/-- A posted write no longer awaiting its acknowledgement. -/
def State.dropWrite (s : State) (w : Tlp) : State :=
  { s with host := { s.host with unacked := s.host.unacked.filter fun x => decide (x.seq ≠ w.seq) } }

theorem exec_hostWriteAck {s : State} {seq : Nat} (h : s.hostLinked = true) : exec (.hostWriteAck seq) s =
    .next ((s.host.unacked.filter fun w => decide (w.seq ≤ seq)).foldl (fun (s : State) w => (s.dropWrite w).ackTlp w) s) :=
  congrArg Host.Outcome.next (if_neg (by simp [h]))

/-! ## The staging window (R551 to R553, R559) -/

/-- The lines of a staging read, one after another: the state they leave, their bytes, and whether one is poisoned. -/
def State.stageLinesRead (s : State) (o len : Nat) : State × Bytes × Bool :=
  (List.range ((o + len + 63) / 64 - o / 64)).foldl (fun (a : State × Bytes × Bool) i =>
    let x := a.1.stageLineRead (a.1.stageLine o + i)
    (x.1, a.2.1 ++ x.2.1, a.2.2 || x.2.2)) (s, [], false)

section
variable {s : State} {o : Nat} (hr : s.hostReach = true)
include hr

theorem exec_stagingWrite {data : List (Option Byte)} (hlen : o + data.length ≤ 2 ^ 34) : exec (.stagingWrite o (some data)) s =
    .next (if s.stageReaches o = false then s.addSat F.HST_ERR_STAGE_UNAVAIL 1
      else (linesOf o data).foldl (fun s x => s.stageLineWrite (s.fld F.HST_STAGE_CFG_BASE * 2 ^ 28 + x.1) x.2) s) := by
  have hok : (!s.hostReach || decide (2 ^ 34 < o + data.length)) = false := by simpa [hr] using hlen
  refine congrArg Host.Outcome.next ?_
  show s.stagingBytes o data = _
  unfold State.stagingBytes
  rw [hok]
  cases s.stageReaches o <;> rfl

theorem exec_stagingRead {len : Nat} (hlen : o + len ≤ 2 ^ 34) (h0 : 0 < len) : exec (.stagingRead o (some len)) s =
    .next (if s.stageReaches o = false then
        (s.addSat F.HST_ERR_STAGE_UNAVAIL 1).emit (.stageData o (List.replicate len 0xFF) false)
      else (if (s.stageLinesRead o len).2.2 then (s.stageLinesRead o len).1.aer 12 else (s.stageLinesRead o len).1).emit
        (.stageData o (((s.stageLinesRead o len).2.1.drop (o % 64)).take len) (s.stageLinesRead o len).2.2)) := by
  have hok : (!s.hostReach || decide (2 ^ 34 < o + len) || decide (len = 0)) = false := by
    simp only [hr, Bool.not_true, Bool.false_or, Bool.or_eq_false_iff, decide_eq_false_iff_not]
    omega
  refine congrArg Host.Outcome.next ?_
  show s.stagingData o len = _
  unfold State.stagingData
  rw [hok]
  cases s.stageReaches o <;> rfl

end

/-! ## MCTP over VDM (R574, R575) -/

/-- Is a message of a type and routing that the endpoint takes? -/
def mctpTaken (routing msgType : Nat) : Bool :=
  (decide (msgType = 0) || decide (msgType = 1) || decide (msgType = 5)) &&
    (decide (routing = 0) || decide (routing = 2) || decide (routing = 3))

theorem exec_mctpVdmReceive {s : State} (routing msgType : Nat) (body : Bytes) (h : s.hostLinked = true) :
    exec (.mctpVdmReceive routing msgType body) s =
      .next (if (s.mctpServed && mctpTaken routing msgType) = true then s else s.addSat F.HST_ERR_MCTP_DROP 1) := by
  refine congrArg Host.Outcome.next ?_
  unfold State.doMctpVdmReceive mctpTaken
  rw [if_neg (by simp [h]), Bool.and_assoc]

/-- Neither 0 nor 0xFF, what the bus owner assigns is an Endpoint ID. -/
theorem endpointId_assignable {eid : Byte} (h0 : eid ≠ 0) (hff : eid ≠ 0xFF) :
    ¬ (!true || decide (eid = 0) || decide (eid = 0xFF)) = true := by
  rw [decide_eq_false h0, decide_eq_false hff]
  decide

section
variable {s : State} {eid : Byte} (h0 : eid ≠ 0) (hff : eid ≠ 0xFF)
include h0 hff

theorem exec_setEndpointId_vdm (h : s.mctpServed = true) :
    exec (.setEndpointId .vdm true eid) s = .next (s.setFld F.HST_MCTP_CFG_EID eid.toNat) :=
  congrArg Host.Outcome.next ((if_neg (endpointId_assignable h0 hff)).trans (if_pos h))

theorem exec_setEndpointId_i3c (h : s.i3cServed = true) :
    exec (.setEndpointId .i3c true eid) s = .next { s with mgmt := { s.mgmt with eid := eid.toNat } } :=
  congrArg Host.Outcome.next ((if_neg (endpointId_assignable h0 hff)).trans (if_pos h))

end

end Sys2Proof.Machine
end

section
/-! SUPPORT. Replies of the management endpoints and the SPDM responder: a message cut into transmission units, what is sent, and requests
answered, refused or queued to be signed (R574, R582, R787, R788, R830). -/

namespace Sys2Proof.Machine

open Sys2Proof.Safety

/-! ## Transmission units (R574, R582, R830) -/

/-- The first `k` pieces of `n` bytes are the first `n * k` bytes. -/
theorem flatten_map_take_drop {α : Type} (m : List α) (n k : Nat) :
    ((List.range k).map fun i => (m.drop (n * i)).take n).flatten = m.take (n * k) := by
  induction k with
  | zero => simp
  | succ k ih => rw [List.range_succ, List.map_append, List.flatten_append, ih, Nat.mul_succ, List.take_add]; simp

/-- The units of a message, one after another, are the message. -/
theorem flatten_unitsOf {n : Nat} (hn : 0 < n) (m : Bytes) : (unitsOf n m).flatten = m := by
  refine (flatten_map_take_drop m n _).trans (List.take_of_length_le ?_)
  have h1 := Nat.div_add_mod (m.length + n - 1) n
  have h2 := Nat.mod_lt (m.length + n - 1) hn
  omega

theorem length_le_of_mem_unitsOf {n : Nat} {m u : Bytes} (hu : u ∈ unitsOf n m) : u.length ≤ n := by
  obtain ⟨i, -, rfl⟩ := List.mem_map.1 hu
  exact List.length_take_le _ _

/-- Messages sent one after another, none depending on those before it. -/
theorem State.foldl_emit_out {α : Type} {e : State → α → Emit} (he : ∀ s a x, e (s.emit a) x = e s x) (l : List α) (s : State) :
    (l.foldl (fun s x => s.emit (e s x)) s).out = (l.map (e s)).reverse ++ s.out := by
  induction l generalizing s with
  | nil => rfl
  | cons x l ih =>
    have hmap : l.map (e (s.emit (e s x))) = l.map (e s) := List.map_congr_left fun y _ => he s _ y
    rw [List.foldl_cons, ih, hmap, List.map_cons, List.reverse_cons, List.append_assoc]
    rfl

/-- Packet `x.2` of `n`, with the unit `x.1`, on the management port. -/
def State.i3cPacket (s : State) (n : Nat) (x : Bytes × Nat) : Emit :=
  .i3c s.mgmt.eid (decide (x.2 = 0)) (decide (x.2 + 1 = n)) (x.2 % 4) x.1

/-- Packet `x.2` of `n`, with the unit `x.1`, over VDM. -/
def State.vdmPacket (s : State) (n : Nat) (x : Bytes × Nat) : Emit :=
  .vdm 2 0x7F 0x1AB4 (s.fld F.HST_MCTP_CFG_EID) (decide (x.2 = 0)) (decide (x.2 + 1 = n)) (x.2 % 4) x.1

theorem State.reply_i3c_out (s : State) (ty : Nat) (b : Bytes) {us : List Bytes} (hus : us = unitsOf 64 (bytesOfNat 1 ty ++ b)) :
    (s.reply .i3c ty b).out = (us.zipIdx.map (s.i3cPacket us.length)).reverse ++ .ibi 0xAE :: s.out := by
  subst hus
  exact State.foldl_emit_out (e := fun s x => s.i3cPacket _ x) (fun _ _ _ => rfl) _ (s.emit (.ibi 0xAE))

theorem State.reply_vdm_out (s : State) (ty : Nat) (b : Bytes) {us : List Bytes} (hus : us = unitsOf s.vdmUnit (bytesOfNat 1 ty ++ b)) :
    (s.reply .vdm ty b).out = (us.zipIdx.map (s.vdmPacket us.length)).reverse ++ s.out := by
  subst hus
  exact State.foldl_emit_out (e := fun s x => s.vdmPacket _ x) (fun _ _ _ => rfl) _ s

/-! ## Requests (R787, R788) -/

/-- The body of a CHALLENGE_AUTH response. -/
def State.challengeBody (s : State) : Bytes := spdmBody 0x03 0 (Config.spdmDigest (s.certChain.getD []) ++ s.nonceBytes)

/-- The body of a MEASUREMENTS response: the number of blocks alone for index 0, else the blocks that the index names. -/
def State.measureBody (s : State) (i : Nat) : Bytes :=
  spdmBody 0x60 (if i = 0 then 7 else 0)
    (bytesOfNat 1 (measureBlocks i).length ++ (measureBlocks i).flatMap s.measureBlock ++ s.nonceBytes)

section
variable {s : State} {ep : Endpoint} (h : s.epServed ep = true)
include h

theorem State.request_served (f : State → State) : s.request ep f = f s := if_pos h

theorem exec_getDigests_unidentified (hc : s.certChain = none) : exec (.getDigests ep) s = .next (s.spdmError ep seUnspecified) := by
  refine congrArg Host.Outcome.next ((State.request_served h _).trans ?_)
  simp only [hc]

theorem exec_getDigests {c : Bytes} (hc : s.certChain = some c) :
    exec (.getDigests ep) s = .next (s.spdmReply ep 0x01 0 (Config.spdmDigest c)) := by
  refine congrArg Host.Outcome.next ((State.request_served h _).trans ?_)
  simp only [hc]

theorem exec_getCertificate_unidentified (o n : Nat) (hc : s.certChain = none) :
    exec (.getCertificate ep o n) s = .next (s.spdmError ep seUnspecified) := by
  refine congrArg Host.Outcome.next ((State.request_served h _).trans ?_)
  simp only [hc]

theorem exec_getCertificate (o n : Nat) {c : Bytes} (hc : s.certChain = some c) : exec (.getCertificate ep o n) s =
    .next (if c.length ≤ o then s.spdmError ep seInvalid
      else s.spdmReply ep 0x02 0 (bytesOfNat 2 (cutAt c o n).length ++ bytesOfNat 2 (c.length - o - (cutAt c o n).length) ++
        cutAt c o n)) := by
  refine congrArg Host.Outcome.next ((State.request_served h _).trans ?_)
  simp only [hc]

theorem exec_challenge (nonce : Bytes) : exec (.challenge ep nonce) s =
    .next (s.askSignature { ep := ep, body := s.challengeBody, covers := nonce ++ s.challengeBody }) :=
  congrArg Host.Outcome.next (State.request_served h _)

theorem exec_getMeasurements {i : Nat} (sg : Bool) (nonce : Bytes) (hi : i = 0 ∨ measureBlocks i ≠ []) :
    exec (.getMeasurements ep i sg nonce) s =
      .next (if sg then s.askSignature { ep := ep, body := s.measureBody i, covers := nonce ++ s.measureBody i }
        else ({ s with freeCtr := s.freeCtr + 4 } : State).reply ep mtSpdm (s.measureBody i)) :=
  congrArg Host.Outcome.next ((State.request_served h _).trans (if_neg fun hn => hi.elim hn.1 (absurd hn.2)))

theorem exec_getMeasurements_unnamed {i : Nat} (sg : Bool) (nonce : Bytes) (h0 : i ≠ 0) (hi : measureBlocks i = []) :
    exec (.getMeasurements ep i sg nonce) s = .next (s.spdmError ep seInvalid) :=
  congrArg Host.Outcome.next ((State.request_served h _).trans (if_pos ⟨h0, hi⟩))

end

/-! ## Signatures (R787) -/

section
variable {s : State} (r : SigReq) (hid : s.cold.identity ≠ none)
include hid

theorem State.askSignature_queued (hn : s.mgmt.sigs.length < 5) :
    s.askSignature r = { s with mgmt := { s.mgmt with sigs := s.mgmt.sigs ++ [r] }, freeCtr := s.freeCtr + 4 } :=
  (if_neg (by simpa using hid)).trans (if_neg (by omega))

theorem State.askSignature_busy (hn : 5 ≤ s.mgmt.sigs.length) : s.askSignature r = s.spdmError r.ep seBusy :=
  (if_neg (by simpa using hid)).trans (if_pos hn)

end

/-- The oldest request taken from the queue. -/
def State.sigTaken (s : State) (rest : List SigReq) : State := { s with mgmt := { s.mgmt with sigs := rest } }

section
variable {s : State} {r : SigReq} {rest : List SigReq} (hq : s.mgmt.sigs = r :: rest)
include hq

theorem exec_spdmSignatureDone {i : Nat × Nat} (hi : s.cold.identity = some i) : exec .spdmSignatureDone s =
    .next ((s.sigTaken rest).reply r.ep mtSpdm (r.body ++ Config.slhDsaSign (Config.identitySeed i.1 i.2) r.covers)) := by
  refine congrArg Host.Outcome.next ?_
  unfold State.doSpdmSignatureDone
  simp only [hq, hi]
  rfl

theorem exec_spdmSignatureDone_wiped (hi : s.cold.identity = none) :
    exec .spdmSignatureDone s = .next ((s.sigTaken rest).spdmError r.ep seUnspecified) := by
  refine congrArg Host.Outcome.next ?_
  unfold State.doSpdmSignatureDone
  simp only [hq, hi]
  rfl

end

end Sys2Proof.Machine
end

section
/-! The statements of the host port: writes that a block does not take, reads and latches, the link, its traffic, and attestation. -/

namespace Sys2Proof.Machine

open Sys2Proof.Safety

/-- Settles O8. That a controller's row carries the epoch it holds is log entry 57's, and that the counted write closes its writer's
latch log entry 14's. -/
theorem shutBlocksCountTheWrite : Obligations.ShutBlocksCountTheWrite := by
  refine ⟨fun c w b s hc => ?_, fun c s hc hr => ?_⟩
  · obtain ⟨h, he, hg⟩ := exec_of_gatedRow hc s
    obtain ⟨f, hf⟩ := hg s
    refine ⟨fun hr => ?_, fun hr hl hb => ?_, fun hr hl => ⟨_, he, ?_⟩⟩
    · rw [he, State.leased_of_holds h (State.unheld_of_far hr), hf, State.gate_far b f hr]
    · rw [he, State.leased_of_holds h (.inr hl), hf, State.gate_shut f hr hb]
    · rw [State.leased_stale h (State.on_of_unheld hr hl) hl]
      exact ⟨rfl, s.mem_out_staleWrite _ _, s.fld_staleWrite_count _ _⟩
  · obtain ⟨f, hf⟩ := exec_of_seedRow hc
    rw [hf, State.seedGate_far f hr]

/-- Settles O16. A read of 5 to 7 bytes, or across the middle of a word, returns the bytes of the register by log entry 14. -/
theorem readsAndLatchesComplete : Obligations.ReadsAndLatchesComplete := by
  refine ⟨fun s addr len hr h0 h8 => ⟨_, exec_controlReadOversize hr h0 h8, State.fld_badAccess (s.emit _) addr, ?_⟩, ?_, ?_, ?_⟩
  · exact State.mem_out_raiseEvent _ _ _ _ List.mem_cons_self
  · intro s w addr size b r ho h0 h8 hb hf hl
    obtain ⟨hout, hregs, -⟩ := State.latchRead_unlatched_frame ((List.range size).map fun i => addr + i) hl (snapTouched r addr size)
    refine ⟨_, exec_snapRead ho h0 h8 hb hf hl, congrArg (_ :: ·) hout, hregs, ?_⟩
    refine (congrArg Option.isSome (State.latchOf_latchRead_unlatched _ hl _)).trans ?_
    show _ = snapTouched r addr size
    cases snapTouched r addr size <;> rfl
  · exact fun s w b l hl hover => ⟨_, exec_snapLatchExpiry hl hover, s.latchOf_closeLatch w b, rfl⟩
  · intro s w v ha
    obtain ⟨ls, he⟩ := exec_glbSnapCtlWrite v ha
    obtain ⟨hregs, hlatches⟩ := State.foldl_openLatch { s with latches := ls } w (snapBlocks v)
    refine ⟨_, he, hregs, fun b hb => ⟨s.newLatch w b true, ?_, rfl, rfl, rfl, rfl, rfl⟩⟩
    rw [hlatches]
    exact List.mem_append_right _ (List.mem_map_of_mem (f := fun b => s.newLatch w b true) hb)

/-- Settles O35: each row by the fields of HST_LINK_STATUS that it writes. -/
theorem hostLinkCompletes : Obligations.HostLinkCompletes := by
  refine ⟨?flr, ?done, ?drop, ?low, ?assert, ?release, fun s ho => ⟨?_, ?_⟩, fun s x h => exec_hostOpticalLaneFail_tolerated h, ?fail,
    ?resume, fun s => ⟨s.linkState_linkUp, s.speed_linkUp, s.width_linkUp⟩⟩
  case flr =>
    intro s h
    have hst := s.hostReset.linkState_setFld_same (n := lsResetting) (by decide)
    refine ⟨_, exec_functionLevelReset h, (State.linkState_showStopped _).trans hst, (State.stopped_showStopped _).trans ?_, ?_⟩
    · rw [State.hostStopped_of_not_up (by rw [hst]; decide)]
      rfl
    · rw [State.showStopped_host, State.setFld_host]
  case done =>
    intro s ho hl
    refine ⟨_, exec_flrComplete ho hl, (State.linkState_showStopped _).trans (s.linkState_setFld_same (by decide)), ?_⟩
    exact ((RegsBut.refl _ s).setFld _ (by decide)).trans (State.showStopped_regsBut _)
  case drop =>
    intro s ho hl
    exact ⟨congrArg Host.Outcome.next (State.dropLink_of_linked ho hl), congrArg Host.Outcome.next (State.dropLink_of_linked ho hl)⟩
  case low =>
    rintro s l (rfl | rfl)
    all_goals exact ⟨s.linkState_linkLow (by decide), s.speed_linkLow _, s.width_linkLow _, s.stopped_linkLow (by decide) (by decide)⟩
  case assert =>
    exact fun s ho hp => ⟨_, exec_perstNAssert ho hp, rfl, State.linkState_linkLow _ (by decide)⟩
  case release =>
    exact fun s ho hp => ⟨_, exec_perstNRelease ho hp, rfl, State.linkState_linkLow _ (by decide),
      (s.setPerst false).linkLow_regsBut lsTraining⟩
  case fail =>
    rintro s lane x ho hlt rfl hf hlost hsp
    refine ⟨fun h => ?_, fun h hl hw => ?_, fun h hl => ?_⟩
    · exact ⟨_, exec_hostOpticalLaneFail_spared ho hlt hf hlost hsp h, s.spareHostLane_sparing _, s.spareHostLane_lanes _,
        (s.spareHostLane_recoveries _).trans s.recoveries_passRecovery, s.spareHostLane_regsBut _⟩
    · exact ⟨_, exec_hostOpticalLaneFail_narrowed ho hlt hf hlost hsp h hl hw, s.narrowHostLink_lostLanes _,
        s.narrowHostLink_width _, State.narrowHostLink_recoveries _ hl, s.narrowHostLink_regsBut _⟩
    · exact ⟨_, exec_hostOpticalLaneFail_down ho hlt hf hlost hsp h hl, rfl, rfl⟩
  case resume =>
    intro s ho hp hl hw
    refine ⟨_, exec_hostTrafficResume ho hp hl hw, _, rfl, fun h => if_pos h, fun h => ⟨_, rfl, ?_⟩⟩
    exact if_neg (by simp [h])
  · exact congrArg Host.Outcome.next (if_pos ho)
  · exact congrArg Host.Outcome.next (if_pos ho)

/-- Settles O36. A reply of a stale generation is pruned after its AER bit is set by log entry 69 (R358), and a message taken changes
nothing of itself by log entry 26. -/
theorem hostTrafficCompletes : Obligations.HostTrafficCompletes := by
  refine ⟨?pruned, ?read, fun s tag r hr => exec_hostCompletionTimeout hr, fun s seq hl => exec_hostWriteAck hl, ?ack, ?write, ?stage,
    fun s o hr => ⟨congrArg Host.Outcome.next (if_pos hr), congrArg Host.Outcome.next (if_pos hr)⟩, ?mctp, ?eid,
    fun s ep eid => congrArg Host.Outcome.next (if_pos (by simp))⟩
  case pruned =>
    intro s tag gen st data ho hl h
    obtain ⟨hfld, hregs⟩ := State.addSat_counts s F.HST_ERR_PRUNED (by decide)
    exact ⟨_, exec_hostReadCompletion_pruned data ho hl st h, hfld, hregs, rfl, rfl, rfl⟩
  case read =>
    intro s tag gen data r ho hl hg hr
    refine ⟨fun h => exec_hostReadCompletion_whole data ho hl hg hr h,
      fun h => ⟨_, exec_hostReadCompletion_part data ho hl hg hr h, rfl, rfl, rfl, rfl⟩, fun hc => ?_, fun hc => ?_⟩
    · have h (st : CplStatus) (hst : st ≠ .ok) := exec_hostReadCompletion_failed_current data ho hl hg hr hst hc
      exact ⟨h .unsupported (by decide), h .abort (by decide), h .poisoned (by decide), h .ecrc (by decide)⟩
    · have h (st : CplStatus) (hst : st ≠ .ok) := exec_hostReadCompletion_failed_stale data ho hl hg hr hst hc
      exact ⟨h .unsupported (by decide), h .abort (by decide), h .poisoned (by decide), h .ecrc (by decide)⟩
  case ack =>
    intro s seq w hl hw
    refine ⟨_, exec_hostWriteAck hl, s.dropWrite w, ?_, rfl, rfl⟩
    rw [hw]
    rfl
  case write =>
    intro s o data hr hlen
    obtain ⟨hfld, hregs⟩ := State.addSat_counts s F.HST_ERR_STAGE_UNAVAIL (by decide)
    refine ⟨fun h => ⟨_, (exec_stagingWrite hr hlen).trans (congrArg _ (if_pos h)), hfld, rfl, hregs⟩, fun h => ?_⟩
    exact (exec_stagingWrite hr hlen).trans (congrArg _ (if_neg (by simp [h])))
  case stage =>
    intro s o len hr hlen h0
    obtain ⟨hfld, hregs⟩ := State.addSat_counts s F.HST_ERR_STAGE_UNAVAIL (by decide)
    refine ⟨fun h => ⟨_, (exec_stagingRead hr hlen h0).trans (congrArg _ (if_pos h)), rfl, rfl, hfld, hregs⟩, fun h => ?_⟩
    exact ⟨_, (exec_stagingRead hr hlen h0).trans (congrArg _ (if_neg (by simp [h]))), s.stageLinesRead o len, rfl, rfl⟩
  case mctp =>
    intro s routing msgType body hl
    obtain ⟨hfld, hregs⟩ := State.addSat_counts s F.HST_ERR_MCTP_DROP (by decide)
    refine ⟨fun hs ht hrt => ?_, fun h => ⟨_, (exec_mctpVdmReceive routing msgType body hl).trans (congrArg _ (if_neg ?_)), hfld, hregs⟩⟩
    · refine (exec_mctpVdmReceive routing msgType body hl).trans (congrArg _ (if_pos ?_))
      simp only [mctpTaken, hs, Bool.true_and, Bool.and_eq_true, Bool.or_eq_true, decide_eq_true_eq, or_assoc]
      exact ⟨ht, hrt⟩
    · simp only [mctpTaken, Bool.and_eq_true, Bool.or_eq_true, decide_eq_true_eq, or_assoc]
      rintro ⟨hs, ht, hrt⟩
      rcases h with h | h | h
      · simp [hs] at h
      · exact h ht
      · exact h hrt
  case eid =>
    intro s eid h0 hff
    refine ⟨fun h => ⟨_, exec_setEndpointId_vdm h0 hff h, ?_, ?_⟩, fun h => ⟨_, exec_setEndpointId_i3c h0 hff h, rfl, rfl⟩⟩
    · exact (s.fld_setFld_same F.HST_MCTP_CFG_EID _ (by decide)).trans (Nat.mod_eq_of_lt eid.isLt)
    · exact (RegsBut.refl _ s).setFld _ (List.mem_singleton_self _)

/-- Settles O56. The content of the messages is that of log entries 7, 26 and 27. -/
theorem attestationCompletes : Obligations.AttestationCompletes := by
  refine ⟨?i3c, ?vdm, ?answers, ?queued, ?busy, ?measured, ?signed⟩
  case i3c =>
    rintro s ty b _ rfl
    exact ⟨s.reply_i3c_out ty b rfl, flatten_unitsOf (by decide) _, fun _ => length_le_of_mem_unitsOf⟩
  case vdm =>
    rintro s ty b _ rfl
    have hn : 0 < s.vdmUnit := Nat.mul_pos (by decide) (Nat.two_pow_pos _)
    exact ⟨s.reply_vdm_out ty b rfl, flatten_unitsOf hn _, fun _ => length_le_of_mem_unitsOf⟩
  case answers =>
    intro s ep h
    refine ⟨congrArg Host.Outcome.next (State.request_served h _), congrArg Host.Outcome.next (State.request_served h _),
      congrArg Host.Outcome.next (State.request_served h _), fun hc => ?_, fun c hc => ?_⟩
    · exact ⟨exec_getDigests_unidentified h hc, fun o n => exec_getCertificate_unidentified h o n hc⟩
    · exact ⟨exec_getDigests h hc, fun o n => exec_getCertificate h o n hc⟩
  case queued =>
    intro s ep nonce h hid hn
    refine ⟨⟨_, (exec_challenge h nonce).trans (congrArg _ (State.askSignature_queued _ hid hn)), s.challengeBody, rfl, rfl, rfl, rfl, rfl⟩,
      fun i hi => ⟨_, (exec_getMeasurements h true nonce hi).trans (congrArg _ (State.askSignature_queued _ hid hn)), s.measureBody i,
        rfl, rfl, rfl⟩⟩
  case busy =>
    exact fun s ep nonce h hid hn => (exec_challenge h nonce).trans (congrArg _ (State.askSignature_busy _ hid hn))
  case measured =>
    exact fun s ep i nonce h => ⟨fun hi => exec_getMeasurements h false nonce hi,
      fun h0 hi sg => exec_getMeasurements_unnamed h sg nonce h0 hi⟩
  case signed =>
    exact fun s r rest hq => ⟨fun i hi => exec_spdmSignatureDone hq hi, fun hi => exec_spdmSignatureDone_wiped hq hi⟩

end Sys2Proof.Machine
end

section
/-! SUPPORT. The time of the part: what a tick and a loss of the input do to the clock, and the events of a ring entry (R617, R666, R737,
R803, R831). -/

namespace Sys2Proof.Machine

open Sys2Proof.Safety

/-! ## The clock -/

/-- A powered part's tick counts one nanosecond, and refreshes the sensors where their period ends. -/
theorem State.tick_on {s : State} (h : s.off = false) : ∃ c : Clock, c.ticks = s.clock.ticks + 1 ∧
    s.tick = if (s.now + 1) % 100000000 = 0 then ({ s with clock := c } : State).senseAll else { s with clock := c } := by
  unfold State.tick
  rw [if_neg (by simp [h])]
  exact ⟨_, rfl, rfl⟩

theorem State.tick_off {s : State} (h : s.off = true) : s.tick = s := if_pos h

/-- A tick writes the clock and the sensors alone. -/
theorem State.tick_frame {α : Type} (g : State → α) (hc : ∀ (t : State) c, g { t with clock := c } = g t)
    (hm : ∀ (t : State) m, g { t with mgmt := m } = g t) (s : State) : g s.tick = g s := by
  cases h : s.off with
  | true => rw [State.tick_off h]
  | false =>
    obtain ⟨c, _, ht⟩ := State.tick_on h
    rw [ht]
    split
    · exact (hm _ _).trans (hc _ _)
    · exact hc _ _

theorem State.now_tick {s : State} (h : s.off = false) : s.tick.now = s.now + 1 := by
  obtain ⟨c, hc, ht⟩ := State.tick_on h
  rw [ht]
  split <;> exact hc

theorem State.sensed_tick {s : State} (h : s.off = false) : s.tick.mgmt.sensed =
    if (s.now + 1) % 100000000 = 0 then (List.range 16).map fun i => s.sensorReading (i + 1) else s.mgmt.sensed := by
  obtain ⟨c, _, ht⟩ := State.tick_on h
  rw [ht]
  split <;> rfl

/-- A loss of the input: OFF, and with it the clock at 0; a part that is OFF only drops a start that waits. -/
def State.inputLost (s : State) : State := if s.off then { s with boot := { s.boot with waits := none } } else s.powerOff

theorem exec_inputLost {c : Instr} (hc : c = .eoffN ∨ c = .inputLoss ∨ c = .inputOvervoltage) (s : State) :
    exec c s = .next s.inputLost := by
  rcases hc with rfl | rfl | rfl <;> rfl

theorem State.now_inputLost (s : State) : s.inputLost.now = if s.off then s.now else 0 := by
  unfold State.inputLost
  split <;> rfl

theorem setsClock_eq_false {c : Instr} (h1 : c ≠ .eoffN) (h2 : c ≠ .inputLoss) (h3 : c ≠ .inputOvervoltage) : setsClock c = false := by
  unfold setsClock
  split <;> simp_all

/-! ## Events -/

/-- An event in its ring entry, counted, and queued for polling from WARN up, before any vector is raised. -/
def State.eventRecorded (s : State) (c x d : Nat) : State :=
  let i := s.fld F.RAS_EVENT_COUNT_TOTAL % 256
  let s1 := (((s.setReg (eventTimeReg i) s.stepClock).setReg (eventInfoReg i) (eventInfo c x d)).addSat F.RAS_EVENT_COUNT_TOTAL 1)
  if severityOf c = sevInfo then s1
  else { s1 with mgmt := { s1.mgmt with polled := (s1.mgmt.polled ++ [eventInfo c x d]).drop (s1.mgmt.polled.length + 1 - 64) } }

/-- The vector of an event of severity `n`, where that severity raises one and its enable is 1. -/
def State.eventVector (u : State) (n : Nat) : State :=
  if 2 ≤ n then (if u.fld F.RAS_EVENT_CFG_FAULT_EN = 1 then u.raiseVector (u.fld F.RAS_EVENT_CFG_VEC_FAULT) else u)
  else if n = sevWarn then (if u.fld F.RAS_EVENT_CFG_WARN_EN = 1 then u.raiseVector (u.fld F.RAS_EVENT_CFG_VEC_WARN) else u)
  else u

theorem State.raiseEvent_eq (s : State) (c x d : Nat) : s.raiseEvent c x d = (s.eventRecorded c x d).eventVector (severityOf c) := rfl

/-- Its registers are those of the ring entry and the count; the events queued for polling are no register. -/
theorem State.eventRecorded_regs (s : State) (c x d : Nat) : (s.eventRecorded c x d).regs =
    (((s.setReg (eventTimeReg (s.fld F.RAS_EVENT_COUNT_TOTAL % 256)) s.stepClock).setReg
      (eventInfoReg (s.fld F.RAS_EVENT_COUNT_TOTAL % 256)) (eventInfo c x d)).addSat F.RAS_EVENT_COUNT_TOTAL 1).regs := by
  unfold State.eventRecorded
  dsimp only
  split <;> rfl

theorem State.eventRecorded_out (s : State) (c x d : Nat) : (s.eventRecorded c x d).out = s.out := by
  unfold State.eventRecorded
  dsimp only
  split <;> rfl

/-- The registers of the ring lie apart from one another, from the count and from RAS_EVENT_CFG. -/
theorem eventRegs_apart (i : Nat) : eventTimeReg i ≠ eventInfoReg i ∧ F.RAS_EVENT_COUNT_TOTAL.reg < eventTimeReg i ∧
    F.RAS_EVENT_CFG_FAULT_EN.reg < eventTimeReg i ∧ eventTimeReg i < eventInfoReg i := by
  simp only [eventTimeReg, eventInfoReg, F.RAS_EVENT_COUNT_TOTAL, F.RAS_EVENT_CFG_FAULT_EN]
  omega

section
variable (s : State) (c x d : Nat)

theorem State.eventRecorded_regsBut : RegsBut [eventTimeReg (s.fld F.RAS_EVENT_COUNT_TOTAL % 256),
    eventInfoReg (s.fld F.RAS_EVENT_COUNT_TOTAL % 256), F.RAS_EVENT_COUNT_TOTAL.reg] s (s.eventRecorded c x d) :=
  ((((RegsBut.refl _ s).setReg _ (by simp)).setReg _ (by simp)).setFld _ (by simp)).of_regs (s.eventRecorded_regs c x d)

theorem State.time_eventRecorded : (s.eventRecorded c x d).reg (eventTimeReg (s.fld F.RAS_EVENT_COUNT_TOTAL % 256)) = s.stepClock := by
  obtain ⟨hti, hct, _, _⟩ := eventRegs_apart (s.fld F.RAS_EVENT_COUNT_TOTAL % 256)
  rw [State.reg_of_regs (s.eventRecorded_regs c x d), State.addSat, State.reg_setFld_ne _ _ (Nat.ne_of_gt hct),
    State.reg_setReg_ne _ _ hti, State.reg_setReg_same]

theorem State.info_eventRecorded :
    (s.eventRecorded c x d).reg (eventInfoReg (s.fld F.RAS_EVENT_COUNT_TOTAL % 256)) = eventInfo c x d := by
  obtain ⟨_, hct, _, hlt⟩ := eventRegs_apart (s.fld F.RAS_EVENT_COUNT_TOTAL % 256)
  rw [State.reg_of_regs (s.eventRecorded_regs c x d), State.addSat, State.reg_setFld_ne _ _ (Nat.ne_of_gt (hct.trans hlt)),
    State.reg_setReg_same]

theorem State.total_eventRecorded :
    (s.eventRecorded c x d).fld F.RAS_EVENT_COUNT_TOTAL = min (s.fld F.RAS_EVENT_COUNT_TOTAL + 1) 0xFFFFFFFF := by
  obtain ⟨_, hct, _, hlt⟩ := eventRegs_apart (s.fld F.RAS_EVENT_COUNT_TOTAL % 256)
  rw [State.fld_of_regs (s.eventRecorded_regs c x d), State.fld_addSat_same _ _ _ (by decide),
    State.fld_setReg_ne _ _ (Nat.ne_of_lt (hct.trans hlt)), State.fld_setReg_ne _ _ (Nat.ne_of_lt hct)]
  rfl

/-- RAS_EVENT_CFG, which says what vectors are raised, is not among them. -/
theorem State.cfg_eventRecorded {f : Fld} (hf : f.reg = F.RAS_EVENT_CFG_FAULT_EN.reg) : (s.eventRecorded c x d).fld f = s.fld f := by
  obtain ⟨_, _, hcfg, hlt⟩ := eventRegs_apart (s.fld F.RAS_EVENT_COUNT_TOTAL % 256)
  refine congrArg (fieldGet · f.hi f.lo) (s.eventRecorded_regsBut c x d f.reg ?_)
  rw [hf]
  simp only [List.mem_cons, List.not_mem_nil, or_false, not_or]
  exact ⟨Nat.ne_of_lt hcfg, Nat.ne_of_lt (hcfg.trans hlt), by decide⟩

/-- A vector writes the pending-bit array, past the ring. -/
theorem State.reg_eventVector_ring (u : State) (n : Nat) {j : Nat} (h : j < 256) :
    (u.eventVector n).reg (eventTimeReg j) = u.reg (eventTimeReg j) ∧ (u.eventVector n).reg (eventInfoReg j) = u.reg (eventInfoReg j) := by
  constructor <;> refine u.reg_eventVector n _ (.inl ?_) <;> simp only [eventTimeReg, eventInfoReg] <;> omega

end

end Sys2Proof.Machine
end

section
/-! SUPPORT. The change log and the synchronised clock: entries written, gaps and the mirror, and the messages between chips that keep the
step clocks together (R806 to R813, R839 to R843). -/

namespace Sys2Proof.Machine

open Sys2Proof.Safety

/-! ## The change log -/

theorem exec_logEntryWrite {s : State} {e : LogPend} {r : List LogPend} (ho : s.off = false) (hw : s.fld F.SEC_CF_STATUS_WIPE_BUSY = 0)
    (hq : s.log.queue = e :: r) :
    exec .logEntryWrite s = .next (({ s with log := { s.log with queue := r } } : State).writeEntry e) := by
  refine congrArg Host.Outcome.next ?_
  unfold State.doLogEntryWrite
  rw [if_neg (by simp [ho, hw]), hq]

/-- CHAIN_START and MIRROR_SEQ aside, no entry written changes the log itself but in its ring. -/
theorem State.writeEntry_log (s : State) (e : LogPend) : (s.writeEntry e).log = { s.log with
    ring := mset (fun _ => []) s.log.ring (s.fld F.LOG_STATUS_NEXT_SEQ % 65536) (entryBody e (s.fld F.LOG_STATUS_NEXT_SEQ) ++
      entryLink (s.linkBase e.cls (s.fld F.LOG_STATUS_NEXT_SEQ)) (entryBody e (s.fld F.LOG_STATUS_NEXT_SEQ))) } := by
  unfold State.writeEntry
  extract_lets q body link l s1 s2 s3
  have h3 : s3.log = s1.log := by
    unfold s3
    split <;> rfl
  split <;> exact h3

theorem State.nextSeq_writeEntry (s : State) (e : LogPend) : (s.writeEntry e).fld F.LOG_STATUS_NEXT_SEQ =
    (s.fld F.LOG_STATUS_NEXT_SEQ + 1) % 2 ^ (F.LOG_STATUS_NEXT_SEQ.hi + 1 - F.LOG_STATUS_NEXT_SEQ.lo) := by
  unfold State.writeEntry
  extract_lets q body link l s1 s2 s3
  have h2 : s2.fld F.LOG_STATUS_NEXT_SEQ =
      (s.fld F.LOG_STATUS_NEXT_SEQ + 1) % 2 ^ (F.LOG_STATUS_NEXT_SEQ.hi + 1 - F.LOG_STATUS_NEXT_SEQ.lo) :=
    (State.fld_setReg_ne _ _ (by decide)).trans ((State.fld_setReg_ne _ _ (by decide)).trans (State.fld_setFld_same _ _ _ (by decide)))
  have h3 : s3.fld F.LOG_STATUS_NEXT_SEQ = s2.fld F.LOG_STATUS_NEXT_SEQ := by
    unfold s3
    split
    · exact State.fld_setFld_ne _ _ (by decide)
    · rfl
  split
  · exact h3.trans h2
  · exact (State.fld_setFld_ne _ _ (by decide)).trans (h3.trans h2)

/-- A gap entry takes the place that is free for it. -/
theorem exec_logGap {s : State} (ho : s.off = false) (hl : s.log.lost ≠ 0) (hq : s.log.queue.length < 1024) :
    exec .logGap s = .next { s with log := { s.log with
      lost := 0
      queue := s.log.queue ++ [⟨s.stepClock, s.wall, orHw, 0x14, 0, logValue 0, logValue s.log.lost⟩] } } := by
  refine congrArg Host.Outcome.next ?_
  unfold State.doLogGap
  rw [if_neg (by simp [ho, hl, hq])]
  exact if_neg (Nat.not_le.2 hq)

section
variable {s : State} (ho : s.off = false) (hen : s.fld F.LOG_MIRROR_CFG_ENABLE = 1)
  (hdue : s.fld F.LOG_MIRROR_STATUS_MIRROR_SEQ ≠ s.fld F.LOG_STATUS_NEXT_SEQ)
include ho hen hdue

theorem exec_logMirrorCopy_missed (hr : s.ringEntry (s.fld F.LOG_MIRROR_STATUS_MIRROR_SEQ) = none) :
    exec .logMirrorCopy s = .next s.mirrorStep := by
  refine congrArg Host.Outcome.next ?_
  unfold State.doLogMirrorCopy
  simp only [ho, hen, hdue, hr]
  rfl

theorem exec_logMirrorCopy_held {e : Bytes} (hr : s.ringEntry (s.fld F.LOG_MIRROR_STATUS_MIRROR_SEQ) = some e)
    (hreach : s.stageReaches (s.mirrorOffset (s.fld F.LOG_MIRROR_STATUS_MIRROR_SEQ)) = true) : exec .logMirrorCopy s =
      .next ((s.stageLineWrite (s.stageLine (s.mirrorOffset (s.fld F.LOG_MIRROR_STATUS_MIRROR_SEQ))) (e.map some)).mirrorStep) := by
  refine congrArg Host.Outcome.next ?_
  unfold State.doLogMirrorCopy
  simp only [ho, hen, hdue, hr]
  exact if_pos hreach

end

/-! ## Messages and corrections of the step clock -/

/-- A REQUEST in flight at a port, in place of an earlier one there. -/
def State.asking (s : State) (p : Nat) : State :=
  { s with clock := { s.clock with
    nextSeq := (s.clock.nextSeq + 1) % 256
    asked := (s.clock.asked.filter fun a => decide (a.1 ≠ p)) ++ [(p, s.clock.nextSeq, s.stepClock)] } }

theorem exec_timeSyncRequestSend {s : State} {p : Nat} (hp : p < 32) (hu : s.portUsable p = true) : exec (.timeSyncRequestSend p) s =
    .next ((s.asking p).sendCtrl p (.timeSync false (s.syncMsg s.clock.nextSeq s.stepClock 0 0))) :=
  congrArg Host.Outcome.next (if_pos ⟨hp, hu⟩)

/-- What neither a message sent nor the ports hold, a control message leaves alone. -/
theorem State.sendCtrl_frame {α : Type} (g : State → α) (he : ∀ t e, g (State.emit t e) = g t)
    (hf : ∀ (t : State) x, g { t with fab := x } = g t) (s : State) (p : Nat) (m : CtrlMsg) : g (s.sendCtrl p m) = g s := by
  have hframe (t : State) : g (t.sendFrame p false) = g t := (he _ _).trans ((hf _ _).trans (hf _ _))
  have hfull (t : State) : g (t.sendFull p) = g t := by
    unfold State.sendFull
    split
    · exact hframe t
    · rfl
  have hpush (t : State) : g (t.pushCtrl p) = g t := by
    unfold State.pushCtrl
    dsimp only
    split
    · split
      · exact (hfull _).trans ((hf _ _).trans (hf _ _))
      · rfl
    · rfl
  unfold State.sendCtrl
  dsimp only
  split
  · exact (hpush _).trans ((hf _ _).trans (he _ _))
  · exact he _ _

theorem State.oweCtrl_frame {α : Type} (g : State → α) (hf : ∀ (t : State) x, g { t with fab := x } = g t) (s : State) (p : Nat) :
    g (s.oweCtrl p) = g s := by
  unfold State.oweCtrl
  split
  · exact hf _ _
  · rfl

theorem exec_timeSyncRequest {s : State} {p : Nat} (hp : p < 32) (hon : s.portOn p = true) (m : SyncMsg) :
    exec (.timeSyncRequest p m) s = .next (((s.hear p m).oweCtrl p).sendCtrl p
      (.timeSync true ((s.hear p m).syncMsg m.seq m.t1 s.stepClock s.stepClock))) := by
  have hmsg : ((s.hear p m).oweCtrl p).syncMsg m.seq m.t1 s.stepClock s.stepClock =
      (s.hear p m).syncMsg m.seq m.t1 s.stepClock s.stepClock :=
    State.oweCtrl_frame (·.syncMsg m.seq m.t1 s.stepClock s.stepClock) (fun _ _ => rfl) _ p
  rw [← hmsg]
  exact congrArg Host.Outcome.next (if_pos ⟨hp, hon⟩)

section
variable {s : State} {p : Nat} {m : SyncMsg} (hp : p < 32) (hon : s.portOn p = true)
include hp hon

theorem exec_timeSyncResponse_unasked
    (ha : (((s.oweCtrl p).hear p m).chooseParent).clock.asked.contains (p, m.seq, m.t1) = false) :
    exec (.timeSyncResponse p m) s = .next (((s.oweCtrl p).hear p m).chooseParent) :=
  congrArg Host.Outcome.next ((if_pos ⟨hp, hon⟩).trans (if_neg (ha ▸ Bool.false_ne_true)))

/-- A RESPONSE of the parent to the last REQUEST at its port corrects the step clock (R806, R809). -/
theorem exec_timeSyncResponse_parent {u : State} (hu : u = ((s.oweCtrl p).hear p m).chooseParent)
    (ha : (p, m.seq, m.t1) ∈ u.clock.asked) (hpar : u.clock.hasParent = true) (hport : u.fld F.TIM_STATUS_PARENT_PORT = p) :
    exec (.timeSyncResponse p m) s = .next
      (({ u with clock := { u.clock with asked := u.clock.asked.erase (p, m.seq, m.t1) } } : State).correct
        (syncOffset m s.stepClock)) := by
  subst hu
  exact congrArg Host.Outcome.next ((if_pos ⟨hp, hon⟩).trans ((if_pos (List.contains_iff_mem.2 ha)).trans (if_pos ⟨hpar, hport⟩)))

end

/-! ## Holdover and roots -/

/-- The parent lost, before another is chosen. -/
def State.parentLost (s : State) : State :=
  ({ s with clock := { s.clock with hasParent := false } } : State).setFld F.TIM_STATUS_STATE tsHoldover

/-- Outside ROOT the choice of a parent does not look at STATE. -/
theorem State.bestParent_parentLost {s : State} (hr : s.timState ≠ tsRoot) : s.parentLost.bestParent = s.bestParent := by
  have hst : s.parentLost.timState = tsHoldover := State.fld_setFld_same _ _ _ (by decide)
  have hchip : s.parentLost.chipId = s.chipId := State.fld_setFld_ne _ _ (by decide)
  have hfollow : s.parentLost.mayFollow = s.mayFollow := by
    funext h
    unfold State.mayFollow
    rw [hst, hchip]
    simp only [hr, ne_eq, not_false_eq_true, decide_true, Bool.true_or]
    rfl
  unfold State.bestParent
  rw [hfollow]
  rfl

/-- With no other parent in reach the clock holds over. -/
theorem exec_holdover {s : State} (ho : s.off = false) (hp : s.clock.hasParent = true) (hlate : s.clock.lastAnswer + 10000000 ≤ s.now)
    (hb : s.bestParent = none) (hr : s.timState ≠ tsRoot) : exec .holdover s = .next s.parentLost := by
  refine congrArg Host.Outcome.next ((if_pos ⟨ho, hp, hlate⟩).trans ?_)
  show s.parentLost.chooseParent = s.parentLost
  unfold State.chooseParent
  rw [State.bestParent_parentLost hr, hb]

/-- A root: no parent, its own time valid, at no hops. -/
def State.asRoot (s : State) : State :=
  ((({ s with clock := { s.clock with heldTime := true, hasParent := false } } : State).setFld F.TIM_STATUS_STATE tsRoot).setFld
    F.TIM_STATUS_HOPS 0).setFld F.TIM_STATUS_ROOT_CHIP s.chipId

theorem exec_becomeRoot {s : State} (ho : s.off = false) (hb : s.bestParent = none) (hr : s.rootOk = true) :
    exec .becomeRoot s = .next s.asRoot := congrArg Host.Outcome.next (if_pos ⟨ho, hb, hr⟩)

theorem State.asRoot_fields (s : State) : s.asRoot.fld F.TIM_STATUS_STATE = tsRoot ∧ s.asRoot.fld F.TIM_STATUS_HOPS = 0 ∧
    s.asRoot.fld F.TIM_STATUS_ROOT_CHIP = s.chipId % 64 := by
  unfold State.asRoot
  refine ⟨?_, ?_, State.fld_setFld_same _ _ _ (by decide)⟩
  · rw [State.fld_setFld_apart _ _ (by decide), State.fld_setFld_apart _ _ (by decide), State.fld_setFld_same _ _ _ (by decide)]
    rfl
  · rw [State.fld_setFld_apart _ _ (by decide), State.fld_setFld_same _ _ _ (by decide)]
    rfl

theorem State.asRoot_regsBut (s : State) : RegsBut [F.TIM_STATUS_STATE.reg] s s.asRoot :=
  ((((RegsBut.refl _ s).of_regs rfl).setFld _ (by decide)).setFld _ (by decide)).setFld _ (by decide)

end Sys2Proof.Machine
end

section
/-! The statements of the part's own time: ticks and reset, events, the identification register, commits of an empty set, the synchronised
clock and the change log. -/

namespace Sys2Proof.Machine

open Sys2Proof.Safety

/-- Settles O6: every other command keeps the count of ticks. That the clock counts from power-on is log entry 1. -/
theorem onlyPowerLossTurnsBackTheClock : Obligations.OnlyPowerLossTurnsBackTheClock := by
  intro c s t e
  refine ⟨fun h1 h2 h3 => (exec_keeps e).ticks (congrArg not (setsClock_eq_false h1 h2 h3)), fun hc => ?_⟩
  obtain rfl : s.inputLost = t := Host.Outcome.next.inj ((exec_inputLost hc s).symm.trans e)
  exact s.now_inputLost

/-- Settles O12: the entry of the ring is written before any vector, which writes past the ring. -/
theorem eventsFillTheRing : Obligations.EventsFillTheRing := by
  rintro s c x d _ rfl
  have hcfg {f : Fld} (hf : f.reg = F.RAS_EVENT_CFG_FAULT_EN.reg) : (s.eventRecorded c x d).fld f = s.fld f :=
    s.cfg_eventRecorded c x d hf
  refine ⟨s.eventRecorded c x d, s.eventRecorded_regsBut c x d, s.eventRecorded_out c x d, s.time_eventRecorded c x d,
    s.info_eventRecorded c x d, s.total_eventRecorded c x d, fun h => ?_, fun h => ?_, fun h => ?_,
    fun j hj => (s.eventRecorded c x d).reg_eventVector_ring (severityOf c) hj⟩ <;> rw [State.raiseEvent_eq, State.eventVector]
  · rw [if_neg (by omega), if_neg (by rw [h]; decide)]
  · rw [if_neg (by omega), if_pos (show severityOf c = sevWarn from h), hcfg (f := F.RAS_EVENT_CFG_WARN_EN) rfl,
      hcfg (f := F.RAS_EVENT_CFG_VEC_WARN) rfl]
  · rw [if_pos h, hcfg (f := F.RAS_EVENT_CFG_FAULT_EN) rfl, hcfg (f := F.RAS_EVENT_CFG_VEC_FAULT) rfl]

/-- Settles O11. That PENDING stays 1 while an earlier commit of the block waits is log entry 70. -/
theorem emptyCommitClearsPending : Obligations.EmptyCommitClearsPending := by
  intro s w b g ha hg he
  rw [exec_commit_empty ha hg he]
  exact ⟨fun hw => by rw [if_neg (by simp [hw])], fun hw => by rw [if_pos hw]⟩

/-- Settles O3. The registers of the reset state are all at their reset values (log entry 3). -/
theorem resetLeaves : Obligations.ResetLeaves := by
  refine ⟨⟨rfl, rfl, rfl, rfl, rfl, rfl, rfl, rfl, rfl, rfl⟩, rfl, fun _ => rfl, rfl, ?_, ?_, ?_, ?_⟩ <;> decide

/-- Settles O2: a tick writes the clock, and at the end of a period the sensors (log entry 1). -/
theorem idleStepTicks : Obligations.IdleStepTicks := by
  intro s hq
  have hframe {α : Type} (g : State → α) (hc : ∀ (t : State) c, g { t with clock := c } = g t)
    (hm : ∀ (t : State) m, g { t with mgmt := m } = g t) : g s.tick = g s := State.tick_frame g hc hm s
  exact ⟨step_of_empty hq, State.tick_off, State.now_tick, hframe (·.regs) (fun _ _ => rfl) fun _ _ => rfl,
    (hframe (·.pending) (fun _ _ => rfl) fun _ _ => rfl).trans hq, hframe (·.out) (fun _ _ => rfl) fun _ _ => rfl,
    hframe (·.mem) (fun _ _ => rfl) fun _ _ => rfl, hframe (·.disp) (fun _ _ => rfl) fun _ _ => rfl,
    hframe (·.clusters) (fun _ _ => rfl) fun _ _ => rfl, State.sensed_tick⟩

/-- Settles O13: Capture-DR loads the register that IDCODE selects, as IEEE 1149.1 has it (log entry 51). -/
theorem identificationReads : Obligations.IdentificationReads := by
  refine ⟨fun s tms tdi pads hon ht hst hir => ⟨_, exec_tckRisingEdge tms tdi pads hon ht, ?_⟩, by decide⟩
  obtain ⟨_, hshift, hregs, _⟩ := (s.tapRise tms tdi pads).tapFall_frame (tapNext s.tap.state tms)
  have hcap : (s.tapRise tms tdi pads).tap.shift = bitsLow 32 tapId := by
    show s.tapShift tdi pads = _
    simp [State.tapShift, hst, State.captureDr, State.tapBoundary, hir, tapIdcode, tapSample, tapExtest]
  have hstay : tapNext s.tap.state tms ≠ .reset ∧ tapNext s.tap.state tms ≠ .updateIr := by
    rw [hst]
    cases tms <;> decide
  rw [hshift, hcap]
  refine ⟨rfl, by decide, ?_, hregs⟩
  rw [State.tapFall_ir, if_neg hstay.1, if_neg hstay.2]
  exact hir

/-- Settles O58. That a parent is chosen as each RESPONSE comes is log entry 29 (R807). -/
theorem timeKeepingCompletes : Obligations.TimeKeepingCompletes := by
  refine ⟨fun s p hp hu => ⟨_, exec_timeSyncRequestSend hp hu, ?_, ?_, ?_, s.asking p, rfl, rfl, rfl⟩,
    fun s p m hp hon => ⟨⟨_, exec_timeSyncRequest hp hon m, ?_, ?_, rfl⟩, exec_timeSyncResponse_unasked hp hon,
      fun u hu ha hpar hport => exec_timeSyncResponse_parent hp hon hu ha hpar hport⟩,
    fun s ho hp hlate hb hr => ⟨_, exec_holdover ho hp hlate hb hr, State.fld_setFld_same _ _ _ (by decide), rfl,
      ((RegsBut.refl _ s).of_regs rfl).setFld _ (List.mem_singleton_self _)⟩,
    fun s ho hb hr => ?root⟩
  · exact State.sendCtrl_frame (·.clock.nextSeq) (fun _ _ => rfl) (fun _ _ => rfl) _ _ _
  · exact State.sendCtrl_frame (·.clock.asked) (fun _ _ => rfl) (fun _ _ => rfl) _ _ _
  · exact State.sendCtrl_frame (·.regs) (fun _ _ => rfl) (fun _ _ => rfl) _ _ _
  · exact (State.sendCtrl_frame (·.clock.heard) (fun _ _ => rfl) (fun _ _ => rfl) _ _ _).trans
      (State.oweCtrl_frame (·.clock.heard) (fun _ _ => rfl) _ _)
  · exact (State.sendCtrl_frame (·.regs) (fun _ _ => rfl) (fun _ _ => rfl) _ _ _).trans
      (State.oweCtrl_frame (·.regs) (fun _ _ => rfl) _ _)
  case root =>
    obtain ⟨hst, hhops, hchip⟩ := s.asRoot_fields
    exact ⟨_, exec_becomeRoot ho hb hr, hst, hhops, hchip, rfl, rfl, s.asRoot_regsBut⟩

/-- Settles O59. -/
theorem changeLogCompletes : Obligations.ChangeLogCompletes := by
  refine ⟨fun s e r ho hw hq => ⟨_, exec_logEntryWrite ho hw hq, ?_, State.nextSeq_writeEntry _ e, ?_⟩,
    fun s ho hl hq => ⟨_, exec_logGap ho hl hq, rfl, rfl, _, rfl, rfl, rfl⟩,
    ?_⟩
  · rw [State.writeEntry_log]
  · rw [State.writeEntry_log]
    exact mget_mset_same _ _ _ _
  · rintro s _ ho hen rfl hdue
    refine ⟨fun hr => ⟨_, exec_logMirrorCopy_missed ho hen hdue hr, State.fld_setFld_same _ _ _ (by decide),
      (RegsBut.refl _ s).setFld _ (List.mem_singleton_self _)⟩, fun e hr hreach => exec_logMirrorCopy_held ho hen hdue hr hreach⟩

end Sys2Proof.Machine
end

section
/-! SUPPORT. Resets of clusters, quadrants and the compute domain, with their escalation (R687 to R697, R706 to R708, R897). -/

namespace Sys2Proof.Machine

open Sys2Proof.Safety

/-! ## The state of a sequencer -/

section
variable (s : State) (p n : Nat)

theorem State.seqState_setSeq (h : n < 16) : (s.setSeq p n).seqState p = n :=
  (State.fld_setFld_same _ _ _ (by simp [Fld.clu, F.CLU_SEQ_STATUS_SEQ_STATE])).trans (Nat.mod_eq_of_lt h)

/-- A register of another block than a cluster's is no cluster's field. -/
theorem State.seqState_setFld {f : Fld} (h : f.reg < 0x1000000) : (s.setFld f n).seqState p = s.seqState p :=
  State.fld_setFld_ne _ _ (by simp [Fld.clu]; omega)

theorem State.seqState_raiseEvent (c x d : Nat) : (s.raiseEvent c x d).seqState p = s.seqState p := s.cfld_raiseEvent c x d p _

end

/-! ## One cluster in reset -/

theorem State.seqState_resetOne (s : State) (p cause : Nat) : (s.resetOne p cause).seqState p = sqInReset :=
  State.seqState_setSeq _ p _ (by decide)

/-- A cluster reset within the limit of its quadrant, before its event. -/
def State.clusterInReset (s : State) (p cause : Nat) : State :=
  State.noteLevel ((State.addSat { s with ras := { s.ras with
    cluResets := (s.ras.cluResets.filter fun e => decide (s.stepNow < e.2 + s.cluWindow)) ++ [(p, s.stepNow)] } }
    F.RAS_ESC_STATUS_CLU_RESETS 1).resetOne p cause) 1

theorem State.clusterInReset_fields (s : State) (p cause : Nat) : (s.clusterInReset p cause).seqState p = sqInReset ∧
    (s.clusterInReset p cause).fld F.RAS_ESC_STATUS_LAST_LEVEL = 1 :=
  ⟨(State.seqState_setFld _ p 1 (by decide)).trans (State.seqState_resetOne _ p cause), State.fld_setFld_same _ _ _ (by decide)⟩

/-- The cluster resets of the window in a quadrant, as the escalation counts them. -/
def State.quadClusterResets (s : State) (q : Nat) : Nat :=
  (s.ras.cluResets.filter fun e => decide (s.stepNow < e.2 + s.cluWindow) && decide (quadDomain e.1 = q)).length

theorem State.clusterReset_eq (s : State) (p cause : Nat) : s.clusterReset p cause =
    if s.fld F.RAS_ESC_CFG_CLU_RESET_LIMIT < s.quadClusterResets (quadDomain p) + 1 then s.quadrantReset (quadDomain p) cause
    else (s.clusterInReset p cause).raiseEvent 0x0B p cause := by
  unfold State.clusterReset State.quadClusterResets
  simp only [List.filter_filter, Bool.and_comm]
  rfl

/-! ## Ends of resets -/

/-- A cluster's reset is under way no more. -/
def State.leaveReset (s : State) (p : Nat) : State := s.setClu p { s.clu p with resetAt := none }

theorem State.endReset_fields (s : State) (p : Nat) : (s.endReset p).seqState p = (if (s.stepAt p).isSome then sqDiscarding else sqIdle) ∧
    ((s.endReset p).clu p).resetAt = none ∧ RegsBut [(F.CLU_SEQ_STATUS_SEQ_STATE.clu p).reg] s (s.endReset p) := by
  have hend : s.endReset p = (s.leaveReset p).setSeq p (if (s.stepAt p).isSome then sqDiscarding else sqIdle) := rfl
  rw [hend]
  refine ⟨State.seqState_setSeq _ p _ ?_, ?_, ((RegsBut.refl _ s).of_regs rfl).setFld _ (List.mem_singleton_self _)⟩
  · split <;> decide
  · exact congrArg Cluster.resetAt (s.clu_setClu_same p _)

theorem exec_clusterResetDone {s : State} {p : Nat} (pass : Bool) (hs : s.seqState p = sqInReset) (hr : (s.clu p).resetAt ≠ none)
    (hl : s.inLarger p = false) : exec (.clusterResetDone p pass) s =
      .next (if pass then s.endReset p else (s.leaveReset p).noteFailed p) := by
  refine congrArg Host.Outcome.next ((if_pos ⟨hs, hr, hl⟩).trans ?_)
  cases pass with
  | true => rfl
  | false => exact if_pos (by simp)

theorem exec_quadrantResetDone {s : State} {q n : Nat} (failed : List Nat) (hc : s.ras.compReset = none) (hq : (q, n) ∈ s.ras.quadReset) :
    exec (.quadrantResetDone q failed) s =
      .next ((({ s with ras := { s.ras with quadReset := s.ras.quadReset.filter fun e => decide (e.1 ≠ q) } } : State).powerUcode
        (domainClusters q)).endResets (domainClusters q) failed) :=
  congrArg Host.Outcome.next (if_pos ⟨hc, List.any_eq_true.2 ⟨_, hq, decide_eq_true rfl⟩⟩)

theorem exec_computeResetDone {s : State} {n : Nat} (failed : List Nat) (hc : s.ras.compReset = some n) :
    exec (.computeResetDone failed) s =
      .next ((({ s with ras := { s.ras with compReset := none } } : State).powerUcode (List.range 264)).endResets (List.range 264)
        failed) := by
  refine congrArg Host.Outcome.next ?_
  unfold State.doComputeResetDone
  simp only [hc]

/-! ## Resets that overrun their limits -/

section
variable {s : State} {n : Nat}

/-- The slow-corner maxima of R683. -/
theorem resetLimits : resetLimit .cluster = 3600000 ∧ resetLimit .quadrant = 90000000 ∧ resetLimit .compute = 550000000 := ⟨rfl, rfl, rfl⟩

theorem exec_resetTimeout_cluster {p : Nat} (hs : s.seqState p = sqInReset) (hl : s.inLarger p = false) (hr : (s.clu p).resetAt = some n)
    (hlate : n + resetLimit .cluster ≤ s.now) : exec (.resetTimeout .cluster p) s = .next (s.quadrantReset (quadDomain p) 3) :=
  congrArg Host.Outcome.next (if_pos ⟨hs, hl, (Option.any_eq_true _ _).2 ⟨n, hr, decide_eq_true hlate⟩⟩)

theorem exec_resetTimeout_quadrant {q : Nat} (hc : s.ras.compReset = none) (hq : (q, n) ∈ s.ras.quadReset)
    (hlate : n + resetLimit .quadrant ≤ s.now) : exec (.resetTimeout .quadrant q) s =
      .next (({ s with ras := { s.ras with quadReset := s.ras.quadReset.filter fun e => decide (e.1 ≠ q) } } : State).computeReset 3) :=
  congrArg Host.Outcome.next (if_pos ⟨hc, List.any_eq_true.2
    ⟨_, hq, by simp only [hlate, decide_true, Bool.and_self]⟩⟩)

theorem exec_resetTimeout_compute (id : Nat) (hc : s.ras.compReset = some n) (hlate : n + resetLimit .compute ≤ s.now) :
    exec (.resetTimeout .compute id) s =
      .next (({ s with ras := { s.ras with compReset := none } } : State).startRecovery hvEscalation true) :=
  congrArg Host.Outcome.next (if_pos ((Option.any_eq_true _ _).2 ⟨n, hc, decide_eq_true hlate⟩))

end

/-! ## Stalls -/

theorem exec_stageStall {s : State} {p : Nat} (e : Engine) (hr : s.cluRuns p = true) : exec (.stageStall p e) s = .next
    (if s.excused p e = true then s else ((((s.raiseEvent 0x09 p (engineBit e)).stallFault p).strike p).clusterReset p 4)) := by
  refine congrArg Host.Outcome.next ?_
  unfold State.doStageStall
  rw [hr]
  cases s.excused p e <;> rfl

theorem exec_stepBudget {s : State} {lead : Nat} {t : Step} (ht : s.stepOf lead = some t) (hs : s.inService = true)
    (hr : t.replay = none) (hf : t.fail = none) (hl : t.late ≠ [])
    (hlate : t.attemptAt + 1000000 * s.fld F.RAS_HANG_CFG_STEP_BUDGET_MS ≤ s.now) : exec (.stepBudget lead) s = .next
      (t.late.foldl (fun (s : State) p => if s.seqState p = sqInReset then s else s.clusterReset p 4)
        ((s.raiseEvent 0x0A lead (msgSeq t.words)).replayStep lead 4 [])) := by
  refine congrArg Host.Outcome.next ?_
  unfold State.doStepBudget
  simp only [ht]
  exact if_pos ⟨hs, hr, hf, hl, hlate⟩

end Sys2Proof.Machine
end

section
/-! SUPPORT. Package recovery and spares: how a recovery begins, the reset of the package, and a spare asked for (R687, R703, R715,
R748). -/

namespace Sys2Proof.Machine

open Sys2Proof.Safety

/-! ## A recovery begins -/

/-- The states in which a package recovery may begin. -/
def State.mayRecover (s : State) : Prop := s.devState = dsConfiguring ∨ s.devState = dsHeld ∨ s.inService = true

theorem State.startRecovery_joins {s : State} {r : Recovery} (cause : Nat) (fault : Bool) (hr : s.recovery = some r) :
    s.startRecovery cause fault = { s with recovery := some { r with more := r.more ++ [cause] } } := by
  unfold State.startRecovery
  simp only [hr]

/-- The work that a recovery ends is ended, and its level and cause are shown (R699, R744). -/
def State.recoveryShown (s : State) (cause : Nat) (fault : Bool) : State :=
  let s1 := ((s.resetColls.sendAborts.replayAll.abandonReload.sendNotices 2).quiesce.dropPower).pauseInstall true
  (((if fault then s1.countPkg else s1).addSat F.RAS_ESC_STATUS_PKG_TOTAL 1).setFld F.RAS_ESC_STATUS_LAST_LEVEL 4).setFld
    F.RAS_HARVEST_CAUSE cause

theorem State.recoveryShown_fields (s : State) {cause : Nat} (fault : Bool) (h : cause < 16) :
    (s.recoveryShown cause fault).fld F.RAS_HARVEST_CAUSE = cause ∧
      (s.recoveryShown cause fault).fld F.RAS_ESC_STATUS_LAST_LEVEL = 4 := by
  unfold State.recoveryShown
  exact ⟨(State.fld_setFld_same _ _ _ (by decide)).trans (Nat.mod_eq_of_lt h),
    (State.fld_setFld_ne _ _ (by decide)).trans (State.fld_setFld_same _ _ _ (by decide))⟩

/-- A recovery under way. -/
def State.recovering (s : State) (r : Recovery) : State := { s with recovery := some r }

theorem State.startRecovery_begins {s : State} (cause : Nat) (fault : Bool) (hr : s.recovery = none) (hd : s.mayRecover) :
    s.startRecovery cause fault = ((s.recoveryShown cause fault).recovering
      { began := s.now, time := s.stepClock, before := s.devState, fault := fault }).setDev orHw dsHarvest := by
  have hno : ¬ (s.devState ≠ dsConfiguring ∧ s.devState ≠ dsHeld ∧ s.inService = false) := by
    rcases hd with h | h | h <;> simp [h]
  unfold State.startRecovery
  simp only [hr, if_neg hno]
  rfl

/-- A device that recovers is in HARVEST, and shows what was shown as the recovery began. -/
theorem State.harvesting_fields (s : State) (r : Recovery) : ((s.recovering r).setDev orHw dsHarvest).devState = dsHarvest ∧
    ((s.recovering r).setDev orHw dsHarvest).recovery = some r ∧
    ∀ f : Fld, 0x900000 ≤ f.reg → f.reg < 0x910000 → ((s.recovering r).setDev orHw dsHarvest).fld f = s.fld f := by
  refine ⟨State.devState_setDev _ _ _ (by decide), State.setDev_frame (·.recovery) (fun _ _ _ => rfl) (fun _ _ => rfl) _ _ _,
    fun f h h' => ?_⟩
  have hlost : f.reg ≠ F.LOG_STATUS_LOST.reg := Nat.ne_of_lt (Nat.lt_of_lt_of_le h' (by decide))
  have hdev : f.reg ≠ F.GLB_STATE_DEVICE_STATE.reg := Nat.ne_of_gt (Nat.lt_of_lt_of_le (by decide) h)
  exact (State.fld_setDev _ _ _ hlost (.inl hdev)).trans (State.fld_of_regs rfl f)

/-! ## The harvest written -/

/-- What each step of a fold keeps, the fold keeps. -/
theorem State.foldl_recovery {α : Type} {f : State → α → State} (l : List α) (s : State) (h : ∀ t x, (f t x).recovery = t.recovery) :
    (l.foldl f s).recovery = s.recovery :=
  List.foldlRecOn l f (motive := fun t : State => t.recovery = s.recovery) rfl fun t ht x _ => (h t x).trans ht

section
variable (s : State)

@[simp] theorem State.raiseEvent_recovery (c x d : Nat) : (s.raiseEvent c x d).recovery = s.recovery :=
  State.raiseEvent_frame (·.recovery) (fun _ _ _ => rfl) (fun _ _ => rfl) (fun _ _ => rfl) s c x d

@[simp] theorem State.logChange_recovery (o c b : Nat) (x y : Bytes) : (s.logChange o c b x y).recovery = s.recovery :=
  State.logChange_frame (·.recovery) (fun _ _ _ => rfl) (fun _ _ => rfl) s o c b x y

@[simp] theorem State.setDev_recovery (o n : Nat) : (s.setDev o n).recovery = s.recovery :=
  State.setDev_frame (·.recovery) (fun _ _ _ => rfl) (fun _ _ => rfl) s o n

/-! Packets and circuits -/

@[simp] theorem State.sendReply_recovery (r : Packet) : (s.sendReply r).recovery = s.recovery := by
  unfold State.sendReply
  split
  · rfl
  · split <;> rfl

@[simp] theorem State.oweCredit_recovery (o : Option (Nat × Nat × Nat)) : (s.oweCredit o).recovery = s.recovery := by
  cases o <;> rfl

@[simp] theorem State.routePacket_recovery (i : Nat) (owe : Option (Nat × Nat × Nat)) (k : Packet) :
    (s.routePacket i owe k).recovery = s.recovery := by
  have hdrop : ((s.addSat F.FAB_DROP_NO_ROUTE 1).oweCredit owe).recovery = s.recovery := State.oweCredit_recovery _ owe
  unfold State.routePacket
  split
  · rfl
  · split
    · rfl
    · dsimp only
      split
      · exact hdrop
      · exact (State.sendReply_recovery _ _).trans hdrop

@[simp] theorem State.inject_recovery (kind : ReqKind) (k : Packet) : (s.inject kind k).recovery = s.recovery := by
  unfold State.inject
  split
  · unfold State.startReq
    dsimp only
    split
    · rfl
    · rfl
    · split
      · rfl
      · exact State.routePacket_recovery _ _ _ _
  · rfl

theorem State.releasePacket_recovery (t : State) (x : CircSlot) (o : OutPkt) : (s.releasePacket t x o).recovery = t.recovery := by
  unfold State.releasePacket
  split
  · exact t.routePacket_recovery _ _ _
  · split
    · exact t.oweCredit_recovery _
    · rfl

@[simp] theorem State.releaseSlots_recovery (f : CircSlot → Bool) : (s.releaseSlots f).recovery = s.recovery := by
  unfold State.releaseSlots
  refine (State.foldl_recovery _ _ fun t x => ?_).trans ((State.foldl_recovery _ _ fun t o => ?_).trans rfl)
  · unfold State.showCircuits
    split <;> rfl
  · split
    · exact s.releasePacket_recovery t _ o
    · rfl

@[simp] theorem State.failCircuit_recovery (c cause : Nat) : (s.failCircuit c cause).recovery = s.recovery :=
  s.releaseSlots_recovery _

@[simp] theorem State.dropCircuits_recovery (p cause : Nat) : (s.dropCircuits p cause).recovery = s.recovery := by
  unfold State.dropCircuits
  refine (State.foldl_recovery _ _ fun t x => ?_).trans (s.releaseSlots_recovery _)
  split
  · dsimp only
    split
    · exact (State.inject_recovery _ _ _).trans (t.failCircuit_recovery _ _)
    · exact t.failCircuit_recovery _ _
  · exact t.inject_recovery _ _

/-! Ports and lanes -/

@[simp] theorem State.showFabric_recovery : s.showFabric.recovery = s.recovery := by
  unfold State.showFabric
  dsimp only
  split
  · exact State.raiseEvent_recovery _ _ _ _
  · rfl

@[simp] theorem State.applyPortCfg_recovery (p cfg : Nat) : (s.applyPortCfg p cfg).recovery = s.recovery := by
  unfold State.applyPortCfg
  dsimp only
  rw [State.showFabric_recovery, State.setFld_recovery, State.setFld_recovery, apply_ite State.recovery, State.dropCircuits_recovery,
    ite_self]
  split <;> rfl

@[simp] theorem State.endDrain_recovery (p : Nat) : (s.endDrain p).recovery = s.recovery := by
  unfold State.endDrain
  split
  · rfl
  · next cfg _ =>
    have hport := s.applyPortCfg_recovery p cfg
    dsimp only
    split
    · split
      · exact hport
      · unfold State.showGroup
        split <;> exact hport
    · exact hport

@[simp] theorem State.lightOff_recovery (cf : Nat) : (s.lightOff cf).recovery = s.recovery := by
  have hcirc := State.foldl_recovery s.liveCircuits s fun t c => t.failCircuit_recovery c cf
  have hslots := (State.releaseSlots_recovery (s.liveCircuits.foldl (fun t c => t.failCircuit c cf) s) fun _ => true).trans hcirc
  unfold State.lightOff
  dsimp only
  rw [State.showFabric_recovery, State.resetArbs_recovery, State.setFld_recovery]
  refine (State.foldl_recovery _ _ ?_).trans ((State.foldl_recovery _ _ ?_).trans ((State.foldl_recovery _ _ ?_).trans hslots))
  · exact fun _ _ => rfl
  · exact fun _ _ => rfl
  · exact State.endDrain_recovery

@[simp] theorem State.bumpDark_recovery : s.bumpDark.recovery = s.recovery := State.foldl_recovery _ _ fun _ _ => rfl

@[simp] theorem State.lanesOff_recovery : s.lanesOff.recovery = s.recovery := by
  unfold State.lanesOff
  refine (State.foldl_recovery _ _ ?_).trans (s.resetArbs_recovery _)
  exact fun _ _ => rfl

/-! Tests, banks and registers -/

@[simp] theorem State.abortTest_recovery : s.abortTest.recovery = s.recovery := by
  unfold State.abortTest
  split
  · exact State.raiseEvent_recovery _ _ _ _
  · rfl

@[simp] theorem State.restBanks_recovery (p : Nat) : (s.restBanks p).recovery = s.recovery := by
  refine State.foldl_recovery _ _ fun t b => ?_
  split
  · unfold State.loseBank
    split <;> rfl
  · rfl

@[simp] theorem State.resetHub_recovery : s.resetHub.recovery = s.recovery := by
  unfold State.resetHub
  generalize List.range 16 = ks
  generalize List.range 32 = ps
  refine (State.foldl_recovery ps _ ?_).trans ?_
  · exact fun _ _ => rfl
  · exact State.foldl_recovery (f := fun (t : State) k => t.addWrap (F.MEM_LANE_STATUS_LANE_GEN.at k) 1) ks
      (s.addWrap F.FAB_STATUS_FAB_GEN 1) fun _ _ => rfl

theorem State.keepReports_recovery (t s : State) : (t.keepReports s).recovery = t.recovery := by
  have hcause := State.foldl_recovery (f := fun (t : State) i =>
    if (s.fld F.GLB_STATE_HELD_SECT).testBit i then t.setCause (i + 1) (s.fld (holdFld (i + 1))) else t) (List.range 7) t
    fun u i => by split <;> rfl
  unfold State.keepReports
  dsimp only
  split <;> exact hcause

@[simp] theorem State.noteTerms_recovery : s.noteTerms.recovery = s.recovery := by
  unfold State.noteTerms
  dsimp only
  split <;> rfl

@[simp] theorem State.resetRegs_recovery : s.resetRegs.recovery = s.recovery := by
  unfold State.resetRegs
  dsimp only
  rw [State.noteTerms_recovery]
  show State.recovery (ite _ _ _) = _
  simp only [apply_ite State.recovery, State.logChange_recovery, ite_self]
  exact State.keepReports_recovery { s with regs := recoverRegs s.regs, staged := [], commits := [], latches := [] } s

@[simp] theorem State.resetCluster_recovery (p : Nat) : (s.resetCluster p).recovery = s.recovery := by
  unfold State.resetCluster
  dsimp only
  split <;> rfl

end

/-- The harvest record taken and shown, with what it could not read (R700, R701). -/
def State.harvestTaken (s : State) (r : Recovery) (lost : HarvestLoss) (gen : Nat) : State :=
  { s.showHarvest r.began gen (!lossEmpty lost) with
    harvest := some (s.takeHarvest r.time gen), recovery := some { r with lost := some lost }, freeCtr := s.freeCtr + 4 }

/-- Ports, hub, registers and lanes stopped. -/
def State.packageStopped (s : State) : State :=
  ((List.range 264).foldl State.restBanks (s.abortTest.bumpDark.lightOff cfRecovery)).resetHub.resetRegs.lanesOff

/-- A controller that was UNHEALTHY restarts (R724). -/
def State.ctlRetried (s : State) : State :=
  [0, 1].foldl (fun (s : State) c => if s.fld (F.RAS_CTL_HEALTH_STATE.at c) = 5 then
    s.setFld (F.RAS_CTL_HEALTH_STATE.at c) 6 else s) s

/-- The clusters reset and the controllers' failures forgotten. -/
def State.packageCleared (s : State) : State :=
  let s4 := (((List.range 264).foldl State.resetCluster s).powerUcode (List.range 264)).resetRas.ctlRetried
  { s4 with ctl := { s4.ctl with fails := [] } }

/-- The package after its reset, in RESETTING, before lanes and ports train. -/
def State.packageOff (s : State) (r : Recovery) (lost : HarvestLoss) : State :=
  let gen := (s.fld F.FAB_STATUS_FAB_GEN + 1) % 4096
  let s5 := (s.harvestTaken r lost gen).packageStopped.packageCleared
  (s5.setDev orHw dsResetting).raiseEvent 0x0E gen (s5.fld F.RAS_HARVEST_CAUSE)

theorem State.packageReset_eq (s : State) (r : Recovery) (lost : HarvestLoss) : s.packageReset r lost =
    if (s.packageOff r lost).linksStarted r.before then (s.packageOff r lost).lanesTrain.startFabric else s.packageOff r lost := rfl

theorem State.packageStopped_recovery (s : State) : s.packageStopped.recovery = s.recovery := by
  unfold State.packageStopped
  rw [State.lanesOff_recovery, State.resetRegs_recovery, State.resetHub_recovery, State.foldl_recovery _ _ State.restBanks_recovery,
    State.lightOff_recovery, State.bumpDark_recovery, State.abortTest_recovery]

theorem State.ctlRetried_recovery (s : State) : s.ctlRetried.recovery = s.recovery :=
  State.foldl_recovery _ _ fun t c => by split <;> rfl

theorem State.packageCleared_recovery (s : State) : s.packageCleared.recovery = s.recovery := by
  unfold State.packageCleared
  generalize List.range 264 = ps
  exact (State.ctlRetried_recovery _).trans (State.foldl_recovery ps s State.resetCluster_recovery)

theorem State.packageOff_fields (s : State) (r : Recovery) (lost : HarvestLoss) :
    (s.packageOff r lost).fld F.GLB_STATE_DEVICE_STATE = dsResetting ∧
      (s.packageOff r lost).recovery = some { r with lost := some lost } := by
  unfold State.packageOff
  refine ⟨(State.fld_raiseEvent_below _ _ _ _ (by decide)).trans (State.devState_setDev _ _ _ (by decide)), ?_⟩
  rw [State.raiseEvent_recovery, State.setDev_recovery, State.packageCleared_recovery, State.packageStopped_recovery]
  rfl

theorem exec_harvestWritten {s : State} {r : Recovery} (lost : HarvestLoss) (hr : s.recovery = some r) (hd : s.devState = dsHarvest)
    (hw : (s.mem.reqs.all fun q => !q.sent) = true) : exec (.harvestWritten lost) s = .next (s.packageReset r lost) := by
  refine congrArg Host.Outcome.next ?_
  unfold State.doHarvestWritten
  simp only [hr]
  exact if_pos ⟨hd, hw⟩

/-! ## The end of a recovery -/

/-- The state of a recovery at its end, with the losses of its harvest taken in. -/
def State.recovered (s : State) (r : Recovery) (failed : List Nat) : State :=
  ((failed.foldl State.noteFailed s).restoreLosses (r.lost.getD ⟨[], [], [], [], []⟩)).showEsc

theorem exec_recoveryDone {s : State} {r : Recovery} (failed : List Nat) (hr : s.recovery = some r) (hd : s.devState = dsResetting)
    (href : s.boot.refclk = true) (hlanes : ∀ k, k < 16 → s.laneState k ≠ mlTraining) (hfab : s.fab.discoverAt = none) :
    exec (.recoveryDone failed) s = .next
      (if (s.recovered r failed).escLimit < (s.recovered r failed).ras.pkg.length then (s.recovered r failed).enterFallow
       else State.returnState ((({ s.recovered r failed with recovery := none, safe := none } : State).pauseInstall
        false).setFld F.GLB_DEV_CMD_RECOVER 0) r.before) := by
  have hall : ((List.range 16).all fun k => decide (s.laneState k ≠ mlTraining)) = true := by
    simpa using hlanes
  refine congrArg Host.Outcome.next ?_
  unfold State.doRecoveryDone
  simp only [hr]
  exact if_pos ⟨hd, href, hall, hfab⟩

/-! ## Spares -/

theorem exec_spareBringIn {s : State} {l : Nat} (hs : s.inService = true) (hl : l < 256) (hdue : s.physOf l ∈ s.ras.spareDue)
    (hlost : s.isLost l = false) : exec (.spareBringIn l) s = .next
      (({ s.stopCluster (s.physOf l) with ras := { (s.stopCluster (s.physOf l)).ras with
        spareDue := (s.stopCluster (s.physOf l)).ras.spareDue.filter fun q => decide (q ≠ s.physOf l) } } : State).trySpare l
          (s.physOf l)) :=
  congrArg Host.Outcome.next (if_pos ⟨hs, hl, List.contains_iff_mem.2 hdue, hlost⟩)

section
variable {s : State} {l : Nat} {x : SpareIn} (hx : (s.ras.spares.find? fun x => decide (x.logical = l)) = some x)
  (hs : s.inService = true) (hc : s.cluOn = true)
include hx hs hc

theorem exec_spareIn_pass : exec (.spareIn l true) s =
    .next (if s.seqState x.spare = sqInReset ∧ (s.clu x.spare).resetAt ≠ none then s else s.enterSpare x) := by
  refine congrArg Host.Outcome.next ?_
  have hno : ¬ (s.inService = false ∨ s.cluOn = false) := by simp [hs, hc]
  unfold State.doSpareIn
  simp only [hx, if_neg hno, if_true]

theorem exec_spareIn_fail : exec (.spareIn l false) s = .next
    (({ s.retireCluster x.spare with ras := { (s.retireCluster x.spare).ras with
      spares := (s.retireCluster x.spare).ras.spares.filter fun y => decide (y.logical ≠ l) } } : State).trySpare l x.old) := by
  refine congrArg Host.Outcome.next ?_
  have hno : ¬ (s.inService = false ∨ s.cluOn = false) := by simp [hs, hc]
  unfold State.doSpareIn
  simp only [hx, if_neg hno, Bool.false_eq_true, if_false]

end

/-- The remap table and the counts of spares are registers. -/
theorem State.showRemap_frame {α : Type} (g : State → α) (hr : ∀ (t : State) a v, g (t.setReg a v) = g t) (s : State) :
    g s.showRemap = g s := by
  have hfold (l : List Nat) : g (l.foldl (fun (s : State) l =>
      (s.setFld (F.RAS_REMAP_PHYS.at l) (s.remapOf l)).setFld (F.RAS_REMAP_LOST.at l) (bit (s.repair.lost.contains l))) s) = g s :=
    List.foldlRecOn l _ (motive := fun t : State => g t = g s) rfl fun t ht x _ => (hr _ _ _).trans ((hr _ _ _).trans ht)
  unfold State.showRemap
  dsimp only
  exact (hr _ _ _).trans ((hr _ _ _).trans ((hr _ _ _).trans ((hr _ _ _).trans ((hr _ _ _).trans ((hr _ _ _).trans (hfold _))))))

theorem State.loseBanks_ras (s : State) (p : Nat) (bs : List Nat) : (bs.foldl (fun (s : State) b => s.loseBank p b) s).ras = s.ras := by
  refine List.foldlRecOn bs _ (motive := fun t : State => t.ras = s.ras) rfl fun t ht b _ => ?_
  rw [← ht]
  unfold State.loseBank
  split <;> rfl

/-- A retired cluster is out of use for good, and what the hub keeps of resets stands. -/
theorem State.retireCluster_fields (s : State) (p : Nat) : p ∈ (s.retireCluster p).repair.failed ∧ (s.retireCluster p).ras = s.ras := by
  unfold State.retireCluster
  generalize List.range 80 = bs
  rw [State.showRemap_frame (·.repair.failed) (fun _ _ _ => rfl), State.showRemap_frame (·.ras) (fun _ _ _ => rfl), State.writeRepair_eq]
  refine ⟨?_, ?_⟩
  · dsimp only
    split
    · next h => exact List.contains_iff_mem.1 h
    · exact List.mem_append_right _ (List.mem_singleton_self p)
  · exact State.loseBanks_ras _ p _

/-! ## A spare asked for -/

/-- A spare asked for where none is on its way. -/
def State.askSpare (s : State) (l : Nat) : State :=
  let s2 := ({ s.setFld F.RAS_SPARE_CTL_LCLUSTER l with ras := { s.ras with spareGo := some l } } : State).setFld F.RAS_SPARE_CTL_GO 1
  if s2.ras.spareDue.contains (s.physOf l) || s2.ras.spares.any fun x => decide (x.logical = l) then s2
  else { s2 with ras := { s2.ras with spareDue := s2.ras.spareDue ++ [s.physOf l] } }

theorem exec_rasSpareCtlGo {s : State} {w : Agent} {l q : Nat} (ha : Accepts s w blkRas) (hl : l < 256)
    (hgo : s.fld F.RAS_SPARE_CTL_GO = 0) (hq : s.chooseSpare (s.physOf l) s.busySpares = some q) :
    exec (.rasSpareCtlGo w l) s = .next ((s.closeLatch w blkRas).askSpare l) := by
  have hno : ¬ (256 ≤ l ∨ s.fld F.RAS_SPARE_CTL_GO = 1 ∨ s.chooseSpare (s.physOf l) s.busySpares = none) := by
    rw [hgo, hq]
    simp [hl]
  exact congrArg Host.Outcome.next ((State.leased_gate_of_accepts _ ha).trans (if_neg hno))

theorem exec_rasSpareCtlGo_none {s : State} {w : Agent} {l : Nat} (ha : Accepts s w blkRas)
    (hq : s.chooseSpare (s.physOf l) s.busySpares = none) :
    exec (.rasSpareCtlGo w l) s = .next ((s.closeLatch w blkRas).setFld F.RAS_SPARE_CTL_LCLUSTER l) :=
  congrArg Host.Outcome.next ((State.leased_gate_of_accepts _ ha).trans (if_pos (.inr (.inr hq))))

theorem State.askSpare_fields (s : State) {l : Nat} (hl : l < 256) : (s.askSpare l).fld F.RAS_SPARE_CTL_GO = 1 ∧
    (s.askSpare l).fld F.RAS_SPARE_CTL_LCLUSTER = l ∧ RegsBut [F.RAS_SPARE_CTL_GO.reg] s (s.askSpare l) ∧
    (s.physOf l ∈ (s.askSpare l).ras.spareDue ∨ ∃ x ∈ (s.askSpare l).ras.spares, x.logical = l) := by
  obtain ⟨u, hu⟩ : ∃ u, u = ({ s.setFld F.RAS_SPARE_CTL_LCLUSTER l with ras := { s.ras with spareGo := some l } } : State).setFld
      F.RAS_SPARE_CTL_GO 1 := ⟨_, rfl⟩
  have hask : s.askSpare l = if u.ras.spareDue.contains (s.physOf l) || u.ras.spares.any fun x => decide (x.logical = l) then u
      else { u with ras := { u.ras with spareDue := u.ras.spareDue ++ [s.physOf l] } } := by rw [hu]; rfl
  have hregs : (s.askSpare l).regs = u.regs := by
    rw [hask]
    split <;> rfl
  have hfields : u.fld F.RAS_SPARE_CTL_GO = 1 ∧ u.fld F.RAS_SPARE_CTL_LCLUSTER = l ∧ RegsBut [F.RAS_SPARE_CTL_GO.reg] s u := by
    rw [hu]
    refine ⟨State.fld_setFld_same _ _ _ (by decide), ?_, ?_⟩
    · exact (State.fld_setFld_apart _ _ (by decide)).trans ((State.fld_setFld_same s F.RAS_SPARE_CTL_LCLUSTER l (by decide)).trans
        (Nat.mod_eq_of_lt hl))
    · exact (((RegsBut.refl _ s).setFld l (by decide)).of_regs (u := { s.setFld F.RAS_SPARE_CTL_LCLUSTER l with
        ras := { s.ras with spareGo := some l } }) rfl).setFld 1 (by decide)
  obtain ⟨hgo, hcl, hbut⟩ := hfields
  refine ⟨(State.fld_of_regs hregs _).trans hgo, (State.fld_of_regs hregs _).trans hcl, hbut.of_regs hregs, ?_⟩
  rw [hask]
  split
  · next h =>
    rcases Bool.or_eq_true_iff.1 h with h | h
    · exact .inl (List.contains_iff_mem.1 h)
    · obtain ⟨x, hx, hxl⟩ := List.any_eq_true.1 h
      exact .inr ⟨x, hx, of_decide_eq_true hxl⟩
  · exact .inl (List.mem_append_right _ (List.mem_singleton_self _))

end Sys2Proof.Machine
end

section
/-! The statements of resets, recovery and spares. -/

namespace Sys2Proof.Machine

open Sys2Proof.Safety

/-- Settles O46: each reset counts those of its window before it, itself included. -/
theorem levelsEscalate : Obligations.LevelsEscalate := by
  refine ⟨fun s p cause => ⟨fun h => ?_, fun h _ => ?_⟩, fun s q cause h => if_pos h, fun s cause h => if_pos h⟩
  · rw [State.clusterReset_eq]
    exact if_pos h
  · obtain ⟨hseq, hlevel⟩ := s.clusterInReset_fields p cause
    have hin : s.clusterReset p cause = (s.clusterInReset p cause).raiseEvent 0x0B p cause :=
      (s.clusterReset_eq p cause).trans (if_neg (Nat.not_lt.2 h))
    rw [hin]
    exact ⟨(State.seqState_raiseEvent _ p _ _ _).trans hseq, (State.fld_raiseEvent_below _ _ _ _ (by decide)).trans hlevel⟩

/-- Settles O45. What excuses a stage is R688's list; a bank's wake, droop and DUTY are timing (log entry 68). -/
theorem resetsComplete : Obligations.ResetsComplete := by
  obtain ⟨hcluster, hquadrant, hcompute⟩ := resetLimits
  refine ⟨?stall, ?cluster, ?quadrant, ?spine, ?compute, ?clusterLate, ?quadrantLate, ?computeLate, ?budget⟩
  case stall => exact fun s p e hr => ⟨fun he => by rw [exec_stageStall e hr, if_neg (by simp [he])], fun he => by rw [exec_stageStall e hr, if_pos he]⟩
  case cluster =>
    exact fun s p hs hr hl => ⟨⟨_, exec_clusterResetDone true hs hr hl, s.endReset_fields p⟩, exec_clusterResetDone false hs hr hl⟩
  case quadrant => exact fun s q failed hc ⟨n, hq⟩ => exec_quadrantResetDone failed hc hq
  case spine => exact fun s die hd hs hc => congrArg Host.Outcome.next (if_pos ⟨hd, hs, hc⟩)
  case compute => exact fun s failed n hc => exec_computeResetDone failed hc
  case clusterLate => exact fun s p n hs hl hr hlate => exec_resetTimeout_cluster hs hl hr (by rwa [hcluster])
  case quadrantLate => exact fun s q n hc hq hlate => exec_resetTimeout_quadrant hc hq (by rwa [hquadrant])
  case computeLate => exact fun s id n hc hlate => exec_resetTimeout_compute id hc (by rwa [hcompute])
  case budget => exact fun s lead t ht hs hr hf hl hlate => exec_stepBudget ht hs hr hf hl hlate

/-- Settles O47. The package after its reset is `State.packageOff`; a spare asked for is due or on its way. -/
theorem recoveryCompletes : Obligations.RecoveryCompletes := by
  refine ⟨?begins, ?joins, ?written, ?done, ?bringIn, ?spareIn, ?asked, ?none⟩
  case begins =>
    intro s b hr hd
    obtain ⟨hcause, hlevel⟩ := s.recoveryShown_fields (cause := if b then hvHubState else hvHubStall) true (by split <;> decide)
    obtain ⟨hdev, hrec, hfld⟩ := (s.recoveryShown (if b then hvHubState else hvHubStall) true).harvesting_fields
      { began := s.now, time := s.stepClock, before := s.devState, fault := true }
    exact ⟨_, congrArg Host.Outcome.next (State.startRecovery_begins _ true hr hd), hdev, hrec,
      (hfld _ (by decide) (by decide)).trans hcause, (hfld _ (by decide) (by decide)).trans hlevel⟩
  case joins => exact fun s b r hr => congrArg Host.Outcome.next (State.startRecovery_joins _ true hr)
  case written =>
    intro s r lost hr hd hw
    obtain ⟨hdev, hrec⟩ := s.packageOff_fields r lost
    exact ⟨_, exec_harvestWritten lost hr hd hw, rfl, _, hdev, hrec, s.packageReset_eq r lost⟩
  case done =>
    rintro s r failed _ hr hd href hlanes hfab rfl
    exact ⟨fun h => (exec_recoveryDone failed hr hd href hlanes hfab).trans (congrArg Host.Outcome.next (if_pos h)),
      fun h => (exec_recoveryDone failed hr hd href hlanes hfab).trans (congrArg Host.Outcome.next (if_neg (Nat.not_lt.2 h)))⟩
  case bringIn => exact fun s l hs hl hdue hlost => ⟨_, exec_spareBringIn hs hl hdue hlost, _, rfl, rfl⟩
  case spareIn =>
    intro s l x hx hs hc
    obtain ⟨hfailed, hras⟩ := s.retireCluster_fields x.spare
    exact ⟨exec_spareIn_pass hx hs hc, _, exec_spareIn_fail hx hs hc, _, rfl, hfailed, by rw [hras]⟩
  case asked =>
    exact fun s w l q ha hl hgo hq => ⟨_, exec_rasSpareCtlGo ha hl hgo hq, (s.closeLatch w blkRas).askSpare_fields hl⟩
  case none =>
    exact fun s w l ha hl hq => ⟨_, exec_rasSpareCtlGo_none ha hq, State.fld_setFld_apart _ _ (by decide),
      (State.fld_setFld_same _ _ _ (by decide)).trans (Nat.mod_eq_of_lt hl), rfl, (RegsBut.refl _ s).setFld l (by decide)⟩

end Sys2Proof.Machine
end

section
/-! SUPPORT. Self-tests on demand: the writes that start one, and its end (R735, R736). -/

namespace Sys2Proof.Machine

open Sys2Proof.Safety

/-- KIND and INDEX of RAS_SELFTEST as written. -/
def State.testShown (s : State) (kind i : Nat) : State := (s.setFld F.RAS_SELFTEST_KIND kind).setFld F.RAS_SELFTEST_INDEX i

/-- The test in progress. -/
def State.testing (s : State) (x : Nat × Nat × Nat) : State := { s with ras := { s.ras with selftest := some x } }

@[simp] theorem State.fld_testing (s : State) (x : Nat × Nat × Nat) (f : Fld) : (s.testing x).fld f = s.fld f := rfl

/-- A self-test that runs. -/
def State.testStarted (s : State) (kind i : Nat) : State :=
  (((s.testShown kind i).testing (kind, i, s.now)).setFld F.RAS_SELFTEST_GO 1).setFld F.RAS_SELFTEST_RESULT stRunning

section
variable (s : State) {kind i : Nat}

theorem State.fld_testShown (kind i : Nat) {f : Fld} (h : f.reg ≠ F.RAS_SELFTEST_GO.reg) : (s.testShown kind i).fld f = s.fld f :=
  (State.fld_setFld_ne (f := F.RAS_SELFTEST_INDEX) _ i h).trans (State.fld_setFld_ne (f := F.RAS_SELFTEST_KIND) s kind h)

theorem State.fld_testStarted (kind i : Nat) {f : Fld} (h : f.reg ≠ F.RAS_SELFTEST_GO.reg) :
    (s.testStarted kind i).fld f = s.fld f := by
  unfold State.testStarted
  rw [State.fld_setFld_ne (f := F.RAS_SELFTEST_RESULT) _ _ h, State.fld_setFld_ne (f := F.RAS_SELFTEST_GO) _ _ h, State.fld_testing,
    s.fld_testShown kind i h]

theorem State.testStarted_fields (hk : kind < 16) (hi : i < 512) : (s.testStarted kind i).fld F.RAS_SELFTEST_GO = 1 ∧
    (s.testStarted kind i).fld F.RAS_SELFTEST_KIND = kind ∧ (s.testStarted kind i).fld F.RAS_SELFTEST_INDEX = i ∧
    (s.testStarted kind i).fld F.RAS_SELFTEST_RESULT = stRunning := by
  unfold State.testStarted
  refine ⟨?go, ?kind, ?index, State.fld_setFld_same _ _ _ (by decide)⟩
  case go => rw [State.fld_setFld_apart _ _ (by decide), State.fld_setFld_same _ _ _ (by decide)]; rfl
  case kind =>
    rw [State.fld_setFld_apart _ _ (by decide), State.fld_setFld_apart _ _ (by decide), State.fld_testing, State.testShown,
      State.fld_setFld_apart _ _ (by decide), State.fld_setFld_same _ _ _ (by decide)]
    exact Nat.mod_eq_of_lt hk
  case index =>
    rw [State.fld_setFld_apart _ _ (by decide), State.fld_setFld_apart _ _ (by decide), State.fld_testing, State.testShown,
      State.fld_setFld_same _ _ _ (by decide)]
    exact Nat.mod_eq_of_lt hi

/-! What may be tested is told by registers apart from those of the self-test. -/

theorem State.inService_testShown (kind i : Nat) : (s.testShown kind i).inService = s.inService := by
  unfold State.inService State.devState
  rw [s.fld_testShown kind i (by decide)]
  rfl

theorem State.cluRuns_testShown (kind i p : Nat) : (s.testShown kind i).cluRuns p = s.cluRuns p := by
  have hon : (s.testShown kind i).cluOn = s.cluOn := by
    unfold State.cluOn State.memOn State.hubOn State.devState State.powState
    rw [s.fld_testShown kind i (by decide), s.fld_testShown kind i (by decide)]
    rfl
  have hseq : (s.testShown kind i).seqState p = s.seqState p :=
    (State.seqState_setFld _ p _ (by decide)).trans (State.seqState_setFld _ p _ (by decide))
  unfold State.cluRuns
  rw [s.inService_testShown kind i, hon, hseq]
  rfl

end

theorem laneState_reg_ne {k : Nat} (h : k < 16) : (F.MEM_LANE_STATUS_STATE.at k).reg ≠ F.RAS_SELFTEST_GO.reg := by
  simp only [Fld.at, F.MEM_LANE_STATUS_STATE, F.RAS_SELFTEST_GO]
  omega

theorem portState_reg_ne {p : Nat} (h : p < 32) : (F.FAB_PORT_STATUS_STATE.at p).reg ≠ F.RAS_SELFTEST_GO.reg := by
  simp only [Fld.at, F.FAB_PORT_STATUS_STATE, F.RAS_SELFTEST_GO]
  omega

/-- A controller's health lies below the self-test. -/
theorem health_reg_ne {k : Nat} (h : k < 2) : (F.RAS_CTL_HEALTH_STATE.at k).reg ≠ F.RAS_SELFTEST_GO.reg := by
  simp only [Fld.at, F.RAS_CTL_HEALTH_STATE, F.RAS_SELFTEST_GO]
  omega

/-- The state of a lane, a port or a controller that a test holds is apart from RAS_SELFTEST, and takes the value written. -/
theorem State.held_fields (s : State) {f : Fld} {kind i n : Nat} (hk : kind < 16) (hi : i < 512) (hf : f.reg ≠ F.RAS_SELFTEST_GO.reg)
    (hbits : f.hi = 3 ∧ f.lo = 0) (hn : n < 16) :
    let t := (s.testStarted kind i).setFld f n
    t.fld F.RAS_SELFTEST_GO = 1 ∧ t.fld F.RAS_SELFTEST_KIND = kind ∧ t.fld F.RAS_SELFTEST_INDEX = i ∧
      t.fld F.RAS_SELFTEST_RESULT = stRunning ∧ t.ras.selftest = some (kind, i, s.now) ∧ t.fld f = n := by
  obtain ⟨hgo, hkind, hindex, hres⟩ := s.testStarted_fields hk hi
  have hkept (g : Fld) (hg : F.RAS_SELFTEST_GO.reg = g.reg) : ((s.testStarted kind i).setFld f n).fld g = (s.testStarted kind i).fld g :=
    State.fld_setFld_ne (f := f) _ n (hg ▸ hf.symm)
  refine ⟨(hkept F.RAS_SELFTEST_GO rfl).trans hgo, (hkept F.RAS_SELFTEST_KIND rfl).trans hkind,
    (hkept F.RAS_SELFTEST_INDEX rfl).trans hindex, (hkept F.RAS_SELFTEST_RESULT rfl).trans hres, rfl, ?_⟩
  rw [State.fld_setFld_same _ f n (by omega), hbits.1, hbits.2]
  exact Nat.mod_eq_of_lt hn

/-! ## A test starts -/

section
variable {s : State} {w : Agent} {kind i : Nat} (ha : Accepts s w blkRas) (hgo : s.fld F.RAS_SELFTEST_GO = 0)
include ha hgo

theorem State.startTest_runs {ok : State → Bool} (f : State → State) (hok : ok ((s.closeLatch w blkRas).testShown kind i) = true) :
    s.startTest w kind i ok f = f ((s.closeLatch w blkRas).testStarted kind i) := by
  have hno : ¬ (s.closeLatch w blkRas).fld F.RAS_SELFTEST_GO = 1 := by
    rw [State.closeLatch_fld, hgo]
    decide
  exact (State.gate_open _ ha.1).trans ((if_neg hno).trans (if_pos hok))

theorem State.startTest_refused {ok : State → Bool} (f : State → State)
    (hok : ok ((s.closeLatch w blkRas).testShown kind i) = false) : s.startTest w kind i ok f =
      ((s.closeLatch w blkRas).testShown kind i).endTest kind i stTestRefused := by
  have hno : ¬ (s.closeLatch w blkRas).fld F.RAS_SELFTEST_GO = 1 := by
    rw [State.closeLatch_fld, hgo]
    decide
  exact (State.gate_open _ ha.1).trans ((if_neg hno).trans (if_neg fun h => Bool.false_ne_true (hok.symm.trans h)))

theorem exec_selftestCluster (hr : s.cluRuns i = true) (hf : i ∉ s.repair.failed) (hb : i ∉ s.busySpares) :
    exec (.selftestCluster w i) s = .next ((s.closeLatch w blkRas).testStarted 1 i) := by
  refine congrArg Host.Outcome.next ((State.leased_of_holds _ (.inr ha.2)).trans (State.startTest_runs ha hgo _ ?_))
  have hclu : ((s.closeLatch w blkRas).testShown 1 i).cluRuns i = true := (State.cluRuns_testShown _ 1 i i).trans hr
  rw [hclu]
  show (true && !s.repair.failed.contains i && !s.busySpares.contains i) = true
  simp [hf, hb]

theorem exec_selftestCluster_refused (hr : s.cluRuns i = false) :
    exec (.selftestCluster w i) s = .next (((s.closeLatch w blkRas).testShown 1 i).endTest 1 i stTestRefused) := by
  refine congrArg Host.Outcome.next ((State.leased_of_holds _ (.inr ha.2)).trans (State.startTest_refused ha hgo _ ?_))
  have hclu : ((s.closeLatch w blkRas).testShown 1 i).cluRuns i = false := (State.cluRuns_testShown _ 1 i i).trans hr
  rw [hclu]
  rfl

theorem exec_selftestLane (hi : i < 16) (hs : s.inService = true) (hl : s.laneUsable i = true) : exec (.selftestLane w i) s =
    .next (((s.closeLatch w blkRas).testStarted 2 i).setFld (F.MEM_LANE_STATUS_STATE.at i) mlHeld) := by
  refine congrArg Host.Outcome.next ((State.leased_of_holds _ (.inr ha.2)).trans (State.startTest_runs ha hgo _ ?_))
  have hserv : ((s.closeLatch w blkRas).testShown 2 i).inService = true := (State.inService_testShown _ 2 i).trans hs
  have hlane : ((s.closeLatch w blkRas).testShown 2 i).laneUsable i = true := by
    unfold State.laneUsable State.laneState at *
    rw [State.fld_testShown _ _ _ (laneState_reg_ne hi)]
    exact hl
  rw [hserv, hlane, decide_eq_true hi]
  rfl

theorem exec_selftestPort (hi : i < 32) (hs : s.inService = true) (hp : s.portUsable i = true) : exec (.selftestPort w i) s =
    .next (((s.closeLatch w blkRas).testStarted 3 i).setFld (F.FAB_PORT_STATUS_STATE.at i) poDraining) := by
  refine congrArg Host.Outcome.next ((State.leased_of_holds _ (.inr ha.2)).trans (State.startTest_runs ha hgo _ ?_))
  have hserv : ((s.closeLatch w blkRas).testShown 3 i).inService = true := (State.inService_testShown _ 3 i).trans hs
  have hport : ((s.closeLatch w blkRas).testShown 3 i).portUsable i = true := by
    unfold State.portUsable State.portState at *
    rw [State.fld_testShown _ _ _ (portState_reg_ne hi)]
    exact hp
  rw [hserv, hport, decide_eq_true hi]
  rfl

theorem exec_selftestController (h : s.fld (F.RAS_CTL_HEALTH_STATE.at s.standby) = 3) : exec (.selftestController w) s =
    .next (((s.closeLatch w blkRas).testStarted 4 (s.fld F.RAS_SELFTEST_INDEX)).setFld (F.RAS_CTL_HEALTH_STATE.at s.standby) 4) := by
  have hshown : ((s.closeLatch w blkRas).testShown 4 (s.fld F.RAS_SELFTEST_INDEX)).standby = s.standby :=
    congrArg (1 - ·) (State.fld_testShown _ _ _ (by decide))
  have hstarted : ((s.closeLatch w blkRas).testStarted 4 (s.fld F.RAS_SELFTEST_INDEX)).standby = s.standby :=
    congrArg (1 - ·) (State.fld_testStarted _ _ _ (by decide))
  refine congrArg Host.Outcome.next ((State.leased_of_holds _ (.inr ha.2)).trans ((State.startTest_runs ha hgo _ ?_).trans ?_))
  · rw [hshown, State.fld_testShown _ _ _ (health_reg_ne s.standby_lt)]
    exact decide_eq_true h
  · rw [hstarted]

end

/-! ## A test ends -/

theorem State.endTest_fields (s : State) (kind i : Nat) {res : Nat} (h : res < 256) : (s.endTest kind i res).ras.selftest = none ∧
    (s.endTest kind i res).fld F.RAS_SELFTEST_GO = 0 ∧ (s.endTest kind i res).fld F.RAS_SELFTEST_RESULT = res := by
  unfold State.endTest
  refine ⟨State.raiseEvent_frame (·.ras.selftest) (fun _ _ _ => rfl) (fun _ _ => rfl) (fun _ _ => rfl) _ _ _ _, ?_, ?_⟩
  · exact (State.fld_raiseEvent _ _ _ _ (by decide) (by decide) (by decide)).trans
      ((State.fld_setFld_apart _ _ (by decide)).trans (State.fld_setFld_same _ _ _ (by decide)))
  · exact (State.fld_raiseEvent _ _ _ _ (by decide) (by decide) (by decide)).trans
      ((State.fld_setFld_same _ _ _ (by decide)).trans (Nat.mod_eq_of_lt h))

/-- The event of a test's end and RAS_SELFTEST leave a controller's health. -/
theorem State.fld_endTest_health (s : State) (kind i res : Nat) {k : Nat} (hk : k < 2) :
    (s.endTest kind i res).fld (F.RAS_CTL_HEALTH_STATE.at k) = s.fld (F.RAS_CTL_HEALTH_STATE.at k) := by
  have hreg : (F.RAS_CTL_HEALTH_STATE.at k).reg < F.RAS_SELFTEST_GO.reg := by
    simp only [Fld.at, F.RAS_CTL_HEALTH_STATE, F.RAS_SELFTEST_GO]
    omega
  unfold State.endTest
  rw [State.fld_raiseEvent_below _ _ _ _ hreg, State.fld_setFld_ne (f := F.RAS_SELFTEST_RESULT) _ _ (health_reg_ne hk),
    State.fld_setFld_ne (f := F.RAS_SELFTEST_GO) _ _ (health_reg_ne hk)]
  rfl

section
variable {s : State} {i n : Nat} (pass : Bool)

theorem exec_selftestDone_cluster (h : s.ras.selftest = some (1, i, n)) (hq : s.seqState i = sqIdle) : exec (.selftestDone pass) s =
    .next ((if pass then s.padUndefined i else (s.padUndefined i).noteFailed i).endTest 1 i (if pass then stPass else stFail)) := by
  refine congrArg Host.Outcome.next ?_
  unfold State.doSelftestDone
  simp only [h, if_true]
  exact (if_neg (by rw [hq]; decide)).trans (if_neg (not_not.2 hq))

theorem exec_selftestDone_lane (h : s.ras.selftest = some (2, i, n)) (hl : s.laneState i = mlHeld) :
    exec (.selftestDone pass) s = .next ((s.endTest 2 i (if pass then stPass else stFail)).endLaneTest i pass) := by
  refine congrArg Host.Outcome.next ?_
  unfold State.doSelftestDone
  simp only [h, OfNat.ofNat_ne_one, if_false, if_true]
  exact if_pos hl

theorem exec_selftestDone_port (h : s.ras.selftest = some (3, i, n)) (hp : s.portState i = poDraining) (he : s.portEmpty i = true) :
    exec (.selftestDone pass) s = .next ((s.beginRetrain i 8).endTest 3 i (if pass then stPass else stFail)) := by
  refine congrArg Host.Outcome.next ?_
  unfold State.doSelftestDone
  simp only [h, OfNat.ofNat_ne_one, Nat.succ_ne_self, if_false, if_true]
  exact (if_neg (not_not.2 hp)).trans (if_pos he)

/-- The standby after its self-test: HEALTHY, or UNHEALTHY with its failure counted (R735). -/
def State.standbyTested (s : State) (pass : Bool) : State :=
  if pass then s.setFld (F.RAS_CTL_HEALTH_STATE.at s.standby) 3
  else ((s.setFld (F.RAS_CTL_HEALTH_STATE.at s.standby) 5).addSat (F.RAS_CTL_HEALTH_FAILS.at s.standby) 1).raiseEvent 0x14 s.standby 4

theorem exec_selftestDone_controller (h : s.ras.selftest = some (4, i, n)) : exec (.selftestDone pass) s =
    .next ((s.standbyTested pass).endTest 4 i (if pass then stPass else stFail)) := by
  refine congrArg Host.Outcome.next ?_
  unfold State.doSelftestDone State.standbyTested
  simp only [h, OfNat.ofNat_ne_one, Nat.reduceEqDiff, if_false]

theorem State.health_standbyTested (s : State) (pass : Bool) :
    (s.standbyTested pass).fld (F.RAS_CTL_HEALTH_STATE.at s.standby) = if pass then 3 else 5 := by
  have hreg : (F.RAS_CTL_HEALTH_STATE.at s.standby).reg < F.RAS_SELFTEST_GO.reg := by
    have hlt := s.standby_lt
    simp only [Fld.at, F.RAS_CTL_HEALTH_STATE, F.RAS_SELFTEST_GO]
    omega
  unfold State.standbyTested
  generalize s.standby = k at *
  have hset (v : Nat) (hv : v < 16) : (s.setFld (F.RAS_CTL_HEALTH_STATE.at k) v).fld (F.RAS_CTL_HEALTH_STATE.at k) = v :=
    (State.fld_setFld_same s (F.RAS_CTL_HEALTH_STATE.at k) v (show 3 < 64 by decide)).trans (Nat.mod_eq_of_lt hv)
  cases pass with
  | true => exact hset 3 (by decide)
  | false =>
    rw [if_neg Bool.false_ne_true, if_neg Bool.false_ne_true, State.fld_raiseEvent_below _ _ _ _ hreg,
      State.fld_addSat_other (f := F.RAS_CTL_HEALTH_FAILS.at k) (g := F.RAS_CTL_HEALTH_STATE.at k) _ _
        (.inr (.inl (show 3 < 40 by decide)))]
    exact hset 5 (by decide)

end

end Sys2Proof.Machine
end

section
/-! The statements of self-tests. -/

namespace Sys2Proof.Machine

open Sys2Proof.Safety

/-- Settles O48. SUBJECT and the INDEX of a cluster that no part has are log entry 42's. -/
theorem selfTestsComplete : Obligations.SelfTestsComplete := by
  refine ⟨?starts, ?refused, ?cluster, ?lane, ?port, ?controller⟩
  case starts =>
    rintro s w c kind i ha hgo hi (⟨rfl, rfl, hr, hf, hb⟩ | ⟨rfl, rfl, hl, hs, hu⟩ | ⟨rfl, rfl, hp, hs, hu⟩ | ⟨rfl, rfl, rfl, hh⟩)
    · obtain ⟨hgo', hkind, hindex, hres⟩ := (s.closeLatch w blkRas).testStarted_fields (kind := 1) (by decide) hi
      exact ⟨_, exec_selftestCluster ha hgo hr hf hb, hgo', hkind, hindex, hres, rfl, by omega, by omega, by omega⟩
    · obtain ⟨hgo', hkind, hindex, hres, htest, hheld⟩ := (s.closeLatch w blkRas).held_fields (kind := 2)
        (f := F.MEM_LANE_STATUS_STATE.at i) (n := mlHeld) (by decide) hi (laneState_reg_ne hl) ⟨rfl, rfl⟩ (by decide)
      exact ⟨_, exec_selftestLane ha hgo hl hs hu, hgo', hkind, hindex, hres, htest, fun _ => hheld, by omega, by omega⟩
    · obtain ⟨hgo', hkind, hindex, hres, htest, hheld⟩ := (s.closeLatch w blkRas).held_fields (kind := 3)
        (f := F.FAB_PORT_STATUS_STATE.at i) (n := poDraining) (by decide) hi (portState_reg_ne hp) ⟨rfl, rfl⟩ (by decide)
      exact ⟨_, exec_selftestPort ha hgo hp hs hu, hgo', hkind, hindex, hres, htest, by omega, fun _ => hheld, by omega⟩
    · obtain ⟨hgo', hkind, hindex, hres, htest, hheld⟩ := (s.closeLatch w blkRas).held_fields (kind := 4)
        (f := F.RAS_CTL_HEALTH_STATE.at s.standby) (n := 4) (by decide) hi (health_reg_ne s.standby_lt) ⟨rfl, rfl⟩ (by decide)
      exact ⟨_, exec_selftestController ha hgo hh, hgo', hkind, hindex, hres, htest, by omega, by omega, fun _ => hheld⟩
  case refused =>
    intro s w i ha hgo hr hi
    obtain ⟨htest, hgo', hres⟩ := ((s.closeLatch w blkRas).testShown 1 i).endTest_fields 1 i (res := stTestRefused) (by decide)
    exact ⟨_, exec_selftestCluster_refused ha hgo hr, hgo', hres, htest⟩
  case cluster => exact fun s i n pass h hq => ⟨_, exec_selftestDone_cluster pass h hq, State.endTest_fields _ 1 i (by cases pass <;> decide)⟩
  case lane => exact fun s i n pass h hl => exec_selftestDone_lane pass h hl
  case port => exact fun s i n pass h hp he => exec_selftestDone_port pass h hp he
  case controller =>
    intro s i n pass h
    obtain ⟨htest, hgo, _⟩ := (s.standbyTested pass).endTest_fields 4 i (res := if pass then stPass else stFail) (by cases pass <;> decide)
    have hheld : ((s.standbyTested pass).endTest 4 i (if pass then stPass else stFail)).fld (F.RAS_CTL_HEALTH_STATE.at s.standby) =
        (s.standbyTested pass).fld (F.RAS_CTL_HEALTH_STATE.at s.standby) :=
      State.fld_endTest_health _ 4 i _ s.standby_lt
    exact ⟨_, exec_selftestDone_controller pass h, htest, hgo, hheld.trans (s.health_standbyTested pass)⟩

end Sys2Proof.Machine
end

section
/-! SUPPORT. The governor's inputs: droop, temperatures, coolant, the warning lines, the rack manager and MULCH (R649 to R669). -/

namespace Sys2Proof.Machine

open Sys2Proof.Safety

/-! ## Cap terms (R645) -/

/-- A change of the cap terms writes the lag registers alone. -/
theorem State.noteTerms_regsBut (s : State) : RegsBut [F.PWR_CAP_LAG_FALLS.reg, F.PWR_CAP_LAG_LAST_US.reg] s s.noteTerms := by
  unfold State.noteTerms
  dsimp only
  split
  · exact (((RegsBut.refl _ s).of_regs rfl).setFld _ (by decide)).setFld _ (by decide)
  · exact (RegsBut.refl _ s).of_regs rfl

theorem State.fld_noteTerms (s : State) {f : Fld} (h : f.reg ≠ F.PWR_CAP_LAG_FALLS.reg) : s.noteTerms.fld f = s.fld f :=
  congrArg (fieldGet · f.hi f.lo) (s.noteTerms_regsBut _ (by
    rw [List.mem_cons, List.mem_singleton, not_or]
    exact ⟨h, h⟩))

theorem State.warn_noteTerms (s : State) : s.noteTerms.gov.warn = s.gov.warn := by
  unfold State.noteTerms
  dsimp only
  split <;> rfl

/-- What the governor knows of its lines, an event leaves alone. -/
theorem State.gov_raiseEvent (s : State) (c x d : Nat) : (s.raiseEvent c x d).gov = s.gov :=
  State.raiseEvent_frame (·.gov) (fun _ _ _ => rfl) (fun _ _ => rfl) (fun _ _ => rfl) s c x d

/-! ## Droop (R649 to R651) -/

theorem State.droopAt_setDroop (s : State) (k n : Nat) : (s.setDroop k n).droopAt k = n := mget_mset_same _ _ _ _

@[simp] theorem State.droopAt_addSat (s : State) (f : Fld) (n k : Nat) : (s.addSat f n).droopAt k = s.droopAt k := rfl

theorem exec_droopStep {s : State} {d q : Nat} (hd : d < 4) (hq : q < 4) (hn : s.droopAt (4 * d + q) < 4) (hc : s.cluOn = true) :
    exec (.droopStep d q) s = .next
      (if s.droopAt (4 * d + q) + 1 = 1 then (s.setDroop (4 * d + q) (s.droopAt (4 * d + q) + 1)).addSat (F.PWR_DROOP_EVENTS.at d) 1
       else if s.droopAt (4 * d + q) + 1 = 4 then
         (s.setDroop (4 * d + q) (s.droopAt (4 * d + q) + 1)).addSat (F.PWR_DROOP_STEP4.at d) 1
       else s.setDroop (4 * d + q) (s.droopAt (4 * d + q) + 1)) :=
  congrArg Host.Outcome.next (if_pos ⟨hd, hq, hn, hc⟩)

/-- A droop step shown leaves the counts of droop, which count in fields of 32 bits. -/
theorem State.count_setDroop (s : State) (k n : Nat) {f : Fld} (hf : f.reg ≠ F.PWR_PACE_DROOP_STEP.reg) (hhi : f.hi < 64)
    (hw : f.hi + 1 - f.lo = 32) : ((s.setDroop k n).addSat f 1).fld f = min (s.fld f + 1) 0xFFFFFFFF := by
  have hstep : (s.setDroop k n).fld f = s.fld f :=
    (State.fld_setFld_ne (f := F.PWR_PACE_DROOP_STEP) _ _ hf).trans
      (State.fld_of_regs rfl f)
  rw [State.fld_addSat_same _ f 1 hhi, hstep, hw]
  rfl

/-! ## Temperatures (R652, R848) -/

/-- A sensor's reading and its maximum, TEMP and MAX of one register. -/
def State.tempShown (s : State) (i n : Nat) : State :=
  if temp16 ((s.setFld (F.TEL_TEMP_TEMP.at i) n).fld (F.TEL_TEMP_MAX.at i)) < temp16 n then
    (s.setFld (F.TEL_TEMP_TEMP.at i) n).setFld (F.TEL_TEMP_MAX.at i) n
  else s.setFld (F.TEL_TEMP_TEMP.at i) n

theorem exec_tempSensorConvert {s : State} {i : Nat} (r : BitVec 16) (ho : s.off = false) (hi : i < 140) :
    exec (.tempSensorConvert i r) s = .next (s.tempShown i r.toNat).tryLeaveTrip :=
  congrArg Host.Outcome.next (if_pos ⟨ho, hi⟩)

theorem State.tempShown_fields (s : State) (i : Nat) {n : Nat} (h : n < 65536) :
    (s.tempShown i n).fld (F.TEL_TEMP_TEMP.at i) = n ∧
    (s.tempShown i n).fld (F.TEL_TEMP_MAX.at i) =
      (if temp16 (s.fld (F.TEL_TEMP_MAX.at i)) < temp16 n then n else s.fld (F.TEL_TEMP_MAX.at i)) ∧
    RegsBut [(F.TEL_TEMP_TEMP.at i).reg] s (s.tempShown i n) := by
  obtain ⟨u, hu⟩ : ∃ u, u = s.setFld (F.TEL_TEMP_TEMP.at i) n := ⟨_, rfl⟩
  have htemp : u.fld (F.TEL_TEMP_TEMP.at i) = n := by
    rw [hu, State.fld_setFld_same s (F.TEL_TEMP_TEMP.at i) n (show 15 < 64 by decide)]
    exact Nat.mod_eq_of_lt h
  have hmax : u.fld (F.TEL_TEMP_MAX.at i) = s.fld (F.TEL_TEMP_MAX.at i) := by
    rw [hu]
    exact State.fld_setFld_apart (f := F.TEL_TEMP_TEMP.at i) (g := F.TEL_TEMP_MAX.at i) _ _ (.inr (show 15 < 48 by decide))
  have hbut : RegsBut [(F.TEL_TEMP_TEMP.at i).reg] s u := hu ▸ (RegsBut.refl _ s).setFld n (List.mem_singleton_self _)
  unfold State.tempShown
  rw [← hu, hmax]
  split
  · refine ⟨?_, ?_, hbut.setFld n (List.mem_singleton_self _)⟩
    · exact (State.fld_setFld_apart (f := F.TEL_TEMP_MAX.at i) (g := F.TEL_TEMP_TEMP.at i) _ _ (.inl (show 15 < 48 by decide))).trans htemp
    · rw [State.fld_setFld_same _ (F.TEL_TEMP_MAX.at i) n (show 63 < 64 by decide)]
      exact Nat.mod_eq_of_lt h
  · exact ⟨htemp, hmax, hbut⟩

theorem State.tryLeaveTrip_of_none {s : State} (h : s.safe = none) : s.tryLeaveTrip = s := by
  unfold State.tryLeaveTrip
  rw [h]

theorem State.tempShown_safe (s : State) (i n : Nat) : (s.tempShown i n).safe = s.safe := by
  unfold State.tempShown
  split <;> rfl

/-! ## Coolant (R654 to R658) -/

/-- A measurement noted, with its range shown. -/
def State.coolantNoted (s : State) (inlet outlet dp : Nat) : State :=
  State.setFld { s.noteDrop dp with gov := { (s.noteDrop dp).gov with
      temps := ((inlet, outlet) :: s.gov.temps).take 100, measures := (s.gov.measures + 1) % 10 } } F.PWR_STATUS_COOL_RANGE
    (bit (decide (inlet < 40) || decide (80 < inlet) || decide (1500 < dp)))

/-- The flow of the last second and the coolant limit that it gives. -/
def State.flowNoted (s : State) (inlet : Nat) : State :=
  { (s.flowEstimate inlet).1 with gov := { (s.flowEstimate inlet).1.gov with
      flow := (s.flowEstimate inlet).2.1, limit := some (s.flowEstimate inlet).2.2 } }

section
variable {s : State} (inlet outlet dp : Nat)

theorem exec_coolantMeasure (ho : s.off = false) : exec (.coolantMeasure inlet outlet dp) s = .next
    (if (s.gov.measures + 1) % 10 = 0 then ((s.coolantNoted inlet outlet dp).flowNoted inlet).showDerated.noteTerms
     else s.coolantNoted inlet outlet dp) :=
  congrArg Host.Outcome.next (if_neg (by rw [ho]; exact Bool.false_ne_true))

theorem State.coolantNoted_range : (s.coolantNoted inlet outlet dp).fld F.PWR_STATUS_COOL_RANGE =
    bit (decide (inlet < 40) || decide (80 < inlet) || decide (1500 < dp)) := by
  unfold State.coolantNoted
  rw [State.fld_setFld_same _ _ _ (by decide)]
  exact Nat.mod_eq_of_lt (bit_lt_two _)

theorem State.coolantNoted_regsBut : RegsBut [F.PWR_STATUS_COOL_RANGE.reg] s (s.coolantNoted inlet outlet dp) :=
  ((RegsBut.refl _ s).of_regs rfl).setFld _ (List.mem_singleton_self _)

end

theorem State.fld_showCoolFault (s : State) : s.showCoolFault.fld F.PWR_STATUS_COOL_FAULT = bit s.minPace := by
  unfold State.showCoolFault
  rw [State.fld_setFld_same _ _ _ (by decide)]
  exact Nat.mod_eq_of_lt (bit_lt_two _)

/-- A change of the governor's inputs. -/
def State.withGov (s : State) (g : Gov) : State := { s with gov := g }

theorem State.showCoolFault_withGov_regsBut (s : State) (g : Gov) :
    RegsBut [F.PWR_STATUS_COOL_FAULT.reg] s (s.withGov g).showCoolFault :=
  ((RegsBut.refl _ s).of_regs rfl).setFld _ (List.mem_singleton_self _)

theorem exec_suddenCoolantLoss {s : State} (ho : s.off = false) (hn : s.gov.sudden = none) : exec .suddenCoolantLoss s = .next
    (if s.dropStands then s else (s.withGov { s.gov with sudden := some s.now }).showCoolFault.raiseEvent 0x22 0 2) := by
  refine congrArg Host.Outcome.next ?_
  have hcond : (s.off || s.gov.sudden.isSome || s.dropStands) = s.dropStands := by rw [ho, hn]; rfl
  unfold State.doSuddenCoolantLoss
  rw [hcond]
  rfl

theorem exec_coolantLossClear {s : State} {since : Nat} (hs : s.gov.sudden.isSome = true) (hd : s.gov.dpHigh = some since)
    (hlate : since + 1000000000 ≤ s.now) :
    exec .coolantLossClear s = .next (s.withGov { s.gov with sudden := none }).showCoolFault := by
  have hhigh : (s.gov.dpHigh.any fun t => decide (t + 1000000000 ≤ s.now)) = true :=
    (Option.any_eq_true _ _).2 ⟨since, hd, decide_eq_true hlate⟩
  exact congrArg Host.Outcome.next (if_pos (Bool.and_eq_true_iff.2 ⟨hs, hhigh⟩))

/-! ## The warning lines (R666) -/

section
variable {s : State}

theorem exec_coolFaultNLow (hf : s.gov.fault = false) : exec .coolFaultNLow s = .next
    (if s.off then s.withGov { s.gov with fault := true }
     else (s.withGov { s.gov with fault := true }).showCoolFault.raiseEvent 0x22 0 1) :=
  congrArg Host.Outcome.next (if_neg (by rw [hf]; exact Bool.false_ne_true))

theorem exec_coolFaultNRelease_off (ho : s.off = true) :
    exec .coolFaultNRelease s = .next (if s.gov.fault then s.withGov { s.gov with fault := false } else s) := by
  refine congrArg Host.Outcome.next ?_
  have hcond : (s.gov.fault && s.off) = s.gov.fault := by rw [ho, Bool.and_true]
  unfold State.doCoolFaultNRelease
  rw [hcond]
  split <;> rfl

theorem exec_coolFaultNRelease (ho : s.off = false) (hf : s.gov.fault = true) :
    exec .coolFaultNRelease s = .next (s.withGov { s.gov with fault := false }).showCoolFault := by
  refine congrArg Host.Outcome.next ?_
  exact (if_neg (by simp [ho])).trans (if_pos hf)

/-- WARN_ACTIVE and its event, before the cap terms change. -/
def State.warned (s : State) : State :=
  ((s.withGov { s.gov with warn := true }).setFld F.PWR_STATUS_WARN_ACTIVE 1).raiseEvent 0x21 0 (s.fld F.PWR_POLICY_WARN_CAP_W)

theorem exec_pwrWarnNLow (hw : s.gov.warn = false) : exec .pwrWarnNLow s = .next
    (if s.off then s.withGov { s.gov with warn := true } else s.warned.noteTerms) :=
  congrArg Host.Outcome.next (if_neg (by rw [hw]; exact Bool.false_ne_true))

theorem exec_pwrWarnNRelease_off (ho : s.off = true) :
    exec .pwrWarnNRelease s = .next (if s.gov.warn then s.withGov { s.gov with warn := false } else s) := by
  refine congrArg Host.Outcome.next ?_
  have hcond : (s.gov.warn && s.off) = s.gov.warn := by rw [ho, Bool.and_true]
  unfold State.doPwrWarnNRelease
  rw [hcond]
  split <;> rfl

theorem exec_pwrWarnNRelease (ho : s.off = false) (hw : s.gov.warn = true) : exec .pwrWarnNRelease s =
    .next ((s.withGov { s.gov with warn := false }).setFld F.PWR_STATUS_WARN_ACTIVE 0).noteTerms := by
  refine congrArg Host.Outcome.next ?_
  exact (if_neg (by simp [ho])).trans (if_pos hw)

/-! ## The rack manager and MULCH (R664, R665, R669) -/

theorem exec_rackHeartbeatLost (ho : s.off = false) (hr : s.gov.rackRuns = true) (hl : s.fld F.PWR_STATUS_HEARTBEAT_LOST = 0)
    (hlate : s.gov.beatAt + 1000000000 * s.fld F.PWR_POLICY_HEARTBEAT_S ≤ s.now) :
    exec .rackHeartbeatLost s = .next ((s.setHeartbeatLost orHw 1).raiseEvent 0x20 0 0) :=
  congrArg Host.Outcome.next (if_pos ⟨ho, hr, hl, hlate⟩)

theorem State.fld_setHeartbeatLost (s : State) (o : Nat) {n : Nat} (h : n < 2) :
    (s.setHeartbeatLost o n).fld F.PWR_STATUS_HEARTBEAT_LOST = n := by
  unfold State.setHeartbeatLost
  split
  · assumption
  · rw [State.fld_noteTerms _ (by decide), State.fld_logChange _ _ _ _ _ _ (by decide), State.fld_setFld_same _ _ _ (by decide)]
    exact Nat.mod_eq_of_lt h

theorem exec_mulchControl (ho : s.off = false) (hp : s.powState = psMulch) : exec .mulchControl s = .next
    (if s.dieMean4 < 64 * ((s.fld F.PWR_POLICY_MULCH_CENTRE_C : Int) - (s.fld F.PWR_POLICY_MULCH_BAND_C : Int)) then
      s.withGov { s.gov with heat := s.gov.heat + 25, cold := some (s.gov.cold.getD s.now) }
     else (s.withGov { s.gov with
        heat := if 64 * ((s.fld F.PWR_POLICY_MULCH_CENTRE_C : Int) + (s.fld F.PWR_POLICY_MULCH_BAND_C : Int)) < s.dieMean4
          then s.gov.heat - 25 else s.gov.heat
        cold := none }).setFld F.PWR_STATUS_MULCH_LOW 0) :=
  congrArg Host.Outcome.next (if_pos ⟨ho, hp⟩)

theorem exec_mulchLow {n : Nat} (hc : s.gov.cold = some n) (hp : s.powState = psMulch) (hlate : n + 10000000000 ≤ s.now)
    (hs : s.gov.short = true) : exec .mulchLow s = .next (s.setFld F.PWR_STATUS_MULCH_LOW 1) := by
  refine congrArg Host.Outcome.next ?_
  unfold State.doMulchLow
  simp only [hc]
  exact if_pos ⟨hp, hlate, hs⟩

end

end Sys2Proof.Machine
end

section
/-! The statements of sensors, and of the power, cooling and rack pins. -/

namespace Sys2Proof.Machine

open Sys2Proof.Safety

/-- Settles O40. The flow and the limit are those of `State.flowEstimate` on the state with the measurement noted. -/
theorem sensorsComplete : Obligations.SensorsComplete := by
  refine ⟨?droop, ?recover, ?convert, ?trip, ?measure, ?tenth, ?sudden⟩
  case droop =>
    intro s d q hd hq hn hc
    refine ⟨_, exec_droopStep hd hq hn hc, ?_, fun h => ?_, fun h => ?_⟩
    · split
      · rw [State.droopAt_addSat, State.droopAt_setDroop]
      · split
        · rw [State.droopAt_addSat, State.droopAt_setDroop]
        · exact s.droopAt_setDroop _ _
    · rw [h, if_pos rfl]
      exact s.count_setDroop _ _ (by simp only [Fld.at, F.PWR_DROOP_EVENTS, F.PWR_PACE_DROOP_STEP]; omega) (by decide : 63 < 64) rfl
    · rw [h, if_neg (by decide), if_pos rfl]
      exact s.count_setDroop _ _ (by simp only [Fld.at, F.PWR_DROOP_STEP4, F.PWR_PACE_DROOP_STEP]; omega) (by decide : 31 < 64) rfl
  case recover => exact fun s d q hd hq hn => ⟨_, congrArg Host.Outcome.next (if_pos ⟨hd, hq, hn⟩), s.droopAt_setDroop _ _⟩
  case convert =>
    intro s i r ho hi
    obtain ⟨htemp, hmax, hbut⟩ := s.tempShown_fields i r.isLt
    exact ⟨_, exec_tempSensorConvert r ho hi, _, rfl, fun hs => State.tryLeaveTrip_of_none ((s.tempShown_safe i _).trans hs), htemp, hmax, hbut⟩
  case trip => exact fun s i r ho hi ht hthm => congrArg Host.Outcome.next (if_pos ⟨ho, hi, ht, hthm⟩)
  case measure =>
    intro s inlet outlet dp ho hten
    refine ⟨_, (exec_coolantMeasure inlet outlet dp ho).trans (congrArg Host.Outcome.next (if_neg hten)), ?_⟩
    exact ⟨State.coolantNoted_range inlet outlet dp, rfl, rfl, State.coolantNoted_regsBut inlet outlet dp⟩
  case tenth =>
    intro s inlet outlet dp ho hten
    refine ⟨_, (exec_coolantMeasure inlet outlet dp ho).trans (congrArg Host.Outcome.next (if_pos hten)), ?_⟩
    exact ⟨s.coolantNoted inlet outlet dp, (s.coolantNoted inlet outlet dp).flowNoted inlet, rfl, rfl, rfl, rfl, rfl⟩
  case sudden =>
    intro s ho hn
    refine ⟨fun hd => ⟨_, exec_suddenCoolantLoss ho hn, ?_, ?_⟩, fun hd => ?_⟩
    · rw [hd, if_neg Bool.false_ne_true, State.gov_raiseEvent]
      rfl
    · rw [hd, if_neg Bool.false_ne_true, State.fld_raiseEvent_below (f := F.PWR_STATUS_COOL_FAULT) _ _ _ _ (by decide),
        State.fld_showCoolFault]
      exact congrArg bit (Bool.or_true _)
    · rw [exec_suddenCoolantLoss ho hn, if_pos hd]

/-- Settles O43. In OFF a line's level is all that changes. -/
theorem powerPinsComplete : Obligations.PowerPinsComplete := by
  refine ⟨?clear, ?mulch, ?mulchLow, ?warn, ?warnEnds, ?fault, ?faultEnds, ?off, ?rack⟩
  case clear =>
    intro s since hs hd hlate
    refine ⟨_, exec_coolantLossClear hs hd hlate, rfl, ?_, s.showCoolFault_withGov_regsBut _⟩
    rw [State.fld_showCoolFault]
    exact congrArg bit (Bool.or_false _)
  case mulch =>
    intro s ho hp
    rw [Does, Does, Does, exec_mulchControl ho hp]
    refine ⟨fun hlow => ⟨_, congrArg Host.Outcome.next (if_pos hlow), rfl, rfl⟩, fun hhigh => ?_, fun hlow hhigh => ?_⟩
    · have hband : ¬ s.dieMean4 < 64 * ((s.fld F.PWR_POLICY_MULCH_CENTRE_C : Int) - s.fld F.PWR_POLICY_MULCH_BAND_C) := by omega
      exact ⟨_, congrArg Host.Outcome.next (if_neg hband), if_pos hhigh, rfl, State.fld_setFld_same _ _ _ (by decide)⟩
    · exact ⟨_, congrArg Host.Outcome.next (if_neg (Int.not_lt.2 hlow)), if_neg (Int.not_lt.2 hhigh), rfl,
        State.fld_setFld_same _ _ _ (by decide)⟩
  case mulchLow =>
    exact fun s n hc hp hlate hs => ⟨_, exec_mulchLow hc hp hlate hs, State.fld_setFld_same _ _ _ (by decide),
      (RegsBut.refl _ s).setFld 1 (List.mem_singleton_self _)⟩
  case warn =>
    intro s ho hw
    refine ⟨_, (exec_pwrWarnNLow hw).trans (congrArg Host.Outcome.next (if_neg (by rw [ho]; exact Bool.false_ne_true))), ?_, ?_⟩
    · rw [State.warn_noteTerms, State.warned, State.gov_raiseEvent]
      rfl
    · rw [State.fld_noteTerms _ (by decide), State.warned,
        State.fld_raiseEvent_below (f := F.PWR_STATUS_WARN_ACTIVE) _ _ _ _ (by decide)]
      exact State.fld_setFld_same _ _ _ (by decide)
  case warnEnds =>
    intro s ho hw
    refine ⟨_, exec_pwrWarnNRelease ho hw, State.warn_noteTerms _, ?_, ?_⟩
    · rw [State.fld_noteTerms _ (by decide)]
      exact State.fld_setFld_same _ _ _ (by decide)
    · have hwarn : RegsBut [F.PWR_STATUS_WARN_ACTIVE.reg] s ((s.withGov { s.gov with warn := false }).setFld F.PWR_STATUS_WARN_ACTIVE 0) :=
        ((RegsBut.refl _ s).of_regs rfl).setFld 0 (List.mem_singleton_self _)
      intro a ha
      rw [List.mem_cons, not_or] at ha
      exact (State.noteTerms_regsBut _ a ha.2).trans (hwarn a (by rw [List.mem_singleton]; exact ha.1))
  case fault =>
    intro s ho hf
    refine ⟨_, (exec_coolFaultNLow hf).trans (congrArg Host.Outcome.next (if_neg (by rw [ho]; exact Bool.false_ne_true))), ?_, ?_⟩
    · rw [State.gov_raiseEvent]
      rfl
    · rw [State.fld_raiseEvent_below (f := F.PWR_STATUS_COOL_FAULT) _ _ _ _ (by decide), State.fld_showCoolFault]
      rfl
  case faultEnds =>
    exact fun s ho hf => ⟨_, exec_coolFaultNRelease ho hf, rfl, State.fld_showCoolFault _, s.showCoolFault_withGov_regsBut _⟩
  case off =>
    intro s ho
    refine ⟨?_, ⟨_, exec_pwrWarnNRelease_off ho, ?_⟩, ?_, ⟨_, exec_coolFaultNRelease_off ho, ?_⟩⟩
    · cases hw : s.gov.warn with
      | true => exact ⟨s, congrArg Host.Outcome.next (if_pos hw), hw, rfl⟩
      | false => exact ⟨_, (exec_pwrWarnNLow hw).trans (congrArg Host.Outcome.next (if_pos ho)), rfl, rfl⟩
    · cases hw : s.gov.warn with
      | true => exact ⟨rfl, rfl⟩
      | false => exact ⟨hw, rfl⟩
    · cases hf : s.gov.fault with
      | true => exact ⟨s, congrArg Host.Outcome.next (if_pos hf), hf, rfl⟩
      | false => exact ⟨_, (exec_coolFaultNLow hf).trans (congrArg Host.Outcome.next (if_pos ho)), rfl, rfl⟩
    · cases hf : s.gov.fault with
      | true => exact ⟨rfl, rfl⟩
      | false => exact ⟨hf, rfl⟩
  case rack =>
    intro s ho hr hl hlate
    exact ⟨_, exec_rackHeartbeatLost ho hr hl hlate, (State.fld_raiseEvent_below (f := F.PWR_STATUS_HEARTBEAT_LOST) _ _ _ _
      (by decide)).trans (s.fld_setHeartbeatLost _ (by decide))⟩

end Sys2Proof.Machine
end

section
/-! SUPPORT. The input and the reference clock: what an OFF part keeps, and what loses and regains lock (R666, R861, R862, R869, R870). -/

namespace Sys2Proof.Machine

open Sys2Proof.Safety

/-! ## The reference lost -/

/-- The reference is gone. -/
def State.withRefclk (s : State) (b : Bool) : State := { s with boot := { s.boot with refclk := b } }

/-- Lanes and ports that lose lock with the reference. -/
def State.lockLost (s : State) : State :=
  if (s.withRefclk false).memOn then (List.range 32).foldl (fun (s : State) p => s.portDown p 1)
    ((List.range 16).foldl State.loseLane (s.withRefclk false))
  else s.withRefclk false

/-- The clock in holdover, without its parent. -/
def State.heldOver (s : State) (c : Clock) : State :=
  { s.dropLink.setFld F.TIM_STATUS_STATE tsHoldover with clock := { c with hasParent := false } }

theorem State.boot_lockLost (s : State) : s.lockLost.boot = (s.withRefclk false).boot := by
  have hkeeps : Keeps { regs := false, clusters := false, fab := false, col := false, lines := false } (s.withRefclk false) s.lockLost :=
    keeps_ite (keeps_foldl (keeps_foldl .rfl fun _ _ h => State.loseLane_keeps rfl rfl rfl rfl h) fun _ _ h =>
      State.portDown_keeps rfl rfl rfl rfl h) .rfl
  exact hkeeps.boot rfl

theorem State.boot_heldOver (s : State) (c : Clock) : (s.heldOver c).boot = s.boot :=
  (State.dropLink_keeps (k := { regs := false, clusters := false, fab := false, col := false, cfg := false }) rfl rfl rfl rfl rfl
    .rfl).boot rfl

theorem exec_refclkLoss_off {s : State} (hr : s.boot.refclk = true) (ho : s.off = true) :
    exec .refclkLoss s = .next (s.withRefclk false) :=
  congrArg Host.Outcome.next ((if_neg (by rw [hr]; decide)).trans (if_pos ho))

theorem exec_refclkLoss {s : State} (hr : s.boot.refclk = true) (ho : s.off = false) :
    exec .refclkLoss s = .next (s.lockLost.heldOver s.lockLost.clock) :=
  congrArg Host.Outcome.next ((if_neg (by rw [hr]; decide)).trans (if_neg (by show ¬ s.off = true; rw [ho]; decide)))

/-! ## The retrain of a port that is DOWN (R488) -/

/-- The registers of a port whose retrain begins with no light to give up. -/
def State.portTraining (s : State) (p : Nat) : State :=
  (((s.addWrap (F.FAB_PORT_STATUS_PORT_GEN.at p) 1).addSat (F.FAB_PORT_STATUS_RETRAINS.at p) 1).setFld
    (F.FAB_PORT_STATUS_STATE.at p) poTraining).setFld (F.FAB_PORT_CFG_RETRAIN.at p) (s.fld (F.FAB_PORT_CFG_RETRAIN.at p))

theorem State.portState_portTraining (s : State) (p : Nat) : (s.portTraining p).portState p = poTraining := by
  have hcfg : (F.FAB_PORT_STATUS_STATE.at p).reg ≠ (F.FAB_PORT_CFG_RETRAIN.at p).reg := by
    simp only [Fld.at, F.FAB_PORT_STATUS_STATE, F.FAB_PORT_CFG_RETRAIN]
    omega
  unfold State.portTraining State.portState
  rw [State.fld_setFld_ne (f := F.FAB_PORT_CFG_RETRAIN.at p) _ _ hcfg,
    State.fld_setFld_same _ (F.FAB_PORT_STATUS_STATE.at p) _ (by decide : 3 < 64)]
  rfl

/-- A port replaced, its arbiters back at their order and its HELLO sent. -/
def State.helloSent (s : State) (p : Nat) (x : Port) (e : Emit) : State := ((s.setPort p x).resetArbs (ArbId.ofPort p)).emit e

theorem State.regs_helloSent (s : State) (p : Nat) (x : Port) (e : Emit) : (s.helloSent p x e).regs = s.regs := rfl

/-- A port replaced and its arbiters back at their order. -/
def State.portReplaced (s : State) (p : Nat) (x : Port) : State := (s.setPort p x).resetArbs (ArbId.ofPort p)

theorem State.regs_portReplaced (s : State) (p : Nat) (x : Port) : (s.portReplaced p x).regs = s.regs := rfl

/-- On a port that trains no frames are carried, so that a control message is sent and no more. -/
theorem State.sendCtrl_of_training {s : State} {p : Nat} (m : CtrlMsg) (h : s.portState p = poTraining) :
    s.sendCtrl p m = s.emit (.control p m) := by
  refine if_neg ?_
  show ¬ s.portOn p = true
  unfold State.portOn State.portUsable
  rw [h]
  decide

theorem State.sendHello_of_training {s : State} {p : Nat} (h : s.portState p = poTraining) : ∃ e, s.sendHello p = s.emit e :=
  ⟨_, State.sendCtrl_of_training _ h⟩

theorem State.beginRetrain_of_down {s : State} {p : Nat} (cause : Nat) (hd : s.portState p = poDown) :
    ∃ x e, s.beginRetrain p cause = ((s.portTraining p).helloSent p x e).showFabric := by
  have hon : s.portOn p = false := by
    unfold State.portOn State.portUsable
    rw [hd]
    decide
  have hlit : s.portLit p = false := by
    unfold State.portLit
    rw [hon, hd]
    decide
  have hs : ∃ x, s.beginRetrain p cause = (((s.portTraining p).portReplaced p x).sendHello p).showFabric := by
    unfold State.beginRetrain
    simp only [hlit, hon, Bool.false_eq_true, if_false]
    exact ⟨_, rfl⟩
  obtain ⟨x, hx⟩ := hs
  obtain ⟨e, he⟩ := State.sendHello_of_training (s := (s.portTraining p).portReplaced p x) (p := p)
    ((State.fld_of_regs (State.regs_portReplaced _ p x) _).trans (s.portState_portTraining p))
  exact ⟨x, e, hx.trans (congrArg State.showFabric he)⟩

section
variable {α : Type} (g : State → α) (hr : ∀ (t : State) a v, g (t.setReg a v) = g t) (he : ∀ t e, g (State.emit t e) = g t)
  (hm : ∀ (t : State) m, g { t with mgmt := m } = g t)
include hr he hm

theorem State.showFabric_frame (s : State) : g s.showFabric = g s := by
  unfold State.showFabric
  dsimp only
  split
  · exact (State.raiseEvent_frame g hr he hm _ _ _ _).trans ((hr _ _ _).trans (hr _ _ _))
  · exact (hr _ _ _).trans (hr _ _ _)

/-- What lies in no register, a retrain that begins on a port leaves but for the fabric and the arbiters. -/
theorem State.beginRetrain_frame (ha : ∀ (t : State) f, g (State.resetArbs t f) = g t) {s : State} {p : Nat} (cause : Nat)
    (hd : s.portState p = poDown) (hx : ∀ (t : State) x, g (t.setPort p x) = g t) : g (s.beginRetrain p cause) = g s := by
  obtain ⟨x, e, h⟩ := State.beginRetrain_of_down cause hd
  rw [h, State.showFabric_frame g hr he hm]
  exact (he _ _).trans ((ha _ _).trans ((hx _ _).trans ((hr _ _ _).trans ((hr _ _ _).trans ((hr _ _ _).trans (hr _ _ _))))))

end

/-- The fields apart from those of the fabric's status and of the events. -/
structure Fld.Aside (f : Fld) : Prop where
  fab : f.reg ≠ F.FAB_STATUS_MISSING.reg
  topo : f.reg ≠ F.GLB_STATE_TOPO_DEGRADED.reg ∨ f.hi < 17
  event : f.reg < F.RAS_SELFTEST_GO.reg

theorem State.fld_showFabric (s : State) {f : Fld} (h : f.Aside) : s.showFabric.fld f = s.fld f := by
  have hdeg (n m : Nat) : ((s.setFld F.FAB_STATUS_MISSING n).setFld F.GLB_STATE_TOPO_DEGRADED m).fld f = s.fld f :=
    (State.fld_setFld_other (f := F.GLB_STATE_TOPO_DEGRADED) _ _ (h.topo.imp_right .inl)).trans
      (State.fld_setFld_ne (f := F.FAB_STATUS_MISSING) _ _ h.fab)
  unfold State.showFabric
  dsimp only
  split
  · exact (State.fld_raiseEvent_below _ _ _ _ h.event).trans (hdeg _ _)
  · exact hdeg _ _

theorem State.fld_portTraining (s : State) {p : Nat} {f : Fld} (h1 : f.reg ≠ (F.FAB_PORT_STATUS_STATE.at p).reg)
    (h2 : f.reg ≠ (F.FAB_PORT_CFG_RETRAIN.at p).reg) : (s.portTraining p).fld f = s.fld f := by
  unfold State.portTraining
  rw [State.fld_setFld_ne (f := F.FAB_PORT_CFG_RETRAIN.at p) _ _ h2, State.fld_setFld_ne (f := F.FAB_PORT_STATUS_STATE.at p) _ _ h1]
  exact (State.fld_addSat_other (f := F.FAB_PORT_STATUS_RETRAINS.at p) _ _ (.inl h1)).trans
    (State.fld_setFld_ne (f := F.FAB_PORT_STATUS_PORT_GEN.at p) _ _ h1)

section
variable {s : State} {p : Nat} (cause : Nat) (hd : s.portState p = poDown)
include hd

theorem State.fld_beginRetrain {f : Fld} (h : f.Aside) (h1 : f.reg ≠ (F.FAB_PORT_STATUS_STATE.at p).reg)
    (h2 : f.reg ≠ (F.FAB_PORT_CFG_RETRAIN.at p).reg) : (s.beginRetrain p cause).fld f = s.fld f := by
  obtain ⟨x, e, hs⟩ := State.beginRetrain_of_down cause hd
  rw [hs, State.fld_showFabric _ h]
  exact (State.fld_of_regs (State.regs_helloSent _ p x e) f).trans (s.fld_portTraining h1 h2)

theorem State.portState_beginRetrain (hp : p < 32) : (s.beginRetrain p cause).portState p = poTraining := by
  obtain ⟨x, e, hs⟩ := State.beginRetrain_of_down cause hd
  have haside : (F.FAB_PORT_STATUS_STATE.at p).Aside := by
    constructor <;> simp only [Fld.at, F.FAB_PORT_STATUS_STATE, F.FAB_STATUS_MISSING, F.GLB_STATE_TOPO_DEGRADED, F.RAS_SELFTEST_GO] <;> omega
  rw [State.portState, hs, State.fld_showFabric _ haside]
  exact (State.fld_of_regs (State.regs_helloSent _ p x e) _).trans (s.portState_portTraining p)

end

/-! ## The reference back: what retrains (R862) -/

/-- A fold over a range reaches what each number's own step reaches, where the steps of the others keep both what comes before and
what comes after. -/
theorem State.foldl_range_reaches {f : State → Nat → State} {pre post : Nat → State → Prop} {n : Nat}
    (hpre : ∀ t p q, p < n → q < n → q ≠ p → pre p t → pre p (f t q)) (hpost : ∀ t p q, p < n → q < n → q ≠ p → post p t → post p (f t q))
    (hself : ∀ t p, p < n → pre p t → post p (f t p)) {p : Nat} (hp : p < n) {s : State} (hs : pre p s) :
    post p ((List.range n).foldl f s) := by
  have key : ∀ m ≤ n, (p < m → post p ((List.range m).foldl f s)) ∧ (m ≤ p → pre p ((List.range m).foldl f s)) := by
    intro m
    induction m with
    | zero => exact fun _ => ⟨nofun, fun _ => hs⟩
    | succ m ih =>
      intro hm
      obtain ⟨ihpost, ihpre⟩ := ih (by omega)
      rw [List.range_succ, List.foldl_append]
      refine ⟨fun h => ?_, fun h => hpre _ p m hp hm (by omega) (ihpre (by omega))⟩
      by_cases hmp : m = p
      · subst hmp
        exact hself _ m hp (ihpre (Nat.le_refl m))
      · exact hpost _ p m hp hm hmp (ihpost (by omega))
  exact (key n (Nat.le_refl n)).1 hp

theorem State.foldl_fixed_of_mem {α : Type} {f : State → α → State} {s : State} {l : List α} (h : ∀ a ∈ l, f s a = s) : l.foldl f s = s :=
  List.foldlRecOn l f (motive := fun t => t = s) rfl fun t ht a ha => by rw [ht, h a ha]

/-- What bears on the start of a training, but for registers and the lane or the port itself. -/
def State.trainView (s : State) : Bool × Gov × Nat × Store Nat × Conf := (s.off, s.gov, s.boot.stage, s.mem.lost, s.conf)

/-- The same as far as the start of a training goes. -/
structure State.SameTraining (s t : State) : Prop where
  view : t.trainView = s.trainView
  dev : t.devState = s.devState
  pow : t.powState = s.powState

section
variable {s t : State} (h : s.SameTraining t)
include h

theorem State.SameTraining.mayTrain : t.mayTrain = s.mayTrain := by
  obtain ⟨view, hdev, hpow⟩ := h
  obtain ⟨hoff, hgov, -, -, -⟩ : t.off = s.off ∧ t.gov = s.gov ∧ t.boot.stage = s.boot.stage ∧ t.mem.lost = s.mem.lost ∧ t.conf = s.conf := by
    simpa [State.trainView] using view
  simp only [State.mayTrain, State.memOn, State.hubOn, State.goingDark, State.leavingDark, hoff, hgov, hdev, hpow]

theorem State.SameTraining.laneRelocks {k : Nat} (hk : t.laneState k = s.laneState k) : t.laneRelocks k = s.laneRelocks k := by
  obtain ⟨hoff, -, hstage, hlost, -⟩ : t.off = s.off ∧ t.gov = s.gov ∧ t.boot.stage = s.boot.stage ∧ t.mem.lost = s.mem.lost ∧ t.conf = s.conf := by
    simpa [State.trainView] using h.view
  simp only [State.laneRelocks, State.lanesStarted, State.inService, h.mayTrain, hoff, hstage, hlost, h.dev, hk]

theorem State.SameTraining.portRelocks {p : Nat} (hp : t.portState p = s.portState p)
    (he : t.fld (F.FAB_PORT_CFG_ENABLE.at p) = s.fld (F.FAB_PORT_CFG_ENABLE.at p)) (hl : t.port p = s.port p) :
    t.portRelocks p = s.portRelocks p := by
  obtain ⟨-, -, -, -, hconf⟩ : t.off = s.off ∧ t.gov = s.gov ∧ t.boot.stage = s.boot.stage ∧ t.mem.lost = s.mem.lost ∧ t.conf = s.conf := by
    simpa [State.trainView] using h.view
  have hnum (k o n x : Nat) : t.confNum k o n x = s.confNum k o n x := by
    unfold State.confNum State.sect
    rw [hconf]
  have hplanned : t.planned p = s.planned p := by
    unfold State.planned State.portRole State.planBits
    rw [hnum]
  simp only [State.portRelocks, h.mayTrain, hplanned, he, hp, hl]

end

theorem State.portState_eq_down_of_relocks {s : State} {p : Nat} (h : s.portRelocks p = true) : s.portState p = poDown := by
  simp only [State.portRelocks, Bool.and_eq_true, decide_eq_true_eq] at h
  exact h.1.2

/-- A lane's step at the return of the reference. -/
def State.relockLane (s : State) (k : Nat) : State := if s.laneRelocks k then s.setFld (F.MEM_LANE_STATUS_STATE.at k) mlTraining else s

/-- A port's step at the return of the reference. -/
def State.relockPort (s : State) (p : Nat) : State := if s.portRelocks p then s.beginRetrain p 1 else s

theorem State.doRefclkReturn_eq {s : State} (hr : s.boot.refclk = false) : s.doRefclkReturn =
    match s.boot.waits with
    | some (pos, par, sb) => (s.withRefclk true).coldBegin pos par sb
    | none => (List.range 32).foldl State.relockPort ((List.range 16).foldl State.relockLane (s.withRefclk true)) := by
  unfold State.doRefclkReturn
  rw [if_neg (by rw [hr]; decide)]
  generalize List.range 32 = ps
  generalize List.range 16 = ks
  rfl

theorem exec_refclkReturn_waiting {s : State} {pos : BitVec 6} {par sb : Bool} (hr : s.boot.refclk = false)
    (hw : s.boot.waits = some (pos, par, sb)) : exec .refclkReturn s = .next ((s.withRefclk true).coldBegin pos par sb) :=
  congrArg Host.Outcome.next ((State.doRefclkReturn_eq hr).trans (by rw [hw]))

theorem exec_refclkReturn {s : State} (hr : s.boot.refclk = false) (hw : s.boot.waits = none) :
    exec .refclkReturn s = .next ((List.range 32).foldl State.relockPort ((List.range 16).foldl State.relockLane (s.withRefclk true))) :=
  congrArg Host.Outcome.next ((State.doRefclkReturn_eq hr).trans (by rw [hw]))

theorem State.reg_relockLane (s : State) {k a : Nat} (h : a ≠ (F.MEM_LANE_STATUS_STATE.at k).reg) : (s.relockLane k).reg a = s.reg a := by
  unfold State.relockLane
  split
  · exact State.reg_setFld_ne s _ h
  · rfl

theorem State.fld_relockLane (s : State) {k : Nat} {f : Fld} (h : f.reg ≠ (F.MEM_LANE_STATUS_STATE.at k).reg) :
    (s.relockLane k).fld f = s.fld f := congrArg (fieldGet · f.hi f.lo) (s.reg_relockLane h)

theorem State.trainView_relockLane (s : State) (k : Nat) : (s.relockLane k).trainView = s.trainView := by
  unfold State.relockLane
  split <;> rfl

theorem State.port_relockLane (s : State) (k p : Nat) : (s.relockLane k).port p = s.port p := by
  unfold State.relockLane
  split <;> rfl

theorem State.boot_relockLane (s : State) (k : Nat) : (s.relockLane k).boot = s.boot := by
  unfold State.relockLane
  split <;> rfl

/-- The register of a lane is far above GLB's. -/
theorem glbState_ne_laneState (k : Nat) : 0x8 ≠ (F.MEM_LANE_STATUS_STATE.at k).reg := by
  simp only [Fld.at, F.MEM_LANE_STATUS_STATE]
  omega

theorem State.sameTraining_relockLane (s : State) (k : Nat) : s.SameTraining (s.relockLane k) :=
  ⟨s.trainView_relockLane k, s.fld_relockLane (f := F.GLB_STATE_DEVICE_STATE) (glbState_ne_laneState k),
    s.fld_relockLane (f := F.GLB_STATE_POWER_STATE) (glbState_ne_laneState k)⟩

theorem State.laneState_relockLane_ne (s : State) {k j : Nat} (h : j ≠ k) : (s.relockLane j).laneState k = s.laneState k := by
  refine s.fld_relockLane ?_
  simp only [Fld.at, F.MEM_LANE_STATUS_STATE]
  omega

theorem State.laneState_relockLane (s : State) {k : Nat} (h : s.laneRelocks k = true) : (s.relockLane k).laneState k = mlTraining := by
  unfold State.relockLane
  rw [if_pos h]
  exact State.fld_setFld_same s (F.MEM_LANE_STATUS_STATE.at k) _ (by decide : 3 < 64)

theorem State.relockLanes_laneState (s : State) {k : Nat} (hk : k < 16) (h : s.laneRelocks k = true) :
    ((List.range 16).foldl State.relockLane s).laneState k = mlTraining :=
  State.foldl_range_reaches (pre := fun k t => t.laneRelocks k = true) (post := fun k t => t.laneState k = mlTraining)
    (fun t _ q _ _ hq ht => ((t.sameTraining_relockLane q).laneRelocks (t.laneState_relockLane_ne hq)).trans ht)
    (fun t _ _ _ _ hq ht => (t.laneState_relockLane_ne hq).trans ht) (fun t _ _ ht => t.laneState_relockLane ht) hk h

theorem State.portRelocks_relockLane (s : State) {k p : Nat} (hk : k < 16) : (s.relockLane k).portRelocks p = s.portRelocks p := by
  refine (s.sameTraining_relockLane k).portRelocks (s.fld_relockLane ?_) (s.fld_relockLane ?_) (s.port_relockLane k p) <;>
    simp only [Fld.at, F.MEM_LANE_STATUS_STATE, F.FAB_PORT_STATUS_STATE, F.FAB_PORT_CFG_ENABLE] <;> omega

theorem State.relockLanes_portRelocks (s : State) (p : Nat) :
    ((List.range 16).foldl State.relockLane s).portRelocks p = s.portRelocks p :=
  List.foldlRecOn _ State.relockLane (motive := fun t : State => t.portRelocks p = s.portRelocks p) rfl
    fun t ht _ hk => (t.portRelocks_relockLane (List.mem_range.mp hk)).trans ht

section
variable (s : State) {p : Nat}

theorem State.fld_relockPort {f : Fld} (h : f.Aside) (h1 : f.reg ≠ (F.FAB_PORT_STATUS_STATE.at p).reg)
    (h2 : f.reg ≠ (F.FAB_PORT_CFG_RETRAIN.at p).reg) : (s.relockPort p).fld f = s.fld f := by
  unfold State.relockPort
  split
  · next hp => exact State.fld_beginRetrain 1 (State.portState_eq_down_of_relocks hp) h h1 h2
  · rfl

theorem State.relockPort_frame {α : Type} (g : State → α) (hr : ∀ (t : State) a v, g (t.setReg a v) = g t)
    (he : ∀ t e, g (State.emit t e) = g t) (hm : ∀ (t : State) m, g { t with mgmt := m } = g t)
    (ha : ∀ (t : State) f, g (State.resetArbs t f) = g t) (hx : ∀ (t : State) x, g (t.setPort p x) = g t) :
    g (s.relockPort p) = g s := by
  unfold State.relockPort
  split
  · next hp => exact State.beginRetrain_frame g hr he hm ha 1 (State.portState_eq_down_of_relocks hp) hx
  · rfl

theorem State.boot_relockPort : (s.relockPort p).boot = s.boot :=
  s.relockPort_frame State.boot (fun _ _ _ => rfl) (fun _ _ => rfl) (fun _ _ => rfl) (fun _ _ => rfl) (fun _ _ => rfl)

theorem State.trainView_relockPort : (s.relockPort p).trainView = s.trainView :=
  s.relockPort_frame State.trainView (fun _ _ _ => rfl) (fun _ _ => rfl) (fun _ _ => rfl) (fun _ _ => rfl) (fun _ _ => rfl)

theorem State.port_relockPort_ne {q : Nat} (h : q ≠ p) : (s.relockPort p).port q = s.port q :=
  s.relockPort_frame (fun t => t.port q) (fun _ _ _ => rfl) (fun _ _ => rfl) (fun _ _ => rfl) (fun _ _ => rfl)
    fun t x => mget_mset_ne portDefault t.fab.ports p q x h

theorem State.sameTraining_relockPort : s.SameTraining (s.relockPort p) := by
  have hstate : 0x8 ≠ (F.FAB_PORT_STATUS_STATE.at p).reg := by
    simp only [Fld.at, F.FAB_PORT_STATUS_STATE]
    omega
  have hcfg : 0x8 ≠ (F.FAB_PORT_CFG_RETRAIN.at p).reg := by
    simp only [Fld.at, F.FAB_PORT_CFG_RETRAIN]
    omega
  exact ⟨s.trainView_relockPort,
    s.fld_relockPort (f := F.GLB_STATE_DEVICE_STATE) ⟨by decide, .inr (by decide), by decide⟩ hstate hcfg,
    s.fld_relockPort (f := F.GLB_STATE_POWER_STATE) ⟨by decide, .inr (by decide), by decide⟩ hstate hcfg⟩

theorem State.laneState_relockPort {k : Nat} (hk : k < 16) : (s.relockPort p).laneState k = s.laneState k := by
  refine s.fld_relockPort ⟨?_, .inl ?_, ?_⟩ ?_ ?_ <;>
    simp only [Fld.at, F.MEM_LANE_STATUS_STATE, F.FAB_STATUS_MISSING, F.GLB_STATE_TOPO_DEGRADED, F.RAS_SELFTEST_GO,
      F.FAB_PORT_STATUS_STATE, F.FAB_PORT_CFG_RETRAIN] <;> omega

theorem State.portFld_relockPort_ne {q : Nat} {f : Fld} (hf : f.reg = (F.FAB_PORT_STATUS_STATE.at q).reg ∨ f.reg = (F.FAB_PORT_CFG_ENABLE.at q).reg)
    (hp : p < 32) (hq : q < 32) (h : q ≠ p) : (s.relockPort p).fld f = s.fld f := by
  simp only [Fld.at, F.FAB_PORT_STATUS_STATE, F.FAB_PORT_CFG_ENABLE] at hf
  refine s.fld_relockPort ⟨?_, .inl ?_, ?_⟩ ?_ ?_ <;>
    simp only [Fld.at, F.FAB_STATUS_MISSING, F.GLB_STATE_TOPO_DEGRADED, F.RAS_SELFTEST_GO, F.FAB_PORT_STATUS_STATE,
      F.FAB_PORT_CFG_RETRAIN] <;> omega

theorem State.portRelocks_relockPort_ne {q : Nat} (hp : p < 32) (hq : q < 32) (h : q ≠ p) :
    (s.relockPort p).portRelocks q = s.portRelocks q :=
  s.sameTraining_relockPort.portRelocks (s.portFld_relockPort_ne (.inl rfl) hp hq h) (s.portFld_relockPort_ne (.inr rfl) hp hq h)
    (s.port_relockPort_ne h)

theorem State.portState_relockPort (hp : p < 32) (h : s.portRelocks p = true) : (s.relockPort p).portState p = poTraining := by
  unfold State.relockPort
  rw [if_pos h]
  exact State.portState_beginRetrain 1 (State.portState_eq_down_of_relocks h) hp

theorem State.relockPorts_portState (hp : p < 32) (h : s.portRelocks p = true) :
    ((List.range 32).foldl State.relockPort s).portState p = poTraining :=
  State.foldl_range_reaches (pre := fun p t => t.portRelocks p = true) (post := fun p t => t.portState p = poTraining)
    (fun t _ _ hp hq hne ht => (t.portRelocks_relockPort_ne hq hp (Ne.symm hne)).trans ht)
    (fun t _ _ hp hq hne ht => (t.portFld_relockPort_ne (.inl rfl) hq hp (Ne.symm hne)).trans ht)
    (fun t _ hp ht => t.portState_relockPort hp ht) hp h

theorem State.relockPorts_laneState {k : Nat} (hk : k < 16) : ((List.range 32).foldl State.relockPort s).laneState k = s.laneState k :=
  List.foldlRecOn _ State.relockPort (motive := fun t : State => t.laneState k = s.laneState k) rfl
    fun t ht _ _ => (t.laneState_relockPort hk).trans ht

theorem State.relocks_boot : ((List.range 32).foldl State.relockPort ((List.range 16).foldl State.relockLane s)).boot = s.boot :=
  List.foldlRecOn _ State.relockPort (motive := fun t : State => t.boot = s.boot)
    (List.foldlRecOn _ State.relockLane (motive := fun t : State => t.boot = s.boot) rfl fun t ht k _ => (t.boot_relockLane k).trans ht)
    fun t ht _ _ => t.boot_relockPort.trans ht

theorem State.relocks_fixed (hl : ∀ k < 16, s.laneRelocks k = false) (hp : ∀ p < 32, s.portRelocks p = false) :
    (List.range 32).foldl State.relockPort ((List.range 16).foldl State.relockLane s) = s := by
  have hlanes : (List.range 16).foldl State.relockLane s = s := State.foldl_fixed_of_mem fun k hk =>
    if_neg (by rw [hl k (List.mem_range.mp hk)]; decide)
  rw [hlanes]
  exact State.foldl_fixed_of_mem fun p hk => if_neg (by rw [hp p (List.mem_range.mp hk)]; decide)

end

end Sys2Proof.Machine
end

section
/-! The statements of losing the input and the reference. -/

namespace Sys2Proof.Machine

open Sys2Proof.Safety

/-- Settles O44: the input's loss is one function for its three rows; the reference's return is one fold over the lanes and one over
the ports, whose steps do not touch one another (log entry 52 and R861 for the waiting cold start, R667 and R293 for what stays). -/
theorem inputsLostComplete : Obligations.InputsLostComplete := by
  refine ⟨fun s c hc ho => ?_, fun s c hc ho => ?_, fun s hr => ⟨fun ho => ?_, fun ho => ?_⟩, fun s hr => ⟨fun pos par sb hw => ?_, fun hw => ?_⟩⟩
  · have hlost : s.inputLost = s.powerOff := if_neg (by rw [ho]; decide)
    refine ⟨s.powerOff, (exec_inputLost (by simpa only [List.mem_cons, List.not_mem_nil, or_false] using hc) s).trans (congrArg Host.Outcome.next hlost), rfl, rfl, rfl, rfl, rfl, rfl, rfl, rfl, rfl, rfl, rfl,
      rfl, rfl, rfl, rfl, rfl⟩
  · have hlost : s.inputLost = { s with boot := { s.boot with waits := none } } := if_pos ho
    exact ⟨{ s with boot := { s.boot with waits := none } },
      (exec_inputLost (by simpa only [List.mem_cons, List.not_mem_nil, or_false] using hc) s).trans (congrArg Host.Outcome.next hlost),
      rfl, rfl, ho⟩
  · exact ⟨_, exec_refclkLoss_off hr ho, rfl, rfl⟩
  · refine ⟨_, exec_refclkLoss hr ho, ?_, rfl, ?_⟩
    · rw [State.boot_heldOver, State.boot_lockLost]
      rfl
    · exact (State.fld_of_regs (s := s.lockLost.dropLink.setFld F.TIM_STATUS_STATE tsHoldover) rfl _).trans
        (State.fld_setFld_same _ F.TIM_STATUS_STATE _ (by decide : 3 < 64))
  · exact exec_refclkReturn_waiting hr hw
  · refine ⟨_, exec_refclkReturn hr hw, congrArg Boot.refclk (State.relocks_boot _), fun k hk h => ?_, fun p hp h => ?_, fun hl hp => ?_⟩
    · exact (State.relockPorts_laneState _ hk).trans ((s.withRefclk true).relockLanes_laneState hk h)
    · exact State.relockPorts_portState _ hp ((State.relockLanes_portRelocks _ p).trans h)
    · exact (congrArg State.regs ((s.withRefclk true).relocks_fixed hl hp)).trans rfl

end Sys2Proof.Machine
end

section
/-! SUPPORT. The cold start (R604 to R609, R716, R769) and the held sections that a fabric given up keeps. -/

namespace Sys2Proof.Machine

open Sys2Proof.Safety

/-! ## HELD_SECT, through the end of remote work (R462, R526) -/

/-- The held sections. -/
def State.heldSects (s : State) : Nat := s.fld F.GLB_STATE_HELD_SECT

section
variable (s : State)

/-- Where GLB_STATE is another register, or the field another one of it. -/
theorem State.setFld_heldSects {f : Fld} (n : Nat) (h : F.GLB_STATE_HELD_SECT.reg ≠ f.reg ∨ 24 < f.lo ∨ f.hi < 18) :
    (s.setFld f n).heldSects = s.heldSects :=
  s.fld_setFld_other (f := f) (g := F.GLB_STATE_HELD_SECT) n h

theorem State.addSat_heldSects {f : Fld} (n : Nat) (h : F.GLB_STATE_HELD_SECT.reg ≠ f.reg) : (s.addSat f n).heldSects = s.heldSects :=
  s.setFld_heldSects _ (.inl h)

/-- A register far above GLB's. -/
theorem glbState_ne_of_le {a : Nat} (h : 0x700000 ≤ a) : F.GLB_STATE_HELD_SECT.reg ≠ a := by
  show 8 ≠ a
  omega

theorem State.setGroupFld_heldSects {f : Fld} (g n : Nat) (h : 0x700000 ≤ f.reg) : (s.setFld (f.at g) n).heldSects = s.heldSects :=
  s.setFld_heldSects n (.inl (glbState_ne_of_le (Nat.le_trans h (Nat.le_add_right _ _))))

theorem State.foldl_heldSects {α : Type} (l : List α) {f : State → α → State} (h : ∀ t x, (f t x).heldSects = t.heldSects) :
    (l.foldl f s).heldSects = s.heldSects :=
  List.foldlRecOn l f (motive := fun t : State => t.heldSects = s.heldSects) rfl fun t ht x _ => (h t x).trans ht

theorem State.oweCredit_heldSects (o : Option (Nat × Nat × Nat)) : (s.oweCredit o).heldSects = s.heldSects := by
  cases o <;> rfl

theorem State.sendReply_heldSects (r : Packet) : (s.sendReply r).heldSects = s.heldSects := by
  unfold State.sendReply
  split
  · rfl
  · split
    · rfl
    · exact s.addSat_heldSects 1 (by decide)

theorem State.routePacket_heldSects (i : Nat) (owe : Option (Nat × Nat × Nat)) (k : Packet) :
    (s.routePacket i owe k).heldSects = s.heldSects := by
  have hdrop : ((s.addSat F.FAB_DROP_NO_ROUTE 1).oweCredit owe).heldSects = s.heldSects :=
    (State.oweCredit_heldSects _ owe).trans (s.addSat_heldSects 1 (by decide))
  unfold State.routePacket
  dsimp only
  repeat' split
  · rfl
  · rfl
  · exact hdrop
  · exact (State.sendReply_heldSects _ _).trans hdrop

theorem State.inject_heldSects (kind : ReqKind) (k : Packet) : (s.inject kind k).heldSects = s.heldSects := by
  unfold State.inject State.startReq
  dsimp only
  repeat' split
  · rfl
  · rfl
  · rfl
  · exact State.routePacket_heldSects _ _ _ _
  · rfl

theorem State.showCol_heldSects : s.showCol.heldSects = s.heldSects := by
  unfold State.showCol
  dsimp only
  split <;> simp (disch := decide) only [State.setFld_heldSects]

theorem State.dropColl_heldSects (c : Coll) : (s.dropColl c).heldSects = s.heldSects := by
  unfold State.dropColl
  refine (State.showCol_heldSects _).trans ((State.setGroupFld_heldSects _ _ _ (by decide)).trans ?_)
  split
  · rfl
  · exact State.setGroupFld_heldSects _ _ _ (by decide)

theorem le_collCounter {cause : Nat} {f : Fld} (h : collCounter cause = some f) : 0x700000 ≤ f.reg := by
  unfold collCounter at h
  grind [F.COL_ERR_MISMATCH, F.COL_ERR_ORDER, F.COL_ERR_LINK_LOST]

theorem State.endColl_heldSects (c : Coll) (cause : Nat) (send : Bool) : (s.endColl c cause send).heldSects = s.heldSects := by
  have hsent : (if send then s.sendOthers c ckAbort (BitVec.ofNat 64 cause) 0 else s).heldSects = s.heldSects := by
    split
    · exact s.foldl_heldSects _ fun t r => t.inject_heldSects _ _
    · rfl
  have hended := (State.setGroupFld_heldSects _ c.group cause (f := F.COL_GROUP_STATE_LAST_CAUSE) (by decide)).trans
    ((State.dropColl_heldSects _ c).trans hsent)
  unfold State.endColl
  dsimp only
  split
  · next f hf => exact (State.addSat_heldSects _ 1 (glbState_ne_of_le (le_collCounter hf))).trans hended
  · exact hended

theorem State.discard_heldSects (p : Nat) : (s.discard p).heldSects = s.heldSects := by
  unfold State.discard
  dsimp only
  split
  · rfl
  · exact State.setFld_heldSects _ _ (.inl (glbState_ne_of_le (by show 0x700000 ≤ 0x01000000 + 0x10000 * p + 0; omega)))

theorem State.replayStep_heldSects (lead cause : Nat) (lanes : List Nat) : (s.replayStep lead cause lanes).heldSects = s.heldSects := by
  have hall (t : State) (x : Step) : (t.discardAll x).heldSects = t.heldSects :=
    (State.foldl_heldSects _ x.map fun t m => t.discard_heldSects m.2).trans
      (State.foldl_heldSects t _ fun t c => t.endColl_heldSects c _ _)
  unfold State.replayStep
  repeat' split
  · rfl
  · rfl
  · exact hall _ _

theorem State.loseColl_heldSects (c : Coll) : (s.loseColl c).heldSects = s.heldSects := by
  unfold State.loseColl
  split
  · rfl
  · exact (State.replayStep_heldSects _ _ _ _).trans (s.endColl_heldSects c _ _)

theorem State.failRemote_heldSects : s.failRemote.heldSects = s.heldSects := by
  unfold State.failRemote
  refine (State.foldl_heldSects _ _ fun t c => t.loseColl_heldSects c).trans ((State.foldl_heldSects _ _ fun t w => ?_).trans rfl)
  repeat' split
  · exact t.replayStep_heldSects _ _ _
  · rfl
  · rfl

theorem State.raiseEvent_heldSects (c x d : Nat) : (s.raiseEvent c x d).heldSects = s.heldSects :=
  State.fld_raiseEvent_below _ _ _ _ (f := F.GLB_STATE_HELD_SECT) (by decide)

theorem State.showFabric_heldSects : s.showFabric.heldSects = s.heldSects := by
  have hshown (n m : Nat) : ((s.setFld F.FAB_STATUS_MISSING n).setFld F.GLB_STATE_TOPO_DEGRADED m).heldSects = s.heldSects :=
    (State.setFld_heldSects _ m (.inr (.inr (by decide)))).trans (s.setFld_heldSects n (.inl (by decide)))
  unfold State.showFabric
  dsimp only
  split
  · exact (State.raiseEvent_heldSects _ _ _ _).trans (hshown _ _)
  · exact hshown _ _

/-! ## Held sections (R604, R605) -/

theorem State.holdFabric_heldSects (h : s.heldSects = 127) : s.holdFabric.heldSects = 127 := by
  have hset : (s.setFld F.FAB_STATUS_STATE fsHeld).heldSects = 127 := (s.setFld_heldSects _ (.inl (by decide))).trans h
  refine (State.failRemote_heldSects _).trans ((State.showFabric_heldSects _).trans ?_)
  generalize s.setFld F.FAB_STATUS_STATE fsHeld = t at hset ⊢
  refine (State.setFld_heldSects _ _ (.inl (by decide))).trans
    ((State.fld_setFld_same t F.GLB_STATE_HELD_SECT _ (by decide)).trans ?_)
  show (t.heldSects &&& 0x7B ||| 4) % 2 ^ 7 = 127
  rw [hset]
  decide

theorem State.setCause_heldSects (t c : Nat) : (s.setCause t c).heldSects = s.heldSects :=
  s.setFld_heldSects _ (.inl (by decide : (8 : Nat) ≠ 0x110))

theorem State.strapHold_heldSects (h : s.heldSects = 127) : s.strapHold.heldSects = 127 := by
  unfold State.strapHold
  split
  · exact h
  · exact (State.raiseEvent_heldSects _ _ _ _).trans ((State.setCause_heldSects _ _ _).trans (s.holdFabric_heldSects h))

/-- The bit of a held section is set, and no other one changed. -/
theorem State.holdSect_heldSects {i : Nat} (c : Nat) {j : Nat} (hj : j < 7) :
    (s.holdSect (i + 1) c).heldSects.testBit j = (decide (j = i) || s.heldSects.testBit j) := by
  have hset (v : Nat) : (s.holdSect (i + 1) c).heldSects =
      (if (s.setCause (i + 1) c).heldSects.testBit i = true then (s.setCause (i + 1) c).heldSects
        else (s.setCause (i + 1) c).heldSects ^^^ 2 ^ i) % 2 ^ 7 :=
    State.fld_setFld_same _ F.GLB_STATE_HELD_SECT _ (by decide)
  rw [hset 0, s.setCause_heldSects, Nat.testBit_mod_two_pow, decide_eq_true hj, Bool.true_and]
  split
  · next h => grind
  · next h =>
    rw [Nat.testBit_xor, Nat.testBit_two_pow]
    grind

theorem State.holdSects_heldSects (c : Nat) :
    ((List.range 7).foldl (fun (s : State) i => s.holdSect (i + 1) c) s).heldSects = 127 := by
  have hbits : ∀ j < 7, ((List.range 7).foldl (fun (s : State) i => s.holdSect (i + 1) c) s).heldSects.testBit j = true := fun j hj =>
    State.foldl_range_reaches (f := fun s i => s.holdSect (i + 1) c) (pre := fun _ _ => True) (post := fun j t => t.heldSects.testBit j = true)
      (fun _ _ _ _ _ _ _ => trivial)
      (fun t j i hj _ _ ht => (t.holdSect_heldSects c hj).trans (by rw [ht, Bool.or_true]))
      (fun t j hj _ => (t.holdSect_heldSects c hj).trans (by simp)) hj trivial
  have hlt : ((List.range 7).foldl (fun (s : State) i => s.holdSect (i + 1) c) s).heldSects < 2 ^ 7 := State.fld_lt _ F.GLB_STATE_HELD_SECT
  refine Nat.eq_of_testBit_eq fun j => ?_
  by_cases hj : j < 7
  · rw [hbits j hj]
    revert hj
    revert j
    decide
  · rw [Nat.testBit_lt_two_pow (Nat.lt_of_lt_of_le hlt (Nat.pow_le_pow_right (by decide) (by omega))),
      Nat.testBit_lt_two_pow (x := 127) (Nat.lt_of_lt_of_le (by decide : 127 < 2 ^ 7) (Nat.pow_le_pow_right (by decide) (by omega)))]

end

/-- An event of the cold start is next. -/
def State.atStage (s : State) (n : Nat) : State := { s with boot := { s.boot with stage := n } }

theorem State.regs_atStage (s : State) (n : Nat) : (s.atStage n).regs = s.regs := rfl

theorem State.stage_atStage (s : State) (n : Nat) : (s.atStage n).boot.stage = n := rfl

/-! ## The input in its limits, straps and slot (R584, R608, R769) -/

theorem exec_inputEntersLimits {s : State} (pos : BitVec 6) (par sb refclk : Bool) (ho : s.off = true) :
    exec (.inputEntersLimits pos par sb true refclk) s = .next (if refclk then s.coldBegin pos par sb
      else { s with boot := { s.boot with waits := some (pos, par, sb), refclk := false } }) :=
  congrArg Host.Outcome.next (if_neg (by rw [ho]; decide))

theorem exec_inputEntersLimits_eoff (s : State) (pos : BitVec 6) (par sb refclk : Bool) :
    exec (.inputEntersLimits pos par sb false refclk) s = .next s := congrArg Host.Outcome.next (if_pos (.inr rfl))

/-- The straps in GLB_STRAPS, with the number of ones that their parity counts. -/
def State.strapped (s : State) (pos : BitVec 6) (par sb : Bool) (ones : Nat) : State :=
  (((s.setFld F.GLB_STRAPS_POS pos.toNat).setFld F.GLB_STRAPS_PAR (bit par)).setFld F.GLB_STRAPS_SEEDBED (bit !sb)).setFld
    F.GLB_STRAPS_PAR_OK (ones % 2)

theorem State.strapped_fields (s : State) (pos : BitVec 6) (par sb : Bool) (ones : Nat) :
    (s.strapped pos par sb ones).fld F.GLB_STRAPS_POS = pos.toNat ∧ (s.strapped pos par sb ones).fld F.GLB_STRAPS_PAR = bit par ∧
      (s.strapped pos par sb ones).fld F.GLB_STRAPS_SEEDBED = bit !sb ∧ (s.strapped pos par sb ones).fld F.GLB_STRAPS_PAR_OK = ones % 2 := by
  have hbit (b : Bool) : bit b % 2 = bit b := by cases b <;> rfl
  unfold State.strapped
  refine ⟨?_, ?_, ?_, ?_⟩
  · rw [State.fld_setFld_apart _ _ (by decide), State.fld_setFld_apart _ _ (by decide), State.fld_setFld_apart _ _ (by decide)]
    exact (State.fld_setFld_same _ F.GLB_STRAPS_POS _ (by decide)).trans (Nat.mod_eq_of_lt pos.isLt)
  · rw [State.fld_setFld_apart _ _ (by decide), State.fld_setFld_apart _ _ (by decide)]
    exact (State.fld_setFld_same _ F.GLB_STRAPS_PAR _ (by decide)).trans (hbit par)
  · rw [State.fld_setFld_apart _ _ (by decide)]
    exact (State.fld_setFld_same _ F.GLB_STRAPS_SEEDBED _ (by decide)).trans (hbit !sb)
  · exact (State.fld_setFld_same _ F.GLB_STRAPS_PAR_OK _ (by decide)).trans (Nat.mod_mod ones 2)

theorem State.latchStraps_eq (s : State) (pos : BitVec 6) (par sb : Bool) : ∃ ones, s.latchStraps pos par sb =
    ((s.strapped pos par sb ones).setFld F.GLB_IDENT_CHIP_ID pos.toNat).setFld F.FAB_STATUS_STRAP_ERR (bit (decide (ones % 2 = 0))) :=
  ⟨_, rfl⟩

/-- Slots none of which is in a graft keep their records. -/
theorem State.rejectGrafts_of_none {s : State} (h0 : s.slotState 0 ≠ srGraft) (h1 : s.slotState 1 ≠ srGraft) :
    [0, 1].foldl (fun (s : State) k => if s.slotState k = srGraft then s.writeRecord orHw k srRejected else s) s = s := by
  rw [List.foldl_cons, List.foldl_cons, List.foldl_nil, if_neg h0, if_neg h1]

section
variable {s u : State} (ho : s.off = false) (hdev : s.devState = dsBoot) (hst : s.boot.stage = 0) (hu : u = s.settleMirror.flashRetry)
  (h0 : u.slotState 0 ≠ srGraft) (h1 : u.slotState 1 ≠ srGraft)
include ho hdev hst hu h0 h1

theorem exec_slotChoice_found {k : Nat} (hk : u.takenSlots.find? u.slotPasses = some k) :
    exec .slotChoice s = .next (u.startFirmware k) := by
  subst hu
  refine congrArg Host.Outcome.next ((if_pos ⟨ho, hdev, hst⟩).trans ?_)
  dsimp only
  rw [State.rejectGrafts_of_none h0 h1, hk]

theorem exec_slotChoice_none (hk : u.takenSlots.find? u.slotPasses = none) : exec .slotChoice s = .next (u.setDev orHw dsSeedbed) := by
  subst hu
  refine congrArg Host.Outcome.next ((if_pos ⟨ho, hdev, hst⟩).trans ?_)
  dsimp only
  rw [State.rejectGrafts_of_none h0 h1, hk]

end

/-! ## The self-test and the configuration (R604, R609, R716) -/

/-- The failures known after a self-test, of clusters and of a hub block. -/
def State.testRecorded (s : State) (failed : List Nat) (hub : Bool) : State :=
  { s with repair := { s.repair with
    failed := (s.repair.failed ++ failed.filter fun p => decide (p < 264)).eraseDups, hub := s.repair.hub || hub || s.boot.hubBad } }

section
variable {s : State} (failed : List Nat) (ho : s.off = false) (hdev : s.devState = dsBoot)
include ho hdev

theorem exec_selfTestDone_hub (hst : s.boot.stage = 1) :
    exec (.selfTestDone failed true) s = .next (s.testRecorded failed true).showRemap.enterFallow := by
  refine congrArg Host.Outcome.next ((if_pos ⟨ho, hdev, hst⟩).trans ?_)
  dsimp only
  rw [State.writeRepair_eq]
  exact if_pos (by simp)

theorem exec_selfTestDone_passes (hst : s.boot.stage = 1) (hbad : s.boot.hubBad = false) (hhub : s.repair.hub = false)
    (hfew : ((List.range 4).any fun d => decide (2 <
      (((s.repair.failed ++ failed.filter fun p => decide (p < 264)).eraseDups).filter fun p => decide (dieOf p = d)).length)) = false) :
    Does (.selfTestDone failed false) s fun t => t.boot.stage = 2 := by
  refine ⟨_, congrArg Host.Outcome.next ((if_pos ⟨ho, hdev, hst⟩).trans (if_neg ?_)), rfl⟩
  rw [State.writeRepair_eq]
  simp [hfew, hhub, hbad]

theorem exec_configurationChoice_found {c : Nat} (hst : s.boot.stage = 2)
    (hc : ((s.setDev orHw dsConfiguring).checkCopies).newestCopy = some c) :
    exec .configurationChoice s = .next (((s.setDev orHw dsConfiguring).checkCopies.useCopy c).atStage 3) := by
  refine congrArg Host.Outcome.next ((if_pos ⟨ho, hdev, hst⟩).trans ?_)
  dsimp only
  rw [hc]
  rfl

/-- All sections held for want of a copy, and the fabric too where the straps' parity is wrong. -/
def State.noCopyHeld (s : State) : State :=
  ((List.range 7).foldl (fun (s : State) i => s.holdSect (i + 1) hcNoCopy) s).strapHold

theorem exec_configurationChoice_none (hst : s.boot.stage = 2)
    (hc : ((s.setDev orHw dsConfiguring).checkCopies).newestCopy = none) :
    exec .configurationChoice s =
      .next (((((s.setDev orHw dsConfiguring).checkCopies).noCopyHeld.atStage 6).setDev orHw dsHeld).startRackTimer) := by
  refine congrArg Host.Outcome.next ((if_pos ⟨ho, hdev, hst⟩).trans ?_)
  dsimp only
  rw [hc]
  rfl

end

theorem State.regs_startRackTimer (s : State) : s.startRackTimer.regs = s.regs := by
  unfold State.startRackTimer
  split <;> rfl

theorem State.boot_startRackTimer (s : State) : s.startRackTimer.boot = s.boot := by
  unfold State.startRackTimer
  split <;> rfl

theorem State.rackRuns_startRackTimer (s : State) : s.startRackTimer.gov.rackRuns = true := by
  unfold State.startRackTimer
  split
  · assumption
  · rfl

theorem State.boot_setDev (s : State) (o n : Nat) : (s.setDev o n).boot = s.boot := by
  unfold State.setDev
  split
  · rfl
  · exact State.logChange_frame State.boot (fun _ _ _ => rfl) (fun _ _ => rfl) _ _ _ _ _ _

theorem State.devState_heldStart (s : State) : ((s.setDev orHw dsHeld).startRackTimer).devState = dsHeld :=
  (State.fld_of_regs (State.regs_startRackTimer _) F.GLB_STATE_DEVICE_STATE).trans (s.devState_setDev orHw dsHeld (by decide))

theorem State.heldSects_heldStart (s : State) (h : s.heldSects = 127) : ((s.setDev orHw dsHeld).startRackTimer).heldSects = 127 :=
  (State.fld_of_regs (State.regs_startRackTimer _) F.GLB_STATE_HELD_SECT).trans
    ((s.fld_setDev orHw dsHeld (f := F.GLB_STATE_HELD_SECT) (by decide) (.inr (by decide))).trans h)

theorem State.inUse_useCopy (s : State) (c : Nat) : (s.useCopy c).fld F.GLB_CFG_STATUS_IN_USE = (c + 1) % 4 :=
  (State.fld_setFld_apart (f := F.GLB_CFG_STATUS_APPLIED) _ _ (by decide)).trans
    ((State.fld_setFld_apart (f := F.GLB_CFG_STATUS_SEQUENCE) _ _ (by decide)).trans
      (State.fld_setFld_same s F.GLB_CFG_STATUS_IN_USE _ (by decide)))

/-! ## Sections, lanes and the end (R419, R606, R608) -/

theorem exec_sectionsApply {s : State} (ho : s.off = false) (hdev : s.devState = dsConfiguring) (hst : s.boot.stage = 3) :
    exec .sectionsApply s = .next (if ((([1, 6, 5, 4, 7].foldl (fun (u : State) t =>
        u.startSect (s.copyAt (s.fld F.GLB_CFG_STATUS_IN_USE - 1)) t) s).sect 1).isEmpty) then
      (([1, 6, 5, 4, 7].foldl (fun (u : State) t => u.startSect (s.copyAt (s.fld F.GLB_CFG_STATUS_IN_USE - 1)) t) s).atStage 5).strapHold
      else ([1, 6, 5, 4, 7].foldl (fun (u : State) t =>
        u.startSect (s.copyAt (s.fld F.GLB_CFG_STATUS_IN_USE - 1)) t) s).eventNine (s.copyAt (s.fld F.GLB_CFG_STATUS_IN_USE - 1))) :=
  congrArg Host.Outcome.next (if_pos ⟨ho, hdev, hst⟩)

section
variable {s : State} {rs : List BridgeReport} (ho : s.off = false) (hn : rs.length = 16) (hr : s.boot.refclk = true)
include ho hn hr

theorem exec_lanesTrained_cold (hdev : s.devState = dsConfiguring) (hst : s.boot.stage = 4) :
    exec (.lanesTrained rs) s = .next ((((rs.zipIdx.foldl (fun (s : State) e => s.trainLane e.2 e.1) s).allowMissing.coverRetired.checkTiers
      ).showLease.releaseWaits).atStage 5) := by
  have hcold : (decide (s.devState = dsConfiguring) && decide (s.boot.stage = 4)) = true := by simp [hdev, hst]
  exact congrArg Host.Outcome.next ((if_pos ⟨ho, hn, .inl hcold, hr⟩).trans ((if_pos hcold).trans
    (congrArg (fun u : State => u.checkTiers.showLease.releaseWaits.atStage 5) (if_pos hcold))))

theorem exec_lanesTrained_back (hback : s.devState = dsResetting ∨ s.gov.moving.isSome = true ∧ s.powState = psDark)
    (hst : s.devState = dsConfiguring → s.boot.stage ≠ 4) :
    exec (.lanesTrained rs) s =
      .next ((rs.zipIdx.foldl (fun (s : State) e => s.trainLane e.2 e.1) s).checkTiers.showLease.releaseWaits) := by
  have hcold : (decide (s.devState = dsConfiguring) && decide (s.boot.stage = 4)) = false := by simpa using hst
  have hb : (decide (s.devState = dsResetting) || (s.gov.moving.isSome && decide (s.powState = psDark))) = true := by simpa using hback
  have hnot : ¬ (decide (s.devState = dsConfiguring) && decide (s.boot.stage = 4)) = true := by rw [hcold]; decide
  exact congrArg Host.Outcome.next ((if_pos ⟨ho, hn, .inr hb, hr⟩).trans ((if_neg hnot).trans
    (congrArg (fun u : State => u.checkTiers.showLease.releaseWaits) (if_neg hnot))))

end

theorem exec_coldStartDone {s : State} (ho : s.off = false) (hdev : s.devState = dsConfiguring) (hst : s.boot.stage = 5)
    (hd : s.fab.discoverAt = none) :
    exec .coldStartDone s = .next (if (s.sect 1).isEmpty then ((s.atStage 6).setDev orHw dsHeld).startRackTimer else (s.atStage 6).enterReady) :=
  congrArg Host.Outcome.next (if_pos ⟨ho, hdev, hst, hd⟩)

end Sys2Proof.Machine
end

section
/-! The statement of the cold start. -/

namespace Sys2Proof.Machine

open Sys2Proof.Safety

/-- Settles O37: each event runs in its stage alone. The wait for the reference and EOFF_N low at the input are log entry 52 with R861
and R667, the seven HELD_SECT bits R605's: without a copy each bit is set in turn, and the fabric's hold keeps them all. -/
theorem coldStartCompletes : Obligations.ColdStartCompletes := by
  refine ⟨fun s pos par sb ho => ⟨?_, ?_, ?_⟩, fun s pos par sb => ?_, ?_, fun s failed ho hdev hst hbad hhub hfew => ?_,
    fun s failed ho hdev hst => ?_, fun s ho hdev hst => ⟨fun c hc => ?_, fun hc => ?_⟩, fun s ho hdev hst => ?_, ?_,
    fun s ho hdev hst hd => ⟨fun h1 => ?_, fun h1 => ?_⟩⟩
  · exact exec_inputEntersLimits pos par sb true ho
  · exact ⟨_, exec_inputEntersLimits pos par sb false ho, rfl, ho, rfl⟩
  · exact exec_inputEntersLimits_eoff s pos par sb
  · obtain ⟨ones, hs⟩ := s.latchStraps_eq pos par sb
    obtain ⟨hpos, hpar, hsb, hok⟩ := s.strapped_fields pos par sb ones
    have hstraps {f : Fld} (hf : f.reg = F.GLB_STRAPS_POS.reg) : (s.latchStraps pos par sb).fld f = (s.strapped pos par sb ones).fld f := by
      rw [hs, State.fld_setFld_ne (f := F.FAB_STATUS_STRAP_ERR) _ _ (by rw [hf]; decide),
        State.fld_setFld_ne (f := F.GLB_IDENT_CHIP_ID) _ _ (by rw [hf]; decide)]
    refine ⟨(hstraps (f := F.GLB_STRAPS_POS) rfl).trans hpos, (hstraps (f := F.GLB_STRAPS_PAR) rfl).trans hpar,
      (hstraps (f := F.GLB_STRAPS_SEEDBED) rfl).trans hsb, ?_, ?_⟩
    · rw [hs, State.fld_setFld_ne (f := F.FAB_STATUS_STRAP_ERR) _ _ (by decide)]
      exact (State.fld_setFld_same _ F.GLB_IDENT_CHIP_ID _ (by decide)).trans (Nat.mod_eq_of_lt pos.isLt)
    · rw [hstraps (f := F.GLB_STRAPS_PAR_OK) rfl, hok, hs, State.fld_setFld_same _ F.FAB_STATUS_STRAP_ERR _ (by decide)]
      rcases Nat.mod_two_eq_zero_or_one ones with h | h <;> rw [h] <;> decide
  · exact fun s u ho hdev hst hu h0 h1 =>
      ⟨fun k => exec_slotChoice_found ho hdev hst hu h0 h1, exec_slotChoice_none ho hdev hst hu h0 h1⟩
  · exact exec_selfTestDone_passes failed ho hdev hst hbad hhub hfew
  · refine ⟨_, exec_selfTestDone_hub failed ho hdev hst, (s.testRecorded failed true).showRemap, rfl, ?_, ?_⟩
    · rw [State.showRemap_frame (·.repair.hub) (fun _ _ _ => rfl)]
      simp [State.testRecorded]
    · exact State.showRemap_frame (·.repair.failed) (fun _ _ _ => rfl) _
  · refine ⟨_, exec_configurationChoice_found ho hdev hst hc, ?_, State.stage_atStage _ 3⟩
    exact (State.fld_of_regs (State.regs_atStage _ 3) _).trans (State.inUse_useCopy _ c)
  · refine ⟨_, exec_configurationChoice_none ho hdev hst hc, State.devState_heldStart _, ?_⟩
    exact State.heldSects_heldStart _ ((State.fld_of_regs (State.regs_atStage _ 6) F.GLB_STATE_HELD_SECT).trans
      (State.strapHold_heldSects _ (State.holdSects_heldSects _ hcNoCopy)))
  · exact ⟨_, exec_sectionsApply ho hdev hst, _, _, rfl, rfl, fun h1 => if_neg (by rw [h1]; decide), fun h1 => if_pos h1⟩
  · rintro s u rs ho hn hr rfl
    exact ⟨fun hdev hst => ⟨_, exec_lanesTrained_cold ho hn hr hdev hst, _, rfl, rfl⟩, exec_lanesTrained_back ho hn hr⟩
  · refine ⟨_, (exec_coldStartDone ho hdev hst hd).trans (by rw [if_pos h1]), State.devState_heldStart _, ?_, State.rackRuns_startRackTimer _⟩
    rw [State.boot_startRackTimer, State.boot_setDev, State.stage_atStage]
  · exact (exec_coldStartDone ho hdev hst hd).trans (by rw [if_neg (by rw [h1]; decide)]; rfl)

end Sys2Proof.Machine
end

section
/-! SUPPORT. Section reloads and the device commands (R610, R611, R619, R620). -/

namespace Sys2Proof.Machine

open Sys2Proof.Safety

/-! ## A write of GLB_CFG_RELOAD (R610, R611) -/

/-- What a reload selects, shown. -/
def State.reloadShown (s : State) (v : Word) : State :=
  (s.setFld F.GLB_CFG_RELOAD_COPY (bitsOf v 9 8)).setFld F.GLB_CFG_RELOAD_SECTIONS (bitsOf v 6 0)

/-- The sections that a reload asks for. -/
def reloadTodo (v : Word) : List Nat := ((List.range 7).map (· + 1)).filter fun t => v.getLsbD (t - 1)

/-- The reload from copy `c` begun in `s`, the copies checked in `u`. -/
def State.reloadFrom (s u : State) (v : Word) (c : Nat) : State :=
  State.runReload 8 ((u.useCopy c).setFld F.GLB_CFG_RELOAD_GO 1) (u.copyAt c)
    { copy := c, todo := reloadTodo v, part := false, held := decide (s.devState = dsHeld) }

/-- What an accepted write of GLB_CFG_RELOAD does. -/
def State.reloadWritten (s : State) (v : Word) : State :=
  if !v.getLsbD 7 || decide (s.fld F.GLB_CFG_RELOAD_GO = 1) then s.reloadShown v
  else if s.devState ≠ dsHeld ∧ s.inService = false then (s.reloadShown v).endReload rrState
  else
    match ((s.reloadShown v).checkSelected (bitsOf v 9 8)).selectCopy (bitsOf v 9 8) with
    | none => ((s.reloadShown v).checkSelected (bitsOf v 9 8)).endReload rrNoCopy
    | some c =>
      if (reloadTodo v).contains 1 && (decide (s.devState = dsServing) || decide (s.devState = dsDraining)) then
        (s.reloadShown v).endReload rrState
      else s.reloadFrom ((s.reloadShown v).checkSelected (bitsOf v 9 8)) v c

theorem reloadTodo_contains_one (v : Word) : (reloadTodo v).contains 1 = v.getLsbD 0 := by
  unfold reloadTodo
  generalize v.getLsbD = g
  cases h : g 0 <;> simp [h]

theorem State.reloadShown_fields (s : State) (v : Word) :
    (s.reloadShown v).fld F.GLB_CFG_RELOAD_COPY = bitsOf v 9 8 ∧ (s.reloadShown v).fld F.GLB_CFG_RELOAD_SECTIONS = bitsOf v 6 0 ∧
      RegsBut [F.GLB_CFG_RELOAD_GO.reg] s (s.reloadShown v) := by
  have hsel : bitsOf v 9 8 < 2 ^ 2 := fieldGet_lt v 9 8
  have hsect : bitsOf v 6 0 < 2 ^ 7 := fieldGet_lt v 6 0
  unfold State.reloadShown
  generalize bitsOf v 9 8 = sel at hsel ⊢
  generalize bitsOf v 6 0 = sect at hsect ⊢
  refine ⟨?_, ?_, ((RegsBut.refl _ s).setFld (f := F.GLB_CFG_RELOAD_COPY) _ (List.mem_singleton_self _)).setFld
    (f := F.GLB_CFG_RELOAD_SECTIONS) _ (List.mem_singleton_self _)⟩
  · rw [State.fld_setFld_apart (f := F.GLB_CFG_RELOAD_SECTIONS) _ _ (by decide), State.fld_setFld_same _ F.GLB_CFG_RELOAD_COPY _ (by decide)]
    exact Nat.mod_eq_of_lt hsel
  · rw [State.fld_setFld_same _ F.GLB_CFG_RELOAD_SECTIONS _ (by decide)]
    exact Nat.mod_eq_of_lt hsect

theorem exec_reload {s : State} {w : Agent} {v : Word} (ha : Accepts s w blkGlb) (hsel : bitsOf v 9 8 ≠ 3) :
    exec (.reload w v) s = .next ((s.closeLatch w blkGlb).reloadWritten v) := by
  have hcopy := ((s.closeLatch w blkGlb).reloadShown_fields v).1
  refine congrArg Host.Outcome.next ((State.leased_gate_of_accepts _ ha).trans ?_)
  generalize s.closeLatch w blkGlb = t at hcopy ⊢
  have hshown : (if bitsOf v 9 8 = 3 then t else t.setFld F.GLB_CFG_RELOAD_COPY (bitsOf v 9 8)).setFld F.GLB_CFG_RELOAD_SECTIONS
      (bitsOf v 6 0) = t.reloadShown v := congrArg (State.setFld · _ _) (if_neg hsel)
  dsimp only
  rw [hshown, hcopy]
  rfl

section
variable {s : State} {v : Word}

theorem State.reloadWritten_stored (h : v.getLsbD 7 = false ∨ s.fld F.GLB_CFG_RELOAD_GO = 1) : s.reloadWritten v = s.reloadShown v :=
  if_pos (by rcases h with h | h <;> rw [h] <;> simp)

variable (hgo : s.fld F.GLB_CFG_RELOAD_GO = 0) (hv : v.getLsbD 7 = true)
include hgo hv

theorem State.reloadWritten_asks : ¬ (!v.getLsbD 7 || decide (s.fld F.GLB_CFG_RELOAD_GO = 1)) = true := by
  rw [hv, hgo]
  decide

variable (hst : s.devState = dsHeld ∨ s.inService = true)
include hst

theorem State.reloadWritten_open : s.reloadWritten v =
    match ((s.reloadShown v).checkSelected (bitsOf v 9 8)).selectCopy (bitsOf v 9 8) with
    | none => ((s.reloadShown v).checkSelected (bitsOf v 9 8)).endReload rrNoCopy
    | some c =>
      if (reloadTodo v).contains 1 && (decide (s.devState = dsServing) || decide (s.devState = dsDraining)) then
        (s.reloadShown v).endReload rrState
      else s.reloadFrom ((s.reloadShown v).checkSelected (bitsOf v 9 8)) v c := by
  refine (if_neg (State.reloadWritten_asks hgo hv)).trans ((if_neg ?_).trans rfl)
  rintro ⟨hh, hs⟩
  rcases hst with h | h
  · exact hh h
  · exact absurd (h.symm.trans hs) (by decide)

theorem State.reloadWritten_noCopy (hc : ((s.reloadShown v).checkSelected (bitsOf v 9 8)).selectCopy (bitsOf v 9 8) = none) :
    s.reloadWritten v = ((s.reloadShown v).checkSelected (bitsOf v 9 8)).endReload rrNoCopy := by
  rw [State.reloadWritten_open hgo hv hst, hc]

theorem State.reloadWritten_identity (hc : ((s.reloadShown v).checkSelected (bitsOf v 9 8)).selectCopy (bitsOf v 9 8) ≠ none)
    (hd : s.devState = dsServing ∨ s.devState = dsDraining) (h0 : v.getLsbD 0 = true) :
    s.reloadWritten v = (s.reloadShown v).endReload rrState := by
  obtain ⟨c, hc⟩ := Option.ne_none_iff_exists'.1 hc
  rw [State.reloadWritten_open hgo hv hst, hc]
  refine if_pos ?_
  rw [reloadTodo_contains_one, h0]
  simpa using hd

theorem State.reloadWritten_runs {c : Nat} (hc : ((s.reloadShown v).checkSelected (bitsOf v 9 8)).selectCopy (bitsOf v 9 8) = some c)
    (hd : s.devState = dsServing ∨ s.devState = dsDraining → v.getLsbD 0 = false) :
    s.reloadWritten v = s.reloadFrom ((s.reloadShown v).checkSelected (bitsOf v 9 8)) v c := by
  rw [State.reloadWritten_open hgo hv hst, hc]
  refine if_neg ?_
  rw [reloadTodo_contains_one, Bool.and_eq_true, Bool.or_eq_true, decide_eq_true_eq, decide_eq_true_eq]
  rintro ⟨h0, h⟩
  exact absurd (h0.symm.trans (hd h)) (by decide)

end

/-- A GO where no reload may run, whatever it selects. -/
theorem exec_reload_state {s : State} {w : Agent} {v : Word} (ha : Accepts s w blkGlb) (hgo : s.fld F.GLB_CFG_RELOAD_GO = 0)
    (hv : v.getLsbD 7 = true) (hh : s.devState ≠ dsHeld) (hs : s.inService = false) :
    exec (.reload w v) s = .next (((if bitsOf v 9 8 = 3 then s.closeLatch w blkGlb else
      (s.closeLatch w blkGlb).setFld F.GLB_CFG_RELOAD_COPY (bitsOf v 9 8)).setFld F.GLB_CFG_RELOAD_SECTIONS (bitsOf v 6 0)).endReload rrState) :=
  congrArg Host.Outcome.next ((State.leased_gate_of_accepts _ ha).trans
    ((if_neg (State.reloadWritten_asks (s := s.closeLatch w blkGlb) hgo hv)).trans (if_pos ⟨hh, hs⟩)))

theorem State.endReload_fields (s : State) {n : Nat} (hn : n < 16) :
    (s.endReload n).fld F.GLB_CFG_STATUS_RELOAD_RESULT = n ∧ (s.endReload n).fld F.GLB_CFG_RELOAD_GO = 0 ∧ (s.endReload n).boot.reload = none := by
  unfold State.endReload
  refine ⟨?_, ?_, rfl⟩
  · exact (State.fld_setFld_same _ F.GLB_CFG_STATUS_RELOAD_RESULT _ (by decide)).trans (Nat.mod_eq_of_lt hn)
  · exact (State.fld_setFld_ne (f := F.GLB_CFG_STATUS_RELOAD_RESULT) _ _ (by decide)).trans (State.fld_setFld_same _ F.GLB_CFG_RELOAD_GO 0 (by decide))

theorem exec_reloadMemoryApply {s : State} {x : Bytes} (hx : s.conf.memDue = some x) (hd : s.disp.steps = []) (hs : s.inService = true) :
    exec .reloadMemoryApply s = .next ((({ s with conf := { s.conf with memDue := none } } : State).reloadMemory x).goOnReload) := by
  show Host.Outcome.next s.doReloadMemoryApply = _
  unfold State.doReloadMemoryApply
  split
  · next y hy =>
    obtain rfl : y = x := Option.some.inj (hy.symm.trans hx)
    exact congrArg Host.Outcome.next (if_pos ⟨hd, hs⟩)
  · next hy => exact absurd (hx.symm.trans hy) nofun

theorem State.goOnReload_of_some {s : State} {r : Reload} (h : s.boot.reload = some r) :
    s.goOnReload = State.runReload 8 s (s.copyAt r.copy) { r with todo := r.todo.tail } := by
  unfold State.goOnReload
  rw [h]

/-! ## GLB_DEV_CMD (R619, R620) -/

theorem State.refuseCmd_fields (s : State) : s.refuseCmd.fld F.GLB_DEV_CMD_REFUSED = 1 ∧ RegsBut [F.GLB_DEV_CMD_REFUSED.reg] s s.refuseCmd :=
  ⟨State.fld_setFld_same s F.GLB_DEV_CMD_REFUSED 1 (by decide),
    (RegsBut.refl _ s).setFld (f := F.GLB_DEV_CMD_REFUSED) 1 (List.mem_singleton_self _)⟩

section
variable {s : State} {w : Agent} (ha : Accepts s w blkGlb)
include ha

theorem exec_drainCommand : exec (.drainCommand w) s = .next (if s.devState = dsServing then
    (s.closeLatch w blkGlb).setDev (originOf w) dsDraining else (s.closeLatch w blkGlb).refuseCmd) :=
  congrArg Host.Outcome.next (State.leased_gate_of_accepts _ ha)

theorem exec_resumeCommand : exec (.resumeCommand w) s = .next (if s.devState = dsDraining then
    (s.closeLatch w blkGlb).setDev (originOf w) dsServing else (s.closeLatch w blkGlb).refuseCmd) :=
  congrArg Host.Outcome.next (State.leased_gate_of_accepts _ ha)

theorem exec_recover (hsafe : s.safe = none) : exec (.recover w) s = .next
    (if s.devState = dsConfiguring ∨ s.devState = dsHeld ∨ s.inService = true then
      ((s.closeLatch w blkGlb).setFld F.GLB_DEV_CMD_RECOVER 1).startRecovery (if w = .host then hvRecover else hvController) false
    else (s.closeLatch w blkGlb).refuseCmd) := by
  have hrec (t : State) (hlease : t = s) : t.doRecoverGraft w = t.doRecover w := if_neg (by rw [hlease, hsafe]; simp)
  have hclosed : (s.closeLatch w blkGlb).safe = none := hsafe
  show Host.Outcome.next (s.leased w fun s => s.doRecoverGraft w) = _
  rw [State.leased_of_holds _ (.inr ha.2), hrec s rfl]
  refine congrArg Host.Outcome.next ((State.gate_open _ ha.1).trans ?_)
  rw [hclosed]
  rfl

end

end Sys2Proof.Machine
end

section
/-! The statement of section reloads and device commands. -/

namespace Sys2Proof.Machine

open Sys2Proof.Safety

/-- Settles O38: an accepted write of GLB_CFG_RELOAD stores its fields, and then its conditions decide in the order of R611. -/
theorem reloadAndDeviceCommandsComplete : Obligations.ReloadAndDeviceCommandsComplete := by
  refine ⟨fun s w v ha h hsel => ?_, fun s w v ha hgo hv hh hs => ?_, ?_, ?_, fun s x => exec_reloadMemoryApply,
    fun u r => State.goOnReload_of_some, fun s w ha => ⟨fun h => ?_, fun h => ?_, fun h => ?_, fun h => ?_⟩,
    fun s w ha => ⟨fun hsafe h => ?_, fun hsafe h => ?_⟩⟩
  · refine ⟨_, (exec_reload ha hsel).trans (congrArg Host.Outcome.next (State.reloadWritten_stored h)), ?_⟩
    exact State.reloadShown_fields (s.closeLatch w blkGlb) v
  · exact ⟨_, exec_reload_state ha hgo hv hh hs, State.endReload_fields _ (by decide)⟩
  · rintro s w v c ha hgo hv hst hd hsel u rfl hc
    exact (exec_reload ha hsel).trans
      (congrArg Host.Outcome.next (State.reloadWritten_runs (s := s.closeLatch w blkGlb) hgo hv hst hc hd))
  · rintro s w v ha hgo hv hst hsel u rfl
    refine ⟨fun hc => ?_, fun hc hd h0 => ?_⟩
    · exact (exec_reload ha hsel).trans (congrArg Host.Outcome.next (State.reloadWritten_noCopy (s := s.closeLatch w blkGlb) hgo hv hst hc))
    · exact ⟨_, (exec_reload ha hsel).trans (congrArg Host.Outcome.next (State.reloadWritten_identity (s := s.closeLatch w blkGlb) hgo hv hst hc hd h0)),
        State.endReload_fields _ (by decide)⟩
  · exact ⟨_, (exec_drainCommand ha).trans (by rw [if_pos h]), State.devState_setDev _ _ _ (by decide)⟩
  · exact ⟨_, (exec_drainCommand ha).trans (by rw [if_neg h]), State.refuseCmd_fields (s.closeLatch w blkGlb)⟩
  · exact ⟨_, (exec_resumeCommand ha).trans (by rw [if_pos h]), State.devState_setDev _ _ _ (by decide)⟩
  · exact ⟨_, (exec_resumeCommand ha).trans (by rw [if_neg h]), State.refuseCmd_fields (s.closeLatch w blkGlb)⟩
  · exact (exec_recover ha hsafe).trans (by rw [if_pos h])
  · exact ⟨_, (exec_recover ha hsafe).trans (by rw [if_neg h]), State.refuseCmd_fields (s.closeLatch w blkGlb)⟩

end Sys2Proof.Machine
end

section
/-! SUPPORT. Heartbeats, health reports and RELINQUISH of the controllers (R723 to R725, R727, R730). -/

namespace Sys2Proof.Machine

open Sys2Proof.Safety

theorem not_stopped {s : State} {c : Bool} (hf : s.firmwareRuns = true) (hc : bit c = s.activeNum) (hst : s.ctl.stopped = false) :
    ¬ (s.firmwareRuns = false ∨ bit c ≠ s.activeNum ∨ s.ctl.stopped = true) := by
  simp [hf, hc, hst]

/-- The dead-man timer runs anew. -/
def State.beaten (s : State) (k : Nat) : State :=
  { s with ctl := { s.ctl with reported := s.ctl.reported.set k s.now, beatAt := s.now } }

section
variable {s : State} {c : Bool} {e : BitVec 16} (hf : s.firmwareRuns = true)
include hf

theorem exec_controllerHeartbeat (hc : bit c = s.activeNum) (hst : s.ctl.stopped = false) (he : e.toNat = s.epoch) :
    exec (.controllerHeartbeat c e) s = .next ((s.beaten (bit c)).setCtlState (bit c) csActive) :=
  congrArg Host.Outcome.next ((if_neg (not_stopped hf hc hst)).trans (if_pos he))

theorem exec_controllerHeartbeat_other (hc : bit c = s.activeNum) (hst : s.ctl.stopped = false) (he : e.toNat ≠ s.epoch) :
    exec (.controllerHeartbeat c e) s = .next (s.noteReport (bit c)) :=
  congrArg Host.Outcome.next ((if_neg (not_stopped hf hc hst)).trans (if_neg he))

theorem exec_lockstepMismatch : exec .lockstepMismatch s =
    .next (({ s with ctl := { s.ctl with stopped := true } } : State).setFld (F.RAS_CTL_HEALTH_LOCKSTEP_OK.at s.activeNum) 0) :=
  congrArg Host.Outcome.next (if_pos hf)

theorem exec_standbyUnhealthy {cause : Nat} (h1 : 1 ≤ cause) (h3 : cause ≤ 3) (hst : s.ctlState s.standby ≤ csStandby) :
    exec (.standbyUnhealthy cause) s = .next (s.standbyFails cause) :=
  congrArg Host.Outcome.next (if_pos ⟨hf, h1, h3, hst⟩)

theorem exec_relinquish (hc : bit c = s.activeNum) (he : e.toNat = s.epoch) : exec (.relinquish c e) s =
    .next (if s.ctlState s.standby = csStandby then s.handover (originOf (ctlAgent (bit c)))
      else { s with ctl := { s.ctl with relinquished := true, stopped := true } }) :=
  congrArg Host.Outcome.next ((if_neg (by rw [hf]; decide)).trans (if_pos ⟨hc, he⟩))

theorem exec_relinquish_old (hc : bit c ≠ s.activeNum) (hd : s.fld F.RAS_LEASE_DUAL_ACT = 1) (he : (e.toNat + 1) % 65536 = s.epoch) :
    exec (.relinquish c e) s = .next s.closeDual :=
  congrArg Host.Outcome.next ((if_neg (by rw [hf]; decide)).trans ((if_neg fun h => hc h.1).trans (if_pos ⟨hc, hd, he⟩)))

end

theorem exec_dualActClear {s : State} (hd : s.fld F.RAS_LEASE_DUAL_ACT = 1) (ht : ∀ n, s.ctl.dualAt = some n → n + 50000 ≤ s.now) :
    exec .dualActClear s = .next s.closeDual := by
  refine congrArg Host.Outcome.next (if_pos ⟨hd, ?_⟩)
  exact (Option.all_eq_true _ _).2 fun n hn => decide_eq_true (ht n hn)

/-! ## The standby's findings (R723, R724) -/

/-- The report of a standby, in the controller journal. -/
def State.reportJournalled (s : State) (k n : Nat) : State :=
  (s.noteReport k).frameWrite .ctlJournal s.epoch fun s => { s with cold := { s.cold with journal := { s.cold.journal with
    health := mset (fun _ => 0) s.cold.journal.health k n } } }

theorem State.regs_reportJournalled (s : State) (k n : Nat) : (s.reportJournalled k n).regs = s.regs := by
  unfold State.reportJournalled State.frameWrite
  split
  · rfl
  · split <;> rfl

/-- Every test of R724 passed. -/
def State.testsPassed (s : State) (k : Nat) : State :=
  ((s.setFld (F.RAS_CTL_HEALTH_LOCKSTEP_OK.at k) 1).setFld (F.RAS_CTL_HEALTH_SCRUB_OK.at k) 1).setFld (F.RAS_CTL_HEALTH_JOURNAL_OK.at k) 1

theorem State.ctlState_testsPassed (s : State) (k : Nat) : (s.testsPassed k).ctlState k = s.ctlState k :=
  (State.fld_setFld_apart (f := F.RAS_CTL_HEALTH_JOURNAL_OK.at k) _ _ (.inl (by decide : 3 < 6))).trans
    ((State.fld_setFld_apart (f := F.RAS_CTL_HEALTH_SCRUB_OK.at k) _ _ (.inl (by decide : 3 < 5))).trans
      (State.fld_setFld_apart (f := F.RAS_CTL_HEALTH_LOCKSTEP_OK.at k) _ _ (.inl (by decide : 3 < 4))))

theorem State.testsPassed_fields (s : State) (k : Nat) : (s.testsPassed k).fld (F.RAS_CTL_HEALTH_LOCKSTEP_OK.at k) = 1 ∧
    (s.testsPassed k).fld (F.RAS_CTL_HEALTH_SCRUB_OK.at k) = 1 ∧ (s.testsPassed k).fld (F.RAS_CTL_HEALTH_JOURNAL_OK.at k) = 1 ∧
      RegsBut [(F.RAS_CTL_HEALTH_STATE.at k).reg] s (s.testsPassed k) := by
  unfold State.testsPassed
  refine ⟨?_, ?_, State.fld_setFld_same _ (F.RAS_CTL_HEALTH_JOURNAL_OK.at k) 1 (by decide : 6 < 64),
    (((RegsBut.refl _ s).setFld (f := F.RAS_CTL_HEALTH_LOCKSTEP_OK.at k) 1 (List.mem_singleton_self _)).setFld
      (f := F.RAS_CTL_HEALTH_SCRUB_OK.at k) 1 (List.mem_singleton_self _)).setFld
      (f := F.RAS_CTL_HEALTH_JOURNAL_OK.at k) 1 (List.mem_singleton_self _)⟩
  · exact (State.fld_setFld_apart (f := F.RAS_CTL_HEALTH_JOURNAL_OK.at k) _ _ (.inl (by decide : 4 < 6))).trans
      ((State.fld_setFld_apart (f := F.RAS_CTL_HEALTH_SCRUB_OK.at k) _ _ (.inl (by decide : 4 < 5))).trans
        (State.fld_setFld_same s (F.RAS_CTL_HEALTH_LOCKSTEP_OK.at k) 1 (by decide : 4 < 64)))
  · exact (State.fld_setFld_apart (f := F.RAS_CTL_HEALTH_JOURNAL_OK.at k) _ _ (.inl (by decide : 5 < 6))).trans
      (State.fld_setFld_same _ (F.RAS_CTL_HEALTH_SCRUB_OK.at k) 1 (by decide : 5 < 64))

/-- The state of a controller is no test of it. -/
theorem State.test_setCtlState (s : State) (k n : Nat) {f : Fld} (h : 3 < f.lo) : (s.setCtlState k n).fld f = s.fld f :=
  s.fld_setFld_apart (f := F.RAS_CTL_HEALTH_STATE.at k) n (.inr h)

theorem exec_healthReport_passed {s : State} {c : Bool} (hf : s.firmwareRuns = true) (hc : bit c = s.standby)
    (hst : s.ctlState s.standby ≤ csStarting) : ∃ n, exec (.healthReport c true true true) s =
      .next (((s.reportJournalled (bit c) n).testsPassed (bit c)).setCtlState (bit c) csStandby) := by
  refine ⟨1 + bit true + 2 * bit true + 4 * bit true, ?_⟩
  refine congrArg Host.Outcome.next ((if_neg (by rw [hf, hc]; simp)).trans ((if_pos rfl).trans (if_pos ?_)))
  refine Nat.le_trans (Nat.le_of_eq ((State.ctlState_testsPassed _ _).trans ?_)) (hc ▸ hst)
  exact State.fld_of_regs (s.regs_reportJournalled _ _) _

/-! ## A failure of the standby (R724, R725) -/

/-- The times of the standby's failures. -/
def State.withFails (s : State) (ts : List Nat) : State := { s with ctl := { s.ctl with fails := ts } }

theorem State.regs_withFails (s : State) (ts : List Nat) : (s.withFails ts).regs = s.regs := rfl

/-- A failure in the register of the standby. -/
def State.failShown (s : State) (cause : Nat) : State :=
  ((s.failBit s.standby cause).addSat (F.RAS_CTL_HEALTH_FAILS.at s.standby) 1).setCtlState s.standby
    (if (recent s.now nsHour s.ctl.fails).isEmpty then csRestarting else csUnhealthy)

theorem State.standbyFails_eq (s : State) (cause : Nat) : s.standbyFails cause =
    ((s.failShown cause).withFails (recent s.now nsHour s.ctl.fails ++ [s.now])).raiseEvent 0x14 s.standby cause := rfl

/-- The event leaves the register of the standby. -/
theorem State.fld_standbyFails (s : State) (cause : Nat) {f : Fld} (hf : f.reg = (F.RAS_CTL_HEALTH_STATE.at s.standby).reg) :
    (s.standbyFails cause).fld f = (s.failShown cause).fld f := by
  have hbelow : f.reg < F.RAS_SELFTEST_GO.reg := by
    have := s.standby_lt
    rw [hf]
    show 0x900008 + 8 * s.standby < 0x900058
    omega
  rw [State.standbyFails_eq]
  exact (State.fld_raiseEvent_below _ _ _ _ hbelow).trans (State.fld_of_regs (State.regs_withFails _ _) f)

theorem State.ctlState_standbyFails (s : State) (cause : Nat) : (s.standbyFails cause).ctlState s.standby =
    if (recent s.now nsHour s.ctl.fails).isEmpty then csRestarting else csUnhealthy := by
  have hlt : (if (recent s.now nsHour s.ctl.fails).isEmpty then csRestarting else csUnhealthy) < 16 := by split <;> decide
  exact (s.fld_standbyFails cause rfl).trans (State.ctlState_setCtlState_same _ s.standby hlt)

theorem State.fails_standbyFails (s : State) (cause : Nat) :
    (s.standbyFails cause).ctl.fails = recent s.now nsHour s.ctl.fails ++ [s.now] := by
  rw [State.standbyFails_eq]
  exact (State.raiseEvent_frame (·.ctl.fails) (fun _ _ _ => rfl) (fun _ _ => rfl) (fun _ _ => rfl) _ _ _ _).trans rfl

/-- A test's bit is what the failure leaves of it. -/
theorem State.test_standbyFails (s : State) (cause : Nat) {f : Fld} (hf : f.reg = (F.RAS_CTL_HEALTH_STATE.at s.standby).reg)
    (hlo : 3 < f.lo) (hhi : f.hi < 40) : (s.standbyFails cause).fld f = (s.failBit s.standby cause).fld f := by
  refine (s.fld_standbyFails cause hf).trans ((State.test_setCtlState _ s.standby _ hlo).trans ?_)
  exact State.fld_addSat_other (f := F.RAS_CTL_HEALTH_FAILS.at s.standby) _ _ (.inr (.inl hhi))

theorem State.failBit_fields (s : State) (k : Nat) : (s.failBit k 1).fld (F.RAS_CTL_HEALTH_LOCKSTEP_OK.at k) = 0 ∧
    (s.failBit k 2).fld (F.RAS_CTL_HEALTH_SCRUB_OK.at k) = 0 ∧ (s.failBit k 3).fld (F.RAS_CTL_HEALTH_JOURNAL_OK.at k) = 0 :=
  ⟨State.fld_setFld_same s (F.RAS_CTL_HEALTH_LOCKSTEP_OK.at k) 0 (by decide : 4 < 64),
    State.fld_setFld_same s (F.RAS_CTL_HEALTH_SCRUB_OK.at k) 0 (by decide : 5 < 64),
    State.fld_setFld_same s (F.RAS_CTL_HEALTH_JOURNAL_OK.at k) 0 (by decide : 6 < 64)⟩

end Sys2Proof.Machine
end

section
/-! The statement of the controllers. -/

namespace Sys2Proof.Machine

open Sys2Proof.Safety

/-- Settles O49: each row by the fields that it writes in the register of one controller. That a first failure of the standby shows
RESTARTING at once is log entry 46. -/
theorem controllersComplete : Obligations.ControllersComplete := by
  refine ⟨fun s c e hf hc hst => ⟨fun he => ?_, fun he => ?_⟩, fun s c hf hc hst => ?_, fun s cause hf h1 h3 hst => ?_, fun s hf => ?_,
    fun s hd ht => ?_, fun s c e hf hc he => ⟨fun hst => ?_, fun hst => ?_⟩, fun s c e hf hc hd he => exec_relinquish_old hf hc hd he⟩
  · exact ⟨_, exec_controllerHeartbeat hf hc hst he, rfl, State.ctlState_setCtlState_same _ _ (by decide),
      (RegsBut.refl _ s).setFld (t := s.beaten (bit c)) (f := F.RAS_CTL_HEALTH_STATE.at (bit c)) _ (List.mem_singleton_self _)⟩
  · exact ⟨_, exec_controllerHeartbeat_other hf hc hst he, rfl, rfl⟩
  · obtain ⟨n, hn⟩ := exec_healthReport_passed hf hc hst
    obtain ⟨hlock, hscrub, hjournal, hregs⟩ := (s.reportJournalled (bit c) n).testsPassed_fields (bit c)
    have htest (f : Fld) (h : 3 < f.lo) := ((s.reportJournalled (bit c) n).testsPassed (bit c)).test_setCtlState (bit c) csStandby (f := f) h
    refine ⟨_, hn, State.ctlState_setCtlState_same _ _ (by decide), (htest _ (by decide : 3 < 4)).trans hlock,
      (htest _ (by decide : 3 < 5)).trans hscrub, (htest _ (by decide : 3 < 6)).trans hjournal, ?_⟩
    exact (((RegsBut.refl _ s).of_regs (s.regs_reportJournalled _ n)).trans hregs).setFld (f := F.RAS_CTL_HEALTH_STATE.at (bit c)) _
      (List.mem_singleton_self _)
  · obtain ⟨hlock, hscrub, hjournal⟩ := s.failBit_fields s.standby
    refine ⟨_, exec_standbyUnhealthy hf h1 h3 hst, s.ctlState_standbyFails cause, s.fails_standbyFails cause, ?_, ?_, ?_⟩ <;> rintro rfl
    · exact (s.test_standbyFails 1 (f := F.RAS_CTL_HEALTH_LOCKSTEP_OK.at s.standby) rfl (by decide : 3 < 4) (by decide : 4 < 40)).trans hlock
    · exact (s.test_standbyFails 2 (f := F.RAS_CTL_HEALTH_SCRUB_OK.at s.standby) rfl (by decide : 3 < 5) (by decide : 5 < 40)).trans hscrub
    · exact (s.test_standbyFails 3 (f := F.RAS_CTL_HEALTH_JOURNAL_OK.at s.standby) rfl (by decide : 3 < 6) (by decide : 6 < 40)).trans hjournal
  · exact ⟨_, exec_lockstepMismatch hf, rfl, State.fld_setFld_same _ (F.RAS_CTL_HEALTH_LOCKSTEP_OK.at s.activeNum) 0 (by decide : 4 < 64),
      (RegsBut.refl _ s).setFld (t := { s with ctl := { s.ctl with stopped := true } }) (f := F.RAS_CTL_HEALTH_LOCKSTEP_OK.at s.activeNum)
        _ (List.mem_singleton_self _)⟩
  · exact ⟨_, exec_dualActClear hd ht, State.fld_setFld_same _ F.RAS_LEASE_DUAL_ACT 0 (by decide), rfl,
      (RegsBut.refl _ s).setFld (t := { s with ctl := { s.ctl with dualAt := none } }) (f := F.RAS_LEASE_DUAL_ACT) _
        (List.mem_singleton_self _)⟩
  · exact (exec_relinquish hf hc he).trans (by rw [if_pos hst])
  · exact ⟨{ s with ctl := { s.ctl with relinquished := true, stopped := true } },
      (exec_relinquish hf hc he).trans (congrArg Host.Outcome.next (if_neg hst)), rfl, rfl, rfl⟩

end Sys2Proof.Machine
end

section
/-! SUPPORT. The update path: its start and its end, installs and their checks (R760, R761, R792 to R795, R835). -/

namespace Sys2Proof.Machine

open Sys2Proof.Safety

/-! ## A GO of FWU_CTL (R792, R835) -/

theorem State.startFwu_of_accepts {s : State} {w : Agent} {op t : Nat} (f : State → State) (ha : Accepts s w blkFwu) :
    s.startFwu w op t f = if s.fwuBusy && (decide (op = 1) || decide (op = 4)) then (fwuStarted s w op t).endFwu fwState
      else f (fwuStarted s w op t) :=
  State.gate_open _ ha.1

/-- What an OP does that no other one in progress keeps out. -/
theorem State.leased_startFwu {s : State} {w : Agent} {op t : Nat} (f : State → State) (ha : Accepts s w blkFwu)
    (h : (s.fwuBusy && (decide (op = 1) || decide (op = 4))) = false) :
    s.leased w (fun s => s.startFwu w op t f) = f (fwuStarted s w op t) :=
  (State.leased_of_holds _ (.inr ha.2)).trans ((State.startFwu_of_accepts f ha).trans (if_neg (by rw [h]; decide)))

section
variable (s : State) (w : Agent) (op t : Nat)

theorem State.fld_fwuStarted {f : Fld} (h : f.reg ≠ F.FWU_CTL_OP.reg ∨ 4 < f.lo ∧ f.hi < 8) : (fwuStarted s w op t).fld f = s.fld f := by
  have hother {u : State} {g : Fld} (n : Nat) (hg : g.reg = F.FWU_CTL_OP.reg ∧ (g.hi ≤ 4 ∨ 8 ≤ g.lo)) : (u.setFld g n).fld f = u.fld f :=
    u.fld_setFld_other n (h.imp (fun h => by rw [hg.1]; exact h) fun h => by omega)
  unfold fwuStarted
  exact (hother _ (by decide)).trans ((hother _ (by decide)).trans ((hother _ (by decide)).trans rfl))

theorem State.fwuSource_fwuStarted : (fwuStarted s w op t).fwuSource = s.fwuSource :=
  congrArg (64 * ·) (s.fld_fwuStarted w op t (f := F.FWU_SRC_OFFSET) (.inl (by decide)))

end

/-! ## The end of an operation (R793, R794) -/

section
variable (s : State) (res : Nat)

theorem State.endFwu_eq : ∃ n g, s.endFwu res =
    ((s.setFld F.FWU_STATUS_RESULT res).setFld F.FWU_STATUS_STATE n).setFld F.FWU_CTL_GO g := ⟨_, _, rfl⟩

theorem State.result_endFwu {res : Nat} (h : res < 256) : (s.endFwu res).fld F.FWU_STATUS_RESULT = res := by
  obtain ⟨n, g, he⟩ := s.endFwu_eq res
  rw [he, State.fld_setFld_ne (f := F.FWU_CTL_GO) _ _ (by decide), State.fld_setFld_apart (f := F.FWU_STATUS_STATE) _ _ (by decide)]
  exact (State.fld_setFld_same s F.FWU_STATUS_RESULT res (by decide)).trans (Nat.mod_eq_of_lt h)

/-- But for STATE, RESULT and GO. -/
theorem State.fld_endFwu {f : Fld} (h : f.reg ≠ F.FWU_CTL_GO.reg) (h' : f.reg ≠ F.FWU_STATUS_STATE.reg ∨ 3 < f.lo ∧ (f.hi < 24 ∨ 31 < f.lo)) :
    (s.endFwu res).fld f = s.fld f := by
  obtain ⟨n, g, he⟩ := s.endFwu_eq res
  rw [he, State.fld_setFld_ne (f := F.FWU_CTL_GO) _ _ h]
  exact (State.fld_setFld_other (f := F.FWU_STATUS_STATE) _ _ (h'.imp_right fun h => .inr h.1)).trans
    (State.fld_setFld_other (f := F.FWU_STATUS_RESULT) _ _ (h'.imp_right fun h => h.2))

end

/-! ## Installs (R760 to R764) -/

theorem exec_install_busy {s : State} {w : Agent} (k : Nat) (ha : Accepts s w blkFwu) (hb : s.fwuBusy = true) :
    exec (.install w k) s = .next ((fwuStarted s w 1 k).endFwu fwState) :=
  congrArg Host.Outcome.next ((State.leased_of_holds _ (.inr ha.2)).trans
    ((State.startFwu_of_accepts _ ha).trans (if_pos (by rw [hb]; decide))))

/-- An install opened, its payload in the slot. -/
def State.installOpened (s : State) (w : Agent) (k : Nat) (h b : Bytes) : State :=
  ({ s.flashWrite (slotPayload k) b with
    firm := { (s.flashWrite (slotPayload k) b).firm with
      install := some { slot := k, header := h, origin := originOf w, got := b.length } } } : State).setFld F.FWU_STATUS_STATE fwStWriting

/-- An install with its payload read, or the failure to read it. -/
def State.installRead (w : Agent) (k : Nat) (h : Bytes) : State × Option Bytes → State
  | (s, none) => s.failInstall k fwSource
  | (s, some b) => s.installOpened w k h b

/-- An install with its header read, or the failure to read it. -/
def State.installHeaded (w : Agent) (k : Nat) : State × Option Bytes → State
  | (s, none) => s.failInstall k fwSource
  | (s, some h) =>
    if s.installCheck k h ≠ 0 then s.failInstall k (s.installCheck k h)
    else State.installRead w k h ((s.openSlotWrite k h).takeStaged (s.fwuSource + headerBytes) (payloadBytes h))

theorem State.doInstall_eq (s : State) (w : Agent) (k : Nat) :
    s.doInstall w k = s.startFwu w 1 k fun s => State.installHeaded w k (s.takeStaged s.fwuSource headerBytes) := by
  refine congrArg (s.startFwu w 1 k) (funext fun s => ?_)
  generalize s.takeStaged s.fwuSource headerBytes = r
  obtain ⟨s1, _ | h⟩ := r
  · rfl
  · dsimp only [State.installHeaded]
    generalize (s1.openSlotWrite k h).takeStaged (s1.fwuSource + headerBytes) (payloadBytes h) = r
    obtain ⟨s2, _ | b⟩ := r <;> rfl

section
variable {s : State} {w : Agent} {k : Nat} (ha : Accepts s w blkFwu) (hb : s.fwuBusy = false) {r : State × Option Bytes}
  (hr : (fwuStarted s w 1 k).takeStaged s.fwuSource headerBytes = r)
include ha hb hr

theorem exec_install_headed : exec (.install w k) s = .next (State.installHeaded w k r) := by
  have hs : s.leased w (fun s => s.doInstall w k) = _ :=
    (congrArg (s.leased w) (funext fun s => s.doInstall_eq w k)).trans (State.leased_startFwu _ ha (by rw [hb]; rfl))
  rw [s.fwuSource_fwuStarted w 1 k, hr] at hs
  exact congrArg Host.Outcome.next hs

end

theorem State.installHeaded_fails {u : State} {h : Bytes} (w : Agent) {k : Nat} (hc : u.installCheck k h ≠ 0) :
    State.installHeaded w k (u, some h) = u.failInstall k (u.installCheck k h) := if_pos hc

theorem State.installHeaded_opens {u v : State} {h b : Bytes} (w : Agent) {k : Nat} (hc : u.installCheck k h = 0)
    (hv : (u.openSlotWrite k h).takeStaged (u.fwuSource + headerBytes) (payloadBytes h) = (v, some b)) :
    State.installHeaded w k (u, some h) = v.installOpened w k h b :=
  (if_neg (not_not_intro hc)).trans (congrArg (State.installRead w k h) hv)

theorem exec_installDone {s : State} {i : Install} (flashOk : Bool) (hi : s.firm.install = some i) (hp : i.paused = false)
    (hg : payloadBytes i.header ≤ i.got) : exec (.installDone flashOk) s = .next (if flashOk then s.finishInstall i
      else (s.flashErase (slotSector i.slot) 4096).failInstall i.slot fwFlash) := by
  show Host.Outcome.next (s.doInstallDone flashOk) = _
  unfold State.doInstallDone
  rw [hi]
  exact congrArg Host.Outcome.next (if_neg (by simp [hp, hg]))

theorem exec_installDone_copy {s : State} {d : Seed} (ok : Bool) (ho : s.off = false) (hi : s.firm.install = none)
    (hd : s.firm.seed = some d) (hst : d.staged = true) : exec (.installDone ok) s = .next (s.endCopy d ok) := by
  show Host.Outcome.next (s.doInstallDone ok) = _
  unfold State.doInstallDone
  rw [hi, hd]
  exact congrArg Host.Outcome.next (if_pos (by rw [hst, ho]; rfl))

end Sys2Proof.Machine
end

section
/-! The statement of installs. -/

namespace Sys2Proof.Machine

open Sys2Proof.Safety

/-- Settles O51: the checks of INSTALL follow one another, and its last event ends it; a copy from the staging window ends by
INSTALL_DONE too (log entry 72). -/
theorem installsComplete : Obligations.InstallsComplete := by
  refine ⟨fun s w k ha hb => exec_install_busy k ha hb, fun s u w k ha hb ht => exec_install_headed ha hb ht,
    fun s u w k h ha hb ht hc => (exec_install_headed ha hb ht).trans (congrArg Host.Outcome.next (State.installHeaded_fails w hc)), fun s u v w k h b ha hb ht hv => ?_,
    fun s i hi hp hg => ⟨fun hok => ?_, fun hbad => ?_, ?_⟩, fun s d ok ho hi hd hst => exec_installDone_copy ok ho hi hd hst⟩
  · by_cases hc : u.installCheck k h = 0
    · refine ⟨_, (exec_install_headed ha hb ht).trans (congrArg Host.Outcome.next (State.installHeaded_opens w hc hv)), (if_pos hc).mpr ?_⟩
      exact ⟨rfl, rfl, State.fld_setFld_same _ F.FWU_STATUS_STATE _ (by decide)⟩
    · exact ⟨_, (exec_install_headed ha hb ht).trans (congrArg Host.Outcome.next (State.installHeaded_fails w hc)), (if_neg hc).mpr rfl⟩
  · exact (exec_installDone true hi hp hg).trans (congrArg Host.Outcome.next ((if_pos rfl).trans (if_pos hok)))
  · exact (exec_installDone true hi hp hg).trans (congrArg Host.Outcome.next ((if_pos rfl).trans (if_neg (by rw [hbad]; decide))))
  · exact (exec_installDone false hi hp hg).trans (congrArg Host.Outcome.next (if_neg Bool.false_ne_true))

end Sys2Proof.Machine
end

section
/-! SUPPORT. Grafts: their start, the handover, the microcode, the take, and the fallback (R770 to R775). -/

namespace Sys2Proof.Machine

open Sys2Proof.Safety

/-! ## The lease handed over, the former active restarting (R730, R771, R774) -/

/-- The standby has the lease, and the former active controller restarts. -/
def State.handedOver (s : State) (o : Nat) : State := (s.handover o).setCtlState s.activeNum csRestarting

section
variable (s : State) (o : Nat)

theorem State.fld_handedOver {f : Fld} (hf : f.reg ≠ 0x900008 ∧ f.reg ≠ 0x900010) :
    (s.handedOver o).fld f = (s.passLease o).fld f :=
  (State.fld_setCtlState _ _ s.activeNum_lt hf).trans (State.fld_setCtlState _ _ s.activeNum_lt hf)

theorem State.activeNum_handedOver : (s.handedOver o).activeNum = s.standby :=
  (s.fld_handedOver o (by decide)).trans (s.activeNum_passLease o)

theorem State.epoch_handedOver : (s.handedOver o).epoch = (s.epoch + 1) % 65536 :=
  (s.fld_handedOver o (by decide)).trans (s.epoch_passLease o)

theorem State.ctlState_handedOver : (s.handedOver o).ctlState s.activeNum = csRestarting :=
  State.ctlState_setCtlState_same _ _ (by decide)

theorem State.firm_setCtlState (k n : Nat) : (s.setCtlState k n).firm = s.firm := rfl

theorem State.firm_passLease : (s.passLease o).firm = s.firm := by
  refine Eq.trans (b := ((((s.setFld F.RAS_LEASE_EPOCH ((s.epoch + 1) % 65536)).setFld F.RAS_LEASE_ACTIVE s.standby).setFld
    F.GLB_STATE_ACTIVE_CTL s.standby).logChange o 0x0E s.standby (logValue s.epoch) (logValue ((s.epoch + 1) % 65536))).firm) rfl ?_
  exact State.logChange_frame State.firm (fun _ _ _ => rfl) (fun _ _ => rfl) _ _ _ _ _ _

theorem State.firm_handedOver : (s.handedOver o).firm = s.firm :=
  (State.firm_setCtlState _ _ _).trans ((State.firm_setCtlState _ _ _).trans (s.firm_passLease o))

end

theorem State.firm_setFld (s : State) (f : Fld) (n : Nat) : (s.setFld f n).firm = s.firm := rfl

theorem State.regs_setRuns (s : State) (c k : Nat) : (s.setRuns c k).regs = s.regs := rfl

theorem State.runs_setRuns_same {s : State} {c : Nat} (k : Nat) (h : c < s.firm.runs.length) : (s.setRuns c k).runs c = k := by
  simp [State.runs, State.setRuns, List.getD_eq_getElem?_getD, h]

theorem State.runs_setRuns_ne (s : State) {c d : Nat} (k : Nat) (h : d ≠ c) : (s.setRuns c k).runs d = s.runs d := by
  simp [State.runs, State.setRuns, List.getD_eq_getElem?_getD, Ne.symm h]

/-- The slot that the active controller runs is a field of FWU_STATUS. -/
theorem State.fld_showRunning (s : State) {f : Fld} (h : f.reg ≠ F.FWU_STATUS_RUNNING.reg) : s.showRunning.fld f = s.fld f :=
  State.fld_setFld_ne (f := F.FWU_STATUS_RUNNING) s _ h

/-! ## A graft begun and handed over (R770, R771) -/

theorem exec_graft {s : State} {w : Agent} (k : Nat) (ha : Accepts s w blkFwu) : exec (.graft w k) s = .next
    (if (fwuStarted s w 2 k).graftCheck k = 0 then (fwuStarted s w 2 k).startGraft (originOf w) k
      else (fwuStarted s w 2 k).endFwu ((fwuStarted s w 2 k).graftCheck k)) :=
  congrArg Host.Outcome.next (State.leased_startFwu _ ha (Bool.and_false _))

/-- Event 3 of R771: the standby runs the grafted slot and holds the lease. -/
def State.graftHanded (s : State) (g : Graft) : State :=
  (((s.setRuns s.standby g.slot).handedOver (originOf (ctlAgent s.activeNum))).showRunning).setFld F.FWU_STATUS_STAGE fgPeer

section
variable {s : State} {g : Graft} (hg : s.firm.graft = some g)
include hg

theorem exec_graftHandover (hf : s.firmwareRuns = true) (hb : g.back = none) (hst : s.fwStage = fgStandby) :
    exec .graftHandover s = .next (if s.slotPasses g.slot = true then s.graftHanded g else s) := by
  show Host.Outcome.next s.doGraftHandover = _
  unfold State.doGraftHandover
  rw [hg]
  refine congrArg Host.Outcome.next ?_
  by_cases hp : s.slotPasses g.slot = true
  · exact (if_pos ⟨hf, hb, hst, hp⟩).trans (if_pos hp).symm
  · exact (if_neg fun h => hp h.2.2.2).trans (if_neg hp).symm

theorem exec_graftPeerHealthy (hf : s.firmwareRuns = true) (hb : g.back = none) (hst : s.fwStage = fgPeer) :
    exec .graftPeerHealthy s = .next ((((((s.setRuns s.standby g.slot).setCtlState s.standby csStandby).noteReport s.standby).setFld
      F.FWU_STATUS_STAGE fgMicrocode)).microcodeDone g) := by
  show Host.Outcome.next s.doGraftPeerHealthy = _
  unfold State.doGraftPeerHealthy
  rw [hg]
  exact congrArg Host.Outcome.next (if_pos ⟨hf, hb, hst⟩)

theorem exec_microcodeLoad {g1 : Graft} {p : Nat} (hst : s.fwStage = fgMicrocode ∨ (s.fwStage = fgBack ∧ s.slotState g.slot = srRejected))
    (hp : (s.unloaded g).head? = some p) (hi : s.seqState p = sqIdle) (hl : (s.clu p).lead = none)
    (h1 : g1 = { g with loaded := g.loaded ++ [p] }) :
    exec (.microcodeLoad p) s = .next (({ s with firm := { s.firm with
      graft := some g1, ucode := mset (fun _ => 0) s.firm.ucode p (if g.back.isSome then g.prev else g.slot) } } : State).microcodeDone g1) := by
  subst h1
  show Host.Outcome.next (s.doMicrocodeLoad p) = _
  unfold State.doMicrocodeLoad
  rw [hg]
  exact congrArg Host.Outcome.next ((if_neg (not_not_intro hst)).trans (if_pos ⟨hp, hi, hl⟩))

end

section
variable (s : State) (g : Graft)

theorem State.graftHanded_fields (hr : s.firm.runs.length = 2) : (s.graftHanded g).activeNum = s.standby ∧
    (s.graftHanded g).epoch = (s.epoch + 1) % 65536 ∧ (s.graftHanded g).ctlState s.activeNum = csRestarting ∧
      (s.graftHanded g).fld F.FWU_STATUS_STAGE = fgPeer ∧ (s.graftHanded g).runs s.standby = g.slot := by
  have hfld {f : Fld} (h : f.reg < 0xA00010) : (s.graftHanded g).fld f =
      ((s.setRuns s.standby g.slot).handedOver (originOf (ctlAgent s.activeNum))).fld f :=
    (State.fld_setFld_ne (f := F.FWU_STATUS_STAGE) _ _ (Nat.ne_of_lt h)).trans (State.fld_showRunning _ (Nat.ne_of_lt h))
  refine ⟨(hfld (by decide)).trans (State.activeNum_handedOver _ _), (hfld (by decide)).trans (State.epoch_handedOver _ _),
    (hfld ?_).trans (State.ctlState_handedOver _ _), State.fld_setFld_same _ F.FWU_STATUS_STAGE _ (by decide), ?_⟩
  · have := s.activeNum_lt
    show 0x900008 + 8 * s.activeNum < 0xA00010
    omega
  · have hfirm : (s.graftHanded g).firm = (s.setRuns s.standby g.slot).firm := (State.firm_setFld _ _ _).trans
      ((State.firm_setFld _ _ _).trans (State.firm_handedOver _ _))
    rw [State.runs, hfirm]
    exact State.runs_setRuns_same g.slot (by rw [hr]; exact s.standby_lt)

end

/-! ## A graft that falls back (R774, R775) -/

/-- The graft falling back for a cause. -/
def State.fallenBack (s : State) (g : Graft) (cause : Nat) : State :=
  (({ s with firm := { s.firm with graft := some { g with back := some cause, loaded := [] } } } : State).setFld
    F.FWU_STATUS_FALLBACK_CAUSE cause).setFld F.FWU_STATUS_STAGE fgBack

section
variable {s : State} {g : Graft}

theorem State.causeFallback_eq (cause : Nat) (hg : s.firm.graft = some g) (hb : g.back = none) :
    s.causeFallback cause = s.fallenBack g cause := by
  unfold State.causeFallback
  rw [hg]
  exact if_neg (by rw [hb]; decide)

theorem State.fallenBack_fields (s : State) (g : Graft) {cause : Nat} (hc : cause < 16) :
    (s.fallenBack g cause).firm.graft = some { g with back := some cause, loaded := [] } ∧
      (s.fallenBack g cause).fld F.FWU_STATUS_FALLBACK_CAUSE = cause ∧ (s.fallenBack g cause).fld F.FWU_STATUS_STAGE = fgBack := by
  unfold State.fallenBack
  refine ⟨rfl, ?_, State.fld_setFld_same _ F.FWU_STATUS_STAGE _ (by decide)⟩
  rw [State.fld_setFld_apart (f := F.FWU_STATUS_STAGE) _ _ (by decide)]
  exact (State.fld_setFld_same _ F.FWU_STATUS_FALLBACK_CAUSE _ (by decide)).trans (Nat.mod_eq_of_lt hc)

theorem State.fallenBack_regsBut (s : State) (g : Graft) (cause : Nat) : RegsBut [F.FWU_STATUS_STAGE.reg] s (s.fallenBack g cause) :=
  ((RegsBut.refl _ s).setFld (t := { s with firm := { s.firm with graft := some { g with back := some cause, loaded := [] } } })
    (f := F.FWU_STATUS_FALLBACK_CAUSE) _ (List.mem_singleton_self _)).setFld (f := F.FWU_STATUS_STAGE) _ (List.mem_singleton_self _)

theorem exec_graftWindowExpiry (hg : s.firm.graft = some g) (hb : g.back = none) (hd : g.deadline ≤ s.now) :
    exec .graftWindowExpiry s = .next (s.fallenBack g 1) := by
  refine congrArg Host.Outcome.next ((if_pos ?_).trans (State.causeFallback_eq 1 hg hb))
  rw [hg]
  simp [hb, hd]

section
variable {w : Agent} (ha : Accepts s w blkFwu)
include ha

theorem exec_reject : exec (.reject w) s = .next (if s.firm.graft.any fun g => g.back.isNone then
    (fwuStarted s w 3 (s.fld F.FWU_CTL_TARGET)).causeFallback 2 else (fwuStarted s w 3 (s.fld F.FWU_CTL_TARGET)).endFwu fwState) :=
  congrArg Host.Outcome.next ((State.leased_of_holds (fun s => s.doReject w) (.inr ha.2)).trans
    ((State.startFwu_of_accepts _ ha).trans (if_neg (by simp))))

theorem exec_reject_graft (hg : s.firm.graft = some g) (hb : g.back = none) :
    exec (.reject w) s = .next ((fwuStarted s w 3 (s.fld F.FWU_CTL_TARGET)).fallenBack g 2) :=
  (exec_reject ha).trans (congrArg Host.Outcome.next ((if_pos (by rw [hg]; simp [hb])).trans (State.causeFallback_eq 2 hg hb)))

theorem exec_reject_none (hg : s.firm.graft = none) :
    exec (.reject w) s = .next ((fwuStarted s w 3 (s.fld F.FWU_CTL_TARGET)).endFwu fwState) :=
  (exec_reject ha).trans (congrArg Host.Outcome.next (if_neg (by rw [hg]; decide)))

end

end

end Sys2Proof.Machine
end

section
/-! SUPPORT. The ends of a graft: the fallback of the controllers and the take (R773, R774). -/

namespace Sys2Proof.Machine

open Sys2Proof.Safety

/-! ## A record written (R758, R759) -/

section
variable (s : State) (o k st : Nat)

/-- A flash as it stands. -/
def State.withFlash (fl : Store Byte) : State := { s with flash := fl }

theorem State.regs_withFlash (fl : Store Byte) : (s.withFlash fl).regs = s.regs := rfl

/-- The record in its place of the sector, where there is one left. -/
theorem State.writeRecord_eq : ∃ fl, s.writeRecord o k st =
    ((s.withFlash fl).showSlot k).logChange o 0x07 k (s.slotValue k) ((s.withFlash fl).slotValue k) := by
  unfold State.writeRecord
  extract_lets i b t
  obtain ⟨fl, ht⟩ : ∃ fl, t = s.withFlash fl := by
    by_cases hi : i < 64
    · exact ⟨_, if_pos hi⟩
    · exact ⟨s.flash, if_neg hi⟩
  exact ⟨fl, by rw [ht]⟩

theorem State.writeRecord_frame {α : Type} (g : State → α) (hr : ∀ (t : State) a v, g (t.setReg a v) = g t)
    (hl : ∀ (t : State) l, g { t with log := l } = g t) (hf : ∀ (t : State) fl, g { t with flash := fl } = g t) :
    g (s.writeRecord o k st) = g s := by
  obtain ⟨fl, h⟩ := s.writeRecord_eq o k st
  rw [h]
  refine (State.logChange_frame g hr hl _ _ _ _ _ _).trans ?_
  exact (hr _ _ _).trans ((hr _ _ _).trans ((hr _ _ _).trans ((hr _ _ _).trans (hf _ _))))

/-- Below the registers of the slots. -/
theorem State.fld_writeRecord {f : Fld} (h : f.reg < F.FWU_SLOT_STATE.reg) : (s.writeRecord o k st).fld f = s.fld f := by
  have hlog : f.reg ≠ F.LOG_STATUS_LOST.reg := Nat.ne_of_lt (Nat.lt_trans h (by decide))
  have hslot : f.reg ≠ 0xA00020 + 8 * k := Nat.ne_of_lt (Nat.lt_of_lt_of_le h (Nat.le_add_right _ _))
  obtain ⟨fl, hw⟩ := s.writeRecord_eq o k st
  rw [hw, State.fld_logChange _ _ _ _ _ _ hlog]
  refine Eq.trans ?_ (State.fld_of_regs (s.regs_withFlash fl) f)
  generalize s.withFlash fl = u
  exact (State.fld_setFld_ne (f := F.FWU_SLOT_STATE.at k) _ _ hslot).trans ((State.fld_setFld_ne (f := F.FWU_SLOT_SEQ.at k) _ _ hslot).trans
    ((State.fld_setFld_ne (f := F.FWU_SLOT_SVN.at k) _ _ hslot).trans (State.fld_setFld_ne (f := F.FWU_SLOT_VERSION.at k) _ _ hslot)))

end

/-! ## Fallback (R774) -/

/-- The slot's record REJECTED, with the event. -/
def State.slotRejected (s : State) (k cause : Nat) : State := (s.writeRecord orHw k srRejected).raiseEvent 0x34 k cause

theorem State.fld_slotRejected (s : State) (k cause : Nat) {f : Fld} (h : f.reg < F.RAS_SELFTEST_GO.reg) :
    (s.slotRejected k cause).fld f = s.fld f :=
  (State.fld_raiseEvent_below _ _ _ _ h).trans (s.fld_writeRecord orHw k srRejected (Nat.lt_trans h (by decide)))

theorem State.firm_slotRejected (s : State) (k cause : Nat) : (s.slotRejected k cause).firm = s.firm :=
  (State.raiseEvent_frame State.firm (fun _ _ _ => rfl) (fun _ _ => rfl) (fun _ _ => rfl) _ _ _ _).trans
    (State.writeRecord_frame s orHw k srRejected State.firm (fun _ _ _ => rfl) (fun _ _ => rfl) (fun _ _ => rfl))

/-- Both controllers run one slot. -/
def State.bothRun (s : State) (k : Nat) : State := ((s.setRuns 0 k).setRuns 1 k).showRunning

theorem State.bothRun_fields (s : State) (k : Nat) (h : s.firm.runs.length = 2) :
    (s.bothRun k).runs 0 = k ∧ (s.bothRun k).runs 1 = k ∧ (s.bothRun k).fld F.FWU_STATUS_RUNNING = (k + 1) % 4 := by
  have h0 : ((s.setRuns 0 k).setRuns 1 k).runs 0 = k :=
    (State.runs_setRuns_ne _ k (by decide)).trans (State.runs_setRuns_same k (by omega))
  have h1 : ((s.setRuns 0 k).setRuns 1 k).runs 1 = k := State.runs_setRuns_same k (by simp [State.setRuns, h])
  refine ⟨h0, h1, (State.fld_setFld_same _ F.FWU_STATUS_RUNNING _ (by decide)).trans ?_⟩
  rcases Nat.le_one_iff_eq_zero_or_eq_one.1 (Nat.le_of_lt_succ ((s.setRuns 0 k).setRuns 1 k).activeNum_lt) with ha | ha <;> rw [ha]
  · rw [h0]
    rfl
  · rw [h1]
    rfl

theorem State.fld_bothRun (s : State) (k : Nat) {f : Fld} (h : f.reg ≠ F.FWU_STATUS_RUNNING.reg) : (s.bothRun k).fld f = s.fld f :=
  (State.fld_showRunning _ h).trans (State.fld_of_regs ((State.regs_setRuns _ _ _).trans (State.regs_setRuns _ _ _)) f)

/-- The standby takes the lease with the slot in use before, and then both run it. -/
def State.runBack (s : State) (k : Nat) : State := ((s.setRuns s.standby k).handedOver orHw).bothRun k

theorem State.runBack_fields (s : State) (k : Nat) (h : s.firm.runs.length = 2) :
    (s.runBack k).runs 0 = k ∧ (s.runBack k).runs 1 = k ∧ (s.runBack k).fld F.FWU_STATUS_RUNNING = (k + 1) % 4 ∧
      (s.runBack k).activeNum = s.standby ∧ (s.runBack k).ctlState s.activeNum = csRestarting := by
  have hlen : ((s.setRuns s.standby k).handedOver orHw).firm.runs.length = 2 := by
    rw [State.firm_handedOver]
    exact List.length_set.trans h
  obtain ⟨h0, h1, hrun⟩ := ((s.setRuns s.standby k).handedOver orHw).bothRun_fields k hlen
  have hreg : (F.RAS_CTL_HEALTH_STATE.at s.activeNum).reg ≠ F.FWU_STATUS_RUNNING.reg := by
    have := s.activeNum_lt
    show 0x900008 + 8 * s.activeNum ≠ 0xA00010
    omega
  refine ⟨h0, h1, hrun, ?_, (State.fld_bothRun _ k hreg).trans (State.ctlState_handedOver (s.setRuns s.standby k) orHw)⟩
  exact (State.fld_bothRun _ k (f := F.RAS_LEASE_ACTIVE) (by decide)).trans (State.activeNum_handedOver (s.setRuns s.standby k) orHw)

section
variable {s : State} {g : Graft} (hg : s.firm.graft = some g)
include hg

theorem exec_fallback {cause : Nat} (hb : g.back = some cause) (hf : s.firmwareRuns = true) (hst : s.slotState g.slot = srGraft)
    (hr : s.runs s.activeNum = g.slot) (hp : g.slot ≠ g.prev) : exec .fallback s = .next
      ((s.slotRejected g.slot cause).runBack g.prev) := by
  have hact : (s.slotRejected g.slot cause).activeNum = s.activeNum := s.fld_slotRejected _ _ (by decide)
  have hruns : (s.slotRejected g.slot cause).runs (s.slotRejected g.slot cause).activeNum ≠ g.prev := by
    rw [hact, State.runs, s.firm_slotRejected]
    exact fun h => hp (hr.symm.trans h)
  show Host.Outcome.next s.doFallback = _
  unfold State.doFallback
  rw [hg]
  dsimp only
  rw [hb]
  refine congrArg Host.Outcome.next ((if_pos ⟨hf, hst⟩).trans ?_)
  exact congrArg (fun u : State => u.bothRun g.prev) (if_neg hruns)

end

/-! ## The end of a graft (R773, R774) -/

/-- A graft that ends with a RESULT. -/
def State.graftEnded (s : State) (res : Nat) : State :=
  ((({ s with firm := { s.firm with graft := none } } : State).setFld F.GLB_STATE_FW_TRIAL 0).setFld F.FWU_STATUS_STAGE 0).endFwu res

theorem State.graftEnded_fields (s : State) {res : Nat} (h : res < 256) : (s.graftEnded res).firm.graft = none ∧
    (s.graftEnded res).fld F.GLB_STATE_FW_TRIAL = 0 ∧ (s.graftEnded res).fld F.FWU_STATUS_STAGE = 0 ∧
      (s.graftEnded res).fld F.FWU_STATUS_RESULT = res := by
  refine ⟨rfl, ?_, ?_, State.result_endFwu _ h⟩
  · refine (State.fld_endFwu _ res (f := F.GLB_STATE_FW_TRIAL) (by decide) (by decide)).trans ?_
    exact (State.fld_setFld_ne (f := F.FWU_STATUS_STAGE) _ _ (by decide)).trans (State.fld_setFld_same _ F.GLB_STATE_FW_TRIAL 0 (by decide))
  · refine (State.fld_endFwu _ res (f := F.FWU_STATUS_STAGE) (by decide) (by decide)).trans ?_
    exact State.fld_setFld_same _ F.FWU_STATUS_STAGE 0 (by decide)

/-- The previous microcode everywhere, and a controller that restarted healthy. -/
def State.fallbackEnded (s : State) (g : Graft) : State :=
  if ((s.graftEnded fwFallback).loadUcode g.prev).ctlState ((s.graftEnded fwFallback).loadUcode g.prev).standby = csRestarting then
    (((s.graftEnded fwFallback).loadUcode g.prev).setCtlState ((s.graftEnded fwFallback).loadUcode g.prev).standby csStandby).noteReport
      ((s.graftEnded fwFallback).loadUcode g.prev).standby
  else (s.graftEnded fwFallback).loadUcode g.prev

theorem State.fallbackEnded_fields (s : State) (g : Graft) : (s.fallbackEnded g).firm.graft = none ∧
    (s.fallbackEnded g).fld F.GLB_STATE_FW_TRIAL = 0 ∧ (s.fallbackEnded g).fld F.FWU_STATUS_STAGE = 0 ∧
      (s.fallbackEnded g).fld F.FWU_STATUS_RESULT = fwFallback := by
  obtain ⟨hgraft, htrial, hstage, hres⟩ := s.graftEnded_fields (res := fwFallback) (by decide)
  unfold State.fallbackEnded
  generalize s.graftEnded fwFallback = u at hgraft htrial hstage hres ⊢
  have hload {f : Fld} : (u.loadUcode g.prev).fld f = u.fld f := State.fld_of_regs rfl f
  split
  · have hset {f : Fld} (h : f.reg ≠ 0x900008 ∧ f.reg ≠ 0x900010) :
        (((u.loadUcode g.prev).setCtlState (u.loadUcode g.prev).standby csStandby).noteReport (u.loadUcode g.prev).standby).fld f = u.fld f :=
      (State.fld_of_regs rfl f).trans ((State.fld_setCtlState _ _ (State.standby_lt _) h).trans hload)
    exact ⟨hgraft, (hset (by decide)).trans htrial, (hset (by decide)).trans hstage, (hset (by decide)).trans hres⟩
  · exact ⟨hgraft, hload.trans htrial, hload.trans hstage, hload.trans hres⟩

theorem exec_fallbackDone {s : State} {g : Graft} (hg : s.firm.graft = some g) (hb : g.back ≠ none) (hst : s.slotState g.slot = srRejected)
    (hu : s.unloaded g = []) : exec .fallbackDone s = .next (s.fallbackEnded g) := by
  show Host.Outcome.next s.doFallbackDone = _
  unfold State.doFallbackDone
  rw [hg]
  exact congrArg Host.Outcome.next (if_pos ⟨Option.isSome_iff_ne_none.2 hb, hst, by rw [hu]; rfl⟩)

/-! ## The take (R768, R773) -/

/-- The record TAKEN, and the security version raised where the image asks for it. -/
def State.slotTaken (s : State) (o : Nat) (g : Graft) : State :=
  if numAt (s.slotHeader g.slot) 6 2 % 2 = 1 then (s.writeRecord o g.slot srTaken).raiseSvn o (numAt (s.slotHeader g.slot) 12 2)
  else s.writeRecord o g.slot srTaken

/-- The graft taken. -/
def State.taken (s : State) (o : Nat) (g : Graft) : State :=
  ((s.slotTaken o g).graftEnded fwTaken).raiseEvent 0x33 g.slot (numAt (s.slotHeader g.slot) 12 2)

theorem State.taken_fields (s : State) (o : Nat) (g : Graft) : (s.taken o g).firm.graft = none ∧
    (s.taken o g).fld F.GLB_STATE_FW_TRIAL = 0 ∧ (s.taken o g).fld F.FWU_STATUS_STAGE = 0 ∧
      (s.taken o g).fld F.FWU_STATUS_RESULT = fwTaken := by
  obtain ⟨hgraft, htrial, hstage, hres⟩ := (s.slotTaken o g).graftEnded_fields (res := fwTaken) (by decide)
  unfold State.taken
  generalize (s.slotTaken o g).graftEnded fwTaken = u at hgraft htrial hstage hres ⊢
  have hevent {f : Fld} (h : f.reg = F.GLB_STATE_FW_TRIAL.reg ∨ f.reg = F.FWU_STATUS_STAGE.reg) (c x d : Nat) :
      (u.raiseEvent c x d).fld f = u.fld f := by
    refine u.fld_raiseEvent c x d ?_ ?_ ?_ <;> rcases h with h | h <;> rw [h] <;> decide
  refine ⟨(State.raiseEvent_frame (·.firm.graft) (fun _ _ _ => rfl) (fun _ _ => rfl) (fun _ _ => rfl) _ _ _ _).trans hgraft,
    (hevent (f := F.GLB_STATE_FW_TRIAL) (.inl rfl) _ _ _).trans htrial, (hevent (f := F.FWU_STATUS_STAGE) (.inr rfl) _ _ _).trans hstage,
    (hevent (f := F.FWU_STATUS_RESULT) (.inr rfl) _ _ _).trans hres⟩

section
variable {s : State} {g : Graft} {c : Nat} (hg : s.firm.graft = some g) (hb : g.back = none) (hst : s.fwStage = fgAwait)
include hg hb hst

theorem State.take_late (hd : g.deadline ≤ s.now) : s.take c = s.causeFallback 1 := by
  unfold State.take
  rw [hg]
  exact (if_neg (by simp [hb, hst])).trans (if_pos hd)

theorem State.take_in_time (hd : s.now < g.deadline) : s.take c = s.taken (originOf (ctlAgent c)) g := by
  unfold State.take
  rw [hg]
  exact (if_neg (by simp [hb, hst])).trans (if_neg (Nat.not_le_of_lt hd))

end

/-- The register of the update path, written by the active controller under its epoch. -/
theorem exec_fwuTake {s : State} {c : Bool} {e : BitVec 16} (ho : s.off = false) (he : e.toNat = s.epoch) (hc : bit c = s.activeNum) :
    exec (.fwuTake c e) s =
      .next ((((s.take (bit c)).noteDual s (bit c) 0xA00040).journalWrite (bit c) e.toNat 0xA00040).emit (.ctlAnswer c true)) := by
  refine congrArg Host.Outcome.next ((State.ctlWrite_current _ ho he).trans ?_)
  rw [if_pos ⟨hc, he⟩]

theorem State.noteDual_frame {α : Type} (g : State → α) (hr : ∀ (t : State) a v, g (t.setReg a v) = g t)
    (hl : ∀ (t : State) l, g { t with log := l } = g t) (hc : ∀ (t : State) l, g { t with ctl := l } = g t) (t s : State) (c a : Nat) :
    g (t.noteDual s c a) = g t := by
  unfold State.noteDual
  split
  · rfl
  · exact (State.logChange_frame g hr hl _ _ _ _ _ _).trans ((hr _ _ _).trans (hc _ _))

theorem State.fld_noteDual (t s : State) (c a : Nat) {f : Fld} (h : f.reg ≠ F.RAS_LEASE_DUALACT_WRITES.reg)
    (h' : f.reg ≠ F.LOG_STATUS_LOST.reg) : (t.noteDual s c a).fld f = t.fld f := by
  unfold State.noteDual
  split
  · rfl
  · exact (State.fld_logChange _ _ _ _ _ _ h').trans ((State.fld_setFld_ne (f := F.RAS_LEASE_DUALACT_WRITES) _ _ h).trans
      (State.fld_of_regs rfl f))

theorem State.journalWrite_frame {α : Type} (g : State → α) (hc : ∀ (t : State) l, g { t with cold := l } = g t) (s : State) (k e a : Nat) :
    g (s.journalWrite k e a) = g s := by
  unfold State.journalWrite State.frameWrite
  repeat' split
  · rfl
  · exact hc _ _
  · rfl
  · rfl

end Sys2Proof.Machine
end

section
/-! The statement of grafts. -/

namespace Sys2Proof.Machine

open Sys2Proof.Safety

/-- Settles O52: each event of a graft in its stage, and the fields that its end leaves. That a REJECT with no graft ends STATE, and the
handover of a fallback at once, are log entry 44. -/
theorem graftsComplete : Obligations.GraftsComplete := by
  refine ⟨fun s w k ha => ⟨fun h => ?_, fun h => ?_⟩, fun s g hg hf hb hst hr => ?_, fun s g hg hf hb hst => ?_,
    fun s g g1 p hg hst hp hi hl h1 => exec_microcodeLoad hg hst hp hi hl h1, fun s g c e ho he hc hg hb hst => ⟨fun hd => ?_, fun hd => ?_⟩,
    fun s g hg hb hd => ?_, fun s w g ha hg hb => ?_, fun s w ha hg => ?_, fun s g cause hg hb hf hst hlen hr hp => ?_,
    fun s g hg hb hst hu => ⟨_, exec_fallbackDone hg hb hst hu, s.fallbackEnded_fields g⟩⟩
  · exact (exec_graft k ha).trans (by rw [if_pos h])
  · exact (exec_graft k ha).trans (by rw [if_neg h])
  · refine ⟨_, exec_graftHandover hg hf hb hst, ?_⟩
    by_cases hp : s.slotPasses g.slot = true
    · rw [if_pos hp]
      exact (if_pos hp).mpr (s.graftHanded_fields g hr)
    · rw [if_neg hp]
      exact (if_neg hp).mpr rfl
  · refine ⟨_, exec_graftPeerHealthy hg hf hb hst, _, rfl, ?_, State.fld_setFld_same _ F.FWU_STATUS_STAGE _ (by decide), rfl⟩
    have hreg : (F.RAS_CTL_HEALTH_STATE.at s.standby).reg ≠ F.FWU_STATUS_STAGE.reg := by
      have := s.standby_lt
      show 0x900008 + 8 * s.standby ≠ 0xA00010
      omega
    exact (State.fld_setFld_ne (f := F.FWU_STATUS_STAGE) _ _ hreg).trans
      (State.ctlState_setCtlState_same (s.setRuns s.standby g.slot) s.standby (n := csStandby) (by decide))
  · rw [exec_fwuTake ho he hc, State.take_late hg hb hst hd]
  · obtain ⟨hgraft, htrial, hstage, hres⟩ := s.taken_fields (originOf (ctlAgent (bit c))) g
    refine ⟨_, exec_fwuTake ho he hc, ?_⟩
    rw [State.take_in_time hg hb hst hd]
    generalize s.taken (originOf (ctlAgent (bit c))) g = u at hgraft htrial hstage hres ⊢
    have hregs : ((u.noteDual s (bit c) 0xA00040).journalWrite (bit c) e.toNat 0xA00040).regs = (u.noteDual s (bit c) 0xA00040).regs :=
      State.journalWrite_frame State.regs (fun _ _ => rfl) _ _ _ _
    have hfld {f : Fld} (h : f.reg ≠ F.RAS_LEASE_DUALACT_WRITES.reg) (h' : f.reg ≠ F.LOG_STATUS_LOST.reg) :
        (((u.noteDual s (bit c) 0xA00040).journalWrite (bit c) e.toNat 0xA00040).emit (.ctlAnswer c true)).fld f = u.fld f :=
      (State.fld_of_regs hregs f).trans (u.fld_noteDual s _ _ h h')
    refine ⟨?_, (hfld (by decide) (by decide)).trans htrial, (hfld (by decide) (by decide)).trans hstage,
      (hfld (by decide) (by decide)).trans hres, rfl⟩
    exact ((State.journalWrite_frame (·.firm.graft) (fun _ _ => rfl) _ _ _ _).trans
      (State.noteDual_frame (·.firm.graft) (fun _ _ _ => rfl) (fun _ _ => rfl) (fun _ _ => rfl) u s _ _)).trans hgraft
  · obtain ⟨hgraft, hcause, hstage⟩ := s.fallenBack_fields g (cause := 1) (by decide)
    exact ⟨_, exec_graftWindowExpiry hg hb hd, hgraft, hcause, hstage, s.fallenBack_regsBut g 1⟩
  · exact ⟨_, exec_reject_graft ha hg hb, State.fallenBack_fields _ g (by decide)⟩
  · exact ⟨_, exec_reject_none ha hg, State.result_endFwu _ (by decide)⟩
  · have hact : (s.slotRejected g.slot cause).activeNum = s.activeNum := s.fld_slotRejected _ _ (by decide)
    have hlen' : (s.slotRejected g.slot cause).firm.runs.length = 2 := by rw [s.firm_slotRejected, hlen]
    obtain ⟨h0, h1, hrun, hnew, hold⟩ := (s.slotRejected g.slot cause).runBack_fields g.prev hlen'
    rw [hact] at hold
    exact ⟨_, exec_fallback hg hb hf hst hr hp, h0, h1, hrun, hnew.trans (congrArg (1 - ·) hact), hold⟩

end Sys2Proof.Machine
end

section
/-! SUPPORT. Configuration writes, lane calibration and the seedbed interface (R765, R766, R776 to R778, R800). -/

namespace Sys2Proof.Machine

open Sys2Proof.Safety

/-! ## CONFIG_WRITE and LANE_CAL (R765, R766, R776) -/

section
variable {s : State} {w : Agent} (ha : Accepts s w blkFwu)
include ha

theorem exec_laneCal (e : Nat) : exec (.laneCal w e) s =
    .next ((fwuStarted s w 5 e).endFwu (if e ≤ 12 ∧ s.sparesUsed e < 2 then fwOk else fwState)) :=
  congrArg Host.Outcome.next (State.leased_startFwu _ ha (Bool.and_false _))

variable {c : Nat} (hb : s.fwuBusy = false)
include hb

theorem exec_configWrite : exec (.configWrite w c) s = .next
    (if 2 ≤ c ∨ s.fld F.GLB_CFG_STATUS_IN_USE = c + 1 then (fwuStarted s w 4 c).endFwu fwSlot
    else if s.fld F.FWU_CTL_VIA_BUF = 1 then (fwuStarted s w 4 c).openBuffer c
    else (fwuStarted s w 4 c).writeCopy c) := by
  rw [← s.fld_fwuStarted w 4 c (f := F.GLB_CFG_STATUS_IN_USE) (.inl (by decide)),
    ← s.fld_fwuStarted w 4 c (f := F.FWU_CTL_VIA_BUF) (.inr (by decide))]
  exact congrArg Host.Outcome.next (State.leased_startFwu _ ha (by rw [hb]; rfl))

theorem exec_configWrite_slot (h : 2 ≤ c ∨ s.fld F.GLB_CFG_STATUS_IN_USE = c + 1) :
    exec (.configWrite w c) s = .next ((fwuStarted s w 4 c).endFwu fwSlot) :=
  (exec_configWrite ha hb).trans (congrArg Host.Outcome.next (if_pos h))

variable (hc : c < 2) (hu : s.fld F.GLB_CFG_STATUS_IN_USE ≠ c + 1)
include hc hu

theorem exec_configWrite_buffer (h : s.fld F.FWU_CTL_VIA_BUF = 1) :
    exec (.configWrite w c) s = .next ((fwuStarted s w 4 c).openBuffer c) :=
  (exec_configWrite ha hb).trans (congrArg Host.Outcome.next ((if_neg (by omega)).trans (if_pos h)))

theorem exec_configWrite_window (h : s.fld F.FWU_CTL_VIA_BUF = 0) :
    exec (.configWrite w c) s = .next ((fwuStarted s w 4 c).writeCopy c) :=
  (exec_configWrite ha hb).trans (congrArg Host.Outcome.next ((if_neg (by omega)).trans (if_neg (by rw [h]; decide))))

end

/-! ## The registers of the interface (R800) -/

/-- FWU_SEED_STATUS of an interface just opened. -/
def State.seedOpened (s : State) : State :=
  ((s.setFld F.FWU_SEED_STATUS_STATE sdOpen).setFld F.FWU_SEED_STATUS_SEQ_DONE 0).setFld F.FWU_SEED_STATUS_RESULT 0

theorem State.seedOpened_fields (s : State) : s.seedOpened.fld F.FWU_SEED_STATUS_STATE = sdOpen ∧
    s.seedOpened.fld F.FWU_SEED_STATUS_SEQ_DONE = 0 ∧ s.seedOpened.fld F.FWU_SEED_STATUS_RESULT = 0 ∧
      RegsBut [F.FWU_SEED_STATUS_STATE.reg] s s.seedOpened := by
  unfold State.seedOpened
  refine ⟨?_, ?_, State.fld_setFld_same _ F.FWU_SEED_STATUS_RESULT 0 (by decide),
    (((RegsBut.refl _ s).setFld (f := F.FWU_SEED_STATUS_STATE) _ (List.mem_singleton_self _)).setFld (f := F.FWU_SEED_STATUS_SEQ_DONE) 0
      (List.mem_singleton_self _)).setFld (f := F.FWU_SEED_STATUS_RESULT) 0 (List.mem_singleton_self _)⟩
  · exact (State.fld_setFld_apart (f := F.FWU_SEED_STATUS_RESULT) _ _ (by decide)).trans ((State.fld_setFld_apart
      (f := F.FWU_SEED_STATUS_SEQ_DONE) _ _ (by decide)).trans (State.fld_setFld_same s F.FWU_SEED_STATUS_STATE sdOpen (by decide)))
  · exact (State.fld_setFld_apart (f := F.FWU_SEED_STATUS_RESULT) _ _ (by decide)).trans
      (State.fld_setFld_same _ F.FWU_SEED_STATUS_SEQ_DONE 0 (by decide))

theorem State.openBuffer_fields (s : State) (c : Nat) : (s.openBuffer c).firm.seed = some { config := true, target := c } ∧
    (s.openBuffer c).fld F.FWU_SEED_STATUS_STATE = 1 ∧ (s.openBuffer c).fld F.FWU_SEED_STATUS_SEQ_DONE = 0 ∧
      (s.openBuffer c).fld F.FWU_SEED_STATUS_RESULT = 0 ∧ (s.openBuffer c).fld F.FWU_STATUS_STATE = fwStWriting := by
  obtain ⟨hstate, hseq, hres, -⟩ := (s.flashErase (copyBase c) 256).seedOpened_fields
  have hopen {f : Fld} (h : f.reg ≠ F.FWU_STATUS_STATE.reg) :
      (s.openBuffer c).fld f = (s.flashErase (copyBase c) 256).seedOpened.fld f := State.fld_setFld_ne (f := F.FWU_STATUS_STATE) _ _ h
  exact ⟨rfl, (hopen (by decide)).trans hstate, (hopen (by decide)).trans hseq, (hopen (by decide)).trans hres,
    State.fld_setFld_same _ F.FWU_STATUS_STATE _ (by decide)⟩

theorem State.seedState_same (s : State) {n : Nat} (h : n < 16) : (s.seedState n).fld F.FWU_SEED_STATUS_STATE = n :=
  (State.fld_setFld_same s F.FWU_SEED_STATUS_STATE n (by decide)).trans (Nat.mod_eq_of_lt h)

theorem State.seqDone_ackBlock (s : State) (d : Seed) {seq : Nat} (h : seq < 65536) :
    (s.ackBlock d seq).fld F.FWU_SEED_STATUS_SEQ_DONE = seq :=
  (State.fld_setFld_same _ F.FWU_SEED_STATUS_SEQ_DONE seq (by decide)).trans (Nat.mod_eq_of_lt h)

/-! ## The commands of the interface (R777, R778) -/

section
variable {s : State}

theorem State.seedGate_of_accepts (f : State → State) (ha : SeedAccepts s) : s.seedGate f = f (s.closeLatch .host blkFwu) := by
  obtain ⟨hr, hopen⟩ := ha
  unfold State.seedGate
  by_cases hd : s.devState = dsSeedbed
  · rw [if_pos hd, if_pos hr]
  · obtain ⟨hs, hb⟩ := hopen.resolve_left hd
    rw [if_neg hd]
    exact State.gate_open f ⟨hr, fun _ => hs, hb⟩

theorem exec_begin {k : Nat} (hr : s.reaches .host = true) (hd : s.devState = dsSeedbed) (hk : k < 2) :
    exec (.begin k) s = .next ((s.closeLatch .host blkFwu).setSeed (some { config := false, target := k })).seedOpened :=
  congrArg Host.Outcome.next ((State.seedGate_of_accepts _ ⟨hr, .inl hd⟩).trans (if_pos ⟨hd, hk⟩))

variable {d : Seed} (ha : SeedAccepts s)
include ha

theorem exec_seedAbort_none (hd : s.firm.seed = none) :
    exec .seedAbort s = .next ((s.closeLatch .host blkFwu).seedState sdIdle) := by
  refine congrArg Host.Outcome.next ((State.seedGate_of_accepts _ ha).trans ?_)
  rw [show (s.closeLatch .host blkFwu).firm.seed = none from hd]

variable (hd : s.firm.seed = some d)
include hd

theorem exec_seedEnd : exec .seedEnd s = .next (if d.staged then s.closeLatch .host blkFwu
    else if d.config then (s.closeLatch .host blkFwu).endBuffered d
    else if s.devState = dsSeedbed then (s.closeLatch .host blkFwu).endDownload d else s.closeLatch .host blkFwu) := by
  refine congrArg Host.Outcome.next ((State.seedGate_of_accepts _ ha).trans ?_)
  rw [show (s.closeLatch .host blkFwu).firm.seed = some d from hd]
  rfl

/-- A copy's download dropped: no header, and RESULT as it stands. -/
def State.copyAborted (s : State) (d : Seed) : State :=
  ((((s.flashErase (copyBase d.target) 256).setSeed none).seedState sdIdle)).endFwu
    ((((s.flashErase (copyBase d.target) 256).setSeed none).seedState sdIdle).fld F.FWU_STATUS_RESULT)

/-- A slot's download dropped: the slot is EMPTY. -/
def State.slotAborted (s : State) (d : Seed) : State :=
  (((s.flashErase (slotSector d.target) 4096).showSlot d.target).setSeed none).seedState sdIdle

theorem exec_seedAbort : exec .seedAbort s = .next (if d.staged then s.closeLatch .host blkFwu
    else if d.config then (s.closeLatch .host blkFwu).copyAborted d else (s.closeLatch .host blkFwu).slotAborted d) := by
  refine congrArg Host.Outcome.next ((State.seedGate_of_accepts _ ha).trans ?_)
  rw [show (s.closeLatch .host blkFwu).firm.seed = some d from hd]
  rfl

theorem exec_block_staged (seq len : Nat) (hst : d.staged = true) : exec (.block seq len) s = .next (s.closeLatch .host blkFwu) := by
  refine congrArg Host.Outcome.next ((State.seedGate_of_accepts _ ha).trans ?_)
  rw [show (s.closeLatch .host blkFwu).firm.seed = some d from hd]
  exact if_pos (.inr (.inr (.inr (.inr (.inl hst)))))

/-- A block by its place after the blocks taken. -/
def State.blockTaken (s : State) (d : Seed) (seq len : Nat) : Option Nat → State
  | none => if seq = 0 then s.firstBlock d len else s
  | some n => if seq = n then s.ackBlock d n else if seq = n + 1 then s.nextBlock d seq len else s

theorem exec_block {seq len : Nat} (hst : d.staged = false) (h0 : len ≠ 0) (h64 : len % 64 = 0) (hlen : len ≤ 65536) (hseq : seq < 65536)
    (hd' : d.config = true ∨ s.devState = dsSeedbed) :
    exec (.block seq len) s = .next ((s.closeLatch .host blkFwu).blockTaken d seq len d.seq) := by
  refine congrArg Host.Outcome.next ((State.seedGate_of_accepts _ ha).trans ?_)
  rw [show (s.closeLatch .host blkFwu).firm.seed = some d from hd]
  refine (if_neg ?_).trans ?_
  · rintro (h | h | h | h | h | ⟨hc, hn⟩)
    · exact h0 h
    · exact h h64
    · omega
    · omega
    · exact absurd (h.symm.trans hst) (by decide)
    · rcases hd' with h | h
      · exact absurd (h.symm.trans hc) (by decide)
      · exact hn h
  · cases d.seq <;> rfl

end

/-! ## The end of a download (R778) -/

/-- A download with its digests right: its header, its record, and the restart into BOOT. -/
theorem State.endDownload_passed {s : State} {d : Seed} (hq : d.seq ≠ none) (hg : payloadBytes d.header ≤ d.got)
    (hp : s.payloadOk d.target d.header = true) : s.endDownload d =
      ((((s.flashWrite (slotBase d.target) d.header).writeRecord orHost d.target srTaken).endSeed d fwOk).atStage 0).setDev orHw dsBoot :=
  if_pos ⟨hq, hg, hp⟩

theorem State.endDownload_failed {s : State} {d : Seed} (hp : s.payloadOk d.target d.header = false) :
    s.endDownload d = s.endSeed d fwDigest :=
  if_neg fun h => absurd (h.2.2.symm.trans hp) (by decide)

theorem State.firm_setDev (s : State) (o n : Nat) : (s.setDev o n).firm = s.firm := by
  unfold State.setDev
  split
  · rfl
  · exact State.logChange_frame State.firm (fun _ _ _ => rfl) (fun _ _ => rfl) _ _ _ _ _ _

theorem State.seed_endSeed (s : State) (d : Seed) (res : Nat) : (s.endSeed d res).firm.seed = none := by
  unfold State.endSeed
  dsimp only
  split <;> rfl

end Sys2Proof.Machine
end

section
/-! The statement of the buffers. -/

namespace Sys2Proof.Machine

open Sys2Proof.Safety

/-- Settles O53: each command by the check that it meets first; a copy that comes from the staging window takes no BLOCK, END or ABORT
(log entry 72). -/
theorem buffersComplete : Obligations.BuffersComplete := by
  refine ⟨fun s w c ha hb => ⟨exec_configWrite_slot ha hb, fun hc hu hv => ?_, exec_configWrite_window ha hb⟩,
    fun s w e ha => ⟨_, exec_laneCal ha e, State.result_endFwu _ (by split <;> decide)⟩, fun s k hr hd hk => ?_,
    fun s d seq len ha hd hst => ⟨exec_block_staged ha hd seq len hst, ?_, ?_⟩, ?_, fun s d ha hd hst => ⟨fun hc => ?_, ?_, ?_⟩,
    fun s ha hst => ?_⟩
  · exact ⟨_, exec_configWrite_buffer ha hb hc hu hv, State.openBuffer_fields _ c⟩
  · refine ⟨_, exec_begin hr hd hk, rfl, ?_⟩
    exact ((s.closeLatch .host blkFwu).setSeed (some { config := false, target := k })).seedOpened_fields
  · exact (exec_seedEnd ha hd).trans (congrArg Host.Outcome.next (if_pos hst))
  · exact (exec_seedAbort ha hd).trans (congrArg Host.Outcome.next (if_pos hst))
  · intro s d seq len ha hd hst h0 h64 hlen hseq hd'
    have hblock := exec_block ha hd hst h0 h64 hlen hseq hd'
    refine ⟨fun hq h => ?_, fun hq => ⟨_, hblock, ?_⟩, fun n hq h => ?_, fun n hq h h1 => ⟨_, hblock, ?_⟩⟩
    · rw [hq] at hblock
      exact hblock.trans (congrArg Host.Outcome.next (if_pos h))
    · rw [hq, show (s.closeLatch .host blkFwu).blockTaken d seq len (some seq) = (s.closeLatch .host blkFwu).ackBlock d seq from if_pos rfl]
      exact ⟨State.seqDone_ackBlock _ d hseq, rfl⟩
    · rw [hq] at hblock
      exact hblock.trans (congrArg Host.Outcome.next ((if_neg (by omega)).trans (if_pos h)))
    · rw [hq, show (s.closeLatch .host blkFwu).blockTaken d seq len (some n) = s.closeLatch .host blkFwu from (if_neg h).trans (if_neg h1)]
      exact ⟨rfl, rfl, rfl⟩
  · exact (exec_seedEnd ha hd).trans (congrArg Host.Outcome.next ((if_neg (by rw [hst]; decide)).trans (if_pos hc)))
  · intro hc hdev hq hg hp
    have he : exec .seedEnd s = .next ((s.closeLatch .host blkFwu).endDownload d) := (exec_seedEnd ha hd).trans
      (congrArg Host.Outcome.next ((if_neg (by rw [hst]; decide)).trans ((if_neg (by rw [hc]; decide)).trans (if_pos hdev))))
    rw [State.endDownload_passed (s := s.closeLatch .host blkFwu) hq hg hp] at he
    refine ⟨_, he, State.devState_setDev _ _ _ (by decide), ?_, ?_⟩
    · rw [State.boot_setDev, State.stage_atStage]
    · rw [State.firm_setDev]
      exact State.seed_endSeed _ d fwOk
  · intro hc hdev hp
    refine (exec_seedEnd ha hd).trans (congrArg Host.Outcome.next ((if_neg (by rw [hst]; decide)).trans
      ((if_neg (by rw [hc]; decide)).trans ((if_pos hdev).trans ?_))))
    exact State.endDownload_failed (s := s.closeLatch .host blkFwu) hp
  · rcases hd : s.firm.seed with _ | d
    · exact ⟨_, exec_seedAbort_none ha hd, State.seedState_same _ (by decide), hd⟩
    · have he := (exec_seedAbort ha hd).trans (congrArg Host.Outcome.next (if_neg (by rw [hst d hd]; decide)))
      refine ⟨_, he, ?_⟩
      split
      · refine ⟨?_, rfl⟩
        exact (State.fld_endFwu _ _ (f := F.FWU_SEED_STATUS_STATE) (by decide) (by decide)).trans (State.seedState_same _ (by decide))
      · exact ⟨State.seedState_same _ (by decide), rfl⟩

end Sys2Proof.Machine
end

section
/-! SUPPORT. Owner commands: the order of their checks, and their end (R780 to R782, R801). -/

namespace Sys2Proof.Machine

open Sys2Proof.Safety

/-! ## The checks of R781 -/

section
variable {s : State} {role : Nat} {form : Bytes → Bool} {h m : Bytes} (hh : h = s.mbox 64) (hm : m = s.mbox (64 + bodyBytes h))

theorem State.ownerCheck_head (hh : h = s.mbox 64) (ho : ownerHeadOk h = false) : s.ownerCheck role form = ocFormat :=
  if_pos (hh ▸ ho)

include hh hm

theorem State.ownerCheck_body (ho : ownerHeadOk h = true) (hf : form (m.drop 64) = false) : s.ownerCheck role form = ocFormat := by
  subst hh hm
  exact (if_neg (by rw [ho]; decide)).trans (if_pos hf)

theorem State.ownerCheck_nonce (ho : ownerHeadOk h = true) (hf : form (m.drop 64) = true)
    (hn : numAt h 16 8 ≠ (s.reg F.SEC_NONCE_NONCE.reg).toNat) : s.ownerCheck role form = ocNonce := by
  subst hh hm
  exact (if_neg (by rw [ho]; decide)).trans ((if_neg (by rw [hf]; decide)).trans (if_pos (.inr hn)))

variable (ho : ownerHeadOk h = true) (hf : form (m.drop 64) = true) (hs : numAt h 8 8 = s.serialNumber)
  (hn : numAt h 16 8 = (s.reg F.SEC_NONCE_NONCE.reg).toNat)
include ho hf hs hn

theorem State.ownerCheck_noRole (hr : s.signer h role = none) : s.ownerCheck role form = ocNoRole := by
  subst hh hm
  refine (if_neg (by rw [ho]; decide)).trans ((if_neg (by rw [hf]; decide)).trans ((if_neg ?_).trans ?_))
  · exact fun h => h.elim (fun h => h hs) fun h => h hn
  · rw [hr]

theorem State.ownerCheck_signed {e : Bytes} (hr : s.signer h role = some e) : s.ownerCheck role form =
    if Config.slhDsaVerify (rolePublic e) m ((s.mbox (64 + bodyBytes h + sigBytes)).drop (64 + bodyBytes h)) then ocDone
    else ocSignature := by
  subst hh hm
  refine (if_neg (by rw [ho]; decide)).trans ((if_neg (by rw [hf]; decide)).trans ((if_neg ?_).trans ?_))
  · exact fun h => h.elim (fun h => h hs) fun h => h hn
  · rw [hr]

end

/-! ## The six rows of R782 -/

section
variable {s : State} {w : Agent} {c : Instr} {code role : Nat} {form : Bytes → Bool} {effect : State → Bytes → State × Nat}

theorem exec_ownerRow (hrow : OwnerRow w c code role form effect) :
    exec c s = .next (s.leased w fun s => s.owner w code role form effect) := by
  rcases hrow with ⟨rfl, rfl, rfl, rfl, rfl⟩ | ⟨rfl, rfl, rfl, rfl, rfl⟩ | ⟨rfl, rfl, rfl, rfl, rfl⟩ | ⟨rfl, rfl, rfl, rfl, rfl⟩ |
    ⟨rfl, rfl, rfl, rfl, rfl⟩ | ⟨rfl, rfl, rfl, rfl, rfl⟩ <;> rfl

variable (hrow : OwnerRow w c code role form effect) (ha : Accepts s w blkSec) (hcode : s.ownerCode = code)
include hrow ha hcode

theorem exec_ownerRow_refused {res : Nat} (hc : (s.closeLatch w blkSec).ownerCheck role form = res) (hres : res ≠ ocDone) :
    exec c s = .next ((s.closeLatch w blkSec).endOwner code res) := by
  refine (exec_ownerRow hrow).trans (congrArg Host.Outcome.next ((State.leased_of_holds _ (.inr ha.2)).trans
    ((if_neg (not_not_intro hcode)).trans ((State.gate_open _ ha.1).trans ((if_neg ?_).trans ?_)))))
  · rw [hc]
    exact hres
  · rw [hc]

theorem exec_ownerRow_done (hc : (s.closeLatch w blkSec).ownerCheck role form = ocDone) : exec c s =
    .next (State.endOwner (effect (s.closeLatch w blkSec) ((s.mbox (64 + bodyBytes (s.mbox 64))).drop 64)).1 code
      (effect (s.closeLatch w blkSec) ((s.mbox (64 + bodyBytes (s.mbox 64))).drop 64)).2) :=
  (exec_ownerRow hrow).trans (congrArg Host.Outcome.next ((State.leased_of_holds _ (.inr ha.2)).trans
    ((if_neg (not_not_intro hcode)).trans ((State.gate_open _ ha.1).trans (if_pos hc)))))

end

end Sys2Proof.Machine
end

section
/-! The statement of the owner commands. -/

namespace Sys2Proof.Machine

open Sys2Proof.Safety

/-- Settles O54: the check of R781 that fails first is the result (R780), and the effect runs on the state of a command that passes all.
The order of the checks is log entry 9's, with FORMAT and NONCE before NO_ROLE also where no role is stored log entry 61's. -/
theorem ownerCommandsComplete : Obligations.OwnerCommandsComplete := by
  refine ⟨fun s w c code role form effect h m hrow ha hcode hh hm => ?_, fun s ho => congrArg Host.Outcome.next (if_neg (by rw [ho]; decide))⟩
  have hrefused {res : Nat} (hc : (s.closeLatch w blkSec).ownerCheck role form = res) (hres : res ≠ ocDone) :=
    exec_ownerRow_refused hrow ha hcode hc hres
  refine ⟨fun ho => hrefused (State.ownerCheck_head hh ho) (by decide), fun ho hf => hrefused (State.ownerCheck_body hh hm ho hf) (by decide),
    fun ho hf hn => hrefused (State.ownerCheck_nonce hh hm ho hf hn) (by decide),
    fun ho hf hs hn => ⟨fun hr => hrefused (State.ownerCheck_noRole hh hm ho hf hs hn hr) (by decide), fun e hr => ?_⟩⟩
  have hc : (s.closeLatch w blkSec).ownerCheck role form = _ := State.ownerCheck_signed hh hm ho hf hs hn hr
  by_cases hv : Config.slhDsaVerify (rolePublic e) m ((s.mbox (64 + bodyBytes h + sigBytes)).drop (64 + bodyBytes h)) = true
  · rw [if_pos hv]
    subst hh hm
    exact exec_ownerRow_done hrow ha hcode (hc.trans (if_pos hv))
  · rw [if_neg hv]
    exact hrefused (hc.trans (if_neg hv)) (by decide)

end Sys2Proof.Machine
end

section
/-! SUPPORT. The management port: its address, the sensors, effecters and events of PLDM, and the firmware update over PLDM (R829 to R835). -/

namespace Sys2Proof.Machine

open Sys2Proof.Safety

theorem State.request_of_served {s : State} {ep : Endpoint} (f : State → State) (h : s.epServed ep = true) : s.request ep f = f s := if_pos h

/-- What no message sent changes. -/
theorem State.reply_frame {α : Type} (g : State → α) (he : ∀ (t : State) e, g (State.emit t e) = g t) (s : State) (ep : Endpoint) (ty : Nat)
    (b : Bytes) : g (s.reply ep ty b) = g s := by
  cases ep
  · exact List.foldlRecOn _ _ (motive := fun t : State => g t = g s) rfl fun t ht _ _ => (he _ _).trans ht
  · exact List.foldlRecOn _ _ (motive := fun t : State => g t = g s) (he _ _) fun t ht _ _ => (he _ _).trans ht

theorem State.pldmReply_frame {α : Type} (g : State → α) (he : ∀ (t : State) e, g (State.emit t e) = g t) (s : State) (cmd cc : Nat)
    (b : Bytes) : g (s.pldmReply cmd cc b) = g s := s.reply_frame g he .i3c _ _

theorem State.fld_pldmReply (s : State) (cmd cc : Nat) (b : Bytes) (f : Fld) : (s.pldmReply cmd cc b).fld f = s.fld f :=
  State.fld_of_regs (State.pldmReply_frame State.regs (fun _ _ => rfl) s cmd cc b) f

/-! ## ENTDAA and SETDASA (R829) -/

section
variable {s : State} (a : BitVec 7) (ho : s.off = false) (hd : s.mgmt.dynAddr = none)
include ho hd

theorem exec_entdaa : exec (.entdaa a) s = .next (({ s with mgmt := { s.mgmt with dynAddr := some a } } : State).emit
    (.i3cId (provisionalId (s.fld F.GLB_IDENT_CHIP_ID)) bcrByte)) :=
  congrArg Host.Outcome.next (if_neg (by rw [ho, hd]; decide))

theorem exec_setdasa : exec (.setdasa a) s = .next { s with mgmt := { s.mgmt with dynAddr := some a } } :=
  congrArg Host.Outcome.next (if_neg (by rw [ho, hd]; decide))

end

/-! ## Records, sensors and events (R831, R832, R834) -/

theorem length_pdrTable : pdrTable.length = 23 := rfl

section
variable {s : State} (hs : s.i3cServed = true)
include hs

theorem exec_getPdrRepositoryInfo : exec .getPdrRepositoryInfo s = .next (s.pldmReply 0x50 0 [23, 0, 0, 0]) := by
  have hbytes : bytesOfNat 4 23 = [23, 0, 0, 0] := by decide
  refine congrArg Host.Outcome.next ((State.request_of_served _ (ep := .i3c) hs).trans ?_)
  rw [length_pdrTable, hbytes]

theorem exec_getPdr {k : Nat} {i : Pdr} (h : pdrTable[k - 1]? = some i) :
    exec (.getPdr k) s = .next (s.pldmReply 0x51 0 (s.pdrBytes i)) := by
  refine congrArg Host.Outcome.next ((State.request_of_served _ (ep := .i3c) hs).trans ?_)
  rw [h]

theorem exec_getPdr_unknown {k : Nat} (h : 23 < k) : exec (.getPdr k) s = .next (s.pldmReply 0x51 0x82 []) := by
  have hnone : pdrTable[k - 1]? = none := List.getElem?_eq_none (by rw [length_pdrTable]; omega)
  refine congrArg Host.Outcome.next ((State.request_of_served _ (ep := .i3c) hs).trans ?_)
  rw [hnone]

theorem exec_getSensorReading (k : Nat) : exec (.getSensorReading k) s = .next (if 1 ≤ k ∧ k ≤ 16 then
    s.pldmReply 0x11 0 (bytesOfNat 1 (s.sensorState k) ++ intBytes (s.sensed k)) else s.pldmReply 0x11 0x80 []) :=
  congrArg Host.Outcome.next (State.request_of_served _ (ep := .i3c) hs)

theorem exec_getStateSensorReadings {k v : Nat} (h : s.stateSensor k = some v) :
    exec (.getStateSensorReadings k) s = .next (s.pldmReply 0x21 0 (bytesOfNat 1 v)) := by
  refine congrArg Host.Outcome.next ((State.request_of_served _ (ep := .i3c) hs).trans ?_)
  rw [h]

theorem exec_getNumericEffecterValue (k : Nat) : exec (.getNumericEffecterValue k) s = .next
    (if k = 1 then s.pldmReply 0x32 0 (bytesOfNat 2 (s.fld F.PWR_CAP_RACK_W))
    else if k = 2 then s.pldmReply 0x32 0 (bytesOfNat 2 s.mgmt.heartbeat) else s.pldmReply 0x32 0x80 []) :=
  congrArg Host.Outcome.next (State.request_of_served _ (ep := .i3c) hs)

theorem exec_pollForPlatformEventMessage_none (h : s.mgmt.polled = []) :
    exec .pollForPlatformEventMessage s = .next (s.pldmReply 0x0B 0 []) := by
  refine congrArg Host.Outcome.next ((State.request_of_served _ (ep := .i3c) hs).trans ?_)
  rw [h]

/-- The events not yet polled. -/
def State.withPolled (s : State) (l : List Word) : State := { s with mgmt := { s.mgmt with polled := l } }

theorem exec_pollForPlatformEventMessage {e : Word} {r : List Word} (h : s.mgmt.polled = e :: r) :
    exec .pollForPlatformEventMessage s = .next ((s.withPolled r).pldmReply 0x0B 0 (bytesOfNat 8 e.toNat)) := by
  have hpolled : s.doPollForPlatformEventMessage = s.request .i3c fun s => match s.mgmt.polled with
    | [] => s.pldmReply 0x0B 0 []
    | e :: r => (s.withPolled r).pldmReply 0x0B 0 (bytesOfNat 8 e.toNat) := rfl
  refine congrArg Host.Outcome.next (hpolled.trans ((State.request_of_served _ (ep := .i3c) hs).trans ?_))
  rw [h]

/-! ## Effecters (R833) -/

/-- An effecter set. -/
def State.effecterSet (s : State) (k v : Nat) : State :=
  if k = 1 then s.setRackCap v else { s with mgmt := { s.mgmt with heartbeat := v } }

theorem exec_setNumericEffecterValue {o : Bool} {k v : Nat} (h : effecterOk o k v = true) :
    exec (.setNumericEffecterValue o k v) s = .next ((s.effecterSet k v).rackBeat.pldmReply 0x31 0 []) :=
  congrArg Host.Outcome.next ((State.request_of_served _ (ep := .i3c) hs).trans (if_pos h))

theorem exec_setNumericEffecterValue_refused {o : Bool} {k v : Nat} (h : effecterOk o k v = false) :
    exec (.setNumericEffecterValue o k v) s = .next (s.pldmReply 0x31 1 []) :=
  congrArg Host.Outcome.next ((State.request_of_served _ (ep := .i3c) hs).trans (if_neg (by rw [h]; decide)))

end

section
variable (s : State)

theorem State.noteTerms_frame {α : Type} (g : State → α) (hr : ∀ (t : State) a v, g (t.setReg a v) = g t)
    (ht : ∀ (t : State) x, g { t with gov := { t.gov with terms := x } } = g t)
    (hl : ∀ (t : State) x, g { t with gov := { t.gov with lag := x } } = g t) : g s.noteTerms = g s := by
  unfold State.noteTerms
  dsimp only
  split
  · exact (hr _ _ _).trans ((hr _ _ _).trans ((hl { s with gov := { s.gov with terms := s.capTerms } } _).trans (ht _ _)))
  · exact ht _ _

theorem State.setRackCap_frame {α : Type} (g : State → α) (hr : ∀ (t : State) a v, g (t.setReg a v) = g t)
    (hg : ∀ (t : State) l, g { t with log := l } = g t) (ht : ∀ (t : State) x, g { t with gov := { t.gov with terms := x } } = g t)
    (hl : ∀ (t : State) x, g { t with gov := { t.gov with lag := x } } = g t) (v : Nat) : g (s.setRackCap v) = g s := by
  unfold State.setRackCap
  split
  · rfl
  · exact (State.noteTerms_frame _ g hr ht hl).trans ((State.logChange_frame g hr hg _ _ _ _ _ _).trans (hr _ _ _))

theorem State.setHeartbeatLost_frame {α : Type} (g : State → α) (hr : ∀ (t : State) a v, g (t.setReg a v) = g t)
    (hg : ∀ (t : State) l, g { t with log := l } = g t) (ht : ∀ (t : State) x, g { t with gov := { t.gov with terms := x } } = g t)
    (hl : ∀ (t : State) x, g { t with gov := { t.gov with lag := x } } = g t) (o n : Nat) : g (s.setHeartbeatLost o n) = g s := by
  unfold State.setHeartbeatLost
  split
  · rfl
  · exact (State.noteTerms_frame _ g hr ht hl).trans ((State.logChange_frame g hr hg _ _ _ _ _ _).trans (hr _ _ _))

/-- The rack manager heard from now. -/
def State.heardNow : State := { s with gov := { s.gov with beatAt := s.now } }

theorem State.rackBeat_eq : s.rackBeat = s.heardNow.setHeartbeatLost orRack 0 := rfl

theorem State.rackBeat_fields : s.rackBeat.gov.beatAt = s.now ∧ s.rackBeat.fld F.PWR_STATUS_HEARTBEAT_LOST = 0 := by
  rw [s.rackBeat_eq]
  exact ⟨State.setHeartbeatLost_frame _ (·.gov.beatAt) (fun _ _ _ => rfl) (fun _ _ => rfl) (fun _ _ => rfl) (fun _ _ => rfl) _ _,
    State.fld_setHeartbeatLost _ _ (by decide)⟩

theorem State.rackCap_rackBeat : s.rackBeat.fld F.PWR_CAP_RACK_W = s.fld F.PWR_CAP_RACK_W := by
  refine Eq.trans ?_ (State.fld_of_regs (t := s.heardNow) rfl F.PWR_CAP_RACK_W)
  rw [s.rackBeat_eq]
  generalize s.heardNow = u
  unfold State.setHeartbeatLost
  split
  · rfl
  · rw [State.fld_noteTerms _ (by decide), State.fld_logChange _ _ _ _ _ _ (by decide),
      State.fld_setFld_ne (f := F.PWR_STATUS_HEARTBEAT_LOST) _ _ (by decide)]

theorem State.rackCap_setRackCap {v : Nat} (h : v < 4096) : (s.setRackCap v).fld F.PWR_CAP_RACK_W = v := by
  unfold State.setRackCap
  split
  · assumption
  · rw [State.fld_noteTerms _ (by decide), State.fld_logChange _ _ _ _ _ _ (by decide), State.fld_setFld_same _ _ _ (by decide)]
    exact Nat.mod_eq_of_lt h

end

/-- What a rack manager's command shows of itself. -/
theorem State.beaten_pldmReply (s : State) (cmd cc : Nat) (b : Bytes) : (s.rackBeat.pldmReply cmd cc b).gov.beatAt = s.now ∧
    (s.rackBeat.pldmReply cmd cc b).fld F.PWR_STATUS_HEARTBEAT_LOST = 0 := by
  obtain ⟨hbeat, hlost⟩ := s.rackBeat_fields
  exact ⟨(State.pldmReply_frame (·.gov.beatAt) (fun _ _ => rfl) _ cmd cc b).trans hbeat, (State.fld_pldmReply _ cmd cc b _).trans hlost⟩

/-! ## Updates over PLDM (R835) -/

section
variable {s : State} {ep : Endpoint} (hs : s.epServed ep = true)
include hs

theorem exec_activateFirmware : exec (.activateFirmware ep) s = .next (if s.graftCheck (1 - s.runningSlot) = 0 then
    (s.startGraft orMgmt (1 - s.runningSlot)).updateReply ep 0x1A 0 else s.updateReply ep 0x1A 0x84) :=
  congrArg Host.Outcome.next (State.request_of_served _ hs)

variable {b : Bytes}

theorem exec_pldmFirmwareUpdate_first (hi : s.firm.install = none) : exec (.pldmFirmwareUpdate ep 0 b) s = .next
    (if s.fwuBusy then s.updateReply ep 0x10 ccRetry else (s.setFld F.FWU_STATUS_STATE 1).putUpdate
      { slot := 1 - s.runningSlot, header := [], origin := orMgmt, pldm := some ep } b) := by
  refine congrArg Host.Outcome.next ((State.request_of_served _ hs).trans ?_)
  rw [hi]
  exact if_neg (not_not_intro rfl)

theorem exec_pldmFirmwareUpdate_next {i : Install} {o : Nat} (hi : s.firm.install = some i) (hp : i.pldm = some ep)
    (hr : i.paused = false) (ho : o = i.header.length + i.got) (h0 : o ≠ 0) : exec (.pldmFirmwareUpdate ep o b) s = .next (s.putUpdate i b) := by
  refine congrArg Host.Outcome.next ((State.request_of_served _ hs).trans ?_)
  rw [hi]
  exact (if_pos ⟨hp, h0⟩).trans (if_pos ⟨ho, hr⟩)

end

/-- Bytes that do not yet fill a header are kept with it. -/
theorem State.putUpdate_short (s : State) (i : Install) {b : Bytes} (hh : i.header = []) (hb : b.length < headerBytes) :
    s.putUpdate i b = { s with firm := { s.firm with install := some { i with header := b } } } := by
  have htake : (i.header ++ b).take headerBytes = b := by rw [hh, List.nil_append, List.take_of_length_le (Nat.le_of_lt hb)]
  have hlen : ¬ i.header.length = headerBytes := by rw [hh]; decide
  unfold State.putUpdate
  rw [if_neg hlen, htake]
  exact if_pos hb

theorem State.install_of_not_busy {s : State} (h : s.fwuBusy = false) : s.firm.install = none := by
  unfold State.fwuBusy at h
  exact Option.isSome_eq_false_iff.1 (Bool.or_eq_false_iff.1 h).1 |> Option.isNone_iff_eq_none.1

end Sys2Proof.Machine
end

section
/-! The statement of platform management. -/

namespace Sys2Proof.Machine

open Sys2Proof.Safety

/-- Settles O57: a served endpoint answers by the row of its command alone (R833 for who may set an effecter). The content of the messages
is log entry 27's, and that I3C_MCTP_RECEIVE leaves the state log entry 26's. -/
theorem platformManagementCompletes : Obligations.PlatformManagementCompletes := by
  refine ⟨fun s a ho hd => ⟨exec_entdaa a ho hd, exec_setdasa a ho hd⟩, fun s ty b => rfl,
    fun s hs => ⟨exec_getPdrRepositoryInfo hs, fun k i _ _ h => exec_getPdr hs h, fun k h => exec_getPdr_unknown hs h,
      fun k h1 h16 => (exec_getSensorReading hs k).trans (by rw [if_pos ⟨h1, h16⟩]),
      fun k hk => (exec_getSensorReading hs k).trans (by rw [if_neg (by omega)]), exec_getStateSensorReadings hs rfl,
      exec_getStateSensorReadings hs rfl, exec_getStateSensorReadings hs rfl, exec_getStateSensorReadings hs rfl,
      exec_getStateSensorReadings hs rfl, fun v h600 h3200 => ?_, fun v hv => ?_,
      fun o k v h => exec_setNumericEffecterValue_refused hs h, (exec_getNumericEffecterValue hs 1).trans (by rw [if_pos rfl]),
      (exec_getNumericEffecterValue hs 2).trans (by rw [if_neg (by decide), if_pos rfl]),
      fun e r h => exec_pollForPlatformEventMessage hs h, fun h => exec_pollForPlatformEventMessage_none hs h⟩,
    fun s ep b hs => ⟨fun hb hlen => ?_, fun hb hi => ?_, fun i o hi hp hr ho h0 => exec_pldmFirmwareUpdate_next hs hi hp hr ho h0,
      fun h => (exec_activateFirmware hs).trans (by rw [if_pos h]), fun h => (exec_activateFirmware hs).trans (by rw [if_neg h])⟩⟩
  · have hcap : s.effecterSet 1 v = s.setRackCap v := if_pos rfl
    refine ⟨_, exec_setNumericEffecterValue hs (by simp [effecterOk, h600, h3200]), ?_⟩
    rw [hcap]
    obtain ⟨hbeat, hlost⟩ := (s.setRackCap v).beaten_pldmReply 0x31 0 []
    refine ⟨?_, hbeat.trans ?_, hlost⟩
    · rw [State.fld_pldmReply, State.rackCap_rackBeat]
      exact s.rackCap_setRackCap (by omega)
    · exact s.setRackCap_frame State.now (fun _ _ _ => rfl) (fun _ _ => rfl) (fun _ _ => rfl) (fun _ _ => rfl) v
  · have hset : s.effecterSet 2 v = { s with mgmt := { s.mgmt with heartbeat := v } } := if_neg (by decide)
    refine ⟨_, exec_setNumericEffecterValue hs (by simp [effecterOk, hv]), ?_⟩
    rw [hset]
    obtain ⟨hbeat, hlost⟩ := State.beaten_pldmReply { s with mgmt := { s.mgmt with heartbeat := v } } 0x31 0 []
    refine ⟨?_, hbeat, hlost⟩
    exact (State.pldmReply_frame (·.mgmt.heartbeat) (fun _ _ => rfl) _ _ _ _).trans
      (State.setHeartbeatLost_frame _ (·.mgmt.heartbeat) (fun _ _ _ => rfl) (fun _ _ => rfl) (fun _ _ => rfl) (fun _ _ => rfl) _ _)
  · have hput := (s.setFld F.FWU_STATUS_STATE 1).putUpdate_short
      { slot := 1 - s.runningSlot, header := [], origin := orMgmt, pldm := some ep } rfl hlen
    refine ⟨_, (exec_pldmFirmwareUpdate_first hs (State.install_of_not_busy hb)).trans
      (congrArg Host.Outcome.next ((if_neg (by rw [hb]; decide)).trans hput)), ?_, rfl, rfl⟩
    exact (State.fld_of_regs (s := s.setFld F.FWU_STATUS_STATE 1) rfl _).trans (State.fld_setFld_same s F.FWU_STATUS_STATE 1 (by decide))
  · exact (exec_pldmFirmwareUpdate_first hs hi).trans (congrArg Host.Outcome.next (if_pos hb))

end Sys2Proof.Machine
end
